-- ==== Sys2Proof/Word.lean ====
section
/-! DEFINITION. The word types of the model and the two container types State is built from: a sparse
table in one canonical form, and byte memory, which is such a table of bytes. -/

namespace Sys2Proof

/-- One byte (R3). -/
abbrev Byte := BitVec 8

/-- A 32-bit word: a DRW register (R451), a Grove register (Table 10-2). -/
abbrev Word := BitVec 32

/-- A Canopy tick count in ct (R5, R245). -/
abbrev Tick := Nat

/-- An 80-bit Canopy time as one number in fraction LSB: tick count times 65,536 plus the fraction (R5). -/
abbrev Stamp := Nat

/-- A sparse table: (key, value) pairs with strictly rising keys and no entry that holds the table's default. -/
abbrev Tab (α : Type) := List (Nat × α)

/-- Byte memory: a sparse table of bytes whose default is the byte 0; its entries have the type Host.Cell. -/
abbrev Mem := Tab Byte

end Sys2Proof
end

