-- ==== Sys2Proof/Syntax.lean ====
section
/-! DEFINITION. The commands of the block: one constructor per row of spec/opcode_table.json. A ZCI command is its
envelope and the 224 bytes that follow it in its ring entry; a Grove instruction is the core that issues it and the
operand bits of its word; an event is what reached the engine. -/

namespace Sys2Proof

/-- The envelope of a ZCI command (Table 13-6) with the session whose ring holds it and the Canopy tick at which the
control processor takes it up (R251). The opcode is the constructor's. -/
structure Cmd where
  /-- The Canopy tick at which the command is applied or rejected (R251, R460). -/
  t       : Tick
  /-- The session whose command ring holds the entry (R459). -/
  session : Fin 16
  /-- TAG. -/
  tag     : BitVec 16
  /-- PLEN, the parameter block's length in 8-byte units. -/
  plen    : BitVec 5
  /-- FENCE. -/
  fence   : Bool
  /-- TIMEOUT in ms, 0 = no limit. -/
  timeout : BitVec 32
  /-- The reserved bits [39:37], [63:41] and [255:96] of the envelope, lowest first. -/
  rsv     : BitVec 186
  deriving DecidableEq, Repr

/-- Bytes 32 to 255 of a command ring entry: the parameter block is its low bits, the rest is ignored (R459). -/
abbrev Block := BitVec 1792

/-- What the measurement of a calibration step found (Tables 9-3, 9-4): of a TONE its level, its frequency and its purity; of a blind step
whether the estimator was confident; else the values it proposes, over the whole and over each half. -/
structure Measured where
  /-- Level of the tone at the converter, over the whole and each half, in 10^-6 dBFS. -/
  level     : Int
  level1    : Int
  level2    : Int
  /-- Its frequency against the node, in mHz. -/
  freq      : Nat
  /-- Tone to residual power in its bin, in 10^-6 dB. -/
  purity    : Int
  /-- The confidence of a blind estimator is not below its threshold. -/
  confident : Bool
  /-- The values proposed, as 32-bit codes of their items, over the whole and each half. -/
  vals      : List Nat
  vals1     : List Nat
  vals2     : List Nat
  deriving DecidableEq, Repr

/-- One constructor per row of spec/opcode_table.json. `t` is the Canopy tick at which the row acts. -/
inductive Instr where
  /-- SYS_GET_INFO (R474): Command that returns the ZCI revision, firmware version, SECVER, serial, KEYID, life-cycle state, calling session and link state. -/
  | sysGetInfo (c : Cmd) (p : Block)
  /-- SYS_ALLOC (R475): Command that allocates a range of units of one resource class to the calling session, acting on all of them or on none. -/
  | sysAlloc (c : Cmd) (p : Block)
  /-- SYS_FREE (R475): Command that frees a range of units the caller owns, refused while any of them is in use. -/
  | sysFree (c : Cmd) (p : Block)
  /-- SYS_GET_ALLOC (R475): Command that returns the owning session of each unit in a range of a resource class. -/
  | sysGetAlloc (c : Cmd) (p : Block)
  /-- SYS_FW_STAGE (R472): Command that checks a signed firmware image in host memory and writes it into the slot not running. -/
  | sysFwStage (c : Cmd) (p : Block) (img : List Nat)
  /-- SYS_FW_ACTIVATE (R473): Command that schedules a device reset from the staged firmware slot 1 ms later, with fallback if the new firmware fails to start. -/
  | sysFwActivate (c : Cmd) (p : Block)
  /-- SYS_RESET (R476): Command that, when every other session is CLOSED, schedules a device reset 1 ms after it is applied and writes no completion. -/
  | sysReset (c : Cmd) (p : Block)
  /-- SYS_NOP (R476): Command that does nothing; with FENCE set, its completion shows that every earlier command of the session has completed. -/
  | sysNop (c : Cmd) (p : Block)
  /-- FE_SET_MODE (R58): Command that sets a pair's converter rate and single or pair mode, ending and recreating streams and relocking or stepping the sample PLL. -/
  | feSetMode (c : Cmd) (p : Block)
  /-- FE_SET_SOURCE (R59): Command that routes a channel or pair to a source at a grain boundary, starting a new epoch and a settle window. -/
  | feSetSource (c : Cmd) (p : Block)
  /-- FE_SET_ATTEN (R60): Command that sets an input's attenuator at the next grain boundary and can clear a protection trip. -/
  | feSetAtten (c : Cmd) (p : Block)
  /-- FE_STREAM (R61): Command that starts or stops selected streams, either at once or as a pending action at START_CT. -/
  | feStream (c : Cmd) (p : Block)
  /-- FE_GET_STATUS (R62): Command that returns a target's source, attenuator, mode, running state, epoch and flag counts, optionally clearing the counts. -/
  | feGetStatus (c : Cmd) (p : Block)
  /-- FE_SET_PROTECT (R63): Command that enables or disables input protection on one RF input. -/
  | feSetProtect (c : Cmd) (p : Block)
  /-- CLK_SET_REF (R257): Command that selects the reference source and configures REF_OUT frequency, delay and enable. -/
  | clkSetRef (c : Cmd) (p : Block)
  /-- CLK_SET_PLL (R258): Command that sets AUTORELOCK and DELAY of a PLL and optionally relocks it now. -/
  | clkSetPll (c : Cmd) (p : Block)
  /-- CLK_BUILD_HOPS (R259): Command that runs a band search for every N of a sample PLL, fills its hop table and relocks at the present N. -/
  | clkBuildHops (c : Cmd) (p : Block)
  /-- CLK_SET_PPS (R260): Command that sets the PPS discipline mode (off, MONITOR, STEER), the edge polarity and PPS_EDGE posting. -/
  | clkSetPps (c : Cmd) (p : Block)
  /-- CLK_SET_TIME (R261): Command that aligns the Canopy count to a SECONDS label at the next accepted PPS edge by a whole number of node periods. -/
  | clkSetTime (c : Cmd) (p : Block)
  /-- CLK_GET_STATUS (R262): Command that returns reference, PLL, Canopy and PPS state, optionally clearing LOSSCOUNT. -/
  | clkGetStatus (c : Cmd) (p : Block)
  /-- CAL_RUN (R309): Command that runs one calibration step on a target, checks its result for plausibility and writes a signed record. -/
  | calRun (c : Cmd) (p : Block)
  /-- CAL_SET_BLIND (R311): Command that schedules or ends periodic blind offset and interleave steps on a target. -/
  | calSetBlind (c : Cmd) (p : Block)
  /-- CAL_RESTORE (R310): Command that places a target's factory correction values in force at one grain boundary and writes a record. -/
  | calRestore (c : Cmd) (p : Block)
  /-- CAL_READ (R312): Command that copies the whole correction set, consistent at one tick, to device memory. -/
  | calRead (c : Cmd) (p : Block)
  /-- CAL_GET_RECORD (R313): Command that copies a retained calibration record, chosen by age, to device memory. -/
  | calGetRecord (c : Cmd) (p : Block)
  /-- CAL_GET_STATUS (R314): Command that returns the calibration count, latest acceptance times, drift and blind schedule state. -/
  | calGetStatus (c : Cmd) (p : Block)
  /-- SPEC_SET_LANE (R107): Command that configures, enables or disables a wideband or zoom lane at a grain boundary and returns CG and ENBW. -/
  | specSetLane (c : Cmd) (p : Block)
  /-- SPEC_LOAD_WINDOW (R108): Command that reads and checks user window coefficients from host memory and then replaces a window slot. -/
  | specLoadWindow (c : Cmd) (p : Block) (data : List Nat)
  /-- SPEC_SET_DDC (R109): Command that configures, enables or disables a down-converter, starting a DDC epoch. -/
  | specSetDdc (c : Cmd) (p : Block)
  /-- SPEC_TUNE_DDC (R110): Command that retunes a DDC's NCO with continuous phase from its next output grain. -/
  | specTuneDdc (c : Cmd) (p : Block)
  /-- SPEC_SET_TRACE (R111): Command that configures a trace unit's detector, bin range, points, M and ring. -/
  | specSetTrace (c : Cmd) (p : Block)
  /-- SPEC_SET_OUTPUT (R112): Command that configures a lane's spectrum output bins, format, decimation and ring. -/
  | specSetOutput (c : Cmd) (p : Block)
  /-- SPEC_GET_STATUS (R113): Command that returns a lane's state, margin, demand, gap count and the governor state. -/
  | specGetStatus (c : Cmd) (p : Block)
  /-- SPEC_SET_GOVERNOR (R106): Command that registers or withdraws the session's request to hold the core supply at 0.85 V. -/
  | specSetGovernor (c : Cmd) (p : Block)
  /-- ACQ_SET_TERM (R152): Command that configures one trigger term slot of an acquisition unit. -/
  | acqSetTerm (c : Cmd) (p : Block)
  /-- ACQ_SET_COMBINER (R153): Command that selects an acquisition unit's terms, combining mode, window, holdoff and reset term. -/
  | acqSetCombiner (c : Cmd) (p : Block)
  /-- ACQ_SET_CAPTURE (R154): Command that sets an acquisition unit's capture mode, streams, rings, PRE, POST and segments. -/
  | acqSetCapture (c : Cmd) (p : Block)
  /-- ACQ_ARM (R143): Command that checks and admits a unit's capture and arms it at the next grain boundary or at AT_CT. -/
  | acqArm (c : Cmd) (p : Block)
  /-- ACQ_STOP (R141): Command that stops an acquisition unit, setting the stop point of a continuous capture or truncating an open segment. -/
  | acqStop (c : Cmd) (p : Block)
  /-- ACQ_FORCE (R142): Command that acts as an accepted trigger at the grain at which it is applied. -/
  | acqForce (c : Cmd) (p : Block)
  /-- ACQ_LOAD_MASK (R156): Command that reads, checks and writes breakpoints into the shared mask table. -/
  | acqLoadMask (c : Cmd) (p : Block) (data : List Nat)
  /-- ACQ_SET_MASK (R130): Command that configures a lane's mask slot to apply from the frame at or after a named grain. -/
  | acqSetMask (c : Cmd) (p : Block)
  /-- ACQ_SET_TEST (R158): Command that configures a time or frequency mask test of an acquisition unit. -/
  | acqSetTest (c : Cmd) (p : Block)
  /-- ACQ_SET_EVT_OUT (R159): Command that assigns an EVT_OUT pin its source, polarity, timing, width and delay. -/
  | acqSetEvtOut (c : Cmd) (p : Block)
  /-- ACQ_GET_STATUS (R160): Command that returns an acquisition unit's state and counts, optionally clearing MISSED and EVTDROP. -/
  | acqGetStatus (c : Cmd) (p : Block)
  /-- DENS_SET_MAP (R172): Command that binds, configures, enables or disables a density map between two spectra. -/
  | densSetMap (c : Cmd) (p : Block)
  /-- DENS_CLEAR (R170): Command that zeroes a map's cells and counts between two spectra and reseeds its LFSRs. -/
  | densClear (c : Cmd) (p : Block)
  /-- DENS_READ (R171): Command that copies a map, live or frozen, with a header to device memory. -/
  | densRead (c : Cmd) (p : Block)
  /-- DENS_SET_PIGMENT (R174): Command that loads a pigment table's entries, curve and limits into a shadow that takes effect at a line boundary. -/
  | densSetPigment (c : Cmd) (p : Block) (data : List Nat)
  /-- DISP_SET_MODE (R179): Command that sets or ends a display port's mode through the panel power sequence and link training. -/
  | dispSetMode (c : Cmd) (p : Block)
  /-- DISP_SET_LAYER (R187): Command that configures one layer of a port, applying from the first line whose fetch starts after it. -/
  | dispSetLayer (c : Cmd) (p : Block)
  /-- DISP_SET_EVENTS (R199): Command that enables the VBLANK, LINE and FRAME_DONE events of a port and sets LMATCH. -/
  | dispSetEvents (c : Cmd) (p : Block)
  /-- DISP_FALLOW (R200): Command that enters or leaves Fallow panel self-refresh on a port. -/
  | dispFallow (c : Cmd) (p : Block)
  /-- DISP_AUX (R201): Command that performs one native or I2C-over-AUX transaction on a port's AUX channel. -/
  | dispAux (c : Cmd) (p : Block)
  /-- DISP_GET_STATUS (R202): Command that returns a port's mode, link, Fallow, line and frame state, optionally clearing UNDERRUNS. -/
  | dispGetStatus (c : Cmd) (p : Block)
  /-- DENS_GET_STATUS (R203): Command that returns a map's state and counts, optionally clearing SKIPPED. -/
  | densGetStatus (c : Cmd) (p : Block)
  /-- MON_SET_CONTEXT (R227): Command that configures, enables or disables one monitor context and assigns its PHASE. -/
  | monSetContext (c : Cmd) (p : Block)
  /-- MON_LOAD (R228): Command that checks and applies up to 65,536 monitor context blocks from host memory between two rounds. -/
  | monLoad (c : Cmd) (p : Block) (data : List Nat)
  /-- MON_CLEAR (R229): Command that resets the history and zeroes the dynamic state of a range of contexts between two rounds. -/
  | monClear (c : Cmd) (p : Block)
  /-- MON_SNAPSHOT (R223): Command that freezes a range of contexts at one tick and writes them to device memory. -/
  | monSnapshot (c : Cmd) (p : Block)
  /-- MON_READ (R231): Command that returns the record of one monitor context, read between two of its updates. -/
  | monRead (c : Cmd) (p : Block)
  /-- MON_SET_LOG (R231): Command that names the calling session's occupancy log ring. -/
  | monSetLog (c : Cmd) (p : Block)
  /-- MON_GET_STATUS (R232): Command that returns the monitor budget, cadence factor, snapshot state and loss counts. -/
  | monGetStatus (c : Cmd) (p : Block)
  /-- TIU_SET_INPUT (R286): Command that sets a TIU input's comparator, edge, prescaler, enable and queueing. -/
  | tiuSetInput (c : Cmd) (p : Block)
  /-- TIU_SET_STATS (R287): Command that starts or stops a statistics unit in PERIOD or INTERVAL mode. -/
  | tiuSetStats (c : Cmd) (p : Block)
  /-- TIU_GET_STATS (R288): Command that returns a statistics unit's results and counts, optionally clearing them. -/
  | tiuGetStats (c : Cmd) (p : Block)
  /-- TIU_READ (R289): Command that moves the oldest queued stamps of an input to device memory. -/
  | tiuRead (c : Cmd) (p : Block)
  /-- TIU_SET_DRAIN (R290): Command that names or removes a drain ring for an input's stamp queue. -/
  | tiuSetDrain (c : Cmd) (p : Block)
  /-- TIU_CAL (R291): Command that runs code-density bin-width calibration on selected TIU inputs in parallel. -/
  | tiuCal (c : Cmd) (p : Block)
  /-- TIU_GET_STATUS (R292): Command that returns a TIU input's state, queue depth and loss counts, optionally clearing them. -/
  | tiuGetStatus (c : Cmd) (p : Block)
  /-- GROVE_LOAD (R348): Command that copies a program or data image from host memory into a core's scratchpad. -/
  | groveLoad (c : Cmd) (p : Block) (data : List Nat)
  /-- GROVE_START (R349): Command that zeroes and starts named cores at one Canopy tick with initial G0-G3. -/
  | groveStart (c : Cmd) (p : Block)
  /-- GROVE_STOP (R350): Command that stops named running or waiting cores at an iteration boundary with cause 5. -/
  | groveStop (c : Cmd) (p : Block)
  /-- GROVE_SET_SHADOW (R351): Command that stages bank-1 register writes into a core and optionally raises SIGNAL. -/
  | groveSetShadow (c : Cmd) (p : Block)
  /-- GROVE_SET_FEED (R352): Command that configures, enables or disables a Grove feed. -/
  | groveSetFeed (c : Cmd) (p : Block)
  /-- GROVE_SET_BARRIER (R353): Command that configures and enables or disables a barrier group, clearing a broken state. -/
  | groveSetBarrier (c : Cmd) (p : Block)
  /-- GROVE_READ (R354): Command that copies scratchpad bytes of a core to device memory through the second port. -/
  | groveRead (c : Cmd) (p : Block)
  /-- GROVE_GET_STATUS (R355): Command that returns a core's state, PC, fault address, STAT and counts. -/
  | groveGetStatus (c : Cmd) (p : Block)
  /-- GROVE_GET_FEED (R356): Command that returns a feed's counters and drop counts, optionally clearing them. -/
  | groveGetFeed (c : Cmd) (p : Block)
  /-- MEM_ALLOC (R375): Command that allocates a zeroed region of device memory, waiting for zeroing if needed. -/
  | memAlloc (c : Cmd) (p : Block)
  /-- MEM_FREE (R376): Command that frees a region at once, or defers the free while display references remain. -/
  | memFree (c : Cmd) (p : Block)
  /-- MEM_SET_RING (R377): Command that turns a region into a record ring, a capture ring or back into a plain region. -/
  | memSetRing (c : Cmd) (p : Block)
  /-- MEM_RING_ACK (R380): Command that advances a record ring's RPOS. -/
  | memRingAck (c : Cmd) (p : Block)
  /-- MEM_RING_STATUS (R390): Command that returns a ring's kind, positions and loss count, optionally clearing LOST. -/
  | memRingStatus (c : Cmd) (p : Block)
  /-- MEM_COMMONS (R391): Command that allocates or frees a contiguous run of commons pages. -/
  | memCommons (c : Cmd) (p : Block)
  /-- MEM_RETIRE (R392): Command that retires a rank and completes when its switch-over to the quadrant's spare has ended. -/
  | memRetire (c : Cmd) (p : Block)
  /-- MEM_GET_STATUS (R393): Command that returns memory health, retirement, poison and capacity state. -/
  | memGetStatus (c : Cmd) (p : Block)
  /-- MEM_GET_POISON (R394): Command that copies the poison list to device memory. -/
  | memGetPoison (c : Cmd) (p : Block)
  /-- DMA_SET_CHANNEL (R437): Command that enables a DMA channel in CHAIN or SHADOW mode, or disables it at the next burst boundary. -/
  | dmaSetChannel (c : Cmd) (p : Block)
  /-- DMA_SET_SHADOW (R438): Command that writes a descriptor into a SHADOW-mode channel's empty shadow. -/
  | dmaSetShadow (c : Cmd) (p : Block)
  /-- DMA_RAISE (R439): Command that asserts or withdraws a software request line. -/
  | dmaRaise (c : Cmd) (p : Block)
  /-- DMA_SET_TIMER (R439): Command that starts or stops a timer request line with a period and start tick. -/
  | dmaSetTimer (c : Cmd) (p : Block)
  /-- DMA_GET_STATUS (R440): Command that returns a DMA channel's state and counts, optionally clearing them. -/
  | dmaGetStatus (c : Cmd) (p : Block)
  /-- STREAM_SET (R441): Command that enables or disables a streaming channel from a device ring to a host ring. -/
  | streamSet (c : Cmd) (p : Block)
  /-- STOR_SET_PORT (R416): Command that trains, enumerates and enables the storage links and drives, or idles them. -/
  | storSetPort (c : Cmd) (p : Block)
  /-- STOR_FORMAT (R429): Command that writes CVF labels and empty directory copies on every enabled drive. -/
  | storFormat (c : Cmd) (p : Block)
  /-- STOR_MOUNT (R430): Command that checks labels, measures the drives, repairs an open entry and mounts the volume. -/
  | storMount (c : Cmd) (p : Block)
  /-- STOR_UNMOUNT (R443): Command that flushes and shuts down every drive and unmounts the volume. -/
  | storUnmount (c : Cmd) (p : Block)
  /-- REC_OPEN (R433): Command that admits and opens a recording, writing its directory entry before it completes. -/
  | recOpen (c : Cmd) (p : Block)
  /-- REC_CLOSE (R436): Command that ends the open recording, writes its last stripe, flushes and seals it. -/
  | recClose (c : Cmd) (p : Block)
  /-- STOR_GET_STATUS (R445): Command that returns storage port, volume and recording state. -/
  | storGetStatus (c : Cmd) (p : Block)
  /-- STOR_LOG_PAGE (R446): Command that copies the first 4,096 bytes of a drive log page to device memory. -/
  | storLogPage (c : Cmd) (p : Block)
  /-- AUX_SET_REF (R493): Command that selects the aux converter reference. -/
  | auxSetRef (c : Cmd) (p : Block)
  /-- AUX_SET_INPUT (R493): Command that sets one aux input's range and limits. -/
  | auxSetInput (c : Cmd) (p : Block)
  /-- AUX_SET_SEQ (R494): Command that loads and starts, replaces or stops the aux conversion sequence. -/
  | auxSetSeq (c : Cmd) (p : Block)
  /-- AUX_GET_STATUS (R495): Command that returns the aux converter state and last codes, optionally clearing OVRCOUNT. -/
  | auxGetStatus (c : Cmd) (p : Block)
  /-- CTL_SET_OUTPUT (R496): Command that enables, disables or configures a control output and writes its code. -/
  | ctlSetOutput (c : Cmd) (p : Block)
  /-- CTL_WRITE (R497): Command that writes codes to several control outputs at one Canopy tick, at once or at AT_CT. -/
  | ctlWrite (c : Cmd) (p : Block)
  /-- CTL_GET_STATUS (R498): Command that returns the status word of every control output. -/
  | ctlGetStatus (c : Cmd) (p : Block)
  /-- FLT_GET_STATUS (R521): Command that returns the engine and group fault summary. -/
  | fltGetStatus (c : Cmd) (p : Block)
  /-- FLT_SET_SEVERITY (R522): Command that sets one fault source's severity, not below its floor. -/
  | fltSetSeverity (c : Cmd) (p : Block)
  /-- FLT_GET_RECORD (R521): Command that returns a group's first-error record. -/
  | fltGetRecord (c : Cmd) (p : Block)
  /-- FLT_CLEAR (R503): Command that clears named groups and, with RECOVER, returns the engine from the fatal state when its conditions hold. -/
  | fltClear (c : Cmd) (p : Block)
  /-- FLT_FORCE (R509): Command that forces a field-forceable fault source or corrupts a device-memory line's check word. -/
  | fltForce (c : Cmd) (p : Block)
  /-- SEC_GET_CERT (R525): Command that copies one certificate of the identity chain to device memory. -/
  | secGetCert (c : Cmd) (p : Block)
  /-- SEC_ATTEST (R518): Command that digests a region and writes a signed attestation with fault counts. -/
  | secAttest (c : Cmd) (p : Block)
  /-- SEC_SET_LIFECYCLE (R524): Command that makes an authorised life-cycle transition, followed by a device reset. -/
  | secSetLifecycle (c : Cmd) (p : Block) (auth : List Nat)
  /-- SEC_GET_STATUS (R527): Command that returns life-cycle, key, store and challenge state. -/
  | secGetStatus (c : Cmd) (p : Block)
  /-- PERF_SET_COUNTER (R528): Command that configures a performance counter's source, instance and mode. -/
  | perfSetCounter (c : Cmd) (p : Block)
  /-- PERF_CONTROL (R528): Command that starts, stops or clears masked counters at one tick, now or at AT_CT. -/
  | perfControl (c : Cmd) (p : Block)
  /-- PERF_READ (R528): Command that copies masked counters, read at one tick, to device memory. -/
  | perfRead (c : Cmd) (p : Block)
  /-- NOP (R329): Grove instruction that does nothing. -/
  | gNop (t : Nat) (core : Nat) (w : BitVec 26)
  /-- ADD (R329): Grove instruction: Gd gets Ga plus Gb modulo 2^32. -/
  | gAdd (t : Nat) (core : Nat) (w : BitVec 26)
  /-- SUB (R329): Grove instruction: Gd gets Ga minus Gb. -/
  | gSub (t : Nat) (core : Nat) (w : BitVec 26)
  /-- AND (R329): Grove instruction: bitwise AND. -/
  | gAnd (t : Nat) (core : Nat) (w : BitVec 26)
  /-- OR (R329): Grove instruction: bitwise OR. -/
  | gOr (t : Nat) (core : Nat) (w : BitVec 26)
  /-- XOR (R329): Grove instruction: bitwise XOR. -/
  | gXor (t : Nat) (core : Nat) (w : BitVec 26)
  /-- SHL (R329): Grove instruction: shift left by Gb[4:0]. -/
  | gShl (t : Nat) (core : Nat) (w : BitVec 26)
  /-- SHR (R329): Grove instruction: logical right shift by Gb[4:0]. -/
  | gShr (t : Nat) (core : Nat) (w : BitVec 26)
  /-- SAR (R329): Grove instruction: arithmetic right shift by Gb[4:0]. -/
  | gSar (t : Nat) (core : Nat) (w : BitVec 26)
  /-- SLT (R329): Grove instruction: Gd gets 1 if Ga is less than Gb signed. -/
  | gSlt (t : Nat) (core : Nat) (w : BitVec 26)
  /-- SLTU (R329): Grove instruction: Gd gets 1 if Ga is less than Gb unsigned. -/
  | gSltu (t : Nat) (core : Nat) (w : BitVec 26)
  /-- MUL (R329): Grove instruction: low 32 bits of the signed product, latency 2. -/
  | gMul (t : Nat) (core : Nat) (w : BitVec 26)
  /-- ADDI (R329): Grove instruction: add a sign-extended 18-bit immediate. -/
  | gAddi (t : Nat) (core : Nat) (w : BitVec 26)
  /-- ANDI (R329): Grove instruction: AND with a sign-extended 18-bit immediate. -/
  | gAndi (t : Nat) (core : Nat) (w : BitVec 26)
  /-- ORI (R329): Grove instruction: OR with a zero-extended 18-bit immediate. -/
  | gOri (t : Nat) (core : Nat) (w : BitVec 26)
  /-- SHI (R329): Grove instruction: shift by an immediate amount in the kind selected. -/
  | gShi (t : Nat) (core : Nat) (w : BitVec 26)
  /-- MOVI (R329): Grove instruction: Gd gets a sign-extended 16-bit immediate. -/
  | gMovi (t : Nat) (core : Nat) (w : BitVec 26)
  /-- MOVHI (R329): Grove instruction: write the upper half of Gd, keeping the lower half. -/
  | gMovhi (t : Nat) (core : Nat) (w : BitVec 26)
  /-- CMUL (R327): Grove instruction: complex Q15 multiply with convergent rounding. -/
  | gCmul (t : Nat) (core : Nat) (w : BitVec 26)
  /-- CADDS (R327): Grove instruction: complex saturating add. -/
  | gCadds (t : Nat) (core : Nat) (w : BitVec 26)
  /-- CSUBS (R327): Grove instruction: complex saturating subtract. -/
  | gCsubs (t : Nat) (core : Nat) (w : BitVec 26)
  /-- MOVR (R329): Grove instruction: move between registers of the bank in use. -/
  | gMovr (t : Nat) (core : Nat) (w : BitVec 26)
  /-- SMOV (R322): Grove instruction: write a register of the bank not in use. -/
  | gSmov (t : Nat) (core : Nat) (w : BitVec 26)
  /-- MOVSR (R325): Grove instruction: read a special register, latching CNTH on a CNTL read. -/
  | gMovsr (t : Nat) (core : Nat) (w : BitVec 26)
  /-- MOVRS (R325): Grove instruction: write a special register, arming the timer on TCMPH. -/
  | gMovrs (t : Nat) (core : Nat) (w : BitVec 26)
  /-- LD (R324): Grove instruction: load a word with optional post-modify, stalling on a commons address. -/
  | gLd (t : Nat) (core : Nat) (w : BitVec 26)
  /-- LDH (R324): Grove instruction: load a sign-extended halfword with optional post-modify. -/
  | gLdh (t : Nat) (core : Nat) (w : BitVec 26)
  /-- ST (R320): Grove instruction: store a word, posted when it targets the commons. -/
  | gSt (t : Nat) (core : Nat) (w : BitVec 26)
  /-- STH (R320): Grove instruction: store a halfword. -/
  | gSth (t : Nat) (core : Nat) (w : BitVec 26)
  /-- STA (R327): Grove instruction: store an accumulator converted to Q15. -/
  | gSta (t : Nat) (core : Nat) (w : BitVec 26)
  /-- VSTA (R327): Grove instruction: store four accumulators converted to Q15. -/
  | gVsta (t : Nat) (core : Nat) (w : BitVec 26)
  /-- RDA (R327): Grove instruction: convert an accumulator to Q15 into Gd. -/
  | gRda (t : Nat) (core : Nat) (w : BitVec 26)
  /-- VMAC_D (R326): Grove instruction: accumulate the sum of four complex products into one accumulator. -/
  | gVmacD (t : Nat) (core : Nat) (w : BitVec 26)
  /-- VMAC_P (R326): Grove instruction: accumulate four complex products into four accumulators. -/
  | gVmacP (t : Nat) (core : Nat) (w : BitVec 26)
  /-- VMAG_P (R326): Grove instruction: accumulate four squared magnitudes into four accumulators. -/
  | gVmagP (t : Nat) (core : Nat) (w : BitVec 26)
  /-- CMAC (R326): Grove instruction: accumulate one complex product of two G registers. -/
  | gCmac (t : Nat) (core : Nat) (w : BitVec 26)
  /-- BR (R331): Grove instruction: conditional branch with two delay slots. -/
  | gBr (t : Nat) (core : Nat) (w : BitVec 26)
  /-- CALL (R331): Grove instruction: save the return address in G15 and branch. -/
  | gCall (t : Nat) (core : Nat) (w : BitVec 26)
  /-- JR (R331): Grove instruction: branch to the address in Gc. -/
  | gJr (t : Nat) (core : Nat) (w : BitVec 26)
  /-- REPEAT (R332): Grove instruction: issue the next instruction a fixed number of times without interruption. -/
  | gRepeat (t : Nat) (core : Nat) (w : BitVec 26)
  /-- REPR (R332): Grove instruction: as REPEAT with the count taken from Ga. -/
  | gRepr (t : Nat) (core : Nat) (w : BitVec 26)
  /-- RETI (R337): Grove instruction: stop issue to return from the interrupt handler. -/
  | gReti (t : Nat) (core : Nat) (w : BitVec 26)
  /-- WAIT (R335): Grove instruction: stall until an enabled interrupt source is pending. -/
  | gWait (t : Nat) (core : Nat) (w : BitVec 26)
  /-- HALT (R340): Grove instruction: stop the core with cause 0. -/
  | gHalt (t : Nat) (core : Nat) (w : BitVec 26)
  /-- BAR (R341): Grove instruction: register arrival at a barrier group and stall until the last member arrives. -/
  | gBar (t : Nat) (core : Nat) (w : BitVec 26)
  /-- FREL (R343): Grove instruction: advance a feed's CORE counter. -/
  | gFrel (t : Nat) (core : Nat) (w : BitVec 26)
  /-- SYNC (R320): Grove instruction: stall until every posted commons store of the core is complete. -/
  | gSync (t : Nat) (core : Nat) (w : BitVec 26)
  /-- NOTIFY (R329): Grove instruction: set the NOTIFY pending bit of another core. -/
  | gNotify (t : Nat) (core : Nat) (w : BitVec 26)
  /-- POST (R357): Grove instruction: post a GROVE_USER event, limited to one per 1,600 ct. -/
  | gPost (t : Nat) (core : Nat) (w : BitVec 26)
  /-- SQ_TAIL_WRITE (R453): Doorbell write of a session's command ring tail, accepted or refused and renewing the lease. -/
  | sqTailWrite (t : Nat) (n : Nat) (v : Nat)
  /-- CQ_HEAD_WRITE (R453): Doorbell write of a session's completion ring head, accepted or refused. -/
  | cqHeadWrite (t : Nat) (n : Nat) (v : Nat)
  /-- EVT_HEAD_WRITE (R453): Doorbell write of the event ring head, accepted or refused. -/
  | evtHeadWrite (t : Nat) (v : Nat)
  /-- STRDB_WRITE (R412): Streaming doorbell write that advances a channel's HRPOS or is ignored. -/
  | strdbWrite (t : Nat) (n : Nat) (v : Nat)
  /-- QCTL_OPEN (R454): QCTL write with OPEN that opens a CLOSED session when its ring configuration is valid. -/
  | qctlOpen (t : Nat) (n : Nat)
  /-- QCTL_RECLAIM (R456): QCTL write with RECLAIM that returns a DETACHED session to OPEN when its cookie matches. -/
  | qctlReclaim (t : Nat) (n : Nat)
  /-- QCTL_CLOSE (R457): QCTL write with CLOSE that starts a release of an OPEN or DETACHED session with cause 0. -/
  | qctlClose (t : Nat) (n : Nat)
  /-- LEASE_WRITE (R455): Write of a session's LEASE register that starts a new lease period. -/
  | leaseWrite (t : Nat) (n : Nat) (v : Nat)
  /-- EVT_CTL_WRITE (R462): Write of EVT_CTL that enables the event ring, zeroing its indices, or disables it. -/
  | evtCtlWrite (t : Nat) (v : Nat)
  /-- TIME0_READ (R452): Read of TIME0 that returns the Canopy time low word and latches the higher words. -/
  | time0Read (t : Nat)
  /-- SERIAL0_READ (R452): Read of SERIAL0 that latches the other serial words. -/
  | serial0Read (t : Nat)
  /-- LATCHED_WORD_READ (R452): Read of a higher word of a multi-word value that returns and releases its latch. -/
  | latchedWordRead (t : Nat) (k : Nat)
  /-- AUX_DATA_READ (R485): Read of AUX_DATA that clears NEW and OVR when it returns NEW set. -/
  | auxDataRead (t : Nat)
  /-- CTL_CODE_WRITE (R491): Direct write of a control output code, accepted only with DIRECT set. -/
  | ctlCodeWrite (t : Nat) (n : Nat) (v : Nat)
  /-- REGISTER_WRITE (R451): Write or non-DWORD access to a DRW register with no behaviour of its own, taking effect or ignored with DRWERR.IGNORED. -/
  | registerWrite (t : Nat) (off : Nat) (v : Nat) (kind : Nat)
  /-- COMMAND_FETCH (R459): Completion of a command entry fetch from a session's command ring, with one retry and FETCHERR on failure. -/
  | commandFetch (c : Cmd) (opcode : BitVec 16) (res : Nat)
  /-- COMMAND_TIMEOUT (R467): Expiry of a command's TIMEOUT before application, completing it with TIMEOUT. -/
  | commandTimeout (t : Nat) (n : Nat) (idx : Nat)
  /-- COMPLETION_SIGNAL_HOLD_END (R463): End of the 2 µs interrupt hold of a completion ring, sending a held MSI-X signal. -/
  | completionSignalHoldEnd (t : Nat) (n : Nat)
  /-- EVENT_DELAY_EXPIRY (R463): Expiry of EVT_DELAY for an unsignalled event record, signalling the event vector. -/
  | eventDelayExpiry (t : Nat)
  /-- SYS_LEASE (R455): Half of a session's lease passes without renewal and the warning is posted. -/
  | sysLease (t : Nat) (n : Nat)
  /-- LEASE_EXPIRY (R455): A session's lease runs out and a release with cause 2 starts. -/
  | leaseExpiry (t : Nat) (n : Nat)
  /-- RELEASE_END (R457): A session release finishes releasing its resources group by group and the session becomes CLOSED. -/
  | releaseEnd (t : Nat) (n : Nat)
  /-- HOST_INTERFACE_RESET (R450): HP_PERST, Hot Reset, DL_Down or return from D3hot resets the host port and detaches or releases sessions. -/
  | hostInterfaceReset (t : Nat) (cause : Nat)
  /-- HEARTBEAT_ADVANCE (R451): Every 1,600,000 ct while ready or fatal, HEARTBEAT advances by one. -/
  | heartbeatAdvance (t : Nat)
  /-- GRAIN_TAG (R49): A grain of 256 samples is packed, corrected and tagged in its ADC island. -/
  | grainTag (t : Nat) (id : Nat) (codes : List Nat)
  /-- OVERLOAD_END (R64): After 65,536 grains without OVERLOAD an overload episode ends and the event is posted. -/
  | overloadEnd (t : Nat) (id : Nat)
  /-- EPOCH_ROLLOVER (R23): A grain index would pass 2^48 − 1, so the stream enters a new epoch at index 0. -/
  | epochRollover (t : Nat) (id : Nat)
  /-- GRAIN_DELIVERY (R13): A tagged grain reaches a consumer, which checks its tag and captures, triggers on, feeds, streams or records it, or accounts it as missing. -/
  | grainDelivery (t : Nat) (k : Nat) (id : Nat) (n : Nat) (tid : Nat) (ok : Bool) (fill : Nat)
  /-- ACQ_ARM_AT_CT (R155): AT_CT of an armed-to-be unit arrives and the unit starts capturing. -/
  | acqArmAtCt (t : Nat)
  /-- SPECTRUM_COMPUTE (R74): The grain holding a frame's last sample is accepted and the lane computes and delivers the spectrum to every consumer. -/
  | spectrumCompute (t : Nat) (c : Nat) (margin : Nat)
  /-- TIME_TEST_VERDICT (R145): Within 2 µs of a segment's close, the time test compares the captured samples and writes TTEST. -/
  | timeTestVerdict (t : Nat) (a : Nat)
  /-- EVT_OUT_PULSE (R149): A fixed-timing EVT_OUT pulse falls due at its tick and its leading edge is driven. -/
  | evtOutPulse (t : Nat)
  /-- EVT_OUT_PULSE_END (R148): An EVT_OUT pulse's WIDTH expires and the pin returns to inactive. -/
  | evtOutPulseEnd (t : Nat)
  /-- GOV_RAISE_STEP (R102): Every 2 µs while the smallest margin is below 20 %, the governor raises the core supply by 10 mV. -/
  | govRaiseStep (t : Nat) (ms : List (Nat × Nat))
  /-- GOV_LOWER_STEP (R102): After 1 ms with margin above 30 % and no hold, the governor lowers the supply by 5 mV. -/
  | govLowerStep (t : Nat) (ms : List (Nat × Nat))
  /-- GOV_SHED (R104): After 20 µs at the ceiling with shared-segment margin below 15 %, the governor sheds one step. -/
  | govShed (t : Nat) (ms : List (Nat × Nat))
  /-- GOV_RESTORE (R104): After 10 ms with margin at or above 30 %, the governor restores one shed step. -/
  | govRestore (t : Nat) (ms : List (Nat × Nat))
  /-- DECAY_SWEEP (R169): Each 1 ms interval a density map's decay sweep visits every cell once. -/
  | decaySweep (t : Nat)
  /-- DENS_READ_COPY_END (R171): A density map copy finishes and the DENS_READ command completes. -/
  | densReadCopyEnd (t : Nat) (idx : Nat)
  /-- MONITOR_ROUND (R212): Each 1 µs round, the monitor engines update the contexts whose turn it is. -/
  | monitorRound (t : Nat)
  /-- MON_EVLOST (R221): At the end of a 1 ms period in which monitor events were lost, the loss is posted. -/
  | monEvlost (t : Nat)
  /-- MON_SNAPSHOT_WRITE_END (R223): A monitor snapshot's write to device memory ends and MON_SNAPSHOT completes. -/
  | monSnapshotWriteEnd (t : Nat)
  /-- PROTECT_TRIP (R39): An input's protection detector trips and the attenuator goes to 20 dB. -/
  | protectTrip (t : Nat) (idx : Nat)
  /-- FE_STREAM_AT_CT (R61): A pending FE_STREAM reaches START_CT and starts or stops its streams. -/
  | feStreamAtCt (t : Nat)
  /-- PLL_LOCK_LOSS (R254): A PLL phase detector or frequency check declares loss of lock and the loss is handled per PLL. -/
  | pllLockLoss (t : Nat) (k : Nat) (freq : Bool)
  /-- PLL_SYNC_EDGE (R241): A relock or step reaches its sync edge after settle, enabling outputs and resuming streams. -/
  | pllSyncEdge (t : Nat) (k : Nat) (found : List Nat)
  /-- RELOCK_ATTEMPT_FAIL (R558): A relock attempt fails its search, lock or settle limit and the next attempt starts or the PLL becomes FAILED. -/
  | relockAttemptFail (t : Nat) (k : Nat) (found : List Nat)
  /-- REF_IN_LOSS (R254): The REF_IN edge or frequency monitor declares loss and the reference loop holds over. -/
  | refInLoss (t : Nat) (freq : Bool) (ppm : Int)
  /-- REF_LOOP_LOCK (R235): The reference loop locks to REF_IN, first after selection or after 1 s of valid REF_IN following a loss. -/
  | refLoopLock (t : Nat)
  /-- NODE_LOSS (R254): The node activity monitor declares loss, a Fatal fault, and every PLL output is gated. -/
  | nodeLoss (t : Nat)
  /-- NODE_RECOVERY (R254): Node activity has been present for 10 ms and the engine relocks every PLL in order. -/
  | nodeRecovery (t : Nat)
  /-- INPUT_EDGE (R273): An edge at a TIU input reaches its delay line and is stamped, queued and passed to statistics, triggers and PPS discipline. -/
  | inputEdge (t : Nat) (n : Nat) (fall : Bool) (c : Nat)
  /-- PPS_LOSS (R247): A PPS window closes without an accepted edge, freezing STEER. -/
  | ppsLoss (t : Nat)
  /-- PENDING_EDGE_CLOSE (R279): The oldest pending edge of a statistics unit ages 2^39 ct without a partner and is closed. -/
  | pendingEdgeClose (t : Nat) (u : Nat)
  /-- TIU_LOST (R293): At the end of a 1 ms period in which an input lost edges, the loss is posted. -/
  | tiuLost (t : Nat) (n : Nat)
  /-- QUEUE_DRAIN (R277): A stamp queue with a drain ring moves entries into the ring as room allows. -/
  | queueDrain (t : Nat) (n : Nat) (k : Nat)
  /-- TIU_CAL_TEST_END (R284): An input's code-density test ends and its candidate table is accepted or rejected. -/
  | tiuCalTestEnd (t : Nat) (n : Nat) (counts : List Nat)
  /-- CAL_STEP_END (R302): A calibration step's measurement ends, its candidate is checked, values are placed in force and a signed record is written. -/
  | calStepEnd (t : Nat) (tgt : Nat) (m : Measured)
  /-- BLIND_RUN (R311): Every PERIOD the engine runs the scheduled blind steps on a target. -/
  | blindRun (t : Nat) (tgt : Nat)
  /-- CAL_DRIFT (R304): A target enters or leaves DRIFT by temperature or age. -/
  | calDrift (t : Nat) (tgt : Nat) (tj : Int)
  /-- HAND_OVER (R334): At a tick with an enabled pending interrupt and an interruptible point, the core enters its handler on bank 1. -/
  | handOver (t : Nat) (core : Nat)
  /-- HANDLER_RETURN (R337): After RETI and retirement of every handler instruction, issue resumes at EPC from bank 0. -/
  | handlerReturn (t : Nat) (core : Nat)
  /-- WAIT_END (R335): A core in WAIT finds an enabled source pending and continues after the WAIT. -/
  | waitEnd (t : Nat) (core : Nat)
  /-- COMMONS_LOAD_RETURN (R320): The data of a commons load returns and the stalled core resumes issue. -/
  | commonsLoadReturn (t : Nat) (core : Nat)
  /-- SYNC_COMPLETE (R320): Every posted commons store of a core has completed and SYNC releases issue. -/
  | syncComplete (t : Nat) (core : Nat)
  /-- TIMER_MATCH (R333): The Canopy count reaches an armed core's timer compare and TIMER becomes pending. -/
  | timerMatch (t : Nat) (core : Nat)
  /-- FEED_COPY_BLOCK (R343): A kind-2 feed copies a block from device memory when a block is free. -/
  | feedCopyBlock (t : Nat) (feed : Nat)
  /-- FEED_WRITE_OUT (R343): A kind-3 feed writes a handed-over block into its ring when room allows. -/
  | feedWriteOut (t : Nat) (feed : Nat)
  /-- REFRESH (R361): Every 1.95 µs an all-bank refresh stalls every channel for 280 ns. -/
  | refresh (t : Nat)
  /-- PATROL_SCRUB (R364): The patrol scrub reads and corrects device memory lines with spare capacity. -/
  | patrolScrub (t : Nat) (a : Nat)
  /-- CORRECTABLE_ERROR (R364): A read finds a correctable ECC error, returns corrected data and writes it back. -/
  | correctableError (t : Nat) (a : Nat) (master : Nat) (inst : Nat)
  /-- UNCORRECTABLE_ERROR (R365): A read finds an uncorrectable or command error, poisons the line and retires the rank. -/
  | uncorrectableError (t : Nat) (a : Nat) (cmdErr : Bool) (master : Nat) (inst : Nat)
  /-- RANK_SWITCH_OVER (R368): A retirement's switch-over quiesces the quadrant and loads the retired rank and watermark. -/
  | rankSwitchOver (t : Nat)
  /-- MIGRATION_ROW_COPY (R369): Migration copies one row of the retired rank to the spare and advances the watermark. -/
  | migrationRowCopy (t : Nat) (bad : List Nat)
  /-- MEM_RING_LOST (R379): At the end of a 1 ms period in which a ring dropped records, the loss is posted. -/
  | memRingLost (t : Nat)
  /-- ZEROING_DONE (R375): Background zeroing finishes the bytes a waiting MEM_ALLOC needs and it completes. -/
  | zeroingDone (t : Nat) (n : Nat)
  /-- ON_DIE_ERROR (R385): An on-die memory read finds a single- or double-bit SECDED error. -/
  | onDieError (t : Nat) (kind : Nat) (n : Nat) (addr : Nat) (core : Nat) (double : Bool)
  /-- DMA_HANDOVER (R398): An enabled channel with no active descriptor takes its VALID shadow and checks it. -/
  | dmaHandover (t : Nat) (n : Nat)
  /-- DMA_BURST (R407): A channel starts and completes one burst, on request or back to back. -/
  | dmaBurst (t : Nat) (n : Nat) (data : List Nat) (ok : Bool)
  /-- DESCRIPTOR_END (R403): A descriptor has moved all its bytes and its status and CRC are written back. -/
  | descriptorEnd (t : Nat) (n : Nat)
  /-- TIMER_LINE_PULSE (R408): A running timer line pulses at START_CT plus a multiple of PERIOD. -/
  | timerLinePulse (t : Nat) (l : Nat)
  /-- STREAM_RECORD_COPY (R412): A streaming channel copies one record into the host ring when room allows and writes the position block. -/
  | streamRecordCopy (t : Nat) (n : Nat) (held : Nat)
  /-- CHECKPOINT (R435): Every CHECKPOINT ms the open stripe is closed and handed to its drive. -/
  | checkpoint (t : Nat)
  /-- STRIPE_COMPLETE (R435): A drive completes a stripe write; a Flush follows once every earlier stripe has completed. -/
  | stripeComplete (t : Nat) (q : Nat) (held : Nat)
  /-- MOUNT_MEASUREMENT_END (R431): The proving-area measurement of every drive ends and the admitted rate V is set. -/
  | mountMeasurementEnd (t : Nat) (rates : List Nat)
  /-- DRIVE_FAIL (R419): A drive fails by link loss, AER, timeout, error status or CFS, ending the recording and unmounting. -/
  | driveFail (t : Nat) (n : Nat) (cause : Nat) (status : Nat)
  /-- DISP_LINE_START (R186): A timing line starts on a display port, starting the fetch two lines ahead and applying pending commits. -/
  | dispLineStart (t : Nat) (p : Nat) (long : Bool) (under : List Nat) (late : Bool)
  /-- FRAME_DONE (R190): The last active pixel of a frame leaves the compositor. -/
  | frameDone (t : Nat) (p : Nat)
  /-- HPD_LOSS (R180): DPn_HPD stays low for more than 2 ms and the port idles its main link. -/
  | hpdLoss (t : Nat) (p : Nat)
  /-- HPD_RESTORE (R180): DPn_HPD returns high after a link loss and the port retrains and resumes video. -/
  | hpdRestore (t : Nat) (p : Nat) (ok : Bool)
  /-- HPD_IRQ (R180): An HPD IRQ pulse makes the port read link status and retrain if needed. -/
  | hpdIrq (t : Nat) (p : Nat) (lost : Bool) (ok : Bool) (psr : Bool)
  /-- PANEL_HPD_WAIT (R179): During panel power-on, DPn_HPD rises or the 200 ms wait expires. -/
  | panelHpdWait (t : Nat) (p : Nat) (high : Bool) (lanes : Nat) (rate : Nat) (psr : Bool)
  /-- BLDELAY_EXPIRY (R179): The backlight delay expires and DPn_BLEN is raised or video is ended. -/
  | bldelayExpiry (t : Nat) (p : Nat)
  /-- VDDEN_OFF_DELAY (R179): 50 ms after video ends in power-off, DPn_VDDEN is driven low. -/
  | vddenOffDelay (t : Nat) (p : Nat)
  /-- AUX_PASS_START (R482): A sequencer pass starts at START plus k × PERIOD. -/
  | auxPassStart (t : Nat)
  /-- AUX_CONVERSION (R484): An aux slot's conversion ends and its result is written to AUX_DATA. -/
  | auxConversion (t : Nat) (v : Int) (vref : Nat)
  /-- AUX_LIMIT_PERIOD_END (R486): At the end of a 1 ms period, a held limit state differing from the last posted is posted. -/
  | auxLimitPeriodEnd (t : Nat)
  /-- AUX_OVR (R499): At the end of a 1 ms period in which OVRCOUNT rose, the overruns are posted. -/
  | auxOvr (t : Nat)
  /-- AUX_REF (R481): REFOK rises after its settle time or falls when the reference leaves its window. -/
  | auxRef (t : Nat) (v : Nat)
  /-- CTL_STEP (R489): A control output's deglitch hold ends and it steps to the latest code. -/
  | ctlStep (t : Nat) (n : Nat)
  /-- CTL_RANGE_PHASE (R490): A 25 µs phase of a control output range change ends. -/
  | ctlRangePhase (t : Nat) (n : Nat)
  /-- CTL_TIMED_WRITE (R497): A timed CTL_WRITE reaches its tick and all masked codes take effect. -/
  | ctlTimedWrite (t : Nat)
  /-- CTL_FAULT (R487): OVERLOAD or COMPLIANCE persists for 10 µs and the fault is posted. -/
  | ctlFault (t : Nat) (n : Nat) (ov : Bool)
  /-- GROVE_START_AT_CT (R349): GROVE_START's AT_CT arrives and the named cores issue their first instruction. -/
  | groveStartAtCt (t : Nat)
  /-- PERF_CONTROL_AT_CT (R528): A timed PERF_CONTROL reaches AT_CT and acts on its counters. -/
  | perfControlAtCt (t : Nat)
  /-- PERF_SAT (R511): A counter would pass 2^48 − 1 and saturates. -/
  | perfSat (t : Nat) (k : Nat) (v : Nat)
  /-- FORCED_RAISE (R509): A forced fault source is raised at the first tick after FLT_FORCE with its full reaction. -/
  | forcedRaise (t : Nat) (items : List Nat)
  /-- SUPPRESSION_WINDOW_CLOSE (R505): A consequential-fault suppression window closes at its end or after 100 ms. -/
  | suppressionWindowClose (t : Nat)
  /-- POWER_ON (R533): VIN_12V above 10.8 V with EN high starts the full start-up sequence. -/
  | powerOn (t : Nat) (waited : Bool) (tj : Int)
  /-- DEVICE_RESET (R538): RST_N, SYS_RESET, firmware activation or a life-cycle transition resets the device and runs start-up from step 4. -/
  | deviceReset (t : Nat) (held : Bool)
  /-- POWER_DOWN (R542): VIN_12V below 10.2 V or EN low for 10 µs, or a thermal trip, parks outputs and turns off rails. -/
  | powerDown (t : Nat)
  /-- THERMAL_STAGE (R540): Tj reaches a thermal stage threshold and its throttling is applied. -/
  | thermalStage (t : Nat) (rs : List Int)
  /-- THERMAL_STAGE_EXIT (R540): Tj stays 3 °C below a stage threshold for 100 ms and the stage is left. -/
  | thermalStageExit (t : Nat) (tj : Int)
  /-- THERMAL_TRIP (R541): Tj reaches 112 °C and the engine powers down, latched. -/
  | thermalTrip (t : Nat) (rs : List Int)
  /-- FAULT_DETECTION (R501): A hardware detector of Table 15-1 (lockstep, watchdog, parity, synchroniser, self-test and the like) declares a failure and its source is raised with the reaction of its severity. -/
  | faultDetection (t : Nat) (id : Nat) (mode : Nat) (items : List Nat)
  /-- RAIL_FAULT (R531): A rail or the core supply crosses its undervoltage or overvoltage threshold and raises its source of group 0x27 or 0x26. -/
  | railFault (t : Nat) (k : Nat) (core : Bool) (on : Bool)
  /-- TIU_TABLE_UNCAL (R283): The junction temperature moves more than 15 °C from that at which a TIU bin-width table was accepted, and the table is marked UNCAL again. -/
  | tiuTableUncal (t : Nat) (n : Nat) (tj : Int)
  /-- CTL_FAULT_CLEAR (R487): A control output's OVERLOAD or COMPLIANCE condition has been absent for 10 µs and the bit clears. -/
  | ctlFaultClear (t : Nat) (n : Nat) (ov : Bool)
  /-- VDDEN_LOW_TIME_EXPIRY (R179): The 500 ms minimum low time of DPn_VDDEN ends and a waiting DISP_SET_MODE proceeds with panel power-on. -/
  | vddenLowTimeExpiry (t : Nat) (p : Nat)
  /-- DISP_LINK_TRAINING_END (R178): eDP link training at a rate succeeds or fails, so video starts, the next lower rate is tried, or the command completes with FAULTED. -/
  | dispLinkTrainingEnd (t : Nat) (p : Nat) (ok : Bool)
  /-- DISP_AUX_REPLY (R201): An AUX transaction receives its reply, exhausts its DEFER retries or finds no reply within 400 µs, and DISP_AUX completes. -/
  | dispAuxReply (t : Nat) (p : Nat) (r : Nat) (data : List Nat)
  /-- DRIVE_COMMAND_COMPLETION (R417): An NVMe drive posts a completion for an admin command, a label or directory write, a Read or a Flush. -/
  | driveCommandCompletion (t : Nat) (n : Nat) (status : Nat) (kind : Nat) (fin : Bool) (data : List Nat)
  /-- STORAGE_LINK_UP (R416): A storage link finishes training and the drive on it is enumerated and enabled, posting STOR_LINK. -/
  | storageLinkUp (t : Nat) (n : Nat) (rate : Nat) (width : Nat) (flit : Bool) (ok : Bool) (stripes : Nat) (lba : Nat) (suitable : Bool) (serial : Nat) (vwc : Bool)
  /-- HP_PERST_RELEASE (R535): HP_PERST is deasserted and HP enters link training within 1 ms. -/
  | hpPerstRelease (t : Nat)
  /-- HP_LINK_UP (R448): The host port link trains up, LINK is updated and waiting host traffic may resume. -/
  | hpLinkUp (t : Nat) (rate : Nat) (width : Nat) (flit : Bool)
  /-- CONFIG_WRITE (R449): A host configuration-space write that changes Bus Master Enable, the power state or MSI-X enable. -/
  | configWrite (t : Nat) (bme : Bool) (d3 : Bool) (msix : Bool) (mask : Bool)
  /-- MSIX_TABLE_WRITE (R463): A host write to the MSI-X table masks or unmasks a vector, so a pending message is sent under the MSI-X rules. -/
  | msixTableWrite (t : Nat) (v : Nat) (addr : Nat) (data : Nat) (masked : Bool)
  /-- STAGED_SIGNAL_RAISE (R336): One tick after values are staged into bank 1, the staging source sets its interrupt pending bit. -/
  | stagedSignalRaise (t : Nat) (core : Nat)
  /-- PANIC_CLEAR (R372): A real-time port's buffer rises or drains past its clear level, its panic clears, and MEM_PANIC is posted when it lasted more than 10 µs. -/
  | panicClear (t : Nat) (port : Nat) (inst : Nat) (held : Nat)
  /-- PANIC_LONG (R373): A panic reaches 50 µs and raises the memory-group panic fault source. -/
  | panicLong (t : Nat) (port : Nat) (inst : Nat)
  /-- RANK_SWITCH_OVER_END (R368): A rank switch-over ends, the quadrant's channels resume, MEM_RETIRE completes and the suppression window ends. -/
  | rankSwitchOverEnd (t : Nat)
  /-- DENS_CLEAR_END (R170): A density map clear, lasting up to 25 µs, ends and spectra are applied again. -/
  | densClearEnd (t : Nat) (idx : Nat)
  /-- COMMAND_TRANSFER_END (R464): A command that runs on while it moves or digests data (SYS_FW_STAGE, SEC_ATTEST, GROVE_LOAD, CAL_READ, TIU_READ and the like) finishes its transfer and completes. -/
  | commandTransferEnd (t : Nat) (idx : Nat)
  /-- FIRMWARE_START_TIMEOUT (R473): New firmware fails to reach ready within the start-up time, so the engine resets from the previous slot and sets FALLBACK. -/
  | firmwareStartTimeout (t : Nat)
  /-- STARTUP_COMPLETE (R533): The start-up sequence finishes step 9, STATE.ENGINE becomes 1 and HEARTBEAT starts. -/
  | startupComplete (t : Nat) (fails : List Nat) (slotOk : Bool) (otherOk : Bool) (found : List Nat) (edges : List Nat)
  /-- RST_N_RELEASE (R537): RST_N rises after being held low and the start-up sequence begins. -/
  | rstNRelease (t : Nat)
  /-- TEST_PORT_ACCESS (R513): The maker test port makes an access, an injection or a life-cycle transition (NURSERY to SAPLING, RETURN to NURSERY). -/
  | testPortAccess (t : Nat) (kind : Nat) (id : Nat) (a : Nat) (b : Nat) (v : Int)
  /-- CEILING_RAMP_END (R103): The direct supply ramp to 0.85 V ends and the enabling command waiting for it is applied. -/
  | ceilingRampEnd (t : Nat)
  /-- CLK_SET_TIME_TIMEOUT (R261): No accepted PPS edge arrives within 1.1 s and CLK_SET_TIME completes with TIMEOUT. -/
  | clkSetTimeTimeout (t : Nat)
  /-- NODE_ACTIVITY_RETURN (R254): Edges return on the reference node after a loss, starting the 10 ms presence count. -/
  | nodeActivityReturn (t : Nat)
  /-- REF_IN_RETURN (R254): REF_IN becomes valid again after a loss, starting the 1 s validity count before reacquisition. -/
  | refInReturn (t : Nat)
  deriving DecidableEq, Repr

end Sys2Proof
end

