-- ==== Sys2Proof/Decode.lean ====
section
/-! DEFINITION. The commands that a word spells. No row of spec/opcode_table.json gives bits: a ZCI command reaches the engine as a
ring entry, a Grove instruction and an event as what happens at a tick. So no word spells a command (log 5). -/

namespace Sys2Proof

/-- The command that the `nbits` bits of `w` spell: none, since no row has bits. -/
def decodeTableWord (_nbits _w : Nat) : Option Instr := none

end Sys2Proof
end

