-- ==== Sys2Proof/Config.lean ====
section
/-! DEFINITION. What one part fixes and the spec does not state, and the free values: opaque constants with no body,
so that nothing can be proved of a value of theirs. -/

namespace Sys2Proof.Config

/-- A free value of `w` bits, the `n`-th drawn (log 2). -/
opaque free (w n : Nat) : BitVec w

/-- The 128-bit unit serial number (SERIAL0-SERIAL3). -/
opaque serial : BitVec 128

/-- The die revision, VERSION[23:16]. -/
opaque dieRev : BitVec 8

/-- KEYID (Table 9-6): computed from the device certificate. -/
opaque keyId : BitVec 128

/-- The SHA-384 digest of a byte string, as its 48 bytes in order. -/
opaque sha384 (bytes : List Byte) : List Byte

/-- Whether an ECDSA P-384 signature (96 bytes) verifies a digest (48 bytes) under a public key (97 bytes). -/
opaque ecdsaOk (key digest sig : List Byte) : Bool

/-- The `n`-th ECDSA P-384 signature (96 bytes) made with the identity key over a digest. -/
opaque sign (digest : List Byte) (n : Nat) : List Byte

/-- The DER bytes of certificate `index` of the identity chain (R517). -/
opaque cert (index : Nat) : List Byte

/-- The `n`-th CHALLENGE drawn (R524). -/
opaque challenge (n : Nat) : BitVec 256

/-- Tap `i` of the 32-tap fractional-delay filter of R294 for a skew in fraction LSB: the spec bounds the filter's response
and does not give its coefficients. -/
opaque skewTap (skew : Int) (i : Nat) : ℚ

/-- Tap `i` of the 48 x 2^e taps of a down-converter's filter with the equaliser for its frequency (R87): real and imaginary
part, by E, FREQ, the source's samples per node period and the 180 response values in 0.001 dB. The spec bounds the response
and does not give the coefficients. -/
opaque ddcTap (e freq ns : Nat) (resp : List Int) (i : Nat) : ℚ × ℚ

/-- A 12-bit sample that the spec says nothing of: sample `j` of epoch `no` of stream `id`, before its first grain, after its last,
or in a grain that did not arrive. -/
opaque lostSample (id no : Nat) (j : Int) : BitVec 12

/-- The relative error of the filter coefficient of R214 for an argument, before it is limited to 2^-20. -/
opaque alphaError (x : ℚ) : ℚ

end Sys2Proof.Config
end

