-- ==== Sys2Proof/Machine/State.lean ====
section
/-! DEFINITION. The state of the CRA4016 as plain data. Every field has, as its default, its value after device
reset; the comment of a field names the file and rule of spec/ that gives it, its width, and its reset value.
`State.reset` is the structure with every default. -/

namespace Sys2Proof.Machine

/-- How often something happened in a 1 ms reporting period, and in the period before it (07 R251). -/
structure PerCount where
  per    : Nat := 0 -- 07 R251; number of the period
  n      : Nat := 0 -- 07 R251; count in it
  before : Nat := 0 -- 07 R251; count in the period before it, not yet reported
  deriving DecidableEq, Repr

/-! ## Host interface: sessions, rings, the Direct Register Window (13_host_interface_and_zci.md) -/

/-- A command fetched from a session's ring and not yet applied (R459, R464). -/
structure Fetched where
  opcode  : Nat  := 0     -- 13 R459; 16; the envelope's OPCODE
  tag     : Nat  := 0     -- 13 R459; 16; the envelope's TAG
  fence   : Bool := false -- 13 R459; 1; the envelope's FENCE
  timeout : Nat  := 0     -- 13 R459; 32; ms, 0 = no limit
  at_     : Tick := 0     -- 13 R467; 64; tick of the fetch
  deriving DecidableEq, Repr

/-- A completion as written to a completion ring (Table 13-7). -/
structure Completion where
  tag      : Nat  := 0     -- 13 R460; 16
  status   : Nat  := 0     -- 13 R466; 16
  phase    : Bool := false -- 13 R460; 1
  deferred : Bool := false -- 13 R460; 1
  rlen     : Nat  := 0     -- 13 R460; 5, result length in 8-byte units
  sqhead   : Nat  := 0     -- 13 R460; 16
  opcode   : Nat  := 0     -- 13 R460; 16
  applied  : Tick := 0     -- 13 R460; 64; tick applied or rejected
  result   : Nat  := 0     -- 13 R460; up to 1,792 bits of result
  deriving DecidableEq, Repr

/-- An event record as written to the event ring (Table 13-9). -/
structure EventRecord where
  code    : Nat  := 0     -- 13 R461; 16
  loss    : Bool := false -- 13 R462; 1
  phase   : Bool := false -- 13 R461; 1
  time    : Tick := 0     -- 07 R252; 64; tick sampled, fraction 0
  payload : Nat  := 0     -- 13 R461; 144
  deriving DecidableEq, Repr

/-- A command applied and not yet completed (R464: "in progress"). -/
structure InProg where
  session : Nat  := 0     -- 13 R464; 4
  opcode  : Nat  := 0     -- 13 R460; 16
  tag     : Nat  := 0     -- 13 R460; 16
  applied : Tick := 0     -- 13 R460; 64
  unit_   : Nat  := 0     -- 13 R464; the unit or selection the command waits on
  data    : List Nat := []-- 13 R464; what the command keeps until it completes
  regs    : List Nat := []-- 11 R376; regions the command names while in progress
  deriving DecidableEq, Repr

/-- One session page of the DRW (Table 13-3) with the engine's own bookkeeping of the session. -/
structure Session where
  sqBaseLo  : Word := 0    -- 13 Table 13-3 R453; 32; reset 0
  sqBaseHi  : Word := 0    -- 13 Table 13-3 R453; 32; reset 0
  cqBaseLo  : Word := 0    -- 13 Table 13-3 R453; 32; reset 0
  cqBaseHi  : Word := 0    -- 13 Table 13-3 R453; 32; reset 0
  qcfg      : Word := 0    -- 13 Table 13-3 R453; 32; reset 0
  lease     : Word := 0    -- 13 Table 13-3 R455; 32; reset 0
  cookieLo  : Word := 0    -- 13 Table 13-3 R454; 32; reset 0 (the register)
  cookieHi  : Word := 0    -- 13 Table 13-3 R454; 32; reset 0 (the register)
  cookie    : Nat  := 0    -- 13 R454 R456; 64; reset 0; the session's cookie taken at OPEN
  st        : Nat  := 0    -- 13 Table 13-4 R454; 2; reset 0 CLOSED; 1 OPEN, 2 DETACHED, 3 RELEASING
  cfgerr    : Bool := false -- 13 Table 13-3 R454; 1; reset 0
  fetcherr  : Bool := false -- 13 Table 13-3 R459; 1; reset 0
  cause     : Nat  := 0    -- 13 Table 13-3 R457; 2; reset 0
  sqTail    : Nat  := 0    -- 13 Table 13-3 R453; 12; reset 0
  sqHead    : Nat  := 0    -- 13 Table 13-3 R459; 12; reset 0
  cqHead    : Nat  := 0    -- 13 Table 13-3 R453; 12; reset 0
  leaseFrom : Tick := 0    -- 13 R455; 64; start of the lease period in progress
  leaseWarn : Bool := false -- 13 R455; 1; SYS_LEASE posted in this period
  fetched   : List Fetched := [] -- 13 R459; commands fetched and not applied
  relHost   : Bool := false -- 13 R457; 1; a host-interface reset came during the release
  deriving DecidableEq, Repr

/-- The engine's side of one completion ring (R460, R463). -/
structure CplRing where
  slots     : Tab Completion := [] -- 13 R460; what the engine wrote to each completion slot
  tail      : Nat  := 0    -- 13 Table 13-3 CQ_TAIL; 12; reset 0
  phase     : Bool := true -- 13 R460; 1; PHASE of the present pass, 1 on the first
  holdUntil : Tick := 0    -- 13 R463; 64; end of the 2 us signal hold
  held      : Bool := false -- 13 R463; 1; a signal is held back
  deriving DecidableEq, Repr

/-- One MSI-X table entry (R448: 64 vectors; R463). -/
structure MsixEntry where
  masked  : Bool := true  -- 13 R448 R463; 1; reset 1 (PCIe MSI-X)
  addr    : Nat  := 0     -- 13 R448; 64; reset 0
  data    : Nat  := 0     -- 13 R448; 32; reset 0
  pending : Bool := false -- 13 R463; 1; PBA bit
  sent    : Nat  := 0     -- 13 R463; messages sent (the model's own output count)
  deriving DecidableEq, Repr

/-- Host port, DRW page 0, sessions and rings. -/
structure HostIf where
  engine     : Nat  := 0     -- 13 Table 13-2 STATE.ENGINE; 2; reset 0 start-up
  slot       : Nat  := 0     -- 13 Table 13-2 STATE.SLOT; 1; reset 0
  fallback   : Bool := false -- 13 Table 13-2 STATE.FALLBACK R473; 1; reset 0
  heartbeat  : Word := 0     -- 13 Table 13-2 R451; 32; reset 0
  drwerr     : BitVec 6 := 0 -- 13 Table 13-2 DRWERR; 6; reset 0
  linkRate   : Nat  := 0     -- 13 Table 13-2 LINK; 3; reset 0 down
  linkWidth  : Nat  := 0     -- 13 Table 13-2 LINK; 5; reset 0
  linkFlit   : Bool := false -- 13 Table 13-2 LINK; 1; reset 0
  time1      : Option Word := none -- 13 R452; 32; latch of TIME1, none held at reset
  time2      : Option Word := none -- 13 R452; 32; latch of TIME2
  serLatch1  : Option Word := none -- 13 R452; 32; latch of SERIAL1
  serLatch2  : Option Word := none -- 13 R452; 32; latch of SERIAL2
  serLatch3  : Option Word := none -- 13 R452; 32; latch of SERIAL3
  readData   : Word := 0     -- 13 R451; 32; data the last DRW read returned (the model's output)
  evtBaseLo  : Word := 0     -- 13 Table 13-2; 32; reset 0
  evtBaseHi  : Word := 0     -- 13 Table 13-2; 32; reset 0
  evtCfg     : Word := 0     -- 13 Table 13-2; 32; reset 0
  evtDelay   : Word := 0     -- 13 Table 13-2; 32; reset 0
  evtMask    : Word := 0x00007FFF -- 13 Table 13-2; 32; reset 0x0000_7FFF
  evtEnable  : Bool := false -- 13 Table 13-2 EVT_CTL; 1; reset 0
  evtHead    : Nat  := 0     -- 13 Table 13-2; 16; reset 0
  evtTail    : Nat  := 0     -- 13 Table 13-2; 16; reset 0
  evtLost    : Nat  := 0     -- 13 Table 13-2; 32; reset 0, saturating
  evtPhase   : Bool := true  -- 13 R461; 1; PHASE of the present pass
  evtLossPend : Bool := false -- 13 R462; 1; a record was lost since the last one written
  evtUnsig   : Nat  := 0     -- 13 R463; records written since the last signal
  evRing     : Tab EventRecord := [] -- 13 R461; what the engine wrote to each event slot
  sessions   : Tab Session := []     -- 13 Table 13-3; 16 session pages, all at reset
  inProg     : List InProg := []     -- 13 R464; commands in progress, none at reset
  owners     : Tab Nat := []         -- 13 R458; owner + 1 of unit at key class*65536+unit, 0 = none
  msix       : Tab MsixEntry := []   -- 13 R448; 64 MSI-X entries
  busMaster  : Bool := false -- 13 R449; 1; reset 0 (PCIe)
  d3         : Bool := false -- 13 R448 R450; 1; power state D3hot, reset 0 (PCIe)
  msixEnable : Bool := false -- 13 R463; 1; reset 0 (PCIe)
  cpls       : Tab CplRing := [] -- 13 R460; completion rings 0-15
  cplWait    : List (Tick × Nat × Completion) := [] -- 13 R449 R469; completions not yet written: the tick at which the command ended, its session
  evtWait    : List EventRecord := [] -- 13 R449; event records waiting for Bus Master Enable
  hostMem    : Mem  := []    -- 12 R403 R412; bytes the engine wrote into host memory by DMA and streaming
  resetAt    : Option Tick := none -- 13 R476 R473 R513; tick at which a scheduled device reset acts
  stagedOk   : Bool := false -- 13 R472 R473; 1; a staged image passed
  activating : Bool := false -- 13 R473; 1; the scheduled reset starts the staged slot
  evtNow     : List (Nat × EventRecord) := [] -- 07 R250; events posted in the tick that is not over yet, with their positions of Table 7-3
  hbAt       : Tick := 0     -- 13 R451; 64; tick of the latest advance of HEARTBEAT, or of readiness
  msixMask   : Bool := false -- 13 R463; 1; MSI-X function mask, reset 0 (PCIe)
  deriving DecidableEq, Repr

/-! ## Sampling front end (02_sampling_front_end.md) -/

/-- One RF input: attenuator and protection (R36, R39). -/
structure RfInput where
  atten   : Nat  := 10    -- 02 R57; 4; reset 10
  protect : Bool := true  -- 02 R57; 1; reset enabled
  tripped : Bool := false -- 02 R39; 1; reset 0
  deriving DecidableEq, Repr

/-- One epoch of a stream (R22, R23, R89): sample j of it lies at `base` + (`m0` + j x `dec`) / (`ns` samples per 10 ns), exactly. -/
structure Epoch where
  no   : Nat := 0 -- model's own; how many epochs the stream has begun, rollovers apart, 0 = none yet
  base : Int := 0 -- 07 R244; C_s + DELAY x 64 LSB + T_ALIGN of the epoch, in LSB
  m0   : Nat := 0 -- 07 R244; samples of the converter or pair from the sync edge to sample 0 of the epoch
  ns   : Nat := 1 -- 07 R244; samples of the converter or pair per node period
  dec  : Nat := 1 -- 03 R86; D of a down-converter, 1 of any other stream
  ep0  : Nat := 0 -- 01 R23; grain that carries index 0: 0, or a rollover's
  gain : Nat := 0 -- 03 R88; GAIN of a down-converter, 0 of any other stream
  reason : Nat := 1 -- 02 Table 2-13; 4; reason of the EPOCH event that began it
  deriving DecidableEq, Repr

/-- What the front end of a stream is set to (R16, R40, R294). -/
structure FrontSet where
  source  : Nat     := 6     -- 02 Table 2-2; 4
  atten   : Nat     := 10    -- 02 R36; 4; of the routed input
  tripped : Bool    := false -- 02 R40; 1; of the routed input
  values  : Tab Int := []    -- 09 R296; correction set in force
  deriving DecidableEq, Repr

/-- The grains of one epoch that are still to be tagged, and what they will carry (R49, R52, R53). -/
structure Tagging where
  ep     : Epoch := {}         -- 01 R22; the epoch
  next   : Nat := 0            -- 02 R49; 48; index the next grain takes
  stop   : Nat := 0            -- 02 R61; of an ended epoch: the first grain that it does not have
  halts  : Bool := false       -- 02 R64; 1; of an ended epoch: the stream stops, and STREAM_STOP is due
  announce : Bool := false     -- 02 R64; 1; its EPOCH event waits for the last grain before it
  unlockFrom : Option Nat := none -- 02 R53; grains from this one on carry UNLOCKED
  calFrom : Option Nat := none -- 02 Table 2-5; grains from this one on carry CAL: the calibration unit owns or stimulates the path
  cal    : List (Nat × Nat) := [] -- 02 Table 2-5; ranges of grains that carry CAL although that has ended
  susAt  : List Nat := []      -- 15 Table 15-1 0x04 to 0x09; grains in which a check failed: they carry SUSPECT
  front  : List (Nat × FrontSet) := [] -- 01 R16; settings under which the grains below an index are processed, oldest first
  raw    : List Nat := []      -- 09 R294; 12 each; raw codes received, from sample `rawFrom` on
  rawFrom : Nat := 0           -- 09 R294; sample of the first of them
  deriving DecidableEq, Repr

/-- A tagged grain (R21, R49, R89). -/
structure Grain where
  ep     : Epoch := {}    -- 01 R22; its epoch
  n      : Nat := 0       -- 02 R49; 48; INDEX, counted from the epoch's first grain without wrapping at a rollover
  flags  : Nat := 0       -- 02 Table 2-3; 6; tag bits [48] to [53]
  codes  : List Nat := [] -- 02 R48, 03 R89; 256 samples: 12-bit codes, or words of 16-bit I and Q
  source : Nat := 6       -- 02 Table 2-2; 4; source of its samples
  values : Tab Int := []  -- 09 R296; correction set in force for it
  deriving DecidableEq, Repr

/-- A grain as a lane or a down-converter holds it. -/
structure HeldGrain where
  id   : Nat := 0      -- 02 R50; 8; its stream
  miss : Bool := false -- 01 R29; 1; it was not delivered
  g    : Grain := {}   -- 02 R49; the grain
  deriving DecidableEq, Repr

/-- One sample stream 0x00-0x05 (R50, R22, R54, R64). -/
structure Stream where
  running   : Bool := false -- 02 R57; 1; reset 0
  resume    : Bool := false -- 02 R45 R46; 1; restarts at the next sync edge
  cur       : Tagging := {} -- 02 R49; the epoch in force
  old       : List Tagging := [] -- 02 R61; epochs that have ended with grains still to be tagged, oldest first
  settle    : List (ℚ × ℚ) := [] -- 02 R52; settle windows as exact times, start and end, in LSB
  latest    : Nat  := 0     -- 02 R62; 48; index of the latest tagged grain; reset 0
  ovl       : Nat  := 0     -- 02 R54; 32; reset 0, saturating
  set_      : Nat  := 0     -- 02 R54; 32; reset 0, saturating
  sus       : Nat  := 0     -- 02 R54; 32; reset 0, saturating
  epOpen    : Bool := false -- 02 R64; 1; overload episode open
  epLast    : Nat  := 0     -- 02 R64; 48; last OVERLOAD grain of the episode
  epQuiet   : Nat  := 65536 -- 02 R64; grains since the last OVERLOAD grain
  reason    : Nat  := 1     -- 02 Table 2-13; reason of the latest EPOCH event
  grains    : List Grain := [] -- 01 R13; tagged grains that some consumer has still to take, oldest first
  deriving DecidableEq, Repr

/-- Sampling front end. -/
structure FrontEnd where
  miss    : Tab (Option (Nat × Nat)) := [] -- 01 R29; grains missing at a consumer (Table codes of the gap records)
  cursor  : Tab (Nat × Nat) := [] -- 01 R13; where a consumer stands on a stream: number of the epoch, 0 = not begun, and the grain it takes next
  inputs  : Tab RfInput := [] -- 02 R57; RF_IN0-3
  rate    : Tab Nat := []     -- 02 R57; 8; 100 - RATE of PA and PB (so absent = RATE 100)
  pairMode : Tab Bool := []   -- 02 R57; 1; reset single
  src     : Tab Nat := []     -- 02 R57; 4; source XOR 6 of CH0-3 (0-3) and PA, PB (4, 5): absent = termination
  streams : Tab Stream := []  -- 02 R50; streams 0x00-0x05
  changedAt : Tab Nat := []   -- 02 R42; one more than the tick of the latest host command that changed the source, attenuator or mode of target 0-5
  calOwn  : Tab Bool := []    -- 02 R42 Table 2-12; 1; calibration unit owns the path of target 0-5
  deriving DecidableEq, Repr

/-! ## Clocks and timebase (07_clocks_and_canopy_timebase.md) -/

/-- One hop-table entry (R240). -/
structure Hop where
  valid : Bool := false -- 07 R240; 1; cleared by device reset
  band  : Nat  := 0     -- 07 R240; 6; VCO band code
  amp   : Nat  := 0     -- 07 R240; amplitude code
  tj    : Int  := 0     -- 07 R240; junction temperature when found
  deriving DecidableEq, Repr

/-- One synthesiser (R238, Table 7-9). -/
structure Pll where
  st       : Nat  := 4     -- 07 Table 7-9; 4; reset 4 locked
  n        : Nat  := 200   -- 07 Table 7-9; 8; reset 200 (SP0, SP1; YP0 64 and YP1 96 are fixed)
  delay    : Nat  := 0     -- 07 Table 7-9; 10; reset 0
  newDelay : Nat  := 0     -- 07 R239; 10; DELAY that takes effect at the relock
  autoRel  : Bool := true  -- 07 R254; 1; reset set
  syncEdge : Tick := 0     -- 07 R241; 64; Canopy count of the latest sync edge
  attempt  : Nat  := 0     -- 07 R558; attempt in progress, 0 = none
  began    : Tick := 0     -- 07 R558; 64; tick at which the attempt started
  byLoss   : Bool := false -- 07 R254; 1; the relock is the recovery of a loss
  fromHop  : Bool := false -- 07 R240; 1; the attempt began from a hop entry
  search   : Bool := false -- 07 R258; 1; SEARCH: every attempt searches
  step     : Bool := false -- 07 R242; 1; the operation is a step
  building : Bool := false -- 07 R259; 1; a hop-table build is in progress
  built    : Nat  := 0     -- 07 R259; 8; entries written by the build
  hop      : Tab Hop := [] -- 07 R240; entries keyed by N
  target   : Nat  := 200   -- 07 R558; 8; N the operation in progress leads to
  deriving DecidableEq, Repr

/-- Reference node, PLLs, Canopy timebase, PPS discipline. -/
structure Clk where
  source    : Nat  := 0     -- 07 Table 7-9; 2; reset 0 internal
  reflock   : Bool := true  -- 07 Table 7-9; 1; reset 1
  holdover  : Bool := false -- 07 Table 7-9; 1; reset 0
  nodeOk    : Bool := true  -- 07 Table 7-9; 1; reset 1
  nodeSince : Option Tick := none -- 07 R254; 64; edges returned at this tick, the 10 ms presence count runs
  nodeRecov : Nat  := 0     -- 07 R254; node recovery: PLLs relocked so far + 1, 0 = none
  refSince  : Option Tick := none -- 07 R254; 64; REF_IN valid again from this tick on, the 1 s validity count runs
  refOutEn  : Bool := false -- 07 R257; 1; reset disabled
  refOutFreq : Bool := false -- 07 R257; 1; RESET not given: DESIGN CHOICE 0 (log 3)
  refOutDelay : Nat := 0    -- 07 R257; 10; reset not given: DESIGN CHOICE 0 (log 3)
  refOutHold : Tick := 0     -- 07 R237; 64; REF_OUT is held low before this tick
  stepAt    : Option (Tick × Nat) := none -- 07 R248; node edge at which CLK_SET_TIME steps the count, and Δ
  coarse    : Bool := false -- 07 Table 7-9; 1; reset 0
  timeValid : Bool := false -- 07 Table 7-9; 1; reset 0
  ppsMode   : Nat  := 0     -- 07 Table 7-9; 2; reset 0 off
  ppsOk     : Bool := false -- 07 Table 7-9; 1; reset 0
  ppsEdge   : Bool := false -- 07 R260; 1; 0 = rising; reset not given: DESIGN CHOICE 0 (log 3)
  ppsPost   : Bool := false -- 07 R260; 1; reset not given: DESIGN CHOICE 0 (log 3)
  ppsLast   : Option Stamp := none -- 07 R247; 80; last accepted edge of the discipline
  ppsFree   : Bool := true  -- 07 R247; 1; the next selected edge is accepted wherever it falls
  residual  : Int  := -140737488355328 -- 07 Table 7-9; 48; reset 0x8000_0000_0000
  steering  : Int  := 0     -- 07 Table 7-9; 32; reset 0
  lossCount : Nat  := 0     -- 07 Table 7-9; 32; reset 0, saturating
  plls      : Tab Pll := [] -- 07 R238; SP0, SP1, YP0, YP1 as 0-3
  deriving DecidableEq, Repr

/-! ## Calibration (09_calibration.md) -/

/-- A calibration record as retained (Table 9-6, Table 9-7). -/
structure CalRecord where
  step    : Nat := 0 -- 09 Table 9-6; 8
  target  : Nat := 0 -- 09 Table 9-6; 4
  auto    : Bool := false -- 09 Table 9-6; 1
  result  : Nat := 0 -- 09 Table 9-6; 2
  reason  : Nat := 0 -- 09 Table 9-6; 8
  count   : Nat := 0 -- 09 Table 9-6; 32
  time    : Stamp := 0 -- 09 Table 9-6; 80
  utc     : Nat := 0 -- 09 Table 9-6; 64
  utcValid : Bool := false -- 09 Table 9-6; 1
  tj      : Int := 0 -- 09 Table 9-6; 16
  input   : Nat := 255 -- 09 Table 9-6; 8
  atten   : Nat := 255 -- 09 Table 9-6; 8
  stream  : Nat := 255 -- 09 Table 9-6; 8
  first   : Nat := 0xFFFFFFFFFFFF -- 09 Table 9-6; 48
  delta   : Int := 0 -- 09 Table 9-6; 32
  spread  : Int := 0 -- 09 Table 9-6; 32
  entries : List (Nat × Nat × Nat × Nat) := [] -- 09 Table 9-7; ITEM, INDEX, OLD, NEW as 32-bit codes
  sig     : Nat := 0 -- 09 R306; which signature of the identity key it carries
  deriving DecidableEq, Repr

/-- A step in progress on one target (R299-R301, R309). -/
structure CalStep where
  step   : Nat  := 0     -- 09 Table 9-3; 4
  blind  : Bool := false -- 09 R300; 1
  auto   : Bool := false -- 09 R311; 1
  abort  : Nat  := 0     -- 09 R301; REASON of an abort already decided, 0 = none
  region : Nat  := 0xFFFF -- 09 Table 9-9; 16
  offset : Nat  := 0     -- 09 Table 9-9; 64
  first  : Nat  := 0     -- 09 R299; first grain of the measurement
  input  : Nat  := 0xFF  -- 09 Table 9-6; 8; routed input when the step began
  atten  : Nat  := 0xFF  -- 09 Table 9-6; 8; its ATTEN when the step began, which an ATTEN step restores
  refPort : Bool := false -- 09 Table 9-9; 1
  freq   : Nat  := 0     -- 09 Table 9-9 TONE_FREQ; 32; kHz
  level  : Int  := 0     -- 09 Table 9-9 TONE_LEVEL; 16; 0.01 dBm
  codes  : List Nat := [] -- 09 R301; codes that an ATTEN step has still to set
  done   : Bool := false -- 09 R301; 1; an ATTEN step has measured the last of them
  grains : Nat  := 0     -- 09 Table 9-3; grains that a blind step has measured
  sums   : List Int := [] -- 09 Table 9-3 OFFSET; sum of the pre-offset samples of each converter
  half   : List Int := [] -- 09 R302; the same of the first half
  deriving DecidableEq, Repr

/-- A blind schedule of one target (R311). -/
structure Blind where
  on      : Bool := false -- 09 R311; 1; reset 0
  offset  : Bool := false -- 09 R311; 1
  ilv     : Bool := false -- 09 R311; 1
  period  : Nat  := 0     -- 09 R311; 16; s
  due     : Tick := 0     -- 09 R311; 64; tick from which the next runs are due
  ring    : Nat  := 0xFFFF -- 09 R311; 16
  session : Nat  := 0     -- 09 R311; 4
  deriving DecidableEq, Repr

/-- One acceptance of a target (R303, R304). -/
structure CalAcc where
  tj  : Int := 0            -- 09 R303; 0.1 °C; junction temperature
  at_ : Stamp := 0          -- 09 R303; 80; Canopy time
  here : Bool := true       -- 09 R304; 1; made since the latest device reset, so that its Canopy time can be compared
  utc : Option Nat := none  -- 09 R303; 64; UTC seconds, when they were valid
  deriving DecidableEq, Repr

/-- Latest acceptances of one target (R303, R304): persistent, DESIGN CHOICE none at first (log 3). -/
structure CalTarget where
  tone  : Option CalAcc := none -- 09 R304; latest accepted TONE
  resp  : Option CalAcc := none -- 09 R304; latest accepted RESPONSE
  ilv   : Option CalAcc := none -- 09 R304; latest accepted INTERLEAVE
  latest : Option CalAcc := none -- 09 R303; latest acceptance of any step
  drift : Bool := true  -- 09 R304; 1; with no acceptance known a target is in DRIFT (log 3)
  deriving DecidableEq, Repr

/-- Calibration and traceability. -/
structure Cal where
  values   : Tab Int := [] -- 09 R296; correction set in force as deviation from factory, key item*2^16+index (item 6 of the store)
  factory  : Tab Int := [] -- 09 R296 R512; factory values as deviation from the nominal of Table 9-2, key item*2^16+index
  count    : Nat := 0      -- 09 Table 9-10; 32; persistent, value at manufacture DESIGN CHOICE 0 (log 3)
  lastTime : Stamp := 0    -- 09 Table 9-10; 80; reset 0
  lastUtc  : Nat := 0      -- 09 Table 9-10; 64; persistent, DESIGN CHOICE 0 (log 3)
  utcValid : Bool := false -- 09 Table 9-10; 1; persistent, DESIGN CHOICE 0 (log 3)
  stim     : Option Nat := none -- 09 Table 9-10 STIM, STIM_TARGET; reset none
  steps    : Tab (Option CalStep) := [] -- 09 R300; step in progress per target 0-5
  targets  : Tab CalTarget := [] -- 09 R304; targets 0-5
  blind    : Tab Blind := []   -- 09 R311; targets 0-5
  blindSkip : Nat := 0     -- 09 Table 9-10; 32; reset 0, saturating
  sensorBad : Bool := false -- 15 Table 15-1 0x121F; 1; reset 0; the temperature sensors disagree
  records  : List CalRecord := [] -- 09 R307; latest 64 records, newest first (item 7 of the store)
  deriving DecidableEq, Repr

/-! ## Spectral engine (03_spectral_engine.md) -/

/-- One trace unit (R95-R97). -/
structure Trace where
  on       : Bool := false -- 03 R111; 1; reset disabled
  single   : Bool := false -- 03 Table 3-13 MODE; 1
  det      : Nat  := 0     -- 03 Table 3-13; 3
  f32      : Bool := false -- 03 Table 3-13 FORMAT; 1
  firstBin : Int  := 0     -- 03 Table 3-13; 24 signed
  bins     : Nat  := 0     -- 03 Table 3-13; 24
  points   : Nat  := 0     -- 03 Table 3-13; 15
  m        : Nat  := 0     -- 03 Table 3-13; 17
  ring     : Nat  := 0xFFFF -- 03 Table 3-13; 16
  fromTime : Stamp := 0    -- 03 R111; first frame combined begins at or after this time
  count    : Nat  := 0     -- 03 R97; spectra combined so far
  acc      : List ℚ := []  -- 03 R96; per-point running value of the detector
  flags    : Nat  := 0     -- 03 R73; 6; OR of the flags of the spectra combined
  firstIdx : Nat  := 0     -- 03 Table 3-6; 48
  firstOff : Nat  := 0     -- 03 Table 3-6; 8
  lastIdx  : Nat  := 0     -- 03 Table 3-6; 48; last sample of the last spectrum combined
  lastOff  : Nat  := 0     -- 03 Table 3-6; 8
  seq      : Nat  := 0     -- 03 Table 3-6 SEQ; 8
  deriving DecidableEq, Repr

/-- One spectrum output (R98). -/
structure SpecOut where
  on       : Bool := false -- 03 R112; 1; reset disabled
  f32      : Bool := false -- 03 Table 3-14; 1
  firstBin : Int  := 0     -- 03 Table 3-14; 24 signed
  bins     : Nat  := 0     -- 03 Table 3-14; 24
  decim    : Nat  := 0     -- 03 Table 3-14; 17
  ring     : Nat  := 0xFFFF -- 03 Table 3-14; 16
  count    : Nat  := 0     -- 03 R98; spectra since the last one written
  seq      : Nat  := 0     -- 03 Table 3-6 SEQ; 8
  deriving DecidableEq, Repr

/-- Settings of a lane under which a run of frames is computed, and where the run stands (R67, R71). -/
structure LaneRun where
  source  : Nat  := 0xFF  -- 03 Table 3-15 STREAM; 8
  log2n   : Nat  := 0     -- 03 Table 3-10; 5
  window  : Nat  := 0     -- 03 Table 3-10; 3
  beta    : Nat  := 0     -- 03 Table 3-10; 16
  norm    : Bool := false -- 03 Table 3-10; 1
  overlap : Nat  := 0     -- 03 Table 3-10; 2
  codes   : List Nat := [] -- 03 R76; 18 each; the lane's own copy of a user window
  s1      : Nat  := 0     -- 03 R77; sum of the window codes (S1 x 2^17)
  s2      : Nat  := 0     -- 03 R77; sum of their squares (S2 x 2^34)
  origin  : Nat  := 0     -- 03 R67; grain of the grid origin
  no      : Nat  := 0     -- 01 R22; number of the epoch whose samples it takes
  nextS   : Nat  := 0     -- 03 R67; first sample of the next frame
  endS    : Option Nat := none -- 03 R71; its frames begin before this sample
  lastS   : Option Nat := none -- 03 R70; its frames end before this sample: the epoch has no more
  trunc   : Bool := false -- 03 R97; 1; trace records close early after its last frame
  deriving DecidableEq, Repr

/-- A spectrum that a lane has delivered, as the monitors take it (06 R208, R212). -/
structure SpecRes where
  source : Nat := 0xFF   -- 06 R213; 8; stream of its samples
  idx   : Nat := 0       -- 03 Table 3-15 LAST_INDEX; 48; grain of its first sample; reset 0
  off   : Nat := 0       -- 03 R14; 8; offset of that sample
  time  : Stamp := 0     -- 06 R212; 80; time of that sample
  ep    : Epoch := {}    -- 06 R213; its input's epoch
  flags : Nat := 0       -- 03 R73; 6
  bins  : List Nat := [] -- 03 R14; 32 each; binary32 P, bin by bin
  lo    : Int := 0       -- 03 R95; number of the first of them
  delta : ℚ := 0         -- 06 R209; Δ
  at_   : Tick := 0      -- 06 R212; 64; tick at which its last bin was delivered
  count : Nat := 0       -- 06 R212; how many the lane has computed, this one counted; 0 = none
  deriving DecidableEq, Repr

/-- One lane (Table 3-10, Table 3-15). -/
structure Lane where
  on       : Bool := false -- 03 Table 3-15 ENABLED; 1; reset 0
  run      : LaneRun := {} -- 03 Table 3-10, Table 3-15; STREAM reset 0xFF, LOG2N reset 0, the others not given: DESIGN CHOICE 0 (log 3)
  old      : List LaneRun := [] -- 03 R71; earlier runs whose frames are still to complete, oldest first
  spectra  : Nat  := 0     -- 03 Table 3-15; 32; reset 0
  res      : SpecRes := {} -- 03 Table 3-15; the latest spectrum; reset 0
  prev     : SpecRes := {} -- 06 R212; the latest one delivered in an earlier tick
  gapPend  : Bool := false -- 03 R72; 1; the next spectrum carries GAP
  gapCount : Nat  := 0     -- 03 Table 3-15; 32; reset 0, saturating
  margin   : Nat  := 10000 -- 03 Table 3-15; 14; reset 10,000
  buf      : List HeldGrain := [] -- 03 R67; grains that frames still to come may contain, oldest first
  deriving DecidableEq, Repr

/-- A tuning of a down-converter (R86, R91). -/
structure Tune where
  first : Nat := 0 -- 03 R91; first output grain at this frequency
  start : Int := 0 -- 03 R86; first input sample mixed with it, counted from p0
  freq  : Nat := 0 -- 03 R86; 48; FREQ
  phase : Nat := 0 -- 03 R86; 48; phase accumulator at that sample
  deriving DecidableEq, Repr

/-- One down-converter (Table 3-12, R86-R91). -/
structure Ddc where
  on     : Bool := false -- 03 R109; 1; reset not given: DESIGN CHOICE disabled (log 3)
  source : Nat  := 0     -- 03 Table 3-12; 8
  e      : Nat  := 0     -- 03 Table 3-12 LOG2D; 5
  gain   : Nat  := 0     -- 03 Table 3-12; 3
  freq   : Nat  := 0     -- 03 Table 3-12; 48
  phase  : Nat  := 0     -- 03 Table 3-12; 16
  ep     : Epoch := {}   -- 03 R89; the latest epoch of its stream
  live   : Bool := false -- 03 R91; 1; that epoch is in progress
  src    : Nat  := 0     -- 03 R91; 8; source of that epoch
  srcNo  : Nat  := 0     -- 03 R91; number of the source's epoch it takes
  endAt  : Option Nat := none -- 03 R109, 01 R16; source grain from which the settings of that epoch no longer apply
  start  : Option (Nat × Nat) := none -- 03 R109; where the next epoch begins: number of the source's epoch, and the grain in it
  p0     : Nat  := 0     -- 03 R89; the input sample at which the epoch began, counted in the source's epoch
  next   : Nat  := 0     -- 03 R89; 48; index of the next output grain
  tunes  : List Tune := [] -- 03 R91; tunings of the epoch, oldest first
  buf    : List HeldGrain := [] -- 03 R87; source grains that outputs to come may need, oldest first
  grains : List Grain := [] -- 01 R13; output grains that some consumer has still to take, oldest first
  abortAt : Option Nat := none -- 04 R144; source grain at whose boundary a new configuration takes effect
  deriving DecidableEq, Repr

/-- What the governor holds beside its supply and shed level (R101 to R103). -/
structure Gov where
  margins : Tab Nat := []  -- 03 R101; 14; 10,000 - margin in 0.01 % over the latest 4 us: lanes 0-11, DDCs 16-31, the shared segment 32
  raiseAt : Option Tick := none -- 03 Table 3-7; 64; latest step up
  lowFrom : Option Tick := none -- 03 Table 3-7; 64; m_min has been above 30 % from this tick on, or since the latest step down
  shedFrom : Option Tick := none -- 03 Table 3-7; 64; the condition to shed has held from this tick on, or since the latest step
  restFrom : Option Tick := none -- 03 Table 3-7; 64; the condition to restore has held from this tick on, or since the latest step
  deriving DecidableEq, Repr

/-- Spectral engine and throughput governor. -/
structure Spectral where
  lanes    : Tab Lane := []   -- 03 R65; lane codes 0-11
  traces   : Tab Trace := []  -- 03 R65; trace unit ids 0-47
  outs     : Tab SpecOut := [] -- 03 R112; lane codes 0-11
  ddcs     : Tab Ddc := []    -- 03 R66; DDC0-DDC15
  windows  : Tab (List Nat) := [] -- 03 R76; 18 each; UW0-UW3, empty until loaded
  vcore    : Nat  := 850      -- 03 Table 3-15 VCORE; 10; after start-up 0.85 V (16 R533)
  shed     : Nat  := 0        -- 03 Table 3-15 SHED; 4; reset 0
  gov      : Gov  := {}       -- 03 R101 to R103; margins and the times of the governor's conditions
  holds    : Tab Bool := []   -- 03 R106; 1; HOLD request of each session
  supplyFault : Bool := false -- 15 Table 15-1 0x26; 1; the governor holds 0.85 V until device reset
  shedMax  : List (Tick × Nat) := [] -- 15 Table 15-12 SHEDMAX; shed level changes since reset
  deriving DecidableEq, Repr

/-! ## Triggers and acquisition (04_triggers_and_acquisition.md) -/

/-- One trigger term slot (Table 4-8) and its run state. -/
structure Term where
  on      : Bool := false -- 04 R152; 1; reset not given: DESIGN CHOICE disabled (log 3)
  ty      : Nat  := 0     -- 04 Table 4-2; 4
  inhibit : Nat  := 0     -- 04 Table 4-8; 6
  p       : Nat  := 0     -- 04 Table 4-8; 256; the block's bits, read by TYPE
  prev    : Option Int := none -- 04 R119; last sample of the history
  primed  : Nat  := 0     -- 04 R120; priming bits (rising 1, falling 2)
  pulseAt : Option Nat := none -- 04 R120; start sample number of an open pulse
  sums    : List Nat := [] -- 04 R123; hits of the latest J spectra
  above   : Bool := false -- 04 R123; 1; the sum is at or above THRESH
  progress : Stamp := 0   -- 04 R133; progress reported by the term
  deriving DecidableEq, Repr

/-- One capture stream entry (Table 4-10) and the slot being written. Grain numbers are counted from the epoch's first
grain without wrapping at a rollover. -/
structure CapEntry where
  stream : Nat := 0      -- 04 Table 4-10; 8
  ring   : Nat := 0xFFFF -- 04 Table 4-10; 16
  g      : Nat := 0      -- 04 R137; G, grain positions of a slot
  bytes  : Nat := 392    -- 04 R137; B, bytes of a position
  p      : Nat := 0      -- 04 R136; p
  q      : Nat := 0      -- 04 R136; q
  qEff   : Nat := 0      -- 04 R136; q_eff
  ep     : Epoch := {}   -- 04 R144; epoch of the stream at arm: a new one aborts the unit
  first  : Nat := 0      -- 04 R155; first grain of the present segment
  pos    : Nat := 0      -- 04 R138; next grain position
  idxs   : List (Nat × Nat) := [] -- 04 R138; grain and tag flags retained in the slot, newest first, at most G
  held   : Nat := 0      -- 04 R139; samples of the present segment held
  last   : Option Nat := none -- 04 Table 4-16; last grain written since arm
  trigS  : Nat := 0      -- 04 R136; t, sample number in the epoch
  done   : Option (List Nat) := none -- 04 R138; this entry's part of the segment is complete: its header fields
  deriving DecidableEq, Repr

/-- One mask test of a unit (Table 4-13). -/
structure Test where
  on     : Bool := false -- 04 R158; 1; reset not given: DESIGN CHOICE disabled (log 3)
  freq   : Bool := false -- 04 Table 4-13 KIND; 1
  stop   : Bool := false -- 04 Table 4-13; 1
  stream : Nat  := 0     -- 04 Table 4-13; 8
  lane   : Nat  := 0     -- 04 Table 4-13; 4
  slot   : Nat  := 0     -- 04 Table 4-13; 2
  ubase  : Nat  := 0     -- 04 Table 4-13; 17
  ucount : Nat  := 0     -- 04 Table 4-13; 18
  lbase  : Nat  := 0     -- 04 Table 4-13; 17
  lcount : Nat  := 0     -- 04 Table 4-13; 18
  deriving DecidableEq, Repr

/-- One acquisition unit (Table 4-1, Table 4-15). -/
structure Acq where
  st       : Nat  := 0     -- 04 Table 4-1; 3; reset 0 IDLE
  segDone  : Nat  := 0     -- 04 Table 4-15; 17; reset 0
  triggers : Nat  := 0     -- 04 Table 4-15; 32; reset 0, saturating
  missed   : Nat  := 0     -- 04 Table 4-15; 32; reset 0, saturating
  ftested  : Nat  := 0     -- 04 Table 4-15; 32; reset 0, saturating
  ffailed  : Nat  := 0     -- 04 Table 4-15; 32; reset 0, saturating
  viol     : Nat  := 0     -- 04 Table 4-15; 32; reset 0, saturating
  lastTrig : Stamp := 0    -- 04 Table 4-15; 80; reset 0
  hasTrig  : Bool := false -- 04 R134; 1; a trigger was accepted since arm
  holdTrig : Stamp := 0    -- 04 R134; 80; latest time of a trigger accepted since arm
  evtDrop  : Nat  := 0     -- 04 Table 4-15; 16; reset 0, saturating
  mode     : Nat  := 0     -- 04 Table 4-9 MODE; 2
  terms    : Nat  := 0     -- 04 Table 4-9 TERMS; 8
  win      : Nat  := 0     -- 04 Table 4-9 WIN; 32
  holdoff  : Nat  := 0     -- 04 Table 4-9 HOLDOFF; 32
  resetT   : Nat  := 15    -- 04 Table 4-9 RESET; 4
  queue    : List (Stamp × Nat) := [] -- 04 R133; events waiting for progress: time, term slot
  lastEv   : Tab Stamp := []  -- 04 R132; time + 1 of each term's latest events (AND), 0 = none
  seqStep  : Nat  := 0     -- 04 R132; steps of the SEQUENCE completed
  seqTime  : Stamp := 0    -- 04 R132; completion of the last step
  capSet   : Bool := false -- 04 R143; 1; a capture is configured
  capMode  : Nat  := 0     -- 04 Table 4-10 MODE; 2
  prefill  : Bool := false -- 04 Table 4-10; 1
  pre      : Nat  := 0     -- 04 Table 4-10; 40
  post     : Nat  := 0     -- 04 Table 4-10; 40
  segments : Nat  := 1     -- 04 Table 4-10; 17
  entries  : List CapEntry := [] -- 04 Table 4-10; 1 to 4 stream entries
  armAt    : Option Tick := none -- 04 R155; AT_CT of a pending ACQ_ARM
  armTime  : Stamp := 0    -- 04 R118; time of the arm grain
  trigTime : Stamp := 0    -- 04 Table 4-6; 80; trigger time of the open segment
  trigForced : Bool := false -- 04 Table 4-6; 1
  trigTerms : Nat := 0     -- 04 Table 4-6; 8
  stopReq  : Bool := false -- 04 R146; 1; stop when the open segment completes
  violT    : List Stamp := [] -- 04 R145; event times of the violations since arm
  ttPend   : List (Nat × Nat × List Nat) := [] -- 04 R145; verdicts to be written: test, segment, and the slot's address, the verdict, the first violating sample, the count, its time
  trunc    : Bool := false -- 04 R141; 1; the open segment is being closed with TRUNC
  capBad   : Bool := false -- 15 Table 15-1 0x0B, 0x0C; 1; SUSPECT in FLAGS of the open segment
  deriving DecidableEq, Repr

/-- One frequency-mask slot (Table 4-12) with its qualifier. -/
structure Mask where
  on     : Bool := false -- 04 R157; 1; reset not given: DESIGN CHOICE disabled (log 3)
  test   : Bool := false -- 04 Table 4-12 ROLE; 1
  lower  : Bool := false -- 04 Table 4-12 LIMIT; 1
  tpoint : Bool := false -- 04 Table 4-12; 1
  base   : Nat  := 0     -- 04 Table 4-12; 17
  count  : Nat  := 0     -- 04 Table 4-12; 18
  nq     : Nat  := 1     -- 04 Table 4-12; 9
  mq     : Nat  := 1     -- 04 Table 4-12; 9
  vbins  : Nat  := 1     -- 04 Table 4-12; 16
  deriving DecidableEq, Repr

/-- A mask slot: the configuration in force, its history, and a pending configuration (R130). -/
structure MaskSlot where
  cur   : Mask := {}       -- 04 R126
  hist  : List Bool := []  -- 04 R129; failed spectra among the latest M, newest first
  pend  : Option Mask := none -- 04 R130; pending configuration
  pendT : Stamp := 0       -- 04 R130; 80; the named grain's time
  pendS : Nat := 0         -- 04 R130; 8; named stream
  pendI : Nat := 0         -- 04 R130; 48; named index
  bad   : Bool := false    -- 11 R385; 1; a breakpoint of its range met a double-bit error since the last spectrum
  sus   : Bool := false    -- 15 Table 15-1 0x0D; 1; a duplicate of the slot disagreed since the last spectrum: SUSPECT for its qualifier
  deriving DecidableEq, Repr

/-- One EVT_OUT pin (Table 4-14). -/
structure EvtOut where
  on      : Bool := false -- 04 R147; 1; reset disabled
  pol     : Bool := false -- 04 Table 4-14; 1
  source  : Nat  := 0     -- 04 Table 4-14; 3
  retrig  : Bool := false -- 04 Table 4-14; 1
  au      : Nat  := 0     -- 04 Table 4-14; 3
  index   : Nat  := 0     -- 04 Table 4-14; 3
  fixed   : Bool := false -- 04 Table 4-14 TIMING; 1
  width   : Nat  := 0     -- 04 Table 4-14; 32
  delay   : Nat  := 0     -- 04 Table 4-14; 32
  active  : Bool := false -- 04 R148; 1; the signal before polarity
  endAt   : Tick := 0     -- 04 R148; 64; end of the pulse in progress
  pend    : List Tick := [] -- 04 R150; fixed pulses pending, at most 16
  level   : Bool := false -- 04 R147; 1; the pin: driven low from reset
  held    : Bool := false -- 15 R502; 1; held inactive in the fatal state
  deriving DecidableEq, Repr

/-- A breakpoint of the mask table (Table 4-3). -/
structure Bp where
  pos   : Int  := 0     -- 04 Table 4-3; 32; zeroed by device reset (11 R386)
  level : Int  := 0     -- 04 Table 4-3; 16
  lin   : Bool := false -- 04 Table 4-3 SHAPE; 1
  deriving DecidableEq, Repr

/-- Triggers and acquisition. -/
structure AcqEng where
  units  : Tab Acq := []      -- 04 R116; AU0-AU7
  terms  : Tab Term := []     -- 04 R152; T0-T7 of AUa at 8a + t
  tests  : Tab Test := []     -- 04 R145; test k of AUa at 2a + k
  masks  : Tab MaskSlot := [] -- 04 R126; slot s of lane c at 4c + s
  table  : Tab Bp := []       -- 04 R126; 131,072 breakpoints
  pins   : Tab EvtOut := []   -- 04 R147; EVT_OUT0-3
  deriving DecidableEq, Repr

/-! ## Density maps and display (05_density_and_display.md) -/

/-- One density map (Table 5-6, Table 5-12). -/
structure DensMap where
  on       : Bool := false -- 05 Table 5-12; 1; reset 0
  lane     : Nat  := 0     -- 05 Table 5-12; 4; reset 0
  inhibit  : Nat  := 0     -- 05 Table 5-6; 6
  firstBin : Int  := 0     -- 05 Table 5-6; 24 signed
  bins     : Nat  := 0     -- 05 Table 5-6; 24
  bottom   : Int  := 0     -- 05 Table 5-6; 16
  step     : Nat  := 1     -- 05 Table 5-6; 12
  dec      : Nat  := 1     -- 05 Table 5-12 DEC_EFF; 17; reset 1
  halfLife : Nat  := 0     -- 05 Table 5-6; 16
  cells    : Tab Nat := [] -- 05 R166; 32 each; count at key 1024*column + row; zeroed by device reset
  lfsrSt   : Tab Word := [] -- 05 R169; column LFSR states that differ from their seed, XOR the seed
  down     : Nat  := 0     -- 05 R167; spectra until one is applied, 0 = reload due
  spectra  : Nat  := 0     -- 05 Table 5-12; 64; reset 0
  skipped  : Nat  := 0     -- 05 Table 5-12; 32; reset 0, saturating
  sat      : Bool := false -- 05 Table 5-12; 1; reset 0
  flags    : Nat  := 0     -- 05 Table 5-7 FLAGS; 6
  first    : Nat  := 0xFFFFFFFFFFFF -- 05 Table 5-7; 48
  last     : Nat  := 0     -- 05 Table 5-12; 48; reset 0
  clearing : Bool := false -- 05 R170; 1; a clear runs
  reading  : Bool := false -- 05 Table 5-12; 1; reset 0
  freeze   : Bool := false -- 05 R171; 1
  rdLast   : Nat  := 0     -- 05 Table 5-7 LAST_INDEX; 48
  held     : Nat  := 0     -- 05 Table 5-7 HELD; 32
  missedSweeps : Nat := 0  -- 05 R171; sweeps to make up after a frozen copy
  deriving DecidableEq, Repr

/-- One pigment table (R173, R196). -/
structure Pigment where
  curve : Nat := 0          -- 05 R196; 2; reset 0
  cmin  : Nat := 0          -- 05 R196; 32; reset 0
  cmax  : Nat := 0xFFFFFFFF -- 05 R196; 32; reset 0xFFFF_FFFF
  ents  : Option (List Nat) := none -- 05 R196; 32 each; none = the reset entries
  pend  : List (Tick × Nat × Nat × Nat × Option (List Nat)) := [] -- 05 R174; shadows, oldest first: tick of the command, curve, cmin, cmax, entries
  deriving DecidableEq, Repr

/-- One layer of a port (Table 5-10). -/
structure Layer where
  on     : Bool := false -- 05 R197; 1; disabled
  p      : Nat  := 0     -- 05 Table 5-10; 256; the block's bits, read by LAYER
  region : Nat  := 0xFFFF -- 05 Table 5-10; 16
  deriving DecidableEq, Repr

/-- One line in a port's prefetch buffer (R186): the background, and per layer the ARGB value of each pixel of the area that the
layer covers. -/
structure FetchLine where
  line : Nat := 0 -- 05 R186; 16
  bg   : Nat := 0 -- 05 R182; 24
  px   : List (List (Option Nat)) := [] -- 05 R182; L0-L3, 32 each
  bad  : List Nat := [] -- 11 Table 11-1; layers whose fetch of the line met a poisoned line
  deriving DecidableEq, Repr

/-- One display port (Table 5-11, R175-R192). -/
structure Port where
  mode     : Nat  := 0xF   -- 05 Table 5-11; 4; reset 0xF
  rate     : Nat  := 0     -- 05 Table 5-11; 2; reset 0
  maxRate  : Nat  := 0     -- 05 Table 5-9; 2
  split    : Bool := false -- 05 Table 5-11; 1; reset 0
  fallow   : Bool := false -- 05 Table 5-11; 1; reset 0
  hpd      : Bool := false -- 05 Table 5-11; 1; reset 0
  linkOk   : Bool := false -- 05 Table 5-11; 1; reset 0
  bpc      : Bool := false -- 05 Table 5-11; 1; reset 0
  line     : Nat  := 0     -- 05 Table 5-11; 16; reset 0
  timing   : Bool := false -- 05 R175; 1; the timing generator runs
  frame    : Nat  := 0     -- 05 Table 5-11; 32; reset 0
  underruns : Nat := 0     -- 05 Table 5-11; 32; reset 0, saturating
  frUnder  : Nat  := 0     -- 05 R189; lines underrun in the frame in progress
  frLayers : Nat  := 0     -- 05 Table 5-13; 3; layers that underran in the frame
  frLine   : Nat  := 0     -- 05 Table 5-13; 16; first such line
  vdden    : Bool := false -- 05 R175; 1; reset low
  blen     : Bool := false -- 05 R175; 1; reset low
  vddLow   : Bool := true  -- 05 R179; 1; VDDEN has been low for 500 ms
  bldelay  : Nat  := 0     -- 05 Table 5-9; 10
  psrCap   : Bool := false -- 05 R197; 1; panel self-refresh version 1 declared
  phase    : Nat  := 0     -- 05 R179; power sequence: 0 none, 1 wait VDDEN low time, 2 wait HPD, 3 training, 4 wait BLDELAY on, 5 wait BLDELAY off, 6 wait frame done, 7 wait VDDEN off, 8 leave Fallow, 9 read capabilities again, 10 trained, 11 capabilities read
  newMode  : Nat  := 0xF   -- 05 R179; 4; mode being set
  newBpc   : Bool := false -- 05 R179; 1; its BPC
  tryRate  : Nat  := 0     -- 05 R178; 2; rate being trained
  evVblank : Bool := false -- 05 R190; 1; reset disabled
  evLine   : Bool := false -- 05 R190; 1; reset disabled
  evFrame  : Bool := false -- 05 R190; 1; reset disabled
  lmatch   : Nat  := 0     -- 05 R199; 16
  layers   : Tab Layer := [] -- 05 R198; L0-L3 in force
  pend     : List (Tick × Nat × Layer) := [] -- 05 R187; commits: tick of the command, layer, setting
  enterFallow : Nat := 0   -- 05 R191; 1 = the next frame is the last, 2 = it is being sent
  fallowAt : Tick := 0     -- 05 R191; tick of the command that enters Fallow
  exitFallow : Nat := 0    -- 05 R192; 1 + reason while the exit retrains
  auxBusy  : Bool := false -- 05 R201; 1; an AUX transaction is in progress
  refs     : Tab Bool := [] -- 05 R188; regions from which a line was fetched whose frame done is to come
  lastFetch : Tab Nat := [] -- 05 R204; per region 1 + the frame number of the last fetch
  lineDue  : Option Tick := none -- 05 R187; tick at which the next timing line starts
  deferred : List Nat := [] -- 05 R188; regions whose free awaits a frame done
  fdone    : Bool := false -- 05 R190; 1; the frame done of the frame in progress has passed
  panelRate : Nat := 0    -- 05 R178; 2; the panel's DPCD maximum link rate
  relink   : Bool := false -- 05 R180; 1; retrained: video resumes at the next line 0
  buf      : List FetchLine := [] -- 05 R186; prefetch buffer, at most three lines
  lineOut  : List Nat := [] -- 05 R182; pixels of the latest line sent (the model's output)
  deriving DecidableEq, Repr

/-- Density maps, pigment tables and display ports. -/
structure Disp where
  maps     : Tab DensMap := [] -- 05 R162; maps 0-3
  pigments : Tab Pigment := [] -- 05 R173; tables 0-3
  ports    : Tab Port := []    -- 05 R175; DP0, DP1
  sweepPer : Nat := 0     -- 05 R169; 1 ms interval + 1 of the latest decay sweep
  deriving DecidableEq, Repr

/-! ## Channel monitors (06_channel_monitors.md) -/

/-- One monitor context: configuration, dynamic state and record (Table 6-4, Table 6-6). -/
structure Ctx where
  on       : Bool := false -- 06 R207; 1; reset 0
  lane     : Nat  := 0     -- 06 Table 6-4; 4; reset 0
  p        : Nat  := 0     -- 06 Table 6-6; 256; the configuration block
  phase    : Nat  := 0     -- 06 R210; 16
  busy     : Bool := false -- 06 Table 6-4; 1; reset 0
  coarse   : Bool := false -- 06 Table 6-4; 1; reset 0
  flags    : Nat  := 0     -- 06 Table 6-4; 6; reset 0
  value    : Nat  := 0     -- 06 Table 6-4; 32; reset 0
  result   : Nat  := 0     -- 06 Table 6-4; 32; reset 0
  q        : Nat  := 0     -- 06 R214; 32; binary32 filter state q
  m        : Nat  := 0     -- 06 Table 6-4 STATE; 32; reset 0
  sum      : Nat  := 0     -- 06 R214; 32; binary32 running sum behind AVG and RMS
  nsum     : Nat  := 0     -- 06 R214; updates of the interval in progress
  lastIdx  : Nat  := 0     -- 06 Table 6-4; 48; reset 0
  lastOff  : Nat  := 0     -- 06 Table 6-4; 8; reset 0
  rflags   : Nat  := 0     -- 06 Table 6-4; 8; reset 0
  updates  : Nat  := 0     -- 06 Table 6-4; 32; reset 0, saturating
  busyUpd  : Nat  := 0     -- 06 Table 6-4; 32; reset 0, saturating
  episodes : Nat  := 0     -- 06 Table 6-4; 32; reset 0, saturating
  skipped  : Nat  := 0     -- 06 Table 6-4; 32; reset 0, saturating
  since    : Stamp := 0    -- 06 Table 6-4; 80; reset 0
  longest  : Nat  := 0     -- 06 Table 6-4; 32; reset 0, saturating
  intervals : Nat := 0     -- 06 Table 6-4; 32; reset 0, saturating
  idleTurns : Nat := 0     -- 06 Table 6-4; 16; reset 0, saturating
  prevT    : Option Stamp := none -- 06 R213; time of the spectrum of the previous update
  t0       : Stamp := 0    -- 06 R218; start of interval 0
  ivNo     : Nat  := 0     -- 06 R218; interval in progress
  epFlags  : Nat  := 0     -- 06 R226; 6; OR of flags over the episode
  epMax    : Int  := 0     -- 06 R226; 16; largest level code of x in the episode
  taken    : Option (Nat × Stamp) := none -- 06 R212; spectrum last taken: lane count, time
  epoch    : Option (Nat × Nat) := none -- 06 R213; stream and epoch number of the spectrum of the previous update
  deriving DecidableEq, Repr

/-- Channel monitors. -/
structure Mon where
  ctxs    : Tab Ctx := []   -- 06 R205; contexts 0-65,535
  loadNow : Nat  := 0       -- 06 Table 6-7; 12; reset 0
  snap    : Bool := false   -- 06 Table 6-7; 1; reset 0
  snapData : List Nat := [] -- 06 R223; the frozen records, header first, as 512-bit numbers
  snapAddr : Nat := 0       -- 06 R230; device address of the snapshot
  evLost  : Nat  := 0       -- 06 Table 6-7; 32; reset 0, saturating
  evPer   : PerCount := {}  -- 06 R221; events lost in a 1 ms period
  logLost : Nat  := 0       -- 06 Table 6-7; 32; reset 0, saturating
  logs    : Tab Nat := []   -- 06 R231; ring + 1 of each session, 0 = none
  logSec  : Nat := 0        -- 06 R226; second of the log cap window
  logCnt  : Nat := 0        -- 06 R226; log records written in that window
  lastRound : Nat := 0    -- 06 R212; round + 1 of the latest monitor round
  loadCur  : Nat := 0      -- 06 Table 6-7; 12; slots used by the latest round, which LOADNOW shows once it is complete
  deriving DecidableEq, Repr

/-! ## Time-interval unit (08_time_interval_unit.md) -/

/-- A stamp record of a queue (Table 8-2). -/
structure StampRec where
  time   : Stamp := 0     -- 08 Table 8-2; 80
  input  : Nat := 0       -- 08 Table 8-2; 4
  fall   : Bool := false  -- 08 Table 8-2 EDGE; 1
  coarse : Bool := false  -- 08 Table 8-2; 1
  uncal  : Bool := false  -- 08 Table 8-2; 1
  seq    : Nat := 0       -- 08 Table 8-2; 32
  deriving DecidableEq, Repr

/-- One TIU input (Table 8-4, Table 8-7). -/
structure TiuIn where
  on       : Bool := false -- 08 R265; 1; reset 0
  term50   : Bool := false -- 08 R265; 1; reset high impedance
  edge     : Nat  := 0     -- 08 Table 8-4; 2; reset not given: DESIGN CHOICE 0 (log 3)
  prescale : Nat  := 0     -- 08 Table 8-7; 2; reset 0
  queueOn  : Bool := false -- 08 Table 8-4; 1; reset not given: DESIGN CHOICE 0 (log 3)
  thresh   : Int  := 1250  -- 08 R265; 16; reset +1,250 mV
  hyst     : Nat  := 20    -- 08 R265; 6; reset 20 mV
  level    : Bool := false -- 08 Table 8-7; 1; reset 0
  uncal    : Bool := true  -- 08 Table 8-7; 1; reset 1
  bins     : Option (List Nat) := none -- 08 R283; 192 widths; none = the uniform table
  calTj    : Int  := 0     -- 08 R283; 0.1 °C; junction temperature at which the table was accepted
  testing  : Bool := false -- 08 Table 8-7 CALIB; 1; reset 0
  pre      : Nat  := 0     -- 08 R267; edges since the prescaler last passed one
  deadEnd  : Int  := 0     -- 08 R272; end of the dead time in half fraction LSB
  queue    : List StampRec := [] -- 08 R275; at most 4,096, oldest first
  qArmed   : Bool := true  -- 08 R276; 1; the next drop posts TIU_QFULL
  seq      : Nat  := 0     -- 08 Table 8-7; 32; reset 0
  lost     : Nat  := 0     -- 08 Table 8-7; 32; reset 0, saturating
  lostPer  : PerCount := {} -- 08 R293; edges lost in a 1 ms period
  qlost    : Nat  := 0     -- 08 Table 8-7; 32; reset 0, saturating
  last     : Stamp := 0    -- 08 Table 8-7; 80; reset 0
  coarseCnt : Nat := 0     -- 08 Table 8-7; 32; reset 0, saturating
  drain    : Nat  := 0xFFFF -- 08 R290; 16; none
  deriving DecidableEq, Repr

/-- One statistics unit (Table 8-5, Table 8-6). -/
structure TiuStat where
  run      : Bool := false -- 08 Table 8-6; 1; reset 0
  interval : Bool := false -- 08 Table 8-6 MODE; 1; reset 0
  cont     : Bool := false -- 08 Table 8-5; 1
  start    : Nat  := 0     -- 08 Table 8-5; 4
  stop     : Nat  := 0     -- 08 Table 8-5; 4
  n        : Nat  := 0     -- 08 Table 8-5; 33
  pendA    : List Stamp := [] -- 08 R278; pending start edges, oldest first
  pendB    : List Stamp := [] -- 08 R278; pending stop edges, oldest first
  cnt      : Nat  := 0     -- 08 Table 8-6 NNOW; 33; reset 0
  sum      : Int  := 0     -- 08 R281; exact sum of x
  sq       : Nat  := 0     -- 08 R281; exact sum of x squared
  lo       : Int  := 0     -- 08 R281; smallest x of the run
  hi       : Int  := 0     -- 08 R281; largest x of the run
  runUncal : Bool := false -- 08 Table 8-6; 1; a stamp of the open run carried UNCAL
  valid    : Bool := false -- 08 Table 8-6; 1; reset 0
  uncal    : Bool := false -- 08 Table 8-6; 1; reset 0
  runs     : Nat  := 0     -- 08 Table 8-6; 32; reset 0
  mean     : Nat  := 0     -- 08 Table 8-6; 64; reset 0
  sdev     : Nat  := 0     -- 08 Table 8-6; 64; reset 0
  min_     : Nat  := 0     -- 08 Table 8-6; 64; reset 0
  max_     : Nat  := 0     -- 08 Table 8-6; 64; reset 0
  ovf      : Nat  := 0     -- 08 Table 8-6; 32; reset 0, saturating
  ooo      : Nat  := 0     -- 08 Table 8-6; 32; reset 0, saturating
  resync   : Nat  := 0     -- 08 Table 8-6; 32; reset 0, saturating
  ovPosted : Bool := false -- 08 R279; 1; TIU_OVERFLOW posted in this run
  deriving DecidableEq, Repr

/-- Time-interval unit. -/
structure Tiu where
  ins   : Tab TiuIn := []   -- 08 R264; inputs 0-8
  stats : Tab TiuStat := [] -- 08 R264; SU0-SU3
  deriving DecidableEq, Repr

/-! ## Grove DSP cluster (10_grove_dsp_cluster.md) -/

/-- A register or memory word that an outstanding write will reach. -/
inductive Dest where
  | g (bank i : Nat)      -- 10 R322; G register of a bank
  | x (bank i : Nat)      -- 10 R322; X register
  | m (bank i : Nat)      -- 10 R322; M register
  | acc (bank i : Nat) (im : Bool) -- 10 Table 10-2; part of an accumulator
  | sr (n : Nat)          -- 10 Table 10-4; special register
  | mem (addr bytes kind : Nat) -- 10 R330 11 R384; own scratchpad store; kind 0 plain, 1 bit-set, 2 bit-clear
  deriving DecidableEq, Repr

/-- An outstanding write of the exposed pipeline (R330). -/
structure PendW where
  pos  : Nat  -- 10 R330; issue position from which it is seen
  dest : Dest
  val  : Nat
  deriving DecidableEq, Repr

/-- A posted commons store (R320). -/
structure PostedW where
  addr  : Nat -- 10 Table 10-1; commons byte offset
  bytes : Nat
  kind  : Nat -- 0 plain, 1 bit-set, 2 bit-clear
  val   : Nat
  deriving DecidableEq, Repr

/-- One access through a port of a scratchpad or of the commons (R321, R382, R383). -/
structure PortUse where
  at_   : Tick -- 11 R382; the tick that stands for the slot
  write : Bool -- 11 R383; 1
  core  : Nat  -- 10 R321; 6; the core whose scratchpad, or whose port, is used
  lo    : Nat  -- 10 Table 10-1; 32; first core address
  len   : Nat  -- 10 Table 10-1; bytes
  feed  : Nat := 32 -- 10 R321; the feed, 32 = GROVE_LOAD, GROVE_READ or DMA
  dst   : Nat := 0  -- 11 R383; device address that the bytes read were copied to
  dests : List (Nat × Dest) := [] -- 10 R330; the outstanding writes that the data read went into
  deriving DecidableEq, Repr

/-- One Grove core (Table 10-2, Table 10-4, Table 10-15). -/
structure GCore where
  st      : Nat  := 0     -- 10 Table 10-15 STATE; 3; reset 0 STOPPED
  cause   : Nat  := 0     -- 10 Table 10-15; 4; reset 0
  pc      : Nat  := 0     -- 10 Table 10-15; 32; reset 0
  faddr   : Nat  := 0     -- 10 Table 10-15; 32; reset 0
  issued  : Nat  := 0     -- 10 Table 10-15; 64; reset 0
  userLost : Nat := 0     -- 10 Table 10-15; 32; reset 0, saturating
  barWait : Nat  := 0     -- 10 Table 10-15; 8; reset 0
  g0      : Tab Word := [] -- 10 R318; 32; bank 0 G0-G15, zero
  x0      : Tab Word := [] -- 10 R318; 32; bank 0 X0-X7, zero
  m0      : Tab Word := [] -- 10 R318; 32; bank 0 M0-M7, zero
  g1      : Tab Word := [] -- 10 R318; 32; bank 1 G0-G15, zero
  x1      : Tab Word := [] -- 10 R318; 32; bank 1 X0-X7, zero
  m1      : Tab Word := [] -- 10 R318; 32; bank 1 M0-M7, zero
  are     : Tab (BitVec 48) := [] -- 10 R318; 48; real parts of A0-A7 (bank 1 of A6, A7 at 14, 15), zero
  aim     : Tab (BitVec 48) := [] -- 10 R318; 48; imaginary parts, zero
  sat     : Bool := false -- 10 Table 10-5; 1; reset 0
  aov     : Bool := false -- 10 Table 10-5; 1; reset 0
  coll    : Bool := false -- 10 Table 10-5; 1; reset 0
  brk     : Bool := false -- 10 Table 10-5; 1; reset 0
  inh     : Bool := false -- 10 Table 10-5; 1; reset 0
  lastInt : Nat  := 0     -- 10 Table 10-5; 3; reset 0
  ien     : Word := 0     -- 10 Table 10-4; 32; reset 0
  ipend   : BitVec 8 := 0 -- 10 Table 10-4; 8; reset 0
  epc     : Word := 0     -- 10 Table 10-4; 32; reset 0
  cnth    : Option Word := some 0 -- 10 Table 10-4 R318; 32; the latch of CNTH, zero; none once CNTH has been read
  tcmpl   : Word := 0     -- 10 Table 10-4; 32; reset 0
  tcmph   : Word := 0     -- 10 Table 10-4; 32; reset 0
  armed   : Bool := false -- 10 R333; 1; the timer is armed
  ivec    : Word := 0     -- 10 Table 10-4; 32; reset 0
  pend    : List PendW := []   -- 10 R330; outstanding writes
  posted  : List PostedW := [] -- 10 R320; commons stores not yet complete
  slots   : Nat  := 0     -- 10 R331; delay slots still to issue
  target  : Nat  := 0     -- 10 R331; where issue goes after the slots
  rep     : Nat  := 0     -- 10 R332; iterations of the repeated instruction left
  stall   : Nat  := 0     -- 10 Table 10-15; 0 none, 1 commons load, 2 SYNC, 3 WAIT, 4 BAR, 5 RETI
  ldDest  : Nat  := 0     -- 10 R320; G register of a stalled commons load
  ldAddr  : Nat  := 0     -- 10 R320; its commons address
  ldHalf  : Bool := false -- 10 R320; 1; LDH
  stopReq : Bool := false -- 10 R350; 1
  staged  : List (Nat × Nat × Tick) := [] -- 10 R336; register spec, value, tick of the staged writes
  raiseAt : List (Nat × Tick) := [] -- 10 R336; source bit and tick of raises due
  liveIss : Bool := true  -- 10 R337; 1; a live instruction issued since the last return
  userAt  : Option Nat := none -- 10 R357; period of the latest GROVE_USER
  startAt : Tick := 0     -- 10 R349; tick of the first instruction of the latest start
  dirty   : List Nat := [] -- 10 R320; scratchpad words stored to since the last SYNC: their fetch is not yet fixed
  spad    : Mem := []     -- 10 R318; 256 KiB scratchpad, zero
  deriving DecidableEq, Repr

/-- One feed (Table 10-14, Table 10-16). -/
structure Feed where
  on      : Bool := false -- 10 R318; 1; reset 0
  p       : Nat  := 0     -- 10 Table 10-14; 384; the configuration block
  kind    : Nat  := 0     -- 10 Table 10-16; 2; reset 0
  core    : Nat  := 0     -- 10 Table 10-16; 6; reset 0
  session : Nat  := 0     -- 10 R342; 4; owner whose regions the feed uses
  feedCnt : Word := 0     -- 10 Table 10-16; 32; reset 0
  coreCnt : Word := 0     -- 10 Table 10-16; 32; reset 0
  dropped : Nat  := 0     -- 10 Table 10-16; 32; reset 0, saturating
  fcoll   : Nat  := 0     -- 10 Table 10-16; 32; reset 0, saturating
  lastIdx : Nat  := 0     -- 10 Table 10-16; 48; reset 0
  blkOpen : Bool := false -- 10 R347; 1; a block is open
  blkN    : Nat  := 0     -- 10 R347; grains in the open block
  blkIdx  : Nat  := 0     -- 10 Table 10-11 FIRST_INDEX; 48
  blkFl   : Nat  := 0     -- 10 Table 10-11 FLAGS; 6
  missF   : Nat  := 0xFFFFFFFFFFFF -- 10 Table 10-11; 48
  missL   : Nat  := 0xFFFFFFFFFFFF -- 10 Table 10-11; 48
  blkMF   : Nat  := 0xFFFFFFFFFFFF -- 10 Table 10-11; 48; missing range before the open block
  blkML   : Nat  := 0xFFFFFFFFFFFF -- 10 Table 10-11; 48
  gapPend : Bool := false -- 10 R345; 1
  missN   : Nat  := 0     -- 10 Table 10-17; spectra missing
  dec     : Nat  := 0     -- 10 Table 10-14 DECIM; spectra since the last one taken
  done    : Nat  := 0     -- 10 R342; kind 2 blocks copied
  first   : Nat  := 0     -- 10 R352; 48; first grain, or first grain of the first spectrum, that the feed takes
  closing : Bool := false -- 10 R345; 1; disabling, handed blocks still to write
  deriving DecidableEq, Repr

/-- One barrier group (R341, R353). -/
structure Barrier where
  on      : Bool := false -- 10 R318; 1; reset 0
  members : Nat  := 0     -- 10 R353; 64
  arrived : Nat  := 0     -- 10 R341; 64
  broken  : Bool := false -- 10 R341; 1
  deriving DecidableEq, Repr

/-- Grove DSP cluster. -/
structure Grove where
  cores    : Tab GCore := []    -- 10 R316; GC0-GC63
  feeds    : Tab Feed := []    -- 10 R316; FD0-FD31
  barriers : Tab Barrier := [] -- 10 R316; BG0-BG7
  commons  : Mem := []         -- 11 Table 11-4; 16 MiB, zeroed by device reset
  starts   : List (Tick × Nat × Nat × List Nat) := [] -- 10 R349; pending starts: tick, cores, PC, G0-G3
  use1     : List PortUse := [] -- 11 R382; accesses of this slot through logical port 1
  use2     : List PortUse := [] -- 11 R382; accesses of this slot through logical port 2
  deriving DecidableEq, Repr

/-! ## Memory system (11_memory_system.md) -/

/-- One region of device memory (R374-R380). -/
structure Region where
  addr    : Nat := 0      -- 11 R374; 36; device address
  size    : Nat := 0      -- 11 R374; 36; bytes, 0 = handle not in use
  owner   : Nat := 0      -- 11 R374; 4; owning session
  kind    : Nat := 0      -- 11 Table 11-8; 2; reset 0 plain
  hiwat   : Nat := 0      -- 11 Table 11-8; 8; reset 0
  hiArmed : Bool := true  -- 11 R379; 1
  lost    : Nat := 0      -- 11 Table 11-8; 32; reset 0, saturating
  lostPer : PerCount := {} -- 11 R379; records dropped in a 1 ms period
  wpos    : Nat := 0      -- 11 Table 11-8; 64; reset 0
  rpos    : Nat := 0      -- 11 Table 11-8; 64; reset 0
  records : Nat := 0      -- 11 Table 11-8; 64; reset 0
  recs    : List Nat := [] -- 11 R378; lengths of the unread records, oldest first
  bound   : Nat := 0      -- 11 R380; 0 = none, c + 1 = streaming channel c, 33 = recorder
  deferred : Bool := false -- 05 R188; 1; the free is deferred
  deriving DecidableEq, Repr

/-- A rank retirement of one quadrant (R368-R370). -/
structure Quad where
  retired : Nat  := 0xFF  -- 11 Table 11-9 RETIRED; 8; persistent, at manufacture 0xFF (log 3)
  wmark   : Nat  := 0     -- 11 R369; watermark W of the quadrant
  queued  : Nat  := 0xFF  -- 11 R370; rank queued, 0xFF = none
  byCmd   : Bool := false -- 11 Table 11-10; 1; by MEM_RETIRE
  switching : Bool := false -- 11 R368; 1; the switch-over runs
  moving  : Bool := false -- 11 R369; 1; migration runs
  poisoned : Nat := 0     -- 11 Table 11-10; lines written poisoned by the migration
  swAt    : Tick := 0     -- 11 R368; 64; start of the switch-over in progress
  deriving DecidableEq, Repr

/-- Per-rank error counts (R364). -/
structure RankErr where
  recent : List Tick := []  -- 11 R364; ticks of the correctable errors of the latest 3,600 s
  high   : Bool := false    -- 11 R364; 1; the count stands at 1,024 or above
  deriving DecidableEq, Repr

/-- Memory system. -/
structure MemSys where
  mem      : Mem := []           -- 11 R359; 60 GiB of device memory; contents after reset undefined (16 R538): unlisted bytes read 0, DESIGN CHOICE (log 4)
  regions  : Tab Region := []    -- 11 R374; handles 0-4,095, none allocated
  zeroed   : List (Nat × Nat) := [] -- 11 R375; free ranges already zeroed (address, end); none after device reset
  poison   : List Nat := []      -- 11 R367; listed poisoned line addresses, ascending
  poisonX  : List Nat := []      -- 11 R367; lines poisoned while the list was full
  forced   : Tab Nat := []       -- 15 R510; forced corruption per line: 1 correctable, 2 uncorrectable
  listFull : Bool := false       -- 11 Table 11-9; 1; reset 0
  ce       : Nat := 0            -- 11 Table 11-9; 32; reset 0, saturating
  ue       : Nat := 0            -- 11 Table 11-9; 32; persistent, at manufacture 0 (log 3)
  poisonRd : Nat := 0            -- 11 Table 11-9; 16; reset 0, saturating
  poisonWr : Nat := 0            -- 11 Table 11-9; 16; reset 0, saturating
  panics   : Nat := 0            -- 11 Table 11-9; 32; reset 0, saturating
  panic    : Tab (Option Tick) := [] -- 11 R372; start of a raised panic at key 8*port + instance
  panicPost : Tab Nat := []      -- 11 R373; period + 1 of the last MEM_PANIC per port
  poisPost : Tab Nat := []       -- 11 R366; period + 1 of the last MEM_POISON_READ per reader
  quads    : Tab Quad := []      -- 11 R358; Q0-Q3
  ranks    : Tab RankErr := []   -- 11 R364; global ranks 0-63
  migQ     : List Nat := []      -- 11 R370; quadrants with a queued retirement, in order
  channelBad : Bool := false     -- 16 R536; 1; a channel failed training
  selfRef  : Bool := false       -- 11 R361; 1; ranks in self-refresh
  drainBad : Bool := false       -- 11 Table 11-5; 1; the grain or record that the staging buffer drains next is to carry SUSPECT
  refAt    : Option Tick := none -- 11 R361; tick of the latest all-bank refresh
  longUp   : List Nat := []      -- 11 R373; panics, as in `panic`, whose source has been raised
  staging  : Nat := 0            -- 01 R28; bytes held in the 2 MB staging buffer
  commons  : List (Nat × Nat × Nat) := [] -- 11 R387; commons runs: first page, pages, owner
  deriving DecidableEq, Repr

/-! ## Data movement, storage, recording (12_data_movement_and_recording.md) -/

/-- A descriptor as read by a channel (Table 12-1). -/
structure Desc where
  bits  : Nat := 0  -- 12 Table 12-1; 512
  index : Nat := 0  -- 12 R399; chain index
  deriving DecidableEq, Repr

/-- One DMA channel (Table 12-11, R437). -/
structure Dma where
  on      : Bool := false -- 12 R396; 1; reset disabled
  mode    : Nat  := 0     -- 12 Table 12-11; 2; reset 0
  region  : Nat  := 0xFFFF -- 12 R437; 16; chain region or write-back ring
  session : Nat  := 0     -- 12 R402; 4; owner whose regions are checked
  shadow  : Option Desc := none -- 12 R397; reset not VALID
  active  : Option Desc := none -- 12 R397; none at reset
  moved   : Nat  := 0     -- 12 Table 12-11 BYTES; 48; reset 0
  reqPend : Bool := false -- 12 R407; 1; pending bit of the line
  dones   : Nat  := 0     -- 12 Table 12-11; 32; reset 0
  bads    : Nat  := 0     -- 12 Table 12-11; 32; reset 0, saturating
  crc     : Word := 0xFFFFFFFF -- 12 R404; 32; loaded with 0xFFFF_FFFF at enable
  lastCrc : Word := 0     -- 12 Table 12-11; 32; reset 0
  reqMerge : Nat := 0     -- 12 Table 12-11; 32; reset 0, saturating
  -- streaming
  p       : Nat  := 0     -- 12 Table 12-12; 256; the STREAM_SET block
  hwpos   : Nat  := 0     -- 12 R412; 64; zeroed at enable
  hrpos   : Nat  := 0     -- 12 R412; 64; zeroed at enable
  updCnt  : Nat  := 0     -- 12 R412; 32; position block update count
  poisonSkip : Nat := 0   -- 12 Table 12-11; 32; reset 0, saturating
  sigAt   : Tick := 0     -- 12 R412; 64; earliest next signal
  grains  : List (Nat × Nat × List Nat) := [] -- 12 R411; grains of the open record: index, flags, bytes
  gapPend : Bool := false -- 12 R411; 1
  first   : Nat := 0      -- 12 R441; first grain index taken
  perNo   : Nat := 0      -- 12 R414; period in progress
  perN    : Nat := 0      -- 12 R414; bytes moved in it
  wbPend  : Option Nat := none -- 12 R399 R400; 512; an ended descriptor that waits to be written back: no room in the ring, or a panic
  wbIdx   : Nat := 0      -- 12 R399; 32; its chain index
  shAt    : Tick := 0     -- 12 R398; tick at which the shadow became VALID
  loadNext : Option Nat := none -- 12 R399; 32; chain index that the engine is to load into the shadow
  doneAt  : Tick := 0     -- 12 R414; 64; end of the latest record copied
  deriving DecidableEq, Repr

/-- One timer line (R408, R439). -/
structure TmLine where
  on     : Bool := false -- 12 R396; 1; stopped at reset
  period : Nat := 0      -- 12 R439; 32
  start  : Tick := 0     -- 12 R439; 64
  last   : Option Tick := none -- 12 R408; tick of the latest pulse
  deriving DecidableEq, Repr

/-- One storage link and the drive on it (Table 12-13, R416-R419). -/
structure Link where
  rate   : Nat := 0      -- 12 Table 12-13; 3; reset 0 down
  width  : Nat := 0      -- 12 Table 12-13; 5; reset 0
  flit   : Bool := false -- 12 Table 12-13; 1; reset 0
  drive  : Nat := 0      -- 12 Table 12-13; 3; drive number in the volume
  member : Bool := false -- 12 Table 12-13; 1; reset 0
  ok     : Bool := false -- 12 Table 12-13 DRIVEOK; 1; reset 0
  meas   : Nat := 0      -- 12 Table 12-13 RATES; 32; reset 0
  stripes : Nat := 0     -- 12 R418; whole stripes of the namespace
  suitable : Bool := true -- 12 R418; 1; the namespace meets R418
  lba    : Nat := 4096   -- 12 R418; LBA size
  serial : Nat := 0      -- 12 Table 12-6 DSERIAL; 160
  vwc    : Bool := false -- 12 Table 12-5 VWC; 1; the drive has a write cache: Flush is issued
  label  : List Nat := [] -- 12 R422; the label written to the drive, or the valid one read from it, 512 bytes, none = []
  deriving DecidableEq, Repr

/-- A chunk being assembled or assembled (Table 12-9). -/
structure Chunk where
  kind   : Nat := 0 -- 12 Table 12-9; 8
  source : Nat := 0 -- 12 Table 12-9; 4
  flags  : Nat := 0 -- 12 Table 12-9; 6
  first  : Nat := 0 -- 12 Table 12-9; 48
  last   : Nat := 0 -- 12 Table 12-9; 48
  count  : Nat := 0 -- 12 Table 12-9; 32
  data   : List Nat := [] -- 12 R426; the payload bytes so far
  deriving DecidableEq, Repr

/-- A stripe closed and handed to its drive, not yet durable (R435). -/
structure Stripe where
  seq    : Nat := 0 -- 12 Table 12-8; 32
  fill   : Nat := 0 -- 12 Table 12-8; 32
  chunks : Nat := 0 -- 12 Table 12-8; 16
  done   : Bool := false -- 12 R435; 1; the drive completed it
  check  : Bool := false -- 12 R435; 1; closed by a checkpoint: a Flush follows once every stripe up to it has completed
  flush  : Bool := false -- 12 R435; 1; completed before the Flush in progress was issued
  deriving DecidableEq, Repr

/-- A directory entry (Table 12-7). -/
structure DirEnt where
  gen    : Nat := 0 -- 12 Table 12-7; 32; 0 = empty
  st     : Nat := 0 -- 12 Table 12-7; 4
  end_   : Nat := 0 -- 12 Table 12-7; 4
  nsrc   : Nat := 0 -- 12 Table 12-7; 8
  first  : Nat := 0 -- 12 Table 12-7; 64
  last   : Nat := 0 -- 12 Table 12-7; 64
  openT  : Stamp := 0 -- 12 Table 12-7; 80
  closeT : Stamp := 0 -- 12 Table 12-7; 80
  openUtc : Nat := 0 -- 12 Table 12-7; 64
  utcValid : Bool := false -- 12 Table 12-7; 1
  calCount : Nat := 0 -- 12 Table 12-7; 32
  badStripes : Nat := 0 -- 12 Table 12-7; 32
  bytes  : Nat := 0 -- 12 Table 12-7; 64
  gapGrains : Nat := 0 -- 12 Table 12-7; 32
  recSkip : Nat := 0 -- 12 Table 12-7; 32
  sources : List Nat := [] -- 12 Table 12-7; 64 each
  digest : Nat := 0 -- 12 R428; 384; DIGEST
  sig    : Nat := 0 -- 12 R428; 768; SIGNATURE
  keyId  : Nat := 0 -- 12 Table 12-7; 128; KEYID
  deriving DecidableEq, Repr

/-- Data movement and recording. -/
structure Move where
  chans    : Tab Dma := []    -- 12 R396; DM0-DM31
  timers   : Tab TmLine := [] -- 12 R396; TM0-TM15
  sw       : Tab Bool := []   -- 12 R396; SW0-SW15, low at reset
  portOn   : Bool := false    -- 12 R396; 1; SP_PERST asserted, reference clocks off at reset
  bifur    : Nat := 0         -- 12 Table 12-13; 2; reset 0
  maxRate  : Nat := 0         -- 12 R442; 3
  links    : Tab Link := []   -- 12 Table 12-13; links 0-3
  mounted  : Bool := false    -- 12 Table 12-13; 1; reset 0
  volId    : Nat := 0         -- 12 Table 12-6; 64
  drives   : Nat := 0         -- 12 Table 12-6 D; 3
  vstripes : Nat := 0         -- 12 Table 12-13; 64; reset 0
  next     : Nat := 0         -- 12 Table 12-13; 64; reset 0
  admitRate    : Nat := 0         -- 12 Table 12-13 ADMIT; 32; reset 0
  admitV   : Nat := 0         -- 12 R431; V in thirteenths of a byte a second, exact
  dir      : Tab DirEnt := [] -- 12 R423; directory of the volume reached, entries 0-4,095
  entry    : Nat := 0xFFFF    -- 12 Table 12-13; 16; reset 0xFFFF
  recOwner : Nat := 0         -- 12 R436; 4; session of the open recording
  recLoad  : Nat := 0         -- 12 Table 12-13 LOAD; 32; reset 0
  recBuf   : Nat := 0xFFFF    -- 12 R444 BUFFER; 16
  checkpoint : Nat := 0       -- 12 R444; 32; ms
  recSrc   : List Nat := []   -- 12 R444; 64 each; the source entries
  recNext  : Tab Nat := []    -- 12 R427; per source: next grain index expected
  open_    : List Chunk := [] -- 12 R426; chunks open, one per source at most
  seqNo    : Nat := 0         -- 12 Table 12-8 SEQ; 32; stripe in assembly
  fill     : Nat := 0         -- 12 Table 12-8 FILL; bytes of chunks in the stripe in assembly
  chunksN  : Nat := 0         -- 12 Table 12-8; 16
  stripes  : List Stripe := [] -- 12 R435; stripes closed
  ending   : Nat := 0xFF      -- 12 R436; END of a recording that is ending, 0xFF = none
  gapGrains : Nat := 0        -- 12 Table 12-13; 32; reset 0, saturating
  job      : Nat := 0         -- 12 R429 to R436; storage operation in progress, 0 = none: 1 format, 2 labels, 3 measurement, 4 directory, 5 stripe headers, 6 repaired entry, 7 unmount, 8 entry of REC_OPEN, 9 last stripes, 10 last Flush, 11 sealed entry
  jobAt    : Nat := 0         -- 12 R423; commands completed of the writing of an entry
  flushOf  : List Nat := []   -- 12 R435; links whose drive has a Flush to complete
  recBad   : List Nat := []   -- 12 R434; SEQs of the stripes sent with zeros for a poisoned line
  cpAt     : Tick := 0        -- 12 R435; next checkpoint of the open recording
  repEntry : Nat := 0xFFFF    -- 12 R432; 16; entry under repair at mount, 0xFFFF = none
  repaired : Bool := false   -- 12 R443; 1; an entry was repaired at mount
  flushing : Bool := false   -- 12 R435; 1; a Flush of every drive is in progress
  scrc     : Nat := 0xFFFFFFFF -- 12 R434; 32; running CRC of the chunks of the stripe in assembly
  topen    : Stamp := 0       -- 12 Table 12-8; 80; first chunk of the stripe in assembly begun
  hdrs     : List Nat := []   -- 12 R428; the 256-byte headers of the stripes so far
  recEp    : Tab Bool := []   -- 12 R427; per source: its EPOCH chunk has been written
  recClose : Option (Tick × Nat) := none -- 12 R436; tick and END of a close that waits for the data before it
  recLim   : Tab Nat := []    -- 12 R436; per ring source: WPOS at that tick
  recFin   : Tab Bool := []   -- 12 R436; per source: everything before that tick has been taken
  deriving DecidableEq, Repr

/-! ## Aux inputs and control outputs (14_aux_inputs_and_control_outputs.md) -/

/-- One aux input (R480, R486). -/
structure AuxIn where
  range   : Bool := false -- 14 Table 14-7; 1; reset 0
  limen   : Bool := false -- 14 R493; 1; reset not given: DESIGN CHOICE 0 (log 3)
  lo      : Nat := 0      -- 14 R493; 16
  hi      : Nat := 0      -- 14 R493; 16
  fresh   : Bool := false -- 14 R486; 1; no conversion since the limits were set
  outside : Bool := false -- 14 Table 14-7; 1; reset 0
  last    : Nat := 0      -- 14 Table 14-7; 16; reset 0
  postAt  : Nat := 0      -- 14 R486; period + 1 of the last AUX_LIMIT
  postedOut : Bool := false -- 14 R486; 1; the state last posted
  deriving DecidableEq, Repr

/-- Aux converter, sequencer and AUX_DATA. -/
structure Aux where
  source   : Nat := 0      -- 14 Table 14-7; 2; reset 0
  refok    : Bool := false -- 14 Table 14-7; 1; reset 0
  run      : Bool := false -- 14 Table 14-7; 1; reset 0
  halted   : Bool := false -- 14 R484; 1; stopped by a loss of YP0, to resume
  cont     : Bool := false -- 14 Table 14-7 MODE; 1; reset 0
  entries  : List (Nat × Nat × Nat) := [] -- 14 Table 14-6; input, pull, settle
  period   : Nat := 0      -- 14 Table 14-6; 32; us
  start    : Tick := 0     -- 14 Table 14-6; 64
  passAt   : Tick := 0     -- 14 R482; 64; start of the pass in progress
  slot     : Nat := 0      -- 14 R482; slot of the pass in progress
  inPass   : Bool := false -- 14 R482; 1
  stopReq  : Bool := false -- 14 R484; 1; stop at the end of the conversion in progress
  passes   : Nat := 0      -- 14 Table 14-7; 32; reset 0
  passTime : Stamp := 0    -- 14 Table 14-7; 80; reset 0
  ovrCount : Nat := 0      -- 14 Table 14-7; 32; reset 0, saturating
  ovrPer   : PerCount := {} -- 14 R499; results replaced in a 1 ms period
  repl     : Option (Bool × List (Nat × Nat × Nat) × Nat × Tick) := none -- 14 R494; sequence that replaces the stopping one: MODE, entries, PERIOD, START
  seq      : Nat := 0      -- 14 Table 14-3; 6; reset 0
  data     : Word := 0     -- 14 Table 14-3; 32; reset 0
  prev     : Option (Tick × Word × Nat × PerCount) := none -- 14 R485; tick of the latest result, and DATA, OVRCOUNT and AUX_OVR's count before it
  refIn    : Option Tick := none -- 14 R481; since when the selected reference has been inside its window
  pull     : Nat := 0      -- 14 R484; 2; pull switched on, off at reset
  ins      : Tab AuxIn := [] -- 14 R480; AUX_IN0-15
  deriving DecidableEq, Repr

/-- One control output (Table 14-4, Table 14-9). -/
structure Ctl where
  code     : Nat := 0      -- 14 Table 14-9; 12; reset 0
  last     : Nat := 0      -- 14 Table 14-4; 12; reset 0; code last accepted
  on       : Bool := false -- 14 Table 14-9; 1; reset 0
  range    : Bool := false -- 14 Table 14-9; 1; reset 0
  direct   : Bool := false -- 14 Table 14-9; 1; reset 0
  fsafe    : Bool := false -- 14 Table 14-9; 1; reset 0
  safe     : Nat := 0      -- 14 Table 14-9; 12; reset 0
  out      : Nat := 0      -- 14 R489; 12; code the string outputs
  hold     : Bool := false -- 14 Table 14-9; 1; reset 0; in a deglitch hold
  holdEnd  : Tick := 0     -- 14 R489; 64
  holdAt   : Option Tick := none -- 14 R489; tick at which the latest deglitch hold began
  cmdAt    : Option Tick := none -- 14 R489; tick of the latest code from a command
  newRange : Bool := false -- 14 R490; 1; range being changed to
  rphase   : Nat := 0      -- 14 R490; 0 none, 1 old range at zero, 2 new range at zero
  overload : Bool := false -- 14 Table 14-9; 1; reset 0
  compl    : Bool := false -- 14 Table 14-9; 1; reset 0
  timed    : Option (Tick × Nat) := none -- 14 R497; pending timed code
  frozen   : Option Nat := none -- 14 R492; code accepted while YP0 is unlocked
  deriving DecidableEq, Repr

/-! ## Integrity, faults, security, counters (15_integrity_faults_and_security.md) -/

/-- A group's first-error record (Table 15-4). -/
structure FaultRec where
  fault    : Nat := 0      -- 15 Table 15-4; 16; reset 0
  severity : Nat := 0      -- 15 Table 15-4; 2; reset 0
  conseq   : Bool := false -- 15 Table 15-4; 1; reset 0
  forced   : Bool := false -- 15 Table 15-4; 1; reset 0
  valid    : Bool := false -- 15 Table 15-4; 1; reset 0
  origin   : Nat := 0xFFFF -- 15 Table 15-4; 16; reset 0xFFFF
  island   : Nat := 0xFF   -- 15 Table 15-4; 8; reset 0xFF
  master   : Nat := 0      -- 15 Table 15-4; 8; reset 0
  inst_    : Nat := 0      -- 15 Table 15-4 INSTANCE; 8; reset 0
  access   : Nat := 0      -- 15 Table 15-4; 4; reset 0
  address  : Nat := 0      -- 15 Table 15-4; 64; reset 0
  time     : Tick := 0     -- 15 Table 15-4; 80; reset 0
  raises   : Nat := 0      -- 15 Table 15-4; 32; reset 0, saturating
  last     : Nat := 0      -- 15 Table 15-4; 16; reset 0
  lastTime : Tick := 0     -- 15 Table 15-4; 80; reset 0
  deriving DecidableEq, Repr

/-- A suppression window (R505). -/
structure Win where
  origin : Nat := 0   -- 15 R505; 16; origin fault id
  opened : Tick := 0  -- 15 R505; 64
  deps   : List Nat := [] -- 15 Table 15-5; dependant groups
  ids    : List Nat := [] -- 15 Table 15-5; dependant single sources
  ended  : Option Tick := none -- 15 R505; tick of the end stated in Table 15-5
  deriving DecidableEq, Repr

/-- One raise of the log (R519). -/
structure Raise where
  at_    : Tick := 0     -- 15 R519; 64; tick of the raise
  id     : Nat := 0      -- 15 R519; 16; fault id
  sev    : Nat := 0      -- 15 R519; 2; severity applied
  conseq : Bool := false -- 15 R519; 1; consequential
  old    : Nat := 0      -- 15 R505; 2; severity the sticky bit held before
  deriving DecidableEq, Repr

/-- Faults: severities, sticky bits, records, windows, counts. -/
structure Flt where
  sev     : List (Nat × Nat × Tick) := [] -- 15 R501 R522; severities configured: fault id, severity, tick of the command, newest first
  sticky  : Tab Nat := []  -- 15 Table 15-14; severity applied of a sticky source, 0 = clear
  conseq  : Tab Bool := [] -- 15 Table 15-14; 1; reset 0
  held    : Tab Bool := [] -- 15 Table 15-1; 1; the containment action of a lasting condition is in force
  cpDead  : Bool := false  -- 15 R503; 1; the control processor itself has stopped (0x0000, 0x0001)
  active  : Tab Bool := [] -- 15 R503; 1; the detector's condition holds at present
  recs    : Tab FaultRec := [] -- 15 R504; groups 0-47
  wins    : List Win := [] -- 15 R505; open windows, none at reset
  ncorr   : Nat := 0       -- 15 Table 15-14; 32; reset 0, saturating
  ncont   : Nat := 0       -- 15 Table 15-14; 32; reset 0, saturating
  nfatal  : Nat := 0       -- 15 Table 15-14; 32; reset 0, saturating
  nconseq : Nat := 0       -- 15 Table 15-14; 32; reset 0, saturating
  log     : List Raise := [] -- 15 R519; latest 16,384 raises, newest first
  logLost : Option Tick := none -- 15 R519; tick of the latest raise lost from the log
  forcedDue : List (Nat × Tick) := [] -- 15 R509; forced sources to raise: id, tick of the command
  signBad : Bool := false  -- 15 Table 15-1 0x12; 1; every signing command completes with FAULTED
  once    : Tab Nat := [] -- 15 Table 15-1 0x0A; one-shot marks: 1 = the next spectrum or record computed by the source's unit carries SUSPECT, for a DDC its grain + 1
  deriving DecidableEq, Repr

/-- The protected store and identity (R512-R517). -/
structure Sec where
  life      : Nat := 2     -- 13 Table 13-2 LIFECYCLE; 3; persistent, DESIGN CHOICE 2 STAND (log 3)
  secver    : Nat := 0     -- 13 Table 13-2 SECVER; 32; persistent, DESIGN CHOICE 0 (log 3)
  owner     : Option Nat := none -- 15 Table 15-8 item 4; 384; DESIGN CHOICE none (log 3)
  fwKeys    : List (Nat × Bool × Bool) := [] -- 15 Table 15-8 item 2; digest, DEV, REVOKED; DESIGN CHOICE none (log 3)
  storeOk   : Nat := 0xFFFF -- 15 Table 15-16; 16; DESIGN CHOICE all passed (log 3)
  wear      : Nat := 0xFFFFFFFF -- 15 Table 15-16; 32; DESIGN CHOICE (log 3)
  chalNo    : Nat := 0     -- 15 R524; how many times CHALLENGE was renewed: the challenge is Config.challenge of it
  fwver     : Nat := 0     -- 13 Table 13-2 FWVER; 24; DESIGN CHOICE 0 (log 3)
  slotVer   : Tab Nat := [] -- 15 Table 15-8 items 10, 11; version of each firmware slot
  slotSec   : Tab Nat := [] -- 15 Table 15-8 items 10, 11; SECVER of each slot
  sigNo     : Nat := 0     -- 15 R306 R517; signatures made with the identity key so far
  deriving DecidableEq, Repr

/-- One performance counter (Table 15-17, R511). -/
structure Perf where
  conf    : Bool := false -- 15 R528; 1; configured; reset 0 (R538)
  source  : Nat := 0      -- 15 Table 15-17; 8; reset 0
  inst_   : Nat := 0      -- 15 Table 15-17; 16; reset 0
  maxMode : Bool := false -- 15 Table 15-17; 1; reset 0
  run     : Bool := false -- 15 R528; 1; reset 0
  value   : Nat := 0      -- 15 R511; 48; reset 0
  sat     : Bool := false -- 15 R511; 1; reset 0
  deriving DecidableEq, Repr

/-! ## Power, reset, thermal (16_power_reset_and_startup.md) -/

/-- Supply, reset lines, start-up, thermal stages. -/
structure Pwr where
  powered  : Bool := true  -- 16 R533; 1; rails up (a device reset leaves them up)
  step     : Nat  := 4     -- 16 R533 R536; start-up step reached: 4 while start-up runs, 5 where it stopped with no valid slot, 9 once complete
  rstLow   : Bool := false -- 16 R537; 1; RST_N holds the engine in reset
  pgood    : Bool := true  -- 16 Table 16-5; 1; released at step 3
  alertLow : Bool := true  -- 16 Table 16-5; 1; ALERT_N low until step 9
  stage    : Nat  := 0     -- 16 R540; thermal stage 0-3
  tripped  : Bool := false -- 16 R541; 1; thermal trip latched
  tj       : Int  := 250   -- 16 R540; 0.1 °C; junction temperature last read, DESIGN CHOICE 25 °C (log 3)
  perst    : Bool := false -- 16 R535; 1; HP_PERST deasserted
  deriving DecidableEq, Repr

/-! ## The whole state -/

/-- The state of the engine, with the queue of the commands that are waiting. -/
structure State where
  pending : List Instr := [] -- model's own; commands waiting, first in, first out; empty at reset
  now     : Tick := 0        -- 07 R245; 64; the Canopy count; zero at the first node edge after YP0 locks
  freeNo  : Nat  := 0        -- model's own; how many free values have been drawn; DESIGN CHOICE 0 (log 2)
  host    : HostIf := {}       -- 13
  fe      : FrontEnd := {}   -- 02
  clk     : Clk := {}        -- 07
  cal     : Cal := {}        -- 09
  spec    : Spectral := {}   -- 03
  acq     : AcqEng := {}     -- 04
  disp    : Disp := {}       -- 05
  mon     : Mon := {}        -- 06
  tiu     : Tiu := {}        -- 08
  grove   : Grove := {}      -- 10
  mem     : MemSys := {}     -- 11
  move    : Move := {}       -- 12
  aux     : Aux := {}        -- 14
  ctl     : Tab Ctl := []    -- 14 R487; CTL_OUT0-7
  flt     : Flt := {}        -- 15
  sec     : Sec := {}        -- 15
  perf    : Tab Perf := []   -- 15 R511; counters 0-63
  pwr     : Pwr := {}        -- 16
  deriving DecidableEq, Repr

/-- The machine right after reset: every field at its reset value (16 R538; the queue is empty). -/
def State.reset : State := {}

/-- The reasons for which a step stops with a fault. No step of this model does: everything the spec calls a
fault is a fault source, an effect on the state (15_integrity_faults_and_security.md). -/
inductive Fault where
  /-- Reserved: raised by no step of the model (safe). -/
  | none_
  deriving DecidableEq, Repr

/-- The reasons for which a step is refused. -/
inductive Refusal where
  /-- The command has no meaning yet (safe). -/
  | notModelled (mnemonic : String)
  deriving DecidableEq, Repr

end Sys2Proof.Machine
end

