-- ==== Sys2Proof/Machine/Tab.lean ====
section
/-! DEFINITION. Sparse tables and byte memory in their one canonical form, bit fields, rounding, and the binary32
format (R3, R6). -/

namespace Sys2Proof.Machine

/-! ## Tables -/

/-- The entry of key `i`, or the default `d` where the table lists none. -/
def tget {α : Type} (d : α) : Tab α → Nat → α
  | [], _ => d
  | (j, w) :: r, i => if j = i then w else tget d r i

/-- Put an entry into a table in key order, replacing the entry of the same key. -/
def tins {α : Type} : Tab α → Nat → α → Tab α
  | [], i, v => [(i, v)]
  | (j, w) :: r, i, v =>
    if j < i then (j, w) :: tins r i v
    else if j = i then (i, v) :: r
    else (i, v) :: (j, w) :: r

/-- Take the entry of key `i` out of a table. -/
def tdel {α : Type} : Tab α → Nat → Tab α
  | [], _ => []
  | (j, w) :: r, i => if j = i then tdel r i else (j, w) :: tdel r i

/-- Write `v` at key `i`: writing the default takes the entry out, so that equal tables are equal data. -/
def tput {α : Type} [DecidableEq α] (d : α) (t : Tab α) (i : Nat) (v : α) : Tab α :=
  if v = d then tdel t i else tins t i v

/-- Every key of the table is at least `b`, keys rise strictly, and no entry holds the default. -/
def tabWfFrom {α : Type} [DecidableEq α] (d : α) : Nat → Tab α → Bool
  | _, [] => true
  | b, (j, w) :: r => decide (b ≤ j) && decide (w ≠ d) && tabWfFrom d (j + 1) r

/-- The canonical form of a table. -/
def tabWf {α : Type} [DecidableEq α] (d : α) (t : Tab α) : Bool := tabWfFrom d 0 t

/-! ## Byte memory -/

/-- The canonical form of a byte memory: addresses rise strictly and no listed byte is 0. -/
def Memory.wf (m : Mem) : Bool := tabWf 0 m

/-- One byte of a memory; a byte that is not listed reads 0. -/
def rdByte (m : Mem) (a : Nat) : Byte := tget 0 m a

/-- Write one byte. -/
def wrByte (m : Mem) (a : Nat) (b : Byte) : Mem := tput 0 m a b

/-- Read `n` bytes from address `a` upwards. -/
def rdBytes (m : Mem) (a : Nat) : Nat → List Byte
  | 0 => []
  | n + 1 => rdByte m a :: rdBytes m (a + 1) n

/-- Write bytes from address `a` upwards. -/
def wrBytes (m : Mem) (a : Nat) : List Byte → Mem
  | [] => m
  | b :: r => wrBytes (wrByte m a b) (a + 1) r

/-- Zero `n` bytes from address `a` upwards: the listed bytes of the range are taken out. -/
def zeroBytes (m : Mem) (a n : Nat) : Mem := m.filter (fun e => decide (e.1 < a) || decide (a + n ≤ e.1))

/-- Bytes as one little-endian number (R3). -/
def ofBytes : List Byte → Nat
  | [] => 0
  | b :: r => b.toNat + 256 * ofBytes r

/-- A number as `n` little-endian bytes (R3). -/
def toBytes (v : Nat) : Nat → List Byte
  | 0 => []
  | n + 1 => BitVec.ofNat 8 v :: toBytes (v / 256) n

/-! ## Bit fields -/

/-- Bits [lo + w - 1 : lo] of a number. -/
def fld (v lo w : Nat) : Nat := (v / 2^lo) % 2^w

/-- Those bits as a two's-complement value. -/
def sfld (v lo w : Nat) : Int :=
  if fld v lo w < 2^(w - 1) then (fld v lo w : Int) else (fld v lo w : Int) - 2^w

/-- One bit of a number. -/
def bit (v i : Nat) : Bool := fld v i 1 = 1

/-- A Boolean as a bit. -/
def b2n (b : Bool) : Nat := if b then 1 else 0

/-- An integer as `w` bits of two's complement. -/
def enc (w : Nat) (x : Int) : Nat := (x % 2^w).toNat

/-- Fields of the given widths joined, the first in the lowest bits. A value wider than its field is cut to it. -/
def pack : List (Nat × Nat) → Nat
  | [] => 0
  | (w, v) :: r => v % 2^w + 2^w * pack r

/-- A count that stays at the largest value of `w` bits (R13). -/
def satAdd (w v k : Nat) : Nat := min (v + k) (2^w - 1)

/-- One more, saturating at 32 bits. -/
def sat32 (v : Nat) : Nat := satAdd 32 v 1

/-- The bits of a 64-bit mask that are set, ascending. -/
def maskBits (w m : Nat) : List Nat := (List.range w).filter (fun i => bit m i)

/-- An integer limited to [lo, hi]. -/
def clampI (lo hi x : Int) : Int := max lo (min hi x)

/-! ## Rounding (R6) -/

/-- n / d rounded to the nearest integer, a tie to the even one. -/
def roundEven (n : Int) (d : Nat) : Int :=
  if d = 0 then 0 else
  if 2 * (n % d) < d then n / d
  else if 2 * (n % d) > d then n / d + 1
  else if (n / d) % 2 = 0 then n / d else n / d + 1

/-- n / d rounded up. -/
def ceilDiv (n d : Nat) : Nat := (n + d - 1) / d

/-- The integer square root. -/
def isqrt (n : Nat) : Nat := Nat.sqrt n

/-! ## binary32 -/

/-- The exponent e with 2^e ≤ x < 2^(e+1) of a positive rational number. -/
def ilog2 (x : ℚ) : Int :=
  if x.num.toNat * 2^(Nat.log2 x.den) < x.den * 2^(Nat.log2 x.num.toNat)
  then (Nat.log2 x.num.toNat : Int) - Nat.log2 x.den - 1
  else (Nat.log2 x.num.toNat : Int) - Nat.log2 x.den

/-- 2^e as a rational number. -/
def pow2 (e : Int) : ℚ := if 0 ≤ e then (2 : ℚ)^e.toNat else 1 / (2 : ℚ)^(-e).toNat

/-- The binary32 pattern nearest to a rational number, a tie to even; past the largest number, infinity. -/
def toF32 (x : ℚ) : Nat :=
  if x = 0 then 0 else
  let sgn := if x < 0 then 2^31 else 0
  let y := |x|
  let e := max (ilog2 y) (-126)
  let z := y / pow2 (e - 23)
  let m := (roundEven z.num z.den).toNat
  sgn + min ((e + 126).toNat * 2^23 + m) (255 * 2^23)

/-- The value of a finite binary32 pattern. -/
def ofF32 (b : Nat) : ℚ :=
  let e := fld b 23 8
  let m := fld b 0 23
  let v : ℚ := if e = 0 then (m : ℚ) * pow2 (-149) else ((m + 2^23 : Nat) : ℚ) * pow2 ((e : Int) - 150)
  if bit b 31 then -v else v

end Sys2Proof.Machine
end

