-- ==== Sys2Proof/Machine/Access.lean ====
section
/-! DEFINITION. Reading and writing one unit of a table of the state: for each table `s.x n` reads entry n, `s.setX n v`
writes it, `s.modX n f` changes it. An entry never written holds the reset value of its fields. -/

namespace Sys2Proof.Machine

/-- Read session page n (Table 13-3). -/
def State.ses (s : State) (n : Nat) : Session := tget {} s.host.sessions n
/-- Write session page n (Table 13-3). -/
def State.setSes (s : State) (n : Nat) (v : Session) : State :=
  { s with host := { s.host with sessions := tput {} s.host.sessions n v } }
/-- Change session page n (Table 13-3). -/
def State.modSes (s : State) (n : Nat) (g : Session → Session) : State := s.setSes n (g (s.ses n))

/-- Read completion ring n (R460). -/
def State.cplR (s : State) (n : Nat) : CplRing := tget {} s.host.cpls n
/-- Write completion ring n (R460). -/
def State.setCplR (s : State) (n : Nat) (v : CplRing) : State :=
  { s with host := { s.host with cpls := tput {} s.host.cpls n v } }
/-- Change completion ring n (R460). -/
def State.modCplR (s : State) (n : Nat) (g : CplRing → CplRing) : State := s.setCplR n (g (s.cplR n))

/-- Read MSI-X entry n (R448). -/
def State.msixE (s : State) (n : Nat) : MsixEntry := tget {} s.host.msix n
/-- Write MSI-X entry n (R448). -/
def State.setMsixE (s : State) (n : Nat) (v : MsixEntry) : State :=
  { s with host := { s.host with msix := tput {} s.host.msix n v } }
/-- Change MSI-X entry n (R448). -/
def State.modMsixE (s : State) (n : Nat) (g : MsixEntry → MsixEntry) : State := s.setMsixE n (g (s.msixE n))

/-- Read owner + 1 of a unit (R458). -/
def State.ownerOf (s : State) (n : Nat) : Nat := tget 0 s.host.owners n
/-- Write owner + 1 of a unit (R458). -/
def State.setOwnerOf (s : State) (n : Nat) (v : Nat) : State :=
  { s with host := { s.host with owners := tput 0 s.host.owners n v } }
/-- Change owner + 1 of a unit (R458). -/
def State.modOwnerOf (s : State) (n : Nat) (g : Nat → Nat) : State := s.setOwnerOf n (g (s.ownerOf n))

/-- Read RF input n. -/
def State.inp (s : State) (n : Nat) : RfInput := tget {} s.fe.inputs n
/-- Write RF input n. -/
def State.setInp (s : State) (n : Nat) (v : RfInput) : State :=
  { s with fe := { s.fe with inputs := tput {} s.fe.inputs n v } }
/-- Change RF input n. -/
def State.modInp (s : State) (n : Nat) (g : RfInput → RfInput) : State := s.setInp n (g (s.inp n))

/-- Read sample stream n (R50). -/
def State.str (s : State) (n : Nat) : Stream := tget {} s.fe.streams n
/-- Write sample stream n (R50). -/
def State.setStr (s : State) (n : Nat) (v : Stream) : State :=
  { s with fe := { s.fe with streams := tput {} s.fe.streams n v } }
/-- Change sample stream n (R50). -/
def State.modStr (s : State) (n : Nat) (g : Stream → Stream) : State := s.setStr n (g (s.str n))

/-- Read synthesiser n (R238). -/
def State.pll (s : State) (n : Nat) : Pll := tget {} s.clk.plls n
/-- Write synthesiser n (R238). -/
def State.setPll (s : State) (n : Nat) (v : Pll) : State :=
  { s with clk := { s.clk with plls := tput {} s.clk.plls n v } }
/-- Change synthesiser n (R238). -/
def State.modPll (s : State) (n : Nat) (g : Pll → Pll) : State := s.setPll n (g (s.pll n))

/-- Read calibration target n. -/
def State.calT (s : State) (n : Nat) : CalTarget := tget {} s.cal.targets n
/-- Write calibration target n. -/
def State.setCalT (s : State) (n : Nat) (v : CalTarget) : State :=
  { s with cal := { s.cal with targets := tput {} s.cal.targets n v } }
/-- Change calibration target n. -/
def State.modCalT (s : State) (n : Nat) (g : CalTarget → CalTarget) : State := s.setCalT n (g (s.calT n))

/-- Read step in progress on target n (R300). -/
def State.calStep (s : State) (n : Nat) : (Option CalStep) := tget none s.cal.steps n
/-- Write step in progress on target n (R300). -/
def State.setCalStep (s : State) (n : Nat) (v : (Option CalStep)) : State :=
  { s with cal := { s.cal with steps := tput none s.cal.steps n v } }
/-- Change step in progress on target n (R300). -/
def State.modCalStep (s : State) (n : Nat) (g : (Option CalStep) → (Option CalStep)) : State := s.setCalStep n (g (s.calStep n))

/-- Read blind schedule of target n (R311). -/
def State.calBlind (s : State) (n : Nat) : Blind := tget {} s.cal.blind n
/-- Write blind schedule of target n (R311). -/
def State.setCalBlind (s : State) (n : Nat) (v : Blind) : State :=
  { s with cal := { s.cal with blind := tput {} s.cal.blind n v } }
/-- Change blind schedule of target n (R311). -/
def State.modCalBlind (s : State) (n : Nat) (g : Blind → Blind) : State := s.setCalBlind n (g (s.calBlind n))

/-- Read lane of lane code n (R65). -/
def State.lane (s : State) (n : Nat) : Lane := tget {} s.spec.lanes n
/-- Write lane of lane code n (R65). -/
def State.setLane (s : State) (n : Nat) (v : Lane) : State :=
  { s with spec := { s.spec with lanes := tput {} s.spec.lanes n v } }
/-- Change lane of lane code n (R65). -/
def State.modLane (s : State) (n : Nat) (g : Lane → Lane) : State := s.setLane n (g (s.lane n))

/-- Read trace unit n (R65). -/
def State.trace (s : State) (n : Nat) : Trace := tget {} s.spec.traces n
/-- Write trace unit n (R65). -/
def State.setTrace (s : State) (n : Nat) (v : Trace) : State :=
  { s with spec := { s.spec with traces := tput {} s.spec.traces n v } }
/-- Change trace unit n (R65). -/
def State.modTrace (s : State) (n : Nat) (g : Trace → Trace) : State := s.setTrace n (g (s.trace n))

/-- Read spectrum output of lane code n (R98). -/
def State.sout (s : State) (n : Nat) : SpecOut := tget {} s.spec.outs n
/-- Write spectrum output of lane code n (R98). -/
def State.setSout (s : State) (n : Nat) (v : SpecOut) : State :=
  { s with spec := { s.spec with outs := tput {} s.spec.outs n v } }
/-- Change spectrum output of lane code n (R98). -/
def State.modSout (s : State) (n : Nat) (g : SpecOut → SpecOut) : State := s.setSout n (g (s.sout n))

/-- Read down-converter n (R66). -/
def State.ddc (s : State) (n : Nat) : Ddc := tget {} s.spec.ddcs n
/-- Write down-converter n (R66). -/
def State.setDdc (s : State) (n : Nat) (v : Ddc) : State :=
  { s with spec := { s.spec with ddcs := tput {} s.spec.ddcs n v } }
/-- Change down-converter n (R66). -/
def State.modDdc (s : State) (n : Nat) (g : Ddc → Ddc) : State := s.setDdc n (g (s.ddc n))

/-- Read acquisition unit n (R116). -/
def State.au (s : State) (n : Nat) : Acq := tget {} s.acq.units n
/-- Write acquisition unit n (R116). -/
def State.setAu (s : State) (n : Nat) (v : Acq) : State :=
  { s with acq := { s.acq with units := tput {} s.acq.units n v } }
/-- Change acquisition unit n (R116). -/
def State.modAu (s : State) (n : Nat) (g : Acq → Acq) : State := s.setAu n (g (s.au n))

/-- Read term slot t of unit a at 8a + t (R152). -/
def State.term (s : State) (n : Nat) : Term := tget {} s.acq.terms n
/-- Write term slot t of unit a at 8a + t (R152). -/
def State.setTerm (s : State) (n : Nat) (v : Term) : State :=
  { s with acq := { s.acq with terms := tput {} s.acq.terms n v } }
/-- Change term slot t of unit a at 8a + t (R152). -/
def State.modTerm (s : State) (n : Nat) (g : Term → Term) : State := s.setTerm n (g (s.term n))

/-- Read mask test k of unit a at 2a + k (R145). -/
def State.tst (s : State) (n : Nat) : Test := tget {} s.acq.tests n
/-- Write mask test k of unit a at 2a + k (R145). -/
def State.setTst (s : State) (n : Nat) (v : Test) : State :=
  { s with acq := { s.acq with tests := tput {} s.acq.tests n v } }
/-- Change mask test k of unit a at 2a + k (R145). -/
def State.modTst (s : State) (n : Nat) (g : Test → Test) : State := s.setTst n (g (s.tst n))

/-- Read mask slot s of lane c at 4c + s (R126). -/
def State.maskS (s : State) (n : Nat) : MaskSlot := tget {} s.acq.masks n
/-- Write mask slot s of lane c at 4c + s (R126). -/
def State.setMaskS (s : State) (n : Nat) (v : MaskSlot) : State :=
  { s with acq := { s.acq with masks := tput {} s.acq.masks n v } }
/-- Change mask slot s of lane c at 4c + s (R126). -/
def State.modMaskS (s : State) (n : Nat) (g : MaskSlot → MaskSlot) : State := s.setMaskS n (g (s.maskS n))

/-- Read breakpoint n of the mask table (R126). -/
def State.bp (s : State) (n : Nat) : Bp := tget {} s.acq.table n
/-- Write breakpoint n of the mask table (R126). -/
def State.setBp (s : State) (n : Nat) (v : Bp) : State :=
  { s with acq := { s.acq with table := tput {} s.acq.table n v } }
/-- Change breakpoint n of the mask table (R126). -/
def State.modBp (s : State) (n : Nat) (g : Bp → Bp) : State := s.setBp n (g (s.bp n))

/-- Read EVT_OUT pin n (R147). -/
def State.pin (s : State) (n : Nat) : EvtOut := tget {} s.acq.pins n
/-- Write EVT_OUT pin n (R147). -/
def State.setPin (s : State) (n : Nat) (v : EvtOut) : State :=
  { s with acq := { s.acq with pins := tput {} s.acq.pins n v } }
/-- Change EVT_OUT pin n (R147). -/
def State.modPin (s : State) (n : Nat) (g : EvtOut → EvtOut) : State := s.setPin n (g (s.pin n))

/-- Read density map n (R162). -/
def State.dmap (s : State) (n : Nat) : DensMap := tget {} s.disp.maps n
/-- Write density map n (R162). -/
def State.setDmap (s : State) (n : Nat) (v : DensMap) : State :=
  { s with disp := { s.disp with maps := tput {} s.disp.maps n v } }
/-- Change density map n (R162). -/
def State.modDmap (s : State) (n : Nat) (g : DensMap → DensMap) : State := s.setDmap n (g (s.dmap n))

/-- Read pigment table n (R173). -/
def State.pigm (s : State) (n : Nat) : Pigment := tget {} s.disp.pigments n
/-- Write pigment table n (R173). -/
def State.setPigm (s : State) (n : Nat) (v : Pigment) : State :=
  { s with disp := { s.disp with pigments := tput {} s.disp.pigments n v } }
/-- Change pigment table n (R173). -/
def State.modPigm (s : State) (n : Nat) (g : Pigment → Pigment) : State := s.setPigm n (g (s.pigm n))

/-- Read display port n (R175). -/
def State.port (s : State) (n : Nat) : Port := tget {} s.disp.ports n
/-- Write display port n (R175). -/
def State.setPort (s : State) (n : Nat) (v : Port) : State :=
  { s with disp := { s.disp with ports := tput {} s.disp.ports n v } }
/-- Change display port n (R175). -/
def State.modPort (s : State) (n : Nat) (g : Port → Port) : State := s.setPort n (g (s.port n))

/-- Read monitor context n (R205). -/
def State.ctx (s : State) (n : Nat) : Ctx := tget {} s.mon.ctxs n
/-- Write monitor context n (R205). -/
def State.setCtx (s : State) (n : Nat) (v : Ctx) : State :=
  { s with mon := { s.mon with ctxs := tput {} s.mon.ctxs n v } }
/-- Change monitor context n (R205). -/
def State.modCtx (s : State) (n : Nat) (g : Ctx → Ctx) : State := s.setCtx n (g (s.ctx n))

/-- Read TIU input n (R264). -/
def State.tiuIn (s : State) (n : Nat) : TiuIn := tget {} s.tiu.ins n
/-- Write TIU input n (R264). -/
def State.setTiuIn (s : State) (n : Nat) (v : TiuIn) : State :=
  { s with tiu := { s.tiu with ins := tput {} s.tiu.ins n v } }
/-- Change TIU input n (R264). -/
def State.modTiuIn (s : State) (n : Nat) (g : TiuIn → TiuIn) : State := s.setTiuIn n (g (s.tiuIn n))

/-- Read statistics unit n (R264). -/
def State.tiuSt (s : State) (n : Nat) : TiuStat := tget {} s.tiu.stats n
/-- Write statistics unit n (R264). -/
def State.setTiuSt (s : State) (n : Nat) (v : TiuStat) : State :=
  { s with tiu := { s.tiu with stats := tput {} s.tiu.stats n v } }
/-- Change statistics unit n (R264). -/
def State.modTiuSt (s : State) (n : Nat) (g : TiuStat → TiuStat) : State := s.setTiuSt n (g (s.tiuSt n))

/-- Read Grove core n (R316). -/
def State.core (s : State) (n : Nat) : GCore := tget {} s.grove.cores n
/-- Write Grove core n (R316). -/
def State.setCore (s : State) (n : Nat) (v : GCore) : State :=
  { s with grove := { s.grove with cores := tput {} s.grove.cores n v } }
/-- Change Grove core n (R316). -/
def State.modCore (s : State) (n : Nat) (g : GCore → GCore) : State := s.setCore n (g (s.core n))

/-- Read feed n (R316). -/
def State.feed (s : State) (n : Nat) : Feed := tget {} s.grove.feeds n
/-- Write feed n (R316). -/
def State.setFeed (s : State) (n : Nat) (v : Feed) : State :=
  { s with grove := { s.grove with feeds := tput {} s.grove.feeds n v } }
/-- Change feed n (R316). -/
def State.modFeed (s : State) (n : Nat) (g : Feed → Feed) : State := s.setFeed n (g (s.feed n))

/-- Read barrier group n (R316). -/
def State.bar (s : State) (n : Nat) : Barrier := tget {} s.grove.barriers n
/-- Write barrier group n (R316). -/
def State.setBar (s : State) (n : Nat) (v : Barrier) : State :=
  { s with grove := { s.grove with barriers := tput {} s.grove.barriers n v } }
/-- Change barrier group n (R316). -/
def State.modBar (s : State) (n : Nat) (g : Barrier → Barrier) : State := s.setBar n (g (s.bar n))

/-- Read region of handle n (R374). -/
def State.reg (s : State) (n : Nat) : Region := tget {} s.mem.regions n
/-- Write region of handle n (R374). -/
def State.setReg (s : State) (n : Nat) (v : Region) : State :=
  { s with mem := { s.mem with regions := tput {} s.mem.regions n v } }
/-- Change region of handle n (R374). -/
def State.modReg (s : State) (n : Nat) (g : Region → Region) : State := s.setReg n (g (s.reg n))

/-- Read quadrant n (R358). -/
def State.quad (s : State) (n : Nat) : Quad := tget {} s.mem.quads n
/-- Write quadrant n (R358). -/
def State.setQuad (s : State) (n : Nat) (v : Quad) : State :=
  { s with mem := { s.mem with quads := tput {} s.mem.quads n v } }
/-- Change quadrant n (R358). -/
def State.modQuad (s : State) (n : Nat) (g : Quad → Quad) : State := s.setQuad n (g (s.quad n))

/-- Read error count of global rank n (R364). -/
def State.rank (s : State) (n : Nat) : RankErr := tget {} s.mem.ranks n
/-- Write error count of global rank n (R364). -/
def State.setRank (s : State) (n : Nat) (v : RankErr) : State :=
  { s with mem := { s.mem with ranks := tput {} s.mem.ranks n v } }
/-- Change error count of global rank n (R364). -/
def State.modRank (s : State) (n : Nat) (g : RankErr → RankErr) : State := s.setRank n (g (s.rank n))

/-- Read DMA channel n (R396). -/
def State.dma (s : State) (n : Nat) : Dma := tget {} s.move.chans n
/-- Write DMA channel n (R396). -/
def State.setDma (s : State) (n : Nat) (v : Dma) : State :=
  { s with move := { s.move with chans := tput {} s.move.chans n v } }
/-- Change DMA channel n (R396). -/
def State.modDma (s : State) (n : Nat) (g : Dma → Dma) : State := s.setDma n (g (s.dma n))

/-- Read timer line n (R408). -/
def State.tml (s : State) (n : Nat) : TmLine := tget {} s.move.timers n
/-- Write timer line n (R408). -/
def State.setTml (s : State) (n : Nat) (v : TmLine) : State :=
  { s with move := { s.move with timers := tput {} s.move.timers n v } }
/-- Change timer line n (R408). -/
def State.modTml (s : State) (n : Nat) (g : TmLine → TmLine) : State := s.setTml n (g (s.tml n))

/-- Read storage link n (R416). -/
def State.link (s : State) (n : Nat) : Link := tget {} s.move.links n
/-- Write storage link n (R416). -/
def State.setLink (s : State) (n : Nat) (v : Link) : State :=
  { s with move := { s.move with links := tput {} s.move.links n v } }
/-- Change storage link n (R416). -/
def State.modLink (s : State) (n : Nat) (g : Link → Link) : State := s.setLink n (g (s.link n))

/-- Read directory entry n (R423). -/
def State.dirE (s : State) (n : Nat) : DirEnt := tget {} s.move.dir n
/-- Write directory entry n (R423). -/
def State.setDirE (s : State) (n : Nat) (v : DirEnt) : State :=
  { s with move := { s.move with dir := tput {} s.move.dir n v } }
/-- Change directory entry n (R423). -/
def State.modDirE (s : State) (n : Nat) (g : DirEnt → DirEnt) : State := s.setDirE n (g (s.dirE n))

/-- Read aux input n (R480). -/
def State.auxIn (s : State) (n : Nat) : AuxIn := tget {} s.aux.ins n
/-- Write aux input n (R480). -/
def State.setAuxIn (s : State) (n : Nat) (v : AuxIn) : State :=
  { s with aux := { s.aux with ins := tput {} s.aux.ins n v } }
/-- Change aux input n (R480). -/
def State.modAuxIn (s : State) (n : Nat) (g : AuxIn → AuxIn) : State := s.setAuxIn n (g (s.auxIn n))

/-- Read first-error record of group n (R504). -/
def State.frec (s : State) (n : Nat) : FaultRec := tget {} s.flt.recs n
/-- Write first-error record of group n (R504). -/
def State.setFrec (s : State) (n : Nat) (v : FaultRec) : State :=
  { s with flt := { s.flt with recs := tput {} s.flt.recs n v } }
/-- Change first-error record of group n (R504). -/
def State.modFrec (s : State) (n : Nat) (g : FaultRec → FaultRec) : State := s.setFrec n (g (s.frec n))

/-- Read control output n (R487). -/
def State.ctlO (s : State) (n : Nat) : Ctl := tget {} s.ctl n
/-- Write control output n (R487). -/
def State.setCtlO (s : State) (n : Nat) (v : Ctl) : State := { s with ctl := tput {} s.ctl n v }
/-- Change control output n (R487). -/
def State.modCtlO (s : State) (n : Nat) (g : Ctl → Ctl) : State := s.setCtlO n (g (s.ctlO n))

/-- Read performance counter n (R511). -/
def State.perfC (s : State) (n : Nat) : Perf := tget {} s.perf n
/-- Write performance counter n (R511). -/
def State.setPerfC (s : State) (n : Nat) (v : Perf) : State := { s with perf := tput {} s.perf n v }
/-- Change performance counter n (R511). -/
def State.modPerfC (s : State) (n : Nat) (g : Perf → Perf) : State := s.setPerfC n (g (s.perfC n))

end Sys2Proof.Machine
end

