-- ==== Sys2Proof/Machine/Ops.lean ====
section
/-! DEFINITION. The operations every family shares: time, free values, performance counters, event records,
MSI-X signals, completions and the harness that every ZCI command runs through. -/

namespace Sys2Proof.Machine

/-! ## Time (R245, R250 to R252) -/

/-- ct in one 1 ms reporting period. -/
def periodCt : Nat := 1600000

/-- The 1 ms period a tick lies in. -/
def periodOf (t : Tick) : Nat := t / periodCt

/-- One more at a tick. -/
def PerCount.add (x : PerCount) (t : Tick) : PerCount :=
  if x.per = periodOf t then { x with n := x.n + 1 }
  else { per := periodOf t, n := 1, before := if x.per + 1 = periodOf t then x.n else 0 }

/-- The count of the period that ends at a tick; 0 where none ends (R251). -/
def PerCount.ended (x : PerCount) (t : Tick) : Nat :=
  if t % periodCt ≠ 0 then 0 else if x.per = periodOf t then x.before else if x.per + 1 = periodOf t then x.n else 0

/-- The count of the period that ends at a tick has been reported. -/
def PerCount.reported (x : PerCount) (t : Tick) : PerCount := if x.per = periodOf t then { x with before := 0 } else {}

/-- The Canopy time of a tick, fraction 0 (R5). -/
def stampOf (t : Tick) : Stamp := t * 65536

/-- The Canopy count as it reads: in coarse mode bits [3:0] read 0 (R246). -/
def countRead (s : State) : Tick := if s.clk.coarse then s.now / 16 * 16 else s.now

/-- The Canopy time as it reads. -/
def timeRead (s : State) : Stamp := stampOf (countRead s)

/-- The tick of the record of an event that acts now: in coarse mode the node edge that ends the period (R246, R252). -/
def State.evTick (s : State) : Tick := if s.clk.coarse then (s.now + 15) / 16 * 16 else s.now

/-! ## Performance counters (R511) -/

/-- Add to a counter, or in MODE 1 hold the largest value; past 48 bits it saturates and sets SAT (R511). -/
def Perf.count (c : Perf) (v : Nat) : Perf :=
  let n := if c.maxMode then max c.value v else c.value + v
  if n < 2^48 then { c with value := n } else { c with value := 2^48 - 1, sat := true }

/-- Whether a running counter takes a quantity of this source and instance; INSTANCE 0xFF of sources 0x06 and 0x07
stands for all quadrants; of source 0x08 it is a quantity of its own. -/
def Perf.takes (c : Perf) (src inst : Nat) : Bool :=
  c.run && c.source == src && (c.inst_ == inst || (c.inst_ == 0xFF && (src == 6 || src == 7)))

/-- Count a quantity without posting: the counters that saturated by it are named. -/
def perfCount (s : State) (src inst v : Nat) : State × List Nat :=
  (List.range 64).foldl (fun (a : State × List Nat) k =>
    let c := a.1.perfC k
    if c.takes src inst && v != 0 then
      let c' := c.count v
      (a.1.setPerfC k c', if c'.sat && !c.sat then a.2 ++ [k] else a.2)
    else a) (s, [])

/-! ## MSI-X (R448, R463) -/

/-- Signal a vector: a message when it can be sent, else its pending bit. With MSI-X disabled nothing is sent. -/
def signal (s : State) (v : Nat) : State :=
  if !s.host.msixEnable then s else
  let e := s.msixE v
  if e.masked || s.host.msixMask || !s.host.busMaster then s.setMsixE v { e with pending := true }
  else s.setMsixE v { e with sent := e.sent + 1 }

/-! ## Event records (R461 to R463) -/

/-- Table 13-9: an event record as its 256 bits. -/
def EventRecord.encode (e : EventRecord) : Nat :=
  pack [(16, e.code), (12, e.payload), (1, b2n e.loss), (2, 0), (1, b2n e.phase), (16, 0), (64, e.time), (144, e.payload)]

/-- Records in the event ring that the host has not read. -/
def evtSize (s : State) : Nat := 2 ^ (fld s.host.evtCfg.toNat 0 5)
def evtUnread (s : State) : Nat := (s.host.evtTail + evtSize s - s.host.evtHead) % evtSize s

/-- Count a record that is not written (R462). -/
def evtLose (s : State) : State :=
  { s with host := { s.host with evtLost := sat32 s.host.evtLost, evtLossPend := true } }

/-- EVT_CFG fields. -/
def evtIrq (s : State) : Bool := bit s.host.evtCfg.toNat 5
def evtVector (s : State) : Nat := fld s.host.evtCfg.toNat 8 6
def evtThresh (s : State) : Nat := fld s.host.evtCfg.toNat 16 16

/-- Write one record to the event ring, or count it lost (R462), and signal under R463. -/
def evtWrite (s : State) (e : EventRecord) : State :=
  if !s.host.evtEnable || evtUnread s + 1 ≥ evtSize s then evtLose s else
  let h := s.host
  let e := { e with loss := h.evtLossPend, phase := h.evtPhase }
  let tail := (h.evtTail + 1) % evtSize s
  let s1 := { s with host := { h with
      evRing := tput {} h.evRing h.evtTail e, evtTail := tail,
      evtPhase := if tail = 0 then !h.evtPhase else h.evtPhase,
      evtLossPend := false, evtUnsig := h.evtUnsig + 1 } }
  if evtIrq s1 && (evtThresh s1 == 0 || evtUnread s1 == evtThresh s1) then
    signal { s1 with host := { s1.host with evtUnsig := 0 } } (evtVector s1)
  else s1

/-- A record of a group that EVT_MASK lets through enters the ring, or waits for Bus Master Enable (R449, R462). -/
def evtSend (s : State) (e : EventRecord) : State :=
  if !bit s.host.evtMask.toNat (e.code / 256) then s
  else if !s.host.evtEnable then evtLose s
  else if !s.host.busMaster then { s with host := { s.host with evtWait := s.host.evtWait ++ [e] } }
  else evtWrite s e

/-! ## The order of events (R250, Table 7-3) -/

/-- The position of an event's record in its tick (R64, R114, R161, R204, R221, R255, R293, R315, R357, R394, R447, R478, R499,
R529). -/
def evtPos (code payload : Nat) : Nat :=
  let lo := code % 256
  match code / 256 with
  | 0x00 => 9
  | 0x02 => if lo = 1 || lo = 4 then 2 else if lo = 3 || lo = 7 then 1 else if lo = 6 then 3 else 7
  | 0x03 => if lo = 1 && fld payload 13 2 = 1 then 1 else 7
  | 0x04 => if lo = 1 || lo = 2 || lo = 4 then 1 else 7
  | 0x05 =>
    if lo = 2 then 4 else if lo = 6 then 5 else if lo = 7 then 9 else if lo = 8 then 1
    else if lo = 5 then [2, 1, 7, 9].getD (fld payload 4 4) 7 else 7
  | 0x06 => if lo = 4 then 1 else 8
  | 0x07 => 6
  | 0x08 => if lo = 4 && !bit payload 4 then 1 else 7
  | 0x09 => if lo = 1 && 1 ≤ fld payload 8 4 && fld payload 8 4 ≤ 4 then 1 else 7
  | 0x0A => if lo = 1 || lo = 2 || lo = 5 then 1 else 7
  | 0x0B => if lo = 2 || lo = 4 || lo = 6 then 1 else 7
  | 0x0C => if lo = 4 then 1 else 7
  | 0x0D => if lo = 1 || (lo = 3 && bit payload 0) then 1 else if lo = 2 || lo = 4 then 9 else 7
  | _ => 7

/-- The source number of an event: the unit its payload names first; of a fault event, the fault source. -/
def evtSource (code payload : Nat) : Nat :=
  if code = 0x0D03 then fld payload 16 16
  else fld payload 0 ([4, 8, 2, 8, 8, 3, 1, 16, 4, 6, 6, 5, 4, 16, 6].getD (code / 256) 0)

/-- The sort key of an event: its tick, position, group, source number, code. External edges are ordered by input number (R250). -/
def evtKey (e : Nat × EventRecord) : Nat :=
  (((e.2.time * 16 + e.1) * 256 + e.2.code / 256) * 65536 + evtSource e.2.code e.2.payload) * 256 + e.2.code % 256

/-- Insert behind every event whose key is not larger. -/
def evtInsert (e : Nat × EventRecord) : List (Nat × EventRecord) → List (Nat × EventRecord)
  | [] => [e]
  | x :: r => if evtKey x ≤ evtKey e then x :: evtInsert e r else e :: x :: r

/-- Events in the order of R250; those of one key in the order posted. -/
def evtSort (l : List (Nat × EventRecord)) : List (Nat × EventRecord) := l.foldl (fun a e => evtInsert e a) []

/-- Post an event at a position of Table 7-3: its record carries the tick at which it was sampled (R252). -/
def postAt (s : State) (pos code payload : Nat) : State :=
  { s with host := { s.host with evtNow := s.host.evtNow ++ [(pos, { code := code, time := s.evTick, payload := payload % 2^144 })] } }

/-- Post an event. -/
def post (s : State) (code payload : Nat) : State := postAt s (evtPos code payload) code payload

/-- Payload of PERF_SAT of a counter (Table 15-18). -/
def perfSatPayload (s : State) (k : Nat) : Nat := pack [(6, k), (2, 0), (8, (s.perfC k).source), (16, (s.perfC k).inst_)]

/-- Count a quantity of a performance source and post PERF_SAT of counters it saturates (R511). -/
def perfAdd (s : State) (src inst v : Nat) : State :=
  let p := perfCount s src inst v
  p.2.foldl (fun a k => post a 0x0E01 (perfSatPayload a k)) p.1

/-- Records leave for the ring one after the other. Each record written counts in source 0x13, and the PERF_SAT of a
counter that this saturates follows; `n` bounds the chain, since a counter saturates once. -/
def evtSendAll : Nat → State → List EventRecord → State
  | 0, s, _ => s
  | _ + 1, s, [] => s
  | n + 1, s, e :: r =>
    let s1 := evtSend s e
    let p := if s1.host.evtTail = s.host.evtTail then (s1, []) else perfCount s1 0x13 0 1
    evtSendAll n p.1 (r ++ p.2.map (fun k => { code := 0x0E01, time := s.evTick, payload := perfSatPayload p.1 k }))

/-- The events sampled before tick T enter the ring in the order of R250: a tick's events wait until it is over (log 11). -/
def flushEvents (s : State) (T : Tick) : State :=
  let l := (evtSort (s.host.evtNow.filter (fun e => decide (e.2.time < T)))).map (·.2)
  evtSendAll (l.length + 65) { s with host := { s.host with evtNow := s.host.evtNow.filter (fun e => decide (T ≤ e.2.time)) } } l

/-- Mailbox activity takes the last position of its tick (Table 7-3): the events of the tick have entered the ring before it. -/
def flushAll (s : State) : State := flushEvents s (s.evTick + 1)

/-! ## Completions (R460, R463, R469) -/

/-- Table 13-7: a completion as the bits of its ring entry, header then result. -/
def Completion.encode (c : Completion) : Nat :=
  pack [(16, c.tag), (16, c.status), (1, b2n c.phase), (1, b2n c.deferred), (6, 0), (5, c.rlen), (3, 0),
    (16, c.sqhead), (16, c.opcode), (16, 0), (16, 0), (64, c.applied), (80, 0), (1792, c.result)]

/-- QCFG fields (Table 13-3). -/
def sqSize (x : Session) : Nat := 2 ^ fld x.qcfg.toNat 0 4
def cqSize (x : Session) : Nat := 2 ^ fld x.qcfg.toNat 4 4
def Session.vector (x : Session) : Nat := fld x.qcfg.toNat 8 6
def Session.irq (x : Session) : Bool := bit x.qcfg.toNat 14

/-- Completions of a session's ring that the host has not read. -/
def cqUnread (s : State) (n : Nat) : Nat := ((s.cplR n).tail + cqSize (s.ses n) - (s.ses n).cqHead) % cqSize (s.ses n)

/-- Commands of a session that are in progress. -/
def inProgOf (s : State) (n : Nat) : Nat := (s.host.inProg.filter (fun p => p.session == n)).length

/-- Completion slots of a session that are taken: unread completions, completions not yet written, and commands in progress (R460). -/
def cqTaken (s : State) (n : Nat) : Nat :=
  cqUnread s n + (s.host.cplWait.filter (fun w => w.2.1 == n)).length + inProgOf s n

/-- A completion slot can be reserved (R460). -/
def cqFree (s : State) (n : Nat) : Bool := decide (cqTaken s n + 1 < cqSize (s.ses n))

/-- ct of the 2 µs signal hold (R463). -/
def holdCt : Nat := 3200

/-- Signal a session's vector, or hold the signal back (R463). -/
def cqSignal (s : State) (n : Nat) : State :=
  let r := s.cplR n
  if !(s.ses n).irq then s
  else if s.now < r.holdUntil then s.setCplR n { r with held := true }
  else signal (s.setCplR n { r with held := false, holdUntil := s.now + holdCt }) (s.ses n).vector

/-- Write a completion into its ring (R460), then signal. -/
def cqWrite (s : State) (n : Nat) (c : Completion) : State :=
  let r := s.cplR n
  let tail := (r.tail + 1) % cqSize (s.ses n)
  cqSignal (s.setCplR n { r with
    slots := tput {} r.slots r.tail { c with phase := r.phase, sqhead := (s.ses n).sqHead }, tail := tail,
    phase := if tail = 0 then !r.phase else r.phase }) n

/-- A session whose completions are still written: OPEN, or RELEASING with cause 0 and no host-interface reset since
(R457). -/
def Session.takesCpl (x : Session) : Bool := x.st == 1 || (x.st == 3 && x.cause == 0 && !x.relHost)

/-- The completions of commands that ended before tick T are written, in the order in which they ended: every event record of those ticks has
entered its ring before them (R469). Without Bus Master Enable they wait (R449), and a session that is gone gets none (R456, R457). -/
def cplSend (s : State) (T : Tick) : State :=
  if !s.host.busMaster then s else
  (s.host.cplWait.filter (fun w => decide (w.1 < T))).foldl (fun a w => if (a.ses w.2.1).takesCpl then cqWrite a w.2.1 w.2.2 else a)
    { s with host := { s.host with cplWait := s.host.cplWait.filter (fun w => decide (T ≤ w.1)) } }

/-- A command ends: its completion is written once the tick is over (R469), or none is written (R456, R457). -/
def complete (s : State) (n : Nat) (c : Completion) : State :=
  if !(s.ses n).takesCpl then s else { s with host := { s.host with cplWait := s.host.cplWait ++ [(s.evTick, n, c)] } }

/-! ## The step's harness -/

/-- Time passes to tick `t`: the events of the ticks before it enter the ring (R250), then the completions of the commands that ended before it
(R469); the counters of ct accumulate
(Table 15-7, sources 0x05, 0x08 and 0x0C), and the Canopy count never decreases (R245). -/
def pass (s : State) (t : Tick) : State :=
  let dt := t - s.now
  let T := ({ s with now := max s.now t } : State).evTick
  let s0 := cplSend (flushEvents s T) T
  let s1 := { s0 with now := max s.now t }
  if dt = 0 || s.perf.isEmpty then s1 else
  let s2 := if s.spec.vcore ≥ 850 then perfAdd s1 0x05 0 dt else s1
  let ports := (List.range 4).filter (fun p => s.mem.panic.any (fun e => e.1 / 8 == p))
  let s3 := (if ports.isEmpty then [] else ports ++ [0xFF]).foldl (fun a p => perfAdd a 0x08 p dt) s2
  s.grove.cores.foldl (fun a e => if e.2.st = 2 then perfAdd a 0x0C e.1 dt else a) s3

/-- Time passes to tick `t`; at the node edge at which CLK_SET_TIME steps the count, it goes on from the stepped count (R248). -/
def advance (s : State) (t : Tick) : State :=
  match s.clk.stepAt with
  | none => pass s t
  | some (e, d) =>
    if s.now < e && e ≤ t then
      let s1 := flushEvents (pass s e) (e + 1)
      pass { s1 with now := e + d } t
    else pass s t

/-- The engine is without power, or RST_N holds it in device reset: nothing in it acts (R537, R542). -/
def Pwr.down (p : Pwr) : Bool := !p.powered || p.rstLow

/-- What every row does around its own effect: it acts at its tick, the Canopy count never decreases, free values are
never drawn again, and the queue of waiting commands is not touched. While the engine is down, it has no effect. -/
def act (t : Tick) (s : State) (f : State → State) : Host.Outcome State Fault Refusal :=
  if s.pwr.down then .next s else
  let s1 := advance s t
  let s2 := f s1
  let s3 := { s2 with pending := s.pending, now := max s1.now s2.now, freeNo := max s.freeNo s2.freeNo }
  .next (flushEvents s3 s3.evTick)

/-- Draw a free value of `w` bits (log 2). -/
def drawFree (w : Nat) (s : State) : Nat × State := ((Config.free w s.freeNo).toNat, { s with freeNo := s.freeNo + 1 })

/-- A command in progress ends with a status and a result of `rlen` 8-byte units. -/
def finish (s : State) (p : InProg) (status rlen result : Nat) : State :=
  let s1 := { s with host := { s.host with inProg := s.host.inProg.erase p } }
  complete s1 p.session { tag := p.tag, status := status, rlen := rlen, opcode := p.opcode, applied := p.applied, result := result }

/-- The commands in progress of an opcode that wait on a unit. -/
def waiting (s : State) (op unit : Nat) : List InProg :=
  s.host.inProg.filter (fun p => p.opcode == op && p.unit_ == unit)

/-- End every command in progress of an opcode that waits on a unit. -/
def finishAll (s : State) (op unit status rlen result : Nat) : State :=
  (waiting s op unit).foldl (fun a p => finish a p status rlen result) s

/-! ## Statuses (Table 13-8) -/

def stBusy : Nat := 1
def stInvalid : Nat := 2
def stRange : Nat := 3
def stNoRes : Nat := 4
def stState : Nat := 5
def stDenied : Nat := 6
def stTimeout : Nat := 7
def stFaulted : Nat := 8
def stUnsup : Nat := 9

/-! ## PCIe links (R415, R448) -/

/-- The rates of Table 12-4 and Table 13-1 in the MAXRATE coding of R442, with their modes: 64 GT/s in FLIT mode, 5 and 2.5 GT/s without. -/
def rateLegal (rate : Nat) (flit : Bool) : Bool := decide (1 ≤ rate ∧ rate ≤ 6) && (rate != 6 || flit) && (decide (3 ≤ rate) || !flit)

/-! ## Commands -/

/-- What a command's own rules answer once the common checks have passed. -/
inductive Reply where
  /-- The first check that fails sets STATUS; nothing changes (R465). -/
  | fail (status : Nat)
  /-- A failure for which the chapter defines a result, and what it leaves (R460, R461). -/
  | failWith (s : State) (status rlen result : Nat)
  /-- Applied: the new state, and the result of `rlen` 8-byte units. -/
  | ok (s : State) (rlen result : Nat)
  /-- Applied with DEFERRED = 1 (R188, R376). -/
  | deferred (s : State)
  /-- Applied and in progress: it completes later (R464), and waits on the unit named. -/
  | later (s : State) (unit : Nat) (data : List Nat)
  /-- Applied and in progress, naming regions until it completes (R376). -/
  | laterR (s : State) (unit : Nat) (data regs : List Nat)
  /-- Applied, and no completion is ever written (SYS_RESET). -/
  | silent (s : State)

/-- The first check that fails, in the order of the list; else the reply. -/
def chk : List (Bool × Nat) → Reply → Reply
  | [], r => r
  | (b, st) :: l, r => if b then .fail st else chk l r

/-- The value of the bits that the fields named cover, each field as (lowest bit, width). -/
def fieldMask (used : List (Nat × Nat)) : Nat := used.foldl (fun a f => a ||| ((2^f.2 - 1) * 2^f.1)) 0

/-- R9: every reserved bit of a block of `units` 8-byte units is zero. -/
def rsvOk (p : Nat) (units : Nat) (used : List (Nat × Nat)) : Bool :=
  (p % 2^(64 * units)) &&& fieldMask used == p % 2^(64 * units)

/-- The parameter block's bits of an entry, the bytes beyond it ignored (R459). -/
def blk (p : Block) (units : Nat) : Nat := p.toNat % 2^(64 * units)

/-- Commands that R470 still applies in the fatal state. -/
def fatalOk (op : Nat) : Bool :=
  op / 256 == 0x0D ||
  [0x0001, 0x0004, 0x0007, 0x0105, 0x0206, 0x0306, 0x0407, 0x050B, 0x060A, 0x060B, 0x0707, 0x0803, 0x0807, 0x0908,
   0x0A05, 0x0A08, 0x0B05, 0x0B0D, 0x0C04, 0x0C07].contains op

/-- The identity key is usable: SAPLING, STAND and RETURN (Table 15-10). -/
def keyUsable (s : State) : Bool := s.sec.life == 1 || s.sec.life == 2 || s.sec.life == 3

/-- R515, R514: commands that the life-cycle state forbids. STOR_MOUNT is denied in its own checks (R432). -/
def denies (s : State) (op : Nat) : Bool :=
  (!keyUsable s && [0x0301, 0x0302, 0x0303, 0x0806, 0x0B08, 0x0B0B, 0x0D07].contains op) ||
  (s.sec.life == 4 && op == 0x0D05)

/-- The opcodes of Table 13-10 by group: the largest index of each group. -/
def opKnown (op : Nat) : Bool :=
  op % 256 != 0 && op % 256 ≤ [8, 6, 6, 6, 8, 11, 11, 7, 7, 9, 9, 14, 7, 9, 3].getD (op / 256) 0

/-- The common checks 2 to 5 of R465, in their order; 0 when all pass. -/
def commonCheck (op units : Nat) (used : Nat → List (Nat × Nat)) (c : Cmd) (p : Block) (s : State) : Nat :=
  if denies s op then stDenied
  else if s.host.engine = 2 ∧ !fatalOk op then stFaulted
  else if c.plen.toNat ≠ units ∨ c.rsv ≠ 0 then stInvalid
  else if !rsvOk p.toNat units (used (blk p units)) then stInvalid
  else 0

/-- Complete the entries at the front of a session's fetched commands whose opcode Table 13-10 does not hold
(R465, step 1), unless their TIMEOUT has passed (R467). -/
def flushUnknown : Nat → State → Nat → State
  | 0, s, _ => s
  | k + 1, s, n =>
    match (s.ses n).fetched with
    | f :: r =>
      if opKnown f.opcode || (f.timeout != 0 && decide (f.at_ + f.timeout * periodCt < s.now)) || !cqFree s n || (f.fence && inProgOf s n != 0) || decide (64 ≤ s.host.inProg.length) then s
      else
        let s1 := s.modSes n (fun x => { x with fetched := r })
        flushUnknown k (complete s1 n { tag := f.tag, status := stUnsup, opcode := f.opcode, applied := countRead s }) n
    | [] => s

/-- The control processor takes up a command of a session: the entry at the front of the fetched commands, or, where
nothing is fetched, the next entry of the ring, fetched with it (log 6). Nothing is answered when the command is not
the session's next one, when its TIMEOUT has passed (R467), and while no control processor runs (R503, R535). -/
def takeUp (op : Nat) (c : Cmd) (s : State) : Option State :=
  let n := c.session.val
  let x := s.ses n
  if x.st ≠ 1 || s.flt.cpDead || s.host.engine = 0 || s.host.engine = 3 then none else
  match x.fetched with
  | f :: r => if f.opcode = op ∧ f.tag = c.tag.toNat ∧ (f.timeout = 0 ∨ s.now ≤ f.at_ + f.timeout * periodCt) then some (s.setSes n { x with fetched := r }) else none
  | [] =>
    if x.fetcherr || !s.host.busMaster then none else
    let h := (x.sqHead + 1) % sqSize x
    some (s.setSes n { x with sqHead := h, sqTail := if x.sqTail = x.sqHead then h else x.sqTail })

/-- The calling session owns unit `u` of a resource class (R458). -/
def owns (s : State) (n cls u : Nat) : Bool := s.ownerOf (cls * 65536 + u) == n + 1

/-- The rules of START_CT and AT_CT (Tables 2-11, 14-6): a tick named less than 2 µs ahead is out of range. -/
def tickBad (s : State) (at_ : Nat) : Bool := at_ != 0 && decide (at_ < s.now + 3200)

/-- R464, R460: the command's FENCE is satisfied, its completion slot can be reserved, and fewer than 64 commands are
in progress in the engine. -/
def eligible (c : Cmd) (s : State) : Bool :=
  let n := c.session.val
  (!c.fence || inProgOf s n == 0) && cqFree s n && decide (s.host.inProg.length < 64)

/-- The state and completion that a reply leaves. -/
def reply (op : Nat) (c : Cmd) (s : State) : Reply → State
  | .fail st => complete s c.session.val { tag := c.tag.toNat, status := st, opcode := op, applied := countRead s }
  | .failWith s' st rl r =>
    complete s' c.session.val { tag := c.tag.toNat, status := st, rlen := rl, opcode := op, applied := countRead s, result := r }
  | .ok s' rl r =>
    complete s' c.session.val { tag := c.tag.toNat, rlen := rl, opcode := op, applied := countRead s, result := r }
  | .deferred s' =>
    complete s' c.session.val { tag := c.tag.toNat, deferred := true, opcode := op, applied := countRead s }
  | .later s' u d =>
    let e : InProg :=
      { session := c.session.val, opcode := op, tag := c.tag.toNat, applied := countRead s, unit_ := u, data := d }
    { s' with host := { s'.host with inProg := s'.host.inProg ++ [e] } }
  | .laterR s' u d r =>
    let e : InProg :=
      { session := c.session.val, opcode := op, tag := c.tag.toNat, applied := countRead s, unit_ := u, data := d, regs := r }
    { s' with host := { s'.host with inProg := s'.host.inProg ++ [e] } }
  | .silent s' => s'

/-- A reply that rejects its command: no command was applied. -/
def Reply.rejects : Reply → Bool
  | .fail _ => true
  | _ => false

/-- The unknown opcodes at the front of a session's fetched commands are answered (R465). -/
def flushFront (s : State) (n : Nat) : State := flushUnknown (s.ses n).fetched.length s n

/-- One ZCI command (R464, R465), whose block of `units` 8-byte units has the fields `used` (a field may be reserved by
the value of another): taken up in ring order when eligible, checked, applied at its tick, completed. `after` is what follows
every command of the opcode, whatever its outcome. -/
def zciThen (after : State → State) (op units : Nat) (used : Nat → List (Nat × Nat)) (c : Cmd) (p : Block) (s : State)
    (body : Nat → State → Reply) : Host.Outcome State Fault Refusal :=
  act c.t s fun s =>
    let s0 := flushFront s c.session.val
    match takeUp op c s0 with
    | none => s0
    | some s1 =>
      if !eligible c s0 then s0 else
      let r := if commonCheck op units used c p s1 = 0 then body (blk p units) s1
               else .fail (commonCheck op units used c p s1)
      let s2 := reply op c s1 r
      let s3 := if r.rejects then s2 else perfAdd s2 0x14 c.session.val 1
      flushFront (after s3) c.session.val

/-- One ZCI command whose outcome alone decides what it leaves. -/
def zci (op units : Nat) (used : Nat → List (Nat × Nat)) (c : Cmd) (p : Block) (s : State)
    (body : Nat → State → Reply) : Host.Outcome State Fault Refusal := zciThen (fun s => s) op units used c p s body

end Sys2Proof.Machine
end

