-- ==== Sys2Proof/Machine/FeOps.lean ====
section
/-! DEFINITION. Streams, grains and their times (01_architecture.md R21 to R23, 02_sampling_front_end.md,
07_clocks_and_canopy_timebase.md R243, R244). -/

namespace Sys2Proof.Machine

/-! ## Stream ids, pairs and clocks (Table 2-4, R43 to R45) -/

/-- The pair of a stream 0x00-0x05: 0 = PA, 1 = PB. -/
def pairOf (id : Nat) : Nat := if id < 4 then id / 2 else id - 4

/-- The pair is in pair mode. -/
def State.pairMode (s : State) (p : Nat) : Bool := tget false s.fe.pairMode p

/-- RATE of a pair (R43). -/
def State.rate (s : State) (p : Nat) : Nat := 100 - tget 0 s.fe.rate p

/-- N of a pair's synthesiser (Table 7-1). -/
def pairN (s : State) (p : Nat) : Nat := 100 + s.rate p

/-- The stream exists in the present mode (R45, R50). -/
def strExists (s : State) (id : Nat) : Bool :=
  if id < 4 then !s.pairMode (id / 2) else if id < 6 then s.pairMode (id - 4) else false

/-- The streams that exist on a pair, the even channel first. -/
def pairStreams (s : State) (p : Nat) : List Nat := if s.pairMode p then [4 + p] else [2 * p, 2 * p + 1]

/-- The source code of a target (Table 2-2). -/
def State.source (s : State) (tgt : Nat) : Nat := (tget 0 s.fe.src tgt) ^^^ 6

/-- Route a target to a source. -/
def setSource (s : State) (tgt code : Nat) : State :=
  { s with fe := { s.fe with src := tput 0 s.fe.src tgt (code ^^^ 6) } }

/-- The stream an RF input feeds (R41, R45): its channel in single mode, its pair in pair mode. -/
def inputStream (s : State) (i : Nat) : Option Nat :=
  (List.range 6).find? (fun id => strExists s id && s.source id == i)

/-- Samples of a stream 0x00-0x05 per node period: N, or 2N in pair mode (R244). -/
def nsOf (s : State) (id : Nat) : Nat := if id < 4 then pairN s (id / 2) else 2 * pairN s (id - 4)

/-- The pair that clocks a stream; a down-converter's stream is clocked by its source's pair. -/
def clockPair (s : State) (id : Nat) : Nat := if id < 6 then pairOf id else pairOf (s.ddc (id - 16)).source

/-- The sample PLL of a pair is locked. -/
def spLocked (s : State) (p : Nat) : Bool := (s.pll p).st == 4

/-- The stream runs: one of 0x00-0x05, or an enabled down-converter whose source runs. -/
def strRuns (s : State) (id : Nat) : Bool :=
  if id < 6 then (s.str id).running
  else decide (16 ≤ id ∧ id < 32) && (s.ddc (id - 16)).on && (s.str (s.ddc (id - 16)).source).running

/-! ## Exact time (R22, R244) -/

/-- Samples of the source per sample of the stream: 1, or D = 2^E of a down-converter (R86). -/
def strDecim (s : State) (id : Nat) : Nat := if id < 6 then 1 else 2 ^ (s.ddc (id - 16)).e

/-- Numerator of the exact time of sample j of an epoch, in LSB / ns. -/
def Epoch.num (e : Epoch) (j : Nat) : Int := e.base * e.ns + ((e.m0 + j * e.dec) * 1048576 : Nat)

/-- The exact time of sample j, in LSB. -/
def Epoch.exact (e : Epoch) (j : Nat) : ℚ := (e.num j : ℚ) / e.ns

/-- The stamp of sample j: the exact sum rounded to the fraction LSB, a tie to even (R22). -/
def Epoch.time (e : Epoch) (j : Nat) : Stamp := (roundEven (e.num j) e.ns).toNat

/-- Samples per second of an epoch: n_s samples per 10 ns, over D. -/
def Epoch.rate (e : Epoch) : ℚ := e.ns * 100000000 / e.dec

/-- The first sample whose time is at or after a stamp (R136). -/
def Epoch.sampleAt (e : Epoch) (t : Stamp) : Nat :=
  let num : Int := ((t : Int) - e.base) * e.ns - (e.m0 * 1048576 : Nat)
  let j := if num ≤ 0 then 0 else ceilDiv num.toNat (e.dec * 1048576)
  if j > 0 && t ≤ e.time (j - 1) then j - 1 else j

/-- The first grain whose first sample lies at or after a stamp. -/
def Epoch.grainFrom (e : Epoch) (t : Stamp) : Nat := ceilDiv (e.sampleAt t) 256

/-- The grain whose time span contains a tick (R53). -/
def Epoch.grainAt (e : Epoch) (t : Tick) : Nat :=
  let j := e.sampleAt (stampOf t)
  if e.time j = stampOf t then j / 256 else (j - 1) / 256

/-- The epoch a stream is in. -/
def State.epoch (s : State) (id : Nat) : Epoch := if id < 6 then (s.str id).cur.ep else (s.ddc (id - 16)).ep

/-- Put an epoch in force on a stream. -/
def State.setEpoch (s : State) (id : Nat) (e : Epoch) : State :=
  if id < 6 then s.modStr id (fun x => { x with cur := { x.cur with ep := e } }) else s.modDdc (id - 16) (fun d => { d with ep := e })

/-- What happens to a grain of an earlier epoch is reckoned in that epoch. -/
def withEpoch (s : State) (id : Nat) (e : Epoch) (f : State → State) : State :=
  let o := s.epoch id
  if o = e then f s else (f (s.setEpoch id e)).setEpoch id o

/-- The stamp of sample j of the epoch in force, of the first sample of grain n, and the epoch stamp (R22). -/
def sampleTime (s : State) (id j : Nat) : Stamp := (s.epoch id).time j
def grainTime (s : State) (id n : Nat) : Stamp := sampleTime s id (256 * n)
def epochStamp (s : State) (id : Nat) : Stamp := sampleTime s id 0

/-- The first sample, and the first grain, at or after a stamp. -/
def sampleAt (s : State) (id : Nat) (t : Stamp) : Nat := (s.epoch id).sampleAt t
def grainFrom (s : State) (id : Nat) (t : Stamp) : Nat := (s.epoch id).grainFrom t

/-- The first grain boundary at or after the present tick (R16). -/
def nextGrain (s : State) (id : Nat) : Nat := grainFrom s id (stampOf s.now)

/-- The grain whose time span contains a tick (R53). -/
def grainAt (s : State) (id t : Nat) : Nat := (s.epoch id).grainAt t

/-- Number of the epoch whose grains reach a unit that is bound to the stream now: the one in force, or the next to begin. -/
def epochNo (s : State) (id : Nat) : Nat :=
  (s.epoch id).no + b2n (!(strRuns s id && (decide (id < 6) || (s.ddc (id - 16)).live)))

/-- The first grain of it that such a unit takes. -/
def bindGrain (s : State) (id : Nat) : Nat := if epochNo s id = (s.epoch id).no then nextGrain s id else 0

/-- Open a settle window of `ct` ticks at grain g (R52): a grain carries SETTLING when its first sample lies in one. -/
def openSettle (s : State) (id g ct : Nat) : State :=
  s.modStr id (fun x => let a := x.cur.ep.exact (256 * g); { x with settle := x.settle ++ [(a, a + (ct * 65536 : Nat))] })

/-! ## Settings that change at a grain boundary (R16) -/

/-- What the front end of a stream is set to now. -/
def frontSet (s : State) (id : Nat) : FrontSet :=
  let i := s.source id
  { source := i, atten := if i < 4 then (s.inp i).atten else 10, tripped := decide (i < 4) && (s.inp i).tripped, values := s.cal.values }

/-- A change is to take effect at grain g of a running stream: the grains before it keep the settings now in force. -/
def keepFront (s : State) (id g : Nat) : State :=
  if (s.str id).running then s.modStr id (fun x => { x with cur := { x.cur with front := x.cur.front ++ [(g, frontSet s id)] } }) else s

/-- The settings of the grains from `a` on count as those of a tripped input, where they are of input i. -/
def tripFront (a i : Nat) : List (Nat × FrontSet) → List (Nat × FrontSet)
  | [] => []
  | e :: l =>
    if e.1 ≤ a then e :: tripFront a i l
    else (a, e.2) :: (e :: l).map (fun e => (e.1, { e.2 with tripped := e.2.tripped || e.2.source == i }))

/-- The grain of an epoch that contains a tick, and those after it, carry OVERLOAD where they come from input i. -/
def Tagging.trip (c : Tagging) (t : Tick) (i : Nat) : Tagging := { c with front := tripFront (c.ep.grainAt t) i c.front }

/-- An input trips (R40): of the grains of a stream still to be tagged that it feeds, the one that contains the present tick and those after it
carry OVERLOAD. Grains that were to be processed as at present keep the rest of their settings. -/
def tripStream (s : State) (id i : Nat) : State :=
  let a := grainAt s id s.now
  let s1 := if (s.str id).cur.front.any (fun e => decide (a < e.1)) then s else keepFront s id a
  s1.modStr id (fun x => { x with old := x.old.map (·.trip s.now i), cur := x.cur.trip s.now i })

/-- The same for every running stream at its next grain boundary. -/
def keepFronts (s : State) : State := (List.range 6).foldl (fun a id => keepFront a id (nextGrain a id)) s

/-- The settings under which grain n of an epoch is processed. -/
def Tagging.settings (s : State) (id : Nat) (c : Tagging) (n : Nat) : FrontSet :=
  match c.front.find? (fun e => decide (n < e.1)) with
  | some e => e.2
  | none => frontSet s id

/-! ## Locking (R53) -/

/-- The four conditions of R53 for an epoch that starts with UNLOCKED clear. -/
def epochLocked (s : State) (id : Nat) : Bool :=
  spLocked s (pairOf id) && (s.pll 2).st == 4 && s.clk.nodeOk && s.clk.reflock && !s.clk.holdover

/-- UNLOCKED on the grains of an epoch from the one containing a tick (R53). -/
def Tagging.unlock (c : Tagging) (t : Tick) : Tagging :=
  { c with unlockFrom := some (match c.unlockFrom with | some u => min u (c.ep.grainAt t) | none => c.ep.grainAt t) }

/-- A check fails in the grain of an epoch that contains a tick: it carries SUSPECT (Table 2-5). -/
def Tagging.suspect (c : Tagging) (t : Tick) : Tagging :=
  if c.ep.time 0 ≤ stampOf t then { c with susAt := c.susAt ++ [c.ep.grainAt t] } else c

/-- UNLOCKED from the grain containing the present tick on a stream, also where that grain is its last (R53). -/
def markUnlocked (s : State) (id : Nat) : State :=
  s.modStr id (fun x => { x with old := x.old.map (·.unlock s.now), cur := if x.running then x.cur.unlock s.now else x.cur })

/-- UNLOCKED on every running stream. -/
def markAllUnlocked (s : State) : State := (List.range 6).foldl markUnlocked s

/-! ## Overload episodes (R64) -/

/-- End an open overload episode with its last OVERLOAD grain. -/
def endEpisode (s : State) (id : Nat) : State :=
  let x := s.str id
  if x.epOpen then
    post (s.setStr id { x with epOpen := false, epQuiet := 65536 }) 0x0104 (pack [(8, id), (48, x.epLast)])
  else s.setStr id { x with epQuiet := 65536 }

/-! ## Flags of a source -/

/-- A stream of the pair has an acquisition armed on it: a unit in ARMING, ARMED or POST, or one waiting for AT_CT,
that captures it (R56). -/
def strArmed (s : State) (id : Nat) : Bool :=
  (List.range 8).any (fun a =>
    let u := s.au a
    ((decide (1 ≤ u.st ∧ u.st ≤ 3)) || u.armAt.isSome) && u.entries.any (fun e => e.stream == id))

/-- A recording is open for a stream, or for a down-converter of it (R56). A source entry holds its kind in bits 7:0 and
its stream in bits 15:8. -/
def strRecorded (s : State) (id : Nat) : Bool :=
  s.move.entry ≠ 0xFFFF && s.move.recSrc.any (fun e => fld e 0 8 == 1 && fld e 8 8 == id)

/-- SUSPECT that lasting conditions put on a stream's grains of a source (Table 15-1 groups 0x08, 0x09, 0x12). -/
def suspectHeld (s : State) (id src : Nat) : Bool :=
  let on := fun f => tget false s.flt.held f
  (List.range 4).any (fun k => on (0x0800 + 4 * pairOf id + k)) ||
  (src < 4 && (List.range 4).any (fun k => on (0x0900 + 4 * src + k))) || on 0x121C

end Sys2Proof.Machine
end

