-- ==== Sys2Proof/Machine/Real.lean ====
section
/-! DEFINITION. The real functions that the spec names by their mathematics, evaluated in fixed point with 256 fraction
bits: cosine, the Bessel function I0, square root, logarithm and powers (03_spectral_engine.md R75, R96;
06_channel_monitors.md R209, R214; 09_calibration.md R295, R302). Each value errs by less than 2^-200 of one (DEDUCED, log 50). -/

namespace Sys2Proof.Machine

/-! ## Fixed point -/

/-- Fraction bits of the working precision. -/
def fxBits : Nat := 256

/-- A rational number in fixed point, rounded down. -/
def toFx (x : ℚ) : Int := x.num * 2^fxBits / x.den

/-- A fixed-point number as a rational one. -/
def ofFx (v : Int) : ℚ := (v : ℚ) / (2^fxBits : Nat)

/-- The product of two fixed-point numbers. -/
def fxMul (a b : Int) : Int := a * b / 2^fxBits

/-- The sum of `n` terms, each got from the one before it. -/
def fxSeries (next : Nat → Int → Int) : Nat → Nat → Int → Int
  | 0, _, _ => 0
  | n + 1, k, t => t + fxSeries next n (k + 1) (next k t)

/-! ## Constants -/

/-- atan(1/n), by its series. -/
def fxAtanInv (n : Nat) : Int :=
  ((List.range 130).map (fun k => (if k % 2 = 0 then 1 else -1) * ((2^fxBits / (n^(2 * k + 1) * (2 * k + 1)) : Nat) : Int))).sum

/-- atanh(x) for 0 ≤ x ≤ 1/3. -/
def fxAtanh (x : Int) : Int :=
  let q := fxMul x x
  ((List.range 90).foldl (fun (a : Int × Int) k => (a.1 + a.2 / (2 * k + 1 : Nat), fxMul a.2 q)) (0, x)).1

/-- π, by Machin's formula. -/
def fxPi : Int := 16 * fxAtanInv 5 - 4 * fxAtanInv 239

/-- ln 2 and ln 10. -/
def fxLn2 : Int := 2 * fxAtanh (toFx (1 / 3))
def fxLn10 : Int := 3 * fxLn2 + 2 * fxAtanh (toFx (1 / 9))

/-! ## Functions -/

/-- cos(2πr) for 0 ≤ r ≤ 1/4. -/
def cosQuarter (r : ℚ) : ℚ :=
  if r = 0 then 1 else if r = 1 / 4 then 0 else
  let y := fxMul (toFx r) (2 * fxPi)
  let q := fxMul y y
  ofFx (fxSeries (fun k t => -(fxMul t q / ((2 * k + 1) * (2 * k + 2) : Nat))) 50 0 (2^fxBits : Nat))

/-- cos(2πx). -/
def realCos (x : ℚ) : ℚ :=
  let r := x - ⌊x⌋
  let h := if 1 / 2 < r then 1 - r else r
  if h ≤ 1 / 4 then cosQuarter h else -cosQuarter (1 / 2 - h)

/-- sin(2πx). -/
def realSin (x : ℚ) : ℚ := realCos (x - 1 / 4)

/-- I0(2√q) = Σ q^k / (k!)^2. -/
def realI0 (q : ℚ) : ℚ :=
  let f := toFx q
  ofFx (fxSeries (fun k t => fxMul t f / ((k + 1) * (k + 1) : Nat)) 180 0 (2^fxBits : Nat))

/-- The square root of x ≥ 0. -/
def realSqrt (x : ℚ) : ℚ := if x ≤ 0 then 0 else (Nat.sqrt (x.num.toNat * 4^fxBits / x.den) : ℚ) / (2^fxBits : Nat)

/-- Square a fixed-point number `n` times. -/
def fxSquare : Nat → Int → Int
  | 0, v => v
  | n + 1, v => fxSquare n (fxMul v v)

/-- e^x: the argument is halved until it is small, and the value squared as often. -/
def realExp (x : ℚ) : ℚ :=
  if x < -200 then 0 else
  let n := 12
  let y := toFx (x / 2^n)
  ofFx (fxSquare n (fxSeries (fun k t => fxMul t y / (k + 1 : Nat)) 60 0 (2^fxBits : Nat)))

/-- The natural logarithm of x > 0. -/
def realLn (x : ℚ) : ℚ :=
  let k := ilog2 x
  let m := x / pow2 k
  ofFx (k * fxLn2 + 2 * fxAtanh (toFx ((m - 1) / (m + 1))))

/-- log10 of x > 0. -/
def realLog10 (x : ℚ) : ℚ := realLn x / ofFx fxLn10

/-- 10^x. -/
def realExp10 (x : ℚ) : ℚ :=
  let k := ⌊x⌋
  (if 0 ≤ k then (10 : ℚ)^k.toNat else 1 / (10 : ℚ)^(-k).toNat) * realExp ((x - k) * ofFx fxLn10)

end Sys2Proof.Machine
end

