-- ==== Sys2Proof/Machine/Level.lean ====
section
/-! DEFINITION. Levels and bins of a lane's spectra: the L16 code, bin ranges, the noise bandwidth, and the real functions
that the spec names by their mathematics (03_spectral_engine.md, R77, R80, R83, R95, R96). -/

namespace Sys2Proof.Machine

/-- 128 x 10 log10 P > c - 1/2, decided exactly for P = num/den > 0 (R83). -/
def levelAbove (num den : Nat) (c : Int) : Bool :=
  let e := 2 * c - 1
  if 0 ≤ e then decide (10^e.toNat * den^2560 < num^2560) else decide (den^2560 < 10^(-e).toNat * num^2560)

/-- The L16 code of a binary32 pattern (R83). -/
def levelCode (f : Nat) : Int :=
  let p := ofF32 f
  if p ≤ 0 then -32768 else
  ((List.range 16).reverse.foldl (fun (a : Nat) k =>
    if levelAbove p.num.toNat p.den ((a + 2^k : Nat) - 32768) then a + 2^k else a) 0 : Nat) - 32768

/-- A power as the value it counts for in a sum: zero counts as 10^-25.6 (R96). -/
def sumPower (f : Nat) : ℚ := if ofF32 f = 0 then realExp10 (-256 / 10) else ofF32 f

/-- Source samples per node period of a stream, and its sample rate in Hz (R43, R86): n_s samples per 10 ns, over D. -/
def strNs (s : State) (id : Nat) : Nat := nsOf s (if id < 6 then id else (s.ddc (id - 16)).source)
def strRate (s : State) (id : Nat) : ℚ := strNs s id * 100000000 / strDecim s id

/-- N of a lane. -/
def laneN (s : State) (c : Nat) : Nat := 2 ^ (s.lane c).run.log2n

/-- First and last bin of a lane (R95). -/
def laneLo (s : State) (c : Nat) : Int := if c < 4 then 0 else -((laneN s c / 2 : Nat) : Int)
def laneHi (s : State) (c : Nat) : Int := if c < 4 then (laneN s c / 2 : Nat) else ((laneN s c / 2 : Nat) : Int) - 1

/-- A bin range lies within the lane's bins. -/
def binsIn (s : State) (c : Nat) (k0 : Int) (n : Nat) : Bool := decide (laneLo s c ≤ k0 ∧ k0 + n - 1 ≤ laneHi s c)

/-- The binary32 P of bin k among a spectrum's bins. -/
def binOf (s : State) (c : Nat) (bins : List Nat) (k : Int) : Nat := bins.getD (k - laneLo s c).toNat 0

/-- A run of bins. -/
def binRun (s : State) (c : Nat) (bins : List Nat) (k0 : Int) (n : Nat) : List Nat :=
  (bins.drop (k0 - laneLo s c).toNat).take n

/-- ENBW of a lane's window, in bins (R77). -/
def laneEnbw (s : State) (c : Nat) : ℚ := laneN s c * (s.lane c).run.s2 / ((s.lane c).run.s1 * (s.lane c).run.s1)

/-- Delta of Table 3-5 and R209. -/
def laneDelta (s : State) (c : Nat) : ℚ :=
  if (s.lane c).run.norm then strRate s (s.lane c).run.source / laneN s c else 1 / laneEnbw s c

/-- Hop H of a lane (Table 3-2). -/
def hopOf (n overlap : Nat) : Nat := if overlap = 0 then n else if overlap = 1 then 3 * n / 4 else if overlap = 2 then n / 2 else n / 4
def laneHop (s : State) (c : Nat) : Nat := hopOf (laneN s c) (s.lane c).run.overlap

/-- Spectra per second of a lane at its configured overlap. -/
def specRate (s : State) (c : Nat) : ℚ := strRate s (s.lane c).run.source / laneHop s c

/-- Codes by which shedding lowers every ZL lane's OVERLAP (Table 3-8), and the effective code. -/
def zoomShed (s : State) : Nat := s.spec.shed - 6
def ovlEff (s : State) (c : Nat) : Nat := if c < 4 then (s.lane c).run.overlap else (s.lane c).run.overlap - zoomShed s
def hopEff (s : State) (c : Nat) : Nat := hopOf (laneN s c) (ovlEff s c)

/-- First sample of the first frame of the lane's grid that begins at or after grain g (R67). -/
def frameFrom (s : State) (c g : Nat) : Nat :=
  let n := (s.lane c).run.nextS
  n + ceilDiv (256 * g - n) (max 1 (hopEff s c)) * hopEff s c

/-- The odd lane of a pair in pair mode (R69). -/
def oddOfPair (s : State) (c : Nat) : Bool := c < 4 && c % 2 == 1 && s.pairMode (c / 2)

/-! ## Margins and the core supply (03 R101, R102) -/

/-- The margin of a path over the latest 4 µs, in 0.01 %: lanes 0 to 11, down-converters 16 to 31, the shared segment 32. -/
def marginOf (s : State) (k : Nat) : Nat := 10000 - tget 0 s.spec.gov.margins k

/-- m_min: the smallest measured margin. -/
def mMin (s : State) : Nat := 10000 - s.spec.gov.margins.foldl (fun a e => max a e.2) 0

/-- From when a condition has held. -/
def since (now : Tick) (c : Bool) (o : Option Tick) : Option Tick := if c then some (o.getD now) else none

/-- The conditions of Table 3-7 at the present tick. -/
def govTrack (s : State) : State :=
  let g := s.spec.gov
  { s with spec := { s.spec with gov := { g with
      lowFrom := since s.now (decide (3000 < mMin s)) g.lowFrom,
      shedFrom := since s.now (s.spec.vcore == 850 && decide (marginOf s 32 < 1500)) g.shedFrom,
      restFrom := since s.now (decide (3000 ≤ mMin s)) g.restFrom } } }

/-- Margins are measured: pairs of a path and its margin. -/
def measure (s : State) (ms : List (Nat × Nat)) : State :=
  govTrack { s with spec := { s.spec with gov := { s.spec.gov with
      margins := ms.foldl (fun a m => if m.1 < 12 || (16 ≤ m.1 && m.1 ≤ 32) then tput 0 a m.1 (10000 - m.2) else a) s.spec.gov.margins } } }

/-- Set the core supply: reaching or leaving 0.85 V posts GOV_CEILING with the smallest margin (R102). -/
def setSupply (s : State) (mv : Nat) : State :=
  let s1 := govTrack { s with spec := { s.spec with vcore := mv } }
  if (850 ≤ mv) = (850 ≤ s.spec.vcore) then s1 else post s1 0x0403 (pack [(1, b2n (decide (850 ≤ mv))), (7, 0), (16, mMin s)])

/-- A nonnegative rational as a ring's binary32 value rounded once. -/
def addF32 (a : Nat) (x : ℚ) : Nat := toF32 (ofF32 a + x)

end Sys2Proof.Machine
end

