-- ==== Sys2Proof/Machine/Fft.lean ====
section
/-! DEFINITION. The arithmetic of a spectrum: windows, the radix-2² pipeline, bin normalisation and the gain correction
(03_spectral_engine.md R75 to R81; 09_calibration.md R295, R296). -/

namespace Sys2Proof.Machine

/-! ## Correction values (09 R296) -/

/-- Key of an item and index in the correction set. -/
def calKey (item index : Nat) : Nat := item * 65536 + index

/-- The nominal value of an item (Table 9-2): unity gain, nothing else. -/
def calNominal (item : Nat) : Int := if item = 2 || item = 3 || item = 6 then 65536 else 0

/-- The factory value, the value in a correction set, and the value in force. -/
def calFactory (s : State) (item index : Nat) : Int := calNominal item + tget 0 s.cal.factory (calKey item index)
def calIn (s : State) (values : Tab Int) (item index : Nat) : Int := calFactory s item index + tget 0 values (calKey item index)
def calValue (s : State) (item index : Nat) : Int := calIn s s.cal.values item index

/-! ## Windows (R75 to R77) -/

/-- A built-in window (R75); β has 8 fraction bits. I0 of a real x is taken at x²/4. -/
def windowAt (w beta N n : Nat) : ℚ :=
  let c := fun (k : Nat) => realCos ((k * n : Nat) / (N : ℚ))
  match w with
  | 1 => 1 / 2 - 1 / 2 * c 1
  | 2 => 35875 / 100000 - 48829 / 100000 * c 1 + 14128 / 100000 * c 2 - 1168 / 100000 * c 3
  | 3 => 21557895 / 100000000 - 41663158 / 100000000 * c 1 + 277263158 / 1000000000 * c 2 - 83578947 / 1000000000 * c 3
         + 6947368 / 1000000000 * c 4
  | 4 =>
    let u : ℚ := 2 * n / N - 1
    let b : ℚ := beta / 256
    realI0 (b * b * (1 - u * u) / 4) / realI0 (b * b / 4)
  | _ => 1

/-- The 18-bit code of a coefficient (R75): a code below zero is clamped. -/
def windowCode (w beta N n : Nat) : Nat :=
  let x := 131072 * windowAt w beta N n
  (roundEven x.num x.den).toNat

/-- The codes of a run's window (R75, R76). -/
def windowCodes (w beta N : Nat) (user : List Nat) : List Nat :=
  if w = 0 then List.replicate N 131072 else if w = 5 then user else (List.range N).map (windowCode w beta N)

/-- S1 × 2^17 and S2 × 2^34 of a window (R77). -/
def windowSums (w beta N : Nat) (user : List Nat) : Nat × Nat :=
  let cs := windowCodes w beta N user
  (cs.sum, (cs.map (fun c => c * c)).sum)

/-! ## The transform (R78) -/

/-- A complex number of the pipeline. -/
abbrev Cx := Int × Int

def cxAdd (a b : Cx) : Cx := (a.1 + b.1, a.2 + b.2)
def cxSub (a b : Cx) : Cx := (a.1 - b.1, a.2 - b.2)

/-- Times -j: no multiplication. -/
def cxRot (a : Cx) : Cx := (a.2, -a.1)

/-- A part of a 24-bit factor: 22 fraction bits (log 50). -/
def twiddleCode (x : ℚ) : Int := let y := 4194304 * x; roundEven y.num y.den

/-- The twiddle factor e^(-j2πm/N). -/
def twiddle (N m : Nat) : Cx := (twiddleCode (realCos ((m : ℚ) / N)), -twiddleCode (realSin ((m : ℚ) / N)))

/-- A twiddle multiplication: exact, then rounded to the stage's width, a tie to even. -/
def cxMul (a w : Cx) : Cx := (roundEven (a.1 * w.1 - a.2 * w.2) 4194304, roundEven (a.1 * w.2 + a.2 * w.1) 4194304)

/-- The sequence of one branch of a radix-2² stage, multiplied by the powers e·n of the twiddle factor. -/
def branch (N e : Nat) (l : List Cx) : List Cx :=
  if e = 0 then l else (l.zipIdx).map (fun p => if p.2 = 0 then p.1 else cxMul p.1 (twiddle N (e * p.2)))

/-- Four lists interleaved: the outputs 4k, 4k + 1, 4k + 2 and 4k + 3. -/
def interleave : List Cx → List Cx → List Cx → List Cx → List Cx
  | a :: as, b :: bs, c :: cs, d :: ds => a :: b :: c :: d :: interleave as bs cs ds
  | _, _, _, _ => []

/-- The radix-2² pipeline of L stages on 2^L numbers: each butterfly is exact and grows by one bit, and each twiddle
multiplication rounds. The outputs come in their natural order. -/
def fft : Nat → List Cx → List Cx
  | 0, x => x
  | 1, x => [cxAdd (x.getD 0 (0, 0)) (x.getD 1 (0, 0)), cxSub (x.getD 0 (0, 0)) (x.getD 1 (0, 0))]
  | L + 2, x =>
    let q := 2^L
    let q0 := x.take q
    let q1 := (x.drop q).take q
    let q2 := (x.drop (2 * q)).take q
    let q3 := x.drop (3 * q)
    let a0 := q0.zipWith cxAdd q2
    let a1 := q1.zipWith cxAdd q3
    let b0 := q0.zipWith cxSub q2
    let b1 := (q1.zipWith cxSub q3).map cxRot
    interleave (fft L (a0.zipWith cxAdd a1)) (fft L (branch (4 * q) 1 (b0.zipWith cxAdd b1)))
      (fft L (branch (4 * q) 2 (a0.zipWith cxSub a1))) (fft L (branch (4 * q) 3 (b0.zipWith cxSub b1)))

/-- |X|², formed exactly and rounded to binary32. -/
def cxPower (a : Cx) : Nat := toF32 ((a.1 * a.1 + a.2 * a.2 : Int) : ℚ)

/-! ## Gain correction (R81, R295) -/

/-- The table in force for a stream's source: RESP_P of a pair, RESP_S of a routed input, CAL_IN as input 4; none for the comb and
the termination. -/
def respItem (id source p : Nat) : Option (Nat × Nat) :=
  if 4 < source then none else if id < 4 then some (4, 256 * source + p) else some (5, 256 * (id - 4) + p)

/-- R at a point of the table, in 0.001 dB. -/
def respPoint (s : State) (id source : Nat) (values : Tab Int) (p : Nat) : Int :=
  match respItem id source p with
  | some i => calIn s values i.1 i.2
  | none => 0

/-- R(f) in 0.001 dB: linear in frequency between the points at (p + 1) x 100 MHz, held beyond the first and the last. -/
def respAt (s : State) (id source : Nat) (values : Tab Int) (f : ℚ) : ℚ :=
  let y := f / 100000000 - 1
  let p := (max 0 ⌊y⌋).toNat
  if y ≤ 0 then respPoint s id source values 0
  else if 179 ≤ p then respPoint s id source values 179
  else
    let a : ℚ := respPoint s id source values p
    let b : ℚ := respPoint s id source values (p + 1)
    a + (b - a) * (y - p)

/-- The factor of bin k of an SL lane (R81): a bin above 0.4 fs takes the correction at 0.4 fs. -/
def gainFactor (s : State) (id source : Nat) (values : Tab Int) (fs f : ℚ) : ℚ :=
  realExp10 (-(respAt s id source values (min f (2 / 5 * fs))) / 10000)

/-! ## Normalisation (R80) -/

/-- Table 3-4 for a bin with |X|² as binary32, in the units of the pipeline: codes are 2^17 times the window. `fs` is the rate of
the lane's input, `g` the gain of the feeding down-converter, `ck` is c_k. -/
def normPower (zoom norm : Bool) (s1 s2 : Nat) (fs : ℚ) (g ck : Nat) (x : ℚ) : ℚ :=
  let fsq : ℚ := if zoom then 1073741824 * (g * g) else 4194304
  ck * x / (fsq * (if norm then s2 * fs else s1 * s1))

/-- The samples of a run's frame as complex numbers: 12-bit codes, or 16-bit I and Q, times the window codes (R78). -/
def windowed (zoom : Bool) (samples codes : List Nat) : List Cx :=
  samples.zipWith (fun v (c : Nat) => if zoom then (sfld v 0 16 * (c : Int), sfld v 16 16 * (c : Int)) else (sfld v 0 12 * (c : Int), 0)) codes

/-- The powers |X[k]|² of the bins of a lane, from its first bin on: 0 to N/2, or -N/2 to N/2 - 1. -/
def framePowers (zoom : Bool) (l2 : Nat) (samples codes : List Nat) : List Nat :=
  let X := (fft l2 (windowed zoom samples codes)).map cxPower
  if zoom then X.drop (2^l2 / 2) ++ X.take (2^l2 / 2) else X.take (2^l2 / 2 + 1)

end Sys2Proof.Machine
end

