-- ==== Sys2Proof/Machine/CtlOps.lean ====
section
/-! DEFINITION. The control outputs' own operations (14_aux_inputs_and_control_outputs.md, R488 to R492), which the
commands, the fatal state and the release of a session share. -/

namespace Sys2Proof.Machine

/-- YP0 is locked, so that islands 54 to 63 are clocked (Table 7-1). -/
def yp0Locked (s : State) : Bool := (s.pll 2).st == 4

/-- The hold before a step from one code to another: 2 µs when any of bits [11:6] differ, else 0.5 µs (R489). -/
def deglitchCt (a b : Nat) : Nat := if a / 64 ≠ b / 64 then 3200 else 800

/-- A phase of a range change that is over leads to the next: the new range at zero, then a major transition to the code (R490). -/
def Ctl.phase (x : Ctl) (now : Tick) : Ctl :=
  if !x.on || x.rphase = 0 || now < x.holdEnd then x
  else if x.rphase = 1 then { x with rphase := 2, range := x.newRange, holdEnd := x.holdEnd + 40000 }
  else { x with rphase := 0, hold := true, holdAt := some x.holdEnd, holdEnd := x.holdEnd + 3200 }

/-- A deglitch hold that is over leads to the latest code (R489). -/
def Ctl.step (x : Ctl) (now : Tick) : Ctl :=
  if !x.on || !x.hold || x.rphase ≠ 0 || now < x.holdEnd then x else { x with out := x.code, hold := false }

/-- An output as it stands at a tick, with the phases and the hold that are over. -/
def Ctl.elapse (x : Ctl) (now : Tick) : Ctl := ((x.phase now).phase now).step now

/-- What the pin of an output is driven to: nothing in high impedance; else its range and 10 V or 24 mA x CODE / 4,095, in V or mA (R487, R488). -/
def Ctl.pin (x : Ctl) : Option (Bool × ℚ) :=
  if !x.on then none else some (x.range, (if x.range then 24 else 10) * (if x.rphase = 0 then (x.out : ℚ) else 0) / 4095)

/-- An enabled output accepts a code at tick `now` (R489, R490, R492): it is held while a hold, a range change or a
loss of YP0 lasts, the latest one winning. -/
def Ctl.put (x : Ctl) (locked : Bool) (now : Tick) (code : Nat) : Ctl :=
  if !x.on then x
  else if !locked then { x with last := code, frozen := some code }
  else
    let y := x.elapse now
    if y.hold then { y with last := code, code := code }
    else if code = y.out then { y with last := code, code := code }
    else { y with last := code, code := code, hold := true, holdAt := some now, holdEnd := now + deglitchCt y.out code }

/-- Output n accepts a code at this tick. -/
def ctlPut (s : State) (n code : Nat) : State := s.modCtlO n (fun x => x.put (yp0Locked s) s.now code)

/-- Output n accepts a code of a command. -/
def ctlCmd (s : State) (n code : Nat) : State := (ctlPut s n code).modCtlO n (fun x => { x with cmdAt := some s.now })

/-- Output n accepts a code of a write of CTL_CODEn. In the tick of a command's code it counts as applied before it: the command's code
stands, and a hold that began in this tick is the one that the write began (R489). -/
def ctlDrw (s : State) (n code : Nat) : State :=
  let x := s.ctlO n
  if x.cmdAt ≠ some s.now then ctlPut s n code
  else if !yp0Locked s || code = x.out || (x.hold && x.holdAt ≠ some s.now) then s
  else s.setCtlO n { x with hold := true, holdAt := some s.now, holdEnd := s.now + deglitchCt x.out code }

/-- Every enabled output for which `sel` holds takes its SAFE code (R492). -/
def ctlSafe (s : State) (sel : Nat → Bool) : State :=
  (List.range 8).foldl (fun a n => if sel n && (a.ctlO n).on then ctlPut a n (a.ctlO n).safe else a) s

/-- R492: what STATE.ENGINE becoming 2 does to the control outputs. -/
def ctlFatal (s : State) : State := ctlSafe s (fun n => (s.ctlO n).fsafe)

/-- R492: release of session n: each enabled output of the session takes its SAFE code and clears DIRECT. -/
def ctlRelease (s : State) (sess : Nat) : State :=
  (List.range 8).foldl (fun a n =>
    if owns s sess 0x17 n && (a.ctlO n).on then (ctlPut a n (a.ctlO n).safe).modCtlO n (fun x => { x with direct := false })
    else a) s

/-- Timed codes that are due take effect, all at this tick (R497). -/
def ctlTimedDue (s : State) : State :=
  (List.range 8).foldl (fun a n =>
    match (a.ctlO n).timed with
    | some (t, code) => if t ≤ a.now then ctlCmd (a.modCtlO n (fun x => { x with timed := none })) n code else a
    | none => a) s

/-- CTL_WRITE commands whose tick has come complete with the time of this tick (R497). -/
def ctlTimedDone (s : State) : State :=
  (s.host.inProg.filter (fun p => p.opcode == 0x0C06 && decide (p.data.headD 0 ≤ s.now))).foldl
    (fun a p => finish a p 0 2 (stampOf a.now)) s

/-- R492: at the first tick after YP0 relocks the codes accepted meanwhile and the timed writes due are applied. -/
def ctlRelock (s : State) : State :=
  let s1 := (List.range 8).foldl (fun a n =>
    match (a.ctlO n).frozen with
    | some code => ctlPut (a.modCtlO n (fun x => { x with frozen := none })) n code
    | none => a) s
  ctlTimedDone (ctlTimedDue s1)

/-- R484: the sequencer stops for a loss of YP0, at the end of the conversion in progress; a CONTINUOUS sequence is to
resume. -/
def auxHalt (s : State) : State :=
  if !s.aux.run then s else
  if s.aux.cont then { s with aux := { s.aux with halted := true, stopReq := s.aux.inPass } }
  else if s.aux.inPass then { s with aux := { s.aux with stopReq := true } }
  else { s with aux := { s.aux with run := false, pull := 0 } }

/-- R484: stop the sequencer, at the end of the conversion in progress. -/
def auxStop (s : State) : State :=
  if !s.aux.run then s
  else if s.aux.inPass then { s with aux := { s.aux with stopReq := true, halted := false, repl := none } }
  else { s with aux := { s.aux with run := false, halted := false, pull := 0 } }

end Sys2Proof.Machine
end

