-- ==== Sys2Proof/Machine/Drift.lean ====
section
/-! DEFINITION. UTC, and the drift of calibration targets (07_clocks_and_canopy_timebase.md R249; 09_calibration.md R304). -/

namespace Sys2Proof.Machine

/-- UTC seconds, when they are valid (R249). -/
def utcNow (s : State) : Option Nat := if s.clk.timeValid then some (s.now / 1600000000) else none

/-- The largest of some changes. -/
def calDelta (l : List Int) : Int := l.foldl (fun a d => if a.natAbs < d.natAbs then d else a) 0

/-- Thirty days, in seconds. -/
def driftAge : Nat := 2592000

/-- Why an acceptance puts its target in DRIFT (R304): none, temperature, age, or an age that cannot be established. Its Canopy time counts
only in the power cycle in which it was made. -/
def driftOf (s : State) (a : Option CalAcc) : Option Nat :=
  match a with
  | none => some 2
  | some x =>
    if 100 < (s.pwr.tj - x.tj).natAbs then some 0 else
    match utcNow s, x.utc with
    | some u, some v => if v + driftAge < u then some 1 else none
    | _, _ => if !x.here then some 2 else if x.at_ / 65536 + driftAge * 1600000000 < s.now then some 1 else none

/-- The acceptances that a target's DRIFT looks at: TONE, RESPONSE and, of a pair, INTERLEAVE. -/
def driftAccs (s : State) (tgt : Nat) : List (Option CalAcc) :=
  let x := s.calT tgt
  [x.tone, x.resp] ++ (if 4 ≤ tgt then [x.ilv] else [])

/-- Why a target is in DRIFT, if it is. With the temperature sensors in disagreement every target is (Table 15-1, source 0x121F): the cause
is then the temperature, until device reset (DESIGN CHOICE, log 54). -/
def calDrift (s : State) (tgt : Nat) : Option Nat :=
  ((if s.cal.sensorBad then [0] else []) ++ (driftAccs s tgt).filterMap (driftOf s)).min?

/-- The temperature difference that CAL_DRIFT reports: the largest of the acceptances'. -/
def driftDiff (s : State) (tgt : Nat) : Int := calDelta (((driftAccs s tgt).filterMap id).map (fun a => s.pwr.tj - a.tj))

/-- A target's DRIFT follows its conditions; entering or leaving is posted (R304). -/
def driftUpdate (s : State) (tgt : Nat) : State :=
  let d := calDrift s tgt
  if d.isSome = (s.calT tgt).drift then s else
  post (s.modCalT tgt (fun x => { x with drift := d.isSome })) 0x0302
    (pack [(4, tgt), (1, b2n d.isSome), (3, d.getD 0), (16, enc 16 (driftDiff s tgt))])

/-- The temperature sensors disagree: every target is in DRIFT. -/
def driftAll (s : State) : State := (List.range 6).foldl driftUpdate { s with cal := { s.cal with sensorBad := true } }

end Sys2Proof.Machine
end

