-- ==== Sys2Proof/Machine/MemOps.lean ====
section
/-! DEFINITION. Device memory and regions: addresses, line writes, record rings (11_memory_system.md). Reads, which
can find a forced error, stand in MemRead.lean. -/

namespace Sys2Proof.Machine

/-- Size of device memory in bytes: 60 GiB (R359). -/
def devSize : Nat := 0xF00000000

/-- No handle (R374). -/
def noHandle : Nat := 0xFFFF

/-! ## Address mapping (R360) -/

/-- The quadrant of a device address. -/
def quadOf (a : Nat) : Nat := (a / 256) % 4

/-- The row of a device address within its quadrant. -/
def rowOf (a : Nat) : Nat := a / 1024 / 15

/-- The rank of its quadrant that holds a device address, before and after the retirement of rank F with watermark W. -/
def rankOf (s : State) (a : Nat) : Nat :=
  let q := s.quad (quadOf a)
  let r := rowOf a
  let p := a / 1024 % 15
  let sp := r % 16
  let d := if p < sp then p else p + 1
  if q.retired ≠ 0xFF ∧ d = q.retired ∧ r < q.wmark then sp else d

/-- The global rank number (R358). -/
def globalRank (s : State) (a : Nat) : Nat := 16 * quadOf a + rankOf s a

/-- The channel of a device address. -/
def channelOf (s : State) (a : Nat) : Nat := 8 * quadOf a + rankOf s a % 8

/-- The address of a unit within its rank. -/
def rankAddr (a : Nat) : Nat := rowOf a * 256 + a % 256

/-! ## Poison (R366, R367) -/

/-- The line of an address. -/
def lineOf (a : Nat) : Nat := a / 64 * 64

/-- Insert into an ascending list without repeats. -/
def insertAsc (x : Nat) : List Nat → List Nat
  | [] => [x]
  | y :: r => if x < y then x :: y :: r else if x = y then y :: r else y :: insertAsc x r

/-- A line is poisoned. -/
def isPoisoned (s : State) (a : Nat) : Bool := s.mem.poison.contains (lineOf a) || s.mem.poisonX.contains (lineOf a)

/-- Mark a line poisoned in place, and list it while the list has room (R365, R367). -/
def poisonLine (s : State) (a : Nat) : State :=
  let l := lineOf a
  if isPoisoned s a then s
  else if s.mem.poison.length < 65536 then { s with mem := { s.mem with poison := insertAsc l s.mem.poison } }
  else { s with mem := { s.mem with poisonX := insertAsc l s.mem.poisonX, listFull := true } }

/-- A full-line write clears a line's poison and any forced corruption (R367, R510). -/
def clearLine (s : State) (l : Nat) : State :=
  { s with mem := { s.mem with poison := s.mem.poison.filter (· ≠ l), poisonX := s.mem.poisonX.filter (· ≠ l),
                               forced := tput 0 s.mem.forced l 0 } }

/-- Clear the poison of every line of a range (R376). -/
def clearRange (s : State) (a n : Nat) : State :=
  let out := fun l => decide (l < a) || decide (a + n ≤ l)
  { s with mem := { s.mem with poison := s.mem.poison.filter out, poisonX := s.mem.poisonX.filter out,
                               forced := s.mem.forced.filter (fun e => out e.1) } }

/-! ## Writes -/

/-- Write bytes that lie within one line (R363, R367): a full line clears poison, part of a poisoned line is discarded
and counted. -/
def writeInLine (s : State) (a : Nat) (bs : List Byte) : State :=
  let s1 := perfAdd s 7 (quadOf a) 1
  if bs.length = 64 then
    let s2 := clearLine s1 (lineOf a)
    { s2 with mem := { s2.mem with mem := wrBytes s2.mem.mem a bs } }
  else if isPoisoned s a then { s1 with mem := { s1.mem with poisonWr := satAdd 16 s1.mem.poisonWr 1 } }
  else { s1 with mem := { s1.mem with mem := wrBytes s1.mem.mem a bs } }

/-- Write bytes to device memory, line by line; `n` bounds the number of lines. -/
def memWriteN : Nat → State → Nat → List Byte → State
  | 0, s, _, _ => s
  | n + 1, s, a, bs =>
    if bs.isEmpty then s else
    let k := 64 - a % 64
    memWriteN n (writeInLine s a (bs.take k)) (a + k) (bs.drop k)

/-- Write bytes to device memory. -/
def memWrite (s : State) (a : Nat) (bs : List Byte) : State := memWriteN (bs.length / 64 + 2) s a bs

/-! ## Panics (R372, R373) -/

/-- A real-time port's buffer crosses its panic level: PANICS counts every panic. -/
def panicRaise (s : State) (port inst : Nat) : State :=
  let k := 8 * port + inst
  if (tget none s.mem.panic k).isSome then s
  else { s with mem := { s.mem with panic := tput none s.mem.panic k (some s.now), panics := sat32 s.mem.panics } }

/-! ## Regions (R374 to R377) -/

/-- A region exists under a handle. -/
def regLive (s : State) (h : Nat) : Bool := decide (h < 4096) && (s.reg h).size != 0

/-- The calling session owns the region named (R374). -/
def regOwned (s : State) (sess h : Nat) : Bool := regLive s h && (s.reg h).owner == sess

/-- An offset and length run past the end of the region (R374, R11). -/
def regPast (s : State) (h off len : Nat) : Bool := decide ((s.reg h).size < off + len)

/-- A region that is a record ring, or a capture ring (R377). -/
def isRecRing (s : State) (h : Nat) : Bool := regLive s h && (s.reg h).kind == 1
def isCapRing (s : State) (h : Nat) : Bool := regLive s h && (s.reg h).kind == 2

/-- Checks of a command that names an owned record ring: BUSY unless owned, INVALID_PARAM unless a record ring. -/
def ringChecks (s : State) (sess h : Nat) : List (Bool × Nat) :=
  [(!regOwned s sess h, stBusy), (!isRecRing s h, stInvalid)]

/-- A region returns to the pool (R376): its range is free and not yet zeroed, and its poison is cleared. -/
def regFree (s : State) (h : Nat) : State := (clearRange s (s.reg h).addr (s.reg h).size).setReg h {}

/-- Write bytes into a region at an offset. -/
def regWrite (s : State) (h off : Nat) (bs : List Byte) : State := memWrite s ((s.reg h).addr + off) bs

/-- The unit number under which a command waits for the end of its transfer. -/
def transferWait : Nat := 0xDA7A

/-- What a command keeps that waits for the end of its transfer: how it then completes (256 × STATUS + RLEN, and the result) and what is
written where. -/
def transferData (status rlen result h off : Nat) (bs : List Byte) : List Nat := [256 * status + rlen, result, h, off] ++ bs.map BitVec.toNat

/-- A command copies bytes into a region and runs on until the transfer ends (R464): the bytes are then written, and it completes with a
result of `rlen` 8-byte units. -/
def copyOut (s : State) (h off : Nat) (bs : List Byte) (rlen result : Nat) : Reply := .laterR s transferWait (transferData 0 rlen result h off bs) [h]

/-- A panic is raised (R27): Grove cores, the control processor and non-streaming DMA receive no memory cycles. -/
def panicUp (s : State) : Bool := !s.mem.panic.isEmpty

/-! ## DMA requests (R406) -/

/-- A pulse line occurs: every channel whose active descriptor waits on it sets its pending bit, or merges the pulse with
one already set (R406, R407). -/
def dmaPulse (s : State) (line : Nat) : State :=
  (s.move.chans.filter (fun e => e.2.on && e.2.mode != 2 &&
      e.2.active.any (fun d => bit d.bits 164 && fld d.bits 168 6 == line))).foldl (fun a e =>
    a.modDma e.1 (fun d => if d.reqPend then { d with reqMerge := sat32 d.reqMerge } else { d with reqPend := true })) s

/-! ## Record rings (R378, R379) -/

/-- Fill of a record ring. -/
def ringFill (s : State) (h : Nat) : Nat := (s.reg h).wpos - (s.reg h).rpos

/-- Whether a record of `n` bytes has room. -/
def ringRoom (s : State) (h n : Nat) : Bool := decide (ringFill s h + n ≤ (s.reg h).size)

/-- MEM_RING_HIGH when the fill rises to the high-water level and the level is armed (R379). -/
def ringHigh (s : State) (h : Nat) : State :=
  let r := s.reg h
  if r.hiwat ≠ 0 && r.hiArmed && decide (r.hiwat * r.size ≤ 256 * ringFill s h) then
    post (s.setReg h { r with hiArmed := false }) 0x0A08 (pack [(64, h), (64, ringFill s h)])
  else s

/-- A drop at a full ring adds 1 to LOST, which the end of the period reports (R379). -/
def ringDrop (s : State) (h : Nat) : State :=
  s.modReg h (fun r => { r with lost := sat32 r.lost, lostPer := r.lostPer.add s.now })

/-- Write one record: from WPOS mod SIZE, wrapping past the end; WPOS advances after the whole record (R378). -/
def ringPut (s : State) (h : Nat) (bs : List Byte) : State :=
  let r := s.reg h
  let o := r.wpos % r.size
  let k := r.size - o
  let s1 := memWrite (memWrite s (r.addr + o) (bs.take k)) r.addr (bs.drop k)
  ringHigh (s1.modReg h (fun x => { x with wpos := x.wpos + bs.length, records := x.records + 1,
                                           recs := x.recs ++ [bs.length] })) h

/-- Write a record, or drop it at a full ring (R379); the flag says whether it was written. -/
def ringWrite (s : State) (h : Nat) (bs : List Byte) : State × Bool :=
  if ringRoom s h bs.length then (ringPut s h bs, true) else (ringDrop s h, false)

/-- What the staging buffer drains next: SUSPECT where the read of it met an uncorrectable error (Table 11-5). -/
def drainFlag (s : State) : Nat := if s.mem.drainBad then 32 else 0

/-- A grain or record has been drained. -/
def drained (s : State) : State := { s with mem := { s.mem with drainBad := false } }

/-- Drop from a list of record lengths those that `n` consumed bytes cover. -/
def dropRecs : List Nat → Nat → List Nat
  | [], _ => []
  | x :: r, n => if n = 0 then x :: r else if x ≤ n then dropRecs r (n - x) else (x - n) :: r

/-- RPOS advances; MEM_RING_HIGH is armed again once the fill is below half its level (R379, R380). -/
def ringAck (s : State) (h rpos : Nat) : State :=
  let r := s.reg h
  let fill := r.wpos - rpos
  s.setReg h { r with rpos := rpos, recs := dropRecs r.recs (rpos - r.rpos),
                      hiArmed := r.hiArmed || decide (512 * fill < r.hiwat * r.size) }

end Sys2Proof.Machine
end

