-- ==== Sys2Proof/Machine/GroveOps.lean ====
section
/-! DEFINITION. Grove cores, barriers and feeds: registers, the exposed pipeline, the address space, the hand-over and
what the rows of the cluster share (10_grove_dsp_cluster.md). -/

namespace Sys2Proof.Machine

/-! ## Registers (R322, R325) -/

/-- The bank in use. -/
def GCore.bank (x : GCore) : Nat := b2n x.inh

def GCore.rdG (x : GCore) (b i : Nat) : Word := tget 0 (if b = 0 then x.g0 else x.g1) i
def GCore.rdX (x : GCore) (b i : Nat) : Word := tget 0 (if b = 0 then x.x0 else x.x1) i
def GCore.rdM (x : GCore) (b i : Nat) : Word := tget 0 (if b = 0 then x.m0 else x.m1) i
def GCore.wrG (x : GCore) (b i : Nat) (v : Word) : GCore :=
  if b = 0 then { x with g0 := tput 0 x.g0 i v } else { x with g1 := tput 0 x.g1 i v }
def GCore.wrX (x : GCore) (b i : Nat) (v : Word) : GCore :=
  if b = 0 then { x with x0 := tput 0 x.x0 i v } else { x with x1 := tput 0 x.x1 i v }
def GCore.wrM (x : GCore) (b i : Nat) (v : Word) : GCore :=
  if b = 0 then { x with m0 := tput 0 x.m0 i v } else { x with m1 := tput 0 x.m1 i v }

/-- Where an accumulator of a bank is held: A0-A5 are not banked. -/
def accKey (b i : Nat) : Nat := if i < 6 then i else i + 8 * b

/-- One part of an accumulator, signed. -/
def GCore.rdAcc (x : GCore) (b i : Nat) (im : Bool) : Int := (tget 0 (if im then x.aim else x.are) (accKey b i)).toInt
def GCore.wrAcc (x : GCore) (b i : Nat) (im : Bool) (v : BitVec 48) : GCore :=
  if im then { x with aim := tput 0 x.aim (accKey b i) v } else { x with are := tput 0 x.are (accKey b i) v }

/-- Table 10-5: STAT as read. -/
def GCore.stat (x : GCore) : Nat :=
  pack [(1, b2n x.sat), (1, b2n x.aov), (1, b2n x.coll), (1, b2n x.brk), (1, b2n x.inh), (3, 0), (3, x.lastInt)]

/-- A register spec names a register (R322). -/
def specOk (sp : Nat) : Bool := sp / 16 == 0 || ((sp / 16 == 1 || sp / 16 == 2) && decide (sp % 16 < 8))

/-- Read by register spec. -/
def GCore.rdSpec (x : GCore) (b sp : Nat) : Word :=
  if sp / 16 = 0 then x.rdG b (sp % 16) else if sp / 16 = 1 then x.rdX b (sp % 16) else x.rdM b (sp % 16)

/-- Write by register spec. -/
def GCore.wrSpec (x : GCore) (b sp : Nat) (v : Word) : GCore :=
  if sp / 16 = 0 then x.wrG b (sp % 16) v else if sp / 16 = 1 then x.wrX b (sp % 16) v else x.wrM b (sp % 16) v

/-- The destination a register spec names. -/
def specDest (b sp : Nat) : Dest :=
  if sp / 16 = 0 then .g b (sp % 16) else if sp / 16 = 1 then .x b (sp % 16) else .m b (sp % 16)

/-! ## The pipeline (R330) -/

/-- A store lands in a byte memory: plain, bit-set alias or bit-clear alias (R384). -/
def storeInto (m : Mem) (a bytes kind v : Nat) : Mem :=
  let old := ofBytes (rdBytes m a bytes)
  let w := v % 2^(8 * bytes)
  wrBytes m a (toBytes (if kind = 0 then w else if kind = 1 then old ||| w else old &&& (2^(8 * bytes) - 1 - w)) bytes)

/-- A write to a special register takes effect (Table 10-4). -/
def GCore.wrSr (x : GCore) (n : Nat) (v : Word) : GCore :=
  match n with
  | 0 => { x with sat := x.sat && !v.getLsbD 0, aov := x.aov && !v.getLsbD 1, coll := x.coll && !v.getLsbD 2, brk := x.brk && !v.getLsbD 3 }
  | 1 => { x with ien := v &&& 0x800000FF }
  | 2 => { x with ipend := x.ipend &&& ~~~(v.setWidth 8) }
  | 3 => { x with epc := v }
  | 7 => { x with tcmpl := v }
  | 8 => { x with tcmph := v, armed := true }
  | 9 => { x with ivec := v }
  | _ => x

/-- One outstanding write lands. -/
def GCore.land (x : GCore) (w : PendW) : GCore :=
  match w.dest with
  | .g b i => x.wrG b i (BitVec.ofNat 32 w.val)
  | .x b i => x.wrX b i (BitVec.ofNat 32 w.val)
  | .m b i => x.wrM b i (BitVec.ofNat 32 w.val)
  | .acc b i im => x.wrAcc b i im (BitVec.ofNat 48 w.val)
  | .sr n => x.wrSr n (BitVec.ofNat 32 w.val)
  | .mem a bytes kind => { x with spad := storeInto x.spad a bytes kind w.val }

/-- Every outstanding write that an instruction at issue position `p` sees lands, in issue order. -/
def GCore.settle (x : GCore) (p : Nat) : GCore :=
  (x.pend.filter (fun w => decide (w.pos ≤ p))).foldl GCore.land { x with pend := x.pend.filter (fun w => decide (p < w.pos)) }

/-- Every outstanding write lands, by position and then in issue order. -/
def GCore.flush (x : GCore) : GCore := (List.range 6).foldl (fun y k => y.settle (x.issued + k)) x

/-- The instruction at the present position writes a destination with latency `L`. -/
def GCore.wr (x : GCore) (L : Nat) (d : Dest) (v : Nat) : GCore := { x with pend := x.pend ++ [⟨x.issued + L, d, v⟩] }

/-- The scratchpad as its second port reads it: every store issued is in it. -/
def GCore.padView (x : GCore) : Mem :=
  ((x.pend.filter (fun w => match w.dest with | .mem _ _ _ => true | _ => false)).foldl GCore.land x).spad

/-- The accumulator part that a MAC with CL = 0 takes: forwarded from the latest outstanding write to it (R330). -/
def GCore.accIn (x : GCore) (b i : Nat) (im : Bool) : Int :=
  match (x.pend.filter (fun w => w.dest == .acc b i im)).getLast? with
  | some w => (BitVec.ofNat 48 w.val).toInt
  | none => x.rdAcc b i im

/-! ## The address space (Table 10-1, R319) -/

/-- The session that owns a core's grove, as owner + 1. -/
def coreOwner (s : State) (n : Nat) : Nat := s.ownerOf (0x0F * 65536 + n / 8)

/-- A commons byte offset lies in a run of the core's session (R319, R387). -/
def commonsOwned (s : State) (n off : Nat) : Bool :=
  s.mem.commons.any (fun r => decide (r.1 ≤ off / 4096 ∧ off / 4096 < r.1 + r.2.1) && r.2.2 + 1 == coreOwner s n)

/-- A range of core addresses lies in the core's scratchpad, or in commons runs of its session. -/
def coreRange (s : State) (n a len : Nat) : Bool :=
  if a < 0x40000 then decide (a + len ≤ 0x40000)
  else decide (0x1000000 ≤ a ∧ a + len ≤ 0x2000000) &&
    (List.range (len / 4096 + 2)).all (fun k => len ≤ k * 4096 - a % 4096 || commonsOwned s n (min (a - 0x1000000 + len - 1) (a - 0x1000000 + 4096 * k)))

/-- Where an access of a core goes. -/
inductive Access where
  | pad (off kind : Nat)
  | com (off kind : Nat)
  | bad
  deriving DecidableEq, Repr

/-- Resolve a core address for an access of `bytes` bytes, through an alias or not (Table 10-1). -/
def resolve (s : State) (n a bytes : Nat) (alias_ : Bool) : Access :=
  if a % bytes ≠ 0 then .bad
  else if a < 0xC0000 then (if a < 0x40000 || alias_ then .pad (a % 0x40000) (a / 0x40000) else .bad)
  else if 0x1000000 ≤ a && a < 0x4000000 then
    (if (a < 0x2000000 || alias_) && commonsOwned s n (a % 0x1000000) then .com (a % 0x1000000) (a / 0x1000000 - 1) else .bad)
  else .bad

/-! ## The commons (R320) -/

/-- A posted store completes. -/
def completePosted (s : State) (p : PostedW) : State :=
  { s with grove := { s.grove with commons := storeInto s.grove.commons p.addr p.bytes p.kind p.val } }

/-- The first `k` posted stores of a core complete, in issue order. -/
def drainPosted (s : State) (n k : Nat) : State :=
  let x := s.core n
  ((x.posted.take k).foldl completePosted s).setCore n { x with posted := x.posted.drop k }

/-- Before the commons are read, posted stores of each core may have completed: how many is a free value (log 2). -/
def settlePosted (s : State) : State :=
  s.grove.cores.foldl (fun s e =>
    let x := s.core e.1
    if x.posted.isEmpty then s else
    let d := drawFree 32 s
    drainPosted d.2 e.1 (d.1 % (x.posted.length + 1))) s

/-! ## The two ports (R321, R382 to R384)

A slot is the Canopy tick of the rows, and the later port is that of the later row (DESIGN CHOICE, log 44). -/

/-- Two accesses through different ports are a read and a write of one word in one slot (R383). -/
def PortUse.clashes (u v : PortUse) : Bool :=
  u.at_ == v.at_ && u.write != v.write && (u.lo < 0x1000000) == (v.lo < 0x1000000) && (u.core == v.core || decide (0x1000000 ≤ u.lo)) &&
  decide (u.lo / 4 ≤ (v.lo + v.len - 1) / 4 ∧ v.lo / 4 ≤ (u.lo + u.len - 1) / 4)

/-- The value that an outstanding write of a core is to put becomes a free value. -/
def freeDest (s : State) (n : Nat) (d : Nat × Dest) : State :=
  let r := drawFree 64 s
  r.2.modCore n (fun x => { x with pend := x.pend.map (fun w => if w.pos = d.1 && w.dest == d.2 then { w with val := r.1 } else w) })

/-- An access through port 2: a word that port 1 has read in the slot was undefined data when port 2 writes it, and each such word counts in
the feed's FCOLL, as each word read that port 1 has stored to does (R321, R383). -/
def portTwo (s : State) (u : PortUse) : State :=
  let hits := s.grove.use1.filter (fun v => v.clashes u)
  let s1 := if u.write then (hits.flatMap (fun v => v.dests.map (fun d => (v.core, d)))).foldl (fun a e => freeDest a e.1 e.2) s else s
  let s2 := if u.feed < 32 then hits.foldl (fun a _ => a.modFeed u.feed (fun f => { f with fcoll := sat32 f.fcoll })) s1 else s1
  { s2 with grove := { s2.grove with use2 := u :: s2.grove.use2.filter (fun v => v.at_ == s.now) } }

/-- The word of a copy that port 2 read and port 1 then stored to is undefined data where it was copied to. -/
def freeCopy (s : State) (u v : PortUse) : State :=
  let r := drawFree 32 s
  memWrite r.2 (u.dst + (v.lo / 4 * 4 - u.lo)) (toBytes r.1 4)

/-- Accesses through port 1 by core n: its access receives BUSY where port 2 came first, which sets STAT.COLL (R321, R383). -/
def portOne (s : State) (n : Nat) (us : List PortUse) : State :=
  let late := fun (v : PortUse) => s.grove.use2.filter (fun u => u.clashes v)
  let s1 := if us.any (fun v => !(late v).isEmpty) then s.modCore n (fun x => { x with coll := true }) else s
  let s2 := (us.filter (fun v => v.write)).foldl (fun a v => (late v).foldl (fun b u => freeCopy b u v) a) s1
  let s3 := if us.any (fun v => !v.write && !(late v).isEmpty) then { s2 with freeNo := s2.freeNo + 65536 } else s2
  { s3 with grove := { s3.grove with use1 := s3.grove.use1.filter (fun v => v.at_ == s.now) ++ us } }

/-- The word, or part of one, that port 1 reads at a core address: undefined data where port 2 has written it in the slot. -/
def portRead (s : State) (n a bytes stored : Nat) : Nat :=
  if s.grove.use2.any (fun u => u.clashes { at_ := s.now, write := false, core := n, lo := a, len := bytes }) then
    fld (Config.free 32 (s.freeNo + a / 4 % 65536)).toNat (8 * (a % 4)) (8 * bytes)
  else stored

/-- The word at a scratchpad offset as port 1 reads it. -/
def padRead (s : State) (n : Nat) (x : GCore) (off bytes : Nat) : Nat := portRead s n off bytes (ofBytes (rdBytes x.spad off bytes))

/-! ## Barriers (R341) -/

/-- Release a core that waits at group k. -/
def barRelease (s : State) (k n : Nat) (brk : Bool) : State :=
  s.modCore n (fun x => { x with st := if x.stall = 4 then 1 else x.st, stall := if x.stall = 4 then 0 else x.stall,
                                 brk := x.brk || brk, barWait := x.barWait &&& (255 - 2^k) })

/-- Break a group because core n stopped: every waiting member but n is released with BRK, and GROVE_BAR_BROKEN is
posted. The cores released are named. -/
def barBreak (s : State) (k n cause : Nat) : State × List Nat :=
  let b := s.bar k
  if !b.on || !bit b.members n || b.broken then (s, []) else
  let w := (maskBits 64 b.arrived).filter (· ≠ n)
  let s1 := w.foldl (fun s m => barRelease s k m true) (s.setBar k { b with arrived := 0, broken := true })
  (post s1 0x0904 (pack [(3, k), (5, 0), (6, n), (2, 0), (4, cause)]), w)

/-! ## Stops (R340, R350) -/

/-- Source k of a core in its grove's fault group. -/
def groveSrc (n k : Nat) : Nat := (0x13 + n / 8) * 256 + 6 * (n % 8) + k

/-- STATE after a stop with a cause. -/
def stopState (cause : Nat) : Nat := if cause = 0 then 3 else if cause ≤ 4 then 4 else 0

/-- A core stops: issued instructions retire, GROVE_HALT is posted, its barrier groups break. The members released by
breaking are named. -/
def stopCore (s : State) (n cause faddr : Nat) : State × List Nat :=
  let s1 := drainPosted (s.modCore n GCore.flush) n (s.core n).posted.length
  let s2 := s1.modCore n (fun x => { x with st := stopState cause, cause := cause, faddr := faddr, stall := 0, slots := 0, rep := 0,
                                            barWait := 0, stopReq := false })
  let s3 := post s2 0x0901 (pack [(6, n), (2, 0), (4, cause), (20, 0), (32, (s2.core n).pc), (32, faddr)])
  (List.range 8).foldl (fun a k => let r := barBreak a.1 k n cause; (r.1, a.2 ++ r.2)) (s3, [])

/-! ## Interrupts (R333 to R337) -/

/-- Set a source's IPEND bit. -/
def setIpend (s : State) (n k : Nat) : State := s.modCore n (fun x => { x with ipend := x.ipend ||| BitVec.ofNat 8 (2^k) })

/-- Pending enabled sources. -/
def GCore.pendEn (x : GCore) : Nat := (x.ipend &&& x.ien.setWidth 8).toNat

/-- The core is at an interruptible point (R334). -/
def GCore.interruptible (x : GCore) : Bool :=
  x.rep == 0 && x.slots == 0 && (x.stall == 0 || x.stall == 3) && !x.inh && (x.st == 1 || x.st == 2) && x.liveIss

/-- Special-register writes of a stalled core have taken effect (R330). -/
def GCore.srSettle (x : GCore) : GCore :=
  if x.stall = 0 then x else
  let sr := fun (w : PendW) => match w.dest with | .sr _ => true | _ => false
  (x.pend.filter sr).foldl GCore.land { x with pend := x.pend.filter (fun w => !sr w) }

/-- A hand-over takes place at the present tick, so that no live instruction issues (R334): on a core whose outstanding writes are settled. -/
def GCore.handDue (x : GCore) : Bool := x.ien.getLsbD 31 && x.pendEn != 0 && x.interruptible

/-- Stage a write into bank 1 (R336). -/
def stageWrite (s : State) (n sp v : Nat) : State := s.modCore n (fun x => { x with staged := x.staged ++ [(sp, v, s.now)] })

/-- The hand-over at the present tick (R334). -/
def GCore.handOver (x : GCore) (now : Tick) : GCore :=
  let y := x.flush
  let z := (y.staged.filter (fun e => decide (e.2.2 < now))).foldl (fun c e => c.wrSpec 1 e.1 (BitVec.ofNat 32 e.2.1)) y
  let k := (maskBits 8 y.pendEn).headD 0
  { z with staged := y.staged.filter (fun e => decide (now ≤ e.2.2)), epc := BitVec.ofNat 32 y.pc, lastInt := k,
           ipend := y.ipend &&& ~~~(BitVec.ofNat 8 (2^k)), inh := true, pc := y.ivec.toNat, st := 1, stall := 0 }

/-! ## Feeds (R342 to R347) -/

/-- Fields of Table 10-14 of a feed. -/
def Feed.slot (f : Feed) : Nat := fld f.p 14 2
def Feed.stage (f : Feed) : Bool := bit f.p 16
def Feed.f32 (f : Feed) : Bool := bit f.p 17
def Feed.packed (f : Feed) : Bool := bit f.p 18
def Feed.source (f : Feed) : Nat := fld f.p 24 8
def Feed.base (f : Feed) : Nat := fld f.p 32 32
def Feed.nbuf (f : Feed) : Nat := fld f.p 64 16
def Feed.gpb (f : Feed) : Nat := fld f.p 80 8
def Feed.hbase (f : Feed) : Nat := fld f.p 128 32
def Feed.grainLen (f : Feed) : Nat := if f.packed then 1024 else 1032
def Feed.blk (f : Feed) : Nat := if f.kind = 0 then f.gpb * f.grainLen else fld f.p 96 24
def Feed.decim (f : Feed) : Nat := fld f.p 208 17
def Feed.handle (f : Feed) : Nat := fld f.p 240 16

/-- The core address of the block a counter value names. -/
def Feed.blockAt (f : Feed) (j : Nat) : Nat := f.base + j % max 1 f.nbuf * f.blk

/-- A block is free (in-feed). -/
def Feed.free (f : Feed) : Bool := decide ((f.feedCnt - f.coreCnt).toNat < f.nbuf)

/-- Blocks handed over and not yet written out (out-feed). -/
def Feed.handed (f : Feed) : Nat := (f.coreCnt - f.feedCnt).toNat

/-- Port 2 writes bytes at an address of core n's scratchpad, or of the commons; `i` is the feed, 32 another user of the port. -/
def feedWrite (s : State) (i n a : Nat) (bs : List Byte) : State :=
  let s1 := if a < 0x40000 then s.modCore n (fun x => { x with spad := wrBytes x.padView a bs,
                                                               pend := x.pend.filter (fun w => match w.dest with | .mem _ _ _ => false | _ => true) })
    else { s with grove := { s.grove with commons := wrBytes s.grove.commons (a - 0x1000000) bs } }
  portTwo s1 { at_ := s.now, write := true, core := n, lo := a, len := bs.length, feed := i }

/-- Port 2 reads bytes at a core address to copy them to device address `dst`; a word that port 1 stores to in the slot is a free value. -/
def feedRead (s : State) (i n a len dst : Nat) : List Byte × State :=
  let bs := if a < 0x40000 then rdBytes (s.core n).padView a len else rdBytes s.grove.commons (a - 0x1000000) len
  let u : PortUse := { at_ := s.now, write := false, core := n, lo := a, len := len, feed := i, dst := dst }
  let hits := s.grove.use1.filter (fun v => v.clashes u)
  if hits.isEmpty then (bs, portTwo s u)
  else
    let free := fun k => (Config.free 32 (s.freeNo + k)).toNat
    let bad := fun o => hits.any (fun v => decide (v.lo / 4 ≤ (a + o) / 4 ∧ (a + o) / 4 ≤ (v.lo + v.len - 1) / 4))
    (bs.zipIdx.map (fun e => if bad e.2 then BitVec.ofNat 8 (free (e.2 / 4) / 256 ^ (e.2 % 4)) else e.1),
     portTwo { s with freeNo := s.freeNo + len / 4 + 1 } u)

/-- FEED advances: the core's interrupt, at once or one tick after staging the block's address (R343, R336). -/
def feedAdvance (s : State) (i : Nat) : State :=
  let f := s.feed i
  let s1 := s.setFeed i { f with feedCnt := f.feedCnt + 1 }
  if f.stage then
    (stageWrite s1 f.core (16 + 4 + f.slot) (f.blockAt f.feedCnt.toNat)).modCore f.core
      (fun x => { x with raiseAt := x.raiseAt ++ [(2 + f.slot, s.now + 1)] })
  else setIpend s1 f.core (2 + f.slot)

/-- Post GROVE_FEED_GAP with what a feed is missing, if anything. -/
def feedGapPost (s : State) (i : Nat) : State :=
  let f := s.feed i
  if f.missN = 0 && f.missF = 0xFFFFFFFFFFFF then s else
  let s1 := s.setFeed i { f with missN := 0, missF := 0xFFFFFFFFFFFF, missL := 0xFFFFFFFFFFFF }
  if f.kind = 0 then post s1 0x0903 (pack [(5, i), (2, 0), (1, 0), (8, f.source), (48, f.missF), (48, f.missL)])
  else post s1 0x0903 (pack [(5, i), (2, 1), (1, 0), (8, f.source), (96, 0), (32, f.missN)])

/-- Table 10-11: the header of the open block. -/
def Feed.header (f : Feed) (short : Bool) : Nat :=
  pack [(8, f.source), (6, f.blkFl), (1, b2n short), (1, 0), (8, f.blkN), (8, 0), (48, f.blkIdx), (48, f.blkMF), (48, f.blkML),
    (32, f.feedCnt.toNat), (48, 0)]

/-- The open block closes: its header is written after its data and FEED advances. -/
def feedClose (s : State) (i : Nat) (short : Bool) : State :=
  let f := s.feed i
  if !f.blkOpen then s else
  let s1 := feedWrite s i f.core (f.hbase + 32 * (f.feedCnt.toNat % max 1 f.nbuf)) (toBytes (f.header short) 32)
  feedAdvance (s1.setFeed i { f with blkOpen := false, blkN := 0, blkFl := 0, lastIdx := f.blkIdx }) i

/-- A grain's 1,032 bytes in device memory or in a block: samples, then its tag (R89, R23). -/
def tagBytes (id n flags : Nat) : List Byte := toBytes (pack [(48, n), (6, flags), (2, 0), (8, id)]) 8

/-- A DDC grain arrives at a kind-0 feed (R345, R347). -/
def feedGrain (s : State) (i id n flags : Nat) (data : List Byte) : State :=
  let f := s.feed i
  if !f.on || f.kind ≠ 0 || f.closing || f.source ≠ id || n < f.first then s
  else if !f.blkOpen && !f.free then
    s.setFeed i { f with dropped := sat32 f.dropped, gapPend := true,
                         missF := if f.missF = 0xFFFFFFFFFFFF then n % 2^48 else f.missF, missL := n % 2^48 }
  else
    let fl := if f.gapPend then flags ||| 16 else flags
    let f1 := if f.blkOpen then f else { f with blkOpen := true, blkN := 0, blkIdx := n % 2^48, blkFl := 0, blkMF := f.missF, blkML := f.missL }
    let s1 := feedGapPost (s.setFeed i { f1 with blkN := f1.blkN + 1, blkFl := f1.blkFl ||| fl, gapPend := false }) i
    let s2 := feedWrite s1 i f.core (f1.blockAt f1.feedCnt.toNat + f1.blkN * f1.grainLen)
      (if f.packed then data else data ++ tagBytes id n fl)
    if f1.blkN + 1 ≥ f.gpb then feedClose s2 i false else s2

/-- The stream of a kind-0 feed stops, or begins a new epoch other than by rollover (R345, R29). -/
def feedEpochEnd (s : State) (i : Nat) : State :=
  let f := s.feed i
  if !f.on || f.kind ≠ 0 then s else
  (feedGapPost (feedClose s i true) i).modFeed i (fun f => { f with gapPend := false })

/-- A spectrum of its lane arrives at a kind-1 feed: `mk` makes the record from its FLAGS and SEQ (R345, R99). -/
def feedSpectrum (s : State) (i first flags : Nat) (mk : Nat → Nat → List Byte) : State :=
  let f := s.feed i
  if !f.on || f.kind ≠ 1 || first < f.first then s
  else if f.dec + 1 < f.decim then s.setFeed i { f with dec := f.dec + 1 }
  else if !f.free then s.setFeed i { f with dec := 0, dropped := sat32 f.dropped, missN := f.missN + 1, gapPend := true }
  else
    let fl := if f.gapPend then flags ||| 16 else flags
    let s1 := feedGapPost (s.setFeed i { f with dec := 0, gapPend := false, lastIdx := first }) i
    feedAdvance (feedWrite s1 i f.core (f.blockAt f.feedCnt.toNat) (mk fl (f.feedCnt.toNat % 256))) i

/-- A feed ends: what it holds partly filled is discarded, and a gap not yet posted is (R345). -/
def feedOff (s : State) (i : Nat) : State :=
  (feedGapPost s i).modFeed i (fun f => { f with on := false, closing := false, blkOpen := false, gapPend := false })

/-- GROVE_SET_FEED with ENABLE = 0 (R345): a kind-3 feed first writes out every block handed over. -/
def feedDisable (s : State) (i : Nat) : State :=
  let f := s.feed i
  if !f.on then s
  else if f.kind = 3 && f.handed ≠ 0 then s.setFeed i { f with closing := true }
  else feedOff s i

end Sys2Proof.Machine
end

