-- ==== Sys2Proof/Machine/AcqOps.lean ====
section
/-! DEFINITION. Acquisition units: states, EVT_OUT, capture slots, triggers, the combiner and the trigger terms
(04_triggers_and_acquisition.md). -/

namespace Sys2Proof.Machine

/-! ## EVT_OUT (R147 to R150) -/

/-- Sources 0, 1 and 3 are pulses (R148). -/
def pulseSource (src : Nat) : Bool := src == 0 || src == 1 || src == 3

/-- The level of a pin (R147, R148, R502): a disabled pin is low; an enabled one idles at its inactive level. -/
def pinLevel (s : State) (x : EvtOut) : Bool :=
  if !x.on then false
  else
    let active := !x.held &&
      (if pulseSource x.source then x.active else if x.source = 2 then (s.au x.au).st == 2 else true)
    active != x.pol

/-- Drive a pin at its level. -/
def drivePin (s : State) (n : Nat) : State := s.modPin n (fun x => { x with level := pinLevel s x })

/-- Drive all four pins. -/
def drivePins (s : State) : State := drivePin (drivePin (drivePin (drivePin s 0) 1) 2) 3

/-- A pulse that is not output is counted in its unit's EVTDROP (R150). -/
def evtDropped (s : State) (n : Nat) : State :=
  s.modAu (s.pin n).au (fun u => { u with evtDrop := satAdd 16 u.evtDrop 1 })

/-- A leading edge on a pin at tick t (R150). -/
def leadEdge (s : State) (n : Nat) (t : Tick) : State :=
  let x := s.pin n
  if x.held then s
  else if x.active && decide (t < x.endAt) && !x.retrig then evtDropped s n
  else drivePin (s.setPin n { x with active := true, endAt := t + x.width }) n

/-- The smallest tick at or after a stamp. -/
def ceilTick (t : Stamp) : Tick := ceilDiv t 65536

/-- A pulse of a unit's source for an event of time T, on every pin that drives it (R148, R149): ASAP at the next tick,
fixed at ceil(T) + DELAY, at most 16 pending. -/
def pulse (s : State) (a src idx : Nat) (T : Stamp) : State :=
  (List.range 4).foldl (fun s n =>
    let x := s.pin n
    if !x.on || x.held || x.source ≠ src || x.au ≠ a || ((src = 1 || src = 3) && x.index ≠ idx) then s
    else if !x.fixed then leadEdge s n (s.now + 1)
    else if x.pend.length ≥ 16 then evtDropped s n
    else s.setPin n { x with pend := x.pend ++ [max (ceilTick T + x.delay) (s.now + 1)] }) s

/-- Set a unit's state; a pin that shows ARMED follows (R148, source 2). -/
def setAcqSt (s : State) (a st : Nat) : State := drivePins (s.modAu a (fun u => { u with st := st }))

/-- A unit in ARMING, ARMED or POST. -/
def Acq.runs (u : Acq) : Bool := u.st == 1 || u.st == 2 || u.st == 3

/-- Such a unit, or one whose ACQ_ARM waits for AT_CT (log 12). -/
def Acq.live (u : Acq) : Bool := u.runs || u.armAt.isSome

/-! ## Segments (R137 to R141) -/

/-- Bytes of a segment slot. -/
def slotBytes (e : CapEntry) : Nat := 64 + e.g * e.bytes

/-- The device address of the slot an entry writes: of the open segment, or of the next one when its part of the open
segment is complete. -/
def slotAddr (s : State) (u : Acq) (e : CapEntry) : Nat :=
  (s.reg e.ring).addr + (if u.capMode = 1 then (u.segDone + (if e.done.isSome then 1 else 0)) * slotBytes e else 0)

/-- The sample t: the first at or after a time (R136). -/
def trigSample (e : CapEntry) (T : Stamp) : Nat := e.ep.sampleAt T

/-- The grain that holds t + q_eff - 1. -/
def endGrain (e : CapEntry) : Nat := (e.trigS + e.qEff - 1) / 256

/-- Grains retained from the one that holds t - p through the one that holds t + q_eff - 1, newest first (R138). -/
def heldRun (e : CapEntry) : List (Nat × Nat) :=
  e.idxs.filter (fun g => decide (e.trigS ≤ e.p + 256 * g.1 + 255 ∧ g.1 ≤ endGrain e))

/-- Grains retained after that one: a stop point can lie behind the newest grain. -/
def laterGrains (e : CapEntry) : Nat := (e.idxs.filter (fun g => decide (endGrain e < g.1))).length

/-- SHORTPRE: the segment's first grain lies after the grain holding t - p (R139). -/
def shortPre (e : CapEntry) : Bool :=
  decide (e.trigS < e.p) || !(e.idxs.any (fun g => decide (256 * g.1 + e.p ≤ e.trigS)))

/-- The header fields that an entry's complete part fixes: FIRST_INDEX, START, GRAINS, FLAGS, PRE_ACTUAL, SHORTPRE,
t, slot address, the segment's first grain and its last. PRE_ACTUAL counts from t - p at most, and grains missing in between
are not taken off (DESIGN CHOICE, log 47). -/
def entryDone (s : State) (u : Acq) (e : CapEntry) : List Nat :=
  let run := heldRun e
  let n := run.length
  let newest := (run.headD (e.trigS / 256, 0)).1
  let oldest := (run.getLastD (e.trigS / 256, 0)).1
  let start := if n = 0 then e.pos else (e.pos + e.g - n - laterGrains e) % e.g
  [oldest, start, n, run.foldl (fun a g => a ||| g.2) 0,
   if n = 0 then 0 else min e.p (e.trigS - 256 * oldest), b2n (shortPre e), e.trigS, slotAddr s u e, e.first, newest]

/-- FTEST of the open segment (R145): 2 when a violation's time falls between the segment's first grain and the closing grain. -/
def ftestOf (s : State) (a : Nat) (u : Acq) (e : CapEntry) (d : List Nat) : Nat :=
  if !((s.tst (2 * a)).on && (s.tst (2 * a)).freq || (s.tst (2 * a + 1)).on && (s.tst (2 * a + 1)).freq) then 0
  else if u.violT.any (fun t => decide (e.ep.time (256 * d.getD 8 0) ≤ t ∧ t < e.ep.time (256 * (d.getD 9 0 + 1)))) then 2 else 1

/-- Table 4-6: the segment header of an entry. -/
def segHeader (s : State) (a : Nat) (u : Acq) (e : CapEntry) (d : List Nat) (trunc : Bool) : Nat :=
  let f := fun i => d.getD i 0
  pack [(16, u.segDone), (8, e.stream), (6, f 3 ||| (if u.capBad then 32 else 0)), (1, f 5), (1, b2n u.trigForced), (8, u.trigTerms),
    (1, b2n trunc), (7, 0), (80, u.trigTime), (48, f 6 / 256), (8, f 6 % 256), (2, 0),
    (2, ftestOf s a u e d), (4, 0), (48, f 0), (32, f 2), (32, f 1), (32, e.g), (48, f 4), (32, u.missed), (96, 0)]

/-- The header fields of an entry: of its complete part, or of what it holds now. -/
def doneOf (s : State) (u : Acq) (e : CapEntry) : List Nat := e.done.getD (entryDone s u e)

/-- The breakpoints of a range. -/
def maskBps (s : State) (base count : Nat) : List Bp := (List.range count).map (fun i => tget {} s.acq.table (base + i))

/-- The limit at a position (R127): none where the position is not tested. -/
def limitAt : List Bp → Int → Option Int
  | [], _ => none
  | [b], k => if k = b.pos then some b.level else none
  | b :: b' :: r, k =>
    if k < b.pos then none
    else if k < b'.pos then
      some (if b.lin then roundEven (b.level * (b'.pos - b.pos) + (b'.level - b.level) * (k - b.pos)) (b'.pos - b.pos).toNat else b.level)
    else limitAt (b' :: r) k

/-- The samples that violate one limit or the other (R145), over the positions of a slot of entry e from START: their numbers. -/
def testPositions (s : State) (slot : Nat) (e : CapEntry) (d : List Nat) (u l : List Bp) : Nat → Nat → List Nat
  | 0, _ => []
  | k + 1, pos =>
    let a := slot + 64 + pos * e.bytes
    let tag := ofBytes (rdBytes s.mem.mem (a + 384) 8)
    let n := d.getD 0 0 + (fld tag 0 48 + 2^48 - d.getD 0 0 % 2^48) % 2^48
    let codes := ofBytes (rdBytes s.mem.mem a 384)
    ((List.range 256).filter (fun j =>
      let x : Int := (256 * n + j : Nat) - (d.getD 6 0 : Int)
      let v := sfld codes (12 * j) 12
      decide (-(d.getD 4 0 : Int) ≤ x ∧ x < e.q) &&
        ((match limitAt u x with | some y => decide (y < v) | none => false) || (match limitAt l x with | some y => decide (v < y) | none => false)))).map
      (fun j => 256 * n + j) ++ testPositions s slot e d u l k ((pos + 1) % max 1 e.g)

/-- One time test of unit a on an entry whose part is complete (R145): whether it fails, its first violating sample and how many
violate. On a complex stream the spec compares no code: the verdict is a free value (log 2). -/
def timeTest (s : State) (t : Test) (e : CapEntry) (d : List Nat) : List Nat × State :=
  if e.bytes = 392 then
    let bad := testPositions s (d.getD 7 0) e d (maskBps s t.ubase t.ucount) (maskBps s t.lbase t.lcount) (d.getD 2 0) (d.getD 1 0)
    ([d.getD 7 0, b2n (!bad.isEmpty), bad.headD 0, min bad.length 0xFFFF, e.ep.time (bad.headD 0)], s)
  else
    let r := drawFree 128 s
    ([d.getD 7 0, fld r.1 0 1, fld r.1 1 56, fld r.1 64 16, e.ep.time (fld r.1 1 56)], r.2)

/-- The time tests of a unit that act on a captured stream (R145), each with its segment and verdict. -/
def timeTests (s : State) (a : Nat) (u : Acq) : List (Nat × Nat × List Nat) × State :=
  ([0, 1].filter (fun k => (s.tst (2 * a + k)).on && !(s.tst (2 * a + k)).freq)).foldl (fun r k =>
    match u.entries.find? (fun e => e.stream == (s.tst (2 * a + k)).stream) with
    | some e =>
      let v := timeTest r.2 (s.tst (2 * a + k)) e (doneOf s u e)
      (r.1 ++ [(k, u.segDone, v.1)], v.2)
    | none => r) ([], s)

/-- TTEST of the tests made (Table 4-16): 2 when one failed. -/
def ttestOf (l : List (Nat × Nat × List Nat)) : Nat := if l.any (fun x => x.2.2.getD 1 0 == 1) then 2 else if l.isEmpty then 0 else 1

/-- Write the headers of every entry of the open segment, post ACQ_SEGMENT and count the segment (R138). The verdicts of the
time tests are known now, and are written within 2 µs (log 31). -/
def writeSegment (s : State) (a : Nat) (trunc : Bool) : State :=
  let u := s.au a
  let s1 := u.entries.foldl (fun s e =>
    memWrite s ((doneOf s u e).getD 7 0) (toBytes (segHeader s a u e (doneOf s u e) trunc) 64)) s
  let ft := match u.entries with
    | e :: _ => ftestOf s a u e (doneOf s u e)
    | [] => 0
  let tt := timeTests s1 a u
  let s2 := dmaPulse (post tt.2 0x0503 (pack [(3, a), (5, 0), (16, u.segDone), (2, ttestOf tt.1), (2, ft), (1, b2n trunc)])) a
  s2.modAu a (fun x => { x with segDone := x.segDone + 1, capBad := false, ttPend := x.ttPend ++ tt.1 })

/-- A unit ends in DONE, STOPPED or ABORTED: it writes nothing more. -/
def acqEnd (s : State) (a st : Nat) : State :=
  setAcqSt (s.modAu a (fun u => { u with stopReq := false, trunc := false, queue := [] })) a st

/-- Begin an entry's next segment with the grain after the last one it wrote (R140). -/
def CapEntry.restart (e : CapEntry) : CapEntry := { e with pos := 0, idxs := [], held := 0 }

/-- ARMING ends when every captured stream holds p samples of the segment (Table 4-1). -/
def prefillCheck (s : State) (a : Nat) : State :=
  let u := s.au a
  if u.st = 1 && u.entries.all (fun e => decide (e.p ≤ e.held)) then setAcqSt s a 2 else s

/-- The open segment closes once every entry's part is complete (R138, R140, R141, R146). -/
def segmentCheck (s : State) (a : Nat) : State :=
  let u := s.au a
  if u.st ≠ 3 || !u.entries.all (fun e => e.done.isSome) then s else
  let s1 := writeSegment s a u.trunc
  if u.capMode = 2 || u.stopReq then acqEnd s1 a 5
  else if u.segDone + 1 ≥ u.segments then
    acqEnd (post s1 0x0504 (pack [(3, a), (5, 0), (17, u.segDone + 1)])) a 4
  else
    let s2 := s1.modAu a (fun x => { x with entries := x.entries.map (fun e => { e with done := none }) })
    if u.prefill then prefillCheck (setAcqSt s2 a 1) a else setAcqSt s2 a 2

/-- Complete entry `i`'s part of the open segment. -/
def closeEntry (s : State) (a i : Nat) : State :=
  let u := s.au a
  let e := u.entries.getD i {}
  if u.st ≠ 3 || e.done.isSome then s else
  let e' := { e.restart with done := some (entryDone s u e), first := (match e.last with | some l => l + 1 | none => e.first) }
  segmentCheck (s.setAu a { u with entries := u.entries.set i e' }) a

/-- Close the parts of the open segment whose last grain has already been written. -/
def closeReached (s : State) (a : Nat) : State :=
  (List.range (s.au a).entries.length).foldl (fun s i =>
    let e := (s.au a).entries.getD i {}
    match e.last with
    | some l => if endGrain e ≤ l && !e.idxs.isEmpty then closeEntry s a i else s
    | none => s) s

/-- The trigger, or the stop point, of the open segment falls at time T: each entry's t follows (R136). -/
def openPost (s : State) (a : Nat) (T : Stamp) (terms : Nat) (forced : Bool) : State :=
  let s1 := s.modAu a (fun u =>
    { u with
      trigTime := T, trigTerms := terms, trigForced := forced
      entries := u.entries.map (fun e => { e with trigS := trigSample e T }) })
  closeReached (setAcqSt s1 a 3) a

/-- The ring position of the grain that holds sample t of STREAM0 (Table 4-16). -/
def trigPosition (e : CapEntry) (j : Nat) : Nat :=
  match e.idxs.findIdx? (fun g => g.1 == j / 256) with
  | some k => (e.pos + e.g - 1 - k) % (max 1 e.g)
  | none => (e.pos + (j / 256 - (match e.last with | some l => l + 1 | none => e.first))) % (max 1 e.g)

/-- Accept a trigger (R132, R141, R142): it is posted after it has acted on EVT_OUT (R15). -/
def acceptTrigger (s : State) (a : Nat) (T : Stamp) (terms : Nat) (forced : Bool) : State :=
  let u := s.au a
  let e0 := u.entries.headD {}
  let h := if u.hasTrig then max u.holdTrig T else T
  let s1 := pulse (s.setAu a { u with triggers := sat32 u.triggers, lastTrig := T, hasTrig := true, holdTrig := h }) a 0 0 T
  let s2 := perfAdd (post s1 0x0502 (pack [(3, a), (1, b2n forced), (8, terms), (4, 0), (80, T),
    (32, trigPosition e0 (trigSample e0 T)), (16, u.segDone)])) 0x11 a 1
  if u.capMode = 2 then s2 else openPost s2 a T terms forced

/-- A trigger of the combiner (R134, R139): missed when held off, in ARMING or POST, or in OR mode when its time lies
before an accepted trigger's. -/
def trigger (s : State) (a : Nat) (T : Stamp) (terms : Nat) : State :=
  let u := s.au a
  if !u.runs then s
  else if u.st ≠ 2 || (u.hasTrig && (decide (T < u.holdTrig + u.holdoff * 65536) || (u.mode = 0 && decide (T < u.holdTrig)))) || u.stopReq then
    s.setAu a { u with missed := sat32 u.missed }
  else acceptTrigger s a T terms false

/-- R144: a unit in ARMING, ARMED or POST aborts; an open segment closes with TRUNC = 1. With no grain written since the arm
the event's last index is 0xFFFF_FFFF_FFFF (DESIGN CHOICE, log 47). -/
def acqAbort (s : State) (a reason : Nat) : State :=
  let u := s.au a
  if !u.runs then s else
  let last := match (u.entries.headD {}).last with | some l => l | none => 0xFFFFFFFFFFFF
  let s1 := post s 0x0505 (pack [(3, a), (1, 0), (4, reason), (48, last)])
  acqEnd (if u.st = 3 then writeSegment s1 a true else s1) a 6

/-- Every unit for which `sel` holds aborts. -/
def abortWhere (s : State) (reason : Nat) (sel : Nat → Acq → Bool) : State :=
  (List.range 8).foldl (fun s a => if sel a (s.au a) then acqAbort s a reason else s) s

/-- Every armed unit aborts (R502). -/
def abortAll (s : State) (reason : Nat) : State := abortWhere s reason (fun _ _ => true)

/-- Enabled terms of a unit that its combiner selects. -/
def unitTerms (s : State) (a : Nat) : List Nat := (maskBits 8 (s.au a).terms).filter (fun k => (s.term (8 * a + k)).on)

/-- The stream a term reads: of a time-domain term its STREAM, of a spectral one its lane's input (R117, R144). -/
def termStream (s : State) (x : Term) : Option Nat :=
  if x.ty ≤ 3 then some (fld x.p 32 8)
  else if x.ty = 4 then some (s.lane (fld x.p 32 4)).run.source
  else if x.ty = 5 then some (s.lane (s.dmap (fld x.p 32 2)).lane).run.source
  else none

/-- A unit captures a stream, or one of its selected terms reads it. -/
def unitUses (s : State) (a : Nat) (id : Nat) : Bool :=
  (s.au a).entries.any (fun e => e.stream == id) ||
  (unitTerms s a).any (fun k => termStream s (s.term (8 * a + k)) == some id)

/-- R144: units that use a stream abort. -/
def abortStream (s : State) (id reason : Nat) : State := abortWhere s reason (fun a _ => unitUses s a id)

/-! ## Latency bounds (Table 4-5), in ct -/

/-- Sample period of a lane's input in ct. -/
def lanePeriod (s : State) (c : Nat) : ℚ :=
  let id := (s.lane c).run.source
  (16 * strDecim s id : ℚ) / nsOf s (if id < 6 then id else (s.ddc (id - 16)).source)

/-- Cadence factor of the shed level (Table 3-8). -/
def cadence (s : State) : Nat := if s.spec.shed < 4 then 1 else if s.spec.shed = 4 then 2 else if s.spec.shed = 5 then 4 else 8

/-- K_eff of a monitor context (06 R210). -/
def kEff (s : State) (x : Ctx) : Nat := 2 ^ fld x.p 80 5 * cadence s

/-- N/f for an SL or pair lane, (N + 278)/fout for a ZL lane, plus the fixed parts given in ns. -/
def laneBound (s : State) (c : Nat) (sl zl : ℚ) : ℚ :=
  if c < 4 then (2 : ℚ) ^ (s.lane c).run.log2n * lanePeriod s c + sl * (8 / 5)
  else ((2 : ℚ) ^ (s.lane c).run.log2n + 278) * lanePeriod s c + zl * (8 / 5)

/-- The bound of one term (Table 4-5, R222). -/
def termBound (s : State) (x : Term) : ℚ :=
  if x.ty ≤ 3 then 288
  else if x.ty = 4 then laneBound s (fld x.p 32 4) 260 380
  else if x.ty = 5 then laneBound s (s.dmap (fld x.p 32 2)).lane 280 400
  else if x.ty = 6 then 64
  else
    let one := fun (c : Ctx) => laneBound s c.lane 206 326 + (kEff s c + 1) * 1600 + 24 * (8 / 5)
    (s.mon.ctxs.filter (fun e => e.2.on && decide (fld x.p 32 16 ≤ e.1 ∧ e.1 ≤ fld x.p 48 16))).foldl (fun m e => max m (one e.2)) 0

/-- L of a unit: the largest bound among its selected terms (R135). -/
def unitBound (s : State) (a : Nat) : ℚ := (unitTerms s a).foldl (fun m k => max m (termBound s (s.term (8 * a + k)))) 0

/-! ## The combiner (R132, R133) -/

/-- The term slots whose progress the combiner waits for: the selected ones, and in SEQUENCE the RESET term. -/
def watched (s : State) (a : Nat) : List Nat :=
  let u := s.au a
  unitTerms s a ++ (if u.mode = 2 && u.resetT < 8 && (s.term (8 * a + u.resetT)).on then [u.resetT] else [])

/-- One event released in event-time order (R132). -/
def combine (s : State) (a : Nat) (T : Stamp) (k : Nat) : State :=
  let u := s.au a
  let w := u.win * 65536
  if u.mode = 1 then
    let u' := { u with lastEv := tput 0 u.lastEv k (T + 1) }
    let s1 := s.setAu a u'
    if (maskBits 8 u.terms).all (fun j => j == k || (let e := tget 0 u.lastEv j; e != 0 && decide (T ≤ e - 1 + w))) then
      trigger s1 a T u.terms
    else s1
  else
    if k = u.resetT then s.setAu a { u with seqStep := 0 } else
    let step := if u.seqStep ≠ 0 && w ≠ 0 && decide (u.seqTime + w < T) then 0 else u.seqStep
    let steps := maskBits 8 u.terms
    if steps.getD step 8 ≠ k || (step ≠ 0 && decide (T ≤ u.seqTime)) then s.setAu a { u with seqStep := step }
    else if step + 1 = steps.length then trigger (s.setAu a { u with seqStep := 0, seqTime := T }) a T u.terms
    else s.setAu a { u with seqStep := step + 1, seqTime := T }

/-- The earliest waiting event, equal times in ascending slot order. -/
def earliest : List (Stamp × Nat) → Option (Stamp × Nat)
  | [] => none
  | e :: r =>
    match earliest r with
    | none => some e
    | some m => if m.1 < e.1 || (m.1 = e.1 && m.2 < e.2) then some m else some e

/-- How far a term has reported progress: an EXTERNAL term has produced every event before the present tick (log 47). -/
def progressOf (s : State) (x : Term) : Stamp := if x.ty = 6 then max x.progress (stampOf s.now) else x.progress

/-- Release waiting events once every watched term has reported progress to their time (R133); `n` bounds the loop. -/
def drainQueue : Nat → State → Nat → State
  | 0, s, _ => s
  | n + 1, s, a =>
    let u := s.au a
    match earliest u.queue with
    | none => s
    | some e =>
      if (watched s a).all (fun k => decide (e.1 ≤ progressOf s (s.term (8 * a + k)))) then
        drainQueue n (combine (s.setAu a { u with queue := u.queue.erase e }) a e.1 e.2) a
      else s

/-- A term reports that it has produced every event up to a time (R133). -/
def termProgress (s : State) (a k : Nat) (T : Stamp) : State :=
  let s1 := s.modTerm (8 * a + k) (fun x => { x with progress := max x.progress T })
  drainQueue (s1.au a).queue.length s1 a

/-- A term of an armed unit produces an event of time T (R132): pins that show the term's events pulse, and the
combiner takes it. -/
def termEvent (s : State) (a k : Nat) (T : Stamp) : State :=
  let u := s.au a
  if !u.runs then s else
  let s1 := pulse s a 1 k T
  if !bit u.terms k && !(u.mode = 2 && u.resetT = k) then s1
  else if u.mode = 0 then trigger s1 a T (2 ^ k)
  else s1.modAu a (fun u => { u with queue := u.queue ++ [(T, k)] })

/-! ## Time-domain terms (R119 to R121) -/

/-- Clear a term's history; its next sample is handled as the first after arm (R119). -/
def Term.clear (x : Term) : Term := { x with prev := none, primed := 0, pulseAt := none }

/-- A, B and HYST of a time-domain term. -/
def Term.a (x : Term) : Int := sfld x.p 48 16
def Term.b (x : Term) : Int := sfld x.p 64 16
def Term.h (x : Term) : Int := fld x.p 80 10
def Term.dir (x : Term) : Nat := fld x.p 40 2

/-- PCOND (R120). -/
def pcond (c w lo hi : Nat) : Bool :=
  if c = 0 then decide (w < lo) else if c = 1 then decide (hi < w)
  else if c = 2 then decide (lo ≤ w ∧ w ≤ hi) else decide (w < lo ∨ hi < w)

/-- One sample of code v, number j: the term after it, and the threshold X of each event that it decides (R120). EDGE either
runs both directions, so that with HYST = 0 a sample can decide two. -/
def Term.sample (x : Term) (j : Nat) (v : Int) : Term × List Int :=
  let A := x.a
  let B := x.b
  let H := x.h
  let y := { x with prev := some v }
  if x.ty = 0 then
    let neg := x.dir = 1
    let met := if neg then decide (v ≤ A) else decide (A ≤ v)
    let rearm := if neg then decide (A + H < v) else decide (v < A - H)
    if met && (x.prev.isNone || x.primed ≠ 0) then ({ y with primed := 0 }, [A])
    else ({ y with primed := if rearm then 1 else x.primed }, [])
  else if x.ty = 1 then
    let up := x.dir ≠ 1 && x.primed % 2 = 1 && decide (A ≤ v)
    let dn := x.dir ≠ 0 && x.primed / 2 = 1 && decide (v ≤ A)
    let r := if up then 0 else if x.dir ≠ 1 && decide (v ≤ A - H) then 1 else x.primed % 2
    let f := if dn then 0 else if x.dir ≠ 0 && decide (A + H ≤ v) then 1 else x.primed / 2
    ({ y with primed := r + 2 * f }, (if up then [A] else []) ++ (if dn then [A] else []))
  else if x.ty = 2 then
    let inside := decide (A ≤ v ∧ v ≤ B)
    if x.dir = 0 then
      if inside && x.primed ≠ 0 then
        ({ y with primed := 0 }, [match x.prev with | some u => if B < u then B else A | none => A])
      else ({ y with primed := if decide (v < A - H ∨ B + H < v) then 1 else x.primed }, [])
    else
      if !inside && x.primed ≠ 0 then ({ y with primed := 0 }, [if v < A then A else B])
      else ({ y with primed := if decide (A + H ≤ v ∧ v ≤ B - H) then 1 else x.primed }, [])
  else
    let pos := x.dir = 0
    let lead := if pos then decide (A ≤ v) else decide (v ≤ A)
    let back := if pos then decide (v ≤ A - H) else decide (A + H ≤ v)
    match x.pulseAt with
    | some j0 =>
      if back && j0 < j then
        let w := min (j - j0) (2^32 - 1)
        ({ y with pulseAt := none, primed := 1 },
          if pcond (fld x.p 96 2) w (fld x.p 128 32) (fld x.p 160 32) then [if pos then A - H else A + H] else [])
      else (y, [])
    | none =>
      if lead && x.primed ≠ 0 then ({ y with pulseAt := some j, primed := 0 }, [])
      else ({ y with primed := if back then 1 else x.primed }, [])

/-- The interpolated crossing time (R121): exact, rounded once. Where the two samples are equal the formula gives no
time, and the time is a free value (log 2). -/
def crossTime (s : State) (id j : Nat) (prev : Option Int) (v X : Int) : Stamp × State :=
  match prev with
  | none => (sampleTime s id j, s)
  | some u =>
    if u = v then drawFree 80 s else
    let e := s.epoch id
    let q : ℚ := ((e.num (j - 1) : ℚ) + ((X - u : Int) : ℚ) / ((v - u : Int) : ℚ) * (1048576 * e.dec : Nat)) / e.ns
    ((roundEven q.num q.den).toNat, s)

/-- The samples of one grain through one term: what it decides, as (sample number, previous code, code, X). -/
def Term.run (x : Term) (j : Nat) : List Int → Term × List (Nat × Option Int × Int × Int)
  | [] => (x, [])
  | v :: r =>
    let p := x.sample j v
    let q := p.1.run (j + 1) r
    (q.1, p.2.map (fun X => (j, x.prev, v, X)) ++ q.2)

/-- The time of an epoch's arm grain for a unit: its terms consider grains and frames that begin at or after it (R118). -/
def armGrainTime (e : Epoch) (u : Acq) : Stamp := e.time (256 * e.grainFrom u.armTime)

/-- A grain of a stream with its flags and samples through one time-domain term of an armed unit (R118, R119). -/
def termGrain (s : State) (a k id n flags : Nat) (samples : List Int) : State :=
  let x := s.term (8 * a + k)
  if !(s.au a).runs || !x.on || x.ty > 3 || fld x.p 32 8 ≠ id || decide (grainTime s id n < (s.au a).armTime) then s
  else if flags &&& x.inhibit ≠ 0 then termProgress (s.setTerm (8 * a + k) x.clear) a k (sampleTime s id (256 * n + 255))
  else
    let x1 := if bit flags 4 then x.clear else x
    let r := x1.run (256 * n) samples
    let s1 := r.2.foldl (fun s d =>
      let c := crossTime s id d.1 d.2.1 d.2.2.1 d.2.2.2
      termEvent c.2 a k c.1) (s.setTerm (8 * a + k) r.1)
    termProgress s1 a k (sampleTime s id (256 * n + 255))

/-- A grain through every time-domain term that reads its stream. -/
def grainTerms (s : State) (id n flags : Nat) (samples : List Int) : State :=
  (List.range 64).foldl (fun s i => termGrain s (i / 8) (i % 8) id n flags samples) s

/-! ## External and monitor terms (R124, R125) -/

/-- An edge at EVT_INn for the EXTERNAL terms: before the prescaler, with its stamp (R124). An edge stamped before the tick of
the arm gives no event (DESIGN CHOICE, log 47: R118 limits grains and spectra). -/
def externalTerms (s : State) (n : Nat) (fall : Bool) (T : Stamp) : State :=
  (List.range 64).foldl (fun s i =>
    let x := s.term i
    if !x.on || x.ty ≠ 6 || !(s.au (i / 8)).runs then s else
    let e := fld x.p 40 2
    let s1 := if fld x.p 32 3 = n && (e = 2 || (e = 1) = fall) && decide ((s.au (i / 8)).armTime ≤ T) then termEvent s (i / 8) (i % 8) T else s
    termProgress s1 (i / 8) (i % 8) T) s

/-- A monitor event of a context for the MONITOR terms, posted or not (R125), by a spectrum of epoch e with its flags: one that
begins before a unit's arm grain, or carries a flag of INHIBIT, completes no event (R118). -/
def monitorTerms (s : State) (c code : Nat) (T : Stamp) (e : Epoch) (flags : Nat) : State :=
  (List.range 64).foldl (fun s i =>
    let x := s.term i
    if !x.on || x.ty ≠ 7 || !(s.au (i / 8)).runs then s
    else if decide (fld x.p 32 16 ≤ c ∧ c ≤ fld x.p 48 16) && (fld x.p 64 8 = 0xFF || fld x.p 64 8 = code) &&
        decide (armGrainTime e (s.au (i / 8)) ≤ T) && flags &&& x.inhibit = 0 then
      termEvent s (i / 8) (i % 8) T
    else s) s

/-- Terms of a type report progress to a time: with each round of the monitors, or with time for EXTERNAL terms (R133). -/
def typeProgress (s : State) (ty : Nat) (T : Term → Stamp) : State :=
  (s.acq.terms.map (·.1)).foldl (fun s i =>
    let x := s.term i
    if x.on && x.ty = ty && (s.au (i / 8)).runs then termProgress s (i / 8) (i % 8) (T x) else s) s

/-! ## Capture of a grain (R138) -/

/-- A position's bytes: the grain's bytes and its tag (R48, R138). -/
def capBytes (id n flags : Nat) (data : List Byte) : List Byte :=
  data ++ toBytes (pack [(48, n), (6, flags), (2, 0), (8, id)]) 8

/-- Grain n of stream entry i of unit a is written to its slot (R138). -/
def captureGrain (s : State) (a i n flags : Nat) (data : List Byte) : State :=
  let s0 := (if (s.au a).st = 3 && endGrain ((s.au a).entries.getD i {}) < n then closeEntry s a i else s)
  let u := s0.au a
  let e := u.entries.getD i {}
  if !u.runs || n < e.first || u.entries.length ≤ i || (e.done.isSome && (u.capMode ≠ 1 || u.stopReq || u.segDone + 1 ≥ u.segments)) then s0 else
  let flags := flags ||| drainFlag s0
  let s1 := memWrite (drained s0) (slotAddr s0 u e + 64 + e.pos * e.bytes) (capBytes e.stream n flags data)
  let e' := { e with ep := s.epoch e.stream, pos := (e.pos + 1) % (max 1 e.g), idxs := ((n, flags) :: e.idxs).take e.g, held := e.held + 256, last := some n }
  let s2 := s1.modAu a (fun u => { u with entries := u.entries.set i e' })
  let s3 := if (s2.au a).st = 3 && endGrain e' ≤ n then closeEntry s2 a i else s2
  prefillCheck s3 a

/-! ## Violations and stops (R141, R145, R146) -/

/-- The stop point of a continuous capture (R141). -/
def stopPoint (s : State) (a : Nat) (T : Stamp) (forced : Bool) : State := openPost s a T 0 forced

/-- A violation of test k of unit a at time T (R145, R146): counted, shown on EVT_OUT, and with STOP the unit stops. -/
def violation (s : State) (a k : Nat) (T : Stamp) : State :=
  let s1 := pulse (s.modAu a (fun u => { u with viol := sat32 u.viol, violT := T :: u.violT })) a 3 k T
  let u := s1.au a
  if !(s1.tst (2 * a + k)).stop || !u.runs || u.stopReq then s1
  else if u.capMode = 2 then (if u.st = 3 then s1 else stopPoint s1 a T false)
  else if u.st = 3 then s1.setAu a { u with stopReq := true }
  else acqEnd s1 a 5

end Sys2Proof.Machine
end

