-- ==== Sys2Proof/Machine/MonOps.lean ====
section
/-! DEFINITION. Monitor contexts: configuration, history, updates, records and phases (06_channel_monitors.md). -/

namespace Sys2Proof.Machine

/-! ## Fields of Table 6-6 -/

def Ctx.inhibit (x : Ctx) : Nat := fld x.p 24 6
def Ctx.firstBin (x : Ctx) : Int := sfld x.p 32 24
def Ctx.bins (x : Ctx) : Nat := fld x.p 56 13
def Ctx.det (x : Ctx) : Nat := fld x.p 72 3
def Ctx.reduce (x : Ctx) : Nat := fld x.p 75 2
def Ctx.preset (x : Ctx) : Nat := fld x.p 77 3
def Ctx.log2k (x : Ctx) : Nat := fld x.p 80 5
def Ctx.thresh (x : Ctx) : Int := sfld x.p 88 16
def Ctx.hyst (x : Ctx) : Nat := fld x.p 104 12
def Ctx.events (x : Ctx) : Nat := fld x.p 116 4
def Ctx.log (x : Ctx) : Bool := bit x.p 120
def Ctx.interval (x : Ctx) : Nat := fld x.p 192 32
def Ctx.limit (x : Ctx) : Int := sfld x.p 224 16

/-- Slots of one update (R209). -/
def Ctx.slots (x : Ctx) : Nat := ceilDiv x.bins 64

/-- Time constants in µs: charge, discharge, meter (Table 6-2, R216). -/
def Ctx.taus (x : Ctx) : Nat × Nat × Nat :=
  match x.preset with
  | 1 => (45000, 500000, 160000)
  | 2 => (1000, 160000, 160000)
  | 3 => (1000, 550000, 100000)
  | 4 => (0, 0, 100000)
  | _ => (fld x.p 128 20, fld x.p 148 20, fld x.p 168 20)

/-! ## History (R213, R218, R220) -/

/-- Close the interval in progress. -/
def Ctx.close (x : Ctx) (trunc : Bool) : Ctx :=
  { x with result := x.value, rflags := x.flags + 64 * b2n x.coarse + 128 * b2n trunc, intervals := sat32 x.intervals,
           value := 0, flags := 0, coarse := false, sum := 0, nsum := 0 }

/-- An interval is open. -/
def Ctx.open_ (x : Ctx) : Bool := x.interval != 0 && x.nsum != 0

/-- A history reset: what depends on earlier updates goes; an open episode is not counted. -/
def Ctx.resetHist (x : Ctx) : Ctx :=
  { x with prevT := none, epoch := none, busy := false, since := 0, epFlags := 0, value := 0, flags := 0, coarse := false,
           sum := 0, nsum := 0, q := 0, m := 0 }

/-- A history reset other than enable: an open interval closes with TRUNC. -/
def Ctx.resetTrunc (x : Ctx) : Ctx := (if x.open_ then x.close true else x).resetHist

/-- The record and the dynamic state zeroed, keeping configuration, PHASE and binding (R227, R229). -/
def Ctx.zeroed (x : Ctx) : Ctx := { on := x.on, lane := x.lane, p := x.p, phase := x.phase, taken := x.taken }

/-- R500, group 0x10: history reset and SUSPECT in FLAGS. -/
def monSuspect (s : State) (c : Nat) : State := s.modCtx c (fun x => { x.resetTrunc with flags := 32 })

/-! ## Updates -/

/-- The input value x of a context from a spectrum (R209). -/
def monInput (x : Ctx) (r : SpecRes) : ℚ :=
  let l := ((r.bins.drop (x.firstBin - r.lo).toNat).take x.bins).map sumPower
  if x.reduce = 0 then l.foldl (· + ·) 0 * r.delta
  else if x.reduce = 1 then l.foldl max 0
  else l.foldl (· + ·) 0 / x.bins

/-- Stamp units in one microsecond. -/
def usUnits : Nat := 1600 * 65536

/-- Δt / τ for τ in µs. -/
def ratioT (dt : Nat) (tau : Nat) : ℚ := (dt : ℚ) / ((tau * usUnits : Nat) : ℚ)

/-- The largest relative error of α (R214). -/
def alphaBound : ℚ := 1 / 1048576

/-- α(τ) (R214): 1 - e^(-Δt/τ) but for a relative error, within the bound, that the spec leaves open. -/
def alpha (dt tau : Nat) : ℚ :=
  if tau = 0 then 1
  else (1 - realExp (-ratioT dt tau)) * (1 + max (-alphaBound) (min alphaBound (Config.alphaError (ratioT dt tau))))

/-- The filter states after an update (Table 6-1). -/
def Ctx.filter (x : Ctx) (v : ℚ) (dt : Option Nat) : Ctx :=
  match dt with
  | none => { x with q := toF32 v, m := toF32 v }
  | some d =>
    let t := x.taus
    if x.det = 3 then
      let q := ofF32 x.q
      let q' := if q < v then q + (v - q) * alpha d t.1 else q + (v - q) * alpha d t.2.1
      let qn := toF32 q'
      { x with q := qn, m := addF32 x.m ((ofF32 qn - ofF32 x.m) * alpha d t.2.2),
               coarse := x.coarse || decide (t.1 * usUnits < 10 * d) }
    else if x.det = 4 then
      { x with m := addF32 x.m ((v - ofF32 x.m) * alpha d t.2.2), coarse := x.coarse || decide (t.2.2 * usUnits < 10 * d) }
    else x

/-- VALUE and the running sum after an update with input x (Table 6-1). -/
def Ctx.accumulate (c : Ctx) (x v : ℚ) : Ctx :=
  let n := c.nsum + 1
  let keep := fun (y : ℚ) => if c.nsum = 0 then toF32 y else max c.value (toF32 y)
  if c.det = 0 then { c with nsum := n, value := keep x }
  else if c.det = 1 then
    let s := addF32 c.sum v
    { c with nsum := n, sum := s, value := toF32 ((ofF32 s / n) * (ofF32 s / n)) }
  else if c.det = 2 then
    let s := addF32 c.sum x
    { c with nsum := n, sum := s, value := toF32 (ofF32 s / n) }
  else { c with nsum := n, value := keep (ofF32 c.m * ofF32 c.m) }

/-- Payload of Table 6-3. -/
def monPayload (c : Nat) (x : Ctx) (flags rfl : Nat) (code : Int) (last : Nat) : Nat :=
  pack [(16, c), (4, x.lane), (6, flags), (6, rfl), (16, enc 16 code), (48, x.lastIdx), (8, x.lastOff), (32, last)]

/-- An event of a context: MONITOR terms receive it; the ring receives it when its kind is enabled, at most two in a
round (R221). The count is of those posted in the round. -/
def monEvent (a : State × Nat) (c code : Nat) (r : SpecRes) (payload : Nat) : State × Nat :=
  let s1 := monitorTerms a.1 c code r.time r.ep r.flags
  if !bit (a.1.ctx c).events (code - 1) then (s1, a.2)
  else if a.2 < 2 then (post s1 (0x0700 + code) payload, a.2 + 1)
  else ({ s1 with mon := { s1.mon with evLost := sat32 s1.mon.evLost, evPer := s1.mon.evPer.add s1.now } }, a.2)

/-- Log records one second holds at most (R226). -/
def logCap : Nat := 3125000

/-- A log record of an episode (R226): one that finds no room in the ring is lost there, and for the log too (11 R379). -/
def monLog (s : State) (c : Nat) (x : Ctx) (T : Stamp) : State :=
  let lost := { s with mon := { s.mon with logLost := sat32 s.mon.logLost } }
  let own := s.ownerOf (0x0E * 65536 + c / 256)
  let r := tget 0 s.mon.logs (own - 1)
  let sec := s.now / 1600000000
  let cnt := if s.mon.logSec = sec then s.mon.logCnt else 0
  if own = 0 || r = 0 || !isRecRing s (r - 1) || cnt ≥ logCap then lost else
  let w := ringWrite s (r - 1)
    (toBytes (pack [(16, c), (4, x.lane), (6, x.epFlags), (6, 0), (16, enc 16 x.epMax), (80, x.since), (80, T)]) 32)
  { w.1 with mon := if w.2 then { w.1.mon with logSec := sec, logCnt := cnt + 1 }
                    else { w.1.mon with logLost := sat32 w.1.mon.logLost } }

/-- The interval events of a close (R218). -/
def monCloseEvents (a : State × Nat) (c : Nat) (r : SpecRes) : State × Nat :=
  let x := a.1.ctx c
  let code := levelCode x.result
  let p := fun last => monPayload c x r.flags (x.rflags % 64) code last
  let a1 := monEvent a c 4 r (p x.intervals)
  if x.limit ≠ 0x7FFF && decide (x.limit < code) then monEvent a1 c 3 r (p 0) else a1

/-- The lane's input has begun a new epoch since the spectrum of the context's previous update (R213). -/
def newEpoch (x : Ctx) (r : SpecRes) : Bool := x.epoch.any (fun e => decide (e.1 = r.source ∧ e.2 ≠ r.ep.no))

/-- One update of a context that takes spectrum r (R212 to R220). -/
def monTake (a : State × Nat) (c : Nat) (r : SpecRes) : State × Nat :=
  let s := a.1
  let x0 := s.ctx c
  let T := r.time
  let x1 := { x0 with lastIdx := r.idx, lastOff := r.off, taken := some (r.count, T) }
  let reset := newEpoch x1 r || bit r.flags 4
  let ends := !reset && x1.open_ && decide (x1.t0 + (x1.ivNo + 1) * x1.interval * usUnits ≤ T)
  let closed := if reset then x1.open_ else ends
  let x2 := if reset then x1.resetTrunc else if ends then x1.close false else x1
  let a1 := if closed then monCloseEvents (s.setCtx c x2, a.2) c r else (s.setCtx c x2, a.2)
  let x3 := if x2.prevT.isNone then { x2 with t0 := T, ivNo := 0 }
            else if x2.interval ≠ 0 then { x2 with ivNo := (T - x2.t0) / (x2.interval * usUnits) } else x2
  let x := monInput x3 r
  let v := realSqrt x
  let x4 := ((x3.filter v (x3.prevT.map (fun t => T - t))).accumulate x v)
  let code := levelCode (toF32 x)
  let busy := if x4.thresh ≤ code then true else if code < x4.thresh - x4.hyst then false else x4.busy
  let begins := busy && !x4.busy
  let ends' := !busy && x4.busy
  let us := min ((T - x4.since) / usUnits) (2^32 - 1)
  let x5 := { x4 with prevT := some T, epoch := some (r.source, r.ep.no), flags := x4.flags ||| r.flags, busy := busy,
                      updates := sat32 x4.updates, busyUpd := if busy then sat32 x4.busyUpd else x4.busyUpd,
                      since := if begins then T else x4.since,
                      epFlags := if begins then r.flags else x4.epFlags ||| r.flags,
                      epMax := if begins then code else max x4.epMax code }
  if begins then monEvent (a1.1.setCtx c x5, a1.2) c 1 r (monPayload c x5 r.flags 0 code 0)
  else if ends' then
    let s2 := if x4.log then monLog a1.1 c x4 T else a1.1
    monEvent (s2.setCtx c { x5 with since := 0, episodes := sat32 x5.episodes, longest := max x5.longest us }, a1.2) c 2 r
      (monPayload c x5 r.flags 0 code us)
  else (a1.1.setCtx c x5, a1.2)

/-- The latest spectrum of a lane whose last bin was delivered before the present tick (R212). -/
def laneSeen (s : State) (c : Nat) : SpecRes := if (s.lane c).res.at_ < s.now then (s.lane c).res else (s.lane c).prev

/-- A context's turn in the round that starts now (R212). -/
def monTurn (a : State × Nat) (c : Nat) : State × Nat :=
  let s := a.1
  let x := s.ctx c
  let r := laneSeen s x.lane
  if r.count = 0 || x.taken == some (r.count, r.time) then
    (s.setCtx c { x with idleTurns := satAdd 16 x.idleTurns 1 }, a.2)
  else if r.flags &&& x.inhibit ≠ 0 then
    (s.setCtx c { x with skipped := sat32 x.skipped, taken := some (r.count, r.time) }, a.2)
  else monTake a c r

/-- Contexts whose turn comes in round r. -/
def monDue (s : State) (r : Nat) : List Nat :=
  (s.mon.ctxs.filter (fun e => e.2.on && r % kEff s e.2 == e.2.phase % kEff s e.2)).map (·.1)

/-! ## Phases and loads (R211) -/

/-- Load of each residue class of rounds at g = 1: the slots of the contexts enabled. -/
def loadAt (l : List Ctx) (r : Nat) : Nat :=
  (l.filter (fun x => x.on && r % 2^x.log2k == x.phase)).foldl (fun a x => a + x.slots) 0

/-- The enabled contexts. -/
def enabledCtxs (s : State) : List Ctx := (s.mon.ctxs.map (·.2)).filter (·.on)

/-- Largest round load of the residue classes mod 2^16 that lie in class `ph` mod K. -/
def maxLoad (l : List Ctx) (ph K : Nat) : Nat :=
  let M := l.foldl (fun a x => max a (2^x.log2k)) K
  (List.range (M / max 1 K)).foldl (fun a j => max a (loadAt l (ph + K * j))) 0

/-- The PHASE of a newly enabled context: the smallest that gives the smallest largest-round load, and that load with
the context included. -/
def bestPhase (l : List Ctx) (x : Ctx) : Nat × Nat :=
  let K := 2 ^ x.log2k
  let g := maxLoad l 0 1
  (List.range K).foldl (fun (a : Nat × Nat) ph =>
    let m := max g (maxLoad l ph K + x.slots)
    if m < a.2 then (ph, m) else a) (0, max g (maxLoad l 0 K + x.slots))

/-- LOADMAX of the contexts enabled. -/
def loadMax (l : List Ctx) : Nat := maxLoad l 0 1

/-! ## Records -/

/-- Table 6-4: the record of a context. -/
def ctxRecord (c : Nat) (x : Ctx) : Nat :=
  pack [(16, c), (4, x.lane), (1, b2n x.on), (1, b2n x.busy), (1, b2n x.coarse), (1, 0), (6, x.flags), (2, 0), (32, x.value),
    (32, x.result), (32, if x.det = 3 || x.det = 4 then x.m else 0), (48, x.lastIdx), (8, x.lastOff), (8, x.rflags), (32, x.updates), (32, x.busyUpd),
    (32, x.episodes), (32, x.skipped), (80, x.since), (32, x.longest), (32, x.intervals), (16, x.idleTurns)]

/-- L_mon in ns at shed level 0, rounded up (R222). -/
def lMon (s : State) (x : Ctx) : Nat :=
  let c := x.lane
  let d : ℚ := if c < 4 then laneN s c * lanePeriod s c * (5 / 8) + 206 else (laneN s c + 278) * lanePeriod s c * (5 / 8) + 326
  let r := d + (2 ^ x.log2k + 1) * 1000
  ceilDiv r.num.toNat r.den

end Sys2Proof.Machine
end

