-- ==== Sys2Proof/Machine/Fault.lean ====
section
/-! DEFINITION. Raising a fault: severities, sticky bits, first-error records, suppression windows, containment actions
and the fatal state (15_integrity_faults_and_security.md, R500 to R506). -/

namespace Sys2Proof.Machine

/-! ## Table 15-1 -/

/-- Sources of each group 0x00 to 0x2F. -/
def fltSources : List Nat :=
  [8, 16, 16, 4, 40, 40, 40, 40, 8, 16, 118, 32, 32, 4, 16, 12] ++
  [36, 36, 32, 48, 48, 48, 48, 48, 48, 48, 48, 4, 16, 40, 40, 40] ++
  [40, 36, 12, 8, 3, 24, 8, 12, 16, 2, 128, 4, 3, 2, 8, 0]

/-- Table 15-1 defines the source. -/
def fltDefined (id : Nat) : Bool := decide (id % 256 < fltSources.getD (id / 256) 0)

/-- Default severity and floor of a source. -/
def fltDefault (id : Nat) : Nat × Nat :=
  let k := id % 256
  let pick := fun (b : Bool) (x y : Nat × Nat) => if b then x else y
  match id / 256 with
  | 0x00 => if k = 4 || k = 5 then (1, 1) else pick (k = 6) (2, 2) (3, 3)
  | 0x01 => pick (k ≤ 2) (3, 3) (2, 2)
  | 0x02 => if k = 0 then (3, 3) else pick (k = 3) (1, 1) (2, 2)
  | 0x03 => if k = 0 then (3, 3) else pick (k = 1) (2, 2) (1, 1)
  | 0x0A => if k = 116 then (1, 1) else pick (k = 117) (2, 1) (2, 2)
  | 0x0D => pick (k = 0) (1, 1) (2, 2)
  | 0x0E => pick (k % 4 = 1) (1, 1) (2, 2)
  | 0x0F => (1, 1)
  | 0x10 => pick (k = 32) (1, 1) (2, 2)
  | 0x11 => pick (k % 4 = 2) (1, 1) (2, 2)
  | 0x12 => pick (22 ≤ k && k ≤ 27) (1, 1) (2, 2)
  | 0x13 | 0x14 | 0x15 | 0x16 | 0x17 | 0x18 | 0x19 | 0x1A =>
    if k % 6 = 0 then (2, 1) else pick (k % 6 = 1 || k % 6 = 5) (1, 1) (2, 2)
  | 0x1B => pick (k = 0) (1, 1) (2, 2)
  | 0x1C => pick ((1 ≤ k && k ≤ 4) || k = 6 || k = 9) (1, 1) (2, 2)
  | 0x1D | 0x1E | 0x1F | 0x20 => pick (k < 32 && k % 2 = 0) (1, 1) (2, 2)
  | 0x21 => pick (33 ≤ k) (2, 2) (1, 1)
  | 0x22 => pick (8 ≤ k) (1, 1) (2, 2)
  | 0x23 => pick (4 ≤ k) (2, 2) (1, 1)
  | 0x24 => pick (k = 0) (1, 1) (2, 2)
  | 0x25 => pick (k % 3 = 0) (1, 1) (2, 2)
  | 0x26 => pick (k = 1 || k = 2) (3, 2) (2, 2)
  | 0x27 => (3, 2)
  | 0x28 => pick (k ≤ 7) (1, 1) (2, 2)
  | 0x29 => (1, 1)
  | 0x2B => pick (k ≤ 1) (1, 1) (3, 3)
  | 0x2C => pick (k = 0) (3, 3) (2, 2)
  | 0x2D => pick (k = 1) (2, 2) (1, 1)
  | 0x2E => (2, 1)
  | _ => (2, 2)

/-- The severity configured for a source: a command's severity applies from the tick after it (R501, R522). -/
def sevOf (s : State) (id : Nat) : Nat :=
  match s.flt.sev.find? (fun e => e.1 == id && decide (e.2.2 < s.now)) with
  | some e => e.2.1
  | none => (fltDefault id).1

/-- The island in which a source's detector sits (Table 1-2): 0xFF in the fabric or in none. -/
def fltIsland (id : Nat) : Nat :=
  let k := id % 256
  match id / 256 with
  | 0x03 => 54
  | 0x04 => 0
  | 0x05 => 1
  | 0x06 => 2
  | 0x07 => 3
  | 0x08 => 4 + k / 4
  | 0x0F => if k % 6 = 0 || k % 6 = 4 then 0xFF else 43 + k / 6
  | 0x11 => 45 + k / 4
  | 0x1D => if 32 ≤ k then 6 + (k - 32) else 0xFF
  | 0x1E => if 32 ≤ k then 14 + (k - 32) else 0xFF
  | 0x1F => if 32 ≤ k then 22 + (k - 32) else 0xFF
  | 0x20 => if 32 ≤ k then 30 + (k - 32) else 0xFF
  | 0x22 => if 4 ≤ k && k < 8 then 38 + (k - 4) else 0xFF
  | 0x23 => if k = 4 then 42 else 0xFF
  | 0x24 => 55
  | 0x25 => 56 + k / 3
  | _ => 0xFF

/-- What a raise says beside its source (R504): the access that revealed the failure, FORCED, and what the containment
action concerns (a command in progress, a feed, monitor contexts). -/
structure FaultInfo where
  forced : Bool := false
  master : Nat := 0
  inst : Nat := 0
  access : Nat := 0
  address : Nat := 0
  items : List Nat := []

/-! ## Windows (R505, Table 15-5) -/

/-- The tick at which a window closes, and whether by timeout: 1,600 ct after its end, or 100 ms after it opened. -/
def Win.closing (w : Win) : Tick × Bool :=
  match w.ended with
  | some e => if e + 1600 ≤ w.opened + 160000000 then (e + 1600, false) else (w.opened + 160000000, true)
  | none => (w.opened + 160000000, true)

/-- A window covers a source. -/
def Win.covers (w : Win) (id : Nat) : Bool :=
  w.origin != id && (w.deps.contains (id / 256) || w.ids.contains id)

/-- The earlier window, in one tick the one of the lower origin. -/
def firstWin : List Win → Option Win
  | [] => none
  | w :: r =>
    match firstWin r with
    | none => some w
    | some v => if v.opened < w.opened || (v.opened = w.opened && v.origin < w.origin) then some v else some w

/-- ORIGIN of a raise that is consequential (R506): of the windows that have not reached the tick at which they close. -/
def originOf (s : State) (id : Nat) : Option Nat :=
  if (fltDefault id).2 = 3 then none
  else (firstWin (s.flt.wins.filter (fun w => w.covers id && decide (s.now < w.closing.1)))).map (·.origin)

/-- The severity a raise of the source would have applied now. -/
def appliedSev (s : State) (id : Nat) : Nat := if (originOf s id).isSome then 1 else sevOf s id

/-- Payload of FLT_RAISED (Table 15-18). -/
def raisedPayload (id sev : Nat) (conseq forced : Bool) (origin : Nat) : Nat :=
  pack [(16, id), (2, sev), (1, b2n conseq), (1, b2n forced), (12, 0), (16, origin), (8, fltIsland id)]

/-- Count a raise by the severity applied. -/
def Flt.count (f : Flt) (sev : Nat) (conseq : Bool) : Flt :=
  let g := if conseq then { f with nconseq := sat32 f.nconseq } else f
  if sev = 1 then { g with ncorr := sat32 g.ncorr } else if sev = 2 then { g with ncont := sat32 g.ncont }
  else { g with nfatal := sat32 g.nfatal }

/-- A raise of this tick that preceded the opening of window `w` turns consequential (R505): its sticky bit, record,
counts, log entry and event. -/
def turnRaise (s : State) (w : Win) (e : Raise) : State :=
  if e.at_ ≠ s.now || e.conseq || !w.covers e.id || (fltDefault e.id).2 = 3 then s else
  let f := s.flt
  let f1 := if e.sev = 2 then { f with ncont := f.ncont - 1 } else if e.sev = 3 then { f with nfatal := f.nfatal - 1 } else f
  let f2 := { f1 with
    ncorr := if e.sev = 1 then f1.ncorr else sat32 f1.ncorr, nconseq := sat32 f1.nconseq,
    sticky := if tget 0 f1.sticky e.id = 0 then f1.sticky else tput 0 f1.sticky e.id (max e.old 1),
    conseq := tput false f1.conseq e.id true, held := tput false f1.held e.id false,
    log := f1.log.map (fun r => if r = e then { e with sev := 1, conseq := true } else r) }
  let fix := fun (r : EventRecord) =>
    if r.code = 0x0D01 && r.time = s.evTick && fld r.payload 0 16 = e.id && !bit r.payload 18 then
      { r with payload := raisedPayload e.id 1 true (bit r.payload 19) w.origin } else r
  let g := s.frec (e.id / 256)
  let s1 := { s with flt := f2, host := { s.host with evRing := s.host.evRing.map (fun x => (x.1, fix x.2)),
                                                      evtWait := s.host.evtWait.map fix,
                                                      evtNow := s.host.evtNow.map (fun x => (x.1, fix x.2)) } }
  if g.valid && g.fault = e.id && g.time = s.evTick && !g.conseq && e.old = 0 then
    s1.setFrec (e.id / 256) { g with severity := 1, conseq := true, origin := w.origin } else s1

/-- Open a suppression window (R505): FLT_WINDOW is posted, and the raises of this tick that it covers turn. -/
def openWindow (s : State) (origin : Nat) (deps ids : List Nat) (ended : Bool) : State :=
  let w : Win := { origin := origin, opened := s.now, deps := deps, ids := ids, ended := if ended then some s.now else none }
  let s1 := post { s with flt := { s.flt with wins := s.flt.wins ++ [w] } } 0x0D03 (pack [(1, 1), (15, 0), (16, origin)])
  (s1.flt.log.takeWhile (fun e => e.at_ == s.now)).foldl (fun a e => turnRaise a w e) s1

/-- The end of an origin's window that Table 15-5 states falls now. -/
def endWindow (s : State) (origin : Nat) : State :=
  { s with flt := { s.flt with wins := s.flt.wins.map (fun w =>
      if w.origin = origin && w.ended.isNone then { w with ended := some s.now } else w) } }

/-- Groups that a node loss makes dependant: every group but four. -/
def nodeDeps : List Nat := (List.range 48).filter (fun g => !([0x00, 0x01, 0x2B, 0x2C].contains g))

/-- Dependants of a loss or relock of a sample PLL. -/
def spDeps (p : Nat) : List Nat := (if p = 0 then [4, 5] else [6, 7]) ++ [0x08, 0x0A, 0x0B, 0x0C, 0x12]

/-! ## Records and counts (R504, R519) -/

/-- Enter a raise in the group's first-error record. -/
def recordRaise (s : State) (id sev : Nat) (origin : Option Nat) (i : FaultInfo) : State :=
  let r := s.frec (id / 256)
  let r1 := if r.valid then r else
    { fault := id, severity := sev, conseq := origin.isSome, forced := i.forced, valid := true, origin := origin.getD 0xFFFF,
      island := fltIsland id, master := i.master, inst_ := i.inst, access := i.access, address := i.address, time := s.evTick }
  s.setFrec (id / 256) { r1 with raises := sat32 r1.raises, last := id, lastTime := s.evTick }

/-- Enter a raise in the log of the latest 16,384 (R519). -/
def Flt.logRaise (f : Flt) (e : Raise) : Flt :=
  { f with log := (e :: f.log).take 16384,
           logLost := if f.log.length < 16384 then f.logLost else f.log.getLast?.map (·.at_) }

/-- The detector's condition holds, or ends; with it ends what its containment holds. -/
def State.setActive (s : State) (id : Nat) (on : Bool) : State :=
  { s with flt := { s.flt with active := tput false s.flt.active id on,
                               held := if on then s.flt.held else tput false s.flt.held id false } }

/-- The condition of a source holds at present. -/
def isActive (s : State) (id : Nat) : Bool := tget false s.flt.active id

/-- A source is sticky. -/
def isSticky (s : State) (id : Nat) : Bool := tget 0 s.flt.sticky id != 0

/-! ## The fatal state (R502) -/

/-- The reactions of Table 15-2 to a Fatal fault. During start-up STATE.ENGINE keeps its value until step 9 (R535). -/
def enterFatal (s : State) (id : Nat) : State :=
  let s1 := { s with host := { s.host with engine := if s.host.engine = 1 then 2 else s.host.engine }, pwr := { s.pwr with alertLow := true },
                     flt := { s.flt with cpDead := s.flt.cpDead || id = 0x0000 || id = 0x0001 } }
  let s2 := abortAll s1 (if id / 256 = 0x02 then 0 else 1)
  let s3 := (List.range 4).foldl (fun a n => a.modPin n (fun x => if x.on then { x with held := true, active := false, pend := [] } else x)) s2
  ctlFatal (drivePins s3)

/-! ## Containment (Table 15-1) -/

/-- A grove core stops for cause 1 to 4 or another: its fault, its window, and the barrier members it releases.
`again` raises what the stop raises. -/
def coreStopWith (again : State → Nat → FaultInfo → State) (s : State) (n cause faddr : Nat) : State :=
  let r := stopCore s n cause faddr
  let s1 := if 1 ≤ cause && cause ≤ 4 then again r.1 (groveSrc n 0) { master := 2, inst := n, address := faddr } else r.1
  let s2 := openWindow s1 (groveSrc n 0) [] (groveSrc n 4 :: (List.range 64).map (fun m => groveSrc m 5)) true
  r.2.foldl (fun a m => again a (groveSrc m 5) { master := 2, inst := m }) s2

/-- The command in progress that a failure concerns completes with FAULTED. -/
def faultCommand (s : State) (items : List Nat) : State :=
  match s.host.inProg[items.headD 0]? with
  | some p => finish s p stFaulted 0 0
  | none => s

/-- A check failed in the grain of a stream that contains the present tick: it carries SUSPECT (Table 2-5). -/
def markSuspect (s : State) (id : Nat) : State :=
  s.modStr id (fun x => { x with old := x.old.map (·.suspect s.now), cur := if x.running then x.cur.suspect s.now else x.cur })

/-- The streams whose grains a failure of groups 0x04 to 0x09 or of the correction set concerns. -/
def suspectStreams (s : State) (id : Nat) : List Nat :=
  let k := id % 256
  match id / 256 with
  | 0x04 | 0x05 | 0x06 | 0x07 =>
    let c := id / 256 - 4
    [if s.pairMode (c / 2) then 4 + c / 2 else c]
  | 0x08 => pairStreams s (k / 4)
  | 0x09 => (inputStream s (k / 4)).toList
  | 0x12 => if k = 28 then List.range 6 else []
  | _ => []

/-- A unit of group 0x0A computes a spectrum, a DDC grain or a trace record that a failure concerns. -/
def isSuspect (s : State) (id : Nat) : Bool := tget false s.flt.held id || tget 0 s.flt.once id == 1

/-- The one-shot marks of sources have been consumed. -/
def clearOnce (s : State) (ids : List Nat) : State :=
  { s with flt := { s.flt with once := ids.foldl (fun t id => tput 0 t id 0) s.flt.once } }

/-- A failure of group 0x0A that does not last concerns what its unit computes next. -/
def markOnce (s : State) (id : Nat) : State :=
  let k := id % 256
  let v := if 12 ≤ k && k < 28 then (s.ddc (k - 12)).next + 1 else 1
  { s with flt := { s.flt with once := tput 0 s.flt.once id v } }

/-- The containment action of a source (Table 15-1). Actions that belong to the read, the grain or the spectrum in which
the failure is found are part of that row. -/
def contain (again : State → Nat → FaultInfo → State) (s : State) (id : Nat) (i : FaultInfo) : State :=
  let k := id % 256
  let hold := if isActive s id then { s with flt := { s.flt with held := tput false s.flt.held id true } } else s
  match id / 256 with
  | 0x00 => if k = 6 then faultCommand s i.items else s
  | 0x01 => faultCommand { s with sec := { s.sec with storeOk := s.sec.storeOk &&& (0xFFFF - 2^k) } } i.items
  | 0x03 => markAllUnlocked s
  | 0x04 | 0x05 | 0x06 | 0x07 => (suspectStreams s id).foldl markSuspect s
  | 0x08 | 0x09 => (suspectStreams s id).foldl markSuspect hold
  | 0x0A => if isActive s id then hold else if k < 40 || (68 ≤ k && k < 116) then markOnce s id else s
  | 0x0D => if 2 ≤ k then i.items.foldl (fun a m => a.modMaskS m (fun x => { x with sus := true })) s else s
  | 0x24 | 0x2A => hold
  | 0x0B | 0x0C => s.modAu (k / 4) (fun u => { u with capBad := u.capBad || u.runs })
  | 0x0E => s.modDmap (k / 4) (fun m => { m with flags := m.flags ||| 32 })
  | 0x10 => i.items.foldl monSuspect s
  | 0x11 => s.modTiuIn (k / 4) (fun x => { x with uncal := true })
  | 0x12 =>
    if k = 28 then (suspectStreams s id).foldl markSuspect { hold with flt := { hold.flt with held := tput false hold.flt.held id true } }
    else if k = 29 || k = 30 then { s with flt := { s.flt with signBad := true } }
    else if k = 31 then driftAll s
    else s
  | 0x13 | 0x14 | 0x15 | 0x16 | 0x17 | 0x18 | 0x19 | 0x1A =>
    if k % 6 = 3 then coreStopWith again s (8 * (id / 256 - 0x13) + k / 6) 4 0
    else if k % 6 = 4 then i.items.foldl feedDisable s
    else s
  | 0x25 => if (s.ctlO (k / 3)).on then ctlPut s (k / 3) (s.ctlO (k / 3)).safe else s
  | 0x26 => setSupply { s with spec := { s.spec with supplyFault := true } } 850
  | 0x2E => faultCommand s i.items
  | _ => s

/-! ## Raising -/

/-- Raise a source (R500 to R506). `n` bounds how far one raise can lead to another. -/
def raiseN : Nat → State → Nat → FaultInfo → State
  | 0, s, _, _ => s
  | n + 1, s, id, i =>
    if !fltDefined id then s else
    let org := originOf s id
    let sev := appliedSev s id
    let old := tget 0 s.flt.sticky id
    let s1 := recordRaise s id sev org i
    let f := ((s1.flt.count sev org.isSome).logRaise { at_ := s.now, id := id, sev := sev, conseq := org.isSome, old := old })
    let s2 := perfAdd { s1 with flt := { f with sticky := tput 0 f.sticky id (max old sev), conseq := tput false f.conseq id org.isSome } }
      0x12 (id / 256) 1
    let s3 := if old = 0 then post s2 0x0D01 (raisedPayload id sev org.isSome i.forced (org.getD 0xFFFF)) else s2
    let s4 := if 2 ≤ sev then contain (raiseN n) s3 id i else s3
    if sev = 3 then enterFatal s4 id else s4

/-- Raise a source. -/
def raiseFault (s : State) (id : Nat) (i : FaultInfo) : State := raiseN 4 s id i

/-- A grove core stops (R340, R350, R318). -/
def coreStop (s : State) (n cause faddr : Nat) : State := coreStopWith raiseFault s n cause faddr

/-- A barrier group breaks because of core n, and the members it releases raise their source (R341, R318). -/
def barBreakBy (s : State) (k n cause : Nat) : State :=
  let r := barBreak s k n cause
  r.2.foldl (fun a m => raiseFault a (groveSrc m 5) { master := 2, inst := m }) r.1

end Sys2Proof.Machine
end

