-- ==== Sys2Proof/Machine/MemRead.lean ====
section
/-! DEFINITION. Reads of device memory, ECC errors, poison at the readers and the retirement of a rank
(11_memory_system.md, R362 to R370; 15_integrity_faults_and_security.md, R510). -/

namespace Sys2Proof.Machine

/-- Source 2d + k of the quadrant group of a line's rank. -/
def rankSrc (s : State) (a k : Nat) : Nat := (0x1D + quadOf a) * 256 + 2 * rankOf s a + k

/-- A retirement of rank d of quadrant q is ordered (R368, R370). -/
def retireRank (s : State) (q d : Nat) (byCmd : Bool) : State :=
  let s1 := s.modQuad q (fun x => { x with queued := d, byCmd := byCmd, poisoned := 0 })
  { s1 with mem := { s1.mem with migQ := s1.mem.migQ ++ [q] } }

/-- A quadrant's spare is unused, and no rank of it is retired or queued. -/
def spareFree (s : State) (q : Nat) : Bool := (s.quad q).retired == 0xFF && (s.quad q).queued == 0xFF

/-- Steps 1 to 3 of R365: the line is poisoned, MEM_UE is posted, the source is raised, UE counts; an overflow of the
poison list raises its own source. -/
def ueMark (s : State) (l : Nat) (cmdErr : Bool) (i : FaultInfo) : State :=
  let r := globalRank s l
  let src := rankSrc s l 1
  let s1 := poisonLine { s with mem := { s.mem with ue := sat32 s.mem.ue, forced := tput 0 s.mem.forced l 0 } } l
  let s2 := post s1 0x0A01 (pack [(6, r), (1, b2n cmdErr), (57, 0), (64, l)])
  let s3 := raiseFault s2 src { i with address := l }
  if s1.mem.listFull && !s.mem.listFull then raiseFault s3 0x1C09 { i with address := l } else s3

/-- An uncorrectable or command error at a line (R365, R370). A forced one does not retire the rank (R510). -/
def ueError (s : State) (l : Nat) (cmdErr forced : Bool) (i : FaultInfo) : State :=
  let q := quadOf l
  let d := rankOf s l
  let g := globalRank s l
  let noSpare := !forced && !spareFree s q
  let s1 := ueMark s l cmdErr { i with forced := forced }
  if forced then s1
  else if noSpare then post s1 0x0A05 (pack [(6, g), (58, 0), (64, l)])
  else retireRank s1 q d false

/-- Correctable errors of a rank over the latest 3,600 s. -/
def rankRecent (s : State) (r : Nat) : List Tick := (s.rank r).recent.filter (fun t => decide (s.now < t + 5760000000000))

/-- Payload of MEM_CE_THRESHOLD. -/
def cePayload (s : State) (r : Nat) : Nat := pack [(6, r), (26, 0), (32, (rankRecent s r).length)]

/-- A correctable error at a line (R364, R510): CE counts it; a forced one posts whatever the rank's count. -/
def ceError (s : State) (l : Nat) (forced : Bool) (i : FaultInfo) : State :=
  let r := globalRank s l
  let src := rankSrc s l 0
  let s1 := { s with mem := { s.mem with ce := sat32 s.mem.ce, forced := tput 0 s.mem.forced l 0 } }
  if forced then
    raiseFault (post s1 0x0A02 (cePayload s1 r)) src { i with address := l, forced := true }
  else
    let high := (rankRecent s1 r).length ≥ 1024 && (s1.rank r).high
    let s2 := s1.setRank r { recent := s1.now :: rankRecent s1 r, high := high }
    if (rankRecent s2 r).length ≥ 1024 && !high then
      raiseFault (post (s2.modRank r (fun x => { x with high := true })) 0x0A02 (cePayload s2 r)) src { i with address := l }
    else s2

/-- The readers of R366: code, instance and the master of Table 15-3. -/
structure Reader where
  code : Option Nat := none
  inst : Nat := 0
  master : Nat := 1

/-- What a poisoned line posts at its reader: MEM_POISON_READ at most once per reader and 1 ms period (R366). -/
def poisonPost (s : State) (rd : Reader) (l : Nat) : State :=
  match rd.code with
  | none => s
  | some c =>
    let k := 256 * c + rd.inst
    if tget 0 s.mem.poisPost k = periodOf s.now + 1 then { s with mem := { s.mem with poisonRd := satAdd 16 s.mem.poisonRd 1 } }
    else post { s with mem := { s.mem with poisPost := tput 0 s.mem.poisPost k (periodOf s.now + 1) } } 0x0A06
      (pack [(8, c), (8, rd.inst), (48, 0), (64, l)])

/-- Read one line: its 64 bytes, whether it was poisoned, and the state after the read. -/
def readLine (s : State) (l : Nat) (rd : Reader) : List Byte × Bool × State :=
  let i : FaultInfo := { master := rd.master, inst := rd.inst, access := 1 }
  let s0 := perfAdd s 6 (quadOf l) 1
  let f := tget 0 s0.mem.forced l
  let s1 := if isPoisoned s0 l then s0 else if f = 2 then ueError s0 l false true i else if f = 1 then ceError s0 l true i else s0
  if isPoisoned s1 l then (List.replicate 64 0, true, poisonPost s1 rd l)
  else (rdBytes s1.mem.mem l 64, false, s1)

/-- Read lines from l upwards. -/
def readLines (rd : Reader) : Nat → State → Nat → List Byte × Bool × State
  | 0, s, _ => ([], false, s)
  | n + 1, s, l =>
    let r := readLine s l rd
    let q := readLines rd n r.2.2 (l + 64)
    (r.1 ++ q.1, r.2.1 || q.2.1, q.2.2)

/-- Read `n` bytes of device memory from address `a`. -/
def memRead (s : State) (a n : Nat) (rd : Reader) : List Byte × Bool × State :=
  if n = 0 then ([], false, s) else
  let l := lineOf a
  let r := readLines rd ((a + n - 1) / 64 - a / 64 + 1) s l
  ((r.1.drop (a - l)).take n, r.2.1, r.2.2)

/-- Read bytes of a region. -/
def regRead (s : State) (h off n : Nat) (rd : Reader) : List Byte × Bool × State := memRead s ((s.reg h).addr + off) n rd

/-- Read `n` bytes of a ring from byte position `pos`, wrapping past its end (R378). -/
def ringRead (s : State) (h pos n : Nat) (rd : Reader) : List Byte × Bool × State :=
  let r := s.reg h
  let o := pos % max 1 r.size
  let k := min n (r.size - o)
  let x := memRead s (r.addr + o) k rd
  let y := memRead x.2.2 r.addr (n - k) rd
  (x.1 ++ y.1, x.2.1 || y.2.1, y.2.2)

end Sys2Proof.Machine
end

