-- ==== Sys2Proof/Machine/MoveOps.lean ====
section
/-! DEFINITION. CRC-32C, the accounting of missing grains, the recorder and the grain side of the streaming channels
(01_architecture.md R29, R30; 12_data_movement_and_recording.md R404, R410 to R436). -/

namespace Sys2Proof.Machine

/-! ## CRC-32C (R404) -/

/-- One bit step of the reflected register. -/
def crcBit (c : Nat) : Nat := if c % 2 = 1 then (c / 2) ^^^ 0x82F63B78 else c / 2

/-- The register after a byte. -/
def crcByte (c b : Nat) : Nat := (List.range 8).foldl (fun x _ => crcBit x) (c ^^^ b)

/-- The register after bytes. -/
def crcRun (c : Nat) (bs : List Byte) : Nat := bs.foldl (fun x b => crcByte x b.toNat) c

/-- The CRC of a byte string. -/
def crc32c (bs : List Byte) : Nat := crcRun 0xFFFFFFFF bs ^^^ 0xFFFFFFFF

/-! ## Missing grains (R29, R30) -/

/-- Where the missing range of a consumer on a stream is kept. -/
def missKey (consumer id : Nat) : Nat := consumer + 256 * id

/-- The range of grains of a stream missing at a consumer and not yet posted. -/
def missOf (s : State) (consumer id : Nat) : Option (Nat × Nat) := tget none s.fe.miss (missKey consumer id)

/-- Grain n is not delivered to a consumer; the recorder counts it in GAPGRAINS. -/
def missGrain (s : State) (consumer id n : Nat) : State :=
  let r := match missOf s consumer id with | none => (n, n) | some r => (r.1, n)
  let s1 := { s with fe := { s.fe with miss := tput none s.fe.miss (missKey consumer id) (some r) } }
  if consumer = 0x50 then { s1 with move := { s1.move with gapGrains := sat32 s1.move.gapGrains } } else s1

/-- The gap record's event code of a consumer: SPEC_GAP, MOVE_GAP or ACQ_GAP. -/
def gapCode (c : Nat) : Nat := if c < 0x30 then 0x0404 else if c ≤ 0x50 then 0x0B04 else 0x0508

/-- The path-gap source of a consumer (R30, Table 15-1). -/
def gapSource (c : Nat) : Nat :=
  if c < 0x10 then 0x0A28 + c else if c < 0x20 then 0x0A34 + (c - 0x10) else if c < 0x30 then 0x0A2C + (c - 0x20)
  else if c < 0x50 then 0x2121 else if c = 0x50 then 0x2122 else 0x1C05

/-- Post the gap record of a consumer, if it misses grains, and raise its source (R29, R30). -/
def gapPost (s : State) (consumer id : Nat) : State :=
  match missOf s consumer id with
  | none => s
  | some r =>
    let s1 := { s with fe := { s.fe with miss := tput none s.fe.miss (missKey consumer id) none } }
    raiseFault (post s1 (gapCode consumer) (pack [(8, id), (8, consumer), (48, r.1), (48, r.2)])) (gapSource consumer) {}

/-- Post every gap record of a stream: it stops, or its epoch ends other than by rollover (R29). -/
def gapPostAll (s : State) (id : Nat) : State :=
  ((s.fe.miss.filter (fun e => e.1 / 256 == id)).map (·.1)).foldl (fun a k => gapPost a (k % 256) id) s

/-! ## The recorder (R425 to R436) -/

/-- Bytes of a stripe, and of the chunks it holds at most. -/
def stripeSize : Nat := 4194304
def stripeRoom : Nat := 4194048

/-- Kind, stream, ring and rate of a source entry (R444). -/
def srcKind (e : Nat) : Nat := fld e 0 8
def srcStream (e : Nat) : Nat := fld e 8 8
def srcRing (e : Nat) : Nat := fld e 16 16
def srcRate (e : Nat) : Nat := fld e 32 16

/-- A recording is open and takes data. -/
def recTakes (s : State) : Bool := s.move.entry != 0xFFFF && s.move.ending == 0xFF && s.move.job != 8

/-- Length of a chunk in its stripe: header, payload, padding (R426). -/
def chunkLen (n : Nat) : Nat := 32 + ceilDiv n 32 * 32

/-- Bytes the open chunks will take. -/
def openLen (s : State) : Nat := s.move.open_.foldl (fun a c => a + chunkLen c.data.length) 0

/-- A stripe is in assembly: its first chunk has been begun. -/
def stripeBegun (s : State) : Bool := s.move.fill != 0 || !s.move.open_.isEmpty

/-- Stripes of the buffer, and those that hold nothing (Table 12-13 BUFFREE). -/
def recCap (s : State) : Nat := (s.reg s.move.recBuf).size / stripeSize
def bufFree (s : State) : Nat :=
  recCap s - (s.move.stripes.filter (fun x => !x.done)).length - b2n (stripeBegun s)

/-- Device address of the stripe in assembly: the buffer's stripes are used in turn. -/
def recAddr (s : State) : Nat := (s.reg s.move.recBuf).addr + s.move.seqNo % max 1 (recCap s) * stripeSize

/-- Table 12-9: a chunk as the bytes of its stripe. -/
def Chunk.bytes (c : Chunk) : List Byte :=
  let d := c.data.map (BitVec.ofNat 8)
  toBytes (pack [(8, c.kind), (4, c.source), (4, 0), (6, c.flags), (10, 0), (32, d.length), (48, c.first), (48, c.last), (32, c.count),
    (32, 0), (32, crc32c d)]) 32 ++ d ++ List.replicate (chunkLen d.length - 32 - d.length) 0

/-- A closed chunk is put into the stripe in assembly. -/
def placeChunk (s : State) (c : Chunk) : State :=
  let bs := c.bytes
  let s1 := memWrite s (recAddr s + 256 + s.move.fill) bs
  let m := s1.move
  { s1 with move := { m with fill := m.fill + bs.length, chunksN := m.chunksN + 1, scrc := crcRun m.scrc bs,
                             topen := if stripeBegun s then m.topen else timeRead s } }

/-- The open chunk of source j closes. -/
def closeSource (s : State) (j : Nat) : State :=
  match s.move.open_.find? (fun c => c.source == j) with
  | some c => placeChunk { s with move := { s.move with open_ := s.move.open_.erase c } } c
  | none => s

/-- Every open chunk closes, in the order begun. -/
def closeOpen (s : State) : State := (s.move.open_.map (·.source)).foldl closeSource s

/-- ASCII bytes in order as one number (Tables 12-6 to 12-8): CLEARVOL, CLEARREC, CLEARSTR. -/
def magicVol : Nat := ofBytes [0x43, 0x4C, 0x45, 0x41, 0x52, 0x56, 0x4F, 0x4C]
def magicRec : Nat := ofBytes [0x43, 0x4C, 0x45, 0x41, 0x52, 0x52, 0x45, 0x43]
def magicStr : Nat := ofBytes [0x43, 0x4C, 0x45, 0x41, 0x52, 0x53, 0x54, 0x52]

/-- Table 12-8: the header of the stripe in assembly. -/
def stripeHeader (s : State) : List Byte :=
  let m := s.move
  let b := toBytes (pack [(64, magicStr), (64, m.volId), (64, m.next), (16, m.entry), (16, 0), (32, m.seqNo), (32, m.fill), (16, m.chunksN),
    (16, 0), (80, m.topen), (32, m.scrc ^^^ 0xFFFFFFFF), (1584, 0)]) 252
  b ++ toBytes (crc32c b) 4

/-- Change the directory entry of the open recording. -/
def modEntry (s : State) (f : DirEnt → DirEnt) : State := s.setDirE s.move.entry (f (s.dirE s.move.entry))

/-- Close the stripe in assembly and hand it to its drive (R434, R435). Poisoned lines go out as zeros, counted once
per stripe. -/
def handStripe (s : State) (check : Bool) : State :=
  let s0 := closeOpen s
  if s0.move.chunksN = 0 then s0 else
  let a := recAddr s0
  let n := ceilDiv (256 + s0.move.fill) 4096 * 4096
  let h := stripeHeader s0
  let s1 := memWrite (memWrite s0 (a + 256 + s0.move.fill) (List.replicate (n - 256 - s0.move.fill) 0)) a h
  let bad := (s1.mem.poison ++ s1.mem.poisonX).filter (fun l => decide (a ≤ l ∧ l < a + n))
  let s2 := bad.foldl (fun x l => poisonPost x { code := some 1, inst := s1.move.next % max 1 s1.move.drives, master := 5 } l) s1
  let s3 := modEntry s2 (fun e => { e with bytes := e.bytes + s2.move.fill, last := s2.move.next,
                                           badStripes := if bad.isEmpty then e.badStripes else sat32 e.badStripes })
  let m := s3.move
  { s3 with move := { m with
      next := m.next + 1, seqNo := m.seqNo + 1, fill := 0, chunksN := 0, scrc := 0xFFFFFFFF, topen := 0,
      recBad := if bad.isEmpty then m.recBad else m.recBad ++ [m.seqNo],
      stripes := m.stripes ++ [{ seq := m.seqNo, fill := m.fill, chunks := m.chunksN, check := check }],
      hdrs := m.hdrs ++ h.map BitVec.toNat } }

/-- A number list as bytes. -/
def bytesOf (l : List Nat) : List Byte := l.map (BitVec.ofNat 8)

/-- A directory entry as its 512 bytes. -/
def DirEnt.text (e : DirEnt) (n : Nat) : List Byte :=
  let src := fun j => let x := e.sources.getD j 0; if x = 0 then 0 else pack [(8, srcKind x), (8, if srcKind x = 1 then srcStream x else 0xFF),
    (16, if srcKind x = 2 then srcRing x else 0xFFFF), (32, 0)]
  let b := toBytes (pack ([(64, magicRec), (32, e.gen), (16, n), (4, e.st), (4, e.end_), (8, e.nsrc), (64, e.first), (64, e.last), (80, e.openT), (80, e.closeT),
    (64, e.openUtc), (1, b2n e.utcValid), (31, 0), (32, e.calCount), (32, e.badStripes), (64, e.bytes), (32, e.gapGrains), (32, e.recSkip), (128, e.keyId)] ++
    (List.range 16).map (fun j => (64, src j)) ++ [(384, e.digest), (768, e.sig), (1056, 0)])) 508
  b ++ toBytes (crc32c b) 4

/-- Seal an entry (R428): the digest of the stripe headers, and the signature over bytes 0 to 279 as finally written. -/
def sealEntry (s : State) (n : Nat) (f : DirEnt → DirEnt) : State :=
  let e := f (s.dirE n)
  let e1 := { e with gen := e.gen + 1, keyId := Config.keyId.toNat, digest := ofBytes (Config.sha384 (bytesOf s.move.hdrs)) }
  let e2 := { e1 with sig := ofBytes (Config.sign (Config.sha384 ((e1.text n).take 280)) s.sec.sigNo) }
  { s.setDirE n e2 with sec := { s.sec with sigNo := s.sec.sigNo + 1 } }

/-- The command of an opcode in progress at the storage port. -/
def storCmd (s : State) (op : Nat) : Option InProg := s.host.inProg.find? (fun p => p.opcode == op)

/-- End the storage command of an opcode, if it is in progress. -/
def storFinish (s : State) (op status rlen result : Nat) : State :=
  match storCmd s op with
  | some p => finish s p status rlen result
  | none => s

/-- Enter the next stage of the storage operation in progress. -/
def setJob (s : State) (j : Nat) : State := { s with move := { s.move with job := j } }

/-- STOR_MOUNTED of the volume (Table 12-14). -/
def mountPost (s : State) : State :=
  post s 0x0B08 (pack [(3, s.move.drives), (1, b2n s.move.mounted), (28, 0), (32, s.move.admitRate), (64, s.move.next)])

/-- The volume is unmounted: REC_END has been posted. -/
def unmountNow (s : State) : State :=
  if !s.move.mounted then s else
  let s1 := { s with move := { s.move with mounted := false, job := 0 } }
  let s2 := mountPost ((List.range 4).foldl (fun a n => a.modLink n (fun x => { x with member := false })) s1)
  let s3 := (List.range 4).foldl (fun a n => endWindow a (0x2200 + n)) s2
  { s3 with move := { s3.move with vstripes := 0, next := 0, admitRate := 0, admitV := 0, drives := 0, dir := [], jobAt := 0, flushOf := [] } }

/-- STATE of an ended recording. -/
def endState (end_ : Nat) : Nat := if end_ = 2 then 4 else 2

/-- The recording is sealed; its entry is written next (R428). -/
def sealRec (s : State) : State :=
  let m := s.move
  setJob (sealEntry s m.entry (fun e => { e with st := endState m.ending, end_ := m.ending, last := if m.ending = 2 then e.last else m.next - 1 })) 11

/-- The sealed entry is written: REC_END, REC_CLOSE completes, and after a drive failure the volume is unmounted. -/
def recGone (s : State) : State :=
  let m := s.move
  let e := s.dirE m.entry
  let s1 := post s 0x0B07 (pack [(16, m.entry), (4, m.ending), (4, e.st), (64, e.last), (32, e.gapGrains)])
  let s2 := { s1 with move := { s1.move with
    entry := 0xFFFF, ending := 0xFF, job := 0, recLoad := 0, recBuf := noHandle, recSrc := [], recNext := [], recEp := [], recLim := [], recFin := [], recClose := none,
    open_ := [], stripes := [], recBad := [], flushOf := [], jobAt := 0, cpAt := 0, fill := 0, chunksN := 0, seqNo := 0, scrc := 0xFFFFFFFF, topen := 0, hdrs := [], flushing := false, gapGrains := 0 } }
  let s3 := storFinish s2 0x0B0C (if m.ending = 2 then stFaulted else 0) (if m.ending = 2 then 0 else 4)
    (if m.ending = 2 then 0 else pack [(16, m.entry), (48, 0), (64, e.last), (64, e.bytes), (32, e.gapGrains)])
  if m.ending = 2 then unmountNow s3 else s3

/-! ## Entries and Flushes on the drives (R417, R423, R435) -/

/-- The link of drive d of the volume, while the drive works. -/
def driveLink (s : State) (d : Nat) : Option Nat := (List.range 4).find? (fun n => (s.link n).ok && (s.link n).drive == d)

/-- The commands that write an entry, in order, as (link, kind) with kind 1 a Write and 3 a Flush: copy A on the drive of volume stripe 0,
copy B on that of stripe 1; a drive without a write cache gets no Flush (R417, R421, R423). -/
def entryCmds (s : State) : List (Nat × Nat) :=
  [0, 1 % max 1 s.move.drives].flatMap (fun d => match driveLink s d with
    | some n => (n, 1) :: (if (s.link n).vwc then [(n, 3)] else [])
    | none => [])

/-- Links of the volume's drives to which a Flush goes. -/
def flushLinks (s : State) : List Nat := (List.range 4).filter (fun n => (s.link n).ok && (s.link n).member && (s.link n).vwc)

/-- The recording is sealed (R428); where no copy of the directory survives, nothing is written. -/
def recSeal (s : State) : State :=
  let s1 := sealRec { s with move := { s.move with jobAt := 0 } }
  if (entryCmds s1).isEmpty then recGone s1 else s1

/-- Issue the Flush of every drive once every stripe up to a checkpoint's has completed (R435). -/
def flushCheck (s : State) : State :=
  let m := s.move
  let due := m.stripes.any (fun x => x.check && m.stripes.all (fun y => y.done || decide (x.seq < y.seq)))
  if m.flushing || !due then s
  else if (flushLinks s).isEmpty then { s with move := { m with stripes := m.stripes.filter (fun x => !x.done) } }
  else { s with move := { m with flushing := true, flushOf := flushLinks s, stripes := m.stripes.map (fun x => { x with flush := x.done }) } }

/-- The stripes of an ending recording have all completed: the last Flush is issued (R436). -/
def endCheck (s : State) : State :=
  if s.move.job ≠ 9 || s.move.flushing || !s.move.stripes.all (·.done) then s
  else if (flushLinks s).isEmpty then recSeal s
  else { s with move := { s.move with job := 10, flushOf := flushLinks s } }

/-- A recording ends (R436): its last stripe is handed over, its sources are released. `at_` is the tick of its end. -/
def recEndAt (s : State) (end_ : Nat) (at_ : Tick) : State :=
  if s.move.entry = 0xFFFF || s.move.ending ≠ 0xFF then s else
  let s1 := handStripe s false
  let s2 := s1.move.recSrc.foldl (fun a e => if srcKind e = 2 then a.modReg (srcRing e) (fun r => { r with bound := 0 }) else a) s1
  let s3 := modEntry s2 (fun e => { e with closeT := stampOf at_, gapGrains := s2.move.gapGrains })
  endCheck { s3 with move := { s3.move with ending := end_, recClose := none, job := 9 } }

/-- A recording ends at the present tick. -/
def recEnd (s : State) (end_ : Nat) : State := recEndAt s end_ s.now

/-- Source j of a closing recording has given everything before the close; with the last one the recording ends (R436). -/
def recFinish (s : State) (j : Nat) : State :=
  match s.move.recClose with
  | none => s
  | some c =>
    let s1 := { s with move := { s.move with recFin := tput false s.move.recFin j true } }
    if (List.range s1.move.recSrc.length).all (fun k => tget false s1.move.recFin k) then recEndAt s1 c.2 c.1 else s1

/-- Hand over, and end with END = 1 when the volume is full (R436). -/
def handFull (s : State) (check : Bool) : State :=
  let s1 := handStripe s check
  if s1.move.next ≥ s1.move.vstripes then recEnd s1 1 else s1

/-- Make room for `grow` more bytes in the stripe in assembly, or for `fresh` in the next one once that stripe, being full, has been
handed over. Room is missing when the buffer has no space or the recording has ended. -/
def recMake (s : State) (grow fresh : Nat) : State × Bool :=
  if s.move.fill + openLen s + grow ≤ stripeRoom && (stripeBegun s || decide (1 ≤ bufFree s)) then (s, true)
  else if stripeBegun s && decide (fresh ≤ stripeRoom) then
    (let s1 := handFull s false
     (s1, recTakes s1 && decide (1 ≤ bufFree s1)))
  else (s, false)

/-- Bytes by which appending `n` payload bytes to source j's chunk grows the stripe. -/
def growth (s : State) (j n : Nat) : Nat :=
  match s.move.open_.find? (fun c => c.source == j) with
  | some c => if c.data.length + n ≤ 1048576 then chunkLen (c.data.length + n) - chunkLen c.data.length else chunkLen n
  | none => chunkLen n

/-- Append one grain or record to source j's open chunk, or begin one (R427). -/
def appendChunk (s : State) (j kind n flags : Nat) (bs : List Byte) : State :=
  let fits := fun (c : Chunk) => c.source == j && decide (c.data.length + bs.length ≤ 1048576)
  match s.move.open_.find? fits with
  | some c =>
    let c' := { c with flags := c.flags ||| flags, last := n, count := c.count + 1, data := c.data ++ bs.map BitVec.toNat }
    { s with move := { s.move with open_ := s.move.open_.map (fun x => if x.source = j then c' else x) } }
  | none =>
    let s1 := closeSource s j
    let c : Chunk := { kind := kind, source := j, flags := flags, first := n, last := n, count := 1, data := bs.map BitVec.toNat }
    { s1 with move := { s1.move with open_ := s1.move.open_ ++ [c], topen := if stripeBegun s1 then s1.move.topen else timeRead s } }

/-- The EPOCH chunk of source j (R427). -/
def epochChunk (s : State) (j id : Nat) : State :=
  let c : Chunk := { kind := 4, source := j, data := (toBytes (pack [(80, grainTime s id (s.epoch id).ep0), (8, (s.epoch id).reason)]) 16).map BitVec.toNat }
  let s1 := placeChunk (closeSource s j) c
  { s1 with move := { s1.move with recEp := tput false s1.move.recEp j true } }

/-- A grain of a stream, offered to source j of the recording (R433, R434). -/
def recGrain (s : State) (j id n flags : Nat) (data : List Byte) : State :=
  if !recTakes s || n < tget 0 s.move.recNext j then s
  else if s.move.recClose.any (fun c => decide (stampOf c.1 ≤ grainTime s id n)) then recFinish s j else
  let gap := missOf s 0x50 id
  let ep := tget false s.move.recEp j
  let fl := if gap.isSome then flags ||| 16 else flags
  let bs := capBytes id n fl data
  let extra := (if ep then 0 else 64) + (if gap.isSome then 32 else 0)
  let g := if gap.isSome || !ep then chunkLen bs.length else growth s j bs.length
  match recMake s (extra + g) (extra + chunkLen bs.length) with
  | (s1, false) => if recTakes s1 then missGrain (closeSource s1 j) 0x50 id n else s1
  | (s1, true) =>
    let s2 := if ep then s1 else epochChunk s1 j id
    let s3 := match gap with
      | none => s2
      | some r => gapPost (placeChunk (closeSource s2 j) { kind := 3, source := j, first := r.1 % 2^48, last := r.2 % 2^48 }) 0x50 id
    appendChunk s3 j 1 (n % 2^48) fl bs

/-- Sources of the recording that take a stream. -/
def recSources (s : State) (id : Nat) : List Nat :=
  (List.range s.move.recSrc.length).filter (fun j => srcKind (s.move.recSrc.getD j 0) == 1 && srcStream (s.move.recSrc.getD j 0) == id)

/-- The stream of some sources stops, or its epoch ends other than by rollover: chunks close, and an EPOCH chunk is due for the next
epoch (R427). -/
def recEpoch (s : State) (id : Nat) : State :=
  if !recTakes s then s else
  (recSources s id).foldl (fun a j =>
    let a1 := closeSource a j
    recFinish { a1 with move := { a1.move with recNext := tput 0 a1.move.recNext j 0, recEp := tput false a1.move.recEp j false } } j) s

/-- The EPOCH chunk of a new epoch or a rollover of some sources' stream follows the change: at once or, where the buffer has no space,
before the next grain (R427). -/
def recBegin (s : State) (id : Nat) : State :=
  if !recTakes s then s else
  (recSources s id).foldl (fun a j =>
    match recMake a 64 64 with
    | (b, true) => epochChunk b j id
    | (a, false) => { a with move := { a.move with recEp := tput false a.move.recEp j false } }) s

/-- The records of ring source j that the recorder takes now, in WPOS order; `n` bounds them (R427, R434). -/
def recRing : Nat → State → Nat → Nat → State
  | 0, s, _, _ => s
  | n + 1, s, j, h =>
    let r := s.reg h
    match r.recs with
    | [] => s
    | len :: _ =>
      if !recTakes s || (s.move.recClose.isSome && decide (tget 0 s.move.recLim j ≤ r.rpos)) then s
      else if 4194016 < len then
        recRing n (ringAck (modEntry s (fun e => { e with recSkip := sat32 e.recSkip })) h (r.rpos + len)) j h
      else
        match recMake s (growth s j len) (chunkLen len) with
        | (s1, false) => s1
        | (s1, true) =>
          let x := ringRead s1 h r.rpos len { code := some 1, inst := s1.move.next % max 1 s1.move.drives, master := 5 }
          recRing n (ringAck (appendChunk x.2.2 j 2 0 0 x.1) h (r.rpos + len)) j h

/-- Every ring source's unread records are taken as space allows. -/
def recPull (s : State) : State :=
  if !recTakes s then s else
  (List.range s.move.recSrc.length).foldl (fun a j =>
    let e := a.move.recSrc.getD j 0
    if srcKind e ≠ 2 then a else
    let a1 := recRing (a.reg (srcRing e)).recs.length a j (srcRing e)
    if a1.move.recClose.isSome && decide (tget 0 a1.move.recLim j ≤ (a1.reg (srcRing e)).rpos) then recFinish a1 j else a1) s

/-! ## Streaming channels: the grain side (R410, R411) -/

def Dma.srcGrain (d : Dma) : Bool := bit d.p 6
def Dma.sIrq (d : Dma) : Bool := bit d.p 7
def Dma.sStream (d : Dma) : Nat := fld d.p 8 8
def Dma.sRing (d : Dma) : Nat := fld d.p 16 16
def Dma.gpr (d : Dma) : Nat := fld d.p 32 7
def Dma.sVector (d : Dma) : Nat := fld d.p 48 6
def Dma.hsize (d : Dma) : Nat := fld d.p 64 32
def Dma.sRate (d : Dma) : Nat := fld d.p 96 16
def Dma.moderate (d : Dma) : Nat := fld d.p 112 16
def Dma.haddr (d : Dma) : Nat := fld d.p 128 64
def Dma.hpos (d : Dma) : Nat := fld d.p 192 64

/-- Bytes of a grain record of k grains of b bytes. -/
def grainRecLen (k b : Nat) : Nat := ceilDiv (16 + k * b) 16 * 16

/-- The open grain record of a channel is written into its device ring. -/
def streamClose (s : State) (c : Nat) (short : Bool) : State :=
  let d := s.dma c
  if d.grains.isEmpty then s else
  let h := pack [(8, 2), (8, d.sStream), (8, d.grains.length), (6, d.grains.foldl (fun a g => a ||| g.2.1) 0), (1, b2n short), (1, 0),
    (48, (d.grains.headD (0, 0, [])).1), (48, 0)]
  let bs := toBytes h 16 ++ (d.grains.flatMap (fun g => g.2.2)).map (BitVec.ofNat 8)
  ringPut (s.setDma c { d with grains := [] }) d.sRing (bs ++ List.replicate (ceilDiv bs.length 16 * 16 - bs.length) 0)

/-- Grain n does not reach a channel: its record closes early (R411). -/
def streamMiss (s : State) (c id n : Nat) : State := missGrain (streamClose s c true) (0x30 + c) id n

/-- A grain of a stream, offered to channel c (R411). -/
def streamGrain (s : State) (c id n flags : Nat) (data : List Byte) : State :=
  let d := s.dma c
  if !d.on || d.mode ≠ 2 || !d.srcGrain || d.sStream ≠ id || n < d.first then s
  else if d.grains.isEmpty && !ringRoom s d.sRing (grainRecLen d.gpr (data.length + 8)) then streamMiss s c id n
  else
    let gap := (missOf s (0x30 + c) id).isSome
    let fl := if gap then flags ||| 16 else flags
    let s1 := if gap then gapPost s (0x30 + c) id else s
    let d1 := s1.dma c
    let s2 := s1.setDma c { d1 with grains := d1.grains ++ [(n % 2^48, fl, (capBytes id n fl data).map BitVec.toNat)] }
    if d1.grains.length + 1 ≥ d.gpr then streamClose s2 c false else s2

/-- Channels that stream grains of a stream. -/
def streamChans (s : State) (id : Nat) : List Nat :=
  (List.range 32).filter (fun c => (s.dma c).on && (s.dma c).mode == 2 && (s.dma c).srcGrain && (s.dma c).sStream == id)

/-- The stream of some channels stops or begins a new epoch other than by rollover. -/
def streamEpoch (s : State) (id : Nat) : State :=
  (streamChans s id).foldl (fun a c => (streamClose a c true).modDma c (fun d => { d with first := 0 })) s

end Sys2Proof.Machine
end

