-- ==== Sys2Proof/Machine/SpecOps.lean ====
section
/-! DEFINITION. Trace units, spectrum outputs, missing frames of a lane, and what every consumer of a stream does when
the stream stops or begins a new epoch (03_spectral_engine.md R67 to R73, R89 to R91, R95 to R99; R29). -/

namespace Sys2Proof.Machine

/-! ## Records (R99) -/

/-- Values in a record's format. -/
def valueBytes (f32 : Bool) (vs : List Nat) : List Byte :=
  vs.flatMap (fun v => if f32 then toBytes v 4 else toBytes (enc 16 (levelCode v)) 2)

/-- Header and values, padded to 32 bytes. -/
def recordBytes (h : Nat) (f32 : Bool) (vs : List Nat) : List Byte :=
  let b := toBytes h 32 ++ valueBytes f32 vs
  b ++ List.replicate (ceilDiv b.length 32 * 32 - b.length) 0

/-- Bytes of a spectrum or trace record: header, values, padding to 32. -/
def recordLen (points : Nat) (f32 : Bool) : Nat := ceilDiv (32 + points * (if f32 then 4 else 2)) 32 * 32

/-- Table 3-6. `x` lists UNIT, KIND and DETECTOR. -/
def recordHeader (s : State) (c : Nat) (kind unit det flags : Nat) (trunc f32 : Bool) (fi fo li lo : Nat) (k0 : Int)
    (count points seq : Nat) : Nat :=
  pack [(8, kind), (8, c), (8, unit), (8, (s.lane c).run.source), (6, flags), (1, b2n trunc), (1, 0), (1, b2n f32), (1, b2n (s.lane c).run.norm), (2, 0),
    (4, det), (48, fi), (16, fo), (48, li), (16, lo), (24, enc 24 k0), (24, count), (24, points), (8, seq)]

/-- A spectrum: its lane, the epoch of its input, its first sample, length, flags and bins. -/
structure Spectrum where
  c     : Nat
  ep    : Epoch
  n     : Nat
  first : Nat
  flags : Nat
  bins  : List Nat

/-- The time of its first sample. -/
def Spectrum.time (x : Spectrum) : Stamp := x.ep.time x.first

def Spectrum.firstIdx (x : Spectrum) : Nat := x.first / 256 % 2^48
def Spectrum.lastIdx (x : Spectrum) : Nat := (x.first + x.n - 1) / 256 % 2^48
def Spectrum.lastOff (x : Spectrum) : Nat := (x.first + x.n - 1) % 256

/-- A spectrum record (R98, R99). -/
def spectrumRecord (s : State) (x : Spectrum) (flags : Nat) (f32 : Bool) (k0 : Int) (n seq : Nat) : List Byte :=
  recordBytes (recordHeader s x.c 0 0xFF 0xF flags false f32 x.firstIdx (x.first % 256) x.lastIdx x.lastOff k0 1 n seq) f32
    (binRun s x.c x.bins k0 n)

/-! ## Trace units (R95 to R97) -/

/-- First bin and number of bins of point j (R95). -/
def pointBins (k0 : Int) (K P j : Nat) : Int × Nat :=
  if P ≤ K then (k0 + (j * K / P : Nat), (j + 1) * K / P - j * K / P) else (k0 + (j * K / P : Nat), 1)

/-- What one spectrum gives point j of a detector (Table 3-5). -/
def pointValue (s : State) (t : Trace) (x : Spectrum) (j : Nat) : ℚ :=
  let b := pointBins t.firstBin t.bins t.points j
  let ps := binRun s x.c x.bins b.1 b.2
  match t.det with
  | 0 => (ps.map ofF32).foldl max 0
  | 1 => (ps.map ofF32).foldl min (ofF32 (ps.headD 0))
  | 2 => ofF32 (binOf s x.c x.bins (t.firstBin + ((2 * j + 1) * t.bins / (2 * t.points) : Nat)))
  | 4 => (ps.map (fun p => realLog10 (sumPower p))).foldl (· + ·) 0
  | 5 => (ps.map (fun p => realSqrt (sumPower p))).foldl (· + ·) 0
  | _ => (ps.map sumPower).foldl (· + ·) 0

/-- Combine with the earlier spectra of the record. -/
def pointCombine (det : Nat) (a v : ℚ) : ℚ :=
  match det with
  | 0 => max a v
  | 1 => min a v
  | 2 => v
  | _ => a + v

/-- The value of a point of a record of `count` spectra. -/
def pointFinal (s : State) (c : Nat) (t : Trace) (j : Nat) (a : ℚ) : ℚ :=
  let n : ℚ := t.count * (pointBins t.firstBin t.bins t.points j).2
  match t.det with
  | 3 => a / n
  | 4 => realExp10 (a / n)
  | 5 => (a / n) * (a / n)
  | 6 => a / t.count * laneDelta s c
  | _ => a

/-- The unit writes its record and starts again (R97). -/
def traceWrite (s : State) (id : Nat) (trunc : Bool) : State :=
  let t := s.trace id
  if !t.on || t.count = 0 then s else
  let c := id / 4
  let sus := (if isSuspect s (0x0A44 + id) then 32 else 0) ||| drainFlag s
  let vs := (t.acc.zipIdx).map (fun p => toF32 (pointFinal s c t p.2 p.1))
  let h := recordHeader s c 1 (id % 4) t.det (t.flags ||| sus) trunc t.f32 t.firstIdx t.firstOff t.lastIdx t.lastOff t.firstBin t.count t.points t.seq
  let s1 := recPull (ringWrite (drained (clearOnce s [0x0A44 + id])) t.ring (recordBytes h t.f32 vs)).1
  let s2 := s1.setTrace id { t with count := 0, acc := [], flags := 0, seq := (t.seq + 1) % 256, on := !t.single }
  if t.single then post s2 0x0405 (pack [(8, id), (48, t.lastIdx)]) else s2

/-- A spectrum of the unit's lane (R96, R111). -/
def traceTake (s : State) (x : Spectrum) (T : Stamp) (id : Nat) : State :=
  let t := s.trace id
  if !t.on || T < t.fromTime then s else
  let vs := (List.range t.points).map (pointValue s t x)
  let t1 := { t with
    acc := if t.count = 0 then vs else t.acc.zipWith (pointCombine t.det) vs, count := t.count + 1, flags := t.flags ||| x.flags,
    firstIdx := if t.count = 0 then x.firstIdx else t.firstIdx, firstOff := if t.count = 0 then x.first % 256 else t.firstOff,
    lastIdx := x.lastIdx, lastOff := x.lastOff }
  let s1 := s.setTrace id t1
  if t1.count ≥ t1.m then traceWrite s1 id false else s1

/-- Every unit of a lane writes what it holds early, with TRUNC (R97). -/
def laneTrunc (s : State) (c : Nat) : State := (List.range 4).foldl (fun a u => traceWrite a (4 * c + u) true) s

/-- The lane's spectrum output takes a spectrum: the last one of each DECIM is written (R98). -/
def outTake (s : State) (x : Spectrum) : State :=
  let o := s.sout x.c
  if !o.on then s
  else if o.count + 1 < o.decim then s.setSout x.c { o with count := o.count + 1 }
  else recPull (ringWrite (drained (s.setSout x.c { o with count := 0, seq := (o.seq + 1) % 256 })) o.ring
    (spectrumRecord s x (x.flags ||| drainFlag s) o.f32 o.firstBin o.bins o.seq)).1

/-! ## Frames in order, and missing frames (R67, R70 to R73) -/

/-- The state in which the lane has the settings of its next frame in force. -/
def frontState (s : State) (c : Nat) : State :=
  match (s.lane c).old with
  | [] => s
  | r :: _ => s.setLane c { s.lane c with run := r }

/-- The lane has a frame to come. -/
def hasFront (s : State) (c : Nat) : Bool := (s.lane c).on || !(s.lane c).old.isEmpty

/-- A grain that a run's frames can contain. -/
def LaneRun.takes (r : LaneRun) (h : HeldGrain) : Bool := h.id == r.source && h.g.ep.no == r.no

/-- The grain that holds a frame's last sample has been delivered to the lane, or is missing. -/
def frameReached (x : Lane) (first len : Nat) : Bool :=
  x.buf.any (fun h => x.run.takes h && decide ((first + len - 1) / 256 ≤ h.g.n))

/-- A frame contains a missing grain (R72). -/
def frameLost (x : Lane) (first len : Nat) : Bool :=
  x.buf.any (fun h => h.miss && x.run.takes h && decide (256 * h.g.n < first + len ∧ first < 256 * h.g.n + 256))

/-- No frame of the run begins at `first`: the settings have changed before it (R71), or the epoch ends inside it (R70). -/
def LaneRun.over (r : LaneRun) (first len : Nat) : Bool :=
  r.endS.any (fun e => decide (e ≤ first)) || r.lastS.any (fun e => decide (e < first + len))

/-- Pass over lost frames from `first`: the first frame that is not lost, and how many are. -/
def skipLost (x : Lane) (hop len : Nat) : Nat → Nat → Nat → Nat × Nat
  | 0, first, k => (first, k)
  | n + 1, first, k =>
    if !x.run.over first len && frameReached x first len && frameLost x first len then skipLost x hop len n (first + hop) (k + 1)
    else (first, k)

/-- The frames that the grains held can reach. -/
def lostBound (x : Lane) (hop : Nat) : Nat := x.buf.foldl (fun a h => max a (256 * (h.g.n + 1))) 0 / max 1 hop + 1

/-- Lost frames at the front of the lane's sequence are counted, and the next spectrum carries GAP (R72). A run that has no
frame left is dropped; trace records that it holds open close then, where that is due (R97). `n` bounds the runs passed. -/
def laneSkip : Nat → State → Nat → State
  | 0, s, _ => s
  | n + 1, s, c =>
    let x := s.lane c
    let f := frontState s c
    let y := f.lane c
    let q := skipLost y (hopEff f c) (laneN f c) (lostBound y (hopEff f c)) y.run.nextS 0
    let z := { x with gapCount := satAdd 32 x.gapCount q.2, gapPend := x.gapPend || q.2 != 0 }
    let r := { y.run with nextS := q.1 }
    match x.old with
    | [] => s.setLane c { z with run := r }
    | _ :: l =>
      if !r.over q.1 (laneN f c) then s.setLane c { z with old := r :: l }
      else
        let s1 := if r.trunc then laneTrunc (s.setLane c { z with run := r }) c else s
        laneSkip n (s1.setLane c { z with old := l }) c

/-- Bring the lane's sequence to its next frame that can be computed. -/
def laneFront (s : State) (c : Nat) : State := laneSkip ((s.lane c).old.length + 1) s c

/-- Grains that no frame to come contains are forgotten. -/
def laneForget (s : State) (c : Nat) : State :=
  s.modLane c (fun x => { x with
    buf := x.buf.filter (fun h => (x.run :: x.old).any (fun r => r.takes h && decide (r.nextS < 256 * h.g.n + 256))) })

/-- A grain reaches lane c, or is missing there. -/
def laneGrain (s : State) (c : Nat) (h : HeldGrain) : State :=
  laneForget (laneFront (s.modLane c (fun x => { x with buf := x.buf ++ [h] })) c) c

/-- Trace records of the lane close early once the frames before a change have been computed (R97). -/
def laneTruncDue (s : State) (c : Nat) : State :=
  match (s.lane c).old.reverse with
  | [] => laneTrunc s c
  | r :: l => s.modLane c (fun x => { x with old := l.reverse ++ [{ r with trunc := true }] })

/-- A limit that can only fall. -/
def minLimit (a : Option Nat) (b : Nat) : Option Nat := some (match a with | some x => min x b | none => b)

/-- An epoch of stream `id` has ended for lane c, with the samples below `lim` delivered (R70): frames in progress are discarded,
and the grid restarts at grain 0. -/
def laneEnd (s : State) (c id no lim : Nat) : State :=
  let x := s.lane c
  let mine := fun (r : LaneRun) => r.source == id && r.no == no
  let old := x.old.map (fun r => if mine r then { r with lastS := minLimit r.lastS lim } else r)
  laneForget (laneFront (s.setLane c (if x.on && mine x.run then
    { x with old := old ++ [{ x.run with lastS := some lim }], run := { x.run with no := no + 1, origin := 0, nextS := 0 } }
    else { x with old := old })) c) c

/-! ## Consumers of a stream (R13, R29) -/

/-- The lanes that take a stream. -/
def lanesOf (s : State) (id : Nat) : List Nat := (List.range 12).filter (fun c => (s.lane c).on && (s.lane c).run.source == id)

/-- A lane takes a stream, for frames of its present settings or of earlier ones. -/
def laneTakes (s : State) (c id : Nat) : Bool :=
  ((s.lane c).on && (s.lane c).run.source == id) || (s.lane c).old.any (fun r => r.source == id)

/-- Consumer code of a lane in gap records, and the lane of a code. -/
def laneConsumer (c : Nat) : Nat := if c < 4 then c else 0x20 + (c - 4)
def consumerLane (k : Nat) : Nat := if k < 0x10 then k else k - 0x20 + 4

/-- The code is a lane's. -/
def isLane (k : Nat) : Bool := decide (k < 4) || decide (0x20 ≤ k ∧ k < 0x28)

/-- A down-converter takes a stream, for the epoch in progress or for one to begin. -/
def ddcTakes (s : State) (n id : Nat) : Bool :=
  let d := s.ddc n
  (d.on && d.source == id) || (d.live && d.src == id)

/-- The consumer is bound to the stream. -/
def boundTo (s : State) (k id : Nat) : Bool :=
  if isLane k then laneTakes s (consumerLane k) id
  else if 0x10 ≤ k && k < 0x20 then ddcTakes s (k - 0x10) id
  else if 0x30 ≤ k && k < 0x50 then (streamChans s id).contains (k - 0x30)
  else if k = 0x50 then recTakes s && !(recSources s id).isEmpty
  else if k = 0x58 then decide (id < 6)
  else if 0x60 ≤ k && k < 0x80 then
    let u := s.au ((k - 0x60) / 4)
    u.runs && decide ((k - 0x60) % 4 < u.entries.length) && (u.entries.getD ((k - 0x60) % 4) {}).stream == id
  else decide (0x80 ≤ k ∧ k < 0xA0) && (s.feed (k - 0x80)).on && (s.feed (k - 0x80)).kind == 0 && (s.feed (k - 0x80)).source == id

/-- Codes that consumers of a stream can have. -/
def consumerCodes : List Nat := List.range 0xA0

/-- Where a consumer stands on a stream. -/
def cursorOf (s : State) (k id : Nat) : Nat × Nat := tget (0, 0) s.fe.cursor (missKey k id)
def setCursor (s : State) (k id : Nat) (v : Nat × Nat) : State :=
  { s with fe := { s.fe with cursor := tput (0, 0) s.fe.cursor (missKey k id) v } }

/-- A consumer is bound to a stream from the next grain boundary of the epoch in force on, or from the beginning of the next one (R16):
nothing is missing there yet. -/
def bindNow (s : State) (k id : Nat) : State :=
  setCursor { s with fe := { s.fe with miss := tput none s.fe.miss (missKey k id) none } } k id (epochNo s id, bindGrain s id)

/-- The tagged grains of a stream that some consumer has still to take. -/
def grainsOf (s : State) (id : Nat) : List Grain := if id < 6 then (s.str id).grains else (s.ddc (id - 16)).grains

/-- A grain lies at or after the place where a consumer stands; one that has not begun takes the epoch in force. -/
def awaits (s : State) (k id : Nat) (g : Grain) : Bool :=
  let c := cursorOf s k id
  if c.1 = 0 then g.ep.no == (s.epoch id).no else decide (c.1 < g.ep.no) || (c.1 == g.ep.no && decide (c.2 ≤ g.n))

/-- The grain that a consumer takes next (R13). -/
def nextFor (s : State) (k id : Nat) : Option Grain := (grainsOf s id).find? (awaits s k id)

/-- Grains that every consumer bound to the stream has taken are let go. -/
def letGo (s : State) (id : Nat) : State :=
  let keep := (grainsOf s id).filter (fun g => consumerCodes.any (fun k => boundTo s k id && awaits s k id g))
  if id < 6 then s.modStr id (fun x => { x with grains := keep }) else s.modDdc (id - 16) (fun d => { d with grains := keep })

/-- Every consumer bound to a stream stands somewhere in the epoch in force. -/
def bindAll (s : State) (id : Nat) : State :=
  consumerCodes.foldl (fun a k =>
    if boundTo a k id && (cursorOf a k id).1 == 0 then
      setCursor a k id ((a.epoch id).no, match nextFor a k id with
        | some g => g.n
        | none => if id < 6 then (a.str id).cur.next else (a.ddc (id - 16)).next)
    else a) s

/-- An epoch of a stream has ended, and all its grains have been tagged. -/
def epochOver (s : State) (id no : Nat) : Bool :=
  if id < 6 then ((s.str id).cur.ep.no != no || !(s.str id).running) && (s.str id).old.all (fun c => c.ep.no != no)
  else (s.ddc (id - 16)).ep.no != no || !(s.ddc (id - 16)).live

/-- A consumer has taken the last grain of an epoch that is over. -/
def consumerDone (s : State) (k id : Nat) : Bool :=
  let c := cursorOf s k id
  c.1 != 0 && epochOver s id c.1 && (grainsOf s id).all (fun g => g.ep.no != c.1 || decide (g.n < c.2))

/-- The stream's present epoch has begun: its EPOCH event has been posted. -/
def epochBegun (s : State) (id : Nat) : Bool := if id < 6 then (s.str id).running && !(s.str id).cur.announce else (s.ddc (id - 16)).live

/-- Every time-domain term that reads the stream clears its history (R119). -/
def clearTerms (s : State) (id : Nat) : State :=
  (List.range 64).foldl (fun a i =>
    let x := a.term i
    if x.on && x.ty ≤ 3 && fld x.p 32 8 = id then a.setTerm i x.clear else a) s

/-! ## Down-converter epochs (R89, R91) -/

/-- Down-converters fed by a stream. -/
def ddcsOf (s : State) (id : Nat) : List Nat := (List.range 16).filter (fun n => (s.ddc n).on && (s.ddc n).source == id)

/-- A down-converter begins an epoch with p0 the first sample of grain p of its source's epoch in force. -/
def ddcBegin (s : State) (n p : Nat) : State :=
  let d := s.ddc n
  let e := s.epoch d.source
  s.setDdc n { d with
    ep := { no := d.ep.no + 1, base := e.base, m0 := e.m0 + 256 * p, ns := e.ns, dec := 2^d.e, ep0 := 0, gain := d.gain, reason := e.reason },
    live := true, src := d.source, srcNo := e.no, endAt := none, start := none, p0 := 256 * p, next := 0,
    tunes := [{ first := 0, start := 0, freq := d.freq, phase := d.phase * 2^32 }],
    buf := d.buf.filter (fun h => h.id == d.source && h.g.ep.no == e.no) }

/-- A down-converter that has done with its last epoch begins one in its source's epoch in force, where one is due (R91, R109). -/
def ddcFollow (s : State) (n : Nat) : State :=
  let d := s.ddc n
  let no := (s.epoch d.source).no
  if !d.on || d.live || !epochBegun s d.source then s else
  match d.start with
  | some (k, g) => if k = no then ddcBegin s n g else if k < no then ddcBegin s n 0 else s
  | none => if d.src != d.source || d.srcNo != no then ddcBegin s n 0 else s

/-! ## The end of an epoch at a consumer -/

/-- What a consumer other than a down-converter does when the last grain of an epoch has reached it (R70, R97, R119, R345, R411, R427):
what is partly filled closes. -/
def endAt (s : State) (k id no lim : Nat) : State :=
  if isLane k then
    let s1 := laneEnd s (consumerLane k) id no lim
    if epochBegun s1 id && (s1.epoch id).no != no then laneTruncDue s1 (consumerLane k) else s1
  else if 0x30 ≤ k && k < 0x50 then (streamClose s (k - 0x30) true).modDma (k - 0x30) (fun d => { d with first := 0 })
  else if k = 0x50 then
    let s1 := recEpoch s id
    if epochBegun s1 id && (s1.epoch id).no != no then recBegin s1 id else s1
  else if k = 0x58 then clearTerms s id
  else if 0x80 ≤ k then (feedEpochEnd s (k - 0x80)).modFeed (k - 0x80) (fun f => { f with first := 0 })
  else s

/-- The last grain of an epoch has reached a consumer: a gap record that is still open is posted (R29), and the consumer goes on with
grain 0 of the next epoch. -/
def consumerEnd (s : State) (k id : Nat) : State :=
  let c := cursorOf s k id
  setCursor (endAt (gapPost s k id) k id c.1 (256 * c.2)) k id (c.1 + 1, 0)

/-- The consumers of a down-converter's stream that have taken its last grain. -/
def ddcConsumersOver (s : State) (id : Nat) : State :=
  consumerCodes.foldl (fun a k => if boundTo a k id && consumerDone a k id then consumerEnd a k id else a) s

/-- A down-converter's epoch ends: its consumers go on to the next, which begins where it is due. -/
def ddcEnd (s : State) (n : Nat) : State :=
  if !(s.ddc n).live then s else
  ddcFollow (letGo (ddcConsumersOver ((bindAll s (16 + n)).modDdc n (fun d => { d with live := false, endAt := none })) (16 + n)) (16 + n)) n

/-- The down-converter has taken every grain to which the settings of its epoch apply (R16, R109): the epoch ends. -/
def ddcPass (s : State) (n : Nat) : State :=
  let d := s.ddc n
  let c := cursorOf s (0x10 + n) d.src
  if d.live && d.endAt.any (fun e => decide (d.srcNo < c.1) || (d.srcNo == c.1 && decide (e ≤ c.2))) then ddcEnd s n else s

/-- Every consumer of a stream that has taken the last grain of an ended epoch goes on to the next. -/
def consumersOver (s : State) (id : Nat) : State :=
  consumerCodes.foldl (fun a k =>
    if !(boundTo a k id && consumerDone a k id) then a
    else
      let no := (cursorOf a k id).1
      let b := consumerEnd a k id
      if 0x10 ≤ k && k < 0x20 then
        let d := b.ddc (k - 0x10)
        if d.live && d.src == id && d.srcNo == no then ddcEnd b (k - 0x10) else ddcFollow b (k - 0x10)
      else b) s

/-- A stimulus step has ended, and the path is the host's again (R299): grains up to the next boundary carry CAL. An ATTEN step restores its
code, with a settle window of 1 µs; a trip that forces the attenuator takes precedence (R301). -/
def calLeave (s : State) (tgt : Nat) (c : CalStep) : State :=
  if c.blind then s else
  let g := nextGrain s tgt
  let s1 := { s with cal := { s.cal with stim := none }, fe := { s.fe with calOwn := tput false s.fe.calOwn tgt false } }
  let s2 := s1.modStr tgt (fun x =>
    { x with cur := { x.cur with calFrom := none, cal := x.cur.cal ++ (match x.cur.calFrom with | some u => [(u, g)] | none => []) } })
  let i := s2.inp c.input
  if c.step ≠ 4 || i.atten = c.atten || (i.tripped && i.protect) then s2 else
  let s3 := (keepFront s2 tgt g).setInp c.input { i with atten := c.atten }
  if (s3.str tgt).running then openSettle s3 tgt g 1600 else s3

/-- A calibration step of a target is aborted (R301): the first cause stands, and the step has ended. Its record is made by the row that ends it. -/
def calAbort (s : State) (tgt reason : Nat) : State :=
  match s.calStep tgt with
  | some c => if c.abort = 0 then calLeave (s.setCalStep tgt (some { c with abort := reason })) tgt c else s
  | none => s

/-- The units abort that capture a stream or one of its down-converters', or have a term on it (R144). -/
def abortEpoch (s : State) (id reason : Nat) : State :=
  (ddcsOf s id).foldl (fun a n => abortStream a (16 + n) reason) (abortStream s id reason)

/-- A stream's new epoch is in force (R70, R91, R144, R427): units that use it abort, its down-converters follow, trace records
and recordings take the change. -/
def streamBegin (s : State) (id : Nat) : State :=
  let no := (s.epoch id).no
  let s1 := abortEpoch s id 2
  let s2 := (lanesOf s1 id).foldl (fun a c => if (a.lane c).run.no == no then laneTruncDue a c else a) s1
  let s3 := if cursorOf s2 0x50 id = (no, 0) then recBegin s2 id else s2
  (ddcsOf s3 id).foldl ddcFollow s3

end Sys2Proof.Machine
end

