-- ==== Sys2Proof/Machine/StreamOps.lean ====
section
/-! DEFINITION. Starting and stopping streams, and operating the synthesisers (02_sampling_front_end.md R45, R46, R53,
R58 to R64; 07_clocks_and_canopy_timebase.md R240 to R246, R254, R558 to R560). -/

namespace Sys2Proof.Machine

/-- T_ALIGN of a stream: of its own converter, of a pair stream its even converter. -/
def tAlign (s : State) (id : Nat) : Int := calValue s 8 (if id < 4 then id else 2 * (id - 4))

/-! ## Streams -/

/-- No index: all ones in 48 bits. -/
def noIndex : Nat := 0xFFFFFFFFFFFF

/-- The calibration unit owns a target's path (R42). -/
def calOwned (s : State) (tgt : Nat) : Bool := tget false s.fe.calOwn tgt

/-- The EPOCH event of an epoch of a stream (R64): its reason and stamp. -/
def postEpoch (s : State) (id : Nat) (e : Epoch) : State :=
  post s 0x0101 (pack [(8, id), (4, e.reason), (4, 0), (80, e.time (256 * e.ep0))])

/-- The stream's next epoch has nothing left before it: its EPOCH event is posted and it is in force. An epoch that has itself ended
in the meantime is in force for the length of this. -/
def announceNext (s : State) (id : Nat) : State :=
  let x := s.str id
  match x.old with
  | c :: l =>
    if !c.announce then s else
    let s1 := s.setStr id { x with cur := { c with announce := false }, running := true, old := { c with announce := false } :: l }
    (streamBegin (postEpoch s1 id c.ep) id).modStr id (fun y => { y with cur := x.cur, running := x.running })
  | [] =>
    if x.running && x.cur.announce then
      streamBegin (postEpoch (s.setStr id { x with cur := { x.cur with announce := false } }) id x.cur.ep) id
    else s

/-- Ended epochs all of whose grains have been tagged close, oldest first (R61, R64): an open overload episode ends, STREAM_STOP names
the last grain where the stream stops, consumers go on, and the next epoch begins. `n` bounds them. -/
def closeHeads : Nat → State → Nat → State
  | 0, s, _ => s
  | n + 1, s, id =>
    match (s.str id).old with
    | [] => s
    | c :: l =>
      if c.next < c.stop then s else
      let s1 := endEpisode (s.modStr id (fun x => { x with old := l })) id
      let s2 := if c.halts then post s1 0x0105 (pack [(8, id), (48, (c.stop + 2^48 - 1) % 2^48)]) else s1
      closeHeads n (announceNext (consumersOver s2 id) id) id

/-- The epoch in force of a running stream has no grain from g on: what its grains will carry stands fixed, and a calibration step of the
stream aborts (R301). -/
def endTagging (s : State) (id g : Nat) (halts : Bool) : State :=
  let g := max g (s.str id).cur.next
  let s1 := keepFront (calAbort (bindAll s id) id 7) id g
  s1.modStr id (fun y => { y with old := y.old ++ [{ y.cur with stop := g, halts := halts }], running := false })

/-- A running stream stops: `g` is the first grain it no longer delivers (R61, R64). A blind schedule of it ends (R311). -/
def strHalt (s : State) (id g : Nat) : State :=
  if !(s.str id).running then s else
  let s1 := (endTagging s id g true).setCalBlind id {}
  closeHeads ((s1.str id).old.length) s1 id

/-- The number of grains of a stream complete at the present tick. -/
def strDone (s : State) (id : Nat) : Nat := grainAt s id s.now

/-- The base of an epoch of a stream that begins now (R244). -/
def epochBase (s : State) (id : Nat) : Int :=
  ((s.pll (pairOf id)).syncEdge * 65536 + (s.pll (pairOf id)).delay * 64 : Nat) + tAlign s id

/-- A stream begins an epoch (R22, R244): grain 0 begins `m0` samples after the sync edge. Its EPOCH event follows the last grain of the
epochs before it (R64). -/
def strBegin (s : State) (id m0 reason : Nat) : State :=
  let e : Epoch := { no := (s.str id).cur.ep.no + 1, base := epochBase s id, m0 := m0, ns := nsOf s id, reason := reason }
  let c : Tagging := { ep := e, announce := true, unlockFrom := if epochLocked s id then none else some 0,
                       calFrom := if calOwned s id then some 0 else none }
  let s1 := s.modStr id (fun x => { x with running := true, resume := false, cur := c, reason := reason })
  if (s.str id).old.isEmpty then announceNext s1 id else s1

/-- A stopped stream starts with the first sample at or after a tick (R61). -/
def strStart (s : State) (id : Nat) (t : Tick) : State :=
  let e : Epoch := { base := epochBase s id, ns := nsOf s id }
  strBegin s id (e.sampleAt (stampOf t)) 1

/-- A running stream begins a new epoch at its grain g for a change of source (R59): the clock runs on, and `f` makes the change. -/
def strNewEpoch (s : State) (id g : Nat) (f : State → State) : State :=
  let m := (s.str id).cur.ep.m0 + 256 * max g (s.str id).cur.next
  let s1 := strBegin (f (endTagging s id g false)) id m 4
  closeHeads ((s1.str id).old.length) s1 id

/-! ## Operations of the synthesisers -/

/-- Junction temperature close enough to a hop entry's (R240). -/
def hopUsable (s : State) (k n : Nat) : Bool :=
  let h := tget {} (s.pll k).hop n
  h.valid && decide ((h.tj - s.pwr.tj).natAbs ≤ 500)

/-- One of the operations that hold the clock is in progress: relock, step, build, or an FE_STREAM waiting for START_CT
(R559). -/
def pllBusy (s : State) (k : Nat) : Bool :=
  let x := s.pll k
  x.attempt != 0 || x.building || s.host.inProg.any (fun p => p.opcode == 0x0104 && (maskBits 6 p.unit_).any (fun id => pairOf id == k))

/-- The PLL is unlocked with no relock in progress, or FAILED (R559). -/
def pllDead (s : State) (k : Nat) : Bool := (s.pll k).st == 6 || (s.pll k).st == 7

/-- Begin an attempt of a relock: from the hop entry or with band search (R558, R560). -/
def pllAttempt (s : State) (k n : Nat) : State :=
  let x := s.pll k
  let hop := hopUsable s k x.target && !x.search && n < 3
  s.setPll k { x with attempt := n, fromHop := hop, st := if hop then 2 else 1, step := false, began := s.now }

/-- Begin a relock to N (R241): every output is gated. -/
def pllRelock (s : State) (k n : Nat) (search byLoss : Bool) : State :=
  pllAttempt (s.modPll k (fun x => { x with target := n, search := search, byLoss := byLoss, step := false })) k 1

/-- Windows of a synthesiser: the origin named when no loss opened it, and its dependants (Table 15-5). -/
def pllWindow (s : State) (k origin : Nat) : State :=
  if k < 2 then openWindow s origin (spDeps k) [] false
  else if k = 2 then openWindow s origin [0x03, 0x11, 0x12, 0x24, 0x25] [] false
  else openWindow s origin [0x0C, 0x0F, 0x1C, 0x1D, 0x1E, 0x1F, 0x20, 0x21, 0x22, 0x23] [] false

/-- The windows of a synthesiser end: both names its loss can have. -/
def pllWindowEnd (s : State) (k : Nat) : State := endWindow (endWindow s (0x0204 + k)) (0x0208 + k)

/-- The commands that wait for an operation of a PLL (R560). -/
def pllCommands (s : State) (k : Nat) : List InProg :=
  s.host.inProg.filter (fun p =>
    (p.opcode == 0x0101 && p.unit_ == k) || (p.opcode == 0x0202 && p.unit_ == k) || (p.opcode == 0x0203 && p.unit_ == k))

/-- One 16-byte entry of FE_SET_MODE's result (R58). -/
def modeEntry (s : State) (id : Nat) : Nat :=
  let run := (s.str id).running
  pack [(8, id), (1, b2n run), (7, 0), (80, if run then grainTime s id (s.epoch id).ep0 else 0), (32, 0)]

/-- FE_SET_MODE's result (R58). -/
def modeResult (s : State) (p : Nat) : Nat :=
  if s.pairMode p then pack [(128, modeEntry s (4 + p)), (8, 0xFF), (120, 0)]
  else pack [(128, modeEntry s (2 * p)), (128, modeEntry s (2 * p + 1))]

/-- A command that waited for a PLL ends, with its result (R58, R258, R259, R560). -/
def pllFinish (s : State) (k : Nat) (p : InProg) (ok hop : Bool) : State :=
  if p.opcode = 0x0101 then finish s p (if ok then 0 else stFaulted) 4 (modeResult s k)
  else if p.opcode = 0x0202 then
    finish s p (if ok then 0 else stFaulted) 2 (if ok then pack [(80, stampOf (s.pll k).syncEdge), (1, b2n hop)] else 0)
  else finish s p (if ok && (s.pll k).built = 101 then 0 else stFaulted) 1 ((s.pll k).built)

/-- Enter coarse mode, or leave it (R246). The event of the entry carries the loss's own tick: it is posted while the Canopy is still exact
(DEDUCED, log 29). -/
def setCoarse (s : State) (on : Bool) : State :=
  if s.clk.coarse = on then s
  else if on then (fun (a : State) => { a with clk := { a.clk with coarse := true } }) (post s 0x0209 1)
  else post { s with clk := { s.clk with coarse := false } } 0x0209 0

/-- The PLLs that a node recovery relocks, in order (Table 7-5). -/
def nodeOrder : List Nat := [2, 3, 0, 1]

/-- Begin the relock of the next PLL of a node recovery; after the last one the window of the
loss ends, once all four are locked. -/
def nodeNext (s : State) : State :=
  match nodeOrder[s.clk.nodeRecov - 1]? with
  | some k => pllRelock s k (if k < 2 then pairN s k else if k = 2 then 64 else 96) true false
  | none =>
    let s1 := { s with clk := { s.clk with nodeRecov := 0 } }
    if nodeOrder.all (fun k => (s.pll k).st == 4) then endWindow s1 0x0200 else s1

/-- The relock of a PLL has ended: where it was the one that a node recovery waits for, the next one begins. -/
def nodeStep (s : State) (k : Nat) : State :=
  if s.clk.nodeRecov ≠ 0 && nodeOrder[s.clk.nodeRecov - 1]? == some k then
    nodeNext { s with clk := { s.clk with nodeRecov := s.clk.nodeRecov + 1 } }
  else s

/-- What band searches found: `0` = failed, else 1 + band + 64 × amplitude. Write the entries for N from `n0`. -/
def hopWrite (s : State) (k n0 : Nat) (found : List Nat) : State :=
  (found.zipIdx).foldl (fun a p =>
    let e : Hop := if p.1 = 0 then {} else { valid := true, band := (p.1 - 1) % 64, amp := (p.1 - 1) / 64, tj := s.pwr.tj }
    a.modPll k (fun x => { x with hop := tput {} x.hop (n0 + p.2) e })) s

/-- The searches of a hop-table build: entries written, and how many. -/
def hopBuild (s : State) (k : Nat) (found : List Nat) : State :=
  let s1 := hopWrite s k 100 (found.take 101)
  s1.modPll k (fun x => { x with built := ((found.take 101).filter (· ≠ 0)).length })

/-- All three attempts have failed: FAILED (R254, R560). After a loss the streams that were running wait for the relock by command; after a
relock by command they are stopped. -/
def pllFailed (s : State) (k : Nat) : State :=
  let x := s.pll k
  let s1 := s.setPll k { x with st := 7, attempt := 0, building := false, byLoss := false, search := false }
  let s2 := raiseFault (post s1 0x0203 (pack [(2, k), (2, 0), (4, 3)])) (0x020C + k) {}
  let s3 := if k < 2 && !x.byLoss then (pairStreams s2 k).foldl (fun a id => a.modStr id (fun y => { y with resume := false })) s2 else s2
  let s4 := (pllCommands s3 k).foldl (fun a p => pllFinish a k p false false) s3
  nodeStep s4 k

end Sys2Proof.Machine
end

