-- ==== Sys2Proof/Machine/Admit.lean ====
section
/-! DEFINITION. Admission of real-time flows (01_architecture.md R17, R25, Table 1-4): what each flow carries, and the lines it must
stay within (03_spectral_engine.md R68, R87, R92, R94, R100; 04 R143; 05 R168; 10 R346; 12 R414, R433). -/

namespace Sys2Proof.Machine

/-! ## Lanes -/

/-- Bytes per second that a lane writes at its configured overlap (R100). -/
def laneLoad (s : State) (c : Nat) : ℚ :=
  let r := specRate s c
  let tr := (List.range 4).foldl (fun (a : ℚ) u =>
    let t := s.trace (4 * c + u)
    if t.on then a + recordLen t.points t.f32 * r / t.m else a) 0
  let o := s.sout c
  tr + (if o.on then recordLen o.bins o.f32 * r / o.decim else 0)

/-- The lane's line of Table 1-4. -/
def laneLine (c : Nat) : ℚ := if c < 4 then 6000000000 else 1000000000

/-- Complex samples per second that a zoom lane takes at most (R94), and its window-input line (R68). -/
def zoomLimit : ℚ := 2000000000
def zoomLine : ℚ := 8000000000

/-- Window-input rate W of a lane (R68). -/
def laneW (s : State) (c : Nat) : ℚ := strRate s (s.lane c).run.source * laneN s c / laneHop s c

/-- Output rate that a down-converter has at most (R87). -/
def ddcRateLimit : ℚ := 5000000000

/-- Column update rate U at DEC (R168). -/
def densRate (s : State) (m : DensMap) : ℚ := specRate s m.lane / m.dec * ceilDiv m.bins 2048

/-- The largest U of an enabled map. -/
def densLimit : ℚ := 39062500

/-- Every enabled map of a lane stays within the limit (R168). -/
def densLaneOk (s : State) (c : Nat) : Bool :=
  s.disp.maps.all (fun e => !e.2.on || e.2.lane != c || decide (densRate s e.2 ≤ densLimit))

/-! ## Captures, recording, streaming (R92, R143) -/

/-- A stream id that a capture can name. -/
def streamId (id : Nat) : Bool := decide (id < 6 ∨ (16 ≤ id ∧ id < 32))

/-- Sample rates of the streams for which `sel` holds, over the captures of every armed unit. -/
def captureLoad (s : State) (sel : Nat → Bool) : ℚ :=
  ((List.range 8).filter (fun a => (s.au a).live)).foldl (fun r a =>
    ((s.au a).entries.filter (fun e => sel e.stream)).foldl (fun q e => q + strRate s e.stream) r) 0

/-- The same over the grain sources of the open recording, and over the channels that stream grains. -/
def recordLoad (s : State) (sel : Nat → Bool) : ℚ :=
  if s.move.entry = 0xFFFF then 0 else
  ((s.move.recSrc.filter (fun e => srcKind e == 1 && sel (srcStream e))).map (fun e => strRate s (srcStream e))).foldl (· + ·) 0
def streamLoad (s : State) (sel : Nat → Bool) : ℚ :=
  (((List.range 32).filter (fun c => (s.dma c).on && (s.dma c).mode == 2 && (s.dma c).srcGrain && sel (s.dma c).sStream)).map
    (fun c => strRate s (s.dma c).sStream)).foldl (· + ·) 0

/-- Raw samples per second captured and recorded, and complex samples per second written to memory. -/
def rawLoad (s : State) : ℚ := captureLoad s (· < 16) + recordLoad s (· < 16) + streamLoad s (· < 16)
def ddcLoad (s : State) : ℚ := captureLoad s (16 ≤ ·) + recordLoad s (16 ≤ ·) + streamLoad s (16 ≤ ·)

/-- The limits: 80 G samples/s, and 6.0 G complex samples/s. -/
def rawLimit : ℚ := 80000000000
def ddcLimit : ℚ := 6000000000

/-- Payload capacity of a PCIe link in bytes per second (R415). -/
def linkCap (rate width : Nat) (flit : Bool) : ℚ :=
  let w : ℚ := width * 1000000000 / 8
  let r : ℚ := [(0 : ℚ), 5 / 2, 5, 8, 16, 32, 64].getD rate 0
  if rate = 0 then 0
  else if rate = 6 || (flit && 3 ≤ rate) then w * r * 236 / 256
  else if 3 ≤ rate then w * r * 128 / 130 * 9 / 10
  else w * r * 8 / 10 * 9 / 10

/-- The load of a STREAM_SET block (R414), in bytes per second. -/
def streamRate (s : State) (b : Nat) : ℚ :=
  if bit b 6 then
    (16 + fld b 32 7 * (if fld b 8 8 < 16 then 392 else 1032) : Nat) / (fld b 32 7 : ℚ) * (strRate s (fld b 8 8) / 256)
  else fld b 96 16 * 1000000

/-- Loads of every streaming channel. -/
def streamLoads (s : State) : ℚ :=
  ((s.move.chans.filter (fun e => e.2.on && e.2.mode == 2)).map (fun e => streamRate s e.2.p)).foldl (· + ·) 0

/-- The most that streaming channels may carry together. -/
def streamCap (s : State) : ℚ := min 29500000000 (linkCap s.host.linkRate s.host.linkWidth s.host.linkFlit)

/-- L of some sources of a recording in bytes per second (R433). -/
def recLoadOf (s : State) (es : List Nat) : ℚ :=
  1001 / 1000 * ((es.map (fun e =>
    if srcKind e = 1 then strRate s (srcStream e) * (if srcStream e < 16 then 392 else 1032) / 256 else (srcRate e : ℚ) * 1000000)).foldl (· + ·) 0)

/-- Admitted load of the volume in bytes per second. -/
def recLine (s : State) : ℚ := (s.move.admitV : ℚ) / 13

/-! ## Feeds (R346) -/

/-- Bytes per second of a live feed (R346). -/
def feedRate (s : State) (f : Feed) : ℚ :=
  if f.kind = 0 then strRate s f.source * f.grainLen / 256
  else if f.kind = 1 then specRate s f.source / max 1 f.decim * f.blk
  else 0

/-- All live feeds together. -/
def feedLoads (s : State) : ℚ := s.grove.feeds.foldl (fun a e => if e.2.on then a + feedRate s e.2 else a) 0

/-- What one feed, and all together, may carry. -/
def feedLimit : ℚ := 8100000000
def feedsLimit : ℚ := 32400000000

/-! ## Every line -/

/-- Loads that are zero where the flow is off. -/
def loadIf (on : Bool) (x : ℚ) : ℚ := if on then x else 0

/-- Every flow with its line: the same flows in the same order in every state. -/
def admissionLines (s : State) : List (ℚ × ℚ) :=
  (List.range 12).map (fun c => (loadIf ((s.lane c).on && !oddOfPair s c) (laneLoad s c), laneLine c)) ++
  ((List.range 8).map (fun z => (loadIf (s.lane (4 + z)).on (strRate s (s.lane (4 + z)).run.source), zoomLimit)) ++
  ((List.range 8).map (fun z => (loadIf (s.lane (4 + z)).on (laneW s (4 + z)), zoomLine)) ++
  ((List.range 4).map (fun i => (loadIf (s.dmap i).on (densRate s (s.dmap i)), densLimit)) ++
  ((List.range 16).map (fun n => (loadIf (s.ddc n).on (strRate s (16 + n)), ddcRateLimit)) ++
  ((List.range 32).map (fun i => (loadIf (s.feed i).on (feedRate s (s.feed i)), feedLimit)) ++
  ((List.range 32).map (fun i => (loadIf ((s.feed i).on && (s.feed i).kind == 0) (strRate s (s.feed i).source), zoomLimit)) ++
  [(feedLoads s, feedsLimit), (rawLoad s, rawLimit), (ddcLoad s, ddcLimit), (streamLoads s, streamCap s),
   (loadIf (s.move.entry != 0xFFFF) (recLoadOf s s.move.recSrc), recLine s)]))))))

/-- A command that leads from one state to another widens a flow past its line (R17). -/
def overAdmission (s t : State) : Bool :=
  ((admissionLines s).zip (admissionLines t)).any (fun p => decide (p.1.1 < p.2.1 ∧ p.2.2 < p.2.1))

end Sys2Proof.Machine
end

