-- ==== Sys2Proof/Machine/Ddc.lean ====
section
/-! DEFINITION. The down-converters: mixer, decimating filter, scaling and the grains they emit (03_spectral_engine.md R86 to R92). -/

namespace Sys2Proof.Machine

/-! ## Input (R86, R87) -/

/-- A source grain of the epoch in progress. -/
def Ddc.takes (d : Ddc) (h : HeldGrain) : Bool := h.id == d.src && h.g.ep.no == d.srcNo

/-- Sample j of the source's epoch that a down-converter takes. -/
def ddcInput (s : State) (n : Nat) (j : Int) : Int :=
  let d := s.ddc n
  match d.buf.find? (fun h => d.takes h && !h.miss && (h.g.n : Int) == j / 256) with
  | some h => sfld (h.g.codes.getD (j % 256).toNat 0) 0 12
  | none => (Config.lostSample d.src d.srcNo j).toInt

/-- The tuning under which input sample j from p0 is mixed: the latest that starts at or before it. -/
def mixTune (ts : List Tune) (j : Int) : Tune := (ts.reverse.find? (fun t => decide (t.start ≤ j))).getD (ts.headD {})

/-- The phase accumulator at a sample: it advances by FREQ per input sample, modulo 2^48. -/
def mixPhase (ts : List Tune) (j : Int) : Nat :=
  let t := mixTune ts j
  (((t.phase : Int) + (j - t.start) * t.freq) % (2^48 : Nat)).toNat

/-- The mixer (R86): the real input times e^(-j phase), with 24-bit parts (log 50). -/
def mixed (s : State) (n : Nat) (j : Int) : Int × Int :=
  let d := s.ddc n
  let x := ddcInput s n (d.p0 + j)
  let a : ℚ := (mixPhase d.tunes j : ℚ) / (2^48 : Nat)
  (x * twiddleCode (realCos a), -(x * twiddleCode (realSin a)))

/-! ## Output (R87 to R89) -/

/-- The tuning whose filter forms an output grain. -/
def grainTune (ts : List Tune) (k : Nat) : Tune := (ts.reverse.find? (fun t => decide (t.first ≤ k))).getD (ts.headD {})

/-- The response values that the equaliser of an output sample inverts: of the source grain that holds its centre (R87, R295). -/
def ddcResp (s : State) (n m : Nat) : List Int :=
  let d := s.ddc n
  match d.buf.find? (fun h => d.takes h && h.g.n == (d.p0 + m * d.ep.dec) / 256) with
  | some h => (List.range 180).map (respPoint s d.src h.g.source h.g.values)
  | none => List.replicate 180 0

/-- Output sample m of the epoch: the filter over the 48 D mixed samples about its centre, scaled so that a full-scale sine at the NCO's
frequency has magnitude 2^GAIN / 2 (R88), in units of 2^-15. -/
def ddcExact (s : State) (n m : Nat) : ℚ × ℚ :=
  let d := s.ddc n
  let D := d.ep.dec
  let f := (grainTune d.tunes (m / 256)).freq
  let resp := ddcResp s n m
  let y := (List.range (48 * D)).foldl (fun (a : ℚ × ℚ) i =>
    let h := Config.ddcTap (Nat.log2 D) f d.ep.ns resp i
    let v := mixed s n ((m * D + 1 + i : Nat) - (24 * D : Nat))
    (a.1 + (h.1 * v.1 - h.2 * v.2), a.2 + (h.1 * v.2 + h.2 * v.1))) (0, 0)
  let k : ℚ := 2^d.ep.gain * 32768 / (2048 * 4194304)
  (y.1 * k, y.2 * k)

/-- A part rounded, a tie to even (log 50), and saturated to Q15; whether it saturates. -/
def toQ15 (x : ℚ) : Int × Bool :=
  let v := roundEven x.num x.den
  (clampI (-32768) 32767 v, decide (v < -32768 ∨ 32767 < v))

/-- The source grains in the support of the samples of output grain k. -/
def ddcSupport (d : Ddc) (k : Nat) : List HeldGrain :=
  let lo : Int := d.p0 + 256 * k * d.ep.dec - 24 * d.ep.dec + 1
  let hi : Nat := d.p0 + (256 * k + 255) * d.ep.dec + 24 * d.ep.dec
  d.buf.filter (fun h => d.takes h && decide (lo < 256 * (h.g.n + 1) ∧ 256 * h.g.n ≤ hi))

/-- The flags of output grain k (R88, R90): those of every source grain in its support, GAP where one is missing, SETTLING in the first 48 samples
of the epoch and after a retune, OVERLOAD for a saturated sample. -/
def ddcFlags (s : State) (n k : Nat) (sat : Bool) : Nat :=
  let d := s.ddc n
  let src := 0x0A0C + n
  (ddcSupport d k).foldl (fun a h => a ||| (if h.miss then 16 else h.g.flags)) 0 |||
    (if d.tunes.any (fun t => t.first == k) then 2 else 0) ||| (if sat then 1 else 0) |||
    (if tget false s.flt.held src || tget 0 s.flt.once src = k + 1 then 32 else 0)

/-- Output grain k (R89). -/
def ddcGrain (s : State) (n k : Nat) : Grain :=
  let ys := (List.range 256).map (fun i => let y := ddcExact s n (256 * k + i); (toQ15 y.1, toQ15 y.2))
  { ep := (s.ddc n).ep, n := k, flags := ddcFlags s n k (ys.any (fun y => y.1.2 || y.2.2)),
    codes := ys.map (fun y => pack [(16, enc 16 y.1.1), (16, enc 16 y.2.1)]) }

/-- The input that the next output grain needs is there, or missing (R92). -/
def ddcReady (d : Ddc) : Bool :=
  d.live && d.buf.any (fun h => d.takes h && decide ((d.p0 + (256 * d.next + 255) * d.ep.dec + 24 * d.ep.dec) / 256 ≤ h.g.n))

/-- Tunings that no output to come needs are let go. -/
def tunesPast (low : Int) (k : Nat) : List Tune → List Tune
  | [] => []
  | [t] => [t]
  | t :: t' :: l => if t'.start ≤ low && decide (t'.first ≤ k) then tunesPast low k (t' :: l) else t :: t' :: l

/-- What outputs from grain k on do not need is let go. -/
def Ddc.forget (d : Ddc) : Ddc :=
  let low : Int := (256 * d.next * d.ep.dec : Nat) - (24 * d.ep.dec : Nat)
  { d with buf := d.buf.filter (fun h => !d.takes h || decide (d.p0 + low < 256 * (h.g.n + 1))), tunes := tunesPast low d.next d.tunes }

/-- Output grains that are due leave, in order. `k` bounds them. -/
def ddcProduce : Nat → State → Nat → State
  | 0, s, _ => s
  | k + 1, s, n =>
    let d := s.ddc n
    if !ddcReady d then s else
    let g := ddcGrain s n d.next
    let s1 := s.setDdc n ({ d with next := d.next + 1, grains := d.grains ++ [g] } : Ddc).forget
    ddcProduce k (perfAdd s1 1 (16 + n) 1) n

/-- A source grain reaches a down-converter, or is missing there. -/
def ddcTake (s : State) (n : Nat) (h : HeldGrain) : State :=
  let s1 := s.modDdc n (fun d => { d with buf := d.buf ++ [h] })
  letGo (ddcProduce ((h.g.n + 1) / max 1 (s1.ddc n).ep.dec + 1) s1 n) (16 + n)

/-- A retune (R91): the output grains from g on, with continuous phase. The first input sample mixed at the new frequency is the first that no
output sample before grain g takes. -/
def Ddc.retune (d : Ddc) (g freq : Nat) : Ddc :=
  let st : Int := if g = 0 then 0 else (256 * g + 23 : Nat) * d.ep.dec + 1
  { d with freq := freq, tunes := d.tunes.filter (fun u => u.first != g) ++ [{ first := g, start := st, freq := freq, phase := mixPhase d.tunes st }] }

end Sys2Proof.Machine
end

