-- ==== Sys2Proof/Machine/SpecCmd.lean ====
section
/-! DEFINITION. The commands of group 0x04: lanes, windows, down-converters, trace units, spectrum outputs, governor
(03_spectral_engine.md R65 to R113). The bodies of the commands that wait for the ceiling (R103) stand on their own, since
the end of the ramp applies them. -/

namespace Sys2Proof.Machine

/-! ## Ownership (R66, R69) -/

/-- The calling session owns a lane; of a pair lane, both its lanes. -/
def ownsLane (s : State) (n c : Nat) : Bool :=
  if c < 4 then
    if s.pairMode (c / 2) && c % 2 = 0 then owns s n 2 c && owns s n 2 (c + 1) else owns s n 2 c
  else owns s n 3 (c - 4)

/-- The stream an SL lane takes: its channel's, or its pair's. -/
def slSource (s : State) (c : Nat) : Nat := if s.pairMode (c / 2) then 4 + c / 2 else c

/-! ## Waiting for the ceiling (R103) -/

/-- The unit number under which commands wait for the supply to reach 0.85 V. -/
def ceilingWait : Nat := 0xCE11

/-- A command that enables work is applied once the supply has reached 0.85 V. -/
def atCeiling (enables : Bool) (data : List Nat) (s : State) (r : Reply) : Reply :=
  if enables && !r.rejects && decide (s.spec.vcore < 850) then .later s ceilingWait data else r

/-! ## Consumers and loads -/

/-- A consumer other than the lane's own trace units and output is bound to a lane (R71). -/
def laneConsumed (s : State) (c : Nat) : Bool :=
  s.disp.maps.any (fun e => e.2.on && e.2.lane == c) || s.mon.ctxs.any (fun e => e.2.on && e.2.lane == c) ||
  s.grove.feeds.any (fun e => e.2.on && e.2.kind == 1 && e.2.source == c) ||
  (List.range 4).any (fun k => (s.maskS (4 * c + k)).cur.on) ||
  s.acq.terms.any (fun e => e.2.on && e.2.ty == 4 && fld e.2.p 32 4 == c)

/-- An acquisition that is armed uses the lane: by a selected term, or by a frequency mask test (R71). -/
def laneArmed (s : State) (c : Nat) : Bool :=
  (List.range 8).any (fun a => (s.au a).live &&
    ((unitTerms s a).any (fun k =>
      let x := s.term (8 * a + k)
      (x.ty == 4 && fld x.p 32 4 == c) || (x.ty == 5 && (s.dmap (fld x.p 32 2)).lane == c) ||
      (x.ty == 7 && s.mon.ctxs.any (fun e => e.2.on && e.2.lane == c && decide (fld x.p 32 16 ≤ e.1 ∧ e.1 ≤ fld x.p 48 16)))) ||
     [0, 1].any (fun k => (s.tst (2 * a + k)).on && (s.tst (2 * a + k)).freq && (s.tst (2 * a + k)).lane == c)))

/-- Every enabled trace unit's and the output's bins lie within the lane's (R95). -/
def laneBinsOk (s : State) (c : Nat) : Bool :=
  (List.range 4).all (fun u => !(s.trace (4 * c + u)).on || binsIn s c (s.trace (4 * c + u)).firstBin (s.trace (4 * c + u)).bins) &&
  (!(s.sout c).on || binsIn s c (s.sout c).firstBin (s.sout c).bins)

/-! ## SPEC_SET_LANE (R107) -/

/-- The runs that complete under the lane's present settings once they change (R71): the frames of its epoch that begin before the next grain
boundary, and those of a later epoch of its stream that the lane has not come to. -/
def laneRuns (s : State) (x : Lane) : List LaneRun :=
  let r := x.run
  let no := (s.epoch r.source).no
  let rs := if !x.on then [] else if r.no < no then [r, { r with no := no, origin := 0, nextS := 0 }] else if r.no = no then [r] else []
  let now_ := epochNo s r.source == no
  rs.map (fun q => if q.no = no && now_ then { q with endS := some (256 * nextGrain s r.source) } else q)

/-- The lane's settings change or end: frames that began before complete under the old ones, and trace records close early after them (R71, R97). -/
def laneChange (s : State) (c : Nat) (on : Bool) (run : LaneRun) : State :=
  let x := s.lane c
  laneForget (laneFront (laneTruncDue (s.setLane c { x with on := on, run := run, old := x.old ++ laneRuns s x }) c) c) c

/-- The settings of a SPEC_SET_LANE block, from grain g0 of the epoch in force or from the next epoch's grain 0. -/
def laneRunOf (s : State) (c b : Nat) : LaneRun :=
  let src := if c < 4 then slSource s c else fld b 8 8
  let w := fld b 24 3
  let user := if w = 5 then tget [] s.spec.windows (fld b 27 2) else []
  let sums := windowSums w (fld b 32 16) (2 ^ fld b 16 5) user
  let g0 := bindGrain s src
  { source := src, log2n := fld b 16 5, window := w, beta := fld b 32 16, norm := bit b 29, overlap := fld b 30 2, codes := user, s1 := sums.1, s2 := sums.2,
    origin := g0, no := epochNo s src, nextS := 256 * g0 }

/-- A lane takes its new settings at a grain boundary of its stream (R16), or at the stream's grain 0. A lane that is enabled counts from 0. -/
def laneSet (s : State) (c b : Nat) : State :=
  let x := s.lane c
  let r := laneRunOf s c b
  let s1 := laneChange (if x.on then s else s.setLane c { x with spectra := 0, gapPend := false }) c true r
  if laneTakes s c r.source then s1 else bindNow s1 (laneConsumer c) r.source

/-- A lane is disabled at the next grain boundary. -/
def laneOff (s : State) (c : Nat) : State := laneChange s c false (s.lane c).run

/-- SPEC_SET_LANE's own checks and effect. A zoom lane past 8 G window-input samples/s has no capacity (R68); one that takes more than
2.0 G samples/s within that is out of range. With ENABLE = 0 the result's CG and ENBW are 0. Both are DESIGN CHOICEs (log 51). -/
def bodySetLane (n b : Nat) (s : State) : Reply :=
  let c := fld b 0 4
  let en := bit b 4
  let w := fld b 24 3
  let l2 := fld b 16 5
  let x := s.lane c
  let r := x.run
  let src := if c < 4 then slSource s c else fld b 8 8
  let slot := tget [] s.spec.windows (fld b 27 2)
  let s1 := laneSet s c b
  let windowed := w != r.window || (w == 4 && fld b 32 16 != r.beta) || (w == 5 && slot != r.codes) || fld b 30 2 != r.overlap || bit b 29 != r.norm
  chk [(decide (c < 12) && !ownsLane s n c, stBusy), (en && decide (4 ≤ c) && !owns s n 4 (src - 16) && decide (16 ≤ src ∧ src < 32), stBusy),
       (en && w == 5 && !owns s n 5 (fld b 27 2), stBusy), (decide (12 ≤ c), stInvalid),
       (en && (if c < 4 then fld b 8 8 != 0xFF else decide (src < 16 ∨ 31 < src)), stInvalid), (en && decide (5 < w), stInvalid),
       (en && w == 5 && slot.length != 2 ^ l2, stInvalid), (oddOfPair s c, stState),
       (x.on && laneConsumed s c && (!en || l2 != r.log2n || (decide (4 ≤ c) && src != r.source)), stState),
       (x.on && en && windowed && laneArmed s c, stState),
       (en && decide (l2 < 6 ∨ (if c < 4 then 16 else 20) < l2), stRange), (en && w == 4 && decide (0x2800 < fld b 32 16), stRange),
       (en && decide (4 ≤ c) && decide (zoomLine < laneW s1 c), stNoRes),
       (en && decide (4 ≤ c) && decide (zoomLimit < strRate s src), stRange), (en && !laneBinsOk s1 c, stRange),
       (en && (decide (laneLine c < laneLoad s1 c) || !densLaneOk s1 c), stNoRes)]
    (if !en then .ok (laneOff s c) 2 (if strRuns s r.source then bindGrain s r.source % 2^48 else noIndex)
     else .ok s1 2 (pack [(48, if strRuns s src then bindGrain s src % 2^48 else noIndex), (16, 0),
       (32, toF32 (((s1.lane c).run.s1 : ℚ) / (131072 * 2 ^ l2))), (32, toF32 (laneEnbw s1 c))]))

/-- The command enables the lane, or raises its overlap (R103). -/
def laneEnables (b : Nat) (s : State) : Bool :=
  bit b 4 && (!(s.lane (fld b 0 4)).on || decide ((s.lane (fld b 0 4)).run.overlap < fld b 30 2))

/-- SPEC_SET_LANE (R107). -/
def execSpecSetLane (c : Cmd) (p : Block) (s : State) : Host.Outcome State Fault Refusal :=
  zci 0x0401 1 (fun _ => [(0, 4), (4, 1), (8, 8), (16, 5), (24, 3), (27, 2), (29, 1), (30, 2), (32, 16)]) c p s fun b s =>
    atCeiling (laneEnables b s) [b] s (bodySetLane c.session.val b s)

/-! ## SPEC_LOAD_WINDOW (R108) -/

/-- The first coefficient that fails sets STATUS, item by item (R561); 0 when none does. -/
def windowCheck : List Nat → Nat
  | [] => 0
  | w :: r => if w / 2^18 % 2^14 ≠ 0 then stInvalid else if w > 0x20000 then stRange else windowCheck r

/-- SPEC_LOAD_WINDOW (R108); `data` are the words the engine reads from host memory. -/
def execSpecLoadWindow (c : Cmd) (p : Block) (data : List Nat) (s : State) : Host.Outcome State Fault Refusal :=
  zci 0x0402 2 (fun _ => [(0, 2), (8, 5), (64, 64)]) c p s fun b s =>
    let k := fld b 0 2
    let l2 := fld b 8 5
    let ws := (List.range (2 ^ l2)).map (fun i => data.getD i 0)
    chk [(!owns s c.session.val 5 k, stBusy), (fld b 64 64 % 4 != 0, stInvalid), (decide (l2 < 6 ∨ 16 < l2), stRange),
         (windowCheck ws != 0, windowCheck ws), (ws.all (· == 0), stInvalid)]
      (.ok { s with spec := { s.spec with windows := tput [] s.spec.windows k ws } } 0 0)

/-! ## Down-converters (R86 to R93) -/

/-- An enabled zoom lane takes the down-converter. -/
def ddcZoomed (s : State) (n : Nat) : Bool := !(lanesOf s (16 + n)).isEmpty

/-- A down-converter takes new settings or ends (R16, R91, R109): the epoch in progress ends at the next grain boundary of its source, where the
units that capture it abort (R144), and the next one begins. -/
def ddcSet (s : State) (n : Nat) (y : Ddc) : State :=
  let x := s.ddc n
  let e := (s.epoch x.src)
  let endAt := if x.live && x.srcNo == e.no && epochNo s x.src == e.no then some (nextGrain s x.src) else none
  let s1 := if x.live then s else abortStream s (16 + n) 2
  let s2 := s1.setDdc n { y with endAt := endAt, abortAt := endAt, start := if y.on then some (epochNo s y.source, bindGrain s y.source) else none }
  let s3 := if y.on && !ddcTakes s n y.source then bindNow s2 (0x10 + n) y.source else s2
  ddcFollow (ddcPass s3 n) n

/-- SPEC_SET_DDC's own checks and effect (R109). With ENABLE = 0 there is no p0, and on a source that does not run the time of p0 is not known:
what the result then holds is a free value (log 2, log 51). -/
def bodySetDdc (sess b : Nat) (s : State) : Reply :=
  let n := fld b 0 4
  let en := bit b 4
  let src := fld b 8 8
  let e := fld b 16 5
  let x := s.ddc n
  let fout := (nsOf s src * 100000000 : ℚ) / 2 ^ e
  let y : Ddc := { x with on := true, source := src, e := e, gain := fld b 21 3, freq := fld b 32 48, phase := fld b 80 16 }
  let s1 := ddcSet s n y
  chk [(!owns s sess 4 n, stBusy), (en && decide (5 < src), stInvalid),
       (ddcZoomed s n && (if en then src != x.source || e != x.e || decide (zoomLimit < fout) else x.on), stState),
       (en && decide (e < 1 ∨ 16 < e), stRange), (en && decide (2^47 < fld b 32 48), stRange), (en && decide (ddcRateLimit < fout), stRange),
       (en && overAdmission s s1, stNoRes)]
    (if !en then
       let d := drawFree 128 (ddcSet s n { x with on := false })
       .ok d.2 2 d.1
     else if (s.str src).running then .ok s1 2 (pack [(48, nextGrain s src % 2^48), (80, grainTime s src (nextGrain s src))])
     else
       let d := drawFree 80 s1
       .ok d.2 2 (pack [(48, 0), (80, d.1)]))

/-- SPEC_SET_DDC (R109). -/
def execSpecSetDdc (c : Cmd) (p : Block) (s : State) : Host.Outcome State Fault Refusal :=
  zci 0x0403 2 (fun _ => [(0, 4), (4, 1), (8, 8), (16, 5), (21, 3), (32, 48), (80, 16)]) c p s fun b s =>
    atCeiling (bit b 4 && !(s.ddc (fld b 0 4)).on) [b] s (bodySetDdc c.session.val b s)

/-- SPEC_TUNE_DDC (R91, R93, R110). Where an epoch has still to begin, its first grain is the first at the new frequency. -/
def execSpecTuneDdc (c : Cmd) (p : Block) (s : State) : Host.Outcome State Fault Refusal :=
  zci 0x0404 2 (fun _ => [(0, 4), (64, 48)]) c p s fun b s =>
    let n := fld b 0 4
    let x := s.ddc n
    chk [(!owns s c.session.val 4 n, stBusy), (!x.on, stState), (decide (2^47 < fld b 64 48), stRange)]
      (let g := max x.next (nextGrain s (16 + n))
       if x.live && x.endAt.isNone then .ok (s.setDdc n (x.retune g (fld b 64 48))) 1 (g % 2^48)
       else .ok (s.setDdc n { x with freq := fld b 64 48 }) 1 0)

/-! ## Trace units and spectrum outputs (R111, R112) -/

/-- The first frame a unit configured now takes: its first sample, and the time from which frames count (R111). -/
def unitFrom (s : State) (c : Nat) : Nat × Stamp :=
  let src := (s.lane c).run.source
  if epochNo s src = (s.epoch src).no then (frameFrom s c (nextGrain s src), grainTime s src (nextGrain s src)) else (0, stampOf s.now)

/-- The unit ends what it holds (R97). -/
def traceOff (s : State) (id : Nat) : State :=
  let s1 := traceWrite s id true
  s1.modTrace id (fun t => { t with on := false, count := 0, acc := [] })

/-- SPEC_SET_TRACE's own checks and effect (R111). Where the unit is enabled, ENABLE = 1 first ends the record in progress as a disable does
(DESIGN CHOICE, log 51). -/
def bodySetTrace (n b : Nat) (s : State) : Reply :=
  let c := fld b 0 4
  let id := 4 * c + fld b 4 2
  let en := bit b 6
  let h := fld b 112 16
  let P := fld b 64 15
  let s0 := traceOff s id
  let t : Trace := { on := true, single := bit b 7, det := fld b 8 3, f32 := bit b 11, firstBin := sfld b 16 24, bins := fld b 40 24, points := P,
                     m := fld b 80 17, ring := h, fromTime := (unitFrom s c).2 }
  let s1 := s0.setTrace id t
  chk ([(decide (c < 12) && !ownsLane s n c, stBusy), (en && !regOwned s n h, stBusy), (decide (12 ≤ c), stInvalid),
       (en && (t.det == 7 || t.bins == 0 || t.m == 0), stInvalid), (en && !isRecRing s h, stInvalid), (oddOfPair s c, stState),
       (en && !(s.lane c).on, stState), (en && decide (P < 1024 ∨ 16384 < P ∨ 1048576 < t.bins ∨ 65536 < t.m), stRange),
       (en && !binsIn s c t.firstBin t.bins, stRange), (en && decide ((s.reg h).size < recordLen P t.f32), stRange),
       (en && decide (laneLine c < laneLoad s1 c), stNoRes)])
    (if en then .ok s1 1 (pack [(48, (unitFrom s c).1 / 256), (16, (unitFrom s c).1 % 256)]) else .ok s0 1 noIndex)

/-- SPEC_SET_TRACE (R111). -/
def execSpecSetTrace (c : Cmd) (p : Block) (s : State) : Host.Outcome State Fault Refusal :=
  zci 0x0405 2 (fun _ => [(0, 4), (4, 2), (6, 1), (7, 1), (8, 3), (11, 1), (16, 24), (40, 24), (64, 15), (80, 17), (112, 16)]) c p s fun b s =>
    atCeiling (bit b 6 && !(s.trace (4 * fld b 0 4 + fld b 4 2)).on) [b] s (bodySetTrace c.session.val b s)

/-- SPEC_SET_OUTPUT (R112). -/
def execSpecSetOutput (c : Cmd) (p : Block) (s : State) : Host.Outcome State Fault Refusal :=
  zci 0x0406 2 (fun _ => [(0, 4), (4, 1), (5, 1), (8, 24), (32, 24), (64, 17), (112, 16)]) c p s fun b s =>
    let n := c.session.val
    let l := fld b 0 4
    let en := bit b 4
    let h := fld b 112 16
    let o : SpecOut := { on := true, f32 := bit b 5, firstBin := sfld b 8 24, bins := fld b 32 24, decim := fld b 64 17, ring := h }
    let s1 := s.setSout l o
    chk [(decide (l < 12) && !ownsLane s n l, stBusy), (en && !regOwned s n h, stBusy), (decide (12 ≤ l), stInvalid),
         (en && (o.bins == 0 || o.decim == 0), stInvalid), (en && !isRecRing s h, stInvalid), (oddOfPair s l, stState), (en && !(s.lane l).on, stState),
         (en && decide (1048576 < o.bins ∨ 65536 < o.decim), stRange), (en && !binsIn s l o.firstBin o.bins, stRange),
         (en && decide ((s.reg h).size < recordLen o.bins o.f32), stRange), (en && decide (laneLine l < laneLoad s1 l), stNoRes)]
      (.ok (if en then s1 else s.modSout l (fun x => { x with on := false })) 0 0)

/-! ## Status and governor (R106, R113) -/

/-- Window-input rate of a lane in units of 0.01 G/s, to the nearest, a tie to even (DESIGN CHOICE, log 51). -/
def laneDemand (s : State) (c : Nat) : Nat :=
  let w := laneW s c / 10000000
  (roundEven w.num w.den).toNat

/-- SPEC_GET_STATUS (R113). -/
def execSpecGetStatus (c : Cmd) (p : Block) (s : State) : Host.Outcome State Fault Refusal :=
  zci 0x0407 1 (fun _ => [(0, 4), (8, 1)]) c p s fun b s =>
    let l := fld b 0 4
    let paired := decide (l < 4) && s.pairMode (l / 2)
    let k := if paired then l / 2 * 2 else l
    let x := s.lane k
    chk [(decide (12 ≤ l), stInvalid)]
      (.ok (if bit b 8 then s.setLane k { x with gapCount := 0 } else s) 4
        (pack [(1, b2n x.on), (1, b2n paired), (2, ovlEff s k), (4, s.spec.shed), (8, if x.on then x.run.source else 0xFF), (5, x.run.log2n), (11, 0),
          (16, x.margin), (16, s.spec.vcore), (32, x.spectra), (32, if x.run.log2n = 0 then 0 else laneN s k + hopEff s k), (48, x.res.idx),
          (32, x.gapCount), (16, if x.on then laneDemand s k else 0), (32, 0)]))

/-- SPEC_SET_GOVERNOR (R106). -/
def execSpecSetGovernor (c : Cmd) (p : Block) (s : State) : Host.Outcome State Fault Refusal :=
  zci 0x0408 1 (fun _ => [(0, 1)]) c p s fun b s =>
    .ok { s with spec := { s.spec with holds := tput false s.spec.holds c.session.val (bit b 0) } } 0 0

end Sys2Proof.Machine
end

