-- ==== Sys2Proof/Machine/Dens.lean ====
section
/-! DEFINITION. Density maps and pigment tables: updates, decay, clear, readout and their commands
(05_density_and_display.md R162 to R174, R193 to R196, R203). -/

namespace Sys2Proof.Machine

/-! ## Decimation and rate (R167, R168) -/

/-- Density update decimation of the shed level (Table 3-8). -/
def densG (s : State) : Nat := if s.spec.shed = 0 then 1 else if s.spec.shed = 1 then 2 else if s.spec.shed = 2 then 4 else 8

/-- DEC_EFF of a map. -/
def decEff (s : State) (m : DensMap) : Nat := m.dec * densG s

/-! ## Applying a spectrum (R164 to R167) -/

/-- The bins that column c receives (R164): first bin and how many. -/
def densBins (m : DensMap) (c : Nat) : Int × Nat := pointBins m.firstBin m.bins 2048 c

/-- The row of an L16 code (R165). -/
def densRow (m : DensMap) (v : Int) : Nat := (clampI 0 1023 ((v - m.bottom) / m.step)).toNat

/-- Key of a cell. -/
def cellKey (col row : Nat) : Nat := 1024 * col + row

/-- The count of a cell. -/
def DensMap.count (m : DensMap) (col row : Nat) : Nat := tget 0 m.cells (cellKey col row)

/-- One hit: a count saturates, and the first saturation since a clear or enable is posted (R166). -/
def densHit (s : State) (i idx col row : Nat) : State :=
  let m := s.dmap i
  let n := min (m.count col row + 1) 0xFFFFFFFF
  let s1 := s.setDmap i { m with cells := tput 0 m.cells (cellKey col row) n }
  if n = 0xFFFFFFFF && !m.sat then
    post (s1.modDmap i (fun x => { x with sat := true })) 0x0608 (pack [(2, i), (11, col), (9, 0), (10, row), (48, idx)])
  else s1

/-- Every bin that a column receives adds one to its cell. -/
def densColumn (s : State) (i : Nat) (x : Spectrum) (col : Nat) : State :=
  let m := s.dmap i
  let b := densBins m col
  (binRun s x.c x.bins b.1 b.2).foldl (fun a f => densHit a i x.firstIdx col (densRow m (levelCode f))) s

/-! ## Decay (R169) -/

/-- K = round(2^32 × (1 − 2^(−1 ms / T))): the largest K with 2^(−1/T) ≤ 1 − (2K − 1) / 2^33, decided exactly. -/
def decayK (T : Nat) : Nat :=
  if T = 0 then 0 else
  (List.range 32).reverse.foldl (fun a k =>
    let c := a + 2 ^ k
    if 2 ^ (33 * T) ≤ 2 * (2 ^ 33 + 1 - 2 * c) ^ T then c else a) 0

/-- One step of a column's LFSR: Galois form of x^32 + x^22 + x^2 + x + 1. -/
def lfsrStep (x : Word) : Word := if x.getLsbD 0 then (x >>> 1) ^^^ 0x80200003#32 else x >>> 1

/-- The seed of a column's LFSR. -/
def lfsrSeed (col : Nat) : Word := 0x9E3779B9#32 ^^^ BitVec.ofNat 32 (col * 0x00010001)

/-- The LFSR state of a column. -/
def DensMap.lfsr (m : DensMap) (col : Nat) : Word := lfsrSeed col ^^^ tget 0 m.lfsrSt col

/-- One visit: the count decays by the LFSR's dice, then the LFSR steps. -/
def densVisit (K col : Nat) (m : DensMap) (row : Nat) : DensMap :=
  let c := m.count col row
  let u := m.lfsr col
  { m with cells := tput 0 m.cells (cellKey col row) (c - (c * K + u.toNat) / 2 ^ 32),
           lfsrSt := tput 0 m.lfsrSt col (lfsrSeed col ^^^ lfsrStep u) }

/-- One decay sweep: rows 0 to 1,023 of every column. -/
def DensMap.sweep (m : DensMap) : DensMap :=
  let K := decayK m.halfLife
  (List.range 2048).foldl (fun a col => (List.range 1024).foldl (densVisit K col) a) m

/-- The sweeps that a frozen copy held back, in order (R171). -/
def sweepsDue : Nat → DensMap → DensMap
  | 0, m => { m with missedSweeps := 0 }
  | n + 1, m => sweepsDue n m.sweep

/-! ## A spectrum of the map's lane -/

/-- The counter of R167 before this spectrum (a map never enabled has 0 in it). -/
def densDown (s : State) (m : DensMap) : Nat := if m.down = 0 then decEff s m else m.down

/-- Apply a spectrum to a map: the sweeps held back come before the first hit. A command that waits for the first spectrum applied completes
with it (R170, R193). -/
def densApply (s : State) (i : Nat) (x : Spectrum) : State :=
  let m := sweepsDue (s.dmap i).missedSweeps (s.dmap i)
  let s1 := s.setDmap i { m with
    down := decEff s m, spectra := (m.spectra + 1) % 2 ^ 64, flags := m.flags ||| x.flags,
    first := if m.first = noIndex then x.firstIdx else m.first, last := x.firstIdx }
  let s2 := (List.range 2048).foldl (fun a col => densColumn a i x col) s1
  let r := pack [(48, x.firstIdx), (8, x.first % 256)]
  finishAll (finishAll s2 0x0602 i 0 1 r) 0x0601 i 0 2 r

/-- A spectrum of its lane is delivered to a map (R166, R167, R170, R171). -/
def densTake (s : State) (i : Nat) (x : Spectrum) : State :=
  let m := s.dmap i
  if !m.on || m.lane ≠ x.c then s
  else if m.clearing then s.setDmap i { m with skipped := sat32 m.skipped }
  else if 1 < densDown s m then s.setDmap i { m with down := densDown s m - 1 }
  else if m.reading && m.freeze then s.setDmap i { m with down := 1, held := sat32 m.held, skipped := sat32 m.skipped }
  else if x.flags &&& m.inhibit ≠ 0 then s.setDmap i { m with down := 1, skipped := sat32 m.skipped }
  else densApply s i x

/-- The 1 ms decay sweep (R169): at most one in an interval. While a clear runs, as while a frozen copy does, the sweep waits for the first hit. -/
def execDecaySweep (t : Nat) (s : State) : Host.Outcome State Fault Refusal :=
  act t s fun s =>
    if s.disp.sweepPer = periodOf s.now + 1 then s else
    let d := { s.disp with sweepPer := periodOf s.now + 1 }
    { s with disp := { d with maps := d.maps.map (fun e =>
        if !e.2.on || e.2.halfLife = 0 then e
        else if e.2.clearing || (e.2.reading && e.2.freeze) then (e.1, { e.2 with missedSweeps := e.2.missedSweeps + 1 })
        else (e.1, e.2.sweep)) } }

/-! ## Clear (R170, R172) -/

/-- A map cleared: cells, counts and flags zeroed, the decimation counter reloaded with `eff` (DEC_EFF)
and the LFSRs with their seeds; the clear runs on. -/
def DensMap.cleared (m : DensMap) (eff : Nat) : DensMap :=
  { m with cells := [], lfsrSt := [], down := eff, spectra := 0, skipped := 0, sat := false, flags := 0, first := noIndex,
           missedSweeps := 0, clearing := true }

/-- A map will apply a spectrum: it is enabled, and its lane's stream runs. -/
def densRuns (s : State) (m : DensMap) : Bool := m.on && (s.lane m.lane).on && strRuns s (s.lane m.lane).run.source

/-- DENS_CLEAR (R170, R194). -/
def execDensClear (c : Cmd) (p : Block) (s : State) : Host.Outcome State Fault Refusal :=
  zci 0x0602 1 (fun _ => [(0, 2)]) c p s fun b s =>
    let i := fld b 0 2
    chk [(!owns s c.session.val 0x0B i, stBusy), ((s.dmap i).reading, stState)]
      (.later (s.modDmap i (fun m => m.cleared (decEff s m))) i [])

/-- A clear ends: spectra are applied again. The command that ordered it completes with the first spectrum applied; where the map is disabled or its
lane's stream does not run, it completes now and names none (DESIGN CHOICE, log 53). -/
def execDensClearEnd (t i : Nat) (s : State) : Host.Outcome State Fault Refusal :=
  act t s fun s =>
    if !(s.dmap i).clearing then s else
    let s1 := s.modDmap i (fun m => { m with clearing := false })
    if densRuns s1 (s1.dmap i) then s1 else finishAll (finishAll s1 0x0602 i 0 1 noIndex) 0x0601 i 0 2 noIndex

/-! ## DENS_SET_MAP (R172, R193) -/

/-- A DENSITY term of a unit in ARMING, ARMED or POST names the map. -/
def densTermed (s : State) (i : Nat) : Bool :=
  s.acq.terms.any (fun e => e.2.on && e.2.ty == 5 && fld e.2.p 32 2 == i && (s.au (e.1 / 8)).runs)

/-- The map with the block's settings. -/
def DensMap.config (m : DensMap) (b : Nat) : DensMap :=
  { m with on := true, lane := fld b 8 4, inhibit := fld b 16 6, firstBin := sfld b 32 24, bins := fld b 56 24, bottom := sfld b 80 16,
           step := fld b 96 12, dec := fld b 112 17, halfLife := fld b 144 16 }

/-- Changes that clear the map (R172). -/
def DensMap.clears (m : DensMap) (n : DensMap) (b : Nat) : Bool :=
  bit b 3 || !m.on || m.lane != n.lane || m.firstBin != n.firstBin || m.bins != n.bins || m.bottom != n.bottom || m.step != n.step

/-- DENS_SET_MAP's own checks and effect. It acts on a map also while a copy of it is in progress, which then takes the cells as they become
(DESIGN CHOICE, log 53): R171 names only DENS_CLEAR and DENS_READ. A disabled map ends the commands that wait for its first spectrum. -/
def bodySetMap (sess b : Nat) (s : State) : Reply :=
  let i := fld b 0 2
  let en := bit b 2
  let m := s.dmap i
  let n := m.config b
  chk [(!owns s sess 0x0B i, stBusy), (en && decide (12 ≤ n.lane), stInvalid), (en && (n.bins == 0 || n.step == 0 || n.dec == 0), stInvalid),
       (en && (oddOfPair s n.lane || !(s.lane n.lane).on), stState), (densTermed s i, stState),
       (en && decide (1048576 < n.bins ∨ 65536 < n.dec ∨ 60000 < n.halfLife), stRange), (en && !binsIn s n.lane n.firstBin n.bins, stRange),
       (en && decide (densLimit < densRate s n), stNoRes)]
    (if !en then
       let m1 := { m with on := false }
       if bit b 3 then .later (s.setDmap i (m1.cleared (decEff s m1))) i []
       else .ok (finishAll (finishAll (s.setDmap i m1) 0x0602 i 0 1 noIndex) 0x0601 i 0 2 noIndex) 2 noIndex
     else if m.clears n b then .later (s.setDmap i (n.cleared (decEff s n))) i []
     else if m.clearing || densRuns s n then .later (s.setDmap i n) i []
     else .ok (s.setDmap i n) 2 noIndex)

/-- DENS_SET_MAP (R172, R193). -/
def execDensSetMap (c : Cmd) (p : Block) (s : State) : Host.Outcome State Fault Refusal :=
  zci 0x0601 4 (fun _ => [(0, 2), (2, 1), (3, 1), (8, 4), (16, 6), (32, 24), (56, 24), (80, 16), (96, 12), (112, 17), (144, 16)]) c p s fun b s =>
    atCeiling (bit b 2 && !(s.dmap (fld b 0 2)).on) [b] s (bodySetMap c.session.val b s)

/-! ## DENS_READ (R171, R195) -/

/-- Bytes of a copy. -/
def densCopySize : Nat := 8388672

/-- Table 5-7. -/
def densHeader (s : State) (i : Nat) (m : DensMap) : Nat :=
  pack [(2, i), (1, b2n m.freeze), (1, b2n m.sat), (4, m.lane), (6, m.flags), (2, 0), (16, enc 16 m.bottom), (12, m.step), (20, 0),
    (24, enc 24 m.firstBin), (24, m.bins), (16, m.halfLife), (64, m.spectra), (32, m.skipped), (32, m.held), (48, m.first), (48, m.rdLast),
    (48, if m.freeze then m.rdLast else m.last), (20, decEff s m), (92, 0)]

/-- The cells of a map, column by column. -/
def densCells (m : DensMap) : List Byte :=
  (List.range 2048).flatMap (fun col => (List.range 1024).flatMap (fun row => toBytes (m.count col row) 4))

/-- DENS_READ (R171, R195). -/
def execDensRead (c : Cmd) (p : Block) (s : State) : Host.Outcome State Fault Refusal :=
  zci 0x0603 2 (fun _ => [(0, 2), (2, 1), (16, 16), (64, 64)]) c p s fun b s =>
    let i := fld b 0 2
    let h := fld b 16 16
    let off := fld b 64 64
    let m := s.dmap i
    chk [(!owns s c.session.val 0x0B i || !regOwned s c.session.val h, stBusy), (off % 64 != 0, stInvalid), (m.reading, stState),
         (regPast s h off densCopySize, stRange)]
      (.laterR (s.setDmap i { m with reading := true, freeze := bit b 2, rdLast := m.last, held := 0 }) i [h, off] [h])

/-- A copy finishes: header and columns stand in device memory, and DENS_READ completes (R171). Of a LIVE copy every column is taken as of the
end of the copy, END_INDEX (DESIGN CHOICE, log 53): the spec lets each reflect any spectrum from LAST_INDEX to END_INDEX. -/
def execDensReadCopyEnd (t i : Nat) (s : State) : Host.Outcome State Fault Refusal :=
  act t s fun s =>
    (waiting s 0x0603 i).foldl (fun a q =>
      let m := a.dmap i
      let a1 := regWrite a (q.data.getD 0 0) (q.data.getD 1 0) (toBytes (densHeader a i m) 64 ++ densCells m)
      finish (a1.setDmap i { m with reading := false, freeze := false, held := 0 }) q 0 0 0) s

/-! ## DENS_GET_STATUS (R203) -/

/-- DENS_GET_STATUS (R203, Table 5-12). -/
def execDensGetStatus (c : Cmd) (p : Block) (s : State) : Host.Outcome State Fault Refusal :=
  zci 0x060B 1 (fun _ => [(0, 2), (8, 1)]) c p s fun b s =>
    let i := fld b 0 2
    let m := s.dmap i
    let u := if m.on then densRate s m else 0
    .ok (if bit b 8 then s.setDmap i { m with skipped := 0 } else s) 4
      (pack [(1, b2n m.on), (1, b2n m.sat), (1, b2n m.reading), (5, 0), (4, m.lane), (4, 0), (20, decEff s m), (28, 0), (64, m.spectra),
        (32, m.skipped), (32, (roundEven u.num u.den).toNat), (48, m.last), (16, 0)])

/-! ## Pigment tables (R173, R174, R196) -/

/-- The entry of a pigment table in force. -/
def Pigment.entry (p : Pigment) (i : Nat) : Nat :=
  match p.ents with
  | some l => l.getD i 0
  | none => if i = 0 then 0 else 0xFF00FF00

/-- The largest k ≤ 1,022 for which `f k` holds, f holding from 0 up to some point. -/
def lastUpTo (f : Nat → Bool) : Nat := (List.range 10).reverse.foldl (fun a b => if a + 2 ^ b ≤ 1022 && f (a + 2 ^ b) then a + 2 ^ b else a) 0

/-- round(1,022 × y), a tie to even: `above k` says y ≥ (k − 1/2) / 1,022 and `tie k` that it is equal. -/
def pigRound (above tie : Nat → Bool) : Nat :=
  let k := lastUpTo above
  if k % 2 = 1 && tie k then k - 1 else k

/-- The entry index of a count (Table 5-1), evaluated exactly. -/
def Pigment.index (p : Pigment) (c : Nat) : Nat :=
  if c = 0 then 0 else
  let a := min c p.cmax - p.cmin
  let b := p.cmax - p.cmin
  if a = 0 then 1 else
  1 + (match p.curve with
  | 0 => pigRound (fun k => decide ((2 * k - 1) * b ≤ 2044 * a)) (fun k => (2 * k - 1) * b == 2044 * a)
  | 1 => pigRound (fun k => decide ((2 * k - 1) ^ 2 * b ≤ 2044 ^ 2 * a)) (fun k => (2 * k - 1) ^ 2 * b == 2044 ^ 2 * a)
  | _ => pigRound (fun k => decide ((1 + b) ^ (2 * k - 1) ≤ (1 + a) ^ 2044)) (fun k => (1 + b) ^ (2 * k - 1) == (1 + a) ^ 2044))

/-- The shadows of commands before tick `now` take effect: entries, curve and limits together (R174, R187). -/
def Pigment.commit (p : Pigment) (now : Tick) : Pigment :=
  (p.pend.filter (fun q => decide (q.1 < now))).foldl (fun x q => { x with curve := q.2.1, cmin := q.2.2.1, cmax := q.2.2.2.1, ents := q.2.2.2.2 })
    { p with pend := p.pend.filter (fun q => decide (now ≤ q.1)) }

/-- The entries of the newest shadow, or those in force. -/
def Pigment.lastEnts (p : Pigment) : Option (List Nat) := p.pend.foldl (fun _ q => q.2.2.2.2) p.ents

/-- DENS_SET_PIGMENT (R174, R196); `data` are the words the engine reads from host memory. -/
def execDensSetPigment (c : Cmd) (p : Block) (data : List Nat) (s : State) : Host.Outcome State Fault Refusal :=
  zci 0x0604 4 (fun _ => [(0, 2), (2, 2), (4, 1), (32, 32), (64, 32), (128, 64)]) c p s fun b s =>
    let i := fld b 0 2
    let x := s.pigm i
    let ents := if bit b 4 then some ((List.range 1024).map (fun k => data.getD k 0)) else x.lastEnts
    chk [(!owns s c.session.val 0x0C i, stBusy), (fld b 2 2 == 3, stInvalid), (decide (fld b 64 32 ≤ fld b 32 32), stInvalid),
         (bit b 4 && fld b 128 64 % 4 != 0, stInvalid)]
      (.ok (s.setPigm i { x with pend := x.pend ++ [(s.now, fld b 2 2, fld b 32 32, fld b 64 32, ents)] }) 0 0)

end Sys2Proof.Machine
end

