-- ==== Sys2Proof/Machine/Deliver.lean ====
section
/-! DEFINITION. A grain reaches a consumer; a lane computes a spectrum and delivers it to every consumer bound to it
(01_architecture.md R13, R14, R29, R30; 02_sampling_front_end.md R48 to R51; 03_spectral_engine.md R72 to R74, R90;
04_triggers_and_acquisition.md R118 to R130, R145). -/

namespace Sys2Proof.Machine

/-! ## Grains -/

/-- The sample bytes of a grain (R48, R89): 256 codes of 12 bits, two in three bytes, or 256 words of 32 bits. -/
def grainBytes (id : Nat) (codes : List Nat) : List Byte :=
  if id < 16 then
    (List.range 128).flatMap (fun k => toBytes (pack [(12, codes.getD (2 * k) 0), (12, codes.getD (2 * k + 1) 0)]) 3)
  else (List.range 256).flatMap (fun k => toBytes (codes.getD k 0) 4)

/-- The sample codes of a raw grain as signed numbers (R47). -/
def grainSamples (codes : List Nat) : List Int := (List.range 256).map (fun k => sfld (codes.getD k 0) 0 12)

/-- A grain as it reaches a consumer: the consumer's code, the stream the consumer is bound to, and the grain. -/
structure Delivery where
  k  : Nat
  id : Nat
  g  : Grain

/-- The grain as a lane or a down-converter holds it. -/
def Delivery.held (d : Delivery) (miss : Bool) : HeldGrain := { id := d.id, miss := miss, g := d.g }

/-- The tag check of a consumer port (R51): the STREAM received is its binding's, and the INDEX received that of the grain it takes next, unless
grains are missing. `n` and `tid` are as received. -/
def tagBad (s : State) (d : Delivery) (tid n : Nat) : Bool :=
  tid != d.id || (n != d.g.n % 2^48 && (missOf s d.k d.id).isNone)

/-- The grain-tag source of a stream (Table 15-1, group 0x12). -/
def tagSource (id : Nat) : Nat := if id < 6 then 0x1200 + id else 0x1206 + (id - 16)

/-- The consumer accounts for its gap itself, in its own record. -/
def ownGap (k : Nat) : Bool := (0x30 ≤ k && k ≤ 0x50) || 0x80 ≤ k

/-- The consumer cannot accept the grain, or the staging buffer has no room for it (R29). -/
def missAt (s : State) (d : Delivery) : State :=
  let k := d.k
  if isLane k then laneGrain (missGrain s k d.id d.g.n) (consumerLane k) (d.held true)
  else if 0x10 ≤ k && k < 0x20 then ddcTake (missGrain s k d.id d.g.n) (k - 0x10) (d.held true)
  else if 0x30 ≤ k && k < 0x50 then streamMiss s (k - 0x30) d.id d.g.n
  else if k = 0x50 then missGrain ((recSources s d.id).foldl closeSource s) k d.id d.g.n
  else if 0x80 ≤ k then s
  else missGrain s k d.id d.g.n

/-- The grain acts at its consumer. -/
def consume (s : State) (d : Delivery) : State :=
  let k := d.k
  let n := d.g.n
  let bs := grainBytes d.id d.g.codes
  if isLane k then laneGrain s (consumerLane k) (d.held false)
  else if 0x10 ≤ k && k < 0x20 then ddcTake s (k - 0x10) (d.held false)
  else if 0x30 ≤ k && k < 0x50 then streamGrain s (k - 0x30) d.id n d.g.flags bs
  else if k = 0x50 then (recSources s d.id).foldl (fun a j => recGrain a j d.id n d.g.flags bs) s
  else if k = 0x58 then grainTerms s d.id n d.g.flags (grainSamples d.g.codes)
  else if k < 0x80 then captureGrain s ((k - 0x60) / 4) ((k - 0x60) % 4) n d.g.flags bs
  else feedGrain s (k - 0x80) d.id n d.g.flags bs

/-- A grain is accepted: the tag check, the gap record of the grains missing before it, GAP and SUSPECT, then its
effect. -/
def accept (s : State) (d : Delivery) (tid n : Nat) : State :=
  let bad := tagBad s d tid n
  let gap := (missOf s d.k d.id).isSome
  let s1 := if bad then raiseFault s (tagSource d.id) {} else s
  let s2 := if gap && !ownGap d.k then gapPost s1 d.k d.id else s1
  let fl := d.g.flags ||| (if gap then 16 else 0) ||| (if bad then 32 else 0)
  consume (if bit fl 4 then perfAdd s2 2 d.id 1 else s2) { d with g := { d.g with flags := fl } }

/-- The staging buffer holds `fill` bytes: a panic above one quarter of its 2 MB (R28, Table 11-2), and its fill as a count. -/
def stagingFill (s : State) (fill : Nat) : State :=
  let s1 := perfAdd { s with mem := { s.mem with staging := fill } } 0x0A 0 (fill / 1024)
  if fill > 500000 then panicRaise s1 0 0 else s1

/-- A consumer has taken a grain: it stands at the next one, and goes on where the epoch has no more. -/
def takenGrain (s : State) (k id : Nat) (g : Grain) : State :=
  let s1 := setCursor s k id (g.ep.no, g.n + 1)
  let s2 := if 0x10 ≤ k && k < 0x20 then ddcPass s1 (k - 0x10) else s1
  letGo (if id < 6 then consumersOver s2 id else ddcConsumersOver s2 id) id

/-- The next tagged grain that a consumer has not taken reaches it (R13, R29, R51): `tid` and `n` are the STREAM and INDEX of the tag as
received, `ok` says that the consumer accepts it, `fill` is what the staging buffer then holds. What the grain does is reckoned in its own epoch. -/
def execGrainDelivery (t k id n tid : Nat) (ok : Bool) (fill : Nat) (s : State) : Host.Outcome State Fault Refusal :=
  act t s fun s =>
    if !streamId id || !boundTo s k id then s else
    match nextFor s k id with
    | none => s
    | some g =>
      let d : Delivery := { k := k, id := id, g := g }
      let s1 := withEpoch (stagingFill s fill) id g.ep (fun s => if ok then accept s d tid n else missAt s d)
      recPull (takenGrain s1 k id g)

/-! ## Masks (R126 to R130) -/

/-- The bins of a spectrum that violate a mask (R128). -/
def maskViolations (s : State) (m : Mask) (x : Spectrum) : List Int :=
  let bps := maskBps s m.base m.count
  ((List.range x.bins.length).map (fun i => laneLo s x.c + (i : Int))).filter fun k =>
    match limitAt bps k with
    | some l => let v := levelCode (binOf s x.c x.bins k); if m.lower then decide (v < l) else decide (l < v)
    | none => false

/-- Failed spectra in a history. -/
def failed (h : List Bool) : Nat := (h.filter (· == true)).length

/-- A pending configuration applies from the first frame at or after the named grain's time (R130). -/
def maskCommit (s : State) (i : Nat) (T : Stamp) : State :=
  let m := s.maskS i
  match m.pend with
  | some p =>
    if m.pendT ≤ T then
      post (s.setMaskS i { cur := p }) 0x0507 (pack [(4, i / 4), (2, i % 4), (2, 0), (8, m.pendS), (48, m.pendI)])
    else s
  | none => s

/-- The qualifier takes a spectrum (R129): the history after it, and whether an event occurs. -/
def qualify (m : MaskSlot) (gap fail : Bool) : List Bool × Bool :=
  let h := if gap then [] else m.hist
  let h' := (fail :: h).take m.cur.mq
  (h', decide (failed h < m.cur.nq ∧ m.cur.nq ≤ failed h'))

/-- The event time of a slot's qualifier (R129). -/
def maskTime (m : Mask) (x : Spectrum) : Stamp :=
  x.ep.time (x.first + (if m.tpoint then x.n / 2 else 0))

/-- The enabled term that references a slot (R122). -/
def maskTerm (s : State) (i : Nat) : Option Nat :=
  (List.range 64).find? (fun k => (s.term k).on && (s.term k).ty == 4 && fld (s.term k).p 32 4 == i / 4 && fld (s.term k).p 36 2 == i % 4)

/-- The enabled frequency test that references a slot (R145). -/
def maskTest (s : State) (i : Nat) : Option Nat :=
  (List.range 16).find? (fun k => (s.tst k).on && (s.tst k).freq && (s.tst k).lane == i / 4 && (s.tst k).slot == i % 4)

/-- A spectrum reaches a slot with ROLE = trigger (R128, R129): it counts from the arm grain of the unit whose term references
the slot. A term whose slot is off has no event, and its time goes on (R133). Where a breakpoint met a double-bit error no bin is tested, and the spectrum carries SUSPECT for the slot (R385).
`T` is the time of its first sample. -/
def maskTrigger (s : State) (x : Spectrum) (T : Stamp) (i : Nat) : State :=
  let m := s.maskS i
  match maskTerm s i with
  | none => s
  | some k =>
    let a := k / 8
    if !(s.au a).runs then s else
    let te := maskTime m.cur x
    if !m.cur.on || m.cur.test || T < armGrainTime x.ep (s.au a) then termProgress s a (k % 8) te else
    let v := if m.bad then [] else maskViolations s m.cur x
    let q := qualify m (bit x.flags 4) (decide (m.cur.vbins ≤ v.length))
    let s1 := s.setMaskS i { m with hist := q.1, bad := false, sus := false }
    termProgress (if q.2 && (x.flags ||| (if m.bad || m.sus then 32 else 0)) &&& (s.term k).inhibit = 0 then termEvent s1 a (k % 8) te else s1) a (k % 8) te

/-- A spectrum reaches a slot with ROLE = test (R145): it is tested while the unit runs. -/
def maskTested (s : State) (x : Spectrum) (i : Nat) : State :=
  let m := s.maskS i
  if !m.cur.on || !m.cur.test then s else
  match maskTest s i with
  | none => s
  | some k =>
    let a := k / 2
    if !(s.au a).runs then s else
    let v := if m.bad then [] else maskViolations s m.cur x
    let fail := decide (m.cur.vbins ≤ v.length)
    let q := qualify m (bit x.flags 4) fail
    let s1 := (s.setMaskS i { m with hist := q.1, bad := false, sus := false }).modAu a (fun u => { u with
      ftested := sat32 u.ftested, ffailed := if fail then sat32 u.ffailed else u.ffailed })
    if !q.2 then s1 else
    violation (post s1 0x0506 (pack [(1, 1), (3, a), (1, k % 2), (3, 0), (4, i / 4), (2, i % 4), (2, 0), (48, x.firstIdx), (8, x.first % 256),
      (24, enc 24 (v.headD 0)), (16, min v.length 0xFFFF)])) a (k % 2) (maskTime m.cur x)

/-! ## DENSITY terms (R123) -/

/-- Hits that a spectrum places inside the region of a DENSITY term. -/
def regionHits (s : State) (m : DensMap) (p : Nat) (x : Spectrum) : Nat :=
  (((List.range 2048).filter (fun c => decide (fld p 48 11 ≤ c ∧ c ≤ fld p 64 11))).map (fun c =>
    let b := densBins m c
    ((binRun s x.c x.bins b.1 b.2).filter (fun f =>
      let r := densRow m (levelCode f)
      decide (fld p 80 10 ≤ r ∧ r ≤ fld p 96 10))).length)).sum

/-- A spectrum reaches a DENSITY term of a running unit. -/
def densTerm (s : State) (x : Spectrum) (T : Stamp) (k : Nat) : State :=
  let y := s.term k
  let m := s.dmap (fld y.p 32 2)
  if !y.on || y.ty ≠ 5 || !(s.au (k / 8)).runs || m.lane ≠ x.c then s
  else if !m.on || T < armGrainTime x.ep (s.au (k / 8)) then termProgress s (k / 8) (k % 8) T
  else
    let sums := (regionHits s m y.p x :: y.sums).take (fld y.p 160 16)
    let above := decide (fld y.p 128 32 ≤ sums.sum)
    let ev := if bit y.p 34 then y.above && !above else above && !y.above
    let s1 := s.setTerm k { y with sums := sums, above := above }
    termProgress (if ev && x.flags &&& y.inhibit = 0 then termEvent s1 (k / 8) (k % 8) T else s1) (k / 8) (k % 8) T

/-! ## A spectrum (R72 to R74) -/

/-- The grains of a frame, as the lane holds them. -/
def frameGrains (x : Lane) (first n : Nat) : List HeldGrain :=
  x.buf.filter (fun h => x.run.takes h && decide (first < 256 * h.g.n + 256 ∧ 256 * h.g.n < first + n))

/-- The flags of a spectrum (R73): of every grain that holds a sample of its frame. -/
def frameFlags (gs : List HeldGrain) : Nat := gs.foldl (fun a h => a ||| h.g.flags) 0

/-- The samples of a frame: 12-bit codes, or words of I and Q. -/
def frameSamples (gs : List HeldGrain) (first n : Nat) : List Nat :=
  ((gs.flatMap (fun h => h.g.codes)).drop (first - 256 * (gs.headD {}).g.n)).take n

/-- The binary32 powers P of a lane's frame, bin by bin (R77 to R81): a zoom spectrum takes no correction, an SL spectrum that of the correction set
in force for the grain that holds its first sample. -/
def frameBins (s : State) (c : Nat) (gs : List HeldGrain) (first : Nat) : List Nat :=
  let r := (s.lane c).run
  let n := 2 ^ r.log2n
  let zoom := decide (4 ≤ c)
  let g0 := (gs.headD {}).g
  let fs := g0.ep.rate
  (framePowers zoom r.log2n (frameSamples gs first n) (windowCodes r.window r.beta n r.codes)).zipIdx.map (fun p =>
    let dc := if zoom then p.2 = n / 2 else p.2 = 0 || p.2 = n / 2
    let v := normPower zoom r.norm r.s1 r.s2 fs (2 ^ g0.ep.gain) (if dc then 1 else 4) (ofF32 p.1)
    toF32 (if zoom then v else v * gainFactor s r.source g0.source g0.values fs (p.2 * fs / n)))

/-- The lane of a pair that computes the frame (R68): the odd-numbered frames go to the odd lane. -/
def computedBy (s : State) (c first : Nat) : Nat :=
  if c < 4 && s.pairMode (c / 2) then c + (first - 256 * (s.lane c).run.origin) / max 1 (hopEff s c) % 2 else c

/-- Every kind-1 feed of the lane takes the spectrum (R345). -/
def feedsTake (s : State) (x : Spectrum) : State :=
  (List.range 32).foldl (fun a i =>
    let f := a.feed i
    if f.on && f.kind = 1 && f.source = x.c then
      feedSpectrum a i x.firstIdx x.flags (fun fl seq => spectrumRecord a x fl f.f32 (sfld f.p 160 24) (fld f.p 184 24) seq)
    else a) s

/-- The spectrum is delivered to every consumer bound to its lane, with the lane's settings of the frame in force; trigger decisions come before
violations (R146). -/
def deliverSpectrum (s : State) (x : Spectrum) (T : Stamp) : State :=
  let s1 := (List.range 4).foldl (fun a u => traceTake a x T (4 * x.c + u)) s
  let s2 := (List.range 4).foldl (fun a i => densTake a i x) (outTake s1 x)
  let s3 := (List.range 4).foldl (fun a k => maskCommit a (4 * x.c + k) T) s2
  let s4 := (List.range 4).foldl (fun a k => maskTrigger a x T (4 * x.c + k)) s3
  let s5 := (List.range 64).foldl (fun a k => densTerm a x T k) s4
  feedsTake ((List.range 4).foldl (fun a k => maskTested a x (4 * x.c + k)) s5) x

/-- The lane's own settings again after a frame under earlier ones: what the frame changed in the lane stays. -/
def backState (s : State) (c : Nat) (x0 : Lane) (nextS : Nat) : State :=
  match x0.old with
  | [] => s.modLane c (fun y => { y with run := { y.run with nextS := nextS } })
  | r :: l => s.modLane c (fun y => { y with run := x0.run, old := { r with nextS := nextS } :: l })

/-- The lane computes its next frame (R72 to R74), once the grain that holds its last sample has been accepted; `margin` is the lane's. -/
def computeSpectrum (s : State) (c margin : Nat) : State :=
  let x0 := s.lane c
  let f := frontState s c
  let y := f.lane c
  let n := laneN f c
  let first := y.run.nextS
  let gs := frameGrains y first n
  if y.run.over first n || !frameReached y first n || gs.any (·.miss) then s else
  let by_ := computedBy f c first
  let sus := if isSuspect s (0x0A00 + by_) || isSuspect s (0x0A1C + by_) then 32 else 0
  let ep := (gs.headD {}).g.ep
  let x : Spectrum := { c := c, ep := ep, n := n, first := first, bins := frameBins f c gs first,
                        flags := frameFlags gs ||| (if y.gapPend then 16 else 0) ||| sus }
  let res : SpecRes := {
    source := y.run.source, idx := x.firstIdx, off := first % 256, time := x.time, ep := ep, flags := x.flags, bins := x.bins, lo := laneLo f c,
    delta := laneDelta f c, at_ := f.now, count := y.res.count + 1 }
  let f1 := f.setLane c { y with
    spectra := (y.spectra + 1) % 2^32, res := res, prev := if y.res.at_ < f.now then y.res else y.prev, gapPend := false, margin := margin }
  let f2 := withEpoch (perfAdd f1 3 by_ 1) y.run.source ep (fun s => deliverSpectrum s x x.time)
  clearOnce (laneForget (laneFront (backState f2 c x0 (first + hopEff f2 c)) c) c) [0x0A00 + by_, 0x0A1C + by_]

/-- The spectrum of a lane's next frame is computed and delivered (R74). `margin` is the lane's margin in 0.01 % over the latest 4 µs (R101). -/
def execSpectrumCompute (t c margin : Nat) (s : State) : Host.Outcome State Fault Refusal :=
  act t s fun s =>
    if !hasFront s c then s else
    let m := min margin 10000
    recPull (computeSpectrum (measure s [(c, m)]) c m)

end Sys2Proof.Machine
end

