-- ==== Sys2Proof/Machine/Acq.lean ====
section
/-! DEFINITION. The commands and events of the acquisition units (04_triggers_and_acquisition.md R115 to R160). -/

namespace Sys2Proof.Machine

/-! ## Ownership and states -/

/-- The calling session owns a unit. -/
def ownsAu (s : State) (n a : Nat) : Bool := owns s n 6 a

/-- The unit is not in IDLE, DONE, STOPPED or ABORTED, or its ACQ_ARM waits for AT_CT (R117, log 12). -/
def auLocked (s : State) (a : Nat) : Bool := (s.au a).live

/-! ## ACQ_SET_TERM (R152) -/

/-- Fields of Table 4-8 that a TYPE uses. -/
def termFields (ty : Nat) : List (Nat × Nat) :=
  [(0, 3), (3, 3), (6, 1), (8, 4), (12, 6)] ++
  (match ty with
   | 0 | 1 => [(32, 8), (40, 2), (48, 16), (80, 10)]
   | 2 => [(32, 8), (40, 2), (48, 16), (64, 16), (80, 10)]
   | 3 => [(32, 8), (40, 2), (48, 16), (80, 10), (96, 2), (128, 32), (160, 32)]
   | 4 => [(32, 4), (36, 2)]
   | 5 => [(32, 2), (34, 1), (48, 11), (64, 11), (80, 10), (96, 10), (128, 32), (160, 16)]
   | 6 => [(32, 3), (40, 2)]
   | 7 => [(32, 16), (48, 16), (64, 8)]
   | _ => [])

/-- What an EXTERNAL, FREQ_MASK or MONITOR term names is not owned (R115): a pin that the TIU stamps also as its input. -/
def termUnowned (s : State) (n ty b : Nat) : Bool :=
  (ty == 4 && decide (fld b 32 4 < 12) && !ownsLane s n (fld b 32 4)) ||
  (ty == 6 && (!owns s n 7 (fld b 32 3) || ((s.tiuIn (fld b 32 3)).on && !owns s n 9 (fld b 32 3)))) ||
  (ty == 7 && decide (fld b 32 16 ≤ fld b 48 16) &&
    !(List.range (fld b 48 16 / 256 + 1 - fld b 32 16 / 256)).all (fun i => owns s n 0x0E (fld b 32 16 / 256 + i)))

/-- Reserved codes and inconsistent fields of a term (R120, R123, Table 4-8). -/
def termInvalid (ty b : Nat) : Bool :=
  let dir := fld b 40 2
  let A := sfld b 48 16
  let B := sfld b 64 16
  let H : Int := fld b 80 10
  decide (7 < ty) || (decide (ty ≤ 3) && (decide (5 < fld b 32 8) || decide ((if ty = 1 then 2 else 1) < dir))) ||
  (ty == 2 && (decide (B ≤ A) || (dir == 1 && decide (B - A < 2 * H)))) ||
  (ty == 3 && decide (2 ≤ fld b 96 2) && fld b 96 2 == 2 && decide (fld b 160 32 < fld b 128 32)) ||
  (ty == 3 && fld b 96 2 == 3 && decide (fld b 160 32 < fld b 128 32)) ||
  (ty == 4 && decide (11 < fld b 32 4)) ||
  (ty == 5 && (decide (fld b 64 11 < fld b 48 11) || decide (fld b 96 10 < fld b 80 10) || fld b 128 32 == 0 || fld b 160 16 == 0)) ||
  (ty == 6 && dir == 3) || (ty == 7 && decide (fld b 48 16 < fld b 32 16))

/-- Values beyond their limits. -/
def termFar (ty b : Nat) : Bool :=
  let code := fun (v : Int) => decide (v < -2048 ∨ 2047 < v)
  (decide (ty ≤ 3) && code (sfld b 48 16)) || (ty == 2 && code (sfld b 64 16)) || (ty == 3 && (fld b 128 32 == 0 || fld b 160 32 == 0))

/-- Another enabled term references the slot (R122). -/
def slotTaken (s : State) (k b : Nat) : Bool :=
  (List.range 64).any (fun i => i != k && (s.term i).on && (s.term i).ty == 4 && fld (s.term i).p 32 6 == fld b 32 6)

/-- ACQ_SET_TERM (R152). -/
def execAcqSetTerm (c : Cmd) (p : Block) (s : State) : Host.Outcome State Fault Refusal :=
  zci 0x0501 4 (fun b => termFields (fld b 8 4)) c p s fun b s =>
    let n := c.session.val
    let a := fld b 0 3
    let k := 8 * a + fld b 3 3
    let en := bit b 6
    let ty := fld b 8 4
    chk [(!ownsAu s n a || (en && termUnowned s n ty b), stBusy), (en && termInvalid ty b, stInvalid),
         (auLocked s a || (en && ty == 4 && oddOfPair s (fld b 32 4)) || (en && ty == 6 && (s.tiuIn (fld b 32 3)).prescale != 0), stState),
         (en && ty == 4 && slotTaken s k b, stBusy), (en && termFar ty b, stRange)]
      (.ok (if en then s.setTerm k { on := true, ty := ty, inhibit := fld b 12 6, p := b } else s.modTerm k (fun x => { x with on := false })) 0 0)

/-! ## ACQ_SET_COMBINER, ACQ_SET_CAPTURE (R153, R154) -/

/-- ACQ_SET_COMBINER (R153). -/
def execAcqSetCombiner (c : Cmd) (p : Block) (s : State) : Host.Outcome State Fault Refusal :=
  zci 0x0502 2 (fun _ => [(0, 3), (8, 2), (16, 8), (32, 32), (64, 32), (96, 4)]) c p s fun b s =>
    let a := fld b 0 3
    let m := fld b 8 2
    let r := fld b 96 4
    chk [(!ownsAu s c.session.val a, stBusy), (m == 3, stInvalid), (fld b 16 8 == 0, stInvalid), (m == 1 && fld b 32 32 == 0, stInvalid),
         (m == 2 && r != 15 && (decide (7 < r) || bit (fld b 16 8) r), stInvalid), (auLocked s a, stState)]
      (.ok (s.modAu a (fun u => { u with mode := m, terms := fld b 16 8, win := fld b 32 32, holdoff := fld b 64 32,
                                         resetT := if m = 2 then r else 15 })) 0 0)

/-- The fields of Table 4-10: the stream entries below NSTREAMS. -/
def captureFields (b : Nat) : List (Nat × Nat) :=
  [(0, 3), (8, 2), (10, 1), (16, 3), (32, 40), (72, 40), (128, 17)] ++
  ((List.range (min 4 (fld b 16 3))).flatMap (fun i => [(160 + 32 * i, 8), (176 + 32 * i, 16)]))

/-- The stream entries of a block: stream and ring. -/
def captureEntries (b : Nat) : List (Nat × Nat) :=
  (List.range (min 4 (fld b 16 3))).map (fun i => (fld b (160 + 32 * i) 8, fld b (176 + 32 * i) 16))

/-- ACQ_SET_CAPTURE (R154, R377). -/
def execAcqSetCapture (c : Cmd) (p : Block) (s : State) : Host.Outcome State Fault Refusal :=
  zci 0x0503 6 captureFields c p s fun b s =>
    let n := c.session.val
    let a := fld b 0 3
    let es := captureEntries b
    let m := fld b 8 2
    chk [(!ownsAu s n a || es.any (fun e => !regOwned s n e.2), stBusy), (m == 3, stInvalid), (fld b 16 3 == 0, stInvalid),
         (fld b 128 17 == 0 || (m != 1 && fld b 128 17 != 1), stInvalid), (es.any (fun e => !streamId e.1), stInvalid),
         (es.any (fun e => !isCapRing s e.2), stInvalid), (auLocked s a, stState), (decide (4 < fld b 16 3 ∨ 65536 < fld b 128 17), stRange)]
      (.ok (s.modAu a (fun u => { u with
        capSet := true, capMode := m, prefill := bit b 10, pre := fld b 32 40, post := fld b 72 40, segments := fld b 128 17,
        entries := es.map (fun e => { stream := e.1, ring := e.2, bytes := if e.1 < 16 then 392 else 1032 }) })) 0 0)

/-! ## ACQ_ARM (R136, R137, R143, R155) -/

/-- Samples of a stream in a number of ct, rounded up. -/
def samplesIn (s : State) (id ct : Nat) : Nat := ceilDiv (ct * nsOf s (if id < 6 then id else (s.ddc (id - 16)).source)) (16 * strDecim s id)

/-- p, q, q_eff, G and B of an entry (R136, R137). -/
def CapEntry.sized (s : State) (u : Acq) (L : ℚ) (e : CapEntry) : CapEntry :=
  let p := samplesIn s e.stream u.pre
  let q := samplesIn s e.stream u.post
  let src := if e.stream < 6 then e.stream else (s.ddc (e.stream - 16)).source
  let qe := max q (⌈L * nsOf s src / (16 * strDecim s e.stream)⌉).toNat
  { e with p := p, q := q, qEff := qe,
           g := if u.capMode = 2 then ((s.reg e.ring).size - 64) / e.bytes else ceilDiv (p + qe) 256 + 1 }

/-- The slots of an entry fit its ring. -/
def CapEntry.fits (s : State) (u : Acq) (e : CapEntry) : Bool :=
  if u.capMode = 2 then decide (ceilDiv e.qEff 256 + 1 ≤ e.g) else decide (u.segments * slotBytes e ≤ (s.reg e.ring).size)

/-- The unit with every entry sized. -/
def sizedUnit (s : State) (a : Nat) : Acq :=
  let u := s.au a
  { u with entries := u.entries.map (fun e => e.sized s u (unitBound s a)) }

/-- The fixed delay of a pin that the unit drives is too short (R149). -/
def delayShort (s : State) (a : Nat) : Bool :=
  (List.range 4).any (fun n =>
    let x := s.pin n
    x.on && pulseSource x.source && x.au == a && x.fixed && decide ((x.delay : ℚ) < unitBound s a))

/-- A captured stream or a term's stream does not run. -/
def streamsStopped (s : State) (a : Nat) : Bool :=
  (s.au a).entries.any (fun e => !strRuns s e.stream) ||
  (unitTerms s a).any (fun k => match termStream s (s.term (8 * a + k)) with | some id => !strRuns s id | none => false)

/-- A capture ring that an armed unit already writes, or that two entries of this one name (R381). -/
def ringsTaken (s : State) (a : Nat) : Bool :=
  let rs := (s.au a).entries.map (·.ring)
  !decide rs.Nodup || (List.range 8).any (fun i => i != a && (s.au i).live && (s.au i).entries.any (fun e => rs.contains e.ring))

/-- The slots that a unit's FREQ_MASK terms reference start again (R118, R129). -/
def clearMasks (s : State) (a : Nat) : State :=
  ((List.range 8).filter (fun k => (s.term (8 * a + k)).on && (s.term (8 * a + k)).ty == 4)).foldl (fun x k =>
    x.modMaskS (4 * fld (s.term (8 * a + k)).p 32 4 + fld (s.term (8 * a + k)).p 36 2)
      (fun m => if m.cur.test then m else { m with hist := [] })) s

/-- The unit is armed at this tick: its capture begins at the next grain boundary of each stream (R155), with every
term's state cleared (R118). -/
def armNow (s : State) (a : Nat) : State :=
  let u := sizedUnit s a
  let es := u.entries.map (fun e => { e with
    first := bindGrain s e.stream, ep := s.epoch e.stream, pos := 0, idxs := [], held := 0, last := none, trigS := 0, done := none })
  let v : Acq := { u with
    st := if u.prefill then 1 else 2, entries := es, armAt := none, armTime := stampOf s.now, segDone := 0, triggers := 0, hasTrig := false, holdTrig := 0,
    queue := [], lastEv := [], seqStep := 0, seqTime := 0, stopReq := false, trunc := false, violT := [], ttPend := [], capBad := false }
  let s1 := (List.range 8).foldl (fun x k => x.modTerm (8 * a + k) (fun y => { y.clear with sums := [], above := false, progress := 0 })) s
  let s0 := (es.zipIdx).foldl (fun x e => bindNow x (0x60 + 4 * a + e.2) e.1.stream) (clearMasks s1 a)
  let s2 := post (drivePins (s0.setAu a v)) 0x0501 (pack [(3, a), (5, 0), (48, (es.headD {}).first)])
  prefillCheck s2 a

/-- The first captured grain of each entry (R155). -/
def armResult (s : State) (a : Nat) : Nat :=
  pack ((List.range 4).map (fun i => (64, match (s.au a).entries[i]? with | some e => e.first % 2^48 | none => noIndex)))

/-- ACQ_ARM (R143, R155). -/
def execAcqArm (c : Cmd) (p : Block) (s : State) : Host.Outcome State Fault Refusal :=
  zci 0x0504 2 (fun _ => [(0, 3), (64, 64)]) c p s fun b s =>
    let n := c.session.val
    let a := fld b 0 3
    let at_ := fld b 64 64
    let u := sizedUnit s a
    let t := s.setAu a { u with st := 2 }
    chk [(auLocked s a, stState), (!ownsAu s n a || u.entries.any (fun e => !regOwned s n e.ring) || ringsTaken s a, stBusy),
         ((unitTerms s a).isEmpty || !u.capSet || u.entries.any (fun e => !isCapRing s e.ring), stInvalid),
         (u.capMode == 2 && [0, 1].any (fun k => (s.tst (2 * a + k)).on && !(s.tst (2 * a + k)).freq), stInvalid),
         (streamsStopped s a, stState), (u.entries.any (fun e => !e.fits s u), stRange), (delayShort s a, stRange), (tickBad s at_, stRange),
         (decide (rawLimit < rawLoad t ∨ ddcLimit < ddcLoad t), stNoRes)]
      (if at_ = 0 then .ok (armNow s a) 4 (armResult (armNow s a) a)
       else .laterR (s.modAu a (fun u => { u with armAt := some at_ })) a [at_] (u.entries.map (·.ring)))

/-- A unit whose AT_CT has come (R155): it is armed, or, when a stream it needs has stopped since, the command ends with STATE. -/
def armDue (s : State) (a : Nat) : State :=
  match (s.au a).armAt with
  | some at_ =>
    if s.now < at_ then s
    else if streamsStopped s a then finishAll (s.modAu a (fun u => { u with armAt := none })) 0x0504 a stState 0 0
    else finishAll (armNow s a) 0x0504 a 0 4 (armResult (armNow s a) a)
  | none => s

/-- AT_CT of a unit arrives (R155). -/
def execAcqArmAtCt (t : Nat) (s : State) : Host.Outcome State Fault Refusal := act t s fun s => (List.range 8).foldl armDue s

/-! ## ACQ_STOP, ACQ_FORCE (R141, R142) -/

/-- The open segment closes at the next grain boundary, with TRUNC = 1 (R141). -/
def cutSegment (s : State) (a : Nat) : State :=
  let s1 := s.modAu a (fun u => { u with
    trunc := true, stopReq := true,
    entries := u.entries.map (fun e => { e with qEff := min e.qEff (256 * e.ep.grainFrom (stampOf s.now) - e.trigS) }) })
  closeReached s1 a

/-- ACQ_STOP (R141). -/
def execAcqStop (c : Cmd) (p : Block) (s : State) : Host.Outcome State Fault Refusal :=
  zci 0x0505 1 (fun _ => [(0, 3)]) c p s fun b s =>
    let a := fld b 0 3
    let u := s.au a
    chk [(!ownsAu s c.session.val a, stBusy), (!u.runs || (u.capMode == 2 && u.st == 3), stState)]
      (.ok (if u.capMode = 2 then stopPoint s a (stampOf s.now) true else if u.st = 3 then cutSegment s a else acqEnd s a 5) 0 0)

/-- ACQ_FORCE (R142). -/
def execAcqForce (c : Cmd) (p : Block) (s : State) : Host.Outcome State Fault Refusal :=
  zci 0x0506 1 (fun _ => [(0, 3)]) c p s fun b s =>
    let a := fld b 0 3
    let u := s.au a
    let e := u.entries.headD {}
    let T := e.ep.time (256 * max e.first (e.ep.grainAt s.now))
    chk [(!ownsAu s c.session.val a, stBusy), (u.st != 1 && u.st != 2, stState)]
      (.ok (acceptTrigger s a T 0 true) 2 T)

/-! ## The mask table (R131, R156) -/

/-- A breakpoint from its 64 bits (Table 4-3). -/
def bpOf (w : Nat) : Bp := { pos := sfld w 0 32, level := sfld w 32 16, lin := bit w 48 }

/-- Ranges of breakpoints that are referenced (R131). -/
def bpRanges (s : State) : List (Nat × Nat) :=
  (s.acq.masks.flatMap (fun e =>
    (if e.2.cur.on then [(e.2.cur.base, e.2.cur.count)] else []) ++
    (match e.2.pend with | some m => if m.on then [(m.base, m.count)] else [] | none => [])) ++
  (s.acq.tests.filter (fun e => e.2.on && !e.2.freq)).flatMap (fun e => [(e.2.ubase, e.2.ucount), (e.2.lbase, e.2.lcount)])).filter
    (fun r => r.2 != 0)

/-- ACQ_LOAD_MASK (R131, R156): `data` are the breakpoints the engine reads from host memory. -/
def execAcqLoadMask (c : Cmd) (p : Block) (data : List Nat) (s : State) : Host.Outcome State Fault Refusal :=
  zci 0x0507 2 (fun _ => [(0, 17), (32, 18), (64, 64)]) c p s fun b s =>
    let base := fld b 0 17
    let n := fld b 32 18
    let ws := (List.range (min n 131072)).map (fun i => data.getD i 0)
    chk [(fld b 64 64 % 8 != 0, stInvalid), ((bpRanges s).any (fun r => decide (r.1 < base + n ∧ base < r.1 + r.2)), stState),
         (decide (n < 1 ∨ 131072 < base + n), stRange), (ws.any (fun w => fld w 49 15 != 0), stInvalid)]
      (.ok { s with acq := { s.acq with
          table := (ws.zipIdx).foldl (fun t x => tput {} t (base + x.2) (bpOf x.1)) s.acq.table } } 0 0)

/-- POS rises strictly through a range (R127). -/
def posRises : List Bp → Bool
  | a :: b :: r => decide (a.pos < b.pos) && posRises (b :: r)
  | _ => true

/-! ## ACQ_SET_MASK, ACQ_SET_TEST (R130, R145, R157, R158) -/

/-- ACQ_SET_MASK (R130, R157). -/
def execAcqSetMask (c : Cmd) (p : Block) (s : State) : Host.Outcome State Fault Refusal :=
  zci 0x0508 4 (fun _ => [(0, 4), (4, 2), (6, 1), (7, 1), (8, 1), (9, 1), (16, 17), (48, 18), (72, 9), (88, 9), (104, 16), (128, 48), (176, 8)])
    c p s fun b s =>
    let l := fld b 0 4
    let i := 4 * l + fld b 4 2
    let en := bit b 6
    let m : Mask := { on := true, test := bit b 7, lower := bit b 8, tpoint := bit b 9, base := fld b 16 17, count := fld b 48 18, nq := fld b 72 9,
                      mq := fld b 88 9, vbins := fld b 104 16 }
    let auto := fld b 176 8 == 0xFF
    let st := if auto then (s.lane l).run.source else fld b 176 8
    let from_ := stampOf (s.now + 3200)
    let g := if auto then grainFrom s st from_ else (s.epoch st).ep0 + fld b 128 48
    chk [(decide (l < 12) && !ownsLane s c.session.val l, stBusy), (decide (12 ≤ l), stInvalid), (en && m.vbins == 0, stInvalid),
         (!auto && !streamId st, stInvalid), (en && decide (m.base + m.count ≤ 131072) && !posRises (maskBps s m.base m.count), stInvalid), (oddOfPair s l, stState),
         (!strRuns s st, stState), ((s.maskS i).pend.isSome, stState),
         (en && (m.count == 0 || decide (131072 < m.base + m.count) || m.mq == 0 || decide (256 < m.mq) || m.nq == 0 || decide (m.mq < m.nq)), stRange),
         (decide (grainTime s st g < from_), stRange)]
      (.ok (s.modMaskS i (fun x => { x with pend := some (if en then m else { x.cur with on := false }), pendT := grainTime s st g, pendS := st,
                                            pendI := g % 2^48 })) 3
        (pack [(48, g % 2^48), (8, st), (8, 0), (80, grainTime s st g), (48, 0)]))

/-- The configuration of a slot that a command finds: the pending one, else the one in force. -/
def slotConfig (s : State) (i : Nat) : Mask := (s.maskS i).pend.getD (s.maskS i).cur

/-- ACQ_SET_TEST (R145, R158). -/
def execAcqSetTest (c : Cmd) (p : Block) (s : State) : Host.Outcome State Fault Refusal :=
  zci 0x0509 4 (fun _ => [(0, 3), (3, 1), (4, 1), (5, 1), (6, 1), (8, 8), (16, 4), (20, 2), (32, 17), (64, 18), (96, 17), (128, 18)])
    c p s fun b s =>
    let n := c.session.val
    let a := fld b 0 3
    let k := 2 * a + fld b 3 1
    let en := bit b 4
    let fr := bit b 5
    let l := fld b 16 4
    let i := 4 * l + fld b 20 2
    let t : Test := { on := true, freq := fr, stop := bit b 6, stream := fld b 8 8, lane := l, slot := fld b 20 2, ubase := fld b 32 17,
                      ucount := fld b 64 18, lbase := fld b 96 17, lcount := fld b 128 18 }
    let bps := maskBps s t.ubase t.ucount ++ maskBps s t.lbase t.lcount
    chk [(!ownsAu s n a || (en && fr && decide (l < 12) && !ownsLane s n l), stBusy), (en && fr && decide (12 ≤ l), stInvalid),
         (en && fr && (!(slotConfig s i).on || !(slotConfig s i).test), stInvalid),
         (en && !fr && !(s.au a).entries.any (fun e => e.stream == t.stream), stInvalid), (en && !fr && t.ucount == 0 && t.lcount == 0, stInvalid),
         (en && !fr && decide (t.ubase + t.ucount ≤ 131072 ∧ t.lbase + t.lcount ≤ 131072) &&
          !(posRises (maskBps s t.ubase t.ucount) && posRises (maskBps s t.lbase t.lcount)), stInvalid),
         (auLocked s a || (en && fr && oddOfPair s l), stState),
         (en && fr && (List.range 16).any (fun j => j != k && (s.tst j).on && (s.tst j).freq && (s.tst j).lane == l && (s.tst j).slot == t.slot), stBusy),
         (en && !fr && decide (131072 < t.ubase + t.ucount ∨ 131072 < t.lbase + t.lcount), stRange),
         (en && !fr && bps.any (fun x => decide (x.level < -2048 ∨ 2047 < x.level)), stRange)]
      (.ok (if !en then s.modTst k (fun x => { x with on := false })
            else if fr then (s.setTst k t).modMaskS i (fun m => { m with hist := [] }) else s.setTst k t) 0 0)

/-! ## EVT_OUT (R147 to R150, R159) -/

/-- A unit in ARMING, ARMED or POST that a pin's source names. -/
def pinUnitRuns (s : State) (src au : Nat) : Bool := decide (src ≤ 3) && (s.au au).runs

/-- ACQ_SET_EVT_OUT (R148, R149, R159). -/
def execAcqSetEvtOut (c : Cmd) (p : Block) (s : State) : Host.Outcome State Fault Refusal :=
  zci 0x050A 2 (fun _ => [(0, 2), (2, 1), (3, 1), (4, 3), (7, 1), (8, 3), (11, 3), (16, 1), (32, 32), (64, 32)]) c p s fun b s =>
    let n := fld b 0 2
    let en := bit b 2
    let x : EvtOut := { on := true, pol := bit b 3, source := fld b 4 3, retrig := bit b 7, au := fld b 8 3, index := fld b 11 3, fixed := bit b 16,
                        width := fld b 32 32, delay := fld b 64 32 }
    let old := s.pin n
    chk [(!owns s c.session.val 8 n, stBusy), (en && decide (4 < x.source), stInvalid), (en && (x.source == 2 || x.source == 4) && x.fixed, stInvalid),
         ((old.on && pinUnitRuns s old.source old.au) || (en && pinUnitRuns s x.source x.au), stState),
         (en && x.source == 3 && decide (1 < x.index), stRange), (en && pulseSource x.source && decide (x.width < 16), stRange)]
      (.ok (drivePin (s.setPin n (if en then x else {})) n) 0 0)

/-- Fixed pulses that are due: their leading edges are driven (R149). -/
def execEvtOutPulse (t : Nat) (s : State) : Host.Outcome State Fault Refusal :=
  act t s fun s =>
    (List.range 4).foldl (fun a n =>
      ((a.pin n).pend.filter (fun q => decide (q ≤ a.now))).foldl (fun b q => leadEdge b n q)
        (a.modPin n (fun x => { x with pend := x.pend.filter (fun q => decide (a.now < q)) }))) s

/-- A pulse's WIDTH expires (R148). -/
def execEvtOutPulseEnd (t : Nat) (s : State) : Host.Outcome State Fault Refusal :=
  act t s fun s =>
    (List.range 4).foldl (fun a n =>
      if (a.pin n).active && decide ((a.pin n).endAt ≤ a.now) then drivePin (a.modPin n (fun x => { x with active := false })) n else a) s

/-! ## Time tests (R145) -/

/-- The verdict of one time test, made at the segment's close: TTEST in the slot's header, and MASK_VIOLATION for the first violating sample.
`d` lists the slot, whether the test fails, the first violating sample, how many violate, and that sample's time. -/
def timeVerdict (s : State) (a k : Nat) (d : List Nat) : State :=
  let f := fun i => d.getD i 0
  let fail := f 1 == 1
  let b := (rdByte s.mem.mem (f 0 + 23)).toNat
  let v := if fail || b % 4 = 2 then 2 else 1
  let s1 := memWrite s (f 0 + 23) [BitVec.ofNat 8 (b / 4 * 4 + v)]
  if !fail then s1 else
  violation (post s1 0x0506 (pack [(1, 0), (3, a), (1, k), (11, 0), (48, f 2 / 256), (8, f 2 % 256), (24, 0), (16, f 3)])) a k (f 4)

/-- Within 2 µs of a segment's close: the verdicts of the unit's time tests (R145). -/
def execTimeTestVerdict (t a : Nat) (s : State) : Host.Outcome State Fault Refusal :=
  act t s fun s =>
    ((s.au a).ttPend).foldl (fun x e => timeVerdict x a e.1 e.2.2) (s.modAu a (fun u => { u with ttPend := [] }))

/-! ## ACQ_GET_STATUS (R160) -/

/-- ACQ_GET_STATUS (R160). -/
def execAcqGetStatus (c : Cmd) (p : Block) (s : State) : Host.Outcome State Fault Refusal :=
  zci 0x050B 1 (fun _ => [(0, 3), (8, 1)]) c p s fun b s =>
    let a := fld b 0 3
    let u := s.au a
    .ok (if bit b 8 then s.setAu a { u with missed := 0, evtDrop := 0 } else s) 6
      (pack [(3, u.st), (5, 0), (17, u.segDone), (7, 0), (32, u.triggers), (32, u.missed), (32, u.ftested), (32, u.ffailed), (32, u.viol), (80, u.lastTrig),
        (16, u.evtDrop), (96, 0)])

end Sys2Proof.Machine
end

