-- ==== Sys2Proof/Machine/AuxCtl.lean ====
section
/-! DEFINITION. Aux inputs and control outputs: the commands of group 0x0C and the events of the aux converter and of
the control outputs (14_aux_inputs_and_control_outputs.md). -/

namespace Sys2Proof.Machine

/-! ## Aux commands -/

/-- AUX_DATA fields NEW and OVR (Table 14-3). -/
def auxNew (s : State) : Bool := bit s.aux.data.toNat 30

/-- REFOK changes: AUX_REF is posted, and a fall while the sequencer runs raises 0x2400 (R481, R499). -/
def auxSetRefok (s : State) (ok : Bool) : State :=
  if s.aux.refok = ok then s else
  let s1 := postAt { s with aux := { s.aux with refok := ok } } (if !ok && s.aux.run then 1 else 7) 0x0C01 (pack [(1, b2n ok), (2, s.aux.source)])
  if !ok && s.aux.run then raiseFault s1 0x2400 {} else s1

/-- AUX_SET_REF (R481, R493). -/
def execAuxSetRef (c : Cmd) (p : Block) (s : State) : Host.Outcome State Fault Refusal :=
  zci 0x0C01 1 (fun _ => [(0, 2)]) c p s fun b s =>
    chk [(!owns s c.session.val 0x16 0, stBusy), (fld b 0 2 == 3, stInvalid), (s.aux.run, stState)]
      (if fld b 0 2 = s.aux.source then .ok s 0 0 else
        let s1 := auxSetRefok s false
        .ok { s1 with aux := { s1.aux with source := fld b 0 2, refIn := none } } 0 0)

/-- AUX_SET_INPUT (R493). -/
def execAuxSetInput (c : Cmd) (p : Block) (s : State) : Host.Outcome State Fault Refusal :=
  zci 0x0C02 1 (fun _ => [(0, 4), (4, 1), (5, 1), (16, 16), (32, 16)]) c p s fun b s =>
    let n := fld b 0 4
    let x := s.auxIn n
    chk [(!owns s c.session.val 0x16 0, stBusy), (decide (fld b 16 16 > fld b 32 16), stInvalid),
         (s.aux.run && bit b 4 != x.range, stState)]
      (.ok (s.setAuxIn n { x with range := bit b 4, limen := bit b 5, lo := fld b 16 16, hi := fld b 32 16, fresh := true,
                                  outside := x.outside && bit b 5 }) 0 0)

/-- Entries of an AUX_SET_SEQ block: input, pull, settle (Table 14-6). -/
def seqEntries (b : Nat) : List (Nat × Nat × Nat) :=
  (List.range (fld b 8 5)).map (fun e => (fld b (128 + 16 * e) 4, fld b (132 + 16 * e) 2, fld b (136 + 16 * e) 8))

/-- D of a sequence, in µs (R482). -/
def seqLen (l : List (Nat × Nat × Nat)) : Nat := l.foldl (fun a e => a + 1 + e.2.2) 0

/-- AUX_SET_SEQ (R482 to R484, R494). -/
def execAuxSetSeq (c : Cmd) (p : Block) (s : State) : Host.Outcome State Fault Refusal :=
  zci 0x0C03 6 (fun b => if bit b 0 then
      [(0, 1), (1, 1), (8, 5), (32, 32), (64, 64)] ++
        (List.range (min 16 (fld b 8 5))).flatMap (fun e => [(128 + 16 * e, 6), (136 + 16 * e, 8)])
    else [(0, 1)]) c p s fun b s =>
    let l := seqEntries b
    let at_ := fld b 64 64
    let start := if at_ = 0 then s.now + 1 else at_
    chk [(!owns s c.session.val 0x16 0, stBusy),
         (bit b 0 && fld b 8 5 == 0, stInvalid),
         (bit b 0 && (l.take 16).any (fun e => e.2.1 == 3 || (e.2.1 != 0 && (s.auxIn e.1).range)), stInvalid),
         (bit b 0 && (decide (fld b 8 5 > 16) || (fld b 32 32 != 0 && decide (fld b 32 32 < seqLen l)) || tickBad s at_), stRange)]
      (if !bit b 0 then .ok (auxStop s) 2 0
       else if s.aux.run && s.aux.inPass then
         .ok { s with aux := { s.aux with stopReq := true, repl := some (bit b 1, l, fld b 32 32, start) } } 2 (stampOf start)
       else
         .ok { s with aux := { s.aux with run := true, halted := !yp0Locked s, cont := bit b 1, entries := l, period := fld b 32 32,
                                          start := start, slot := 0, inPass := false, stopReq := false,
                                          passes := 0, seq := 0, pull := 0, repl := none } } 2 (stampOf start))

/-- AUX_GET_STATUS (R495, Table 14-7). -/
def execAuxGetStatus (c : Cmd) (p : Block) (s : State) : Host.Outcome State Fault Refusal :=
  zci 0x0C04 1 (fun _ => [(8, 1)]) c p s fun b s =>
    let x := s.aux
    let ins := List.range 16
    let r := pack ([(2, x.source), (1, b2n x.refok), (1, b2n x.run), (1, b2n x.cont), (3, 0), (5, x.entries.length), (3, 0)]
      ++ ins.map (fun n => (1, b2n (s.auxIn n).range)) ++ [(32, x.passes), (32, x.ovrCount)]
      ++ ins.map (fun n => (1, b2n (s.auxIn n).outside)) ++ [(16, 0)]
      ++ ins.map (fun n => (16, (s.auxIn n).last)) ++ [(80, x.passTime)])
    .ok (if bit b 8 then { s with aux := { x with ovrCount := 0 } } else s) 8 r

/-! ## Control output commands -/

/-- CTL_SET_OUTPUT (R488 to R490, R496). -/
def execCtlSetOutput (c : Cmd) (p : Block) (s : State) : Host.Outcome State Fault Refusal :=
  zci 0x0C05 1 (fun b => if bit b 3 then [(0, 3), (3, 1), (4, 1), (5, 1), (6, 1), (8, 12), (24, 12)] else [(0, 3), (3, 1)])
    c p s fun b s =>
    let n := fld b 0 3
    let x := if yp0Locked s then (s.ctlO n).elapse s.now else s.ctlO n
    let code := fld b 8 12
    let y := { x with direct := bit b 5, fsafe := bit b 6, safe := fld b 24 12 }
    chk [(!owns s c.session.val 0x17 n, stBusy)]
      (if !bit b 3 then
         .ok (s.setCtlO n { x with on := false, out := 0, code := 0, hold := false, rphase := 0, direct := false, frozen := none }) 0 0
       else if !x.on then
         let z := { y with on := true, range := bit b 4, newRange := bit b 4, last := code, cmdAt := some s.now }
         .ok (s.setCtlO n (if yp0Locked s then { z with code := code, out := code, hold := false, rphase := 0 }
                           else { z with frozen := some code })) 0 0
       else if bit b 4 ≠ x.newRange then
         .ok (s.setCtlO n { y with newRange := bit b 4, rphase := 1, hold := true, holdEnd := s.now + 40000, holdAt := none, out := 0,
                                   code := code, last := code, cmdAt := some s.now }) 0 0
       else .ok (ctlCmd (s.setCtlO n y) n code) 0 0)

/-- CTL_WRITE (R497): the codes take effect at AT_CT, or at the next tick where it is 0. -/
def execCtlWrite (c : Cmd) (p : Block) (s : State) : Host.Outcome State Fault Refusal :=
  zci 0x0C06 4 (fun _ => (0, 8) :: (192, 64) :: (List.range 8).map (fun n => (64 + 16 * n, 12))) c p s fun b s =>
    let outs := maskBits 8 (fld b 0 8)
    let at_ := fld b 192 64
    chk [(outs.any (fun n => !owns s c.session.val 0x17 n), stBusy), (fld b 0 8 == 0, stInvalid),
         (outs.any (fun n => !(s.ctlO n).on || (s.ctlO n).timed.isSome), stState), (tickBad s at_, stRange)]
      (let T := if at_ = 0 then s.now + 1 else at_
       .later (outs.foldl (fun a n => a.modCtlO n (fun x => { x with timed := some (T, fld b (64 + 16 * n) 12) })) s) 0 [T, fld b 0 8])

/-- Table 14-9: the status word of an output. -/
def Ctl.word (x : Ctl) : Nat :=
  pack [(12, x.code), (1, b2n x.on), (1, b2n x.range), (1, b2n x.direct), (1, b2n x.hold), (1, b2n x.overload),
    (1, b2n x.compl), (1, b2n x.timed.isSome), (1, b2n x.fsafe), (12, x.safe)]

/-- CTL_GET_STATUS (R498). -/
def execCtlGetStatus (c : Cmd) (p : Block) (s : State) : Host.Outcome State Fault Refusal :=
  zci 0x0C07 1 (fun _ => []) c p s fun _ s =>
    let now := fun n => if yp0Locked s then (s.ctlO n).elapse s.now else s.ctlO n
    .ok s 4 (pack ((List.range 8).map (fun n => (32, (now n).word))))

/-! ## Aux events -/

/-- ct of one pass period: PERIOD µs, or D where PERIOD = 0 (R482). -/
def auxPassCt (s : State) : Nat := 1600 * (if s.aux.period = 0 then seqLen s.aux.entries else s.aux.period)

/-- A pass starts at START + k x P (R482). While YP0 is unlocked nothing starts; after the relock a CONTINUOUS
sequence resumes at its next pass start (R484). -/
def execAuxPassStart (t : Nat) (s : State) : Host.Outcome State Fault Refusal :=
  act t s fun s =>
    let x := s.aux
    if !x.run || x.inPass || !yp0Locked s || s.now < x.start || auxPassCt s = 0 then s
    else if (s.now - x.start) % auxPassCt s ≠ 0 || (!x.cont && s.now ≠ x.start) then s
    else { s with aux := { x with inPass := true, halted := false, slot := 0, passAt := s.now,
                                  pull := (x.entries.headD (0, 0, 0)).2.1 } }

/-- The state of an input's limits after a conversion, and whether AUX_LIMIT is due (R486). -/
def auxLimit (s : State) (n code : Nat) : State :=
  let x := s.auxIn n
  if !x.limen then s.setAuxIn n { x with last := code } else
  let out := decide (code < x.lo) || decide (x.hi < code)
  let y := { x with last := code, fresh := false, outside := out }
  if out = x.outside && !(x.fresh && out) then s.setAuxIn n y
  else if x.postAt = periodOf s.now + 1 then s.setAuxIn n y
  else post (s.setAuxIn n { y with postAt := periodOf s.now + 1, postedOut := out }) 0x0C02
    (pack [(4, n), (1, b2n out), (11, 0), (16, code)])

/-- CODE of a voltage and a reference in µV (R480): RANGE 1 has four times the full scale. -/
def auxCode (v : Int) (vref : Nat) (range : Bool) : Nat := min 65535 ((65536 * v / ((if range then 4 else 1) * vref : Nat)).toNat)

/-- The tick at which the conversion of the slot in progress ends (R482). -/
def slotEnd (x : Aux) : Tick := x.passAt + 1600 * seqLen (x.entries.take (x.slot + 1))

/-- A slot's conversion ends, of the voltage `v` at its input with the reference at `vref`, both in µV: AUX_DATA takes its code (R480, R484,
R485), the limits are checked (R486), and the pass goes on, ends, or the sequencer stops (R482, R484). -/
def execAuxConversion (t : Nat) (v : Int) (vref : Nat) (s : State) : Host.Outcome State Fault Refusal :=
  act t s fun s =>
    let x := s.aux
    if !x.inPass || s.now < slotEnd x then s else
    let e := x.entries.getD x.slot (0, 0, 0)
    let code := auxCode v vref (s.auxIn e.1).range
    let seq := (x.seq + 1) % 64
    let w := pack [(16, code), (4, e.1), (2, e.2.1), (1, b2n (code == 0 || code == 0xFFFF)),
      (1, b2n (!x.refok || [0x2400, 0x2401, 0x2402].any (fun f => tget false s.flt.held f))), (6, seq),
      (1, 1), (1, b2n (auxNew s))]
    let x1 := { x with prev := some (s.now, x.data, x.ovrCount, x.ovrPer), data := BitVec.ofNat 32 w, seq := seq, pull := 0,
                       ovrCount := if auxNew s then sat32 x.ovrCount else x.ovrCount,
                       ovrPer := if auxNew s then x.ovrPer.add s.now else x.ovrPer }
    let last := decide (x.slot + 1 ≥ x.entries.length)
    let x2 := if last then { x1 with inPass := false, slot := 0, passes := (x.passes + 1) % 2^32, passTime := stampOf x.passAt }
              else { x1 with slot := x.slot + 1, pull := (x.entries.getD (x.slot + 1) (0, 0, 0)).2.1 }
    let x3 :=
      if x.stopReq then
        match x.repl with
        | some (m, l, per, start) =>
          { x2 with inPass := false, slot := 0, pull := 0, stopReq := false, repl := none, cont := m, entries := l, period := per,
                    start := max start s.now, passes := 0, seq := 0 }
        | none => { x2 with inPass := false, slot := 0, pull := 0, stopReq := false, run := x.halted }
      else if last && !x.cont then { x2 with run := false } else x2
    auxLimit { s with aux := x3 } e.1 code

/-- The end of a 1 ms period: a limit state that changed in a period already posted is posted when it differs from the
state last posted (R486). -/
def execAuxLimitPeriodEnd (t : Nat) (s : State) : Host.Outcome State Fault Refusal :=
  act t s fun s =>
    (List.range 16).foldl (fun a n =>
      let x := a.auxIn n
      if x.limen && x.postAt = periodOf a.now && x.postAt ≠ 0 && x.outside ≠ x.postedOut && a.now % periodCt = 0 then
        post (a.setAuxIn n { x with postedOut := x.outside }) 0x0C02 (pack [(4, n), (1, b2n x.outside), (11, 0), (16, x.last)])
      else a) s

/-- The end of a 1 ms period in which OVRCOUNT rose (R499). -/
def execAuxOvr (t : Nat) (s : State) : Host.Outcome State Fault Refusal :=
  act t s fun s =>
    let n := s.aux.ovrPer.ended s.now
    if n = 0 then s else
    post { s with aux := { s.aux with ovrPer := s.aux.ovrPer.reported s.now } } 0x0C03 (pack [(32, min n 0xFFFFFFFF), (32, s.aux.ovrCount)])

/-- Table 14-1: the window of a reference in µV, and its settle time in ct. -/
def refWindow (source : Nat) : Nat × Nat × Nat := [(2497500, 2502500, periodCt), (1000000, 3300000, 320000), (3135000, 3465000, 160000)].getD source (0, 0, 0)

/-- The watch on the selected reference finds it at `v` µV (R481): REFOK falls when it leaves its window, and rises when it has stayed inside for
its settle time. After device reset the internal reference settles from the lock of YP0. -/
def execAuxRef (t v : Nat) (s : State) : Host.Outcome State Fault Refusal :=
  act t s fun s =>
    let w := refWindow s.aux.source
    if v < w.1 || w.2.1 < v then auxSetRefok { s with aux := { s.aux with refIn := none } } false
    else if !yp0Locked s then s
    else
      match s.aux.refIn with
      | none => { s with aux := { s.aux with refIn := some s.now } }
      | some a => if s.now < a + w.2.2 then s else auxSetRefok s true

/-! ## Control output events -/

/-- A deglitch hold ends and the output steps to the latest code (R489). -/
def execCtlStep (t n : Nat) (s : State) : Host.Outcome State Fault Refusal :=
  act t s fun s =>
    let x := s.ctlO n
    if !x.on || !x.hold || x.rphase ≠ 0 || s.now < x.holdEnd || !yp0Locked s then s else s.setCtlO n (x.step s.now)

/-- A 25 µs phase of a range change ends: the range switches, then the code follows as a major transition (R490). -/
def execCtlRangePhase (t n : Nat) (s : State) : Host.Outcome State Fault Refusal :=
  act t s fun s =>
    let x := s.ctlO n
    if !x.on || x.rphase = 0 || s.now < x.holdEnd || !yp0Locked s then s else s.setCtlO n (x.phase s.now)

/-- A timed CTL_WRITE reaches its tick: all masked codes take effect at one tick (R497), or, while YP0 is unlocked, at
the first tick after the relock (R492). -/
def execCtlTimedWrite (t : Nat) (s : State) : Host.Outcome State Fault Refusal :=
  act t s fun s => if yp0Locked s then ctlTimedDone (ctlTimedDue s) else s

/-- OVERLOAD or COMPLIANCE has persisted for 10 µs: the bit is set, CTL_FAULT is posted and the output's fault source
is raised (R487, R499). -/
def execCtlFault (t n : Nat) (ov : Bool) (s : State) : Host.Outcome State Fault Refusal :=
  act t s fun s =>
    let x := s.ctlO n
    if !x.on || x.range = ov || (if ov then x.overload else x.compl) then s else
    let y := if ov then { x with overload := true } else { x with compl := true }
    let s1 := (s.setCtlO n y).setActive (0x2500 + 3 * n) true
    raiseFault (post s1 0x0C04 (pack [(3, n), (1, b2n ov), (12, 0), (12, x.code)])) (0x2500 + 3 * n) {}

/-- The condition of OVERLOAD or COMPLIANCE has been absent for 10 µs: the bit clears (R487). -/
def execCtlFaultClear (t n : Nat) (ov : Bool) (s : State) : Host.Outcome State Fault Refusal :=
  act t s fun s =>
    let x := s.ctlO n
    let y := if ov then { x with overload := false } else { x with compl := false }
    (s.setCtlO n y).setActive (0x2500 + 3 * n) (y.overload || y.compl)

end Sys2Proof.Machine
end

