-- ==== Sys2Proof/Machine/FrontEnd.lean ====
section
/-! DEFINITION. The front-end commands of group 0x01 and the front-end events (02_sampling_front_end.md). -/

namespace Sys2Proof.Machine

/-- The calling session owns a target: a channel, or both channels of a pair (R55). -/
def ownsTarget (s : State) (n tgt : Nat) : Bool :=
  if tgt < 4 then owns s n 1 tgt else owns s n 1 (2 * (tgt - 4)) && owns s n 1 (2 * (tgt - 4) + 1)

/-- A stream is captured by an armed unit, or recorded (R56). -/
def strHeld (s : State) (id : Nat) : Bool := strArmed s id || strRecorded s id

/-- A host command changes the source, attenuator or mode of targets at the present tick (R42). -/
def pathChanged (s : State) (tgts : List Nat) : State :=
  { s with fe := { s.fe with changedAt := tgts.foldl (fun a t => tput 0 a t (s.now + 1)) s.fe.changedAt } }

/-! ## Commands -/

/-- A lane takes another stream (R69): frames of grains that are still to come of its earlier stream complete. -/
def laneSwitch (s : State) (c src : Nat) : State :=
  let x := s.lane c
  if !x.on || x.run.source == src then s else
  let old := if x.run.no = (s.epoch x.run.source).no then x.old ++ [x.run] else x.old
  let s1 := s.setLane c { x with old := old, run := { x.run with source := src, no := epochNo s src, origin := 0, nextS := 0, endS := none, lastS := none } }
  if laneTakes s c src then s1 else bindNow s1 (laneConsumer c) src

/-- A pair takes RATE and mode: with the mode its streams, their sources and the lanes they feed change (R45, R69). -/
def setRate (s : State) (p : Nat) (pair : Bool) (rate : Nat) : State :=
  let changed := pair != s.pairMode p
  let s1 := { s with fe := { s.fe with rate := tput 0 s.fe.rate p (100 - rate), pairMode := tput false s.fe.pairMode p pair } }
  if !changed then s1 else
  let s2 := if pair then setSource s1 (4 + p) 6 else setSource (setSource s1 (2 * p) 6) (2 * p + 1) 6
  laneSwitch (laneSwitch s2 (2 * p) (if pair then 4 + p else 2 * p)) (2 * p + 1) (if pair then 0xFF else 2 * p + 1)

/-- The relock or step of FE_SET_MODE (R45, R58, R242). -/
def setMode (s : State) (p : Nat) (pair : Bool) (rate : Nat) : State :=
  let changed := pair != s.pairMode p
  let old := pairStreams s p
  let ran := old.filter (fun id => (s.str id).running)
  let n0 := pairN s p
  let step := !changed && (n0 + 1 = 100 + rate || 100 + rate + 1 = n0) && (tget {} (s.pll p).hop (100 + rate)).valid &&
    (tget {} (s.pll p).hop (100 + rate)).band == (tget {} (s.pll p).hop n0).band
  let s1 := old.foldl (fun a id => strHalt a id (strDone a id)) (pathChanged s [2 * p, 2 * p + 1, 4 + p])
  let s3 := setRate s1 p pair rate
  let go := if changed then (if ran.isEmpty then [] else pairStreams s3 p) else ran
  let s4 := go.foldl (fun a id => a.modStr id (fun x => { x with resume := true, reason := 2 })) s3
  let s5 := pllWindow (s4.modPll p (fun x => { x with n := 100 + rate })) p (0x0204 + p)
  if step then s5.modPll p (fun x => { x with st := 5, attempt := 1, target := 100 + rate, step := true, search := false, byLoss := false })
  else pllRelock s5 p (100 + rate) false false

/-- FE_SET_MODE (R58). -/
def execFeSetMode (c : Cmd) (p : Block) (s : State) : Host.Outcome State Fault Refusal :=
  zci 0x0101 1 (fun _ => [(0, 2), (2, 1), (8, 8)]) c p s fun b s =>
    let k := fld b 0 2
    let pair := bit b 2
    let rate := fld b 8 8
    let same := pair == s.pairMode k && rate == s.rate k
    chk [(k < 2 && !ownsTarget s c.session.val (4 + k), stBusy), (decide (2 ≤ k), stInvalid),
         (!same && (pairStreams s k ++ [2 * k, 2 * k + 1, 4 + k]).any (calOwned s), stBusy),
         (!same && (pairStreams s k).any (strHeld s), stState), (pllBusy s k, stBusy), (pllDead s k, stState),
         (decide (100 < rate), stRange), (!same && overAdmission s (setRate s k pair rate), stNoRes)]
      (if same then .ok s 4 (modeResult s k)
       else .later (setMode s k pair rate) k [b2n (pair && pair != s.pairMode k)])

/-- A source that Table 2-2 allows for a target (R41). -/
def sourceOk (s : State) (tgt src : Nat) : Bool :=
  decide (src ≤ 6) && (decide (4 ≤ src) ||
    ((tgt < 4 || src == 2 * (tgt - 4)) && (match inputStream s src with | some id => id == tgt | none => true)))

/-- FE_SET_SOURCE's result (R59). -/
def sourceResult (s : State) (t : Nat) : Nat :=
  let run := (s.str t).running
  pack [(8, t), (1, b2n run), (7, 0), (80, if run then grainTime s t (s.epoch t).ep0 else 0), (32, 0)]

/-- The change of FE_SET_SOURCE (R59): on a running stream from the next grain boundary, with a settle window of 5 µs. On a stopped stream no
window opens: a window opens at a grain boundary, and there is none (DESIGN CHOICE, log 49). -/
def changeSource (s : State) (t src : Nat) : State :=
  let s1 := pathChanged s [t]
  if !(s1.str t).running then setSource s1 t src
  else openSettle (strNewEpoch s1 t (nextGrain s1 t) (fun a => setSource a t src)) t 0 8000

/-- FE_SET_SOURCE (R59). -/
def execFeSetSource (c : Cmd) (p : Block) (s : State) : Host.Outcome State Fault Refusal :=
  zci 0x0102 1 (fun _ => [(0, 3), (8, 4)]) c p s fun b s =>
    let t := fld b 0 3
    let src := fld b 8 4
    let same := s.source t == src
    chk [(t < 6 && !ownsTarget s c.session.val t, stBusy), (decide (6 ≤ t) || !sourceOk s t src, stInvalid),
         (!strExists s t, stState), (!same && calOwned s t, stBusy), (!same && strHeld s t, stState), (pllBusy s (pairOf t), stBusy)]
      (let s1 := if same then s else changeSource s t src
       .ok s1 2 (sourceResult s1 t))

/-- The stream an input is routed to, 0xFF where none is. -/
def routedTo (s : State) (i : Nat) : Nat := (inputStream s i).getD 0xFF

/-- The change of FE_SET_ATTEN (R60): a running stream takes it at the next grain boundary, with a settle window of 1 µs where the code differs.
A stopped stream has no grain boundary, and no window opens (DESIGN CHOICE, log 49). -/
def changeAtten (s : State) (i id a : Nat) (clear : Bool) : State :=
  let x := s.inp i
  let g := nextGrain s id
  let s1 := (keepFront (pathChanged s [id]) id g).setInp i { x with atten := a, tripped := x.tripped && !clear }
  if (s.str id).running && a != x.atten then openSettle s1 id g 1600 else s1

/-- FE_SET_ATTEN (R60). -/
def execFeSetAtten (c : Cmd) (p : Block) (s : State) : Host.Outcome State Fault Refusal :=
  zci 0x0103 1 (fun _ => [(0, 2), (8, 4), (12, 1)]) c p s fun b s =>
    let i := fld b 0 2
    let a := fld b 8 4
    let clear := bit b 12
    let x := s.inp i
    let id := routedTo s i
    let same := a == x.atten && !(x.tripped && clear)
    chk [(id != 0xFF && !ownsTarget s c.session.val id, stBusy), (x.tripped && !clear, stState), (!same && id != 0xFF && calOwned s id, stBusy),
         (decide (10 < a), stRange)]
      (.ok (if same then s else changeAtten s i id a clear) 1 (pack [(48, if id != 0xFF && (s.str id).running then nextGrain s id else noIndex), (8, id)]))

/-- FE_STREAM acts (R61): every selected stream starts or stops with the first grain at or after a tick. -/
def feStreamGo (s : State) (sel : Nat) (start : Bool) (at_ : Tick) : State :=
  (maskBits 6 sel).foldl (fun a id =>
    if !strExists a id then a
    else if start then (if (a.str id).running then a else strStart a id at_)
    else strHalt a id (grainFrom a id (stampOf at_))) s

/-- FE_STREAM (R61). -/
def execFeStream (c : Cmd) (p : Block) (s : State) : Host.Outcome State Fault Refusal :=
  zci 0x0104 2 (fun _ => [(0, 6), (8, 1), (64, 64)]) c p s fun b s =>
    let sel := maskBits 6 (fld b 0 6)
    let at_ := fld b 64 64
    let start := bit b 8
    chk [(sel.any (fun t => !ownsTarget s c.session.val t), stBusy), (sel.isEmpty, stInvalid), (sel.any (fun t => !strExists s t), stState),
         (!start && sel.any (strHeld s), stState), (sel.any (fun t => pllBusy s (pairOf t)), stBusy),
         (start && sel.any (fun t => pllDead s (pairOf t)), stState), (tickBad s at_, stRange)]
      (if at_ = 0 then .ok (feStreamGo s (fld b 0 6) start s.now) 0 0 else .later s (fld b 0 6) [at_, b2n start])

/-- START_CT of pending FE_STREAM commands arrives (R61). -/
def execFeStreamAtCt (t : Nat) (s : State) : Host.Outcome State Fault Refusal :=
  act t s fun s =>
    (s.host.inProg.filter (fun q => q.opcode == 0x0104 && decide (q.data.headD 0 ≤ s.now))).foldl (fun a q =>
      let start := q.data.getD 1 0 == 1
      if start && (maskBits 6 q.unit_).any (fun id => !(a.str id).running && !spLocked a (pairOf id)) then finish a q stState 0 0
      else finish (feStreamGo a q.unit_ start (q.data.headD 0)) q 0 0 0) s

/-- FE_GET_STATUS (R62, Table 2-12). For a target without a stream INDEX, EPOCH and the counts read 0, and CLEAR clears nothing: the spec names
only STREAM and the routing (DESIGN CHOICE, log 49). -/
def execFeGetStatus (c : Cmd) (p : Block) (s : State) : Host.Outcome State Fault Refusal :=
  zci 0x0105 1 (fun _ => [(0, 3), (8, 1)]) c p s fun b s =>
    let t := fld b 0 3
    let src := s.source t
    let rf := src < 4
    let i := s.inp src
    let ex := strExists s t
    let x : Stream := if ex then s.str t else {}
    chk [(decide (6 ≤ t), stInvalid)]
      (.ok (if bit b 8 && ex then s.modStr t (fun y => { y with ovl := 0, set_ := 0, sus := 0 }) else s) 4
        (pack [(4, src), (4, if rf then i.atten else 15), (1, b2n (s.pairMode (pairOf t))), (1, b2n x.running), (1, b2n (rf && i.tripped)),
          (1, b2n (rf && i.protect)), (1, b2n (calOwned s t)), (3, 0), (8, s.rate (pairOf t)), (8, if ex then t else 0xFF), (48, x.latest),
          (80, if x.cur.ep.no = 0 then 0 else x.cur.ep.time (256 * x.cur.ep.ep0)), (32, x.ovl), (32, x.set_), (32, x.sus)]))

/-- FE_SET_PROTECT (R63). -/
def execFeSetProtect (c : Cmd) (p : Block) (s : State) : Host.Outcome State Fault Refusal :=
  zci 0x0106 1 (fun _ => [(0, 2), (8, 1)]) c p s fun b s =>
    let i := fld b 0 2
    chk [(routedTo s i != 0xFF && !ownsTarget s c.session.val (routedTo s i), stBusy)]
      (.ok (s.modInp i (fun x => { x with protect := bit b 8 })) 0 0)

/-! ## Events -/

/-- A protection detector trips (R39, R40): the grain that contains the tick and those after it carry OVERLOAD, and the attenuator goes to 20 dB at
the next grain boundary. The event names that boundary also where no attenuation is forced (DESIGN CHOICE, log 49). -/
def execProtectTrip (t i : Nat) (s : State) : Host.Outcome State Fault Refusal :=
  act t s fun s =>
    let x := s.inp i
    if x.tripped || 4 ≤ i then s else
    let id := routedTo s i
    let run := id != 0xFF && (s.str id).running
    let g := nextGrain s id
    let force := x.protect && x.atten != 10
    let s1 := ((List.range 6).foldl (fun a k => tripStream a k i) s).setInp i { x with tripped := true }
    let s2 := if force then (keepFront s1 id g).setInp i { x with tripped := true, atten := 10 } else s1
    let s3 := if run && force then openSettle s2 id g 1600 else s2
    post (if id < 6 then calAbort s3 id 9 else s3) 0x0102 (pack [(2, i), (6, 0), (48, if run then g % 2^48 else noIndex), (8, id)])

/-! ## Correction (R47, R294) -/

/-- Samples after the last of a grain that its correction takes: the skew filter of a pair reaches 16 samples of the odd converter ahead. -/
def rawLead (id : Nat) : Nat := if id < 4 then 0 else 32

/-- The raw code of a sample of an epoch. -/
def Tagging.rawAt (c : Tagging) (id : Nat) (j : Int) : Nat :=
  if (c.rawFrom : Int) ≤ j && decide (j < c.rawFrom + c.raw.length) then c.raw.getD (j - c.rawFrom).toNat 0
  else (Config.lostSample id c.ep.no j).toNat

/-- Raw codes that have come are taken up, as far as the grains up to `n` need them; a code that has not come is not known. -/
def Tagging.receive (c : Tagging) (id n : Nat) (codes : List Nat) : Tagging :=
  let have_ := c.rawFrom + c.raw.length
  let need := 256 * (n + 1) + rawLead id - have_
  { c with raw := c.raw ++ (codes.take need).map (· % 4096) ++
      (List.range (need - codes.length)).map (fun i => (Config.lostSample id c.ep.no ((have_ + codes.length + i : Nat) : Int)).toNat) }

/-- (x - OFFSET / 16) x CGAIN x IGAIN / 2^32 of converter c for a raw code, unrounded (R294): the comb and the termination
take a gain of 1 in place of IGAIN, CAL_IN its only index 0. -/
def corrected (s : State) (f : FrontSet) (id c v : Nat) : ℚ :=
  let ig := if f.source < 5 then calIn s f.values 3 ((if id < 4 then 0 else 256) + 16 * f.source + (if f.source < 4 then f.atten else 0)) else 65536
  ((sfld v 0 12 : ℚ) - (calIn s f.values 1 c : ℚ) / 16) * calIn s f.values 2 c * ig / 2^32

/-- The same for sample j of an epoch, under the settings of the grain that holds it. -/
def correctedAt (s : State) (id : Nat) (c : Tagging) (j : Int) : ℚ :=
  corrected s (c.settings s id (j.toNat / 256)) id (if id < 4 then id else 2 * (id - 4) + (j % 2).toNat) (c.rawAt id j)

/-- The one rounding, convergent, and the saturation to 12 bits (R47, R294). -/
def sat12 (x : ℚ) : Int := clampI (-2048) 2047 (roundEven x.num x.den)

/-- A corrected sample (R294): of a pair, the odd converter's samples pass through the skew filter and the interleave gain. -/
def correctSample (s : State) (id : Nat) (c : Tagging) (j : Nat) : Int :=
  if id < 4 || j % 2 = 0 then sat12 (correctedAt s id c j)
  else
    let v := (c.settings s id (j / 256)).values
    let y := ((List.range 32).map (fun i => Config.skewTap (calIn s v 7 (id - 4)) i * correctedAt s id c ((j : Int) + 32 - 2 * i))).foldl (· + ·) 0
    sat12 (y * calIn s v 6 (id - 4) / 65536)

/-- The 256 samples of a grain, as codes of 12 bits. -/
def correctGrain (s : State) (id : Nat) (c : Tagging) (n : Nat) : List Nat :=
  (List.range 256).map (fun i => enc 12 (correctSample s id c (256 * n + i)))

/-! ## Tagging (R49, R52 to R54) -/

/-- The tag flags of grain n of an epoch from what its island sees (Table 2-3, Table 2-5). -/
def tagFlags (s : State) (id : Nat) (c : Tagging) (n : Nat) : Nat :=
  let f := c.settings s id n
  let clip := (List.range 256).any (fun i => let v := c.rawAt id ((256 * n + i : Nat) : Int); v == 0x800 || v == 0x7FF)
  let a := c.ep.exact (256 * n)
  pack [(1, b2n (clip || f.tripped)),
    (1, b2n ((s.str id).settle.any (fun w => decide (w.1 ≤ a ∧ a < w.2)))),
    (1, b2n (c.unlockFrom.any (fun u => decide (u ≤ n)))),
    (1, b2n (c.calFrom.any (fun u => decide (u ≤ n)) || c.cal.any (fun w => decide (w.1 ≤ n ∧ n < w.2)))), (1, 0),
    (1, b2n (c.susAt.contains n || suspectHeld s id f.source))]

/-- The epoch whose next grain is to be tagged: the oldest that has one. -/
def tagHead (x : Stream) : Option Tagging :=
  match x.old with
  | c :: _ => some c
  | [] => if x.running then some x.cur else none

/-- Put it back. -/
def Stream.setHead (x : Stream) (c : Tagging) : Stream :=
  match x.old with
  | _ :: l => { x with old := c :: l }
  | [] => { x with cur := c }

/-- Grain n of an epoch has been tagged: what no grain after it needs is let go. -/
def Tagging.past (c : Tagging) (id n : Nat) : Tagging :=
  let from_ := 256 * (n + 1) - rawLead id
  { c with next := n + 1, raw := c.raw.drop (from_ - c.rawFrom), rawFrom := max c.rawFrom from_, susAt := c.susAt.filter (fun k => decide (n < k)),
           front := c.front.filter (fun e => decide (n < e.1)), cal := c.cal.filter (fun w => decide (n + 1 < w.2)) }

/-- A grain of a measurement that carries a flag which aborts the step (R300, R301). -/
def calGrainAbort (s : State) (id n fl : Nat) : State :=
  match s.calStep id with
  | some c => if c.first ≤ n && (bit fl 0 || bit fl 2 || bit fl 4 || bit fl 5 || (c.blind && (bit fl 1 || bit fl 3))) then calAbort s id 8 else s
  | none => s

/-- Grains that a blind step measures (Table 9-3): 2^28 samples of each converter, or 2^30 samples. -/
def blindGrains (step id : Nat) : Nat := if step ≠ 0 then 2^22 else if id < 4 then 2^20 else 2^21

/-- Sum of the raw samples of grain n from converter k of a stream. -/
def rawSum (c : Tagging) (id n k : Nat) : Int :=
  ((List.range 256).filter (fun i => id < 4 || i % 2 == k)).foldl (fun a i => a + sfld (c.rawAt id ((256 * n + i : Nat) : Int)) 0 12) 0

/-- A blind step measures one grain more. -/
def CalStep.take (x : CalStep) (c : Tagging) (id n : Nat) : CalStep :=
  let all := blindGrains x.step id
  if all ≤ x.grains then x
  else if x.step ≠ 0 then { x with grains := x.grains + 1 }
  else
    let v := (List.range (if id < 4 then 1 else 2)).map (rawSum c id n)
    let add := fun (l : List Int) => v.zipIdx.map (fun e => l.getD e.2 0 + e.1)
    { x with grains := x.grains + 1, sums := add x.sums, half := if 2 * x.grains < all then add x.half else x.half }

/-- The attenuator of an ATTEN step takes its next code at the next grain boundary, with a settle window of 1 µs (R301). -/
def attenCode (s : State) (id : Nat) (x : CalStep) (a : Nat) (l : List Nat) : State :=
  let g := nextGrain s id
  let s1 := (keepFront s id g).modInp x.input (fun i => { i with atten := a })
  openSettle (s1.setCalStep id (some { x with codes := l, first := g })) id g 1600

/-- An ATTEN step has waited out the settle window and measures at its code; after as many grains as it takes, which the spec leaves open
(log 54), it goes on to the next. -/
def attenGrain (s : State) (id : Nat) (x : CalStep) (fl : Nat) : State :=
  if x.done || bit fl 1 then s else
  let r := drawFree 1 s
  if r.1 = 0 then r.2 else
  match x.codes with
  | [] => r.2.setCalStep id (some { x with done := true })
  | a :: l => attenCode r.2 id x a l

/-- A calibration step measures a grain of its target (Table 9-3). -/
def calMeasure (s : State) (id n fl : Nat) (c : Tagging) : State :=
  match s.calStep id with
  | some x =>
    if x.abort ≠ 0 || n < x.first then s
    else if x.blind then s.setCalStep id (some (x.take c id n))
    else if x.step = 4 then attenGrain s id x fl else s
  | none => s

/-- Overload episodes take a grain (R64). -/
def episode (s : State) (id n fl : Nat) : State :=
  if !bit fl 0 then s.modStr id (fun z => { z with epQuiet := z.epQuiet + 1 })
  else
    let s1 := if (s.str id).epOpen && 65536 ≤ (s.str id).epQuiet then endEpisode s id else s
    let open_ := (s1.str id).epOpen
    let s2 := s1.modStr id (fun z => { z with epOpen := true, epLast := n % 2^48, epQuiet := 0 })
    if open_ then s2 else post s2 0x0103 (pack [(8, id), (48, n % 2^48)])

/-- Down-converters of a stream whose new configuration takes effect at the end of this grain: the units that use them abort (R144). -/
def ddcsAbort (s : State) (id n : Nat) : State :=
  (List.range 16).foldl (fun a d =>
    match (a.ddc d).abortAt with
    | some k => if (a.ddc d).src = id && k ≤ n + 1 then abortStream (a.modDdc d (fun x => { x with abortAt := none })) (16 + d) 2 else a
    | none => a) s

/-- A grain is tagged in its ADC island (R49, R52 to R54, R64). `codes` are the raw codes that have come since the grain before it; the grain
is tagged once the last of its samples, and of those its correction takes, has been converted. -/
def execGrainTag (t id : Nat) (codes : List Nat) (s : State) : Host.Outcome State Fault Refusal :=
  act t s fun s =>
    match tagHead (s.str id) with
    | none => s
    | some h =>
      let n := h.next
      if 6 ≤ id || decide (stampOf s.now < h.ep.time (256 * (n + 1) + rawLead id)) then s else
      let c := h.receive id n codes
      let fl := tagFlags s id c n
      let f := c.settings s id n
      let g : Grain := { ep := c.ep, n := n, flags := fl, codes := correctGrain s id c n, source := f.source, values := f.values }
      let old := !(s.str id).old.isEmpty
      let y := (s.str id).setHead (c.past id n)
      let s1 := s.setStr id { y with
        latest := n % 2^48, grains := y.grains ++ [g], settle := y.settle.filter (fun w => decide (c.ep.exact (256 * (n + 1)) < w.2)),
        ovl := if bit fl 0 then sat32 y.ovl else y.ovl, set_ := if bit fl 1 then sat32 y.set_ else y.set_, sus := if bit fl 5 then sat32 y.sus else y.sus }
      let s2 := episode (perfAdd (if old then s1 else ddcsAbort (calMeasure (calGrainAbort s1 id n fl) id n fl c) id n) 1 id 1) id n fl
      letGo (closeHeads (s2.str id).old.length s2 id) id

/-- 65,536 grains without OVERLOAD end an episode (R64). -/
def execOverloadEnd (t id : Nat) (s : State) : Host.Outcome State Fault Refusal :=
  act t s fun s => if (s.str id).epOpen && 65536 ≤ (s.str id).epQuiet then endEpisode s id else s

/-- A grain index would pass 2^48 - 1 (R23): the epoch's next grain carries index 0. -/
def execEpochRollover (t id : Nat) (s : State) : Host.Outcome State Fault Refusal :=
  act t s fun s =>
    let next := if id < 6 then (s.str id).cur.next else (s.ddc (id - 16)).next
    let g := next / 2^48 * 2^48
    let e := s.epoch id
    if !streamId id || !epochBegun s id || g ≤ e.ep0 then s
    else recBegin (post (s.setEpoch id { e with ep0 := g, reason := 0 }) 0x0101 (pack [(8, id), (8, 0), (80, e.time (256 * g))])) id

end Sys2Proof.Machine
end

