-- ==== Sys2Proof/Machine/Clock.lean ====
section
/-! DEFINITION. The clock commands of group 0x02, losses and recoveries of the clocking, and PPS discipline
(07_clocks_and_canopy_timebase.md). -/

namespace Sys2Proof.Machine

/-- The calling session owns CH0-CH3 (R256). -/
def ownsAllCh (s : State) (n : Nat) : Bool := (List.range 4).all (fun c => owns s n 1 c)

/-- The calling session owns what a PLL's commands require (R256). -/
def ownsPll (s : State) (n k : Nat) : Bool := if k < 2 then ownsTarget s n (4 + k) else ownsAllCh s n

/-- A stream 0x00-0x05 runs. -/
def anyStream (s : State) : Bool := (List.range 6).any (fun id => (s.str id).running)

/-! ## Commands -/

/-- The first rising edge of REF_OUT at or after a stamp (R237): a multiple of 16 or 160 ct, later by the delay; none while it is held low or disabled. -/
def refOutEdge (k : Clk) (T : Stamp) : Option Stamp :=
  if !k.refOutEn then none else
  let P := (if k.refOutFreq then 16 else 160) * 65536
  some (ceilDiv (max T (stampOf k.refOutHold) - k.refOutDelay * 64) P * P + k.refOutDelay * 64)

/-- REF_OUT is driven low: it is disabled, or held low after a change (R237). -/
def refOutLow (k : Clk) (T : Stamp) : Bool := !k.refOutEn || decide (T < stampOf k.refOutHold)

/-- CLK_SET_REF (R235, R237, R257): a change of REF_OUT's frequency or delay while it is enabled holds it low for 1 µs. -/
def execClkSetRef (c : Cmd) (p : Block) (s : State) : Host.Outcome State Fault Refusal :=
  zci 0x0201 1 (fun _ => [(0, 2), (2, 1), (3, 1), (8, 10)]) c p s fun b s =>
    let src := fld b 0 2
    let k := s.clk
    chk [(!ownsAllCh s c.session.val, stBusy), (src == 3, stInvalid), (src != k.source && anyStream s, stState), (src != 0 && k.ppsMode == 2, stState)]
      (let k1 := { k with
         refOutEn := bit b 2, refOutFreq := bit b 3, refOutDelay := fld b 8 10,
         refOutHold := if k.refOutEn && bit b 2 && (k.refOutFreq != bit b 3 || k.refOutDelay != fld b 8 10) then s.now + 1600 else k.refOutHold }
       .ok { s with clk := if src = k.source then k1 else { k1 with source := src, reflock := src == 0, holdover := false, refSince := none } }
         2 (timeRead s))

/-- Relock of a sample PLL by command (R258): its streams stop and resume at the sync edge. -/
def cmdRelock (s : State) (k n : Nat) (search : Bool) : State :=
  if 2 ≤ k then pllRelock s k n search false else
  let ran := (pairStreams s k).filter (fun id => (s.str id).running)
  let s1 := ran.foldl (fun a id => (strHalt a id (strDone a id)).modStr id (fun x => { x with resume := true, reason := 3 })) s
  pllRelock (pllWindow s1 k (0x0204 + k)) k n search false

/-- N of a PLL's relock. -/
def pllTarget (s : State) (k : Nat) : Nat := if k < 2 then pairN s k else if k = 2 then 64 else 96

/-- CLK_SET_PLL (R258). -/
def execClkSetPll (c : Cmd) (p : Block) (s : State) : Host.Outcome State Fault Refusal :=
  zci 0x0202 1 (fun _ => [(0, 2), (2, 1), (3, 1), (4, 1), (8, 10)]) c p s fun b s =>
    let k := fld b 0 2
    let go := bit b 2
    chk [(!ownsPll s c.session.val k, stBusy), (go && k < 2 && (pairStreams s k).any (strHeld s), stState),
         (go && decide (2 ≤ k) && !pllDead s k, stState), (go && k < 2 && pllBusy s k, stBusy)]
      (let s1 := s.modPll k (fun x => { x with autoRel := bit b 4, newDelay := if go && k < 2 then fld b 8 10 else x.newDelay })
       if go then .later (cmdRelock s1 k (pllTarget s k) (bit b 3)) k [] else .ok s1 2 0)

/-- CLK_BUILD_HOPS (R259): the searches run with the outputs gated, then the PLL relocks at its present N. -/
def execClkBuildHops (c : Cmd) (p : Block) (s : State) : Host.Outcome State Fault Refusal :=
  zci 0x0203 1 (fun _ => [(0, 1)]) c p s fun b s =>
    let k := fld b 0 1
    chk [(!ownsPll s c.session.val k, stBusy), ((pairStreams s k).any (fun id => (s.str id).running), stState), (pllBusy s k, stBusy)]
      (.later ((cmdRelock s k (pairN s k) false).modPll k (fun x => { x with building := true, built := 0, st := 1 })) k [])

/-- CLK_SET_PPS (R260). -/
def execClkSetPps (c : Cmd) (p : Block) (s : State) : Host.Outcome State Fault Refusal :=
  zci 0x0204 1 (fun _ => [(0, 2), (2, 1), (3, 1)]) c p s fun b s =>
    let m := fld b 0 2
    let k := s.clk
    let k1 := if m = 0 || k.ppsMode = 0 then { k with ppsFree := true, ppsLast := none } else k
    chk [(!owns s c.session.val 9 8, stBusy), (m == 3, stInvalid), (m == 2 && k.source != 0, stState)]
      (.ok { s with clk := { k1 with ppsMode := m, ppsEdge := bit b 2, ppsPost := bit b 3 } } 0 0)

/-- The latest PPS window was missed. -/
def ppsMissed (s : State) : Bool := s.clk.ppsFree && s.clk.ppsLast.isSome

/-- CLK_SET_TIME (R261): it waits for the next accepted PPS edge. -/
def execClkSetTime (c : Cmd) (p : Block) (s : State) : Host.Outcome State Fault Refusal :=
  zci 0x0205 2 (fun _ => [(0, 64)]) c p s fun b s =>
    let sec := fld b 0 64
    chk [(!owns s c.session.val 9 8, stBusy), (sec == 0, stInvalid), (s.clk.ppsMode == 0 || ppsMissed s, stState), (anyStream s, stState),
         ((List.range 8).any (fun a => (s.au a).runs), stState), (s.move.entry != 0xFFFF, stState), (decide (11529215045 < sec), stRange)]
      (.later s 0 [sec])

/-- States that a PLL can read during an attempt (Table 7-9), by the limits of Table 7-2: when a search ends, and when the loop locks, is not stated. -/
def pllStates (x : Pll) (now : Tick) : List Nat :=
  let d := now - x.began
  if x.attempt = 0 || x.st = 5 then [x.st]
  else if d = 0 then [if x.fromHop then 2 else 1]
  else if x.fromHop then
    (if 19200 ≤ d && d ≤ 57600 then [1] else []) ++ (if d ≤ 73600 then [2] else []) ++ [3]
  else (if d ≤ 38400 || x.building then [1] else []) ++ (if d ≤ 54400 || x.building then [2] else []) ++ [3]

/-- The state of a PLL as it reads: of those that the limits allow, a free one (log 2). -/
def pllRead (s : State) (k : Nat) : Nat × State :=
  let l := pllStates (s.pll k) s.now
  if l.length ≤ 1 then (l.headD 0, s) else
  let d := drawFree 8 s
  (l.getD (d.1 % l.length) 0, d.2)

/-- CLK_GET_STATUS (R262, Table 7-9). -/
def execClkGetStatus (c : Cmd) (p : Block) (s : State) : Host.Outcome State Fault Refusal :=
  zci 0x0206 1 (fun _ => [(8, 1)]) c p s fun b s =>
    let k := s.clk
    let r0 := pllRead s 0
    let r1 := pllRead r0.2 1
    let r2 := pllRead r1.2 2
    let r3 := pllRead r2.2 3
    let s1 := r3.2
    .ok (if bit b 8 then { s1 with clk := { k with lossCount := 0 } } else s1) 4
      (pack [(2, k.source), (1, b2n k.reflock), (1, b2n k.holdover), (1, b2n k.nodeOk), (1, b2n k.coarse), (1, b2n k.timeValid), (1, 0),
        (2, k.ppsMode), (1, b2n k.ppsOk), (5, 0), (4, r0.1), (4, r1.1), (4, r2.1), (4, r3.1),
        (8, pairN s 0), (8, pairN s 1), (10, (s.pll 0).delay), (10, (s.pll 1).delay), (12, 0), (64, countRead s), (48, enc 48 k.residual),
        (32, enc 32 k.steering), (32, k.lossCount)])

/-! ## Losses and recoveries of a PLL -/

/-- LOSSCOUNT counts a reference or lock loss. -/
def countLoss (s : State) : State := { s with clk := { s.clk with lossCount := sat32 s.clk.lossCount } }

/-- What the loss of a PLL stops at once (Table 7-5): acquisitions on its streams abort, and the streams that were running resume when the PLL is
locked again. -/
def pllLost (s : State) (k : Nat) : State :=
  if k < 2 then
    (pairStreams s k).foldl (fun a id =>
      if (a.str id).running then
        (strHalt (abortEpoch (markUnlocked a id) id 0) id (grainAt a id a.now + 1)).modStr id (fun x => { x with resume := true, reason := 3 })
      else a) s
  else if k = 2 then auxHalt (markAllUnlocked (setCoarse s true))
  else { s with mem := { s.mem with selfRef := true } }

/-- An attempt of a relock fails (R558): the next one starts, or the PLL is FAILED. -/
def attemptFail (s : State) (k : Nat) : State :=
  let x := s.pll k
  if x.attempt < 3 then pllAttempt s k (x.attempt + 1) else pllFailed s k

/-- A detector declares the loss of a PLL's lock (R254, R255): of a locked PLL, of one that steps, which continues as a relock, or of one that
settles, whose attempt fails (R558). -/
def lockLoss (s : State) (k : Nat) (freq : Bool) (i : FaultInfo) : State :=
  let x := s.pll k
  if x.st ≠ 4 && x.attempt = 0 then s else
  let id := (if freq then 0x0208 else 0x0204) + k
  let s1 := pllWindow (raiseFault s id i) k id
  let s2 := countLoss (post s1 0x0201 (pack [(2, k), (1, b2n freq), (13, 0), (16, if freq then 32000 else 160)]))
  if x.st = 5 then pllAttempt s2 k 1
  else if x.attempt ≠ 0 then attemptFail s2 k
  else
    let s3 := (pllLost s2 k).modPll k (fun y => { y with st := 6 })
    if x.autoRel then pllRelock s3 k (pllTarget s k) false true else s3

/-- PLL_LOCK_LOSS: the phase detector or the frequency check of PLL k declares a loss. -/
def execPllLockLoss (t k : Nat) (freq : Bool) (s : State) : Host.Outcome State Fault Refusal :=
  act t s fun s => lockLoss s k freq {}

/-- A relock or step reaches its sync edge (R241, R244, Table 7-5). `found` is what band searches found: of a build, the
101 searches first. -/
def execPllSyncEdge (t k : Nat) (found : List Nat) (s : State) : Host.Outcome State Fault Refusal :=
  act t s fun s =>
    let x := s.pll k
    if x.attempt = 0 then s else
    let s1 := if x.building then hopBuild s k found else s
    let rest := if x.building then found.drop 101 else found
    let s2 := if rest.isEmpty then s1 else hopWrite s1 k x.target (rest.take 1)
    let hop := (if x.building then hopUsable s1 k x.target else x.fromHop || x.step) && rest.isEmpty
    let edge := (s.now + 15) / 16 * 16
    let s3 := s2.modPll k (fun y => { y with
      st := 4, attempt := 0, n := x.target, syncEdge := edge, delay := if k < 2 && !x.step then x.newDelay else x.delay, step := false,
      building := false, byLoss := false, search := false })
    let s4 := post s3 0x0202 (pack [(2, k), (1, b2n hop), (1, b2n x.step), (4, 0), (8, x.target), (80, stampOf edge)])
    let cmds := pllCommands s4 k
    let s5 :=
      if k < 2 then
        (pairStreams s4 k).foldl (fun a id =>
          if (a.str id).resume then
            let b := strBegin a id 0 (a.str id).reason
            if id ≥ 4 && cmds.any (fun q => q.opcode == 0x0101 && q.data.headD 0 == 1) then openSettle b id 0 8000 else b
          else a) s4
      else if k = 2 then ctlRelock (setCoarse s4 false)
      else { s4 with mem := { s4.mem with selfRef := false } }
    let s6 := cmds.foldl (fun a q => pllFinish a k q true hop) (pllWindowEnd s5 k)
    nodeStep s6 k

/-- RELOCK_ATTEMPT_FAIL (R558). Of a build, `found` is what its searches found. -/
def execRelockAttemptFail (t k : Nat) (found : List Nat) (s : State) : Host.Outcome State Fault Refusal :=
  act t s fun s =>
    let x := s.pll k
    if x.attempt = 0 then s else
    attemptFail (if x.building && !found.isEmpty then (hopBuild s k found).modPll k (fun y => { y with building := false }) else s) k

/-! ## The reference and the node -/

/-- The engine follows REF_IN, or waits for it to come back. -/
def refWatched (s : State) : Bool := s.clk.source != 0 && !(s.clk.holdover && s.clk.refSince.isNone)

/-- The REF_IN monitors declare loss (Table 7-5): the loop holds over. `ppm` is the measured offset in 0.001 ppm. -/
def refInLoss (s : State) (freq : Bool) (ppm : Int) (i : FaultInfo) : State :=
  if !refWatched s then s else
  let s1 := raiseFault s (if freq then 0x0202 else 0x0201) i
  let s2 := post s1 0x0204 (pack [(2, b2n freq), (30, 0), (32, if freq then enc 32 ppm else 0)])
  countLoss (markAllUnlocked { s2 with clk := { s2.clk with reflock := false, holdover := true, refSince := none } })

/-- REF_IN_LOSS: no edges, or a frequency out of its window. -/
def execRefInLoss (t : Nat) (freq : Bool) (ppm : Int) (s : State) : Host.Outcome State Fault Refusal :=
  act t s fun s => refInLoss s freq ppm {}

/-- REF_IN is valid again (Table 7-5). -/
def execRefInReturn (t : Nat) (s : State) : Host.Outcome State Fault Refusal :=
  act t s fun s => if s.clk.holdover && s.clk.refSince.isNone then { s with clk := { s.clk with refSince := some s.now } } else s

/-- The reference loop locks to REF_IN (R235, Table 7-5): after a loss, once REF_IN has been valid for 1 s. -/
def execRefLoopLock (t : Nat) (s : State) : Host.Outcome State Fault Refusal :=
  act t s fun s =>
    if s.clk.source = 0 || s.clk.reflock || (s.clk.holdover && !s.clk.refSince.any (fun t => decide (t + 1600000000 ≤ s.now))) then s
    else post { s with clk := { s.clk with reflock := true, holdover := false, refSince := none } } 0x0205 s.clk.source

/-- What the searches of a build have found by now: how many are done, and what they found, is not stated (log 2). -/
def buildSoFar (s : State) (k : Nat) : State :=
  if !(s.pll k).building then s else
  let d := drawFree 8 s
  let r := (List.range (d.1 % 102)).foldl (fun (a : List Nat × State) _ => let e := drawFree 14 a.2; (a.1 ++ [e.1], e.2)) ([], d.2)
  hopBuild r.2 k r.1

/-- Node activity is lost (Table 7-5): a Fatal record, every PLL output gated. Lost again before it has been present for 10 ms, the count of those
begins anew. -/
def nodeLoss (s : State) (i : FaultInfo) : State :=
  if !s.clk.nodeOk then { s with clk := { s.clk with nodeSince := none } } else
  let s0 := raiseFault { s with clk := { s.clk with nodeOk := false, nodeSince := none, timeValid := false, nodeRecov := 0 } } 0x0200 i
  let s1 := countLoss (markAllUnlocked (post (openWindow s0 0x0200 nodeDeps [] false) 0x0204 2))
  let s2 := (List.range 6).foldl (fun a id => (strHalt a id (grainAt a id a.now + 1)).modStr id (fun x => { x with resume := false })) s1
  let s3 := (List.range 4).foldl (fun a k =>
    let b := (buildSoFar a k).modPll k (fun x => { x with st := 6, attempt := 0, step := false, building := false, byLoss := false })
    (pllCommands b k).foldl (fun d q => pllFinish d k q false false) b) s2
  { auxHalt (setCoarse s3 true) with mem := { (auxHalt (setCoarse s3 true)).mem with selfRef := true } }

/-- NODE_LOSS: the node activity monitor declares the loss. -/
def execNodeLoss (t : Nat) (s : State) : Host.Outcome State Fault Refusal := act t s fun s => nodeLoss s {}

/-- Edges return on the node (Table 7-5). -/
def execNodeActivityReturn (t : Nat) (s : State) : Host.Outcome State Fault Refusal :=
  act t s fun s => if s.clk.nodeOk || s.clk.nodeSince.isSome then s else { s with clk := { s.clk with nodeSince := some s.now } }

/-- Node activity has been present for 10 ms (Table 7-5): the count realigns, and YP0, YP1, SP0 and SP1 relock. -/
def execNodeRecovery (t : Nat) (s : State) : Host.Outcome State Fault Refusal :=
  act t s fun s =>
    if s.clk.nodeOk || !s.clk.nodeSince.any (fun t => decide (t + 16000000 ≤ s.now)) then s
    else nodeNext { s with now := (s.now + 15) / 16 * 16, clk := { s.clk with nodeOk := true, nodeSince := none, nodeRecov := 1 } }

/-! ## PPS (R247, R248, R261) -/

/-- One second in fraction LSB. -/
def secLsb : Nat := 1600000000 * 65536

/-- The second nearest to a stamp, and the residual. -/
def ppsSecond (S : Stamp) : Nat := (2 * S + secLsb) / (2 * secLsb)
def ppsResidual (S : Stamp) : Int := (S : Int) - (ppsSecond S * secLsb : Nat)

/-- The steering after an accepted edge in STEER: the law is not given, only its limits (R247; log 2). -/
def steer (s : State) : State :=
  let o := s.clk.steering
  let lo := max (-20000) (o - 2000)
  let hi := min 20000 (o + 2000)
  let d := drawFree 32 s
  { d.2 with clk := { d.2.clk with steering := lo + (d.1 % ((hi - lo).toNat + 1) : Nat) } }

/-- Pending commands that name a Canopy tick complete with STATE (R261): those of FE_STREAM, ACQ_ARM, GROVE_START, CTL_WRITE
and PERF_CONTROL. -/
def endTimed (s : State) : State :=
  let s1 := (s.host.inProg.filter (fun p => [0x0104, 0x0504, 0x0902, 0x0C06, 0x0E02].contains p.opcode)).foldl (fun a p => finish a p stState 0 0) s
  let s2 := (List.range 8).foldl (fun a k => a.modAu k (fun u => { u with armAt := none })) s1
  let s3 := (List.range 8).foldl (fun a n => a.modCtlO n (fun x => { x with timed := none })) s2
  { s3 with grove := { s3.grove with starts := [] } }

/-- Δ in ct of a CLK_SET_TIME at an edge (R248). -/
def timeDelta (sec : Nat) (S : Stamp) : Int := 16 * ((2 * ((sec * secLsb : Nat) - (S : Int)) + 1048576) / 2097152)

/-- A CLK_SET_TIME meets its edge (R248, R261): the count steps at the next node edge, and the edge counts as accepted in the new scale. -/
def setTimeAt (s : State) (q : InProg) (S : Stamp) : State :=
  let sec := q.data.headD 0
  let d := timeDelta sec S
  let res := (S : Int) + d * 65536 - (sec * secLsb : Nat)
  let result := pack [(80, S), (64, enc 64 d), (48, enc 48 res), (64, 0)]
  if d < 0 then finish s q stRange 4 result
  else
    let s1 := post { s with clk := { s.clk with timeValid := true } } 0x0208 (pack [(64, enc 64 d), (64, sec)])
    let s2 := finish s1 q 0 4 result
    if d = 0 then s2 else
    endTimed { s2 with clk := { s2.clk with stepAt := some ((s.now / 16 + 1) * 16, d.toNat), ppsLast := s2.clk.ppsLast.map (· + d.toNat * 65536) } }

/-- A selected edge of PPS_IN with its stamp (R247). -/
def ppsAccept (s : State) (S : Stamp) : State :=
  let k := s.clk
  let inWin := match k.ppsLast with
    | some l => decide (l + secLsb ≤ S + 1600000 * 65536 ∧ S ≤ l + secLsb + 1600000 * 65536)
    | none => true
  if k.ppsMode = 0 || !(k.ppsFree || inWin) then s else
  let s1 := { s with clk := { k with ppsLast := some S, ppsFree := false, ppsOk := true, residual := ppsResidual S } }
  let s2 := if k.ppsMode = 2 then steer s1 else s1
  let s3 := if k.ppsPost then post s2 0x0206 (pack [(48, enc 48 (ppsResidual S)), (16, 0), (48, ppsSecond S)]) else s2
  (s3.host.inProg.filter (fun q => q.opcode == 0x0205)).foldl (fun a q => setTimeAt a q S) s3

/-- A PPS window closes without an accepted edge (R247). -/
def execPpsLoss (t : Nat) (s : State) : Host.Outcome State Fault Refusal :=
  act t s fun s =>
    match s.clk.ppsLast with
    | none => s
    | some l =>
      if s.clk.ppsMode = 0 || s.clk.ppsFree || stampOf s.now < l + secLsb + 1600000 * 65536 then s
      else raiseFault (post { s with clk := { s.clk with ppsOk := false, ppsFree := true } } 0x0207 (l / 65536)) 0x0203 {}

/-- No accepted edge within 1.1 s ends CLK_SET_TIME (R261). -/
def execClkSetTimeTimeout (t : Nat) (s : State) : Host.Outcome State Fault Refusal :=
  act t s fun s =>
    (s.host.inProg.filter (fun q => q.opcode == 0x0205 && decide (q.applied + 1760000000 ≤ s.now))).foldl (fun a q => finish a q stTimeout 0 0) s

end Sys2Proof.Machine
end

