-- ==== Sys2Proof/Machine/Tiu.lean ====
section
/-! DEFINITION. The time-interval unit: stamping, queues, statistics units and its commands (08_time_interval_unit.md). -/

namespace Sys2Proof.Machine

/-! ## binary64 (R281) -/

/-- The binary64 pattern of m × 2^e for m from 2^52 to 2^53. -/
def packF64 (neg : Bool) (m : Nat) (e : Int) : Nat := (if neg then 2^63 else 0) + (e + 1075).toNat * 2^52 + (m - 2^52)

/-- A rational number rounded once to binary64, a tie to even. -/
def toF64 (x : ℚ) : Nat :=
  if x = 0 then 0 else
  let y := |x|
  let e := ilog2 y - 52
  let z := y / pow2 e
  packF64 (decide (x < 0)) (roundEven z.num z.den).toNat e

/-- The square root of a rational number rounded once to binary64. -/
def sqrtF64 (x : ℚ) : Nat :=
  if x ≤ 0 then 0 else
  let e := ilog2 x / 2 - 52
  let z := x / pow2 (2 * e)
  let m := Nat.sqrt (z.num / z.den).toNat
  let h : ℚ := (m : ℚ) + 1 / 2
  packF64 false (if h * h < z || (h * h = z && m % 2 = 1) then m + 1 else m) e

/-! ## The delay line (R269, R270) -/

/-- The uniform table: 65,536 / 192 by the largest-remainder split, the first 64 taps taking the remainder. -/
def uniformBins : List Nat := (List.range 192).map (fun i => if i < 64 then 342 else 341)

/-- Tap widths in force. -/
def TiuIn.widths (x : TiuIn) : List Nat := x.bins.getD uniformBins

/-- Twice the raw time of an edge sampled at tick T with code c, in fraction LSB. -/
def rawTime2 (x : TiuIn) (T c : Nat) : Int := 2 * ((T * 65536 : Nat) - ((x.widths.take c).sum : Int)) - (x.widths.getD c 0 : Int)

/-- The stamp of such an edge at input n. -/
def stampAt (s : State) (n T c : Nat) : Stamp :=
  let x := s.tiuIn n
  let d := calValue s 9 n + (if x.prescale = 0 then 0 else calValue s 10 (16 * n + x.prescale))
  (roundEven (rawTime2 x T c - 2 * d) 2).toNat

/-! ## Who selects an edge (R272, R286) -/

/-- The EDGE in force: of PPS_IN the discipline's while it is not off. -/
def tiuEdge (s : State) (n : Nat) : Nat := if n = 8 && s.clk.ppsMode ≠ 0 then b2n s.clk.ppsEdge else (s.tiuIn n).edge

/-- EDGE selects a polarity. -/
def edgeSel (e : Nat) (fall : Bool) : Bool := e == 2 || e == b2n fall

/-- The TIU selects the edge. -/
def tiuSel (s : State) (n : Nat) (fall : Bool) : Bool := (s.tiuIn n).on && edgeSel (tiuEdge s n) fall

/-- An enabled EXTERNAL term selects the edge. -/
def extSel (s : State) (n : Nat) (fall : Bool) : Bool :=
  decide (n < 8) && s.acq.terms.any (fun e => e.2.on && e.2.ty == 6 && fld e.2.p 32 3 == n && edgeSel (fld e.2.p 40 2) fall)

/-- PPS discipline selects the edge. -/
def ppsSel (s : State) (n : Nat) (fall : Bool) : Bool := n == 8 && s.clk.ppsMode != 0 && (s.clk.ppsEdge == fall)

/-- An enabled EXTERNAL term uses the pin. -/
def extUsed (s : State) (n : Nat) : Bool := s.acq.terms.any (fun e => e.2.on && e.2.ty == 6 && fld e.2.p 32 3 == n)

/-! ## Statistics units (R278 to R281) -/

/-- A running unit uses an input. -/
def TiuStat.uses (x : TiuStat) (n : Nat) : Bool := x.run && (x.start == n || (x.interval && x.stop == n))

/-- Every pending edge is discarded (R280). -/
def TiuStat.resynced (x : TiuStat) : TiuStat := { x with pendA := [], pendB := [], resync := sat32 x.resync }

/-- P of a prescaler setting (Table 8-1). -/
def prescaleOf (k : Nat) : Nat := 4 ^ k

/-- The run closes (R281). -/
def statClose (s : State) (u : Nat) : State :=
  let x := s.tiuSt u
  let P : ℚ := if x.interval then 1 else prescaleOf (s.tiuIn x.start).prescale
  let n : ℚ := x.cnt
  let var : ℚ := if x.cnt ≤ 1 then 0 else ((x.sq : ℚ) - (x.sum : ℚ) * x.sum / n) / (n - 1)
  let runs := (x.runs + 1) % 2^32
  post (s.setTiuSt u { x with
    run := x.cont, cnt := 0, sum := 0, sq := 0, lo := 0, hi := 0, runUncal := false, ovPosted := false, valid := true, uncal := x.runUncal,
    runs := runs, mean := toF64 (x.sum / n / P), sdev := sqrtF64 (var / (P * P)), min_ := toF64 (x.lo / P), max_ := toF64 (x.hi / P) })
    0x0801 (pack [(2, u), (1, b2n x.interval), (29, 0), (32, runs)])

/-- A sample is taken. -/
def statSample (s : State) (u : Nat) (v : Int) : State :=
  let x := s.tiuSt u
  let s1 := s.setTiuSt u { x with
    cnt := x.cnt + 1, sum := x.sum + v, sq := x.sq + (v * v).toNat, lo := if x.cnt = 0 then v else min x.lo v,
    hi := if x.cnt = 0 then v else max x.hi v }
  if x.cnt + 1 ≥ x.n then statClose s1 u else s1

/-- Pair what is pending in INTERVAL mode; `k` bounds the pairs. -/
def statPair : Nat → State → Nat → State
  | 0, s, _ => s
  | k + 1, s, u =>
    let x := s.tiuSt u
    match x.pendA, x.pendB with
    | a :: ra, b :: rb =>
      if x.run then statPair k (statSample (s.setTiuSt u { x with pendA := ra, pendB := rb }) u ((b : Int) - a)) u else s
    | _, _ => s

/-- A stamp of input n reaches a running unit that uses it. -/
def statStamp (s : State) (u n : Nat) (T : Stamp) (coarse uncal : Bool) : State :=
  let x := s.tiuSt u
  if !x.uses n then s
  else if coarse then s.setTiuSt u x.resynced
  else if !x.interval then
    match x.pendA with
    | [] => s.setTiuSt u { x with pendA := [T], runUncal := x.runUncal || uncal }
    | a :: _ => statSample (s.setTiuSt u { x with pendA := [T], runUncal := x.runUncal || uncal }) u ((T : Int) - a)
  else if x.pendA.length + x.pendB.length ≥ 256 && (if x.start = n then x.pendB.isEmpty else x.pendA.isEmpty) then s.setTiuSt u x.resynced
  else
    let y := if x.start = n then { x with pendA := x.pendA ++ [T] } else { x with pendB := x.pendB ++ [T] }
    statPair 1 (s.setTiuSt u { y with runUncal := x.runUncal || uncal }) u

/-- An edge of input n is lost: the units that use it start pairing again. -/
def statLost (s : State) (n : Nat) : State :=
  (List.range 4).foldl (fun a u => if (a.tiuSt u).uses n then a.modTiuSt u TiuStat.resynced else a) s

/-! ## Queues (R275, R276) -/

/-- Table 8-2. -/
def StampRec.encode (r : StampRec) : Nat :=
  pack [(80, r.time), (4, r.input), (1, b2n r.fall), (1, b2n r.coarse), (1, b2n r.uncal), (9, 0), (32, r.seq)]

/-- A stamp arrives at its input's queue. -/
def queuePut (s : State) (n : Nat) (r : StampRec) : State :=
  let x := s.tiuIn n
  if x.queue.length < 4096 then s.setTiuIn n { x with queue := x.queue ++ [r] }
  else
    let q := sat32 x.qlost
    let s1 := s.setTiuIn n { x with qlost := q, qArmed := false }
    if x.qArmed then post s1 0x0803 (pack [(4, n), (28, 0), (32, q)]) else s1

/-- The oldest k entries leave the queue. -/
def queueTake (x : TiuIn) (k : Nat) : TiuIn :=
  { x with queue := x.queue.drop k, qArmed := x.qArmed || decide (x.queue.length - k < 2048) }

/-! ## An edge (R267 to R274) -/

/-- An edge is lost: inside the dead time, or at the pin of an input under test (R272, R284). LOST counts it, and SEQ advances. -/
def edgeLost (s : State) (n : Nat) : State :=
  statLost (s.modTiuIn n (fun x => { x with lost := sat32 x.lost, lostPer := x.lostPer.add s.now, seq := (x.seq + 1) % 2^32 })) n

/-- A selected edge that the prescaler passes, sampled with a code. -/
def edgeStamp (s : State) (n : Nat) (fall : Bool) (c : Nat) : State :=
  let x := s.tiuIn n
  let mine := tiuSel s n fall
  let coarse := s.clk.coarse
  let raw : Int := if coarse then (2 * 65536 * s.now : Nat) else rawTime2 x s.now c
  if raw < x.deadEnd then (if mine || extSel s n fall then edgeLost s n else s) else
  let T : Stamp := if coarse then stampOf ((s.now + 15) / 16 * 16) else stampAt s n s.now c
  let s1 := s.setTiuIn n { x with
    deadEnd := raw + 262144, last := T, coarseCnt := if coarse then sat32 x.coarseCnt else x.coarseCnt,
    seq := if mine then (x.seq + 1) % 2^32 else x.seq }
  let s2 := if mine && x.queueOn then queuePut s1 n { time := T, input := n, fall := fall, coarse := coarse, uncal := x.uncal, seq := x.seq } else s1
  let s3 := if mine then (List.range 4).foldl (fun a u => statStamp a u n T coarse x.uncal) s2 else s2
  let s4 := if extSel s n fall then externalTerms s3 n fall T else s3
  if ppsSel s n fall then ppsAccept s4 T else s4

/-- An edge at the pin of input n (R267, R272 to R274, R284): `c` is the code the delay line reports at the tick. -/
def execInputEdge (t n : Nat) (fall : Bool) (c : Nat) (s : State) : Host.Outcome State Fault Refusal :=
  act t s fun s =>
    let s0 := s.modTiuIn n (fun x => { x with level := !fall })
    let x := s0.tiuIn n
    if x.testing then edgeLost s0 n
    else if !(tiuSel s0 n fall || extSel s0 n fall || ppsSel s0 n fall) then s0
    else if x.prescale ≠ 0 && x.pre + 1 < prescaleOf x.prescale then s0.setTiuIn n { x with pre := x.pre + 1 }
    else edgeStamp (s0.setTiuIn n { x with pre := 0 }) n fall (min c 191)

/-- The oldest pending edge of a unit. -/
def oldestPend (x : TiuStat) : Option (Stamp × Bool) :=
  match x.pendA, x.pendB with
  | a :: _, _ => some (a, false)
  | [], b :: _ => some (b, true)
  | [], [] => none

/-- The oldest pending edge ages 2^39 ct without a partner (R279): a pending stop is out of order. The edge counts as lost, and the unit
resynchronises: pairing goes on with the next edge that is pending (R280). -/
def execPendingEdgeClose (t u : Nat) (s : State) : Host.Outcome State Fault Refusal :=
  act t s fun s =>
    let x := s.tiuSt u
    match oldestPend x with
    | none => s
    | some e =>
      if !x.run || stampOf s.now < e.1 + 2^39 * 65536 then s else
      let y := if e.2 then { x with ooo := sat32 x.ooo } else { x with ovf := sat32 x.ovf }
      let s1 := s.setTiuSt u { y.resynced with ovPosted := true }
      if x.ovPosted then s1 else post s1 0x0805 (pack [(2, u), (1, b2n e.2), (13, 0), (80, e.1)])

/-- The end of a 1 ms period in which an input lost edges (R293). -/
def execTiuLost (t n : Nat) (s : State) : Host.Outcome State Fault Refusal :=
  act t s fun s =>
    let x := s.tiuIn n
    let k := x.lostPer.ended s.now
    if k = 0 then s
    else post (s.setTiuIn n { x with lostPer := x.lostPer.reported s.now }) 0x0802 (pack [(4, n), (28, 0), (32, min k 0xFFFFFFFF), (32, x.lost)])

/-- Move entries of a queue into its ring while there is room; `k` bounds them. -/
def drainTo : Nat → State → Nat → State
  | 0, s, _ => s
  | k + 1, s, n =>
    let x := s.tiuIn n
    match x.queue with
    | [] => s
    | r :: _ =>
      if !ringRoom s x.drain 16 then s
      else drainTo k (ringPut (s.setTiuIn n (queueTake x 1)) x.drain (toBytes r.encode 16)) n

/-- A queue with a drain ring moves up to k entries into it (R277): not while a panic is raised. -/
def execQueueDrain (t n k : Nat) (s : State) : Host.Outcome State Fault Refusal :=
  act t s fun s => if (s.tiuIn n).drain = noHandle || panicUp s then s else recPull (drainTo (min k 4096) s n)

/-- The junction temperature has moved more than 15 °C from that of an accepted table (R283). -/
def execTiuTableUncal (t n : Nat) (tj : Int) (s : State) : Host.Outcome State Fault Refusal :=
  act t s fun s =>
    let s1 := { s with pwr := { s.pwr with tj := tj } }
    if (s.tiuIn n).bins.isSome && 150 < ((s.tiuIn n).calTj - tj).natAbs then s1.modTiuIn n (fun x => { x with uncal := true }) else s1

/-! ## Commands -/

/-- The calling session owns TIU input n. -/
def ownsIn (s : State) (sess n : Nat) : Bool := owns s sess 9 n

/-- The comparator settings may be set: by the owner of the input, or by that of the trigger pin while no other session
owns the input (R266). -/
def mayCondition (s : State) (sess n : Nat) : Bool :=
  ownsIn s sess n || (n < 8 && owns s sess 7 n && s.ownerOf (9 * 65536 + n) == 0)

/-- A running statistics unit uses the input. -/
def statUses (s : State) (n : Nat) : Bool := (List.range 4).any (fun u => (s.tiuSt u).uses n)

/-- An input as TIU_SET_INPUT leaves it: every change resets the prescaler (R267), and enabling restarts SEQ (R275). -/
def TiuIn.changed (x y : TiuIn) : TiuIn := if y = x then x else { y with pre := 0, seq := if y.on && !x.on then 0 else x.seq }

/-- TIU_SET_INPUT (R115, R266 to R268, R282, R286): stamping and triggering use one pin only when one session owns both. -/
def execTiuSetInput (c : Cmd) (p : Block) (s : State) : Host.Outcome State Fault Refusal :=
  zci 0x0801 1 (fun _ => [(0, 4), (4, 1), (5, 1), (6, 2), (8, 2), (10, 1), (11, 1), (16, 16), (32, 6)]) c p s fun b s =>
    let n := fld b 0 4
    let sess := c.session.val
    let x := s.tiuIn n
    let on := bit b 4
    let e := if n = 8 && s.clk.ppsMode ≠ 0 then x.edge else fld b 6 2
    let ps := fld b 8 2
    let th := sfld b 16 16
    let cond := bit b 11
    let y := { x with term50 := bit b 5, thresh := th, hyst := fld b 32 6 }
    chk [(decide (n < 9) && !(if cond then mayCondition s sess n else ownsIn s sess n), stBusy), (decide (8 < n), stInvalid),
         (!cond && on && extUsed s n && !owns s sess 7 n, stBusy), (!cond && e == 3, stInvalid), (!cond && ps != 0 && (e == 2 || n == 8), stInvalid), (!cond && ps != 0 && extUsed s n, stState),
         (!cond && statUses s n && (e != x.edge || ps != x.prescale || on != x.on), stState),
         (decide (th < -1000 ∨ 2500 < th) || decide (50 < fld b 32 6), stRange)]
      (.ok (s.setTiuIn n (x.changed (if cond then y else { y with on := on, edge := e, prescale := ps, queueOn := bit b 10 }))) 0 0)

/-- TIU_SET_STATS (R278, R281, R282, R287). -/
def execTiuSetStats (c : Cmd) (p : Block) (s : State) : Host.Outcome State Fault Refusal :=
  zci 0x0802 1 (fun _ => [(0, 2), (2, 1), (3, 1), (4, 1), (8, 4), (12, 4), (16, 33)]) c p s fun b s =>
    let u := fld b 0 2
    let en := bit b 2
    let iv := bit b 3
    let a := fld b 8 4
    let z := fld b 12 4
    let n := fld b 16 33
    let sess := c.session.val
    let x := s.tiuSt u
    chk [(!owns s sess 0x0A u || (en && ((decide (a < 9) && !ownsIn s sess a) || (iv && decide (z < 9) && !ownsIn s sess z))), stBusy),
         (!en && x.run && (!ownsIn s sess x.start || (x.interval && !ownsIn s sess x.stop)), stBusy),
         (en && decide (8 < a), stInvalid), (en && (if iv then decide (8 < z) || z == a else z != 0), stInvalid), (n == 0, stInvalid),
         (en && !iv && tiuEdge s a == 2, stInvalid), (en && (x.run || !(s.tiuIn a).on || (iv && !(s.tiuIn z).on)), stState),
         (en && decide (2^32 < n), stRange)]
      (.ok (if en then s.setTiuSt u { x with
              run := true, interval := iv, cont := bit b 4, start := a, stop := z, n := n, pendA := [], pendB := [], cnt := 0, sum := 0, sq := 0, lo := 0,
              hi := 0, runUncal := false, runs := 0, ovPosted := false }
            else s.setTiuSt u { x with run := false, pendA := [], pendB := [] }) 0 0)

/-- TIU_GET_STATS (R288). -/
def execTiuGetStats (c : Cmd) (p : Block) (s : State) : Host.Outcome State Fault Refusal :=
  zci 0x0803 1 (fun _ => [(0, 2), (8, 1)]) c p s fun b s =>
    let u := fld b 0 2
    let x := s.tiuSt u
    chk [(bit b 8 && !owns s c.session.val 0x0A u, stBusy)]
      (.ok (if bit b 8 then s.setTiuSt u { x with ovf := 0, ooo := 0, resync := 0 } else s) 8
        (pack [(1, b2n x.run), (1, b2n x.interval), (1, b2n x.valid), (1, b2n x.uncal), (28, 0), (32, x.runs), (33, x.cnt), (31, 0), (64, x.mean),
          (64, x.sdev), (64, x.min_), (64, x.max_), (32, x.ovf), (32, x.ooo), (32, x.resync), (32, 0)]))

/-- TIU_READ (R289). -/
def execTiuRead (c : Cmd) (p : Block) (s : State) : Host.Outcome State Fault Refusal :=
  zci 0x0804 2 (fun _ => [(0, 4), (16, 16), (32, 13), (64, 64)]) c p s fun b s =>
    let n := fld b 0 4
    let h := fld b 16 16
    let m := fld b 32 13
    let off := fld b 64 64
    let x := s.tiuIn n
    let k := min m x.queue.length
    chk [((decide (n < 9) && !ownsIn s c.session.val n) || !regOwned s c.session.val h, stBusy), (decide (8 < n), stInvalid), (m == 0, stInvalid),
         (off % 16 != 0, stInvalid), (x.drain != noHandle, stState), (decide (4096 < m) || regPast s h off (16 * m), stRange)]
      (copyOut (s.setTiuIn n (queueTake x k)) h off ((x.queue.take k).flatMap (fun r => toBytes r.encode 16)) 1 k)

/-- TIU_SET_DRAIN (R290, R377). -/
def execTiuSetDrain (c : Cmd) (p : Block) (s : State) : Host.Outcome State Fault Refusal :=
  zci 0x0805 1 (fun _ => [(0, 4), (16, 16)]) c p s fun b s =>
    let n := fld b 0 4
    let h := fld b 16 16
    chk [((decide (n < 9) && !ownsIn s c.session.val n) || (h != noHandle && !regOwned s c.session.val h), stBusy), (decide (8 < n), stInvalid),
         (h != noHandle && !isRecRing s h, stInvalid)]
      (.ok (s.modTiuIn n (fun x => { x with drain := h })) 0 0)

/-- TIU_CAL (R284, R285, R291, R303): the tests of the selected inputs begin. -/
def execTiuCal (c : Cmd) (p : Block) (s : State) : Host.Outcome State Fault Refusal :=
  zci 0x0806 1 (fun _ => [(0, 9)]) c p s fun b s =>
    let ns := maskBits 9 b
    chk [(s.flt.signBad, stFaulted), (ns.any (fun n => !ownsIn s c.session.val n), stBusy), (ns.isEmpty, stInvalid),
         (ns.any (fun n => statUses s n || (n < 8 && extUsed s n) || (n == 8 && s.clk.ppsMode != 0)), stState),
         (ns.any (fun n => (s.tiuIn n).testing), stBusy), (s.cal.count == 0xFFFFFFFF, stDenied)]
      (.later (ns.foldl (fun a n => a.modTiuIn n (fun x => { x with testing := true })) s) (fld b 0 9) [0, 0])

/-- TIU_GET_STATUS (R292). -/
def execTiuGetStatus (c : Cmd) (p : Block) (s : State) : Host.Outcome State Fault Refusal :=
  zci 0x0807 1 (fun _ => [(0, 4), (8, 1)]) c p s fun b s =>
    let n := fld b 0 4
    let x := s.tiuIn n
    chk [(bit b 8 && decide (n < 9) && !ownsIn s c.session.val n, stBusy), (decide (8 < n), stInvalid)]
      (.ok (if bit b 8 then s.setTiuIn n { x with lost := 0, qlost := 0, coarseCnt := 0 } else s) 4
        (pack [(1, b2n x.on), (1, b2n x.level), (1, b2n x.uncal), (1, b2n x.testing), (2, x.prescale), (2, 0), (13, x.queue.length), (11, 0), (32, x.lost),
          (32, x.qlost), (32, x.seq), (80, x.last), (32, x.coarseCnt), (16, 0)]))

end Sys2Proof.Machine
end

