-- ==== Sys2Proof/Machine/Cal.lean ====
section
/-! DEFINITION. Calibration: steps, plausibility, signed records and the commands of group 0x03
(09_calibration.md), and the end of a TIU table test (R284). -/

namespace Sys2Proof.Machine

/-! ## The correction set (Table 9-2) -/

/-- Items whose value is signed. -/
def calSigned (item : Nat) : Bool := [1, 4, 5, 7, 8, 12].contains item

/-- The range of an item. -/
def calRange (item : Nat) : Int × Int :=
  match item with
  | 1 => (-512, 512)
  | 2 | 3 | 6 => (0x8000, 0x20000)
  | 4 | 5 => (-20000, 20000)
  | 7 => (-1024, 1024)
  | 8 => (-262144, 262144)
  | 9 | 10 => (0, 0x100000)
  | 11 => (85, 1365)
  | _ => (-40000, 0)

/-- A value of an item lies in its range, so that it can stand in force or be a factory value (R296); point 9 of a response table is
always 0 (R295). -/
def calPlaces (item index : Nat) (v : Int) : Bool :=
  item != 11 && decide ((calRange item).1 ≤ v ∧ v ≤ (calRange item).2) && ((item != 4 && item != 5) || index % 256 != 9 || v == 0)

/-- Put a value in force. -/
def setCalValue (s : State) (item index : Nat) (v : Int) : State :=
  { s with cal := { s.cal with values := tput 0 s.cal.values (calKey item index) (v - calFactory s item index) } }

/-- Factory value and value in force; TIU bin widths stand in their input's table. -/
def calOld (s : State) (item index : Nat) : Int :=
  if item = 11 then (uniformBins.getD (index % 256) 0 : Int) else calFactory s item index
def calNow (s : State) (item index : Nat) : Int :=
  if item = 11 then ((s.tiuIn (index / 256)).widths.getD (index % 256) 0 : Int) else calValue s item index

/-- Every item and index in ITEM then INDEX order (R312). -/
def calItems : List (Nat × Nat) :=
  let g := fun (n m : Nat) (k : Nat) => (List.range n).flatMap (fun i => (List.range m).map (fun j => k * i + j))
  let it := fun (t : Nat) (l : List Nat) => l.map (fun i => (t, i))
  it 1 (List.range 4) ++ it 2 (List.range 4) ++ it 3 ((g 5 11 16) ++ (g 5 11 16).map (· + 256)) ++
  it 4 (g 5 180 256) ++ it 5 (g 2 180 256) ++ it 6 (List.range 2) ++ it 7 (List.range 2) ++ it 8 (List.range 4) ++
  it 9 (List.range 9) ++ it 10 ((g 8 3 16).map (· + 1)) ++ it 11 (g 9 192 256) ++ it 12 (g 4 180 256)

/-- Table 9-7: one entry as bytes. -/
def entryBytes (e : Nat × Nat × Nat × Nat) : List Byte := toBytes (pack [(8, e.1), (8, 0), (16, e.2.1), (32, e.2.2.1), (32, e.2.2.2), (32, 0)]) 16

/-! ## Targets -/

/-- Converters of a target. -/
def calConvs (tgt : Nat) : List Nat := if tgt < 4 then [tgt] else [2 * (tgt - 4), 2 * (tgt - 4) + 1]

/-- INDEX of the IGAIN row of a target's mode and routed input, at ATTEN 0. -/
def igainRow (s : State) (tgt : Nat) : Nat := (if tgt < 4 then 0 else 256) + 16 * s.source tgt

/-- Item and index of point p of the response table of a target. -/
def calResp (s : State) (tgt p : Nat) : Nat × Nat := if tgt < 4 then (4, 256 * s.source tgt + p) else (5, 256 * (tgt - 4) + p)

/-- Points below the comb filter edge, fs / 2 - 100 MHz (R298). -/
def combPoints (s : State) (tgt : Nat) : List Nat := (List.range 180).filter (fun p => decide (2 * (p + 2) < nsOf s tgt))

/-- A TONE on the target scales CGAIN alone (Table 9-2). -/
def scalesCgain (s : State) (tgt : Nat) : Bool := tgt < 4 && s.source tgt == tgt

/-! ## Candidates (Table 9-3) -/

/-- A number of 32 bits as the value of an item. -/
def calDecode (item v : Nat) : Int := if calSigned item then sfld v 0 32 else (fld v 0 32 : Int)

/-- CPL of an input at a frequency in kHz, in 0.001 dB: linear between the points of the table (R297). -/
def couplerAt (s : State) (i khz : Nat) : ℚ :=
  let p := min (khz / 100000 - 1) 178
  let a := calValue s 12 (256 * i + p)
  let b := calValue s 12 (256 * i + p + 1)
  a + (b - a : Int) * ((khz : ℚ) / 100000 - (p + 1 : Nat))

/-- The level that a TONE should read at the converter, in 10^-6 dBFS (R36, R297): through the coupler the declared level counts as
L + CPL at the connector. -/
def toneExpected (s : State) (c : CalStep) : ℚ :=
  10000 * c.level + (if c.refPort then 0 else 1000 * couplerAt s c.input c.freq) - 1000000 * (2 * (c.atten : Int) - 2)

/-- A gain that makes good the difference between the level that a TONE should read and the level that it reads. -/
def toneGain (s : State) (c : CalStep) (old level : Int) : Int :=
  let x := old * realExp10 ((toneExpected s c - level) / 20000000)
  roundEven x.num x.den

/-- The offsets that a sum of samples stands for, in 1/16 LSB: the mean of 2^k samples of each converter, rounded to nearest even. -/
def offsetsOf (sums : List Int) (k : Nat) (tgt : Nat) : List (Nat × Nat × Int) :=
  (calConvs tgt).zipIdx.map (fun c => (1, c.1, roundEven (16 * sums.getD c.2 0) (2^k)))

/-- The values that a measurement proposes (Table 9-3): of a TONE from the level read, of an OFFSET from the sums over 2^k samples; RESPONSE gives a
value for each point below the filter edge, ATTEN the ten other codes in order, every other step its items' values. -/
def proposed (s : State) (tgt : Nat) (c : CalStep) (level : Int) (sums : List Int) (k : Nat) (vals : List Nat) : List (Nat × Nat × Int) :=
  let v := fun i => vals.getD i 0
  let d := fun item i => calDecode item (v i)
  match c.step with
  | 0 => offsetsOf sums k tgt
  | 1 | 5 => [(6, tgt - 4, d 6 0), (7, tgt - 4, d 7 1)]
  | 2 =>
    if scalesCgain s tgt then [(2, tgt, toneGain s c (calValue s 2 tgt) level)]
    else (List.range 11).map (fun a => (3, igainRow s tgt + a, toneGain s c (calValue s 3 (igainRow s tgt + a)) level))
  | 3 => (combPoints s tgt).zipIdx.map (fun p => ((calResp s tgt p.1).1, (calResp s tgt p.1).2, d 4 p.2 - d 4 9))
  | 4 => ((List.range 11).filter (· ≠ c.atten)).zipIdx.map (fun a => (3, igainRow s tgt + a.1, d 3 a.2))
  | _ => [(8, (calConvs tgt).headD 0, d 8 0)]

/-- The candidates of a step, and what each half of its measurement alone would propose. -/
def candidates (s : State) (tgt : Nat) (c : CalStep) (m : Measured) : List (Nat × Nat × Int) := proposed s tgt c m.level c.sums 28 m.vals
def firstHalf (s : State) (tgt : Nat) (c : CalStep) (m : Measured) : List (Nat × Nat × Int) := proposed s tgt c m.level1 c.half 27 m.vals1
def secondHalf (s : State) (tgt : Nat) (c : CalStep) (m : Measured) : List (Nat × Nat × Int) :=
  proposed s tgt c m.level2 (c.sums.zipIdx.map (fun e => e.1 - c.half.getD e.2 0)) 27 m.vals2

/-- A measurement has taken all that it needs (Table 9-3): the samples of a blind step, every code of an ATTEN step. -/
def measuredAll (tgt : Nat) (c : CalStep) : Bool :=
  if c.blind then decide (blindGrains c.step tgt ≤ c.grains) else c.step != 4 || c.done

/-! ## Plausibility (R302, Table 9-4) -/

/-- a / b lies within k / n times 20 dB of 1, decided in integers: (a / b)^n between 10^-k and 10^k. -/
def within (n k : Nat) (a b : Int) : Bool :=
  decide (0 < a ∧ 0 < b) && decide (a.toNat^n ≤ 10^k * b.toNat^n) && decide (b.toNat^n ≤ 10^k * a.toNat^n)

/-- ±1.5 dB, ±0.5 dB, ±0.2 dB, ±0.05 dB and ±0.001 dB. -/
def db1500 (a b : Int) : Bool := within 40 3 a b
def db500 (a b : Int) : Bool := within 40 1 a b
def db200 (a b : Int) : Bool := within 100 1 a b
def db50 (a b : Int) : Bool := within 400 1 a b
def db1 (a b : Int) : Bool := within 20000 1 a b

/-- A distance is at most d. -/
def near (d : Nat) (a b : Int) : Bool := decide ((a - b).natAbs ≤ d)

/-- The value an item would have under the candidates. -/
def candOr (s : State) (cs : List (Nat × Nat × Int)) (item index : Nat) : Int :=
  match cs.find? (fun c => c.1 == item && c.2.1 == index) with
  | some c => c.2.2
  | none => calValue s item index

/-- The spread between what the halves propose lies within Table 9-4, item by item; of a TONE it is that of the level. -/
def spreadOk (step : Nat) (m : Measured) (h1 h2 : List (Nat × Nat × Int)) : Bool :=
  if step = 1 then true
  else if step = 2 then near 50000 m.level1 m.level2
  else (h1.zip h2).all (fun e =>
    let a := e.1.2.2
    let b := e.2.2.2
    match e.1.1 with
    | 1 => near 4 a b
    | 4 | 5 => near 100 a b
    | 7 => near 21 a b
    | 8 => near 105 a b
    | _ => db50 a b)

/-- What the signal of a TONE shows against Table 9-4: REASON 1 to 3, or 0. -/
def toneReason (c : CalStep) (m : Measured) : Nat :=
  if c.step ≠ 2 then 0
  else if m.level < -45000000 || -3000000 < m.level then 1
  else if !near (10 * c.freq) m.freq (1000000 * c.freq) then 2
  else if m.purity < 50000000 then 3 else 0

/-- REASON 5: every candidate lies in its range of Table 9-2 and within its limit of Table 9-4; `a` is the ATTEN of the step. -/
def limitsOk (s : State) (tgt step a : Nat) (cs : List (Nat × Nat × Int)) : Bool :=
  let row := igainRow s tgt
  cs.all (fun c => calPlaces c.1 c.2.1 c.2.2) &&
  match step with
  | 0 => cs.all (fun c => near 128 c.2.2 (calFactory s 1 c.2.1))
  | 1 | 5 => db500 (candOr s cs 6 (tgt - 4)) 65536 && near 210 (candOr s cs 7 (tgt - 4)) 0
  | 2 => (calConvs tgt).all (fun c =>
      db1500 (candOr s cs 3 (row + a) * candOr s cs 2 c) (calFactory s 3 (row + a) * calFactory s 2 c))
  | 3 =>
    cs.all (fun c => near 1500 c.2.2 (calFactory s c.1 c.2.1)) &&
    (List.range 179).all (fun p =>
      let i := calResp s tgt p
      let j := calResp s tgt (p + 1)
      near 500 (candOr s cs j.1 j.2 - candOr s cs i.1 i.2) (calValue s j.1 j.2 - calValue s i.1 i.2))
  | 4 => cs.all (fun c =>
      db500 (c.2.2 * calFactory s 3 (row + a)) (calFactory s 3 c.2.1 * calValue s 3 (row + a)))
  | _ => cs.all (fun c => near 2097 c.2.2 (calFactory s 8 c.2.1))

/-- REASON 6: the change of the interleave values in one step. -/
def changeOk (s : State) (tgt step : Nat) (cs : List (Nat × Nat × Int)) : Bool :=
  if step = 1 || step = 5 then
    db200 (candOr s cs 6 (tgt - 4)) (calValue s 6 (tgt - 4)) && near 52 (candOr s cs 7 (tgt - 4)) (calValue s 7 (tgt - 4))
  else true

/-- REASON of a rejection, 0 when the candidate is plausible: the checks in the order of their codes (R302). -/
def implausible (s : State) (tgt : Nat) (c : CalStep) (m : Measured) : Nat :=
  let cs := candidates s tgt c m
  if toneReason c m ≠ 0 then toneReason c m
  else if !spreadOk c.step m (firstHalf s tgt c m) (secondHalf s tgt c m) then 4
  else if !limitsOk s tgt c.step c.atten cs then 5
  else if !changeOk s tgt c.step cs then 6
  else if c.blind && !m.confident then 10 else 0

/-- SPREAD: the largest difference between the halves, 0 of a blind step (Table 9-6). -/
def calSpread (s : State) (tgt : Nat) (c : CalStep) (m : Measured) : Int :=
  if c.blind then 0
  else calDelta (((firstHalf s tgt c m).zip (secondHalf s tgt c m)).map (fun e => e.1.2.2 - e.2.2.2))

/-- The result lies within the deadband of the blind schedule (R311). -/
def inDeadband (s : State) (cs : List (Nat × Nat × Int)) : Bool :=
  cs.all (fun c =>
    let o := calValue s c.1 c.2.1
    if c.1 = 1 then near 2 c.2.2 o else if c.1 = 6 then db1 c.2.2 o else near 5 c.2.2 o)

/-! ## Records (R306, R307) -/

/-- Header and entries of a record (Tables 9-6, 9-7): what the signature covers. -/
def CalRecord.body (r : CalRecord) : List Byte :=
  toBytes (pack [(8, 1), (8, r.step), (4, r.target), (1, b2n r.auto), (2, r.result), (1, b2n r.utcValid), (8, r.reason), (32, r.count), (80, r.time),
    (64, r.utc), (16, enc 16 r.tj), (8, r.input), (8, r.atten), (8, r.stream), (8, 0), (48, r.first), (10, r.entries.length), (6, 0),
    (32, enc 32 r.delta), (32, enc 32 r.spread), (128, Config.keyId.toNat)]) 64 ++ r.entries.flatMap entryBytes

/-- A record with its signature. -/
def CalRecord.bytes (r : CalRecord) : List Byte := r.body ++ Config.sign (Config.sha384 r.body) r.sig

/-- Length of a record. -/
def CalRecord.len (r : CalRecord) : Nat := 64 + 16 * r.entries.length + 96

/-- A record is signed and retained (R306, R307). -/
def keepRecord (s : State) (r : CalRecord) : State × CalRecord :=
  let r1 := { r with sig := s.sec.sigNo }
  ({ s with sec := { s.sec with sigNo := s.sec.sigNo + 1 }, cal := { s.cal with records := (r1 :: s.cal.records).take 64 } }, r1)

/-- The fields of a record of a target that do not depend on its result: INPUT and ATTEN are those of the step (R306). -/
def newRecord (s : State) (tgt step input atten : Nat) : CalRecord :=
  { step := step, target := tgt, count := s.cal.count, time := timeRead s, utc := (utcNow s).getD 0, utcValid := (utcNow s).isSome,
    tj := s.pwr.tj, input := input, atten := atten, stream := if strExists s tgt then tgt else 0xFF }

/-- INPUT and ATTEN of a target at present. -/
def calInput (s : State) (tgt : Nat) : Nat := if s.source tgt < 5 then s.source tgt else 0xFF
def calAtten (s : State) (tgt : Nat) : Nat := if s.source tgt < 4 then (s.inp (s.source tgt)).atten else 0xFF

/-- Entries of a record from candidates. -/
def calEntries (s : State) (cs : List (Nat × Nat × Int)) : List (Nat × Nat × Nat × Nat) :=
  cs.map (fun c => (c.1, c.2.1, enc 32 (calValue s c.1 c.2.1), enc 32 c.2.2))

/-- An acceptance: the count advances, time and UTC are kept (R303). -/
def calCount (s : State) (at_ : Stamp) : State :=
  { s with cal := { s.cal with count := min (s.cal.count + 1) 0xFFFFFFFF, lastTime := at_, lastUtc := (utcNow s).getD 0,
                               utcValid := (utcNow s).isSome } }

/-- Payload of CAL_DONE (Table 9-11). -/
def calDone (s : State) (r : CalRecord) : State :=
  post s 0x0301 (pack [(8, r.step), (4, r.target), (1, b2n r.auto), (2, r.result), (1, 0), (8, r.reason), (32, r.count), (48, r.first)])

/-- CAL_RUN's result (R309). -/
def calResult (r : CalRecord) : Nat := pack [(2, r.result), (6, 0), (8, r.reason), (32, r.count), (48, r.first)]

/-! ## Drift (R304) -/

/-- The row of a target's entering or leaving DRIFT: the junction temperature is read, in 0.1 °C. -/
def execCalDrift (t tgt : Nat) (tj : Int) (s : State) : Host.Outcome State Fault Refusal :=
  act t s fun s => if 6 ≤ tgt then s else driftUpdate { s with pwr := { s.pwr with tj := tj } } tgt

/-! ## Ending a step -/

/-- The acceptance that a step stores for its target (R303, R304). -/
def storeAcc (s : State) (tgt step : Nat) (at_ : Stamp) : State :=
  let a : CalAcc := { tj := s.pwr.tj, at_ := at_, utc := utcNow s }
  s.modCalT tgt (fun x =>
    let y := { x with latest := some a }
    if step = 2 then { y with tone := some a } else if step = 3 then { y with resp := some a }
    else if step = 5 then { y with ilv := some a } else y)

/-- Values take effect together from grain g of the target's stream, which carries CAL (R299); the grains before it, of this and of every
other stream, keep the values they had (R16). -/
def applyCands (s : State) (tgt g : Nat) (cs : List (Nat × Nat × Int)) : State :=
  (cs.foldl (fun a c => setCalValue a c.1 c.2.1 c.2.2) (keepFronts s)).modStr tgt (fun x =>
    if x.running then { x with cur := { x.cur with cal := x.cur.cal ++ [(g, g + 1)] } } else x)

/-- A scheduled run ends without effect (R311). -/
def blindSkipped (s : State) : State := { s with cal := { s.cal with blindSkip := sat32 s.cal.blindSkip } }

/-- A step ends without values: its record is kept and CAL_DONE is posted. -/
def stepRecord (s : State) (r : CalRecord) : State × Option CalRecord :=
  let k := keepRecord s r
  (calDone k.1 k.2, some k.2)

/-- A step is accepted (R299, R303): its values take effect at grain g of the target's stream. -/
def stepAccept (s : State) (tgt g step : Nat) (cs : List (Nat × Nat × Int)) (r : CalRecord) : State × CalRecord :=
  let at_ := if (s.str tgt).running then grainTime s tgt g else stampOf s.now
  let s1 := storeAcc (calCount (applyCands s tgt g cs) at_) tgt step at_
  let k := keepRecord s1 { r with count := s1.cal.count, time := at_, first := if (s.str tgt).running then g % 2^48 else noIndex }
  (driftUpdate (calDone k.1 k.2) tgt, k.2)

/-- The result of a step's end: its state, its record (none when a scheduled run leaves none). -/
def stepEnd (s : State) (tgt : Nat) (c : CalStep) (m : Measured) : State × Option CalRecord :=
  let cs := candidates s tgt c m
  let why := implausible s tgt c m
  let r0 := { newRecord s tgt c.step c.input c.atten with auto := c.auto }
  let s0 := s.setCalStep tgt none
  if c.abort ≠ 0 then
    if c.auto then (blindSkipped s0, none) else stepRecord s0 { r0 with result := 2, reason := c.abort }
  else
    let s1 := calLeave s0 tgt c
    if why = 0 && c.auto && (inDeadband s cs || s.cal.count == 0xFFFFFFFF) then (blindSkipped s1, none)
    else
      let r1 := { r0 with entries := calEntries s cs, delta := calDelta (cs.map (fun (x : Nat × Nat × Int) => x.2.2 - calValue s x.1 x.2.1)),
                          spread := calSpread s tgt c m }
      if why = 0 then
        let y := stepAccept s1 tgt (nextGrain s tgt) c.step cs r1
        (y.1, some y.2)
      else
        let k := stepRecord s1 { r1 with result := 1, reason := why }
        (raiseFault k.1 (0x1216 + tgt) {}, k.2)

/-- Begin a step of the blind schedule, with the first grain that does not carry the CAL of values just placed. -/
def blindStart (s : State) (tgt step : Nat) : State :=
  let g := nextGrain s tgt
  s.setCalStep tgt (some { step := step, blind := true, auto := true, input := calInput s tgt, atten := calAtten s tgt,
                           first := if (s.str tgt).cur.cal.any (fun w => decide (w.1 ≤ g ∧ g < w.2)) then g + 1 else g })

/-- The record of a CAL_RUN step is written and the command completes; while a panic is raised the control processor receives no memory cycles
(R27), so that the command waits for the end of the transfer. -/
def calRecordOut (s : State) (p : InProg) (c : CalStep) (r : CalRecord) : State :=
  let status := if r.result = 0 then 0 else stFaulted
  if panicUp s then
    let q := { p with unit_ := transferWait, data := transferData status 2 (calResult r) c.region c.offset r.bytes }
    { s with host := { s.host with inProg := s.host.inProg.map (fun e => if e = p then q else e) } }
  else finish (regWrite s c.region c.offset r.bytes) p status 2 (calResult r)

/-- A calibration step ends (R302 to R311): its candidate is checked and its record made. `m` is what was measured; where the measurement has
not taken all that it needs, and nothing has aborted it, it goes on. -/
def execCalStepEnd (t tgt : Nat) (m : Measured) (s : State) : Host.Outcome State Fault Refusal :=
  act t s fun s =>
    match s.calStep tgt with
    | none => s
    | some c =>
      if c.abort = 0 && !measuredAll tgt c then s else
      let r := stepEnd s tgt c m
      if c.auto then
        let b := r.1.calBlind tgt
        let s1 := match r.2 with
          | some rec => if b.on && b.ring ≠ noHandle then recPull (ringWrite r.1 b.ring rec.bytes).1 else r.1
          | none => r.1
        if c.step = 0 && b.on && b.ilv then blindStart s1 tgt 1 else s1
      else
        match r.2, waiting r.1 0x0301 tgt with
        | some rec, p :: _ => calRecordOut r.1 p c rec
        | _, _ => r.1

/-- Every PERIOD the scheduled blind steps of a target run, OFFSET first (R311); the first time one PERIOD after the schedule was made (DESIGN
CHOICE, log 54). -/
def execBlindRun (t tgt : Nat) (s : State) : Host.Outcome State Fault Refusal :=
  act t s fun s =>
    let b := s.calBlind tgt
    if !b.on || !(b.offset || b.ilv) || s.now < b.due then s else
    let s1 := s.setCalBlind tgt { b with due := b.due + b.period * 1600000000 }
    if (s1.calStep tgt).isSome then blindSkipped s1 else blindStart s1 tgt (if b.offset then 0 else 1)

/-! ## Commands -/

/-- A stimulus step takes its target's path (R299, R309): the grains from the next boundary on carry CAL. An ATTEN step sets its first code. -/
def calTake (s : State) (tgt : Nat) (c : CalStep) : State :=
  let s1 := s.setCalStep tgt (some c)
  if c.blind then s1 else
  let s2 := { s1 with cal := { s1.cal with stim := some tgt }, fe := { s1.fe with calOwn := tput false s1.fe.calOwn tgt true } }
  let s3 := s2.modStr tgt (fun x => { x with cur := { x.cur with calFrom := some c.first } })
  match c.codes with
  | a :: l => if c.step = 4 then attenCode s3 tgt c a l else s3
  | [] => s3

/-- TONE_FREQ or TONE_LEVEL of a TONE is out of range (Table 9-9). -/
def toneBad (s : State) (tgt b : Nat) : Bool :=
  fld b 4 4 == 2 && (decide (fld b 64 32 < 100000 ∨ 18000000 < fld b 64 32 ∨ 40000 * nsOf s tgt < fld b 64 32) ||
    decide (sfld b 96 16 < -6000 ∨ 1800 < sfld b 96 16))

/-- The state that CAL_RUN needs (R309, check 3): the stream runs, an RF input is routed for steps 2 to 4, the target of steps 1 and 5 is a
pair, and the input has not tripped. -/
def calReady (s : State) (tgt step : Nat) : Bool :=
  let src := s.source tgt
  (s.str tgt).running && (!decide (2 ≤ step ∧ step ≤ 4) || decide (src < 4)) && ((step != 1 && step != 5) || decide (4 ≤ tgt)) &&
  !(src < 4 && (s.inp src).tripped)

/-- CAL_RUN (R308, R309). A stimulus step does not take a path that a host command has changed in the same tick (R42). -/
def execCalRun (c : Cmd) (p : Block) (s : State) : Host.Outcome State Fault Refusal :=
  zci 0x0301 4 (fun _ => [(0, 3), (4, 4), (8, 1), (64, 32), (96, 16), (112, 16), (128, 64)]) c p s fun b s =>
    let tgt := fld b 0 3
    let step := fld b 4 4
    let h := fld b 112 16
    let off := fld b 128 64
    let stim := decide (2 ≤ step ∧ step ≤ 6)
    let known := tgt < 6
    chk [(s.flt.signBad, stFaulted), (known && !ownsTarget s c.session.val tgt, stBusy), (!regOwned s c.session.val h, stBusy),
         ((stim && (s.cal.stim.isSome || (known && tget 0 s.fe.changedAt tgt == s.now + 1))) || (known && (s.calStep tgt).isSome), stBusy),
         (known && !calReady s tgt step, stState), (known && step == 4 && strHeld s tgt, stState),
         (!known || decide (7 ≤ step) || off % 64 != 0, stInvalid), (toneBad s tgt b || regPast s h off 8352, stRange),
         (s.cal.count == 0xFFFFFFFF, stDenied)]
      (let a := calAtten s tgt
       .laterR (calTake s tgt { step := step, blind := !stim, region := h, offset := off, first := nextGrain s tgt, input := calInput s tgt, atten := a,
                                refPort := bit b 8, freq := fld b 64 32, level := sfld b 96 16,
                                codes := if step = 4 then (List.range 11).filter (· ≠ a) else [] }) tgt [b] [h])

/-- CAL_SET_BLIND (R308, R311). -/
def execCalSetBlind (c : Cmd) (p : Block) (s : State) : Host.Outcome State Fault Refusal :=
  zci 0x0302 1 (fun _ => [(0, 3), (3, 1), (4, 1), (5, 1), (16, 16), (32, 16)]) c p s fun b s =>
    let tgt := fld b 0 3
    let on := bit b 3
    let h := fld b 32 16
    chk ([(decide (tgt < 6) && !ownsTarget s c.session.val tgt, stBusy), (on && h != noHandle && !regOwned s c.session.val h, stBusy),
          (decide (6 ≤ tgt) || (bit b 5 && decide (tgt < 4)), stInvalid), (on && h != noHandle && !isRecRing s h, stInvalid),
          (on && (fld b 16 16 == 0 || decide (3600 < fld b 16 16)), stRange), (on && !(s.str tgt).running, stState)])
      (let x : Blind := { on := true, offset := bit b 4, ilv := bit b 5, period := fld b 16 16, due := s.now + fld b 16 16 * 1600000000, ring := h,
                          session := c.session.val }
       .ok (s.setCalBlind tgt (if on then x else {})) 0 0)

/-- The items of CAL_RESTORE for a target (R310). -/
def restoreItems (s : State) (tgt : Nat) : List (Nat × Nat) :=
  let src := s.source tgt
  let cs := calConvs tgt
  cs.map (fun c => (1, c)) ++ cs.map (fun c => (2, c)) ++
  (if src < 5 then (List.range 11).map (fun a => (3, igainRow s tgt + a)) else []) ++
  (if src < 5 || 4 ≤ tgt then (List.range 180).map (calResp s tgt) else []) ++
  (if 4 ≤ tgt then [(6, tgt - 4), (7, tgt - 4)] else []) ++ cs.map (fun c => (8, c))

/-- CAL_RESTORE (R308, R310). -/
def execCalRestore (c : Cmd) (p : Block) (s : State) : Host.Outcome State Fault Refusal :=
  zci 0x0303 1 (fun _ => [(0, 3), (16, 16), (32, 32)]) c p s fun b s =>
    let tgt := fld b 0 3
    let h := fld b 16 16
    let off := 64 * fld b 32 32
    chk [(s.flt.signBad, stFaulted), (decide (tgt < 6) && !ownsTarget s c.session.val tgt, stBusy), (!regOwned s c.session.val h, stBusy),
         (decide (6 ≤ tgt), stInvalid), (regPast s h off 8352, stRange), (s.cal.count == 0xFFFFFFFF, stDenied)]
      (let cs := (restoreItems s tgt).map (fun i => (i.1, i.2, calFactory s i.1 i.2))
       let r := { newRecord s tgt 0x11 (calInput s tgt) (calAtten s tgt) with
         entries := calEntries s cs, delta := calDelta (cs.map (fun x => x.2.2 - calValue s x.1 x.2.1)) }
       let y := stepAccept s tgt (nextGrain s tgt) 0x11 cs r
       copyOut y.1 h off y.2.bytes 2 (calResult y.2))

/-- The bytes of CAL_READ (R312). -/
def calReadBytes (s : State) : List Byte :=
  toBytes (pack [(32, s.cal.count), (80, s.cal.lastTime), (16, 3867)]) 64 ++
  calItems.flatMap (fun i => entryBytes (i.1, i.2, enc 32 (calOld s i.1 i.2), enc 32 (calNow s i.1 i.2)))

/-- CAL_READ (R312): consistent as of the tick at which it is applied. -/
def execCalRead (c : Cmd) (p : Block) (s : State) : Host.Outcome State Fault Refusal :=
  zci 0x0304 2 (fun _ => [(0, 16), (64, 64)]) c p s fun b s =>
    let h := fld b 0 16
    let off := fld b 64 64
    chk [(!regOwned s c.session.val h, stBusy), (off % 64 != 0, stInvalid), (regPast s h off 61936, stRange)]
      (copyOut s h off (calReadBytes s) 0 0)

/-- CAL_GET_RECORD (R313). -/
def execCalGetRecord (c : Cmd) (p : Block) (s : State) : Host.Outcome State Fault Refusal :=
  zci 0x0305 2 (fun _ => [(0, 6), (16, 16), (64, 64)]) c p s fun b s =>
    let h := fld b 16 16
    let off := fld b 64 64
    let r := s.cal.records.getD (fld b 0 6) {}
    chk [(!regOwned s c.session.val h, stBusy), (off % 64 != 0, stInvalid),
         (decide (s.cal.records.length ≤ fld b 0 6) || regPast s h off r.len, stRange)]
      (copyOut s h off r.bytes 1 r.len)

/-- CAL_GET_STATUS (R314, Table 9-10). -/
def execCalGetStatus (c : Cmd) (p : Block) (s : State) : Host.Outcome State Fault Refusal :=
  zci 0x0306 1 (fun _ => [(8, 1)]) c p s fun b s =>
    let k := s.cal
    let six := List.range 6
    .ok (if bit b 8 then { s with cal := { k with blindSkip := 0 } } else s) 4
      (pack ([(32, k.count), (80, k.lastTime), (64, k.lastUtc), (1, b2n k.utcValid), (1, b2n k.stim.isSome), (4, k.stim.getD 15), (2, 0)] ++
        six.map (fun t => (1, b2n (s.calT t).drift)) ++ [(2, 0)] ++ six.map (fun t => (1, b2n (s.calBlind t).on)) ++
        [(26, 0), (32, k.blindSkip)]))

/-! ## The end of a TIU table test (R284, R291) -/

/-- The candidate table: D_c = round(65,536 × counts below c / H). -/
def tiuCandidate (counts : List Nat) : List Nat :=
  let d := fun c => if c = 192 then 65536 else (roundEven (65536 * (counts.take c).sum : Nat) 2097152).toNat
  (List.range 192).map (fun c => d (c + 1) - d c)

/-- One command of the inputs that a test served: it completes with the last of them (R286). -/
def tiuTestShare (n : Nat) (ok : Bool) (s : State) (p : InProg) : State :=
  let acc := p.data.headD 0 + (if ok then 2^n else 0)
  let rej := p.data.getD 1 0 + (if ok then 0 else 2^n)
  if (maskBits 9 p.unit_).all (fun i => !(s.tiuIn i).testing) then
    finish s p (if rej = 0 then 0 else stFaulted) 1 (pack [(9, acc), (7, 0), (9, rej)])
  else { s with host := { s.host with inProg := s.host.inProg.map (fun q => if q = p then { p with data := [acc, rej] } else q) } }

/-- The test of input n has found the bin widths `w`: they are accepted, or, with one outside its limits, rejected, and a record is kept. -/
def tiuTestDone (s : State) (n : Nat) (w : List Nat) : State :=
  let x := s.tiuIn n
  let out := (List.range 192).filter (fun i => w.getD i 0 < 85 || 1365 < w.getD i 0)
  let ok := out.isEmpty
  let s1 := if ok then calCount (s.setTiuIn n { x with testing := false, bins := some w, uncal := false, calTj := s.pwr.tj }) (stampOf s.now)
            else s.setTiuIn n { x with testing := false }
  let es := (List.range 192).map (fun i => (11, 256 * n + i, x.widths.getD i 0, w.getD i 0))
  let k := keepRecord s1 { newRecord s 0 0x10 n 0xFF with
    target := 6, result := b2n (!ok), reason := if ok then 0 else 11, count := s1.cal.count, stream := 0xFF, entries := es,
    delta := calDelta ((List.range 192).map (fun i => (w.getD i 0 : Int) - x.widths.getD i 0)) }
  let s2 := post k.1 0x0804 (pack [(4, n), (1, b2n ok), (3, 0), (8, out.headD 0xFF), (16, (out.head?.map (fun i => w.getD i 0)).getD 0)])
  let s3 := if ok then s2 else raiseFault s2 (0x1100 + 4 * n + 2) {}
  (s3.host.inProg.filter (fun p => p.opcode == 0x0806 && bit p.unit_ n)).foldl (tiuTestShare n ok) s3

/-- One input's test ends with the counts of its codes: the candidate is accepted or rejected, recorded and posted; the
command completes with the last test. -/
def execTiuCalTestEnd (t n : Nat) (counts : List Nat) (s : State) : Host.Outcome State Fault Refusal :=
  act t s fun s => if !(s.tiuIn n).testing then s else tiuTestDone s n (tiuCandidate counts)

end Sys2Proof.Machine
end

