-- ==== Sys2Proof/Machine/Mon.lean ====
section
/-! DEFINITION. The monitor commands of group 0x07, the monitor rounds and snapshots (06_channel_monitors.md R205 to R233). -/

namespace Sys2Proof.Machine

/-! ## Configuration of a context (R205, R206, R211, R227) -/

/-- Fields of Table 6-6. -/
def ctxFields : List (Nat × Nat) :=
  [(0, 16), (16, 1), (20, 4), (24, 6), (32, 24), (56, 13), (72, 3), (75, 2), (77, 3), (80, 5), (88, 16), (104, 12), (116, 4), (120, 1),
   (128, 20), (148, 20), (168, 20), (192, 32), (224, 16)]

/-- The calling session owns a context's block (R205). -/
def ownsCtx (s : State) (n c : Nat) : Bool := owns s n 0x0E (c / 256)

/-- Slots a round holds (R211). -/
def roundSlots : Nat := 4000

/-- The configuration of a block as a context, before its PHASE. -/
def ctxOf (b : Nat) : Ctx := { on := true, lane := fld b 20 4, p := b }

/-- The detector and time constants of a configuration agree (R214, R216, Table 6-6). -/
def Ctx.tausOk (x : Ctx) : Bool :=
  !((x.det == 3 && x.preset == 4) || (x.det == 3 && x.preset == 0 && (x.taus.1 == 0 || x.taus.2.1 == 0)) ||
    (x.det == 4 && x.preset == 0 && x.taus.2.2 == 0))

/-- A change that resets the history and zeroes the record (R227). -/
def Ctx.restarts (x y : Ctx) : Bool :=
  x.lane != y.lane || x.firstBin != y.firstBin || x.bins != y.bins || x.reduce != y.reduce || x.det != y.det || x.interval != y.interval ||
  ((y.det == 3 || y.det == 4) && x.taus != y.taus)

/-- The enabled contexts without context c. -/
def otherCtxs (s : State) (c : Nat) : List Ctx := ((s.mon.ctxs.filter (fun e => e.2.on && e.1 != c)).map (·.2))

/-- PHASE of a context configured now, and the largest round load with it (R211). -/
def ctxPhase (s : State) (c : Nat) (y : Ctx) : Nat × Nat :=
  let x := s.ctx c
  let l := otherCtxs s c
  if x.on && x.log2k = y.log2k then (x.phase, loadMax ({ y with phase := x.phase } :: l)) else bestPhase l y

/-- One block of Table 6-6 is checked and applied: the status, or the new state. `adm` says that R211 is judged with it. -/
def ctxSet (adm : Bool) (n b : Nat) (s : State) : Reply :=
  let c := fld b 0 16
  let x := s.ctx c
  let y := ctxOf b
  let en := bit b 16
  let ph := ctxPhase s c y
  chk [(!ownsCtx s n c, stBusy),
       (en && (decide (12 ≤ y.lane) || y.bins == 0 || decide (4 < y.det) || y.reduce == 3 || (decide (3 ≤ y.det) && decide (4 < y.preset)) || !y.tausOk), stInvalid),
       (en && (oddOfPair s y.lane || !(s.lane y.lane).on), stState),
       (en && decide (4096 < y.bins ∨ 16 < y.log2k), stRange), (en && !binsIn s y.lane y.firstBin y.bins, stRange),
       (adm && en && decide (roundSlots < ph.2), stNoRes)]
    (if !en then .ok (s.setCtx c { x with on := false }) 1 0
     else
      let z : Ctx := { x with on := true, lane := y.lane, p := b, phase := ph.1, taken := if x.lane = y.lane then x.taken else none }
      let z1 := if x.restarts y then z.zeroed else if x.on then z else z.resetHist
      .ok (s.setCtx c z1) 1 (pack [(16, ph.1), (5, y.log2k), (11, 0), (32, lMon s z1)]))

/-- MON_SET_CONTEXT (R227). -/
def execMonSetContext (c : Cmd) (p : Block) (s : State) : Host.Outcome State Fault Refusal :=
  zci 0x0701 4 (fun _ => ctxFields) c p s fun b s =>
    atCeiling (bit b 16 && !(s.ctx (fld b 0 16)).on) [b] s (ctxSet true c.session.val b s)

/-! ## MON_LOAD (R228) -/

/-- Apply blocks in order; the first failure gives its status and index. -/
def loadBlocks (adm : Bool) (n : Nat) : List Nat → Nat → List Nat → State → Reply
  | [], _, _, s => .ok s 0 0
  | b :: r, i, seen, s =>
    let c := fld b 0 16
    if !rsvOk b 4 ctxFields || (seen.contains c && ownsCtx s n c) then .failWith s stInvalid 1 i
    else match ctxSet adm n b s with
      | .fail st => .failWith s st 1 i
      | .ok s1 _ _ => loadBlocks adm n r (i + 1) (c :: seen) s1
      | _ => .failWith s stInvalid 1 i

/-- MON_LOAD's blocks, all or none (R228): R211 is judged for the whole set. Where the set does not fit, the failing block is the
first that leaves a round above its slots when the blocks are taken in order (DESIGN CHOICE, log 48). -/
def bodyMonLoad (n : Nat) (blocks : List Nat) (s : State) : Reply :=
  match loadBlocks false n blocks 0 [] s with
  | .ok s1 rl r =>
    if loadMax (enabledCtxs s1) ≤ roundSlots then .ok s1 rl r
    else match loadBlocks true n blocks 0 [] s with
      | .failWith _ st rl r => .failWith s st rl r
      | r => r
  | .failWith _ st rl r => .failWith s st rl r
  | r => r

/-- MON_LOAD (R228); `data` are the 32-byte blocks the engine reads from host memory. -/
def execMonLoad (c : Cmd) (p : Block) (data : List Nat) (s : State) : Host.Outcome State Fault Refusal :=
  zci 0x0702 2 (fun _ => [(0, 17), (64, 64)]) c p s fun b s =>
    let k := fld b 0 17
    let blocks := (List.range k).map (fun i => data.getD i 0)
    chk [(fld b 64 64 % 32 != 0, stInvalid), (decide (k < 1 ∨ 65536 < k), stRange)]
      (match bodyMonLoad c.session.val blocks s with
       | .ok s1 rl r => atCeiling (blocks.any (fun b => bit b 16)) blocks s (.ok s1 rl r)
       | r => r)

/-! ## Clear, snapshot, readout (R223 to R231) -/

/-- The calling session owns every context of a range. -/
def ownsRange (s : State) (n a z : Nat) : Bool := (List.range (z / 256 + 1 - a / 256)).all (fun i => owns s n 0x0E (a / 256 + i))

/-- MON_CLEAR (R229). -/
def execMonClear (c : Cmd) (p : Block) (s : State) : Host.Outcome State Fault Refusal :=
  zci 0x0703 1 (fun _ => [(0, 16), (16, 16)]) c p s fun b s =>
    let a := fld b 0 16
    let z := fld b 16 16
    chk [(!ownsRange s c.session.val a z, stBusy), (decide (z < a), stInvalid)]
      (.ok ((s.mon.ctxs.filter (fun e => decide (a ≤ e.1 ∧ e.1 ≤ z))).foldl (fun t e => t.modCtx e.1 Ctx.zeroed) s) 0 0)

/-- The round that contains the present tick. -/
def roundNow (s : State) : Nat := s.now / 1600

/-- The snapshot header (R225). -/
def snapHeader (s : State) (a z : Nat) : Nat :=
  pack [(16, a), (16, z), (80, timeRead s), (4, s.spec.shed), (12, 0), (32, roundNow s), (352, 0)]

/-- MON_SNAPSHOT (R223, R230): the range is frozen at this tick. -/
def execMonSnapshot (c : Cmd) (p : Block) (s : State) : Host.Outcome State Fault Refusal :=
  zci 0x0704 2 (fun _ => [(0, 16), (16, 16), (32, 16), (64, 64)]) c p s fun b s =>
    let a := fld b 0 16
    let z := fld b 16 16
    let h := fld b 32 16
    let off := fld b 64 64
    chk [(!ownsRange s c.session.val a z || !regOwned s c.session.val h, stBusy), (decide (z < a) || off % 64 != 0, stInvalid), (s.mon.snap, stBusy),
         (regPast s h off (64 * (z - a + 2)), stRange)]
      (.laterR { s with mon := { s.mon with
          snap := true, snapAddr := (s.reg h).addr + off,
          snapData := snapHeader s a z :: (List.range (z + 1 - a)).map (fun i => ctxRecord (a + i) (s.ctx (a + i))) } } 0 [] [h])

/-- The write of a snapshot ends and MON_SNAPSHOT completes (R223). -/
def execMonSnapshotWriteEnd (t : Nat) (s : State) : Host.Outcome State Fault Refusal :=
  act t s fun s =>
    if !s.mon.snap then s else
    let s1 := memWrite s s.mon.snapAddr (s.mon.snapData.flatMap (fun v => toBytes v 64))
    let s2 := { s1 with mon := { s1.mon with snap := false, snapData := [], snapAddr := 0 } }
    (waiting s2 0x0704 0).foldl (fun a q => finish a q 0 2 (stampOf q.applied)) s2

/-- MON_READ (R224, R231). -/
def execMonRead (c : Cmd) (p : Block) (s : State) : Host.Outcome State Fault Refusal :=
  zci 0x0705 1 (fun _ => [(0, 16)]) c p s fun b s => .ok s 8 (ctxRecord (fld b 0 16) (s.ctx (fld b 0 16)))

/-- MON_SET_LOG (R226, R231). -/
def execMonSetLog (c : Cmd) (p : Block) (s : State) : Host.Outcome State Fault Refusal :=
  zci 0x0706 1 (fun _ => [(0, 16)]) c p s fun b s =>
    let n := c.session.val
    let h := fld b 0 16
    chk (if h = noHandle then [] else ringChecks s n h)
      (.ok { s with mon := { s.mon with logs := tput 0 s.mon.logs n (if h = noHandle then 0 else h + 1) } } 0 0)

/-- MON_GET_STATUS (R232, Table 6-7). -/
def execMonGetStatus (c : Cmd) (p : Block) (s : State) : Host.Outcome State Fault Refusal :=
  zci 0x0707 1 (fun _ => [(8, 1)]) c p s fun b s =>
    let m := s.mon
    .ok (if bit b 8 then { s with mon := { m with evLost := 0, logLost := 0 } } else s) 4
      (pack [(17, (enabledCtxs s).length), (3, 0), (4, cadence s), (12, loadMax (enabledCtxs s)), (12, m.loadNow), (1, b2n m.snap), (15, 0),
        (32, m.evLost), (32, m.logLost), (128, 0)])

/-! ## Rounds (R210 to R221) -/

/-- MONITOR_ROUND: the contexts whose turn it is, in context order; at most once in a round. MONITOR terms then report
progress to where their latency bound lies (R133, R222). -/
def execMonitorRound (t : Nat) (s : State) : Host.Outcome State Fault Refusal :=
  act t s fun s =>
    if s.now % 1600 ≠ 0 || s.mon.lastRound = roundNow s + 1 then s else
    let due := monDue s (roundNow s)
    let slots := (due.map (fun c => (s.ctx c).slots)).sum
    let prev := if s.mon.lastRound = roundNow s then s.mon.loadCur else 0
    let s1 := (due.foldl monTurn (s, 0)).1
    let s2 := perfAdd { s1 with mon := { s1.mon with lastRound := roundNow s + 1, loadNow := prev, loadCur := slots } } 0x10 0 slots
    typeProgress (recPull s2) 7 (fun x =>
      let b := termBound s2 x
      stampOf s2.now - ceilDiv (b.num.toNat * 65536) b.den)

/-- The end of a 1 ms period in which monitor events were lost (R221). -/
def execMonEvlost (t : Nat) (s : State) : Host.Outcome State Fault Refusal :=
  act t s fun s =>
    let n := s.mon.evPer.ended s.now
    if n = 0 then s
    else post { s with mon := { s.mon with evPer := s.mon.evPer.reported s.now } } 0x0705 (pack [(32, n), (32, s.mon.evLost)])

end Sys2Proof.Machine
end

