-- ==== Sys2Proof/Machine/Governor.lean ====
section
/-! DEFINITION. The throughput governor: the core supply, the shed level, and the commands that wait for the ceiling
(03_spectral_engine.md R101 to R104, R114). -/

namespace Sys2Proof.Machine

/-- One step of the shed level (R104): the event, and the governor fault source. -/
def shedStep (s : State) (level : Nat) : State :=
  let up := decide (s.spec.shed < level)
  let s1 := { s with spec := { s.spec with shed := level, shedMax := s.spec.shedMax ++ [(s.now, level)] } }
  let s2 := post s1 (if up then 0x0401 else 0x0402) (pack [(4, level), (4, s.spec.shed), (16, marginOf s 32), (16, s.spec.vcore)])
  let s3 := if up then perfAdd s2 4 0 1 else s2
  raiseFault s3 0x0A74 {}

/-- Raise the shed level to at least `level`, step by step. -/
def shedTo (s : State) (level : Nat) : State := (List.range (level - s.spec.shed)).foldl (fun a _ => shedStep a (a.spec.shed + 1)) s

/-- The shed level that the thermal stage in force holds (Table 16-6). -/
def thermalShed (s : State) : Nat := if s.pwr.stage = 3 then 9 else if s.pwr.stage = 2 then 3 else 0

/-- A session holds the ceiling, or a command waits for it. -/
def ceilingHeld (s : State) : Bool :=
  s.spec.holds.any (·.2) || s.spec.supplyFault || s.host.inProg.any (fun p => p.unit_ == ceilingWait)

/-- A condition has held for `ct` ticks. -/
def heldFor (s : State) (o : Option Tick) (ct : Nat) : Bool := o.any (fun t => decide (t + ct ≤ s.now))

/-- A time of the governor counts anew from the present tick. -/
def State.setGov (s : State) (f : Gov → Gov) : State := { s with spec := { s.spec with gov := f s.spec.gov } }

/-- A step up every 2 µs while the smallest margin is below 20 % (Table 3-7). `ms` are the margins measured now. -/
def execGovRaiseStep (t : Nat) (ms : List (Nat × Nat)) (s : State) : Host.Outcome State Fault Refusal :=
  act t s fun s =>
    let s := measure s ms
    if mMin s < 2000 && s.spec.vcore < 850 && s.spec.gov.raiseAt.all (fun t => decide (t + 3200 ≤ s.now)) then
      (setSupply s (min 850 (s.spec.vcore + 10))).setGov (fun g => { g with raiseAt := some s.now })
    else s

/-- A step down after each 1 ms above 30 % with no session holding the ceiling (Table 3-7). -/
def execGovLowerStep (t : Nat) (ms : List (Nat × Nat)) (s : State) : Host.Outcome State Fault Refusal :=
  act t s fun s =>
    let s := measure s ms
    if heldFor s s.spec.gov.lowFrom 1600000 && !ceilingHeld s && 600 < s.spec.vcore then
      (setSupply s (max 600 (s.spec.vcore - 5))).setGov (fun g => { g with lowFrom := some s.now })
    else s

/-- The shared-segment margin below 15 % for each 20 µs at the ceiling (Table 3-7). -/
def execGovShed (t : Nat) (ms : List (Nat × Nat)) (s : State) : Host.Outcome State Fault Refusal :=
  act t s fun s =>
    let s := measure s ms
    if heldFor s s.spec.gov.shedFrom 32000 && s.spec.shed < 9 then
      (shedStep s (s.spec.shed + 1)).setGov (fun g => { g with shedFrom := some s.now })
    else s

/-- The smallest margin at or above 30 % for 10 ms with the supply at or below 0.80 V (Table 3-7): a thermal stage holds its level. A further step
takes a further 10 ms (DEDUCED, log 51). -/
def execGovRestore (t : Nat) (ms : List (Nat × Nat)) (s : State) : Host.Outcome State Fault Refusal :=
  act t s fun s =>
    let s := measure s ms
    if heldFor s s.spec.gov.restFrom 16000000 && s.spec.vcore ≤ 800 && thermalShed s < s.spec.shed then
      (shedStep s (s.spec.shed - 1)).setGov (fun g => { g with restFrom := some s.now })
    else s

/-- What a command that waited for the ceiling now does. -/
def ceilingBody (p : InProg) (s : State) : Reply :=
  let b := p.data.headD 0
  if p.opcode = 0x0401 then bodySetLane p.session b s
  else if p.opcode = 0x0403 then bodySetDdc p.session b s
  else if p.opcode = 0x0405 then bodySetTrace p.session b s
  else if p.opcode = 0x0601 then bodySetMap p.session b s
  else if p.opcode = 0x0701 then ctxSet true p.session b s
  else bodyMonLoad p.session p.data s

/-- A command that waited is applied now (R103). -/
def ceilingApply (s : State) (p : InProg) : State :=
  let s1 := { s with host := { s.host with inProg := s.host.inProg.erase p } }
  let c : Cmd := { t := s.now, session := Fin.ofNat 16 p.session, tag := BitVec.ofNat 16 p.tag, plen := 0, fence := false, timeout := 0, rsv := 0 }
  reply p.opcode c s1 (ceilingBody p s1)

/-- The direct ramp to 0.85 V ends, or the supply has come there otherwise (R103): the commands that waited are applied, in the order they were
taken up. -/
def execCeilingRampEnd (t : Nat) (s : State) : Host.Outcome State Fault Refusal :=
  act t s fun s =>
    if !ceilingHeld s then s else
    (s.host.inProg.filter (fun p => p.unit_ == ceilingWait)).foldl ceilingApply (setSupply s 850)

end Sys2Proof.Machine
end

