-- ==== Sys2Proof/Machine/GroveCmd.lean ====
section
/-! DEFINITION. The Grove commands of group 0x09 and the events of cores and feeds (10_grove_dsp_cluster.md). -/

namespace Sys2Proof.Machine

/-- The calling session owns the grove of a core. -/
def ownsCore (s : State) (sess n : Nat) : Bool := owns s sess 0x0F (n / 8)

/-- A core that is RUNNING or WAITING. -/
def coreRuns (s : State) (n : Nat) : Bool := (s.core n).st == 1 || (s.core n).st == 2

/-! ## Commands on cores -/

/-- GROVE_LOAD (R348): `data` is what the bus master read gives; the copy ends at COMMAND_TRANSFER_END. -/
def execGroveLoad (c : Cmd) (p : Block) (data : List Nat) (s : State) : Host.Outcome State Fault Refusal :=
  zci 0x0901 4 (fun _ => [(0, 6), (32, 32), (64, 32), (128, 64)]) c p s fun b s =>
    let n := fld b 0 6
    let dest := fld b 32 32
    let len := fld b 64 32
    chk [(!ownsCore s c.session.val n, stBusy), (dest % 4 != 0 || fld b 128 64 % 4 != 0, stInvalid), (coreRuns s n, stState),
         (decide (len < 4 ∨ 262144 < len ∨ len % 4 ≠ 0 ∨ 262144 < dest + len), stRange)]
      (.later s n (dest :: (data ++ List.replicate len 0).take len))

/-- A core as GROVE_START leaves it (R349): scratchpad and counts of earlier runs stay. -/
def GCore.started (x : GCore) (pc : Nat) (g : List Nat) (at_ : Tick) : GCore :=
  (List.range 4).foldl (fun c k => c.wrG 0 k (BitVec.ofNat 32 (g.getD k 0)))
    { st := 1, cause := x.cause, faddr := x.faddr, pc := pc, startAt := at_, userLost := x.userLost, userAt := x.userAt, spad := x.spad, posted := x.posted }

/-- Start the cores of a mask, whose first instruction issues at tick `at_`. -/
def startCores (s : State) (cores pc : Nat) (g : List Nat) (at_ : Tick) : State :=
  (maskBits 64 cores).foldl (fun a n => a.modCore n (fun x => x.started pc g at_)) s

/-- GROVE_START (R349). -/
def execGroveStart (c : Cmd) (p : Block) (s : State) : Host.Outcome State Fault Refusal :=
  zci 0x0902 6 (fun _ => [(0, 64), (64, 18), (128, 64), (192, 32), (224, 32), (256, 32), (288, 32)]) c p s fun b s =>
    let m := maskBits 64 (fld b 0 64)
    let pc := fld b 64 18
    let at_ := fld b 128 64
    let g := [fld b 192 32, fld b 224 32, fld b 256 32, fld b 288 32]
    chk [(m.isEmpty, stInvalid), (m.any (fun n => !ownsCore s c.session.val n), stBusy), (m.any (fun n => coreRuns s n), stState),
         (pc % 4 != 0, stInvalid), (tickBad s at_, stRange)]
      (if at_ = 0 then .ok (startCores s (fld b 0 64) pc g (s.now + 1)) 2 (stampOf (s.now + 1))
       else .later { s with grove := { s.grove with starts := s.grove.starts ++ [(at_, fld b 0 64, pc, g)] } } 0 [at_])

/-- GROVE_START's AT_CT arrives. -/
def execGroveStartAtCt (t : Nat) (s : State) : Host.Outcome State Fault Refusal :=
  act t s fun s =>
    let due := s.grove.starts.filter (fun e => decide (e.1 ≤ s.now))
    let s1 := { s with grove := { s.grove with starts := s.grove.starts.filter (fun e => decide (s.now < e.1)) } }
    let s2 := due.foldl (fun a e => startCores a e.2.1 e.2.2.1 e.2.2.2 s.now) s1
    (s2.host.inProg.filter (fun q => q.opcode == 0x0902 && decide (q.data.headD 0 ≤ s.now))).foldl
      (fun a q => finish a q 0 2 (stampOf a.now)) s2

/-- GROVE_STOP (R350). -/
def execGroveStop (c : Cmd) (p : Block) (s : State) : Host.Outcome State Fault Refusal :=
  zci 0x0903 2 (fun _ => [(0, 64)]) c p s fun b s =>
    let m := maskBits 64 (fld b 0 64)
    chk [(m.any (fun n => !ownsCore s c.session.val n), stBusy), (m.isEmpty, stInvalid)]
      (.ok (m.foldl (fun a n => if coreRuns a n then coreStop a n 5 0 else a) s) 0 0)

/-- GROVE_SET_SHADOW (R351, R336). -/
def execGroveSetShadow (c : Cmd) (p : Block) (s : State) : Host.Outcome State Fault Refusal :=
  zci 0x0904 5 (fun b => [(0, 6), (8, 1), (16, 3)] ++
      (List.range (min 4 (fld b 16 3))).flatMap (fun e => [(64 * e + 64, 6), (64 * e + 96, 32)])) c p s fun b s =>
    let n := fld b 0 6
    let k := fld b 16 3
    let ents := (List.range (min 4 k)).map (fun e => (fld b (64 * e + 64) 6, fld b (64 * e + 96) 32))
    chk [(!ownsCore s c.session.val n, stBusy), (k == 0 && !bit b 8, stInvalid), (ents.any (fun e => !specOk e.1), stInvalid),
         (!coreRuns s n, stState), (decide (4 < k), stRange)]
      (let s1 := ents.foldl (fun a e => stageWrite a n e.1 e.2) s
       .ok (if bit b 8 then s1.modCore n (fun x => { x with raiseAt := x.raiseAt ++ [(1, s.now + 1)] }) else s1) 0 0)

/-- GROVE_READ (R354): the copy ends at COMMAND_TRANSFER_END. -/
def execGroveRead (c : Cmd) (p : Block) (s : State) : Host.Outcome State Fault Refusal :=
  zci 0x0907 4 (fun _ => [(0, 6), (32, 32), (64, 32), (96, 16), (128, 64)]) c p s fun b s =>
    let n := fld b 0 6
    let src := fld b 32 32
    let len := fld b 64 32
    let h := fld b 96 16
    let off := fld b 128 64
    chk [(!ownsCore s c.session.val n || !regOwned s c.session.val h, stBusy), (src % 4 != 0 || len % 4 != 0 || off % 64 != 0, stInvalid),
         (decide (len < 4 ∨ 262144 < len ∨ 262144 < src + len) || regPast s h off len, stRange)]
      (.laterR s n [src, len, h, off] [h])

/-- GROVE_GET_STATUS (R355, Table 10-15). -/
def execGroveGetStatus (c : Cmd) (p : Block) (s : State) : Host.Outcome State Fault Refusal :=
  zci 0x0908 1 (fun _ => [(0, 6), (8, 1)]) c p s fun b s =>
    let n := fld b 0 6
    let x := s.core n
    chk [(bit b 8 && !ownsCore s c.session.val n, stBusy)]
      (.ok (if bit b 8 then s.setCore n { x with userLost := 0 } else s) 4
        (pack [(3, x.st), (1, b2n x.inh), (4, x.cause), (7, 0), (1, b2n (x.ien.getLsbD 31)), (8, x.ipend.toNat), (8, x.ien.toNat), (32, x.pc),
          (32, x.faddr), (32, x.stat), (64, x.issued), (32, x.userLost), (8, x.barWait), (24, 0)]))

/-! ## Barriers -/

/-- GROVE_SET_BARRIER (R353). -/
def execGroveSetBarrier (c : Cmd) (p : Block) (s : State) : Host.Outcome State Fault Refusal :=
  zci 0x0906 2 (fun _ => [(0, 3), (8, 1), (64, 64)]) c p s fun b s =>
    let k := fld b 0 3
    let m := fld b 64 64
    chk [(!owns s c.session.val 0x11 k || (maskBits 64 m).any (fun n => !ownsCore s c.session.val n), stBusy),
         (bit b 8 && m == 0, stInvalid), ((s.bar k).arrived != 0, stState)]
      (.ok (s.setBar k (if bit b 8 then { on := true, members := m } else { s.bar k with on := false })) 0 0)

/-! ## Feed commands -/

/-- Fields of Table 10-14 that a KIND uses. -/
def feedFields (kind : Nat) : List (Nat × Nat) :=
  [(0, 5), (5, 1), (6, 2), (8, 6), (14, 2), (16, 1), (32, 32), (64, 16)] ++
  (if kind = 0 then [(18, 1), (24, 8), (80, 8), (128, 32)]
   else if kind = 1 then [(17, 1), (24, 8), (96, 24), (160, 24), (184, 24), (208, 17)]
   else if kind = 2 then [(96, 24), (240, 16), (256, 64), (320, 32)]
   else [(96, 24), (240, 16)])

/-- The first grain, or first grain of the first spectrum, that a feed takes (R352). -/
def feedFirst (s : State) (f : Feed) : Nat :=
  if f.kind = 0 then bindGrain s f.source
  else if f.kind = 1 then frameFrom s f.source (nextGrain s (s.lane f.source).run.source) / 256 else 0

/-- GROVE_SET_FEED (R342 to R346, R352). -/
def execGroveSetFeed (c : Cmd) (p : Block) (s : State) : Host.Outcome State Fault Refusal :=
  zci 0x0905 6 (fun b => feedFields (fld b 6 2)) c p s fun b s =>
    let i := fld b 0 5
    let n := fld b 8 6
    let k := fld b 6 2
    let f : Feed := { on := true, p := b, kind := k, core := n, session := c.session.val }
    let src := f.source
    chk [(!owns s c.session.val 0x10 i || !ownsCore s c.session.val n || (bit b 5 && k ≥ 2 && !regOwned s c.session.val f.handle), stBusy)]
    (if !bit b 5 then
      (if (s.feed i).on && (s.feed i).kind = 3 && (s.feed i).handed ≠ 0 then .later (feedDisable s i) i []
       else .ok (feedDisable s i) 2 0xFFFFFFFFFFFF)
    else
      chk [((k == 0 && decide (src < 16 ∨ 31 < src)) || (k == 1 && decide (11 < src)), stInvalid), (f.base % 64 != 0, stInvalid),
           (f.nbuf == 0 || (k == 0 && f.gpb == 0), stInvalid), (k != 0 && f.blk % 64 != 0, stInvalid), (k == 0 && f.hbase % 32 != 0, stInvalid),
           (k == 3 && !isRecRing s f.handle, stInvalid), (k == 2 && fld b 256 64 % 64 != 0, stInvalid),
           ((s.feed i).on, stState), (k == 0 && !strRuns s src, stState), (k == 1 && (!(s.lane src).on || oddOfPair s src), stState),
           (decide (1024 < f.nbuf) || (k != 0 && decide (f.blk < 64 ∨ 0x400000 < f.blk)), stRange),
           (!coreRange s n f.base (f.nbuf * f.blk) || (k == 0 && !coreRange s n f.hbase (32 * f.nbuf)), stRange),
           (k == 1 && (decide (fld b 184 24 < 1 ∨ 1048576 < fld b 184 24 ∨ f.decim < 1 ∨ 65536 < f.decim) ||
             !binsIn s src (sfld b 160 24) (fld b 184 24) || decide (f.blk < recordLen (fld b 184 24) f.f32)), stRange),
           (k == 2 && (fld b 320 32 == 0 || regPast s f.handle (fld b 256 64) (fld b 320 32 * f.blk)), stRange),
           (k == 3 && decide ((s.reg f.handle).size < f.blk), stRange),
           (decide (feedLimit < feedRate s f) || (k == 0 && decide (zoomLimit < strRate s src)) || (k ≤ 1 && decide (feedsLimit < feedLoads s + feedRate s f)), stNoRes)]
        (let s1 := s.setFeed i { f with first := feedFirst s f }
         .ok (if k = 0 then bindNow s1 (0x80 + i) src else s1) 2 (if k ≤ 1 then feedFirst s f % 2^48 else 0xFFFFFFFFFFFF)))

/-- GROVE_GET_FEED (R356, Table 10-16). -/
def execGroveGetFeed (c : Cmd) (p : Block) (s : State) : Host.Outcome State Fault Refusal :=
  zci 0x0909 1 (fun _ => [(0, 5), (8, 1)]) c p s fun b s =>
    let i := fld b 0 5
    let f := s.feed i
    chk [(bit b 8 && !owns s c.session.val 0x10 i, stBusy)]
      (.ok (if bit b 8 then s.setFeed i { f with dropped := 0, fcoll := 0 } else s) 4
        (pack [(1, b2n f.on), (2, f.kind), (6, f.core), (7, 0), (32, f.feedCnt.toNat), (32, f.coreCnt.toNat), (32, f.dropped), (32, f.fcoll),
          (48, if f.kind ≤ 1 then f.lastIdx else 0), (64, 0)]))

/-! ## Core events -/

/-- The hand-over (R334). -/
def execHandOver (t n : Nat) (s : State) : Host.Outcome State Fault Refusal :=
  act t s fun s =>
    let x := ((s.core n).settle (s.core n).issued).srSettle
    if x.handDue then s.setCore n (x.handOver s.now) else s

/-- The return from a handler (R337). -/
def execHandlerReturn (t n : Nat) (s : State) : Host.Outcome State Fault Refusal :=
  act t s fun s =>
    let x := s.core n
    if x.stall ≠ 5 then s else
    let y := x.flush
    s.setCore n { y with inh := false, stall := 0, pc := y.epc.toNat, liveIss := false }

/-- A WAIT ends without a hand-over (R335). -/
def execWaitEnd (t n : Nat) (s : State) : Host.Outcome State Fault Refusal :=
  act t s fun s =>
    let x := (s.core n).srSettle
    if x.stall ≠ 3 || x.pendEn = 0 || (x.ien.getLsbD 31 && x.interruptible) then s
    else s.setCore n { x with st := 1, stall := 0 }

/-- A commons load returns: the data reach Gd at the present position, in the bank of its issue (R320, R322). -/
def execCommonsLoadReturn (t n : Nat) (s : State) : Host.Outcome State Fault Refusal :=
  act t s fun s =>
    if (s.core n).stall ≠ 1 then s else
    let s1 := settlePosted s
    let x := s1.core n
    let k := if x.ldHalf then 2 else 4
    let v := portRead s1 n (0x1000000 + x.ldAddr) k (ofBytes (rdBytes s1.grove.commons x.ldAddr k))
    let d := Dest.g x.bank x.ldDest
    portOne (s1.setCore n ({ x with st := 1, stall := 0 }.wr 0 d (if x.ldHalf then enc 32 (sfld v 0 16) else v))) n
      [{ at_ := s1.now, write := false, core := n, lo := 0x1000000 + x.ldAddr, len := k, dests := [(x.issued, d)] }]

/-- Every posted store of a core has completed, and SYNC releases issue (R320). -/
def execSyncComplete (t n : Nat) (s : State) : Host.Outcome State Fault Refusal :=
  act t s fun s =>
    if (s.core n).stall ≠ 2 then s
    else (drainPosted s n (s.core n).posted.length).modCore n (fun x => { x with st := 1, stall := 0, dirty := [] })

/-- The timer of a core matches (Table 10-6). -/
def execTimerMatch (t n : Nat) (s : State) : Host.Outcome State Fault Refusal :=
  act t s fun s =>
    let x := (s.core n).srSettle
    if x.armed && decide (x.tcmpl.toNat + 2^32 * x.tcmph.toNat ≤ s.now) then
      setIpend (s.setCore n { x with armed := false }) n 0
    else s

/-- One tick after values were staged, the staging source sets its pending bit (R336). -/
def execStagedSignalRaise (t n : Nat) (s : State) : Host.Outcome State Fault Refusal :=
  act t s fun s =>
    let x := s.core n
    (x.raiseAt.filter (fun e => decide (e.2 ≤ s.now))).foldl (fun a e => setIpend a n e.1)
      (s.setCore n { x with raiseAt := x.raiseAt.filter (fun e => decide (s.now < e.2)) })

/-! ## Feed events -/

/-- A kind-2 feed copies a block (R343). -/
def execFeedCopyBlock (t i : Nat) (s : State) : Host.Outcome State Fault Refusal :=
  act t s fun s =>
    let f := s.feed i
    if !f.on || f.kind ≠ 2 || !f.free || f.done ≥ fld f.p 320 32 || panicUp s then s else
    let r := regRead s f.handle (fld f.p 256 64 + f.done * f.blk) f.blk { code := some 4, inst := i, master := 3 }
    let s1 := feedWrite r.2.2 i f.core (f.blockAt f.feedCnt.toNat) r.1
    feedAdvance (s1.modFeed i (fun x => { x with done := x.done + 1 })) i

/-- A kind-3 feed writes a handed-over block into its ring when room allows (R343, Table 11-3). -/
def execFeedWriteOut (t i : Nat) (s : State) : Host.Outcome State Fault Refusal :=
  act t s fun s =>
    let f := s.feed i
    if !f.on || f.kind ≠ 3 || f.handed = 0 || panicUp s || !ringRoom s f.handle f.blk then s else
    let s0 := if f.base < 0x40000 then s else settlePosted s
    let a := f.blockAt f.feedCnt.toNat
    let g := s0.reg f.handle
    let k := min f.blk (g.size - g.wpos % g.size)
    let r1 := feedRead s0 i f.core a k (g.addr + g.wpos % g.size)
    let r2 := if f.blk = k then ([], r1.2) else feedRead r1.2 i f.core (a + k) (f.blk - k) g.addr
    let s1 := recPull (feedAdvance (ringPut r2.2 f.handle (r1.1 ++ r2.1)) i)
    if f.closing && (s1.feed i).handed = 0 then finishAll (feedOff s1 i) 0x0905 i 0 2 0xFFFFFFFFFFFF else s1

end Sys2Proof.Machine
end

