-- ==== Sys2Proof/Machine/GroveIsa.lean ====
section
/-! DEFINITION. The Grove instructions (10_grove_dsp_cluster.md, Table 10-8): one meaning per instruction over one issue
harness. A row is the issue of that instruction by a core at its program counter; `w` is the word's bits [25:0]. -/

namespace Sys2Proof.Machine

/-! ## Vector addresses (R324) -/

/-- The base of a modulo buffer that holds address `a`, of `len` units of 64 bytes. -/
def modBase (a len : Nat) : Nat :=
  let c := Nat.clog 2 (64 * len)
  a / 2^c * 2^c

/-- The address of element l of a vector operand, or none where its modifier is ILLEGAL (R324). -/
def vecAddr (a m l : Nat) : Option Nat :=
  let len := fld m 18 12
  let mode := fld m 30 2
  if mode = 0 then some ((a + 4 * l) % 2^32)
  else if mode = 1 && len ≠ 0 then some (modBase a len + (a - modBase a len + 4 * l) % (64 * len))
  else none

/-- The addresses of the four elements of a vector operand. -/
def GCore.vec (x : GCore) (i j : Nat) : Option (List Nat) :=
  (List.range 4).mapM (fun l => vecAddr (x.rdX x.bank i).toNat (x.rdM x.bank j).toNat l)

/-! ## Scratchpad accesses of an instruction (R321) -/

/-- Scratchpad reads of instruction `op` with fields `f`: its fetch, and its data. -/
def GCore.reads (x : GCore) (op f : Nat) : List (Nat × Nat) :=
  let a := (x.rdX x.bank (fld f 19 3)).toNat
  let bytes := if op = 0x1A then 2 else 4
  (x.pc, 4) ::
    (if op = 0x19 || op = 0x1A then (if a < 0xC0000 then [(a % 0x40000, bytes)] else [])
     else if op = 0x20 || op = 0x21 || op = 0x22 then
       (((x.vec (fld f 20 3) (fld f 17 3)).getD []) ++ (if op = 0x22 then [] else (x.vec (fld f 14 3) (fld f 11 3)).getD [])).map (fun a => (a, 4))
     else [])

/-- The port 1 accesses of an instruction of core `x` that left it as `y`: its reads, whose data went into the writes it leaves outstanding, and
its plain stores; an alias store is held apart from the other port (R384). -/
def GCore.uses (x y : GCore) (now : Tick) (n op f : Nat) : List PortUse :=
  let new := y.pend.drop x.pend.length
  let ds := new.filterMap (fun w => match w.dest with | .g _ _ => some (w.pos, w.dest) | .acc _ _ _ => some (w.pos, w.dest) | _ => none)
  (x.reads op f).zipIdx.map (fun r =>
    { at_ := now, write := false, core := n, lo := r.1.1, len := r.1.2, dests := if r.2 = 0 then [] else ds }) ++
  new.filterMap (fun w => match w.dest with
    | .mem a b 0 => some { at_ := now, write := true, core := n, lo := a, len := b }
    | _ => none)

/-- Scratchpad words that an instruction leaves stored to and not yet fetchable (R320). -/
def GCore.dirtied (x y : GCore) : List Nat :=
  (y.pend.drop x.pend.length).foldl (fun l w => match w.dest with
    | .mem a _ _ => if l.contains (a / 4 * 4) then l else a / 4 * 4 :: l
    | _ => l) y.dirty

/-! ## Issue (R328, R330 to R332, R340) -/

/-- What an instruction does: a stop cause with its address, or the rest of the state and the core after it, with the
cause of a HALT if it is one. -/
inductive GEff where
  | fault (cause addr : Nat)
  | ok (s : State) (x : GCore)
  | halt (x : GCore)

/-- Instructions that REPEAT may repeat (R332). -/
def repOk (op : Nat) : Bool := op ≤ 0x14 || (0x19 ≤ op && op ≤ 0x23)

/-- Instructions that may not stand in a delay slot (R331). -/
def slotBad (op : Nat) : Bool := (0x28 ≤ op && op ≤ 0x30)

/-- The program counter, delay slots and repeat count after an instruction of core `x` that left it as `y`. -/
def GCore.next (x y : GCore) : GCore :=
  let z := { y with issued := x.issued + 1, liveIss := x.liveIss || !x.inh }
  if 1 < x.rep then { z with rep := x.rep - 1 }
  else if x.rep = 1 then { z with rep := 0, pc := x.pc + 4 }
  else if x.slots = 2 then { z with slots := 1, pc := x.pc + 4 }
  else if x.slots = 1 then { z with slots := 0, pc := x.target }
  else { z with pc := y.pc + 4 }

/-- OP of Table 10-8. -/
def opListed (op : Nat) : Bool := op ≤ 0x23 || (0x28 ≤ op && op ≤ 0x34)

/-- The word at the program counter is fixed: the core has not stored to it since its last SYNC, and port 2 has not written it in the slot
(R320, R383). Otherwise the word that the fetch gives is open, and it is the row's. -/
def fetchFixed (s : State) (n : Nat) (x : GCore) : Bool :=
  !x.dirty.contains (x.pc / 4 * 4) &&
  !s.grove.use2.any (fun u => u.clashes { at_ := s.now, write := false, core := n, lo := x.pc, len := 4 })

/-- The word that core `x` fetches. -/
def GCore.fetch (x : GCore) : Nat := ofBytes (rdBytes x.spad x.pc 4)

/-- The state after an instruction of core `x` that left it as `y` and the rest as `s`. -/
def issued (s : State) (n op f : Nat) (x y : GCore) : State :=
  portOne (perfAdd (s.setCore n { x.next y with dirty := x.dirtied y }) 0x0B n 1) n (x.uses y s.now n op f)

/-- A core issues the instruction at its program counter, whose fields outside `used` must be zero. A row whose instruction is not the one there
is no event of the machine; a word whose OP Table 10-8 does not list is ILLEGAL whatever row comes. -/
def issue (op : Nat) (used : List (Nat × Nat)) (t n : Nat) (w : BitVec 26) (s : State)
    (eff : State → GCore → Nat → GEff) : Host.Outcome State Fault Refusal :=
  act t s fun s =>
    let x := s.core n
    let f := w.toNat
    if x.st ≠ 1 || x.stall ≠ 0 || decide (s.now < x.startAt) || (x.settle x.issued).handDue then s
    else if x.pc % 4 ≠ 0 || 0x40000 ≤ x.pc then coreStop s n 3 x.pc
    else
      let x0 := x.settle x.issued
      if fetchFixed s n x0 && x0.fetch ≠ op * 2^26 + f then (if opListed (x0.fetch / 2^26) then s else coreStop s n 1 0)
      else if f &&& fieldMask used ≠ f || (x.rep ≠ 0 && !repOk op) || (x.slots ≠ 0 && slotBad op) then coreStop s n 1 0
      else
        match eff s x0 f with
        | .fault c a => coreStop s n c a
        | .ok s1 y => issued s1 n op f x0 y
        | .halt y => coreStop (issued s n op f x0 y) n 0 0

/-- Fields of format R with every operand used. -/
def fmtR : List (Nat × Nat) := [(22, 4), (18, 4), (14, 4)]

/-- An instruction of format R that computes Gd from Ga and Gb with latency L. -/
def aluR (op L : Nat) (t n : Nat) (w : BitVec 26) (s : State) (g : Word → Word → Word) : Host.Outcome State Fault Refusal :=
  issue op fmtR t n w s fun s x f =>
    let b := x.bank
    .ok s (x.wr L (.g b (fld f 22 4)) (g (x.rdG b (fld f 18 4)) (x.rdG b (fld f 14 4))).toNat)

/-- NOP. -/
def execGNop (t core : Nat) (w : BitVec 26) (s : State) : Host.Outcome State Fault Refusal :=
  issue 0x00 [] t core w s fun s x _ => .ok s x

/-! ## Integer arithmetic (Table 10-8, OP 0x01 to 0x11) -/

/-- ADD. -/
def execGAdd (t core : Nat) (w : BitVec 26) (s : State) : Host.Outcome State Fault Refusal := aluR 0x01 1 t core w s (· + ·)

/-- SUB. -/
def execGSub (t core : Nat) (w : BitVec 26) (s : State) : Host.Outcome State Fault Refusal := aluR 0x02 1 t core w s (· - ·)

/-- AND. -/
def execGAnd (t core : Nat) (w : BitVec 26) (s : State) : Host.Outcome State Fault Refusal := aluR 0x03 1 t core w s (· &&& ·)

/-- OR. -/
def execGOr (t core : Nat) (w : BitVec 26) (s : State) : Host.Outcome State Fault Refusal := aluR 0x04 1 t core w s (· ||| ·)

/-- XOR. -/
def execGXor (t core : Nat) (w : BitVec 26) (s : State) : Host.Outcome State Fault Refusal := aluR 0x05 1 t core w s (· ^^^ ·)

/-- The shift amount Gb[4:0]. -/
def shAmt (v : Word) : Nat := v.toNat % 32

/-- SHL. -/
def execGShl (t core : Nat) (w : BitVec 26) (s : State) : Host.Outcome State Fault Refusal :=
  aluR 0x06 1 t core w s fun a b => a <<< shAmt b

/-- SHR. -/
def execGShr (t core : Nat) (w : BitVec 26) (s : State) : Host.Outcome State Fault Refusal :=
  aluR 0x07 1 t core w s fun a b => a >>> shAmt b

/-- SAR. -/
def execGSar (t core : Nat) (w : BitVec 26) (s : State) : Host.Outcome State Fault Refusal :=
  aluR 0x08 1 t core w s fun a b => a.sshiftRight (shAmt b)

/-- SLT. -/
def execGSlt (t core : Nat) (w : BitVec 26) (s : State) : Host.Outcome State Fault Refusal :=
  aluR 0x09 1 t core w s fun a b => if a.toInt < b.toInt then 1 else 0

/-- SLTU. -/
def execGSltu (t core : Nat) (w : BitVec 26) (s : State) : Host.Outcome State Fault Refusal :=
  aluR 0x0A 1 t core w s fun a b => if a.toNat < b.toNat then 1 else 0

/-- MUL. -/
def execGMul (t core : Nat) (w : BitVec 26) (s : State) : Host.Outcome State Fault Refusal := aluR 0x0B 2 t core w s (· * ·)

/-- An instruction of format I: Gd from Ga and IMM18. -/
def aluI (op : Nat) (t n : Nat) (w : BitVec 26) (s : State) (g : Word → BitVec 18 → Word) : Host.Outcome State Fault Refusal :=
  issue op [(22, 4), (18, 4), (0, 18)] t n w s fun s x f =>
    let b := x.bank
    .ok s (x.wr 1 (.g b (fld f 22 4)) (g (x.rdG b (fld f 18 4)) (w.extractLsb' 0 18)).toNat)

/-- ADDI. -/
def execGAddi (t core : Nat) (w : BitVec 26) (s : State) : Host.Outcome State Fault Refusal :=
  aluI 0x0C t core w s fun a i => a + i.signExtend 32

/-- ANDI. -/
def execGAndi (t core : Nat) (w : BitVec 26) (s : State) : Host.Outcome State Fault Refusal :=
  aluI 0x0D t core w s fun a i => a &&& i.signExtend 32

/-- ORI. -/
def execGOri (t core : Nat) (w : BitVec 26) (s : State) : Host.Outcome State Fault Refusal :=
  aluI 0x0E t core w s fun a i => a ||| i.setWidth 32

/-- SHI: IMM18[4:0] is the amount, IMM18[6:5] the kind. -/
def execGShi (t core : Nat) (w : BitVec 26) (s : State) : Host.Outcome State Fault Refusal :=
  issue 0x0F [(22, 4), (18, 4), (0, 7)] t core w s fun s x f =>
    let b := x.bank
    let a := x.rdG b (fld f 18 4)
    let k := fld f 5 2
    let sh := fld f 0 5
    if k = 3 then .fault 1 0
    else .ok s (x.wr 1 (.g b (fld f 22 4)) (if k = 0 then a <<< sh else if k = 1 then a >>> sh else a.sshiftRight sh).toNat)

/-- MOVI. -/
def execGMovi (t core : Nat) (w : BitVec 26) (s : State) : Host.Outcome State Fault Refusal :=
  issue 0x10 [(22, 4), (0, 16)] t core w s fun s x f =>
    .ok s (x.wr 1 (.g x.bank (fld f 22 4)) ((w.extractLsb' 0 16).signExtend 32).toNat)

/-- MOVHI. -/
def execGMovhi (t core : Nat) (w : BitVec 26) (s : State) : Host.Outcome State Fault Refusal :=
  issue 0x11 [(22, 4), (0, 16)] t core w s fun s x f =>
    .ok s (x.wr 1 (.g x.bank (fld f 22 4)) (fld f 0 16 * 65536 + (x.rdG x.bank (fld f 22 4)).toNat % 65536))

/-! ## Complex arithmetic (R326, R327) -/

/-- Real and imaginary parts of a complex Q15 word. -/
def qRe (v : Word) : Int := sfld v.toNat 0 16
def qIm (v : Word) : Int := sfld v.toNat 16 16

/-- A part limited to Q15, and whether it saturated. -/
def satQ (x : Int) : Int × Bool := (clampI (-32768) 32767 x, decide (x < -32768 ∨ 32767 < x))

/-- Two Q15 parts as a word. -/
def qWord (re im : Int) : Nat := enc 16 re + 65536 * enc 16 im

/-- Two parts saturated into a word; SAT is set when either saturates. -/
def GCore.putQ (x : GCore) (re im : Int) : GCore × Nat :=
  ({ x with sat := x.sat || (satQ re).2 || (satQ im).2 }, qWord (satQ re).1 (satQ im).1)

/-- An accumulator part converted with shift SH (R327). -/
def convQ (v : Int) (sh : Nat) : Int := roundEven v (2 ^ ((15 : Int) + sfld sh 0 4).toNat)

/-- The exact complex product, b conjugated with CJ (R326). -/
def cprod (a b : Word) (cj : Bool) : Int × Int :=
  let bi := if cj then -qIm b else qIm b
  (qRe a * qRe b - qIm a * bi, qRe a * bi + qIm a * qRe b)

/-- A complex operation of format R with latency 2. -/
def cplxR (op : Nat) (t n : Nat) (w : BitVec 26) (s : State) (g : Word → Word → Int × Int) : Host.Outcome State Fault Refusal :=
  issue op fmtR t n w s fun s x f =>
    let b := x.bank
    let r := g (x.rdG b (fld f 18 4)) (x.rdG b (fld f 14 4))
    let p := x.putQ r.1 r.2
    .ok s (p.1.wr 2 (.g b (fld f 22 4)) p.2)

/-- CMUL. -/
def execGCmul (t core : Nat) (w : BitVec 26) (s : State) : Host.Outcome State Fault Refusal :=
  cplxR 0x12 t core w s fun a b => let p := cprod a b false; (convQ p.1 0, convQ p.2 0)

/-- CADDS. -/
def execGCadds (t core : Nat) (w : BitVec 26) (s : State) : Host.Outcome State Fault Refusal :=
  cplxR 0x13 t core w s fun a b => (qRe a + qRe b, qIm a + qIm b)

/-- CSUBS. -/
def execGCsubs (t core : Nat) (w : BitVec 26) (s : State) : Host.Outcome State Fault Refusal :=
  cplxR 0x14 t core w s fun a b => (qRe a - qRe b, qIm a - qIm b)

/-! ## Moves (R322, R325) -/

/-- MOVR: latency 1 to G, 2 to X and M. -/
def execGMovr (t core : Nat) (w : BitVec 26) (s : State) : Host.Outcome State Fault Refusal :=
  issue 0x15 [(20, 6), (14, 6)] t core w s fun s x f =>
    let d := fld f 20 6
    let r := fld f 14 6
    if !specOk d || !specOk r then .fault 1 0
    else .ok s (x.wr (if d / 16 = 0 then 1 else 2) (specDest x.bank d) (x.rdSpec x.bank r).toNat)

/-- SMOV: a register of the bank not in use, seen after the next hand-over. -/
def execGSmov (t core : Nat) (w : BitVec 26) (s : State) : Host.Outcome State Fault Refusal :=
  issue 0x16 [(20, 6), (14, 6)] t core w s fun s x f =>
    let d := fld f 20 6
    let r := fld f 14 6
    if !specOk d || !specOk r then .fault 1 0 else .ok s (x.wrSpec (1 - x.bank) d (x.rdSpec x.bank r))

/-- FEEDn as core n reads it (Table 10-4). -/
def feedReg (s : State) (n i : Nat) : Word := if (s.feed i).on && (s.feed i).core = n then (s.feed i).feedCnt else 0

/-- The value of a special register as MOVSR reads it (Table 10-4). -/
def srRead (s : State) (n : Nat) (x : GCore) (sr : Nat) : Word :=
  match sr with
  | 0 => BitVec.ofNat 32 x.stat
  | 1 => x.ien
  | 2 => x.ipend.setWidth 32
  | 3 => x.epc
  | 4 => BitVec.ofNat 32 (n % 64 + 64 * (n / 8))
  | 5 => BitVec.ofNat 32 (countRead s)
  | 7 => x.tcmpl
  | 8 => x.tcmph
  | 9 => x.ivec
  | _ => feedReg s n (sr - 16)

/-- A special register number that Table 10-4 defines. -/
def srOk (sr : Nat) : Bool := sr ≤ 9 || (16 ≤ sr && sr ≤ 47)

/-- The copy of the upper half of the count that a read of CNTL leaves for the next read of CNTH (R325). -/
def GCore.latch (x : GCore) (v : Option Word) : GCore := { x with cnth := v }

/-- MOVSR: a read of CNTL latches CNTH, and a read of CNTH releases it; read with no latch held, CNTH is a free value. -/
def execGMovsr (t core : Nat) (w : BitVec 26) (s : State) : Host.Outcome State Fault Refusal :=
  issue 0x17 [(22, 4), (16, 6)] t core w s fun s x f =>
    let sr := fld f 16 6
    let d := Dest.g x.bank (fld f 22 4)
    if !srOk sr then .fault 1 0
    else if sr = 6 then
      match x.cnth with
      | some v => .ok s ((x.latch none).wr 1 d v.toNat)
      | none => let r := drawFree 32 s; .ok r.2 (x.wr 1 d r.1)
    else .ok s ((x.latch (if sr = 5 then some (BitVec.ofNat 32 (s.now / 2^32)) else x.cnth)).wr 1 d (srRead s core x sr).toNat)

/-- MOVRS: the change takes effect for the second instruction after it. -/
def execGMovrs (t core : Nat) (w : BitVec 26) (s : State) : Host.Outcome State Fault Refusal :=
  issue 0x18 [(22, 4), (16, 6)] t core w s fun s x f =>
    let sr := fld f 16 6
    if [0, 1, 2, 3, 7, 8, 9].contains sr then .ok s (x.wr 2 (.sr sr) (x.rdG x.bank (fld f 22 4)).toNat) else .fault 1 0

/-! ## Memory operands (R319, R323, R324) -/

/-- The lowest `k` bits of a number in reverse order. -/
def revBits : Nat → Nat → Nat
  | 0, _ => 0
  | k + 1, v => (v % 2) * 2^k + revBits k (v / 2)

/-- The post-modified address register, or none where the modifier is ILLEGAL at use (R323, R324). -/
def postMod (a m : Nat) : Option Nat :=
  let len := fld m 18 12
  let step := sfld m 0 18
  let mode := fld m 30 2
  if mode = 0 then some (enc 32 (a + step))
  else if mode = 1 then
    if len = 0 || 64 * (len : Int) < |step| then none
    else some ((modBase a len : Int) + ((a : Int) - modBase a len + step) % (64 * len : Nat)).toNat
  else if mode = 2 then
    let u := fld m 0 18
    let k := Nat.log2 u
    if u < 4 || u ≠ 2^k then none
    else
      let v := fld a 2 (k - 1)
      let r := revBits (k - 1) ((revBits (k - 1) v + 1) % 2^(k - 1))
      some (a - v * 4 + r * 4)
  else none

/-- The core after the post-modify of Xi by Mj, where PM asks for it. -/
def GCore.post (x : GCore) (pm : Bool) (i j : Nat) : Option GCore :=
  if !pm then some x
  else (postMod (x.rdX x.bank i).toNat (x.rdM x.bank j).toNat).map (fun a => x.wr 1 (.x x.bank i) a)

/-- Fields of format M. -/
def fmtM : List (Nat × Nat) := [(22, 4), (19, 3), (16, 3), (15, 1)]

/-- A load of `bytes` bytes: from the scratchpad with latency 3, from the commons with a stall (R320). -/
def loadM (op bytes : Nat) (t n : Nat) (w : BitVec 26) (s : State) : Host.Outcome State Fault Refusal :=
  issue op fmtM t n w s fun s x f =>
    let a := (x.rdX x.bank (fld f 19 3)).toNat
    match x.post (bit f 15) (fld f 19 3) (fld f 16 3) with
    | none => .fault 1 0
    | some y =>
      match resolve s n a bytes true with
      | .bad => .fault 2 a
      | .pad off _ =>
        let v := padRead s n x off bytes
        .ok s (y.wr 3 (.g x.bank (fld f 22 4)) (if bytes = 2 then enc 32 (sfld v 0 16) else v))
      | .com off _ => .ok s { y with st := 2, stall := 1, ldDest := fld f 22 4, ldAddr := off, ldHalf := bytes == 2 }

/-- LD. -/
def execGLd (t core : Nat) (w : BitVec 26) (s : State) : Host.Outcome State Fault Refusal := loadM 0x19 4 t core w s

/-- LDH. -/
def execGLdh (t core : Nat) (w : BitVec 26) (s : State) : Host.Outcome State Fault Refusal := loadM 0x1A 2 t core w s

/-- A store at a resolved address: to the scratchpad it is seen two positions later, to the commons it is posted. -/
def GCore.store (x : GCore) (d : Access) (bytes v : Nat) : GCore :=
  match d with
  | .pad off kind => x.wr 2 (.mem off bytes kind) v
  | .com off kind => { x with posted := x.posted ++ [⟨off, bytes, kind, v⟩] }
  | .bad => x

/-- A store of `bytes` bytes of Gs. -/
def storeM (op bytes : Nat) (t n : Nat) (w : BitVec 26) (s : State) : Host.Outcome State Fault Refusal :=
  issue op fmtM t n w s fun s x f =>
    let a := (x.rdX x.bank (fld f 19 3)).toNat
    match x.post (bit f 15) (fld f 19 3) (fld f 16 3) with
    | none => .fault 1 0
    | some y =>
      match resolve s n a bytes true with
      | .bad => .fault 2 a
      | d => .ok s (y.store d bytes (x.rdG x.bank (fld f 22 4)).toNat)

/-- ST. -/
def execGSt (t core : Nat) (w : BitVec 26) (s : State) : Host.Outcome State Fault Refusal := storeM 0x1B 4 t core w s

/-- STH. -/
def execGSth (t core : Nat) (w : BitVec 26) (s : State) : Host.Outcome State Fault Refusal := storeM 0x1C 2 t core w s

/-- An accumulator converted to a word (R327). -/
def GCore.convert (x : GCore) (i sh : Nat) : GCore × Nat :=
  x.putQ (convQ (x.rdAcc x.bank i false) sh) (convQ (x.rdAcc x.bank i true) sh)

/-- STA. -/
def execGSta (t core : Nat) (w : BitVec 26) (s : State) : Host.Outcome State Fault Refusal :=
  issue 0x1D [(22, 3), (19, 3), (16, 3), (15, 1), (11, 4)] t core w s fun s x f =>
    let a := (x.rdX x.bank (fld f 19 3)).toNat
    match x.post (bit f 15) (fld f 19 3) (fld f 16 3) with
    | none => .fault 1 0
    | some y =>
      match resolve s core a 4 false with
      | .bad => .fault 2 a
      | d => let r := y.convert (fld f 22 3) (fld f 11 4); .ok s (r.1.store d 4 r.2)

/-- VSTA. -/
def execGVsta (t core : Nat) (w : BitVec 26) (s : State) : Host.Outcome State Fault Refusal :=
  issue 0x1E [(22, 4), (19, 3), (16, 3), (15, 1), (11, 4)] t core w s fun s x f =>
    let g := fld f 22 4
    if g ≠ 0 && g ≠ 4 then .fault 1 0 else
    match x.vec (fld f 19 3) (fld f 16 3), x.post (bit f 15) (fld f 19 3) (fld f 16 3) with
    | some l, some y =>
      match l.find? (fun a => resolve s core a 4 false == .bad) with
      | some a => .fault 2 a
      | none => .ok s ((List.range 4).foldl (fun c k =>
          let r := c.convert (g + k) (fld f 11 4)
          r.1.store (resolve s core (l.getD k 0) 4 false) 4 r.2) y)
    | _, _ => .fault 1 0

/-- RDA. -/
def execGRda (t core : Nat) (w : BitVec 26) (s : State) : Host.Outcome State Fault Refusal :=
  issue 0x1F [(22, 4), (19, 3), (15, 4)] t core w s fun s x f =>
    let r := x.convert (fld f 19 3) (fld f 15 4)
    .ok s (r.1.wr 2 (.g x.bank (fld f 22 4)) r.2)

/-! ## Multiply-accumulate (R326) -/

/-- Add to one accumulator part, from its value or from zero with CL; a part that leaves 48 bits wraps and sets AOV. -/
def GCore.macPart (x : GCore) (i : Nat) (im cl : Bool) (v : Int) : GCore :=
  let b := if i < 6 then 0 else x.bank
  let r := (if cl then 0 else x.accIn b i im) + v
  { x with aov := x.aov || decide (r < -(2^47) ∨ (2^47) ≤ r) }.wr 4 (.acc b i im) (enc 48 r)

/-- Add a complex value to an accumulator, negated with NG. -/
def GCore.mac (x : GCore) (i : Nat) (cl ng : Bool) (p : Int × Int) : GCore :=
  (x.macPart i false cl (if ng then -p.1 else p.1)).macPart i true cl (if ng then -p.2 else p.2)

/-- The words of a vector operand that lies in the own scratchpad, or the address that does not. -/
def vecLoad (s : State) (n : Nat) (x : GCore) (l : List Nat) : Except Nat (List Word) :=
  match l.find? (fun a => a % 4 ≠ 0 || 0x40000 ≤ a) with
  | some a => .error a
  | none => .ok (l.map (fun a => BitVec.ofNat 32 (padRead s n x a 4)))

/-- The operands of a vector instruction: the words at XA and XB, and the core after both post-modifies, that of B last. -/
def vecOps (s : State) (n : Nat) (x : GCore) (f : Nat) (useB : Bool) : Except (Nat × Nat) (List Word × List Word × GCore) :=
  match x.vec (fld f 20 3) (fld f 17 3), (if useB then x.vec (fld f 14 3) (fld f 11 3) else some []),
        (x.post (bit f 7) (fld f 20 3) (fld f 17 3)),
        (if useB && bit f 6 then postMod (x.rdX x.bank (fld f 14 3)).toNat (x.rdM x.bank (fld f 11 3)).toNat else some 0) with
  | some la, some lb, some y, some pb =>
    match vecLoad s n x la, vecLoad s n x lb with
    | .ok a, .ok b => .ok (a, b, if useB && bit f 6 then y.wr 1 (.x x.bank (fld f 14 3)) pb else y)
    | .error a, _ => .error (2, a)
    | _, .error a => .error (2, a)
  | _, _, _, _ => .error (1, 0)

/-- Fields of format V. -/
def fmtV : List (Nat × Nat) := [(6, 20)]

/-- VMAC.D. -/
def execGVmacD (t core : Nat) (w : BitVec 26) (s : State) : Host.Outcome State Fault Refusal :=
  issue 0x20 fmtV t core w s fun s x f =>
    match vecOps s core x f true with
    | .error e => .fault e.1 e.2
    | .ok (a, b, y) =>
      let p := (a.zip b).foldl (fun (m : Int × Int) ab => let q := cprod ab.1 ab.2 (bit f 10); (m.1 + q.1, m.2 + q.2)) (0, 0)
      .ok s (y.mac (fld f 23 3) (bit f 8) (bit f 9) p)

/-- VMAC.P. -/
def execGVmacP (t core : Nat) (w : BitVec 26) (s : State) : Host.Outcome State Fault Refusal :=
  issue 0x21 fmtV t core w s fun s x f =>
    if fld f 23 3 ≠ 0 && fld f 23 3 ≠ 4 then .fault 1 0 else
    match vecOps s core x f true with
    | .error e => .fault e.1 e.2
    | .ok (a, b, y) =>
      .ok s ((List.range 4).foldl (fun c l => c.mac (fld f 23 3 + l) (bit f 8) (bit f 9) (cprod (a.getD l 0) (b.getD l 0) (bit f 10))) y)

/-- VMAG.P: the imaginary part is kept, or zero with CL. -/
def execGVmagP (t core : Nat) (w : BitVec 26) (s : State) : Host.Outcome State Fault Refusal :=
  issue 0x22 [(23, 3), (20, 3), (17, 3), (9, 1), (8, 1), (7, 1)] t core w s fun s x f =>
    if fld f 23 3 ≠ 0 && fld f 23 3 ≠ 4 then .fault 1 0 else
    match vecOps s core x f false with
    | .error e => .fault e.1 e.2
    | .ok (a, _, y) =>
      .ok s ((List.range 4).foldl (fun c l =>
        let v := a.getD l 0
        let m := qRe v * qRe v + qIm v * qIm v
        let c1 := c.macPart (fld f 23 3 + l) false (bit f 8) (if bit f 9 then -m else m)
        if bit f 8 then c1.macPart (fld f 23 3 + l) true true 0 else c1) y)

/-- CMAC. -/
def execGCmac (t core : Nat) (w : BitVec 26) (s : State) : Host.Outcome State Fault Refusal :=
  issue 0x23 [(23, 3), (18, 4), (14, 4), (10, 1), (9, 1), (8, 1)] t core w s fun s x f =>
    .ok s (x.mac (fld f 23 3) (bit f 8) (bit f 9) (cprod (x.rdG x.bank (fld f 18 4)) (x.rdG x.bank (fld f 14 4)) (bit f 10)))

/-! ## Branches (R331) -/

/-- A branch to `target` after two delay slots. -/
def GCore.branch (x : GCore) (target : Nat) : GCore := { x with slots := 2, target := target }

/-- The target of format B. -/
def brTarget (x : GCore) (f : Nat) : Nat := enc 32 ((x.pc : Int) + 4 * sfld f 0 18)

/-- COND of format B: none where it is ILLEGAL. -/
def brCond (c : Nat) (g : Word) : Option Bool :=
  match c with
  | 0 => some true
  | 1 => some (g == 0)
  | 2 => some (g != 0)
  | 3 => some (decide (g.toInt < 0))
  | 4 => some (decide (0 ≤ g.toInt))
  | 5 => some (decide (0 < g.toInt))
  | 6 => some (decide (g.toInt ≤ 0))
  | _ => none

/-- BR. -/
def execGBr (t core : Nat) (w : BitVec 26) (s : State) : Host.Outcome State Fault Refusal :=
  issue 0x28 [(22, 4), (19, 3), (0, 18)] t core w s fun s x f =>
    match brCond (fld f 19 3) (x.rdG x.bank (fld f 22 4)) with
    | none => .fault 1 0
    | some b => .ok s (x.branch (if b then brTarget x f else x.pc + 12))

/-- CALL. -/
def execGCall (t core : Nat) (w : BitVec 26) (s : State) : Host.Outcome State Fault Refusal :=
  issue 0x29 [(0, 18)] t core w s fun s x f => .ok s ((x.wr 1 (.g x.bank 15) (x.pc + 12)).branch (brTarget x f))

/-- JR. -/
def execGJr (t core : Nat) (w : BitVec 26) (s : State) : Host.Outcome State Fault Refusal :=
  issue 0x2A [(22, 4)] t core w s fun s x f =>
    let g := (x.rdG x.bank (fld f 22 4)).toNat
    if g % 4 ≠ 0 then .fault 3 g else .ok s (x.branch g)

/-! ## Repeat and control (R332, R335, R337) -/

/-- The next instruction is issued n times, or skipped when n = 0. -/
def GCore.repeat_ (x : GCore) (n : Nat) : GCore := if n = 0 then { x with pc := x.pc + 4 } else { x with rep := n }

/-- REPEAT. -/
def execGRepeat (t core : Nat) (w : BitVec 26) (s : State) : Host.Outcome State Fault Refusal :=
  issue 0x2B [(0, 16)] t core w s fun s x f => .ok s (x.repeat_ (fld f 0 16))

/-- REPR. -/
def execGRepr (t core : Nat) (w : BitVec 26) (s : State) : Host.Outcome State Fault Refusal :=
  issue 0x2C [(22, 4)] t core w s fun s x f =>
    let n := (x.rdG x.bank (fld f 22 4)).toNat
    if 65535 < n then .fault 1 0 else .ok s (x.repeat_ n)

/-- RETI: issue stops until HANDLER_RETURN. -/
def execGReti (t core : Nat) (w : BitVec 26) (s : State) : Host.Outcome State Fault Refusal :=
  issue 0x2D [] t core w s fun s x _ => if !x.inh then .fault 1 0 else .ok s { x with stall := 5 }

/-- WAIT: no stall where an enabled source is already pending. -/
def execGWait (t core : Nat) (w : BitVec 26) (s : State) : Host.Outcome State Fault Refusal :=
  issue 0x2E [] t core w s fun s x _ => .ok s (if x.pendEn ≠ 0 then x else { x with st := 2, stall := 3 })

/-- HALT. -/
def execGHalt (t core : Nat) (w : BitVec 26) (s : State) : Host.Outcome State Fault Refusal :=
  issue 0x2F [] t core w s fun _ x _ => .halt x

/-- BAR (R341): the last member to arrive releases every member; a broken group releases at once with BRK. -/
def execGBar (t core : Nat) (w : BitVec 26) (s : State) : Host.Outcome State Fault Refusal :=
  issue 0x30 [(0, 3)] t core w s fun s x f =>
    let k := fld f 0 3
    let b := s.bar k
    if !b.on || !bit b.members core then .fault 1 0
    else if b.broken then .ok s { x with brk := true }
    else
      let arr := b.arrived ||| 2^core
      if arr = b.members then
        .ok ((maskBits 64 b.arrived).foldl (fun a m => barRelease a k m false) (s.setBar k { b with arrived := 0 })) x
      else .ok (s.setBar k { b with arrived := arr }) { x with st := 2, stall := 4, barWait := x.barWait ||| 2^k }

/-- FREL (R343). -/
def execGFrel (t core : Nat) (w : BitVec 26) (s : State) : Host.Outcome State Fault Refusal :=
  issue 0x31 [(21, 5), (0, 16)] t core w s fun s x f =>
    let i := fld f 21 5
    let k := fld f 0 16
    let d := s.feed i
    if !d.on || d.core ≠ core then .ok s x
    else
      let bad := if d.kind = 3 then decide (d.nbuf < d.handed + k) else decide ((d.feedCnt - d.coreCnt).toNat < k)
      if bad then .fault 1 0 else .ok (s.setFeed i { d with coreCnt := d.coreCnt + BitVec.ofNat 32 k }) x

/-- SYNC: a stall while posted stores are outstanding (R320). -/
def execGSync (t core : Nat) (w : BitVec 26) (s : State) : Host.Outcome State Fault Refusal :=
  issue 0x32 [] t core w s fun s x _ => .ok s (if x.posted.isEmpty then { x with dirty := [] } else { x with st := 2, stall := 2 })

/-- NOTIFY: IPEND[6] of the core named. -/
def execGNotify (t core : Nat) (w : BitVec 26) (s : State) : Host.Outcome State Fault Refusal :=
  issue 0x33 [(22, 4)] t core w s fun s x f =>
    let m := (x.rdG x.bank (fld f 22 4)).toNat % 64
    if m = core then .ok s { x with ipend := x.ipend ||| 64 } else .ok (setIpend s m 6) x

/-- POST: GROVE_USER, at most one per core in 1,600 ct (R357). -/
def execGPost (t core : Nat) (w : BitVec 26) (s : State) : Host.Outcome State Fault Refusal :=
  issue 0x34 [(22, 4), (18, 4), (0, 16)] t core w s fun s x f =>
    let per := s.now / 1600
    if x.userAt = some per then .ok s { x with userLost := sat32 x.userLost }
    else .ok (post s 0x0902 (pack [(6, core), (10, 0), (16, fld f 0 16), (32, (x.rdG x.bank (fld f 22 4)).toNat),
        (32, (x.rdG x.bank (fld f 18 4)).toNat)])) { x with userAt := some per }

end Sys2Proof.Machine
end

