-- ==== Sys2Proof/Machine/HostOps.lean ====
section
/-! DEFINITION. The host port's own operations: the registers of the Direct Register Window, Bus Master Enable, sessions
that leave OPEN, and the host-interface reset (13_host_interface_and_zci.md). -/

namespace Sys2Proof.Machine

/-! ## What waits for the bus (R449, R463) -/

/-- Messages that were pending and may be sent now are sent (R463). -/
def msixFlush (s : State) : State :=
  (List.range 64).foldl (fun a v => if (a.msixE v).pending then signal (a.modMsixE v (fun e => { e with pending := false })) v else a) s

/-- Event records that waited for Bus Master Enable are written in the order in which they came, and after them the completions (R449, R469). -/
def waitFlush (s : State) : State :=
  let s1 := { s with host := { s.host with evtWait := [] } }
  let s2 := s.host.evtWait.foldl evtWrite s1
  cplSend s2 s2.evTick

/-- Records that still waited when the event ring is disabled are lost (R462). -/
def evtDiscard (s : State) : State :=
  s.host.evtWait.foldl (fun a _ => evtLose a) { s with host := { s.host with evtWait := [] } }

/-- A bit of DRWERR is set (Table 13-2). -/
def drwErr (s : State) (b : Nat) : State := { s with host := { s.host with drwerr := s.host.drwerr ||| BitVec.ofNat 6 (2^b) } }

/-- A write is ignored and sets DRWERR.IGNORED (R451). -/
def drwIgnored (s : State) : State := drwErr s 4

/-- A doorbell value is refused (R453): its DRWERR bit, and the host-interface fault source. -/
def drwRefused (s : State) (b : Nat) : State := raiseFault (drwErr s b) 0x2300 { master := 12, access := 2 }

/-! ## Sessions (R454 to R457, R478) -/

/-- Post SYS_SESSION (Table 13-12). -/
def sesPost (s : State) (n change cause : Nat) : State := post s 0x0001 (pack [(4, n), (4, change), (2, cause)])

/-- A release starts (R457): commands fetched and not applied are discarded. A session that is DETACHED has no ring to
which completions could go. -/
def startRelease (s : State) (n cause : Nat) : State :=
  (s.modSes n (fun x => { x with st := 3, cause := cause, fetched := [], relHost := x.st == 2 })).modCplR n (fun r => { r with held := false })

/-- The registers of a session page that a host-interface reset returns to their reset values (R450): LEASE and QSTAT stay, and
with them the state, the cookie held and the lease period in progress. -/
def Session.hostReset (x : Session) : Session :=
  { st := x.st, cfgerr := x.cfgerr, fetcherr := x.fetcherr, cause := x.cause, lease := x.lease, leaseFrom := x.leaseFrom, leaseWarn := x.leaseWarn,
    cookie := x.cookie, relHost := x.relHost || x.st == 3 }

/-- Step 2 of R450 on one session. -/
def sesHostReset (s : State) (n : Nat) : State :=
  let x := s.ses n
  let s1 := if x.st ≠ 1 then s
            else if bit x.lease.toNat 31 then sesPost (s.modSes n (fun y => { y with st := 2, fetched := [] })) n 2 0
            else startRelease s n 1
  (s1.modSes n Session.hostReset).modCplR n (fun r => { slots := r.slots })

/-- The host-interface reset (R450): sessions first, then the configuration space, the MSI-X table and the DRW registers. -/
def hostReset (s : State) : State :=
  let s1 := evtDiscard ((List.range 16).foldl sesHostReset s)
  let h := s1.host
  { s1 with host := { h with
      drwerr := 0, linkRate := 0, linkWidth := 0, linkFlit := false, time1 := none, time2 := none, serLatch1 := none, serLatch2 := none, serLatch3 := none,
      evtBaseLo := 0, evtBaseHi := 0, evtCfg := 0, evtDelay := 0, evtMask := 0x00007FFF, evtEnable := false, evtHead := 0, evtTail := 0, evtPhase := true,
      evtUnsig := 0, msix := [], busMaster := false, d3 := false, msixEnable := false, msixMask := false, cplWait := [] } }

/-! ## Registers read (Tables 13-2, 13-3) -/

/-- The Canopy time that the time-read latch takes: in coarse mode bits [3:0] read 0 (R246). -/
def readTime (s : State) : Nat := stampOf (countRead s)

/-- A 32-bit word of a number. -/
def wordOf (v i : Nat) : Word := BitVec.ofNat 32 (v / 2^(32 * i))

/-- STATE (Table 13-2). -/
def stateWord (s : State) : Nat := pack [(2, s.host.engine), (1, s.host.slot), (1, b2n s.host.fallback), (3, s.sec.life)]

/-- LINK (Table 13-2). -/
def linkReg (s : State) : Nat := pack [(3, s.host.linkRate), (5, s.host.linkWidth), (1, b2n s.host.linkFlit)]

/-- QSTAT (Table 13-3). -/
def Session.qstat (x : Session) : Nat := pack [(2, x.st), (1, b2n x.cfgerr), (1, b2n x.fetcherr), (2, x.cause)]

/-- A register of a session page, by its offset; write-only and reserved offsets read 0. -/
def sesRead (x : Session) (r : CplRing) (o : Nat) : Word :=
  if o = 0x00 then x.sqBaseLo else if o = 0x04 then x.sqBaseHi else if o = 0x08 then x.cqBaseLo else if o = 0x0C then x.cqBaseHi
  else if o = 0x10 then x.qcfg else if o = 0x14 then x.lease else if o = 0x24 then BitVec.ofNat 32 x.qstat
  else if o = 0x28 then BitVec.ofNat 32 x.sqTail else if o = 0x2C then BitVec.ofNat 32 x.sqHead
  else if o = 0x30 then BitVec.ofNat 32 x.cqHead else if o = 0x34 then BitVec.ofNat 32 r.tail else 0

/-- A register of page 0, by its offset, for the registers that a read does not change. -/
def pageRead (s : State) (o : Nat) : Word :=
  let h := s.host
  if o = 0x00 then 0x36313034 else if o = 0x04 then BitVec.ofNat 32 (pack [(8, 0), (8, 1), (8, Config.dieRev.toNat)])
  else if o = 0x08 then BitVec.ofNat 32 s.sec.fwver else if o = 0x0C then BitVec.ofNat 32 s.sec.secver
  else if o = 0x20 then BitVec.ofNat 32 (stateWord s) else if o = 0x24 then h.heartbeat else if o = 0x28 then h.drwerr.setWidth 32
  else if o = 0x30 then BitVec.ofNat 32 (linkReg s) else if o = 0x50 then s.aux.data
  else if 0x60 ≤ o && o < 0x80 then BitVec.ofNat 32 (s.ctlO ((o - 0x60) / 4)).last
  else if o = 0x100 then h.evtBaseLo else if o = 0x104 then h.evtBaseHi else if o = 0x108 then h.evtCfg else if o = 0x10C then h.evtDelay
  else if o = 0x110 then h.evtMask else if o = 0x114 then BitVec.ofNat 32 (b2n h.evtEnable) else if o = 0x118 then BitVec.ofNat 32 h.evtHead
  else if o = 0x11C then BitVec.ofNat 32 h.evtTail else if o = 0x120 then BitVec.ofNat 32 h.evtLost else 0

/-- A read returns data. -/
def readOut (s : State) (w : Word) : State := { s with host := { s.host with readData := w } }

/-- TIME0 is read (R452): TIME1 and TIME2 are latched. -/
def readTime0 (s : State) : State :=
  let v := readTime s
  readOut { s with host := { s.host with time1 := some (wordOf v 1), time2 := some (wordOf v 2) } } (wordOf v 0)

/-- SERIAL0 is read (R452): the other serial words are latched. -/
def readSerial0 (s : State) : State :=
  let v := Config.serial.toNat
  readOut { s with host := { s.host with serLatch1 := some (wordOf v 1), serLatch2 := some (wordOf v 2), serLatch3 := some (wordOf v 3) } } (wordOf v 0)

/-- A higher word is read (R452): TIME1, TIME2, SERIAL1, SERIAL2, SERIAL3 as 0 to 4. The latched word is returned and its latch
released; with no latch pending the live value is returned. -/
def readLatched (s : State) (k : Nat) : State :=
  let h := s.host
  let ser := Config.serial.toNat
  match k with
  | 0 => readOut { s with host := { h with time1 := none } } (h.time1.getD (wordOf (readTime s) 1))
  | 1 => readOut { s with host := { h with time2 := none } } (h.time2.getD (wordOf (readTime s) 2))
  | 2 => readOut { s with host := { h with serLatch1 := none } } (h.serLatch1.getD (wordOf ser 1))
  | 3 => readOut { s with host := { h with serLatch2 := none } } (h.serLatch2.getD (wordOf ser 2))
  | 4 => readOut { s with host := { h with serLatch3 := none } } (h.serLatch3.getD (wordOf ser 3))
  | _ => s

/-- AUX_DATA is read (R485): a read that returns NEW = 1 clears NEW and OVR. In the tick of a result it returns the value before it, and the
result then replaces one that has been read. -/
def readAux (s : State) : State :=
  let x := s.aux
  match x.prev with
  | some (T, w, c, per) =>
    if T = s.now then
      let s1 := readOut s w
      if bit w.toNat 30 then
        { s1 with aux := { x with data := x.data &&& 0x7FFFFFFF, ovrCount := c, ovrPer := per, prev := some (T, w &&& 0x3FFFFFFF, c, per) } }
      else s1
    else
      let s1 := readOut s x.data
      if bit x.data.toNat 30 then { s1 with aux := { x with data := x.data &&& 0x3FFFFFFF } } else s1
  | none =>
    let s1 := readOut s x.data
    if bit x.data.toNat 30 then { s1 with aux := { x with data := x.data &&& 0x3FFFFFFF } } else s1

end Sys2Proof.Machine
end

