-- ==== Sys2Proof/Machine/Disp.lean ====
section
/-! DEFINITION. Display ports: modes, panel power, layers, fetch, composition, commits, events, Fallow and AUX
(05_density_and_display.md R175 to R192, R197 to R202, R204). -/

namespace Sys2Proof.Machine

/-! ## Modes (Table 5-2) -/

/-- A code is a split mode. -/
def splitMode (m : Nat) : Bool := decide (8 ≤ m ∧ m ≤ 10)

/-- A code of Table 5-2, or off. -/
def modeKnown (m : Nat) : Bool := decide (m ≤ 4) || splitMode m || m == 0xF

/-- The per-port timing code of a mode. -/
def modeCode (m : Nat) : Nat := if m = 8 then 0 else if m = 9 then 1 else if m = 10 then 4 else m

/-- Active pixels and lines, total lines and pixels per line, and pixel clock in 0.1 MHz of a port's timing. -/
def hActive (m : Nat) : Nat := [1920, 2560, 2560, 3840, 3840].getD (modeCode m) 0
def vActive (m : Nat) : Nat := [1080, 1440, 1600, 2160, 2160].getD (modeCode m) 0
def vTotal (m : Nat) : Nat := [1125, 1481, 1646, 2250, 2250].getD (modeCode m) 1
def hTotal (m : Nat) : Nat := [2200, 2720, 2720, 4400, 4400].getD (modeCode m) 1
def pixClock (m : Nat) : Nat := [1485, 2415, 2685, 2970, 5940].getD (modeCode m) 0

/-- A timing line in whole ct, rounded down; no mode's line is a whole number of ct. -/
def lineTicks (m : Nat) : Nat := hTotal m * 16000 / pixClock m

/-- Width of the area that layers cover: the port's, or the panel's in a split mode. -/
def areaW (m : Nat) : Nat := if splitMode m then 2 * hActive m else hActive m

/-- A link rate carries a mode (R176): pixel clock × 3 × bpc ≤ 4 lanes × rate × 0.8, in 10 kb/s. -/
def rateCarries (m : Nat) (bpc : Bool) (r : Nat) : Bool :=
  decide (pixClock m * 3 * (if bpc then 10 else 8) ≤ 320 * [162, 270, 540, 810].getD r 0)

/-- The highest rate up to `lim` that carries a mode (R178). -/
def rateFor (m : Nat) (bpc : Bool) (lim : Nat) : Option Nat :=
  (List.range 4).reverse.find? (fun r => decide (r ≤ lim) && rateCarries m bpc r)

/-! ## Ports that act together (R181) -/

/-- The port is not set up and nothing is in progress on it. -/
def Port.idle (x : Port) : Bool := x.mode == 0xF && x.phase == 0

/-- The ports a split panel or a split power sequence joins. -/
def joined (s : State) : Bool :=
  (s.port 0).split || ((s.port 0).phase != 0 && splitMode (s.port 0).newMode && (s.port 1).phase != 0 && splitMode (s.port 1).newMode)

/-- The ports on which a timing row naming port p acts: both of a running split, whose rows name DP0. -/
def timed (s : State) (p : Nat) : List Nat := if (s.port 0).split then (if p = 0 then [0, 1] else []) else if p < 2 then [p] else []

/-- The ports on which a power-sequence row naming port p acts. -/
def joinedPorts (s : State) (p : Nat) : List Nat := if joined s then [0, 1] else if p < 2 then [p] else []

/-- Change several ports. -/
def modPorts (s : State) (ps : List Nat) (f : Port → Port) : State := ps.foldl (fun a p => a.modPort p f) s

/-! ## Layers (R181 to R185, Table 5-10) -/

def Layer.map (x : Layer) : Nat := fld x.p 8 2
def Layer.table (x : Layer) : Nat := fld x.p 10 2
def Layer.offset (x : Layer) : Nat := fld x.p 128 64
def Layer.stride (x : Layer) : Nat := fld x.p 64 32

/-- A layer setting names a region. -/
def Layer.names (x : Layer) (h : Nat) : Bool := x.on && x.region == h && h != noHandle

/-- A layer's newest setting, in force or committed. -/
def Port.lastSet (x : Port) (j : Nat) : Layer := x.pend.foldl (fun a e => if e.2.1 = j then e.2.2 else a) (tget {} x.layers j)

/-- A layer of the port names a region, under its newest setting: the next fetch is the first that could read it. -/
def portNames (x : Port) (h : Nat) : Bool := [1, 2, 3].any (fun j => (x.lastSet j).names h)

/-- A port holds a reference on a region (R188): a line of a frame whose frame done is to come was fetched from it, or a layer names it and
the port is not in Fallow, whose entry has ended every reference. -/
def portHolds (x : Port) (h : Nat) : Bool := tget false x.refs h || (!x.fallow && portNames x h)

/-- A region has display references (R188). -/
def dispRefs (s : State) (h : Nat) : Bool := [0, 1].any (fun p => portHolds (s.port p) h)

/-- A region returns to the pool: a layer that still names it (its port is in Fallow) is disabled, so that scan-out never reads memory that
has returned (DESIGN CHOICE, log 41), and its last fetch is forgotten. -/
def regGone (s : State) (h : Nat) : State :=
  let off := fun (l : Layer) => if l.names h then { l with on := false, region := noHandle } else l
  regFree (modPorts s [0, 1] (fun x => { x with
    layers := x.layers.foldl (fun a e => tput {} a e.1 (off e.2)) x.layers, pend := x.pend.map (fun e => (e.1, e.2.1, off e.2.2))
    lastFetch := tput 0 x.lastFetch h 0 })) h

/-- The largest count among the cells that viewport pixel (x, y) covers (R183). -/
def viewCount (m : DensMap) (l : Layer) (x y : Nat) : Nat :=
  let w := fld l.p 48 16
  let h := fld l.p 64 16
  let cs := fld l.p 80 11
  let cw := fld l.p 96 12
  let rs := fld l.p 112 10
  let rh := fld l.p 128 11
  let c0 := cs + x * cw / w
  let c1 := cs + ceilDiv ((x + 1) * cw) w
  let r0 := rs + rh - ceilDiv ((y + 1) * rh) h
  let r1 := rs + rh - y * rh / h
  ((List.range (c1 - c0)).flatMap (fun c => (List.range (r1 - r0)).map (fun r => m.count (c0 + c) (r0 + r)))).foldl max 0

/-- A line's extent of a rectangle lies inside L2's opaque rectangle (R185). -/
def coveredBy (l2 : Layer) (x0 w y : Nat) : Bool :=
  let ow := fld l2.p 224 16
  let ox := fld l2.p 192 16
  let oy := fld l2.p 208 16
  l2.on && ow != 0 && decide (oy ≤ y ∧ y < oy + fld l2.p 240 16 ∧ ox ≤ x0 ∧ x0 + w ≤ ox + ow)

/-- L0 on line y (R183). -/
def fetchL0 (s : State) (l l2 : Layer) (W y : Nat) : List (Option Nat) :=
  let x0 := fld l.p 16 16
  let y0 := fld l.p 32 16
  let w := fld l.p 48 16
  if !l.on || y < y0 || y0 + fld l.p 64 16 ≤ y || coveredBy l2 x0 w y then [] else
  let p := s.pigm l.table
  (List.range W).map (fun x => if x0 ≤ x ∧ x < x0 + w then some (p.entry (p.index (viewCount (s.dmap l.map) l (x - x0) (y - y0)))) else none)

/-- The reader of a port's fetch. -/
def dispReader (p : Nat) : Reader := { code := some 3, inst := p, master := 7 }

/-- Read the bytes of a layer's line, and whether one was poisoned, which raises its source (Table 11-1, Table 15-1). -/
def fetchBytes (s : State) (p h off n : Nat) : List Byte × Bool × State :=
  let r := regRead s h off n (dispReader p)
  (r.1, r.2.1, if r.2.1 then raiseFault r.2.2 (0x0F04 + 6 * p) { master := 7, inst := p, access := 3 } else r.2.2)

/-- L1 on line y: its colour where the bit is 1 (R184). -/
def fetchL1 (s : State) (p : Nat) (l l2 : Layer) (W y : Nat) : List (Option Nat) × Bool × State :=
  if !l.on || coveredBy l2 0 W y then ([], false, s) else
  let r := fetchBytes s p l.region (l.offset + y * l.stride) (ceilDiv W 8)
  ((List.range W).map (fun x => if (r.1.getD (x / 8) 0).getLsbD (x % 8) then some (fld l.p 96 32) else none), r.2.1, r.2.2)

/-- 32-bit words of bytes. -/
def words : List Byte → List Nat
  | a :: b :: c :: d :: r => ofBytes [a, b, c, d] :: words r
  | _ => []

/-- L2 on line y: inside its opaque rectangle the alpha is 255 (R184, R185). -/
def fetchL2 (s : State) (p : Nat) (l : Layer) (W y : Nat) : List (Option Nat) × Bool × State :=
  if !l.on then ([], false, s) else
  let r := fetchBytes s p l.region (l.offset + y * l.stride) (4 * W)
  (((words r.1).zipIdx).map (fun e => some (if coveredBy l e.2 1 y then e.1 % 2^24 + 255 * 2^24 else e.1)), r.2.1, r.2.2)

/-- L3 on line y: the cursor, clipped to the area (R184). -/
def fetchL3 (s : State) (p : Nat) (l : Layer) (W y : Nat) : List (Option Nat) × Bool × State :=
  let cx := sfld l.p 32 16
  let cy := sfld l.p 48 16
  if !l.on || (y : Int) < cy || cy + 128 ≤ (y : Int) then ([], false, s) else
  let r := fetchBytes s p l.region (l.offset + 512 * ((y : Int) - cy).toNat) 512
  let px := words r.1
  ((List.range W).map (fun (x : Nat) => if cx ≤ (x : Int) ∧ (x : Int) < cx + 128 then some (px.getD ((x : Int) - cx).toNat 0) else none), r.2.1, r.2.2)

/-- Regions that a line is fetched from: those of every enabled layer, since a line that L2's opaque rectangle covers and one outside the
cursor count as fetched (R185, R188). -/
def lineRegions (x : Port) : List Nat := ([1, 2, 3].filter (fun k => (tget {} x.layers k).on)).map (fun k => (tget {} x.layers k).region)

/-- Commits of commands before tick `now` take effect: a command in the tick of a fetch start counts as after it (R187). -/
def Port.commit (x : Port) (now : Tick) : Port :=
  { x with layers := (x.pend.filter (fun e => decide (e.1 < now))).foldl (fun a e => tput {} a e.2.1 e.2.2) x.layers
           pend := x.pend.filter (fun e => decide (now ≤ e.1)) }

/-- The fetch of active line y of a port (R186): commits and shadow pigment tables take effect (R174, R187), references are
taken (R188), the line enters the prefetch buffer. -/
def fetchLine (s : State) (p y : Nat) : State :=
  let s1 := s.modPort p (fun x => x.commit s.now)
  let s2 := { s1 with disp := { s1.disp with pigments := s1.disp.pigments.map (fun e => (e.1, e.2.commit s.now)) } }
  let x := s2.port p
  let W := areaW x.mode
  let l := fun k => tget {} x.layers k
  let r1 := fetchL1 s2 p (l 1) (l 2) W y
  let r2 := fetchL2 r1.2.2 p (l 2) W y
  let r3 := fetchL3 r2.2.2 p (l 3) W y
  let e : FetchLine := { line := y, bg := fld (l 0).p 160 24, px := [fetchL0 s2 (l 0) (l 2) W y, r1.1, r2.1, r3.1],
                         bad := ([(1, r1.2.1), (2, r2.2.1), (3, r3.2.1)].filter (fun e => e.2)).map (fun e => e.1) }
  let fr := if y < 2 then (x.frame + 1) % 2^32 else x.frame
  r3.2.2.modPort p (fun x => { x with
    buf := (e :: x.buf).take 3, refs := (lineRegions x).foldl (fun a h => tput false a h true) x.refs
    lastFetch := (lineRegions x).foldl (fun a h => tput 0 a h (fr + 1)) x.lastFetch })

/-! ## Composition (R182) -/

/-- Blend one channel. -/
def blendCh (a s d : Nat) : Nat := (a * s + (255 - a) * d + 127) / 255

/-- Blend an ARGB value over a colour. -/
def blend (d : Nat) : Option Nat → Nat
  | none => d
  | some v =>
    let a := fld v 24 8
    pack [(8, blendCh a (fld v 0 8) (fld d 0 8)), (8, blendCh a (fld v 8 8) (fld d 8 8)), (8, blendCh a (fld v 16 8) (fld d 16 8))]

/-- The pixel sent, at 8 or 10 bits per colour. -/
def sendPixel (bpc : Bool) (v : Nat) : Nat :=
  let t := fun c => 4 * c + c / 64
  if bpc then pack [(10, t (fld v 0 8)), (10, t (fld v 8 8)), (10, t (fld v 16 8))] else v

/-- The pixels of a fetched line without the layers that underran (R189). -/
def composeLine (e : FetchLine) (under : List Nat) (bpc : Bool) (x0 n : Nat) : List Nat :=
  (List.range n).map (fun i =>
    sendPixel bpc ((List.range 4).foldl (fun d k => if under.contains k then d else blend d ((e.px.getD k []).getD (x0 + i) none)) e.bg))

/-- A port sends active line y: pixels of its part of the area, and underruns counted, a poisoned fetch among them (R181, R182, R189, Table 11-1). In a split mode the
layers are fetched once, through DP0, which counts their underruns. -/
def sendLine (s : State) (p y : Nat) (under : List Nat) : State :=
  let src := if (s.port 0).split then s.port 0 else s.port p
  match src.buf.find? (fun e => e.line == y) with
  | none => s
  | some e =>
    let ks := [1, 2, 3].filter (fun k => (under.contains k || e.bad.contains k) && !(e.px.getD k []).isEmpty)
    let right := (s.port 0).split && p = 1
    let s1 := s.modPort p (fun x => { x with
      lineOut := composeLine e ks x.bpc (if right then hActive x.mode else 0) (hActive x.mode) })
    if right then s1 else s1.modPort p (fun x => { x with
      underruns := satAdd 32 x.underruns ks.length, frUnder := x.frUnder + ks.length
      frLayers := ks.foldl (fun a k => a ||| 2 ^ (k - 1)) x.frLayers, frLine := if x.frUnder = 0 && !ks.isEmpty then y else x.frLine })

/-! ## Timing (R176, R186, R190) -/

/-- The timing generator starts: the next timing line is line 0, and the fetches of lines 0 and 1 have been made, with every commit that was
waiting (DESIGN CHOICE, log 41: the tick of line 0 is that of its row). -/
def startTiming (s : State) (p : Nat) : State :=
  fetchLine (fetchLine (s.modPort p (fun x => { x.commit (s.now + 1) with
    timing := true, line := vTotal x.mode - 1, lineDue := none, fdone := true, buf := [], frUnder := 0, frLayers := 0 })) p 0) p 1

/-- A timing line starts on a port; `long` says that it lasts the larger of the two whole numbers of ct around its length. -/
def lineStart (s : State) (p : Nat) (long : Bool) (under : List Nat) : State :=
  let x := s.port p
  let l := (x.line + 1) % vTotal x.mode
  let s1 := s.setPort p { x with
    line := l, frame := if l = 0 then (x.frame + 1) % 2^32 else x.frame, fdone := x.fdone && l != 0,
    enterFallow := if l = 0 && x.enterFallow = 1 && decide (x.fallowAt < s.now) then 2 else x.enterFallow,
    lineDue := some (s.now + lineTicks x.mode + b2n long),
    linkOk := x.linkOk || (l = 0 && x.relink), relink := x.relink && l != 0 }
  let s2 := if l < vActive x.mode then sendLine s1 p l under else s1
  let y := (l + 2) % vTotal x.mode
  let s3 := if y < vActive x.mode && !((s.port 0).split && p = 1) then fetchLine s2 p y else s2
  let pay := fun n => pack [(1, p), (1, b2n x.split), (14, 0), (16, n), (32, (s3.port p).frame)]
  if x.split && p = 1 then s3 else
  let s4 := if l = vActive x.mode then dmaPulse (if x.evVblank then post s3 0x0601 (pay 0) else s3) (17 + 2 * p) else s3
  if l = x.lmatch then dmaPulse (if x.evLine then post s4 0x0602 (pay x.lmatch) else s4) (18 + 2 * p) else s4

/-- The next timing line of a port may start at this tick. -/
def Port.due (x : Port) (now : Tick) : Bool := x.timing && x.lineDue.all (fun d => decide (d ≤ now))

/-- DISP_LINE_START (R186, R187, R190): `long` gives the length of the line (`lineStart`), `under` names the layers whose fetch of this line
has not completed, `late` says that the fetch of the next active line is incomplete (Table 11-2). -/
def execDispLineStart (t p : Nat) (long : Bool) (under : List Nat) (late : Bool) (s : State) : Host.Outcome State Fault Refusal :=
  act t s fun s =>
    let ps := (timed s p).filter (fun q => (s.port q).due s.now)
    let s1 := ps.foldl (fun a q => lineStart a q long under) s
    if late && ps.any (fun q => !(lineRegions (s.port q)).isEmpty) then panicRaise s1 1 p else s1

/-- A port with the line start that falls in this tick, if one does, already past: a command of the tick counts as after it (R187). -/
def Port.lineNow (x : Port) (now : Tick) : Port :=
  if x.timing && x.lineDue = some now then
    let l := (x.line + 1) % vTotal x.mode
    { x with line := l, frame := if l = 0 then (x.frame + 1) % 2^32 else x.frame }
  else x

/-- The frame number and line from which a commit at tick `now` applies (R187, R191). -/
def commitAt (x : Port) (now : Tick) : Nat × Nat :=
  let x := x.lineNow now
  if !x.timing then ((x.frame + 1) % 2^32, 0)
  else if x.line + 4 ≤ vActive x.mode then (x.frame, x.line + 3)
  else if x.line + 3 ≤ vTotal x.mode then ((x.frame + 1) % 2^32, 0)
  else if x.line + 2 = vTotal x.mode then ((x.frame + 1) % 2^32, 1)
  else ((x.frame + 1) % 2^32, 2)

/-! ## Frame done (R188 to R191) -/

/-- References end at a frame done: those of regions that no layer names any more, or all at the last frame transmitted (`last`); deferred
frees act (R188, R204). -/
def endRefs (s : State) (p : Nat) (last : Bool) : State :=
  let x := s.port p
  let stays := fun h => !last && portNames x h
  let s1 := s.setPort p { x with refs := [], deferred := x.deferred.filter stays }
  (x.deferred.filter (fun h => !stays h)).foldl (fun a h =>
    if [0, 1].any (fun q => (a.port q).deferred.contains h) then a
    else post (regGone a h) 0x0605 (pack [(1, p), (15, 0), (16, h), (32, tget (x.frame + 1) x.lastFetch h - 1)])) s1

/-- The underrun of a frame is posted and its source raised (R189). -/
def frameUnderrun (s : State) (p : Nat) : State :=
  let x := s.port p
  if x.frUnder = 0 then s else
  let s1 := post s 0x0604 (pack [(1, p), (3, x.frLayers), (12, 0), (16, x.frLine), (32, x.frame), (32, x.frUnder)])
  raiseFault (s1.setPort p { x with frUnder := 0, frLayers := 0, frLine := 0 }) (0x0F00 + 6 * p) { master := 7, inst := p }

/-- Training begins at the highest rate that the limits allow; none makes it fail (R178). -/
def trainFail (s : State) (p : Nat) : State :=
  let ps := joinedPorts s p
  let s1 := modPorts s ps (fun x => { x with
    mode := 0xF, newMode := 0xF, timing := false, linkOk := false, blen := false, phase := 7, layers := [], pend := [],
    split := joined s })
  ps.foldl (fun a q => finishAll a 0x0605 q stFaulted 0 0) s1

/-- Begin training on the ports of a sequence, at one rate (R178, R181). -/
def startTraining (s : State) (p : Nat) : State :=
  let ps := joinedPorts s p
  let x := s.port p
  match rateFor x.newMode x.newBpc (ps.foldl (fun a q => min a (s.port q).panelRate) x.maxRate) with
  | some r => modPorts s ps (fun y => { y with phase := 3, tryRate := r, linkOk := false })
  | none => trainFail s p

/-- Video starts at line 0 in the new mode, with every layer disabled (R179). -/
def startVideo (s : State) (ps : List Nat) : State :=
  ps.foldl (fun a p =>
    startTiming (a.modPort p (fun x => { x with
      mode := x.newMode, bpc := x.newBpc, rate := x.tryRate, linkOk := true, relink := false, layers := [], pend := [], phase := 4,
      split := splitMode x.newMode, evVblank := false, evLine := false, evFrame := false })) p) s

/-- Video still runs on a port that is to change its mode. -/
def Port.ending (x : Port) : Bool := x.phase == 5 || x.phase == 6 || x.phase == 8

/-- Drive DPn_VDDEN high and wait for HPD, once every port of the sequence has been low for its time and none sends video (R179, R181). -/
def powerOn (s : State) (ps : List Nat) : State :=
  if ps.all (fun p => !(s.port p).ending && ((s.port p).vddLow || (s.port p).phase != 1)) then
    modPorts s ps (fun x => if x.phase = 1 then { x with vdden := true, vddLow := false, phase := 2 } else x)
  else s

/-- Video ends at a frame done in the power-off step (R179): off, or on to the new mode, for which the receiver capabilities are read. -/
def endVideo (s : State) (p : Nat) : State :=
  let x := s.port p
  let s1 := s.setPort p { x with
    timing := false, linkOk := false, relink := false, mode := 0xF, layers := [], pend := []
    split := x.split && x.newMode = 0xF && (s.port 0).newMode = 0xF, phase := if x.newMode = 0xF then 7 else 9 }
  powerOn s1 (joinedPorts s1 p)

/-- The frame done of one port. -/
def frameDone (s : State) (p : Nat) : State :=
  let x := s.port p
  let s1 := frameUnderrun (s.setPort p { x with fdone := true }) p
  let s2 := if x.evFrame && !(x.split && p = 1) then post s1 0x0603 (pack [(1, p), (1, b2n x.split), (30, 0), (32, x.frame)]) else s1
  let s3 := endRefs s2 p (x.phase = 6 || x.enterFallow = 2)
  if x.phase = 6 then endVideo s3 p
  else if x.enterFallow = 2 then
    let s4 := s3.modPort p (fun y => { y with fallow := true, timing := false, linkOk := false, enterFallow := 0 })
    if x.split && p = 1 then s4
    else finishAll (post s4 0x0607 (pack [(1, p), (1, 1), (30, 0), (32, x.frame)])) 0x0608 p 0 1 x.frame
  else s3

/-- FRAME_DONE (R188 to R191): the last active pixel of line Vactive − 1 has left the compositor. -/
def execFrameDone (t p : Nat) (s : State) : Host.Outcome State Fault Refusal :=
  act t s fun s =>
    ((timed s p).filter (fun q => (s.port q).timing && !(s.port q).fdone && (s.port q).line + 1 == vActive (s.port q).mode)).foldl frameDone s

/-! ## The panel power sequence (R179) -/

/-- The sequence begins on one port for a new mode. -/
def beginMode (s : State) (p m : Nat) (bpc : Bool) (maxRate bldelay : Nat) : State :=
  s.modPort p (fun x =>
    let y := { x with newMode := m, newBpc := bpc, maxRate := maxRate, bldelay := bldelay, layers := [], pend := [],
                      evVblank := false, evLine := false, evFrame := false }
    if x.idle then (if m = 0xF then y else { y with phase := 1 })
    else if x.fallow then { y with exitFallow := 2, phase := 8 }
    else { y with blen := false, phase := 5 })

/-- DISP_SET_MODE (R178, R179, R181, R197). -/
def execDispSetMode (c : Cmd) (p : Block) (s : State) : Host.Outcome State Fault Refusal :=
  zci 0x0605 2 (fun _ => [(0, 1), (8, 4), (16, 1), (20, 2), (32, 10)]) c p s fun b s =>
    let n := c.session.val
    let k := fld b 0 1
    let m := fld b 8 4
    let bpc := bit b 16
    let mr := fld b 20 2
    let split := splitMode m
    let ps := if split || (s.port 0).split then [0, 1] else [k]
    let mode := fun q => if split then m else if q = 0 || !(s.port 0).split then m else 0xF
    chk [(!(if split then owns s n 0x0D 0 && owns s n 0x0D 1 else owns s n 0x0D k), stBusy), (!modeKnown m, stInvalid), (split && k == 1, stInvalid),
         (k == 1 && (s.port 0).split, stState), (ps.any (fun q => (s.port q).phase != 0 || (s.port q).enterFallow != 0 || (s.port q).exitFallow != 0), stBusy),
         (decide (1000 < fld b 32 10), stRange), (m != 0xF && (rateFor m bpc mr).isNone, stRange)]
      (if m = 0xF && ps.all (fun q => (s.port q).idle) then .ok s 1 0
       else .later (powerOn (ps.foldl (fun a q => beginMode a q (mode q) bpc mr (fld b 32 10)) s) ps) k [])

/-- The 500 ms of DPn_VDDEN low end (R179). -/
def execVddenLowTimeExpiry (t p : Nat) (s : State) : Host.Outcome State Fault Refusal :=
  act t s fun s => if p < 2 && !(s.port p).vdden then powerOn (s.modPort p (fun x => { x with vddLow := true })) (joinedPorts s p) else s

/-- The power-on of a sequence fails before training: DPn_VDDEN low, the command completes with a status. -/
def powerFail (s : State) (p st : Nat) : State :=
  let ps := joinedPorts s p
  let s1 := modPorts s ps (fun x => { x with vdden := false, vddLow := x.vddLow && !x.vdden, phase := 0, newMode := 0xF })
  ps.foldl (fun a q => finishAll a 0x0605 q st 0 0) s1

/-- The receiver capabilities of a port have been read (R179); training begins when every port of the sequence has read them (R181). -/
def capsRead (s : State) (p lanes rate : Nat) (psr : Bool) : State :=
  let s1 := s.modPort p (fun x => { x with panelRate := rate, psrCap := psr, phase := 11 })
  if lanes < 4 then powerFail s1 p stUnsup
  else if (joinedPorts s1 p).all (fun q => (s1.port q).phase == 11) then startTraining s1 p else s1

/-- DPn_HPD rises in a power-on, or its 200 ms pass (R179): the receiver capabilities are read; in a mode change they are read without the
wait, once no port of the sequence sends video. -/
def execPanelHpdWait (t p : Nat) (high : Bool) (lanes rate : Nat) (psr : Bool) (s : State) : Host.Outcome State Fault Refusal :=
  act t s fun s =>
    if 2 ≤ p then s
    else if (s.port p).phase = 9 then (if (joinedPorts s p).any (fun q => (s.port q).ending) then s else capsRead s p lanes rate psr)
    else if (s.port p).phase ≠ 2 then s
    else if !high then powerFail (s.modPort p (fun x => { x with hpd := false })) p stFaulted
    else capsRead (s.modPort p (fun x => { x with hpd := true })) p lanes rate psr

/-- An exit from Fallow ends (R192): a new frame starts at line 0. -/
def fallowExit (s : State) (p : Nat) (ok : Bool) : State :=
  let x := s.port p
  let ps := if x.split then [0, 1] else [p]
  let s1 := ps.foldl (fun a q => startTiming (a.modPort q (fun y => { y with fallow := false, exitFallow := 0, linkOk := ok })) q) s
  let fr := (x.frame + 1) % 2^32
  let s2 := post s1 0x0607 (pack [(1, p), (1, 0), (2, x.exitFallow - 1), (28, 0), (32, fr)])
  let s3 := if ok then s2 else raiseFault (post s2 0x0606 (pack [(1, p), (3, 4), (2, x.rate)])) (0x0F02 + 6 * p) { master := 7, inst := p }
  let s4 := finishAll s3 0x0608 p 0 1 fr
  modPorts s4 ps (fun y => if y.phase = 8 then { y with blen := false, phase := 5 } else y)

/-- Link training at a rate ends (R178, R192). -/
def execDispLinkTrainingEnd (t p : Nat) (ok : Bool) (s : State) : Host.Outcome State Fault Refusal :=
  act t s fun s =>
    if 2 ≤ p then s else
    let x := s.port p
    if x.exitFallow ≠ 0 && x.fallow then (if x.split && p = 1 then s else fallowExit s p ok)
    else if x.phase ≠ 3 then s
    else
      let ps := joinedPorts s p
      if ok then
        let s1 := s.setPort p { x with phase := 10 }
        if ps.all (fun q => (s1.port q).phase == 10) then startVideo s1 ps else s1
      else
        let s1 := raiseFault s (0x0F02 + 6 * p) { master := 7, inst := p }
        match (if x.tryRate = 0 then none else rateFor x.newMode x.newBpc (x.tryRate - 1)) with
        | some r => modPorts s1 ps (fun y => { y with tryRate := r, phase := 3 })
        | none => trainFail s1 p

/-- BLDELAY passes (R179): the backlight rises and the command completes, or video is to end. -/
def execBldelayExpiry (t p : Nat) (s : State) : Host.Outcome State Fault Refusal :=
  act t s fun s =>
    if 2 ≤ p then s else
    let x := s.port p
    let ps := if x.split then [0, 1] else [p]
    if x.phase = 4 then
      finishAll (modPorts s ps (fun y => { y with blen := true, phase := 0 })) 0x0605 (if x.split then 0 else p) 0 1 (pack [(2, x.rate), (1, b2n x.psrCap)])
    else if x.phase = 5 then modPorts s ps (fun y => if y.phase = 5 then { y with phase := 6 } else y)
    else s

/-- 50 ms after video ended DPn_VDDEN is driven low (R179): the port is idle. -/
def execVddenOffDelay (t p : Nat) (s : State) : Host.Outcome State Fault Refusal :=
  act t s fun s =>
    if 2 ≤ p || (s.port p).phase ≠ 7 then s else
    let ps := if (s.port p).split then [0, 1] else [p]
    let s1 := modPorts s ps (fun x => { x with vdden := false, vddLow := false, phase := 0, split := false })
    ps.foldl (fun a q => finishAll a 0x0605 q 0 1 0) s1

/-! ## Layers and events (R187, R198, R199) -/

/-- Fields of Table 5-10 that a LAYER uses. -/
def layerFields (k : Nat) : List (Nat × Nat) :=
  [(0, 1), (1, 2), (3, 1)] ++
  (if k = 0 then [(8, 2), (10, 2), (16, 16), (32, 16), (48, 16), (64, 16), (80, 11), (96, 12), (112, 10), (128, 11), (160, 24)]
   else if k = 1 then [(16, 16), (64, 32), (96, 32), (128, 64)]
   else if k = 2 then [(16, 16), (64, 32), (128, 64), (192, 16), (208, 16), (224, 16), (240, 16)]
   else [(16, 16), (32, 16), (48, 16), (128, 64)])

/-- One past the last byte of a layer's data (R184). -/
def layerEnd (k : Nat) (l : Layer) (m : Nat) : Nat :=
  if k = 1 then l.offset + (vActive m - 1) * l.stride + ceilDiv (areaW m) 8
  else if k = 2 then l.offset + (vActive m - 1) * l.stride + 4 * areaW m
  else l.offset + 65536

/-- L0's window and viewport lie within the map and the area (R183). -/
def viewOk (l : Layer) (m : Nat) : Bool :=
  decide (fld l.p 16 16 + fld l.p 48 16 ≤ areaW m ∧ fld l.p 32 16 + fld l.p 64 16 ≤ vActive m ∧ 1 ≤ fld l.p 96 12 ∧ 1 ≤ fld l.p 128 11 ∧
    fld l.p 80 11 + fld l.p 96 12 ≤ 2048 ∧ fld l.p 112 10 + fld l.p 128 11 ≤ 1024)

/-- A split mode runs, and the command names DP1 (R181). -/
def splitDp1 (s : State) (k : Nat) : Bool := k == 1 && (s.port 0).split

/-- The free of a region is deferred (R188). -/
def freeDeferred (s : State) (h : Nat) : Bool := [0, 1].any (fun p => (s.port p).deferred.contains h)

/-- DISP_SET_LAYER (R183 to R187, R198). -/
def execDispSetLayer (c : Cmd) (p : Block) (s : State) : Host.Outcome State Fault Refusal :=
  zci 0x0606 4 (fun b => layerFields (fld b 1 2)) c p s fun b s =>
    let n := c.session.val
    let k := fld b 0 1
    let j := fld b 1 2
    let en := bit b 3
    let x := s.port k
    let h := fld b 16 16
    let old := x.lastSet j
    let l : Layer := if en then { on := true, p := b, region := if j = 0 then noHandle else h } else { old with on := false, region := noHandle }
    let at_ := commitAt x s.now
    chk [(!owns s n 0x0D k || (en && j != 0 && !regOwned s n h), stBusy), (en && j == 0 && (fld b 48 16 == 0 || fld b 64 16 == 0), stInvalid),
         (en && (j == 1 || j == 2) && l.stride % 64 != 0, stInvalid), (en && j != 0 && l.offset % 64 != 0, stInvalid),
         (splitDp1 s k, stState), (x.mode == 0xF, stState), (en && j != 0 && freeDeferred s h, stState),
         (en && j == 0 && !viewOk l x.mode, stRange), (en && j != 0 && decide ((s.reg h).size < layerEnd j l x.mode), stRange)]
      (.ok (s.setPort k { x with pend := x.pend ++ [(s.now, j, l)] }) 1 (pack [(32, at_.1), (16, at_.2)]))

/-- DISP_SET_EVENTS (R190, R199). -/
def execDispSetEvents (c : Cmd) (p : Block) (s : State) : Host.Outcome State Fault Refusal :=
  zci 0x0607 1 (fun _ => [(0, 1), (4, 1), (5, 1), (6, 1), (16, 16)]) c p s fun b s =>
    let k := fld b 0 1
    let x := s.port k
    chk [(!owns s c.session.val 0x0D k, stBusy), (splitDp1 s k, stState), (x.mode == 0xF, stState), (decide (vTotal x.mode ≤ fld b 16 16), stRange)]
      (.ok (s.setPort k { x with evVblank := bit b 4, evLine := bit b 5, evFrame := bit b 6, lmatch := fld b 16 16 }) 0 0)

/-! ## Fallow (R191, R192, R200) -/

/-- DISP_FALLOW (R191, R192, R200). -/
def execDispFallow (c : Cmd) (p : Block) (s : State) : Host.Outcome State Fault Refusal :=
  zci 0x0608 1 (fun _ => [(0, 1), (1, 1)]) c p s fun b s =>
    let k := fld b 0 1
    let en := bit b 1
    let x := s.port k
    let ps := if x.split then [0, 1] else [k]
    chk [(!owns s c.session.val 0x0D k, stBusy), (splitDp1 s k, stState), (en && x.mode == 0xF, stState),
         (x.phase != 0 || x.enterFallow != 0 || x.exitFallow != 0, stBusy), (en && !x.fallow && !x.psrCap, stUnsup)]
      (if en = x.fallow then .ok s 1 x.frame
       else if en then .later (modPorts s ps (fun y => { y with enterFallow := 1, fallowAt := s.now })) k []
       else .later (modPorts s ps (fun y => { y with exitFallow := 1 })) k [])

/-! ## HPD (R180, R192) -/

/-- The PORT of a display event: 0 in a split mode (R181). -/
def evPort (x : Port) (p : Nat) : Nat := if x.split then 0 else p

/-- DPn_HPD has been low for more than 2 ms. -/
def execHpdLoss (t p : Nat) (s : State) : Host.Outcome State Fault Refusal :=
  act t s fun s =>
    if 2 ≤ p then s else
    let x := s.port p
    let s1 := s.setPort p { x with hpd := false }
    if x.mode = 0xF || !x.hpd then s1 else
    let s2 := raiseFault (post (s1.modPort p (fun y => { y with linkOk := false, relink := false })) 0x0606 (pack [(1, evPort x p), (3, 0), (2, x.rate)]))
      (0x0F01 + 6 * p) { master := 7, inst := p }
    if x.fallow then
      let ps := if x.split then [0, 1] else [p]
      let s3 := ps.foldl (fun a q => startTiming (a.modPort q (fun y => { y with fallow := false, exitFallow := 0 })) q) s2
      let fr := (x.frame + 1) % 2^32
      let s4 := finishAll (post s3 0x0607 (pack [(1, evPort x p), (1, 0), (2, 2), (28, 0), (32, fr)])) 0x0608 (evPort x p) 0 1 fr
      modPorts s4 ps (fun y => if y.phase = 8 then { y with blen := false, phase := 5 } else y)
    else s2

/-- DPn_HPD returns high: the port retrains at the trained rate (R180); `ok` says whether it succeeds. -/
def execHpdRestore (t p : Nat) (ok : Bool) (s : State) : Host.Outcome State Fault Refusal :=
  act t s fun s =>
    if 2 ≤ p then s else
    let x := s.port p
    let s1 := s.setPort p { x with hpd := true }
    if x.mode = 0xF || x.hpd then s1
    else if ok then post (s1.modPort p (fun y => { y with relink := true })) 0x0606 (pack [(1, evPort x p), (3, 1), (2, x.rate)])
    else raiseFault (post s1 0x0606 (pack [(1, evPort x p), (3, 4), (2, x.rate)])) (0x0F02 + 6 * p) { master := 7, inst := p }

/-- An HPD IRQ (R180, R192): a lane has lost its lock, the retrain that follows succeeds, the panel reports a self-refresh
error. -/
def execHpdIrq (t p : Nat) (lost ok psr : Bool) (s : State) : Host.Outcome State Fault Refusal :=
  act t s fun s =>
    if 2 ≤ p then s else
    let x := s.port p
    if x.mode = 0xF || !x.hpd then s else
    let cause := if !lost then 3 else if ok then 2 else 4
    let s1 := if lost then s.setPort p { x with linkOk := false, relink := ok && !x.fallow } else s
    let s2 := post s1 0x0606 (pack [(1, evPort x p), (3, cause), (2, x.rate)])
    let s3 := if cause = 4 then raiseFault s2 (0x0F02 + 6 * p) { master := 7, inst := p } else s2
    if psr && x.fallow && x.exitFallow = 0 then modPorts s3 (if x.split then [0, 1] else [p]) (fun y => { y with exitFallow := 4 }) else s3

/-! ## AUX and status (R201, R202) -/

/-- A DPCD write that the engine keeps to itself (R201). -/
def auxDenied (b : Nat) : Bool :=
  let a := fld b 16 20
  let e := a + fld b 8 5
  bit b 1 && !bit b 2 && (decide (a < 0x120 ∧ 0x100 < e) || decide (a < 0x172 ∧ 0x170 < e) || decide (a < 0x601 ∧ 0x600 < e))

/-- DISP_AUX (R201). -/
def execDispAux (c : Cmd) (p : Block) (s : State) : Host.Outcome State Fault Refusal :=
  zci 0x0609 4 (fun b => [(0, 1), (1, 1), (2, 1), (8, 5), (128, 128)] ++ (if bit b 2 then [(16, 7), (24, 8)] else [(16, 20)])) c p s fun b s =>
    let k := fld b 0 1
    chk [(!owns s c.session.val 0x0D k, stBusy), (auxDenied b, stDenied), ((s.port k).idle, stState), ((s.port k).auxBusy, stBusy),
         (decide (fld b 8 5 < 1 ∨ 16 < fld b 8 5), stRange)]
      (.later (s.modPort k (fun x => { x with auxBusy := true })) k [b2n (bit b 1), fld b 8 5])

/-- An AUX transaction ends (R201): the reply code and the bytes read. -/
def execDispAuxReply (t p r : Nat) (data : List Nat) (s : State) : Host.Outcome State Fault Refusal :=
  act t s fun s =>
    if 2 ≤ p || !(s.port p).auxBusy then s else
    let s1 := s.modPort p (fun x => { x with auxBusy := false })
    let s2 := if r = 3 then raiseFault s1 (0x0F05 + 6 * p) { master := 7, inst := p } else s1
    (waiting s2 0x0609 p).foldl (fun a q =>
      let read := q.data.getD 0 0 = 0 && r = 0
      finish a q 0 3 (pack [(8, r), (56, 0), (128, if read then pack ((data.take (q.data.getD 1 0)).map (fun v => (8, v))) else 0)])) s2

/-- DISP_GET_STATUS (R202, Table 5-11). -/
def execDispGetStatus (c : Cmd) (p : Block) (s : State) : Host.Outcome State Fault Refusal :=
  zci 0x060A 1 (fun _ => [(0, 1), (8, 1)]) c p s fun b s =>
    let k := fld b 0 1
    let x := s.port k
    .ok (if bit b 8 then s.setPort k { x with underruns := 0 } else s) 2
      (pack [(4, x.mode), (2, x.rate), (1, b2n x.split), (1, b2n x.fallow), (1, b2n x.hpd), (1, b2n x.linkOk), (1, b2n x.bpc), (5, 0),
        (16, if x.timing then x.line else if x.idle then 0 else 0xFFFF), (32, x.frame), (32, x.underruns), (16, x.deferred.length)])

end Sys2Proof.Machine
end

