-- ==== Sys2Proof/Machine/Mem.lean ====
section
/-! DEFINITION. The memory system: allocation, rings, commons, retirement and migration, errors and panics, and the
commands of group 0x0A (11_memory_system.md). -/

namespace Sys2Proof.Machine

/-! ## Address ranges, as (first, end) pairs -/

/-- What is left of some ranges without [a, b). -/
def subRange (l : List (Nat × Nat)) (a b : Nat) : List (Nat × Nat) :=
  l.flatMap (fun r => [(r.1, min r.2 a), (max r.1 b, r.2)].filter (fun q => decide (q.1 < q.2)))

/-- The parts of [a, b) that lie in none of some ranges, ascending. -/
def gapsIn (l : List (Nat × Nat)) (a b : Nat) : List (Nat × Nat) := l.foldl (fun acc r => subRange acc r.1 r.2) [(a, b)]

/-- The parts of some ranges within [a, b). -/
def interRange (l : List (Nat × Nat)) (a b : Nat) : List (Nat × Nat) :=
  (l.map (fun r => (max r.1 a, min r.2 b))).filter (fun q => decide (q.1 < q.2))

/-- Put a range in order of its first address. -/
def insRange (x : Nat × Nat) : List (Nat × Nat) → List (Nat × Nat)
  | [] => [x]
  | y :: r => if x.1 ≤ y.1 then x :: y :: r else y :: insRange x r

/-- Add a range, joining ranges that touch. -/
def addRange (l : List (Nat × Nat)) (x : Nat × Nat) : List (Nat × Nat) :=
  ((insRange x l).foldl (fun acc r =>
    match acc with
    | y :: t => if r.1 ≤ y.2 then (y.1, max y.2 r.2) :: t else r :: acc
    | [] => [r]) []).reverse

/-- The first n bytes of some ranges. -/
def takeBytes : List (Nat × Nat) → Nat → List (Nat × Nat)
  | [], _ => []
  | r :: l, n => if n = 0 then [] else if r.2 - r.1 ≤ n then r :: takeBytes l (n - (r.2 - r.1)) else [(r.1, r.1 + n)]

/-- Bytes of some ranges. -/
def sizeOf_ (l : List (Nat × Nat)) : Nat := (l.map (fun r => r.2 - r.1)).sum

/-- Ranges in ascending order. -/
def sortRanges (l : List (Nat × Nat)) : List (Nat × Nat) := l.foldl (fun a x => insRange x a) []

/-- Free device memory, ascending. -/
def freeRanges (s : State) : List (Nat × Nat) := gapsIn (s.mem.regions.map (fun e => (e.2.addr, e.2.addr + e.2.size))) 0 devSize

/-- Free device memory that is zeroed. -/
def freeZeroed (s : State) : List (Nat × Nat) := (freeRanges s).flatMap (fun f => interRange s.mem.zeroed f.1 f.2)

/-- The lowest address, a multiple of 64 KiB, at which some ranges hold n bytes. -/
def placeIn (l : List (Nat × Nat)) (n : Nat) : Option Nat :=
  l.findSome? (fun r => if ceilDiv r.1 65536 * 65536 + n ≤ r.2 then some (ceilDiv r.1 65536 * 65536) else none)

/-- The lowest handle not in use. -/
def freeHandle (s : State) : Option Nat := (List.range 4096).find? (fun h => !regLive s h)

/-! ## Zeroing (R375) -/

/-- Zero the first n bytes of [a, b) that are not zeroed; what is left of n. -/
def zeroSome (s : State) (a b n : Nat) : State × Nat :=
  let l := takeBytes (gapsIn s.mem.zeroed a b) n
  (l.foldl (fun x r =>
    let y := clearRange x r.1 (r.2 - r.1)
    { y with mem := { y.mem with mem := zeroBytes y.mem.mem r.1 (r.2 - r.1), zeroed := addRange y.mem.zeroed r } }) s, n - sizeOf_ l)

/-- The MEM_ALLOC commands that wait, in the order applied. -/
def allocWaits (s : State) : List InProg := s.host.inProg.filter (fun p => p.opcode == 0x0A01)

/-- A waiting MEM_ALLOC whose bytes are all zeroed completes. -/
def allocDone (s : State) (p : InProg) : State :=
  let r := s.reg p.unit_
  if !(gapsIn s.mem.zeroed r.addr (r.addr + r.size)).isEmpty then s else
  let s1 := { s with mem := { s.mem with zeroed := subRange s.mem.zeroed r.addr (r.addr + r.size) } }
  finish s1 p 0 2 (pack [(16, p.unit_), (48, 0), (64, r.addr)])

/-- Background zeroing has zeroed n more bytes (R375): first those that waiting MEM_ALLOC commands need, in the order
applied, then free memory in ascending address. -/
def execZeroingDone (t n : Nat) (s : State) : Host.Outcome State Fault Refusal :=
  act t s fun s =>
    if panicUp s then s else
    let w := (allocWaits s).foldl (fun (x : State × Nat) p =>
      let r := x.1.reg p.unit_
      zeroSome x.1 r.addr (r.addr + r.size) x.2) (s, n)
    let f := (freeRanges w.1).foldl (fun (x : State × Nat) r => zeroSome x.1 r.1 r.2 x.2) w
    (allocWaits f.1).foldl allocDone f.1

/-! ## Users of a region (R376) -/

/-- A descriptor names a region. -/
def Desc.names (d : Desc) (h : Nat) : Bool :=
  (fld d.bits 160 2 == 0 && fld d.bits 128 16 == h) || (fld d.bits 162 2 == 0 && fld d.bits 144 16 == h)

/-- A channel names a region: its chain or write-back ring, a descriptor not completed, or its device ring. -/
def Dma.names (d : Dma) (h : Nat) : Bool :=
  if d.mode = 2 then d.on && d.sRing == h
  else (d.on && d.region == h) || (d.active.any (·.names h)) || (d.shadow.any (·.names h))

/-- A region is named by a user of R376, by a streaming channel or by the open recording. -/
def regUsed (s : State) (h : Nat) : Bool :=
  s.spec.traces.any (fun e => e.2.on && e.2.ring == h) || s.spec.outs.any (fun e => e.2.on && e.2.ring == h) ||
  s.grove.feeds.any (fun e => (e.2.on || e.2.closing) && decide (2 ≤ e.2.kind) && e.2.handle == h) ||
  s.tiu.ins.any (fun e => e.2.drain == h) || s.mon.logs.any (fun e => e.2 == h + 1) || s.cal.blind.any (fun e => e.2.on && e.2.ring == h) ||
  s.acq.units.any (fun e => (decide (1 ≤ e.2.st ∧ e.2.st ≤ 3) || e.2.armAt.isSome) && e.2.entries.any (fun x => x.ring == h)) ||
  s.move.chans.any (fun e => e.2.names h) ||
  (s.move.entry != 0xFFFF && (s.move.recBuf == h || s.move.recSrc.any (fun e => srcKind e == 2 && srcRing e == h))) ||
  s.host.inProg.any (fun p => p.regs.contains h)

/-- A region that no user of R376 names is freed at once, or by display references later (R188). -/
def freeRegion (s : State) (h : Nat) : State :=
  if dispRefs s h then
    [0, 1].foldl (fun a p =>
      if portHolds (a.port p) h then a.modPort p (fun x => { x with deferred := x.deferred ++ [h] }) else a)
      (s.modReg h (fun r => { r with deferred := true }))
  else regGone s h

/-! ## Commands -/

/-- MEM_ALLOC (R374, R375, R388; none is granted while a channel has failed training, R536). -/
def execMemAlloc (c : Cmd) (p : Block) (s : State) : Host.Outcome State Fault Refusal :=
  zci 0x0A01 2 (fun _ => [(0, 64)]) c p s fun b s =>
    let n := fld b 0 64
    chk [(n % 65536 != 0, stInvalid), (n == 0 || decide (devSize < n), stRange), (s.mem.channelBad || (freeHandle s).isNone || (placeIn (freeRanges s) n).isNone, stNoRes)]
      (let h := (freeHandle s).getD 0
       match placeIn (freeZeroed s) n with
       | some a =>
         .ok ({ s with mem := { s.mem with zeroed := subRange s.mem.zeroed a (a + n) } }.setReg h { addr := a, size := n, owner := c.session.val }) 2
           (pack [(16, h), (48, 0), (64, a)])
       | none =>
         .laterR (s.setReg h { addr := (placeIn (freeRanges s) n).getD 0, size := n, owner := c.session.val }) h [] [h])

/-- MEM_FREE (R376, R388). -/
def execMemFree (c : Cmd) (p : Block) (s : State) : Host.Outcome State Fault Refusal :=
  zci 0x0A02 1 (fun _ => [(0, 16)]) c p s fun b s =>
    let h := fld b 0 16
    chk [(!regOwned s c.session.val h, stBusy), (regUsed s h || (s.reg h).deferred, stState)]
      (if dispRefs s h then .deferred (freeRegion s h) else .ok (freeRegion s h) 0 0)

/-- MEM_SET_RING (R377, R389). -/
def execMemSetRing (c : Cmd) (p : Block) (s : State) : Host.Outcome State Fault Refusal :=
  zci 0x0A03 1 (fun _ => [(0, 16), (16, 2), (24, 8)]) c p s fun b s =>
    let h := fld b 0 16
    chk [(!regOwned s c.session.val h, stBusy), (fld b 16 2 == 3, stInvalid), (regUsed s h || (s.reg h).deferred, stState)]
      (.ok (s.modReg h (fun r => { r with
        kind := fld b 16 2, hiwat := fld b 24 8, hiArmed := true, wpos := 0, rpos := 0, records := 0, recs := [] })) 0 0)

/-- MEM_RING_ACK (R380, R390). -/
def execMemRingAck (c : Cmd) (p : Block) (s : State) : Host.Outcome State Fault Refusal :=
  zci 0x0A04 2 (fun _ => [(0, 16), (64, 64)]) c p s fun b s =>
    let h := fld b 0 16
    let r := s.reg h
    let v := fld b 64 64
    chk (ringChecks s c.session.val h ++ [(r.bound != 0, stState), (decide (v < r.rpos ∨ r.wpos < v), stRange)]) (.ok (ringAck s h v) 0 0)

/-- MEM_RING_STATUS (R390, Table 11-8). -/
def execMemRingStatus (c : Cmd) (p : Block) (s : State) : Host.Outcome State Fault Refusal :=
  zci 0x0A05 1 (fun _ => [(0, 16), (16, 1)]) c p s fun b s =>
    let h := fld b 0 16
    let r := s.reg h
    chk [(!regOwned s c.session.val h, stBusy)]
      (.ok (if bit b 16 then s.setReg h { r with lost := 0 } else s) 6
        (pack [(2, r.kind), (1, b2n (regUsed s h)), (1, b2n (decide (1 ≤ r.bound ∧ r.bound ≤ 32))), (4, 0), (8, r.hiwat), (16, 0), (32, r.lost),
          (64, r.size), (64, r.wpos), (64, r.rpos), (64, r.records), (64, 0)]))

/-- The lowest run of free commons pages of a length: the spec names no place, the lowest is taken (DESIGN CHOICE, log 36). -/
def commonsPlace (s : State) (n : Nat) : Option Nat :=
  (gapsIn (s.mem.commons.map (fun r => (r.1, r.1 + r.2.1))) 0 4096).findSome? (fun r => if r.1 + n ≤ r.2 then some r.1 else none)

/-- An enabled feed's blocks, or its headers, lie in a run of commons pages. -/
def runFed (s : State) (first n : Nat) : Bool :=
  let lo := 0x01000000 + 4096 * first
  s.grove.feeds.any (fun e => e.2.on && (decide (lo < e.2.base + e.2.nbuf * e.2.blk ∧ e.2.base < lo + 4096 * n) ||
    (e.2.kind == 0 && decide (lo < e.2.hbase + 32 * e.2.nbuf ∧ e.2.hbase < lo + 4096 * n))))

/-- A run of commons pages is freed; it is zeroed before it is allocated again (R387). -/
def commonsFree (s : State) (r : Nat × Nat × Nat) : State :=
  { s with mem := { s.mem with commons := s.mem.commons.erase r },
           grove := { s.grove with commons := zeroBytes s.grove.commons (4096 * r.1) (4096 * r.2.1) } }

/-- MEM_COMMONS (R387, R391). -/
def execMemCommons (c : Cmd) (p : Block) (s : State) : Host.Outcome State Fault Refusal :=
  zci 0x0A06 1 (fun _ => [(0, 1), (16, 13), (32, 13)]) c p s fun b s =>
    let n := fld b 16 13
    let f := fld b 32 13
    let run := (f, n, c.session.val)
    if bit b 0 then
      chk [(n == 0, stInvalid), (decide (4096 < n), stRange), ((commonsPlace s n).isNone, stNoRes)]
        (let a := (commonsPlace s n).getD 0
         .ok { s with mem := { s.mem with commons := s.mem.commons ++ [(a, n, c.session.val)] } } 1 (pack [(12, a), (4, 0), (13, n)]))
    else
      chk [(n == 0 || !s.mem.commons.contains run, stInvalid), (runFed s f n, stState)]
        (.ok (commonsFree s run) 1 (pack [(12, f), (4, 0), (13, n)]))

/-- MEM_RETIRE (R368, R370, R392). -/
def execMemRetire (c : Cmd) (p : Block) (s : State) : Host.Outcome State Fault Refusal :=
  zci 0x0A07 1 (fun _ => [(0, 6)]) c p s fun b s =>
    let r := fld b 0 6
    let q := r / 16
    chk [((List.range 4).any (fun k => !owns s c.session.val 1 k), stBusy), ((s.quad q).retired == r % 16, stState), (!spareFree s q, stNoRes)]
      (.later (retireRank s q (r % 16) true) r [])

/-- The quadrant under migration, or whose switch-over runs. -/
def migrating (s : State) : Option Nat := (List.range 4).find? (fun q => (s.quad q).moving || (s.quad q).switching)

/-- MEM_GET_STATUS (R393, Table 11-9). -/
def execMemGetStatus (c : Cmd) (p : Block) (s : State) : Host.Outcome State Fault Refusal :=
  zci 0x0A08 1 (fun _ => [(8, 1)]) c p s fun b s =>
    let m := s.mem
    let four := List.range 4
    let mq := four.find? (fun q => (s.quad q).moving)
    let fr := freeRanges s
    .ok (if bit b 8 then { s with mem := { m with ce := 0, poisonRd := 0, poisonWr := 0, panics := 0 } } else s) 8
      (pack (four.map (fun q => (1, b2n ((s.quad q).retired != 0xFF))) ++ four.map (fun q => (1, b2n ((s.quad q).queued != 0xFF))) ++
        [(2, mq.getD 0), (1, b2n mq.isSome), (1, b2n m.listFull), (4, 0)] ++ four.map (fun q => (8, (s.quad q).retired)) ++
        [(32, match mq with | some q => (s.quad q).wmark | none => 0), (32, m.ce), (32, m.ue), (16, min m.poison.length 65535), (16, m.poisonRd),
         (16, m.poisonWr), (32, m.panics), (64, sizeOf_ fr), (64, (fr.map (fun r => r.2 - r.1)).foldl max 0), (64, sizeOf_ (freeZeroed s)),
         (13, m.regions.length), (3, 0), (13, 4096 - (m.commons.map (fun r => r.2.1)).sum)]))

/-- MEM_GET_POISON (R394). -/
def execMemGetPoison (c : Cmd) (p : Block) (s : State) : Host.Outcome State Fault Refusal :=
  zci 0x0A09 2 (fun _ => [(0, 16), (64, 64)]) c p s fun b s =>
    let h := fld b 0 16
    let off := fld b 64 64
    let l := s.mem.poison
    chk [(!regOwned s c.session.val h, stBusy), (off % 64 != 0, stInvalid), (regPast s h off (64 + 8 * l.length), stRange)]
      (copyOut s h off (toBytes l.length 64 ++ l.flatMap (fun a => toBytes a 8)) 0 0)

/-! ## Refresh, scrub and errors -/

/-- An all-bank refresh (R361): one every 1.95 µs, which is 3,120 ct; while YP1 is unlocked the ranks refresh themselves. -/
def execRefresh (t : Nat) (s : State) : Host.Outcome State Fault Refusal :=
  act t s fun s =>
    if s.mem.selfRef || s.mem.refAt.any (fun a => decide (s.now < a + 3120)) then s
    else perfAdd { s with mem := { s.mem with refAt := some s.now } } 9 0 1

/-- The patrol scrub reads the line at an address (R364), of what the real-time ports leave (R27): poison stays, what it finds is handled as
at any read. -/
def execPatrolScrub (t a : Nat) (s : State) : Host.Outcome State Fault Refusal :=
  act t s fun s =>
    if devSize ≤ a || s.mem.selfRef || panicUp s then s else (readLine s (lineOf a) { master := 11, inst := quadOf a }).2.2

/-- A read of a requester finds a correctable error at an address (R364). -/
def execCorrectableError (t a master inst : Nat) (s : State) : Host.Outcome State Fault Refusal :=
  act t s fun s =>
    if devSize ≤ a || isPoisoned s a then s else ceError s (lineOf a) false { master := master, inst := inst, access := 1 }

/-- A read of a requester finds an uncorrectable error, or a command error, at an address (R365). -/
def execUncorrectableError (t a : Nat) (cmdErr : Bool) (master inst : Nat) (s : State) : Host.Outcome State Fault Refusal :=
  act t s fun s =>
    if devSize ≤ a || isPoisoned s a then s else ueError s (lineOf a) cmdErr false { master := master, inst := inst, access := 1 }

/-! ## Retirement and migration (R368 to R370) -/

/-- The source by which a quadrant's switch-over is named: uncorrectable error of its rank (R505). -/
def rankOrigin (q d : Nat) : Nat := (0x1D + q) * 256 + 2 * d + 1

/-- The first retirement queued begins its switch-over, when no other runs: F and W = 0 are loaded. -/
def execRankSwitchOver (t : Nat) (s : State) : Host.Outcome State Fault Refusal :=
  act t s fun s =>
    match s.mem.migQ, migrating s with
    | q :: r, none =>
      let d := (s.quad q).queued
      let s1 := s.modQuad q (fun x => { x with retired := d, queued := 0xFF, wmark := 0, switching := true, swAt := s.now })
      openWindow { s1 with mem := { s1.mem with migQ := r } } (rankOrigin q d) [0x0A, 0x0C, 0x0F, 0x1C, 0x21] [] false
    | _, _ => s

/-- The switch-over ends: the channels resume, MEM_RETIRE_BEGIN is posted with its duration, MEM_RETIRE completes. -/
def execRankSwitchOverEnd (t : Nat) (s : State) : Host.Outcome State Fault Refusal :=
  act t s fun s =>
    match (List.range 4).find? (fun q => (s.quad q).switching) with
    | none => s
    | some q =>
      let x := s.quad q
      let g := 16 * q + x.retired
      let s1 := s.setQuad q { x with switching := false, moving := true }
      let s2 := post s1 0x0A03 (pack [(6, g), (1, b2n x.byCmd), (9, 0), (32, (roundEven (5 * (s.now - x.swAt) : Nat) 8).toNat)])
      finishAll (endWindow s2 (rankOrigin q x.retired)) 0x0A07 g 0 0 0

/-- Device address of the unit that rank d of quadrant q holds in row r. -/
def unitAddr (q r d : Nat) : Nat := ((15 * r + (if d < r % 16 then d else d - 1)) * 4 + q) * 256

/-- Migration copies one row, or skips one that holds no data (R369). `bad` names the lines of the unit, 0 to 3, that
are uncorrectable on reading. -/
def execMigrationRowCopy (t : Nat) (bad : List Nat) (s : State) : Host.Outcome State Fault Refusal :=
  act t s fun s =>
    match (List.range 4).find? (fun q => (s.quad q).moving) with
    | none => s
    | some q =>
      let x := s.quad q
      let r := x.wmark
      let copy := fun (a : State) (k : Nat) =>
        let l := unitAddr q r x.retired + 64 * k
        let y := readLine a l { master := 11, inst := q }
        let z := if bad.contains k && !y.2.1 then ueMark y.2.2 l false { master := 11, inst := q, access := 1 } else y.2.2
        if isPoisoned z l then z.modQuad q (fun v => { v with poisoned := v.poisoned + 1 }) else perfAdd z 7 q 1
      let s1 := if r % 16 = x.retired then s else (List.range 4).foldl copy s
      let s2 := s1.modQuad q (fun v => { v with wmark := r + 1 })
      if r + 1 < 4194304 then s2
      else post (s2.modQuad q (fun v => { v with moving := false })) 0x0A04 (pack [(6, 16 * q + x.retired), (26, 0), (32, (s2.quad q).poisoned)])

/-! ## Rings and panics -/

/-- The end of a 1 ms period: rings that dropped records in it post the loss (R379). -/
def execMemRingLost (t : Nat) (s : State) : Host.Outcome State Fault Refusal :=
  act t s fun s =>
    (s.mem.regions.filter (fun e => e.2.lostPer.ended s.now != 0)).foldl (fun a e =>
      post (a.modReg e.1 (fun r => { r with lostPer := r.lostPer.reported s.now })) 0x0A09
        (pack [(16, e.1), (16, 0), (32, min (e.2.lostPer.ended s.now) 0xFFFFFFFF), (32, e.2.lost)])) s

/-- A buffer is at the level at which its port's panic clears (R28, Table 11-2): `held` bytes, or complete lines ahead of the display. -/
def panicLow (port held : Nat) : Bool :=
  match port with
  | 0 => decide (held < 250000)
  | 1 => decide (2 ≤ held)
  | 2 => decide (2097152 < held)
  | _ => decide (1048576 < held)

/-- A port's panic clears (R28, R372, R373): its buffer holds `held` bytes; of a display port, `held` lines ahead are complete. -/
def execPanicClear (t port inst held : Nat) (s : State) : Host.Outcome State Fault Refusal :=
  act t s fun s =>
    let k := 8 * port + inst
    if !panicLow port held then s else
    match tget none s.mem.panic k with
    | none => s
    | some t0 =>
      let d := s.now - t0
      let s1 := { s with mem := { s.mem with panic := tput none s.mem.panic k none, longUp := s.mem.longUp.filter (· ≠ k), staging := if port = 0 then held else s.mem.staging } }
      if d ≤ 16000 || tget 0 s.mem.panicPost k = periodOf s.now + 1 then s1
      else post { s1 with mem := { s1.mem with panicPost := tput 0 s1.mem.panicPost k (periodOf s.now + 1) } } 0x0A07
        (pack [(2, port), (2, 0), (4, inst), (24, 0), (32, min (5 * d / 8) (2^32 - 1))])

/-- A panic has lasted longer than 50 µs: it raises its source, once (R373). -/
def execPanicLong (t port inst : Nat) (s : State) : Host.Outcome State Fault Refusal :=
  act t s fun s =>
    let k := 8 * port + inst
    match tget none s.mem.panic k with
    | some t0 =>
      if t0 + 80000 < s.now && port < 4 && !s.mem.longUp.contains k then raiseFault { s with mem := { s.mem with longUp := k :: s.mem.longUp } } (0x1C01 + port) {}
      else s
    | none => s

/-! ## On-die memories (R385, Table 11-5) -/

/-- A read of an on-die memory finds an error, in two bits or in one. `kind`: 0 scratchpad of core n, 1 commons, 2 monitor
state of context n, 3 density SRAM of map n at cell `addr`, 4 mask table in a range of slot n, 5 staging buffer. Of a
scratchpad or the commons `core` is the core that reads, 64 or above another reader, which is given a zero word. -/
def execOnDieError (t kind n addr core : Nat) (double : Bool) (s : State) : Host.Outcome State Fault Refusal :=
  act t s fun s =>
    let i : FaultInfo := { master := if kind < 2 && core < 64 then 2 else 0, inst := if kind < 2 && core < 64 then core else 0, access := 1, address := addr,
                           items := if kind = 2 then [n] else [] }
    let d := b2n double
    let src := match kind with
      | 0 => groveSrc n (1 + d)
      | 1 => 0x1B00 + d
      | 2 => 0x1020 + d
      | 3 => 0x0E01 + 4 * n + d
      | 4 => 0x0D00 + d
      | _ => 0x1C06 + d
    let s1 := raiseFault s src i
    if !double then s1 else
    match kind with
    | 0 => if core < 64 then coreStop s1 core 4 addr else s1.modCore n (fun x => { x with spad := zeroBytes x.spad (addr / 4 * 4) 4 })
    | 1 => if core < 64 then coreStop s1 core 4 addr
           else { s1 with grove := { s1.grove with commons := zeroBytes s1.grove.commons (addr / 4 * 4) 4 } }
    | 2 => monSuspect s1 n
    | 3 => s1.modDmap n (fun m => { m with cells := tput 0 m.cells addr 0, flags := m.flags ||| 32 })
    | 4 => s1.modMaskS n (fun x => { x with bad := true })
    | _ => { s1 with mem := { s1.mem with drainBad := true } }

end Sys2Proof.Machine
end

