-- ==== Sys2Proof/Machine/Dma.lean ====
section
/-! DEFINITION. DMA channels, request lines and host streaming: their commands of group 0x0B and their events
(12_data_movement_and_recording.md, R396 to R414, R437 to R441). -/

namespace Sys2Proof.Machine

/-! ## Descriptors (Table 12-1) -/

def Desc.saddr (d : Desc) : Nat := fld d.bits 0 64
def Desc.daddr (d : Desc) : Nat := fld d.bits 64 64
def Desc.sregion (d : Desc) : Nat := fld d.bits 128 16
def Desc.dregion (d : Desc) : Nat := fld d.bits 144 16
def Desc.sspace (d : Desc) : Nat := fld d.bits 160 2
def Desc.dspace (d : Desc) : Nat := fld d.bits 162 2
def Desc.reqen (d : Desc) : Bool := bit d.bits 164
def Desc.crcrst (d : Desc) : Bool := bit d.bits 165
def Desc.event (d : Desc) : Bool := bit d.bits 166
def Desc.last (d : Desc) : Bool := bit d.bits 167
def Desc.req (d : Desc) : Nat := fld d.bits 168 6
def Desc.burst (d : Desc) : Nat := 512 * 2 ^ fld d.bits 174 2
def Desc.slen (d : Desc) : Nat := fld d.bits 176 24
def Desc.scount (d : Desc) : Nat := fld d.bits 200 24
def Desc.sstride (d : Desc) : Nat := fld d.bits 224 32
def Desc.dlen (d : Desc) : Nat := fld d.bits 256 24
def Desc.dcount (d : Desc) : Nat := fld d.bits 280 24
def Desc.dstride (d : Desc) : Nat := fld d.bits 304 32
def Desc.next (d : Desc) : Nat := fld d.bits 336 32

/-- Bytes a descriptor moves (R403). -/
def Desc.total (d : Desc) : Nat := d.slen * d.scount

/-- The last byte of a side (R402). -/
def Desc.sEnd (d : Desc) : Nat := d.saddr + (d.scount - 1) * d.sstride + d.slen - 1
def Desc.dEnd (d : Desc) : Nat := d.daddr + (d.dcount - 1) * d.dstride + d.dlen - 1

/-! ## Checks at the hand-over (Table 12-2) -/

/-- Byte z of the commons lies in a page of a session. -/
def commonsHas (s : State) (sess z : Nat) : Bool :=
  s.mem.commons.any (fun r => r.2.2 == sess && decide (4096 * r.1 ≤ z ∧ z < 4096 * (r.1 + r.2.1)))

/-- REASON 2 of a side: its last byte lies outside what it names. -/
def sidePast (s : State) (sess space region z : Nat) : Bool :=
  if space = 0 then regOwned s sess region && decide ((s.reg region).size ≤ z)
  else if space = 1 then decide (2^64 ≤ z)
  else space == 2 && !commonsHas s sess z

/-- REASON 3 of a side: a region not owned, or a reserved space. -/
def sideForeign (s : State) (sess space region : Nat) : Bool := space == 3 || (space == 0 && !regOwned s sess region)

/-- REASON 3 of REQ: a line marked reserved, or a timer or software line that the session does not own. -/
def reqForeign (s : State) (sess : Nat) (d : Desc) : Bool :=
  d.reqen && (decide (21 ≤ d.req ∧ d.req ≤ 31) || (decide (32 ≤ d.req ∧ d.req < 48) && !owns s sess 0x13 (d.req - 32)) ||
    (decide (48 ≤ d.req) && !owns s sess 0x14 (d.req - 48)))

/-- NEXT lies past the end of the chain region. -/
def nextPast (s : State) (x : Dma) (d : Desc) : Bool := x.mode == 0 && !d.last && decide ((s.reg x.region).size < 64 * (d.next + 1))

/-- REASON of a descriptor at its hand-over, 0 when it passes (R402). -/
def descReason (s : State) (x : Dma) (d : Desc) : Nat :=
  if d.slen = 0 || d.scount = 0 || d.dlen = 0 || d.dcount = 0 || d.total ≠ d.dlen * d.dcount || (1 < d.dcount && d.dstride < d.dlen) then 1
  else if sidePast s x.session d.sspace d.sregion d.sEnd || sidePast s x.session d.dspace d.dregion d.dEnd then 2
  else if sideForeign s x.session d.sspace d.sregion || sideForeign s x.session d.dspace d.dregion || reqForeign s x.session d || nextPast s x d then 3
  else 0

/-! ## The end of a descriptor (R399, R400, R404, R405) -/

/-- A descriptor with its status fields, as 512 bits. -/
def Desc.written (d : Desc) (bad stopped : Bool) (reason bytes crc : Nat) : Nat :=
  d.bits % 2^384 + 2^384 * pack [(1, 1), (1, b2n bad), (1, b2n stopped), (5, 0), (4, reason), (4, 0), (48, bytes), (32, 0), (32, crc)]

/-- Payload of DMA_DONE and DMA_BAD (Table 12-14). -/
def descPayload (n reason crc bytes index : Nat) : Nat := pack [(5, n), (3, 0), (4, reason), (20, 0), (32, crc), (48, bytes), (32, index)]

/-- An ended descriptor that waits is written back: in place in its chain, or as a record where the write-back ring has room; descriptor DMA
receives no memory cycles while a panic is raised (R399, R400, R409). -/
def writeBack (s : State) (n : Nat) : State :=
  let x := s.dma n
  let s1 := s.setDma n { x with wbPend := none }
  match x.wbPend with
  | some w =>
    if panicUp s then s
    else if x.mode = 0 then regWrite s1 x.region (64 * x.wbIdx + 48) (toBytes (w / 2^384) 16)
    else if ringRoom s x.region 64 then recPull (ringPut s1 x.region (toBytes w 64)) else s
  | none => s

/-- The descriptor that waits is written back when it can be; a DMA_SET_CHANNEL that waited for it completes (R437). -/
def writeBackDone (s : State) (n : Nat) : State :=
  let s1 := writeBack s n
  if (s.dma n).wbPend.isSome && (s1.dma n).wbPend.isNone then finishAll s1 0x0B01 n 0 0 0 else s1

/-- The active descriptor of channel n ends, in any way: its status is written back, its event posted. -/
def descEnd (s : State) (n : Nat) (bad stopped : Bool) (reason : Nat) : State :=
  let x := s.dma n
  match x.active with
  | none => s
  | some d =>
    let crc := x.crc.toNat ^^^ 0xFFFFFFFF
    let w := d.written bad stopped reason x.moved crc
    let dones := (x.dones + 1) % 2^32
    let s1 := s.setDma n { x with active := none, dones := dones, bads := if bad then sat32 x.bads else x.bads, lastCrc := BitVec.ofNat 32 crc,
                                  wbPend := if x.mode = 0 || x.region ≠ noHandle then some w else none, wbIdx := d.index }
    let s2 := writeBack s1 n
    let pay := descPayload n reason crc x.moved (if x.mode = 1 then dones else d.index)
    let s3 := if bad then raiseFault (post s2 0x0B02 pay) (0x2100 + n) { master := 4, inst := n } else if d.event then post s2 0x0B01 pay else s2
    if x.mode = 0 && d.last then post s3 0x0B03 (pack [(5, n), (27, 0), (32, dones)]) else s3

/-! ## Hand-over and bursts -/

/-- Load the shadow of a chain from an index (R399); while a panic is raised the load waits (R409). -/
def loadChain (s : State) (n i : Nat) : State :=
  if panicUp s then s.modDma n (fun y => { y with loadNext := some i }) else
  let x := s.dma n
  let r := regRead s x.region (64 * i) 64 { code := some 0, inst := n, master := 4 }
  r.2.2.modDma n (fun y => { y with shadow := some { bits := ofBytes r.1, index := i }, shAt := s.now, loadNext := none })

/-- What channel n has waiting for memory cycles or ring room is done: its chain's next descriptor is loaded, its ended one written back. -/
def dmaWaits (s : State) (n : Nat) : State :=
  let s1 := match (s.dma n).loadNext with
    | some i => loadChain s n i
    | none => s
  writeBackDone s1 n

/-- The three conditions of a hand-over hold together, from a tick before this one or from this one on (R398). -/
def Dma.handReady (x : Dma) (now : Tick) : Bool :=
  x.on && x.mode != 2 && x.active.isNone && x.wbPend.isNone && x.shadow.isSome && decide (x.shAt < now)

/-- A hand-over (R398 to R402): the VALID shadow becomes active and is checked; a chain loads its next descriptor. -/
def handOver (s : State) (n : Nat) : State :=
  let x := s.dma n
  match x.shadow with
  | none => s
  | some d =>
    let why := descReason s x d
    let s1 := s.setDma n { x with shadow := none, active := some d, moved := 0, crc := if d.crcrst && why = 0 then 0xFFFFFFFF else x.crc }
    let s2 := if x.mode = 0 && !d.last && !nextPast s x d then loadChain s1 n d.next else s1
    if why = 0 then s2 else descEnd s2 n true false why

/-- A hand-over that falls in this tick takes place before mailbox activity (R398, R251). -/
def handFirst (s : State) (n : Nat) : State :=
  let s0 := dmaWaits s n
  if (s0.dma n).handReady s0.now then handOver s0 n else s0

/-- DMA_HANDOVER (R398). -/
def execDmaHandover (t n : Nat) (s : State) : Host.Outcome State Fault Refusal :=
  act t s fun s => handFirst s n

/-- The contiguous runs of bytes k to k + m - 1 of a side; `fuel` bounds their number. -/
def sideRuns : Nat → Nat → Nat → Nat → Nat → Nat → List (Nat × Nat)
  | 0, _, _, _, _, _ => []
  | fuel + 1, addr, len, stride, k, m =>
    if m = 0 || len = 0 then [] else
    let o := k % len
    let l := min m (len - o)
    (addr + k / len * stride + o, l) :: sideRuns fuel addr len stride (k + l) (m - l)

/-- Read the runs of a source: bytes, poison met, and the state after it. Host bytes are `data`. -/
def readSide (s : State) (n : Nat) (d : Desc) (runs : List (Nat × Nat)) (data : List Nat) : List Byte × Bool × State :=
  if d.sspace = 1 then ((runs.foldl (fun (a : Nat) r => a + r.2) 0 |> List.range).map (fun i => BitVec.ofNat 8 (data.getD i 0)), false, s)
  else runs.foldl (fun (a : List Byte × Bool × State) r =>
    if d.sspace = 2 then (a.1 ++ rdBytes a.2.2.grove.commons r.1 r.2, a.2.1, a.2.2)
    else
      let y := regRead a.2.2 d.sregion r.1 r.2 { code := some 0, inst := n, master := 4 }
      (a.1 ++ y.1, a.2.1 || y.2.1, y.2.2)) ([], false, s)

/-- Write bytes to the runs of a destination. -/
def writeSide (d : Desc) : State → List (Nat × Nat) → List Byte → State
  | s, [], _ => s
  | s, r :: l, bs =>
    let b := bs.take r.2
    let s1 :=
      if d.dspace = 0 then regWrite s d.dregion r.1 b
      else if d.dspace = 1 then { s with host := { s.host with hostMem := wrBytes s.host.hostMem r.1 b } }
      else feedWrite s 32 0 (0x1000000 + r.1) b
    writeSide d s1 l (bs.drop r.2)

/-- A request line is asserted (Table 12-3). -/
def lineHigh (s : State) (l : Nat) : Bool :=
  (decide (8 ≤ l ∧ l ≤ 16) && !(s.tiuIn (l - 8)).queue.isEmpty) || (decide (48 ≤ l) && tget false s.move.sw (l - 48))

/-- A burst of channel n can start (R407, R409). -/
def burstReady (s : State) (x : Dma) (d : Desc) : Bool :=
  decide (x.moved < d.total) && (!d.reqen || lineHigh s d.req || x.reqPend) && !panicUp s

/-- The host port can carry a descriptor's reads and writes: its link is up and it is bus master. -/
def hostCarries (s : State) (d : Desc) : Bool := (d.sspace != 1 && d.dspace != 1) || (s.host.linkRate != 0 && s.host.busMaster)

/-- One burst of channel n, read completely and then written (R403 to R407). `data` is what the host returns to reads of
its memory; `ok` false is a bus error of the host port, as a port that cannot send gives (Table 12-2). -/
def execDmaBurst (t n : Nat) (data : List Nat) (ok : Bool) (s : State) : Host.Outcome State Fault Refusal :=
  act t s fun s =>
    let x := s.dma n
    match x.active with
    | none => s
    | some d =>
      if !burstReady s x d then s else
      let m := min d.burst (d.total - x.moved)
      let s0 := if d.reqen then s.setDma n { x with reqPend := false } else s
      let y := readSide s0 n d (sideRuns m d.saddr d.slen d.sstride x.moved m) data
      let rx := if d.sspace = 1 && ok && hostCarries s d then perfAdd y.2.2 0x0E 1 m else y.2.2
      if (!ok && (d.sspace = 1 || d.dspace = 1)) || !hostCarries s d then descEnd rx n true false 4
      else if y.2.1 then descEnd rx n true false 5
      else
        let s1 := writeSide d rx (sideRuns m d.daddr d.dlen d.dstride x.moved m) y.1
        let s2 := s1.modDma n (fun z => { z with moved := z.moved + m, crc := BitVec.ofNat 32 (crcRun z.crc.toNat y.1) })
        let s3 := perfAdd s2 0x0D n m
        if d.dspace = 1 then perfAdd s3 0x0E 0 m else s3

/-- A descriptor has moved all its bytes (R403). -/
def execDescriptorEnd (t n : Nat) (s : State) : Host.Outcome State Fault Refusal :=
  act t s fun s =>
    match (s.dma n).active with
    | some d => if (s.dma n).moved = d.total && 0 < d.total then descEnd s n false false 0 else s
    | none => s

/-- A running timer line pulses (R408). -/
def execTimerLinePulse (t l : Nat) (s : State) : Host.Outcome State Fault Refusal :=
  act t s fun s =>
    let x := s.tml l
    if x.on && x.start ≤ s.now && (s.now - x.start) % max 1 x.period = 0 && x.last ≠ some s.now then
      dmaPulse (s.setTml l { x with last := some s.now }) (32 + l)
    else s

/-! ## DMA commands -/

/-- The calling session owns DMA channel n. -/
def ownsDma (s : State) (sess n : Nat) : Bool := owns s sess 0x12 n

/-- Channel n is disabled (R437): its active descriptor is written back as STOPPED, its shadow discarded. A write-back
record that its ring has no room for waits. -/
def dmaDisable (s : State) (n : Nat) : State :=
  if !(s.dma n).on || (s.dma n).mode = 2 then s else
  (descEnd s n false true 0).modDma n (fun x => { x with on := false, shadow := none, reqPend := false, loadNext := none })

/-- DMA_SET_CHANNEL (R437). Bursts are whole here, so that every state is at a burst boundary. -/
def execDmaSetChannel (c : Cmd) (p : Block) (s : State) : Host.Outcome State Fault Refusal :=
  zci 0x0B01 2 (fun _ => [(0, 5), (5, 1), (6, 1), (16, 16), (64, 32)]) c p s fun b s =>
    let n := fld b 0 5
    let on := bit b 5
    let m := fld b 6 1
    let h := fld b 16 16
    let first := fld b 64 32
    let s := handFirst s n
    let x := s.dma n
    let used := on && (m == 0 || h != noHandle)
    chk [(!ownsDma s c.session.val n || (used && !regOwned s c.session.val h), stBusy), (used && m == 1 && !isRecRing s h, stInvalid),
         ((x.on && (on || x.mode == 2)) || (!x.on && x.wbPend.isSome), stState), (on && m == 0 && decide ((s.reg h).size < 64 * (first + 1)), stState)]
      (if !on then
         (if ((dmaDisable s n).dma n).wbPend.isSome then .later (dmaDisable s n) n [] else .ok (dmaDisable s n) 0 0)
       else
         let s1 := s.setDma n { x with on := true, mode := m, region := h, session := c.session.val, shadow := none, active := none, moved := 0, reqPend := false,
                                       dones := 0, crc := 0xFFFFFFFF, wbPend := none, loadNext := none }
         .ok (if m = 0 then loadChain s1 n first else s1) 0 0)

/-- DMA_SET_SHADOW (R398, R438). -/
def execDmaSetShadow (c : Cmd) (p : Block) (s : State) : Host.Outcome State Fault Refusal :=
  zci 0x0B02 10 (fun _ => [(0, 5), (128, 368)]) c p s fun b s =>
    let n := fld b 0 5
    let s := handFirst s n
    let x := s.dma n
    chk [(!ownsDma s c.session.val n, stBusy), (!x.on || x.mode != 1, stState), (x.shadow.isSome, stState)]
      (.ok (s.setDma n { x with shadow := some { bits := fld b 128 512 }, shAt := s.now }) 0 0)

/-- DMA_RAISE (R408, R439). -/
def execDmaRaise (c : Cmd) (p : Block) (s : State) : Host.Outcome State Fault Refusal :=
  zci 0x0B03 1 (fun _ => [(0, 4), (8, 1)]) c p s fun b s =>
    chk [(!owns s c.session.val 0x14 (fld b 0 4), stBusy)]
      (.ok { s with move := { s.move with sw := tput false s.move.sw (fld b 0 4) (bit b 8) } } 0 0)

/-- DMA_SET_TIMER (R408, R439): START_CT = 0 starts at the present tick. -/
def execDmaSetTimer (c : Cmd) (p : Block) (s : State) : Host.Outcome State Fault Refusal :=
  zci 0x0B04 2 (fun _ => [(0, 4), (4, 1), (32, 32), (64, 64)]) c p s fun b s =>
    let l := fld b 0 4
    let on := bit b 4
    let at_ := fld b 64 64
    chk [(!owns s c.session.val 0x13 l, stBusy), (on && decide (fld b 32 32 < 16), stRange), (on && tickBad s at_, stRange)]
      (.ok (s.setTml l (if on then { on := true, period := fld b 32 32, start := if at_ = 0 then s.now else at_ } else {})) 0 0)

/-- Free bytes of a channel's host ring. -/
def Dma.hroom (d : Dma) : Nat := d.hsize - (d.hwpos - d.hrpos)

/-- STATE of a channel (Table 12-11). -/
def dmaState (s : State) (n : Nat) : Nat :=
  let x := s.dma n
  if !x.on then 0
  else if x.mode = 2 then
    (match (s.reg x.sRing).recs with
     | [] => 1
     | len :: _ => if x.hroom < len || s.host.linkRate = 0 then 3 else 2)
  else match x.active with
    | some d => if d.reqen && !(lineHigh s d.req || x.reqPend) then 3 else 2
    | none => if x.wbPend.isSome then 3 else 1

/-- DMA_GET_STATUS (R440, Table 12-11). -/
def execDmaGetStatus (c : Cmd) (p : Block) (s : State) : Host.Outcome State Fault Refusal :=
  zci 0x0B05 1 (fun _ => [(0, 5), (8, 1)]) c p s fun b s =>
    let n := fld b 0 5
    let s := handFirst s n
    let x := s.dma n
    chk [(bit b 8 && !ownsDma s c.session.val n, stBusy)]
      (.ok (if bit b 8 then s.setDma n { x with bads := 0, reqMerge := 0, poisonSkip := 0 } else s) 4
        (pack [(2, dmaState s n), (2, x.mode), (1, b2n x.shadow.isSome), (3, 0), (6, match x.active with | some d => d.req | none => 0), (2, 0), (48, x.moved),
          (32, x.dones), (32, x.bads), (32, x.lastCrc.toNat), (32, x.reqMerge), (32, x.poisonSkip)]))

/-! ## Host streaming (R410 to R414) -/

/-- A streaming channel is disabled (R411, R441): its open record closes, its ring is unbound. -/
def streamDisable (s : State) (n : Nat) : State :=
  let x := s.dma n
  if !x.on || x.mode ≠ 2 then s else
  let s1 := if x.srcGrain then gapPost (streamClose s n true) (0x30 + n) x.sStream else s
  (s1.modDma n (fun y => { y with on := false })).modReg x.sRing (fun r => { r with bound := 0 })

/-- STREAM_SET (R410, R414, R441). -/
def execStreamSet (c : Cmd) (p : Block) (s : State) : Host.Outcome State Fault Refusal :=
  zci 0x0B06 4 (fun _ => [(0, 5), (5, 1), (6, 1), (7, 1), (8, 8), (16, 16), (32, 7), (48, 6), (64, 32), (96, 16), (112, 16), (128, 64), (192, 64)]) c p s fun b s =>
    let n := fld b 0 5
    let on := bit b 5
    let gr := bit b 6
    let id := fld b 8 8
    let h := fld b 16 16
    let k := fld b 32 7
    let hs := fld b 64 32
    let rate := fld b 96 16
    let x := s.dma n
    let new : Dma := { x with on := true, mode := 2, session := c.session.val, p := b, hwpos := 0, hrpos := 0, updCnt := 0, dones := 0, sigAt := 0, grains := [],
                              first := if gr then bindGrain s id else 0, perNo := 0, perN := 0, doneAt := s.now }
    let s0 := (s.setDma n new).modReg h (fun r => { r with bound := n + 1 })
    let s1 := if gr then bindNow s0 (0x30 + n) id else s0
    if !on then
      chk [(!ownsDma s c.session.val n, stBusy), (x.on && x.mode != 2, stState)] (.ok (streamDisable s n) 1 noIndex)
    else
      chk [(!ownsDma s c.session.val n || !regOwned s c.session.val h, stBusy),
           ((gr && !streamId id) || !isRecRing s h || (gr && k % 2 != 0) || hs % 4096 != 0 || (!gr && rate == 0) || fld b 128 64 % 4096 != 0 ||
             fld b 192 64 % 64 != 0, stInvalid),
           (x.on || (gr && !strRuns s id) || (s.reg h).bound != 0, stState),
           ((gr && decide (k < 2 ∨ 64 < k ∨ (s.reg h).size < grainRecLen k (if id < 16 then 392 else 1032))) || decide (hs < 65536 ∨ 0x40000000 < hs) ||
             (!gr && decide (29500 < rate)) || decide (hs < (s.reg h).size), stRange),
           (decide (streamCap s < streamLoads s1) || (gr && (decide (rawLimit < rawLoad s1) || decide (ddcLimit < ddcLoad s1))), stNoRes)]
        (.ok s1 1 (if gr then new.first % 2^48 else noIndex))

/-- A streaming channel may finish a record of a length now (R414): its load is not passed in the present 1 ms period, or
over the time since its latest record. -/
def streamDue (s : State) (x : Dma) (len : Nat) : Bool :=
  let used := if x.perNo = periodOf s.now + 1 then x.perN else 0
  decide (1000 * (used + len) ≤ streamRate s x.p) || decide (1600000000 * len ≤ (s.now - x.doneAt) * streamRate s x.p)

/-- Write a record into the host ring at HWPOS, wrapping (R412). -/
def hostRingPut (m : Mem) (base size pos : Nat) (bs : List Byte) : Mem :=
  let o := pos % max 1 size
  wrBytes (wrBytes m (base + o) (bs.take (size - o))) base (bs.drop (size - o))

/-- The position block of a channel. -/
def posBlock (x : Dma) : List Byte := toBytes (pack [(64, x.hwpos), (32, x.updCnt), (32, x.poisonSkip)]) 64

/-- A streaming channel copies one record into its host ring (R412, R413): a record with a poisoned line is passed over.
The port's read-ahead then holds `held` bytes: below 512 KiB it raises a panic (Table 11-2). -/
def execStreamRecordCopy (t n held : Nat) (s : State) : Host.Outcome State Fault Refusal :=
  act t s fun s =>
    let s0 := if held < 524288 then panicRaise s 3 0 else s
    let x := s0.dma n
    let h := x.sRing
    match (s0.reg h).recs with
    | [] => s0
    | len :: _ =>
      if !x.on || x.mode ≠ 2 || x.hroom < len || s0.host.linkRate = 0 || !s0.host.busMaster || !streamDue s0 x len then s0 else
      let y := ringRead s0 h (s0.reg h).rpos len { code := some 2, inst := n, master := 6 }
      let s1 := ringAck y.2.2 h ((s0.reg h).rpos + len)
      if y.2.1 then s1.modDma n (fun z => { z with poisonSkip := sat32 z.poisonSkip }) else
      let used := if x.perNo = periodOf s.now + 1 then x.perN else 0
      let z : Dma := { s1.dma n with hwpos := x.hwpos + len, updCnt := (x.updCnt + 1) % 2^32, perNo := periodOf s.now + 1, perN := used + len, doneAt := s.now,
                                     dones := (x.dones + 1) % 2^32, sigAt := if x.sigAt ≤ s.now then s.now + 1600 * x.moderate else x.sigAt }
      let m := wrBytes (hostRingPut s1.host.hostMem x.haddr x.hsize x.hwpos y.1) x.hpos (posBlock z)
      let s2 := perfAdd (perfAdd { s1.setDma n z with host := { s1.host with hostMem := m } } 0x0D n len) 0x0E 0 (len + 64)
      if x.sIrq && x.sigAt ≤ s.now then signal s2 x.sVector else s2

/-- The streaming doorbell of a channel is written (R412): a step past what was written is ignored and raises a source. A channel
not in STREAM mode ignores it (Table 13-3). -/
def strdbWrite (s : State) (n v : Nat) : State :=
  let x := s.dma n
  if !x.on || x.mode ≠ 2 then drwErr s 3 else
  let d := (v + 2^32 - x.hrpos % 2^32) % 2^32
  if d ≤ x.hwpos - x.hrpos then s.setDma n { x with hrpos := x.hrpos + d } else raiseFault (drwErr s 3) 0x2120 { master := 12, access := 2 }

/-- STRDB_WRITE: a write of STRDBn (R412, R453). -/
def execStrdbWrite (t n v : Nat) (s : State) : Host.Outcome State Fault Refusal :=
  act t s fun s => strdbWrite s n v

end Sys2Proof.Machine
end

