-- ==== Sys2Proof/Machine/Stor.lean ====
section
/-! DEFINITION. The storage port, volumes and recordings: their commands of group 0x0B and what the drives report
(12_data_movement_and_recording.md, R415 to R436, R442 to R446). -/

namespace Sys2Proof.Machine

/-! ## Links and drives (R415 to R419) -/

/-- Links of a bifurcation. -/
def linkCount (bifur : Nat) : Nat := [1, 2, 4].getD bifur 1

/-- Enabled drives that have not failed. -/
def drivesOk (s : State) : List Nat := (List.range 4).filter (fun n => (s.link n).ok)

/-- Members of the mounted volume. -/
def memberLinks (s : State) : List Nat := (List.range 4).filter (fun n => (s.link n).member)

/-- A link word of Table 12-13. -/
def linkWord (s : State) (n : Nat) : Nat :=
  let x := s.link n
  pack [(3, x.rate), (5, x.width), (1, b2n x.flit), (3, x.drive), (1, b2n x.member), (3, 0)]

/-- The four link words. -/
def linkWords (s : State) : Nat := pack ((List.range 4).map (fun n => (16, linkWord s n)))

/-- STOR_LINK of a link (Table 12-14). -/
def linkPost (s : State) (n : Nat) : State := post s 0x0B05 (pack [(2, n), (3, (s.link n).rate), (5, (s.link n).width), (1, b2n (s.link n).flit)])

/-- A trained link goes down. -/
def linkDown (s : State) (n : Nat) : State :=
  if (s.link n).rate = 0 then s else linkPost (s.modLink n (fun x => { x with rate := 0, width := 0, flit := false })) n

/-- The namespace meets R418 for a proving area. -/
def Link.fits (x : Link) (prove : Nat) : Bool := x.suitable && (x.lba == 512 || x.lba == 4096) && decide (prove + 5 ≤ x.stripes)

/-! ## Labels, directory entries and stripe headers as a reader takes them (Tables 12-6 to 12-8) -/

/-- MAGIC matches, and the CRC in the last four of n bytes holds. -/
def sound (magic n : Nat) (bs : List Byte) : Bool :=
  ofBytes (bs.take 8) == magic && crc32c (bs.take (n - 4)) == ofBytes ((bs.drop (n - 4)).take 4)

/-- Whole volume stripes of a drive of a volume (R420): S over the enabled drives. -/
def stripesEach (s : State) (prove : Nat) : Nat :=
  ((drivesOk s).map (fun n => (s.link n).stripes - prove - 2)).foldl min ((s.link ((drivesOk s).headD 0)).stripes - prove - 2)

/-- Table 12-6: the label that STOR_FORMAT writes to drive d, at link n. -/
def labelText (s : State) (n d prove volId : Nat) : List Byte :=
  let x := s.link n
  let k := (drivesOk s).length
  let b := toBytes (pack [(64, magicVol), (16, 1), (8, k), (8, d), (32, x.lba), (64, volId), (64, x.stripes), (32, prove), (32, 0), (64, k * stripesEach s prove),
    (80, timeRead s), (64, (utcNow s).getD 0), (1, b2n (utcNow s).isSome), (15, 0), (128, Config.keyId.toNat), (160, x.serial), (3232, 0)]) 508
  b ++ toBytes (crc32c b) 4

/-- The labels of a format (R422, R429): the drives take their numbers in the order of their links, VOLUME_ID is drawn from the engine's
random source. -/
def writeLabels (s : State) (prove : Nat) : State :=
  let v := drawFree 64 s
  let ds := drivesOk s
  (List.range ds.length).foldl (fun a d => a.modLink (ds.getD d 0) (fun x =>
    { x with label := (labelText s (ds.getD d 0) d prove v.1).map BitVec.toNat })) v.2

/-- A directory entry read from its 512 bytes. -/
def readEntry (bs : List Byte) : DirEnt :=
  let v := ofBytes bs
  let n := fld v 120 8
  { gen := fld v 64 32, st := fld v 112 4, end_ := fld v 116 4, nsrc := n, first := fld v 128 64, last := fld v 192 64, openT := fld v 256 80,
    closeT := fld v 336 80, openUtc := fld v 416 64, utcValid := bit v 480, calCount := fld v 512 32, badStripes := fld v 544 32, bytes := fld v 576 64,
    gapGrains := fld v 640 32, recSkip := fld v 672 32, keyId := fld v 704 128, sources := (List.range n).map (fun j => fld v (832 + 64 * j) 64),
    digest := fld v 1856 384, sig := fld v 2240 768 }

/-- Take one copy of an entry (R423): the copy whose CRC holds, the larger GEN when both hold. -/
def takeEntry (s : State) (n : Nat) (bs : List Byte) : State :=
  if !sound magicRec 512 bs then s else
  let e := readEntry bs
  if (s.dirE n).gen < e.gen then s.setDirE n e else s

/-! ## Mounting (R430 to R432) -/

/-- A mount ends without a volume. -/
def mountFail (s : State) (status : Nat) : State := storFinish (setJob s 0) 0x0B09 status 0 0

/-- Measured rate of a drive of the volume. -/
def driveMeas (s : State) (d : Nat) : Nat :=
  (((List.range 4).filter (fun n => (s.link n).ok && (s.link n).drive == d)).map (fun n => (s.link n).meas)).headD 0

/-- The volume is mounted (R430, R443). -/
def mountDone (s : State) : State :=
  let ends := (s.move.dir.filter (fun e => e.2.gen != 0)).map (fun e => (e.2.last + 1) % 2^64)
  let s1 := { s with move := { s.move with job := 0, mounted := true, next := if ends.isEmpty then 2 else ends.foldl max 0 } }
  let s2 := mountPost ((drivesOk s1).foldl (fun a n => a.modLink n (fun x => { x with member := true })) s1)
  let m := s2.move
  storFinish s2 0x0B09 0 6 (pack [(3, m.drives), (1, b2n m.repaired), (28, 0), (32, m.admitRate), (64, m.vstripes), (64, m.next),
    (32, driveMeas s 0), (32, driveMeas s 1), (32, driveMeas s 2), (32, driveMeas s 3)])

/-- Look for an open entry to repair; a repair signs and needs a usable identity key (R432, R515). -/
def mountRepair (s : State) : State :=
  match s.move.dir.find? (fun e => e.2.st == 1) with
  | none => mountDone s
  | some e =>
    if !keyUsable s then mountFail s stDenied
    else { s with move := { s.move with job := 5, jobAt := 0, repEntry := e.1, hdrs := [], recLim := [] } }

/-- The repaired entry is sealed and written (R432). `n` stripes were read, with `bytes` of chunks. -/
def repairEntry (s : State) (n bytes : Nat) : State :=
  let k := s.move.repEntry
  let s1 := sealEntry s k (fun e => { e with last := e.first + n - 1, bytes := bytes, gapGrains := 0xFFFFFFFF, closeT := 0, st := 3, end_ := 4 })
  { s1 with move := { s1.move with job := 6, repaired := true } }

/-- The sum of FILL over stripe headers (Table 12-8). -/
def fillSum (hdrs : List Nat) : Nat :=
  ((List.range (hdrs.length / 256)).map (fun i => fld (ofBytes (bytesOf ((hdrs.drop (256 * i)).take 256))) 256 32)).sum

/-- Stripe headers and their bytes of chunks read so far in a repair. -/
def repairRead (s : State) : Nat × Nat := (s.move.hdrs.length / 256, fillSum s.move.hdrs)

/-- A stripe header continues the recording under repair: HCRC, VOLUME_ID, ENTRY and SEQ (R432). -/
def headerFits (s : State) (bs : List Byte) : Bool :=
  let v := ofBytes bs
  sound magicStr 256 bs && fld v 64 64 == s.move.volId && fld v 192 16 == s.move.repEntry && fld v 224 32 == s.move.hdrs.length / 256

/-- Every label has been read: the volume's drives are checked (R430 step 1, R418). -/
def labelsRead (s : State) : State :=
  let ds := drivesOk s
  let v := fun n => ofBytes (bytesOf (s.link n).label)
  let d := ds.length
  let v0 := v (ds.headD 0)
  let same := ds.all (fun n => !(s.link n).label.isEmpty && fld (v n) 128 64 == fld v0 128 64 && fld (v n) 80 8 == d && fld (v n) 672 160 == (s.link n).serial)
  let nums := ds.map (fun n => fld (v n) 88 8)
  if !same || !((List.range d).all (fun k => nums.contains k)) then mountFail s stState
  else
    if ds.any (fun n => !(s.link n).fits (fld v0 256 32)) then mountFail s stUnsup
    else
      let vs := fld v0 320 64
      let s1 := ds.foldl (fun a n => a.modLink n (fun x => { x with drive := fld (v n) 88 8 })) s
      { s1 with move := { s1.move with job := 3, volId := fld v0 128 64, drives := d, vstripes := vs } }

/-- The measurement ends with the rate of each link's drive in MB/s (R431): V is set, the directory is read next. -/
def execMountMeasurementEnd (t : Nat) (rates : List Nat) (s : State) : Host.Outcome State Fault Refusal :=
  act t s fun s =>
    if s.move.job ≠ 3 then s else
    let ds := drivesOk s
    let d : ℚ := ds.length
    let s1 := ds.foldl (fun a n => a.modLink n (fun x => { x with meas := rates.getD n 0 })) s
    let low := (ds.map (fun n => rates.getD n 0)).foldl min (rates.getD (ds.headD 0) 0)
    let cap := (ds.map (fun n => linkCap (s.link n).rate (s.link n).width (s.link n).flit)).foldl min (29500000000 * 4)
    let v : ℚ := min (min (d * 9 / 10 * (low * 1000000)) (d * cap)) 118000000000
    { s1 with move := { s1.move with job := 4, admitV := (v * 13).floor.toNat, admitRate := (v / 1000000).floor.toNat, dir := [], repaired := false } }

/-! ## The end of a recording (R428, R436) -/

/-- The recording stops at the present tick for a failed drive (R436): what its surviving drives can still complete
without a break is kept. -/
def recDriveLost (s : State) : State :=
  let m := s.move
  let base := (s.dirE m.entry).first
  let lost := fun (x : Stripe) => !x.done && !((List.range 4).any (fun n => (s.link n).ok && (s.link n).member && (s.link n).drive == (base + x.seq) % max 1 m.drives))
  let cut := ((m.stripes.filter lost).map (·.seq)).foldl min m.seqNo
  let kept := m.hdrs.take (256 * cut)
  let bad := (m.recBad.filter (fun q => decide (q < cut))).length
  let s1 := modEntry s (fun e => { e with last := e.first + cut - 1, bytes := fillSum kept, badStripes := bad, gapGrains := m.gapGrains, closeT := timeRead s })
  let s2 := m.recSrc.foldl (fun a e => if srcKind e = 2 then a.modReg (srcRing e) (fun r => { r with bound := 0 }) else a) s1
  let s3 := { s2 with move := { s2.move with
    ending := 2, recClose := none, open_ := [], fill := 0, chunksN := 0, stripes := m.stripes.filter (fun x => decide (x.seq < cut)),
    hdrs := kept, flushing := false, flushOf := [], job := 9 } }
  if (memberLinks s3).isEmpty || (memberLinks s3).all (fun n => !(s3.link n).ok) then recGone (recSeal s3) else endCheck s3

/-- A drive fails (R419): `cause` of Table 12-14, and the NVMe status of cause 2. -/
def driveFail (s : State) (n cause status : Nat) : State :=
  if !(s.link n).ok then s else
  let member := (s.link n).member
  let s0 := s.modLink n (fun x => { x with ok := false })
  let s1 := if cause = 0 then linkDown s0 n else s0
  let s2 := raiseFault (post s1 0x0B06 (pack [(2, n), (2, 0), (4, cause), (8, 0), (16, if cause = 2 then status else 0)])) (0x2200 + n) { master := 13, inst := n }
  let busy := s.move.mounted && member
  let s3 := openWindow s2 (0x2200 + n) [0x21, 0x22] [] (!busy)
  let s4 := (s3.host.inProg.filter (fun p => p.opcode == 0x0B0E && p.unit_ == n)).foldl (fun a p => finish a p stFaulted 0 0) s3
  if !busy then
    (if s4.move.job = 1 then storFinish (setJob s4 0) 0x0B08 stFaulted 0 0
     else if 2 ≤ s4.move.job && s4.move.job ≤ 6 then mountFail s4 stFaulted else s4)
  else if s4.move.entry ≠ 0xFFFF then recDriveLost (storFinish s4 0x0B0B stFaulted 0 0)
  else unmountNow (storFinish s4 0x0B0A stFaulted 0 0)

/-- A drive fails by link loss, AER, a timeout, an error status or CFS (R419). -/
def execDriveFail (t n cause status : Nat) (s : State) : Host.Outcome State Fault Refusal :=
  act t s fun s => driveFail s n cause status

/-! ## What the drives complete -/

/-- The entry of REC_OPEN has been written (R433): data are taken from the first grain boundary after this tick. -/
def recBegun (s : State) : State :=
  let m := s.move
  let k := m.recSrc.length
  let first := fun (a : State) (e : Nat) => if srcKind e = 2 then (a.reg (srcRing e)).rpos else bindGrain a (srcStream e)
  let s1 := { s with move := { m with job := 0, cpAt := s.now + m.checkpoint * periodCt, recNext := (List.range k).foldl (fun t j =>
    if srcKind (m.recSrc.getD j 0) = 1 then tput 0 t j (first s (m.recSrc.getD j 0)) else t) [] } }
  let res := pack ([(16, m.entry), (64, (s.dirE m.entry).first), (48, 0)] ++ m.recSrc.map (fun e => (64, if srcKind e = 2 then first s e else first s e % 2^48)))
  let s2 := m.recSrc.foldl (fun a e => if srcKind e = 1 then bindNow a 0x50 (srcStream e) else a) s1
  recPull (storFinish s2 0x0B0B 0 18 res)

/-- A Flush of every drive ends (R435): stripes completed before it are durable. -/
def flushDone (s : State) : State :=
  endCheck (flushCheck { s with move := { s.move with flushing := false, stripes := s.move.stripes.filter (fun x => !x.flush) } })

/-- The drive of link n completes its Flush of a round; with the last one the round is over. -/
def flushStep (s : State) (n : Nat) (after : State → State) : State :=
  if !s.move.flushOf.contains n then s else
  let l := s.move.flushOf.erase n
  let s1 := { s with move := { s.move with flushOf := l } }
  if l.isEmpty then after s1 else s1

/-- A command of the writing of an entry completes: the commands follow one another (R423). -/
def entryStep (s : State) (n kind : Nat) (after : State → State) : State :=
  if (entryCmds s)[s.move.jobAt]? ≠ some (n, kind) then s else
  let k := s.move.jobAt + 1
  if k = (entryCmds s).length then after { s with move := { s.move with jobAt := 0 } } else { s with move := { s.move with jobAt := k } }

/-- What the completion of a drive's command brings the storage operation in progress. `fin` marks the last command of a stage whose
number of commands hangs on the drives (format, labels, directory) and the end of the shutdown; `data` is what a Read returned: a label's
512 bytes; the entry number and then 512-byte entries of a directory block; a 256-byte stripe header. -/
def jobStep (s : State) (n kind : Nat) (fin : Bool) (data : List Nat) : State :=
  match s.move.job with
  | 1 =>
    if !fin then s else
    let p := match storCmd s 0x0B08 with | some q => q.data.headD 4096 | none => 4096
    let d := (drivesOk s).length
    storFinish (setJob s 0) 0x0B08 0 2 (pack [(3, d), (61, 0), (64, d * stripesEach s p)])
  | 2 =>
    let s1 := if (s.link n).label.isEmpty && sound magicVol 512 (bytesOf (data.take 512)) then s.modLink n (fun x => { x with label := data.take 512 }) else s
    if fin then labelsRead s1 else s1
  | 4 =>
    let i := data.headD 0
    let s1 := (List.range ((data.length - 1) / 512)).foldl (fun a k => takeEntry a (i + k) (bytesOf ((data.drop (1 + 512 * k)).take 512))) s
    if fin then mountRepair s1 else s1
  | 5 =>
    if headerFits s (bytesOf (data.take 256)) then
      let s1 := { s with move := { s.move with hdrs := s.move.hdrs ++ data.take 256 } }
      if s1.move.vstripes ≤ (s1.dirE s1.move.repEntry).first + (repairRead s1).1 then repairEntry s1 (repairRead s1).1 (repairRead s1).2 else s1
    else repairEntry s (repairRead s).1 (repairRead s).2
  | 6 => entryStep s n kind (fun s => mountRepair { s with move := { s.move with repEntry := 0xFFFF, hdrs := [] } })
  | 7 => if kind = 3 then flushStep s n (fun s => s) else if fin && s.move.flushOf.isEmpty then storFinish (unmountNow s) 0x0B0A 0 0 0 else s
  | 8 => entryStep s n kind recBegun
  | 10 => if kind = 3 then flushStep s n recSeal else s
  | 11 => entryStep s n kind recGone
  | _ => if kind = 3 && s.move.flushing then flushStep s n flushDone else s

/-- An NVMe drive posts a completion (R417, R419). `kind` is 0 for an admin command, 1 a Write, 2 a Read, 3 a Flush. -/
def execDriveCommandCompletion (t n status kind : Nat) (fin : Bool) (data : List Nat) (s : State) : Host.Outcome State Fault Refusal :=
  act t s fun s =>
    if !(s.link n).ok then s else
    let logs := if kind = 0 then s.host.inProg.filter (fun p => p.opcode == 0x0B0E && p.unit_ == n) else []
    match logs with
    | p :: _ =>
      let s1 := if status = 0 then regWrite s (p.data.headD 0) (p.data.getD 1 0) (bytesOf ((List.range 4096).map (fun i => data.getD i 0))) else s
      let s2 := finish s1 p (if status = 0 then 0 else stFaulted) 1 (fld status 0 16)
      if status = 0 then s2 else driveFail s2 n 2 status
    | [] => if status ≠ 0 then driveFail s n 2 status else jobStep s n kind fin data

/-- A drive completes the write of stripe `q` of the open recording (R435); a Flush follows once every stripe up to a
checkpoint's has completed. The drive's read-ahead then holds `held` bytes: below 1 MiB it raises a panic (Table 11-2). -/
def execStripeComplete (t q held : Nat) (s : State) : Host.Outcome State Fault Refusal :=
  act t s fun s =>
    match s.move.stripes.find? (fun x => x.seq == q && !x.done) with
    | none => s
    | some x =>
      let d := ((s.dirE s.move.entry).first + q) % max 1 s.move.drives
      let n := ((memberLinks s).find? (fun k => (s.link k).drive == d)).getD 0
      let s0 := if held < 1048576 then panicRaise s 2 n else s
      let s1 := { s0 with move := { s0.move with stripes := s0.move.stripes.map (fun y => if y.seq = q then { y with done := true } else y) } }
      recPull (endCheck (flushCheck (perfAdd s1 0x0F n (ceilDiv (256 + x.fill) 4096 * 4096))))

/-- Every CHECKPOINT ms after the open, the open stripe is closed and handed over, and a Flush follows (R435). With no open stripe, it
follows the last stripe handed over. -/
def execCheckpoint (t : Nat) (s : State) : Host.Outcome State Fault Refusal :=
  act t s fun s =>
    if !recTakes s || s.now < s.move.cpAt then s else
    let s1 := handFull { s with move := { s.move with cpAt := s.move.cpAt + s.move.checkpoint * periodCt } } true
    let s2 := { s1 with move := { s1.move with stripes := s1.move.stripes.map (fun x => if x.seq + 1 = s1.move.seqNo then { x with check := true } else x) } }
    recPull (flushCheck s2)

/-! ## The port -/

/-- The trained states of a link that Table 12-4 supports: rate up to MAXRATE, width within the bifurcation, FLIT mode. -/
def storLinkLegal (s : State) (rate width : Nat) (flit : Bool) : Bool :=
  rateLegal rate flit && decide (rate ≤ s.move.maxRate) && [1, 2, 4, 8, 16].contains width && decide (width * linkCount s.move.bifur ≤ 16)

/-- STOR_SET_PORT's training of link n ends and its drive is enumerated (R416); with the last link the command completes. -/
def linkTrained (s : State) (p : InProg) (n : Nat) (x : Link) : State :=
  let s1 := linkPost (s.setLink n x) n
  let left := (p.data.headD 0) &&& (15 - 2^n)
  if left = 0 then finish s1 p 0 1 (linkWords s1)
  else { s1 with host := { s1.host with inProg := s1.host.inProg.map (fun q => if q = p then { p with data := [left] } else q) } }

/-- A link's training ends (R415, R416): link n with its trained state; `ok` says that an NVMe drive of Table 12-5 was found, with its
namespace of `stripes` whole stripes of 4 MiB and LBA size, the checks of R418 passed or not, its serial number and write cache. Only
STOR_SET_PORT enables a drive: a link that trains again at another time only shows its new state, and one that goes down fails its drive
(R419). -/
def execStorageLinkUp (t n rate width : Nat) (flit ok : Bool) (stripes lba : Nat) (suitable : Bool) (serial : Nat) (vwc : Bool) (s : State) :
    Host.Outcome State Fault Refusal :=
  act t s fun s =>
    if !s.move.portOn || linkCount s.move.bifur ≤ n || (rate != 0 && !storLinkLegal s rate width flit) then s else
    let x : Link := { rate := rate, width := if rate = 0 then 0 else width, flit := flit && rate != 0, ok := ok && rate != 0, stripes := stripes, lba := lba,
                      suitable := suitable, serial := serial, vwc := vwc }
    match storCmd s 0x0B07 with
    | some p => if bit (p.data.headD 0) n then linkTrained s p n x else s
    | none =>
      if rate = 0 then (if (s.link n).ok then driveFail s n 0 0 else linkDown s n)
      else linkPost (s.modLink n (fun y => { y with rate := rate, width := width, flit := flit })) n

/-- The calling session owns the storage port. -/
def ownsPort (s : State) (sess : Nat) : Bool := owns s sess 0x15 0

/-- A storage command is in progress. -/
def storBusy (s : State) : Bool :=
  (decide (1 ≤ s.move.job ∧ s.move.job ≤ 8)) || s.host.inProg.any (fun p => p.opcode == 0x0B07)

/-- The links leave for electrical idle or for training: no drive is enabled. -/
def portIdle (s : State) : State := (List.range 4).foldl (fun a n => (linkDown a n).setLink n {}) s

/-- STOR_SET_PORT (R416, R442). -/
def execStorSetPort (c : Cmd) (p : Block) (s : State) : Host.Outcome State Fault Refusal :=
  zci 0x0B07 1 (fun _ => [(0, 2), (4, 3), (8, 1)]) c p s fun b s =>
    let bf := fld b 0 2
    let mr := fld b 4 3
    let on := bit b 8
    let s1 := portIdle s
    chk [(!ownsPort s c.session.val, stBusy), (bf == 3 || mr == 0 || mr == 7, stInvalid), (s.move.mounted, stState), (storBusy s, stBusy)]
      (if on then .later { s1 with move := { s1.move with portOn := true, bifur := bf, maxRate := mr } } 0 [2 ^ linkCount bf - 1]
       else .ok { s1 with move := { s1.move with portOn := false } } 1 0)

/-- STOR_FORMAT (R418, R429, R443). -/
def execStorFormat (c : Cmd) (p : Block) (s : State) : Host.Outcome State Fault Refusal :=
  zci 0x0B08 1 (fun _ => [(0, 32)]) c p s fun b s =>
    let pr := fld b 0 32
    chk [(!ownsPort s c.session.val, stBusy), (!s.move.portOn || s.move.mounted || (drivesOk s).isEmpty, stState), (storBusy s, stBusy),
         (decide (pr < 4096 ∨ 262144 < pr), stRange), ((drivesOk s).any (fun n => !(s.link n).fits pr), stUnsup)]
      (.later (setJob (writeLabels s pr) 1) 0 [pr])

/-- STOR_MOUNT (R430, R443). -/
def execStorMount (c : Cmd) (p : Block) (s : State) : Host.Outcome State Fault Refusal :=
  zci 0x0B09 1 (fun _ => []) c p s fun _ s =>
    chk [(!ownsPort s c.session.val, stBusy), (!s.move.portOn || s.move.mounted || (drivesOk s).isEmpty, stState), (storBusy s, stBusy)]
      (.later (setJob ((List.range 4).foldl (fun a n => a.modLink n (fun x => { x with label := [] })) s) 2) 0 [])

/-- STOR_UNMOUNT (R443). -/
def execStorUnmount (c : Cmd) (p : Block) (s : State) : Host.Outcome State Fault Refusal :=
  zci 0x0B0A 1 (fun _ => []) c p s fun _ s =>
    chk [(!ownsPort s c.session.val, stBusy), (!s.move.mounted || s.move.entry != 0xFFFF, stState), (storBusy s, stBusy)]
      (.later { s with move := { s.move with job := 7, flushOf := flushLinks s } } 0 [])

/-! ## Recordings -/

/-- Source j of a REC_OPEN block. -/
def recEntry (b j : Nat) : Nat := fld b (128 + 64 * j) 64

/-- Sources of a REC_OPEN block. -/
def recEntries (b : Nat) : List Nat := (List.range (min 16 (fld b 0 5))).map (recEntry b)

/-- The lowest empty directory entry. -/
def freeEntry (s : State) : Option Nat := (List.range 4096).find? (fun n => (s.dirE n).gen == 0)

/-- The state with a recording opened, its entry being written (R433). -/
def recStart (s : State) (sess b : Nat) : State :=
  let es := recEntries b
  let n := (freeEntry s).getD 0
  let e : DirEnt := { gen := 1, st := 1, nsrc := es.length, first := s.move.next, last := 2^64 - 1, openT := timeRead s, openUtc := (utcNow s).getD 0,
                      utcValid := (utcNow s).isSome, calCount := s.cal.count, keyId := Config.keyId.toNat, sources := es }
  let s1 := es.foldl (fun a x => if srcKind x = 2 then a.modReg (srcRing x) (fun r => { r with bound := 33 }) else a) (s.setDirE n e)
  { s1 with move := { s1.move with
    entry := n, recOwner := sess, recLoad := (recLoadOf s es / 1000000).ceil.toNat, recBuf := fld b 16 16, checkpoint := fld b 32 32, recSrc := es, recNext := [],
    recEp := [], open_ := [], seqNo := 0, fill := 0, chunksN := 0, stripes := [], ending := 0xFF, gapGrains := 0, job := 8, scrc := 0xFFFFFFFF, topen := 0, hdrs := [],
    flushing := false, recClose := none, recLim := [], recFin := [], recBad := [], flushOf := [], jobAt := 0 } }

/-- REC_OPEN (R433, R444). -/
def execRecOpen (c : Cmd) (p : Block) (s : State) : Host.Outcome State Fault Refusal :=
  zci 0x0B0B 18 (fun b => [(0, 5), (16, 16), (32, 32)] ++ (List.range (min 16 (fld b 0 5))).map (fun j => (128 + 64 * j, 48))) c p s fun b s =>
    let k := fld b 0 5
    let es := recEntries b
    let h := fld b 16 16
    let cp := fld b 32 32
    let rings := (es.filter (fun e => srcKind e == 2)).map srcRing
    let grains := (es.filter (fun e => srcKind e == 1)).map srcStream
    let s1 := recStart s c.session.val b
    chk [(!ownsPort s c.session.val || !regOwned s c.session.val h || rings.any (fun r => !regOwned s c.session.val r), stBusy),
         (es.any (fun e => srcKind e != 1 && srcKind e != 2) || grains.any (fun i => !streamId i) || rings.any (fun r => !isRecRing s r), stInvalid),
         (s.flt.signBad, stFaulted),
         (!s.move.mounted || s.move.entry != 0xFFFF || grains.any (fun i => !strRuns s i) || rings.any (fun r => (s.reg r).bound != 0), stState), (storBusy s, stBusy),
         (decide (k < 1 ∨ 16 < k) || (s.reg h).size % stripeSize != 0 || decide ((s.reg h).size < 16 * s.move.drives * stripeSize) ||
           decide (cp < 10 ∨ 60000 < cp) || (es.any (fun e => srcKind e == 2 && srcRate e == 0)) || decide (s.move.vstripes ≤ s.move.next), stRange),
         (decide (recLine s < recLoadOf s es) || (freeEntry s).isNone || decide (rawLimit < rawLoad s1) || decide (ddcLimit < ddcLoad s1), stNoRes)]
      (.laterR s1 0 [] (h :: rings))

/-- The open recording is to end as REC_CLOSE ends it (R436): grains whose first sample lies before this tick, and records
written before it, are still taken. -/
def recStop (s : State) (end_ : Nat) : State :=
  let m := s.move
  let k := m.recSrc.length
  let lim := (List.range k).foldl (fun t j =>
    if srcKind (m.recSrc.getD j 0) = 2 then tput 0 t j (s.reg (srcRing (m.recSrc.getD j 0))).wpos else t) []
  let s1 := { s with move := { m with recClose := some (s.now, end_), recLim := lim, recFin := [] } }
  let s2 := (List.range k).foldl (fun a j =>
    let e := m.recSrc.getD j 0
    if srcKind e = 1 && !strRuns a (srcStream e) then recFinish a j else a) s1
  recPull s2

/-- REC_CLOSE (R436, R444). -/
def execRecClose (c : Cmd) (p : Block) (s : State) : Host.Outcome State Fault Refusal :=
  zci 0x0B0C 1 (fun _ => []) c p s fun _ s =>
    chk [(!ownsPort s c.session.val, stBusy), (s.move.entry == 0xFFFF || s.move.ending != 0xFF || s.move.job == 8 || s.move.recClose.isSome, stState)]
      (.later (recStop s 0) 0 [])

/-- STOR_GET_STATUS (R445, Table 12-13). -/
def execStorGetStatus (c : Cmd) (p : Block) (s : State) : Host.Outcome State Fault Refusal :=
  zci 0x0B0D 1 (fun _ => []) c p s fun _ s =>
    let m := s.move
    let four := List.range 4
    .ok s 8 (pack ([(2, m.bifur), (1, b2n m.mounted), (1, b2n (m.entry != 0xFFFF))] ++ four.map (fun n => (1, b2n (s.link n).ok)) ++ [(8, 0), (64, linkWords s),
      (16, m.entry), (32, 0), (64, m.vstripes), (64, m.next), (32, m.admitRate), (32, m.recLoad), (32, if m.entry = 0xFFFF then 0 else bufFree s), (32, m.gapGrains)] ++
      four.map (fun n => (32, (s.link n).meas))))

/-- STOR_LOG_PAGE (R446). -/
def execStorLogPage (c : Cmd) (p : Block) (s : State) : Host.Outcome State Fault Refusal :=
  zci 0x0B0E 2 (fun _ => [(0, 2), (8, 8), (16, 16), (64, 64)]) c p s fun b s =>
    let h := fld b 16 16
    let off := fld b 64 64
    chk [(!ownsPort s c.session.val || !regOwned s c.session.val h, stBusy), (off % 64 != 0, stInvalid), (decide (fld b 8 8 < 1 ∨ 3 < fld b 8 8), stUnsup),
         (!(s.link (fld b 0 2)).ok, stState), (regPast s h off 4096, stRange)]
      (.laterR s (fld b 0 2) [h, off] [h])

end Sys2Proof.Machine
end

