-- ==== Sys2Proof/Machine/Host.lean ====
section
/-! DEFINITION. The host interface: system commands, resource allocation, firmware update, the Direct Register Window, sessions,
rings and the host port's own events (13_host_interface_and_zci.md). -/

namespace Sys2Proof.Machine

/-! ## System commands (R474, R476) -/

/-- SYS_GET_INFO (R474). -/
def execSysGetInfo (c : Cmd) (p : Block) (s : State) : Host.Outcome State Fault Refusal :=
  zci 0x0001 1 (fun _ => []) c p s fun _ s =>
    .ok s 8 (pack [(8, 0), (8, 1), (24, s.sec.fwver), (24, 0), (32, s.sec.secver), (32, 0), (128, Config.serial.toNat), (128, Config.keyId.toNat),
      (3, s.sec.life), (5, 0), (4, c.session.val), (4, 0), (9, linkReg s), (103, 0)])

/-- SYS_NOP (R476). -/
def execSysNop (c : Cmd) (p : Block) (s : State) : Host.Outcome State Fault Refusal :=
  zci 0x0008 1 (fun _ => []) c p s fun _ s => .ok s 0 0

/-- A session other than the caller is not CLOSED. -/
def othersOpen (s : State) (n : Nat) : Bool := (List.range 16).any (fun k => k != n && (s.ses k).st != 0)

/-- SYS_RESET (R476): the device reset follows 1 ms later. -/
def execSysReset (c : Cmd) (p : Block) (s : State) : Host.Outcome State Fault Refusal :=
  zci 0x0007 1 (fun _ => []) c p s fun _ s =>
    chk [(othersOpen s c.session.val, stState)] (.silent { s with host := { s.host with resetAt := some (s.now + periodCt) } })

/-! ## Resources (R458, R475) -/

/-- Units of a resource class (Table 13-5): 0 for a class that the table does not hold. -/
def classUnits (cls : Nat) : Nat := [0, 4, 4, 8, 16, 4, 8, 8, 4, 9, 4, 4, 4, 2, 256, 8, 32, 8, 32, 16, 16, 1, 1, 8, 64].getD cls 0

/-- A class not in Table 13-5, or a range beyond its units. -/
def rangeBad (cls first count : Nat) : Bool := classUnits cls == 0 || decide (classUnits cls < first + count)

/-- A lane is enabled, or one of its trace units or its spectrum output is. -/
def laneInUse (s : State) (c : Nat) : Bool :=
  (s.lane c).on || (s.sout c).on || (List.range 4).any (fun u => (s.trace (4 * c + u)).on)

/-- A target has a calibration step in progress or a blind schedule. -/
def calInUse (s : State) (tgt : Nat) : Bool := (s.calStep tgt).isSome || (s.calBlind tgt).on

/-- A unit is in use (R475): enabled, armed, running, streaming, with a mode set, or in another state that its chapter's disabling
command would end. -/
def unitInUse (s : State) (cls u : Nat) : Bool :=
  match cls with
  | 0x01 => [u, 4 + u / 2].any (fun id => (s.str id).running || ((s.str id).resume && pllBusy s (u / 2)) || calInUse s id)
  | 0x02 => laneInUse s u
  | 0x03 => laneInUse s (4 + u)
  | 0x04 => (s.ddc u).on
  | 0x06 => (s.au u).live
  | 0x07 => extUsed s u
  | 0x08 => (s.pin u).on
  | 0x09 => (s.tiuIn u).on || (s.tiuIn u).testing || statUses s u || (u == 8 && s.clk.ppsMode != 0)
  | 0x0A => (s.tiuSt u).run
  | 0x0B => (s.dmap u).on || (s.dmap u).clearing || (s.dmap u).reading
  | 0x0D => !(s.port u).idle
  | 0x0E => s.mon.ctxs.any (fun e => e.1 / 256 == u && e.2.on)
  | 0x0F => (List.range 8).any (fun k => coreRuns s (8 * u + k)) || s.grove.starts.any (fun e => (List.range 8).any (fun k => bit e.2.1 (8 * u + k)))
  | 0x10 => (s.feed u).on || (s.feed u).closing
  | 0x11 => (s.bar u).on
  | 0x12 => (s.dma u).on
  | 0x13 => (s.tml u).on
  | 0x14 => tget false s.move.sw u
  | 0x15 => s.move.portOn || s.move.mounted
  | 0x16 => s.aux.run
  | 0x17 => (s.ctlO u).on
  | 0x18 => (s.perfC u).run
  | _ => false

/-- A unit passes to a session. A monitor context block allocated again loses the dynamic state that a release kept (R207). -/
def allocUnit (s : State) (n cls u : Nat) : State :=
  let s1 := s.setOwnerOf (cls * 65536 + u) (n + 1)
  if cls = 0x0E then (s.mon.ctxs.filter (fun e => e.1 / 256 == u)).foldl (fun a e => a.setCtx e.1 e.2.zeroed) s1 else s1

/-- SYS_ALLOC (R475). -/
def execSysAlloc (c : Cmd) (p : Block) (s : State) : Host.Outcome State Fault Refusal :=
  zci 0x0002 1 (fun _ => [(0, 8), (8, 16), (24, 16)]) c p s fun b s =>
    let n := c.session.val
    let cls := fld b 0 8
    let us := (List.range (fld b 24 16)).map (· + fld b 8 16)
    let new := us.filter (fun u => s.ownerOf (cls * 65536 + u) == 0)
    chk [(us.any (fun u => decide (u < classUnits cls) && s.ownerOf (cls * 65536 + u) != 0 && !owns s n cls u), stBusy),
         (fld b 24 16 == 0, stInvalid), (rangeBad cls (fld b 8 16) (fld b 24 16), stRange)]
      (.ok (new.foldl (fun a u => allocUnit a n cls u) s) 1 new.length)

/-- SYS_FREE (R475). -/
def execSysFree (c : Cmd) (p : Block) (s : State) : Host.Outcome State Fault Refusal :=
  zci 0x0003 1 (fun _ => [(0, 8), (8, 16), (24, 16)]) c p s fun b s =>
    let cls := fld b 0 8
    let us := (List.range (fld b 24 16)).map (· + fld b 8 16)
    chk [(fld b 24 16 == 0, stInvalid), (us.any (fun u => decide (u < classUnits cls) && !owns s c.session.val cls u), stInvalid),
         (us.any (fun u => decide (u < classUnits cls) && unitInUse s cls u), stState), (rangeBad cls (fld b 8 16) (fld b 24 16), stRange)]
      (.ok (us.foldl (fun a u => a.setOwnerOf (cls * 65536 + u) 0) s) 0 0)

/-- SYS_GET_ALLOC (R475): one byte for each unit. -/
def execSysGetAlloc (c : Cmd) (p : Block) (s : State) : Host.Outcome State Fault Refusal :=
  zci 0x0004 1 (fun _ => [(0, 8), (8, 16), (32, 8)]) c p s fun b s =>
    let cls := fld b 0 8
    let k := fld b 32 8
    chk [(k == 0, stInvalid), (decide (128 < k), stRange), (rangeBad cls (fld b 8 16) k, stRange)]
      (.ok s (ceilDiv k 8) (pack ((List.range k).map (fun i =>
        let o := s.ownerOf (cls * 65536 + fld b 8 16 + i)
        (8, if o = 0 then 0xFF else o - 1)))))

/-! ## Firmware (R471 to R473) -/

/-- Bytes of the image, from an index. -/
def imgBytes (img : List Nat) (a n : Nat) : List Byte := (List.range n).map (fun i => BitVec.ofNat 8 (img.getD (a + i) 0))

/-- A field of the image of `n` bytes. -/
def imgNum (img : List Nat) (a n : Nat) : Nat := ofBytes (imgBytes img a n)

/-- A signing key is accepted (R472, R512): its digest is held, not REVOKED, and DEV only in NURSERY and RETURN. -/
def fwKeyOk (s : State) (key : List Byte) : Bool :=
  s.sec.fwKeys.any (fun k => k.1 == ofBytes (Config.sha384 key) && !k.2.2 && (!k.2.1 || s.sec.life == 0 || s.sec.life == 3))

/-- Step 3 of R472: MAGIC, FORMAT, ZCIMAJ or a reserved bit of the header is wrong. -/
def imgInvalid (img : List Nat) : Bool :=
  imgBytes img 0 8 != [0x5A, 0x43, 0x49, 0x49, 0x4D, 0x41, 0x47, 0x45] || imgNum img 8 1 != 1 || imgNum img 13 1 != 1 || imgNum img 9 1 != 0 ||
  imgNum img 15 1 != 0 || imgNum img 169 7 != 0 || imgNum img 272 240 != 0

/-- Step 4 of R472: the key, the signature, the digest or the security version fails. -/
def imgDenied (s : State) (img : List Nat) : Bool :=
  let key := imgBytes img 72 97
  !fwKeyOk s key || !Config.ecdsaOk key (Config.sha384 (imgBytes img 0 176)) (imgBytes img 176 96) ||
  imgBytes img 24 48 != Config.sha384 (imgBytes img 512 (imgNum img 20 4)) || decide (imgNum img 16 4 < s.sec.secver)

/-- SYS_FW_STAGE (R472): `img` is what the read of the image gives. The other slot is written when the transfer ends. -/
def execSysFwStage (c : Cmd) (p : Block) (img : List Nat) (s : State) : Host.Outcome State Fault Refusal :=
  zci 0x0005 2 (fun _ => [(0, 64), (64, 32)]) c p s fun b s =>
    let len := fld b 64 32
    chk [(s.host.inProg.any (fun q => q.opcode == 0x0005), stBusy), (fld b 0 64 % 4096 != 0, stInvalid),
         (decide (len < 576 ∨ 16777216 < len) || len != 512 + imgNum img 20 4 || imgNum img 20 4 % 64 != 0, stRange), (imgInvalid img, stInvalid), (imgDenied s img, stDenied)]
      (.later s transferWait [1, pack [(24, imgNum img 10 3), (8, 0), (32, imgNum img 16 4)]])

/-- The image replaces what the other slot held (R472). -/
def fwStaged (s : State) (r : Nat) : State :=
  let o := 1 - s.host.slot
  let v := fld r 0 24
  let k := fld r 32 32
  { s with host := { s.host with stagedOk := true },
           sec := { s.sec with slotVer := tput 0 s.sec.slotVer o v, slotSec := tput 0 s.sec.slotSec o k } }

/-- SYS_FW_ACTIVATE (R473): the device reset follows 1 ms later. -/
def execSysFwActivate (c : Cmd) (p : Block) (s : State) : Host.Outcome State Fault Refusal :=
  zci 0x0006 1 (fun _ => []) c p s fun _ s =>
    chk [(othersOpen s c.session.val || (List.range 6).any (fun id => (s.str id).running) || s.move.entry != 0xFFFF || !s.host.stagedOk, stState)]
      (.ok { s with host := { s.host with resetAt := some (s.now + periodCt), activating := true } } 0 0)

/-! ## Doorbells and session registers (R453 to R457) -/

/-- A lease period starts (R455). -/
def leaseStart (s : State) (n : Nat) : State := s.modSes n (fun x => { x with leaseFrom := s.now, leaseWarn := false })

/-- SQ_TAIL is written (R453, R459). -/
def sqTailWrite (s : State) (n v : Nat) : State :=
  let x := s.ses n
  let z := sqSize x
  if x.st ≠ 1 then drwIgnored s
  else if v < z ∧ (x.sqTail + z - x.sqHead) % z ≤ (v + z - x.sqHead) % z then
    leaseStart (s.setSes n { x with sqTail := v, fetcherr := false }) n
  else drwRefused s 0

/-- CQ_HEAD is written (R453): the signal hold ends, and a signal held back is sent when completions remain (R463). -/
def cqHeadWrite (s : State) (n v : Nat) : State :=
  let x := s.ses n
  let r := s.cplR n
  let z := cqSize x
  if x.st ≠ 1 then drwIgnored s
  else if v < z ∧ (v + z - x.cqHead) % z ≤ cqUnread s n then
    let s1 := (leaseStart (s.setSes n { x with cqHead := v }) n).setCplR n { r with held := false, holdUntil := s.now }
    if r.held && cqUnread s1 n != 0 then cqSignal s1 n else s1
  else drwRefused s 1

/-- EVT_HEAD is written (R453). -/
def evtHeadWrite (s : State) (v : Nat) : State :=
  let z := evtSize s
  if s.host.evtEnable ∧ v < z ∧ (v + z - s.host.evtHead) % z ≤ (s.host.evtTail + z - s.host.evtHead) % z then
    let s1 := { s with host := { s.host with evtHead := v } }
    { s1 with host := { s1.host with evtUnsig := min s1.host.evtUnsig (evtUnread s1) } }
  else drwRefused s 2

/-- QCTL is refused: CFGERR is set and nothing changes (R454). -/
def qctlRefused (s : State) (n : Nat) : State := s.modSes n (fun x => { x with cfgerr := true })

/-- Both bases are multiples of 4,096 and both sizes lie from 4 to 12 (R454). -/
def Session.ringsOk (x : Session) : Bool :=
  x.sqBaseLo.toNat % 4096 == 0 && x.cqBaseLo.toNat % 4096 == 0 && decide (4 ≤ fld x.qcfg.toNat 0 4 ∧ fld x.qcfg.toNat 0 4 ≤ 12) &&
  decide (4 ≤ fld x.qcfg.toNat 4 4 ∧ fld x.qcfg.toNat 4 4 ≤ 12)

/-- The value in COOKIE_LO and COOKIE_HI. -/
def Session.cookieReg (x : Session) : Nat := x.cookieLo.toNat + 2^32 * x.cookieHi.toNat

/-- A session becomes OPEN with its four ring indices 0 (R454, R456). -/
def sesOpen (s : State) (n change cookie : Nat) : State :=
  let s1 := s.modSes n (fun x => { x with st := 1, cfgerr := false, cookie := cookie, sqTail := 0, sqHead := 0, cqHead := 0, fetched := [], relHost := false })
  leaseStart (sesPost (s1.setCplR n {}) n change 0) n

/-- QCTL with OPEN (R454). -/
def qctlOpen (s : State) (n : Nat) : State :=
  let x := s.ses n
  if x.st = 0 && x.ringsOk then sesOpen s n 0 x.cookieReg else qctlRefused s n

/-- QCTL with RECLAIM (R456). -/
def qctlReclaim (s : State) (n : Nat) : State :=
  let x := s.ses n
  if x.st = 2 && x.cookieReg == x.cookie && x.ringsOk && decide (inProgOf s n < cqSize x) then sesOpen s n 3 x.cookie else qctlRefused s n

/-- QCTL with CLOSE (R456, R457). -/
def qctlClose (s : State) (n : Nat) : State :=
  let x := s.ses n
  if x.st = 1 || (x.st = 2 && x.cookieReg == x.cookie) then startRelease (s.modSes n (fun y => { y with cfgerr := false })) n 0
  else qctlRefused s n

/-- LEASE is written (R455). -/
def leaseWrite (s : State) (n v : Nat) : State :=
  if 86400 < fld v 0 17 then drwIgnored s
  else leaseStart (s.modSes n (fun x => { x with lease := BitVec.ofNat 32 (v &&& 0x8001FFFF) })) n

/-- EVT_CTL is written (R462). -/
def evtCtlWrite (s : State) (v : Nat) : State :=
  let k := fld s.host.evtCfg.toNat 0 5
  if !bit v 0 then evtDiscard { s with host := { s.host with evtEnable := false } }
  else if s.host.evtEnable then s
  else if k < 6 || 16 < k || s.host.evtBaseLo.toNat % 4096 ≠ 0 then drwIgnored s
  else { s with host := { s.host with evtEnable := true, evtHead := 0, evtTail := 0, evtPhase := true, evtUnsig := 0, evRing := [] } }

/-- CTL_CODEn is written (R491). -/
def ctlCodeWrite (s : State) (n v : Nat) : State :=
  if (s.ctlO n).on && (s.ctlO n).direct then ctlDrw s n (fld v 0 12) else drwIgnored s

/-- A register of a session page with no behaviour of its own is written (R453): accepted in CLOSED and DETACHED. -/
def sesRegWrite (s : State) (n o v : Nat) : State :=
  let x := s.ses n
  let w : Word := BitVec.ofNat 32 v
  if x.st ≠ 0 && x.st ≠ 2 then drwIgnored s
  else if o = 0x00 then s.setSes n { x with sqBaseLo := w } else if o = 0x04 then s.setSes n { x with sqBaseHi := w }
  else if o = 0x08 then s.setSes n { x with cqBaseLo := w } else if o = 0x0C then s.setSes n { x with cqBaseHi := w }
  else if o = 0x10 then s.setSes n { x with qcfg := w &&& 0x7FFF } else if o = 0x18 then s.setSes n { x with cookieLo := w }
  else if o = 0x1C then s.setSes n { x with cookieHi := w } else drwIgnored s

/-- A write of QCTL (R454): one with more than one bit set is ignored. -/
def qctlWrite (s : State) (n v : Nat) : State :=
  if v % 8 = 1 then qctlOpen s n else if v % 8 = 2 then qctlReclaim s n else if v % 8 = 4 then qctlClose s n else s

/-- A register of a session page is written. -/
def sesWrite (s : State) (n o v : Nat) : State :=
  if o = 0x14 then leaseWrite s n v else if o = 0x20 then qctlWrite s n v else if o = 0x28 then sqTailWrite s n v
  else if o = 0x30 then cqHeadWrite s n v else if o < 0x20 then sesRegWrite s n o v else drwIgnored s

/-- A register of page 0 is written. -/
def pageWrite (s : State) (o v : Nat) : State :=
  let h := s.host
  let w : Word := BitVec.ofNat 32 v
  if o = 0x28 then { s with host := { h with drwerr := h.drwerr &&& ~~~(BitVec.ofNat 6 v) } }
  else if 0x60 ≤ o && o < 0x80 then ctlCodeWrite s ((o - 0x60) / 4) v
  else if o = 0x110 then { s with host := { h with evtMask := w &&& 0x7FFF } }
  else if o = 0x114 then evtCtlWrite s v
  else if o = 0x118 then evtHeadWrite s v
  else if h.evtEnable then drwIgnored s
  else if o = 0x100 then { s with host := { h with evtBaseLo := w } } else if o = 0x104 then { s with host := { h with evtBaseHi := w } }
  else if o = 0x108 then { s with host := { h with evtCfg := w &&& 0xFFFF3F3F } } else if o = 0x10C then { s with host := { h with evtDelay := w &&& 0xFFFF } }
  else drwIgnored s

/-- An aligned DWORD write in BAR0 (R451, Tables 13-2 and 13-3). -/
def drwWrite (s : State) (off v : Nat) : State :=
  if off < 0x1000 then pageWrite s off v
  else if off < 0x11000 then sesWrite s (off / 0x1000 - 1) (off % 0x1000) v
  else if off < 0x11080 then strdbWrite s ((off - 0x11000) / 4) v
  else drwIgnored s

/-- A doorbell register of the DRW. -/
def isDoorbell (off : Nat) : Bool :=
  off == 0x118 || (decide (0x1000 ≤ off ∧ off < 0x11000) && (off % 0x1000 == 0x28 || off % 0x1000 == 0x30)) || decide (0x11000 ≤ off ∧ off < 0x11080)

/-- A write reaches the DRW: until start-up ends, every write other than to a doorbell is ignored (R535). -/
def hostWrite (s : State) (off : Nat) (f : State → State) : State :=
  if (s.host.engine = 0 || s.host.engine = 3) && !isDoorbell off then s else f s

/-- An aligned DWORD read in BAR0; until start-up ends the pages beside page 0 read at their reset values (R535, log 29). -/
def drwRead (s : State) (off : Nat) : State :=
  if off = 0x10 then readSerial0 s else if off = 0x40 then readTime0 s else if off = 0x44 then readLatched s 0 else if off = 0x48 then readLatched s 1
  else if off = 0x14 then readLatched s 2 else if off = 0x18 then readLatched s 3 else if off = 0x1C then readLatched s 4 else if off = 0x50 then readAux s
  else if off < 0x1000 then readOut s (pageRead s off)
  else if off < 0x11000 then readOut s (sesRead (s.ses (off / 0x1000 - 1)) (s.cplR (off / 0x1000 - 1)) (off % 0x1000))
  else if off < 0x11080 then readOut s (BitVec.ofNat 32 (s.dma ((off - 0x11000) / 4)).hrpos)
  else readOut s 0

/-- REGISTER_WRITE: an access of BAR0 (R451): `kind` 0 is a write of one DWORD, 1 a read of one DWORD, any other an access that is not a
single DWORD; an access that is not aligned has no effect either. -/
def execRegisterWrite (t off v kind : Nat) (s : State) : Host.Outcome State Fault Refusal :=
  act t s fun s =>
    let s := flushAll s
    if off % 4 ≠ 0 then s
    else if kind = 0 then hostWrite s off (fun s => drwWrite s off v)
    else if kind = 1 then drwRead s off
    else s

/-- SQ_TAIL_WRITE of session n (R453). -/
def execSqTailWrite (t n v : Nat) (s : State) : Host.Outcome State Fault Refusal := act t s fun s => sqTailWrite s n v

/-- CQ_HEAD_WRITE of session n (R453, R463). -/
def execCqHeadWrite (t n v : Nat) (s : State) : Host.Outcome State Fault Refusal := act t s fun s => cqHeadWrite s n v

/-- EVT_HEAD_WRITE (R453). -/
def execEvtHeadWrite (t v : Nat) (s : State) : Host.Outcome State Fault Refusal := act t s fun s => evtHeadWrite (flushAll s) v

/-- The DRW offset of a register of a session page. -/
def sesOff (n o : Nat) : Nat := 0x1000 * (n + 1) + o

/-- QCTL_OPEN of session n (R454). -/
def execQctlOpen (t n : Nat) (s : State) : Host.Outcome State Fault Refusal :=
  act t s fun s => hostWrite s (sesOff n 0x20) (fun s => qctlOpen s n)

/-- QCTL_RECLAIM of session n (R456). -/
def execQctlReclaim (t n : Nat) (s : State) : Host.Outcome State Fault Refusal :=
  act t s fun s => hostWrite s (sesOff n 0x20) (fun s => qctlReclaim s n)

/-- QCTL_CLOSE of session n (R457). -/
def execQctlClose (t n : Nat) (s : State) : Host.Outcome State Fault Refusal :=
  act t s fun s => hostWrite s (sesOff n 0x20) (fun s => qctlClose s n)

/-- LEASE_WRITE of session n (R455). -/
def execLeaseWrite (t n v : Nat) (s : State) : Host.Outcome State Fault Refusal :=
  act t s fun s => hostWrite s (sesOff n 0x14) (fun s => leaseWrite s n v)

/-- EVT_CTL_WRITE (R462). -/
def execEvtCtlWrite (t v : Nat) (s : State) : Host.Outcome State Fault Refusal :=
  act t s fun s => hostWrite s 0x114 (fun s => evtCtlWrite (flushAll s) v)

/-- CTL_CODE_WRITE of output n (R491). -/
def execCtlCodeWrite (t n v : Nat) (s : State) : Host.Outcome State Fault Refusal :=
  act t s fun s => hostWrite s (0x60 + 4 * n) (fun s => ctlCodeWrite s n v)

/-- TIME0_READ (R452). -/
def execTime0Read (t : Nat) (s : State) : Host.Outcome State Fault Refusal := act t s readTime0

/-- SERIAL0_READ (R452). -/
def execSerial0Read (t : Nat) (s : State) : Host.Outcome State Fault Refusal := act t s readSerial0

/-- LATCHED_WORD_READ of TIME1, TIME2, SERIAL1, SERIAL2 or SERIAL3, as 0 to 4 (R452). -/
def execLatchedWordRead (t k : Nat) (s : State) : Host.Outcome State Fault Refusal := act t s fun s => readLatched s k

/-- AUX_DATA_READ (R485). -/
def execAuxDataRead (t : Nat) (s : State) : Host.Outcome State Fault Refusal := act t s readAux

/-! ## Rings (R459, R463, R467) -/

/-- COMMAND_FETCH (R459): `res` 0 is a fetch that gave the entry, 1 one that gave it on the retry, 2 one that failed twice. -/
def execCommandFetch (c : Cmd) (opcode : BitVec 16) (res : Nat) (s : State) : Host.Outcome State Fault Refusal :=
  act c.t s fun s =>
    let n := c.session.val
    let x := s.ses n
    if x.st ≠ 1 || x.fetcherr || !s.host.busMaster || s.flt.cpDead || x.sqHead = x.sqTail then s
    else if res = 2 then raiseFault (drwErr (s.setSes n { x with fetcherr := true }) 5) 0x2301 {}
    else
      let f : Fetched := { opcode := opcode.toNat, tag := c.tag.toNat, fence := c.fence, timeout := c.timeout.toNat, at_ := s.now }
      flushFront (s.setSes n { x with sqHead := (x.sqHead + 1) % sqSize x, fetched := x.fetched ++ [f] }) n

/-- COMMAND_TIMEOUT: the `i`-th command that session n has fetched and not applied passes its TIMEOUT (R467): it completes at once
when a completion slot is free. -/
def execCommandTimeout (t n i : Nat) (s : State) : Host.Outcome State Fault Refusal :=
  act t s fun s =>
    let x := s.ses n
    match x.fetched[i]? with
    | none => s
    | some f =>
      if f.timeout = 0 || s.now < f.at_ + f.timeout * periodCt || !cqFree s n || s.flt.cpDead then s
      else flushFront (complete (s.setSes n { x with fetched := x.fetched.eraseIdx i }) n
        { tag := f.tag, status := stTimeout, opcode := f.opcode, applied := s.now }) n

/-- COMPLETION_SIGNAL_HOLD_END: the 2 µs of a session's ring end (R463). -/
def execCompletionSignalHoldEnd (t n : Nat) (s : State) : Host.Outcome State Fault Refusal :=
  act t s fun s =>
    let r := s.cplR n
    if !r.held || s.now < r.holdUntil then s else
    let s1 := s.setCplR n { r with held := false }
    if cqUnread s n = 0 then s1 else cqSignal s1 n

/-- The tick of the oldest record written and not yet signalled. -/
def evtOldest (s : State) : Tick := (tget {} s.host.evRing ((s.host.evtTail + evtSize s - s.host.evtUnsig) % evtSize s)).time

/-- EVENT_DELAY_EXPIRY: a record has stayed unsignalled for EVT_DELAY µs (R463). -/
def execEventDelayExpiry (t : Nat) (s : State) : Host.Outcome State Fault Refusal :=
  act t s fun s =>
    if !s.host.evtEnable || !evtIrq s || s.host.evtUnsig = 0 || s.now < evtOldest s + 1600 * fld s.host.evtDelay.toNat 0 16 then s
    else signal { s with host := { s.host with evtUnsig := 0 } } (evtVector s)

/-! ## Leases (R455) -/

/-- ct in a second. -/
def secondCt : Nat := 1600000000

/-- LEASE seconds of a session. -/
def Session.leaseSec (x : Session) : Nat := fld x.lease.toNat 0 17

/-- The lease of a session runs: OPEN or DETACHED, with LEASE not 0. -/
def Session.leased (x : Session) : Bool := (x.st == 1 || x.st == 2) && x.leaseSec != 0

/-- SYS_LEASE: half of session n's lease has passed (R455). -/
def execSysLease (t n : Nat) (s : State) : Host.Outcome State Fault Refusal :=
  act t s fun s =>
    let x := s.ses n
    if !x.leased || x.leaseWarn || 2 * (s.now - x.leaseFrom) < x.leaseSec * secondCt then s
    else post (s.setSes n { x with leaseWarn := true }) 0x0002
      (pack [(4, n), (12, 0), (32, (x.leaseSec * secondCt - (s.now - x.leaseFrom)) / secondCt)])

/-- LEASE_EXPIRY: session n's lease runs out, and a release with cause 2 starts (R455). -/
def execLeaseExpiry (t n : Nat) (s : State) : Host.Outcome State Fault Refusal :=
  act t s fun s =>
    let x := s.ses n
    if !x.leased || s.now - x.leaseFrom < x.leaseSec * secondCt then s else startRelease s n 2

/-! ## The release of a session's resources (R457) -/

/-- Do `f` on every unit of a class that the session owns. -/
def eachOwned (s : State) (n cls : Nat) (f : State → Nat → State) : State :=
  (List.range (classUnits cls)).foldl (fun a u => if owns a n cls u then f a u else a) s

/-- Groups 0x0C and 0x0B: the sequencer stops, control outputs go SAFE, channels, timer and software lines end, and an open
recording is to end with END = 3 (R396, R436, R484, R492). -/
def releaseMove (s : State) (n : Nat) : State :=
  let s1 := if owns s n 0x16 0 then auxStop s else s
  let s2 := ctlRelease s1 n
  let s3 := eachOwned s2 n 0x12 (fun a u => (streamDisable (dmaDisable a u) u).modDma u (fun x => { x with wbPend := none }))
  let s4 := eachOwned s3 n 0x13 (fun a u => a.setTml u {})
  let s5 := eachOwned s4 n 0x14 (fun a u => { a with move := { a.move with sw := tput false a.move.sw u false } })
  if s5.move.entry ≠ 0xFFFF && s5.move.recOwner = n && s5.move.ending = 0xFF && s5.move.recClose.isNone then recStop s5 3 else s5

/-- Group 0x09 (R318): cores stop with cause 6, their feeds are disabled, their barrier groups broken and disabled, their scratchpads
zeroed. -/
def releaseGrove (s : State) (g : Nat) : State :=
  let cores := (List.range 8).map (· + 8 * g)
  let s1 := cores.foldl (fun a k => if coreRuns a k then coreStop a k 6 0 else a) s
  let s2 := (List.range 32).foldl (fun a i => if ((a.feed i).on || (a.feed i).closing) && (a.feed i).core / 8 = g then feedOff a i else a) s1
  let s3 := (List.range 8).foldl (fun a k =>
    match cores.find? (fun m => (a.bar k).on && bit (a.bar k).members m) with
    | some m => (barBreakBy a k m 6).modBar k (fun b => { b with on := false, broken := true })
    | none => a) s2
  cores.foldl (fun a k => a.modCore k (fun x => { x with spad := [], pend := [], posted := [] })) s3

/-- Groups 0x07 to 0x02: contexts disabled, units aborted and returned to IDLE, pins disabled, the hold withdrawn, blind schedules
ended (R106, R117, R147, R207, R311). -/
def releaseSignal (s : State) (n : Nat) : State :=
  let s1 := s.mon.ctxs.foldl (fun a e => if e.2.on && owns a n 0x0E (e.1 / 256) then a.modCtx e.1 (fun x => { x with on := false }) else a) s
  let s2 := eachOwned s1 n 6 (fun a u => setAcqSt (acqAbort a u 3) u 0)
  let s3 := eachOwned s2 n 8 (fun a u => drivePin (a.setPin u {}) u)
  let s4 := { s3 with spec := { s3.spec with holds := tput false s3.spec.holds n false } }
  (List.range 6).foldl (fun a t => if (a.calBlind t).on && (a.calBlind t).session = n then a.setCalBlind t {} else a) s4

/-- The session's regions. -/
def regionsOf (s : State) (n : Nat) : List Nat := (s.mem.regions.filter (fun e => e.2.size != 0 && e.2.owner == n)).map (·.1)

/-- What names a region of the session stops first (R376): trace units, outputs, feeds, drains, the log. -/
def releaseUsers (s : State) (n : Nat) : State :=
  let rs := regionsOf s n
  let s1 := (List.range 48).foldl (fun a i => if (a.trace i).on && rs.contains (a.trace i).ring then traceOff a i else a) s
  let s2 := (List.range 12).foldl (fun a c => if (a.sout c).on && rs.contains (a.sout c).ring then a.modSout c (fun o => { o with on := false }) else a) s1
  let s3 := (List.range 32).foldl (fun a i =>
    if ((a.feed i).on || (a.feed i).closing) && decide (2 ≤ (a.feed i).kind) && rs.contains (a.feed i).handle then feedOff a i else a) s2
  let s4 := (List.range 9).foldl (fun a i => if rs.contains (a.tiuIn i).drain then a.modTiuIn i (fun x => { x with drain := noHandle }) else a) s3
  { s4 with mon := { s4.mon with logs := tput 0 s4.mon.logs n 0 } }

/-- Group 0x0A (R376, R387): regions and commons runs are freed. -/
def releaseMem (s : State) (n : Nat) : State :=
  let s1 := releaseUsers s n
  let s2 := (regionsOf s1 n).foldl (fun a h => if (a.reg h).deferred then a else freeRegion a h) s1
  (s2.mem.commons.filter (fun r => r.2.2 == n)).foldl commonsFree s2

/-- The session owns nothing any more. -/
def releaseOwners (s : State) (n : Nat) : State :=
  { s with host := { s.host with owners := s.host.owners.filter (fun e => e.2 != n + 1), cplWait := s.host.cplWait.filter (fun w => w.2.1 != n) } }

/-- RELEASE_END of session n (R457): once its commands have run to their end and their completions are written, its resources are released group by group, from 0x0E to 0x01
with 0x0A last; an open recording ends before the release does. -/
def execReleaseEnd (t n : Nat) (s : State) : Host.Outcome State Fault Refusal :=
  act t s fun s =>
    if (s.ses n).st ≠ 3 || inProgOf s n ≠ 0 || s.host.cplWait.any (fun w => w.2.1 == n && decide (s.evTick ≤ w.1)) then s else
    let s1 := releaseMove s n
    if s1.move.entry ≠ 0xFFFF && s1.move.recOwner = n then s1 else
    let s2 := if owns s1 n 0x15 0 then unmountNow s1 else s1
    let s3 := eachOwned s2 n 0x0F releaseGrove
    let s4 := releaseOwners (releaseMem (releaseSignal s3 n) n) n
    sesPost (s4.modSes n (fun x => { x with st := 0 })) n 1 (s.ses n).cause

/-! ## The host port (R448 to R450, R535) -/

/-- HOST_INTERFACE_RESET (R450): `cause` 0 is HP_PERST asserted, 1 a Hot Reset, 2 DL_Down, 3 a return from D3hot to D0. -/
def execHostInterfaceReset (t cause : Nat) (s : State) : Host.Outcome State Fault Refusal :=
  if s.pwr.down && cause = 0 then .next { s with pwr := { s.pwr with perst := false } } else
  act t s fun s =>
    let s1 := hostReset (flushAll s)
    if cause = 0 then { s1 with pwr := { s1.pwr with perst := false } } else s1

/-- HP_PERST_RELEASE (R535): HP is ready for training once YP1 has locked. -/
def execHpPerstRelease (t : Nat) (s : State) : Host.Outcome State Fault Refusal :=
  if s.pwr.down then .next { s with pwr := { s.pwr with perst := true } } else
  act t s fun s => { s with pwr := { s.pwr with perst := true } }

/-- The trained states that Table 13-1 supports: rate in the MAXRATE coding of R442, width, FLIT mode. -/
def linkLegal (rate width : Nat) (flit : Bool) : Bool :=
  rateLegal rate flit && (width == 1 || width == 2 || width == 4)

/-- HP_LINK_UP (R448): the link trains, and LINK shows it. -/
def execHpLinkUp (t rate width : Nat) (flit : Bool) (s : State) : Host.Outcome State Fault Refusal :=
  act t s fun s =>
    if !s.pwr.perst || (s.pll 3).st ≠ 4 || !linkLegal rate width flit then s
    else { s with host := { s.host with linkRate := rate, linkWidth := width, linkFlit := flit } }

/-- CONFIG_WRITE (R449, R450, R463): the values that Bus Master Enable, the power state D3hot, MSI-X Enable and the MSI-X function mask take.
A return from D3hot to D0 is a host-interface reset. -/
def execConfigWrite (t : Nat) (bme d3 msix mask : Bool) (s : State) : Host.Outcome State Fault Refusal :=
  act t s fun s =>
    let s := flushAll s
    if s.host.d3 && !d3 then hostReset s else
    let s1 := { s with host := { s.host with busMaster := bme, d3 := d3, msixEnable := msix, msixMask := mask } }
    msixFlush (if bme && !s.host.busMaster then waitFlush s1 else s1)

/-- MSIX_TABLE_WRITE (R448, R463): entry v takes an address, data and a mask bit. -/
def execMsixTableWrite (t v addr data : Nat) (masked : Bool) (s : State) : Host.Outcome State Fault Refusal :=
  act t s fun s => if 64 ≤ v then s else msixFlush (s.modMsixE v (fun e => { e with masked := masked, addr := addr, data := data }))

/-- HEARTBEAT_ADVANCE (R451, R503): every 1,600,000 ct while ready or fatal, unless the control processor has stopped. -/
def execHeartbeatAdvance (t : Nat) (s : State) : Host.Outcome State Fault Refusal :=
  act t s fun s =>
    if (s.host.engine ≠ 1 && s.host.engine ≠ 2) || s.flt.cpDead || s.now < s.host.hbAt + periodCt then s
    else { s with host := { s.host with heartbeat := s.host.heartbeat + 1, hbAt := s.host.hbAt + periodCt } }

end Sys2Proof.Machine
end

