-- ==== Sys2Proof/Machine/Detect.lean ====
section
/-! DEFINITION. Detections: what a detector's declaration does, whether real, forced or injected, and the fault commands
(15_integrity_faults_and_security.md, R500 to R510, R520 to R523). -/

namespace Sys2Proof.Machine

/-! ## Detections -/

/-- A grain-tag check of a stream is declared failed without naming a consumer (R509): the grain that contains the tick carries
SUSPECT at every consumer. -/
def tagDetect (s : State) (id : Nat) (i : FaultInfo) : State :=
  let k := id % 256
  let s1 := raiseFault s id i
  if k < 6 then markSuspect s1 k
  else { s1 with flt := { s1.flt with once := tput 0 s1.flt.once (0x0A0C + (k - 6)) ((s1.ddc (k - 6)).next + 1) } }

/-- An uncorrectable error of an on-die memory is declared without its address (Table 11-5): a scratchpad's own core, or the cores named,
take the memory fault; the mask slots named expand no bin of the next spectrum. -/
def onDieDetect (s : State) (id : Nat) (i : FaultInfo) : State :=
  let s1 := raiseFault s id i
  if id = 0x1B01 then i.items.foldl (fun a n => if coreRuns a n then coreStop a n 4 0 else a) s1
  else if id = 0x0D01 then i.items.foldl (fun a m => a.modMaskS m (fun x => { x with bad := true })) s1
  else if 0x1300 ≤ id ∧ id < 0x1B00 ∧ id % 256 % 6 = 2 then
    let n := 8 * (id / 256 - 0x13) + id % 256 / 6
    if coreRuns s1 n then coreStop s1 n 4 0 else s1
  else s1

/-- A detector declares its failure: the reactions of its detection and of its severity (R501). A detector of REF_IN touches the reference
only while SOURCE selects REF_IN (R509). -/
def detect (s : State) (id : Nat) (i : FaultInfo) : State :=
  if id = 0x0200 then nodeLoss s i
  else if (id = 0x0201 || id = 0x0202) && refWatched s then
    let d := drawFree 32 s
    refInLoss d.2 (id = 0x0202) (d.1 : Int) i
  else if 0x0204 ≤ id && id < 0x020C && ((s.pll (id % 4)).st = 4 || (s.pll (id % 4)).attempt ≠ 0) then lockLoss s (id % 4) (0x0208 ≤ id) i
  else if 0x1200 ≤ id && id < 0x1216 then tagDetect s id i
  else onDieDetect s id i

/-- A lasting condition ends: with it what its containment holds; the grain that contains this tick is still marked. -/
def detectEnd (s : State) (id : Nat) : State :=
  let s1 := if tget false s.flt.held id then (suspectStreams s id).foldl markSuspect s else s
  s1.setActive id false

/-- FAULT_DETECTION (R501): `mode` 0 is a detector that reports a single event, 1 one whose condition begins and lasts, 2 the end of such a
condition. `items` are what the failure concerns where the source alone does not say it: the index of a command in progress, contexts,
feeds, mask slots, cores. -/
def execFaultDetection (t id mode : Nat) (items : List Nat) (s : State) : Host.Outcome State Fault Refusal :=
  act t s fun s =>
    if !fltDefined id then s
    else if mode = 2 then detectEnd s id
    else detect (if mode = 1 then s.setActive id true else s) id { items := items }

/-- RAIL_FAULT (R531): rail r crosses a threshold of Table 16-1 (source k = 2r or 2r + 1 of group 0x27), or the core supply one of its own
(source k of group 0x26); `on` false says that it lies inside its window again. -/
def execRailFault (t k : Nat) (core on : Bool) (s : State) : Host.Outcome State Fault Refusal :=
  act t s fun s =>
    let id := (if core then 0x2600 else 0x2700) + k
    if !fltDefined id then s else if on then raiseFault (s.setActive id true) id {} else s.setActive id false

/-! ## Forcing (R508 to R510, R523) -/

/-- An ECC source of device memory: 2d + 0 or 2d + 1 of groups 0x1D to 0x20. -/
def isEcc (id : Nat) : Bool := decide (0x1D ≤ id / 256 ∧ id / 256 ≤ 0x20 ∧ id % 256 < 32)

/-- The field-forceable set (R508, Table 15-6). -/
def forceable (id : Nat) : Bool :=
  let k := id % 256
  match id / 256 with
  | 0x02 => k ≤ 2 || (4 ≤ k && k ≤ 11)
  | 0x03 => k = 0
  | 0x04 | 0x05 | 0x06 | 0x07 => k ≤ 33 || k = 35
  | 0x09 => k < 16
  | 0x0A => k ≤ 0x27
  | 0x0B | 0x0C => k < 32
  | 0x0D => k < 4
  | 0x0E => k < 16 && k % 4 ≤ 2
  | 0x10 => k < 16 || k = 0x20 || k = 0x21
  | 0x11 => k < 36 && k % 4 = 0
  | 0x12 => k < 22 || k = 28 || k = 31
  | 0x13 | 0x14 | 0x15 | 0x16 | 0x17 | 0x18 | 0x19 | 0x1A => k < 48 && 1 ≤ k % 6 && k % 6 ≤ 3
  | 0x1B => k < 2
  | 0x1C => k = 6 || k = 7
  | 0x26 => k ≤ 2
  | 0x28 => 8 ≤ k && k < 16
  | _ => isEcc id

/-- A line lies in a region of the session, in the rank and the quadrant that an ECC source names. -/
def eccLineOk (s : State) (n id a : Nat) : Bool :=
  s.mem.regions.any (fun e => e.2.size != 0 && e.2.owner == n && decide (e.2.addr ≤ a ∧ a + 64 ≤ e.2.addr + e.2.size)) &&
  decide (rankSrc s a (id % 2) = id)

/-- FLT_FORCE (R508 to R510, R523). -/
def execFltForce (c : Cmd) (p : Block) (s : State) : Host.Outcome State Fault Refusal :=
  zci 0x0D05 2 (fun _ => [(0, 16), (16, 1), (64, 64)]) c p s fun b s =>
    let id := fld b 0 16
    let a := fld b 64 64
    let at_ := State.evTick { s with now := s.now + 1 }
    chk [(!ownsAllCh s c.session.val, stBusy), (!forceable id, stDenied), (isEcc id && fld b 16 1 != id % 2, stInvalid), (isEcc id && a % 64 != 0, stRange),
         (isEcc id && !eccLineOk s c.session.val id a, stRange)]
      (if isEcc id then .ok { s with mem := { s.mem with forced := tput 0 s.mem.forced a (1 + id % 2) } } 2 (pack [(16, 0), (64, s.now)])
       else .ok { s with flt := { s.flt with forcedDue := s.flt.forcedDue ++ [(id, s.now)] } } 2 (pack [(16, 0), (64, at_)]))

/-- FORCED_RAISE: the sources forced by commands of earlier ticks are raised, in the order of the commands (R509). `items` are the contexts or
mask slots that a forced source concerns where it does not name them. -/
def execForcedRaise (t : Nat) (items : List Nat) (s : State) : Host.Outcome State Fault Refusal :=
  act t s fun s =>
    let due := s.flt.forcedDue.filter (fun e => decide (e.2 < s.now))
    let s1 := { s with flt := { s.flt with forcedDue := s.flt.forcedDue.filter (fun e => !decide (e.2 < s.now)) } }
    due.foldl (fun a e => detect a e.1 { forced := true, items := items }) s1

/-! ## Windows that close (R505) -/

/-- One window closes: a timeout raises 0x2C01. -/
def winClose (s : State) (w : Win) : State :=
  let s1 := post { s with flt := { s.flt with wins := s.flt.wins.erase w } } 0x0D03 (pack [(1, 0), (1, b2n w.closing.2), (14, 0), (16, w.origin)])
  if w.closing.2 then raiseFault s1 0x2C01 {} else s1

/-- SUPPRESSION_WINDOW_CLOSE: the windows that are due close. -/
def execSuppressionWindowClose (t : Nat) (s : State) : Host.Outcome State Fault Refusal :=
  act t s fun s => (s.flt.wins.filter (fun w => decide (w.closing.1 ≤ s.now))).foldl winClose s

/-! ## Fault commands (R503, R521, R522) -/

/-- WORST of a group: the highest severity applied among its sticky sources. -/
def worstOf (s : State) (g : Nat) : Nat := s.flt.sticky.foldl (fun a e => if e.1 / 256 = g then max a e.2 else a) 0

/-- FLT_GET_STATUS (R521, Table 15-14). -/
def execFltGetStatus (c : Cmd) (p : Block) (s : State) : Host.Outcome State Fault Refusal :=
  zci 0x0D01 1 (fun _ => [(0, 6)]) c p s fun b s =>
    let g := fld b 0 6
    let f := s.flt
    let bits := fun (h : Nat → Bool) => pack ((List.range 128).map (fun k => (1, b2n (h (256 * g + k)))))
    chk [(decide (48 ≤ g), stRange)]
      (.ok s 8 (pack [(2, s.host.engine), (1, b2n (!f.wins.isEmpty)), (13, 0), (96, pack ((List.range 48).map (fun g => (2, worstOf s g)))),
        (32, f.ncorr), (32, f.ncont), (32, f.nfatal), (32, f.nconseq), (16, 0), (128, bits (isSticky s)), (128, bits (tget false f.conseq))]))

/-- A first-error record as its 512 bits (Table 15-4). -/
def FaultRec.encode (r : FaultRec) : Nat :=
  pack [(16, r.fault), (2, r.severity), (1, b2n r.conseq), (1, b2n r.forced), (1, b2n r.valid), (11, 0), (16, r.origin), (8, r.island), (8, r.master),
    (8, r.inst_), (4, r.access), (4, 0), (64, r.address), (16, 0), (64, r.time), (32, r.raises), (16, r.last), (16, 0), (64, r.lastTime), (160, 0)]

/-- FLT_GET_RECORD (R521). -/
def execFltGetRecord (c : Cmd) (p : Block) (s : State) : Host.Outcome State Fault Refusal :=
  zci 0x0D03 1 (fun _ => [(0, 6)]) c p s fun b s =>
    chk [(decide (48 ≤ fld b 0 6), stRange)] (.ok s 8 (s.frec (fld b 0 6)).encode)

/-- The severity last configured for a source, whatever the tick. -/
def sevSet (s : State) (id : Nat) : Nat :=
  match s.flt.sev.find? (fun e => e.1 == id) with
  | some e => e.2.1
  | none => (fltDefault id).1

/-- FLT_SET_SEVERITY (R501, R522). -/
def execFltSetSeverity (c : Cmd) (p : Block) (s : State) : Host.Outcome State Fault Refusal :=
  zci 0x0D02 1 (fun _ => [(0, 16), (16, 2)]) c p s fun b s =>
    let id := fld b 0 16
    let v := fld b 16 2
    let d := fltDefault id
    let rest := s.flt.sev.filter (fun e => e.1 != id || (decide (e.2.2 < s.now) && e.2.1 == sevOf s id))
    chk [(!ownsAllCh s c.session.val, stBusy), (v == 0, stInvalid), (!fltDefined id || decide (v < d.2), stRange)]
      (.ok { s with flt := { s.flt with sev := (id, v, s.now) :: rest } } 1 (pack [(2, sevSet s id), (6, 0), (2, d.2), (6, 0), (2, d.1), (46, 0)]))

/-- The non-recoverable set (R503). -/
def nonRecoverable : List Nat := [0x0000, 0x0001, 0x0002, 0x0003, 0x0007, 0x0100, 0x0101, 0x0102, 0x0300, 0x2B02, 0x2B03, 0x2C00]

/-- Thresholds of the thermal stages in 0.1 °C (Table 16-6). -/
def stageAt (k : Nat) : Int := if k = 1 then 1000 else if k = 2 then 1050 else 1080

/-- The criterion by which a source's detector declares its failure holds now (R503). -/
def conditionHolds (s : State) (id : Nat) : Bool :=
  if id = 0x0200 then !s.clk.nodeOk || (List.range 4).any (fun k => (s.pll k).st != 4)
  else if id = 0x0201 || id = 0x0202 then s.clk.holdover && s.clk.refSince.isNone
  else if id = 0x0203 then s.clk.ppsMode != 0 && !s.clk.ppsOk
  else if 0x0204 ≤ id && id < 0x0210 then (s.pll (id % 4)).st != 4
  else if 0x2800 ≤ id && id < 0x2808 then s.pwr.stage != 0 && decide (stageAt s.pwr.stage ≤ s.pwr.tj)
  else isActive s id

/-- A PLL is FAILED, or a clock recovery of Table 7-5 is in progress (R503). -/
def clockRecovering (s : State) : Bool :=
  (List.range 4).any (fun k => (s.pll k).st == 7 || ((s.pll k).byLoss && (s.pll k).attempt != 0)) || !s.clk.nodeOk || s.clk.nodeRecov != 0

/-- The engine may not leave the fatal state (R503). -/
def recoverBlocked (s : State) : Bool :=
  nonRecoverable.any (isSticky s) || s.flt.sticky.any (fun e => e.2 == 3 && conditionHolds s e.1) || clockRecovering s

/-- The engine returns from the fatal state (R503): the EVT_OUT pins resume, ALERT_N follows the thermal stage. -/
def recover (s : State) : State :=
  let s1 := (List.range 4).foldl (fun a n => a.modPin n (fun x => { x with held := false })) s
  let s2 := drivePins { s1 with host := { s1.host with engine := 1 }, pwr := { s1.pwr with alertLow := s1.pwr.stage != 0 } }
  post s2 0x0D02 (pack [(32, 0), (32, s2.flt.nfatal)])

/-- The sticky and CONSEQ bits and the records of groups are cleared (R522). -/
def clearGroups (s : State) (m : Nat) : State :=
  let keep := fun (id : Nat) => !bit m (id / 256)
  { s with flt := { s.flt with sticky := s.flt.sticky.filter (fun e => keep e.1), conseq := s.flt.conseq.filter (fun e => keep e.1),
                               recs := s.flt.recs.filter (fun e => !bit m e.1) } }

/-- FLT_CLEAR (R503, R522). -/
def execFltClear (c : Cmd) (p : Block) (s : State) : Host.Outcome State Fault Refusal :=
  zci 0x0D04 1 (fun _ => [(0, 48), (48, 1)]) c p s fun b s =>
    let rec_ := bit b 48 && s.host.engine == 2
    chk [(!ownsAllCh s c.session.val, stBusy), (fld b 0 48 == 0 && !bit b 48, stInvalid), (rec_ && recoverBlocked s, stState)]
      (.ok (clearGroups (if rec_ then recover s else s) (fld b 0 48)) 0 0)

end Sys2Proof.Machine
end

