-- ==== Sys2Proof/Machine/Sec.lean ====
section
/-! DEFINITION. The protected store, the life cycle, certificates, attestations, the maker's test port and the performance counters
(15_integrity_faults_and_security.md, R511 to R528). -/

namespace Sys2Proof.Machine

/-! ## Certificates and attestations (R517 to R519, R525, R526) -/

/-- SEC_GET_CERT (R525). -/
def execSecGetCert (c : Cmd) (p : Block) (s : State) : Host.Outcome State Fault Refusal :=
  zci 0x0D06 1 (fun _ => [(0, 2), (16, 16), (32, 32)]) c p s fun b s =>
    let h := fld b 16 16
    let off := 64 * fld b 32 32
    let bs := Config.cert (fld b 0 2)
    chk [(!regOwned s c.session.val h, stBusy), (s.sec.life == 0, stState), (fld b 0 2 == 3 || regPast s h off bs.length, stRange)]
      (copyOut s h off bs 1 (pack [(12, bs.length)]))

/-- Raises of the log that lie from T0 to now. -/
def raisesFrom (s : State) (t0 : Stamp) : List Raise := s.flt.log.filter (fun e => decide (t0 ≤ stampOf e.at_ ∧ e.at_ ≤ s.now))

/-- The highest shed level from T0 to now: the level in force at T0 and every later one. -/
def shedMaxFrom (s : State) (t0 : Stamp) : Nat :=
  let before := (s.spec.shedMax.filter (fun e => decide (stampOf e.1 < t0))).map (·.2)
  let after := (s.spec.shedMax.filter (fun e => decide (t0 ≤ stampOf e.1))).map (·.2)
  after.foldl max (before.getLast?.getD 0)

/-- The attestation body (Table 15-12), for the block of the command and the bytes digested. -/
def attestBody (s : State) (b : Nat) (bs : List Byte) : List Byte :=
  let len := fld b 128 64
  let t0 := fld b 256 80
  let l := raisesFrom s t0
  let n := fun (k : Nat) => (l.filter (fun e => e.sev == k)).length
  let partial_ := match s.flt.logLost with
    | some t => decide (t0 ≤ stampOf t)
    | none => false
  toBytes (pack [(8, 1), (1, b2n (len == 0)), (3, s.sec.life), (1, b2n s.clk.timeValid), (2, s.host.engine), (1, b2n partial_), (16, 0), (32, s.cal.count),
    (6, pack ((List.range 6).map (fun k => (1, b2n (s.calT k).drift)))), (2, 0), (4, shedMaxFrom s t0), (4, 0), (24, s.sec.fwver), (24, 0), (32, s.sec.secver),
    (32, 0), (128, Config.serial.toNat), (128, Config.keyId.toNat), (256, fld b 352 256), (384, ofBytes (Config.sha384 bs)),
    (64, if len = 0 then 0 else (s.reg (fld b 0 16)).addr + fld b 64 64), (64, len), (16, 0), (64, s.now), (80, t0), (64, (utcNow s).getD 0),
    (32, n 1), (32, n 2), (32, n 3), (32, (l.filter (·.conseq)).length), (480, 0)]) 256

/-- SEC_ATTEST (R518, R526): the digest ends at COMMAND_TRANSFER_END. -/
def execSecAttest (c : Cmd) (p : Block) (s : State) : Host.Outcome State Fault Refusal :=
  zci 0x0D07 10 (fun _ => [(0, 16), (16, 16), (64, 64), (128, 64), (192, 64), (256, 80), (352, 256)]) c p s fun b s =>
    let h := fld b 0 16
    let o := fld b 16 16
    let len := fld b 128 64
    let off := fld b 192 64
    chk [(s.flt.signBad, stFaulted), ((len != 0 && !regOwned s c.session.val h) || !regOwned s c.session.val o, stBusy), (off % 64 != 0, stInvalid),
         (len != 0 && regUsed s h, stState), (decide (devSize < len) || (len != 0 && regPast s h (fld b 64 64) len) || regPast s o off 352, stRange)]
      (.laterR s transferWait [b] (if len = 0 then [o] else [h, o]))

/-- The digest of an attestation ends: the attestation is signed and written (R518). -/
def attestEnd (s : State) (q : InProg) : State :=
  let b := q.data.headD 0
  let len := fld b 128 64
  let r := if len = 0 then ([], false, s) else regRead s (fld b 0 16) (fld b 64 64) len { master := 1 }
  let s1 := r.2.2
  let body := attestBody s1 b r.1
  let sig := Config.sign (Config.sha384 body) s1.sec.sigNo
  finish (regWrite { s1 with sec := { s1.sec with sigNo := s1.sec.sigNo + 1 } } (fld b 16 16) (fld b 192 64) (body ++ sig)) q 0 1 352

/-! ## Transfers that end (R464) -/

/-- What the end of a command's transfer does. -/
def transferEnd (s : State) (q : InProg) : State :=
  let d := q.data
  if q.opcode = 0x0901 then
    finish (feedWrite s 32 q.unit_ (d.headD 0) (bytesOf d.tail)) q 0 0 0
  else if q.opcode = 0x0907 then
    let r := feedRead s 32 q.unit_ (d.getD 0 0) (d.getD 1 0) ((s.reg (d.getD 2 0)).addr + d.getD 3 0)
    finish (if q.unit_ < 64 then regWrite r.2 (d.getD 2 0) (d.getD 3 0) r.1 else s) q 0 0 0
  else if q.opcode = 0x0D07 then attestEnd s q
  else if q.unit_ = transferWait then
    finish (if q.opcode = 0x0005 then fwStaged s (d.getD 1 0) else regWrite s (d.getD 2 0) (d.getD 3 0) (bytesOf (d.drop 4))) q
      (d.headD 0 / 256) (d.headD 0 % 256) (d.getD 1 0)
  else s

/-- COMMAND_TRANSFER_END: the transfer of the `i`-th command in progress ends, and the command completes. It moves data through device
memory, which it cannot reach while a panic is raised (R27); only a firmware image and a Grove program go elsewhere. -/
def execCommandTransferEnd (t i : Nat) (s : State) : Host.Outcome State Fault Refusal :=
  act t s fun s =>
    match s.host.inProg[i]? with
    | some q => if panicUp s && q.opcode ≠ 0x0005 && q.opcode ≠ 0x0901 then s else transferEnd s q
    | none => s

/-! ## The life cycle (R513, R524) -/

/-- CHALLENGE is renewed (R524). -/
def renewChallenge (s : State) : State := { s with sec := { s.sec with chalNo := s.sec.chalNo + 1 } }

/-- The life-cycle state changes: it is posted, and a device reset follows 1 ms later (R513). -/
def lifeMove (s : State) (new : Nat) : State :=
  let s1 := post s 0x0D04 (pack [(3, new), (3, s.sec.life)])
  { s1 with sec := { s1.sec with life := new }, host := { s1.host with resetAt := some (s.now + periodCt) } }

/-- What RETURN erases (Table 15-8): the owner key digest, the records, and the correction set returns to factory values. -/
def eraseField (s : State) : State :=
  { s with sec := { s.sec with owner := none }, cal := { s.cal with values := [], records := [] } }

/-- The state that a TARGET code names; none for another code. -/
def targetState (t : Nat) : Option Nat := if t = 1 then some 2 else if t = 3 then some 3 else if t = 4 then some 4 else none

/-- Table 15-9 allows the transition by SEC_SET_LIFECYCLE. -/
def lifeAllowed (old new : Nat) : Bool := (old == 1 && 2 ≤ new) || (old == 2 && 3 ≤ new) || (old == 3 && new == 4)

/-- The owner's authorisation (R524): a key with the digest held, and its signature over serial number, CHALLENGE and TARGET. -/
def ownerAuth (s : State) (target : Nat) (auth : List Byte) : Bool :=
  let key := auth.take 97
  let msg := toBytes Config.serial.toNat 16 ++ toBytes (Config.challenge s.sec.chalNo).toNat 32 ++ toBytes target 1 ++ List.replicate 15 0
  s.sec.owner == some (ofBytes (Config.sha384 key)) && Config.ecdsaOk key (Config.sha384 msg) ((auth.drop 97).take 96)

/-- SEC_SET_LIFECYCLE (R513, R520, R524): `auth` is the authorisation block. CHALLENGE is renewed whatever the outcome. -/
def execSecSetLifecycle (c : Cmd) (p : Block) (auth : List Nat) (s : State) : Host.Outcome State Fault Refusal :=
  zciThen renewChallenge 0x0D08 2 (fun _ => [(0, 3), (64, 64)]) c p s fun b s =>
    let n := c.session.val
    let tgt := fld b 0 3
    let new := (targetState tgt).getD 0
    let bs := (bytesOf auth ++ List.replicate 256 0).take 256
    let s1 := lifeMove (if new = 2 then { s with sec := { s.sec with owner := some (ofBytes (bs.take 48)) } } else if new = 3 then eraseField s else s) new
    chk [(!ownsAllCh s n, stBusy), ((targetState tgt).isNone || fld b 64 64 % 64 != 0, stInvalid),
         (othersOpen s n || (List.range 6).any (fun id => (s.str id).running) || s.move.entry != 0xFFFF, stState), (!lifeAllowed s.sec.life new, stState)]
      (if s.sec.life = 2 && !ownerAuth s tgt bs then .failWith (raiseFault s 0x2B01 {}) stDenied 0 0 else .ok s1 0 0)

/-- TESTPORT (Table 15-16). -/
def testPort (s : State) : Nat := if s.sec.life = 0 || s.sec.life = 3 then 2 else if s.sec.life = 1 then 1 else 0

/-- One bit per signing key slot. -/
def keyBits (s : State) (f : Nat × Bool × Bool → Bool) : Nat := pack ((s.sec.fwKeys.take 4).map (fun k => (1, b2n (f k))))

/-- SEC_GET_STATUS (R527, Table 15-16). -/
def execSecGetStatus (c : Cmd) (p : Block) (s : State) : Host.Outcome State Fault Refusal :=
  zci 0x0D09 1 (fun _ => []) c p s fun _ s =>
    .ok s 8 (pack [(3, s.sec.life), (1, b2n s.sec.owner.isSome), (1, b2n (keyUsable s)), (2, testPort s), (1, 0), (4, keyBits s (fun _ => true)),
      (4, keyBits s (·.2.1)), (4, keyBits s (·.2.2)), (12, 0), (16, s.sec.storeOk), (16, 0), (32, s.sec.secver), (32, s.sec.wear), (128, 0),
      (256, (Config.challenge s.sec.chalNo).toNat)])

/-- The test port is refused (Table 15-10). -/
def portRefused (s : State) : State := raiseFault s 0x2B00 {}

/-- The maker writes a factory value (R296, R303), within the range of its item. Of an item with factory values only it is the value in force;
any other item keeps its value in force until a calibration or CAL_RESTORE places another. -/
def factoryWrite (s : State) (key : Nat) (v : Int) : State :=
  let item := key / 65536
  let index := key % 65536
  if !calPlaces item index v then s else
  let now := calValue s item index
  let s1 := { s with cal := { s.cal with factory := tput 0 s.cal.factory key (v - calNominal item) } }
  if 9 ≤ item then s1 else setCalValue s1 item index now

/-- TEST_PORT_ACCESS (R508, R512 to R514): `kind` 0 is a scan, memory or register access, 1 a halt, step or breakpoint, 2 a read of fault or
counter state, 3 the injection of source `id`, 4 the transition from NURSERY to SAPLING, 5 that from RETURN to NURSERY, 6 a write of signing key
slot `id` with digest `a` and flags `b`, 7 a write of the factory value at key `id`. What an access of kinds 0 to 2 does beyond that is not
given. -/
def execTestPortAccess (t kind id a b : Nat) (v : Int) (s : State) : Host.Outcome State Fault Refusal :=
  act t s fun s =>
    let life := s.sec.life
    let opened := life = 0 || life = 3
    match kind with
    | 0 => if opened then s else portRefused s
    | 1 => if opened || life = 1 then s else portRefused s
    | 2 => if opened || life = 1 then s else portRefused s
    | 3 => if !opened then portRefused s else if fltDefined id && !isEcc id then detect s id { forced := true } else s
    | 4 => if life = 0 then lifeMove s 1 else portRefused s
    | 5 => if life = 3 then lifeMove s 0 else portRefused s
    | 6 => if !opened then portRefused s
           else if id < 4 then
             { s with sec := { s.sec with fwKeys := (s.sec.fwKeys ++ List.replicate 4 (0, false, false)).take (max (id + 1) s.sec.fwKeys.length) |>.set id (a, bit b 0, bit b 1) } }
           else s
    | _ => if life ≠ 0 then portRefused s else factoryWrite s id v

/-! ## Performance counters (R511, R528) -/

/-- Sources of Table 15-7. -/
def perfKnown (src : Nat) : Bool := decide (1 ≤ src ∧ src ≤ 0x15)

/-- INSTANCE of a source (Table 15-7). -/
def perfInst (src k : Nat) : Bool :=
  match src with
  | 0x01 | 0x02 => k < 6 || (16 ≤ k && k < 32)
  | 0x03 => k < 12
  | 0x06 | 0x07 | 0x08 => k < 4 || k = 0xFF
  | 0x0B | 0x0C | 0x15 => k < 64
  | 0x0D => k < 32
  | 0x0E => k < 2
  | 0x0F => k < 4
  | 0x11 => k < 8
  | 0x12 => k < 48
  | 0x14 => k < 16
  | _ => k = 0

/-- PERF_SET_COUNTER (R528). -/
def execPerfSetCounter (c : Cmd) (p : Block) (s : State) : Host.Outcome State Fault Refusal :=
  zci 0x0E01 1 (fun _ => [(0, 6), (8, 8), (16, 16), (32, 1)]) c p s fun b s =>
    let k := fld b 0 6
    let src := fld b 8 8
    chk [(!owns s c.session.val 0x18 k, stBusy), (!perfKnown src, stInvalid), ((s.perfC k).run, stState), (!perfInst src (fld b 16 16), stRange)]
      (.ok (s.modPerfC k (fun x => { x with conf := true, source := src, inst_ := fld b 16 16, maxMode := bit b 32 })) 0 0)

/-- An action on one counter: 0 stop, 1 start, 2 clear, 3 clear and start. -/
def Perf.action (x : Perf) (a : Nat) : Perf :=
  let y := if 2 ≤ a then { x with value := 0, sat := false } else x
  if a = 0 then { y with run := false } else if a % 2 = 1 then { y with run := true } else y

/-- An action on the counters of a mask, at one tick. -/
def perfGo (s : State) (mask a : Nat) : State := (maskBits 64 mask).foldl (fun t k => t.modPerfC k (fun x => x.action a)) s

/-- PERF_CONTROL (R528). -/
def execPerfControl (c : Cmd) (p : Block) (s : State) : Host.Outcome State Fault Refusal :=
  zci 0x0E02 3 (fun _ => [(0, 64), (64, 2), (128, 64)]) c p s fun b s =>
    let m := fld b 0 64
    let a := fld b 64 2
    let at_ := fld b 128 64
    chk [((maskBits 64 m).any (fun k => !owns s c.session.val 0x18 k), stBusy), (m == 0, stInvalid),
         (a % 2 == 1 && (maskBits 64 m).any (fun k => !(s.perfC k).conf), stState), (tickBad s at_, stRange)]
      (if at_ = 0 then .ok (perfGo s m a) 2 (pack [(16, 0), (64, s.now)]) else .later s 0 [at_, m, a])

/-- PERF_CONTROL_AT_CT: timed commands reach AT_CT. -/
def execPerfControlAtCt (t : Nat) (s : State) : Host.Outcome State Fault Refusal :=
  act t s fun s =>
    (s.host.inProg.filter (fun q => q.opcode == 0x0E02 && decide (q.data.headD 0 ≤ s.now))).foldl
      (fun r q => finish (perfGo r (q.data.getD 1 0) (q.data.getD 2 0)) q 0 2 (pack [(16, 0), (64, s.now)])) s

/-- One counter as PERF_READ writes it. -/
def Perf.word (x : Perf) : Nat := pack [(48, x.value), (1, b2n x.sat), (1, b2n x.run), (6, 0), (8, x.source)]

/-- PERF_READ (R528). -/
def execPerfRead (c : Cmd) (p : Block) (s : State) : Host.Outcome State Fault Refusal :=
  zci 0x0E03 3 (fun _ => [(0, 64), (64, 16), (128, 64)]) c p s fun b s =>
    let ks := maskBits 64 (fld b 0 64)
    let h := fld b 64 16
    let off := fld b 128 64
    chk [(!regOwned s c.session.val h, stBusy), (off % 64 != 0, stInvalid), (regPast s h off (64 + 8 * ks.length), stRange)]
      (copyOut s h off (toBytes (pack [(16, 0), (64, s.now)]) 64 ++ ks.flatMap (fun k => toBytes (s.perfC k).word 8)) 0 0)

/-- A source whose whole quantity no other row counts (log 26): the payload of the host link, and the ticks of a full elastic buffer. -/
def perfOpen (src : Nat) : Bool := src == 0x0E || src == 0x15

/-- PERF_SAT (R511): a running counter of a source whose quantity no other row counts takes the quantity `v`; a counter that saturates by it
posts once. Every other source saturates its counters in the rows that count it. -/
def execPerfSat (t k v : Nat) (s : State) : Host.Outcome State Fault Refusal :=
  act t s fun s =>
    let x := s.perfC k
    if !x.run || !perfOpen x.source then s else
    let s1 := s.setPerfC k (x.count v)
    if (x.count v).sat && !x.sat then post s1 0x0E01 (perfSatPayload s1 k) else s1

end Sys2Proof.Machine
end

