-- ==== Sys2Proof/Machine/Power.lean ====
section
/-! DEFINITION. Power-on, device reset, start-up, thermal stages and power-down (16_power_reset_and_startup.md). -/

namespace Sys2Proof.Machine

/-! ## What a device reset keeps (R538) -/

/-- A target's acceptances after a device reset: they were made before it, so that their Canopy times no longer tell an age (R303, R304). -/
def CalTarget.afterReset (x : CalTarget) : CalTarget :=
  let f := fun (a : Option CalAcc) => a.map (fun y => { y with here := false })
  { tone := f x.tone, resp := f x.resp, ilv := f x.ilv, latest := f x.latest, drift := true }

/-- The persistent part of calibration: the correction set, the count and the records (items 5, 6, 7 and 9 of the store). -/
def Cal.kept (x : Cal) : Cal :=
  { values := x.values, factory := x.factory, count := x.count, lastUtc := x.lastUtc, utcValid := x.utcValid, records := x.records,
    targets := (List.range 6).foldl (fun t k => tput {} t k (tget {} x.targets k).afterReset) [] }

/-- The persistent part of a quadrant: its retired rank, which start-up applies to every row (R369, R533 step 8). -/
def Quad.kept (x : Quad) : Quad := { retired := x.retired, wmark := if x.retired = 0xFF then 0 else 4194304 }

/-- The persistent part of the memory system: retirements and the count of uncorrectable errors (items 8 and 9). -/
def MemSys.kept (x : MemSys) : MemSys :=
  { ue := x.ue, quads := (List.range 4).foldl (fun t q => tput {} t q (tget {} x.quads q).kept) [] }

/-- What of the host port is not the engine's to reset: the firmware slot that runs, and what was written into host memory. -/
def HostIf.kept (x : HostIf) : HostIf :=
  { slot := x.slot, hostMem := x.hostMem, evRing := x.evRing,
    cpls := (List.range 16).foldl (fun t n => tput {} t n { slots := (tget {} x.cpls n).slots }) [] }

/-- Device reset (R538): every unit, register, counter and record returns to its reset value; the protected store, the junction
temperature and the level of HP_PERST stay, CHALLENGE is renewed (R524). The queue and the count of free values are the model's own. -/
def deviceReset (s : State) : State :=
  { pending := s.pending, freeNo := s.freeNo, host := s.host.kept, cal := s.cal.kept, mem := s.mem.kept,
    sec := { s.sec with chalNo := s.sec.chalNo + 1 }, pwr := { tj := s.pwr.tj, perst := s.pwr.perst } }

/-- Power-down (R542): outputs in the state of Table 16-5, PGOOD low, rails off. `trip` latches it (R541). -/
def powerDown (s : State) (trip : Bool) : State :=
  { deviceReset s with pwr := { tj := s.pwr.tj, perst := s.pwr.perst, powered := false, pgood := false, tripped := trip || s.pwr.tripped } }

/-- A row that can reset the engine: unlike `act`, the Canopy count may restart at zero. -/
def actReset (t : Tick) (s : State) (f : State → State) : Host.Outcome State Fault Refusal :=
  let s1 := flushAll (advance s t)
  .next { f s1 with pending := s.pending, freeNo := max s.freeNo (f s1).freeNo }

/-! ## Reset sources (Table 16-4) -/

/-- A device reset that starts the other firmware slot. -/
def resetOther (s : State) (engine : Nat) (fallback activating : Bool) : State :=
  let s1 := deviceReset s
  { s1 with host := { s1.host with slot := 1 - s1.host.slot, engine := engine, fallback := fallback, activating := activating } }

/-- DEVICE_RESET (R537, R538): `held` says that RST_N has been low for 10 µs; else the reset that SYS_RESET, firmware activation or a
life-cycle transition scheduled, which starts from the staged slot after an activation. -/
def execDeviceReset (t : Nat) (held : Bool) (s : State) : Host.Outcome State Fault Refusal :=
  if s.pwr.down then .next s
  else if held then
    actReset t s fun s =>
      let s1 := deviceReset s
      { s1 with pwr := { s1.pwr with rstLow := true } }
  else if s.host.resetAt.any (fun r => decide (r ≤ max s.now t)) then
    actReset t s fun s => if s.host.activating then resetOther s 3 false true else deviceReset s
  else act t s fun s => s

/-- RST_N_RELEASE (R537): RST_N rises, and start-up begins at step 4. -/
def execRstNRelease (_t : Nat) (s : State) : Host.Outcome State Fault Refusal :=
  if !s.pwr.powered || !s.pwr.rstLow then .next s
  else .next { s with now := 0, pwr := { s.pwr with rstLow := false } }

/-- POWER_DOWN (R542): a supply below 10.2 V or EN low for 10 µs. -/
def execPowerDown (t : Nat) (s : State) : Host.Outcome State Fault Refusal :=
  if !s.pwr.powered then .next s else actReset t s fun s => powerDown s false

/-- The cross-check of sensor k has been raised, and its reading is replaced (16, "Thermal monitoring and throttling"). -/
def sensorBad (s : State) (k : Nat) : Bool := isSticky s (0x2808 + k)

/-- The largest of readings in 0.1 °C; the lowest value where there is none. -/
def hottest (l : List Int) : Int := l.foldl max (-32767)

/-- What sensor k contributes to Tj, of the eight readings `rs`: its own, or the hottest of the others plus 5 °C. -/
def sensorPart (s : State) (rs : List Int) (k : Nat) : Int :=
  if sensorBad s k then hottest (((List.range 8).filter (· != k)).map (fun j => rs.getD j 0)) + 50 else rs.getD k 0

/-- Tj of the eight readings. -/
def tjOf (s : State) (rs : List Int) : Int := hottest ((List.range 8).map (sensorPart s rs))

/-- The hottest sensor: of those whose reading stands, the one that reads most, the lowest of several (log 23); sensor 0 where none stands. -/
def hotSensor (s : State) (rs : List Int) : Nat :=
  let ks := (List.range 8).filter (fun k => !sensorBad s k)
  (ks.find? (fun k => ks.all (fun j => decide (rs.getD j 0 ≤ rs.getD k 0)))).getD 0

/-- THERMAL_TRIP (R541): Tj, of the eight readings `rs`, reaches 112 °C. -/
def execThermalTrip (t : Nat) (rs : List Int) (s : State) : Host.Outcome State Fault Refusal :=
  if !s.pwr.powered || tjOf s rs < 1120 then .next s
  else actReset t s fun s => powerDown { s with pwr := { s.pwr with tj := tjOf s rs } } true

/-- POWER_ON (R533, R541, R543): steps 1 to 3 of the start-up sequence. `waited` says that EN has been low for 50 ms or VIN_12V below
10.2 V since the power-down; after a thermal trip Tj must have fallen below 95 °C as well. -/
def execPowerOn (t : Nat) (waited : Bool) (tj : Int) (s : State) : Host.Outcome State Fault Refusal :=
  if s.pwr.powered || !waited || (s.pwr.tripped && 950 ≤ tj) then .next s
  else actReset t s fun s =>
    let s1 := deviceReset s
    { s1 with pwr := { s1.pwr with tj := tj } }

/-! ## Start-up (R533 to R536) -/

/-- An item of the protected store that failed its check is not used (R512): what it would have given is absent, or at its value at
manufacture. -/
def storeUnused (s : State) (k : Nat) : State :=
  match k with
  | 2 => { s with sec := { s.sec with fwKeys := [] } }
  | 4 => { s with sec := { s.sec with owner := none } }
  | 5 => { s with cal := { s.cal with factory := [] } }
  | 6 => { s with cal := { s.cal with values := [] } }
  | 7 => { s with cal := { s.cal with records := [] } }
  | 8 => { s with mem := { s.mem with quads := [] } }
  | 9 => { s with mem := { s.mem with ue := 0 }, cal := { s.cal with lastUtc := 0, utcValid := false, targets := [] } }
  | _ => s

/-- What a failure found during start-up leaves (R536): the item unused, the PLL failed, or device memory unused. -/
def startupFail (s : State) (id : Nat) : State :=
  let k := id % 256
  let s1 := if id / 256 = 0x01 then storeUnused s k
            else if id / 256 = 0x02 then s.modPll (k % 4) (fun x => { x with st := 7 })
            else { s with mem := { s.mem with channelBad := true } }
  raiseFault s1 id {}

/-- The sources that start-up can record (R536): store items, PLLs that failed three band searches, channels that failed training. -/
def startupSource (id : Nat) : Bool :=
  (id / 256 = 0x01 && id % 256 < 16) || (0x020C ≤ id && id ≤ 0x020F) || (0x1D ≤ id / 256 && id / 256 ≤ 0x20 && 32 ≤ id % 256 && id % 256 < 40)

/-- A failure after which start-up ends in the fatal state whatever the severity of its source. -/
def startupHard (id : Nat) : Bool := startupSource id && id / 256 != 0x01

/-- The version registers after start-up: FWVER is that of the slot that runs, and SECVER rises to that of a slot just activated (R473). -/
def startVersions (s : State) (activated : Bool) : State :=
  let n := s.host.slot
  let k := tget 0 s.sec.slotSec n
  { s with sec := { s.sec with fwver := tget 0 s.sec.slotVer n, secver := if activated then max s.sec.secver k else s.sec.secver } }

/-- Step 9 (R533): the engine is ready, HEARTBEAT starts, the aux reference is good, ALERT_N is released unless a thermal stage holds it. -/
def ready (s : State) : State :=
  { s with host := { s.host with engine := 1, hbAt := s.now, activating := false }, aux := { s.aux with refok := true },
           sec := { s.sec with storeOk := 0xFFFF }, pwr := { s.pwr with step := 9, alertLow := s.pwr.stage != 0 } }

/-- A PLL has locked with band search in step 4 or 6: the search's entry is written, and its sync edge stands (R240, R241, R533). -/
def startLock (s : State) (k : Nat) (found edge : Nat) : State :=
  let s1 := if found = 0 then s else hopWrite s k (if k < 2 then (s.pll k).n else if k = 2 then 64 else 96) [found]
  s1.modPll k (fun x => { x with syncEdge := min ((edge + 15) / 16 * 16) (s.now / 16 * 16) })

/-- STARTUP_COMPLETE (R473, R533, R536): start-up ends. `fails` are the sources of steps that failed; `slotOk` and `otherOk` whether the
running slot and the other one pass R472; `found` and `edges` what the band search of each PLL found and its sync edge. -/
def execStartupComplete (t : Nat) (fails : List Nat) (slotOk otherOk : Bool) (found edges : List Nat) (s : State) :
    Host.Outcome State Fault Refusal :=
  act t s fun s =>
    if s.pwr.step ≠ 4 || s.flt.cpDead then s
    else if !slotOk && !otherOk then { s with pwr := { s.pwr with step := 5 } }
    else
      let s1 := if slotOk then (if s.host.activating then { s with host := { s.host with fallback := false } } else s)
                else { s with host := { s.host with slot := 1 - s.host.slot, fallback := true } }
      let s2 := (List.range 4).foldl (fun a k => startLock a k (found.getD k 0) (edges.getD k 0))
        (ready (startVersions s1 (slotOk && s.host.activating)))
      let s3 := (fails.filter startupSource).foldl startupFail s2
      if s3.host.engine = 1 && (fails.any startupHard || s3.flt.sticky.any (fun e => e.2 == 3)) then enterFatal s3 (fails.headD 0x2E00) else s3

/-- FIRMWARE_START_TIMEOUT (R473): the firmware just activated is not ready within the start-up time, and the engine resets again from the
previous slot. -/
def execFirmwareStartTimeout (t : Nat) (s : State) : Host.Outcome State Fault Refusal :=
  if s.pwr.down || !(s.host.activating && s.host.engine = 3) then .next s
  else actReset t s fun s => resetOther s 0 true false

/-! ## Thermal stages (R540, R541) -/

/-- The highest stage whose threshold Tj has reached (Table 16-6). -/
def stageOf (tj : Int) : Nat := if 1080 ≤ tj then 3 else if 1050 ≤ tj then 2 else if 1000 ≤ tj then 1 else 0

/-- THERMAL_STAGE (R540, R541): Tj, of the eight readings `rs`, reaches a threshold; the source of the hottest sensor is raised. The stage
raises the shed level to its floor. -/
def execThermalStage (t : Nat) (rs : List Int) (s : State) : Host.Outcome State Fault Refusal :=
  act t s fun s =>
    let tj := tjOf s rs
    let k := hotSensor s rs
    let s1 := { s with pwr := { s.pwr with tj := tj } }
    let n := stageOf tj
    if n ≤ s.pwr.stage then s1 else
    let s2 := { s1 with pwr := { s1.pwr with stage := n, alertLow := true } }
    let s3 := (List.range (n - s.pwr.stage)).foldl (fun a _ => raiseFault a (0x2800 + k) {}) s2
    shedTo s3 (thermalShed s3)

/-- The stage that is left for when Tj has stayed at `tj` or below for 100 ms: the highest one not above the present stage that Tj is
not 3 °C or more below. -/
def stageAfter (stage : Nat) (tj : Int) : Nat := min stage (stageOf (tj + 29))

/-- THERMAL_STAGE_EXIT (R540): Tj has stayed at `tj` or below for 100 ms. -/
def execThermalStageExit (t : Nat) (tj : Int) (s : State) : Host.Outcome State Fault Refusal :=
  act t s fun s =>
    let n := stageAfter s.pwr.stage tj
    { s with pwr := { s.pwr with tj := tj, stage := n, alertLow := n != 0 || s.host.engine != 1 } }

end Sys2Proof.Machine
end

