-- ==== Sys2Proof/Machine/Dispatch.lean ====
section
/-! DEFINITION. One arm per constructor of Instr: the command's meaning. -/

namespace Sys2Proof.Machine

def exec (i : Instr) (s : State) : Host.Outcome State Fault Refusal :=
  match i with
  | .sysGetInfo c p => Sys2Proof.Machine.execSysGetInfo c p s
  | .sysAlloc c p => Sys2Proof.Machine.execSysAlloc c p s
  | .sysFree c p => Sys2Proof.Machine.execSysFree c p s
  | .sysGetAlloc c p => Sys2Proof.Machine.execSysGetAlloc c p s
  | .sysFwStage c p img => Sys2Proof.Machine.execSysFwStage c p img s
  | .sysFwActivate c p => Sys2Proof.Machine.execSysFwActivate c p s
  | .sysReset c p => Sys2Proof.Machine.execSysReset c p s
  | .sysNop c p => Sys2Proof.Machine.execSysNop c p s
  | .feSetMode c p => Sys2Proof.Machine.execFeSetMode c p s
  | .feSetSource c p => Sys2Proof.Machine.execFeSetSource c p s
  | .feSetAtten c p => Sys2Proof.Machine.execFeSetAtten c p s
  | .feStream c p => Sys2Proof.Machine.execFeStream c p s
  | .feGetStatus c p => Sys2Proof.Machine.execFeGetStatus c p s
  | .feSetProtect c p => Sys2Proof.Machine.execFeSetProtect c p s
  | .clkSetRef c p => Sys2Proof.Machine.execClkSetRef c p s
  | .clkSetPll c p => Sys2Proof.Machine.execClkSetPll c p s
  | .clkBuildHops c p => Sys2Proof.Machine.execClkBuildHops c p s
  | .clkSetPps c p => Sys2Proof.Machine.execClkSetPps c p s
  | .clkSetTime c p => Sys2Proof.Machine.execClkSetTime c p s
  | .clkGetStatus c p => Sys2Proof.Machine.execClkGetStatus c p s
  | .calRun c p => Sys2Proof.Machine.execCalRun c p s
  | .calSetBlind c p => Sys2Proof.Machine.execCalSetBlind c p s
  | .calRestore c p => Sys2Proof.Machine.execCalRestore c p s
  | .calRead c p => Sys2Proof.Machine.execCalRead c p s
  | .calGetRecord c p => Sys2Proof.Machine.execCalGetRecord c p s
  | .calGetStatus c p => Sys2Proof.Machine.execCalGetStatus c p s
  | .specSetLane c p => Sys2Proof.Machine.execSpecSetLane c p s
  | .specLoadWindow c p data => Sys2Proof.Machine.execSpecLoadWindow c p data s
  | .specSetDdc c p => Sys2Proof.Machine.execSpecSetDdc c p s
  | .specTuneDdc c p => Sys2Proof.Machine.execSpecTuneDdc c p s
  | .specSetTrace c p => Sys2Proof.Machine.execSpecSetTrace c p s
  | .specSetOutput c p => Sys2Proof.Machine.execSpecSetOutput c p s
  | .specGetStatus c p => Sys2Proof.Machine.execSpecGetStatus c p s
  | .specSetGovernor c p => Sys2Proof.Machine.execSpecSetGovernor c p s
  | .acqSetTerm c p => Sys2Proof.Machine.execAcqSetTerm c p s
  | .acqSetCombiner c p => Sys2Proof.Machine.execAcqSetCombiner c p s
  | .acqSetCapture c p => Sys2Proof.Machine.execAcqSetCapture c p s
  | .acqArm c p => Sys2Proof.Machine.execAcqArm c p s
  | .acqStop c p => Sys2Proof.Machine.execAcqStop c p s
  | .acqForce c p => Sys2Proof.Machine.execAcqForce c p s
  | .acqLoadMask c p data => Sys2Proof.Machine.execAcqLoadMask c p data s
  | .acqSetMask c p => Sys2Proof.Machine.execAcqSetMask c p s
  | .acqSetTest c p => Sys2Proof.Machine.execAcqSetTest c p s
  | .acqSetEvtOut c p => Sys2Proof.Machine.execAcqSetEvtOut c p s
  | .acqGetStatus c p => Sys2Proof.Machine.execAcqGetStatus c p s
  | .densSetMap c p => Sys2Proof.Machine.execDensSetMap c p s
  | .densClear c p => Sys2Proof.Machine.execDensClear c p s
  | .densRead c p => Sys2Proof.Machine.execDensRead c p s
  | .densSetPigment c p data => Sys2Proof.Machine.execDensSetPigment c p data s
  | .dispSetMode c p => Sys2Proof.Machine.execDispSetMode c p s
  | .dispSetLayer c p => Sys2Proof.Machine.execDispSetLayer c p s
  | .dispSetEvents c p => Sys2Proof.Machine.execDispSetEvents c p s
  | .dispFallow c p => Sys2Proof.Machine.execDispFallow c p s
  | .dispAux c p => Sys2Proof.Machine.execDispAux c p s
  | .dispGetStatus c p => Sys2Proof.Machine.execDispGetStatus c p s
  | .densGetStatus c p => Sys2Proof.Machine.execDensGetStatus c p s
  | .monSetContext c p => Sys2Proof.Machine.execMonSetContext c p s
  | .monLoad c p data => Sys2Proof.Machine.execMonLoad c p data s
  | .monClear c p => Sys2Proof.Machine.execMonClear c p s
  | .monSnapshot c p => Sys2Proof.Machine.execMonSnapshot c p s
  | .monRead c p => Sys2Proof.Machine.execMonRead c p s
  | .monSetLog c p => Sys2Proof.Machine.execMonSetLog c p s
  | .monGetStatus c p => Sys2Proof.Machine.execMonGetStatus c p s
  | .tiuSetInput c p => Sys2Proof.Machine.execTiuSetInput c p s
  | .tiuSetStats c p => Sys2Proof.Machine.execTiuSetStats c p s
  | .tiuGetStats c p => Sys2Proof.Machine.execTiuGetStats c p s
  | .tiuRead c p => Sys2Proof.Machine.execTiuRead c p s
  | .tiuSetDrain c p => Sys2Proof.Machine.execTiuSetDrain c p s
  | .tiuCal c p => Sys2Proof.Machine.execTiuCal c p s
  | .tiuGetStatus c p => Sys2Proof.Machine.execTiuGetStatus c p s
  | .groveLoad c p data => Sys2Proof.Machine.execGroveLoad c p data s
  | .groveStart c p => Sys2Proof.Machine.execGroveStart c p s
  | .groveStop c p => Sys2Proof.Machine.execGroveStop c p s
  | .groveSetShadow c p => Sys2Proof.Machine.execGroveSetShadow c p s
  | .groveSetFeed c p => Sys2Proof.Machine.execGroveSetFeed c p s
  | .groveSetBarrier c p => Sys2Proof.Machine.execGroveSetBarrier c p s
  | .groveRead c p => Sys2Proof.Machine.execGroveRead c p s
  | .groveGetStatus c p => Sys2Proof.Machine.execGroveGetStatus c p s
  | .groveGetFeed c p => Sys2Proof.Machine.execGroveGetFeed c p s
  | .memAlloc c p => Sys2Proof.Machine.execMemAlloc c p s
  | .memFree c p => Sys2Proof.Machine.execMemFree c p s
  | .memSetRing c p => Sys2Proof.Machine.execMemSetRing c p s
  | .memRingAck c p => Sys2Proof.Machine.execMemRingAck c p s
  | .memRingStatus c p => Sys2Proof.Machine.execMemRingStatus c p s
  | .memCommons c p => Sys2Proof.Machine.execMemCommons c p s
  | .memRetire c p => Sys2Proof.Machine.execMemRetire c p s
  | .memGetStatus c p => Sys2Proof.Machine.execMemGetStatus c p s
  | .memGetPoison c p => Sys2Proof.Machine.execMemGetPoison c p s
  | .dmaSetChannel c p => Sys2Proof.Machine.execDmaSetChannel c p s
  | .dmaSetShadow c p => Sys2Proof.Machine.execDmaSetShadow c p s
  | .dmaRaise c p => Sys2Proof.Machine.execDmaRaise c p s
  | .dmaSetTimer c p => Sys2Proof.Machine.execDmaSetTimer c p s
  | .dmaGetStatus c p => Sys2Proof.Machine.execDmaGetStatus c p s
  | .streamSet c p => Sys2Proof.Machine.execStreamSet c p s
  | .storSetPort c p => Sys2Proof.Machine.execStorSetPort c p s
  | .storFormat c p => Sys2Proof.Machine.execStorFormat c p s
  | .storMount c p => Sys2Proof.Machine.execStorMount c p s
  | .storUnmount c p => Sys2Proof.Machine.execStorUnmount c p s
  | .recOpen c p => Sys2Proof.Machine.execRecOpen c p s
  | .recClose c p => Sys2Proof.Machine.execRecClose c p s
  | .storGetStatus c p => Sys2Proof.Machine.execStorGetStatus c p s
  | .storLogPage c p => Sys2Proof.Machine.execStorLogPage c p s
  | .auxSetRef c p => Sys2Proof.Machine.execAuxSetRef c p s
  | .auxSetInput c p => Sys2Proof.Machine.execAuxSetInput c p s
  | .auxSetSeq c p => Sys2Proof.Machine.execAuxSetSeq c p s
  | .auxGetStatus c p => Sys2Proof.Machine.execAuxGetStatus c p s
  | .ctlSetOutput c p => Sys2Proof.Machine.execCtlSetOutput c p s
  | .ctlWrite c p => Sys2Proof.Machine.execCtlWrite c p s
  | .ctlGetStatus c p => Sys2Proof.Machine.execCtlGetStatus c p s
  | .fltGetStatus c p => Sys2Proof.Machine.execFltGetStatus c p s
  | .fltSetSeverity c p => Sys2Proof.Machine.execFltSetSeverity c p s
  | .fltGetRecord c p => Sys2Proof.Machine.execFltGetRecord c p s
  | .fltClear c p => Sys2Proof.Machine.execFltClear c p s
  | .fltForce c p => Sys2Proof.Machine.execFltForce c p s
  | .secGetCert c p => Sys2Proof.Machine.execSecGetCert c p s
  | .secAttest c p => Sys2Proof.Machine.execSecAttest c p s
  | .secSetLifecycle c p auth => Sys2Proof.Machine.execSecSetLifecycle c p auth s
  | .secGetStatus c p => Sys2Proof.Machine.execSecGetStatus c p s
  | .perfSetCounter c p => Sys2Proof.Machine.execPerfSetCounter c p s
  | .perfControl c p => Sys2Proof.Machine.execPerfControl c p s
  | .perfRead c p => Sys2Proof.Machine.execPerfRead c p s
  | .gNop t core w => Sys2Proof.Machine.execGNop t core w s
  | .gAdd t core w => Sys2Proof.Machine.execGAdd t core w s
  | .gSub t core w => Sys2Proof.Machine.execGSub t core w s
  | .gAnd t core w => Sys2Proof.Machine.execGAnd t core w s
  | .gOr t core w => Sys2Proof.Machine.execGOr t core w s
  | .gXor t core w => Sys2Proof.Machine.execGXor t core w s
  | .gShl t core w => Sys2Proof.Machine.execGShl t core w s
  | .gShr t core w => Sys2Proof.Machine.execGShr t core w s
  | .gSar t core w => Sys2Proof.Machine.execGSar t core w s
  | .gSlt t core w => Sys2Proof.Machine.execGSlt t core w s
  | .gSltu t core w => Sys2Proof.Machine.execGSltu t core w s
  | .gMul t core w => Sys2Proof.Machine.execGMul t core w s
  | .gAddi t core w => Sys2Proof.Machine.execGAddi t core w s
  | .gAndi t core w => Sys2Proof.Machine.execGAndi t core w s
  | .gOri t core w => Sys2Proof.Machine.execGOri t core w s
  | .gShi t core w => Sys2Proof.Machine.execGShi t core w s
  | .gMovi t core w => Sys2Proof.Machine.execGMovi t core w s
  | .gMovhi t core w => Sys2Proof.Machine.execGMovhi t core w s
  | .gCmul t core w => Sys2Proof.Machine.execGCmul t core w s
  | .gCadds t core w => Sys2Proof.Machine.execGCadds t core w s
  | .gCsubs t core w => Sys2Proof.Machine.execGCsubs t core w s
  | .gMovr t core w => Sys2Proof.Machine.execGMovr t core w s
  | .gSmov t core w => Sys2Proof.Machine.execGSmov t core w s
  | .gMovsr t core w => Sys2Proof.Machine.execGMovsr t core w s
  | .gMovrs t core w => Sys2Proof.Machine.execGMovrs t core w s
  | .gLd t core w => Sys2Proof.Machine.execGLd t core w s
  | .gLdh t core w => Sys2Proof.Machine.execGLdh t core w s
  | .gSt t core w => Sys2Proof.Machine.execGSt t core w s
  | .gSth t core w => Sys2Proof.Machine.execGSth t core w s
  | .gSta t core w => Sys2Proof.Machine.execGSta t core w s
  | .gVsta t core w => Sys2Proof.Machine.execGVsta t core w s
  | .gRda t core w => Sys2Proof.Machine.execGRda t core w s
  | .gVmacD t core w => Sys2Proof.Machine.execGVmacD t core w s
  | .gVmacP t core w => Sys2Proof.Machine.execGVmacP t core w s
  | .gVmagP t core w => Sys2Proof.Machine.execGVmagP t core w s
  | .gCmac t core w => Sys2Proof.Machine.execGCmac t core w s
  | .gBr t core w => Sys2Proof.Machine.execGBr t core w s
  | .gCall t core w => Sys2Proof.Machine.execGCall t core w s
  | .gJr t core w => Sys2Proof.Machine.execGJr t core w s
  | .gRepeat t core w => Sys2Proof.Machine.execGRepeat t core w s
  | .gRepr t core w => Sys2Proof.Machine.execGRepr t core w s
  | .gReti t core w => Sys2Proof.Machine.execGReti t core w s
  | .gWait t core w => Sys2Proof.Machine.execGWait t core w s
  | .gHalt t core w => Sys2Proof.Machine.execGHalt t core w s
  | .gBar t core w => Sys2Proof.Machine.execGBar t core w s
  | .gFrel t core w => Sys2Proof.Machine.execGFrel t core w s
  | .gSync t core w => Sys2Proof.Machine.execGSync t core w s
  | .gNotify t core w => Sys2Proof.Machine.execGNotify t core w s
  | .gPost t core w => Sys2Proof.Machine.execGPost t core w s
  | .sqTailWrite t n v => Sys2Proof.Machine.execSqTailWrite t n v s
  | .cqHeadWrite t n v => Sys2Proof.Machine.execCqHeadWrite t n v s
  | .evtHeadWrite t v => Sys2Proof.Machine.execEvtHeadWrite t v s
  | .strdbWrite t n v => Sys2Proof.Machine.execStrdbWrite t n v s
  | .qctlOpen t n => Sys2Proof.Machine.execQctlOpen t n s
  | .qctlReclaim t n => Sys2Proof.Machine.execQctlReclaim t n s
  | .qctlClose t n => Sys2Proof.Machine.execQctlClose t n s
  | .leaseWrite t n v => Sys2Proof.Machine.execLeaseWrite t n v s
  | .evtCtlWrite t v => Sys2Proof.Machine.execEvtCtlWrite t v s
  | .time0Read t => Sys2Proof.Machine.execTime0Read t s
  | .serial0Read t => Sys2Proof.Machine.execSerial0Read t s
  | .latchedWordRead t k => Sys2Proof.Machine.execLatchedWordRead t k s
  | .auxDataRead t => Sys2Proof.Machine.execAuxDataRead t s
  | .ctlCodeWrite t n v => Sys2Proof.Machine.execCtlCodeWrite t n v s
  | .registerWrite t off v kind => Sys2Proof.Machine.execRegisterWrite t off v kind s
  | .commandFetch c opcode res => Sys2Proof.Machine.execCommandFetch c opcode res s
  | .commandTimeout t n idx => Sys2Proof.Machine.execCommandTimeout t n idx s
  | .completionSignalHoldEnd t n => Sys2Proof.Machine.execCompletionSignalHoldEnd t n s
  | .eventDelayExpiry t => Sys2Proof.Machine.execEventDelayExpiry t s
  | .sysLease t n => Sys2Proof.Machine.execSysLease t n s
  | .leaseExpiry t n => Sys2Proof.Machine.execLeaseExpiry t n s
  | .releaseEnd t n => Sys2Proof.Machine.execReleaseEnd t n s
  | .hostInterfaceReset t cause => Sys2Proof.Machine.execHostInterfaceReset t cause s
  | .heartbeatAdvance t => Sys2Proof.Machine.execHeartbeatAdvance t s
  | .grainTag t id codes => Sys2Proof.Machine.execGrainTag t id codes s
  | .overloadEnd t id => Sys2Proof.Machine.execOverloadEnd t id s
  | .epochRollover t id => Sys2Proof.Machine.execEpochRollover t id s
  | .grainDelivery t k id n tid ok fill => Sys2Proof.Machine.execGrainDelivery t k id n tid ok fill s
  | .acqArmAtCt t => Sys2Proof.Machine.execAcqArmAtCt t s
  | .spectrumCompute t c margin => Sys2Proof.Machine.execSpectrumCompute t c margin s
  | .timeTestVerdict t a => Sys2Proof.Machine.execTimeTestVerdict t a s
  | .evtOutPulse t => Sys2Proof.Machine.execEvtOutPulse t s
  | .evtOutPulseEnd t => Sys2Proof.Machine.execEvtOutPulseEnd t s
  | .govRaiseStep t ms => Sys2Proof.Machine.execGovRaiseStep t ms s
  | .govLowerStep t ms => Sys2Proof.Machine.execGovLowerStep t ms s
  | .govShed t ms => Sys2Proof.Machine.execGovShed t ms s
  | .govRestore t ms => Sys2Proof.Machine.execGovRestore t ms s
  | .decaySweep t => Sys2Proof.Machine.execDecaySweep t s
  | .densReadCopyEnd t idx => Sys2Proof.Machine.execDensReadCopyEnd t idx s
  | .monitorRound t => Sys2Proof.Machine.execMonitorRound t s
  | .monEvlost t => Sys2Proof.Machine.execMonEvlost t s
  | .monSnapshotWriteEnd t => Sys2Proof.Machine.execMonSnapshotWriteEnd t s
  | .protectTrip t idx => Sys2Proof.Machine.execProtectTrip t idx s
  | .feStreamAtCt t => Sys2Proof.Machine.execFeStreamAtCt t s
  | .pllLockLoss t k freq => Sys2Proof.Machine.execPllLockLoss t k freq s
  | .pllSyncEdge t k found => Sys2Proof.Machine.execPllSyncEdge t k found s
  | .relockAttemptFail t k found => Sys2Proof.Machine.execRelockAttemptFail t k found s
  | .refInLoss t freq ppm => Sys2Proof.Machine.execRefInLoss t freq ppm s
  | .refLoopLock t => Sys2Proof.Machine.execRefLoopLock t s
  | .nodeLoss t => Sys2Proof.Machine.execNodeLoss t s
  | .nodeRecovery t => Sys2Proof.Machine.execNodeRecovery t s
  | .inputEdge t n fall c => Sys2Proof.Machine.execInputEdge t n fall c s
  | .ppsLoss t => Sys2Proof.Machine.execPpsLoss t s
  | .pendingEdgeClose t u => Sys2Proof.Machine.execPendingEdgeClose t u s
  | .tiuLost t n => Sys2Proof.Machine.execTiuLost t n s
  | .queueDrain t n k => Sys2Proof.Machine.execQueueDrain t n k s
  | .tiuCalTestEnd t n counts => Sys2Proof.Machine.execTiuCalTestEnd t n counts s
  | .calStepEnd t tgt m => Sys2Proof.Machine.execCalStepEnd t tgt m s
  | .blindRun t tgt => Sys2Proof.Machine.execBlindRun t tgt s
  | .calDrift t tgt tj => Sys2Proof.Machine.execCalDrift t tgt tj s
  | .handOver t core => Sys2Proof.Machine.execHandOver t core s
  | .handlerReturn t core => Sys2Proof.Machine.execHandlerReturn t core s
  | .waitEnd t core => Sys2Proof.Machine.execWaitEnd t core s
  | .commonsLoadReturn t core => Sys2Proof.Machine.execCommonsLoadReturn t core s
  | .syncComplete t core => Sys2Proof.Machine.execSyncComplete t core s
  | .timerMatch t core => Sys2Proof.Machine.execTimerMatch t core s
  | .feedCopyBlock t feed => Sys2Proof.Machine.execFeedCopyBlock t feed s
  | .feedWriteOut t feed => Sys2Proof.Machine.execFeedWriteOut t feed s
  | .refresh t => Sys2Proof.Machine.execRefresh t s
  | .patrolScrub t a => Sys2Proof.Machine.execPatrolScrub t a s
  | .correctableError t a master inst => Sys2Proof.Machine.execCorrectableError t a master inst s
  | .uncorrectableError t a cmdErr master inst => Sys2Proof.Machine.execUncorrectableError t a cmdErr master inst s
  | .rankSwitchOver t => Sys2Proof.Machine.execRankSwitchOver t s
  | .migrationRowCopy t bad => Sys2Proof.Machine.execMigrationRowCopy t bad s
  | .memRingLost t => Sys2Proof.Machine.execMemRingLost t s
  | .zeroingDone t n => Sys2Proof.Machine.execZeroingDone t n s
  | .onDieError t kind n addr core double => Sys2Proof.Machine.execOnDieError t kind n addr core double s
  | .dmaHandover t n => Sys2Proof.Machine.execDmaHandover t n s
  | .dmaBurst t n data ok => Sys2Proof.Machine.execDmaBurst t n data ok s
  | .descriptorEnd t n => Sys2Proof.Machine.execDescriptorEnd t n s
  | .timerLinePulse t l => Sys2Proof.Machine.execTimerLinePulse t l s
  | .streamRecordCopy t n held => Sys2Proof.Machine.execStreamRecordCopy t n held s
  | .checkpoint t => Sys2Proof.Machine.execCheckpoint t s
  | .stripeComplete t q held => Sys2Proof.Machine.execStripeComplete t q held s
  | .mountMeasurementEnd t rates => Sys2Proof.Machine.execMountMeasurementEnd t rates s
  | .driveFail t n cause status => Sys2Proof.Machine.execDriveFail t n cause status s
  | .dispLineStart t p long under late => Sys2Proof.Machine.execDispLineStart t p long under late s
  | .frameDone t p => Sys2Proof.Machine.execFrameDone t p s
  | .hpdLoss t p => Sys2Proof.Machine.execHpdLoss t p s
  | .hpdRestore t p ok => Sys2Proof.Machine.execHpdRestore t p ok s
  | .hpdIrq t p lost ok psr => Sys2Proof.Machine.execHpdIrq t p lost ok psr s
  | .panelHpdWait t p high lanes rate psr => Sys2Proof.Machine.execPanelHpdWait t p high lanes rate psr s
  | .bldelayExpiry t p => Sys2Proof.Machine.execBldelayExpiry t p s
  | .vddenOffDelay t p => Sys2Proof.Machine.execVddenOffDelay t p s
  | .auxPassStart t => Sys2Proof.Machine.execAuxPassStart t s
  | .auxConversion t v vref => Sys2Proof.Machine.execAuxConversion t v vref s
  | .auxLimitPeriodEnd t => Sys2Proof.Machine.execAuxLimitPeriodEnd t s
  | .auxOvr t => Sys2Proof.Machine.execAuxOvr t s
  | .auxRef t v => Sys2Proof.Machine.execAuxRef t v s
  | .ctlStep t n => Sys2Proof.Machine.execCtlStep t n s
  | .ctlRangePhase t n => Sys2Proof.Machine.execCtlRangePhase t n s
  | .ctlTimedWrite t => Sys2Proof.Machine.execCtlTimedWrite t s
  | .ctlFault t n ov => Sys2Proof.Machine.execCtlFault t n ov s
  | .groveStartAtCt t => Sys2Proof.Machine.execGroveStartAtCt t s
  | .perfControlAtCt t => Sys2Proof.Machine.execPerfControlAtCt t s
  | .perfSat t k v => Sys2Proof.Machine.execPerfSat t k v s
  | .forcedRaise t items => Sys2Proof.Machine.execForcedRaise t items s
  | .suppressionWindowClose t => Sys2Proof.Machine.execSuppressionWindowClose t s
  | .powerOn t waited tj => Sys2Proof.Machine.execPowerOn t waited tj s
  | .deviceReset t held => Sys2Proof.Machine.execDeviceReset t held s
  | .powerDown t => Sys2Proof.Machine.execPowerDown t s
  | .thermalStage t rs => Sys2Proof.Machine.execThermalStage t rs s
  | .thermalStageExit t tj => Sys2Proof.Machine.execThermalStageExit t tj s
  | .thermalTrip t rs => Sys2Proof.Machine.execThermalTrip t rs s
  | .faultDetection t id mode items => Sys2Proof.Machine.execFaultDetection t id mode items s
  | .railFault t k core on => Sys2Proof.Machine.execRailFault t k core on s
  | .tiuTableUncal t n tj => Sys2Proof.Machine.execTiuTableUncal t n tj s
  | .ctlFaultClear t n ov => Sys2Proof.Machine.execCtlFaultClear t n ov s
  | .vddenLowTimeExpiry t p => Sys2Proof.Machine.execVddenLowTimeExpiry t p s
  | .dispLinkTrainingEnd t p ok => Sys2Proof.Machine.execDispLinkTrainingEnd t p ok s
  | .dispAuxReply t p r data => Sys2Proof.Machine.execDispAuxReply t p r data s
  | .driveCommandCompletion t n status kind fin data => Sys2Proof.Machine.execDriveCommandCompletion t n status kind fin data s
  | .storageLinkUp t n rate width flit ok stripes lba suitable serial vwc => Sys2Proof.Machine.execStorageLinkUp t n rate width flit ok stripes lba suitable serial vwc s
  | .hpPerstRelease t => Sys2Proof.Machine.execHpPerstRelease t s
  | .hpLinkUp t rate width flit => Sys2Proof.Machine.execHpLinkUp t rate width flit s
  | .configWrite t bme d3 msix mask => Sys2Proof.Machine.execConfigWrite t bme d3 msix mask s
  | .msixTableWrite t v addr data masked => Sys2Proof.Machine.execMsixTableWrite t v addr data masked s
  | .stagedSignalRaise t core => Sys2Proof.Machine.execStagedSignalRaise t core s
  | .panicClear t port inst held => Sys2Proof.Machine.execPanicClear t port inst held s
  | .panicLong t port inst => Sys2Proof.Machine.execPanicLong t port inst s
  | .rankSwitchOverEnd t => Sys2Proof.Machine.execRankSwitchOverEnd t s
  | .densClearEnd t idx => Sys2Proof.Machine.execDensClearEnd t idx s
  | .commandTransferEnd t idx => Sys2Proof.Machine.execCommandTransferEnd t idx s
  | .firmwareStartTimeout t => Sys2Proof.Machine.execFirmwareStartTimeout t s
  | .startupComplete t fails slotOk otherOk found edges => Sys2Proof.Machine.execStartupComplete t fails slotOk otherOk found edges s
  | .rstNRelease t => Sys2Proof.Machine.execRstNRelease t s
  | .testPortAccess t kind id a b v => Sys2Proof.Machine.execTestPortAccess t kind id a b v s
  | .ceilingRampEnd t => Sys2Proof.Machine.execCeilingRampEnd t s
  | .clkSetTimeTimeout t => Sys2Proof.Machine.execClkSetTimeTimeout t s
  | .nodeActivityReturn t => Sys2Proof.Machine.execNodeActivityReturn t s
  | .refInReturn t => Sys2Proof.Machine.execRefInReturn t s

end Sys2Proof.Machine
end

