-- ==== Sys2Proof/Safety.lean ====
section
/-! DEFINITION. What counts as a safe state and a safe run, and the words the claims are written in: which parts of the engine a row
leaves alone, when a ZCI command is taken up and passes the checks common to all commands, and what its completion says. -/

namespace Sys2Proof.Machine

/-- Every byte memory of the engine is in its canonical form: device memory, the commons, host memory, the scratchpads. -/
def MemoriesWf (s : State) : Prop :=
  Memory.wf s.mem.mem = true ∧ Memory.wf s.grove.commons = true ∧ Memory.wf s.host.hostMem = true ∧
  ∀ n, n < 64 → Memory.wf (s.core n).spad = true

/-- No event of a tick that is over waits: it has entered the event ring, waits for Bus Master Enable or is counted lost (R250, R449, R462). -/
def EventsSent (s : State) : Prop := ∀ e ∈ s.host.evtNow, s.evTick ≤ e.2.time

/-- The commands after which the Canopy count may begin again at zero: those of power and of reset (R245, R537, R538, R542). -/
def restarts : Instr → Bool
  | .powerOn .. | .deviceReset .. | .powerDown .. | .thermalTrip .. | .rstNRelease .. | .firmwareStartTimeout .. => true
  | _ => false

/-- The commands that act on an engine without power or held in reset: those of its supply, of RST_N and of HP_PERST (R537, R542, R535). -/
def actsWhileDown : Instr → Bool
  | .powerOn .. | .powerDown .. | .thermalTrip .. | .rstNRelease .. | .hostInterfaceReset .. | .hpPerstRelease .. => true
  | _ => false

/-! ## Frames -/

/-- The parts of the engine that a frame can name: the components of State but the queue, the Canopy count and the count of free values. Of the
host interface, `ses` is what `SameSessions` names, `cmds` what `SameCommands` names, and `host` the rest. -/
inductive Part where
  | host | ses | cmds | fe | clk | cal | spec | acq | disp | mon | tiu | grove | mem | move | aux | ctl | flt | sec | pwr | perf
  deriving DecidableEq, Repr

/-- Nothing differs but what the rings hold: the event ring with its losses, the completion rings with the completions that wait to be written,
and the MSI-X signals. -/
def RingsOnly (h g : HostIf) : Prop :=
  g = { h with evtTail := g.evtTail, evtLost := g.evtLost, evtPhase := g.evtPhase, evtLossPend := g.evtLossPend, evtUnsig := g.evtUnsig,
               evRing := g.evRing, evtWait := g.evtWait, evtNow := g.evtNow, msix := g.msix, cpls := g.cpls, cplWait := g.cplWait }

/-- Nothing differs but what the rings hold, and no completion has come to wait: those that waited may have been written (R469). -/
def HostEvents (h g : HostIf) : Prop := RingsOnly h g ∧ g.cplWait.Sublist h.cplWait

/-- The session pages and Bus Master Enable are as they were. -/
def SameSessions (h g : HostIf) : Prop := g.sessions = h.sessions ∧ g.busMaster = h.busMaster

/-- No command has started or ended: the commands in progress are as they were, and no completion has come to wait. -/
def SameCommands (h g : HostIf) : Prop := g.cplWait.Sublist h.cplWait ∧ g.inProg = h.inProg

/-- The rest of the host interface is as it was, but for the rings and their signals. -/
def SameHostRest (h g : HostIf) : Prop :=
  RingsOnly { h with sessions := g.sessions, inProg := g.inProg, busMaster := g.busMaster } g

/-- The queue and every part not listed (the host interface apart) have the values they had. -/
def SameParts (l : List Part) (s t : State) : Prop :=
  t.pending = s.pending ∧
  (Part.fe ∈ l ∨ t.fe = s.fe) ∧ (Part.clk ∈ l ∨ t.clk = s.clk) ∧ (Part.cal ∈ l ∨ t.cal = s.cal) ∧ (Part.spec ∈ l ∨ t.spec = s.spec) ∧
  (Part.acq ∈ l ∨ t.acq = s.acq) ∧ (Part.disp ∈ l ∨ t.disp = s.disp) ∧ (Part.mon ∈ l ∨ t.mon = s.mon) ∧ (Part.tiu ∈ l ∨ t.tiu = s.tiu) ∧
  (Part.grove ∈ l ∨ t.grove = s.grove) ∧ (Part.mem ∈ l ∨ t.mem = s.mem) ∧ (Part.move ∈ l ∨ t.move = s.move) ∧ (Part.aux ∈ l ∨ t.aux = s.aux) ∧
  (Part.ctl ∈ l ∨ t.ctl = s.ctl) ∧ (Part.flt ∈ l ∨ t.flt = s.flt) ∧ (Part.sec ∈ l ∨ t.sec = s.sec) ∧ (Part.pwr ∈ l ∨ t.pwr = s.pwr)

/-- The performance counters have only counted (R511): each has its configuration, and one that does not run its value. -/
def PerfCounts (a b : Tab Perf) : Prop :=
  ∀ k, tget {} b k = { tget {} a k with value := (tget {} b k).value, sat := (tget {} b k).sat } ∧
    ((tget {} a k).run = false → tget {} b k = tget {} a k)

/-- The frame of a row that is no ZCI command: the parts not listed are as they were, but that running performance counters count; the event
ring and its signals may differ. -/
def Kept (l : List Part) (s t : State) : Prop :=
  SameParts l s t ∧ (Part.ses ∈ l ∨ SameSessions s.host t.host) ∧ (Part.cmds ∈ l ∨ SameCommands s.host t.host) ∧
  (Part.host ∈ l ∨ SameHostRest s.host t.host) ∧ (Part.perf ∈ l ∨ PerfCounts s.perf t.perf)

/-- No command but `c` has started or ended: the commands in progress and the completions that wait to be written are those that were (some of
which may have been written), followed by `c`'s own alone. -/
def OwnCommand (c : Cmd) (h g : HostIf) : Prop :=
  ∃ p w v, g.inProg = h.inProg ++ p ∧ g.cplWait = w ++ v ∧ w.Sublist h.cplWait ∧ (∀ e ∈ p, e.session = c.session.val ∧ e.tag = c.tag.toNat) ∧
    ∀ e ∈ v, e.2.1 = c.session.val ∧ e.2.2.tag = c.tag.toNat

/-- The frame of a ZCI command: the same, but that the command leaves its session's ring and itself comes to be in progress or to be completed. -/
def KeptZ (c : Cmd) (l : List Part) (s t : State) : Prop :=
  SameParts l s t ∧ (Part.ses ∈ l ∨ (t.host.busMaster = s.host.busMaster ∧ ∀ m, m ≠ c.session.val → t.ses m = s.ses m)) ∧
  (Part.cmds ∈ l ∨ OwnCommand c s.host t.host) ∧ (Part.host ∈ l ∨ SameHostRest s.host t.host) ∧ (Part.perf ∈ l ∨ PerfCounts s.perf t.perf)

/-- `u` is the state `x` that a row's own effect left, but for what every row does around its effect: the events of the ticks that are over have
entered the ring in their order (R250), the Canopy count and the count of free values never fall, and the queue is as it was. -/
def Follows (x u : State) : Prop :=
  x.now ≤ u.now ∧ x.freeNo ≤ u.freeNo ∧ u = flushEvents { x with pending := u.pending, now := u.now, freeNo := u.freeNo } u.evTick

/-! ## ZCI commands -/

/-- The tick at which a row that names tick `t` acts: the Canopy count never decreases (R245), and goes on from the stepped count at the node edge
at which CLK_SET_TIME steps it (R248). -/
def actsAt (s : State) (t : Tick) : Tick :=
  match s.clk.stepAt with
  | none => max s.now t
  | some (e, d) => if s.now < e && e ≤ t then max (e + d) t else max s.now t

/-- A ZCI command is taken up (R454, R459, R460, R464, R467): the engine runs, ready or in the fatal state, with a live control processor; the
session is OPEN; the command is the one at the front of the session's fetched commands with its TIMEOUT not passed (or nothing is fetched and the
session fetches); its FENCE is satisfied, a completion slot is free, and fewer than 64 commands are in progress. -/
def zciFront (op : Nat) (c : Cmd) (s : State) : Bool :=
  let x := s.ses c.session.val
  !s.pwr.down && x.st == 1 && !s.flt.cpDead && (s.host.engine == 1 || s.host.engine == 2) &&
  (match x.fetched with
   | [] => !x.fetcherr && s.host.busMaster
   | f :: r => f.opcode == op && f.tag == c.tag.toNat && (f.timeout == 0 || decide (actsAt s c.t ≤ f.at_ + f.timeout * periodCt)) &&
               (match r with
                | [] => true
                | g :: _ => opKnown g.opcode)) &&
  (!c.fence || inProgOf s c.session.val == 0) && cqFree (advance s c.t) c.session.val && decide (s.host.inProg.length < 64)

/-- PLEN is `units` and every reserved bit of the envelope and of the block is zero (R9, R465). -/
def wellFormed (units : Nat) (used : Nat → List (Nat × Nat)) (c : Cmd) (p : Block) : Bool :=
  c.plen.toNat == units && c.rsv == 0 && rsvOk p.toNat units (used (blk p units))

/-- A ZCI command is taken up and passes the checks that all commands share (R465, R470, R515): the life-cycle state does not forbid it, the
engine is ready or the command is one of those accepted in the fatal state, and it is well formed. -/
def zciReady (op units : Nat) (used : Nat → List (Nat × Nat)) (c : Cmd) (p : Block) (s : State) : Bool :=
  zciFront op c s && !denies s op && (s.host.engine == 1 || fatalOk op) && wellFormed units used c p

/-- The state to which a ZCI command is applied: the Canopy count stands at the command's tick, and the command has left the session's ring. -/
def seen (op : Nat) (c : Cmd) (s : State) : State := (takeUp op c (advance s c.t)).getD (advance s c.t)

/-- A field of a command's parameter block. -/
def arg (p : Block) (lo w : Nat) : Nat := fld p.toNat lo w

/-- A signed field of a command's parameter block. -/
def sarg (p : Block) (lo w : Nat) : Int := sfld p.toNat lo w

/-- One bit of a command's parameter block. -/
def argBit (p : Block) (i : Nat) : Bool := bit p.toNat i

/-- The Canopy count as it reads at the tick of a row that names tick `t` (R246). -/
def readAt (s : State) (t : Tick) : Tick := countRead (advance s t)

/-- The completion of command `c` with a status and a result of `rlen` 8-byte units, applied at the command's tick. -/
def cplOf (op : Nat) (c : Cmd) (status rlen result : Nat) (s : State) : Completion :=
  { tag := c.tag.toNat, status := status, rlen := rlen, opcode := op, applied := readAt s c.t, result := result }

/-- The completion `k` of a command whose effect has left `x` is the latest of those that wait to be written: it enters the completion ring of its
session once its tick is over and its event records have gone before it (R460, R469, `cplSend`). -/
def Completed (c : Cmd) (k : Completion) (x t : State) : Prop :=
  t.host.inProg = x.host.inProg ∧ t.host.cplWait = x.host.cplWait ++ [(x.evTick, c.session.val, k)]

/-- The command has left `x` and is completed with `k`; it counts in performance source 0x14 (Table 15-7). -/
def Answered (c : Cmd) (k : Completion) (x t : State) : Prop :=
  Completed c k x t ∧ Follows (perfAdd (complete x c.session.val k) 0x14 c.session.val 1) t

/-- The command has left `x` and is in progress, after those that are, waiting on a unit with the data it keeps and the regions it names
(R464); nothing is completed. -/
def Waits (op : Nat) (c : Cmd) (unit : Nat) (data regs : List Nat) (x s t : State) : Prop :=
  let e : InProg := { session := c.session.val, opcode := op, tag := c.tag.toNat, applied := readAt s c.t, unit_ := unit, data := data, regs := regs }
  t.host.inProg = x.host.inProg ++ [e] ∧ t.host.cplWait = x.host.cplWait ∧
  Follows (perfAdd { x with host := { x.host with inProg := x.host.inProg ++ [e] } } 0x14 c.session.val 1) t

/-- The command has left `x`, and no completion of it is ever written. -/
def Unanswered (c : Cmd) (x t : State) : Prop :=
  t.host.inProg = x.host.inProg ∧ t.host.cplWait = x.host.cplWait ∧ Follows (perfAdd x 0x14 c.session.val 1) t

/-- The STATUS of the first check that fails, in the order of the list (R465); none where every check passes. -/
def firstFailing : List (Bool × Nat) → Option Nat
  | [] => none
  | (b, st) :: l => if b then some st else firstFailing l

/-- The command is refused with STATUS `st`: its completion says so, with no result, and nothing else of the engine differs but the command's
own session (R465). -/
def Refused (op : Nat) (c : Cmd) (st : Nat) (s t : State) : Prop :=
  Completed c (cplOf op c st 0 0 s) (seen op c s) t ∧ Follows (complete (seen op c s) c.session.val (cplOf op c st 0 0 s)) t ∧ KeptZ c [] s t

/-- The checks that all commands share, in their order (R465): a command that is taken up is refused with DENIED where the life-cycle state
forbids it, else with FAULTED in the fatal state, else with INVALID_PARAM where it is not well formed. `i` is the command of an envelope. -/
def Shared (op units : Nat) (used : Nat → List (Nat × Nat)) (i : Cmd → Block → Instr) : Prop :=
  ∀ (c : Cmd) (p : Block) (s : State), zciFront op c s = true →
    (denies s op = true → ∃ t, exec (i c p) s = .next t ∧ Refused op c stDenied s t) ∧
    (denies s op = false → s.host.engine = 2 → fatalOk op = false → ∃ t, exec (i c p) s = .next t ∧ Refused op c stFaulted s t) ∧
    (denies s op = false → s.host.engine = 1 ∨ fatalOk op = true → wellFormed units used c p = false →
      ∃ t, exec (i c p) s = .next t ∧ Refused op c stInvalid s t)

/-- A row that has no effect at tick `t`, where it comes: exec answers a next state that differs in nothing but time. -/
def Idles (i : Instr) (t : Nat) (s : State) : Prop := ∃ u, exec i s = .next u ∧ Follows (advance s t) u ∧ Kept [] s u

/-- A row that has no effect at all where it comes. -/
def Stays (i : Instr) (s : State) : Prop := exec i s = .next s

/-- `u` is what a reset of the engine makes of `s` (R538): every unit, register, counter and record has its reset value and the Canopy count is
zero; what the protected store holds stays, and CHALLENGE is renewed (R524). The host interface is `h` and the power signals are `p`; the queue
and the count of free values, the model's own, stay. -/
def ResetAs (s : State) (h : HostIf) (p : Pwr) (u : State) : Prop :=
  u.now = 0 ∧ u.fe = State.reset.fe ∧ u.clk = State.reset.clk ∧ u.spec = State.reset.spec ∧ u.acq = State.reset.acq ∧ u.disp = State.reset.disp ∧
  u.mon = State.reset.mon ∧ u.tiu = State.reset.tiu ∧ u.grove = State.reset.grove ∧ u.move = State.reset.move ∧ u.aux = State.reset.aux ∧
  u.ctl = State.reset.ctl ∧ u.flt = State.reset.flt ∧ u.perf = State.reset.perf ∧
  u.cal = s.cal.kept ∧ u.mem = s.mem.kept ∧ u.sec = { s.sec with chalNo := s.sec.chalNo + 1 } ∧ u.host = h ∧ u.pwr = p ∧
  u.pending = s.pending ∧ u.freeNo = s.freeNo

/-! ## Grove instructions -/


/-- Core n as its next instruction sees it: the results that have come are in (R330). -/
def grvCore (n : Nat) (s : State) : GCore := (s.core n).settle (s.core n).issued

/-- Core n issues its next instruction at a row of tick t (R317, R340, R343, R349): it runs without a stall, the tick of its start has come, and no
interrupt is handed over first. -/
def grvIssues (t n : Nat) (s : State) : Bool :=
  (s.core n).st == 1 && (s.core n).stall == 0 && decide ((s.core n).startAt ≤ actsAt s t) && !(grvCore n s).handDue

/-- The program counter of core n is a word of its scratchpad (R340). -/
def grvPcOk (n : Nat) (s : State) : Bool := (s.core n).pc % 4 == 0 && decide ((s.core n).pc < 0x40000)

/-- The word at the program counter of core n is instruction `op` with the fields `w`, or what the fetch gives is open (R320, R383). -/
def grvThere (op t n : Nat) (w : BitVec 26) (s : State) : Bool :=
  !fetchFixed (advance s t) n (grvCore n s) || (grvCore n s).fetch == op * 2^26 + w.toNat

/-- The fields outside `used` are zero, and instruction `op` may stand where core n has it (R328, R331, R332). -/
def grvLegal (op : Nat) (used : List (Nat × Nat)) (n : Nat) (w : BitVec 26) (s : State) : Bool :=
  w.toNat &&& fieldMask used == w.toNat && ((s.core n).rep == 0 || repOk op) && ((s.core n).slots == 0 || !slotBad op)

/-- Core n issues instruction `op` with the fields `w` at a row of tick t. -/
def grvReady (op : Nat) (used : List (Nat × Nat)) (t n : Nat) (w : BitVec 26) (s : State) : Bool :=
  !s.pwr.down && grvIssues t n s && grvPcOk n s && grvThere op t n w s && grvLegal op used n w s

/-- The row stops core n with a cause and an address (R340). -/
def StopsCore (i : Instr) (t n cause addr : Nat) (s : State) : Prop :=
  ∃ u, exec i s = .next u ∧ Follows (coreStop (advance s t) n cause addr) u ∧
    Kept [.host, .cmds, .fe, .cal, .spec, .acq, .disp, .mon, .tiu, .grove, .mem, .move, .ctl, .flt, .sec, .pwr] s u

/-- Where an instruction of core n is not issued: a core that does not issue, or that has another instruction there, leaves the row without effect; a
program counter outside the scratchpad stops it with cause 3; a word whose OP is not listed, a reserved field or a forbidden place with cause 1
(R328, R331, R332, R340). -/
def GroveStops (op : Nat) (used : List (Nat × Nat)) (i : Instr) (t n : Nat) (w : BitVec 26) (s : State) : Prop :=
  (grvIssues t n s = false → Idles i t s) ∧
  (grvIssues t n s = true → grvPcOk n s = false → StopsCore i t n 3 (s.core n).pc s) ∧
  (grvIssues t n s = true → grvPcOk n s = true → grvThere op t n w s = false →
    if opListed ((grvCore n s).fetch / 2^26) then Idles i t s else StopsCore i t n 1 0 s) ∧
  (grvIssues t n s = true → grvPcOk n s = true → grvThere op t n w s = true → grvLegal op used n w s = false → StopsCore i t n 1 0 s)

end Sys2Proof.Machine
end

