-- ==== Sys2Proof/Certificates/Slice0/Obligations.lean ====
section
/-! DEFINITION. The statements for the provers: what a step is, what reset leaves, what every step keeps, and, family by family, what each
command of the opcode table does. A clause of a family reads: for every operand and state, when the command is turned away and with which
status, when it has no effect, and else the next state, with what it leaves as it was. -/

open Sys2Proof Sys2Proof.Machine

/-- A step takes the command at the front of the queue and runs it on the rest; the queue is the model's own (log 1). -/
def Obligations.StepRunsFrontCommand : Prop :=
  ∀ (c : Instr) (rest : List Instr) (s : State), s.pending = c :: rest → step s = exec c { s with pending := rest }

/-- With an empty queue the engine idles: the model's choice (log 1). -/
def Obligations.EmptyQueueIdles : Prop :=
  ∀ s : State, s.pending = [] → step s = .next s

/-- The front end after device reset (R57): single mode, RATE 100, termination, ATTEN 10, protection enabled, no stream
running, and no grain of a stream that no command has started. -/
def Obligations.FrontEndAtReset : Prop :=
  (let fresh := fun (s : State) => (∀ p, p < 2 → s.pairMode p = false ∧ s.rate p = 100) ∧ (∀ k, k < 6 → s.source k = 6) ∧
      (∀ i, i < 4 → (s.inp i).atten = 10 ∧ (s.inp i).protect = true ∧ (s.inp i).tripped = false) ∧ (∀ id, (s.str id).running = false)
   fresh State.reset ∧
   (∀ (t : Nat) (s : State), s.pwr.down = false → ∃ u, exec (.deviceReset t true) s = .next u ∧ fresh u)) ∧
  (∀ (t id : Nat) (codes : List Nat) (s : State), s.pwr.down = false → (s.str id).running = false → (s.str id).old = [] →
    Idles (.grainTag t id codes) t s)

/-- What holds at reset of the queue, of waiting work and of the memories. -/
def Obligations.ResetMeetsInvariants : Prop :=
  MemoriesWf State.reset ∧ State.reset.pending = [] ∧ State.reset.host.inProg = [] ∧ State.reset.host.cplWait = [] ∧ State.reset.host.evtNow = [] ∧ EventsSent State.reset

/-- An invariant of every step: no posted event is left behind for a later tick (R250). -/
def Obligations.StepsSendEveryEvent : Prop :=
  ∀ s t : State, EventsSent s → step s = .next t → EventsSent t

/-- Every command completes: no step stops, the queue loses its front and the Canopy count does not fall but in a reset
(R245). -/
def Obligations.StepsNeverStop : Prop :=
  ∀ s : State, ∃ t, step s = .next t ∧ t.pending = s.pending.tail ∧ s.freeNo ≤ t.freeNo ∧
    (∀ c rest, s.pending = c :: rest → restarts c = false → s.now ≤ t.now)

/-- While the engine is down, nothing but the rows of its supply, its reset and the host port's reset acts. -/
def Obligations.DownEngineStays : Prop :=
  ∀ (i : Instr) (s : State), s.pwr.down = true → actsWhileDown i = false → exec i s = .next s

/-- The latency of a result in a general register (R330). -/
def Obligations.GroveResultLatency : Prop :=
  ∀ (x : GCore) (L b i v k : Nat), x.pend = [] →
    let y := (x.wr L (.g b i) v).settle (x.issued + k)
    (k < L → y.rdG b i = x.rdG b i) ∧ (L ≤ k → y.rdG b i = BitVec.ofNat 32 v) ∧ (∀ j, j ≠ i → y.rdG b j = x.rdG b j)

/-- The order of the events of one tick (R250, Table 7-3). -/
def Obligations.EventsEnterInOrder : Prop :=
  ∀ l : List (Nat × EventRecord), (evtSort l).Perm l ∧ ((∀ e ∈ l, e.1 < 16 ∧ e.2.code < 2^16) → (evtSort l).Pairwise (fun a b =>
    let ga := a.2.code / 256
    let gb := b.2.code / 256
    let sa := evtSource a.2.code a.2.payload
    let sb := evtSource b.2.code b.2.payload
    a.2.time < b.2.time ∨ (a.2.time = b.2.time ∧ (a.1 < b.1 ∨ (a.1 = b.1 ∧ (ga < gb ∨ (ga = gb ∧ (sa < sb ∨ (sa = sb ∧ a.2.code ≤ b.2.code)))))))))

/-- What becomes of one event record (R449, R462). -/
def Obligations.EventRingTakesOrLoses : Prop :=
  ∀ (s : State) (e : EventRecord),
    (bit s.host.evtMask.toNat (e.code / 256) = false → evtSend s e = s) ∧
    (bit s.host.evtMask.toNat (e.code / 256) = true →
      (s.host.evtEnable = false ∨ (s.host.busMaster = true ∧ evtSize s ≤ evtUnread s + 1) →
        (evtSend s e).host.evRing = s.host.evRing ∧ (evtSend s e).host.evtTail = s.host.evtTail ∧
        (evtSend s e).host.evtLost = min (s.host.evtLost + 1) (2^32 - 1) ∧ (evtSend s e).host.evtLossPend = true) ∧
      (s.host.evtEnable = true → s.host.busMaster = false → (evtSend s e).host.evtWait = s.host.evtWait ++ [e] ∧
        (evtSend s e).host.evRing = s.host.evRing ∧ (evtSend s e).host.evtLost = s.host.evtLost) ∧
      (s.host.evtEnable = true → s.host.busMaster = true → evtUnread s + 1 < evtSize s →
        tget {} (evtSend s e).host.evRing s.host.evtTail = { e with loss := s.host.evtLossPend, phase := s.host.evtPhase } ∧
        (evtSend s e).host.evtTail = (s.host.evtTail + 1) % evtSize s ∧ (evtSend s e).host.evtLossPend = false ∧
        (evtSend s e).host.evtLost = s.host.evtLost ∧ (evtSend s e).host.evtWait = s.host.evtWait))

/-- One quantity of a counter's source (R511). -/
def Obligations.CountersSaturate : Prop :=
  ∀ (c : Perf) (v : Nat),
    let n := if c.maxMode then max c.value v else c.value + v
    (c.count v).value = min n (2^48 - 1) ∧ (c.count v).sat = (c.sat || decide (2^48 ≤ n)) ∧
    (c.count v).source = c.source ∧ (c.count v).inst_ = c.inst_ ∧ (c.count v).maxMode = c.maxMode ∧ (c.count v).run = c.run

/-- Device memory, commons, scratchpads and host memory are the same kind of byte memory. -/
def Obligations.MemoryReadsBack : Prop :=
  (∀ (m : Mem) (a : Nat) (l : List Byte), rdBytes (wrBytes m a l) a l.length = l) ∧
  (∀ (m : Mem) (a n k : Nat), Memory.wf m = true →
    rdByte (zeroBytes m a n) k = if a ≤ k ∧ k < a + n then 0 else rdByte m k)

/-- Each doorbell and register write that the rules allow has its effect, and the latched reads. -/
def Obligations.HostWritesComplete : Prop :=
  -- SQ_TAIL_WRITE (R453)
  (∀ (t n v : Nat) (s₀ : State), s₀.pwr.down = false →
    let s := advance s₀ t
    let x := s.ses n
    let z := sqSize x
    x.st = 1 →
    v < z →
    (x.sqTail + z - x.sqHead) % z ≤ (v + z - x.sqHead) % z →
    ∃ t', exec (.sqTailWrite t n v) s₀ = .next t' ∧ Follows (leaseStart (s.setSes n { x with sqTail := v, fetcherr := false }) n) t') ∧
  -- CQ_HEAD_WRITE (R453)
  (∀ (t n v : Nat) (s₀ : State), s₀.pwr.down = false →
    let s := advance s₀ t
    let x := s.ses n
    let z := cqSize x
    x.st = 1 →
    v < z →
    (v + z - x.cqHead) % z ≤ cqUnread s n →
    (s.cplR n).held = false →
    ∃ t', exec (.cqHeadWrite t n v) s₀ = .next t' ∧ Follows ((leaseStart (s.setSes n { x with cqHead := v }) n).setCplR n { s.cplR n with held := false, holdUntil := s.now }) t') ∧
  -- EVT_HEAD_WRITE (R453)
  (∀ (t v : Nat) (s₀ : State), s₀.pwr.down = false →
    let s := advance s₀ t
    let u := flushAll s
    let z := evtSize u
    u.host.evtEnable = true →
    v < z →
    (v + z - u.host.evtHead) % z ≤ (u.host.evtTail + z - u.host.evtHead) % z →
    ∃ t', exec (.evtHeadWrite t v) s₀ = .next t' ∧ Follows ({ u with host := { u.host with evtHead := v, evtUnsig := min u.host.evtUnsig (evtUnread { u with host := { u.host with evtHead := v } }) } }) t') ∧
  -- STRDB_WRITE (R412)
  (∀ (t n v : Nat) (s₀ : State), s₀.pwr.down = false →
    let s := advance s₀ t
    let x := s.dma n
    let d := (v + 2^32 - x.hrpos % 2^32) % 2^32
    x.on = true →
    x.mode = 2 →
    d ≤ x.hwpos - x.hrpos →
    ∃ t', exec (.strdbWrite t n v) s₀ = .next t' ∧ Follows (s.setDma n { x with hrpos := x.hrpos + d }) t') ∧
  -- QCTL_OPEN (R454)
  (∀ (t n : Nat) (s₀ : State), s₀.pwr.down = false →
    let s := advance s₀ t
    let x := s.ses n
    (s.host.engine = 1 ∨ s.host.engine = 2) →
    x.st = 0 →
    x.ringsOk = true →
    ∃ t', exec (.qctlOpen t n) s₀ = .next t' ∧ Follows (sesOpen s n 0 x.cookieReg) t') ∧
  -- QCTL_RECLAIM (R456)
  (∀ (t n : Nat) (s₀ : State), s₀.pwr.down = false →
    let s := advance s₀ t
    let x := s.ses n
    (s.host.engine = 1 ∨ s.host.engine = 2) →
    x.st = 2 →
    x.cookieReg = x.cookie →
    x.ringsOk = true →
    inProgOf s n < cqSize x →
    ∃ t', exec (.qctlReclaim t n) s₀ = .next t' ∧ Follows (sesOpen s n 3 x.cookie) t') ∧
  -- QCTL_CLOSE (R457)
  (∀ (t n : Nat) (s₀ : State), s₀.pwr.down = false →
    let s := advance s₀ t
    let x := s.ses n
    (s.host.engine = 1 ∨ s.host.engine = 2) →
    (x.st = 1 ∨ (x.st = 2 ∧ x.cookieReg = x.cookie)) →
    ∃ t', exec (.qctlClose t n) s₀ = .next t' ∧ Follows (startRelease (s.modSes n (fun y => { y with cfgerr := false })) n 0) t') ∧
  -- LEASE_WRITE (R455)
  (∀ (t n v : Nat) (s₀ : State), s₀.pwr.down = false →
    let s := advance s₀ t
    (s.host.engine = 1 ∨ s.host.engine = 2) →
    fld v 0 17 ≤ 86400 →
    ∃ t', exec (.leaseWrite t n v) s₀ = .next t' ∧ Follows (leaseStart (s.modSes n (fun x => { x with lease := BitVec.ofNat 32 (v &&& 0x8001FFFF) })) n) t') ∧
  -- EVT_CTL_WRITE: enable (R462)
  (∀ (t v : Nat) (s₀ : State), s₀.pwr.down = false →
    let s := advance s₀ t
    let u := flushAll s
    let k := fld u.host.evtCfg.toNat 0 5
    (s.host.engine = 1 ∨ s.host.engine = 2) →
    bit v 0 = true →
    u.host.evtEnable = false →
    (6 ≤ k ∧ k ≤ 16 ∧ u.host.evtBaseLo.toNat % 4096 = 0) →
    ∃ t', exec (.evtCtlWrite t v) s₀ = .next t' ∧ Follows ({ u with host := { u.host with evtEnable := true, evtHead := 0, evtTail := 0, evtPhase := true, evtUnsig := 0, evRing := [] } }) t') ∧
  -- EVT_CTL_WRITE: disable (R462)
  (∀ (t v : Nat) (s₀ : State), s₀.pwr.down = false →
    let s := advance s₀ t
    let u := flushAll s
    (s.host.engine = 1 ∨ s.host.engine = 2) →
    bit v 0 = false →
    ∃ t', exec (.evtCtlWrite t v) s₀ = .next t' ∧ Follows (evtDiscard { u with host := { u.host with evtEnable := false } }) t') ∧
  -- CTL_CODE_WRITE (R491)
  (∀ (t n v : Nat) (s₀ : State), s₀.pwr.down = false →
    let s := advance s₀ t
    (s.host.engine = 1 ∨ s.host.engine = 2) →
    (s.ctlO n).on = true →
    (s.ctlO n).direct = true →
    n < 8 →
    ∃ t', exec (.ctlCodeWrite t n v) s₀ = .next t' ∧ Follows (ctlDrw s n (fld v 0 12)) t') ∧
  -- REGISTER_WRITE of EVT_MASK (R451)
  (∀ (t v : Nat) (s₀ : State), s₀.pwr.down = false →
    let s := advance s₀ t
    let u := flushAll s
    (u.host.engine = 1 ∨ u.host.engine = 2) →
    ∃ t', exec (.registerWrite t 0x110 v 0) s₀ = .next t' ∧ Follows ({ u with host := { u.host with evtMask := BitVec.ofNat 32 v &&& 0x7FFF } }) t') ∧
  -- TIME0_READ (R452)
  (∀ (t : Nat) (s₀ : State), s₀.pwr.down = false →
    let s := advance s₀ t
    ∃ t', exec (.time0Read t) s₀ = .next t' ∧ Follows (readOut { s with host := { s.host with time1 := some (wordOf (readTime s) 1), time2 := some (wordOf (readTime s) 2) } } (wordOf (readTime s) 0)) t') ∧
  -- SERIAL0_READ (R452)
  (∀ (t : Nat) (s₀ : State), s₀.pwr.down = false →
    let s := advance s₀ t
    let v := Config.serial.toNat
    ∃ t', exec (.serial0Read t) s₀ = .next t' ∧ Follows (readOut { s with host := { s.host with serLatch1 := some (wordOf v 1), serLatch2 := some (wordOf v 2), serLatch3 := some (wordOf v 3) } } (wordOf v 0)) t') ∧
  -- LATCHED_WORD_READ of TIME1 (R452)
  (∀ (t : Nat) (s₀ : State), s₀.pwr.down = false →
    let s := advance s₀ t
    ∃ t', exec (.latchedWordRead t 0) s₀ = .next t' ∧ Follows (readOut { s with host := { s.host with time1 := none } } (s.host.time1.getD (wordOf (readTime s) 1))) t') ∧
  -- LATCHED_WORD_READ of TIME2 (R452)
  (∀ (t : Nat) (s₀ : State), s₀.pwr.down = false →
    let s := advance s₀ t
    ∃ t', exec (.latchedWordRead t 1) s₀ = .next t' ∧ Follows (readOut { s with host := { s.host with time2 := none } } (s.host.time2.getD (wordOf (readTime s) 2))) t') ∧
  -- LATCHED_WORD_READ of SERIAL1 to SERIAL3 (R452)
  (∀ (t : Nat) (s₀ : State), s₀.pwr.down = false →
    let s := advance s₀ t
    ∃ t', exec (.latchedWordRead t 2) s₀ = .next t' ∧ Follows (readOut { s with host := { s.host with serLatch1 := none } } (s.host.serLatch1.getD (wordOf Config.serial.toNat 1))) t') ∧
  -- LATCHED_WORD_READ of SERIAL2 (R452)
  (∀ (t : Nat) (s₀ : State), s₀.pwr.down = false →
    let s := advance s₀ t
    ∃ t', exec (.latchedWordRead t 3) s₀ = .next t' ∧ Follows (readOut { s with host := { s.host with serLatch2 := none } } (s.host.serLatch2.getD (wordOf Config.serial.toNat 2))) t') ∧
  -- LATCHED_WORD_READ of SERIAL3 (R452)
  (∀ (t : Nat) (s₀ : State), s₀.pwr.down = false →
    let s := advance s₀ t
    ∃ t', exec (.latchedWordRead t 4) s₀ = .next t' ∧ Follows (readOut { s with host := { s.host with serLatch3 := none } } (s.host.serLatch3.getD (wordOf Config.serial.toNat 3))) t') ∧
  -- AUX_DATA_READ (R485)
  (∀ (t : Nat) (s₀ : State), s₀.pwr.down = false →
    let s := advance s₀ t
    s.aux.prev = none →
    bit s.aux.data.toNat 30 = true →
    ∃ t', exec (.auxDataRead t) s₀ = .next t' ∧ Follows ({ readOut s s.aux.data with aux := { s.aux with data := s.aux.data &&& 0x3FFFFFFF } }) t')

/-- Rows of losses, transfers, edges and time where what they end or take is there (R155, R254, R272, R398, R419, R464). -/
def Obligations.LossAndTransferRowsComplete : Prop :=
  -- PLL_LOCK_LOSS without AUTO relock (R254)
  (∀ (t k : Nat) (freq : Bool) (s₀ : State), s₀.pwr.down = false →
    let s := advance s₀ t
    let id := (if freq then 0x0208 else 0x0204) + k
    let s2 := countLoss (post (pllWindow (raiseFault s id {}) k id) 0x0201 (pack [(2, k), (1, b2n freq), (13, 0), (16, if freq then 32000 else 160)]))
    (s.pll k).st = 4 →
    (s.pll k).attempt = 0 →
    (s.pll k).autoRel = false →
    ∃ t', exec (.pllLockLoss t k freq) s₀ = .next t' ∧ Follows ((pllLost s2 k).modPll k (fun y => { y with st := 6 })) t') ∧
  -- PLL_LOCK_LOSS with AUTO relock (R254)
  (∀ (t k : Nat) (freq : Bool) (s₀ : State), s₀.pwr.down = false →
    let s := advance s₀ t
    let id := (if freq then 0x0208 else 0x0204) + k
    let s2 := countLoss (post (pllWindow (raiseFault s id {}) k id) 0x0201 (pack [(2, k), (1, b2n freq), (13, 0), (16, if freq then 32000 else 160)]))
    (s.pll k).st = 4 →
    (s.pll k).attempt = 0 →
    (s.pll k).autoRel = true →
    ∃ t', exec (.pllLockLoss t k freq) s₀ = .next t' ∧ Follows (pllRelock ((pllLost s2 k).modPll k (fun y => { y with st := 6 })) k (pllTarget s k) false true) t') ∧
  -- REF_IN_LOSS (R254)
  (∀ (t : Nat) (freq : Bool) (ppm : Int) (s₀ : State), s₀.pwr.down = false →
    let s := advance s₀ t
    let s2 := post (raiseFault s (if freq then 0x0202 else 0x0201) {}) 0x0204 (pack [(2, b2n freq), (30, 0), (32, if freq then enc 32 ppm else 0)])
    refWatched s = true →
    ∃ t', exec (.refInLoss t freq ppm) s₀ = .next t' ∧ Follows (countLoss (markAllUnlocked { s2 with clk := { s2.clk with reflock := false, holdover := true, refSince := none } })) t') ∧
  -- NODE_LOSS (R254)
  (∀ (t : Nat) (s₀ : State), s₀.pwr.down = false →
    let s := advance s₀ t
    let s0 := raiseFault { s with clk := { s.clk with nodeOk := false, nodeSince := none, timeValid := false, nodeRecov := 0 } } 0x0200 {}
    let s1 := countLoss (markAllUnlocked (post (openWindow s0 0x0200 nodeDeps [] false) 0x0204 2))
    let s2 := (List.range 6).foldl (fun a id => (strHalt a id (grainAt a id a.now + 1)).modStr id (fun x => { x with resume := false })) s1
    let s3 := (List.range 4).foldl (fun a k => let b := (buildSoFar a k).modPll k (fun x => { x with st := 6, attempt := 0, step := false, building := false, byLoss := false }); (pllCommands b k).foldl (fun d q => pllFinish d k q false false) b) s2
    s.clk.nodeOk = true →
    ∃ t', exec (.nodeLoss t) s₀ = .next t' ∧ Follows ({ auxHalt (setCoarse s3 true) with mem := { (auxHalt (setCoarse s3 true)).mem with selfRef := true } }) t') ∧
  -- DRIVE_FAIL (R419)
  (∀ (t n cause status : Nat) (s₀ : State), s₀.pwr.down = false →
    let s := advance s₀ t
    let s0 := s.modLink n (fun x => { x with ok := false })
    let s1 := if cause = 0 then linkDown s0 n else s0
    let s2 := raiseFault (post s1 0x0B06 (pack [(2, n), (2, 0), (4, cause), (8, 0), (16, if cause = 2 then status else 0)])) (0x2200 + n) { master := 13, inst := n }
    let s3 := openWindow s2 (0x2200 + n) [0x21, 0x22] [] true
    (s.link n).ok = true →
    (s.move.mounted && (s.link n).member) = false →
    s3.host.inProg.filter (fun p => p.opcode == 0x0B0E && p.unit_ == n) = [] →
    s3.move.job = 0 →
    ∃ t', exec (.driveFail t n cause status) s₀ = .next t' ∧ Follows (s3) t') ∧
  -- DMA_HANDOVER (R398)
  (∀ (t n : Nat) (d : Desc) (s₀ : State), s₀.pwr.down = false →
    let s := advance s₀ t
    let u := dmaWaits s n
    let x := u.dma n
    x.handReady u.now = true →
    x.shadow = some d →
    descReason u x d = 0 →
    (x.mode ≠ 0 ∨ d.last = true) →
    ∃ t', exec (.dmaHandover t n) s₀ = .next t' ∧ Follows (u.setDma n { x with shadow := none, active := some d, moved := 0, crc := if d.crcrst then 0xFFFFFFFF else x.crc }) t') ∧
  -- COMMAND_TRANSFER_END: a command that reads out (R464)
  (∀ (t i : Nat) (q : InProg) (s₀ : State), s₀.pwr.down = false →
    let s := advance s₀ t
    s.host.inProg[i]? = some q →
    panicUp s = false →
    q.unit_ = transferWait →
    (q.opcode ≠ 0x0005 ∧ q.opcode ≠ 0x0901 ∧ q.opcode ≠ 0x0907 ∧ q.opcode ≠ 0x0D07) →
    ∃ t', exec (.commandTransferEnd t i) s₀ = .next t' ∧ Follows (finish (regWrite s (q.data.getD 2 0) (q.data.getD 3 0) (bytesOf (q.data.drop 4))) q (q.data.headD 0 / 256) (q.data.headD 0 % 256) (q.data.getD 1 0)) t') ∧
  -- COMMAND_TRANSFER_END: GROVE_WRITE (R464)
  (∀ (t i : Nat) (q : InProg) (s₀ : State), s₀.pwr.down = false →
    let s := advance s₀ t
    s.host.inProg[i]? = some q →
    q.opcode = 0x0901 →
    ∃ t', exec (.commandTransferEnd t i) s₀ = .next t' ∧ Follows (finish (feedWrite s 32 q.unit_ (q.data.headD 0) (bytesOf q.data.tail)) q 0 0 0) t') ∧
  -- INPUT_EDGE (R272)
  (∀ (t n : Nat) (fall : Bool) (c : Nat) (s₀ : State), s₀.pwr.down = false →
    let s := advance s₀ t
    let u := s.modTiuIn n (fun x => { x with level := !fall })
    let x : TiuIn := { u.tiuIn n with pre := 0 }
    let v := u.setTiuIn n x
    let T := stampAt v n s.now (min c 191)
    (u.tiuIn n).testing = false →
    tiuSel u n fall = true →
    (u.tiuIn n).prescale = 0 →
    s.clk.coarse = false →
    tiuSel v n fall = true →
    extSel v n fall = false →
    ppsSel v n fall = false →
    x.deadEnd ≤ rawTime2 x s.now (min c 191) →
    x.queueOn = false →
    ∃ t', exec (.inputEdge t n fall c) s₀ = .next t' ∧ Follows ((List.range 4).foldl (fun a k => statStamp a k n T false x.uncal) (v.setTiuIn n { x with deadEnd := rawTime2 x s.now (min c 191) + 262144, last := T, seq := (x.seq + 1) % 2^32 })) t') ∧
  -- ACQ_ARM_AT_CT (R155)
  (∀ (t : Nat) (s₀ : State), s₀.pwr.down = false →
    let s := advance s₀ t
    ∃ t', exec (.acqArmAtCt t) s₀ = .next t' ∧ Follows ((List.range 8).foldl armDue s) t') ∧
  (∀ (s : State) (a w : Nat), (s.au a).armAt = some w → w ≤ s.now →
    (streamsStopped s a = false → armDue s a = finishAll (armNow s a) 0x0504 a 0 4 (armResult (armNow s a) a)) ∧
    (streamsStopped s a = true → armDue s a = finishAll (s.modAu a (fun u => { u with armAt := none })) 0x0504 a stState 0 0))

/-- The fatal state (R470): the commands that it refuses with FAULTED, each by opcode and constructor, and the opcodes it
still applies. -/
def Obligations.FatalStateRefuses : Prop :=
  (
   let F := fun (op : Nat) (i : Cmd → Block → Instr) => ∀ (c : Cmd) (p : Block) (s : State), zciFront op c s = true → denies s op = false →
      s.host.engine = 2 → ∃ t, exec (i c p) s = .next t ∧ Refused op c stFaulted s t
   F 0x0002 .sysAlloc ∧ F 0x0003 .sysFree ∧ (∀ data : List Nat, F 0x0005 (fun c p => .sysFwStage c p data)) ∧ F 0x0006 .sysFwActivate ∧
   F 0x0008 .sysNop ∧ F 0x0101 .feSetMode ∧ F 0x0102 .feSetSource ∧ F 0x0103 .feSetAtten ∧ F 0x0104 .feStream ∧ F 0x0106 .feSetProtect ∧
   F 0x0201 .clkSetRef ∧ F 0x0202 .clkSetPll ∧ F 0x0203 .clkBuildHops ∧ F 0x0204 .clkSetPps ∧ F 0x0205 .clkSetTime ∧ F 0x0301 .calRun ∧
   F 0x0302 .calSetBlind ∧ F 0x0303 .calRestore ∧ F 0x0304 .calRead ∧ F 0x0305 .calGetRecord ∧ F 0x0401 .specSetLane ∧
   (∀ data : List Nat, F 0x0402 (fun c p => .specLoadWindow c p data)) ∧ F 0x0403 .specSetDdc ∧ F 0x0404 .specTuneDdc ∧
   F 0x0405 .specSetTrace ∧ F 0x0406 .specSetOutput ∧ F 0x0408 .specSetGovernor ∧ F 0x0501 .acqSetTerm ∧ F 0x0502 .acqSetCombiner ∧
   F 0x0503 .acqSetCapture ∧ F 0x0504 .acqArm ∧ F 0x0505 .acqStop ∧ F 0x0506 .acqForce ∧
   (∀ data : List Nat, F 0x0507 (fun c p => .acqLoadMask c p data)) ∧ F 0x0508 .acqSetMask ∧ F 0x0509 .acqSetTest ∧ F 0x050A .acqSetEvtOut ∧
   F 0x0601 .densSetMap ∧ F 0x0602 .densClear ∧ F 0x0603 .densRead ∧ (∀ data : List Nat, F 0x0604 (fun c p => .densSetPigment c p data)) ∧
   F 0x0605 .dispSetMode ∧ F 0x0606 .dispSetLayer ∧ F 0x0607 .dispSetEvents ∧ F 0x0608 .dispFallow ∧ F 0x0609 .dispAux ∧
   F 0x0701 .monSetContext ∧ (∀ data : List Nat, F 0x0702 (fun c p => .monLoad c p data)) ∧ F 0x0703 .monClear ∧ F 0x0704 .monSnapshot ∧
   F 0x0705 .monRead ∧ F 0x0706 .monSetLog ∧ F 0x0801 .tiuSetInput ∧ F 0x0802 .tiuSetStats ∧ F 0x0804 .tiuRead ∧ F 0x0805 .tiuSetDrain ∧
   F 0x0806 .tiuCal ∧ (∀ data : List Nat, F 0x0901 (fun c p => .groveLoad c p data)) ∧ F 0x0902 .groveStart ∧ F 0x0903 .groveStop ∧
   F 0x0904 .groveSetShadow ∧ F 0x0905 .groveSetFeed ∧ F 0x0906 .groveSetBarrier ∧ F 0x0907 .groveRead ∧ F 0x0909 .groveGetFeed ∧
   F 0x0A01 .memAlloc ∧ F 0x0A02 .memFree ∧ F 0x0A03 .memSetRing ∧ F 0x0A04 .memRingAck ∧ F 0x0A06 .memCommons ∧ F 0x0A07 .memRetire ∧
   F 0x0A09 .memGetPoison ∧ F 0x0B01 .dmaSetChannel ∧ F 0x0B02 .dmaSetShadow ∧ F 0x0B03 .dmaRaise ∧ F 0x0B04 .dmaSetTimer ∧
   F 0x0B06 .streamSet ∧ F 0x0B07 .storSetPort ∧ F 0x0B08 .storFormat ∧ F 0x0B09 .storMount ∧ F 0x0B0A .storUnmount ∧ F 0x0B0B .recOpen ∧
   F 0x0B0C .recClose ∧ F 0x0B0E .storLogPage ∧ F 0x0C01 .auxSetRef ∧ F 0x0C02 .auxSetInput ∧ F 0x0C03 .auxSetSeq ∧ F 0x0C05 .ctlSetOutput ∧
   F 0x0C06 .ctlWrite ∧ F 0x0E01 .perfSetCounter ∧ F 0x0E02 .perfControl ∧ F 0x0E03 .perfRead) ∧
  (∀ op ∈ [0x0001, 0x0004, 0x0007, 0x0105, 0x0206, 0x0306, 0x0407, 0x050B, 0x060A, 0x060B, 0x0707, 0x0803, 0x0807, 0x0908, 0x0A05, 0x0A08, 0x0B05,
    0x0B0D, 0x0C04, 0x0C07, 0x0D01, 0x0D02, 0x0D03, 0x0D04, 0x0D05, 0x0D06, 0x0D07, 0x0D08, 0x0D09],
    ∀ (units : Nat) (used : Nat → List (Nat × Nat)) (c : Cmd) (p : Block) (s : State), zciFront op c s = true → denies s op = false →
      s.host.engine = 2 → wellFormed units used c p = true → zciReady op units used c p s = true)

/-- MON_CLEAR (R229): the fields of Table 6-4 and the history of the contexts in its range are zeroed; the rest of the
engine is as it was. -/
def Obligations.MonitorClear : Prop :=
  (Shared 0x0703 1 (fun _ => [(0, 16), (16, 16)]) .monClear) ∧
  (∀ (c : Cmd) (p : Block) (s₀ : State), zciReady 0x0703 1 (fun _ => [(0, 16), (16, 16)]) c p s₀ = true →
    let a := arg p 0 16
    let z := arg p 16 16
    ownsRange (seen 0x0703 c s₀) c.session.val a z = true →
    (z < a → ∃ t, exec (.monClear c p) s₀ = .next t ∧ Refused 0x0703 c stInvalid s₀ t) ∧
    (a ≤ z → ∃ t, exec (.monClear c p) s₀ = .next t ∧ Completed c (cplOf 0x0703 c 0 0 0 s₀) (seen 0x0703 c s₀) t ∧ KeptZ c [.mon] s₀ t ∧
      (∀ n, a ≤ n → n ≤ z →
        let x := t.ctx n
        let y := s₀.ctx n
        x.on = y.on ∧ x.lane = y.lane ∧ x.p = y.p ∧ x.phase = y.phase ∧
        x.busy = false ∧ x.coarse = false ∧ x.flags = 0 ∧ x.value = 0 ∧ x.result = 0 ∧ x.m = 0 ∧ x.lastIdx = 0 ∧ x.lastOff = 0 ∧ x.rflags = 0 ∧
        x.updates = 0 ∧ x.busyUpd = 0 ∧ x.episodes = 0 ∧ x.skipped = 0 ∧ x.since = 0 ∧ x.longest = 0 ∧ x.intervals = 0 ∧ x.idleTurns = 0 ∧
        x.q = 0 ∧ x.sum = 0 ∧ x.nsum = 0 ∧ x.prevT = none ∧ x.t0 = 0 ∧ x.ivNo = 0 ∧ x.epFlags = 0 ∧ x.epMax = 0) ∧
      (∀ n, n < a ∨ z < n → t.ctx n = s₀.ctx n)))

/-- GROVE_SET_BARRIER (R353) by a session that owns the group and the cores that it names. -/
def Obligations.BarrierCommand : Prop :=
  (Shared 0x0906 2 (fun _ => [(0, 3), (8, 1), (64, 64)]) .groveSetBarrier) ∧
  (∀ (c : Cmd) (p : Block) (s₀ : State), zciReady 0x0906 2 (fun _ => [(0, 3), (8, 1), (64, 64)]) c p s₀ = true →
    let k := arg p 0 3
    let m := arg p 64 64
    owns (seen 0x0906 c s₀) c.session.val 0x11 k = true → (maskBits 64 m).any (fun n => !ownsCore (seen 0x0906 c s₀) c.session.val n) = false →
    (argBit p 8 = true → m = 0 → ∃ t, exec (.groveSetBarrier c p) s₀ = .next t ∧ Refused 0x0906 c stInvalid s₀ t) ∧
    (argBit p 8 = false ∨ m ≠ 0 → (s₀.bar k).arrived ≠ 0 → ∃ t, exec (.groveSetBarrier c p) s₀ = .next t ∧ Refused 0x0906 c stState s₀ t) ∧
    (argBit p 8 = false ∨ m ≠ 0 → (s₀.bar k).arrived = 0 →
      ∃ t, exec (.groveSetBarrier c p) s₀ = .next t ∧ Completed c (cplOf 0x0906 c 0 0 0 s₀) (seen 0x0906 c s₀) t ∧ (t.bar k).on = argBit p 8 ∧
        (t.bar k).arrived = 0 ∧ (argBit p 8 = true → (t.bar k).members = m ∧ (t.bar k).broken = false) ∧
        (∀ j, j ≠ k → t.bar j = s₀.bar j) ∧ (∀ n, t.core n = s₀.core n) ∧ KeptZ c [.grove] s₀ t))

/-- SYS commands: allocation, firmware staging and activation, reset, NOP. Derived from the rules named at each clause;
the model's own choices in it are those of log entries 8, 9, 14, 16, 20, 21. -/
def Obligations.SystemCommands : Prop :=
  -- SYS_GET_INFO (R474)
  (Shared 0x0001 1 (fun _ => []) .sysGetInfo) ∧
  (∀ (c : Cmd) (p : Block) (s₀ : State), zciReady 0x0001 1 (fun _ => []) c p s₀ = true →
    let s := seen 0x0001 c s₀
    ∃ t', exec (.sysGetInfo c p) s₀ = .next t' ∧ Answered c (cplOf 0x0001 c 0 8 (pack [(8, 0), (8, 1), (24, s.sec.fwver), (24, 0), (32,
        s.sec.secver), (32, 0), (128, Config.serial.toNat), (128, Config.keyId.toNat), (3, s.sec.life), (5, 0), (4, c.session.val), (4, 0), (9,
        linkReg s), (103, 0)]) s₀) s t' ∧ KeptZ c [] s₀ t') ∧
  -- SYS_ALLOC (R475)
  (Shared 0x0002 1 (fun _ => [(0, 8), (8, 16), (24, 16)]) .sysAlloc) ∧
  (∀ (c : Cmd) (p : Block) (s₀ : State), zciReady 0x0002 1 (fun _ => [(0, 8), (8, 16), (24, 16)]) c p s₀ = true →
    let s := seen 0x0002 c s₀
    let n := c.session.val
    let cls := arg p 0 8
    let us := (List.range (arg p 24 16)).map (· + arg p 8 16)
    let new := us.filter (fun u => s.ownerOf (cls * 65536 + u) == 0)
    let checks : List (Bool × Nat) := [(us.any (fun u => decide (u < classUnits cls) && s.ownerOf (cls * 65536 + u) != 0 && !owns s n cls u),
      stBusy), (arg p 24 16 == 0, stInvalid), (rangeBad cls (arg p 8 16) (arg p 24 16), stRange)]
    (∀ st, firstFailing checks = some st → ∃ t', exec (.sysAlloc c p) s₀ = .next t' ∧ Refused 0x0002 c st s₀ t') ∧
    (firstFailing checks = none → ∃ t', exec (.sysAlloc c p) s₀ = .next t' ∧
        Answered c (cplOf 0x0002 c 0 1 new.length s₀) (new.foldl (fun a u => allocUnit a n cls u) s) t' ∧ KeptZ c [.host, .mon] s₀ t')) ∧
  -- SYS_FREE (R475)
  (Shared 0x0003 1 (fun _ => [(0, 8), (8, 16), (24, 16)]) .sysFree) ∧
  (∀ (c : Cmd) (p : Block) (s₀ : State), zciReady 0x0003 1 (fun _ => [(0, 8), (8, 16), (24, 16)]) c p s₀ = true →
    let s := seen 0x0003 c s₀
    let cls := arg p 0 8
    let us := (List.range (arg p 24 16)).map (· + arg p 8 16)
    let checks : List (Bool × Nat) := [(arg p 24 16 == 0, stInvalid), (us.any (fun u => decide (u < classUnits cls) && !owns s c.session.val cls u),
      stInvalid), (us.any (fun u => decide (u < classUnits cls) && unitInUse s cls u), stState), (rangeBad cls (arg p 8 16) (arg p 24 16), stRange)]
    (∀ st, firstFailing checks = some st → ∃ t', exec (.sysFree c p) s₀ = .next t' ∧ Refused 0x0003 c st s₀ t') ∧
    (firstFailing checks = none → ∃ t', exec (.sysFree c p) s₀ = .next t' ∧
        Answered c (cplOf 0x0003 c 0 0 0 s₀) (us.foldl (fun a u => a.setOwnerOf (cls * 65536 + u) 0) s) t' ∧ KeptZ c [.host] s₀ t')) ∧
  -- SYS_GET_ALLOC (R475)
  (Shared 0x0004 1 (fun _ => [(0, 8), (8, 16), (32, 8)]) .sysGetAlloc) ∧
  (∀ (c : Cmd) (p : Block) (s₀ : State), zciReady 0x0004 1 (fun _ => [(0, 8), (8, 16), (32, 8)]) c p s₀ = true →
    let s := seen 0x0004 c s₀
    let cls := arg p 0 8
    let k := arg p 32 8
    let checks : List (Bool × Nat) := [(k == 0, stInvalid), (decide (128 < k), stRange), (rangeBad cls (arg p 8 16) k, stRange)]
    (∀ st, firstFailing checks = some st → ∃ t', exec (.sysGetAlloc c p) s₀ = .next t' ∧ Refused 0x0004 c st s₀ t') ∧
    (firstFailing checks = none → ∃ t', exec (.sysGetAlloc c p) s₀ = .next t' ∧
        Answered c (cplOf 0x0004 c 0 (ceilDiv k 8) (pack ((List.range k).map (fun i => (8, if s.ownerOf (cls * 65536 + arg p 8 16 + i) = 0 then 0xFF
        else s.ownerOf (cls * 65536 + arg p 8 16 + i) - 1)))) s₀) s t' ∧ KeptZ c [] s₀ t')) ∧
  -- SYS_FW_STAGE (R472)
  (∀ (img : List Nat), Shared 0x0005 2 (fun _ => [(0, 64), (64, 32)]) (fun c p => .sysFwStage c p img)) ∧
  (∀ (c : Cmd) (p : Block) (img : List Nat) (s₀ : State), zciReady 0x0005 2 (fun _ => [(0, 64), (64, 32)]) c p s₀ = true →
    let s := seen 0x0005 c s₀
    let len := arg p 64 32
    let checks : List (Bool × Nat) := [(s.host.inProg.any (fun q => q.opcode == 0x0005), stBusy), (arg p 0 64 % 4096 != 0, stInvalid),
      (decide (len < 576 ∨ 16777216 < len) || len != 512 + imgNum img 20 4 || imgNum img 20 4 % 64 != 0, stRange), (imgInvalid img, stInvalid),
      (imgDenied s img, stDenied)]
    (∀ st, firstFailing checks = some st → ∃ t', exec (.sysFwStage c p img) s₀ = .next t' ∧ Refused 0x0005 c st s₀ t') ∧
    (firstFailing checks = none → ∃ t', exec (.sysFwStage c p img) s₀ = .next t' ∧ Waits 0x0005 c transferWait [1, pack [(24, imgNum img 10 3),
        (8, 0), (32, imgNum img 16 4)]] [] s s₀ t' ∧ KeptZ c [] s₀ t')) ∧
  -- SYS_FW_ACTIVATE (R473)
  (Shared 0x0006 1 (fun _ => []) .sysFwActivate) ∧
  (∀ (c : Cmd) (p : Block) (s₀ : State), zciReady 0x0006 1 (fun _ => []) c p s₀ = true →
    let s := seen 0x0006 c s₀
    let checks : List (Bool × Nat) := [(othersOpen s c.session.val || (List.range 6).any (fun id => (s.str id).running) || s.move.entry != 0xFFFF ||
      !s.host.stagedOk, stState)]
    (∀ st, firstFailing checks = some st → ∃ t', exec (.sysFwActivate c p) s₀ = .next t' ∧ Refused 0x0006 c st s₀ t') ∧
    (firstFailing checks = none → ∃ t', exec (.sysFwActivate c p) s₀ = .next t' ∧
        Answered c (cplOf 0x0006 c 0 0 0 s₀) ({ s with host := { s.host with resetAt := some (s.now + periodCt), activating := true } }) t' ∧
        KeptZ c [.host] s₀ t')) ∧
  -- SYS_RESET (R476)
  (Shared 0x0007 1 (fun _ => []) .sysReset) ∧
  (∀ (c : Cmd) (p : Block) (s₀ : State), zciReady 0x0007 1 (fun _ => []) c p s₀ = true →
    let s := seen 0x0007 c s₀
    let checks : List (Bool × Nat) := [(othersOpen s c.session.val, stState)]
    (∀ st, firstFailing checks = some st → ∃ t', exec (.sysReset c p) s₀ = .next t' ∧ Refused 0x0007 c st s₀ t') ∧
    (firstFailing checks = none → ∃ t', exec (.sysReset c p) s₀ = .next t' ∧ 
      Unanswered c { s with host := { s.host with resetAt := some (s.now + periodCt) } } t' ∧ KeptZ c [.host] s₀ t')) ∧
  -- SYS_NOP (R476)
  (Shared 0x0008 1 (fun _ => []) .sysNop) ∧
  (∀ (c : Cmd) (p : Block) (s₀ : State), zciReady 0x0008 1 (fun _ => []) c p s₀ = true →
    let s := seen 0x0008 c s₀
    ∃ t', exec (.sysNop c p) s₀ = .next t' ∧ Answered c (cplOf 0x0008 c 0 0 0 s₀) s t' ∧ KeptZ c [] s₀ t')

/-- FE commands set modes, sources and attenuators, start and stop streams, set protection, return status. Derived from
the rules named at each clause; the model's own choices in it are those of log entries 16, 17, 27, 28, 39, 49. -/
def Obligations.FrontEndCommands : Prop :=
  -- FE_SET_MODE (R58)
  (Shared 0x0101 1 (fun _ => [(0, 2), (2, 1), (8, 8)]) .feSetMode) ∧
  (∀ (c : Cmd) (p : Block) (s₀ : State), zciReady 0x0101 1 (fun _ => [(0, 2), (2, 1), (8, 8)]) c p s₀ = true →
    let s := seen 0x0101 c s₀
    let k := arg p 0 2
    let pair := argBit p 2
    let rate := arg p 8 8
    let same := pair == s.pairMode k && rate == s.rate k
    let checks : List (Bool × Nat) := [(k < 2 && !ownsTarget s c.session.val (4 + k), stBusy), (decide (2 ≤ k), stInvalid), (!same &&
      (pairStreams s k ++ [2 * k, 2 * k + 1, 4 + k]).any (calOwned s), stBusy), (!same && (pairStreams s k).any (strHeld s), stState), (pllBusy s k,
      stBusy), (pllDead s k, stState), (decide (100 < rate), stRange), (!same && overAdmission s (setRate s k pair rate), stNoRes)]
    (∀ st, firstFailing checks = some st → ∃ t', exec (.feSetMode c p) s₀ = .next t' ∧ Refused 0x0101 c st s₀ t') ∧
    (firstFailing checks = none → same = true → ∃ t', exec (.feSetMode c p) s₀ = .next t' ∧
        Answered c (cplOf 0x0101 c 0 4 (modeResult s k) s₀) s t' ∧ KeptZ c [] s₀ t') ∧
    (firstFailing checks = none → same = false → ∃ t', exec (.feSetMode c p) s₀ = .next t' ∧ Waits 0x0101 c k [b2n (pair &&
        pair != s.pairMode k)] [] (setMode s k pair rate) s₀ t' ∧ KeptZ c [.host, .cmds, .fe, .clk, .cal, .spec, .acq, .disp, .mon, .tiu, .grove,
        .mem, .move, .ctl, .flt, .sec, .pwr] s₀ t')) ∧
  -- FE_SET_SOURCE (R59)
  (Shared 0x0102 1 (fun _ => [(0, 3), (8, 4)]) .feSetSource) ∧
  (∀ (c : Cmd) (p : Block) (s₀ : State), zciReady 0x0102 1 (fun _ => [(0, 3), (8, 4)]) c p s₀ = true →
    let s := seen 0x0102 c s₀
    let t := arg p 0 3
    let src := arg p 8 4
    let same := s.source t == src
    let checks : List (Bool × Nat) := [(t < 6 && !ownsTarget s c.session.val t, stBusy), (decide (6 ≤ t) || !sourceOk s t src, stInvalid),
      (!strExists s t, stState), (!same && calOwned s t, stBusy), (!same && strHeld s t, stState), (pllBusy s (pairOf t), stBusy)]
    (∀ st, firstFailing checks = some st → ∃ t', exec (.feSetSource c p) s₀ = .next t' ∧ Refused 0x0102 c st s₀ t') ∧
    (firstFailing checks = none → 
       let s1 := if same then s else changeSource s t src
       ∃ t', exec (.feSetSource c p) s₀ = .next t' ∧ Answered c (cplOf 0x0102 c 0 2 (sourceResult s1 t) s₀) s1 t' ∧ KeptZ c [.host, .cmds, .fe,
        .cal, .spec, .acq, .disp, .mon, .tiu, .grove, .mem, .move, .ctl, .flt, .sec, .pwr] s₀ t')) ∧
  -- FE_SET_ATTEN (R60)
  (Shared 0x0103 1 (fun _ => [(0, 2), (8, 4), (12, 1)]) .feSetAtten) ∧
  (∀ (c : Cmd) (p : Block) (s₀ : State), zciReady 0x0103 1 (fun _ => [(0, 2), (8, 4), (12, 1)]) c p s₀ = true →
    let s := seen 0x0103 c s₀
    let i := arg p 0 2
    let a := arg p 8 4
    let clear := argBit p 12
    let x := s.inp i
    let id := routedTo s i
    let same := a == x.atten && !(x.tripped && clear)
    let checks : List (Bool × Nat) := [(id != 0xFF && !ownsTarget s c.session.val id, stBusy), (x.tripped && !clear, stState), (!same &&
      id != 0xFF && calOwned s id, stBusy), (decide (10 < a), stRange)]
    (∀ st, firstFailing checks = some st → ∃ t', exec (.feSetAtten c p) s₀ = .next t' ∧ Refused 0x0103 c st s₀ t') ∧
    (firstFailing checks = none → ∃ t', exec (.feSetAtten c p) s₀ = .next t' ∧ Answered c (cplOf 0x0103 c 0 1 (pack [(48, if id != 0xFF &&
        (s.str id).running then nextGrain s id else noIndex), (8, id)]) s₀) (if same then s else changeAtten s i id a clear) t' ∧
        KeptZ c [.fe] s₀ t')) ∧
  -- FE_STREAM (R61)
  (Shared 0x0104 2 (fun _ => [(0, 6), (8, 1), (64, 64)]) .feStream) ∧
  (∀ (c : Cmd) (p : Block) (s₀ : State), zciReady 0x0104 2 (fun _ => [(0, 6), (8, 1), (64, 64)]) c p s₀ = true →
    let s := seen 0x0104 c s₀
    let sel := maskBits 6 (arg p 0 6)
    let at_ := arg p 64 64
    let start := argBit p 8
    let checks : List (Bool × Nat) := [(sel.any (fun t => !ownsTarget s c.session.val t), stBusy), (sel.isEmpty, stInvalid),
      (sel.any (fun t => !strExists s t), stState), (!start && sel.any (strHeld s), stState), (sel.any (fun t => pllBusy s (pairOf t)), stBusy),
      (start && sel.any (fun t => pllDead s (pairOf t)), stState), (tickBad s at_, stRange)]
    (∀ st, firstFailing checks = some st → ∃ t', exec (.feStream c p) s₀ = .next t' ∧ Refused 0x0104 c st s₀ t') ∧
    (firstFailing checks = none → at_ = 0 → ∃ t', exec (.feStream c p) s₀ = .next t' ∧
        Answered c (cplOf 0x0104 c 0 0 0 s₀) (feStreamGo s (arg p 0 6) start s.now) t' ∧ KeptZ c [.host, .cmds, .fe, .cal, .spec, .acq, .disp, .mon,
        .tiu, .grove, .mem, .move, .ctl, .flt, .sec, .pwr] s₀ t') ∧
    (firstFailing checks = none → at_ ≠ 0 → ∃ t', exec (.feStream c p) s₀ = .next t' ∧ Waits 0x0104 c (arg p 0 6) [at_, b2n start] [] s s₀ t' ∧
        KeptZ c [] s₀ t')) ∧
  -- FE_SET_PROTECT (R63)
  (Shared 0x0106 1 (fun _ => [(0, 2), (8, 1)]) .feSetProtect) ∧
  (∀ (c : Cmd) (p : Block) (s₀ : State), zciReady 0x0106 1 (fun _ => [(0, 2), (8, 1)]) c p s₀ = true →
    let s := seen 0x0106 c s₀
    let i := arg p 0 2
    let checks : List (Bool × Nat) := [(routedTo s i != 0xFF && !ownsTarget s c.session.val (routedTo s i), stBusy)]
    (∀ st, firstFailing checks = some st → ∃ t', exec (.feSetProtect c p) s₀ = .next t' ∧ Refused 0x0106 c st s₀ t') ∧
    (firstFailing checks = none → ∃ t', exec (.feSetProtect c p) s₀ = .next t' ∧
        Answered c (cplOf 0x0106 c 0 0 0 s₀) (s.modInp i (fun x => { x with protect := argBit p 8 })) t' ∧ KeptZ c [.fe] s₀ t')) ∧
  -- FE_GET_STATUS (R62)
  (Shared 0x0105 1 (fun _ => [(0, 3), (8, 1)]) .feGetStatus) ∧
  (∀ (c : Cmd) (p : Block) (s₀ : State), zciReady 0x0105 1 (fun _ => [(0, 3), (8, 1)]) c p s₀ = true →
    let s := seen 0x0105 c s₀
    let t := arg p 0 3
    let src := s.source t
    let rf := src < 4
    let i := s.inp src
    let ex := strExists s t
    let x : Stream := if ex then s.str t else {}
    let checks : List (Bool × Nat) := [(decide (6 ≤ t), stInvalid)]
    (∀ st, firstFailing checks = some st → ∃ t', exec (.feGetStatus c p) s₀ = .next t' ∧ Refused 0x0105 c st s₀ t') ∧
    (firstFailing checks = none → ∃ t', exec (.feGetStatus c p) s₀ = .next t' ∧ Answered c (cplOf 0x0105 c 0 4 (pack [(4, src), (4,
        if rf then i.atten else 15), (1, b2n (s.pairMode (pairOf t))), (1, b2n x.running), (1, b2n (rf && i.tripped)), (1, b2n (rf && i.protect)),
        (1, b2n (calOwned s t)), (3, 0), (8, s.rate (pairOf t)), (8, if ex then t else 0xFF), (48, x.latest), (80, if x.cur.ep.no = 0 then 0
        else x.cur.ep.time (256 * x.cur.ep.ep0)), (32, x.ovl), (32, x.set_), (32, x.sus)]) s₀) (if argBit p 8 &&
        ex then s.modStr t (fun y => { y with ovl := 0, set_ := 0, sus := 0 }) else s) t' ∧ KeptZ c [.fe] s₀ t'))

/-- CLK commands set reference, PLLs, hop tables, PPS and time, and return status. Derived from the rules named at each
clause; the model's own choices in it are those of log entries 2, 16, 17, 29. -/
def Obligations.ClockCommands : Prop :=
  -- CLK_SET_REF (R257)
  (Shared 0x0201 1 (fun _ => [(0, 2), (2, 1), (3, 1), (8, 10)]) .clkSetRef) ∧
  (∀ (c : Cmd) (p : Block) (s₀ : State), zciReady 0x0201 1 (fun _ => [(0, 2), (2, 1), (3, 1), (8, 10)]) c p s₀ = true →
    let s := seen 0x0201 c s₀
    let src := arg p 0 2
    let k := s.clk
    let checks : List (Bool × Nat) := [(!ownsAllCh s c.session.val, stBusy), (src == 3, stInvalid), (src != k.source && anyStream s, stState),
      (src != 0 && k.ppsMode == 2, stState)]
    (∀ st, firstFailing checks = some st → ∃ t', exec (.clkSetRef c p) s₀ = .next t' ∧ Refused 0x0201 c st s₀ t') ∧
    (firstFailing checks = none → 
       let k1 := { k with refOutEn := argBit p 2, refOutFreq := argBit p 3, refOutDelay := arg p 8 10, refOutHold := if k.refOutEn && argBit p 2 && (k.refOutFreq != argBit p 3 || k.refOutDelay != arg p 8 10) then s.now + 1600 else k.refOutHold }
       ∃ t', exec (.clkSetRef c p) s₀ = .next t' ∧
        Answered c (cplOf 0x0201 c 0 2 (timeRead s) s₀) ({ s with clk := if src = k.source then k1 else { k1 with source := src, reflock := src == 0, holdover := false, refSince := none } }) t' ∧
        KeptZ c [.clk] s₀ t')) ∧
  -- CLK_SET_PLL (R258)
  (Shared 0x0202 1 (fun _ => [(0, 2), (2, 1), (3, 1), (4, 1), (8, 10)]) .clkSetPll) ∧
  (∀ (c : Cmd) (p : Block) (s₀ : State), zciReady 0x0202 1 (fun _ => [(0, 2), (2, 1), (3, 1), (4, 1), (8, 10)]) c p s₀ = true →
    let s := seen 0x0202 c s₀
    let k := arg p 0 2
    let go := argBit p 2
    let checks : List (Bool × Nat) := [(!ownsPll s c.session.val k, stBusy), (go && k < 2 && (pairStreams s k).any (strHeld s), stState), (go &&
      decide (2 ≤ k) && !pllDead s k, stState), (go && k < 2 && pllBusy s k, stBusy)]
    (∀ st, firstFailing checks = some st → ∃ t', exec (.clkSetPll c p) s₀ = .next t' ∧ Refused 0x0202 c st s₀ t') ∧
    (firstFailing checks = none → go = true → 
       let s1 := s.modPll k (fun x => { x with autoRel := argBit p 4, newDelay := if go && k < 2 then arg p 8 10 else x.newDelay })
       ∃ t', exec (.clkSetPll c p) s₀ = .next t' ∧ Waits 0x0202 c k [] [] (cmdRelock s1 k (pllTarget s k) (argBit p 3)) s₀ t' ∧ KeptZ c [.host,
        .cmds, .fe, .clk, .cal, .spec, .acq, .disp, .mon, .tiu, .grove, .mem, .move, .ctl, .flt, .sec, .pwr] s₀ t') ∧
    (firstFailing checks = none → go = false → ∃ t', exec (.clkSetPll c p) s₀ = .next t' ∧
        Answered c (cplOf 0x0202 c 0 2 0 s₀) (s.modPll k (fun x => { x with autoRel := argBit p 4, newDelay := x.newDelay })) t' ∧
        KeptZ c [.clk] s₀ t')) ∧
  -- CLK_BUILD_HOPS (R259)
  (Shared 0x0203 1 (fun _ => [(0, 1)]) .clkBuildHops) ∧
  (∀ (c : Cmd) (p : Block) (s₀ : State), zciReady 0x0203 1 (fun _ => [(0, 1)]) c p s₀ = true →
    let s := seen 0x0203 c s₀
    let k := arg p 0 1
    let checks : List (Bool × Nat) := [(!ownsPll s c.session.val k, stBusy), ((pairStreams s k).any (fun id => (s.str id).running), stState),
      (pllBusy s k, stBusy)]
    (∀ st, firstFailing checks = some st → ∃ t', exec (.clkBuildHops c p) s₀ = .next t' ∧ Refused 0x0203 c st s₀ t') ∧
    (firstFailing checks = none → ∃ t', exec (.clkBuildHops c p) s₀ = .next t' ∧
        Waits 0x0203 c k [] [] ((cmdRelock s k (pairN s k) false).modPll k (fun x => { x with building := true, built := 0, st := 1 })) s₀ t' ∧
        KeptZ c [.host, .cmds, .fe, .clk, .cal, .spec, .acq, .disp, .mon, .tiu, .grove, .mem, .move, .ctl, .flt, .sec, .pwr] s₀ t')) ∧
  -- CLK_SET_PPS (R260)
  (Shared 0x0204 1 (fun _ => [(0, 2), (2, 1), (3, 1)]) .clkSetPps) ∧
  (∀ (c : Cmd) (p : Block) (s₀ : State), zciReady 0x0204 1 (fun _ => [(0, 2), (2, 1), (3, 1)]) c p s₀ = true →
    let s := seen 0x0204 c s₀
    let m := arg p 0 2
    let k := s.clk
    let k1 := if m = 0 || k.ppsMode = 0 then { k with ppsFree := true, ppsLast := none } else k
    let checks : List (Bool × Nat) := [(!owns s c.session.val 9 8, stBusy), (m == 3, stInvalid), (m == 2 && k.source != 0, stState)]
    (∀ st, firstFailing checks = some st → ∃ t', exec (.clkSetPps c p) s₀ = .next t' ∧ Refused 0x0204 c st s₀ t') ∧
    (firstFailing checks = none → ∃ t', exec (.clkSetPps c p) s₀ = .next t' ∧
        Answered c (cplOf 0x0204 c 0 0 0 s₀) ({ s with clk := { k1 with ppsMode := m, ppsEdge := argBit p 2, ppsPost := argBit p 3 } }) t' ∧
        KeptZ c [.clk] s₀ t')) ∧
  -- CLK_SET_TIME (R261)
  (Shared 0x0205 2 (fun _ => [(0, 64)]) .clkSetTime) ∧
  (∀ (c : Cmd) (p : Block) (s₀ : State), zciReady 0x0205 2 (fun _ => [(0, 64)]) c p s₀ = true →
    let s := seen 0x0205 c s₀
    let sec := arg p 0 64
    let checks : List (Bool × Nat) := [(!owns s c.session.val 9 8, stBusy), (sec == 0, stInvalid), (s.clk.ppsMode == 0 || ppsMissed s, stState),
      (anyStream s, stState), ((List.range 8).any (fun a => (s.au a).runs), stState), (s.move.entry != 0xFFFF, stState),
      (decide (11529215045 < sec), stRange)]
    (∀ st, firstFailing checks = some st → ∃ t', exec (.clkSetTime c p) s₀ = .next t' ∧ Refused 0x0205 c st s₀ t') ∧
    (firstFailing checks = none → ∃ t', exec (.clkSetTime c p) s₀ = .next t' ∧ Waits 0x0205 c 0 [sec] [] s s₀ t' ∧ KeptZ c [] s₀ t')) ∧
  -- CLK_GET_STATUS (R262)
  (Shared 0x0206 1 (fun _ => [(8, 1)]) .clkGetStatus) ∧
  (∀ (c : Cmd) (p : Block) (s₀ : State), zciReady 0x0206 1 (fun _ => [(8, 1)]) c p s₀ = true →
    let s := seen 0x0206 c s₀
    let k := s.clk
    let r0 := pllRead s 0
    let r1 := pllRead r0.2 1
    let r2 := pllRead r1.2 2
    let r3 := pllRead r2.2 3
    let s1 := r3.2
    ∃ t', exec (.clkGetStatus c p) s₀ = .next t' ∧ Answered c (cplOf 0x0206 c 0 4 (pack [(2, k.source), (1, b2n k.reflock), (1, b2n k.holdover),
        (1, b2n k.nodeOk), (1, b2n k.coarse), (1, b2n k.timeValid), (1, 0), (2, k.ppsMode), (1, b2n k.ppsOk), (5, 0), (4, r0.1), (4, r1.1), (4,
        r2.1), (4, r3.1), (8, pairN s 0), (8, pairN s 1), (10, (s.pll 0).delay), (10, (s.pll 1).delay), (12, 0), (64, countRead s), (48,
        enc 48 k.residual), (32, enc 32 k.steering), (32, k.lossCount)]) s₀) (if argBit p 8 then { s1 with clk := { k with lossCount := 0 } }
        else s1) t' ∧ KeptZ c [.clk] s₀ t')

/-- CAL commands run, restore, schedule and read calibration. Derived from the rules named at each clause; the model's own
choices in it are those of log entries 9, 16, 35, 54. -/
def Obligations.CalibrationCommands : Prop :=
  -- CAL_RUN (R309)
  (Shared 0x0301 4 (fun _ => [(0, 3), (4, 4), (8, 1), (64, 32), (96, 16), (112, 16), (128, 64)]) .calRun) ∧
  (∀ (c : Cmd) (p : Block) (s₀ : State), zciReady 0x0301 4 (fun _ => [(0, 3), (4, 4), (8, 1), (64, 32), (96, 16), (112, 16), (128, 64)]) c p s₀ = true →
    let s := seen 0x0301 c s₀
    let tgt := arg p 0 3
    let step := arg p 4 4
    let h := arg p 112 16
    let off := arg p 128 64
    let stim := decide (2 ≤ step ∧ step ≤ 6)
    let known := tgt < 6
    let checks : List (Bool × Nat) := [(s.flt.signBad, stFaulted), (known && !ownsTarget s c.session.val tgt, stBusy), (!regOwned s c.session.val h,
      stBusy), ((stim && (s.cal.stim.isSome || (known && tget 0 s.fe.changedAt tgt == s.now + 1))) || (known && (s.calStep tgt).isSome), stBusy),
      (known && !calReady s tgt step, stState), (known && step == 4 && strHeld s tgt, stState), (!known || decide (7 ≤ step) || off % 64 != 0,
      stInvalid), (toneBad s tgt (blk p 4) || regPast s h off 8352, stRange), (s.cal.count == 0xFFFFFFFF, stDenied)]
    (∀ st, firstFailing checks = some st → ∃ t', exec (.calRun c p) s₀ = .next t' ∧ Refused 0x0301 c st s₀ t') ∧
    (firstFailing checks = none → 
       let a := calAtten s tgt
       ∃ t', exec (.calRun c p) s₀ = .next t' ∧
        Waits 0x0301 c tgt [(blk p 4)] [h] (calTake s tgt { step := step, blind := !stim, region := h, offset := off, first := nextGrain s tgt, input := calInput s tgt, atten := a, refPort := argBit p 8, freq := arg p 64 32, level := sarg p 96 16, codes := if step = 4 then (List.range 11).filter (· ≠ a) else [] }) s₀ t' ∧
        KeptZ c [.fe, .cal] s₀ t')) ∧
  -- CAL_SET_BLIND (R311)
  (Shared 0x0302 1 (fun _ => [(0, 3), (3, 1), (4, 1), (5, 1), (16, 16), (32, 16)]) .calSetBlind) ∧
  (∀ (c : Cmd) (p : Block) (s₀ : State), zciReady 0x0302 1 (fun _ => [(0, 3), (3, 1), (4, 1), (5, 1), (16, 16), (32, 16)]) c p s₀ = true →
    let s := seen 0x0302 c s₀
    let tgt := arg p 0 3
    let on := argBit p 3
    let h := arg p 32 16
    let checks : List (Bool × Nat) := ([(decide (tgt < 6) && !ownsTarget s c.session.val tgt, stBusy), (on && h != noHandle &&
      !regOwned s c.session.val h, stBusy), (decide (6 ≤ tgt) || (argBit p 5 && decide (tgt < 4)), stInvalid), (on && h != noHandle &&
      !isRecRing s h, stInvalid), (on && (arg p 16 16 == 0 || decide (3600 < arg p 16 16)), stRange), (on && !(s.str tgt).running, stState)])
    (∀ st, firstFailing checks = some st → ∃ t', exec (.calSetBlind c p) s₀ = .next t' ∧ Refused 0x0302 c st s₀ t') ∧
    (firstFailing checks = none → 
       let x : Blind := { on := true, offset := argBit p 4, ilv := argBit p 5, period := arg p 16 16, due := s.now + arg p 16 16 * 1600000000, ring := h, session := c.session.val }
       ∃ t', exec (.calSetBlind c p) s₀ = .next t' ∧ Answered c (cplOf 0x0302 c 0 0 0 s₀) (s.setCalBlind tgt (if on then x else {})) t' ∧
        KeptZ c [.cal] s₀ t')) ∧
  -- CAL_RESTORE (R310)
  (Shared 0x0303 1 (fun _ => [(0, 3), (16, 16), (32, 32)]) .calRestore) ∧
  (∀ (c : Cmd) (p : Block) (s₀ : State), zciReady 0x0303 1 (fun _ => [(0, 3), (16, 16), (32, 32)]) c p s₀ = true →
    let s := seen 0x0303 c s₀
    let tgt := arg p 0 3
    let h := arg p 16 16
    let off := 64 * arg p 32 32
    let cs := (restoreItems s tgt).map (fun i => (i.1, i.2, calFactory s i.1 i.2))
    let r := { newRecord s tgt 0x11 (calInput s tgt) (calAtten s tgt) with entries := calEntries s cs, delta := calDelta (cs.map (fun x => x.2.2 - calValue s x.1 x.2.1)) }
    let y := stepAccept s tgt (nextGrain s tgt) 0x11 cs r
    let checks : List (Bool × Nat) := [(s.flt.signBad, stFaulted), (decide (tgt < 6) && !ownsTarget s c.session.val tgt, stBusy),
      (!regOwned s c.session.val h, stBusy), (decide (6 ≤ tgt), stInvalid), (regPast s h off 8352, stRange), (s.cal.count == 0xFFFFFFFF, stDenied)]
    (∀ st, firstFailing checks = some st → ∃ t', exec (.calRestore c p) s₀ = .next t' ∧ Refused 0x0303 c st s₀ t') ∧
    (firstFailing checks = none → ∃ t', exec (.calRestore c p) s₀ = .next t' ∧
        Waits 0x0303 c transferWait (transferData 0 2 (calResult y.2) h off y.2.bytes) [h] (y.1) s₀ t' ∧ KeptZ c [.fe, .cal, .sec] s₀ t')) ∧
  -- CAL_READ (R312)
  (Shared 0x0304 2 (fun _ => [(0, 16), (64, 64)]) .calRead) ∧
  (∀ (c : Cmd) (p : Block) (s₀ : State), zciReady 0x0304 2 (fun _ => [(0, 16), (64, 64)]) c p s₀ = true →
    let s := seen 0x0304 c s₀
    let h := arg p 0 16
    let off := arg p 64 64
    let checks : List (Bool × Nat) := [(!regOwned s c.session.val h, stBusy), (off % 64 != 0, stInvalid), (regPast s h off 61936, stRange)]
    (∀ st, firstFailing checks = some st → ∃ t', exec (.calRead c p) s₀ = .next t' ∧ Refused 0x0304 c st s₀ t') ∧
    (firstFailing checks = none → ∃ t', exec (.calRead c p) s₀ = .next t' ∧
        Waits 0x0304 c transferWait (transferData 0 0 (0) h off (calReadBytes s)) [h] s s₀ t' ∧ KeptZ c [] s₀ t')) ∧
  -- CAL_GET_RECORD (R313)
  (Shared 0x0305 2 (fun _ => [(0, 6), (16, 16), (64, 64)]) .calGetRecord) ∧
  (∀ (c : Cmd) (p : Block) (s₀ : State), zciReady 0x0305 2 (fun _ => [(0, 6), (16, 16), (64, 64)]) c p s₀ = true →
    let s := seen 0x0305 c s₀
    let h := arg p 16 16
    let off := arg p 64 64
    let r := s.cal.records.getD (arg p 0 6) {}
    let checks : List (Bool × Nat) := [(!regOwned s c.session.val h, stBusy), (off % 64 != 0, stInvalid),
      (decide (s.cal.records.length ≤ arg p 0 6) || regPast s h off r.len, stRange)]
    (∀ st, firstFailing checks = some st → ∃ t', exec (.calGetRecord c p) s₀ = .next t' ∧ Refused 0x0305 c st s₀ t') ∧
    (firstFailing checks = none → ∃ t', exec (.calGetRecord c p) s₀ = .next t' ∧
        Waits 0x0305 c transferWait (transferData 0 1 (r.len) h off (r.bytes)) [h] s s₀ t' ∧ KeptZ c [] s₀ t')) ∧
  -- CAL_GET_STATUS (R314)
  (Shared 0x0306 1 (fun _ => [(8, 1)]) .calGetStatus) ∧
  (∀ (c : Cmd) (p : Block) (s₀ : State), zciReady 0x0306 1 (fun _ => [(8, 1)]) c p s₀ = true →
    let s := seen 0x0306 c s₀
    let k := s.cal
    let six := List.range 6
    ∃ t', exec (.calGetStatus c p) s₀ = .next t' ∧ Answered c (cplOf 0x0306 c 0 4 (pack ([(32, k.count), (80, k.lastTime), (64, k.lastUtc), (1,
        b2n k.utcValid), (1, b2n k.stim.isSome), (4, k.stim.getD 15), (2, 0)] ++ six.map (fun t => (1, b2n (s.calT t).drift)) ++ [(2,
        0)] ++ six.map (fun t => (1, b2n (s.calBlind t).on)) ++ [(26, 0), (32,
        k.blindSkip)])) s₀) (if argBit p 8 then { s with cal := { k with blindSkip := 0 } } else s) t' ∧ KeptZ c [.cal] s₀ t')

/-- SPEC commands set lanes, windows, down-converters, traces, outputs and the governor hold. Derived from the rules named
at each clause; the model's own choices in it are those of log entries 2, 8, 9, 16, 33, 39, 50, 51. -/
def Obligations.SpectralCommands : Prop :=
  -- SPEC_SET_LANE (R107)
  (Shared 0x0401 1 (fun _ => [(0, 4), (4, 1), (8, 8), (16, 5), (24, 3), (27, 2), (29, 1), (30, 2), (32, 16)]) .specSetLane) ∧
  (∀ (c : Cmd) (p : Block) (s₀ : State), zciReady 0x0401 1 (fun _ => [(0, 4), (4, 1), (8, 8), (16, 5), (24, 3), (27, 2), (29, 1), (30, 2), (32, 16)]) c p s₀ = true →
    let s := seen 0x0401 c s₀
    let ln := arg p 0 4
    let en := argBit p 4
    let w := arg p 24 3
    let l2 := arg p 16 5
    let x := s.lane ln
    let r := x.run
    let src := if ln < 4 then slSource s ln else arg p 8 8
    let slot := tget [] s.spec.windows (arg p 27 2)
    let s1 := laneSet s ln (blk p 1)
    let windowed := w != r.window || (w == 4 && arg p 32 16 != r.beta) || (w == 5 && slot != r.codes) || arg p 30 2 != r.overlap ||
      argBit p 29 != r.norm
    let checks : List (Bool × Nat) := [(decide (ln < 12) && !ownsLane s c.session.val ln, stBusy), (en && decide (4 ≤ ln) &&
      !owns s c.session.val 4 (src - 16) && decide (16 ≤ src ∧ src < 32), stBusy), (en && w == 5 && !owns s c.session.val 5 (arg p 27 2), stBusy),
      (decide (12 ≤ ln), stInvalid), (en && (if ln < 4 then arg p 8 8 != 0xFF else decide (src < 16 ∨ 31 < src)), stInvalid), (en && decide (5 < w),
      stInvalid), (en && w == 5 && slot.length != 2 ^ l2, stInvalid), (oddOfPair s ln, stState), (x.on && laneConsumed s ln && (!en ||
      l2 != r.log2n || (decide (4 ≤ ln) && src != r.source)), stState), (x.on && en && windowed && laneArmed s ln, stState), (en &&
      decide (l2 < 6 ∨ (if ln < 4 then 16 else 20) < l2), stRange), (en && w == 4 && decide (0x2800 < arg p 32 16), stRange), (en &&
      decide (4 ≤ ln) && decide (zoomLine < laneW s1 ln), stNoRes), (en && decide (4 ≤ ln) && decide (zoomLimit < strRate s src), stRange), (en &&
      !laneBinsOk s1 ln, stRange), (en && (decide (laneLine ln < laneLoad s1 ln) || !densLaneOk s1 ln), stNoRes)]
    (∀ st, firstFailing checks = some st → ∃ t', exec (.specSetLane c p) s₀ = .next t' ∧ Refused 0x0401 c st s₀ t') ∧
    (firstFailing checks = none → (laneEnables (blk p 1) s) = true → s.spec.vcore < 850 → ∃ t', exec (.specSetLane c p) s₀ = .next t' ∧
        Waits 0x0401 c ceilingWait [(blk p 1)] [] s s₀ t' ∧ KeptZ c [] s₀ t') ∧
    (firstFailing checks = none → ((laneEnables (blk p 1) s) && decide (s.spec.vcore < 850)) = false → en = false → ∃ t',
        exec (.specSetLane c p) s₀ = .next t' ∧ Answered c (cplOf 0x0401 c 0 2 (if strRuns s r.source then bindGrain s r.source % 2^48
        else noIndex) s₀) (laneOff s ln) t' ∧ KeptZ c [.host, .cmds, .fe, .cal, .spec, .acq, .disp, .mon, .tiu, .grove, .mem, .move, .ctl, .flt,
        .sec, .pwr] s₀ t') ∧
    (firstFailing checks = none → ((laneEnables (blk p 1) s) && decide (s.spec.vcore < 850)) = false → en = true → ∃ t',
        exec (.specSetLane c p) s₀ = .next t' ∧ Answered c (cplOf 0x0401 c 0 2 (pack [(48, if strRuns s src then bindGrain s src % 2^48
        else noIndex), (16, 0), (32, toF32 (((s1.lane ln).run.s1 : ℚ) / (131072 * 2 ^ l2))), (32, toF32 (laneEnbw s1 ln))]) s₀) s1 t' ∧
        KeptZ c [.host, .cmds, .fe, .cal, .spec, .acq, .disp, .mon, .tiu, .grove, .mem, .move, .ctl, .flt, .sec, .pwr] s₀ t')) ∧
  -- SPEC_LOAD_WINDOW (R108)
  (∀ (data : List Nat), Shared 0x0402 2 (fun _ => [(0, 2), (8, 5), (64, 64)]) (fun c p => .specLoadWindow c p data)) ∧
  (∀ (c : Cmd) (p : Block) (data : List Nat) (s₀ : State), zciReady 0x0402 2 (fun _ => [(0, 2), (8, 5), (64, 64)]) c p s₀ = true →
    let s := seen 0x0402 c s₀
    let k := arg p 0 2
    let l2 := arg p 8 5
    let ws := (List.range (2 ^ l2)).map (fun i => data.getD i 0)
    let checks : List (Bool × Nat) := [(!owns s c.session.val 5 k, stBusy), (arg p 64 64 % 4 != 0, stInvalid), (decide (l2 < 6 ∨ 16 < l2), stRange),
      (windowCheck ws != 0, windowCheck ws), (ws.all (· == 0), stInvalid)]
    (∀ st, firstFailing checks = some st → ∃ t', exec (.specLoadWindow c p data) s₀ = .next t' ∧ Refused 0x0402 c st s₀ t') ∧
    (firstFailing checks = none → ∃ t', exec (.specLoadWindow c p data) s₀ = .next t' ∧
        Answered c (cplOf 0x0402 c 0 0 0 s₀) ({ s with spec := { s.spec with windows := tput [] s.spec.windows k ws } }) t' ∧ KeptZ c [.spec] s₀ t')) ∧
  -- SPEC_SET_DDC (R109)
  (Shared 0x0403 2 (fun _ => [(0, 4), (4, 1), (8, 8), (16, 5), (21, 3), (32, 48), (80, 16)]) .specSetDdc) ∧
  (∀ (c : Cmd) (p : Block) (s₀ : State), zciReady 0x0403 2 (fun _ => [(0, 4), (4, 1), (8, 8), (16, 5), (21, 3), (32, 48), (80, 16)]) c p s₀ = true →
    let s := seen 0x0403 c s₀
    let n := arg p 0 4
    let en := argBit p 4
    let src := arg p 8 8
    let e := arg p 16 5
    let x := s.ddc n
    let fout := (nsOf s src * 100000000 : ℚ) / 2 ^ e
    let y : Ddc := { x with on := true, source := src, e := e, gain := arg p 21 3, freq := arg p 32 48, phase := arg p 80 16 }
    let s1 := ddcSet s n y
    let checks : List (Bool × Nat) := [(!owns s c.session.val 4 n, stBusy), (en && decide (5 < src), stInvalid), (ddcZoomed s n &&
      (if en then src != x.source || e != x.e || decide (zoomLimit < fout) else x.on), stState), (en && decide (e < 1 ∨ 16 < e), stRange), (en &&
      decide (2^47 < arg p 32 48), stRange), (en && decide (ddcRateLimit < fout), stRange), (en && overAdmission s s1, stNoRes)]
    (∀ st, firstFailing checks = some st → ∃ t', exec (.specSetDdc c p) s₀ = .next t' ∧ Refused 0x0403 c st s₀ t') ∧
    (firstFailing checks = none → (argBit p 4 && !(s.ddc (arg p 0 4)).on) = true → s.spec.vcore < 850 → ∃ t',
        exec (.specSetDdc c p) s₀ = .next t' ∧ Waits 0x0403 c ceilingWait [(blk p 2)] [] s s₀ t' ∧ KeptZ c [] s₀ t') ∧
    (firstFailing checks = none → ((argBit p 4 && !(s.ddc (arg p 0 4)).on) && decide (s.spec.vcore < 850)) = false → en = false → 
       let d := drawFree 128 (ddcSet s n { x with on := false })
       ∃ t', exec (.specSetDdc c p) s₀ = .next t' ∧ Answered c (cplOf 0x0403 c 0 2 d.1 s₀) (d.2) t' ∧ KeptZ c [.host, .cmds, .fe, .cal, .spec, .acq,
        .disp, .mon, .tiu, .grove, .mem, .move, .ctl, .flt, .sec, .pwr] s₀ t') ∧
    (firstFailing checks = none → ((argBit p 4 && !(s.ddc (arg p 0 4)).on) && decide (s.spec.vcore < 850)) = false → en = true →
        (s.str src).running = true → ∃ t', exec (.specSetDdc c p) s₀ = .next t' ∧ Answered c (cplOf 0x0403 c 0 2 (pack [(48,
        nextGrain s src % 2^48), (80, grainTime s src (nextGrain s src))]) s₀) s1 t' ∧ KeptZ c [.host, .cmds, .fe, .cal, .spec, .acq, .disp, .mon,
        .tiu, .grove, .mem, .move, .ctl, .flt, .sec, .pwr] s₀ t') ∧
    (firstFailing checks = none → ((argBit p 4 && !(s.ddc (arg p 0 4)).on) && decide (s.spec.vcore < 850)) = false → en = true →
        (s.str src).running = false → 
       let d := drawFree 80 s1
       ∃ t', exec (.specSetDdc c p) s₀ = .next t' ∧ Answered c (cplOf 0x0403 c 0 2 (pack [(48, 0), (80, d.1)]) s₀) (d.2) t' ∧ KeptZ c [.host, .cmds,
        .fe, .cal, .spec, .acq, .disp, .mon, .tiu, .grove, .mem, .move, .ctl, .flt, .sec, .pwr] s₀ t')) ∧
  -- SPEC_TUNE_DDC (R110)
  (Shared 0x0404 2 (fun _ => [(0, 4), (64, 48)]) .specTuneDdc) ∧
  (∀ (c : Cmd) (p : Block) (s₀ : State), zciReady 0x0404 2 (fun _ => [(0, 4), (64, 48)]) c p s₀ = true →
    let s := seen 0x0404 c s₀
    let n := arg p 0 4
    let x := s.ddc n
    let g := max x.next (nextGrain s (16 + n))
    let checks : List (Bool × Nat) := [(!owns s c.session.val 4 n, stBusy), (!x.on, stState), (decide (2^47 < arg p 64 48), stRange)]
    (∀ st, firstFailing checks = some st → ∃ t', exec (.specTuneDdc c p) s₀ = .next t' ∧ Refused 0x0404 c st s₀ t') ∧
    (firstFailing checks = none → (x.live && x.endAt.isNone) = true → ∃ t', exec (.specTuneDdc c p) s₀ = .next t' ∧
        Answered c (cplOf 0x0404 c 0 1 (g % 2^48) s₀) (s.setDdc n (x.retune g (arg p 64 48))) t' ∧ KeptZ c [.spec] s₀ t') ∧
    (firstFailing checks = none → (x.live && x.endAt.isNone) = false → ∃ t', exec (.specTuneDdc c p) s₀ = .next t' ∧
        Answered c (cplOf 0x0404 c 0 1 0 s₀) (s.setDdc n { x with freq := arg p 64 48 }) t' ∧ KeptZ c [.spec] s₀ t')) ∧
  -- SPEC_SET_TRACE (R111)
  (Shared 0x0405 2 (fun _ => [(0, 4), (4, 2), (6, 1), (7, 1), (8, 3), (11, 1), (16, 24), (40, 24), (64, 15), (80, 17), (112, 16)]) .specSetTrace) ∧
  (∀ (c : Cmd) (p : Block) (s₀ : State), zciReady 0x0405 2 (fun _ => [(0, 4), (4, 2), (6, 1), (7, 1), (8, 3), (11, 1), (16, 24), (40, 24), (64, 15), (80, 17), (112, 16)]) c p s₀ = true →
    let s := seen 0x0405 c s₀
    let ln := arg p 0 4
    let id := 4 * ln + arg p 4 2
    let en := argBit p 6
    let h := arg p 112 16
    let P := arg p 64 15
    let s0 := traceOff s id
    let t : Trace := { on := true, single := argBit p 7, det := arg p 8 3, f32 := argBit p 11, firstBin := sarg p 16 24, bins := arg p 40 24, points := P, m := arg p 80 17, ring := h, fromTime := (unitFrom s ln).2 }
    let s1 := s0.setTrace id t
    let checks : List (Bool × Nat) := [(decide (ln < 12) && !ownsLane s c.session.val ln, stBusy), (en && !regOwned s c.session.val h, stBusy),
      (decide (12 ≤ ln), stInvalid), (en && (t.det == 7 || t.bins == 0 || t.m == 0), stInvalid), (en && !isRecRing s h, stInvalid), (oddOfPair s ln,
      stState), (en && !(s.lane ln).on, stState), (en && decide (P < 1024 ∨ 16384 < P ∨ 1048576 < t.bins ∨ 65536 < t.m), stRange), (en &&
      !binsIn s ln t.firstBin t.bins, stRange), (en && decide ((s.reg h).size < recordLen P t.f32), stRange), (en &&
      decide (laneLine ln < laneLoad s1 ln), stNoRes)]
    (∀ st, firstFailing checks = some st → ∃ t', exec (.specSetTrace c p) s₀ = .next t' ∧ Refused 0x0405 c st s₀ t') ∧
    (firstFailing checks = none → (argBit p 6 && !(s.trace (4 * arg p 0 4 + arg p 4 2)).on) = true → s.spec.vcore < 850 → ∃ t',
        exec (.specSetTrace c p) s₀ = .next t' ∧ Waits 0x0405 c ceilingWait [(blk p 2)] [] s s₀ t' ∧ KeptZ c [] s₀ t') ∧
    (firstFailing checks = none → ((argBit p 6 && !(s.trace (4 * arg p 0 4 + arg p 4 2)).on) && decide (s.spec.vcore < 850)) = false → en = true →
        ∃ t', exec (.specSetTrace c p) s₀ = .next t' ∧ Answered c (cplOf 0x0405 c 0 1 (pack [(48, (unitFrom s ln).1 / 256), (16,
        (unitFrom s ln).1 % 256)]) s₀) s1 t' ∧ KeptZ c [.host, .cmds, .fe, .cal, .spec, .acq, .disp, .mon, .tiu, .grove, .mem, .move, .ctl, .flt,
        .sec, .pwr] s₀ t') ∧
    (firstFailing checks = none → ((argBit p 6 && !(s.trace (4 * arg p 0 4 + arg p 4 2)).on) && decide (s.spec.vcore < 850)) = false →
        en = false → ∃ t', exec (.specSetTrace c p) s₀ = .next t' ∧ Answered c (cplOf 0x0405 c 0 1 noIndex s₀) s0 t' ∧ KeptZ c [.host, .cmds, .fe,
        .cal, .spec, .acq, .disp, .mon, .tiu, .grove, .mem, .move, .ctl, .flt, .sec, .pwr] s₀ t')) ∧
  -- SPEC_SET_OUTPUT (R112)
  (Shared 0x0406 2 (fun _ => [(0, 4), (4, 1), (5, 1), (8, 24), (32, 24), (64, 17), (112, 16)]) .specSetOutput) ∧
  (∀ (c : Cmd) (p : Block) (s₀ : State), zciReady 0x0406 2 (fun _ => [(0, 4), (4, 1), (5, 1), (8, 24), (32, 24), (64, 17), (112, 16)]) c p s₀ = true →
    let s := seen 0x0406 c s₀
    let n := c.session.val
    let l := arg p 0 4
    let en := argBit p 4
    let h := arg p 112 16
    let o : SpecOut := { on := true, f32 := argBit p 5, firstBin := sarg p 8 24, bins := arg p 32 24, decim := arg p 64 17, ring := h }
    let s1 := s.setSout l o
    let checks : List (Bool × Nat) := [(decide (l < 12) && !ownsLane s n l, stBusy), (en && !regOwned s n h, stBusy), (decide (12 ≤ l), stInvalid),
      (en && (o.bins == 0 || o.decim == 0), stInvalid), (en && !isRecRing s h, stInvalid), (oddOfPair s l, stState), (en && !(s.lane l).on,
      stState), (en && decide (1048576 < o.bins ∨ 65536 < o.decim), stRange), (en && !binsIn s l o.firstBin o.bins, stRange), (en &&
      decide ((s.reg h).size < recordLen o.bins o.f32), stRange), (en && decide (laneLine l < laneLoad s1 l), stNoRes)]
    (∀ st, firstFailing checks = some st → ∃ t', exec (.specSetOutput c p) s₀ = .next t' ∧ Refused 0x0406 c st s₀ t') ∧
    (firstFailing checks = none → ∃ t', exec (.specSetOutput c p) s₀ = .next t' ∧ Answered c (cplOf 0x0406 c 0 0 0 s₀) (if en then s1
        else s.modSout l (fun x => { x with on := false })) t' ∧ KeptZ c [.spec] s₀ t')) ∧
  -- SPEC_GET_STATUS (R113)
  (Shared 0x0407 1 (fun _ => [(0, 4), (8, 1)]) .specGetStatus) ∧
  (∀ (c : Cmd) (p : Block) (s₀ : State), zciReady 0x0407 1 (fun _ => [(0, 4), (8, 1)]) c p s₀ = true →
    let s := seen 0x0407 c s₀
    let l := arg p 0 4
    let paired := decide (l < 4) && s.pairMode (l / 2)
    let k := if paired then l / 2 * 2 else l
    let x := s.lane k
    let checks : List (Bool × Nat) := [(decide (12 ≤ l), stInvalid)]
    (∀ st, firstFailing checks = some st → ∃ t', exec (.specGetStatus c p) s₀ = .next t' ∧ Refused 0x0407 c st s₀ t') ∧
    (firstFailing checks = none → ∃ t', exec (.specGetStatus c p) s₀ = .next t' ∧ Answered c (cplOf 0x0407 c 0 4 (pack [(1, b2n x.on), (1,
        b2n paired), (2, ovlEff s k), (4, s.spec.shed), (8, if x.on then x.run.source else 0xFF), (5, x.run.log2n), (11, 0), (16, x.margin), (16,
        s.spec.vcore), (32, x.spectra), (32, if x.run.log2n = 0 then 0 else laneN s k + hopEff s k), (48, x.res.idx), (32, x.gapCount), (16,
        if x.on then laneDemand s k else 0), (32, 0)]) s₀) (if argBit p 8 then s.setLane k { x with gapCount := 0 } else s) t' ∧
        KeptZ c [.spec] s₀ t')) ∧
  -- SPEC_SET_GOVERNOR (R106)
  (Shared 0x0408 1 (fun _ => [(0, 1)]) .specSetGovernor) ∧
  (∀ (c : Cmd) (p : Block) (s₀ : State), zciReady 0x0408 1 (fun _ => [(0, 1)]) c p s₀ = true →
    let s := seen 0x0408 c s₀
    ∃ t', exec (.specSetGovernor c p) s₀ = .next t' ∧
        Answered c (cplOf 0x0408 c 0 0 0 s₀) ({ s with spec := { s.spec with holds := tput false s.spec.holds c.session.val (argBit p 0) } }) t' ∧
        KeptZ c [.spec] s₀ t')

/-- ACQ commands that configure terms, combiner, capture, masks, tests and EVT_OUT. Derived from the rules named at each
clause; the model's own choices in it are those of log entries 8, 12, 16, 31, 32. -/
def Obligations.AcquisitionSetCommands : Prop :=
  -- ACQ_SET_TERM (R152)
  (Shared 0x0501 4 (fun b => termFields (fld b 8 4)) .acqSetTerm) ∧
  (∀ (c : Cmd) (p : Block) (s₀ : State), zciReady 0x0501 4 (fun b => termFields (fld b 8 4)) c p s₀ = true →
    let s := seen 0x0501 c s₀
    let n := c.session.val
    let a := arg p 0 3
    let k := 8 * a + arg p 3 3
    let en := argBit p 6
    let ty := arg p 8 4
    let checks : List (Bool × Nat) := [(!ownsAu s n a || (en && termUnowned s n ty (blk p 4)), stBusy), (en && termInvalid ty (blk p 4), stInvalid),
      (auLocked s a || (en && ty == 4 && oddOfPair s (arg p 32 4)) || (en && ty == 6 && (s.tiuIn (arg p 32 3)).prescale != 0), stState), (en &&
      ty == 4 && slotTaken s k (blk p 4), stBusy), (en && termFar ty (blk p 4), stRange)]
    (∀ st, firstFailing checks = some st → ∃ t', exec (.acqSetTerm c p) s₀ = .next t' ∧ Refused 0x0501 c st s₀ t') ∧
    (firstFailing checks = none → ∃ t', exec (.acqSetTerm c p) s₀ = .next t' ∧
        Answered c (cplOf 0x0501 c 0 0 0 s₀) (if en then s.setTerm k { on := true, ty := ty, inhibit := arg p 12 6, p := (blk p 4) }
        else s.modTerm k (fun x => { x with on := false })) t' ∧ KeptZ c [.acq] s₀ t')) ∧
  -- ACQ_SET_COMBINER (R153)
  (Shared 0x0502 2 (fun _ => [(0, 3), (8, 2), (16, 8), (32, 32), (64, 32), (96, 4)]) .acqSetCombiner) ∧
  (∀ (c : Cmd) (p : Block) (s₀ : State), zciReady 0x0502 2 (fun _ => [(0, 3), (8, 2), (16, 8), (32, 32), (64, 32), (96, 4)]) c p s₀ = true →
    let s := seen 0x0502 c s₀
    let a := arg p 0 3
    let m := arg p 8 2
    let r := arg p 96 4
    let checks : List (Bool × Nat) := [(!ownsAu s c.session.val a, stBusy), (m == 3, stInvalid), (arg p 16 8 == 0, stInvalid), (m == 1 &&
      arg p 32 32 == 0, stInvalid), (m == 2 && r != 15 && (decide (7 < r) || bit (arg p 16 8) r), stInvalid), (auLocked s a, stState)]
    (∀ st, firstFailing checks = some st → ∃ t', exec (.acqSetCombiner c p) s₀ = .next t' ∧ Refused 0x0502 c st s₀ t') ∧
    (firstFailing checks = none → ∃ t', exec (.acqSetCombiner c p) s₀ = .next t' ∧
        Answered c (cplOf 0x0502 c 0 0 0 s₀) (s.modAu a (fun u => { u with mode := m, terms := arg p 16 8, win := arg p 32 32, holdoff := arg p 64 32, resetT := if m = 2 then r else 15 })) t' ∧
        KeptZ c [.acq] s₀ t')) ∧
  -- ACQ_SET_CAPTURE (R154)
  (Shared 0x0503 6 captureFields .acqSetCapture) ∧
  (∀ (c : Cmd) (p : Block) (s₀ : State), zciReady 0x0503 6 captureFields c p s₀ = true →
    let s := seen 0x0503 c s₀
    let n := c.session.val
    let a := arg p 0 3
    let es := captureEntries (blk p 6)
    let m := arg p 8 2
    let checks : List (Bool × Nat) := [(!ownsAu s n a || es.any (fun e => !regOwned s n e.2), stBusy), (m == 3, stInvalid), (arg p 16 3 == 0,
      stInvalid), (arg p 128 17 == 0 || (m != 1 && arg p 128 17 != 1), stInvalid), (es.any (fun e => !streamId e.1), stInvalid),
      (es.any (fun e => !isCapRing s e.2), stInvalid), (auLocked s a, stState), (decide (4 < arg p 16 3 ∨ 65536 < arg p 128 17), stRange)]
    (∀ st, firstFailing checks = some st → ∃ t', exec (.acqSetCapture c p) s₀ = .next t' ∧ Refused 0x0503 c st s₀ t') ∧
    (firstFailing checks = none → ∃ t', exec (.acqSetCapture c p) s₀ = .next t' ∧
        Answered c (cplOf 0x0503 c 0 0 0 s₀) (s.modAu a (fun u => { u with capSet := true, capMode := m, prefill := argBit p 10, pre := arg p 32 40, post := arg p 72 40, segments := arg p 128 17, entries := es.map (fun e => { stream := e.1, ring := e.2, bytes := if e.1 < 16 then 392 else 1032 }) })) t' ∧
        KeptZ c [.acq] s₀ t')) ∧
  -- ACQ_LOAD_MASK (R156)
  (∀ (data : List Nat), Shared 0x0507 2 (fun _ => [(0, 17), (32, 18), (64, 64)]) (fun c p => .acqLoadMask c p data)) ∧
  (∀ (c : Cmd) (p : Block) (data : List Nat) (s₀ : State), zciReady 0x0507 2 (fun _ => [(0, 17), (32, 18), (64, 64)]) c p s₀ = true →
    let s := seen 0x0507 c s₀
    let base := arg p 0 17
    let n := arg p 32 18
    let ws := (List.range (min n 131072)).map (fun i => data.getD i 0)
    let checks : List (Bool × Nat) := [(arg p 64 64 % 8 != 0, stInvalid), ((bpRanges s).any (fun r => decide (r.1 < base + n ∧ base < r.1 + r.2)),
      stState), (decide (n < 1 ∨ 131072 < base + n), stRange), (ws.any (fun w => fld w 49 15 != 0), stInvalid)]
    (∀ st, firstFailing checks = some st → ∃ t', exec (.acqLoadMask c p data) s₀ = .next t' ∧ Refused 0x0507 c st s₀ t') ∧
    (firstFailing checks = none → ∃ t', exec (.acqLoadMask c p data) s₀ = .next t' ∧
        Answered c (cplOf 0x0507 c 0 0 0 s₀) ({ s with acq := { s.acq with table := (ws.zipIdx).foldl (fun t x => tput {} t (base + x.2) (bpOf x.1)) s.acq.table } }) t' ∧
        KeptZ c [.acq] s₀ t')) ∧
  -- ACQ_SET_MASK (R130)
  (Shared 0x0508 4 (fun _ => [(0, 4), (4, 2), (6, 1), (7, 1), (8, 1), (9, 1), (16, 17), (48, 18), (72, 9), (88, 9), (104, 16), (128, 48), (176, 8)]) .acqSetMask) ∧
  (∀ (c : Cmd) (p : Block) (s₀ : State), zciReady 0x0508 4 (fun _ => [(0, 4), (4, 2), (6, 1), (7, 1), (8, 1), (9, 1), (16, 17), (48, 18), (72, 9), (88, 9), (104, 16), (128, 48), (176, 8)]) c p s₀ = true →
    let s := seen 0x0508 c s₀
    let l := arg p 0 4
    let i := 4 * l + arg p 4 2
    let en := argBit p 6
    let m : Mask := { on := true, test := argBit p 7, lower := argBit p 8, tpoint := argBit p 9, base := arg p 16 17, count := arg p 48 18, nq := arg p 72 9, mq := arg p 88 9, vbins := arg p 104 16 }
    let auto := arg p 176 8 == 0xFF
    let st := if auto then (s.lane l).run.source else arg p 176 8
    let from_ := stampOf (s.now + 3200)
    let g := if auto then grainFrom s st from_ else (s.epoch st).ep0 + arg p 128 48
    let checks : List (Bool × Nat) := [(decide (l < 12) && !ownsLane s c.session.val l, stBusy), (decide (12 ≤ l), stInvalid), (en && m.vbins == 0,
      stInvalid), (!auto && !streamId st, stInvalid), (en && decide (m.base + m.count ≤ 131072) && !posRises (maskBps s m.base m.count), stInvalid),
      (oddOfPair s l, stState), (!strRuns s st, stState), ((s.maskS i).pend.isSome, stState), (en && (m.count == 0 ||
      decide (131072 < m.base + m.count) || m.mq == 0 || decide (256 < m.mq) || m.nq == 0 || decide (m.mq < m.nq)), stRange),
      (decide (grainTime s st g < from_), stRange)]
    (∀ st, firstFailing checks = some st → ∃ t', exec (.acqSetMask c p) s₀ = .next t' ∧ Refused 0x0508 c st s₀ t') ∧
    (firstFailing checks = none → ∃ t', exec (.acqSetMask c p) s₀ = .next t' ∧ Answered c (cplOf 0x0508 c 0 3 (pack [(48, g % 2^48), (8, st), (8,
        0), (80, grainTime s st g), (48,
        0)]) s₀) (s.modMaskS i (fun x => { x with pend := some (if en then m else { x.cur with on := false }), pendT := grainTime s st g, pendS := st, pendI := g % 2^48 })) t' ∧
        KeptZ c [.acq] s₀ t')) ∧
  -- ACQ_SET_TEST (R158)
  (Shared 0x0509 4 (fun _ => [(0, 3), (3, 1), (4, 1), (5, 1), (6, 1), (8, 8), (16, 4), (20, 2), (32, 17), (64, 18), (96, 17), (128, 18)]) .acqSetTest) ∧
  (∀ (c : Cmd) (p : Block) (s₀ : State), zciReady 0x0509 4 (fun _ => [(0, 3), (3, 1), (4, 1), (5, 1), (6, 1), (8, 8), (16, 4), (20, 2), (32, 17), (64, 18), (96, 17), (128, 18)]) c p s₀ = true →
    let s := seen 0x0509 c s₀
    let n := c.session.val
    let a := arg p 0 3
    let k := 2 * a + arg p 3 1
    let en := argBit p 4
    let fr := argBit p 5
    let l := arg p 16 4
    let i := 4 * l + arg p 20 2
    let t : Test := { on := true, freq := fr, stop := argBit p 6, stream := arg p 8 8, lane := l, slot := arg p 20 2, ubase := arg p 32 17, ucount := arg p 64 18, lbase := arg p 96 17, lcount := arg p 128 18 }
    let bps := maskBps s t.ubase t.ucount ++ maskBps s t.lbase t.lcount
    let checks : List (Bool × Nat) := [(!ownsAu s n a || (en && fr && decide (l < 12) && !ownsLane s n l), stBusy), (en && fr && decide (12 ≤ l),
      stInvalid), (en && fr && (!(slotConfig s i).on || !(slotConfig s i).test), stInvalid), (en && !fr &&
      !(s.au a).entries.any (fun e => e.stream == t.stream), stInvalid), (en && !fr && t.ucount == 0 && t.lcount == 0, stInvalid), (en && !fr &&
      decide (t.ubase + t.ucount ≤ 131072 ∧ t.lbase + t.lcount ≤ 131072) && !(posRises (maskBps s t.ubase t.ucount) &&
      posRises (maskBps s t.lbase t.lcount)), stInvalid), (auLocked s a || (en && fr && oddOfPair s l), stState), (en && fr &&
      (List.range 16).any (fun j => j != k && (s.tst j).on && (s.tst j).freq && (s.tst j).lane == l && (s.tst j).slot == t.slot), stBusy), (en &&
      !fr && decide (131072 < t.ubase + t.ucount ∨ 131072 < t.lbase + t.lcount), stRange), (en && !fr &&
      bps.any (fun x => decide (x.level < -2048 ∨ 2047 < x.level)), stRange)]
    (∀ st, firstFailing checks = some st → ∃ t', exec (.acqSetTest c p) s₀ = .next t' ∧ Refused 0x0509 c st s₀ t') ∧
    (firstFailing checks = none → ∃ t', exec (.acqSetTest c p) s₀ = .next t' ∧
        Answered c (cplOf 0x0509 c 0 0 0 s₀) (if !en then s.modTst k (fun x => { x with on := false })
        else if fr then (s.setTst k t).modMaskS i (fun m => { m with hist := [] }) else s.setTst k t) t' ∧ KeptZ c [.acq] s₀ t')) ∧
  -- ACQ_SET_EVT_OUT (R159)
  (Shared 0x050A 2 (fun _ => [(0, 2), (2, 1), (3, 1), (4, 3), (7, 1), (8, 3), (11, 3), (16, 1), (32, 32), (64, 32)]) .acqSetEvtOut) ∧
  (∀ (c : Cmd) (p : Block) (s₀ : State), zciReady 0x050A 2 (fun _ => [(0, 2), (2, 1), (3, 1), (4, 3), (7, 1), (8, 3), (11, 3), (16, 1), (32, 32), (64, 32)]) c p s₀ = true →
    let s := seen 0x050A c s₀
    let n := arg p 0 2
    let en := argBit p 2
    let x : EvtOut := { on := true, pol := argBit p 3, source := arg p 4 3, retrig := argBit p 7, au := arg p 8 3, index := arg p 11 3, fixed := argBit p 16, width := arg p 32 32, delay := arg p 64 32 }
    let old := s.pin n
    let checks : List (Bool × Nat) := [(!owns s c.session.val 8 n, stBusy), (en && decide (4 < x.source), stInvalid), (en && (x.source == 2 ||
      x.source == 4) && x.fixed, stInvalid), ((old.on && pinUnitRuns s old.source old.au) || (en && pinUnitRuns s x.source x.au), stState), (en &&
      x.source == 3 && decide (1 < x.index), stRange), (en && pulseSource x.source && decide (x.width < 16), stRange)]
    (∀ st, firstFailing checks = some st → ∃ t', exec (.acqSetEvtOut c p) s₀ = .next t' ∧ Refused 0x050A c st s₀ t') ∧
    (firstFailing checks = none → ∃ t', exec (.acqSetEvtOut c p) s₀ = .next t' ∧
        Answered c (cplOf 0x050A c 0 0 0 s₀) (drivePin (s.setPin n (if en then x else {})) n) t' ∧ KeptZ c [.acq] s₀ t'))

/-- ACQ commands that arm, stop and force an acquisition unit, and its status. Derived from the rules named at each
clause; the model's own choices in it are those of log entries 12, 16, 17, 31, 47. -/
def Obligations.AcquisitionRunCommands : Prop :=
  -- ACQ_ARM (R143)
  (Shared 0x0504 2 (fun _ => [(0, 3), (64, 64)]) .acqArm) ∧
  (∀ (c : Cmd) (p : Block) (s₀ : State), zciReady 0x0504 2 (fun _ => [(0, 3), (64, 64)]) c p s₀ = true →
    let s := seen 0x0504 c s₀
    let n := c.session.val
    let a := arg p 0 3
    let at_ := arg p 64 64
    let u := sizedUnit s a
    let t := s.setAu a { u with st := 2 }
    let checks : List (Bool × Nat) := [(auLocked s a, stState), (!ownsAu s n a || u.entries.any (fun e => !regOwned s n e.ring) || ringsTaken s a,
      stBusy), ((unitTerms s a).isEmpty || !u.capSet || u.entries.any (fun e => !isCapRing s e.ring), stInvalid), (u.capMode == 2 && [0,
      1].any (fun k => (s.tst (2 * a + k)).on && !(s.tst (2 * a + k)).freq), stInvalid), (streamsStopped s a, stState),
      (u.entries.any (fun e => !e.fits s u), stRange), (delayShort s a, stRange), (tickBad s at_, stRange),
      (decide (rawLimit < rawLoad t ∨ ddcLimit < ddcLoad t), stNoRes)]
    (∀ st, firstFailing checks = some st → ∃ t', exec (.acqArm c p) s₀ = .next t' ∧ Refused 0x0504 c st s₀ t') ∧
    (firstFailing checks = none → at_ = 0 → ∃ t', exec (.acqArm c p) s₀ = .next t' ∧
        Answered c (cplOf 0x0504 c 0 4 (armResult (armNow s a) a) s₀) (armNow s a) t' ∧ KeptZ c [.fe, .acq] s₀ t') ∧
    (firstFailing checks = none → at_ ≠ 0 → ∃ t', exec (.acqArm c p) s₀ = .next t' ∧
        Waits 0x0504 c a [at_] (u.entries.map (·.ring)) (s.modAu a (fun u => { u with armAt := some at_ })) s₀ t' ∧ KeptZ c [.acq] s₀ t')) ∧
  -- ACQ_STOP (R141)
  (Shared 0x0505 1 (fun _ => [(0, 3)]) .acqStop) ∧
  (∀ (c : Cmd) (p : Block) (s₀ : State), zciReady 0x0505 1 (fun _ => [(0, 3)]) c p s₀ = true →
    let s := seen 0x0505 c s₀
    let a := arg p 0 3
    let u := s.au a
    let checks : List (Bool × Nat) := [(!ownsAu s c.session.val a, stBusy), (!u.runs || (u.capMode == 2 && u.st == 3), stState)]
    (∀ st, firstFailing checks = some st → ∃ t', exec (.acqStop c p) s₀ = .next t' ∧ Refused 0x0505 c st s₀ t') ∧
    (firstFailing checks = none → ∃ t', exec (.acqStop c p) s₀ = .next t' ∧
        Answered c (cplOf 0x0505 c 0 0 0 s₀) (if u.capMode = 2 then stopPoint s a (stampOf s.now) true else if u.st = 3 then cutSegment s a
        else acqEnd s a 5) t' ∧ KeptZ c [.acq, .mem, .move] s₀ t')) ∧
  -- ACQ_FORCE (R142)
  (Shared 0x0506 1 (fun _ => [(0, 3)]) .acqForce) ∧
  (∀ (c : Cmd) (p : Block) (s₀ : State), zciReady 0x0506 1 (fun _ => [(0, 3)]) c p s₀ = true →
    let s := seen 0x0506 c s₀
    let a := arg p 0 3
    let u := s.au a
    let e := u.entries.headD {}
    let T := e.ep.time (256 * max e.first (e.ep.grainAt s.now))
    let checks : List (Bool × Nat) := [(!ownsAu s c.session.val a, stBusy), (u.st != 1 && u.st != 2, stState)]
    (∀ st, firstFailing checks = some st → ∃ t', exec (.acqForce c p) s₀ = .next t' ∧ Refused 0x0506 c st s₀ t') ∧
    (firstFailing checks = none → ∃ t', exec (.acqForce c p) s₀ = .next t' ∧
        Answered c (cplOf 0x0506 c 0 2 T s₀) (acceptTrigger s a T 0 true) t' ∧ KeptZ c [.host, .cmds, .fe, .cal, .spec, .acq, .disp, .mon, .tiu,
        .grove, .mem, .move, .ctl, .flt, .sec, .pwr] s₀ t')) ∧
  -- ACQ_GET_STATUS (R160)
  (Shared 0x050B 1 (fun _ => [(0, 3), (8, 1)]) .acqGetStatus) ∧
  (∀ (c : Cmd) (p : Block) (s₀ : State), zciReady 0x050B 1 (fun _ => [(0, 3), (8, 1)]) c p s₀ = true →
    let s := seen 0x050B c s₀
    let a := arg p 0 3
    let u := s.au a
    ∃ t', exec (.acqGetStatus c p) s₀ = .next t' ∧ Answered c (cplOf 0x050B c 0 6 (pack [(3, u.st), (5, 0), (17, u.segDone), (7, 0), (32,
        u.triggers), (32, u.missed), (32, u.ftested), (32, u.ffailed), (32, u.viol), (80, u.lastTrig), (16, u.evtDrop), (96,
        0)]) s₀) (if argBit p 8 then s.setAu a { u with missed := 0, evtDrop := 0 } else s) t' ∧ KeptZ c [.acq] s₀ t')

/-- DENS and DISP commands: maps, pigments, modes, layers, events, Fallow, AUX, status. Derived from the rules named at
each clause; the model's own choices in it are those of log entries 8, 16, 40, 41, 53. -/
def Obligations.DensityAndDisplayCommands : Prop :=
  -- DENS_SET_MAP (R172)
  (Shared 0x0601 4 (fun _ => [(0, 2), (2, 1), (3, 1), (8, 4), (16, 6), (32, 24), (56, 24), (80, 16), (96, 12), (112, 17), (144, 16)]) .densSetMap) ∧
  (∀ (c : Cmd) (p : Block) (s₀ : State), zciReady 0x0601 4 (fun _ => [(0, 2), (2, 1), (3, 1), (8, 4), (16, 6), (32, 24), (56, 24), (80, 16), (96, 12), (112, 17), (144, 16)]) c p s₀ = true →
    let s := seen 0x0601 c s₀
    let i := arg p 0 2
    let en := argBit p 2
    let m := s.dmap i
    let n := m.config (blk p 4)
    let checks : List (Bool × Nat) := [(!owns s c.session.val 0x0B i, stBusy), (en && decide (12 ≤ n.lane), stInvalid), (en && (n.bins == 0 ||
      n.step == 0 || n.dec == 0), stInvalid), (en && (oddOfPair s n.lane || !(s.lane n.lane).on), stState), (densTermed s i, stState), (en &&
      decide (1048576 < n.bins ∨ 65536 < n.dec ∨ 60000 < n.halfLife), stRange), (en && !binsIn s n.lane n.firstBin n.bins, stRange), (en &&
      decide (densLimit < densRate s n), stNoRes)]
    (∀ st, firstFailing checks = some st → ∃ t', exec (.densSetMap c p) s₀ = .next t' ∧ Refused 0x0601 c st s₀ t') ∧
    (firstFailing checks = none → (argBit p 2 && !(s.dmap (arg p 0 2)).on) = true → s.spec.vcore < 850 → ∃ t',
        exec (.densSetMap c p) s₀ = .next t' ∧ Waits 0x0601 c ceilingWait [(blk p 4)] [] s s₀ t' ∧ KeptZ c [] s₀ t') ∧
    (firstFailing checks = none → ((argBit p 2 && !(s.dmap (arg p 0 2)).on) && decide (s.spec.vcore < 850)) = false → en = false →
        argBit p 3 = true → ∃ t', exec (.densSetMap c p) s₀ = .next t' ∧
        Waits 0x0601 c i [] [] (s.setDmap i ({ m with on := false }.cleared (decEff s { m with on := false }))) s₀ t' ∧ KeptZ c [.disp] s₀ t') ∧
    (firstFailing checks = none → ((argBit p 2 && !(s.dmap (arg p 0 2)).on) && decide (s.spec.vcore < 850)) = false → en = false →
        argBit p 3 = false → ∃ t', exec (.densSetMap c p) s₀ = .next t' ∧
        Answered c (cplOf 0x0601 c 0 2 noIndex s₀) (finishAll (finishAll (s.setDmap i { m with on := false }) 0x0602 i 0 1 noIndex) 0x0601 i 0 2 noIndex) t' ∧
        KeptZ c [.cmds, .disp] s₀ t') ∧
    (firstFailing checks = none → ((argBit p 2 && !(s.dmap (arg p 0 2)).on) && decide (s.spec.vcore < 850)) = false → en = true →
        m.clears n (blk p 4) = true → ∃ t', exec (.densSetMap c p) s₀ = .next t' ∧
        Waits 0x0601 c i [] [] (s.setDmap i (n.cleared (decEff s n))) s₀ t' ∧ KeptZ c [.disp] s₀ t') ∧
    (firstFailing checks = none → ((argBit p 2 && !(s.dmap (arg p 0 2)).on) && decide (s.spec.vcore < 850)) = false → en = true →
        m.clears n (blk p 4) = false → (m.clearing || densRuns s n) = true → ∃ t', exec (.densSetMap c p) s₀ = .next t' ∧
        Waits 0x0601 c i [] [] (s.setDmap i n) s₀ t' ∧ KeptZ c [.disp] s₀ t') ∧
    (firstFailing checks = none → ((argBit p 2 && !(s.dmap (arg p 0 2)).on) && decide (s.spec.vcore < 850)) = false → en = true →
        m.clears n (blk p 4) = false → (m.clearing || densRuns s n) = false → ∃ t', exec (.densSetMap c p) s₀ = .next t' ∧
        Answered c (cplOf 0x0601 c 0 2 noIndex s₀) (s.setDmap i n) t' ∧ KeptZ c [.disp] s₀ t')) ∧
  -- DENS_CLEAR (R170)
  (Shared 0x0602 1 (fun _ => [(0, 2)]) .densClear) ∧
  (∀ (c : Cmd) (p : Block) (s₀ : State), zciReady 0x0602 1 (fun _ => [(0, 2)]) c p s₀ = true →
    let s := seen 0x0602 c s₀
    let i := arg p 0 2
    let checks : List (Bool × Nat) := [(!owns s c.session.val 0x0B i, stBusy), ((s.dmap i).reading, stState)]
    (∀ st, firstFailing checks = some st → ∃ t', exec (.densClear c p) s₀ = .next t' ∧ Refused 0x0602 c st s₀ t') ∧
    (firstFailing checks = none → ∃ t', exec (.densClear c p) s₀ = .next t' ∧
        Waits 0x0602 c i [] [] (s.modDmap i (fun m => m.cleared (decEff s m))) s₀ t' ∧ KeptZ c [.disp] s₀ t')) ∧
  -- DENS_READ (R171)
  (Shared 0x0603 2 (fun _ => [(0, 2), (2, 1), (16, 16), (64, 64)]) .densRead) ∧
  (∀ (c : Cmd) (p : Block) (s₀ : State), zciReady 0x0603 2 (fun _ => [(0, 2), (2, 1), (16, 16), (64, 64)]) c p s₀ = true →
    let s := seen 0x0603 c s₀
    let i := arg p 0 2
    let h := arg p 16 16
    let off := arg p 64 64
    let m := s.dmap i
    let checks : List (Bool × Nat) := [(!owns s c.session.val 0x0B i || !regOwned s c.session.val h, stBusy), (off % 64 != 0, stInvalid),
      (m.reading, stState), (regPast s h off densCopySize, stRange)]
    (∀ st, firstFailing checks = some st → ∃ t', exec (.densRead c p) s₀ = .next t' ∧ Refused 0x0603 c st s₀ t') ∧
    (firstFailing checks = none → ∃ t', exec (.densRead c p) s₀ = .next t' ∧ Waits 0x0603 c i [h,
        off] [h] (s.setDmap i { m with reading := true, freeze := argBit p 2, rdLast := m.last, held := 0 }) s₀ t' ∧ KeptZ c [.disp] s₀ t')) ∧
  -- DENS_SET_PIGMENT (R174)
  (∀ (data : List Nat), Shared 0x0604 4 (fun _ => [(0, 2), (2, 2), (4, 1), (32, 32), (64, 32), (128, 64)]) (fun c p => .densSetPigment c p data)) ∧
  (∀ (c : Cmd) (p : Block) (data : List Nat) (s₀ : State), zciReady 0x0604 4 (fun _ => [(0, 2), (2, 2), (4, 1), (32, 32), (64, 32), (128, 64)]) c p s₀ = true →
    let s := seen 0x0604 c s₀
    let i := arg p 0 2
    let x := s.pigm i
    let ents := if argBit p 4 then some ((List.range 1024).map (fun k => data.getD k 0)) else x.lastEnts
    let checks : List (Bool × Nat) := [(!owns s c.session.val 0x0C i, stBusy), (arg p 2 2 == 3, stInvalid), (decide (arg p 64 32 ≤ arg p 32 32),
      stInvalid), (argBit p 4 && arg p 128 64 % 4 != 0, stInvalid)]
    (∀ st, firstFailing checks = some st → ∃ t', exec (.densSetPigment c p data) s₀ = .next t' ∧ Refused 0x0604 c st s₀ t') ∧
    (firstFailing checks = none → ∃ t', exec (.densSetPigment c p data) s₀ = .next t' ∧
        Answered c (cplOf 0x0604 c 0 0 0 s₀) (s.setPigm i { x with pend := x.pend ++ [(s.now, arg p 2 2, arg p 32 32, arg p 64 32, ents)] }) t' ∧
        KeptZ c [.disp] s₀ t')) ∧
  -- DENS_GET_STATUS (R203)
  (Shared 0x060B 1 (fun _ => [(0, 2), (8, 1)]) .densGetStatus) ∧
  (∀ (c : Cmd) (p : Block) (s₀ : State), zciReady 0x060B 1 (fun _ => [(0, 2), (8, 1)]) c p s₀ = true →
    let s := seen 0x060B c s₀
    let i := arg p 0 2
    let m := s.dmap i
    let u := if m.on then densRate s m else 0
    ∃ t', exec (.densGetStatus c p) s₀ = .next t' ∧ Answered c (cplOf 0x060B c 0 4 (pack [(1, b2n m.on), (1, b2n m.sat), (1, b2n m.reading), (5,
        0), (4, m.lane), (4, 0), (20, decEff s m), (28, 0), (64, m.spectra), (32, m.skipped), (32, (roundEven u.num u.den).toNat), (48, m.last),
        (16, 0)]) s₀) (if argBit p 8 then s.setDmap i { m with skipped := 0 } else s) t' ∧ KeptZ c [.disp] s₀ t') ∧
  -- DISP_SET_MODE (R179)
  (Shared 0x0605 2 (fun _ => [(0, 1), (8, 4), (16, 1), (20, 2), (32, 10)]) .dispSetMode) ∧
  (∀ (c : Cmd) (p : Block) (s₀ : State), zciReady 0x0605 2 (fun _ => [(0, 1), (8, 4), (16, 1), (20, 2), (32, 10)]) c p s₀ = true →
    let s := seen 0x0605 c s₀
    let n := c.session.val
    let k := arg p 0 1
    let m := arg p 8 4
    let bpc := argBit p 16
    let mr := arg p 20 2
    let split := splitMode m
    let ps := if split || (s.port 0).split then [0, 1] else [k]
    let mode := fun q => if split then m else if q = 0 || !(s.port 0).split then m else 0xF
    let checks : List (Bool × Nat) := [(!(if split then owns s n 0x0D 0 && owns s n 0x0D 1 else owns s n 0x0D k), stBusy), (!modeKnown m,
      stInvalid), (split && k == 1, stInvalid), (k == 1 && (s.port 0).split, stState), (ps.any (fun q => (s.port q).phase != 0 ||
      (s.port q).enterFallow != 0 || (s.port q).exitFallow != 0), stBusy), (decide (1000 < arg p 32 10), stRange), (m != 0xF &&
      (rateFor m bpc mr).isNone, stRange)]
    (∀ st, firstFailing checks = some st → ∃ t', exec (.dispSetMode c p) s₀ = .next t' ∧ Refused 0x0605 c st s₀ t') ∧
    (firstFailing checks = none → m = 0xF → ps.all (fun q => (s.port q).idle) = true → ∃ t', exec (.dispSetMode c p) s₀ = .next t' ∧
        Answered c (cplOf 0x0605 c 0 1 0 s₀) s t' ∧ KeptZ c [] s₀ t') ∧
    (firstFailing checks = none → ¬(m = 0xF ∧ ps.all (fun q => (s.port q).idle) = true) → ∃ t', exec (.dispSetMode c p) s₀ = .next t' ∧
        Waits 0x0605 c k [] [] (powerOn (ps.foldl (fun a q => beginMode a q (mode q) bpc mr (arg p 32 10)) s) ps) s₀ t' ∧ KeptZ c [.disp] s₀ t')) ∧
  -- DISP_SET_LAYER (R187)
  (Shared 0x0606 4 (fun b => layerFields (fld b 1 2)) .dispSetLayer) ∧
  (∀ (c : Cmd) (p : Block) (s₀ : State), zciReady 0x0606 4 (fun b => layerFields (fld b 1 2)) c p s₀ = true →
    let s := seen 0x0606 c s₀
    let n := c.session.val
    let k := arg p 0 1
    let j := arg p 1 2
    let en := argBit p 3
    let x := s.port k
    let h := arg p 16 16
    let old := x.lastSet j
    let l : Layer := if en then { on := true, p := (blk p 4), region := if j = 0 then noHandle else h }
      else { old with on := false, region := noHandle }
    let at_ := commitAt x s.now
    let checks : List (Bool × Nat) := [(!owns s n 0x0D k || (en && j != 0 && !regOwned s n h), stBusy), (en && j == 0 && (arg p 48 16 == 0 ||
      arg p 64 16 == 0), stInvalid), (en && (j == 1 || j == 2) && l.stride % 64 != 0, stInvalid), (en && j != 0 && l.offset % 64 != 0, stInvalid),
      (splitDp1 s k, stState), (x.mode == 0xF, stState), (en && j != 0 && freeDeferred s h, stState), (en && j == 0 && !viewOk l x.mode, stRange),
      (en && j != 0 && decide ((s.reg h).size < layerEnd j l x.mode), stRange)]
    (∀ st, firstFailing checks = some st → ∃ t', exec (.dispSetLayer c p) s₀ = .next t' ∧ Refused 0x0606 c st s₀ t') ∧
    (firstFailing checks = none → ∃ t', exec (.dispSetLayer c p) s₀ = .next t' ∧ Answered c (cplOf 0x0606 c 0 1 (pack [(32, at_.1), (16,
        at_.2)]) s₀) (s.setPort k { x with pend := x.pend ++ [(s.now, j, l)] }) t' ∧ KeptZ c [.disp] s₀ t')) ∧
  -- DISP_SET_EVENTS (R199)
  (Shared 0x0607 1 (fun _ => [(0, 1), (4, 1), (5, 1), (6, 1), (16, 16)]) .dispSetEvents) ∧
  (∀ (c : Cmd) (p : Block) (s₀ : State), zciReady 0x0607 1 (fun _ => [(0, 1), (4, 1), (5, 1), (6, 1), (16, 16)]) c p s₀ = true →
    let s := seen 0x0607 c s₀
    let k := arg p 0 1
    let x := s.port k
    let checks : List (Bool × Nat) := [(!owns s c.session.val 0x0D k, stBusy), (splitDp1 s k, stState), (x.mode == 0xF, stState),
      (decide (vTotal x.mode ≤ arg p 16 16), stRange)]
    (∀ st, firstFailing checks = some st → ∃ t', exec (.dispSetEvents c p) s₀ = .next t' ∧ Refused 0x0607 c st s₀ t') ∧
    (firstFailing checks = none → ∃ t', exec (.dispSetEvents c p) s₀ = .next t' ∧
        Answered c (cplOf 0x0607 c 0 0 0 s₀) (s.setPort k { x with evVblank := argBit p 4, evLine := argBit p 5, evFrame := argBit p 6, lmatch := arg p 16 16 }) t' ∧
        KeptZ c [.disp] s₀ t')) ∧
  -- DISP_FALLOW (R200)
  (Shared 0x0608 1 (fun _ => [(0, 1), (1, 1)]) .dispFallow) ∧
  (∀ (c : Cmd) (p : Block) (s₀ : State), zciReady 0x0608 1 (fun _ => [(0, 1), (1, 1)]) c p s₀ = true →
    let s := seen 0x0608 c s₀
    let k := arg p 0 1
    let en := argBit p 1
    let x := s.port k
    let ps := if x.split then [0, 1] else [k]
    let checks : List (Bool × Nat) := [(!owns s c.session.val 0x0D k, stBusy), (splitDp1 s k, stState), (en && x.mode == 0xF, stState),
      (x.phase != 0 || x.enterFallow != 0 || x.exitFallow != 0, stBusy), (en && !x.fallow && !x.psrCap, stUnsup)]
    (∀ st, firstFailing checks = some st → ∃ t', exec (.dispFallow c p) s₀ = .next t' ∧ Refused 0x0608 c st s₀ t') ∧
    (firstFailing checks = none → en = x.fallow → ∃ t', exec (.dispFallow c p) s₀ = .next t' ∧ Answered c (cplOf 0x0608 c 0 1 x.frame s₀) s t' ∧
        KeptZ c [] s₀ t') ∧
    (firstFailing checks = none → en ≠ x.fallow → en = true → ∃ t', exec (.dispFallow c p) s₀ = .next t' ∧
        Waits 0x0608 c k [] [] (modPorts s ps (fun y => { y with enterFallow := 1, fallowAt := s.now })) s₀ t' ∧ KeptZ c [.disp] s₀ t') ∧
    (firstFailing checks = none → en ≠ x.fallow → en = false → ∃ t', exec (.dispFallow c p) s₀ = .next t' ∧
        Waits 0x0608 c k [] [] (modPorts s ps (fun y => { y with exitFallow := 1 })) s₀ t' ∧ KeptZ c [.disp] s₀ t')) ∧
  -- DISP_AUX (R201)
  (Shared 0x0609 4 (fun b => [(0, 1), (1, 1), (2, 1), (8, 5), (128, 128)] ++ (if bit b 2 then [(16, 7), (24, 8)] else [(16, 20)])) .dispAux) ∧
  (∀ (c : Cmd) (p : Block) (s₀ : State), zciReady 0x0609 4 (fun b => [(0, 1), (1, 1), (2, 1), (8, 5), (128, 128)] ++ (if bit b 2 then [(16, 7), (24, 8)] else [(16, 20)])) c p s₀ = true →
    let s := seen 0x0609 c s₀
    let k := arg p 0 1
    let checks : List (Bool × Nat) := [(!owns s c.session.val 0x0D k, stBusy), (auxDenied (blk p 4), stDenied), ((s.port k).idle, stState),
      ((s.port k).auxBusy, stBusy), (decide (arg p 8 5 < 1 ∨ 16 < arg p 8 5), stRange)]
    (∀ st, firstFailing checks = some st → ∃ t', exec (.dispAux c p) s₀ = .next t' ∧ Refused 0x0609 c st s₀ t') ∧
    (firstFailing checks = none → ∃ t', exec (.dispAux c p) s₀ = .next t' ∧ Waits 0x0609 c k [b2n (argBit p 1),
        arg p 8 5] [] (s.modPort k (fun x => { x with auxBusy := true })) s₀ t' ∧ KeptZ c [.disp] s₀ t')) ∧
  -- DISP_GET_STATUS (R202)
  (Shared 0x060A 1 (fun _ => [(0, 1), (8, 1)]) .dispGetStatus) ∧
  (∀ (c : Cmd) (p : Block) (s₀ : State), zciReady 0x060A 1 (fun _ => [(0, 1), (8, 1)]) c p s₀ = true →
    let s := seen 0x060A c s₀
    let k := arg p 0 1
    let x := s.port k
    ∃ t', exec (.dispGetStatus c p) s₀ = .next t' ∧ Answered c (cplOf 0x060A c 0 2 (pack [(4, x.mode), (2, x.rate), (1, b2n x.split), (1,
        b2n x.fallow), (1, b2n x.hpd), (1, b2n x.linkOk), (1, b2n x.bpc), (5, 0), (16, if x.timing then x.line else if x.idle then 0 else 0xFFFF),
        (32, x.frame), (32, x.underruns), (16, x.deferred.length)]) s₀) (if argBit p 8 then s.setPort k { x with underruns := 0 } else s) t' ∧
        KeptZ c [.disp] s₀ t')

/-- MON commands set, load and clear contexts, snapshot, read, log and return status. Derived from the rules named at each
clause; the model's own choices in it are those of log entries 8, 9, 16, 42, 48. -/
def Obligations.MonitorCommands : Prop :=
  -- MON_SET_CONTEXT (R227)
  (Shared 0x0701 4 (fun _ => ctxFields) .monSetContext) ∧
  (∀ (c : Cmd) (p : Block) (s₀ : State), zciReady 0x0701 4 (fun _ => ctxFields) c p s₀ = true →
    let s := seen 0x0701 c s₀
    let cx := arg p 0 16
    let x := s.ctx cx
    let y := ctxOf (blk p 4)
    let en := argBit p 16
    let ph := ctxPhase s cx y
    let checks : List (Bool × Nat) := [(!ownsCtx s c.session.val cx, stBusy), (en && (decide (12 ≤ y.lane) || y.bins == 0 || decide (4 < y.det) ||
      y.reduce == 3 || (decide (3 ≤ y.det) && decide (4 < y.preset)) || !y.tausOk), stInvalid), (en && (oddOfPair s y.lane || !(s.lane y.lane).on),
      stState), (en && decide (4096 < y.bins ∨ 16 < y.log2k), stRange), (en && !binsIn s y.lane y.firstBin y.bins, stRange), (true && en &&
      decide (roundSlots < ph.2), stNoRes)]
    (∀ st, firstFailing checks = some st → ∃ t', exec (.monSetContext c p) s₀ = .next t' ∧ Refused 0x0701 c st s₀ t') ∧
    (firstFailing checks = none → (argBit p 16 && !(s.ctx (arg p 0 16)).on) = true → s.spec.vcore < 850 → ∃ t',
        exec (.monSetContext c p) s₀ = .next t' ∧ Waits 0x0701 c ceilingWait [(blk p 4)] [] s s₀ t' ∧ KeptZ c [] s₀ t') ∧
    (firstFailing checks = none → ((argBit p 16 && !(s.ctx (arg p 0 16)).on) && decide (s.spec.vcore < 850)) = false → en = false → ∃ t',
        exec (.monSetContext c p) s₀ = .next t' ∧ Answered c (cplOf 0x0701 c 0 1 0 s₀) (s.setCtx cx { x with on := false }) t' ∧
        KeptZ c [.mon] s₀ t') ∧
    (firstFailing checks = none → ((argBit p 16 && !(s.ctx (arg p 0 16)).on) && decide (s.spec.vcore < 850)) = false → en = true → 
       let z : Ctx := { x with on := true, lane := y.lane, p := (blk p 4), phase := ph.1, taken := if x.lane = y.lane then x.taken else none }
       let z1 := if x.restarts y then z.zeroed else if x.on then z else z.resetHist
       ∃ t', exec (.monSetContext c p) s₀ = .next t' ∧ Answered c (cplOf 0x0701 c 0 1 (pack [(16, ph.1), (5, y.log2k), (11, 0), (32,
        lMon s z1)]) s₀) (s.setCtx cx z1) t' ∧ KeptZ c [.mon] s₀ t')) ∧
  -- MON_LOAD (R228)
  (∀ (data : List Nat), Shared 0x0702 2 (fun _ => [(0, 17), (64, 64)]) (fun c p => .monLoad c p data)) ∧
  (∀ (c : Cmd) (p : Block) (data : List Nat) (s₀ : State), zciReady 0x0702 2 (fun _ => [(0, 17), (64, 64)]) c p s₀ = true →
    let s := seen 0x0702 c s₀
    let blocks := (List.range (arg p 0 17)).map (fun i => data.getD i 0)
    let checks : List (Bool × Nat) := [(arg p 64 64 % 32 != 0, stInvalid), (decide (arg p 0 17 < 1 ∨ 65536 < arg p 0 17), stRange)]
    (∀ st, firstFailing checks = some st → ∃ t', exec (.monLoad c p data) s₀ = .next t' ∧ Refused 0x0702 c st s₀ t') ∧
    (firstFailing checks = none →
      ((∃ st rl r, bodyMonLoad c.session.val blocks s = .failWith s st rl r) ∨ (∃ s1 rl r, bodyMonLoad c.session.val blocks s = .ok s1 rl r)) ∧
      (∀ st rl r, bodyMonLoad c.session.val blocks s = .failWith s st rl r →
        ∃ t', exec (.monLoad c p data) s₀ = .next t' ∧ Answered c (cplOf 0x0702 c st rl r s₀) s t' ∧ KeptZ c [] s₀ t') ∧
      (∀ s1 rl r, bodyMonLoad c.session.val blocks s = .ok s1 rl r → blocks.any (fun b => bit b 16) = true ∧ s.spec.vcore < 850 →
        ∃ t', exec (.monLoad c p data) s₀ = .next t' ∧ Waits 0x0702 c ceilingWait blocks [] s s₀ t' ∧ KeptZ c [] s₀ t') ∧
      (∀ s1 rl r, bodyMonLoad c.session.val blocks s = .ok s1 rl r → ¬(blocks.any (fun b => bit b 16) = true ∧ s.spec.vcore < 850) →
        ∃ t', exec (.monLoad c p data) s₀ = .next t' ∧ Answered c (cplOf 0x0702 c 0 rl r s₀) s1 t' ∧ KeptZ c [.mon] s₀ t'))) ∧
  -- MON_CLEAR (R229)
  (Shared 0x0703 1 (fun _ => [(0, 16), (16, 16)]) .monClear) ∧
  (∀ (c : Cmd) (p : Block) (s₀ : State), zciReady 0x0703 1 (fun _ => [(0, 16), (16, 16)]) c p s₀ = true →
    let s := seen 0x0703 c s₀
    let a := arg p 0 16
    let z := arg p 16 16
    let checks : List (Bool × Nat) := [(!ownsRange s c.session.val a z, stBusy), (decide (z < a), stInvalid)]
    (∀ st, firstFailing checks = some st → ∃ t', exec (.monClear c p) s₀ = .next t' ∧ Refused 0x0703 c st s₀ t') ∧
    (firstFailing checks = none → ∃ t', exec (.monClear c p) s₀ = .next t' ∧
        Answered c (cplOf 0x0703 c 0 0 0 s₀) ((s.mon.ctxs.filter (fun e => decide (a ≤ e.1 ∧
        e.1 ≤ z))).foldl (fun t e => t.modCtx e.1 Ctx.zeroed) s) t' ∧ KeptZ c [.mon] s₀ t')) ∧
  -- MON_SNAPSHOT (R223)
  (Shared 0x0704 2 (fun _ => [(0, 16), (16, 16), (32, 16), (64, 64)]) .monSnapshot) ∧
  (∀ (c : Cmd) (p : Block) (s₀ : State), zciReady 0x0704 2 (fun _ => [(0, 16), (16, 16), (32, 16), (64, 64)]) c p s₀ = true →
    let s := seen 0x0704 c s₀
    let a := arg p 0 16
    let z := arg p 16 16
    let h := arg p 32 16
    let off := arg p 64 64
    let checks : List (Bool × Nat) := [(!ownsRange s c.session.val a z || !regOwned s c.session.val h, stBusy), (decide (z < a) || off % 64 != 0,
      stInvalid), (s.mon.snap, stBusy), (regPast s h off (64 * (z - a + 2)), stRange)]
    (∀ st, firstFailing checks = some st → ∃ t', exec (.monSnapshot c p) s₀ = .next t' ∧ Refused 0x0704 c st s₀ t') ∧
    (firstFailing checks = none → ∃ t', exec (.monSnapshot c p) s₀ = .next t' ∧
        Waits 0x0704 c 0 [] [h] ({ s with mon := { s.mon with snap := true, snapAddr := (s.reg h).addr + off, snapData := snapHeader s a z :: (List.range (z + 1 - a)).map (fun i => ctxRecord (a + i) (s.ctx (a + i))) } }) s₀ t' ∧
        KeptZ c [.mon] s₀ t')) ∧
  -- MON_READ (R231)
  (Shared 0x0705 1 (fun _ => [(0, 16)]) .monRead) ∧
  (∀ (c : Cmd) (p : Block) (s₀ : State), zciReady 0x0705 1 (fun _ => [(0, 16)]) c p s₀ = true →
    let s := seen 0x0705 c s₀
    ∃ t', exec (.monRead c p) s₀ = .next t' ∧ Answered c (cplOf 0x0705 c 0 8 (ctxRecord (arg p 0 16) (s.ctx (arg p 0 16))) s₀) s t' ∧
        KeptZ c [] s₀ t') ∧
  -- MON_SET_LOG (R231)
  (Shared 0x0706 1 (fun _ => [(0, 16)]) .monSetLog) ∧
  (∀ (c : Cmd) (p : Block) (s₀ : State), zciReady 0x0706 1 (fun _ => [(0, 16)]) c p s₀ = true →
    let s := seen 0x0706 c s₀
    let n := c.session.val
    let h := arg p 0 16
    let checks : List (Bool × Nat) := if h = noHandle then [] else ringChecks s n h
    (∀ st, firstFailing checks = some st → ∃ t', exec (.monSetLog c p) s₀ = .next t' ∧ Refused 0x0706 c st s₀ t') ∧
    (firstFailing checks = none → ∃ t', exec (.monSetLog c p) s₀ = .next t' ∧
        Answered c (cplOf 0x0706 c 0 0 0 s₀) ({ s with mon := { s.mon with logs := tput 0 s.mon.logs n (if h = noHandle then 0 else h + 1) } }) t' ∧
        KeptZ c [.mon] s₀ t')) ∧
  -- MON_GET_STATUS (R232)
  (Shared 0x0707 1 (fun _ => [(8, 1)]) .monGetStatus) ∧
  (∀ (c : Cmd) (p : Block) (s₀ : State), zciReady 0x0707 1 (fun _ => [(8, 1)]) c p s₀ = true →
    let s := seen 0x0707 c s₀
    let m := s.mon
    ∃ t', exec (.monGetStatus c p) s₀ = .next t' ∧ Answered c (cplOf 0x0707 c 0 4 (pack [(17, (enabledCtxs s).length), (3, 0), (4, cadence s),
        (12, loadMax (enabledCtxs s)), (12, m.loadNow), (1, b2n m.snap), (15, 0), (32, m.evLost), (32, m.logLost), (128,
        0)]) s₀) (if argBit p 8 then { s with mon := { m with evLost := 0, logLost := 0 } } else s) t' ∧ KeptZ c [.mon] s₀ t')

/-- TIU commands set inputs, statistics and drains, read queues, calibrate. Derived from the rules named at each clause;
the model's own choices in it are those of log entries 9, 16, 34. -/
def Obligations.TimeIntervalCommands : Prop :=
  -- TIU_SET_INPUT (R286)
  (Shared 0x0801 1 (fun _ => [(0, 4), (4, 1), (5, 1), (6, 2), (8, 2), (10, 1), (11, 1), (16, 16), (32, 6)]) .tiuSetInput) ∧
  (∀ (c : Cmd) (p : Block) (s₀ : State), zciReady 0x0801 1 (fun _ => [(0, 4), (4, 1), (5, 1), (6, 2), (8, 2), (10, 1), (11, 1), (16, 16), (32, 6)]) c p s₀ = true →
    let s := seen 0x0801 c s₀
    let n := arg p 0 4
    let sess := c.session.val
    let x := s.tiuIn n
    let on := argBit p 4
    let e := if n = 8 && s.clk.ppsMode ≠ 0 then x.edge else arg p 6 2
    let ps := arg p 8 2
    let th := sarg p 16 16
    let cond := argBit p 11
    let y := { x with term50 := argBit p 5, thresh := th, hyst := arg p 32 6 }
    let checks : List (Bool × Nat) := [(decide (n < 9) && !(if cond then mayCondition s sess n else ownsIn s sess n), stBusy), (decide (8 < n),
      stInvalid), (!cond && on && extUsed s n && !owns s sess 7 n, stBusy), (!cond && e == 3, stInvalid), (!cond && ps != 0 && (e == 2 || n == 8),
      stInvalid), (!cond && ps != 0 && extUsed s n, stState), (!cond && statUses s n && (e != x.edge || ps != x.prescale || on != x.on), stState),
      (decide (th < -1000 ∨ 2500 < th) || decide (50 < arg p 32 6), stRange)]
    (∀ st, firstFailing checks = some st → ∃ t', exec (.tiuSetInput c p) s₀ = .next t' ∧ Refused 0x0801 c st s₀ t') ∧
    (firstFailing checks = none → ∃ t', exec (.tiuSetInput c p) s₀ = .next t' ∧
        Answered c (cplOf 0x0801 c 0 0 0 s₀) (s.setTiuIn n (x.changed (if cond then y
        else { y with on := on, edge := e, prescale := ps, queueOn := argBit p 10 }))) t' ∧ KeptZ c [.tiu] s₀ t')) ∧
  -- TIU_SET_STATS (R287)
  (Shared 0x0802 1 (fun _ => [(0, 2), (2, 1), (3, 1), (4, 1), (8, 4), (12, 4), (16, 33)]) .tiuSetStats) ∧
  (∀ (c : Cmd) (p : Block) (s₀ : State), zciReady 0x0802 1 (fun _ => [(0, 2), (2, 1), (3, 1), (4, 1), (8, 4), (12, 4), (16, 33)]) c p s₀ = true →
    let s := seen 0x0802 c s₀
    let u := arg p 0 2
    let en := argBit p 2
    let iv := argBit p 3
    let a := arg p 8 4
    let z := arg p 12 4
    let n := arg p 16 33
    let sess := c.session.val
    let x := s.tiuSt u
    let checks : List (Bool × Nat) := [(!owns s sess 0x0A u || (en && ((decide (a < 9) && !ownsIn s sess a) || (iv && decide (z < 9) &&
      !ownsIn s sess z))), stBusy), (!en && x.run && (!ownsIn s sess x.start || (x.interval && !ownsIn s sess x.stop)), stBusy), (en &&
      decide (8 < a), stInvalid), (en && (if iv then decide (8 < z) || z == a else z != 0), stInvalid), (n == 0, stInvalid), (en && !iv &&
      tiuEdge s a == 2, stInvalid), (en && (x.run || !(s.tiuIn a).on || (iv && !(s.tiuIn z).on)), stState), (en && decide (2^32 < n), stRange)]
    (∀ st, firstFailing checks = some st → ∃ t', exec (.tiuSetStats c p) s₀ = .next t' ∧ Refused 0x0802 c st s₀ t') ∧
    (firstFailing checks = none → ∃ t', exec (.tiuSetStats c p) s₀ = .next t' ∧
        Answered c (cplOf 0x0802 c 0 0 0 s₀) (if en then s.setTiuSt u { x with run := true, interval := iv, cont := argBit p 4, start := a, stop := z, n := n, pendA := [], pendB := [], cnt := 0, sum := 0, sq := 0, lo := 0, hi := 0, runUncal := false, runs := 0, ovPosted := false }
        else s.setTiuSt u { x with run := false, pendA := [], pendB := [] }) t' ∧ KeptZ c [.tiu] s₀ t')) ∧
  -- TIU_GET_STATS (R288)
  (Shared 0x0803 1 (fun _ => [(0, 2), (8, 1)]) .tiuGetStats) ∧
  (∀ (c : Cmd) (p : Block) (s₀ : State), zciReady 0x0803 1 (fun _ => [(0, 2), (8, 1)]) c p s₀ = true →
    let s := seen 0x0803 c s₀
    let u := arg p 0 2
    let x := s.tiuSt u
    let checks : List (Bool × Nat) := [(argBit p 8 && !owns s c.session.val 0x0A u, stBusy)]
    (∀ st, firstFailing checks = some st → ∃ t', exec (.tiuGetStats c p) s₀ = .next t' ∧ Refused 0x0803 c st s₀ t') ∧
    (firstFailing checks = none → ∃ t', exec (.tiuGetStats c p) s₀ = .next t' ∧ Answered c (cplOf 0x0803 c 0 8 (pack [(1, b2n x.run), (1,
        b2n x.interval), (1, b2n x.valid), (1, b2n x.uncal), (28, 0), (32, x.runs), (33, x.cnt), (31, 0), (64, x.mean), (64, x.sdev), (64, x.min_),
        (64, x.max_), (32, x.ovf), (32, x.ooo), (32, x.resync), (32,
        0)]) s₀) (if argBit p 8 then s.setTiuSt u { x with ovf := 0, ooo := 0, resync := 0 } else s) t' ∧ KeptZ c [.tiu] s₀ t')) ∧
  -- TIU_READ (R289)
  (Shared 0x0804 2 (fun _ => [(0, 4), (16, 16), (32, 13), (64, 64)]) .tiuRead) ∧
  (∀ (c : Cmd) (p : Block) (s₀ : State), zciReady 0x0804 2 (fun _ => [(0, 4), (16, 16), (32, 13), (64, 64)]) c p s₀ = true →
    let s := seen 0x0804 c s₀
    let n := arg p 0 4
    let h := arg p 16 16
    let m := arg p 32 13
    let off := arg p 64 64
    let x := s.tiuIn n
    let k := min m x.queue.length
    let checks : List (Bool × Nat) := [((decide (n < 9) && !ownsIn s c.session.val n) || !regOwned s c.session.val h, stBusy), (decide (8 < n),
      stInvalid), (m == 0, stInvalid), (off % 16 != 0, stInvalid), (x.drain != noHandle, stState), (decide (4096 < m) || regPast s h off (16 * m),
      stRange)]
    (∀ st, firstFailing checks = some st → ∃ t', exec (.tiuRead c p) s₀ = .next t' ∧ Refused 0x0804 c st s₀ t') ∧
    (firstFailing checks = none → ∃ t', exec (.tiuRead c p) s₀ = .next t' ∧
        Waits 0x0804 c transferWait (transferData 0 1 (k) h off ((x.queue.take k).flatMap (fun r => toBytes r.encode 16))) [h] (s.setTiuIn n (queueTake x k)) s₀ t' ∧
        KeptZ c [.tiu] s₀ t')) ∧
  -- TIU_SET_DRAIN (R290)
  (Shared 0x0805 1 (fun _ => [(0, 4), (16, 16)]) .tiuSetDrain) ∧
  (∀ (c : Cmd) (p : Block) (s₀ : State), zciReady 0x0805 1 (fun _ => [(0, 4), (16, 16)]) c p s₀ = true →
    let s := seen 0x0805 c s₀
    let n := arg p 0 4
    let h := arg p 16 16
    let checks : List (Bool × Nat) := [((decide (n < 9) && !ownsIn s c.session.val n) || (h != noHandle && !regOwned s c.session.val h), stBusy),
      (decide (8 < n), stInvalid), (h != noHandle && !isRecRing s h, stInvalid)]
    (∀ st, firstFailing checks = some st → ∃ t', exec (.tiuSetDrain c p) s₀ = .next t' ∧ Refused 0x0805 c st s₀ t') ∧
    (firstFailing checks = none → ∃ t', exec (.tiuSetDrain c p) s₀ = .next t' ∧
        Answered c (cplOf 0x0805 c 0 0 0 s₀) (s.modTiuIn n (fun x => { x with drain := h })) t' ∧ KeptZ c [.tiu] s₀ t')) ∧
  -- TIU_CAL (R291)
  (Shared 0x0806 1 (fun _ => [(0, 9)]) .tiuCal) ∧
  (∀ (c : Cmd) (p : Block) (s₀ : State), zciReady 0x0806 1 (fun _ => [(0, 9)]) c p s₀ = true →
    let s := seen 0x0806 c s₀
    let ns := maskBits 9 (blk p 1)
    let checks : List (Bool × Nat) := [(s.flt.signBad, stFaulted), (ns.any (fun n => !ownsIn s c.session.val n), stBusy), (ns.isEmpty, stInvalid),
      (ns.any (fun n => statUses s n || (n < 8 && extUsed s n) || (n == 8 && s.clk.ppsMode != 0)), stState), (ns.any (fun n => (s.tiuIn n).testing),
      stBusy), (s.cal.count == 0xFFFFFFFF, stDenied)]
    (∀ st, firstFailing checks = some st → ∃ t', exec (.tiuCal c p) s₀ = .next t' ∧ Refused 0x0806 c st s₀ t') ∧
    (firstFailing checks = none → ∃ t', exec (.tiuCal c p) s₀ = .next t' ∧ Waits 0x0806 c (arg p 0 9) [0,
        0] [] (ns.foldl (fun a n => a.modTiuIn n (fun x => { x with testing := true })) s) s₀ t' ∧ KeptZ c [.tiu] s₀ t')) ∧
  -- TIU_GET_STATUS (R292)
  (Shared 0x0807 1 (fun _ => [(0, 4), (8, 1)]) .tiuGetStatus) ∧
  (∀ (c : Cmd) (p : Block) (s₀ : State), zciReady 0x0807 1 (fun _ => [(0, 4), (8, 1)]) c p s₀ = true →
    let s := seen 0x0807 c s₀
    let n := arg p 0 4
    let x := s.tiuIn n
    let checks : List (Bool × Nat) := [(argBit p 8 && decide (n < 9) && !ownsIn s c.session.val n, stBusy), (decide (8 < n), stInvalid)]
    (∀ st, firstFailing checks = some st → ∃ t', exec (.tiuGetStatus c p) s₀ = .next t' ∧ Refused 0x0807 c st s₀ t') ∧
    (firstFailing checks = none → ∃ t', exec (.tiuGetStatus c p) s₀ = .next t' ∧ Answered c (cplOf 0x0807 c 0 4 (pack [(1, b2n x.on), (1,
        b2n x.level), (1, b2n x.uncal), (1, b2n x.testing), (2, x.prescale), (2, 0), (13, x.queue.length), (11, 0), (32, x.lost), (32, x.qlost),
        (32, x.seq), (80, x.last), (32, x.coarseCnt), (16,
        0)]) s₀) (if argBit p 8 then s.setTiuIn n { x with lost := 0, qlost := 0, coarseCnt := 0 } else s) t' ∧ KeptZ c [.tiu] s₀ t'))

/-- GROVE commands load, start, stop and shadow cores, bind feeds and barriers, read. Derived from the rules named at each
clause; the model's own choices in it are those of log entries 8, 16, 17, 44. -/
def Obligations.GroveCommands : Prop :=
  -- GROVE_LOAD (R348)
  (∀ (data : List Nat), Shared 0x0901 4 (fun _ => [(0, 6), (32, 32), (64, 32), (128, 64)]) (fun c p => .groveLoad c p data)) ∧
  (∀ (c : Cmd) (p : Block) (data : List Nat) (s₀ : State), zciReady 0x0901 4 (fun _ => [(0, 6), (32, 32), (64, 32), (128, 64)]) c p s₀ = true →
    let s := seen 0x0901 c s₀
    let n := arg p 0 6
    let dest := arg p 32 32
    let len := arg p 64 32
    let checks : List (Bool × Nat) := [(!ownsCore s c.session.val n, stBusy), (dest % 4 != 0 || arg p 128 64 % 4 != 0, stInvalid), (coreRuns s n,
      stState), (decide (len < 4 ∨ 262144 < len ∨ len % 4 ≠ 0 ∨ 262144 < dest + len), stRange)]
    (∀ st, firstFailing checks = some st → ∃ t', exec (.groveLoad c p data) s₀ = .next t' ∧ Refused 0x0901 c st s₀ t') ∧
    (firstFailing checks = none → ∃ t', exec (.groveLoad c p data) s₀ = .next t' ∧
        Waits 0x0901 c n (dest :: (data ++ List.replicate len 0).take len) [] s s₀ t' ∧ KeptZ c [] s₀ t')) ∧
  -- GROVE_START (R349)
  (Shared 0x0902 6 (fun _ => [(0, 64), (64, 18), (128, 64), (192, 32), (224, 32), (256, 32), (288, 32)]) .groveStart) ∧
  (∀ (c : Cmd) (p : Block) (s₀ : State), zciReady 0x0902 6 (fun _ => [(0, 64), (64, 18), (128, 64), (192, 32), (224, 32), (256, 32), (288, 32)]) c p s₀ = true →
    let s := seen 0x0902 c s₀
    let m := maskBits 64 (arg p 0 64)
    let pc := arg p 64 18
    let at_ := arg p 128 64
    let g := [arg p 192 32, arg p 224 32, arg p 256 32, arg p 288 32]
    let checks : List (Bool × Nat) := [(m.isEmpty, stInvalid), (m.any (fun n => !ownsCore s c.session.val n), stBusy),
      (m.any (fun n => coreRuns s n), stState), (pc % 4 != 0, stInvalid), (tickBad s at_, stRange)]
    (∀ st, firstFailing checks = some st → ∃ t', exec (.groveStart c p) s₀ = .next t' ∧ Refused 0x0902 c st s₀ t') ∧
    (firstFailing checks = none → at_ = 0 → ∃ t', exec (.groveStart c p) s₀ = .next t' ∧
        Answered c (cplOf 0x0902 c 0 2 (stampOf (s.now + 1)) s₀) (startCores s (arg p 0 64) pc g (s.now + 1)) t' ∧ KeptZ c [.grove] s₀ t') ∧
    (firstFailing checks = none → at_ ≠ 0 → ∃ t', exec (.groveStart c p) s₀ = .next t' ∧
        Waits 0x0902 c 0 [at_] [] ({ s with grove := { s.grove with starts := s.grove.starts ++ [(at_, arg p 0 64, pc, g)] } }) s₀ t' ∧
        KeptZ c [.grove] s₀ t')) ∧
  -- GROVE_STOP (R350)
  (Shared 0x0903 2 (fun _ => [(0, 64)]) .groveStop) ∧
  (∀ (c : Cmd) (p : Block) (s₀ : State), zciReady 0x0903 2 (fun _ => [(0, 64)]) c p s₀ = true →
    let s := seen 0x0903 c s₀
    let m := maskBits 64 (arg p 0 64)
    let checks : List (Bool × Nat) := [(m.any (fun n => !ownsCore s c.session.val n), stBusy), (m.isEmpty, stInvalid)]
    (∀ st, firstFailing checks = some st → ∃ t', exec (.groveStop c p) s₀ = .next t' ∧ Refused 0x0903 c st s₀ t') ∧
    (firstFailing checks = none → ∃ t', exec (.groveStop c p) s₀ = .next t' ∧
        Answered c (cplOf 0x0903 c 0 0 0 s₀) (m.foldl (fun a n => if coreRuns a n then coreStop a n 5 0 else a) s) t' ∧ KeptZ c [.host, .fe, .cal,
        .spec, .acq, .disp, .mon, .tiu, .grove, .mem, .move, .ctl, .flt, .sec, .pwr] s₀ t')) ∧
  -- GROVE_SET_SHADOW (R351)
  (Shared 0x0904 5 (fun b => [(0, 6), (8, 1), (16, 3)] ++ (List.range (min 4 (fld b 16 3))).flatMap (fun e => [(64 * e + 64, 6), (64 * e + 96, 32)])) .groveSetShadow) ∧
  (∀ (c : Cmd) (p : Block) (s₀ : State), zciReady 0x0904 5 (fun b => [(0, 6), (8, 1), (16, 3)] ++ (List.range (min 4 (fld b 16 3))).flatMap (fun e => [(64 * e + 64, 6), (64 * e + 96, 32)])) c p s₀ = true →
    let s := seen 0x0904 c s₀
    let n := arg p 0 6
    let k := arg p 16 3
    let ents := (List.range (min 4 k)).map (fun e => (fld (blk p 5) (64 * e + 64) 6, fld (blk p 5) (64 * e + 96) 32))
    let checks : List (Bool × Nat) := [(!ownsCore s c.session.val n, stBusy), (k == 0 && !argBit p 8, stInvalid), (ents.any (fun e => !specOk e.1),
      stInvalid), (!coreRuns s n, stState), (decide (4 < k), stRange)]
    (∀ st, firstFailing checks = some st → ∃ t', exec (.groveSetShadow c p) s₀ = .next t' ∧ Refused 0x0904 c st s₀ t') ∧
    (firstFailing checks = none → 
       let s1 := ents.foldl (fun (a : State) (e : Nat × Nat) => stageWrite a n e.1 e.2) s
       ∃ t', exec (.groveSetShadow c p) s₀ = .next t' ∧
        Answered c (cplOf 0x0904 c 0 0 0 s₀) (if argBit p 8 then s1.modCore n (fun x => { x with raiseAt := x.raiseAt ++ [(1, s.now + 1)] })
        else s1) t' ∧ KeptZ c [.grove] s₀ t')) ∧
  -- GROVE_SET_FEED (R352)
  (Shared 0x0905 6 (fun b => feedFields (fld b 6 2)) .groveSetFeed) ∧
  (∀ (c : Cmd) (p : Block) (s₀ : State), zciReady 0x0905 6 (fun b => feedFields (fld b 6 2)) c p s₀ = true →
    let s := seen 0x0905 c s₀
    let i := arg p 0 5
    let n := arg p 8 6
    let k := arg p 6 2
    let f : Feed := { on := true, p := (blk p 6), kind := k, core := n, session := c.session.val }
    argBit p 5 = false →
    let checks : List (Bool × Nat) := [(!owns s c.session.val 0x10 i || !ownsCore s c.session.val n || (argBit p 5 && k ≥ 2 &&
      !regOwned s c.session.val f.handle), stBusy)]
    (∀ st, firstFailing checks = some st → ∃ t', exec (.groveSetFeed c p) s₀ = .next t' ∧ Refused 0x0905 c st s₀ t') ∧
    (firstFailing checks = none → (s.feed i).on = true ∧ (s.feed i).kind = 3 ∧ (s.feed i).handed ≠ 0 → ∃ t',
        exec (.groveSetFeed c p) s₀ = .next t' ∧ Waits 0x0905 c i [] [] (feedDisable s i) s₀ t' ∧ KeptZ c [.grove] s₀ t') ∧
    (firstFailing checks = none → ¬((s.feed i).on = true ∧ (s.feed i).kind = 3 ∧ (s.feed i).handed ≠ 0) → ∃ t',
        exec (.groveSetFeed c p) s₀ = .next t' ∧ Answered c (cplOf 0x0905 c 0 2 0xFFFFFFFFFFFF s₀) (feedDisable s i) t' ∧ KeptZ c [.grove] s₀ t')) ∧
  -- GROVE_SET_FEED (R352), a feed starts
  (∀ (c : Cmd) (p : Block) (s₀ : State), zciReady 0x0905 6 (fun b => feedFields (fld b 6 2)) c p s₀ = true →
    let s := seen 0x0905 c s₀
    let i := arg p 0 5
    let n := arg p 8 6
    let k := arg p 6 2
    let f : Feed := { on := true, p := (blk p 6), kind := k, core := n, session := c.session.val }
    let src := f.source
    argBit p 5 = true →
    let checks : List (Bool × Nat) := [(!owns s c.session.val 0x10 i || !ownsCore s c.session.val n || (argBit p 5 && k ≥ 2 &&
      !regOwned s c.session.val f.handle), stBusy), ((k == 0 && decide (src < 16 ∨ 31 < src)) || (k == 1 && decide (11 < src)), stInvalid),
      (f.base % 64 != 0, stInvalid), (f.nbuf == 0 || (k == 0 && f.gpb == 0), stInvalid), (k != 0 && f.blk % 64 != 0, stInvalid), (k == 0 &&
      f.hbase % 32 != 0, stInvalid), (k == 3 && !isRecRing s f.handle, stInvalid), (k == 2 && arg p 256 64 % 64 != 0, stInvalid), ((s.feed i).on,
      stState), (k == 0 && !strRuns s src, stState), (k == 1 && (!(s.lane src).on || oddOfPair s src), stState), (decide (1024 < f.nbuf) ||
      (k != 0 && decide (f.blk < 64 ∨ 0x400000 < f.blk)), stRange), (!coreRange s n f.base (f.nbuf * f.blk) || (k == 0 &&
      !coreRange s n f.hbase (32 * f.nbuf)), stRange), (k == 1 &&
      (decide (arg p 184 24 < 1 ∨ 1048576 < arg p 184 24 ∨ f.decim < 1 ∨ 65536 < f.decim) || !binsIn s src (sarg p 160 24) (arg p 184 24) ||
      decide (f.blk < recordLen (arg p 184 24) f.f32)), stRange), (k == 2 && (arg p 320 32 == 0 ||
      regPast s f.handle (arg p 256 64) (arg p 320 32 * f.blk)), stRange), (k == 3 && decide ((s.reg f.handle).size < f.blk), stRange),
      (decide (feedLimit < feedRate s f) || (k == 0 && decide (zoomLimit < strRate s src)) || (k ≤ 1 &&
      decide (feedsLimit < feedLoads s + feedRate s f)), stNoRes)]
    (∀ st, firstFailing checks = some st → ∃ t', exec (.groveSetFeed c p) s₀ = .next t' ∧ Refused 0x0905 c st s₀ t') ∧
    (firstFailing checks = none → 
       let s1 := s.setFeed i { f with first := feedFirst s f }
       ∃ t', exec (.groveSetFeed c p) s₀ = .next t' ∧ Answered c (cplOf 0x0905 c 0 2 (if k ≤ 1 then feedFirst s f % 2^48
        else 0xFFFFFFFFFFFF) s₀) (if k = 0 then bindNow s1 (0x80 + i) src else s1) t' ∧ KeptZ c [.fe, .grove] s₀ t')) ∧
  -- GROVE_SET_BARRIER (R353)
  (Shared 0x0906 2 (fun _ => [(0, 3), (8, 1), (64, 64)]) .groveSetBarrier) ∧
  (∀ (c : Cmd) (p : Block) (s₀ : State), zciReady 0x0906 2 (fun _ => [(0, 3), (8, 1), (64, 64)]) c p s₀ = true →
    let s := seen 0x0906 c s₀
    let k := arg p 0 3
    let m := arg p 64 64
    let checks : List (Bool × Nat) := [(!owns s c.session.val 0x11 k || (maskBits 64 m).any (fun n => !ownsCore s c.session.val n), stBusy),
      (argBit p 8 && m == 0, stInvalid), ((s.bar k).arrived != 0, stState)]
    (∀ st, firstFailing checks = some st → ∃ t', exec (.groveSetBarrier c p) s₀ = .next t' ∧ Refused 0x0906 c st s₀ t') ∧
    (firstFailing checks = none → ∃ t', exec (.groveSetBarrier c p) s₀ = .next t' ∧
        Answered c (cplOf 0x0906 c 0 0 0 s₀) (s.setBar k (if argBit p 8 then { on := true, members := m } else { s.bar k with on := false })) t' ∧
        KeptZ c [.grove] s₀ t')) ∧
  -- GROVE_READ (R354)
  (Shared 0x0907 4 (fun _ => [(0, 6), (32, 32), (64, 32), (96, 16), (128, 64)]) .groveRead) ∧
  (∀ (c : Cmd) (p : Block) (s₀ : State), zciReady 0x0907 4 (fun _ => [(0, 6), (32, 32), (64, 32), (96, 16), (128, 64)]) c p s₀ = true →
    let s := seen 0x0907 c s₀
    let n := arg p 0 6
    let src := arg p 32 32
    let len := arg p 64 32
    let h := arg p 96 16
    let off := arg p 128 64
    let checks : List (Bool × Nat) := [(!ownsCore s c.session.val n || !regOwned s c.session.val h, stBusy), (src % 4 != 0 || len % 4 != 0 ||
      off % 64 != 0, stInvalid), (decide (len < 4 ∨ 262144 < len ∨ 262144 < src + len) || regPast s h off len, stRange)]
    (∀ st, firstFailing checks = some st → ∃ t', exec (.groveRead c p) s₀ = .next t' ∧ Refused 0x0907 c st s₀ t') ∧
    (firstFailing checks = none → ∃ t', exec (.groveRead c p) s₀ = .next t' ∧ Waits 0x0907 c n [src, len, h, off] [h] s s₀ t' ∧ KeptZ c [] s₀ t')) ∧
  -- GROVE_GET_STATUS (R355)
  (Shared 0x0908 1 (fun _ => [(0, 6), (8, 1)]) .groveGetStatus) ∧
  (∀ (c : Cmd) (p : Block) (s₀ : State), zciReady 0x0908 1 (fun _ => [(0, 6), (8, 1)]) c p s₀ = true →
    let s := seen 0x0908 c s₀
    let n := arg p 0 6
    let x := s.core n
    let checks : List (Bool × Nat) := [(argBit p 8 && !ownsCore s c.session.val n, stBusy)]
    (∀ st, firstFailing checks = some st → ∃ t', exec (.groveGetStatus c p) s₀ = .next t' ∧ Refused 0x0908 c st s₀ t') ∧
    (firstFailing checks = none → ∃ t', exec (.groveGetStatus c p) s₀ = .next t' ∧ Answered c (cplOf 0x0908 c 0 4 (pack [(3, x.st), (1,
        b2n x.inh), (4, x.cause), (7, 0), (1, b2n (x.ien.getLsbD 31)), (8, x.ipend.toNat), (8, x.ien.toNat), (32, x.pc), (32, x.faddr), (32,
        x.stat), (64, x.issued), (32, x.userLost), (8, x.barWait), (24, 0)]) s₀) (if argBit p 8 then s.setCore n { x with userLost := 0 }
        else s) t' ∧ KeptZ c [.grove] s₀ t')) ∧
  -- GROVE_GET_FEED (R356)
  (Shared 0x0909 1 (fun _ => [(0, 5), (8, 1)]) .groveGetFeed) ∧
  (∀ (c : Cmd) (p : Block) (s₀ : State), zciReady 0x0909 1 (fun _ => [(0, 5), (8, 1)]) c p s₀ = true →
    let s := seen 0x0909 c s₀
    let i := arg p 0 5
    let f := s.feed i
    let checks : List (Bool × Nat) := [(argBit p 8 && !owns s c.session.val 0x10 i, stBusy)]
    (∀ st, firstFailing checks = some st → ∃ t', exec (.groveGetFeed c p) s₀ = .next t' ∧ Refused 0x0909 c st s₀ t') ∧
    (firstFailing checks = none → ∃ t', exec (.groveGetFeed c p) s₀ = .next t' ∧ Answered c (cplOf 0x0909 c 0 4 (pack [(1, b2n f.on), (2, f.kind),
        (6, f.core), (7, 0), (32, f.feedCnt.toNat), (32, f.coreCnt.toNat), (32, f.dropped), (32, f.fcoll), (48, if f.kind ≤ 1 then f.lastIdx
        else 0), (64, 0)]) s₀) (if argBit p 8 then s.setFeed i { f with dropped := 0, fcoll := 0 } else s) t' ∧ KeptZ c [.grove] s₀ t'))

/-- MEM commands allocate and free regions, set rings, allocate commons, retire ranks. Derived from the rules named at
each clause; the model's own choices in it are those of log entries 3, 4, 16, 36. -/
def Obligations.MemoryCommands : Prop :=
  -- MEM_ALLOC (R375)
  (Shared 0x0A01 2 (fun _ => [(0, 64)]) .memAlloc) ∧
  (∀ (c : Cmd) (p : Block) (s₀ : State), zciReady 0x0A01 2 (fun _ => [(0, 64)]) c p s₀ = true →
    let s := seen 0x0A01 c s₀
    let n := arg p 0 64
    let checks : List (Bool × Nat) := [(n % 65536 != 0, stInvalid), (n == 0 || decide (devSize < n), stRange), (s.mem.channelBad ||
      (freeHandle s).isNone || (placeIn (freeRanges s) n).isNone, stNoRes)]
    (∀ st, firstFailing checks = some st → ∃ t', exec (.memAlloc c p) s₀ = .next t' ∧ Refused 0x0A01 c st s₀ t') ∧
    (firstFailing checks = none → (placeIn (freeZeroed s) n).isSome = true → 
       let h := (freeHandle s).getD 0
       let a := (placeIn (freeZeroed s) n).getD 0
       ∃ t', exec (.memAlloc c p) s₀ = .next t' ∧ Answered c (cplOf 0x0A01 c 0 2 (pack [(16, h), (48, 0), (64,
        a)]) s₀) ({ s with mem := { s.mem with zeroed := subRange s.mem.zeroed a (a + n) } }.setReg h { addr := a, size := n, owner := c.session.val }) t' ∧
        KeptZ c [.mem] s₀ t') ∧
    (firstFailing checks = none → placeIn (freeZeroed s) n = none → 
       let h := (freeHandle s).getD 0
       ∃ t', exec (.memAlloc c p) s₀ = .next t' ∧
        Waits 0x0A01 c h [] [h] (s.setReg h { addr := (placeIn (freeRanges s) n).getD 0, size := n, owner := c.session.val }) s₀ t' ∧
        KeptZ c [.mem] s₀ t')) ∧
  -- MEM_FREE (R376)
  (Shared 0x0A02 1 (fun _ => [(0, 16)]) .memFree) ∧
  (∀ (c : Cmd) (p : Block) (s₀ : State), zciReady 0x0A02 1 (fun _ => [(0, 16)]) c p s₀ = true →
    let s := seen 0x0A02 c s₀
    let h := arg p 0 16
    let checks : List (Bool × Nat) := [(!regOwned s c.session.val h, stBusy), (regUsed s h || (s.reg h).deferred, stState)]
    (∀ st, firstFailing checks = some st → ∃ t', exec (.memFree c p) s₀ = .next t' ∧ Refused 0x0A02 c st s₀ t') ∧
    (firstFailing checks = none → dispRefs s h = true → ∃ t', exec (.memFree c p) s₀ = .next t' ∧
        Answered c { cplOf 0x0A02 c 0 0 0 s₀ with deferred := true } (freeRegion s h) t' ∧ KeptZ c [.disp, .mem] s₀ t') ∧
    (firstFailing checks = none → dispRefs s h = false → ∃ t', exec (.memFree c p) s₀ = .next t' ∧
        Answered c (cplOf 0x0A02 c 0 0 0 s₀) (freeRegion s h) t' ∧ KeptZ c [.disp, .mem] s₀ t')) ∧
  -- MEM_SET_RING (R377)
  (Shared 0x0A03 1 (fun _ => [(0, 16), (16, 2), (24, 8)]) .memSetRing) ∧
  (∀ (c : Cmd) (p : Block) (s₀ : State), zciReady 0x0A03 1 (fun _ => [(0, 16), (16, 2), (24, 8)]) c p s₀ = true →
    let s := seen 0x0A03 c s₀
    let h := arg p 0 16
    let checks : List (Bool × Nat) := [(!regOwned s c.session.val h, stBusy), (arg p 16 2 == 3, stInvalid), (regUsed s h || (s.reg h).deferred,
      stState)]
    (∀ st, firstFailing checks = some st → ∃ t', exec (.memSetRing c p) s₀ = .next t' ∧ Refused 0x0A03 c st s₀ t') ∧
    (firstFailing checks = none → ∃ t', exec (.memSetRing c p) s₀ = .next t' ∧
        Answered c (cplOf 0x0A03 c 0 0 0 s₀) (s.modReg h (fun r => { r with kind := arg p 16 2, hiwat := arg p 24 8, hiArmed := true, wpos := 0, rpos := 0, records := 0, recs := [] })) t' ∧
        KeptZ c [.mem] s₀ t')) ∧
  -- MEM_RING_ACK (R380)
  (Shared 0x0A04 2 (fun _ => [(0, 16), (64, 64)]) .memRingAck) ∧
  (∀ (c : Cmd) (p : Block) (s₀ : State), zciReady 0x0A04 2 (fun _ => [(0, 16), (64, 64)]) c p s₀ = true →
    let s := seen 0x0A04 c s₀
    let h := arg p 0 16
    let r := s.reg h
    let v := arg p 64 64
    let checks : List (Bool × Nat) := ringChecks s c.session.val h ++ [(r.bound != 0, stState), (decide (v < r.rpos ∨ r.wpos < v), stRange)]
    (∀ st, firstFailing checks = some st → ∃ t', exec (.memRingAck c p) s₀ = .next t' ∧ Refused 0x0A04 c st s₀ t') ∧
    (firstFailing checks = none → ∃ t', exec (.memRingAck c p) s₀ = .next t' ∧ Answered c (cplOf 0x0A04 c 0 0 0 s₀) (ringAck s h v) t' ∧
        KeptZ c [.mem] s₀ t')) ∧
  -- MEM_RING_STATUS (R390)
  (Shared 0x0A05 1 (fun _ => [(0, 16), (16, 1)]) .memRingStatus) ∧
  (∀ (c : Cmd) (p : Block) (s₀ : State), zciReady 0x0A05 1 (fun _ => [(0, 16), (16, 1)]) c p s₀ = true →
    let s := seen 0x0A05 c s₀
    let h := arg p 0 16
    let r := s.reg h
    let checks : List (Bool × Nat) := [(!regOwned s c.session.val h, stBusy)]
    (∀ st, firstFailing checks = some st → ∃ t', exec (.memRingStatus c p) s₀ = .next t' ∧ Refused 0x0A05 c st s₀ t') ∧
    (firstFailing checks = none → ∃ t', exec (.memRingStatus c p) s₀ = .next t' ∧ Answered c (cplOf 0x0A05 c 0 6 (pack [(2, r.kind), (1,
        b2n (regUsed s h)), (1, b2n (decide (1 ≤ r.bound ∧ r.bound ≤ 32))), (4, 0), (8, r.hiwat), (16, 0), (32, r.lost), (64, r.size), (64, r.wpos),
        (64, r.rpos), (64, r.records), (64, 0)]) s₀) (if argBit p 16 then s.setReg h { r with lost := 0 } else s) t' ∧ KeptZ c [.mem] s₀ t')) ∧
  -- MEM_COMMONS (R391)
  (Shared 0x0A06 1 (fun _ => [(0, 1), (16, 13), (32, 13)]) .memCommons) ∧
  (∀ (c : Cmd) (p : Block) (s₀ : State), zciReady 0x0A06 1 (fun _ => [(0, 1), (16, 13), (32, 13)]) c p s₀ = true →
    let s := seen 0x0A06 c s₀
    let n := arg p 16 13
    argBit p 0 = true →
    let checks : List (Bool × Nat) := [(n == 0, stInvalid), (decide (4096 < n), stRange), ((commonsPlace s n).isNone, stNoRes)]
    (∀ st, firstFailing checks = some st → ∃ t', exec (.memCommons c p) s₀ = .next t' ∧ Refused 0x0A06 c st s₀ t') ∧
    (firstFailing checks = none → 
       let a := (commonsPlace s n).getD 0
       ∃ t', exec (.memCommons c p) s₀ = .next t' ∧ Answered c (cplOf 0x0A06 c 0 1 (pack [(12, a), (4, 0), (13,
        n)]) s₀) ({ s with mem := { s.mem with commons := s.mem.commons ++ [(a, n, c.session.val)] } }) t' ∧ KeptZ c [.mem] s₀ t')) ∧
  -- MEM_COMMONS (R391), a run is freed
  (∀ (c : Cmd) (p : Block) (s₀ : State), zciReady 0x0A06 1 (fun _ => [(0, 1), (16, 13), (32, 13)]) c p s₀ = true →
    let s := seen 0x0A06 c s₀
    let n := arg p 16 13
    let f := arg p 32 13
    let run := (f, n, c.session.val)
    argBit p 0 = false →
    let checks : List (Bool × Nat) := [(n == 0 || !s.mem.commons.contains run, stInvalid), (runFed s f n, stState)]
    (∀ st, firstFailing checks = some st → ∃ t', exec (.memCommons c p) s₀ = .next t' ∧ Refused 0x0A06 c st s₀ t') ∧
    (firstFailing checks = none → ∃ t', exec (.memCommons c p) s₀ = .next t' ∧ Answered c (cplOf 0x0A06 c 0 1 (pack [(12, f), (4, 0), (13,
        n)]) s₀) (commonsFree s run) t' ∧ KeptZ c [.grove, .mem] s₀ t')) ∧
  -- MEM_RETIRE (R392)
  (Shared 0x0A07 1 (fun _ => [(0, 6)]) .memRetire) ∧
  (∀ (c : Cmd) (p : Block) (s₀ : State), zciReady 0x0A07 1 (fun _ => [(0, 6)]) c p s₀ = true →
    let s := seen 0x0A07 c s₀
    let r := arg p 0 6
    let q := r / 16
    let checks : List (Bool × Nat) := [((List.range 4).any (fun k => !owns s c.session.val 1 k), stBusy), ((s.quad q).retired == r % 16, stState),
      (!spareFree s q, stNoRes)]
    (∀ st, firstFailing checks = some st → ∃ t', exec (.memRetire c p) s₀ = .next t' ∧ Refused 0x0A07 c st s₀ t') ∧
    (firstFailing checks = none → ∃ t', exec (.memRetire c p) s₀ = .next t' ∧ Waits 0x0A07 c r [] [] (retireRank s q (r % 16) true) s₀ t' ∧
        KeptZ c [.mem] s₀ t')) ∧
  -- MEM_GET_STATUS (R393)
  (Shared 0x0A08 1 (fun _ => [(8, 1)]) .memGetStatus) ∧
  (∀ (c : Cmd) (p : Block) (s₀ : State), zciReady 0x0A08 1 (fun _ => [(8, 1)]) c p s₀ = true →
    let s := seen 0x0A08 c s₀
    let m := s.mem
    let four := List.range 4
    let mq := four.find? (fun q => (s.quad q).moving)
    let fr := freeRanges s
    ∃ t', exec (.memGetStatus c p) s₀ = .next t' ∧ Answered c (cplOf 0x0A08 c 0 8 (pack (four.map (fun q => (1,
        b2n ((s.quad q).retired != 0xFF))) ++ four.map (fun q => (1, b2n ((s.quad q).queued != 0xFF))) ++ [(2, mq.getD 0), (1, b2n mq.isSome), (1,
        b2n m.listFull), (4, 0)] ++ four.map (fun q => (8, (s.quad q).retired)) ++ [(32, match mq with | some q => (s.quad q).wmark | none => 0),
        (32, m.ce), (32, m.ue), (16, min m.poison.length 65535), (16, m.poisonRd), (16, m.poisonWr), (32, m.panics), (64, sizeOf_ fr), (64,
        (fr.map (fun r => r.2 - r.1)).foldl max 0), (64, sizeOf_ (freeZeroed s)), (13, m.regions.length), (3, 0), (13,
        4096 - (m.commons.map (fun r => r.2.1)).sum)])) s₀) (if argBit p 8 then { s with mem := { m with ce := 0, poisonRd := 0, poisonWr := 0, panics := 0 } }
        else s) t' ∧ KeptZ c [.mem] s₀ t') ∧
  -- MEM_GET_POISON (R394)
  (Shared 0x0A09 2 (fun _ => [(0, 16), (64, 64)]) .memGetPoison) ∧
  (∀ (c : Cmd) (p : Block) (s₀ : State), zciReady 0x0A09 2 (fun _ => [(0, 16), (64, 64)]) c p s₀ = true →
    let s := seen 0x0A09 c s₀
    let h := arg p 0 16
    let off := arg p 64 64
    let l := s.mem.poison
    let checks : List (Bool × Nat) := [(!regOwned s c.session.val h, stBusy), (off % 64 != 0, stInvalid), (regPast s h off (64 + 8 * l.length),
      stRange)]
    (∀ st, firstFailing checks = some st → ∃ t', exec (.memGetPoison c p) s₀ = .next t' ∧ Refused 0x0A09 c st s₀ t') ∧
    (firstFailing checks = none → ∃ t', exec (.memGetPoison c p) s₀ = .next t' ∧
        Waits 0x0A09 c transferWait (transferData 0 0 (0) h off (toBytes l.length 64 ++ l.flatMap (fun a => toBytes a 8))) [h] s s₀ t' ∧
        KeptZ c [] s₀ t'))

/-- DMA commands set channels, shadows and timer lines, raise lines, return status; STREAM_SET. Derived from the rules
named at each clause; the model's own choices in it are those of log entries 8, 16, 17, 37. -/
def Obligations.DmaCommands : Prop :=
  -- DMA_SET_CHANNEL (R437)
  (Shared 0x0B01 2 (fun _ => [(0, 5), (5, 1), (6, 1), (16, 16), (64, 32)]) .dmaSetChannel) ∧
  (∀ (c : Cmd) (p : Block) (s₀ : State), zciReady 0x0B01 2 (fun _ => [(0, 5), (5, 1), (6, 1), (16, 16), (64, 32)]) c p s₀ = true →
    let s := seen 0x0B01 c s₀
    let n := arg p 0 5
    let on := argBit p 5
    let m := arg p 6 1
    let h := arg p 16 16
    let first := arg p 64 32
    let s := handFirst s n
    let x := s.dma n
    let used := on && (m == 0 || h != noHandle)
    let checks : List (Bool × Nat) := [(!ownsDma s c.session.val n || (used && !regOwned s c.session.val h), stBusy), (used && m == 1 &&
      !isRecRing s h, stInvalid), ((x.on && (on || x.mode == 2)) || (!x.on && x.wbPend.isSome), stState), (on && m == 0 &&
      decide ((s.reg h).size < 64 * (first + 1)), stState)]
    (∀ st, firstFailing checks = some st → ∃ t', exec (.dmaSetChannel c p) s₀ = .next t' ∧ Refused 0x0B01 c st s₀ t') ∧
    (firstFailing checks = none → on = false → ((dmaDisable s n).dma n).wbPend.isSome = false → ∃ t', exec (.dmaSetChannel c p) s₀ = .next t' ∧
        Answered c (cplOf 0x0B01 c 0 0 0 s₀) (dmaDisable s n) t' ∧ KeptZ c [.host, .fe, .cal, .spec, .acq, .disp, .mon, .tiu, .grove, .mem, .move,
        .ctl, .flt, .sec, .pwr] s₀ t') ∧
    (firstFailing checks = none → on = false → ((dmaDisable s n).dma n).wbPend.isSome = true → ∃ t', exec (.dmaSetChannel c p) s₀ = .next t' ∧
        Waits 0x0B01 c n [] [] (dmaDisable s n) s₀ t' ∧ KeptZ c [.host, .fe, .cal, .spec, .acq, .disp, .mon, .tiu, .grove, .mem, .move, .ctl, .flt,
        .sec, .pwr] s₀ t') ∧
    (firstFailing checks = none → on = true → 
       let s1 := s.setDma n { x with on := true, mode := m, region := h, session := c.session.val, shadow := none, active := none, moved := 0, reqPend := false, dones := 0, crc := 0xFFFFFFFF, wbPend := none, loadNext := none }
       ∃ t', exec (.dmaSetChannel c p) s₀ = .next t' ∧ Answered c (cplOf 0x0B01 c 0 0 0 s₀) (if m = 0 then loadChain s1 n first else s1) t' ∧
        KeptZ c [.host, .cmds, .fe, .cal, .spec, .acq, .disp, .mon, .tiu, .grove, .mem, .move, .ctl, .flt, .sec, .pwr] s₀ t')) ∧
  -- DMA_SET_SHADOW (R438)
  (Shared 0x0B02 10 (fun _ => [(0, 5), (128, 368)]) .dmaSetShadow) ∧
  (∀ (c : Cmd) (p : Block) (s₀ : State), zciReady 0x0B02 10 (fun _ => [(0, 5), (128, 368)]) c p s₀ = true →
    let s := seen 0x0B02 c s₀
    let n := arg p 0 5
    let s := handFirst s n
    let x := s.dma n
    let checks : List (Bool × Nat) := [(!ownsDma s c.session.val n, stBusy), (!x.on || x.mode != 1, stState), (x.shadow.isSome, stState)]
    (∀ st, firstFailing checks = some st → ∃ t', exec (.dmaSetShadow c p) s₀ = .next t' ∧ Refused 0x0B02 c st s₀ t') ∧
    (firstFailing checks = none → ∃ t', exec (.dmaSetShadow c p) s₀ = .next t' ∧
        Answered c (cplOf 0x0B02 c 0 0 0 s₀) (s.setDma n { x with shadow := some { bits := arg p 128 512 }, shAt := s.now }) t' ∧ KeptZ c [.host,
        .cmds, .fe, .cal, .spec, .acq, .disp, .mon, .tiu, .grove, .mem, .move, .ctl, .flt, .sec, .pwr] s₀ t')) ∧
  -- DMA_RAISE (R439)
  (Shared 0x0B03 1 (fun _ => [(0, 4), (8, 1)]) .dmaRaise) ∧
  (∀ (c : Cmd) (p : Block) (s₀ : State), zciReady 0x0B03 1 (fun _ => [(0, 4), (8, 1)]) c p s₀ = true →
    let s := seen 0x0B03 c s₀
    let checks : List (Bool × Nat) := [(!owns s c.session.val 0x14 (arg p 0 4), stBusy)]
    (∀ st, firstFailing checks = some st → ∃ t', exec (.dmaRaise c p) s₀ = .next t' ∧ Refused 0x0B03 c st s₀ t') ∧
    (firstFailing checks = none → ∃ t', exec (.dmaRaise c p) s₀ = .next t' ∧
        Answered c (cplOf 0x0B03 c 0 0 0 s₀) ({ s with move := { s.move with sw := tput false s.move.sw (arg p 0 4) (argBit p 8) } }) t' ∧
        KeptZ c [.move] s₀ t')) ∧
  -- DMA_SET_TIMER (R439)
  (Shared 0x0B04 2 (fun _ => [(0, 4), (4, 1), (32, 32), (64, 64)]) .dmaSetTimer) ∧
  (∀ (c : Cmd) (p : Block) (s₀ : State), zciReady 0x0B04 2 (fun _ => [(0, 4), (4, 1), (32, 32), (64, 64)]) c p s₀ = true →
    let s := seen 0x0B04 c s₀
    let l := arg p 0 4
    let on := argBit p 4
    let at_ := arg p 64 64
    let checks : List (Bool × Nat) := [(!owns s c.session.val 0x13 l, stBusy), (on && decide (arg p 32 32 < 16), stRange), (on && tickBad s at_,
      stRange)]
    (∀ st, firstFailing checks = some st → ∃ t', exec (.dmaSetTimer c p) s₀ = .next t' ∧ Refused 0x0B04 c st s₀ t') ∧
    (firstFailing checks = none → ∃ t', exec (.dmaSetTimer c p) s₀ = .next t' ∧
        Answered c (cplOf 0x0B04 c 0 0 0 s₀) (s.setTml l (if on then { on := true, period := arg p 32 32, start := if at_ = 0 then s.now else at_ }
        else {})) t' ∧ KeptZ c [.move] s₀ t')) ∧
  -- DMA_GET_STATUS (R440)
  (Shared 0x0B05 1 (fun _ => [(0, 5), (8, 1)]) .dmaGetStatus) ∧
  (∀ (c : Cmd) (p : Block) (s₀ : State), zciReady 0x0B05 1 (fun _ => [(0, 5), (8, 1)]) c p s₀ = true →
    let s := seen 0x0B05 c s₀
    let n := arg p 0 5
    let s := handFirst s n
    let x := s.dma n
    let checks : List (Bool × Nat) := [(argBit p 8 && !ownsDma s c.session.val n, stBusy)]
    (∀ st, firstFailing checks = some st → ∃ t', exec (.dmaGetStatus c p) s₀ = .next t' ∧ Refused 0x0B05 c st s₀ t') ∧
    (firstFailing checks = none → ∃ t', exec (.dmaGetStatus c p) s₀ = .next t' ∧ Answered c (cplOf 0x0B05 c 0 4 (pack [(2, dmaState s n), (2,
        x.mode), (1, b2n x.shadow.isSome), (3, 0), (6, match x.active with | some d => d.req | none => 0), (2, 0), (48, x.moved), (32, x.dones),
        (32, x.bads), (32, x.lastCrc.toNat), (32, x.reqMerge), (32,
        x.poisonSkip)]) s₀) (if argBit p 8 then s.setDma n { x with bads := 0, reqMerge := 0, poisonSkip := 0 } else s) t' ∧ KeptZ c [.host, .cmds,
        .fe, .cal, .spec, .acq, .disp, .mon, .tiu, .grove, .mem, .move, .ctl, .flt, .sec, .pwr] s₀ t')) ∧
  -- STREAM_SET (R441)
  (Shared 0x0B06 4 (fun _ => [(0, 5), (5, 1), (6, 1), (7, 1), (8, 8), (16, 16), (32, 7), (48, 6), (64, 32), (96, 16), (112, 16), (128, 64), (192, 64)]) .streamSet) ∧
  (∀ (c : Cmd) (p : Block) (s₀ : State), zciReady 0x0B06 4 (fun _ => [(0, 5), (5, 1), (6, 1), (7, 1), (8, 8), (16, 16), (32, 7), (48, 6), (64, 32), (96, 16), (112, 16), (128, 64), (192, 64)]) c p s₀ = true →
    let s := seen 0x0B06 c s₀
    let n := arg p 0 5
    let on := argBit p 5
    let x := s.dma n
    on = false →
    let checks : List (Bool × Nat) := [(!ownsDma s c.session.val n, stBusy), (x.on && x.mode != 2, stState)]
    (∀ st, firstFailing checks = some st → ∃ t', exec (.streamSet c p) s₀ = .next t' ∧ Refused 0x0B06 c st s₀ t') ∧
    (firstFailing checks = none → ∃ t', exec (.streamSet c p) s₀ = .next t' ∧ Answered c (cplOf 0x0B06 c 0 1 noIndex s₀) (streamDisable s n) t' ∧
        KeptZ c [.host, .fe, .cal, .spec, .acq, .disp, .mon, .tiu, .grove, .mem, .move, .ctl, .flt, .sec, .pwr] s₀ t')) ∧
  -- STREAM_SET (R441), enabled
  (∀ (c : Cmd) (p : Block) (s₀ : State), zciReady 0x0B06 4 (fun _ => [(0, 5), (5, 1), (6, 1), (7, 1), (8, 8), (16, 16), (32, 7), (48, 6), (64, 32), (96, 16), (112, 16), (128, 64), (192, 64)]) c p s₀ = true →
    let s := seen 0x0B06 c s₀
    let n := arg p 0 5
    let on := argBit p 5
    let gr := argBit p 6
    let id := arg p 8 8
    let h := arg p 16 16
    let k := arg p 32 7
    let hs := arg p 64 32
    let rate := arg p 96 16
    let x := s.dma n
    let new : Dma := { x with on := true, mode := 2, session := c.session.val, p := (blk p 4), hwpos := 0, hrpos := 0, updCnt := 0, dones := 0, sigAt := 0, grains := [], first := if gr then bindGrain s id else 0, perNo := 0, perN := 0, doneAt := s.now }
    let s0 := (s.setDma n new).modReg h (fun r => { r with bound := n + 1 })
    let s1 := if gr then bindNow s0 (0x30 + n) id else s0
    on = true →
    let checks : List (Bool × Nat) := [(!ownsDma s c.session.val n || !regOwned s c.session.val h, stBusy), ((gr && !streamId id) ||
      !isRecRing s h || (gr && k % 2 != 0) || hs % 4096 != 0 || (!gr && rate == 0) || arg p 128 64 % 4096 != 0 || arg p 192 64 % 64 != 0,
      stInvalid), (x.on || (gr && !strRuns s id) || (s.reg h).bound != 0, stState), ((gr &&
      decide (k < 2 ∨ 64 < k ∨ (s.reg h).size < grainRecLen k (if id < 16 then 392 else 1032))) || decide (hs < 65536 ∨ 0x40000000 < hs) || (!gr &&
      decide (29500 < rate)) || decide (hs < (s.reg h).size), stRange), (decide (streamCap s < streamLoads s1) || (gr &&
      (decide (rawLimit < rawLoad s1) || decide (ddcLimit < ddcLoad s1))), stNoRes)]
    (∀ st, firstFailing checks = some st → ∃ t', exec (.streamSet c p) s₀ = .next t' ∧ Refused 0x0B06 c st s₀ t') ∧
    (firstFailing checks = none → ∃ t', exec (.streamSet c p) s₀ = .next t' ∧ Answered c (cplOf 0x0B06 c 0 1 (if gr then new.first % 2^48
        else noIndex) s₀) s1 t' ∧ KeptZ c [.fe, .mem, .move] s₀ t'))

/-- STOR and REC commands: port, format, mount, recordings, status, log pages. Derived from the rules named at each
clause; the model's own choices in it are those of log entries 2, 8, 16, 38, 55. -/
def Obligations.StorageCommands : Prop :=
  -- STOR_SET_PORT (R416)
  (Shared 0x0B07 1 (fun _ => [(0, 2), (4, 3), (8, 1)]) .storSetPort) ∧
  (∀ (c : Cmd) (p : Block) (s₀ : State), zciReady 0x0B07 1 (fun _ => [(0, 2), (4, 3), (8, 1)]) c p s₀ = true →
    let s := seen 0x0B07 c s₀
    let bf := arg p 0 2
    let mr := arg p 4 3
    let on := argBit p 8
    let s1 := portIdle s
    let checks : List (Bool × Nat) := [(!ownsPort s c.session.val, stBusy), (bf == 3 || mr == 0 || mr == 7, stInvalid), (s.move.mounted, stState),
      (storBusy s, stBusy)]
    (∀ st, firstFailing checks = some st → ∃ t', exec (.storSetPort c p) s₀ = .next t' ∧ Refused 0x0B07 c st s₀ t') ∧
    (firstFailing checks = none → on = true → ∃ t', exec (.storSetPort c p) s₀ = .next t' ∧
        Waits 0x0B07 c 0 [2 ^ linkCount bf - 1] [] ({ s1 with move := { s1.move with portOn := true, bifur := bf, maxRate := mr } }) s₀ t' ∧
        KeptZ c [.move] s₀ t') ∧
    (firstFailing checks = none → on = false → ∃ t', exec (.storSetPort c p) s₀ = .next t' ∧
        Answered c (cplOf 0x0B07 c 0 1 0 s₀) ({ s1 with move := { s1.move with portOn := false } }) t' ∧ KeptZ c [.move] s₀ t')) ∧
  -- STOR_FORMAT (R429)
  (Shared 0x0B08 1 (fun _ => [(0, 32)]) .storFormat) ∧
  (∀ (c : Cmd) (p : Block) (s₀ : State), zciReady 0x0B08 1 (fun _ => [(0, 32)]) c p s₀ = true →
    let s := seen 0x0B08 c s₀
    let pr := arg p 0 32
    let checks : List (Bool × Nat) := [(!ownsPort s c.session.val, stBusy), (!s.move.portOn || s.move.mounted || (drivesOk s).isEmpty, stState),
      (storBusy s, stBusy), (decide (pr < 4096 ∨ 262144 < pr), stRange), ((drivesOk s).any (fun n => !(s.link n).fits pr), stUnsup)]
    (∀ st, firstFailing checks = some st → ∃ t', exec (.storFormat c p) s₀ = .next t' ∧ Refused 0x0B08 c st s₀ t') ∧
    (firstFailing checks = none → ∃ t', exec (.storFormat c p) s₀ = .next t' ∧ Waits 0x0B08 c 0 [pr] [] (setJob (writeLabels s pr) 1) s₀ t' ∧
        KeptZ c [.move] s₀ t')) ∧
  -- STOR_MOUNT (R430)
  (Shared 0x0B09 1 (fun _ => []) .storMount) ∧
  (∀ (c : Cmd) (p : Block) (s₀ : State), zciReady 0x0B09 1 (fun _ => []) c p s₀ = true →
    let s := seen 0x0B09 c s₀
    let checks : List (Bool × Nat) := [(!ownsPort s c.session.val, stBusy), (!s.move.portOn || s.move.mounted || (drivesOk s).isEmpty, stState),
      (storBusy s, stBusy)]
    (∀ st, firstFailing checks = some st → ∃ t', exec (.storMount c p) s₀ = .next t' ∧ Refused 0x0B09 c st s₀ t') ∧
    (firstFailing checks = none → ∃ t', exec (.storMount c p) s₀ = .next t' ∧
        Waits 0x0B09 c 0 [] [] (setJob ((List.range 4).foldl (fun a n => a.modLink n (fun x => { x with label := [] })) s) 2) s₀ t' ∧
        KeptZ c [.move] s₀ t')) ∧
  -- STOR_UNMOUNT (R443)
  (Shared 0x0B0A 1 (fun _ => []) .storUnmount) ∧
  (∀ (c : Cmd) (p : Block) (s₀ : State), zciReady 0x0B0A 1 (fun _ => []) c p s₀ = true →
    let s := seen 0x0B0A c s₀
    let checks : List (Bool × Nat) := [(!ownsPort s c.session.val, stBusy), (!s.move.mounted || s.move.entry != 0xFFFF, stState), (storBusy s,
      stBusy)]
    (∀ st, firstFailing checks = some st → ∃ t', exec (.storUnmount c p) s₀ = .next t' ∧ Refused 0x0B0A c st s₀ t') ∧
    (firstFailing checks = none → ∃ t', exec (.storUnmount c p) s₀ = .next t' ∧
        Waits 0x0B0A c 0 [] [] ({ s with move := { s.move with job := 7, flushOf := flushLinks s } }) s₀ t' ∧ KeptZ c [.move] s₀ t')) ∧
  -- REC_OPEN (R433)
  (Shared 0x0B0B 18 (fun b => [(0, 5), (16, 16), (32, 32)] ++ (List.range (min 16 (fld b 0 5))).map (fun j => (128 + 64 * j, 48))) .recOpen) ∧
  (∀ (c : Cmd) (p : Block) (s₀ : State), zciReady 0x0B0B 18 (fun b => [(0, 5), (16, 16), (32, 32)] ++ (List.range (min 16 (fld b 0 5))).map (fun j => (128 + 64 * j, 48))) c p s₀ = true →
    let s := seen 0x0B0B c s₀
    let k := arg p 0 5
    let es := recEntries (blk p 18)
    let h := arg p 16 16
    let cp := arg p 32 32
    let rings := (es.filter (fun e => srcKind e == 2)).map srcRing
    let grains := (es.filter (fun e => srcKind e == 1)).map srcStream
    let s1 := recStart s c.session.val (blk p 18)
    let checks : List (Bool × Nat) := [(!ownsPort s c.session.val || !regOwned s c.session.val h ||
      rings.any (fun r => !regOwned s c.session.val r), stBusy), (es.any (fun e => srcKind e != 1 && srcKind e != 2) ||
      grains.any (fun i => !streamId i) || rings.any (fun r => !isRecRing s r), stInvalid), (s.flt.signBad, stFaulted), (!s.move.mounted ||
      s.move.entry != 0xFFFF || grains.any (fun i => !strRuns s i) || rings.any (fun r => (s.reg r).bound != 0), stState), (storBusy s, stBusy),
      (decide (k < 1 ∨ 16 < k) || (s.reg h).size % stripeSize != 0 || decide ((s.reg h).size < 16 * s.move.drives * stripeSize) ||
      decide (cp < 10 ∨ 60000 < cp) || (es.any (fun e => srcKind e == 2 && srcRate e == 0)) || decide (s.move.vstripes ≤ s.move.next), stRange),
      (decide (recLine s < recLoadOf s es) || (freeEntry s).isNone || decide (rawLimit < rawLoad s1) || decide (ddcLimit < ddcLoad s1), stNoRes)]
    (∀ st, firstFailing checks = some st → ∃ t', exec (.recOpen c p) s₀ = .next t' ∧ Refused 0x0B0B c st s₀ t') ∧
    (firstFailing checks = none → ∃ t', exec (.recOpen c p) s₀ = .next t' ∧ Waits 0x0B0B c 0 [] (h :: rings) s1 s₀ t' ∧ KeptZ c [.cal, .mem,
        .move] s₀ t')) ∧
  -- REC_CLOSE (R436)
  (Shared 0x0B0C 1 (fun _ => []) .recClose) ∧
  (∀ (c : Cmd) (p : Block) (s₀ : State), zciReady 0x0B0C 1 (fun _ => []) c p s₀ = true →
    let s := seen 0x0B0C c s₀
    let checks : List (Bool × Nat) := [(!ownsPort s c.session.val, stBusy), (s.move.entry == 0xFFFF || s.move.ending != 0xFF || s.move.job == 8 ||
      s.move.recClose.isSome, stState)]
    (∀ st, firstFailing checks = some st → ∃ t', exec (.recClose c p) s₀ = .next t' ∧ Refused 0x0B0C c st s₀ t') ∧
    (firstFailing checks = none → ∃ t', exec (.recClose c p) s₀ = .next t' ∧ Waits 0x0B0C c 0 [] [] (recStop s 0) s₀ t' ∧ KeptZ c [.host, .cmds,
        .fe, .cal, .spec, .acq, .disp, .mon, .tiu, .grove, .mem, .move, .ctl, .flt, .sec, .pwr] s₀ t')) ∧
  -- STOR_GET_STATUS (R445)
  (Shared 0x0B0D 1 (fun _ => []) .storGetStatus) ∧
  (∀ (c : Cmd) (p : Block) (s₀ : State), zciReady 0x0B0D 1 (fun _ => []) c p s₀ = true →
    let s := seen 0x0B0D c s₀
    let m := s.move
    let four := List.range 4
    ∃ t', exec (.storGetStatus c p) s₀ = .next t' ∧ Answered c (cplOf 0x0B0D c 0 8 (pack ([(2, m.bifur), (1, b2n m.mounted), (1,
        b2n (m.entry != 0xFFFF))] ++ four.map (fun n => (1, b2n (s.link n).ok)) ++ [(8, 0), (64, linkWords s), (16, m.entry), (32, 0), (64,
        m.vstripes), (64, m.next), (32, m.admitRate), (32, m.recLoad), (32, if m.entry = 0xFFFF then 0 else bufFree s), (32,
        m.gapGrains)] ++ four.map (fun n => (32, (s.link n).meas)))) s₀) s t' ∧ KeptZ c [] s₀ t') ∧
  -- STOR_LOG_PAGE (R446)
  (Shared 0x0B0E 2 (fun _ => [(0, 2), (8, 8), (16, 16), (64, 64)]) .storLogPage) ∧
  (∀ (c : Cmd) (p : Block) (s₀ : State), zciReady 0x0B0E 2 (fun _ => [(0, 2), (8, 8), (16, 16), (64, 64)]) c p s₀ = true →
    let s := seen 0x0B0E c s₀
    let h := arg p 16 16
    let off := arg p 64 64
    let checks : List (Bool × Nat) := [(!ownsPort s c.session.val || !regOwned s c.session.val h, stBusy), (off % 64 != 0, stInvalid),
      (decide (arg p 8 8 < 1 ∨ 3 < arg p 8 8), stUnsup), (!(s.link (arg p 0 2)).ok, stState), (regPast s h off 4096, stRange)]
    (∀ st, firstFailing checks = some st → ∃ t', exec (.storLogPage c p) s₀ = .next t' ∧ Refused 0x0B0E c st s₀ t') ∧
    (firstFailing checks = none → ∃ t', exec (.storLogPage c p) s₀ = .next t' ∧ Waits 0x0B0E c (arg p 0 2) [h, off] [h] s s₀ t' ∧
        KeptZ c [] s₀ t'))

/-- AUX and CTL commands set the reference, inputs, sequence and control outputs. Derived from the rules named at each
clause; the model's own choices in it are those of log entries 16, 17, 43. -/
def Obligations.AuxAndControlCommands : Prop :=
  -- AUX_SET_REF (R493)
  (Shared 0x0C01 1 (fun _ => [(0, 2)]) .auxSetRef) ∧
  (∀ (c : Cmd) (p : Block) (s₀ : State), zciReady 0x0C01 1 (fun _ => [(0, 2)]) c p s₀ = true →
    let s := seen 0x0C01 c s₀
    let checks : List (Bool × Nat) := [(!owns s c.session.val 0x16 0, stBusy), (arg p 0 2 == 3, stInvalid), (s.aux.run, stState)]
    (∀ st, firstFailing checks = some st → ∃ t', exec (.auxSetRef c p) s₀ = .next t' ∧ Refused 0x0C01 c st s₀ t') ∧
    (firstFailing checks = none → arg p 0 2 = s.aux.source → ∃ t', exec (.auxSetRef c p) s₀ = .next t' ∧
        Answered c (cplOf 0x0C01 c 0 0 0 s₀) s t' ∧ KeptZ c [] s₀ t') ∧
    (firstFailing checks = none → arg p 0 2 ≠ s.aux.source → 
       let s1 := auxSetRefok s false
       ∃ t', exec (.auxSetRef c p) s₀ = .next t' ∧
        Answered c (cplOf 0x0C01 c 0 0 0 s₀) ({ s1 with aux := { s1.aux with source := arg p 0 2, refIn := none } }) t' ∧ KeptZ c [.host, .fe, .cal,
        .spec, .acq, .disp, .mon, .tiu, .grove, .mem, .move, .aux, .ctl, .flt, .sec, .pwr] s₀ t')) ∧
  -- AUX_SET_INPUT (R493)
  (Shared 0x0C02 1 (fun _ => [(0, 4), (4, 1), (5, 1), (16, 16), (32, 16)]) .auxSetInput) ∧
  (∀ (c : Cmd) (p : Block) (s₀ : State), zciReady 0x0C02 1 (fun _ => [(0, 4), (4, 1), (5, 1), (16, 16), (32, 16)]) c p s₀ = true →
    let s := seen 0x0C02 c s₀
    let n := arg p 0 4
    let x := s.auxIn n
    let checks : List (Bool × Nat) := [(!owns s c.session.val 0x16 0, stBusy), (decide (arg p 16 16 > arg p 32 16), stInvalid), (s.aux.run &&
      argBit p 4 != x.range, stState)]
    (∀ st, firstFailing checks = some st → ∃ t', exec (.auxSetInput c p) s₀ = .next t' ∧ Refused 0x0C02 c st s₀ t') ∧
    (firstFailing checks = none → ∃ t', exec (.auxSetInput c p) s₀ = .next t' ∧
        Answered c (cplOf 0x0C02 c 0 0 0 s₀) (s.setAuxIn n { x with range := argBit p 4, limen := argBit p 5, lo := arg p 16 16, hi := arg p 32 16, fresh := true, outside := x.outside && argBit p 5 }) t' ∧
        KeptZ c [.aux] s₀ t')) ∧
  -- AUX_SET_SEQ (R494)
  (Shared 0x0C03 6 (fun b => if bit b 0 then [(0, 1), (1, 1), (8, 5), (32, 32), (64, 64)] ++ (List.range (min 16 (fld b 8 5))).flatMap (fun e => [(128 + 16 * e, 6), (136 + 16 * e, 8)]) else [(0, 1)]) .auxSetSeq) ∧
  (∀ (c : Cmd) (p : Block) (s₀ : State), zciReady 0x0C03 6 (fun b => if bit b 0 then [(0, 1), (1, 1), (8, 5), (32, 32), (64, 64)] ++ (List.range (min 16 (fld b 8 5))).flatMap (fun e => [(128 + 16 * e, 6), (136 + 16 * e, 8)]) else [(0, 1)]) c p s₀ = true →
    let s := seen 0x0C03 c s₀
    let l := seqEntries (blk p 6)
    let at_ := arg p 64 64
    let start := if at_ = 0 then s.now + 1 else at_
    let checks : List (Bool × Nat) := [(!owns s c.session.val 0x16 0, stBusy), (argBit p 0 && arg p 8 5 == 0, stInvalid), (argBit p 0 &&
      (l.take 16).any (fun e => e.2.1 == 3 || (e.2.1 != 0 && (s.auxIn e.1).range)), stInvalid), (argBit p 0 && (decide (arg p 8 5 > 16) ||
      (arg p 32 32 != 0 && decide (arg p 32 32 < seqLen l)) || tickBad s at_), stRange)]
    (∀ st, firstFailing checks = some st → ∃ t', exec (.auxSetSeq c p) s₀ = .next t' ∧ Refused 0x0C03 c st s₀ t') ∧
    (firstFailing checks = none → argBit p 0 = false → ∃ t', exec (.auxSetSeq c p) s₀ = .next t' ∧
        Answered c (cplOf 0x0C03 c 0 2 0 s₀) (auxStop s) t' ∧ KeptZ c [.aux] s₀ t') ∧
    (firstFailing checks = none → argBit p 0 = true → (s.aux.run && s.aux.inPass) = true → ∃ t', exec (.auxSetSeq c p) s₀ = .next t' ∧
        Answered c (cplOf 0x0C03 c 0 2 (stampOf start) s₀) ({ s with aux := { s.aux with stopReq := true, repl := some (argBit p 1, l, arg p 32 32, start) } }) t' ∧
        KeptZ c [.aux] s₀ t') ∧
    (firstFailing checks = none → argBit p 0 = true → (s.aux.run && s.aux.inPass) = false → ∃ t', exec (.auxSetSeq c p) s₀ = .next t' ∧
        Answered c (cplOf 0x0C03 c 0 2 (stampOf start) s₀) ({ s with aux := { s.aux with run := true, halted := !yp0Locked s, cont := argBit p 1, entries := l, period := arg p 32 32, start := start, slot := 0, inPass := false, stopReq := false, passes := 0, seq := 0, pull := 0, repl := none } }) t' ∧
        KeptZ c [.aux] s₀ t')) ∧
  -- AUX_GET_STATUS (R495)
  (Shared 0x0C04 1 (fun _ => [(8, 1)]) .auxGetStatus) ∧
  (∀ (c : Cmd) (p : Block) (s₀ : State), zciReady 0x0C04 1 (fun _ => [(8, 1)]) c p s₀ = true →
    let s := seen 0x0C04 c s₀
    let x := s.aux
    let ins := List.range 16
    let r := pack ([(2, x.source), (1, b2n x.refok), (1, b2n x.run), (1, b2n x.cont), (3, 0), (5, x.entries.length), (3,
      0)] ++ ins.map (fun n => (1, b2n (s.auxIn n).range)) ++ [(32, x.passes), (32, x.ovrCount)] ++ ins.map (fun n => (1,
      b2n (s.auxIn n).outside)) ++ [(16, 0)] ++ ins.map (fun n => (16, (s.auxIn n).last)) ++ [(80, x.passTime)])
    ∃ t', exec (.auxGetStatus c p) s₀ = .next t' ∧
        Answered c (cplOf 0x0C04 c 0 8 r s₀) (if argBit p 8 then { s with aux := { x with ovrCount := 0 } } else s) t' ∧ KeptZ c [.aux] s₀ t') ∧
  -- CTL_SET_OUTPUT (R496)
  (Shared 0x0C05 1 (fun b => if bit b 3 then [(0, 3), (3, 1), (4, 1), (5, 1), (6, 1), (8, 12), (24, 12)] else [(0, 3), (3, 1)]) .ctlSetOutput) ∧
  (∀ (c : Cmd) (p : Block) (s₀ : State), zciReady 0x0C05 1 (fun b => if bit b 3 then [(0, 3), (3, 1), (4, 1), (5, 1), (6, 1), (8, 12), (24, 12)] else [(0, 3), (3, 1)]) c p s₀ = true →
    let s := seen 0x0C05 c s₀
    let n := arg p 0 3
    let x := if yp0Locked s then (s.ctlO n).elapse s.now else s.ctlO n
    let code := arg p 8 12
    let y := { x with direct := argBit p 5, fsafe := argBit p 6, safe := arg p 24 12 }
    let checks : List (Bool × Nat) := [(!owns s c.session.val 0x17 n, stBusy)]
    (∀ st, firstFailing checks = some st → ∃ t', exec (.ctlSetOutput c p) s₀ = .next t' ∧ Refused 0x0C05 c st s₀ t') ∧
    (firstFailing checks = none → argBit p 3 = false → ∃ t', exec (.ctlSetOutput c p) s₀ = .next t' ∧
        Answered c (cplOf 0x0C05 c 0 0 0 s₀) (s.setCtlO n { x with on := false, out := 0, code := 0, hold := false, rphase := 0, direct := false, frozen := none }) t' ∧
        KeptZ c [.ctl] s₀ t') ∧
    (firstFailing checks = none → argBit p 3 = true → x.on = false → 
       let z := { y with on := true, range := argBit p 4, newRange := argBit p 4, last := code, cmdAt := some s.now }
       ∃ t', exec (.ctlSetOutput c p) s₀ = .next t' ∧
        Answered c (cplOf 0x0C05 c 0 0 0 s₀) (s.setCtlO n (if yp0Locked s then { z with code := code, out := code, hold := false, rphase := 0 }
        else { z with frozen := some code })) t' ∧ KeptZ c [.ctl] s₀ t') ∧
    (firstFailing checks = none → argBit p 3 = true → x.on = true → argBit p 4 ≠ x.newRange → ∃ t', exec (.ctlSetOutput c p) s₀ = .next t' ∧
        Answered c (cplOf 0x0C05 c 0 0 0 s₀) (s.setCtlO n { y with newRange := argBit p 4, rphase := 1, hold := true, holdEnd := s.now + 40000, holdAt := none, out := 0, code := code, last := code, cmdAt := some s.now }) t' ∧
        KeptZ c [.ctl] s₀ t') ∧
    (firstFailing checks = none → argBit p 3 = true → x.on = true → argBit p 4 = x.newRange → ∃ t', exec (.ctlSetOutput c p) s₀ = .next t' ∧
        Answered c (cplOf 0x0C05 c 0 0 0 s₀) (ctlCmd (s.setCtlO n y) n code) t' ∧ KeptZ c [.ctl] s₀ t')) ∧
  -- CTL_WRITE (R497)
  (Shared 0x0C06 4 (fun _ => (0, 8) :: (192, 64) :: (List.range 8).map (fun n => (64 + 16 * n, 12))) .ctlWrite) ∧
  (∀ (c : Cmd) (p : Block) (s₀ : State), zciReady 0x0C06 4 (fun _ => (0, 8) :: (192, 64) :: (List.range 8).map (fun n => (64 + 16 * n, 12))) c p s₀ = true →
    let s := seen 0x0C06 c s₀
    let outs := maskBits 8 (arg p 0 8)
    let at_ := arg p 192 64
    let checks : List (Bool × Nat) := [(outs.any (fun n => !owns s c.session.val 0x17 n), stBusy), (arg p 0 8 == 0, stInvalid),
      (outs.any (fun n => !(s.ctlO n).on || (s.ctlO n).timed.isSome), stState), (tickBad s at_, stRange)]
    (∀ st, firstFailing checks = some st → ∃ t', exec (.ctlWrite c p) s₀ = .next t' ∧ Refused 0x0C06 c st s₀ t') ∧
    (firstFailing checks = none → 
       let T := if at_ = 0 then s.now + 1 else at_
       ∃ t', exec (.ctlWrite c p) s₀ = .next t' ∧ Waits 0x0C06 c 0 [T,
        arg p 0 8] [] (outs.foldl (fun a n => a.modCtlO n (fun x => { x with timed := some (T, fld (blk p 4) (64 + 16 * n) 12) })) s) s₀ t' ∧
        KeptZ c [.ctl] s₀ t')) ∧
  -- CTL_GET_STATUS (R498)
  (Shared 0x0C07 1 (fun _ => []) .ctlGetStatus) ∧
  (∀ (c : Cmd) (p : Block) (s₀ : State), zciReady 0x0C07 1 (fun _ => []) c p s₀ = true →
    let s := seen 0x0C07 c s₀
    let now := fun n => if yp0Locked s then (s.ctlO n).elapse s.now else s.ctlO n
    ∃ t', exec (.ctlGetStatus c p) s₀ = .next t' ∧ Answered c (cplOf 0x0C07 c 0 4 (pack ((List.range 8).map (fun n => (32,
        (now n).word)))) s₀) s t' ∧ KeptZ c [] s₀ t')

/-- FLT commands return, weigh, clear and force fault sources. Derived from the rules named at each clause; the model's
own choices in it are those of log entries 16, 22, 23. -/
def Obligations.FaultCommands : Prop :=
  -- FLT_GET_STATUS (R521)
  (Shared 0x0D01 1 (fun _ => [(0, 6)]) .fltGetStatus) ∧
  (∀ (c : Cmd) (p : Block) (s₀ : State), zciReady 0x0D01 1 (fun _ => [(0, 6)]) c p s₀ = true →
    let s := seen 0x0D01 c s₀
    let g := arg p 0 6
    let f := s.flt
    let bits := fun (h : Nat → Bool) => pack ((List.range 128).map (fun k => (1, b2n (h (256 * g + k)))))
    let checks : List (Bool × Nat) := [(decide (48 ≤ g), stRange)]
    (∀ st, firstFailing checks = some st → ∃ t', exec (.fltGetStatus c p) s₀ = .next t' ∧ Refused 0x0D01 c st s₀ t') ∧
    (firstFailing checks = none → ∃ t', exec (.fltGetStatus c p) s₀ = .next t' ∧ Answered c (cplOf 0x0D01 c 0 8 (pack [(2, s.host.engine), (1,
        b2n (!f.wins.isEmpty)), (13, 0), (96, pack ((List.range 48).map (fun g => (2, worstOf s g)))), (32, f.ncorr), (32, f.ncont), (32, f.nfatal),
        (32, f.nconseq), (16, 0), (128, bits (isSticky s)), (128, bits (tget false f.conseq))]) s₀) s t' ∧ KeptZ c [] s₀ t')) ∧
  -- FLT_SET_SEVERITY (R522)
  (Shared 0x0D02 1 (fun _ => [(0, 16), (16, 2)]) .fltSetSeverity) ∧
  (∀ (c : Cmd) (p : Block) (s₀ : State), zciReady 0x0D02 1 (fun _ => [(0, 16), (16, 2)]) c p s₀ = true →
    let s := seen 0x0D02 c s₀
    let id := arg p 0 16
    let v := arg p 16 2
    let d := fltDefault id
    let rest := s.flt.sev.filter (fun e => e.1 != id || (decide (e.2.2 < s.now) && e.2.1 == sevOf s id))
    let checks : List (Bool × Nat) := [(!ownsAllCh s c.session.val, stBusy), (v == 0, stInvalid), (!fltDefined id || decide (v < d.2), stRange)]
    (∀ st, firstFailing checks = some st → ∃ t', exec (.fltSetSeverity c p) s₀ = .next t' ∧ Refused 0x0D02 c st s₀ t') ∧
    (firstFailing checks = none → ∃ t', exec (.fltSetSeverity c p) s₀ = .next t' ∧ Answered c (cplOf 0x0D02 c 0 1 (pack [(2, sevSet s id), (6, 0),
        (2, d.2), (6, 0), (2, d.1), (46, 0)]) s₀) ({ s with flt := { s.flt with sev := (id, v, s.now) :: rest } }) t' ∧ KeptZ c [.flt] s₀ t')) ∧
  -- FLT_GET_RECORD (R521)
  (Shared 0x0D03 1 (fun _ => [(0, 6)]) .fltGetRecord) ∧
  (∀ (c : Cmd) (p : Block) (s₀ : State), zciReady 0x0D03 1 (fun _ => [(0, 6)]) c p s₀ = true →
    let s := seen 0x0D03 c s₀
    let checks : List (Bool × Nat) := [(decide (48 ≤ arg p 0 6), stRange)]
    (∀ st, firstFailing checks = some st → ∃ t', exec (.fltGetRecord c p) s₀ = .next t' ∧ Refused 0x0D03 c st s₀ t') ∧
    (firstFailing checks = none → ∃ t', exec (.fltGetRecord c p) s₀ = .next t' ∧
        Answered c (cplOf 0x0D03 c 0 8 ((s.frec (arg p 0 6)).encode) s₀) s t' ∧ KeptZ c [] s₀ t')) ∧
  -- FLT_CLEAR (R503)
  (Shared 0x0D04 1 (fun _ => [(0, 48), (48, 1)]) .fltClear) ∧
  (∀ (c : Cmd) (p : Block) (s₀ : State), zciReady 0x0D04 1 (fun _ => [(0, 48), (48, 1)]) c p s₀ = true →
    let s := seen 0x0D04 c s₀
    let rec_ := argBit p 48 && s.host.engine == 2
    let checks : List (Bool × Nat) := [(!ownsAllCh s c.session.val, stBusy), (arg p 0 48 == 0 && !argBit p 48, stInvalid), (rec_ &&
      recoverBlocked s, stState)]
    (∀ st, firstFailing checks = some st → ∃ t', exec (.fltClear c p) s₀ = .next t' ∧ Refused 0x0D04 c st s₀ t') ∧
    (firstFailing checks = none → ∃ t', exec (.fltClear c p) s₀ = .next t' ∧
        Answered c (cplOf 0x0D04 c 0 0 0 s₀) (clearGroups (if rec_ then recover s else s) (arg p 0 48)) t' ∧ KeptZ c [.host, .acq, .flt,
        .pwr] s₀ t')) ∧
  -- FLT_FORCE (R509)
  (Shared 0x0D05 2 (fun _ => [(0, 16), (16, 1), (64, 64)]) .fltForce) ∧
  (∀ (c : Cmd) (p : Block) (s₀ : State), zciReady 0x0D05 2 (fun _ => [(0, 16), (16, 1), (64, 64)]) c p s₀ = true →
    let s := seen 0x0D05 c s₀
    let id := arg p 0 16
    let a := arg p 64 64
    let at_ := State.evTick { s with now := s.now + 1 }
    let checks : List (Bool × Nat) := [(!ownsAllCh s c.session.val, stBusy), (!forceable id, stDenied), (isEcc id && arg p 16 1 != id % 2,
      stInvalid), (isEcc id && a % 64 != 0, stRange), (isEcc id && !eccLineOk s c.session.val id a, stRange)]
    (∀ st, firstFailing checks = some st → ∃ t', exec (.fltForce c p) s₀ = .next t' ∧ Refused 0x0D05 c st s₀ t') ∧
    (firstFailing checks = none → isEcc id = true → ∃ t', exec (.fltForce c p) s₀ = .next t' ∧ Answered c (cplOf 0x0D05 c 0 2 (pack [(16, 0), (64,
        s.now)]) s₀) ({ s with mem := { s.mem with forced := tput 0 s.mem.forced a (1 + id % 2) } }) t' ∧ KeptZ c [.mem] s₀ t') ∧
    (firstFailing checks = none → isEcc id = false → ∃ t', exec (.fltForce c p) s₀ = .next t' ∧ Answered c (cplOf 0x0D05 c 0 2 (pack [(16, 0),
        (64, at_)]) s₀) ({ s with flt := { s.flt with forcedDue := s.flt.forcedDue ++ [(id, s.now)] } }) t' ∧ KeptZ c [.flt] s₀ t'))

/-- SEC and PERF commands: certificate, attestation, life cycle, counters. Derived from the rules named at each clause;
the model's own choices in it are those of log entries 8, 9, 16, 17, 25, 26. -/
def Obligations.SecurityAndPerfCommands : Prop :=
  -- SEC_GET_CERT (R525)
  (Shared 0x0D06 1 (fun _ => [(0, 2), (16, 16), (32, 32)]) .secGetCert) ∧
  (∀ (c : Cmd) (p : Block) (s₀ : State), zciReady 0x0D06 1 (fun _ => [(0, 2), (16, 16), (32, 32)]) c p s₀ = true →
    let s := seen 0x0D06 c s₀
    let h := arg p 16 16
    let off := 64 * arg p 32 32
    let bs := Config.cert (arg p 0 2)
    let checks : List (Bool × Nat) := [(!regOwned s c.session.val h, stBusy), (s.sec.life == 0, stState), (arg p 0 2 == 3 ||
      regPast s h off bs.length, stRange)]
    (∀ st, firstFailing checks = some st → ∃ t', exec (.secGetCert c p) s₀ = .next t' ∧ Refused 0x0D06 c st s₀ t') ∧
    (firstFailing checks = none → ∃ t', exec (.secGetCert c p) s₀ = .next t' ∧ Waits 0x0D06 c transferWait (transferData 0 1 (pack [(12,
        bs.length)]) h off (bs)) [h] s s₀ t' ∧ KeptZ c [] s₀ t')) ∧
  -- SEC_ATTEST (R518)
  (Shared 0x0D07 10 (fun _ => [(0, 16), (16, 16), (64, 64), (128, 64), (192, 64), (256, 80), (352, 256)]) .secAttest) ∧
  (∀ (c : Cmd) (p : Block) (s₀ : State), zciReady 0x0D07 10 (fun _ => [(0, 16), (16, 16), (64, 64), (128, 64), (192, 64), (256, 80), (352, 256)]) c p s₀ = true →
    let s := seen 0x0D07 c s₀
    let h := arg p 0 16
    let o := arg p 16 16
    let len := arg p 128 64
    let off := arg p 192 64
    let checks : List (Bool × Nat) := [(s.flt.signBad, stFaulted), ((len != 0 && !regOwned s c.session.val h) || !regOwned s c.session.val o,
      stBusy), (off % 64 != 0, stInvalid), (len != 0 && regUsed s h, stState), (decide (devSize < len) || (len != 0 &&
      regPast s h (arg p 64 64) len) || regPast s o off 352, stRange)]
    (∀ st, firstFailing checks = some st → ∃ t', exec (.secAttest c p) s₀ = .next t' ∧ Refused 0x0D07 c st s₀ t') ∧
    (firstFailing checks = none → ∃ t', exec (.secAttest c p) s₀ = .next t' ∧ Waits 0x0D07 c transferWait [(blk p 10)] (if len = 0 then [o]
        else [h, o]) s s₀ t' ∧ KeptZ c [] s₀ t')) ∧
  -- SEC_SET_LIFECYCLE (R524)
  (∀ (c : Cmd) (p : Block) (auth : List Nat) (s₀ : State), zciFront 0x0D08 c s₀ = true → wellFormed 2 (fun _ => [(0, 3), (64, 64)]) c p = false →
    ∃ t', exec (.secSetLifecycle c p auth) s₀ = .next t' ∧ Completed c (cplOf 0x0D08 c stInvalid 0 0 s₀) (seen 0x0D08 c s₀) t' ∧
      Follows (renewChallenge (complete (seen 0x0D08 c s₀) c.session.val (cplOf 0x0D08 c stInvalid 0 0 s₀))) t' ∧ KeptZ c [.sec] s₀ t') ∧
  (∀ (c : Cmd) (p : Block) (auth : List Nat) (s₀ : State), zciReady 0x0D08 2 (fun _ => [(0, 3), (64, 64)]) c p s₀ = true →
    let s := seen 0x0D08 c s₀
    let n := c.session.val
    let tgt := arg p 0 3
    let new := (targetState tgt).getD 0
    let bs := (bytesOf auth ++ List.replicate 256 0).take 256
    let s1 := lifeMove (if new = 2 then { s with sec := { s.sec with owner := some (ofBytes (bs.take 48)) } } else if new = 3 then eraseField s
      else s) new
    let checks : List (Bool × Nat) := [(!ownsAllCh s n, stBusy), ((targetState tgt).isNone || arg p 64 64 % 64 != 0, stInvalid), (othersOpen s n ||
      (List.range 6).any (fun id => (s.str id).running) || s.move.entry != 0xFFFF, stState), (!lifeAllowed s.sec.life new, stState)]
    let denied : Bool := decide (s.sec.life = 2) && !ownerAuth s tgt bs
    (∀ st, firstFailing checks = some st → ∃ t', exec (.secSetLifecycle c p auth) s₀ = .next t' ∧
      Completed c (cplOf 0x0D08 c st 0 0 s₀) s t' ∧ Follows (renewChallenge (complete s n (cplOf 0x0D08 c st 0 0 s₀))) t' ∧ KeptZ c [.sec] s₀ t') ∧
    (firstFailing checks = none → denied = true → ∃ t', exec (.secSetLifecycle c p auth) s₀ = .next t' ∧
      Completed c (cplOf 0x0D08 c stDenied 0 0 s₀) (raiseFault s 0x2B01 {}) t' ∧
      Follows (renewChallenge (perfAdd (complete (raiseFault s 0x2B01 {}) n (cplOf 0x0D08 c stDenied 0 0 s₀)) 0x14 n 1)) t' ∧ KeptZ c [.host, .fe, .cal, .spec, .acq, .disp, .mon, .tiu, .grove, .mem, .move, .ctl, .flt, .sec, .pwr] s₀ t') ∧
    (firstFailing checks = none → denied = false → ∃ t', exec (.secSetLifecycle c p auth) s₀ = .next t' ∧
      Completed c (cplOf 0x0D08 c 0 0 0 s₀) s1 t' ∧ Follows (renewChallenge (perfAdd (complete s1 n (cplOf 0x0D08 c 0 0 0 s₀)) 0x14 n 1)) t' ∧ KeptZ c [.sec, .cal, .host] s₀ t')) ∧
  -- SEC_GET_STATUS (R527)
  (Shared 0x0D09 1 (fun _ => []) .secGetStatus) ∧
  (∀ (c : Cmd) (p : Block) (s₀ : State), zciReady 0x0D09 1 (fun _ => []) c p s₀ = true →
    let s := seen 0x0D09 c s₀
    ∃ t', exec (.secGetStatus c p) s₀ = .next t' ∧ Answered c (cplOf 0x0D09 c 0 8 (pack [(3, s.sec.life), (1, b2n s.sec.owner.isSome), (1,
        b2n (keyUsable s)), (2, testPort s), (1, 0), (4, keyBits s (fun _ => true)), (4, keyBits s (·.2.1)), (4, keyBits s (·.2.2)), (12, 0), (16,
        s.sec.storeOk), (16, 0), (32, s.sec.secver), (32, s.sec.wear), (128, 0), (256, (Config.challenge s.sec.chalNo).toNat)]) s₀) s t' ∧
        KeptZ c [] s₀ t') ∧
  -- PERF_SET_COUNTER (R528)
  (Shared 0x0E01 1 (fun _ => [(0, 6), (8, 8), (16, 16), (32, 1)]) .perfSetCounter) ∧
  (∀ (c : Cmd) (p : Block) (s₀ : State), zciReady 0x0E01 1 (fun _ => [(0, 6), (8, 8), (16, 16), (32, 1)]) c p s₀ = true →
    let s := seen 0x0E01 c s₀
    let k := arg p 0 6
    let src := arg p 8 8
    let checks : List (Bool × Nat) := [(!owns s c.session.val 0x18 k, stBusy), (!perfKnown src, stInvalid), ((s.perfC k).run, stState),
      (!perfInst src (arg p 16 16), stRange)]
    (∀ st, firstFailing checks = some st → ∃ t', exec (.perfSetCounter c p) s₀ = .next t' ∧ Refused 0x0E01 c st s₀ t') ∧
    (firstFailing checks = none → ∃ t', exec (.perfSetCounter c p) s₀ = .next t' ∧
        Answered c (cplOf 0x0E01 c 0 0 0 s₀) (s.modPerfC k (fun x => { x with conf := true, source := src, inst_ := arg p 16 16, maxMode := argBit p 32 })) t' ∧
        KeptZ c [.perf] s₀ t')) ∧
  -- PERF_CONTROL (R528)
  (Shared 0x0E02 3 (fun _ => [(0, 64), (64, 2), (128, 64)]) .perfControl) ∧
  (∀ (c : Cmd) (p : Block) (s₀ : State), zciReady 0x0E02 3 (fun _ => [(0, 64), (64, 2), (128, 64)]) c p s₀ = true →
    let s := seen 0x0E02 c s₀
    let m := arg p 0 64
    let a := arg p 64 2
    let at_ := arg p 128 64
    let checks : List (Bool × Nat) := [((maskBits 64 m).any (fun k => !owns s c.session.val 0x18 k), stBusy), (m == 0, stInvalid), (a % 2 == 1 &&
      (maskBits 64 m).any (fun k => !(s.perfC k).conf), stState), (tickBad s at_, stRange)]
    (∀ st, firstFailing checks = some st → ∃ t', exec (.perfControl c p) s₀ = .next t' ∧ Refused 0x0E02 c st s₀ t') ∧
    (firstFailing checks = none → at_ = 0 → ∃ t', exec (.perfControl c p) s₀ = .next t' ∧ Answered c (cplOf 0x0E02 c 0 2 (pack [(16, 0), (64,
        s.now)]) s₀) (perfGo s m a) t' ∧ KeptZ c [.perf] s₀ t') ∧
    (firstFailing checks = none → at_ ≠ 0 → ∃ t', exec (.perfControl c p) s₀ = .next t' ∧ Waits 0x0E02 c 0 [at_, m, a] [] s s₀ t' ∧
        KeptZ c [] s₀ t')) ∧
  -- PERF_READ (R528)
  (Shared 0x0E03 3 (fun _ => [(0, 64), (64, 16), (128, 64)]) .perfRead) ∧
  (∀ (c : Cmd) (p : Block) (s₀ : State), zciReady 0x0E03 3 (fun _ => [(0, 64), (64, 16), (128, 64)]) c p s₀ = true →
    let s := seen 0x0E03 c s₀
    let ks := maskBits 64 (arg p 0 64)
    let h := arg p 64 16
    let off := arg p 128 64
    let checks : List (Bool × Nat) := [(!regOwned s c.session.val h, stBusy), (off % 64 != 0, stInvalid), (regPast s h off (64 + 8 * ks.length),
      stRange)]
    (∀ st, firstFailing checks = some st → ∃ t', exec (.perfRead c p) s₀ = .next t' ∧ Refused 0x0E03 c st s₀ t') ∧
    (firstFailing checks = none → ∃ t', exec (.perfRead c p) s₀ = .next t' ∧
        Waits 0x0E03 c transferWait (transferData 0 0 (0) h off (toBytes (pack [(16, 0), (64,
        s.now)]) 64 ++ ks.flatMap (fun k => toBytes (s.perfC k).word 8))) [h] s s₀ t' ∧ KeptZ c [] s₀ t'))

/-- Grove instructions on general registers: NOP, ADD to MUL, immediates, moves. Derived from the rules named at each
clause; the model's own choices in it are those of log entries 2, 44. -/
def Obligations.GroveIntegerOps : Prop :=
  -- NOP (R329)
  (∀ (t core : Nat) (w : BitVec 26) (s₀ : State), s₀.pwr.down = false → GroveStops 0x00 [] (.gNop t core w) t core w s₀ ∧
    (grvReady 0x00 [] t core w s₀ = true →
    let s := advance s₀ t
    let x := grvCore core s₀
    let f := w.toNat
    ∃ t', exec (.gNop t core w) s₀ = .next t' ∧ Follows (issued s core 0x00 f x x) t' ∧ Kept [.grove, .mem] s₀ t')) ∧
  -- ADD (R329)
  (∀ (t core : Nat) (w : BitVec 26) (s₀ : State), s₀.pwr.down = false → GroveStops 0x01 fmtR (.gAdd t core w) t core w s₀ ∧
    (grvReady 0x01 fmtR t core w s₀ = true →
    let s := advance s₀ t
    let x := grvCore core s₀
    let f := w.toNat
    let a := x.rdG x.bank (fld f 18 4)
    let b := x.rdG x.bank (fld f 14 4)
    let r : Word := a + b
    ∃ t', exec (.gAdd t core w) s₀ = .next t' ∧ Follows (issued s core 0x01 f x (x.wr 1 (.g x.bank (fld f 22 4)) r.toNat)) t' ∧ Kept [.grove,
      .mem] s₀ t')) ∧
  -- SUB (R329)
  (∀ (t core : Nat) (w : BitVec 26) (s₀ : State), s₀.pwr.down = false → GroveStops 0x02 fmtR (.gSub t core w) t core w s₀ ∧
    (grvReady 0x02 fmtR t core w s₀ = true →
    let s := advance s₀ t
    let x := grvCore core s₀
    let f := w.toNat
    let a := x.rdG x.bank (fld f 18 4)
    let b := x.rdG x.bank (fld f 14 4)
    let r : Word := a - b
    ∃ t', exec (.gSub t core w) s₀ = .next t' ∧ Follows (issued s core 0x02 f x (x.wr 1 (.g x.bank (fld f 22 4)) r.toNat)) t' ∧ Kept [.grove,
      .mem] s₀ t')) ∧
  -- AND (R329)
  (∀ (t core : Nat) (w : BitVec 26) (s₀ : State), s₀.pwr.down = false → GroveStops 0x03 fmtR (.gAnd t core w) t core w s₀ ∧
    (grvReady 0x03 fmtR t core w s₀ = true →
    let s := advance s₀ t
    let x := grvCore core s₀
    let f := w.toNat
    let a := x.rdG x.bank (fld f 18 4)
    let b := x.rdG x.bank (fld f 14 4)
    let r : Word := a &&& b
    ∃ t', exec (.gAnd t core w) s₀ = .next t' ∧ Follows (issued s core 0x03 f x (x.wr 1 (.g x.bank (fld f 22 4)) r.toNat)) t' ∧ Kept [.grove,
      .mem] s₀ t')) ∧
  -- OR (R329)
  (∀ (t core : Nat) (w : BitVec 26) (s₀ : State), s₀.pwr.down = false → GroveStops 0x04 fmtR (.gOr t core w) t core w s₀ ∧
    (grvReady 0x04 fmtR t core w s₀ = true →
    let s := advance s₀ t
    let x := grvCore core s₀
    let f := w.toNat
    let a := x.rdG x.bank (fld f 18 4)
    let b := x.rdG x.bank (fld f 14 4)
    let r : Word := a ||| b
    ∃ t', exec (.gOr t core w) s₀ = .next t' ∧ Follows (issued s core 0x04 f x (x.wr 1 (.g x.bank (fld f 22 4)) r.toNat)) t' ∧ Kept [.grove,
      .mem] s₀ t')) ∧
  -- XOR (R329)
  (∀ (t core : Nat) (w : BitVec 26) (s₀ : State), s₀.pwr.down = false → GroveStops 0x05 fmtR (.gXor t core w) t core w s₀ ∧
    (grvReady 0x05 fmtR t core w s₀ = true →
    let s := advance s₀ t
    let x := grvCore core s₀
    let f := w.toNat
    let a := x.rdG x.bank (fld f 18 4)
    let b := x.rdG x.bank (fld f 14 4)
    let r : Word := a ^^^ b
    ∃ t', exec (.gXor t core w) s₀ = .next t' ∧ Follows (issued s core 0x05 f x (x.wr 1 (.g x.bank (fld f 22 4)) r.toNat)) t' ∧ Kept [.grove,
      .mem] s₀ t')) ∧
  -- SHL (R329)
  (∀ (t core : Nat) (w : BitVec 26) (s₀ : State), s₀.pwr.down = false → GroveStops 0x06 fmtR (.gShl t core w) t core w s₀ ∧
    (grvReady 0x06 fmtR t core w s₀ = true →
    let s := advance s₀ t
    let x := grvCore core s₀
    let f := w.toNat
    let a := x.rdG x.bank (fld f 18 4)
    let b := x.rdG x.bank (fld f 14 4)
    let r : Word := a <<< shAmt b
    ∃ t', exec (.gShl t core w) s₀ = .next t' ∧ Follows (issued s core 0x06 f x (x.wr 1 (.g x.bank (fld f 22 4)) r.toNat)) t' ∧ Kept [.grove,
      .mem] s₀ t')) ∧
  -- SHR (R329)
  (∀ (t core : Nat) (w : BitVec 26) (s₀ : State), s₀.pwr.down = false → GroveStops 0x07 fmtR (.gShr t core w) t core w s₀ ∧
    (grvReady 0x07 fmtR t core w s₀ = true →
    let s := advance s₀ t
    let x := grvCore core s₀
    let f := w.toNat
    let a := x.rdG x.bank (fld f 18 4)
    let b := x.rdG x.bank (fld f 14 4)
    let r : Word := a >>> shAmt b
    ∃ t', exec (.gShr t core w) s₀ = .next t' ∧ Follows (issued s core 0x07 f x (x.wr 1 (.g x.bank (fld f 22 4)) r.toNat)) t' ∧ Kept [.grove,
      .mem] s₀ t')) ∧
  -- SAR (R329)
  (∀ (t core : Nat) (w : BitVec 26) (s₀ : State), s₀.pwr.down = false → GroveStops 0x08 fmtR (.gSar t core w) t core w s₀ ∧
    (grvReady 0x08 fmtR t core w s₀ = true →
    let s := advance s₀ t
    let x := grvCore core s₀
    let f := w.toNat
    let a := x.rdG x.bank (fld f 18 4)
    let b := x.rdG x.bank (fld f 14 4)
    let r : Word := a.sshiftRight (shAmt b)
    ∃ t', exec (.gSar t core w) s₀ = .next t' ∧ Follows (issued s core 0x08 f x (x.wr 1 (.g x.bank (fld f 22 4)) r.toNat)) t' ∧ Kept [.grove,
      .mem] s₀ t')) ∧
  -- SLT (R329)
  (∀ (t core : Nat) (w : BitVec 26) (s₀ : State), s₀.pwr.down = false → GroveStops 0x09 fmtR (.gSlt t core w) t core w s₀ ∧
    (grvReady 0x09 fmtR t core w s₀ = true →
    let s := advance s₀ t
    let x := grvCore core s₀
    let f := w.toNat
    let a := x.rdG x.bank (fld f 18 4)
    let b := x.rdG x.bank (fld f 14 4)
    let r : Word := if a.toInt < b.toInt then 1 else 0
    ∃ t', exec (.gSlt t core w) s₀ = .next t' ∧ Follows (issued s core 0x09 f x (x.wr 1 (.g x.bank (fld f 22 4)) r.toNat)) t' ∧ Kept [.grove,
      .mem] s₀ t')) ∧
  -- SLTU (R329)
  (∀ (t core : Nat) (w : BitVec 26) (s₀ : State), s₀.pwr.down = false → GroveStops 0x0A fmtR (.gSltu t core w) t core w s₀ ∧
    (grvReady 0x0A fmtR t core w s₀ = true →
    let s := advance s₀ t
    let x := grvCore core s₀
    let f := w.toNat
    let a := x.rdG x.bank (fld f 18 4)
    let b := x.rdG x.bank (fld f 14 4)
    let r : Word := if a.toNat < b.toNat then 1 else 0
    ∃ t', exec (.gSltu t core w) s₀ = .next t' ∧ Follows (issued s core 0x0A f x (x.wr 1 (.g x.bank (fld f 22 4)) r.toNat)) t' ∧ Kept [.grove,
      .mem] s₀ t')) ∧
  -- MUL (R329)
  (∀ (t core : Nat) (w : BitVec 26) (s₀ : State), s₀.pwr.down = false → GroveStops 0x0B fmtR (.gMul t core w) t core w s₀ ∧
    (grvReady 0x0B fmtR t core w s₀ = true →
    let s := advance s₀ t
    let x := grvCore core s₀
    let f := w.toNat
    let a := x.rdG x.bank (fld f 18 4)
    let b := x.rdG x.bank (fld f 14 4)
    let r : Word := a * b
    ∃ t', exec (.gMul t core w) s₀ = .next t' ∧ Follows (issued s core 0x0B f x (x.wr 2 (.g x.bank (fld f 22 4)) r.toNat)) t' ∧ Kept [.grove,
      .mem] s₀ t')) ∧
  -- ADDI (R329)
  (∀ (t core : Nat) (w : BitVec 26) (s₀ : State), s₀.pwr.down = false → GroveStops 0x0C [(22, 4), (18, 4), (0, 18)] (.gAddi t core w) t core w s₀ ∧
    (grvReady 0x0C [(22, 4), (18, 4), (0, 18)] t core w s₀ = true →
    let s := advance s₀ t
    let x := grvCore core s₀
    let f := w.toNat
    let a := x.rdG x.bank (fld f 18 4)
    let r : Word := a + (w.extractLsb' 0 18).signExtend 32
    ∃ t', exec (.gAddi t core w) s₀ = .next t' ∧ Follows (issued s core 0x0C f x (x.wr 1 (.g x.bank (fld f 22 4)) r.toNat)) t' ∧ Kept [.grove,
      .mem] s₀ t')) ∧
  -- ANDI (R329)
  (∀ (t core : Nat) (w : BitVec 26) (s₀ : State), s₀.pwr.down = false → GroveStops 0x0D [(22, 4), (18, 4), (0, 18)] (.gAndi t core w) t core w s₀ ∧
    (grvReady 0x0D [(22, 4), (18, 4), (0, 18)] t core w s₀ = true →
    let s := advance s₀ t
    let x := grvCore core s₀
    let f := w.toNat
    let a := x.rdG x.bank (fld f 18 4)
    let r : Word := a &&& (w.extractLsb' 0 18).signExtend 32
    ∃ t', exec (.gAndi t core w) s₀ = .next t' ∧ Follows (issued s core 0x0D f x (x.wr 1 (.g x.bank (fld f 22 4)) r.toNat)) t' ∧ Kept [.grove,
      .mem] s₀ t')) ∧
  -- ORI (R329)
  (∀ (t core : Nat) (w : BitVec 26) (s₀ : State), s₀.pwr.down = false → GroveStops 0x0E [(22, 4), (18, 4), (0, 18)] (.gOri t core w) t core w s₀ ∧
    (grvReady 0x0E [(22, 4), (18, 4), (0, 18)] t core w s₀ = true →
    let s := advance s₀ t
    let x := grvCore core s₀
    let f := w.toNat
    let a := x.rdG x.bank (fld f 18 4)
    let r : Word := a ||| (w.extractLsb' 0 18).setWidth 32
    ∃ t', exec (.gOri t core w) s₀ = .next t' ∧ Follows (issued s core 0x0E f x (x.wr 1 (.g x.bank (fld f 22 4)) r.toNat)) t' ∧ Kept [.grove,
      .mem] s₀ t')) ∧
  -- SHI (R329)
  (∀ (t core : Nat) (w : BitVec 26) (s₀ : State), s₀.pwr.down = false → GroveStops 0x0F [(22, 4), (18, 4), (0, 7)] (.gShi t core w) t core w s₀ ∧
    (grvReady 0x0F [(22, 4), (18, 4), (0, 7)] t core w s₀ = true →
    let s := advance s₀ t
    let x := grvCore core s₀
    let f := w.toNat
    let a := x.rdG x.bank (fld f 18 4)
    let k := fld f 5 2
    let sh := fld f 0 5
    (k = 3 → StopsCore (.gShi t core w) t core 1 0 s₀) ∧
    (k ≠ 3 → ∃ t', exec (.gShi t core w) s₀ = .next t' ∧ Follows (issued s core 0x0F f x (x.wr 1 (.g x.bank (fld f 22 4)) (if k = 0 then a <<< sh
      else if k = 1 then a >>> sh else a.sshiftRight sh).toNat)) t' ∧ Kept [.grove, .mem] s₀ t'))) ∧
  -- MOVI (R329)
  (∀ (t core : Nat) (w : BitVec 26) (s₀ : State), s₀.pwr.down = false → GroveStops 0x10 [(22, 4), (0, 16)] (.gMovi t core w) t core w s₀ ∧
    (grvReady 0x10 [(22, 4), (0, 16)] t core w s₀ = true →
    let s := advance s₀ t
    let x := grvCore core s₀
    let f := w.toNat
    ∃ t', exec (.gMovi t core w) s₀ = .next t' ∧
      Follows (issued s core 0x10 f x (x.wr 1 (.g x.bank (fld f 22 4)) ((w.extractLsb' 0 16).signExtend 32).toNat)) t' ∧ Kept [.grove, .mem] s₀ t')) ∧
  -- MOVHI (R329)
  (∀ (t core : Nat) (w : BitVec 26) (s₀ : State), s₀.pwr.down = false → GroveStops 0x11 [(22, 4), (0, 16)] (.gMovhi t core w) t core w s₀ ∧
    (grvReady 0x11 [(22, 4), (0, 16)] t core w s₀ = true →
    let s := advance s₀ t
    let x := grvCore core s₀
    let f := w.toNat
    ∃ t', exec (.gMovhi t core w) s₀ = .next t' ∧
      Follows (issued s core 0x11 f x (x.wr 1 (.g x.bank (fld f 22 4)) (fld f 0 16 * 65536 + (x.rdG x.bank (fld f 22 4)).toNat % 65536))) t' ∧
      Kept [.grove, .mem] s₀ t'))

/-- Grove complex arithmetic and moves between banks and special registers. Derived from the rules named at each clause;
the model's own choices in it are those of log entries 2, 44. -/
def Obligations.GroveComplexAndRegisterOps : Prop :=
  -- CMUL (R327)
  (∀ (t core : Nat) (w : BitVec 26) (s₀ : State), s₀.pwr.down = false → GroveStops 0x12 fmtR (.gCmul t core w) t core w s₀ ∧
    (grvReady 0x12 fmtR t core w s₀ = true →
    let s := advance s₀ t
    let x := grvCore core s₀
    let f := w.toNat
    let a := x.rdG x.bank (fld f 18 4)
    let b := x.rdG x.bank (fld f 14 4)
    let r : Int × Int := (convQ (cprod a b false).1 0, convQ (cprod a b false).2 0)
    let p := x.putQ r.1 r.2
    ∃ t', exec (.gCmul t core w) s₀ = .next t' ∧ Follows (issued s core 0x12 f x (p.1.wr 2 (.g x.bank (fld f 22 4)) p.2)) t' ∧ Kept [.grove,
      .mem] s₀ t')) ∧
  -- CADDS (R327)
  (∀ (t core : Nat) (w : BitVec 26) (s₀ : State), s₀.pwr.down = false → GroveStops 0x13 fmtR (.gCadds t core w) t core w s₀ ∧
    (grvReady 0x13 fmtR t core w s₀ = true →
    let s := advance s₀ t
    let x := grvCore core s₀
    let f := w.toNat
    let a := x.rdG x.bank (fld f 18 4)
    let b := x.rdG x.bank (fld f 14 4)
    let r : Int × Int := (qRe a + qRe b, qIm a + qIm b)
    let p := x.putQ r.1 r.2
    ∃ t', exec (.gCadds t core w) s₀ = .next t' ∧ Follows (issued s core 0x13 f x (p.1.wr 2 (.g x.bank (fld f 22 4)) p.2)) t' ∧ Kept [.grove,
      .mem] s₀ t')) ∧
  -- CSUBS (R327)
  (∀ (t core : Nat) (w : BitVec 26) (s₀ : State), s₀.pwr.down = false → GroveStops 0x14 fmtR (.gCsubs t core w) t core w s₀ ∧
    (grvReady 0x14 fmtR t core w s₀ = true →
    let s := advance s₀ t
    let x := grvCore core s₀
    let f := w.toNat
    let a := x.rdG x.bank (fld f 18 4)
    let b := x.rdG x.bank (fld f 14 4)
    let r : Int × Int := (qRe a - qRe b, qIm a - qIm b)
    let p := x.putQ r.1 r.2
    ∃ t', exec (.gCsubs t core w) s₀ = .next t' ∧ Follows (issued s core 0x14 f x (p.1.wr 2 (.g x.bank (fld f 22 4)) p.2)) t' ∧ Kept [.grove,
      .mem] s₀ t')) ∧
  -- MOVR (R329)
  (∀ (t core : Nat) (w : BitVec 26) (s₀ : State), s₀.pwr.down = false → GroveStops 0x15 [(20, 6), (14, 6)] (.gMovr t core w) t core w s₀ ∧
    (grvReady 0x15 [(20, 6), (14, 6)] t core w s₀ = true →
    let s := advance s₀ t
    let x := grvCore core s₀
    let f := w.toNat
    let d := fld f 20 6
    let r := fld f 14 6
    ((!specOk d || !specOk r) = true → StopsCore (.gMovr t core w) t core 1 0 s₀) ∧
    ((!specOk d || !specOk r) = false → ∃ t', exec (.gMovr t core w) s₀ = .next t' ∧ Follows (issued s core 0x15 f x (x.wr (if d / 16 = 0 then 1
      else 2) (specDest x.bank d) (x.rdSpec x.bank r).toNat)) t' ∧ Kept [.grove, .mem] s₀ t'))) ∧
  -- SMOV (R322)
  (∀ (t core : Nat) (w : BitVec 26) (s₀ : State), s₀.pwr.down = false → GroveStops 0x16 [(20, 6), (14, 6)] (.gSmov t core w) t core w s₀ ∧
    (grvReady 0x16 [(20, 6), (14, 6)] t core w s₀ = true →
    let s := advance s₀ t
    let x := grvCore core s₀
    let f := w.toNat
    let d := fld f 20 6
    let r := fld f 14 6
    ((!specOk d || !specOk r) = true → StopsCore (.gSmov t core w) t core 1 0 s₀) ∧
    ((!specOk d || !specOk r) = false → ∃ t', exec (.gSmov t core w) s₀ = .next t' ∧
      Follows (issued s core 0x16 f x (x.wrSpec (1 - x.bank) d (x.rdSpec x.bank r))) t' ∧ Kept [.grove, .mem] s₀ t'))) ∧
  -- MOVSR (R325)
  (∀ (t core : Nat) (w : BitVec 26) (s₀ : State), s₀.pwr.down = false → GroveStops 0x17 [(22, 4), (16, 6)] (.gMovsr t core w) t core w s₀ ∧
    (grvReady 0x17 [(22, 4), (16, 6)] t core w s₀ = true →
    let s := advance s₀ t
    let x := grvCore core s₀
    let f := w.toNat
    let sr := fld f 16 6
    let d := Dest.g x.bank (fld f 22 4)
    (srOk sr = false → StopsCore (.gMovsr t core w) t core 1 0 s₀) ∧
    (∀ v, sr = 6 → x.cnth = some v → ∃ t', exec (.gMovsr t core w) s₀ = .next t' ∧
      Follows (issued s core 0x17 f x ((x.latch none).wr 1 d v.toNat)) t' ∧ Kept [.grove, .mem] s₀ t') ∧
    (sr = 6 → x.cnth = none → 
      let r := drawFree 32 s
      ∃ t', exec (.gMovsr t core w) s₀ = .next t' ∧ Follows (issued r.2 core 0x17 f x (x.wr 1 d r.1)) t' ∧ Kept [.grove, .mem] s₀ t') ∧
    (srOk sr = true → sr ≠ 6 → ∃ t', exec (.gMovsr t core w) s₀ = .next t' ∧
      Follows (issued s core 0x17 f x ((x.latch (if sr = 5 then some (BitVec.ofNat 32 (s.now / 2^32))
      else x.cnth)).wr 1 d (srRead s core x sr).toNat)) t' ∧ Kept [.grove, .mem] s₀ t'))) ∧
  -- MOVRS (R325)
  (∀ (t core : Nat) (w : BitVec 26) (s₀ : State), s₀.pwr.down = false → GroveStops 0x18 [(22, 4), (16, 6)] (.gMovrs t core w) t core w s₀ ∧
    (grvReady 0x18 [(22, 4), (16, 6)] t core w s₀ = true →
    let s := advance s₀ t
    let x := grvCore core s₀
    let f := w.toNat
    let sr := fld f 16 6
    ([0, 1, 2, 3, 7, 8, 9].contains sr = true → ∃ t', exec (.gMovrs t core w) s₀ = .next t' ∧
      Follows (issued s core 0x18 f x (x.wr 2 (.sr sr) (x.rdG x.bank (fld f 22 4)).toNat)) t' ∧ Kept [.grove, .mem] s₀ t') ∧
    ([0, 1, 2, 3, 7, 8, 9].contains sr = false → StopsCore (.gMovrs t core w) t core 1 0 s₀)))

/-- Grove loads, stores and accumulator stores: the address, the bytes, post-modify, ADDR. Derived from the rules named at
each clause; the model's own choices in it are those of log entries 2, 4, 44. -/
def Obligations.GroveMemoryOps : Prop :=
  -- LD (R324)
  (∀ (t core : Nat) (w : BitVec 26) (s₀ : State), s₀.pwr.down = false → GroveStops 0x19 fmtM (.gLd t core w) t core w s₀ ∧
    (grvReady 0x19 fmtM t core w s₀ = true →
    let s := advance s₀ t
    let x := grvCore core s₀
    let f := w.toNat
    let a := (x.rdX x.bank (fld f 19 3)).toNat
    (x.post (bit f 15) (fld f 19 3) (fld f 16 3) = none → StopsCore (.gLd t core w) t core 1 0 s₀) ∧
    (∀ y, x.post (bit f 15) (fld f 19 3) (fld f 16 3) = some y → resolve s core a 4 true = .bad → StopsCore (.gLd t core w) t core 2 a s₀) ∧
    (∀ y off k, x.post (bit f 15) (fld f 19 3) (fld f 16 3) = some y → resolve s core a 4 true = .pad off k → 
      let v := padRead s core x off 4
      ∃ t', exec (.gLd t core w) s₀ = .next t' ∧ Follows (issued s core 0x19 f x (y.wr 3 (.g x.bank (fld f 22 4)) (v))) t' ∧ Kept [.grove,
      .mem] s₀ t') ∧
    (∀ y off k, x.post (bit f 15) (fld f 19 3) (fld f 16 3) = some y → resolve s core a 4 true = .com off k → ∃ t',
      exec (.gLd t core w) s₀ = .next t' ∧
      Follows (issued s core 0x19 f x ({ y with st := 2, stall := 1, ldDest := fld f 22 4, ldAddr := off, ldHalf := false })) t' ∧ Kept [.grove,
      .mem] s₀ t'))) ∧
  -- LDH (R324)
  (∀ (t core : Nat) (w : BitVec 26) (s₀ : State), s₀.pwr.down = false → GroveStops 0x1A fmtM (.gLdh t core w) t core w s₀ ∧
    (grvReady 0x1A fmtM t core w s₀ = true →
    let s := advance s₀ t
    let x := grvCore core s₀
    let f := w.toNat
    let a := (x.rdX x.bank (fld f 19 3)).toNat
    (x.post (bit f 15) (fld f 19 3) (fld f 16 3) = none → StopsCore (.gLdh t core w) t core 1 0 s₀) ∧
    (∀ y, x.post (bit f 15) (fld f 19 3) (fld f 16 3) = some y → resolve s core a 2 true = .bad → StopsCore (.gLdh t core w) t core 2 a s₀) ∧
    (∀ y off k, x.post (bit f 15) (fld f 19 3) (fld f 16 3) = some y → resolve s core a 2 true = .pad off k → 
      let v := padRead s core x off 2
      ∃ t', exec (.gLdh t core w) s₀ = .next t' ∧ Follows (issued s core 0x1A f x (y.wr 3 (.g x.bank (fld f 22 4)) (enc 32 (sfld v 0 16)))) t' ∧
      Kept [.grove, .mem] s₀ t') ∧
    (∀ y off k, x.post (bit f 15) (fld f 19 3) (fld f 16 3) = some y → resolve s core a 2 true = .com off k → ∃ t',
      exec (.gLdh t core w) s₀ = .next t' ∧
      Follows (issued s core 0x1A f x ({ y with st := 2, stall := 1, ldDest := fld f 22 4, ldAddr := off, ldHalf := true })) t' ∧ Kept [.grove,
      .mem] s₀ t'))) ∧
  -- ST (R320)
  (∀ (t core : Nat) (w : BitVec 26) (s₀ : State), s₀.pwr.down = false → GroveStops 0x1B fmtM (.gSt t core w) t core w s₀ ∧
    (grvReady 0x1B fmtM t core w s₀ = true →
    let s := advance s₀ t
    let x := grvCore core s₀
    let f := w.toNat
    let a := (x.rdX x.bank (fld f 19 3)).toNat
    (x.post (bit f 15) (fld f 19 3) (fld f 16 3) = none → StopsCore (.gSt t core w) t core 1 0 s₀) ∧
    (∀ y, x.post (bit f 15) (fld f 19 3) (fld f 16 3) = some y → resolve s core a 4 true = .bad → StopsCore (.gSt t core w) t core 2 a s₀) ∧
    (∀ y, x.post (bit f 15) (fld f 19 3) (fld f 16 3) = some y → resolve s core a 4 true ≠ .bad → ∃ t', exec (.gSt t core w) s₀ = .next t' ∧
      Follows (issued s core 0x1B f x (y.store (resolve s core a 4 true) 4 (x.rdG x.bank (fld f 22 4)).toNat)) t' ∧ Kept [.grove, .mem] s₀ t'))) ∧
  -- STH (R320)
  (∀ (t core : Nat) (w : BitVec 26) (s₀ : State), s₀.pwr.down = false → GroveStops 0x1C fmtM (.gSth t core w) t core w s₀ ∧
    (grvReady 0x1C fmtM t core w s₀ = true →
    let s := advance s₀ t
    let x := grvCore core s₀
    let f := w.toNat
    let a := (x.rdX x.bank (fld f 19 3)).toNat
    (x.post (bit f 15) (fld f 19 3) (fld f 16 3) = none → StopsCore (.gSth t core w) t core 1 0 s₀) ∧
    (∀ y, x.post (bit f 15) (fld f 19 3) (fld f 16 3) = some y → resolve s core a 2 true = .bad → StopsCore (.gSth t core w) t core 2 a s₀) ∧
    (∀ y, x.post (bit f 15) (fld f 19 3) (fld f 16 3) = some y → resolve s core a 2 true ≠ .bad → ∃ t', exec (.gSth t core w) s₀ = .next t' ∧
      Follows (issued s core 0x1C f x (y.store (resolve s core a 2 true) 2 (x.rdG x.bank (fld f 22 4)).toNat)) t' ∧ Kept [.grove, .mem] s₀ t'))) ∧
  -- STA (R327)
  (∀ (t core : Nat) (w : BitVec 26) (s₀ : State), s₀.pwr.down = false → GroveStops 0x1D [(22, 3), (19, 3), (16, 3), (15, 1), (11,
      4)] (.gSta t core w) t core w s₀ ∧
    (grvReady 0x1D [(22, 3), (19, 3), (16, 3), (15, 1), (11, 4)] t core w s₀ = true →
    let s := advance s₀ t
    let x := grvCore core s₀
    let f := w.toNat
    let a := (x.rdX x.bank (fld f 19 3)).toNat
    (x.post (bit f 15) (fld f 19 3) (fld f 16 3) = none → StopsCore (.gSta t core w) t core 1 0 s₀) ∧
    (∀ y, x.post (bit f 15) (fld f 19 3) (fld f 16 3) = some y → resolve s core a 4 false = .bad → StopsCore (.gSta t core w) t core 2 a s₀) ∧
    (∀ y, x.post (bit f 15) (fld f 19 3) (fld f 16 3) = some y → resolve s core a 4 false ≠ .bad → 
      let r := y.convert (fld f 22 3) (fld f 11 4)
      ∃ t', exec (.gSta t core w) s₀ = .next t' ∧ Follows (issued s core 0x1D f x (r.1.store (resolve s core a 4 false) 4 r.2)) t' ∧ Kept [.grove,
      .mem] s₀ t'))) ∧
  -- VSTA (R327)
  (∀ (t core : Nat) (w : BitVec 26) (s₀ : State), s₀.pwr.down = false → GroveStops 0x1E [(22, 4), (19, 3), (16, 3), (15, 1), (11,
      4)] (.gVsta t core w) t core w s₀ ∧
    (grvReady 0x1E [(22, 4), (19, 3), (16, 3), (15, 1), (11, 4)] t core w s₀ = true →
    let s := advance s₀ t
    let x := grvCore core s₀
    let f := w.toNat
    let g := fld f 22 4
    (g ≠ 0 ∧ g ≠ 4 → StopsCore (.gVsta t core w) t core 1 0 s₀) ∧
    (g = 0 ∨ g = 4 → x.vec (fld f 19 3) (fld f 16 3) = none ∨ x.post (bit f 15) (fld f 19 3) (fld f 16 3) = none →
      StopsCore (.gVsta t core w) t core 1 0 s₀) ∧
    (∀ l y a, g = 0 ∨ g = 4 → x.vec (fld f 19 3) (fld f 16 3) = some l → x.post (bit f 15) (fld f 19 3) (fld f 16 3) = some y →
      l.find? (fun a => resolve s core a 4 false == .bad) = some a → StopsCore (.gVsta t core w) t core 2 a s₀) ∧
    (∀ l y, g = 0 ∨ g = 4 → x.vec (fld f 19 3) (fld f 16 3) = some l → x.post (bit f 15) (fld f 19 3) (fld f 16 3) = some y →
      l.find? (fun a => resolve s core a 4 false == .bad) = none → ∃ t', exec (.gVsta t core w) s₀ = .next t' ∧
      Follows (issued s core 0x1E f x ((List.range 4).foldl (fun (c : GCore) k => (c.convert (g + k) (fld f 11 4)).1.store (resolve s core (l.getD k 0) 4 false) 4 (c.convert (g + k) (fld f 11 4)).2) y)) t' ∧
      Kept [.grove, .mem] s₀ t'))) ∧
  -- RDA (R327)
  (∀ (t core : Nat) (w : BitVec 26) (s₀ : State), s₀.pwr.down = false → GroveStops 0x1F [(22, 4), (19, 3), (15, 4)] (.gRda t core w) t core w s₀ ∧
    (grvReady 0x1F [(22, 4), (19, 3), (15, 4)] t core w s₀ = true →
    let s := advance s₀ t
    let x := grvCore core s₀
    let f := w.toNat
    let r := x.convert (fld f 19 3) (fld f 15 4)
    ∃ t', exec (.gRda t core w) s₀ = .next t' ∧ Follows (issued s core 0x1F f x (r.1.wr 2 (.g x.bank (fld f 22 4)) r.2)) t' ∧ Kept [.grove,
      .mem] s₀ t'))

/-- Grove multiply-accumulate instructions update the accumulators. Derived from the rules named at each clause; the
model's own choices in it are those of log entries 2, 44. -/
def Obligations.GroveAccumulatorOps : Prop :=
  -- VMAC_D (R326)
  (∀ (t core : Nat) (w : BitVec 26) (s₀ : State), s₀.pwr.down = false → GroveStops 0x20 fmtV (.gVmacD t core w) t core w s₀ ∧
    (grvReady 0x20 fmtV t core w s₀ = true →
    let s := advance s₀ t
    let x := grvCore core s₀
    let f := w.toNat
    (∀ e, vecOps s core x f true = .error e → StopsCore (.gVmacD t core w) t core e.1 e.2 s₀) ∧
    (∀ a b y, vecOps s core x f true = .ok (a, b, y) → 
      let p := (a.zip b).foldl (fun (m : Int × Int) ab => (m.1 + (cprod ab.1 ab.2 (bit f 10)).1, m.2 + (cprod ab.1 ab.2 (bit f 10)).2)) (0, 0)
      ∃ t', exec (.gVmacD t core w) s₀ = .next t' ∧ Follows (issued s core 0x20 f x (y.mac (fld f 23 3) (bit f 8) (bit f 9) p)) t' ∧ Kept [.grove,
      .mem] s₀ t'))) ∧
  -- VMAC_P (R326)
  (∀ (t core : Nat) (w : BitVec 26) (s₀ : State), s₀.pwr.down = false → GroveStops 0x21 fmtV (.gVmacP t core w) t core w s₀ ∧
    (grvReady 0x21 fmtV t core w s₀ = true →
    let s := advance s₀ t
    let x := grvCore core s₀
    let f := w.toNat
    (fld f 23 3 ≠ 0 ∧ fld f 23 3 ≠ 4 → StopsCore (.gVmacP t core w) t core 1 0 s₀) ∧
    (∀ e, fld f 23 3 = 0 ∨ fld f 23 3 = 4 → vecOps s core x f true = .error e → StopsCore (.gVmacP t core w) t core e.1 e.2 s₀) ∧
    (∀ a b y, fld f 23 3 = 0 ∨ fld f 23 3 = 4 → vecOps s core x f true = .ok (a, b, y) → ∃ t', exec (.gVmacP t core w) s₀ = .next t' ∧
      Follows (issued s core 0x21 f x ((List.range 4).foldl (fun (c : GCore) l => c.mac (fld f 23 3 + l) (bit f 8) (bit f 9) (cprod (a.getD l 0) (b.getD l 0) (bit f 10))) y)) t' ∧
      Kept [.grove, .mem] s₀ t'))) ∧
  -- VMAG_P (R326)
  (∀ (t core : Nat) (w : BitVec 26) (s₀ : State), s₀.pwr.down = false → GroveStops 0x22 [(23, 3), (20, 3), (17, 3), (9, 1), (8, 1), (7,
      1)] (.gVmagP t core w) t core w s₀ ∧
    (grvReady 0x22 [(23, 3), (20, 3), (17, 3), (9, 1), (8, 1), (7, 1)] t core w s₀ = true →
    let s := advance s₀ t
    let x := grvCore core s₀
    let f := w.toNat
    (fld f 23 3 ≠ 0 ∧ fld f 23 3 ≠ 4 → StopsCore (.gVmagP t core w) t core 1 0 s₀) ∧
    (∀ e, fld f 23 3 = 0 ∨ fld f 23 3 = 4 → vecOps s core x f false = .error e → StopsCore (.gVmagP t core w) t core e.1 e.2 s₀) ∧
    (∀ a b y, fld f 23 3 = 0 ∨ fld f 23 3 = 4 → vecOps s core x f false = .ok (a, b, y) → 
      let mag := fun (v : Word) => qRe v * qRe v + qIm v * qIm v
      let part := fun (c : GCore) (l : Nat) => c.macPart (fld f 23 3 + l) false (bit f 8) (if bit f 9 then -mag (a.getD l 0) else mag (a.getD l 0))
      ∃ t', exec (.gVmagP t core w) s₀ = .next t' ∧
      Follows (issued s core 0x22 f x ((List.range 4).foldl (fun (c : GCore) l => if bit f 8 then (part c l).macPart (fld f 23 3 + l) true true 0
      else part c l) y)) t' ∧ Kept [.grove, .mem] s₀ t'))) ∧
  -- CMAC (R326)
  (∀ (t core : Nat) (w : BitVec 26) (s₀ : State), s₀.pwr.down = false → GroveStops 0x23 [(23, 3), (18, 4), (14, 4), (10, 1), (9, 1), (8,
      1)] (.gCmac t core w) t core w s₀ ∧
    (grvReady 0x23 [(23, 3), (18, 4), (14, 4), (10, 1), (9, 1), (8, 1)] t core w s₀ = true →
    let s := advance s₀ t
    let x := grvCore core s₀
    let f := w.toNat
    let a := x.rdG x.bank (fld f 18 4)
    let b := x.rdG x.bank (fld f 14 4)
    ∃ t', exec (.gCmac t core w) s₀ = .next t' ∧
      Follows (issued s core 0x23 f x (x.mac (fld f 23 3) (bit f 8) (bit f 9) (cprod a b (bit f 10)))) t' ∧ Kept [.grove, .mem] s₀ t'))

/-- Grove control flow: branches, calls, repeats, return from a handler, WAIT, HALT. Derived from the rules named at each
clause; the model's own choices in it are those of log entries 2, 44. -/
def Obligations.GroveControlOps : Prop :=
  -- BR (R331)
  (∀ (t core : Nat) (w : BitVec 26) (s₀ : State), s₀.pwr.down = false → GroveStops 0x28 [(22, 4), (19, 3), (0, 18)] (.gBr t core w) t core w s₀ ∧
    (grvReady 0x28 [(22, 4), (19, 3), (0, 18)] t core w s₀ = true →
    let s := advance s₀ t
    let x := grvCore core s₀
    let f := w.toNat
    (brCond (fld f 19 3) (x.rdG x.bank (fld f 22 4)) = none → StopsCore (.gBr t core w) t core 1 0 s₀) ∧
    (∀ b, brCond (fld f 19 3) (x.rdG x.bank (fld f 22 4)) = some b → ∃ t', exec (.gBr t core w) s₀ = .next t' ∧
      Follows (issued s core 0x28 f x (x.branch (if b then brTarget x f else x.pc + 12))) t' ∧ Kept [.grove, .mem] s₀ t'))) ∧
  -- CALL (R331)
  (∀ (t core : Nat) (w : BitVec 26) (s₀ : State), s₀.pwr.down = false → GroveStops 0x29 [(0, 18)] (.gCall t core w) t core w s₀ ∧
    (grvReady 0x29 [(0, 18)] t core w s₀ = true →
    let s := advance s₀ t
    let x := grvCore core s₀
    let f := w.toNat
    ∃ t', exec (.gCall t core w) s₀ = .next t' ∧ Follows (issued s core 0x29 f x ((x.wr 1 (.g x.bank 15) (x.pc + 12)).branch (brTarget x f))) t' ∧
      Kept [.grove, .mem] s₀ t')) ∧
  -- JR (R331)
  (∀ (t core : Nat) (w : BitVec 26) (s₀ : State), s₀.pwr.down = false → GroveStops 0x2A [(22, 4)] (.gJr t core w) t core w s₀ ∧
    (grvReady 0x2A [(22, 4)] t core w s₀ = true →
    let s := advance s₀ t
    let x := grvCore core s₀
    let f := w.toNat
    let g := (x.rdG x.bank (fld f 22 4)).toNat
    (g % 4 ≠ 0 → StopsCore (.gJr t core w) t core 3 g s₀) ∧
    (g % 4 = 0 → ∃ t', exec (.gJr t core w) s₀ = .next t' ∧ Follows (issued s core 0x2A f x (x.branch g)) t' ∧ Kept [.grove, .mem] s₀ t'))) ∧
  -- REPEAT (R332)
  (∀ (t core : Nat) (w : BitVec 26) (s₀ : State), s₀.pwr.down = false → GroveStops 0x2B [(0, 16)] (.gRepeat t core w) t core w s₀ ∧
    (grvReady 0x2B [(0, 16)] t core w s₀ = true →
    let s := advance s₀ t
    let x := grvCore core s₀
    let f := w.toNat
    ∃ t', exec (.gRepeat t core w) s₀ = .next t' ∧ Follows (issued s core 0x2B f x (x.repeat_ (fld f 0 16))) t' ∧ Kept [.grove, .mem] s₀ t')) ∧
  -- REPR (R332)
  (∀ (t core : Nat) (w : BitVec 26) (s₀ : State), s₀.pwr.down = false → GroveStops 0x2C [(22, 4)] (.gRepr t core w) t core w s₀ ∧
    (grvReady 0x2C [(22, 4)] t core w s₀ = true →
    let s := advance s₀ t
    let x := grvCore core s₀
    let f := w.toNat
    let k := (x.rdG x.bank (fld f 22 4)).toNat
    (65535 < k → StopsCore (.gRepr t core w) t core 1 0 s₀) ∧
    (¬(65535 < k) → ∃ t', exec (.gRepr t core w) s₀ = .next t' ∧ Follows (issued s core 0x2C f x (x.repeat_ k)) t' ∧ Kept [.grove, .mem] s₀ t'))) ∧
  -- RETI (R337)
  (∀ (t core : Nat) (w : BitVec 26) (s₀ : State), s₀.pwr.down = false → GroveStops 0x2D [] (.gReti t core w) t core w s₀ ∧
    (grvReady 0x2D [] t core w s₀ = true →
    let s := advance s₀ t
    let x := grvCore core s₀
    let f := w.toNat
    (x.inh = false → StopsCore (.gReti t core w) t core 1 0 s₀) ∧
    (x.inh = true → ∃ t', exec (.gReti t core w) s₀ = .next t' ∧ Follows (issued s core 0x2D f x ({ x with stall := 5 })) t' ∧ Kept [.grove,
      .mem] s₀ t'))) ∧
  -- WAIT (R335)
  (∀ (t core : Nat) (w : BitVec 26) (s₀ : State), s₀.pwr.down = false → GroveStops 0x2E [] (.gWait t core w) t core w s₀ ∧
    (grvReady 0x2E [] t core w s₀ = true →
    let s := advance s₀ t
    let x := grvCore core s₀
    let f := w.toNat
    ∃ t', exec (.gWait t core w) s₀ = .next t' ∧ Follows (issued s core 0x2E f x (if x.pendEn ≠ 0 then x else { x with st := 2, stall := 3 })) t' ∧
      Kept [.grove, .mem] s₀ t')) ∧
  -- HALT (R340)
  (∀ (t core : Nat) (w : BitVec 26) (s₀ : State), s₀.pwr.down = false → GroveStops 0x2F [] (.gHalt t core w) t core w s₀ ∧
    (grvReady 0x2F [] t core w s₀ = true →
    let s := advance s₀ t
    let x := grvCore core s₀
    let f := w.toNat
    ∃ t', exec (.gHalt t core w) s₀ = .next t' ∧ Follows (coreStop (issued s core 0x2F f x x) core 0 0) t' ∧ Kept [.host, .cmds, .fe, .cal, .spec,
      .acq, .disp, .mon, .tiu, .grove, .mem, .move, .ctl, .flt, .sec, .pwr] s₀ t'))

/-- Grove barriers, feed release, SYNC, NOTIFY and POST. Derived from the rules named at each clause; the model's own
choices in it are those of log entries 2, 44. -/
def Obligations.GroveSyncOps : Prop :=
  -- BAR (R341)
  (∀ (t core : Nat) (w : BitVec 26) (s₀ : State), s₀.pwr.down = false → GroveStops 0x30 [(0, 3)] (.gBar t core w) t core w s₀ ∧
    (grvReady 0x30 [(0, 3)] t core w s₀ = true →
    let s := advance s₀ t
    let x := grvCore core s₀
    let f := w.toNat
    let k := fld f 0 3
    let b := s.bar k
    let arr := b.arrived ||| 2^core
    ((!b.on || !bit b.members core) = true → StopsCore (.gBar t core w) t core 1 0 s₀) ∧
    ((!b.on || !bit b.members core) = false → b.broken = true → ∃ t', exec (.gBar t core w) s₀ = .next t' ∧
      Follows (issued s core 0x30 f x ({ x with brk := true })) t' ∧ Kept [.grove, .mem] s₀ t') ∧
    ((!b.on || !bit b.members core) = false → b.broken = false → arr = b.members → ∃ t', exec (.gBar t core w) s₀ = .next t' ∧
      Follows (issued ((maskBits 64 b.arrived).foldl (fun (a : State) m => barRelease a k m false) (s.setBar k { b with arrived := 0 })) core 0x30 f x x) t' ∧
      Kept [.grove, .mem] s₀ t') ∧
    ((!b.on || !bit b.members core) = false → b.broken = false → arr ≠ b.members → ∃ t', exec (.gBar t core w) s₀ = .next t' ∧
      Follows (issued (s.setBar k { b with arrived := arr }) core 0x30 f x ({ x with st := 2, stall := 4, barWait := x.barWait ||| 2^k })) t' ∧
      Kept [.grove, .mem] s₀ t'))) ∧
  -- FREL (R343)
  (∀ (t core : Nat) (w : BitVec 26) (s₀ : State), s₀.pwr.down = false → GroveStops 0x31 [(21, 5), (0, 16)] (.gFrel t core w) t core w s₀ ∧
    (grvReady 0x31 [(21, 5), (0, 16)] t core w s₀ = true →
    let s := advance s₀ t
    let x := grvCore core s₀
    let f := w.toNat
    let i := fld f 21 5
    let k := fld f 0 16
    let d := s.feed i
    let bad := if d.kind = 3 then decide (d.nbuf < d.handed + k) else decide ((d.feedCnt - d.coreCnt).toNat < k)
    ((!d.on || decide (d.core ≠ core)) = true → ∃ t', exec (.gFrel t core w) s₀ = .next t' ∧ Follows (issued s core 0x31 f x x) t' ∧ Kept [.grove,
      .mem] s₀ t') ∧
    ((!d.on || decide (d.core ≠ core)) = false → bad = true → StopsCore (.gFrel t core w) t core 1 0 s₀) ∧
    ((!d.on || decide (d.core ≠ core)) = false → bad = false → ∃ t', exec (.gFrel t core w) s₀ = .next t' ∧
      Follows (issued (s.setFeed i { d with coreCnt := d.coreCnt + BitVec.ofNat 32 k }) core 0x31 f x x) t' ∧ Kept [.grove, .mem] s₀ t'))) ∧
  -- SYNC (R320)
  (∀ (t core : Nat) (w : BitVec 26) (s₀ : State), s₀.pwr.down = false → GroveStops 0x32 [] (.gSync t core w) t core w s₀ ∧
    (grvReady 0x32 [] t core w s₀ = true →
    let s := advance s₀ t
    let x := grvCore core s₀
    let f := w.toNat
    ∃ t', exec (.gSync t core w) s₀ = .next t' ∧ Follows (issued s core 0x32 f x (if x.posted.isEmpty then { x with dirty := [] }
      else { x with st := 2, stall := 2 })) t' ∧ Kept [.grove, .mem] s₀ t')) ∧
  -- NOTIFY (R329)
  (∀ (t core : Nat) (w : BitVec 26) (s₀ : State), s₀.pwr.down = false → GroveStops 0x33 [(22, 4)] (.gNotify t core w) t core w s₀ ∧
    (grvReady 0x33 [(22, 4)] t core w s₀ = true →
    let s := advance s₀ t
    let x := grvCore core s₀
    let f := w.toNat
    let m := (x.rdG x.bank (fld f 22 4)).toNat % 64
    (m = core → ∃ t', exec (.gNotify t core w) s₀ = .next t' ∧ Follows (issued s core 0x33 f x ({ x with ipend := x.ipend ||| 64 })) t' ∧
      Kept [.grove, .mem] s₀ t') ∧
    (m ≠ core → ∃ t', exec (.gNotify t core w) s₀ = .next t' ∧ Follows (issued (setIpend s m 6) core 0x33 f x x) t' ∧ Kept [.grove, .mem] s₀ t'))) ∧
  -- POST (R357)
  (∀ (t core : Nat) (w : BitVec 26) (s₀ : State), s₀.pwr.down = false → GroveStops 0x34 [(22, 4), (18, 4), (0, 16)] (.gPost t core w) t core w s₀ ∧
    (grvReady 0x34 [(22, 4), (18, 4), (0, 16)] t core w s₀ = true →
    let s := advance s₀ t
    let x := grvCore core s₀
    let f := w.toNat
    let per := s.now / 1600
    (x.userAt = some per → ∃ t', exec (.gPost t core w) s₀ = .next t' ∧
      Follows (issued s core 0x34 f x ({ x with userLost := sat32 x.userLost })) t' ∧ Kept [.grove, .mem] s₀ t') ∧
    (x.userAt ≠ some per → ∃ t', exec (.gPost t core w) s₀ = .next t' ∧ Follows (issued (post s 0x0902 (pack [(6, core), (10, 0), (16, fld f 0 16),
      (32, (x.rdG x.bank (fld f 22 4)).toNat), (32, (x.rdG x.bank (fld f 18 4)).toNat)])) core 0x34 f x ({ x with userAt := some per })) t' ∧
      Kept [.grove, .mem] s₀ t')))

/-- Host writes of doorbells, queue control, LEASE and EVT_CTL, and the codes of control outputs. Derived from the rules
named at each clause; the model's own choices in it are those of log entries 18, 43. -/
def Obligations.HostDoorbells : Prop :=
  -- SQ_TAIL_WRITE (R453)
  (∀ (t n v : Nat) (s₀ : State), s₀.pwr.down = false →
    let s := advance s₀ t
    ∃ t', exec (.sqTailWrite t n v) s₀ = .next t' ∧ Follows (sqTailWrite s n v) t' ∧ Kept [.host, .ses, .fe, .cal, .spec, .acq, .disp, .mon, .tiu,
      .grove, .mem, .move, .ctl, .flt, .sec, .pwr] s₀ t') ∧
  -- CQ_HEAD_WRITE (R453)
  (∀ (t n v : Nat) (s₀ : State), s₀.pwr.down = false →
    let s := advance s₀ t
    ∃ t', exec (.cqHeadWrite t n v) s₀ = .next t' ∧ Follows (cqHeadWrite s n v) t' ∧ Kept [.host, .ses, .fe, .cal, .spec, .acq, .disp, .mon, .tiu,
      .grove, .mem, .move, .ctl, .flt, .sec, .pwr] s₀ t') ∧
  -- EVT_HEAD_WRITE (R453)
  (∀ (t v : Nat) (s₀ : State), s₀.pwr.down = false →
    let s := advance s₀ t
    ∃ t', exec (.evtHeadWrite t v) s₀ = .next t' ∧ Follows (evtHeadWrite (flushAll s) v) t' ∧ Kept [.host, .fe, .cal, .spec, .acq, .disp, .mon,
      .tiu, .grove, .mem, .move, .ctl, .flt, .sec, .pwr] s₀ t') ∧
  -- STRDB_WRITE (R412)
  (∀ (t n v : Nat) (s₀ : State), s₀.pwr.down = false →
    let s := advance s₀ t
    ∃ t', exec (.strdbWrite t n v) s₀ = .next t' ∧ Follows (strdbWrite s n v) t' ∧ Kept [.host, .fe, .cal, .spec, .acq, .disp, .mon, .tiu, .grove,
      .mem, .move, .ctl, .flt, .sec, .pwr] s₀ t') ∧
  -- QCTL_OPEN (R454)
  (∀ (t n : Nat) (s₀ : State), s₀.pwr.down = false →
    let s := advance s₀ t
    let s' := hostWrite s (sesOff n 0x20) (fun s => qctlOpen s n)
    ∃ t', exec (.qctlOpen t n) s₀ = .next t' ∧ Follows s' t' ∧ Kept [.ses] s₀ t') ∧
  -- QCTL_RECLAIM (R456)
  (∀ (t n : Nat) (s₀ : State), s₀.pwr.down = false →
    let s := advance s₀ t
    let s' := hostWrite s (sesOff n 0x20) (fun s => qctlReclaim s n)
    ∃ t', exec (.qctlReclaim t n) s₀ = .next t' ∧ Follows s' t' ∧ Kept [.ses] s₀ t') ∧
  -- QCTL_CLOSE (R457)
  (∀ (t n : Nat) (s₀ : State), s₀.pwr.down = false →
    let s := advance s₀ t
    let s' := hostWrite s (sesOff n 0x20) (fun s => qctlClose s n)
    ∃ t', exec (.qctlClose t n) s₀ = .next t' ∧ Follows s' t' ∧ Kept [.ses] s₀ t') ∧
  -- LEASE_WRITE (R455)
  (∀ (t n v : Nat) (s₀ : State), s₀.pwr.down = false →
    let s := advance s₀ t
    let s' := hostWrite s (sesOff n 0x14) (fun s => leaseWrite s n v)
    ∃ t', exec (.leaseWrite t n v) s₀ = .next t' ∧ Follows s' t' ∧ Kept [.host, .ses] s₀ t') ∧
  -- EVT_CTL_WRITE (R462)
  (∀ (t v : Nat) (s₀ : State), s₀.pwr.down = false →
    let s := advance s₀ t
    let s' := hostWrite s 0x114 (fun s => evtCtlWrite (flushAll s) v)
    ∃ t', exec (.evtCtlWrite t v) s₀ = .next t' ∧ Follows s' t' ∧ Kept [.host] s₀ t') ∧
  -- CTL_CODE_WRITE (R491)
  (∀ (t n v : Nat) (s₀ : State), s₀.pwr.down = false →
    let s := advance s₀ t
    let s' := hostWrite s (0x60 + 4 * n) (fun s => ctlCodeWrite s n v)
    ∃ t', exec (.ctlCodeWrite t n v) s₀ = .next t' ∧ Follows s' t' ∧ Kept [.host, .ctl] s₀ t')

/-- Host reads and writes of registers, configuration and the MSI-X table. Derived from the rules named at each clause;
the model's own choices in it are those of log entries 7, 18. -/
def Obligations.HostRegisters : Prop :=
  -- TIME0_READ (R452)
  (∀ (t : Nat) (s₀ : State), s₀.pwr.down = false →
    let s := advance s₀ t
    ∃ t', exec (.time0Read t) s₀ = .next t' ∧ Follows (readTime0 s) t' ∧ Kept [.host] s₀ t') ∧
  -- SERIAL0_READ (R452)
  (∀ (t : Nat) (s₀ : State), s₀.pwr.down = false →
    let s := advance s₀ t
    ∃ t', exec (.serial0Read t) s₀ = .next t' ∧ Follows (readSerial0 s) t' ∧ Kept [.host] s₀ t') ∧
  -- LATCHED_WORD_READ (R452)
  (∀ (t k : Nat) (s₀ : State), s₀.pwr.down = false →
    let s := advance s₀ t
    ∃ t', exec (.latchedWordRead t k) s₀ = .next t' ∧ Follows (readLatched s k) t' ∧ Kept [.host] s₀ t') ∧
  -- AUX_DATA_READ (R485)
  (∀ (t : Nat) (s₀ : State), s₀.pwr.down = false →
    let s := advance s₀ t
    ∃ t', exec (.auxDataRead t) s₀ = .next t' ∧ Follows (readAux s) t' ∧ Kept [.host, .aux] s₀ t') ∧
  -- REGISTER_WRITE (R451)
  (∀ (t off v kind : Nat) (s₀ : State), s₀.pwr.down = false →
    let s := advance s₀ t
    let s1 := flushAll s
    ∃ t', exec (.registerWrite t off v kind) s₀ = .next t' ∧ Follows (if off % 4 ≠ 0 then s1
      else if kind = 0 then hostWrite s1 off (fun s => drwWrite s off v) else if kind = 1 then drwRead s1 off else s1) t' ∧ Kept [.host, .ses, .fe,
      .cal, .spec, .acq, .disp, .mon, .tiu, .grove, .mem, .move, .aux, .ctl, .flt, .sec, .pwr] s₀ t') ∧
  -- CONFIG_WRITE (R449)
  (∀ (t : Nat) (bme d3 msix mask : Bool) (s₀ : State), s₀.pwr.down = false →
    let s := advance s₀ t
    let s := flushAll s
    let s' :=
      if s.host.d3 && !d3 then hostReset s else
      let s1 := { s with host := { s.host with busMaster := bme, d3 := d3, msixEnable := msix, msixMask := mask } }
      msixFlush (if bme && !s.host.busMaster then waitFlush s1 else s1)
    ∃ t', exec (.configWrite t bme d3 msix mask) s₀ = .next t' ∧ Follows s' t' ∧ Kept [.host, .ses, .cmds] s₀ t') ∧
  -- MSIX_TABLE_WRITE (R463)
  (∀ (t v addr data : Nat) (masked : Bool) (s₀ : State), s₀.pwr.down = false →
    let s := advance s₀ t
    ((64 ≤ v) → Idles (.msixTableWrite t v addr data masked) t s₀) ∧
    (¬(64 ≤ v) →
    let s' := msixFlush (s.modMsixE v (fun e => { e with masked := masked, addr := addr, data := data }))
    ∃ t', exec (.msixTableWrite t v addr data masked) s₀ = .next t' ∧ Follows s' t' ∧ Kept [] s₀ t')) ∧
  -- HP_LINK_UP (R448)
  (∀ (t rate width : Nat) (flit : Bool) (s₀ : State), s₀.pwr.down = false →
    let s := advance s₀ t
    (((!s.pwr.perst || (s.pll 3).st ≠ 4 || !linkLegal rate width flit) = true) → Idles (.hpLinkUp t rate width flit) t s₀) ∧
    ((!s.pwr.perst || (s.pll 3).st ≠ 4 || !linkLegal rate width flit) = false →
    ∃ t', exec (.hpLinkUp t rate width flit) s₀ = .next t' ∧
      Follows ({ s with host := { s.host with linkRate := rate, linkWidth := width, linkFlit := flit } }) t' ∧ Kept [.host] s₀ t'))

/-- Command fetch, time-outs, signals, leases, releases, host-interface reset, HEARTBEAT. Derived from the rules named at
each clause; the model's own choices in it are those of log entries 6, 7, 18, 19. -/
def Obligations.HostCommandFlow : Prop :=
  -- COMMAND_FETCH (R459)
  (∀ (c : Cmd) (opcode : BitVec 16) (res : Nat) (s₀ : State), s₀.pwr.down = false →
    let s := advance s₀ c.t
    let n := c.session.val
    let x := s.ses n
    (((x.st ≠ 1 || x.fetcherr || !s.host.busMaster || s.flt.cpDead || x.sqHead = x.sqTail) = true) → Idles (.commandFetch c opcode res) c.t s₀) ∧
    ((x.st ≠ 1 || x.fetcherr || !s.host.busMaster || s.flt.cpDead || x.sqHead = x.sqTail) = false →
    let s' :=
      if res = 2 then raiseFault (drwErr (s.setSes n { x with fetcherr := true }) 5) 0x2301 {}
      else
        let f : Fetched := { opcode := opcode.toNat, tag := c.tag.toNat, fence := c.fence, timeout := c.timeout.toNat, at_ := s.now }
        flushFront (s.setSes n { x with sqHead := (x.sqHead + 1) % sqSize x, fetched := x.fetched ++ [f] }) n
    ∃ t', exec (.commandFetch c opcode res) s₀ = .next t' ∧ Follows s' t' ∧ Kept [.host, .ses, .cmds, .fe, .cal, .spec, .acq, .disp, .mon, .tiu,
      .grove, .mem, .move, .ctl, .flt, .sec, .pwr] s₀ t')) ∧
  -- COMMAND_TIMEOUT (R467)
  (∀ (t n i : Nat) (s₀ : State), s₀.pwr.down = false →
    let s := advance s₀ t
    let x := s.ses n
    let s' :=
      match x.fetched[i]? with
      | none => s
      | some f =>
        if f.timeout = 0 || s.now < f.at_ + f.timeout * periodCt || !cqFree s n || s.flt.cpDead then s
        else flushFront (complete (s.setSes n { x with fetched := x.fetched.eraseIdx i }) n
          { tag := f.tag, status := stTimeout, opcode := f.opcode, applied := s.now }) n
    ∃ t', exec (.commandTimeout t n i) s₀ = .next t' ∧ Follows s' t' ∧ Kept [.ses, .cmds] s₀ t') ∧
  -- COMPLETION_SIGNAL_HOLD_END (R463)
  (∀ (t n : Nat) (s₀ : State), s₀.pwr.down = false →
    let s := advance s₀ t
    let r := s.cplR n
    (((!r.held || s.now < r.holdUntil) = true) → Idles (.completionSignalHoldEnd t n) t s₀) ∧
    ((!r.held || s.now < r.holdUntil) = false →
    let s1 := s.setCplR n { r with held := false }
    ∃ t', exec (.completionSignalHoldEnd t n) s₀ = .next t' ∧ Follows (if cqUnread s n = 0 then s1 else cqSignal s1 n) t' ∧ Kept [.host] s₀ t')) ∧
  -- EVENT_DELAY_EXPIRY (R463)
  (∀ (t : Nat) (s₀ : State), s₀.pwr.down = false →
    let s := advance s₀ t
    (((!s.host.evtEnable || !evtIrq s || s.host.evtUnsig = 0 || s.now < evtOldest s + 1600 * fld s.host.evtDelay.toNat 0 16) = true) →
      Idles (.eventDelayExpiry t) t s₀) ∧
    ((!s.host.evtEnable || !evtIrq s || s.host.evtUnsig = 0 || s.now < evtOldest s + 1600 * fld s.host.evtDelay.toNat 0 16) = false →
    ∃ t', exec (.eventDelayExpiry t) s₀ = .next t' ∧ Follows (signal { s with host := { s.host with evtUnsig := 0 } } (evtVector s)) t' ∧
      Kept [] s₀ t')) ∧
  -- SYS_LEASE (R455)
  (∀ (t n : Nat) (s₀ : State), s₀.pwr.down = false →
    let s := advance s₀ t
    let x := s.ses n
    (((!x.leased || x.leaseWarn || 2 * (s.now - x.leaseFrom) < x.leaseSec * secondCt) = true) → Idles (.sysLease t n) t s₀) ∧
    ((!x.leased || x.leaseWarn || 2 * (s.now - x.leaseFrom) < x.leaseSec * secondCt) = false →
    ∃ t', exec (.sysLease t n) s₀ = .next t' ∧ Follows (post (s.setSes n { x with leaseWarn := true }) 0x0002 (pack [(4, n), (12, 0), (32,
      (x.leaseSec * secondCt - (s.now - x.leaseFrom)) / secondCt)])) t' ∧ Kept [.ses] s₀ t')) ∧
  -- LEASE_EXPIRY (R455)
  (∀ (t n : Nat) (s₀ : State), s₀.pwr.down = false →
    let s := advance s₀ t
    let x := s.ses n
    (((!x.leased || s.now - x.leaseFrom < x.leaseSec * secondCt) = true) → Idles (.leaseExpiry t n) t s₀) ∧
    ((!x.leased || s.now - x.leaseFrom < x.leaseSec * secondCt) = false →
    ∃ t', exec (.leaseExpiry t n) s₀ = .next t' ∧ Follows (startRelease s n 2) t' ∧ Kept [.ses] s₀ t')) ∧
  -- RELEASE_END (R457)
  (∀ (t n : Nat) (s₀ : State), s₀.pwr.down = false →
    let s := advance s₀ t
    ((((s.ses n).st ≠ 3 || inProgOf s n ≠ 0 || s.host.cplWait.any (fun w => w.2.1 == n && decide (s.evTick ≤ w.1))) = true) →
      Idles (.releaseEnd t n) t s₀) ∧
    (((s.ses n).st ≠ 3 || inProgOf s n ≠ 0 || s.host.cplWait.any (fun w => w.2.1 == n && decide (s.evTick ≤ w.1))) = false →
    let s1 := releaseMove s n
    let s' :=
      if s1.move.entry ≠ 0xFFFF && s1.move.recOwner = n then s1 else
      let s2 := if owns s1 n 0x15 0 then unmountNow s1 else s1
      let s3 := eachOwned s2 n 0x0F releaseGrove
      let s4 := releaseOwners (releaseMem (releaseSignal s3 n) n) n
      sesPost (s4.modSes n (fun x => { x with st := 0 })) n 1 (s.ses n).cause
    ∃ t', exec (.releaseEnd t n) s₀ = .next t' ∧ Follows s' t' ∧ Kept [.host, .ses, .cmds, .fe, .cal, .spec, .acq, .disp, .mon, .tiu, .grove, .mem,
      .move, .aux, .ctl, .flt, .sec, .pwr] s₀ t')) ∧
  -- HOST_INTERFACE_RESET (R450)
  (∀ (t cause : Nat) (s₀ : State),
    (s₀.pwr.down = true → ∃ t', exec (.hostInterfaceReset t cause) s₀ = .next t' ∧
      t'.pwr = (if cause = 0 then { s₀.pwr with perst := false } else s₀.pwr) ∧ Kept [.pwr] s₀ t') ∧
    (s₀.pwr.down = false →
      let s1 := hostReset (flushAll (advance s₀ t))
      let x := if cause = 0 then { s1 with pwr := { s1.pwr with perst := false } } else s1
      ∃ t', exec (.hostInterfaceReset t cause) s₀ = .next t' ∧ Follows x t' ∧ Kept [.host, .ses, .cmds, .pwr] s₀ t')) ∧
  -- HP_PERST_RELEASE (R535)
  (∀ (t : Nat) (s₀ : State),
    ∃ t', exec (.hpPerstRelease t) s₀ = .next t' ∧ t'.pwr = { s₀.pwr with perst := true } ∧ Kept [.pwr] s₀ t') ∧
  -- HEARTBEAT_ADVANCE (R451)
  (∀ (t : Nat) (s₀ : State), s₀.pwr.down = false →
    let s := advance s₀ t
    ((((s.host.engine ≠ 1 && s.host.engine ≠ 2) || s.flt.cpDead || s.now < s.host.hbAt + periodCt) = true) → Idles (.heartbeatAdvance t) t s₀) ∧
    (((s.host.engine ≠ 1 && s.host.engine ≠ 2) || s.flt.cpDead || s.now < s.host.hbAt + periodCt) = false →
    ∃ t', exec (.heartbeatAdvance t) s₀ = .next t' ∧
      Follows ({ s with host := { s.host with heartbeat := s.host.heartbeat + 1, hbAt := s.host.hbAt + periodCt } }) t' ∧ Kept [.host] s₀ t'))

/-- Grains: tags, episodes, roll-over, delivery to consumers, protection trips. Derived from the rules named at each
clause; the model's own choices in it are those of log entries 8, 9, 27, 30, 47, 49, 50, 52. -/
def Obligations.GrainRows : Prop :=
  -- GRAIN_TAG (R49)
  (∀ (t id : Nat) (codes : List Nat) (s₀ : State), s₀.pwr.down = false →
    let s := advance s₀ t
    let s' :=
      match tagHead (s.str id) with
      | none => s
      | some h =>
        let n := h.next
        if 6 ≤ id || decide (stampOf s.now < h.ep.time (256 * (n + 1) + rawLead id)) then s else
        let c := h.receive id n codes
        let fl := tagFlags s id c n
        let f := c.settings s id n
        let g : Grain := { ep := c.ep, n := n, flags := fl, codes := correctGrain s id c n, source := f.source, values := f.values }
        let old := !(s.str id).old.isEmpty
        let y := (s.str id).setHead (c.past id n)
        let s1 := s.setStr id { y with
          latest := n % 2^48, grains := y.grains ++ [g], settle := y.settle.filter (fun w => decide (c.ep.exact (256 * (n + 1)) < w.2)),
          ovl := if bit fl 0 then sat32 y.ovl else y.ovl, set_ := if bit fl 1 then sat32 y.set_ else y.set_, sus := if bit fl 5 then sat32 y.sus else y.sus }
        let s2 := episode (perfAdd (if old then s1 else ddcsAbort (calMeasure (calGrainAbort s1 id n fl) id n fl c) id n) 1 id 1) id n fl
        letGo (closeHeads (s2.str id).old.length s2 id) id
    ∃ t', exec (.grainTag t id codes) s₀ = .next t' ∧ Follows s' t' ∧ Kept [.host, .cmds, .fe, .cal, .spec, .acq, .disp, .mon, .tiu, .grove, .mem,
      .move, .ctl, .flt, .sec, .pwr] s₀ t') ∧
  -- OVERLOAD_END (R64)
  (∀ (t id : Nat) (s₀ : State), s₀.pwr.down = false →
    let s := advance s₀ t
    ∃ t', exec (.overloadEnd t id) s₀ = .next t' ∧ Follows (if (s.str id).epOpen && 65536 ≤ (s.str id).epQuiet then endEpisode s id else s) t' ∧
      Kept [.fe] s₀ t') ∧
  -- EPOCH_ROLLOVER (R23)
  (∀ (t id : Nat) (s₀ : State), s₀.pwr.down = false →
    let s := advance s₀ t
    let next := if id < 6 then (s.str id).cur.next else (s.ddc (id - 16)).next
    let g := next / 2^48 * 2^48
    let e := s.epoch id
    (((!streamId id || !epochBegun s id || g ≤ e.ep0) = true) → Idles (.epochRollover t id) t s₀) ∧
    ((!streamId id || !epochBegun s id || g ≤ e.ep0) = false →
    ∃ t', exec (.epochRollover t id) s₀ = .next t' ∧ Follows (recBegin (post (s.setEpoch id { e with ep0 := g, reason := 0 }) 0x0101 (pack [(8, id),
      (8, 0), (80, e.time (256 * g))])) id) t' ∧ Kept [.cmds, .fe, .spec, .mem, .move, .flt, .sec] s₀ t')) ∧
  -- GRAIN_DELIVERY (R13)
  (∀ (t k id n tid : Nat) (ok : Bool) (fill : Nat) (s₀ : State), s₀.pwr.down = false →
    let s := advance s₀ t
    (((!streamId id || !boundTo s k id) = true) → Idles (.grainDelivery t k id n tid ok fill) t s₀) ∧
    ((!streamId id || !boundTo s k id) = false →
    let s' :=
      match nextFor s k id with
      | none => s
      | some g =>
        let d : Delivery := { k := k, id := id, g := g }
        let s1 := withEpoch (stagingFill s fill) id g.ep (fun s => if ok then accept s d tid n else missAt s d)
        recPull (takenGrain s1 k id g)
    ∃ t', exec (.grainDelivery t k id n tid ok fill) s₀ = .next t' ∧ Follows s' t' ∧ Kept [.host, .cmds, .fe, .cal, .spec, .acq, .disp, .mon, .tiu,
      .grove, .mem, .move, .ctl, .flt, .sec, .pwr] s₀ t')) ∧
  -- PROTECT_TRIP (R39)
  (∀ (t i : Nat) (s₀ : State), s₀.pwr.down = false →
    let s := advance s₀ t
    let x := s.inp i
    (((x.tripped || 4 ≤ i) = true) → Idles (.protectTrip t i) t s₀) ∧
    ((x.tripped || 4 ≤ i) = false →
    let id := routedTo s i
    let run := id != 0xFF && (s.str id).running
    let g := nextGrain s id
    let force := x.protect && x.atten != 10
    let s1 := ((List.range 6).foldl (fun a k => tripStream a k i) s).setInp i { x with tripped := true }
    let s2 := if force then (keepFront s1 id g).setInp i { x with tripped := true, atten := 10 } else s1
    let s3 := if run && force then openSettle s2 id g 1600 else s2
    ∃ t', exec (.protectTrip t i) s₀ = .next t' ∧ Follows (post (if id < 6 then calAbort s3 id 9 else s3) 0x0102 (pack [(2, i), (6, 0), (48,
      if run then g % 2^48 else noIndex), (8, id)])) t' ∧ Kept [.fe, .cal] s₀ t')) ∧
  -- FE_STREAM_AT_CT (R61)
  (∀ (t : Nat) (s₀ : State), s₀.pwr.down = false →
    let s := advance s₀ t
    let s' :=
      (s.host.inProg.filter (fun q => q.opcode == 0x0104 && decide (q.data.headD 0 ≤ s.now))).foldl (fun a q =>
      let start := q.data.getD 1 0 == 1
      if start && (maskBits 6 q.unit_).any (fun id => !(a.str id).running && !spLocked a (pairOf id)) then finish a q stState 0 0
      else finish (feStreamGo a q.unit_ start (q.data.headD 0)) q 0 0 0) s
    ∃ t', exec (.feStreamAtCt t) s₀ = .next t' ∧ Follows s' t' ∧ Kept [.host, .cmds, .fe, .cal, .spec, .acq, .disp, .mon, .tiu, .grove, .mem, .move,
      .ctl, .flt, .sec, .pwr] s₀ t')

/-- Spectra are computed, and the throughput governor steps, sheds and restores. Derived from the rules named at each
clause; the model's own choices in it are those of log entries 9, 30, 33, 50, 51. -/
def Obligations.SpectrumAndGovernorRows : Prop :=
  -- SPECTRUM_COMPUTE (R74)
  (∀ (t c margin : Nat) (s₀ : State), s₀.pwr.down = false →
    let s := advance s₀ t
    (((!hasFront s c) = true) → Idles (.spectrumCompute t c margin) t s₀) ∧
    ((!hasFront s c) = false →
    let m := min margin 10000
    ∃ t', exec (.spectrumCompute t c margin) s₀ = .next t' ∧ Follows (recPull (computeSpectrum (measure s [(c, m)]) c m)) t' ∧ Kept [.host, .cmds,
      .fe, .cal, .spec, .acq, .disp, .mon, .tiu, .grove, .mem, .move, .ctl, .flt, .sec, .pwr] s₀ t')) ∧
  -- GOV_RAISE_STEP (R102)
  (∀ (t : Nat) (ms : List (Nat × Nat)) (s₀ : State), s₀.pwr.down = false →
    let s := advance s₀ t
    let s := measure s ms
    ∃ t', exec (.govRaiseStep t ms) s₀ = .next t' ∧ Follows (if mMin s < 2000 && s.spec.vcore < 850 &&
      s.spec.gov.raiseAt.all (fun t => decide (t + 3200 ≤ s.now)) then (setSupply s (min 850 (s.spec.vcore + 10))).setGov (fun g => { g with raiseAt := some s.now })
      else s) t' ∧ Kept [.spec] s₀ t') ∧
  -- GOV_LOWER_STEP (R102)
  (∀ (t : Nat) (ms : List (Nat × Nat)) (s₀ : State), s₀.pwr.down = false →
    let s := advance s₀ t
    let s := measure s ms
    ∃ t', exec (.govLowerStep t ms) s₀ = .next t' ∧ Follows (if heldFor s s.spec.gov.lowFrom 1600000 && !ceilingHeld s &&
      600 < s.spec.vcore then (setSupply s (max 600 (s.spec.vcore - 5))).setGov (fun g => { g with lowFrom := some s.now }) else s) t' ∧
      Kept [.spec] s₀ t') ∧
  -- GOV_SHED (R104)
  (∀ (t : Nat) (ms : List (Nat × Nat)) (s₀ : State), s₀.pwr.down = false →
    let s := advance s₀ t
    let s := measure s ms
    ∃ t', exec (.govShed t ms) s₀ = .next t' ∧ Follows (if heldFor s s.spec.gov.shedFrom 32000 &&
      s.spec.shed < 9 then (shedStep s (s.spec.shed + 1)).setGov (fun g => { g with shedFrom := some s.now }) else s) t' ∧ Kept [.host, .fe, .cal,
      .spec, .acq, .disp, .mon, .tiu, .grove, .mem, .move, .ctl, .flt, .sec, .pwr] s₀ t') ∧
  -- GOV_RESTORE (R104)
  (∀ (t : Nat) (ms : List (Nat × Nat)) (s₀ : State), s₀.pwr.down = false →
    let s := advance s₀ t
    let s := measure s ms
    ∃ t', exec (.govRestore t ms) s₀ = .next t' ∧ Follows (if heldFor s s.spec.gov.restFrom 16000000 && s.spec.vcore ≤ 800 &&
      thermalShed s < s.spec.shed then (shedStep s (s.spec.shed - 1)).setGov (fun g => { g with restFrom := some s.now }) else s) t' ∧ Kept [.host,
      .fe, .cal, .spec, .acq, .disp, .mon, .tiu, .grove, .mem, .move, .ctl, .flt, .sec, .pwr] s₀ t') ∧
  -- CEILING_RAMP_END (R103)
  (∀ (t : Nat) (s₀ : State), s₀.pwr.down = false →
    let s := advance s₀ t
    (((!ceilingHeld s) = true) → Idles (.ceilingRampEnd t) t s₀) ∧
    ((!ceilingHeld s) = false →
    ∃ t', exec (.ceilingRampEnd t) s₀ = .next t' ∧
      Follows ((s.host.inProg.filter (fun p => p.unit_ == ceilingWait)).foldl ceilingApply (setSupply s 850)) t' ∧ Kept [.host, .ses, .cmds, .fe,
      .cal, .spec, .acq, .disp, .mon, .tiu, .grove, .mem, .move, .ctl, .flt, .sec, .pwr] s₀ t'))

/-- Acquisition: arming at a tick, time-test verdicts, EVT_OUT pulses. Derived from the rules named at each clause; the
model's own choices in it are those of log entries 17, 31, 32, 47. -/
def Obligations.AcquisitionRows : Prop :=
  -- ACQ_ARM_AT_CT (R155)
  (∀ (t : Nat) (s₀ : State), s₀.pwr.down = false →
    let s := advance s₀ t
    ∃ t', exec (.acqArmAtCt t) s₀ = .next t' ∧ Follows ((List.range 8).foldl armDue s) t' ∧ Kept [.cmds, .fe, .acq] s₀ t') ∧
  -- TIME_TEST_VERDICT (R145)
  (∀ (t a : Nat) (s₀ : State), s₀.pwr.down = false →
    let s := advance s₀ t
    ∃ t', exec (.timeTestVerdict t a) s₀ = .next t' ∧
      Follows (((s.au a).ttPend).foldl (fun x e => timeVerdict x a e.1 e.2.2) (s.modAu a (fun u => { u with ttPend := [] }))) t' ∧ Kept [.host,
      .cmds, .fe, .cal, .spec, .acq, .disp, .mon, .tiu, .grove, .mem, .move, .ctl, .flt, .sec, .pwr] s₀ t') ∧
  -- EVT_OUT_PULSE (R149)
  (∀ (t : Nat) (s₀ : State), s₀.pwr.down = false →
    let s := advance s₀ t
    ∃ t', exec (.evtOutPulse t) s₀ = .next t' ∧
      Follows ((List.range 4).foldl (fun a n => ((a.pin n).pend.filter (fun q => decide (q ≤ a.now))).foldl (fun b q => leadEdge b n q) (a.modPin n (fun x => { x with pend := x.pend.filter (fun q => decide (a.now < q)) }))) s) t' ∧
      Kept [.host, .cmds, .fe, .cal, .spec, .acq, .disp, .mon, .tiu, .grove, .mem, .move, .ctl, .flt, .sec, .pwr] s₀ t') ∧
  -- EVT_OUT_PULSE_END (R148)
  (∀ (t : Nat) (s₀ : State), s₀.pwr.down = false →
    let s := advance s₀ t
    ∃ t', exec (.evtOutPulseEnd t) s₀ = .next t' ∧ Follows ((List.range 4).foldl (fun a n => if (a.pin n).active &&
      decide ((a.pin n).endAt ≤ a.now) then drivePin (a.modPin n (fun x => { x with active := false })) n else a) s) t' ∧ Kept [.host, .cmds, .fe,
      .cal, .spec, .acq, .disp, .mon, .tiu, .grove, .mem, .move, .ctl, .flt, .sec, .pwr] s₀ t')

/-- Density maps decay and are copied; display ports scan out. Derived from the rules named at each clause; the model's
own choices in it are those of log entries 40, 41, 53. -/
def Obligations.DensityAndDisplayRows : Prop :=
  -- DECAY_SWEEP (R169)
  (∀ (t : Nat) (s₀ : State), s₀.pwr.down = false →
    let s := advance s₀ t
    ((s.disp.sweepPer = periodOf s.now + 1) → Idles (.decaySweep t) t s₀) ∧
    (¬(s.disp.sweepPer = periodOf s.now + 1) →
    let d := { s.disp with sweepPer := periodOf s.now + 1 }
    ∃ t', exec (.decaySweep t) s₀ = .next t' ∧
      Follows ({ s with disp := { d with maps := d.maps.map (fun e => if !e.2.on || e.2.halfLife = 0 then e else if e.2.clearing || (e.2.reading && e.2.freeze) then (e.1, { e.2 with missedSweeps := e.2.missedSweeps + 1 }) else (e.1, e.2.sweep)) } }) t' ∧
      Kept [.disp] s₀ t')) ∧
  -- DENS_READ_COPY_END (R171)
  (∀ (t i : Nat) (s₀ : State), s₀.pwr.down = false →
    let s := advance s₀ t
    let s' :=
      (waiting s 0x0603 i).foldl (fun a q =>
      let m := a.dmap i
      let a1 := regWrite a (q.data.getD 0 0) (q.data.getD 1 0) (toBytes (densHeader a i m) 64 ++ densCells m)
      finish (a1.setDmap i { m with reading := false, freeze := false, held := 0 }) q 0 0 0) s
    ∃ t', exec (.densReadCopyEnd t i) s₀ = .next t' ∧ Follows s' t' ∧ Kept [.cmds, .disp, .mem] s₀ t') ∧
  -- DENS_CLEAR_END (R170)
  (∀ (t i : Nat) (s₀ : State), s₀.pwr.down = false →
    let s := advance s₀ t
    (((!(s.dmap i).clearing) = true) → Idles (.densClearEnd t i) t s₀) ∧
    ((!(s.dmap i).clearing) = false →
    let s1 := s.modDmap i (fun m => { m with clearing := false })
    ∃ t', exec (.densClearEnd t i) s₀ = .next t' ∧ Follows (if densRuns s1 (s1.dmap i) then s1
      else finishAll (finishAll s1 0x0602 i 0 1 noIndex) 0x0601 i 0 2 noIndex) t' ∧ Kept [.cmds, .disp] s₀ t')) ∧
  -- DISP_LINE_START (R186)
  (∀ (t p : Nat) (long : Bool) (under : List Nat) (late : Bool) (s₀ : State), s₀.pwr.down = false →
    let s := advance s₀ t
    let ps := (timed s p).filter (fun q => (s.port q).due s.now)
    let s1 := ps.foldl (fun a q => lineStart a q long under) s
    ∃ t', exec (.dispLineStart t p long under late) s₀ = .next t' ∧ Follows (if late &&
      ps.any (fun q => !(lineRegions (s.port q)).isEmpty) then panicRaise s1 1 p else s1) t' ∧ Kept [.host, .cmds, .fe, .cal, .spec, .acq, .disp,
      .mon, .tiu, .grove, .mem, .move, .ctl, .flt, .sec, .pwr] s₀ t') ∧
  -- FRAME_DONE (R190)
  (∀ (t p : Nat) (s₀ : State), s₀.pwr.down = false →
    let s := advance s₀ t
    ∃ t', exec (.frameDone t p) s₀ = .next t' ∧ Follows (((timed s p).filter (fun q => (s.port q).timing && !(s.port q).fdone &&
      (s.port q).line + 1 == vActive (s.port q).mode)).foldl frameDone s) t' ∧ Kept [.host, .cmds, .fe, .cal, .spec, .acq, .disp, .mon, .tiu,
      .grove, .mem, .move, .ctl, .flt, .sec, .pwr] s₀ t')

/-- Display links: hot plug, training, panel power, AUX replies. Derived from the rules named at each clause; the model's
own choices in it are those of log entries 41. -/
def Obligations.DisplayLinkRows : Prop :=
  -- HPD_LOSS (R180)
  (∀ (t p : Nat) (s₀ : State), s₀.pwr.down = false →
    let s := advance s₀ t
    ((2 ≤ p) → Idles (.hpdLoss t p) t s₀) ∧
    (¬(2 ≤ p) →
    let x := s.port p
    let s1 := s.setPort p { x with hpd := false }
    let s' :=
      if x.mode = 0xF || !x.hpd then s1 else
      let s2 := raiseFault (post (s1.modPort p (fun y => { y with linkOk := false, relink := false })) 0x0606 (pack [(1, evPort x p), (3, 0), (2, x.rate)]))
        (0x0F01 + 6 * p) { master := 7, inst := p }
      if x.fallow then
        let ps := if x.split then [0, 1] else [p]
        let s3 := ps.foldl (fun a q => startTiming (a.modPort q (fun y => { y with fallow := false, exitFallow := 0 })) q) s2
        let fr := (x.frame + 1) % 2^32
        let s4 := finishAll (post s3 0x0607 (pack [(1, evPort x p), (1, 0), (2, 2), (28, 0), (32, fr)])) 0x0608 (evPort x p) 0 1 fr
        modPorts s4 ps (fun y => if y.phase = 8 then { y with blen := false, phase := 5 } else y)
      else s2
    ∃ t', exec (.hpdLoss t p) s₀ = .next t' ∧ Follows s' t' ∧ Kept [.host, .cmds, .fe, .cal, .spec, .acq, .disp, .mon, .tiu, .grove, .mem, .move,
      .ctl, .flt, .sec, .pwr] s₀ t')) ∧
  -- HPD_RESTORE (R180)
  (∀ (t p : Nat) (ok : Bool) (s₀ : State), s₀.pwr.down = false →
    let s := advance s₀ t
    ((2 ≤ p) → Idles (.hpdRestore t p ok) t s₀) ∧
    (¬(2 ≤ p) →
    let x := s.port p
    let s1 := s.setPort p { x with hpd := true }
    ∃ t', exec (.hpdRestore t p ok) s₀ = .next t' ∧ Follows (if x.mode = 0xF || x.hpd then s1
      else if ok then post (s1.modPort p (fun y => { y with relink := true })) 0x0606 (pack [(1, evPort x p), (3, 1), (2, x.rate)])
      else raiseFault (post s1 0x0606 (pack [(1, evPort x p), (3, 4), (2, x.rate)])) (0x0F02 + 6 * p) { master := 7, inst := p }) t' ∧ Kept [.host,
      .cmds, .fe, .cal, .spec, .acq, .disp, .mon, .tiu, .grove, .mem, .move, .ctl, .flt, .sec, .pwr] s₀ t')) ∧
  -- HPD_IRQ (R180)
  (∀ (t p : Nat) (lost ok psr : Bool) (s₀ : State), s₀.pwr.down = false →
    let s := advance s₀ t
    ((2 ≤ p) → Idles (.hpdIrq t p lost ok psr) t s₀) ∧
    (¬(2 ≤ p) →
    let x := s.port p
    (((x.mode = 0xF || !x.hpd) = true) → Idles (.hpdIrq t p lost ok psr) t s₀) ∧
    ((x.mode = 0xF || !x.hpd) = false →
    let cause := if !lost then 3 else if ok then 2 else 4
    let s1 := if lost then s.setPort p { x with linkOk := false, relink := ok && !x.fallow } else s
    let s2 := post s1 0x0606 (pack [(1, evPort x p), (3, cause), (2, x.rate)])
    let s3 := if cause = 4 then raiseFault s2 (0x0F02 + 6 * p) { master := 7, inst := p } else s2
    ∃ t', exec (.hpdIrq t p lost ok psr) s₀ = .next t' ∧ Follows (if psr && x.fallow && x.exitFallow = 0 then modPorts s3 (if x.split then [0, 1]
      else [p]) (fun y => { y with exitFallow := 4 }) else s3) t' ∧ Kept [.host, .cmds, .fe, .cal, .spec, .acq, .disp, .mon, .tiu, .grove, .mem,
      .move, .ctl, .flt, .sec, .pwr] s₀ t'))) ∧
  -- PANEL_HPD_WAIT (R179)
  (∀ (t p : Nat) (high : Bool) (lanes rate : Nat) (psr : Bool) (s₀ : State), s₀.pwr.down = false →
    let s := advance s₀ t
    let s' :=
      if 2 ≤ p then s
      else if (s.port p).phase = 9 then (if (joinedPorts s p).any (fun q => (s.port q).ending) then s else capsRead s p lanes rate psr)
      else if (s.port p).phase ≠ 2 then s
      else if !high then powerFail (s.modPort p (fun x => { x with hpd := false })) p stFaulted
      else capsRead (s.modPort p (fun x => { x with hpd := true })) p lanes rate psr
    ∃ t', exec (.panelHpdWait t p high lanes rate psr) s₀ = .next t' ∧ Follows s' t' ∧ Kept [.cmds, .disp] s₀ t') ∧
  -- BLDELAY_EXPIRY (R179)
  (∀ (t p : Nat) (s₀ : State), s₀.pwr.down = false →
    let s := advance s₀ t
    ((2 ≤ p) → Idles (.bldelayExpiry t p) t s₀) ∧
    (¬(2 ≤ p) →
    let x := s.port p
    let ps := if x.split then [0, 1] else [p]
    ∃ t', exec (.bldelayExpiry t p) s₀ = .next t' ∧
      Follows (if x.phase = 4 then finishAll (modPorts s ps (fun y => { y with blen := true, phase := 0 })) 0x0605 (if x.split then 0
      else p) 0 1 (pack [(2, x.rate), (1, b2n x.psrCap)]) else if x.phase = 5 then modPorts s ps (fun y => if y.phase = 5 then { y with phase := 6 }
      else y) else s) t' ∧ Kept [.cmds, .disp] s₀ t')) ∧
  -- VDDEN_OFF_DELAY (R179)
  (∀ (t p : Nat) (s₀ : State), s₀.pwr.down = false →
    let s := advance s₀ t
    (((2 ≤ p || (s.port p).phase ≠ 7) = true) → Idles (.vddenOffDelay t p) t s₀) ∧
    ((2 ≤ p || (s.port p).phase ≠ 7) = false →
    let ps := if (s.port p).split then [0, 1] else [p]
    let s1 := modPorts s ps (fun x => { x with vdden := false, vddLow := false, phase := 0, split := false })
    ∃ t', exec (.vddenOffDelay t p) s₀ = .next t' ∧ Follows (ps.foldl (fun a q => finishAll a 0x0605 q 0 1 0) s1) t' ∧ Kept [.cmds, .disp] s₀ t')) ∧
  -- VDDEN_LOW_TIME_EXPIRY (R179)
  (∀ (t p : Nat) (s₀ : State), s₀.pwr.down = false →
    let s := advance s₀ t
    ∃ t', exec (.vddenLowTimeExpiry t p) s₀ = .next t' ∧ Follows (if p < 2 &&
      !(s.port p).vdden then powerOn (s.modPort p (fun x => { x with vddLow := true })) (joinedPorts s p) else s) t' ∧ Kept [.disp] s₀ t') ∧
  -- DISP_LINK_TRAINING_END (R178)
  (∀ (t p : Nat) (ok : Bool) (s₀ : State), s₀.pwr.down = false →
    let s := advance s₀ t
    ((2 ≤ p) → Idles (.dispLinkTrainingEnd t p ok) t s₀) ∧
    (¬(2 ≤ p) →
    let x := s.port p
    let s' :=
      if x.exitFallow ≠ 0 && x.fallow then (if x.split && p = 1 then s else fallowExit s p ok)
      else if x.phase ≠ 3 then s
      else
        let ps := joinedPorts s p
        if ok then
          let s1 := s.setPort p { x with phase := 10 }
          if ps.all (fun q => (s1.port q).phase == 10) then startVideo s1 ps else s1
        else
          let s1 := raiseFault s (0x0F02 + 6 * p) { master := 7, inst := p }
          match (if x.tryRate = 0 then none else rateFor x.newMode x.newBpc (x.tryRate - 1)) with
          | some r => modPorts s1 ps (fun y => { y with tryRate := r, phase := 3 })
          | none => trainFail s1 p
    ∃ t', exec (.dispLinkTrainingEnd t p ok) s₀ = .next t' ∧ Follows s' t' ∧ Kept [.host, .cmds, .fe, .cal, .spec, .acq, .disp, .mon, .tiu, .grove,
      .mem, .move, .ctl, .flt, .sec, .pwr] s₀ t')) ∧
  -- DISP_AUX_REPLY (R201)
  (∀ (t p r : Nat) (data : List Nat) (s₀ : State), s₀.pwr.down = false →
    let s := advance s₀ t
    (((2 ≤ p || !(s.port p).auxBusy) = true) → Idles (.dispAuxReply t p r data) t s₀) ∧
    ((2 ≤ p || !(s.port p).auxBusy) = false →
    let s1 := s.modPort p (fun x => { x with auxBusy := false })
    let s2 := if r = 3 then raiseFault s1 (0x0F05 + 6 * p) { master := 7, inst := p } else s1
    let s' :=
      (waiting s2 0x0609 p).foldl (fun a q =>
      let read := q.data.getD 0 0 = 0 && r = 0
      finish a q 0 3 (pack [(8, r), (56, 0), (128, if read then pack ((data.take (q.data.getD 1 0)).map (fun v => (8, v))) else 0)])) s2
    ∃ t', exec (.dispAuxReply t p r data) s₀ = .next t' ∧ Follows s' t' ∧ Kept [.host, .cmds, .fe, .cal, .spec, .acq, .disp, .mon, .tiu, .grove,
      .mem, .move, .ctl, .flt, .sec, .pwr] s₀ t'))

/-- Monitor rounds, lost monitor events, snapshots written out. Derived from the rules named at each clause; the model's
own choices in it are those of log entries 9, 42, 50. -/
def Obligations.MonitorRows : Prop :=
  -- MONITOR_ROUND (R212)
  (∀ (t : Nat) (s₀ : State), s₀.pwr.down = false →
    let s := advance s₀ t
    (((s.now % 1600 ≠ 0 || s.mon.lastRound = roundNow s + 1) = true) → Idles (.monitorRound t) t s₀) ∧
    ((s.now % 1600 ≠ 0 || s.mon.lastRound = roundNow s + 1) = false →
    let due := monDue s (roundNow s)
    let slots := (due.map (fun c => (s.ctx c).slots)).sum
    let prev := if s.mon.lastRound = roundNow s then s.mon.loadCur else 0
    let s1 := (due.foldl monTurn (s, 0)).1
    let s2 := perfAdd { s1 with mon := { s1.mon with lastRound := roundNow s + 1, loadNow := prev, loadCur := slots } } 0x10 0 slots
    let s' :=
      typeProgress (recPull s2) 7 (fun x =>
      let b := termBound s2 x
      stampOf s2.now - ceilDiv (b.num.toNat * 65536) b.den)
    ∃ t', exec (.monitorRound t) s₀ = .next t' ∧ Follows s' t' ∧ Kept [.host, .cmds, .fe, .cal, .spec, .acq, .disp, .mon, .tiu, .grove, .mem, .move,
      .ctl, .flt, .sec, .pwr] s₀ t')) ∧
  -- MON_EVLOST (R221)
  (∀ (t : Nat) (s₀ : State), s₀.pwr.down = false →
    let s := advance s₀ t
    let n := s.mon.evPer.ended s.now
    ((n = 0) → Idles (.monEvlost t) t s₀) ∧
    (¬(n = 0) →
    ∃ t', exec (.monEvlost t) s₀ = .next t' ∧ Follows (post { s with mon := { s.mon with evPer := s.mon.evPer.reported s.now } } 0x0705 (pack [(32,
      n), (32, s.mon.evLost)])) t' ∧ Kept [.mon] s₀ t')) ∧
  -- MON_SNAPSHOT_WRITE_END (R223)
  (∀ (t : Nat) (s₀ : State), s₀.pwr.down = false →
    let s := advance s₀ t
    (((!s.mon.snap) = true) → Idles (.monSnapshotWriteEnd t) t s₀) ∧
    ((!s.mon.snap) = false →
    let s1 := memWrite s s.mon.snapAddr (s.mon.snapData.flatMap (fun v => toBytes v 64))
    let s2 := { s1 with mon := { s1.mon with snap := false, snapData := [], snapAddr := 0 } }
    ∃ t', exec (.monSnapshotWriteEnd t) s₀ = .next t' ∧
      Follows ((waiting s2 0x0704 0).foldl (fun a q => finish a q 0 2 (stampOf q.applied)) s2) t' ∧ Kept [.cmds, .mon, .mem] s₀ t'))

/-- Losses of PLL lock, of the reference and of the node, and how they end. Derived from the rules named at each clause;
the model's own choices in it are those of log entries 2, 28, 29. -/
def Obligations.ClockLossRows : Prop :=
  -- PLL_LOCK_LOSS (R254)
  (∀ (t k : Nat) (freq : Bool) (s₀ : State), s₀.pwr.down = false →
    let s := advance s₀ t
    ∃ t', exec (.pllLockLoss t k freq) s₀ = .next t' ∧ Follows (lockLoss s k freq {}) t' ∧ Kept [.host, .cmds, .fe, .clk, .cal, .spec, .acq, .disp,
      .mon, .tiu, .grove, .mem, .move, .aux, .ctl, .flt, .sec, .pwr] s₀ t') ∧
  -- PLL_SYNC_EDGE (R241)
  (∀ (t k : Nat) (found : List Nat) (s₀ : State), s₀.pwr.down = false →
    let s := advance s₀ t
    let x := s.pll k
    ((x.attempt = 0) → Idles (.pllSyncEdge t k found) t s₀) ∧
    (¬(x.attempt = 0) →
    let s1 := if x.building then hopBuild s k found else s
    let rest := if x.building then found.drop 101 else found
    let s2 := if rest.isEmpty then s1 else hopWrite s1 k x.target (rest.take 1)
    let hop := (if x.building then hopUsable s1 k x.target else x.fromHop || x.step) && rest.isEmpty
    let edge := (s.now + 15) / 16 * 16
    let s3 := s2.modPll k (fun y => { y with
      st := 4, attempt := 0, n := x.target, syncEdge := edge, delay := if k < 2 && !x.step then x.newDelay else x.delay, step := false,
      building := false, byLoss := false, search := false })
    let s4 := post s3 0x0202 (pack [(2, k), (1, b2n hop), (1, b2n x.step), (4, 0), (8, x.target), (80, stampOf edge)])
    let cmds := pllCommands s4 k
    let s5 :=
      if k < 2 then
        (pairStreams s4 k).foldl (fun a id =>
          if (a.str id).resume then
            let b := strBegin a id 0 (a.str id).reason
            if id ≥ 4 && cmds.any (fun q => q.opcode == 0x0101 && q.data.headD 0 == 1) then openSettle b id 0 8000 else b
          else a) s4
      else if k = 2 then ctlRelock (setCoarse s4 false)
      else { s4 with mem := { s4.mem with selfRef := false } }
    let s6 := cmds.foldl (fun a q => pllFinish a k q true hop) (pllWindowEnd s5 k)
    ∃ t', exec (.pllSyncEdge t k found) s₀ = .next t' ∧ Follows (nodeStep s6 k) t' ∧ Kept [.host, .cmds, .fe, .clk, .cal, .spec, .acq, .disp, .mon,
      .tiu, .grove, .mem, .move, .ctl, .flt, .sec, .pwr] s₀ t')) ∧
  -- RELOCK_ATTEMPT_FAIL (R558)
  (∀ (t k : Nat) (found : List Nat) (s₀ : State), s₀.pwr.down = false →
    let s := advance s₀ t
    let x := s.pll k
    ((x.attempt = 0) → Idles (.relockAttemptFail t k found) t s₀) ∧
    (¬(x.attempt = 0) →
    ∃ t', exec (.relockAttemptFail t k found) s₀ = .next t' ∧ Follows (attemptFail (if x.building &&
      !found.isEmpty then (hopBuild s k found).modPll k (fun y => { y with building := false }) else s) k) t' ∧ Kept [.host, .cmds, .fe, .clk, .cal,
      .spec, .acq, .disp, .mon, .tiu, .grove, .mem, .move, .ctl, .flt, .sec, .pwr] s₀ t')) ∧
  -- REF_IN_LOSS (R254)
  (∀ (t : Nat) (freq : Bool) (ppm : Int) (s₀ : State), s₀.pwr.down = false →
    let s := advance s₀ t
    ∃ t', exec (.refInLoss t freq ppm) s₀ = .next t' ∧ Follows (refInLoss s freq ppm {}) t' ∧ Kept [.host, .fe, .clk, .cal, .spec, .acq, .disp,
      .mon, .tiu, .grove, .mem, .move, .ctl, .flt, .sec, .pwr] s₀ t') ∧
  -- REF_IN_RETURN (R254)
  (∀ (t : Nat) (s₀ : State), s₀.pwr.down = false →
    let s := advance s₀ t
    ∃ t', exec (.refInReturn t) s₀ = .next t' ∧ Follows (if s.clk.holdover &&
      s.clk.refSince.isNone then { s with clk := { s.clk with refSince := some s.now } } else s) t' ∧ Kept [.clk] s₀ t') ∧
  -- REF_LOOP_LOCK (R235)
  (∀ (t : Nat) (s₀ : State), s₀.pwr.down = false →
    let s := advance s₀ t
    (((s.clk.source = 0 || s.clk.reflock || (s.clk.holdover && !s.clk.refSince.any (fun t => decide (t + 1600000000 ≤ s.now)))) = true) →
      Idles (.refLoopLock t) t s₀) ∧
    ((s.clk.source = 0 || s.clk.reflock || (s.clk.holdover && !s.clk.refSince.any (fun t => decide (t + 1600000000 ≤ s.now)))) = false →
    ∃ t', exec (.refLoopLock t) s₀ = .next t' ∧
      Follows (post { s with clk := { s.clk with reflock := true, holdover := false, refSince := none } } 0x0205 s.clk.source) t' ∧
      Kept [.clk] s₀ t')) ∧
  -- NODE_LOSS (R254)
  (∀ (t : Nat) (s₀ : State), s₀.pwr.down = false →
    let s := advance s₀ t
    ∃ t', exec (.nodeLoss t) s₀ = .next t' ∧ Follows (nodeLoss s {}) t' ∧ Kept [.host, .cmds, .fe, .clk, .cal, .spec, .acq, .disp, .mon, .tiu,
      .grove, .mem, .move, .aux, .ctl, .flt, .sec, .pwr] s₀ t') ∧
  -- NODE_ACTIVITY_RETURN (R254)
  (∀ (t : Nat) (s₀ : State), s₀.pwr.down = false →
    let s := advance s₀ t
    (((s.clk.nodeOk || s.clk.nodeSince.isSome) = true) → Idles (.nodeActivityReturn t) t s₀) ∧
    ((s.clk.nodeOk || s.clk.nodeSince.isSome) = false →
    ∃ t', exec (.nodeActivityReturn t) s₀ = .next t' ∧ Follows ({ s with clk := { s.clk with nodeSince := some s.now } }) t' ∧ Kept [.clk] s₀ t')) ∧
  -- NODE_RECOVERY (R254)
  (∀ (t : Nat) (s₀ : State), s₀.pwr.down = false →
    let s := advance s₀ t
    (((s.clk.nodeOk || !s.clk.nodeSince.any (fun t => decide (t + 16000000 ≤ s.now))) = true) → Idles (.nodeRecovery t) t s₀) ∧
    ((s.clk.nodeOk || !s.clk.nodeSince.any (fun t => decide (t + 16000000 ≤ s.now))) = false →
    ∃ t', exec (.nodeRecovery t) s₀ = .next t' ∧
      Follows (nodeNext { s with now := (s.now + 15) / 16 * 16, clk := { s.clk with nodeOk := true, nodeSince := none, nodeRecov := 1 } }) t' ∧
      Kept [.clk, .flt] s₀ t')) ∧
  -- PPS_LOSS (R247)
  (∀ (t : Nat) (s₀ : State), s₀.pwr.down = false →
    let s := advance s₀ t
    let s' :=
      match s.clk.ppsLast with
      | none => s
      | some l =>
        if s.clk.ppsMode = 0 || s.clk.ppsFree || stampOf s.now < l + secLsb + 1600000 * 65536 then s
        else raiseFault (post { s with clk := { s.clk with ppsOk := false, ppsFree := true } } 0x0207 (l / 65536)) 0x0203 {}
    ∃ t', exec (.ppsLoss t) s₀ = .next t' ∧ Follows s' t' ∧ Kept [.host, .cmds, .fe, .clk, .cal, .spec, .acq, .disp, .mon, .tiu, .grove, .mem,
      .move, .ctl, .flt, .sec, .pwr] s₀ t') ∧
  -- CLK_SET_TIME_TIMEOUT (R261)
  (∀ (t : Nat) (s₀ : State), s₀.pwr.down = false →
    let s := advance s₀ t
    ∃ t', exec (.clkSetTimeTimeout t) s₀ = .next t' ∧ Follows ((s.host.inProg.filter (fun q => q.opcode == 0x0205 &&
      decide (q.applied + 1760000000 ≤ s.now))).foldl (fun a q => finish a q stTimeout 0 0) s) t' ∧ Kept [.cmds] s₀ t')

/-- Edges are stamped, queued, lost and drained; tables are built. Derived from the rules named at each clause; the
model's own choices in it are those of log entries 34. -/
def Obligations.TimeIntervalRows : Prop :=
  -- INPUT_EDGE (R273)
  (∀ (t n : Nat) (fall : Bool) (c : Nat) (s₀ : State), s₀.pwr.down = false →
    let s := advance s₀ t
    let s0 := s.modTiuIn n (fun x => { x with level := !fall })
    let x := s0.tiuIn n
    ∃ t', exec (.inputEdge t n fall c) s₀ = .next t' ∧ Follows (if x.testing then edgeLost s0 n else if !(tiuSel s0 n fall || extSel s0 n fall ||
      ppsSel s0 n fall) then s0 else if x.prescale ≠ 0 && x.pre + 1 < prescaleOf x.prescale then s0.setTiuIn n { x with pre := x.pre + 1 }
      else edgeStamp (s0.setTiuIn n { x with pre := 0 }) n fall (min c 191)) t' ∧ Kept [.host, .cmds, .fe, .clk, .cal, .spec, .acq, .disp, .mon,
      .tiu, .grove, .mem, .move, .ctl, .flt, .sec, .pwr] s₀ t') ∧
  -- PENDING_EDGE_CLOSE (R279)
  (∀ (t u : Nat) (s₀ : State), s₀.pwr.down = false →
    let s := advance s₀ t
    let x := s.tiuSt u
    let s' :=
      match oldestPend x with
      | none => s
      | some e =>
        if !x.run || stampOf s.now < e.1 + 2^39 * 65536 then s else
        let y := if e.2 then { x with ooo := sat32 x.ooo } else { x with ovf := sat32 x.ovf }
        let s1 := s.setTiuSt u { y.resynced with ovPosted := true }
        if x.ovPosted then s1 else post s1 0x0805 (pack [(2, u), (1, b2n e.2), (13, 0), (80, e.1)])
    ∃ t', exec (.pendingEdgeClose t u) s₀ = .next t' ∧ Follows s' t' ∧ Kept [.tiu] s₀ t') ∧
  -- TIU_LOST (R293)
  (∀ (t n : Nat) (s₀ : State), s₀.pwr.down = false →
    let s := advance s₀ t
    let x := s.tiuIn n
    let k := x.lostPer.ended s.now
    ((k = 0) → Idles (.tiuLost t n) t s₀) ∧
    (¬(k = 0) →
    ∃ t', exec (.tiuLost t n) s₀ = .next t' ∧ Follows (post (s.setTiuIn n { x with lostPer := x.lostPer.reported s.now }) 0x0802 (pack [(4, n), (28,
      0), (32, min k 0xFFFFFFFF), (32, x.lost)])) t' ∧ Kept [.tiu] s₀ t')) ∧
  -- QUEUE_DRAIN (R277)
  (∀ (t n k : Nat) (s₀ : State), s₀.pwr.down = false →
    let s := advance s₀ t
    ((((s.tiuIn n).drain = noHandle || panicUp s) = true) → Idles (.queueDrain t n k) t s₀) ∧
    (((s.tiuIn n).drain = noHandle || panicUp s) = false →
    ∃ t', exec (.queueDrain t n k) s₀ = .next t' ∧ Follows (recPull (drainTo (min k 4096) s n)) t' ∧ Kept [.host, .cmds, .fe, .cal, .spec, .acq,
      .disp, .mon, .tiu, .grove, .mem, .move, .ctl, .flt, .sec, .pwr] s₀ t')) ∧
  -- TIU_TABLE_UNCAL (R283)
  (∀ (t n : Nat) (tj : Int) (s₀ : State), s₀.pwr.down = false →
    let s := advance s₀ t
    let s1 := { s with pwr := { s.pwr with tj := tj } }
    ∃ t', exec (.tiuTableUncal t n tj) s₀ = .next t' ∧ Follows (if (s.tiuIn n).bins.isSome &&
      150 < ((s.tiuIn n).calTj - tj).natAbs then s1.modTiuIn n (fun x => { x with uncal := true }) else s1) t' ∧ Kept [.tiu, .pwr] s₀ t') ∧
  -- TIU_CAL_TEST_END (R284)
  (∀ (t n : Nat) (counts : List Nat) (s₀ : State), s₀.pwr.down = false →
    let s := advance s₀ t
    (((!(s.tiuIn n).testing) = true) → Idles (.tiuCalTestEnd t n counts) t s₀) ∧
    ((!(s.tiuIn n).testing) = false →
    ∃ t', exec (.tiuCalTestEnd t n counts) s₀ = .next t' ∧ Follows (tiuTestDone s n (tiuCandidate counts)) t' ∧ Kept [.host, .cmds, .fe, .cal,
      .spec, .acq, .disp, .mon, .tiu, .grove, .mem, .move, .ctl, .flt, .sec, .pwr] s₀ t'))

/-- Calibration steps end, blind runs fall due, drift is flagged. Derived from the rules named at each clause; the model's
own choices in it are those of log entries 35, 54. -/
def Obligations.CalibrationRows : Prop :=
  -- CAL_STEP_END (R302)
  (∀ (t tgt : Nat) (m : Measured) (s₀ : State), s₀.pwr.down = false →
    let s := advance s₀ t
    let s' :=
      match s.calStep tgt with
      | none => s
      | some c =>
        if c.abort = 0 && !measuredAll tgt c then s else
        let r := stepEnd s tgt c m
        if c.auto then
          let b := r.1.calBlind tgt
          let s1 := match r.2 with
            | some rec => if b.on && b.ring ≠ noHandle then recPull (ringWrite r.1 b.ring rec.bytes).1 else r.1
            | none => r.1
          if c.step = 0 && b.on && b.ilv then blindStart s1 tgt 1 else s1
        else
          match r.2, waiting r.1 0x0301 tgt with
          | some rec, p :: _ => calRecordOut r.1 p c rec
          | _, _ => r.1
    ∃ t', exec (.calStepEnd t tgt m) s₀ = .next t' ∧ Follows s' t' ∧ Kept [.host, .cmds, .fe, .cal, .spec, .acq, .disp, .mon, .tiu, .grove, .mem,
      .move, .ctl, .flt, .sec, .pwr] s₀ t') ∧
  -- BLIND_RUN (R311)
  (∀ (t tgt : Nat) (s₀ : State), s₀.pwr.down = false →
    let s := advance s₀ t
    let b := s.calBlind tgt
    (((!b.on || !(b.offset || b.ilv) || s.now < b.due) = true) → Idles (.blindRun t tgt) t s₀) ∧
    ((!b.on || !(b.offset || b.ilv) || s.now < b.due) = false →
    let s1 := s.setCalBlind tgt { b with due := b.due + b.period * 1600000000 }
    ∃ t', exec (.blindRun t tgt) s₀ = .next t' ∧ Follows (if (s1.calStep tgt).isSome then blindSkipped s1 else blindStart s1 tgt (if b.offset then 0
      else 1)) t' ∧ Kept [.cal] s₀ t')) ∧
  -- CAL_DRIFT (R304)
  (∀ (t tgt : Nat) (tj : Int) (s₀ : State), s₀.pwr.down = false →
    let s := advance s₀ t
    ((6 ≤ tgt) → Idles (.calDrift t tgt tj) t s₀) ∧
    (¬(6 ≤ tgt) →
    ∃ t', exec (.calDrift t tgt tj) s₀ = .next t' ∧ Follows (driftUpdate { s with pwr := { s.pwr with tj := tj } } tgt) t' ∧ Kept [.cal,
      .pwr] s₀ t'))

/-- Grove hand-overs, wake-ups, commons loads, timers, feeds and starts at a tick. Derived from the rules named at each
clause; the model's own choices in it are those of log entries 2, 17, 44. -/
def Obligations.GroveRows : Prop :=
  -- HAND_OVER (R334)
  (∀ (t n : Nat) (s₀ : State), s₀.pwr.down = false →
    let s := advance s₀ t
    let x := ((s.core n).settle (s.core n).issued).srSettle
    ∃ t', exec (.handOver t n) s₀ = .next t' ∧ Follows (if x.handDue then s.setCore n (x.handOver s.now) else s) t' ∧ Kept [.grove, .mem] s₀ t') ∧
  -- HANDLER_RETURN (R337)
  (∀ (t n : Nat) (s₀ : State), s₀.pwr.down = false →
    let s := advance s₀ t
    let x := s.core n
    ((x.stall ≠ 5) → Idles (.handlerReturn t n) t s₀) ∧
    (¬(x.stall ≠ 5) →
    let y := x.flush
    ∃ t', exec (.handlerReturn t n) s₀ = .next t' ∧
      Follows (s.setCore n { y with inh := false, stall := 0, pc := y.epc.toNat, liveIss := false }) t' ∧ Kept [.grove] s₀ t')) ∧
  -- WAIT_END (R335)
  (∀ (t n : Nat) (s₀ : State), s₀.pwr.down = false →
    let s := advance s₀ t
    let x := (s.core n).srSettle
    (((x.stall ≠ 3 || x.pendEn = 0 || (x.ien.getLsbD 31 && x.interruptible)) = true) → Idles (.waitEnd t n) t s₀) ∧
    ((x.stall ≠ 3 || x.pendEn = 0 || (x.ien.getLsbD 31 && x.interruptible)) = false →
    ∃ t', exec (.waitEnd t n) s₀ = .next t' ∧ Follows (s.setCore n { x with st := 1, stall := 0 }) t' ∧ Kept [.grove] s₀ t')) ∧
  -- COMMONS_LOAD_RETURN (R320)
  (∀ (t n : Nat) (s₀ : State), s₀.pwr.down = false →
    let s := advance s₀ t
    (((s.core n).stall ≠ 1) → Idles (.commonsLoadReturn t n) t s₀) ∧
    (¬((s.core n).stall ≠ 1) →
    let s1 := settlePosted s
    let x := s1.core n
    let k := if x.ldHalf then 2 else 4
    let v := portRead s1 n (0x1000000 + x.ldAddr) k (ofBytes (rdBytes s1.grove.commons x.ldAddr k))
    let d := Dest.g x.bank x.ldDest
    ∃ t', exec (.commonsLoadReturn t n) s₀ = .next t' ∧
      Follows (portOne (s1.setCore n ({ x with st := 1, stall := 0 }.wr 0 d (if x.ldHalf then enc 32 (sfld v 0 16)
      else v))) n [{ at_ := s1.now, write := false, core := n, lo := 0x1000000 + x.ldAddr, len := k, dests := [(x.issued, d)] }]) t' ∧ Kept [.grove,
      .mem] s₀ t')) ∧
  -- SYNC_COMPLETE (R320)
  (∀ (t n : Nat) (s₀ : State), s₀.pwr.down = false →
    let s := advance s₀ t
    (((s.core n).stall ≠ 2) → Idles (.syncComplete t n) t s₀) ∧
    (¬((s.core n).stall ≠ 2) →
    ∃ t', exec (.syncComplete t n) s₀ = .next t' ∧
      Follows ((drainPosted s n (s.core n).posted.length).modCore n (fun x => { x with st := 1, stall := 0, dirty := [] })) t' ∧
      Kept [.grove] s₀ t')) ∧
  -- TIMER_MATCH (R333)
  (∀ (t n : Nat) (s₀ : State), s₀.pwr.down = false →
    let s := advance s₀ t
    let x := (s.core n).srSettle
    ∃ t', exec (.timerMatch t n) s₀ = .next t' ∧ Follows (if x.armed &&
      decide (x.tcmpl.toNat + 2^32 * x.tcmph.toNat ≤ s.now) then setIpend (s.setCore n { x with armed := false }) n 0 else s) t' ∧
      Kept [.grove] s₀ t') ∧
  -- FEED_COPY_BLOCK (R343)
  (∀ (t i : Nat) (s₀ : State), s₀.pwr.down = false →
    let s := advance s₀ t
    let f := s.feed i
    (((!f.on || f.kind ≠ 2 || !f.free || f.done ≥ fld f.p 320 32 || panicUp s) = true) → Idles (.feedCopyBlock t i) t s₀) ∧
    ((!f.on || f.kind ≠ 2 || !f.free || f.done ≥ fld f.p 320 32 || panicUp s) = false →
    let r := regRead s f.handle (fld f.p 256 64 + f.done * f.blk) f.blk { code := some 4, inst := i, master := 3 }
    let s1 := feedWrite r.2.2 i f.core (f.blockAt f.feedCnt.toNat) r.1
    ∃ t', exec (.feedCopyBlock t i) s₀ = .next t' ∧ Follows (feedAdvance (s1.modFeed i (fun x => { x with done := x.done + 1 })) i) t' ∧
      Kept [.host, .fe, .cal, .spec, .acq, .disp, .mon, .tiu, .grove, .mem, .move, .ctl, .flt, .sec, .pwr] s₀ t')) ∧
  -- FEED_WRITE_OUT (R343)
  (∀ (t i : Nat) (s₀ : State), s₀.pwr.down = false →
    let s := advance s₀ t
    let f := s.feed i
    (((!f.on || f.kind ≠ 3 || f.handed = 0 || panicUp s || !ringRoom s f.handle f.blk) = true) → Idles (.feedWriteOut t i) t s₀) ∧
    ((!f.on || f.kind ≠ 3 || f.handed = 0 || panicUp s || !ringRoom s f.handle f.blk) = false →
    let s0 := if f.base < 0x40000 then s else settlePosted s
    let a := f.blockAt f.feedCnt.toNat
    let g := s0.reg f.handle
    let k := min f.blk (g.size - g.wpos % g.size)
    let r1 := feedRead s0 i f.core a k (g.addr + g.wpos % g.size)
    let r2 := if f.blk = k then ([], r1.2) else feedRead r1.2 i f.core (a + k) (f.blk - k) g.addr
    let s1 := recPull (feedAdvance (ringPut r2.2 f.handle (r1.1 ++ r2.1)) i)
    ∃ t', exec (.feedWriteOut t i) s₀ = .next t' ∧ Follows (if f.closing &&
      (s1.feed i).handed = 0 then finishAll (feedOff s1 i) 0x0905 i 0 2 0xFFFFFFFFFFFF else s1) t' ∧ Kept [.host, .cmds, .fe, .cal, .spec, .acq,
      .disp, .mon, .tiu, .grove, .mem, .move, .ctl, .flt, .sec, .pwr] s₀ t')) ∧
  -- GROVE_START_AT_CT (R349)
  (∀ (t : Nat) (s₀ : State), s₀.pwr.down = false →
    let s := advance s₀ t
    let due := s.grove.starts.filter (fun e => decide (e.1 ≤ s.now))
    let s1 := { s with grove := { s.grove with starts := s.grove.starts.filter (fun e => decide (s.now < e.1)) } }
    let s2 := due.foldl (fun a e => startCores a e.2.1 e.2.2.1 e.2.2.2 s.now) s1
    ∃ t', exec (.groveStartAtCt t) s₀ = .next t' ∧ Follows ((s2.host.inProg.filter (fun q => q.opcode == 0x0902 &&
      decide (q.data.headD 0 ≤ s.now))).foldl (fun a q => finish a q 0 2 (stampOf a.now)) s2) t' ∧ Kept [.cmds, .grove] s₀ t') ∧
  -- STAGED_SIGNAL_RAISE (R336)
  (∀ (t n : Nat) (s₀ : State), s₀.pwr.down = false →
    let s := advance s₀ t
    let x := s.core n
    ∃ t', exec (.stagedSignalRaise t n) s₀ = .next t' ∧
      Follows ((x.raiseAt.filter (fun e => decide (e.2 ≤ s.now))).foldl (fun a e => setIpend a n e.1) (s.setCore n { x with raiseAt := x.raiseAt.filter (fun e => decide (s.now < e.2)) })) t' ∧
      Kept [.grove] s₀ t')

/-- Memory: refresh, scrub, errors, switch-over, migration, lost records, panics. Derived from the rules named at each
clause; the model's own choices in it are those of log entries 36, 45. -/
def Obligations.MemoryRows : Prop :=
  -- REFRESH (R361)
  (∀ (t : Nat) (s₀ : State), s₀.pwr.down = false →
    let s := advance s₀ t
    (((s.mem.selfRef || s.mem.refAt.any (fun a => decide (s.now < a + 3120))) = true) → Idles (.refresh t) t s₀) ∧
    ((s.mem.selfRef || s.mem.refAt.any (fun a => decide (s.now < a + 3120))) = false →
    let s' := perfAdd { s with mem := { s.mem with refAt := some s.now } } 9 0 1
    ∃ t', exec (.refresh t) s₀ = .next t' ∧ Follows s' t' ∧ Kept [.mem] s₀ t')) ∧
  -- PATROL_SCRUB (R364)
  (∀ (t a : Nat) (s₀ : State), s₀.pwr.down = false →
    let s := advance s₀ t
    (((devSize ≤ a || s.mem.selfRef || panicUp s) = true) → Idles (.patrolScrub t a) t s₀) ∧
    ((devSize ≤ a || s.mem.selfRef || panicUp s) = false →
    ∃ t', exec (.patrolScrub t a) s₀ = .next t' ∧ Follows ((readLine s (lineOf a) { master := 11, inst := quadOf a }).2.2) t' ∧ Kept [.host, .fe,
      .cal, .spec, .acq, .disp, .mon, .tiu, .grove, .mem, .move, .ctl, .flt, .sec, .pwr] s₀ t')) ∧
  -- CORRECTABLE_ERROR (R364)
  (∀ (t a master inst : Nat) (s₀ : State), s₀.pwr.down = false →
    let s := advance s₀ t
    (((devSize ≤ a || isPoisoned s a) = true) → Idles (.correctableError t a master inst) t s₀) ∧
    ((devSize ≤ a || isPoisoned s a) = false →
    ∃ t', exec (.correctableError t a master inst) s₀ = .next t' ∧
      Follows (ceError s (lineOf a) false { master := master, inst := inst, access := 1 }) t' ∧ Kept [.host, .fe, .cal, .spec, .acq, .disp, .mon,
      .tiu, .grove, .mem, .move, .ctl, .flt, .sec, .pwr] s₀ t')) ∧
  -- UNCORRECTABLE_ERROR (R365)
  (∀ (t a : Nat) (cmdErr : Bool) (master inst : Nat) (s₀ : State), s₀.pwr.down = false →
    let s := advance s₀ t
    (((devSize ≤ a || isPoisoned s a) = true) → Idles (.uncorrectableError t a cmdErr master inst) t s₀) ∧
    ((devSize ≤ a || isPoisoned s a) = false →
    ∃ t', exec (.uncorrectableError t a cmdErr master inst) s₀ = .next t' ∧
      Follows (ueError s (lineOf a) cmdErr false { master := master, inst := inst, access := 1 }) t' ∧ Kept [.host, .fe, .cal, .spec, .acq, .disp,
      .mon, .tiu, .grove, .mem, .move, .ctl, .flt, .sec, .pwr] s₀ t')) ∧
  -- RANK_SWITCH_OVER (R368)
  (∀ (t : Nat) (s₀ : State), s₀.pwr.down = false →
    let s := advance s₀ t
    let s' :=
      match s.mem.migQ, migrating s with
      | q :: r, none =>
        let d := (s.quad q).queued
        let s1 := s.modQuad q (fun x => { x with retired := d, queued := 0xFF, wmark := 0, switching := true, swAt := s.now })
        openWindow { s1 with mem := { s1.mem with migQ := r } } (rankOrigin q d) [0x0A, 0x0C, 0x0F, 0x1C, 0x21] [] false
      | _, _ => s
    ∃ t', exec (.rankSwitchOver t) s₀ = .next t' ∧ Follows s' t' ∧ Kept [.mem, .flt] s₀ t') ∧
  -- RANK_SWITCH_OVER_END (R368)
  (∀ (t : Nat) (s₀ : State), s₀.pwr.down = false →
    let s := advance s₀ t
    let s' :=
      match (List.range 4).find? (fun q => (s.quad q).switching) with
      | none => s
      | some q =>
        let x := s.quad q
        let g := 16 * q + x.retired
        let s1 := s.setQuad q { x with switching := false, moving := true }
        let s2 := post s1 0x0A03 (pack [(6, g), (1, b2n x.byCmd), (9, 0), (32, (roundEven (5 * (s.now - x.swAt) : Nat) 8).toNat)])
        finishAll (endWindow s2 (rankOrigin q x.retired)) 0x0A07 g 0 0 0
    ∃ t', exec (.rankSwitchOverEnd t) s₀ = .next t' ∧ Follows s' t' ∧ Kept [.cmds, .mem, .flt] s₀ t') ∧
  -- MIGRATION_ROW_COPY (R369)
  (∀ (t : Nat) (bad : List Nat) (s₀ : State), s₀.pwr.down = false →
    let s := advance s₀ t
    ((List.range 4).find? (fun q => (s.quad q).moving) = none → Idles (.migrationRowCopy t bad) t s₀) ∧
    (∀ q, (List.range 4).find? (fun q => (s.quad q).moving) = some q →
    let x := s.quad q
    let r := x.wmark
    let copy := fun (a : State) (k : Nat) =>
      let l := unitAddr q r x.retired + 64 * k
      let y := readLine a l { master := 11, inst := q }
      let z := if bad.contains k && !y.2.1 then ueMark y.2.2 l false { master := 11, inst := q, access := 1 } else y.2.2
      if isPoisoned z l then z.modQuad q (fun v => { v with poisoned := v.poisoned + 1 }) else perfAdd z 7 q 1
    let s1 := if r % 16 = x.retired then s else (List.range 4).foldl copy s
    let s2 := s1.modQuad q (fun v => { v with wmark := r + 1 })
    ∃ t', exec (.migrationRowCopy t bad) s₀ = .next t' ∧ Follows (if r + 1 < 4194304 then s2
      else post (s2.modQuad q (fun v => { v with moving := false })) 0x0A04 (pack [(6, 16 * q + x.retired), (26, 0), (32,
      (s2.quad q).poisoned)])) t' ∧ Kept [.host, .fe, .cal, .spec, .acq, .disp, .mon, .tiu, .grove, .mem, .move, .ctl, .flt, .sec, .pwr] s₀ t')) ∧
  -- MEM_RING_LOST (R379)
  (∀ (t : Nat) (s₀ : State), s₀.pwr.down = false →
    let s := advance s₀ t
    ∃ t', exec (.memRingLost t) s₀ = .next t' ∧
      Follows ((s.mem.regions.filter (fun e => e.2.lostPer.ended s.now != 0)).foldl (fun a e => post (a.modReg e.1 (fun r => { r with lostPer := r.lostPer.reported s.now })) 0x0A09 (pack [(16,
      e.1), (16, 0), (32, min (e.2.lostPer.ended s.now) 0xFFFFFFFF), (32, e.2.lost)])) s) t' ∧ Kept [.mem] s₀ t') ∧
  -- ZEROING_DONE (R375)
  (∀ (t n : Nat) (s₀ : State), s₀.pwr.down = false →
    let s := advance s₀ t
    ((panicUp s) → Idles (.zeroingDone t n) t s₀) ∧
    (¬(panicUp s) →
    let w := (allocWaits s).foldl (fun (x : State × Nat) p =>
      let r := x.1.reg p.unit_
      zeroSome x.1 r.addr (r.addr + r.size) x.2) (s, n)
    let f := (freeRanges w.1).foldl (fun (x : State × Nat) r => zeroSome x.1 r.1 r.2 x.2) w
    ∃ t', exec (.zeroingDone t n) s₀ = .next t' ∧ Follows ((allocWaits f.1).foldl allocDone f.1) t' ∧ Kept [.cmds, .mem] s₀ t')) ∧
  -- ON_DIE_ERROR (R385)
  (∀ (t kind n addr core : Nat) (double : Bool) (s₀ : State), s₀.pwr.down = false →
    let s := advance s₀ t
    let i : FaultInfo := { master := if kind < 2 && core < 64 then 2 else 0, inst := if kind < 2 && core < 64 then core else 0, access := 1, address := addr,
                           items := if kind = 2 then [n] else [] }
    let d := b2n double
    let src := match kind with | 0 => groveSrc n (1 + d) | 1 => 0x1B00 + d | 2 => 0x1020 + d | 3 => 0x0E01 + 4 * n + d | 4 => 0x0D00 + d | _ => 0x1C06 + d
    let s1 := raiseFault s src i
    let s' :=
      if !double then s1 else
      match kind with
      | 0 => if core < 64 then coreStop s1 core 4 addr else s1.modCore n (fun x => { x with spad := zeroBytes x.spad (addr / 4 * 4) 4 })
      | 1 => if core < 64 then coreStop s1 core 4 addr
             else { s1 with grove := { s1.grove with commons := zeroBytes s1.grove.commons (addr / 4 * 4) 4 } }
      | 2 => monSuspect s1 n
      | 3 => s1.modDmap n (fun m => { m with cells := tput 0 m.cells addr 0, flags := m.flags ||| 32 })
      | 4 => s1.modMaskS n (fun x => { x with bad := true })
      | _ => { s1 with mem := { s1.mem with drainBad := true } }
    ∃ t', exec (.onDieError t kind n addr core double) s₀ = .next t' ∧ Follows s' t' ∧ Kept [.host, .cmds, .fe, .cal, .spec, .acq, .disp, .mon,
      .tiu, .grove, .mem, .move, .ctl, .flt, .sec, .pwr] s₀ t') ∧
  -- PANIC_CLEAR (R372)
  (∀ (t port inst held : Nat) (s₀ : State), s₀.pwr.down = false →
    let s := advance s₀ t
    let k := 8 * port + inst
    (((!panicLow port held) = true) → Idles (.panicClear t port inst held) t s₀) ∧
    ((!panicLow port held) = false →
    let s' :=
      match tget none s.mem.panic k with
      | none => s
      | some t0 =>
        let d := s.now - t0
        let s1 := { s with mem := { s.mem with panic := tput none s.mem.panic k none, longUp := s.mem.longUp.filter (· ≠ k), staging := if port = 0 then held else s.mem.staging } }
        if d ≤ 16000 || tget 0 s.mem.panicPost k = periodOf s.now + 1 then s1
        else post { s1 with mem := { s1.mem with panicPost := tput 0 s1.mem.panicPost k (periodOf s.now + 1) } } 0x0A07
          (pack [(2, port), (2, 0), (4, inst), (24, 0), (32, min (5 * d / 8) (2^32 - 1))])
    ∃ t', exec (.panicClear t port inst held) s₀ = .next t' ∧ Follows s' t' ∧ Kept [.mem] s₀ t')) ∧
  -- PANIC_LONG (R373)
  (∀ (t port inst : Nat) (s₀ : State), s₀.pwr.down = false →
    let s := advance s₀ t
    let k := 8 * port + inst
    let s' :=
      match tget none s.mem.panic k with
      | some t0 =>
        if t0 + 80000 < s.now && port < 4 && !s.mem.longUp.contains k then raiseFault { s with mem := { s.mem with longUp := k :: s.mem.longUp } } (0x1C01 + port) {}
        else s
      | none => s
    ∃ t', exec (.panicLong t port inst) s₀ = .next t' ∧ Follows s' t' ∧ Kept [.host, .cmds, .fe, .cal, .spec, .acq, .disp, .mon, .tiu, .grove, .mem,
      .move, .ctl, .flt, .sec, .pwr] s₀ t')

/-- DMA hand-overs, bursts, descriptor ends, timer lines and streamed records. Derived from the rules named at each
clause; the model's own choices in it are those of log entries 8, 37. -/
def Obligations.DmaRows : Prop :=
  -- DMA_HANDOVER (R398)
  (∀ (t n : Nat) (s₀ : State), s₀.pwr.down = false →
    let s := advance s₀ t
    ∃ t', exec (.dmaHandover t n) s₀ = .next t' ∧ Follows (handFirst s n) t' ∧ Kept [.host, .cmds, .fe, .cal, .spec, .acq, .disp, .mon, .tiu,
      .grove, .mem, .move, .ctl, .flt, .sec, .pwr] s₀ t') ∧
  -- DMA_BURST (R407)
  (∀ (t n : Nat) (data : List Nat) (ok : Bool) (s₀ : State), s₀.pwr.down = false →
    let s := advance s₀ t
    let x := s.dma n
    let s' :=
      match x.active with
      | none => s
      | some d =>
        if !burstReady s x d then s else
        let m := min d.burst (d.total - x.moved)
        let s0 := if d.reqen then s.setDma n { x with reqPend := false } else s
        let y := readSide s0 n d (sideRuns m d.saddr d.slen d.sstride x.moved m) data
        let rx := if d.sspace = 1 && ok && hostCarries s d then perfAdd y.2.2 0x0E 1 m else y.2.2
        if (!ok && (d.sspace = 1 || d.dspace = 1)) || !hostCarries s d then descEnd rx n true false 4
        else if y.2.1 then descEnd rx n true false 5
        else
          let s1 := writeSide d rx (sideRuns m d.daddr d.dlen d.dstride x.moved m) y.1
          let s2 := s1.modDma n (fun z => { z with moved := z.moved + m, crc := BitVec.ofNat 32 (crcRun z.crc.toNat y.1) })
          let s3 := perfAdd s2 0x0D n m
          if d.dspace = 1 then perfAdd s3 0x0E 0 m else s3
    ∃ t', exec (.dmaBurst t n data ok) s₀ = .next t' ∧ Follows s' t' ∧ Kept [.host, .cmds, .fe, .cal, .spec, .acq, .disp, .mon, .tiu, .grove, .mem,
      .move, .ctl, .flt, .sec, .pwr] s₀ t') ∧
  -- DESCRIPTOR_END (R403)
  (∀ (t n : Nat) (s₀ : State), s₀.pwr.down = false →
    let s := advance s₀ t
    let s' :=
      match (s.dma n).active with
      | some d => if (s.dma n).moved = d.total && 0 < d.total then descEnd s n false false 0 else s
      | none => s
    ∃ t', exec (.descriptorEnd t n) s₀ = .next t' ∧ Follows s' t' ∧ Kept [.host, .cmds, .fe, .cal, .spec, .acq, .disp, .mon, .tiu, .grove, .mem,
      .move, .ctl, .flt, .sec, .pwr] s₀ t') ∧
  -- TIMER_LINE_PULSE (R408)
  (∀ (t l : Nat) (s₀ : State), s₀.pwr.down = false →
    let s := advance s₀ t
    let x := s.tml l
    ∃ t', exec (.timerLinePulse t l) s₀ = .next t' ∧ Follows (if x.on && x.start ≤ s.now && (s.now - x.start) % max 1 x.period = 0 &&
      x.last ≠ some s.now then dmaPulse (s.setTml l { x with last := some s.now }) (32 + l) else s) t' ∧ Kept [.move] s₀ t') ∧
  -- STREAM_RECORD_COPY (R412)
  (∀ (t n held : Nat) (s₀ : State), s₀.pwr.down = false →
    let s := advance s₀ t
    let s0 := if held < 524288 then panicRaise s 3 0 else s
    let x := s0.dma n
    let h := x.sRing
    let s' :=
      match (s0.reg h).recs with
      | [] => s0
      | len :: _ =>
        if !x.on || x.mode ≠ 2 || x.hroom < len || s0.host.linkRate = 0 || !s0.host.busMaster || !streamDue s0 x len then s0 else
        let y := ringRead s0 h (s0.reg h).rpos len { code := some 2, inst := n, master := 6 }
        let s1 := ringAck y.2.2 h ((s0.reg h).rpos + len)
        if y.2.1 then s1.modDma n (fun z => { z with poisonSkip := sat32 z.poisonSkip }) else
        let used := if x.perNo = periodOf s.now + 1 then x.perN else 0
        let z : Dma := { s1.dma n with hwpos := x.hwpos + len, updCnt := (x.updCnt + 1) % 2^32, perNo := periodOf s.now + 1, perN := used + len, doneAt := s.now,
                                       dones := (x.dones + 1) % 2^32, sigAt := if x.sigAt ≤ s.now then s.now + 1600 * x.moderate else x.sigAt }
        let m := wrBytes (hostRingPut s1.host.hostMem x.haddr x.hsize x.hwpos y.1) x.hpos (posBlock z)
        let s2 := perfAdd (perfAdd { s1.setDma n z with host := { s1.host with hostMem := m } } 0x0D n len) 0x0E 0 (len + 64)
        if x.sIrq && x.sigAt ≤ s.now then signal s2 x.sVector else s2
    ∃ t', exec (.streamRecordCopy t n held) s₀ = .next t' ∧ Follows s' t' ∧ Kept [.host, .fe, .cal, .spec, .acq, .disp, .mon, .tiu, .grove, .mem,
      .move, .ctl, .flt, .sec, .pwr] s₀ t')

/-- Recording and storage: checkpoints, stripes, drives, mounts, links. Derived from the rules named at each clause; the
model's own choices in it are those of log entries 2, 8, 38, 55. -/
def Obligations.StorageRows : Prop :=
  -- CHECKPOINT (R435)
  (∀ (t : Nat) (s₀ : State), s₀.pwr.down = false →
    let s := advance s₀ t
    (((!recTakes s || s.now < s.move.cpAt) = true) → Idles (.checkpoint t) t s₀) ∧
    ((!recTakes s || s.now < s.move.cpAt) = false →
    let s1 := handFull { s with move := { s.move with cpAt := s.move.cpAt + s.move.checkpoint * periodCt } } true
    let s2 := { s1 with move := { s1.move with stripes := s1.move.stripes.map (fun x => if x.seq + 1 = s1.move.seqNo then { x with check := true } else x) } }
    ∃ t', exec (.checkpoint t) s₀ = .next t' ∧ Follows (recPull (flushCheck s2)) t' ∧ Kept [.host, .cmds, .fe, .cal, .spec, .acq, .disp, .mon, .tiu,
      .grove, .mem, .move, .ctl, .flt, .sec, .pwr] s₀ t')) ∧
  -- STRIPE_COMPLETE (R435)
  (∀ (t q held : Nat) (s₀ : State), s₀.pwr.down = false →
    let s := advance s₀ t
    (s.move.stripes.find? (fun x => x.seq == q && !x.done) = none → Idles (.stripeComplete t q held) t s₀) ∧
    (∀ x, s.move.stripes.find? (fun x => x.seq == q && !x.done) = some x →
    let d := ((s.dirE s.move.entry).first + q) % max 1 s.move.drives
    let n := ((memberLinks s).find? (fun k => (s.link k).drive == d)).getD 0
    let s0 := if held < 1048576 then panicRaise s 2 n else s
    let s1 := { s0 with move := { s0.move with stripes := s0.move.stripes.map (fun (y : Stripe) => if y.seq = q then { y with done := true } else y) } }
    ∃ t', exec (.stripeComplete t q held) s₀ = .next t' ∧
      Follows (recPull (endCheck (flushCheck (perfAdd s1 0x0F n (ceilDiv (256 + x.fill) 4096 * 4096))))) t' ∧ Kept [.host, .cmds, .fe, .cal, .spec,
      .acq, .disp, .mon, .tiu, .grove, .mem, .move, .ctl, .flt, .sec, .pwr] s₀ t')) ∧
  -- MOUNT_MEASUREMENT_END (R431)
  (∀ (t : Nat) (rates : List Nat) (s₀ : State), s₀.pwr.down = false →
    let s := advance s₀ t
    ((s.move.job ≠ 3) → Idles (.mountMeasurementEnd t rates) t s₀) ∧
    (¬(s.move.job ≠ 3) →
    let ds := drivesOk s
    let d : ℚ := ds.length
    let s1 := ds.foldl (fun a n => a.modLink n (fun x => { x with meas := rates.getD n 0 })) s
    let low := (ds.map (fun n => rates.getD n 0)).foldl min (rates.getD (ds.headD 0) 0)
    let cap := (ds.map (fun n => linkCap (s.link n).rate (s.link n).width (s.link n).flit)).foldl min (29500000000 * 4)
    let v : ℚ := min (min (d * 9 / 10 * (low * 1000000)) (d * cap)) 118000000000
    ∃ t', exec (.mountMeasurementEnd t rates) s₀ = .next t' ∧
      Follows ({ s1 with move := { s1.move with job := 4, admitV := (v * 13).floor.toNat, admitRate := (v / 1000000).floor.toNat, dir := [], repaired := false } }) t' ∧
      Kept [.move] s₀ t')) ∧
  -- DRIVE_FAIL (R419)
  (∀ (t n cause status : Nat) (s₀ : State), s₀.pwr.down = false →
    let s := advance s₀ t
    ∃ t', exec (.driveFail t n cause status) s₀ = .next t' ∧ Follows (driveFail s n cause status) t' ∧ Kept [.host, .cmds, .fe, .cal, .spec, .acq,
      .disp, .mon, .tiu, .grove, .mem, .move, .ctl, .flt, .sec, .pwr] s₀ t') ∧
  -- DRIVE_COMMAND_COMPLETION (R417)
  (∀ (t n status kind : Nat) (fin : Bool) (data : List Nat) (s₀ : State), s₀.pwr.down = false →
    let s := advance s₀ t
    (((!(s.link n).ok) = true) → Idles (.driveCommandCompletion t n status kind fin data) t s₀) ∧
    ((!(s.link n).ok) = false →
    let logs := if kind = 0 then s.host.inProg.filter (fun p => p.opcode == 0x0B0E && p.unit_ == n) else []
    let s' :=
      match logs with
      | p :: _ =>
        let s1 := if status = 0 then regWrite s (p.data.headD 0) (p.data.getD 1 0) (bytesOf ((List.range 4096).map (fun i => data.getD i 0))) else s
        let s2 := finish s1 p (if status = 0 then 0 else stFaulted) 1 (fld status 0 16)
        if status = 0 then s2 else driveFail s2 n 2 status
      | [] => if status ≠ 0 then driveFail s n 2 status else jobStep s n kind fin data
    ∃ t', exec (.driveCommandCompletion t n status kind fin data) s₀ = .next t' ∧ Follows s' t' ∧ Kept [.host, .cmds, .fe, .cal, .spec, .acq, .disp,
      .mon, .tiu, .grove, .mem, .move, .ctl, .flt, .sec, .pwr] s₀ t')) ∧
  -- STORAGE_LINK_UP (R416)
  (∀ (t n rate width : Nat) (flit ok : Bool) (stripes lba : Nat) (suitable : Bool) (serial : Nat) (vwc : Bool) (s₀ : State), s₀.pwr.down = false →
    let s := advance s₀ t
    (((!s.move.portOn || linkCount s.move.bifur ≤ n || (rate != 0 && !storLinkLegal s rate width flit)) = true) →
      Idles (.storageLinkUp t n rate width flit ok stripes lba suitable serial vwc) t s₀) ∧
    ((!s.move.portOn || linkCount s.move.bifur ≤ n || (rate != 0 && !storLinkLegal s rate width flit)) = false →
    let x : Link := { rate := rate, width := if rate = 0 then 0 else width, flit := flit && rate != 0, ok := ok && rate != 0, stripes := stripes, lba := lba, suitable := suitable, serial := serial, vwc := vwc }
    let s' :=
      match storCmd s 0x0B07 with
      | some p => if bit (p.data.headD 0) n then linkTrained s p n x else s
      | none =>
        if rate = 0 then (if (s.link n).ok then driveFail s n 0 0 else linkDown s n)
        else linkPost (s.modLink n (fun y => { y with rate := rate, width := width, flit := flit })) n
    ∃ t', exec (.storageLinkUp t n rate width flit ok stripes lba suitable serial vwc) s₀ = .next t' ∧ Follows s' t' ∧ Kept [.host, .cmds, .fe,
      .cal, .spec, .acq, .disp, .mon, .tiu, .grove, .mem, .move, .ctl, .flt, .sec, .pwr] s₀ t'))

/-- Auxiliary converter: passes, conversions, limits, overrun, reference. Derived from the rules named at each clause; the
model's own choices in it are those of log entries 43. -/
def Obligations.AuxRows : Prop :=
  -- AUX_PASS_START (R482)
  (∀ (t : Nat) (s₀ : State), s₀.pwr.down = false →
    let s := advance s₀ t
    let x := s.aux
    (((!x.run || x.inPass || !yp0Locked s || s.now < x.start || auxPassCt s = 0) = true) → Idles (.auxPassStart t) t s₀) ∧
    ((!x.run || x.inPass || !yp0Locked s || s.now < x.start || auxPassCt s = 0) = false →
    ((((s.now - x.start) % auxPassCt s ≠ 0 || (!x.cont && s.now ≠ x.start)) = true) → Idles (.auxPassStart t) t s₀) ∧
    (((s.now - x.start) % auxPassCt s ≠ 0 || (!x.cont && s.now ≠ x.start)) = false →
    ∃ t', exec (.auxPassStart t) s₀ = .next t' ∧
      Follows ({ s with aux := { x with inPass := true, halted := false, slot := 0, passAt := s.now, pull := (x.entries.headD (0, 0, 0)).2.1 } }) t' ∧
      Kept [.aux] s₀ t'))) ∧
  -- AUX_CONVERSION (R484)
  (∀ (t : Nat) (v : Int) (vref : Nat) (s₀ : State), s₀.pwr.down = false →
    let s := advance s₀ t
    let x := s.aux
    (((!x.inPass || s.now < slotEnd x) = true) → Idles (.auxConversion t v vref) t s₀) ∧
    ((!x.inPass || s.now < slotEnd x) = false →
    let e := x.entries.getD x.slot (0, 0, 0)
    let code := auxCode v vref (s.auxIn e.1).range
    let seq := (x.seq + 1) % 64
    let w := pack [(16, code), (4, e.1), (2, e.2.1), (1, b2n (code == 0 || code == 0xFFFF)), (1, b2n (!x.refok || [0x2400, 0x2401,
      0x2402].any (fun f => tget false s.flt.held f))), (6, seq), (1, 1), (1, b2n (auxNew s))]
    let x1 := { x with prev := some (s.now, x.data, x.ovrCount, x.ovrPer), data := BitVec.ofNat 32 w, seq := seq, pull := 0,
                       ovrCount := if auxNew s then sat32 x.ovrCount else x.ovrCount,
                       ovrPer := if auxNew s then x.ovrPer.add s.now else x.ovrPer }
    let last := decide (x.slot + 1 ≥ x.entries.length)
    let x2 := if last then { x1 with inPass := false, slot := 0, passes := (x.passes + 1) % 2^32, passTime := stampOf x.passAt }
      else { x1 with slot := x.slot + 1, pull := (x.entries.getD (x.slot + 1) (0, 0, 0)).2.1 }
    let x3 :=
      if x.stopReq then
        match x.repl with
        | some (m, l, per, start) =>
          { x2 with inPass := false, slot := 0, pull := 0, stopReq := false, repl := none, cont := m, entries := l, period := per,
                    start := max start s.now, passes := 0, seq := 0 }
        | none => { x2 with inPass := false, slot := 0, pull := 0, stopReq := false, run := x.halted }
      else if last && !x.cont then { x2 with run := false } else x2
    ∃ t', exec (.auxConversion t v vref) s₀ = .next t' ∧ Follows (auxLimit { s with aux := x3 } e.1 code) t' ∧ Kept [.aux] s₀ t')) ∧
  -- AUX_LIMIT_PERIOD_END (R486)
  (∀ (t : Nat) (s₀ : State), s₀.pwr.down = false →
    let s := advance s₀ t
    let s' :=
      (List.range 16).foldl (fun a n =>
      let x := a.auxIn n
      if x.limen && x.postAt = periodOf a.now && x.postAt ≠ 0 && x.outside ≠ x.postedOut && a.now % periodCt = 0 then
        post (a.setAuxIn n { x with postedOut := x.outside }) 0x0C02 (pack [(4, n), (1, b2n x.outside), (11, 0), (16, x.last)])
      else a) s
    ∃ t', exec (.auxLimitPeriodEnd t) s₀ = .next t' ∧ Follows s' t' ∧ Kept [.aux] s₀ t') ∧
  -- AUX_OVR (R499)
  (∀ (t : Nat) (s₀ : State), s₀.pwr.down = false →
    let s := advance s₀ t
    let n := s.aux.ovrPer.ended s.now
    ((n = 0) → Idles (.auxOvr t) t s₀) ∧
    (¬(n = 0) →
    ∃ t', exec (.auxOvr t) s₀ = .next t' ∧ Follows (post { s with aux := { s.aux with ovrPer := s.aux.ovrPer.reported s.now } } 0x0C03 (pack [(32,
      min n 0xFFFFFFFF), (32, s.aux.ovrCount)])) t' ∧ Kept [.aux] s₀ t')) ∧
  -- AUX_REF (R481)
  (∀ (t v : Nat) (s₀ : State), s₀.pwr.down = false →
    let s := advance s₀ t
    let w := refWindow s.aux.source
    let s' :=
      if v < w.1 || w.2.1 < v then auxSetRefok { s with aux := { s.aux with refIn := none } } false
      else if !yp0Locked s then s
      else
        match s.aux.refIn with
        | none => { s with aux := { s.aux with refIn := some s.now } }
        | some a => if s.now < a + w.2.2 then s else auxSetRefok s true
    ∃ t', exec (.auxRef t v) s₀ = .next t' ∧ Follows s' t' ∧ Kept [.host, .fe, .cal, .spec, .acq, .disp, .mon, .tiu, .grove, .mem, .move, .aux,
      .ctl, .flt, .sec, .pwr] s₀ t')

/-- Control outputs: steps, range changes, timed writes, faults. Derived from the rules named at each clause; the model's
own choices in it are those of log entries 43. -/
def Obligations.ControlRows : Prop :=
  -- CTL_STEP (R489)
  (∀ (t n : Nat) (s₀ : State), s₀.pwr.down = false →
    let s := advance s₀ t
    let x := s.ctlO n
    (((!x.on || !x.hold || x.rphase ≠ 0 || s.now < x.holdEnd || !yp0Locked s) = true) → Idles (.ctlStep t n) t s₀) ∧
    ((!x.on || !x.hold || x.rphase ≠ 0 || s.now < x.holdEnd || !yp0Locked s) = false →
    ∃ t', exec (.ctlStep t n) s₀ = .next t' ∧ Follows (s.setCtlO n (x.step s.now)) t' ∧ Kept [.ctl] s₀ t')) ∧
  -- CTL_RANGE_PHASE (R490)
  (∀ (t n : Nat) (s₀ : State), s₀.pwr.down = false →
    let s := advance s₀ t
    let x := s.ctlO n
    (((!x.on || x.rphase = 0 || s.now < x.holdEnd || !yp0Locked s) = true) → Idles (.ctlRangePhase t n) t s₀) ∧
    ((!x.on || x.rphase = 0 || s.now < x.holdEnd || !yp0Locked s) = false →
    ∃ t', exec (.ctlRangePhase t n) s₀ = .next t' ∧ Follows (s.setCtlO n (x.phase s.now)) t' ∧ Kept [.ctl] s₀ t')) ∧
  -- CTL_TIMED_WRITE (R497)
  (∀ (t : Nat) (s₀ : State), s₀.pwr.down = false →
    let s := advance s₀ t
    ∃ t', exec (.ctlTimedWrite t) s₀ = .next t' ∧ Follows (if yp0Locked s then ctlTimedDone (ctlTimedDue s) else s) t' ∧ Kept [.cmds, .ctl] s₀ t') ∧
  -- CTL_FAULT (R487)
  (∀ (t n : Nat) (ov : Bool) (s₀ : State), s₀.pwr.down = false →
    let s := advance s₀ t
    let x := s.ctlO n
    (((!x.on || x.range = ov || (if ov then x.overload else x.compl)) = true) → Idles (.ctlFault t n ov) t s₀) ∧
    ((!x.on || x.range = ov || (if ov then x.overload else x.compl)) = false →
    let y := if ov then { x with overload := true } else { x with compl := true }
    let s1 := (s.setCtlO n y).setActive (0x2500 + 3 * n) true
    ∃ t', exec (.ctlFault t n ov) s₀ = .next t' ∧ Follows (raiseFault (post s1 0x0C04 (pack [(3, n), (1, b2n ov), (12, 0), (12,
      x.code)])) (0x2500 + 3 * n) {}) t' ∧ Kept [.host, .cmds, .fe, .cal, .spec, .acq, .disp, .mon, .tiu, .grove, .mem, .move, .ctl, .flt, .sec,
      .pwr] s₀ t')) ∧
  -- CTL_FAULT_CLEAR (R487)
  (∀ (t n : Nat) (ov : Bool) (s₀ : State), s₀.pwr.down = false →
    let s := advance s₀ t
    let x := s.ctlO n
    let y := if ov then { x with overload := false } else { x with compl := false }
    ∃ t', exec (.ctlFaultClear t n ov) s₀ = .next t' ∧ Follows ((s.setCtlO n y).setActive (0x2500 + 3 * n) (y.overload || y.compl)) t' ∧ Kept [.ctl,
      .flt] s₀ t')

/-- Faults are detected, forced and suppressed; counters act and saturate. Derived from the rules named at each clause;
the model's own choices in it are those of log entries 22, 23, 24, 25, 26, 45. -/
def Obligations.FaultRows : Prop :=
  -- FORCED_RAISE (R509)
  (∀ (t : Nat) (items : List Nat) (s₀ : State), s₀.pwr.down = false →
    let s := advance s₀ t
    let due := s.flt.forcedDue.filter (fun e => decide (e.2 < s.now))
    let s1 := { s with flt := { s.flt with forcedDue := s.flt.forcedDue.filter (fun e => !decide (e.2 < s.now)) } }
    ∃ t', exec (.forcedRaise t items) s₀ = .next t' ∧ Follows (due.foldl (fun a e => detect a e.1 { forced := true, items := items }) s1) t' ∧
      Kept [.host, .cmds, .fe, .clk, .cal, .spec, .acq, .disp, .mon, .tiu, .grove, .mem, .move, .aux, .ctl, .flt, .sec, .pwr] s₀ t') ∧
  -- SUPPRESSION_WINDOW_CLOSE (R505)
  (∀ (t : Nat) (s₀ : State), s₀.pwr.down = false →
    let s := advance s₀ t
    ∃ t', exec (.suppressionWindowClose t) s₀ = .next t' ∧
      Follows ((s.flt.wins.filter (fun w => decide (w.closing.1 ≤ s.now))).foldl winClose s) t' ∧ Kept [.host, .fe, .cal, .spec, .acq, .disp, .mon,
      .tiu, .grove, .mem, .move, .ctl, .flt, .sec, .pwr] s₀ t') ∧
  -- FAULT_DETECTION (R501)
  (∀ (t id mode : Nat) (items : List Nat) (s₀ : State), s₀.pwr.down = false →
    let s := advance s₀ t
    (((!fltDefined id) = true) → Idles (.faultDetection t id mode items) t s₀) ∧
    ((!fltDefined id) = false →
    ∃ t', exec (.faultDetection t id mode items) s₀ = .next t' ∧ Follows (if mode = 2 then detectEnd s id
      else detect (if mode = 1 then s.setActive id true else s) id { items := items }) t' ∧ Kept [.host, .cmds, .fe, .clk, .cal, .spec, .acq, .disp,
      .mon, .tiu, .grove, .mem, .move, .aux, .ctl, .flt, .sec, .pwr] s₀ t')) ∧
  -- RAIL_FAULT (R531)
  (∀ (t k : Nat) (core on : Bool) (s₀ : State), s₀.pwr.down = false →
    let s := advance s₀ t
    let id := (if core then 0x2600 else 0x2700) + k
    (((!fltDefined id) = true) → Idles (.railFault t k core on) t s₀) ∧
    ((!fltDefined id) = false →
    ∃ t', exec (.railFault t k core on) s₀ = .next t' ∧ Follows (if on then raiseFault (s.setActive id true) id {} else s.setActive id false) t' ∧
      Kept [.host, .cmds, .fe, .cal, .spec, .acq, .disp, .mon, .tiu, .grove, .mem, .move, .ctl, .flt, .sec, .pwr] s₀ t')) ∧
  -- PERF_CONTROL_AT_CT (R528)
  (∀ (t : Nat) (s₀ : State), s₀.pwr.down = false →
    let s := advance s₀ t
    ∃ t', exec (.perfControlAtCt t) s₀ = .next t' ∧ Follows ((s.host.inProg.filter (fun q => q.opcode == 0x0E02 &&
      decide (q.data.headD 0 ≤ s.now))).foldl (fun r q => finish (perfGo r (q.data.getD 1 0) (q.data.getD 2 0)) q 0 2 (pack [(16, 0), (64,
      s.now)])) s) t' ∧ Kept [.cmds, .perf] s₀ t') ∧
  -- PERF_SAT (R511)
  (∀ (t k v : Nat) (s₀ : State), s₀.pwr.down = false →
    let s := advance s₀ t
    let x := s.perfC k
    (((!x.run || !perfOpen x.source) = true) → Idles (.perfSat t k v) t s₀) ∧
    ((!x.run || !perfOpen x.source) = false →
    let s1 := s.setPerfC k (x.count v)
    ∃ t', exec (.perfSat t k v) s₀ = .next t' ∧ Follows (if (x.count v).sat && !x.sat then post s1 0x0E01 (perfSatPayload s1 k) else s1) t' ∧
      Kept [.perf] s₀ t')) ∧
  -- COMMAND_TRANSFER_END (R464)
  (∀ (t i : Nat) (s₀ : State), s₀.pwr.down = false →
    let s := advance s₀ t
    let s' :=
      match s.host.inProg[i]? with
      | some q => if panicUp s && q.opcode ≠ 0x0005 && q.opcode ≠ 0x0901 then s else transferEnd s q
      | none => s
    ∃ t', exec (.commandTransferEnd t i) s₀ = .next t' ∧ Follows s' t' ∧ Kept [.host, .cmds, .fe, .cal, .spec, .acq, .disp, .mon, .tiu, .grove,
      .mem, .move, .ctl, .flt, .sec, .pwr] s₀ t') ∧
  -- TEST_PORT_ACCESS (R513)
  (∀ (t kind id a b : Nat) (v : Int) (s₀ : State), s₀.pwr.down = false →
    let s := advance s₀ t
    let life := s.sec.life
    let opened := life = 0 || life = 3
    let s' :=
      match kind with
      | 0 => if opened then s else portRefused s
      | 1 => if opened || life = 1 then s else portRefused s
      | 2 => if opened || life = 1 then s else portRefused s
      | 3 => if !opened then portRefused s else if fltDefined id && !isEcc id then detect s id { forced := true } else s
      | 4 => if life = 0 then lifeMove s 1 else portRefused s
      | 5 => if life = 3 then lifeMove s 0 else portRefused s
      | 6 => if !opened then portRefused s
             else if id < 4 then
               { s with sec := { s.sec with fwKeys := (s.sec.fwKeys ++ List.replicate 4 (0, false, false)).take (max (id + 1) s.sec.fwKeys.length) |>.set id (a, bit b 0, bit b 1) } }
             else s
      | _ => if life ≠ 0 then portRefused s else factoryWrite s id v
    ∃ t', exec (.testPortAccess t kind id a b v) s₀ = .next t' ∧ Follows s' t' ∧ Kept [.host, .cmds, .fe, .clk, .cal, .spec, .acq, .disp, .mon,
      .tiu, .grove, .mem, .move, .aux, .ctl, .flt, .sec, .pwr] s₀ t')

/-- Power-on, device reset, start-up, thermal stages and power-down. Derived from the rules named at each clause; the
model's own choices in it are those of log entries 3, 13, 14, 15. -/
def Obligations.PowerRows : Prop :=
  -- POWER_ON (R533)
  (∀ (t : Nat) (waited : Bool) (tj : Int) (s₀ : State),
    (s₀.pwr.powered = true ∨ waited = false ∨ (s₀.pwr.tripped = true ∧ 950 ≤ tj) → Stays (.powerOn t waited tj) s₀) ∧
    (s₀.pwr.powered = false → waited = true → (s₀.pwr.tripped = true → tj < 950) → ∃ t', exec (.powerOn t waited tj) s₀ = .next t' ∧
      ResetAs s₀ ((flushAll (advance s₀ t)).host.kept) { tj := tj, perst := s₀.pwr.perst } t')) ∧
  -- DEVICE_RESET (R538)
  (∀ (t : Nat) (held : Bool) (s₀ : State),
    (s₀.pwr.down = true → Stays (.deviceReset t held) s₀) ∧
    (s₀.pwr.down = false → held = true → ∃ t', exec (.deviceReset t held) s₀ = .next t' ∧
      ResetAs s₀ ((flushAll (advance s₀ t)).host.kept) { tj := s₀.pwr.tj, perst := s₀.pwr.perst, rstLow := true } t') ∧
    (s₀.pwr.down = false → held = false → (s₀.host.resetAt.any (fun r => decide (r ≤ max s₀.now t))) = false → Idles (.deviceReset t held) t s₀) ∧
    (s₀.pwr.down = false → held = false → (s₀.host.resetAt.any (fun r => decide (r ≤ max s₀.now t))) = true → s₀.host.activating = false → ∃ t',
      exec (.deviceReset t held) s₀ = .next t' ∧ ResetAs s₀ ((flushAll (advance s₀ t)).host.kept) { tj := s₀.pwr.tj, perst := s₀.pwr.perst } t') ∧
    (s₀.pwr.down = false → held = false → (s₀.host.resetAt.any (fun r => decide (r ≤ max s₀.now t))) = true → s₀.host.activating = true → ∃ t',
      exec (.deviceReset t held) s₀ = .next t' ∧
      ResetAs s₀ ({ (flushAll (advance s₀ t)).host.kept with slot := 1 - s₀.host.slot, engine := 3, fallback := false, activating := true }) { tj := s₀.pwr.tj, perst := s₀.pwr.perst } t')) ∧
  -- POWER_DOWN (R542)
  (∀ (t : Nat) (s₀ : State),
    (s₀.pwr.powered = false → Stays (.powerDown t) s₀) ∧
    (s₀.pwr.powered = true → ∃ t', exec (.powerDown t) s₀ = .next t' ∧
      ResetAs s₀ ((flushAll (advance s₀ t)).host.kept) { tj := s₀.pwr.tj, perst := s₀.pwr.perst, powered := false, pgood := false, tripped := s₀.pwr.tripped } t')) ∧
  -- THERMAL_TRIP (R541)
  (∀ (t : Nat) (rs : List Int) (s₀ : State),
    (s₀.pwr.powered = false ∨ tjOf s₀ rs < 1120 → Stays (.thermalTrip t rs) s₀) ∧
    (s₀.pwr.powered = true → 1120 ≤ tjOf s₀ rs → ∃ t', exec (.thermalTrip t rs) s₀ = .next t' ∧
      ResetAs s₀ ((flushAll (advance s₀ t)).host.kept) { tj := tjOf s₀ rs, perst := s₀.pwr.perst, powered := false, pgood := false, tripped := true } t')) ∧
  -- THERMAL_STAGE (R540)
  (∀ (t : Nat) (rs : List Int) (s₀ : State), s₀.pwr.down = false →
    let s := advance s₀ t
    let tj := tjOf s rs
    let k := hotSensor s rs
    let s1 := { s with pwr := { s.pwr with tj := tj } }
    let n := stageOf tj
    let s' :=
      if n ≤ s.pwr.stage then s1 else
      let s2 := { s1 with pwr := { s1.pwr with stage := n, alertLow := true } }
      let s3 := (List.range (n - s.pwr.stage)).foldl (fun a _ => raiseFault a (0x2800 + k) {}) s2
      shedTo s3 (thermalShed s3)
    ∃ t', exec (.thermalStage t rs) s₀ = .next t' ∧ Follows s' t' ∧ Kept [.host, .cmds, .fe, .cal, .spec, .acq, .disp, .mon, .tiu, .grove, .mem,
      .move, .ctl, .flt, .sec, .pwr] s₀ t') ∧
  -- THERMAL_STAGE_EXIT (R540)
  (∀ (t : Nat) (tj : Int) (s₀ : State), s₀.pwr.down = false →
    let s := advance s₀ t
    let n := stageAfter s.pwr.stage tj
    ∃ t', exec (.thermalStageExit t tj) s₀ = .next t' ∧
      Follows ({ s with pwr := { s.pwr with tj := tj, stage := n, alertLow := n != 0 || s.host.engine != 1 } }) t' ∧ Kept [.pwr] s₀ t') ∧
  -- RST_N_RELEASE (R537)
  (∀ (t : Nat) (s₀ : State),
    (s₀.pwr.powered = false ∨ s₀.pwr.rstLow = false → Stays (.rstNRelease t) s₀) ∧
    (s₀.pwr.powered = true → s₀.pwr.rstLow = true →
      exec (.rstNRelease t) s₀ = .next { s₀ with now := 0, pwr := { s₀.pwr with rstLow := false } })) ∧
  -- FIRMWARE_START_TIMEOUT (R473)
  (∀ (t : Nat) (s₀ : State),
    (s₀.pwr.down = true ∨ s₀.host.activating = false ∨ s₀.host.engine ≠ 3 → Stays (.firmwareStartTimeout t) s₀) ∧
    (s₀.pwr.down = false → s₀.host.activating = true → s₀.host.engine = 3 → ∃ t', exec (.firmwareStartTimeout t) s₀ = .next t' ∧
      ResetAs s₀ ({ (flushAll (advance s₀ t)).host.kept with slot := 1 - s₀.host.slot, engine := 0, fallback := true, activating := false }) { tj := s₀.pwr.tj, perst := s₀.pwr.perst } t')) ∧
  -- STARTUP_COMPLETE (R533)
  (∀ (t : Nat) (fails : List Nat) (slotOk otherOk : Bool) (found edges : List Nat) (s₀ : State), s₀.pwr.down = false →
    let s := advance s₀ t
    (((s.pwr.step ≠ 4 || s.flt.cpDead) = true) → Idles (.startupComplete t fails slotOk otherOk found edges) t s₀) ∧
    ((s.pwr.step ≠ 4 || s.flt.cpDead) = false →
    let s' :=
      if !slotOk && !otherOk then { s with pwr := { s.pwr with step := 5 } }
      else
        let s1 := if slotOk then (if s.host.activating then { s with host := { s.host with fallback := false } } else s)
                  else { s with host := { s.host with slot := 1 - s.host.slot, fallback := true } }
        let s2 := (List.range 4).foldl (fun a k => startLock a k (found.getD k 0) (edges.getD k 0))
          (ready (startVersions s1 (slotOk && s.host.activating)))
        let s3 := (fails.filter startupSource).foldl startupFail s2
        if s3.host.engine = 1 && (fails.any startupHard || s3.flt.sticky.any (fun e => e.2 == 3)) then enterFatal s3 (fails.headD 0x2E00) else s3
    ∃ t', exec (.startupComplete t fails slotOk otherOk found edges) s₀ = .next t' ∧ Follows s' t' ∧ Kept [.host, .cmds, .fe, .clk, .cal, .spec,
      .acq, .disp, .mon, .tiu, .grove, .mem, .move, .aux, .ctl, .flt, .sec, .pwr] s₀ t'))
end

