-- ==== Sys2Proof/Laws/Tab.lean ====
section
/-! SUPPORT. Laws of sparse tables and byte memory: a read after a write, and the canonical form that every write keeps. -/

namespace Sys2Proof.Machine

section tables

variable {α : Type}

theorem tget_tins_self (d : α) (t : Tab α) (i : Nat) (v : α) : tget d (tins t i v) i = v := by
  induction t with
  | nil => simp [tins, tget]
  | cons e r ih =>
    obtain ⟨j, w⟩ := e
    simp only [tins]
    split
    · rename_i h; simp [tget, Nat.ne_of_lt h, ih]
    · split <;> simp [tget]

theorem tget_tins_ne (d : α) (t : Tab α) {i k : Nat} (v : α) (h : k ≠ i) : tget d (tins t i v) k = tget d t k := by
  induction t with
  | nil => simp [tins, tget, h.symm]
  | cons e r ih =>
    obtain ⟨j, w⟩ := e
    simp only [tins]
    split
    · simp [tget, ih]
    · split
      · rename_i hj; subst hj; simp [tget, h.symm]
      · simp [tget, h.symm]

theorem tget_tdel_self (d : α) (t : Tab α) (i : Nat) : tget d (tdel t i) i = d := by
  induction t with
  | nil => rfl
  | cons e r ih =>
    obtain ⟨j, w⟩ := e
    simp only [tdel]
    split
    · exact ih
    · rename_i h; simp [tget, h, ih]

theorem tget_tdel_ne (d : α) (t : Tab α) {i k : Nat} (h : k ≠ i) : tget d (tdel t i) k = tget d t k := by
  induction t with
  | nil => rfl
  | cons e r ih =>
    obtain ⟨j, w⟩ := e
    simp only [tdel]
    split
    · rename_i hj; subst hj; simp [tget, h.symm, ih]
    · simp [tget, ih]

variable [DecidableEq α]

/-- What a write puts at a key is read there. -/
@[simp] theorem tget_tput_self (d : α) (t : Tab α) (i : Nat) (v : α) : tget d (tput d t i v) i = v := by
  unfold tput; split
  · rename_i h; rw [tget_tdel_self, h]
  · exact tget_tins_self d t i v

/-- A write leaves every other key alone. -/
theorem tget_tput_ne (d : α) (t : Tab α) {i k : Nat} (v : α) (h : k ≠ i) : tget d (tput d t i v) k = tget d t k := by
  unfold tput; split
  · exact tget_tdel_ne d t h
  · exact tget_tins_ne d t v h

theorem tget_tput (d : α) (t : Tab α) (i k : Nat) (v : α) : tget d (tput d t i v) k = if k = i then v else tget d t k := by
  split
  · rename_i h; subst h; simp
  · rename_i h; exact tget_tput_ne d t v h

theorem tabWfFrom_mono (d : α) {b c : Nat} (h : b ≤ c) (t : Tab α) (ht : tabWfFrom d c t = true) : tabWfFrom d b t = true := by
  cases t with
  | nil => rfl
  | cons e r => simp only [tabWfFrom, Bool.and_eq_true, decide_eq_true_eq] at ht ⊢; exact ⟨⟨by omega, ht.1.2⟩, ht.2⟩

theorem tabWfFrom_tdel (d : α) (t : Tab α) (i b : Nat) (ht : tabWfFrom d b t = true) : tabWfFrom d b (tdel t i) = true := by
  induction t generalizing b with
  | nil => rfl
  | cons e r ih =>
    obtain ⟨j, w⟩ := e
    simp only [tabWfFrom, Bool.and_eq_true, decide_eq_true_eq] at ht
    simp only [tdel]
    split
    · exact tabWfFrom_mono d (by omega) _ (ih _ ht.2)
    · simp only [tabWfFrom, Bool.and_eq_true, decide_eq_true_eq]; exact ⟨ht.1, ih _ ht.2⟩

theorem tabWfFrom_tins (d : α) (t : Tab α) (i b : Nat) (v : α) (hv : v ≠ d) (hb : b ≤ i) (ht : tabWfFrom d b t = true) :
    tabWfFrom d b (tins t i v) = true := by
  induction t generalizing b with
  | nil => simp [tins, tabWfFrom, hv, hb]
  | cons e r ih =>
    obtain ⟨j, w⟩ := e
    simp only [tabWfFrom, Bool.and_eq_true, decide_eq_true_eq] at ht
    simp only [tins]
    split
    · simp only [tabWfFrom, Bool.and_eq_true, decide_eq_true_eq]; exact ⟨ht.1, ih _ (by omega) ht.2⟩
    · split
      · rename_i hj; subst hj; simp only [tabWfFrom, Bool.and_eq_true, decide_eq_true_eq]; exact ⟨⟨hb, hv⟩, ht.2⟩
      · simp only [tabWfFrom, Bool.and_eq_true, decide_eq_true_eq]
        exact ⟨⟨hb, hv⟩, ⟨⟨by omega, ht.1.2⟩, ht.2⟩⟩

/-- A write keeps the canonical form of a table. -/
theorem tabWf_tput (d : α) (t : Tab α) (i : Nat) (v : α) (ht : tabWf d t = true) : tabWf d (tput d t i v) = true := by
  unfold tput; split
  · exact tabWfFrom_tdel d t i 0 ht
  · rename_i h; exact tabWfFrom_tins d t i 0 v h (Nat.zero_le _) ht

theorem tabWfFrom_filter (d : α) (f : Nat × α → Bool) (t : Tab α) (b : Nat) (ht : tabWfFrom d b t = true) :
    tabWfFrom d b (t.filter f) = true := by
  induction t generalizing b with
  | nil => rfl
  | cons e r ih =>
    obtain ⟨j, w⟩ := e
    simp only [tabWfFrom, Bool.and_eq_true, decide_eq_true_eq] at ht
    simp only [List.filter_cons]
    split
    · simp only [tabWfFrom, Bool.and_eq_true, decide_eq_true_eq]; exact ⟨ht.1, ih _ ht.2⟩
    · exact tabWfFrom_mono d (by omega) _ (ih _ ht.2)

end tables

/-! ## Byte memory -/

/-- A byte just written reads as written. -/
@[simp] theorem rdByte_wrByte_self (m : Mem) (a : Nat) (b : Byte) : rdByte (wrByte m a b) a = b := tget_tput_self 0 m a b

/-- Writing a byte leaves every other address alone. -/
theorem rdByte_wrByte_ne (m : Mem) {a k : Nat} (b : Byte) (h : k ≠ a) : rdByte (wrByte m a b) k = rdByte m k :=
  tget_tput_ne 0 m b h

/-- Writing bytes leaves every address outside the written range alone. -/
theorem rdByte_wrBytes_out (m : Mem) (a k : Nat) (l : List Byte) (h : k < a ∨ a + l.length ≤ k) :
    rdByte (wrBytes m a l) k = rdByte m k := by
  induction l generalizing m a with
  | nil => rfl
  | cons b r ih =>
    simp only [List.length_cons] at h
    rw [wrBytes, ih _ _ (by omega), rdByte_wrByte_ne _ _ (by omega)]

/-- Bytes just written read as written. -/
theorem rdByte_wrBytes_in (m : Mem) (a i : Nat) (l : List Byte) (h : i < l.length) : rdByte (wrBytes m a l) (a + i) = l[i] := by
  induction l generalizing m a i with
  | nil => simp at h
  | cons b r ih =>
    rw [wrBytes]
    cases i with
    | zero => rw [rdByte_wrBytes_out _ _ _ _ (by omega)]; simp
    | succ j =>
      have hj : j < r.length := by simpa using h
      have := ih (wrByte m a b) (a + 1) j hj
      rw [show a + (j + 1) = a + 1 + j by omega, this]; simp

/-- Every memory operation keeps the canonical form. -/
theorem wf_wrByte (m : Mem) (a : Nat) (b : Byte) (h : Memory.wf m = true) : Memory.wf (wrByte m a b) = true :=
  tabWf_tput 0 m a b h

theorem wf_wrBytes (m : Mem) (a : Nat) (l : List Byte) (h : Memory.wf m = true) : Memory.wf (wrBytes m a l) = true := by
  induction l generalizing m a with
  | nil => exact h
  | cons b r ih => exact ih _ _ (wf_wrByte m a b h)

theorem wf_zeroBytes (m : Mem) (a n : Nat) (h : Memory.wf m = true) : Memory.wf (zeroBytes m a n) = true :=
  tabWfFrom_filter 0 _ m 0 h

end Sys2Proof.Machine
end

