-- ==== Sys2Proof/Laws/State.lean ====
section
/-! SUPPORT. What a write of one entry of a table of the state changes and leaves: one lemma per component and per table, so that no proof
unfolds a record update. -/

namespace Sys2Proof.Machine

variable (s : State) (n k : Nat)

/-! ### ses -/

@[simp] theorem State.setSes_pending (v : Session) : (s.setSes n v).pending = s.pending := rfl
@[simp] theorem State.setSes_now (v : Session) : (s.setSes n v).now = s.now := rfl
@[simp] theorem State.setSes_freeNo (v : Session) : (s.setSes n v).freeNo = s.freeNo := rfl
theorem State.setSes_host (v : Session) : (s.setSes n v).host = { s.host with sessions := tput {} s.host.sessions n v } := rfl
@[simp] theorem State.setSes_fe (v : Session) : (s.setSes n v).fe = s.fe := rfl
@[simp] theorem State.setSes_clk (v : Session) : (s.setSes n v).clk = s.clk := rfl
@[simp] theorem State.setSes_cal (v : Session) : (s.setSes n v).cal = s.cal := rfl
@[simp] theorem State.setSes_spec (v : Session) : (s.setSes n v).spec = s.spec := rfl
@[simp] theorem State.setSes_acq (v : Session) : (s.setSes n v).acq = s.acq := rfl
@[simp] theorem State.setSes_disp (v : Session) : (s.setSes n v).disp = s.disp := rfl
@[simp] theorem State.setSes_mon (v : Session) : (s.setSes n v).mon = s.mon := rfl
@[simp] theorem State.setSes_tiu (v : Session) : (s.setSes n v).tiu = s.tiu := rfl
@[simp] theorem State.setSes_grove (v : Session) : (s.setSes n v).grove = s.grove := rfl
@[simp] theorem State.setSes_mem (v : Session) : (s.setSes n v).mem = s.mem := rfl
@[simp] theorem State.setSes_move (v : Session) : (s.setSes n v).move = s.move := rfl
@[simp] theorem State.setSes_aux (v : Session) : (s.setSes n v).aux = s.aux := rfl
@[simp] theorem State.setSes_ctl (v : Session) : (s.setSes n v).ctl = s.ctl := rfl
@[simp] theorem State.setSes_flt (v : Session) : (s.setSes n v).flt = s.flt := rfl
@[simp] theorem State.setSes_sec (v : Session) : (s.setSes n v).sec = s.sec := rfl
@[simp] theorem State.setSes_perf (v : Session) : (s.setSes n v).perf = s.perf := rfl
@[simp] theorem State.setSes_pwr (v : Session) : (s.setSes n v).pwr = s.pwr := rfl
@[simp] theorem State.cplR_setSes (v : Session) : (s.setSes n v).cplR k = s.cplR k := rfl
@[simp] theorem State.msixE_setSes (v : Session) : (s.setSes n v).msixE k = s.msixE k := rfl
@[simp] theorem State.ownerOf_setSes (v : Session) : (s.setSes n v).ownerOf k = s.ownerOf k := rfl
@[simp] theorem State.ses_setSes_self (v : Session) : (s.setSes n v).ses n = v := tget_tput_self _ _ _ _
theorem State.ses_setSes_ne (v : Session) (h : k ≠ n) : (s.setSes n v).ses k = s.ses k := tget_tput_ne _ _ _ h
theorem State.modSes_eq (g : Session → Session) : s.modSes n g = s.setSes n (g (s.ses n)) := rfl

/-! ### cplR -/

@[simp] theorem State.setCplR_pending (v : CplRing) : (s.setCplR n v).pending = s.pending := rfl
@[simp] theorem State.setCplR_now (v : CplRing) : (s.setCplR n v).now = s.now := rfl
@[simp] theorem State.setCplR_freeNo (v : CplRing) : (s.setCplR n v).freeNo = s.freeNo := rfl
theorem State.setCplR_host (v : CplRing) : (s.setCplR n v).host = { s.host with cpls := tput {} s.host.cpls n v } := rfl
@[simp] theorem State.setCplR_fe (v : CplRing) : (s.setCplR n v).fe = s.fe := rfl
@[simp] theorem State.setCplR_clk (v : CplRing) : (s.setCplR n v).clk = s.clk := rfl
@[simp] theorem State.setCplR_cal (v : CplRing) : (s.setCplR n v).cal = s.cal := rfl
@[simp] theorem State.setCplR_spec (v : CplRing) : (s.setCplR n v).spec = s.spec := rfl
@[simp] theorem State.setCplR_acq (v : CplRing) : (s.setCplR n v).acq = s.acq := rfl
@[simp] theorem State.setCplR_disp (v : CplRing) : (s.setCplR n v).disp = s.disp := rfl
@[simp] theorem State.setCplR_mon (v : CplRing) : (s.setCplR n v).mon = s.mon := rfl
@[simp] theorem State.setCplR_tiu (v : CplRing) : (s.setCplR n v).tiu = s.tiu := rfl
@[simp] theorem State.setCplR_grove (v : CplRing) : (s.setCplR n v).grove = s.grove := rfl
@[simp] theorem State.setCplR_mem (v : CplRing) : (s.setCplR n v).mem = s.mem := rfl
@[simp] theorem State.setCplR_move (v : CplRing) : (s.setCplR n v).move = s.move := rfl
@[simp] theorem State.setCplR_aux (v : CplRing) : (s.setCplR n v).aux = s.aux := rfl
@[simp] theorem State.setCplR_ctl (v : CplRing) : (s.setCplR n v).ctl = s.ctl := rfl
@[simp] theorem State.setCplR_flt (v : CplRing) : (s.setCplR n v).flt = s.flt := rfl
@[simp] theorem State.setCplR_sec (v : CplRing) : (s.setCplR n v).sec = s.sec := rfl
@[simp] theorem State.setCplR_perf (v : CplRing) : (s.setCplR n v).perf = s.perf := rfl
@[simp] theorem State.setCplR_pwr (v : CplRing) : (s.setCplR n v).pwr = s.pwr := rfl
@[simp] theorem State.ses_setCplR (v : CplRing) : (s.setCplR n v).ses k = s.ses k := rfl
@[simp] theorem State.msixE_setCplR (v : CplRing) : (s.setCplR n v).msixE k = s.msixE k := rfl
@[simp] theorem State.ownerOf_setCplR (v : CplRing) : (s.setCplR n v).ownerOf k = s.ownerOf k := rfl
@[simp] theorem State.cplR_setCplR_self (v : CplRing) : (s.setCplR n v).cplR n = v := tget_tput_self _ _ _ _
theorem State.cplR_setCplR_ne (v : CplRing) (h : k ≠ n) : (s.setCplR n v).cplR k = s.cplR k := tget_tput_ne _ _ _ h
theorem State.modCplR_eq (g : CplRing → CplRing) : s.modCplR n g = s.setCplR n (g (s.cplR n)) := rfl

/-! ### msixE -/

@[simp] theorem State.setMsixE_pending (v : MsixEntry) : (s.setMsixE n v).pending = s.pending := rfl
@[simp] theorem State.setMsixE_now (v : MsixEntry) : (s.setMsixE n v).now = s.now := rfl
@[simp] theorem State.setMsixE_freeNo (v : MsixEntry) : (s.setMsixE n v).freeNo = s.freeNo := rfl
theorem State.setMsixE_host (v : MsixEntry) : (s.setMsixE n v).host = { s.host with msix := tput {} s.host.msix n v } := rfl
@[simp] theorem State.setMsixE_fe (v : MsixEntry) : (s.setMsixE n v).fe = s.fe := rfl
@[simp] theorem State.setMsixE_clk (v : MsixEntry) : (s.setMsixE n v).clk = s.clk := rfl
@[simp] theorem State.setMsixE_cal (v : MsixEntry) : (s.setMsixE n v).cal = s.cal := rfl
@[simp] theorem State.setMsixE_spec (v : MsixEntry) : (s.setMsixE n v).spec = s.spec := rfl
@[simp] theorem State.setMsixE_acq (v : MsixEntry) : (s.setMsixE n v).acq = s.acq := rfl
@[simp] theorem State.setMsixE_disp (v : MsixEntry) : (s.setMsixE n v).disp = s.disp := rfl
@[simp] theorem State.setMsixE_mon (v : MsixEntry) : (s.setMsixE n v).mon = s.mon := rfl
@[simp] theorem State.setMsixE_tiu (v : MsixEntry) : (s.setMsixE n v).tiu = s.tiu := rfl
@[simp] theorem State.setMsixE_grove (v : MsixEntry) : (s.setMsixE n v).grove = s.grove := rfl
@[simp] theorem State.setMsixE_mem (v : MsixEntry) : (s.setMsixE n v).mem = s.mem := rfl
@[simp] theorem State.setMsixE_move (v : MsixEntry) : (s.setMsixE n v).move = s.move := rfl
@[simp] theorem State.setMsixE_aux (v : MsixEntry) : (s.setMsixE n v).aux = s.aux := rfl
@[simp] theorem State.setMsixE_ctl (v : MsixEntry) : (s.setMsixE n v).ctl = s.ctl := rfl
@[simp] theorem State.setMsixE_flt (v : MsixEntry) : (s.setMsixE n v).flt = s.flt := rfl
@[simp] theorem State.setMsixE_sec (v : MsixEntry) : (s.setMsixE n v).sec = s.sec := rfl
@[simp] theorem State.setMsixE_perf (v : MsixEntry) : (s.setMsixE n v).perf = s.perf := rfl
@[simp] theorem State.setMsixE_pwr (v : MsixEntry) : (s.setMsixE n v).pwr = s.pwr := rfl
@[simp] theorem State.ses_setMsixE (v : MsixEntry) : (s.setMsixE n v).ses k = s.ses k := rfl
@[simp] theorem State.cplR_setMsixE (v : MsixEntry) : (s.setMsixE n v).cplR k = s.cplR k := rfl
@[simp] theorem State.ownerOf_setMsixE (v : MsixEntry) : (s.setMsixE n v).ownerOf k = s.ownerOf k := rfl
@[simp] theorem State.msixE_setMsixE_self (v : MsixEntry) : (s.setMsixE n v).msixE n = v := tget_tput_self _ _ _ _
theorem State.msixE_setMsixE_ne (v : MsixEntry) (h : k ≠ n) : (s.setMsixE n v).msixE k = s.msixE k := tget_tput_ne _ _ _ h
theorem State.modMsixE_eq (g : MsixEntry → MsixEntry) : s.modMsixE n g = s.setMsixE n (g (s.msixE n)) := rfl

/-! ### ownerOf -/

@[simp] theorem State.setOwnerOf_pending (v : Nat) : (s.setOwnerOf n v).pending = s.pending := rfl
@[simp] theorem State.setOwnerOf_now (v : Nat) : (s.setOwnerOf n v).now = s.now := rfl
@[simp] theorem State.setOwnerOf_freeNo (v : Nat) : (s.setOwnerOf n v).freeNo = s.freeNo := rfl
theorem State.setOwnerOf_host (v : Nat) : (s.setOwnerOf n v).host = { s.host with owners := tput 0 s.host.owners n v } := rfl
@[simp] theorem State.setOwnerOf_fe (v : Nat) : (s.setOwnerOf n v).fe = s.fe := rfl
@[simp] theorem State.setOwnerOf_clk (v : Nat) : (s.setOwnerOf n v).clk = s.clk := rfl
@[simp] theorem State.setOwnerOf_cal (v : Nat) : (s.setOwnerOf n v).cal = s.cal := rfl
@[simp] theorem State.setOwnerOf_spec (v : Nat) : (s.setOwnerOf n v).spec = s.spec := rfl
@[simp] theorem State.setOwnerOf_acq (v : Nat) : (s.setOwnerOf n v).acq = s.acq := rfl
@[simp] theorem State.setOwnerOf_disp (v : Nat) : (s.setOwnerOf n v).disp = s.disp := rfl
@[simp] theorem State.setOwnerOf_mon (v : Nat) : (s.setOwnerOf n v).mon = s.mon := rfl
@[simp] theorem State.setOwnerOf_tiu (v : Nat) : (s.setOwnerOf n v).tiu = s.tiu := rfl
@[simp] theorem State.setOwnerOf_grove (v : Nat) : (s.setOwnerOf n v).grove = s.grove := rfl
@[simp] theorem State.setOwnerOf_mem (v : Nat) : (s.setOwnerOf n v).mem = s.mem := rfl
@[simp] theorem State.setOwnerOf_move (v : Nat) : (s.setOwnerOf n v).move = s.move := rfl
@[simp] theorem State.setOwnerOf_aux (v : Nat) : (s.setOwnerOf n v).aux = s.aux := rfl
@[simp] theorem State.setOwnerOf_ctl (v : Nat) : (s.setOwnerOf n v).ctl = s.ctl := rfl
@[simp] theorem State.setOwnerOf_flt (v : Nat) : (s.setOwnerOf n v).flt = s.flt := rfl
@[simp] theorem State.setOwnerOf_sec (v : Nat) : (s.setOwnerOf n v).sec = s.sec := rfl
@[simp] theorem State.setOwnerOf_perf (v : Nat) : (s.setOwnerOf n v).perf = s.perf := rfl
@[simp] theorem State.setOwnerOf_pwr (v : Nat) : (s.setOwnerOf n v).pwr = s.pwr := rfl
@[simp] theorem State.ses_setOwnerOf (v : Nat) : (s.setOwnerOf n v).ses k = s.ses k := rfl
@[simp] theorem State.cplR_setOwnerOf (v : Nat) : (s.setOwnerOf n v).cplR k = s.cplR k := rfl
@[simp] theorem State.msixE_setOwnerOf (v : Nat) : (s.setOwnerOf n v).msixE k = s.msixE k := rfl
@[simp] theorem State.ownerOf_setOwnerOf_self (v : Nat) : (s.setOwnerOf n v).ownerOf n = v := tget_tput_self _ _ _ _
theorem State.ownerOf_setOwnerOf_ne (v : Nat) (h : k ≠ n) : (s.setOwnerOf n v).ownerOf k = s.ownerOf k := tget_tput_ne _ _ _ h
theorem State.modOwnerOf_eq (g : Nat → Nat) : s.modOwnerOf n g = s.setOwnerOf n (g (s.ownerOf n)) := rfl

/-! ### inp -/

@[simp] theorem State.setInp_pending (v : RfInput) : (s.setInp n v).pending = s.pending := rfl
@[simp] theorem State.setInp_now (v : RfInput) : (s.setInp n v).now = s.now := rfl
@[simp] theorem State.setInp_freeNo (v : RfInput) : (s.setInp n v).freeNo = s.freeNo := rfl
@[simp] theorem State.setInp_host (v : RfInput) : (s.setInp n v).host = s.host := rfl
theorem State.setInp_fe (v : RfInput) : (s.setInp n v).fe = { s.fe with inputs := tput {} s.fe.inputs n v } := rfl
@[simp] theorem State.setInp_clk (v : RfInput) : (s.setInp n v).clk = s.clk := rfl
@[simp] theorem State.setInp_cal (v : RfInput) : (s.setInp n v).cal = s.cal := rfl
@[simp] theorem State.setInp_spec (v : RfInput) : (s.setInp n v).spec = s.spec := rfl
@[simp] theorem State.setInp_acq (v : RfInput) : (s.setInp n v).acq = s.acq := rfl
@[simp] theorem State.setInp_disp (v : RfInput) : (s.setInp n v).disp = s.disp := rfl
@[simp] theorem State.setInp_mon (v : RfInput) : (s.setInp n v).mon = s.mon := rfl
@[simp] theorem State.setInp_tiu (v : RfInput) : (s.setInp n v).tiu = s.tiu := rfl
@[simp] theorem State.setInp_grove (v : RfInput) : (s.setInp n v).grove = s.grove := rfl
@[simp] theorem State.setInp_mem (v : RfInput) : (s.setInp n v).mem = s.mem := rfl
@[simp] theorem State.setInp_move (v : RfInput) : (s.setInp n v).move = s.move := rfl
@[simp] theorem State.setInp_aux (v : RfInput) : (s.setInp n v).aux = s.aux := rfl
@[simp] theorem State.setInp_ctl (v : RfInput) : (s.setInp n v).ctl = s.ctl := rfl
@[simp] theorem State.setInp_flt (v : RfInput) : (s.setInp n v).flt = s.flt := rfl
@[simp] theorem State.setInp_sec (v : RfInput) : (s.setInp n v).sec = s.sec := rfl
@[simp] theorem State.setInp_perf (v : RfInput) : (s.setInp n v).perf = s.perf := rfl
@[simp] theorem State.setInp_pwr (v : RfInput) : (s.setInp n v).pwr = s.pwr := rfl
@[simp] theorem State.str_setInp (v : RfInput) : (s.setInp n v).str k = s.str k := rfl
@[simp] theorem State.inp_setInp_self (v : RfInput) : (s.setInp n v).inp n = v := tget_tput_self _ _ _ _
theorem State.inp_setInp_ne (v : RfInput) (h : k ≠ n) : (s.setInp n v).inp k = s.inp k := tget_tput_ne _ _ _ h
theorem State.modInp_eq (g : RfInput → RfInput) : s.modInp n g = s.setInp n (g (s.inp n)) := rfl

/-! ### str -/

@[simp] theorem State.setStr_pending (v : Stream) : (s.setStr n v).pending = s.pending := rfl
@[simp] theorem State.setStr_now (v : Stream) : (s.setStr n v).now = s.now := rfl
@[simp] theorem State.setStr_freeNo (v : Stream) : (s.setStr n v).freeNo = s.freeNo := rfl
@[simp] theorem State.setStr_host (v : Stream) : (s.setStr n v).host = s.host := rfl
theorem State.setStr_fe (v : Stream) : (s.setStr n v).fe = { s.fe with streams := tput {} s.fe.streams n v } := rfl
@[simp] theorem State.setStr_clk (v : Stream) : (s.setStr n v).clk = s.clk := rfl
@[simp] theorem State.setStr_cal (v : Stream) : (s.setStr n v).cal = s.cal := rfl
@[simp] theorem State.setStr_spec (v : Stream) : (s.setStr n v).spec = s.spec := rfl
@[simp] theorem State.setStr_acq (v : Stream) : (s.setStr n v).acq = s.acq := rfl
@[simp] theorem State.setStr_disp (v : Stream) : (s.setStr n v).disp = s.disp := rfl
@[simp] theorem State.setStr_mon (v : Stream) : (s.setStr n v).mon = s.mon := rfl
@[simp] theorem State.setStr_tiu (v : Stream) : (s.setStr n v).tiu = s.tiu := rfl
@[simp] theorem State.setStr_grove (v : Stream) : (s.setStr n v).grove = s.grove := rfl
@[simp] theorem State.setStr_mem (v : Stream) : (s.setStr n v).mem = s.mem := rfl
@[simp] theorem State.setStr_move (v : Stream) : (s.setStr n v).move = s.move := rfl
@[simp] theorem State.setStr_aux (v : Stream) : (s.setStr n v).aux = s.aux := rfl
@[simp] theorem State.setStr_ctl (v : Stream) : (s.setStr n v).ctl = s.ctl := rfl
@[simp] theorem State.setStr_flt (v : Stream) : (s.setStr n v).flt = s.flt := rfl
@[simp] theorem State.setStr_sec (v : Stream) : (s.setStr n v).sec = s.sec := rfl
@[simp] theorem State.setStr_perf (v : Stream) : (s.setStr n v).perf = s.perf := rfl
@[simp] theorem State.setStr_pwr (v : Stream) : (s.setStr n v).pwr = s.pwr := rfl
@[simp] theorem State.inp_setStr (v : Stream) : (s.setStr n v).inp k = s.inp k := rfl
@[simp] theorem State.str_setStr_self (v : Stream) : (s.setStr n v).str n = v := tget_tput_self _ _ _ _
theorem State.str_setStr_ne (v : Stream) (h : k ≠ n) : (s.setStr n v).str k = s.str k := tget_tput_ne _ _ _ h
theorem State.modStr_eq (g : Stream → Stream) : s.modStr n g = s.setStr n (g (s.str n)) := rfl

/-! ### pll -/

@[simp] theorem State.setPll_pending (v : Pll) : (s.setPll n v).pending = s.pending := rfl
@[simp] theorem State.setPll_now (v : Pll) : (s.setPll n v).now = s.now := rfl
@[simp] theorem State.setPll_freeNo (v : Pll) : (s.setPll n v).freeNo = s.freeNo := rfl
@[simp] theorem State.setPll_host (v : Pll) : (s.setPll n v).host = s.host := rfl
@[simp] theorem State.setPll_fe (v : Pll) : (s.setPll n v).fe = s.fe := rfl
theorem State.setPll_clk (v : Pll) : (s.setPll n v).clk = { s.clk with plls := tput {} s.clk.plls n v } := rfl
@[simp] theorem State.setPll_cal (v : Pll) : (s.setPll n v).cal = s.cal := rfl
@[simp] theorem State.setPll_spec (v : Pll) : (s.setPll n v).spec = s.spec := rfl
@[simp] theorem State.setPll_acq (v : Pll) : (s.setPll n v).acq = s.acq := rfl
@[simp] theorem State.setPll_disp (v : Pll) : (s.setPll n v).disp = s.disp := rfl
@[simp] theorem State.setPll_mon (v : Pll) : (s.setPll n v).mon = s.mon := rfl
@[simp] theorem State.setPll_tiu (v : Pll) : (s.setPll n v).tiu = s.tiu := rfl
@[simp] theorem State.setPll_grove (v : Pll) : (s.setPll n v).grove = s.grove := rfl
@[simp] theorem State.setPll_mem (v : Pll) : (s.setPll n v).mem = s.mem := rfl
@[simp] theorem State.setPll_move (v : Pll) : (s.setPll n v).move = s.move := rfl
@[simp] theorem State.setPll_aux (v : Pll) : (s.setPll n v).aux = s.aux := rfl
@[simp] theorem State.setPll_ctl (v : Pll) : (s.setPll n v).ctl = s.ctl := rfl
@[simp] theorem State.setPll_flt (v : Pll) : (s.setPll n v).flt = s.flt := rfl
@[simp] theorem State.setPll_sec (v : Pll) : (s.setPll n v).sec = s.sec := rfl
@[simp] theorem State.setPll_perf (v : Pll) : (s.setPll n v).perf = s.perf := rfl
@[simp] theorem State.setPll_pwr (v : Pll) : (s.setPll n v).pwr = s.pwr := rfl
@[simp] theorem State.pll_setPll_self (v : Pll) : (s.setPll n v).pll n = v := tget_tput_self _ _ _ _
theorem State.pll_setPll_ne (v : Pll) (h : k ≠ n) : (s.setPll n v).pll k = s.pll k := tget_tput_ne _ _ _ h
theorem State.modPll_eq (g : Pll → Pll) : s.modPll n g = s.setPll n (g (s.pll n)) := rfl

/-! ### calT -/

@[simp] theorem State.setCalT_pending (v : CalTarget) : (s.setCalT n v).pending = s.pending := rfl
@[simp] theorem State.setCalT_now (v : CalTarget) : (s.setCalT n v).now = s.now := rfl
@[simp] theorem State.setCalT_freeNo (v : CalTarget) : (s.setCalT n v).freeNo = s.freeNo := rfl
@[simp] theorem State.setCalT_host (v : CalTarget) : (s.setCalT n v).host = s.host := rfl
@[simp] theorem State.setCalT_fe (v : CalTarget) : (s.setCalT n v).fe = s.fe := rfl
@[simp] theorem State.setCalT_clk (v : CalTarget) : (s.setCalT n v).clk = s.clk := rfl
theorem State.setCalT_cal (v : CalTarget) : (s.setCalT n v).cal = { s.cal with targets := tput {} s.cal.targets n v } := rfl
@[simp] theorem State.setCalT_spec (v : CalTarget) : (s.setCalT n v).spec = s.spec := rfl
@[simp] theorem State.setCalT_acq (v : CalTarget) : (s.setCalT n v).acq = s.acq := rfl
@[simp] theorem State.setCalT_disp (v : CalTarget) : (s.setCalT n v).disp = s.disp := rfl
@[simp] theorem State.setCalT_mon (v : CalTarget) : (s.setCalT n v).mon = s.mon := rfl
@[simp] theorem State.setCalT_tiu (v : CalTarget) : (s.setCalT n v).tiu = s.tiu := rfl
@[simp] theorem State.setCalT_grove (v : CalTarget) : (s.setCalT n v).grove = s.grove := rfl
@[simp] theorem State.setCalT_mem (v : CalTarget) : (s.setCalT n v).mem = s.mem := rfl
@[simp] theorem State.setCalT_move (v : CalTarget) : (s.setCalT n v).move = s.move := rfl
@[simp] theorem State.setCalT_aux (v : CalTarget) : (s.setCalT n v).aux = s.aux := rfl
@[simp] theorem State.setCalT_ctl (v : CalTarget) : (s.setCalT n v).ctl = s.ctl := rfl
@[simp] theorem State.setCalT_flt (v : CalTarget) : (s.setCalT n v).flt = s.flt := rfl
@[simp] theorem State.setCalT_sec (v : CalTarget) : (s.setCalT n v).sec = s.sec := rfl
@[simp] theorem State.setCalT_perf (v : CalTarget) : (s.setCalT n v).perf = s.perf := rfl
@[simp] theorem State.setCalT_pwr (v : CalTarget) : (s.setCalT n v).pwr = s.pwr := rfl
@[simp] theorem State.calStep_setCalT (v : CalTarget) : (s.setCalT n v).calStep k = s.calStep k := rfl
@[simp] theorem State.calBlind_setCalT (v : CalTarget) : (s.setCalT n v).calBlind k = s.calBlind k := rfl
@[simp] theorem State.calT_setCalT_self (v : CalTarget) : (s.setCalT n v).calT n = v := tget_tput_self _ _ _ _
theorem State.calT_setCalT_ne (v : CalTarget) (h : k ≠ n) : (s.setCalT n v).calT k = s.calT k := tget_tput_ne _ _ _ h
theorem State.modCalT_eq (g : CalTarget → CalTarget) : s.modCalT n g = s.setCalT n (g (s.calT n)) := rfl

/-! ### calStep -/

@[simp] theorem State.setCalStep_pending (v : (Option CalStep)) : (s.setCalStep n v).pending = s.pending := rfl
@[simp] theorem State.setCalStep_now (v : (Option CalStep)) : (s.setCalStep n v).now = s.now := rfl
@[simp] theorem State.setCalStep_freeNo (v : (Option CalStep)) : (s.setCalStep n v).freeNo = s.freeNo := rfl
@[simp] theorem State.setCalStep_host (v : (Option CalStep)) : (s.setCalStep n v).host = s.host := rfl
@[simp] theorem State.setCalStep_fe (v : (Option CalStep)) : (s.setCalStep n v).fe = s.fe := rfl
@[simp] theorem State.setCalStep_clk (v : (Option CalStep)) : (s.setCalStep n v).clk = s.clk := rfl
theorem State.setCalStep_cal (v : (Option CalStep)) : (s.setCalStep n v).cal = { s.cal with steps := tput none s.cal.steps n v } := rfl
@[simp] theorem State.setCalStep_spec (v : (Option CalStep)) : (s.setCalStep n v).spec = s.spec := rfl
@[simp] theorem State.setCalStep_acq (v : (Option CalStep)) : (s.setCalStep n v).acq = s.acq := rfl
@[simp] theorem State.setCalStep_disp (v : (Option CalStep)) : (s.setCalStep n v).disp = s.disp := rfl
@[simp] theorem State.setCalStep_mon (v : (Option CalStep)) : (s.setCalStep n v).mon = s.mon := rfl
@[simp] theorem State.setCalStep_tiu (v : (Option CalStep)) : (s.setCalStep n v).tiu = s.tiu := rfl
@[simp] theorem State.setCalStep_grove (v : (Option CalStep)) : (s.setCalStep n v).grove = s.grove := rfl
@[simp] theorem State.setCalStep_mem (v : (Option CalStep)) : (s.setCalStep n v).mem = s.mem := rfl
@[simp] theorem State.setCalStep_move (v : (Option CalStep)) : (s.setCalStep n v).move = s.move := rfl
@[simp] theorem State.setCalStep_aux (v : (Option CalStep)) : (s.setCalStep n v).aux = s.aux := rfl
@[simp] theorem State.setCalStep_ctl (v : (Option CalStep)) : (s.setCalStep n v).ctl = s.ctl := rfl
@[simp] theorem State.setCalStep_flt (v : (Option CalStep)) : (s.setCalStep n v).flt = s.flt := rfl
@[simp] theorem State.setCalStep_sec (v : (Option CalStep)) : (s.setCalStep n v).sec = s.sec := rfl
@[simp] theorem State.setCalStep_perf (v : (Option CalStep)) : (s.setCalStep n v).perf = s.perf := rfl
@[simp] theorem State.setCalStep_pwr (v : (Option CalStep)) : (s.setCalStep n v).pwr = s.pwr := rfl
@[simp] theorem State.calT_setCalStep (v : (Option CalStep)) : (s.setCalStep n v).calT k = s.calT k := rfl
@[simp] theorem State.calBlind_setCalStep (v : (Option CalStep)) : (s.setCalStep n v).calBlind k = s.calBlind k := rfl
@[simp] theorem State.calStep_setCalStep_self (v : (Option CalStep)) : (s.setCalStep n v).calStep n = v := tget_tput_self _ _ _ _
theorem State.calStep_setCalStep_ne (v : (Option CalStep)) (h : k ≠ n) : (s.setCalStep n v).calStep k = s.calStep k := tget_tput_ne _ _ _ h
theorem State.modCalStep_eq (g : (Option CalStep) → (Option CalStep)) : s.modCalStep n g = s.setCalStep n (g (s.calStep n)) := rfl

/-! ### calBlind -/

@[simp] theorem State.setCalBlind_pending (v : Blind) : (s.setCalBlind n v).pending = s.pending := rfl
@[simp] theorem State.setCalBlind_now (v : Blind) : (s.setCalBlind n v).now = s.now := rfl
@[simp] theorem State.setCalBlind_freeNo (v : Blind) : (s.setCalBlind n v).freeNo = s.freeNo := rfl
@[simp] theorem State.setCalBlind_host (v : Blind) : (s.setCalBlind n v).host = s.host := rfl
@[simp] theorem State.setCalBlind_fe (v : Blind) : (s.setCalBlind n v).fe = s.fe := rfl
@[simp] theorem State.setCalBlind_clk (v : Blind) : (s.setCalBlind n v).clk = s.clk := rfl
theorem State.setCalBlind_cal (v : Blind) : (s.setCalBlind n v).cal = { s.cal with blind := tput {} s.cal.blind n v } := rfl
@[simp] theorem State.setCalBlind_spec (v : Blind) : (s.setCalBlind n v).spec = s.spec := rfl
@[simp] theorem State.setCalBlind_acq (v : Blind) : (s.setCalBlind n v).acq = s.acq := rfl
@[simp] theorem State.setCalBlind_disp (v : Blind) : (s.setCalBlind n v).disp = s.disp := rfl
@[simp] theorem State.setCalBlind_mon (v : Blind) : (s.setCalBlind n v).mon = s.mon := rfl
@[simp] theorem State.setCalBlind_tiu (v : Blind) : (s.setCalBlind n v).tiu = s.tiu := rfl
@[simp] theorem State.setCalBlind_grove (v : Blind) : (s.setCalBlind n v).grove = s.grove := rfl
@[simp] theorem State.setCalBlind_mem (v : Blind) : (s.setCalBlind n v).mem = s.mem := rfl
@[simp] theorem State.setCalBlind_move (v : Blind) : (s.setCalBlind n v).move = s.move := rfl
@[simp] theorem State.setCalBlind_aux (v : Blind) : (s.setCalBlind n v).aux = s.aux := rfl
@[simp] theorem State.setCalBlind_ctl (v : Blind) : (s.setCalBlind n v).ctl = s.ctl := rfl
@[simp] theorem State.setCalBlind_flt (v : Blind) : (s.setCalBlind n v).flt = s.flt := rfl
@[simp] theorem State.setCalBlind_sec (v : Blind) : (s.setCalBlind n v).sec = s.sec := rfl
@[simp] theorem State.setCalBlind_perf (v : Blind) : (s.setCalBlind n v).perf = s.perf := rfl
@[simp] theorem State.setCalBlind_pwr (v : Blind) : (s.setCalBlind n v).pwr = s.pwr := rfl
@[simp] theorem State.calT_setCalBlind (v : Blind) : (s.setCalBlind n v).calT k = s.calT k := rfl
@[simp] theorem State.calStep_setCalBlind (v : Blind) : (s.setCalBlind n v).calStep k = s.calStep k := rfl
@[simp] theorem State.calBlind_setCalBlind_self (v : Blind) : (s.setCalBlind n v).calBlind n = v := tget_tput_self _ _ _ _
theorem State.calBlind_setCalBlind_ne (v : Blind) (h : k ≠ n) : (s.setCalBlind n v).calBlind k = s.calBlind k := tget_tput_ne _ _ _ h
theorem State.modCalBlind_eq (g : Blind → Blind) : s.modCalBlind n g = s.setCalBlind n (g (s.calBlind n)) := rfl

/-! ### lane -/

@[simp] theorem State.setLane_pending (v : Lane) : (s.setLane n v).pending = s.pending := rfl
@[simp] theorem State.setLane_now (v : Lane) : (s.setLane n v).now = s.now := rfl
@[simp] theorem State.setLane_freeNo (v : Lane) : (s.setLane n v).freeNo = s.freeNo := rfl
@[simp] theorem State.setLane_host (v : Lane) : (s.setLane n v).host = s.host := rfl
@[simp] theorem State.setLane_fe (v : Lane) : (s.setLane n v).fe = s.fe := rfl
@[simp] theorem State.setLane_clk (v : Lane) : (s.setLane n v).clk = s.clk := rfl
@[simp] theorem State.setLane_cal (v : Lane) : (s.setLane n v).cal = s.cal := rfl
theorem State.setLane_spec (v : Lane) : (s.setLane n v).spec = { s.spec with lanes := tput {} s.spec.lanes n v } := rfl
@[simp] theorem State.setLane_acq (v : Lane) : (s.setLane n v).acq = s.acq := rfl
@[simp] theorem State.setLane_disp (v : Lane) : (s.setLane n v).disp = s.disp := rfl
@[simp] theorem State.setLane_mon (v : Lane) : (s.setLane n v).mon = s.mon := rfl
@[simp] theorem State.setLane_tiu (v : Lane) : (s.setLane n v).tiu = s.tiu := rfl
@[simp] theorem State.setLane_grove (v : Lane) : (s.setLane n v).grove = s.grove := rfl
@[simp] theorem State.setLane_mem (v : Lane) : (s.setLane n v).mem = s.mem := rfl
@[simp] theorem State.setLane_move (v : Lane) : (s.setLane n v).move = s.move := rfl
@[simp] theorem State.setLane_aux (v : Lane) : (s.setLane n v).aux = s.aux := rfl
@[simp] theorem State.setLane_ctl (v : Lane) : (s.setLane n v).ctl = s.ctl := rfl
@[simp] theorem State.setLane_flt (v : Lane) : (s.setLane n v).flt = s.flt := rfl
@[simp] theorem State.setLane_sec (v : Lane) : (s.setLane n v).sec = s.sec := rfl
@[simp] theorem State.setLane_perf (v : Lane) : (s.setLane n v).perf = s.perf := rfl
@[simp] theorem State.setLane_pwr (v : Lane) : (s.setLane n v).pwr = s.pwr := rfl
@[simp] theorem State.trace_setLane (v : Lane) : (s.setLane n v).trace k = s.trace k := rfl
@[simp] theorem State.sout_setLane (v : Lane) : (s.setLane n v).sout k = s.sout k := rfl
@[simp] theorem State.ddc_setLane (v : Lane) : (s.setLane n v).ddc k = s.ddc k := rfl
@[simp] theorem State.lane_setLane_self (v : Lane) : (s.setLane n v).lane n = v := tget_tput_self _ _ _ _
theorem State.lane_setLane_ne (v : Lane) (h : k ≠ n) : (s.setLane n v).lane k = s.lane k := tget_tput_ne _ _ _ h
theorem State.modLane_eq (g : Lane → Lane) : s.modLane n g = s.setLane n (g (s.lane n)) := rfl

/-! ### trace -/

@[simp] theorem State.setTrace_pending (v : Trace) : (s.setTrace n v).pending = s.pending := rfl
@[simp] theorem State.setTrace_now (v : Trace) : (s.setTrace n v).now = s.now := rfl
@[simp] theorem State.setTrace_freeNo (v : Trace) : (s.setTrace n v).freeNo = s.freeNo := rfl
@[simp] theorem State.setTrace_host (v : Trace) : (s.setTrace n v).host = s.host := rfl
@[simp] theorem State.setTrace_fe (v : Trace) : (s.setTrace n v).fe = s.fe := rfl
@[simp] theorem State.setTrace_clk (v : Trace) : (s.setTrace n v).clk = s.clk := rfl
@[simp] theorem State.setTrace_cal (v : Trace) : (s.setTrace n v).cal = s.cal := rfl
theorem State.setTrace_spec (v : Trace) : (s.setTrace n v).spec = { s.spec with traces := tput {} s.spec.traces n v } := rfl
@[simp] theorem State.setTrace_acq (v : Trace) : (s.setTrace n v).acq = s.acq := rfl
@[simp] theorem State.setTrace_disp (v : Trace) : (s.setTrace n v).disp = s.disp := rfl
@[simp] theorem State.setTrace_mon (v : Trace) : (s.setTrace n v).mon = s.mon := rfl
@[simp] theorem State.setTrace_tiu (v : Trace) : (s.setTrace n v).tiu = s.tiu := rfl
@[simp] theorem State.setTrace_grove (v : Trace) : (s.setTrace n v).grove = s.grove := rfl
@[simp] theorem State.setTrace_mem (v : Trace) : (s.setTrace n v).mem = s.mem := rfl
@[simp] theorem State.setTrace_move (v : Trace) : (s.setTrace n v).move = s.move := rfl
@[simp] theorem State.setTrace_aux (v : Trace) : (s.setTrace n v).aux = s.aux := rfl
@[simp] theorem State.setTrace_ctl (v : Trace) : (s.setTrace n v).ctl = s.ctl := rfl
@[simp] theorem State.setTrace_flt (v : Trace) : (s.setTrace n v).flt = s.flt := rfl
@[simp] theorem State.setTrace_sec (v : Trace) : (s.setTrace n v).sec = s.sec := rfl
@[simp] theorem State.setTrace_perf (v : Trace) : (s.setTrace n v).perf = s.perf := rfl
@[simp] theorem State.setTrace_pwr (v : Trace) : (s.setTrace n v).pwr = s.pwr := rfl
@[simp] theorem State.lane_setTrace (v : Trace) : (s.setTrace n v).lane k = s.lane k := rfl
@[simp] theorem State.sout_setTrace (v : Trace) : (s.setTrace n v).sout k = s.sout k := rfl
@[simp] theorem State.ddc_setTrace (v : Trace) : (s.setTrace n v).ddc k = s.ddc k := rfl
@[simp] theorem State.trace_setTrace_self (v : Trace) : (s.setTrace n v).trace n = v := tget_tput_self _ _ _ _
theorem State.trace_setTrace_ne (v : Trace) (h : k ≠ n) : (s.setTrace n v).trace k = s.trace k := tget_tput_ne _ _ _ h
theorem State.modTrace_eq (g : Trace → Trace) : s.modTrace n g = s.setTrace n (g (s.trace n)) := rfl

/-! ### sout -/

@[simp] theorem State.setSout_pending (v : SpecOut) : (s.setSout n v).pending = s.pending := rfl
@[simp] theorem State.setSout_now (v : SpecOut) : (s.setSout n v).now = s.now := rfl
@[simp] theorem State.setSout_freeNo (v : SpecOut) : (s.setSout n v).freeNo = s.freeNo := rfl
@[simp] theorem State.setSout_host (v : SpecOut) : (s.setSout n v).host = s.host := rfl
@[simp] theorem State.setSout_fe (v : SpecOut) : (s.setSout n v).fe = s.fe := rfl
@[simp] theorem State.setSout_clk (v : SpecOut) : (s.setSout n v).clk = s.clk := rfl
@[simp] theorem State.setSout_cal (v : SpecOut) : (s.setSout n v).cal = s.cal := rfl
theorem State.setSout_spec (v : SpecOut) : (s.setSout n v).spec = { s.spec with outs := tput {} s.spec.outs n v } := rfl
@[simp] theorem State.setSout_acq (v : SpecOut) : (s.setSout n v).acq = s.acq := rfl
@[simp] theorem State.setSout_disp (v : SpecOut) : (s.setSout n v).disp = s.disp := rfl
@[simp] theorem State.setSout_mon (v : SpecOut) : (s.setSout n v).mon = s.mon := rfl
@[simp] theorem State.setSout_tiu (v : SpecOut) : (s.setSout n v).tiu = s.tiu := rfl
@[simp] theorem State.setSout_grove (v : SpecOut) : (s.setSout n v).grove = s.grove := rfl
@[simp] theorem State.setSout_mem (v : SpecOut) : (s.setSout n v).mem = s.mem := rfl
@[simp] theorem State.setSout_move (v : SpecOut) : (s.setSout n v).move = s.move := rfl
@[simp] theorem State.setSout_aux (v : SpecOut) : (s.setSout n v).aux = s.aux := rfl
@[simp] theorem State.setSout_ctl (v : SpecOut) : (s.setSout n v).ctl = s.ctl := rfl
@[simp] theorem State.setSout_flt (v : SpecOut) : (s.setSout n v).flt = s.flt := rfl
@[simp] theorem State.setSout_sec (v : SpecOut) : (s.setSout n v).sec = s.sec := rfl
@[simp] theorem State.setSout_perf (v : SpecOut) : (s.setSout n v).perf = s.perf := rfl
@[simp] theorem State.setSout_pwr (v : SpecOut) : (s.setSout n v).pwr = s.pwr := rfl
@[simp] theorem State.lane_setSout (v : SpecOut) : (s.setSout n v).lane k = s.lane k := rfl
@[simp] theorem State.trace_setSout (v : SpecOut) : (s.setSout n v).trace k = s.trace k := rfl
@[simp] theorem State.ddc_setSout (v : SpecOut) : (s.setSout n v).ddc k = s.ddc k := rfl
@[simp] theorem State.sout_setSout_self (v : SpecOut) : (s.setSout n v).sout n = v := tget_tput_self _ _ _ _
theorem State.sout_setSout_ne (v : SpecOut) (h : k ≠ n) : (s.setSout n v).sout k = s.sout k := tget_tput_ne _ _ _ h
theorem State.modSout_eq (g : SpecOut → SpecOut) : s.modSout n g = s.setSout n (g (s.sout n)) := rfl

/-! ### ddc -/

@[simp] theorem State.setDdc_pending (v : Ddc) : (s.setDdc n v).pending = s.pending := rfl
@[simp] theorem State.setDdc_now (v : Ddc) : (s.setDdc n v).now = s.now := rfl
@[simp] theorem State.setDdc_freeNo (v : Ddc) : (s.setDdc n v).freeNo = s.freeNo := rfl
@[simp] theorem State.setDdc_host (v : Ddc) : (s.setDdc n v).host = s.host := rfl
@[simp] theorem State.setDdc_fe (v : Ddc) : (s.setDdc n v).fe = s.fe := rfl
@[simp] theorem State.setDdc_clk (v : Ddc) : (s.setDdc n v).clk = s.clk := rfl
@[simp] theorem State.setDdc_cal (v : Ddc) : (s.setDdc n v).cal = s.cal := rfl
theorem State.setDdc_spec (v : Ddc) : (s.setDdc n v).spec = { s.spec with ddcs := tput {} s.spec.ddcs n v } := rfl
@[simp] theorem State.setDdc_acq (v : Ddc) : (s.setDdc n v).acq = s.acq := rfl
@[simp] theorem State.setDdc_disp (v : Ddc) : (s.setDdc n v).disp = s.disp := rfl
@[simp] theorem State.setDdc_mon (v : Ddc) : (s.setDdc n v).mon = s.mon := rfl
@[simp] theorem State.setDdc_tiu (v : Ddc) : (s.setDdc n v).tiu = s.tiu := rfl
@[simp] theorem State.setDdc_grove (v : Ddc) : (s.setDdc n v).grove = s.grove := rfl
@[simp] theorem State.setDdc_mem (v : Ddc) : (s.setDdc n v).mem = s.mem := rfl
@[simp] theorem State.setDdc_move (v : Ddc) : (s.setDdc n v).move = s.move := rfl
@[simp] theorem State.setDdc_aux (v : Ddc) : (s.setDdc n v).aux = s.aux := rfl
@[simp] theorem State.setDdc_ctl (v : Ddc) : (s.setDdc n v).ctl = s.ctl := rfl
@[simp] theorem State.setDdc_flt (v : Ddc) : (s.setDdc n v).flt = s.flt := rfl
@[simp] theorem State.setDdc_sec (v : Ddc) : (s.setDdc n v).sec = s.sec := rfl
@[simp] theorem State.setDdc_perf (v : Ddc) : (s.setDdc n v).perf = s.perf := rfl
@[simp] theorem State.setDdc_pwr (v : Ddc) : (s.setDdc n v).pwr = s.pwr := rfl
@[simp] theorem State.lane_setDdc (v : Ddc) : (s.setDdc n v).lane k = s.lane k := rfl
@[simp] theorem State.trace_setDdc (v : Ddc) : (s.setDdc n v).trace k = s.trace k := rfl
@[simp] theorem State.sout_setDdc (v : Ddc) : (s.setDdc n v).sout k = s.sout k := rfl
@[simp] theorem State.ddc_setDdc_self (v : Ddc) : (s.setDdc n v).ddc n = v := tget_tput_self _ _ _ _
theorem State.ddc_setDdc_ne (v : Ddc) (h : k ≠ n) : (s.setDdc n v).ddc k = s.ddc k := tget_tput_ne _ _ _ h
theorem State.modDdc_eq (g : Ddc → Ddc) : s.modDdc n g = s.setDdc n (g (s.ddc n)) := rfl

/-! ### au -/

@[simp] theorem State.setAu_pending (v : Acq) : (s.setAu n v).pending = s.pending := rfl
@[simp] theorem State.setAu_now (v : Acq) : (s.setAu n v).now = s.now := rfl
@[simp] theorem State.setAu_freeNo (v : Acq) : (s.setAu n v).freeNo = s.freeNo := rfl
@[simp] theorem State.setAu_host (v : Acq) : (s.setAu n v).host = s.host := rfl
@[simp] theorem State.setAu_fe (v : Acq) : (s.setAu n v).fe = s.fe := rfl
@[simp] theorem State.setAu_clk (v : Acq) : (s.setAu n v).clk = s.clk := rfl
@[simp] theorem State.setAu_cal (v : Acq) : (s.setAu n v).cal = s.cal := rfl
@[simp] theorem State.setAu_spec (v : Acq) : (s.setAu n v).spec = s.spec := rfl
theorem State.setAu_acq (v : Acq) : (s.setAu n v).acq = { s.acq with units := tput {} s.acq.units n v } := rfl
@[simp] theorem State.setAu_disp (v : Acq) : (s.setAu n v).disp = s.disp := rfl
@[simp] theorem State.setAu_mon (v : Acq) : (s.setAu n v).mon = s.mon := rfl
@[simp] theorem State.setAu_tiu (v : Acq) : (s.setAu n v).tiu = s.tiu := rfl
@[simp] theorem State.setAu_grove (v : Acq) : (s.setAu n v).grove = s.grove := rfl
@[simp] theorem State.setAu_mem (v : Acq) : (s.setAu n v).mem = s.mem := rfl
@[simp] theorem State.setAu_move (v : Acq) : (s.setAu n v).move = s.move := rfl
@[simp] theorem State.setAu_aux (v : Acq) : (s.setAu n v).aux = s.aux := rfl
@[simp] theorem State.setAu_ctl (v : Acq) : (s.setAu n v).ctl = s.ctl := rfl
@[simp] theorem State.setAu_flt (v : Acq) : (s.setAu n v).flt = s.flt := rfl
@[simp] theorem State.setAu_sec (v : Acq) : (s.setAu n v).sec = s.sec := rfl
@[simp] theorem State.setAu_perf (v : Acq) : (s.setAu n v).perf = s.perf := rfl
@[simp] theorem State.setAu_pwr (v : Acq) : (s.setAu n v).pwr = s.pwr := rfl
@[simp] theorem State.term_setAu (v : Acq) : (s.setAu n v).term k = s.term k := rfl
@[simp] theorem State.tst_setAu (v : Acq) : (s.setAu n v).tst k = s.tst k := rfl
@[simp] theorem State.maskS_setAu (v : Acq) : (s.setAu n v).maskS k = s.maskS k := rfl
@[simp] theorem State.bp_setAu (v : Acq) : (s.setAu n v).bp k = s.bp k := rfl
@[simp] theorem State.pin_setAu (v : Acq) : (s.setAu n v).pin k = s.pin k := rfl
@[simp] theorem State.au_setAu_self (v : Acq) : (s.setAu n v).au n = v := tget_tput_self _ _ _ _
theorem State.au_setAu_ne (v : Acq) (h : k ≠ n) : (s.setAu n v).au k = s.au k := tget_tput_ne _ _ _ h
theorem State.modAu_eq (g : Acq → Acq) : s.modAu n g = s.setAu n (g (s.au n)) := rfl

/-! ### term -/

@[simp] theorem State.setTerm_pending (v : Term) : (s.setTerm n v).pending = s.pending := rfl
@[simp] theorem State.setTerm_now (v : Term) : (s.setTerm n v).now = s.now := rfl
@[simp] theorem State.setTerm_freeNo (v : Term) : (s.setTerm n v).freeNo = s.freeNo := rfl
@[simp] theorem State.setTerm_host (v : Term) : (s.setTerm n v).host = s.host := rfl
@[simp] theorem State.setTerm_fe (v : Term) : (s.setTerm n v).fe = s.fe := rfl
@[simp] theorem State.setTerm_clk (v : Term) : (s.setTerm n v).clk = s.clk := rfl
@[simp] theorem State.setTerm_cal (v : Term) : (s.setTerm n v).cal = s.cal := rfl
@[simp] theorem State.setTerm_spec (v : Term) : (s.setTerm n v).spec = s.spec := rfl
theorem State.setTerm_acq (v : Term) : (s.setTerm n v).acq = { s.acq with terms := tput {} s.acq.terms n v } := rfl
@[simp] theorem State.setTerm_disp (v : Term) : (s.setTerm n v).disp = s.disp := rfl
@[simp] theorem State.setTerm_mon (v : Term) : (s.setTerm n v).mon = s.mon := rfl
@[simp] theorem State.setTerm_tiu (v : Term) : (s.setTerm n v).tiu = s.tiu := rfl
@[simp] theorem State.setTerm_grove (v : Term) : (s.setTerm n v).grove = s.grove := rfl
@[simp] theorem State.setTerm_mem (v : Term) : (s.setTerm n v).mem = s.mem := rfl
@[simp] theorem State.setTerm_move (v : Term) : (s.setTerm n v).move = s.move := rfl
@[simp] theorem State.setTerm_aux (v : Term) : (s.setTerm n v).aux = s.aux := rfl
@[simp] theorem State.setTerm_ctl (v : Term) : (s.setTerm n v).ctl = s.ctl := rfl
@[simp] theorem State.setTerm_flt (v : Term) : (s.setTerm n v).flt = s.flt := rfl
@[simp] theorem State.setTerm_sec (v : Term) : (s.setTerm n v).sec = s.sec := rfl
@[simp] theorem State.setTerm_perf (v : Term) : (s.setTerm n v).perf = s.perf := rfl
@[simp] theorem State.setTerm_pwr (v : Term) : (s.setTerm n v).pwr = s.pwr := rfl
@[simp] theorem State.au_setTerm (v : Term) : (s.setTerm n v).au k = s.au k := rfl
@[simp] theorem State.tst_setTerm (v : Term) : (s.setTerm n v).tst k = s.tst k := rfl
@[simp] theorem State.maskS_setTerm (v : Term) : (s.setTerm n v).maskS k = s.maskS k := rfl
@[simp] theorem State.bp_setTerm (v : Term) : (s.setTerm n v).bp k = s.bp k := rfl
@[simp] theorem State.pin_setTerm (v : Term) : (s.setTerm n v).pin k = s.pin k := rfl
@[simp] theorem State.term_setTerm_self (v : Term) : (s.setTerm n v).term n = v := tget_tput_self _ _ _ _
theorem State.term_setTerm_ne (v : Term) (h : k ≠ n) : (s.setTerm n v).term k = s.term k := tget_tput_ne _ _ _ h
theorem State.modTerm_eq (g : Term → Term) : s.modTerm n g = s.setTerm n (g (s.term n)) := rfl

/-! ### tst -/

@[simp] theorem State.setTst_pending (v : Test) : (s.setTst n v).pending = s.pending := rfl
@[simp] theorem State.setTst_now (v : Test) : (s.setTst n v).now = s.now := rfl
@[simp] theorem State.setTst_freeNo (v : Test) : (s.setTst n v).freeNo = s.freeNo := rfl
@[simp] theorem State.setTst_host (v : Test) : (s.setTst n v).host = s.host := rfl
@[simp] theorem State.setTst_fe (v : Test) : (s.setTst n v).fe = s.fe := rfl
@[simp] theorem State.setTst_clk (v : Test) : (s.setTst n v).clk = s.clk := rfl
@[simp] theorem State.setTst_cal (v : Test) : (s.setTst n v).cal = s.cal := rfl
@[simp] theorem State.setTst_spec (v : Test) : (s.setTst n v).spec = s.spec := rfl
theorem State.setTst_acq (v : Test) : (s.setTst n v).acq = { s.acq with tests := tput {} s.acq.tests n v } := rfl
@[simp] theorem State.setTst_disp (v : Test) : (s.setTst n v).disp = s.disp := rfl
@[simp] theorem State.setTst_mon (v : Test) : (s.setTst n v).mon = s.mon := rfl
@[simp] theorem State.setTst_tiu (v : Test) : (s.setTst n v).tiu = s.tiu := rfl
@[simp] theorem State.setTst_grove (v : Test) : (s.setTst n v).grove = s.grove := rfl
@[simp] theorem State.setTst_mem (v : Test) : (s.setTst n v).mem = s.mem := rfl
@[simp] theorem State.setTst_move (v : Test) : (s.setTst n v).move = s.move := rfl
@[simp] theorem State.setTst_aux (v : Test) : (s.setTst n v).aux = s.aux := rfl
@[simp] theorem State.setTst_ctl (v : Test) : (s.setTst n v).ctl = s.ctl := rfl
@[simp] theorem State.setTst_flt (v : Test) : (s.setTst n v).flt = s.flt := rfl
@[simp] theorem State.setTst_sec (v : Test) : (s.setTst n v).sec = s.sec := rfl
@[simp] theorem State.setTst_perf (v : Test) : (s.setTst n v).perf = s.perf := rfl
@[simp] theorem State.setTst_pwr (v : Test) : (s.setTst n v).pwr = s.pwr := rfl
@[simp] theorem State.au_setTst (v : Test) : (s.setTst n v).au k = s.au k := rfl
@[simp] theorem State.term_setTst (v : Test) : (s.setTst n v).term k = s.term k := rfl
@[simp] theorem State.maskS_setTst (v : Test) : (s.setTst n v).maskS k = s.maskS k := rfl
@[simp] theorem State.bp_setTst (v : Test) : (s.setTst n v).bp k = s.bp k := rfl
@[simp] theorem State.pin_setTst (v : Test) : (s.setTst n v).pin k = s.pin k := rfl
@[simp] theorem State.tst_setTst_self (v : Test) : (s.setTst n v).tst n = v := tget_tput_self _ _ _ _
theorem State.tst_setTst_ne (v : Test) (h : k ≠ n) : (s.setTst n v).tst k = s.tst k := tget_tput_ne _ _ _ h
theorem State.modTst_eq (g : Test → Test) : s.modTst n g = s.setTst n (g (s.tst n)) := rfl

/-! ### maskS -/

@[simp] theorem State.setMaskS_pending (v : MaskSlot) : (s.setMaskS n v).pending = s.pending := rfl
@[simp] theorem State.setMaskS_now (v : MaskSlot) : (s.setMaskS n v).now = s.now := rfl
@[simp] theorem State.setMaskS_freeNo (v : MaskSlot) : (s.setMaskS n v).freeNo = s.freeNo := rfl
@[simp] theorem State.setMaskS_host (v : MaskSlot) : (s.setMaskS n v).host = s.host := rfl
@[simp] theorem State.setMaskS_fe (v : MaskSlot) : (s.setMaskS n v).fe = s.fe := rfl
@[simp] theorem State.setMaskS_clk (v : MaskSlot) : (s.setMaskS n v).clk = s.clk := rfl
@[simp] theorem State.setMaskS_cal (v : MaskSlot) : (s.setMaskS n v).cal = s.cal := rfl
@[simp] theorem State.setMaskS_spec (v : MaskSlot) : (s.setMaskS n v).spec = s.spec := rfl
theorem State.setMaskS_acq (v : MaskSlot) : (s.setMaskS n v).acq = { s.acq with masks := tput {} s.acq.masks n v } := rfl
@[simp] theorem State.setMaskS_disp (v : MaskSlot) : (s.setMaskS n v).disp = s.disp := rfl
@[simp] theorem State.setMaskS_mon (v : MaskSlot) : (s.setMaskS n v).mon = s.mon := rfl
@[simp] theorem State.setMaskS_tiu (v : MaskSlot) : (s.setMaskS n v).tiu = s.tiu := rfl
@[simp] theorem State.setMaskS_grove (v : MaskSlot) : (s.setMaskS n v).grove = s.grove := rfl
@[simp] theorem State.setMaskS_mem (v : MaskSlot) : (s.setMaskS n v).mem = s.mem := rfl
@[simp] theorem State.setMaskS_move (v : MaskSlot) : (s.setMaskS n v).move = s.move := rfl
@[simp] theorem State.setMaskS_aux (v : MaskSlot) : (s.setMaskS n v).aux = s.aux := rfl
@[simp] theorem State.setMaskS_ctl (v : MaskSlot) : (s.setMaskS n v).ctl = s.ctl := rfl
@[simp] theorem State.setMaskS_flt (v : MaskSlot) : (s.setMaskS n v).flt = s.flt := rfl
@[simp] theorem State.setMaskS_sec (v : MaskSlot) : (s.setMaskS n v).sec = s.sec := rfl
@[simp] theorem State.setMaskS_perf (v : MaskSlot) : (s.setMaskS n v).perf = s.perf := rfl
@[simp] theorem State.setMaskS_pwr (v : MaskSlot) : (s.setMaskS n v).pwr = s.pwr := rfl
@[simp] theorem State.au_setMaskS (v : MaskSlot) : (s.setMaskS n v).au k = s.au k := rfl
@[simp] theorem State.term_setMaskS (v : MaskSlot) : (s.setMaskS n v).term k = s.term k := rfl
@[simp] theorem State.tst_setMaskS (v : MaskSlot) : (s.setMaskS n v).tst k = s.tst k := rfl
@[simp] theorem State.bp_setMaskS (v : MaskSlot) : (s.setMaskS n v).bp k = s.bp k := rfl
@[simp] theorem State.pin_setMaskS (v : MaskSlot) : (s.setMaskS n v).pin k = s.pin k := rfl
@[simp] theorem State.maskS_setMaskS_self (v : MaskSlot) : (s.setMaskS n v).maskS n = v := tget_tput_self _ _ _ _
theorem State.maskS_setMaskS_ne (v : MaskSlot) (h : k ≠ n) : (s.setMaskS n v).maskS k = s.maskS k := tget_tput_ne _ _ _ h
theorem State.modMaskS_eq (g : MaskSlot → MaskSlot) : s.modMaskS n g = s.setMaskS n (g (s.maskS n)) := rfl

/-! ### bp -/

@[simp] theorem State.setBp_pending (v : Bp) : (s.setBp n v).pending = s.pending := rfl
@[simp] theorem State.setBp_now (v : Bp) : (s.setBp n v).now = s.now := rfl
@[simp] theorem State.setBp_freeNo (v : Bp) : (s.setBp n v).freeNo = s.freeNo := rfl
@[simp] theorem State.setBp_host (v : Bp) : (s.setBp n v).host = s.host := rfl
@[simp] theorem State.setBp_fe (v : Bp) : (s.setBp n v).fe = s.fe := rfl
@[simp] theorem State.setBp_clk (v : Bp) : (s.setBp n v).clk = s.clk := rfl
@[simp] theorem State.setBp_cal (v : Bp) : (s.setBp n v).cal = s.cal := rfl
@[simp] theorem State.setBp_spec (v : Bp) : (s.setBp n v).spec = s.spec := rfl
theorem State.setBp_acq (v : Bp) : (s.setBp n v).acq = { s.acq with table := tput {} s.acq.table n v } := rfl
@[simp] theorem State.setBp_disp (v : Bp) : (s.setBp n v).disp = s.disp := rfl
@[simp] theorem State.setBp_mon (v : Bp) : (s.setBp n v).mon = s.mon := rfl
@[simp] theorem State.setBp_tiu (v : Bp) : (s.setBp n v).tiu = s.tiu := rfl
@[simp] theorem State.setBp_grove (v : Bp) : (s.setBp n v).grove = s.grove := rfl
@[simp] theorem State.setBp_mem (v : Bp) : (s.setBp n v).mem = s.mem := rfl
@[simp] theorem State.setBp_move (v : Bp) : (s.setBp n v).move = s.move := rfl
@[simp] theorem State.setBp_aux (v : Bp) : (s.setBp n v).aux = s.aux := rfl
@[simp] theorem State.setBp_ctl (v : Bp) : (s.setBp n v).ctl = s.ctl := rfl
@[simp] theorem State.setBp_flt (v : Bp) : (s.setBp n v).flt = s.flt := rfl
@[simp] theorem State.setBp_sec (v : Bp) : (s.setBp n v).sec = s.sec := rfl
@[simp] theorem State.setBp_perf (v : Bp) : (s.setBp n v).perf = s.perf := rfl
@[simp] theorem State.setBp_pwr (v : Bp) : (s.setBp n v).pwr = s.pwr := rfl
@[simp] theorem State.au_setBp (v : Bp) : (s.setBp n v).au k = s.au k := rfl
@[simp] theorem State.term_setBp (v : Bp) : (s.setBp n v).term k = s.term k := rfl
@[simp] theorem State.tst_setBp (v : Bp) : (s.setBp n v).tst k = s.tst k := rfl
@[simp] theorem State.maskS_setBp (v : Bp) : (s.setBp n v).maskS k = s.maskS k := rfl
@[simp] theorem State.pin_setBp (v : Bp) : (s.setBp n v).pin k = s.pin k := rfl
@[simp] theorem State.bp_setBp_self (v : Bp) : (s.setBp n v).bp n = v := tget_tput_self _ _ _ _
theorem State.bp_setBp_ne (v : Bp) (h : k ≠ n) : (s.setBp n v).bp k = s.bp k := tget_tput_ne _ _ _ h
theorem State.modBp_eq (g : Bp → Bp) : s.modBp n g = s.setBp n (g (s.bp n)) := rfl

/-! ### pin -/

@[simp] theorem State.setPin_pending (v : EvtOut) : (s.setPin n v).pending = s.pending := rfl
@[simp] theorem State.setPin_now (v : EvtOut) : (s.setPin n v).now = s.now := rfl
@[simp] theorem State.setPin_freeNo (v : EvtOut) : (s.setPin n v).freeNo = s.freeNo := rfl
@[simp] theorem State.setPin_host (v : EvtOut) : (s.setPin n v).host = s.host := rfl
@[simp] theorem State.setPin_fe (v : EvtOut) : (s.setPin n v).fe = s.fe := rfl
@[simp] theorem State.setPin_clk (v : EvtOut) : (s.setPin n v).clk = s.clk := rfl
@[simp] theorem State.setPin_cal (v : EvtOut) : (s.setPin n v).cal = s.cal := rfl
@[simp] theorem State.setPin_spec (v : EvtOut) : (s.setPin n v).spec = s.spec := rfl
theorem State.setPin_acq (v : EvtOut) : (s.setPin n v).acq = { s.acq with pins := tput {} s.acq.pins n v } := rfl
@[simp] theorem State.setPin_disp (v : EvtOut) : (s.setPin n v).disp = s.disp := rfl
@[simp] theorem State.setPin_mon (v : EvtOut) : (s.setPin n v).mon = s.mon := rfl
@[simp] theorem State.setPin_tiu (v : EvtOut) : (s.setPin n v).tiu = s.tiu := rfl
@[simp] theorem State.setPin_grove (v : EvtOut) : (s.setPin n v).grove = s.grove := rfl
@[simp] theorem State.setPin_mem (v : EvtOut) : (s.setPin n v).mem = s.mem := rfl
@[simp] theorem State.setPin_move (v : EvtOut) : (s.setPin n v).move = s.move := rfl
@[simp] theorem State.setPin_aux (v : EvtOut) : (s.setPin n v).aux = s.aux := rfl
@[simp] theorem State.setPin_ctl (v : EvtOut) : (s.setPin n v).ctl = s.ctl := rfl
@[simp] theorem State.setPin_flt (v : EvtOut) : (s.setPin n v).flt = s.flt := rfl
@[simp] theorem State.setPin_sec (v : EvtOut) : (s.setPin n v).sec = s.sec := rfl
@[simp] theorem State.setPin_perf (v : EvtOut) : (s.setPin n v).perf = s.perf := rfl
@[simp] theorem State.setPin_pwr (v : EvtOut) : (s.setPin n v).pwr = s.pwr := rfl
@[simp] theorem State.au_setPin (v : EvtOut) : (s.setPin n v).au k = s.au k := rfl
@[simp] theorem State.term_setPin (v : EvtOut) : (s.setPin n v).term k = s.term k := rfl
@[simp] theorem State.tst_setPin (v : EvtOut) : (s.setPin n v).tst k = s.tst k := rfl
@[simp] theorem State.maskS_setPin (v : EvtOut) : (s.setPin n v).maskS k = s.maskS k := rfl
@[simp] theorem State.bp_setPin (v : EvtOut) : (s.setPin n v).bp k = s.bp k := rfl
@[simp] theorem State.pin_setPin_self (v : EvtOut) : (s.setPin n v).pin n = v := tget_tput_self _ _ _ _
theorem State.pin_setPin_ne (v : EvtOut) (h : k ≠ n) : (s.setPin n v).pin k = s.pin k := tget_tput_ne _ _ _ h
theorem State.modPin_eq (g : EvtOut → EvtOut) : s.modPin n g = s.setPin n (g (s.pin n)) := rfl

/-! ### dmap -/

@[simp] theorem State.setDmap_pending (v : DensMap) : (s.setDmap n v).pending = s.pending := rfl
@[simp] theorem State.setDmap_now (v : DensMap) : (s.setDmap n v).now = s.now := rfl
@[simp] theorem State.setDmap_freeNo (v : DensMap) : (s.setDmap n v).freeNo = s.freeNo := rfl
@[simp] theorem State.setDmap_host (v : DensMap) : (s.setDmap n v).host = s.host := rfl
@[simp] theorem State.setDmap_fe (v : DensMap) : (s.setDmap n v).fe = s.fe := rfl
@[simp] theorem State.setDmap_clk (v : DensMap) : (s.setDmap n v).clk = s.clk := rfl
@[simp] theorem State.setDmap_cal (v : DensMap) : (s.setDmap n v).cal = s.cal := rfl
@[simp] theorem State.setDmap_spec (v : DensMap) : (s.setDmap n v).spec = s.spec := rfl
@[simp] theorem State.setDmap_acq (v : DensMap) : (s.setDmap n v).acq = s.acq := rfl
theorem State.setDmap_disp (v : DensMap) : (s.setDmap n v).disp = { s.disp with maps := tput {} s.disp.maps n v } := rfl
@[simp] theorem State.setDmap_mon (v : DensMap) : (s.setDmap n v).mon = s.mon := rfl
@[simp] theorem State.setDmap_tiu (v : DensMap) : (s.setDmap n v).tiu = s.tiu := rfl
@[simp] theorem State.setDmap_grove (v : DensMap) : (s.setDmap n v).grove = s.grove := rfl
@[simp] theorem State.setDmap_mem (v : DensMap) : (s.setDmap n v).mem = s.mem := rfl
@[simp] theorem State.setDmap_move (v : DensMap) : (s.setDmap n v).move = s.move := rfl
@[simp] theorem State.setDmap_aux (v : DensMap) : (s.setDmap n v).aux = s.aux := rfl
@[simp] theorem State.setDmap_ctl (v : DensMap) : (s.setDmap n v).ctl = s.ctl := rfl
@[simp] theorem State.setDmap_flt (v : DensMap) : (s.setDmap n v).flt = s.flt := rfl
@[simp] theorem State.setDmap_sec (v : DensMap) : (s.setDmap n v).sec = s.sec := rfl
@[simp] theorem State.setDmap_perf (v : DensMap) : (s.setDmap n v).perf = s.perf := rfl
@[simp] theorem State.setDmap_pwr (v : DensMap) : (s.setDmap n v).pwr = s.pwr := rfl
@[simp] theorem State.pigm_setDmap (v : DensMap) : (s.setDmap n v).pigm k = s.pigm k := rfl
@[simp] theorem State.port_setDmap (v : DensMap) : (s.setDmap n v).port k = s.port k := rfl
@[simp] theorem State.dmap_setDmap_self (v : DensMap) : (s.setDmap n v).dmap n = v := tget_tput_self _ _ _ _
theorem State.dmap_setDmap_ne (v : DensMap) (h : k ≠ n) : (s.setDmap n v).dmap k = s.dmap k := tget_tput_ne _ _ _ h
theorem State.modDmap_eq (g : DensMap → DensMap) : s.modDmap n g = s.setDmap n (g (s.dmap n)) := rfl

/-! ### pigm -/

@[simp] theorem State.setPigm_pending (v : Pigment) : (s.setPigm n v).pending = s.pending := rfl
@[simp] theorem State.setPigm_now (v : Pigment) : (s.setPigm n v).now = s.now := rfl
@[simp] theorem State.setPigm_freeNo (v : Pigment) : (s.setPigm n v).freeNo = s.freeNo := rfl
@[simp] theorem State.setPigm_host (v : Pigment) : (s.setPigm n v).host = s.host := rfl
@[simp] theorem State.setPigm_fe (v : Pigment) : (s.setPigm n v).fe = s.fe := rfl
@[simp] theorem State.setPigm_clk (v : Pigment) : (s.setPigm n v).clk = s.clk := rfl
@[simp] theorem State.setPigm_cal (v : Pigment) : (s.setPigm n v).cal = s.cal := rfl
@[simp] theorem State.setPigm_spec (v : Pigment) : (s.setPigm n v).spec = s.spec := rfl
@[simp] theorem State.setPigm_acq (v : Pigment) : (s.setPigm n v).acq = s.acq := rfl
theorem State.setPigm_disp (v : Pigment) : (s.setPigm n v).disp = { s.disp with pigments := tput {} s.disp.pigments n v } := rfl
@[simp] theorem State.setPigm_mon (v : Pigment) : (s.setPigm n v).mon = s.mon := rfl
@[simp] theorem State.setPigm_tiu (v : Pigment) : (s.setPigm n v).tiu = s.tiu := rfl
@[simp] theorem State.setPigm_grove (v : Pigment) : (s.setPigm n v).grove = s.grove := rfl
@[simp] theorem State.setPigm_mem (v : Pigment) : (s.setPigm n v).mem = s.mem := rfl
@[simp] theorem State.setPigm_move (v : Pigment) : (s.setPigm n v).move = s.move := rfl
@[simp] theorem State.setPigm_aux (v : Pigment) : (s.setPigm n v).aux = s.aux := rfl
@[simp] theorem State.setPigm_ctl (v : Pigment) : (s.setPigm n v).ctl = s.ctl := rfl
@[simp] theorem State.setPigm_flt (v : Pigment) : (s.setPigm n v).flt = s.flt := rfl
@[simp] theorem State.setPigm_sec (v : Pigment) : (s.setPigm n v).sec = s.sec := rfl
@[simp] theorem State.setPigm_perf (v : Pigment) : (s.setPigm n v).perf = s.perf := rfl
@[simp] theorem State.setPigm_pwr (v : Pigment) : (s.setPigm n v).pwr = s.pwr := rfl
@[simp] theorem State.dmap_setPigm (v : Pigment) : (s.setPigm n v).dmap k = s.dmap k := rfl
@[simp] theorem State.port_setPigm (v : Pigment) : (s.setPigm n v).port k = s.port k := rfl
@[simp] theorem State.pigm_setPigm_self (v : Pigment) : (s.setPigm n v).pigm n = v := tget_tput_self _ _ _ _
theorem State.pigm_setPigm_ne (v : Pigment) (h : k ≠ n) : (s.setPigm n v).pigm k = s.pigm k := tget_tput_ne _ _ _ h
theorem State.modPigm_eq (g : Pigment → Pigment) : s.modPigm n g = s.setPigm n (g (s.pigm n)) := rfl

/-! ### port -/

@[simp] theorem State.setPort_pending (v : Port) : (s.setPort n v).pending = s.pending := rfl
@[simp] theorem State.setPort_now (v : Port) : (s.setPort n v).now = s.now := rfl
@[simp] theorem State.setPort_freeNo (v : Port) : (s.setPort n v).freeNo = s.freeNo := rfl
@[simp] theorem State.setPort_host (v : Port) : (s.setPort n v).host = s.host := rfl
@[simp] theorem State.setPort_fe (v : Port) : (s.setPort n v).fe = s.fe := rfl
@[simp] theorem State.setPort_clk (v : Port) : (s.setPort n v).clk = s.clk := rfl
@[simp] theorem State.setPort_cal (v : Port) : (s.setPort n v).cal = s.cal := rfl
@[simp] theorem State.setPort_spec (v : Port) : (s.setPort n v).spec = s.spec := rfl
@[simp] theorem State.setPort_acq (v : Port) : (s.setPort n v).acq = s.acq := rfl
theorem State.setPort_disp (v : Port) : (s.setPort n v).disp = { s.disp with ports := tput {} s.disp.ports n v } := rfl
@[simp] theorem State.setPort_mon (v : Port) : (s.setPort n v).mon = s.mon := rfl
@[simp] theorem State.setPort_tiu (v : Port) : (s.setPort n v).tiu = s.tiu := rfl
@[simp] theorem State.setPort_grove (v : Port) : (s.setPort n v).grove = s.grove := rfl
@[simp] theorem State.setPort_mem (v : Port) : (s.setPort n v).mem = s.mem := rfl
@[simp] theorem State.setPort_move (v : Port) : (s.setPort n v).move = s.move := rfl
@[simp] theorem State.setPort_aux (v : Port) : (s.setPort n v).aux = s.aux := rfl
@[simp] theorem State.setPort_ctl (v : Port) : (s.setPort n v).ctl = s.ctl := rfl
@[simp] theorem State.setPort_flt (v : Port) : (s.setPort n v).flt = s.flt := rfl
@[simp] theorem State.setPort_sec (v : Port) : (s.setPort n v).sec = s.sec := rfl
@[simp] theorem State.setPort_perf (v : Port) : (s.setPort n v).perf = s.perf := rfl
@[simp] theorem State.setPort_pwr (v : Port) : (s.setPort n v).pwr = s.pwr := rfl
@[simp] theorem State.dmap_setPort (v : Port) : (s.setPort n v).dmap k = s.dmap k := rfl
@[simp] theorem State.pigm_setPort (v : Port) : (s.setPort n v).pigm k = s.pigm k := rfl
@[simp] theorem State.port_setPort_self (v : Port) : (s.setPort n v).port n = v := tget_tput_self _ _ _ _
theorem State.port_setPort_ne (v : Port) (h : k ≠ n) : (s.setPort n v).port k = s.port k := tget_tput_ne _ _ _ h
theorem State.modPort_eq (g : Port → Port) : s.modPort n g = s.setPort n (g (s.port n)) := rfl

/-! ### ctx -/

@[simp] theorem State.setCtx_pending (v : Ctx) : (s.setCtx n v).pending = s.pending := rfl
@[simp] theorem State.setCtx_now (v : Ctx) : (s.setCtx n v).now = s.now := rfl
@[simp] theorem State.setCtx_freeNo (v : Ctx) : (s.setCtx n v).freeNo = s.freeNo := rfl
@[simp] theorem State.setCtx_host (v : Ctx) : (s.setCtx n v).host = s.host := rfl
@[simp] theorem State.setCtx_fe (v : Ctx) : (s.setCtx n v).fe = s.fe := rfl
@[simp] theorem State.setCtx_clk (v : Ctx) : (s.setCtx n v).clk = s.clk := rfl
@[simp] theorem State.setCtx_cal (v : Ctx) : (s.setCtx n v).cal = s.cal := rfl
@[simp] theorem State.setCtx_spec (v : Ctx) : (s.setCtx n v).spec = s.spec := rfl
@[simp] theorem State.setCtx_acq (v : Ctx) : (s.setCtx n v).acq = s.acq := rfl
@[simp] theorem State.setCtx_disp (v : Ctx) : (s.setCtx n v).disp = s.disp := rfl
theorem State.setCtx_mon (v : Ctx) : (s.setCtx n v).mon = { s.mon with ctxs := tput {} s.mon.ctxs n v } := rfl
@[simp] theorem State.setCtx_tiu (v : Ctx) : (s.setCtx n v).tiu = s.tiu := rfl
@[simp] theorem State.setCtx_grove (v : Ctx) : (s.setCtx n v).grove = s.grove := rfl
@[simp] theorem State.setCtx_mem (v : Ctx) : (s.setCtx n v).mem = s.mem := rfl
@[simp] theorem State.setCtx_move (v : Ctx) : (s.setCtx n v).move = s.move := rfl
@[simp] theorem State.setCtx_aux (v : Ctx) : (s.setCtx n v).aux = s.aux := rfl
@[simp] theorem State.setCtx_ctl (v : Ctx) : (s.setCtx n v).ctl = s.ctl := rfl
@[simp] theorem State.setCtx_flt (v : Ctx) : (s.setCtx n v).flt = s.flt := rfl
@[simp] theorem State.setCtx_sec (v : Ctx) : (s.setCtx n v).sec = s.sec := rfl
@[simp] theorem State.setCtx_perf (v : Ctx) : (s.setCtx n v).perf = s.perf := rfl
@[simp] theorem State.setCtx_pwr (v : Ctx) : (s.setCtx n v).pwr = s.pwr := rfl
@[simp] theorem State.ctx_setCtx_self (v : Ctx) : (s.setCtx n v).ctx n = v := tget_tput_self _ _ _ _
theorem State.ctx_setCtx_ne (v : Ctx) (h : k ≠ n) : (s.setCtx n v).ctx k = s.ctx k := tget_tput_ne _ _ _ h
theorem State.modCtx_eq (g : Ctx → Ctx) : s.modCtx n g = s.setCtx n (g (s.ctx n)) := rfl

/-! ### tiuIn -/

@[simp] theorem State.setTiuIn_pending (v : TiuIn) : (s.setTiuIn n v).pending = s.pending := rfl
@[simp] theorem State.setTiuIn_now (v : TiuIn) : (s.setTiuIn n v).now = s.now := rfl
@[simp] theorem State.setTiuIn_freeNo (v : TiuIn) : (s.setTiuIn n v).freeNo = s.freeNo := rfl
@[simp] theorem State.setTiuIn_host (v : TiuIn) : (s.setTiuIn n v).host = s.host := rfl
@[simp] theorem State.setTiuIn_fe (v : TiuIn) : (s.setTiuIn n v).fe = s.fe := rfl
@[simp] theorem State.setTiuIn_clk (v : TiuIn) : (s.setTiuIn n v).clk = s.clk := rfl
@[simp] theorem State.setTiuIn_cal (v : TiuIn) : (s.setTiuIn n v).cal = s.cal := rfl
@[simp] theorem State.setTiuIn_spec (v : TiuIn) : (s.setTiuIn n v).spec = s.spec := rfl
@[simp] theorem State.setTiuIn_acq (v : TiuIn) : (s.setTiuIn n v).acq = s.acq := rfl
@[simp] theorem State.setTiuIn_disp (v : TiuIn) : (s.setTiuIn n v).disp = s.disp := rfl
@[simp] theorem State.setTiuIn_mon (v : TiuIn) : (s.setTiuIn n v).mon = s.mon := rfl
theorem State.setTiuIn_tiu (v : TiuIn) : (s.setTiuIn n v).tiu = { s.tiu with ins := tput {} s.tiu.ins n v } := rfl
@[simp] theorem State.setTiuIn_grove (v : TiuIn) : (s.setTiuIn n v).grove = s.grove := rfl
@[simp] theorem State.setTiuIn_mem (v : TiuIn) : (s.setTiuIn n v).mem = s.mem := rfl
@[simp] theorem State.setTiuIn_move (v : TiuIn) : (s.setTiuIn n v).move = s.move := rfl
@[simp] theorem State.setTiuIn_aux (v : TiuIn) : (s.setTiuIn n v).aux = s.aux := rfl
@[simp] theorem State.setTiuIn_ctl (v : TiuIn) : (s.setTiuIn n v).ctl = s.ctl := rfl
@[simp] theorem State.setTiuIn_flt (v : TiuIn) : (s.setTiuIn n v).flt = s.flt := rfl
@[simp] theorem State.setTiuIn_sec (v : TiuIn) : (s.setTiuIn n v).sec = s.sec := rfl
@[simp] theorem State.setTiuIn_perf (v : TiuIn) : (s.setTiuIn n v).perf = s.perf := rfl
@[simp] theorem State.setTiuIn_pwr (v : TiuIn) : (s.setTiuIn n v).pwr = s.pwr := rfl
@[simp] theorem State.tiuSt_setTiuIn (v : TiuIn) : (s.setTiuIn n v).tiuSt k = s.tiuSt k := rfl
@[simp] theorem State.tiuIn_setTiuIn_self (v : TiuIn) : (s.setTiuIn n v).tiuIn n = v := tget_tput_self _ _ _ _
theorem State.tiuIn_setTiuIn_ne (v : TiuIn) (h : k ≠ n) : (s.setTiuIn n v).tiuIn k = s.tiuIn k := tget_tput_ne _ _ _ h
theorem State.modTiuIn_eq (g : TiuIn → TiuIn) : s.modTiuIn n g = s.setTiuIn n (g (s.tiuIn n)) := rfl

/-! ### tiuSt -/

@[simp] theorem State.setTiuSt_pending (v : TiuStat) : (s.setTiuSt n v).pending = s.pending := rfl
@[simp] theorem State.setTiuSt_now (v : TiuStat) : (s.setTiuSt n v).now = s.now := rfl
@[simp] theorem State.setTiuSt_freeNo (v : TiuStat) : (s.setTiuSt n v).freeNo = s.freeNo := rfl
@[simp] theorem State.setTiuSt_host (v : TiuStat) : (s.setTiuSt n v).host = s.host := rfl
@[simp] theorem State.setTiuSt_fe (v : TiuStat) : (s.setTiuSt n v).fe = s.fe := rfl
@[simp] theorem State.setTiuSt_clk (v : TiuStat) : (s.setTiuSt n v).clk = s.clk := rfl
@[simp] theorem State.setTiuSt_cal (v : TiuStat) : (s.setTiuSt n v).cal = s.cal := rfl
@[simp] theorem State.setTiuSt_spec (v : TiuStat) : (s.setTiuSt n v).spec = s.spec := rfl
@[simp] theorem State.setTiuSt_acq (v : TiuStat) : (s.setTiuSt n v).acq = s.acq := rfl
@[simp] theorem State.setTiuSt_disp (v : TiuStat) : (s.setTiuSt n v).disp = s.disp := rfl
@[simp] theorem State.setTiuSt_mon (v : TiuStat) : (s.setTiuSt n v).mon = s.mon := rfl
theorem State.setTiuSt_tiu (v : TiuStat) : (s.setTiuSt n v).tiu = { s.tiu with stats := tput {} s.tiu.stats n v } := rfl
@[simp] theorem State.setTiuSt_grove (v : TiuStat) : (s.setTiuSt n v).grove = s.grove := rfl
@[simp] theorem State.setTiuSt_mem (v : TiuStat) : (s.setTiuSt n v).mem = s.mem := rfl
@[simp] theorem State.setTiuSt_move (v : TiuStat) : (s.setTiuSt n v).move = s.move := rfl
@[simp] theorem State.setTiuSt_aux (v : TiuStat) : (s.setTiuSt n v).aux = s.aux := rfl
@[simp] theorem State.setTiuSt_ctl (v : TiuStat) : (s.setTiuSt n v).ctl = s.ctl := rfl
@[simp] theorem State.setTiuSt_flt (v : TiuStat) : (s.setTiuSt n v).flt = s.flt := rfl
@[simp] theorem State.setTiuSt_sec (v : TiuStat) : (s.setTiuSt n v).sec = s.sec := rfl
@[simp] theorem State.setTiuSt_perf (v : TiuStat) : (s.setTiuSt n v).perf = s.perf := rfl
@[simp] theorem State.setTiuSt_pwr (v : TiuStat) : (s.setTiuSt n v).pwr = s.pwr := rfl
@[simp] theorem State.tiuIn_setTiuSt (v : TiuStat) : (s.setTiuSt n v).tiuIn k = s.tiuIn k := rfl
@[simp] theorem State.tiuSt_setTiuSt_self (v : TiuStat) : (s.setTiuSt n v).tiuSt n = v := tget_tput_self _ _ _ _
theorem State.tiuSt_setTiuSt_ne (v : TiuStat) (h : k ≠ n) : (s.setTiuSt n v).tiuSt k = s.tiuSt k := tget_tput_ne _ _ _ h
theorem State.modTiuSt_eq (g : TiuStat → TiuStat) : s.modTiuSt n g = s.setTiuSt n (g (s.tiuSt n)) := rfl

/-! ### core -/

@[simp] theorem State.setCore_pending (v : GCore) : (s.setCore n v).pending = s.pending := rfl
@[simp] theorem State.setCore_now (v : GCore) : (s.setCore n v).now = s.now := rfl
@[simp] theorem State.setCore_freeNo (v : GCore) : (s.setCore n v).freeNo = s.freeNo := rfl
@[simp] theorem State.setCore_host (v : GCore) : (s.setCore n v).host = s.host := rfl
@[simp] theorem State.setCore_fe (v : GCore) : (s.setCore n v).fe = s.fe := rfl
@[simp] theorem State.setCore_clk (v : GCore) : (s.setCore n v).clk = s.clk := rfl
@[simp] theorem State.setCore_cal (v : GCore) : (s.setCore n v).cal = s.cal := rfl
@[simp] theorem State.setCore_spec (v : GCore) : (s.setCore n v).spec = s.spec := rfl
@[simp] theorem State.setCore_acq (v : GCore) : (s.setCore n v).acq = s.acq := rfl
@[simp] theorem State.setCore_disp (v : GCore) : (s.setCore n v).disp = s.disp := rfl
@[simp] theorem State.setCore_mon (v : GCore) : (s.setCore n v).mon = s.mon := rfl
@[simp] theorem State.setCore_tiu (v : GCore) : (s.setCore n v).tiu = s.tiu := rfl
theorem State.setCore_grove (v : GCore) : (s.setCore n v).grove = { s.grove with cores := tput {} s.grove.cores n v } := rfl
@[simp] theorem State.setCore_mem (v : GCore) : (s.setCore n v).mem = s.mem := rfl
@[simp] theorem State.setCore_move (v : GCore) : (s.setCore n v).move = s.move := rfl
@[simp] theorem State.setCore_aux (v : GCore) : (s.setCore n v).aux = s.aux := rfl
@[simp] theorem State.setCore_ctl (v : GCore) : (s.setCore n v).ctl = s.ctl := rfl
@[simp] theorem State.setCore_flt (v : GCore) : (s.setCore n v).flt = s.flt := rfl
@[simp] theorem State.setCore_sec (v : GCore) : (s.setCore n v).sec = s.sec := rfl
@[simp] theorem State.setCore_perf (v : GCore) : (s.setCore n v).perf = s.perf := rfl
@[simp] theorem State.setCore_pwr (v : GCore) : (s.setCore n v).pwr = s.pwr := rfl
@[simp] theorem State.feed_setCore (v : GCore) : (s.setCore n v).feed k = s.feed k := rfl
@[simp] theorem State.bar_setCore (v : GCore) : (s.setCore n v).bar k = s.bar k := rfl
@[simp] theorem State.core_setCore_self (v : GCore) : (s.setCore n v).core n = v := tget_tput_self _ _ _ _
theorem State.core_setCore_ne (v : GCore) (h : k ≠ n) : (s.setCore n v).core k = s.core k := tget_tput_ne _ _ _ h
theorem State.modCore_eq (g : GCore → GCore) : s.modCore n g = s.setCore n (g (s.core n)) := rfl

/-! ### feed -/

@[simp] theorem State.setFeed_pending (v : Feed) : (s.setFeed n v).pending = s.pending := rfl
@[simp] theorem State.setFeed_now (v : Feed) : (s.setFeed n v).now = s.now := rfl
@[simp] theorem State.setFeed_freeNo (v : Feed) : (s.setFeed n v).freeNo = s.freeNo := rfl
@[simp] theorem State.setFeed_host (v : Feed) : (s.setFeed n v).host = s.host := rfl
@[simp] theorem State.setFeed_fe (v : Feed) : (s.setFeed n v).fe = s.fe := rfl
@[simp] theorem State.setFeed_clk (v : Feed) : (s.setFeed n v).clk = s.clk := rfl
@[simp] theorem State.setFeed_cal (v : Feed) : (s.setFeed n v).cal = s.cal := rfl
@[simp] theorem State.setFeed_spec (v : Feed) : (s.setFeed n v).spec = s.spec := rfl
@[simp] theorem State.setFeed_acq (v : Feed) : (s.setFeed n v).acq = s.acq := rfl
@[simp] theorem State.setFeed_disp (v : Feed) : (s.setFeed n v).disp = s.disp := rfl
@[simp] theorem State.setFeed_mon (v : Feed) : (s.setFeed n v).mon = s.mon := rfl
@[simp] theorem State.setFeed_tiu (v : Feed) : (s.setFeed n v).tiu = s.tiu := rfl
theorem State.setFeed_grove (v : Feed) : (s.setFeed n v).grove = { s.grove with feeds := tput {} s.grove.feeds n v } := rfl
@[simp] theorem State.setFeed_mem (v : Feed) : (s.setFeed n v).mem = s.mem := rfl
@[simp] theorem State.setFeed_move (v : Feed) : (s.setFeed n v).move = s.move := rfl
@[simp] theorem State.setFeed_aux (v : Feed) : (s.setFeed n v).aux = s.aux := rfl
@[simp] theorem State.setFeed_ctl (v : Feed) : (s.setFeed n v).ctl = s.ctl := rfl
@[simp] theorem State.setFeed_flt (v : Feed) : (s.setFeed n v).flt = s.flt := rfl
@[simp] theorem State.setFeed_sec (v : Feed) : (s.setFeed n v).sec = s.sec := rfl
@[simp] theorem State.setFeed_perf (v : Feed) : (s.setFeed n v).perf = s.perf := rfl
@[simp] theorem State.setFeed_pwr (v : Feed) : (s.setFeed n v).pwr = s.pwr := rfl
@[simp] theorem State.core_setFeed (v : Feed) : (s.setFeed n v).core k = s.core k := rfl
@[simp] theorem State.bar_setFeed (v : Feed) : (s.setFeed n v).bar k = s.bar k := rfl
@[simp] theorem State.feed_setFeed_self (v : Feed) : (s.setFeed n v).feed n = v := tget_tput_self _ _ _ _
theorem State.feed_setFeed_ne (v : Feed) (h : k ≠ n) : (s.setFeed n v).feed k = s.feed k := tget_tput_ne _ _ _ h
theorem State.modFeed_eq (g : Feed → Feed) : s.modFeed n g = s.setFeed n (g (s.feed n)) := rfl

/-! ### bar -/

@[simp] theorem State.setBar_pending (v : Barrier) : (s.setBar n v).pending = s.pending := rfl
@[simp] theorem State.setBar_now (v : Barrier) : (s.setBar n v).now = s.now := rfl
@[simp] theorem State.setBar_freeNo (v : Barrier) : (s.setBar n v).freeNo = s.freeNo := rfl
@[simp] theorem State.setBar_host (v : Barrier) : (s.setBar n v).host = s.host := rfl
@[simp] theorem State.setBar_fe (v : Barrier) : (s.setBar n v).fe = s.fe := rfl
@[simp] theorem State.setBar_clk (v : Barrier) : (s.setBar n v).clk = s.clk := rfl
@[simp] theorem State.setBar_cal (v : Barrier) : (s.setBar n v).cal = s.cal := rfl
@[simp] theorem State.setBar_spec (v : Barrier) : (s.setBar n v).spec = s.spec := rfl
@[simp] theorem State.setBar_acq (v : Barrier) : (s.setBar n v).acq = s.acq := rfl
@[simp] theorem State.setBar_disp (v : Barrier) : (s.setBar n v).disp = s.disp := rfl
@[simp] theorem State.setBar_mon (v : Barrier) : (s.setBar n v).mon = s.mon := rfl
@[simp] theorem State.setBar_tiu (v : Barrier) : (s.setBar n v).tiu = s.tiu := rfl
theorem State.setBar_grove (v : Barrier) : (s.setBar n v).grove = { s.grove with barriers := tput {} s.grove.barriers n v } := rfl
@[simp] theorem State.setBar_mem (v : Barrier) : (s.setBar n v).mem = s.mem := rfl
@[simp] theorem State.setBar_move (v : Barrier) : (s.setBar n v).move = s.move := rfl
@[simp] theorem State.setBar_aux (v : Barrier) : (s.setBar n v).aux = s.aux := rfl
@[simp] theorem State.setBar_ctl (v : Barrier) : (s.setBar n v).ctl = s.ctl := rfl
@[simp] theorem State.setBar_flt (v : Barrier) : (s.setBar n v).flt = s.flt := rfl
@[simp] theorem State.setBar_sec (v : Barrier) : (s.setBar n v).sec = s.sec := rfl
@[simp] theorem State.setBar_perf (v : Barrier) : (s.setBar n v).perf = s.perf := rfl
@[simp] theorem State.setBar_pwr (v : Barrier) : (s.setBar n v).pwr = s.pwr := rfl
@[simp] theorem State.core_setBar (v : Barrier) : (s.setBar n v).core k = s.core k := rfl
@[simp] theorem State.feed_setBar (v : Barrier) : (s.setBar n v).feed k = s.feed k := rfl
@[simp] theorem State.bar_setBar_self (v : Barrier) : (s.setBar n v).bar n = v := tget_tput_self _ _ _ _
theorem State.bar_setBar_ne (v : Barrier) (h : k ≠ n) : (s.setBar n v).bar k = s.bar k := tget_tput_ne _ _ _ h
theorem State.modBar_eq (g : Barrier → Barrier) : s.modBar n g = s.setBar n (g (s.bar n)) := rfl

/-! ### reg -/

@[simp] theorem State.setReg_pending (v : Region) : (s.setReg n v).pending = s.pending := rfl
@[simp] theorem State.setReg_now (v : Region) : (s.setReg n v).now = s.now := rfl
@[simp] theorem State.setReg_freeNo (v : Region) : (s.setReg n v).freeNo = s.freeNo := rfl
@[simp] theorem State.setReg_host (v : Region) : (s.setReg n v).host = s.host := rfl
@[simp] theorem State.setReg_fe (v : Region) : (s.setReg n v).fe = s.fe := rfl
@[simp] theorem State.setReg_clk (v : Region) : (s.setReg n v).clk = s.clk := rfl
@[simp] theorem State.setReg_cal (v : Region) : (s.setReg n v).cal = s.cal := rfl
@[simp] theorem State.setReg_spec (v : Region) : (s.setReg n v).spec = s.spec := rfl
@[simp] theorem State.setReg_acq (v : Region) : (s.setReg n v).acq = s.acq := rfl
@[simp] theorem State.setReg_disp (v : Region) : (s.setReg n v).disp = s.disp := rfl
@[simp] theorem State.setReg_mon (v : Region) : (s.setReg n v).mon = s.mon := rfl
@[simp] theorem State.setReg_tiu (v : Region) : (s.setReg n v).tiu = s.tiu := rfl
@[simp] theorem State.setReg_grove (v : Region) : (s.setReg n v).grove = s.grove := rfl
theorem State.setReg_mem (v : Region) : (s.setReg n v).mem = { s.mem with regions := tput {} s.mem.regions n v } := rfl
@[simp] theorem State.setReg_move (v : Region) : (s.setReg n v).move = s.move := rfl
@[simp] theorem State.setReg_aux (v : Region) : (s.setReg n v).aux = s.aux := rfl
@[simp] theorem State.setReg_ctl (v : Region) : (s.setReg n v).ctl = s.ctl := rfl
@[simp] theorem State.setReg_flt (v : Region) : (s.setReg n v).flt = s.flt := rfl
@[simp] theorem State.setReg_sec (v : Region) : (s.setReg n v).sec = s.sec := rfl
@[simp] theorem State.setReg_perf (v : Region) : (s.setReg n v).perf = s.perf := rfl
@[simp] theorem State.setReg_pwr (v : Region) : (s.setReg n v).pwr = s.pwr := rfl
@[simp] theorem State.quad_setReg (v : Region) : (s.setReg n v).quad k = s.quad k := rfl
@[simp] theorem State.rank_setReg (v : Region) : (s.setReg n v).rank k = s.rank k := rfl
@[simp] theorem State.reg_setReg_self (v : Region) : (s.setReg n v).reg n = v := tget_tput_self _ _ _ _
theorem State.reg_setReg_ne (v : Region) (h : k ≠ n) : (s.setReg n v).reg k = s.reg k := tget_tput_ne _ _ _ h
theorem State.modReg_eq (g : Region → Region) : s.modReg n g = s.setReg n (g (s.reg n)) := rfl

/-! ### quad -/

@[simp] theorem State.setQuad_pending (v : Quad) : (s.setQuad n v).pending = s.pending := rfl
@[simp] theorem State.setQuad_now (v : Quad) : (s.setQuad n v).now = s.now := rfl
@[simp] theorem State.setQuad_freeNo (v : Quad) : (s.setQuad n v).freeNo = s.freeNo := rfl
@[simp] theorem State.setQuad_host (v : Quad) : (s.setQuad n v).host = s.host := rfl
@[simp] theorem State.setQuad_fe (v : Quad) : (s.setQuad n v).fe = s.fe := rfl
@[simp] theorem State.setQuad_clk (v : Quad) : (s.setQuad n v).clk = s.clk := rfl
@[simp] theorem State.setQuad_cal (v : Quad) : (s.setQuad n v).cal = s.cal := rfl
@[simp] theorem State.setQuad_spec (v : Quad) : (s.setQuad n v).spec = s.spec := rfl
@[simp] theorem State.setQuad_acq (v : Quad) : (s.setQuad n v).acq = s.acq := rfl
@[simp] theorem State.setQuad_disp (v : Quad) : (s.setQuad n v).disp = s.disp := rfl
@[simp] theorem State.setQuad_mon (v : Quad) : (s.setQuad n v).mon = s.mon := rfl
@[simp] theorem State.setQuad_tiu (v : Quad) : (s.setQuad n v).tiu = s.tiu := rfl
@[simp] theorem State.setQuad_grove (v : Quad) : (s.setQuad n v).grove = s.grove := rfl
theorem State.setQuad_mem (v : Quad) : (s.setQuad n v).mem = { s.mem with quads := tput {} s.mem.quads n v } := rfl
@[simp] theorem State.setQuad_move (v : Quad) : (s.setQuad n v).move = s.move := rfl
@[simp] theorem State.setQuad_aux (v : Quad) : (s.setQuad n v).aux = s.aux := rfl
@[simp] theorem State.setQuad_ctl (v : Quad) : (s.setQuad n v).ctl = s.ctl := rfl
@[simp] theorem State.setQuad_flt (v : Quad) : (s.setQuad n v).flt = s.flt := rfl
@[simp] theorem State.setQuad_sec (v : Quad) : (s.setQuad n v).sec = s.sec := rfl
@[simp] theorem State.setQuad_perf (v : Quad) : (s.setQuad n v).perf = s.perf := rfl
@[simp] theorem State.setQuad_pwr (v : Quad) : (s.setQuad n v).pwr = s.pwr := rfl
@[simp] theorem State.reg_setQuad (v : Quad) : (s.setQuad n v).reg k = s.reg k := rfl
@[simp] theorem State.rank_setQuad (v : Quad) : (s.setQuad n v).rank k = s.rank k := rfl
@[simp] theorem State.quad_setQuad_self (v : Quad) : (s.setQuad n v).quad n = v := tget_tput_self _ _ _ _
theorem State.quad_setQuad_ne (v : Quad) (h : k ≠ n) : (s.setQuad n v).quad k = s.quad k := tget_tput_ne _ _ _ h
theorem State.modQuad_eq (g : Quad → Quad) : s.modQuad n g = s.setQuad n (g (s.quad n)) := rfl

/-! ### rank -/

@[simp] theorem State.setRank_pending (v : RankErr) : (s.setRank n v).pending = s.pending := rfl
@[simp] theorem State.setRank_now (v : RankErr) : (s.setRank n v).now = s.now := rfl
@[simp] theorem State.setRank_freeNo (v : RankErr) : (s.setRank n v).freeNo = s.freeNo := rfl
@[simp] theorem State.setRank_host (v : RankErr) : (s.setRank n v).host = s.host := rfl
@[simp] theorem State.setRank_fe (v : RankErr) : (s.setRank n v).fe = s.fe := rfl
@[simp] theorem State.setRank_clk (v : RankErr) : (s.setRank n v).clk = s.clk := rfl
@[simp] theorem State.setRank_cal (v : RankErr) : (s.setRank n v).cal = s.cal := rfl
@[simp] theorem State.setRank_spec (v : RankErr) : (s.setRank n v).spec = s.spec := rfl
@[simp] theorem State.setRank_acq (v : RankErr) : (s.setRank n v).acq = s.acq := rfl
@[simp] theorem State.setRank_disp (v : RankErr) : (s.setRank n v).disp = s.disp := rfl
@[simp] theorem State.setRank_mon (v : RankErr) : (s.setRank n v).mon = s.mon := rfl
@[simp] theorem State.setRank_tiu (v : RankErr) : (s.setRank n v).tiu = s.tiu := rfl
@[simp] theorem State.setRank_grove (v : RankErr) : (s.setRank n v).grove = s.grove := rfl
theorem State.setRank_mem (v : RankErr) : (s.setRank n v).mem = { s.mem with ranks := tput {} s.mem.ranks n v } := rfl
@[simp] theorem State.setRank_move (v : RankErr) : (s.setRank n v).move = s.move := rfl
@[simp] theorem State.setRank_aux (v : RankErr) : (s.setRank n v).aux = s.aux := rfl
@[simp] theorem State.setRank_ctl (v : RankErr) : (s.setRank n v).ctl = s.ctl := rfl
@[simp] theorem State.setRank_flt (v : RankErr) : (s.setRank n v).flt = s.flt := rfl
@[simp] theorem State.setRank_sec (v : RankErr) : (s.setRank n v).sec = s.sec := rfl
@[simp] theorem State.setRank_perf (v : RankErr) : (s.setRank n v).perf = s.perf := rfl
@[simp] theorem State.setRank_pwr (v : RankErr) : (s.setRank n v).pwr = s.pwr := rfl
@[simp] theorem State.reg_setRank (v : RankErr) : (s.setRank n v).reg k = s.reg k := rfl
@[simp] theorem State.quad_setRank (v : RankErr) : (s.setRank n v).quad k = s.quad k := rfl
@[simp] theorem State.rank_setRank_self (v : RankErr) : (s.setRank n v).rank n = v := tget_tput_self _ _ _ _
theorem State.rank_setRank_ne (v : RankErr) (h : k ≠ n) : (s.setRank n v).rank k = s.rank k := tget_tput_ne _ _ _ h
theorem State.modRank_eq (g : RankErr → RankErr) : s.modRank n g = s.setRank n (g (s.rank n)) := rfl

/-! ### dma -/

@[simp] theorem State.setDma_pending (v : Dma) : (s.setDma n v).pending = s.pending := rfl
@[simp] theorem State.setDma_now (v : Dma) : (s.setDma n v).now = s.now := rfl
@[simp] theorem State.setDma_freeNo (v : Dma) : (s.setDma n v).freeNo = s.freeNo := rfl
@[simp] theorem State.setDma_host (v : Dma) : (s.setDma n v).host = s.host := rfl
@[simp] theorem State.setDma_fe (v : Dma) : (s.setDma n v).fe = s.fe := rfl
@[simp] theorem State.setDma_clk (v : Dma) : (s.setDma n v).clk = s.clk := rfl
@[simp] theorem State.setDma_cal (v : Dma) : (s.setDma n v).cal = s.cal := rfl
@[simp] theorem State.setDma_spec (v : Dma) : (s.setDma n v).spec = s.spec := rfl
@[simp] theorem State.setDma_acq (v : Dma) : (s.setDma n v).acq = s.acq := rfl
@[simp] theorem State.setDma_disp (v : Dma) : (s.setDma n v).disp = s.disp := rfl
@[simp] theorem State.setDma_mon (v : Dma) : (s.setDma n v).mon = s.mon := rfl
@[simp] theorem State.setDma_tiu (v : Dma) : (s.setDma n v).tiu = s.tiu := rfl
@[simp] theorem State.setDma_grove (v : Dma) : (s.setDma n v).grove = s.grove := rfl
@[simp] theorem State.setDma_mem (v : Dma) : (s.setDma n v).mem = s.mem := rfl
theorem State.setDma_move (v : Dma) : (s.setDma n v).move = { s.move with chans := tput {} s.move.chans n v } := rfl
@[simp] theorem State.setDma_aux (v : Dma) : (s.setDma n v).aux = s.aux := rfl
@[simp] theorem State.setDma_ctl (v : Dma) : (s.setDma n v).ctl = s.ctl := rfl
@[simp] theorem State.setDma_flt (v : Dma) : (s.setDma n v).flt = s.flt := rfl
@[simp] theorem State.setDma_sec (v : Dma) : (s.setDma n v).sec = s.sec := rfl
@[simp] theorem State.setDma_perf (v : Dma) : (s.setDma n v).perf = s.perf := rfl
@[simp] theorem State.setDma_pwr (v : Dma) : (s.setDma n v).pwr = s.pwr := rfl
@[simp] theorem State.tml_setDma (v : Dma) : (s.setDma n v).tml k = s.tml k := rfl
@[simp] theorem State.link_setDma (v : Dma) : (s.setDma n v).link k = s.link k := rfl
@[simp] theorem State.dirE_setDma (v : Dma) : (s.setDma n v).dirE k = s.dirE k := rfl
@[simp] theorem State.dma_setDma_self (v : Dma) : (s.setDma n v).dma n = v := tget_tput_self _ _ _ _
theorem State.dma_setDma_ne (v : Dma) (h : k ≠ n) : (s.setDma n v).dma k = s.dma k := tget_tput_ne _ _ _ h
theorem State.modDma_eq (g : Dma → Dma) : s.modDma n g = s.setDma n (g (s.dma n)) := rfl

/-! ### tml -/

@[simp] theorem State.setTml_pending (v : TmLine) : (s.setTml n v).pending = s.pending := rfl
@[simp] theorem State.setTml_now (v : TmLine) : (s.setTml n v).now = s.now := rfl
@[simp] theorem State.setTml_freeNo (v : TmLine) : (s.setTml n v).freeNo = s.freeNo := rfl
@[simp] theorem State.setTml_host (v : TmLine) : (s.setTml n v).host = s.host := rfl
@[simp] theorem State.setTml_fe (v : TmLine) : (s.setTml n v).fe = s.fe := rfl
@[simp] theorem State.setTml_clk (v : TmLine) : (s.setTml n v).clk = s.clk := rfl
@[simp] theorem State.setTml_cal (v : TmLine) : (s.setTml n v).cal = s.cal := rfl
@[simp] theorem State.setTml_spec (v : TmLine) : (s.setTml n v).spec = s.spec := rfl
@[simp] theorem State.setTml_acq (v : TmLine) : (s.setTml n v).acq = s.acq := rfl
@[simp] theorem State.setTml_disp (v : TmLine) : (s.setTml n v).disp = s.disp := rfl
@[simp] theorem State.setTml_mon (v : TmLine) : (s.setTml n v).mon = s.mon := rfl
@[simp] theorem State.setTml_tiu (v : TmLine) : (s.setTml n v).tiu = s.tiu := rfl
@[simp] theorem State.setTml_grove (v : TmLine) : (s.setTml n v).grove = s.grove := rfl
@[simp] theorem State.setTml_mem (v : TmLine) : (s.setTml n v).mem = s.mem := rfl
theorem State.setTml_move (v : TmLine) : (s.setTml n v).move = { s.move with timers := tput {} s.move.timers n v } := rfl
@[simp] theorem State.setTml_aux (v : TmLine) : (s.setTml n v).aux = s.aux := rfl
@[simp] theorem State.setTml_ctl (v : TmLine) : (s.setTml n v).ctl = s.ctl := rfl
@[simp] theorem State.setTml_flt (v : TmLine) : (s.setTml n v).flt = s.flt := rfl
@[simp] theorem State.setTml_sec (v : TmLine) : (s.setTml n v).sec = s.sec := rfl
@[simp] theorem State.setTml_perf (v : TmLine) : (s.setTml n v).perf = s.perf := rfl
@[simp] theorem State.setTml_pwr (v : TmLine) : (s.setTml n v).pwr = s.pwr := rfl
@[simp] theorem State.dma_setTml (v : TmLine) : (s.setTml n v).dma k = s.dma k := rfl
@[simp] theorem State.link_setTml (v : TmLine) : (s.setTml n v).link k = s.link k := rfl
@[simp] theorem State.dirE_setTml (v : TmLine) : (s.setTml n v).dirE k = s.dirE k := rfl
@[simp] theorem State.tml_setTml_self (v : TmLine) : (s.setTml n v).tml n = v := tget_tput_self _ _ _ _
theorem State.tml_setTml_ne (v : TmLine) (h : k ≠ n) : (s.setTml n v).tml k = s.tml k := tget_tput_ne _ _ _ h
theorem State.modTml_eq (g : TmLine → TmLine) : s.modTml n g = s.setTml n (g (s.tml n)) := rfl

/-! ### link -/

@[simp] theorem State.setLink_pending (v : Link) : (s.setLink n v).pending = s.pending := rfl
@[simp] theorem State.setLink_now (v : Link) : (s.setLink n v).now = s.now := rfl
@[simp] theorem State.setLink_freeNo (v : Link) : (s.setLink n v).freeNo = s.freeNo := rfl
@[simp] theorem State.setLink_host (v : Link) : (s.setLink n v).host = s.host := rfl
@[simp] theorem State.setLink_fe (v : Link) : (s.setLink n v).fe = s.fe := rfl
@[simp] theorem State.setLink_clk (v : Link) : (s.setLink n v).clk = s.clk := rfl
@[simp] theorem State.setLink_cal (v : Link) : (s.setLink n v).cal = s.cal := rfl
@[simp] theorem State.setLink_spec (v : Link) : (s.setLink n v).spec = s.spec := rfl
@[simp] theorem State.setLink_acq (v : Link) : (s.setLink n v).acq = s.acq := rfl
@[simp] theorem State.setLink_disp (v : Link) : (s.setLink n v).disp = s.disp := rfl
@[simp] theorem State.setLink_mon (v : Link) : (s.setLink n v).mon = s.mon := rfl
@[simp] theorem State.setLink_tiu (v : Link) : (s.setLink n v).tiu = s.tiu := rfl
@[simp] theorem State.setLink_grove (v : Link) : (s.setLink n v).grove = s.grove := rfl
@[simp] theorem State.setLink_mem (v : Link) : (s.setLink n v).mem = s.mem := rfl
theorem State.setLink_move (v : Link) : (s.setLink n v).move = { s.move with links := tput {} s.move.links n v } := rfl
@[simp] theorem State.setLink_aux (v : Link) : (s.setLink n v).aux = s.aux := rfl
@[simp] theorem State.setLink_ctl (v : Link) : (s.setLink n v).ctl = s.ctl := rfl
@[simp] theorem State.setLink_flt (v : Link) : (s.setLink n v).flt = s.flt := rfl
@[simp] theorem State.setLink_sec (v : Link) : (s.setLink n v).sec = s.sec := rfl
@[simp] theorem State.setLink_perf (v : Link) : (s.setLink n v).perf = s.perf := rfl
@[simp] theorem State.setLink_pwr (v : Link) : (s.setLink n v).pwr = s.pwr := rfl
@[simp] theorem State.dma_setLink (v : Link) : (s.setLink n v).dma k = s.dma k := rfl
@[simp] theorem State.tml_setLink (v : Link) : (s.setLink n v).tml k = s.tml k := rfl
@[simp] theorem State.dirE_setLink (v : Link) : (s.setLink n v).dirE k = s.dirE k := rfl
@[simp] theorem State.link_setLink_self (v : Link) : (s.setLink n v).link n = v := tget_tput_self _ _ _ _
theorem State.link_setLink_ne (v : Link) (h : k ≠ n) : (s.setLink n v).link k = s.link k := tget_tput_ne _ _ _ h
theorem State.modLink_eq (g : Link → Link) : s.modLink n g = s.setLink n (g (s.link n)) := rfl

/-! ### dirE -/

@[simp] theorem State.setDirE_pending (v : DirEnt) : (s.setDirE n v).pending = s.pending := rfl
@[simp] theorem State.setDirE_now (v : DirEnt) : (s.setDirE n v).now = s.now := rfl
@[simp] theorem State.setDirE_freeNo (v : DirEnt) : (s.setDirE n v).freeNo = s.freeNo := rfl
@[simp] theorem State.setDirE_host (v : DirEnt) : (s.setDirE n v).host = s.host := rfl
@[simp] theorem State.setDirE_fe (v : DirEnt) : (s.setDirE n v).fe = s.fe := rfl
@[simp] theorem State.setDirE_clk (v : DirEnt) : (s.setDirE n v).clk = s.clk := rfl
@[simp] theorem State.setDirE_cal (v : DirEnt) : (s.setDirE n v).cal = s.cal := rfl
@[simp] theorem State.setDirE_spec (v : DirEnt) : (s.setDirE n v).spec = s.spec := rfl
@[simp] theorem State.setDirE_acq (v : DirEnt) : (s.setDirE n v).acq = s.acq := rfl
@[simp] theorem State.setDirE_disp (v : DirEnt) : (s.setDirE n v).disp = s.disp := rfl
@[simp] theorem State.setDirE_mon (v : DirEnt) : (s.setDirE n v).mon = s.mon := rfl
@[simp] theorem State.setDirE_tiu (v : DirEnt) : (s.setDirE n v).tiu = s.tiu := rfl
@[simp] theorem State.setDirE_grove (v : DirEnt) : (s.setDirE n v).grove = s.grove := rfl
@[simp] theorem State.setDirE_mem (v : DirEnt) : (s.setDirE n v).mem = s.mem := rfl
theorem State.setDirE_move (v : DirEnt) : (s.setDirE n v).move = { s.move with dir := tput {} s.move.dir n v } := rfl
@[simp] theorem State.setDirE_aux (v : DirEnt) : (s.setDirE n v).aux = s.aux := rfl
@[simp] theorem State.setDirE_ctl (v : DirEnt) : (s.setDirE n v).ctl = s.ctl := rfl
@[simp] theorem State.setDirE_flt (v : DirEnt) : (s.setDirE n v).flt = s.flt := rfl
@[simp] theorem State.setDirE_sec (v : DirEnt) : (s.setDirE n v).sec = s.sec := rfl
@[simp] theorem State.setDirE_perf (v : DirEnt) : (s.setDirE n v).perf = s.perf := rfl
@[simp] theorem State.setDirE_pwr (v : DirEnt) : (s.setDirE n v).pwr = s.pwr := rfl
@[simp] theorem State.dma_setDirE (v : DirEnt) : (s.setDirE n v).dma k = s.dma k := rfl
@[simp] theorem State.tml_setDirE (v : DirEnt) : (s.setDirE n v).tml k = s.tml k := rfl
@[simp] theorem State.link_setDirE (v : DirEnt) : (s.setDirE n v).link k = s.link k := rfl
@[simp] theorem State.dirE_setDirE_self (v : DirEnt) : (s.setDirE n v).dirE n = v := tget_tput_self _ _ _ _
theorem State.dirE_setDirE_ne (v : DirEnt) (h : k ≠ n) : (s.setDirE n v).dirE k = s.dirE k := tget_tput_ne _ _ _ h
theorem State.modDirE_eq (g : DirEnt → DirEnt) : s.modDirE n g = s.setDirE n (g (s.dirE n)) := rfl

/-! ### auxIn -/

@[simp] theorem State.setAuxIn_pending (v : AuxIn) : (s.setAuxIn n v).pending = s.pending := rfl
@[simp] theorem State.setAuxIn_now (v : AuxIn) : (s.setAuxIn n v).now = s.now := rfl
@[simp] theorem State.setAuxIn_freeNo (v : AuxIn) : (s.setAuxIn n v).freeNo = s.freeNo := rfl
@[simp] theorem State.setAuxIn_host (v : AuxIn) : (s.setAuxIn n v).host = s.host := rfl
@[simp] theorem State.setAuxIn_fe (v : AuxIn) : (s.setAuxIn n v).fe = s.fe := rfl
@[simp] theorem State.setAuxIn_clk (v : AuxIn) : (s.setAuxIn n v).clk = s.clk := rfl
@[simp] theorem State.setAuxIn_cal (v : AuxIn) : (s.setAuxIn n v).cal = s.cal := rfl
@[simp] theorem State.setAuxIn_spec (v : AuxIn) : (s.setAuxIn n v).spec = s.spec := rfl
@[simp] theorem State.setAuxIn_acq (v : AuxIn) : (s.setAuxIn n v).acq = s.acq := rfl
@[simp] theorem State.setAuxIn_disp (v : AuxIn) : (s.setAuxIn n v).disp = s.disp := rfl
@[simp] theorem State.setAuxIn_mon (v : AuxIn) : (s.setAuxIn n v).mon = s.mon := rfl
@[simp] theorem State.setAuxIn_tiu (v : AuxIn) : (s.setAuxIn n v).tiu = s.tiu := rfl
@[simp] theorem State.setAuxIn_grove (v : AuxIn) : (s.setAuxIn n v).grove = s.grove := rfl
@[simp] theorem State.setAuxIn_mem (v : AuxIn) : (s.setAuxIn n v).mem = s.mem := rfl
@[simp] theorem State.setAuxIn_move (v : AuxIn) : (s.setAuxIn n v).move = s.move := rfl
theorem State.setAuxIn_aux (v : AuxIn) : (s.setAuxIn n v).aux = { s.aux with ins := tput {} s.aux.ins n v } := rfl
@[simp] theorem State.setAuxIn_ctl (v : AuxIn) : (s.setAuxIn n v).ctl = s.ctl := rfl
@[simp] theorem State.setAuxIn_flt (v : AuxIn) : (s.setAuxIn n v).flt = s.flt := rfl
@[simp] theorem State.setAuxIn_sec (v : AuxIn) : (s.setAuxIn n v).sec = s.sec := rfl
@[simp] theorem State.setAuxIn_perf (v : AuxIn) : (s.setAuxIn n v).perf = s.perf := rfl
@[simp] theorem State.setAuxIn_pwr (v : AuxIn) : (s.setAuxIn n v).pwr = s.pwr := rfl
@[simp] theorem State.auxIn_setAuxIn_self (v : AuxIn) : (s.setAuxIn n v).auxIn n = v := tget_tput_self _ _ _ _
theorem State.auxIn_setAuxIn_ne (v : AuxIn) (h : k ≠ n) : (s.setAuxIn n v).auxIn k = s.auxIn k := tget_tput_ne _ _ _ h
theorem State.modAuxIn_eq (g : AuxIn → AuxIn) : s.modAuxIn n g = s.setAuxIn n (g (s.auxIn n)) := rfl

/-! ### frec -/

@[simp] theorem State.setFrec_pending (v : FaultRec) : (s.setFrec n v).pending = s.pending := rfl
@[simp] theorem State.setFrec_now (v : FaultRec) : (s.setFrec n v).now = s.now := rfl
@[simp] theorem State.setFrec_freeNo (v : FaultRec) : (s.setFrec n v).freeNo = s.freeNo := rfl
@[simp] theorem State.setFrec_host (v : FaultRec) : (s.setFrec n v).host = s.host := rfl
@[simp] theorem State.setFrec_fe (v : FaultRec) : (s.setFrec n v).fe = s.fe := rfl
@[simp] theorem State.setFrec_clk (v : FaultRec) : (s.setFrec n v).clk = s.clk := rfl
@[simp] theorem State.setFrec_cal (v : FaultRec) : (s.setFrec n v).cal = s.cal := rfl
@[simp] theorem State.setFrec_spec (v : FaultRec) : (s.setFrec n v).spec = s.spec := rfl
@[simp] theorem State.setFrec_acq (v : FaultRec) : (s.setFrec n v).acq = s.acq := rfl
@[simp] theorem State.setFrec_disp (v : FaultRec) : (s.setFrec n v).disp = s.disp := rfl
@[simp] theorem State.setFrec_mon (v : FaultRec) : (s.setFrec n v).mon = s.mon := rfl
@[simp] theorem State.setFrec_tiu (v : FaultRec) : (s.setFrec n v).tiu = s.tiu := rfl
@[simp] theorem State.setFrec_grove (v : FaultRec) : (s.setFrec n v).grove = s.grove := rfl
@[simp] theorem State.setFrec_mem (v : FaultRec) : (s.setFrec n v).mem = s.mem := rfl
@[simp] theorem State.setFrec_move (v : FaultRec) : (s.setFrec n v).move = s.move := rfl
@[simp] theorem State.setFrec_aux (v : FaultRec) : (s.setFrec n v).aux = s.aux := rfl
@[simp] theorem State.setFrec_ctl (v : FaultRec) : (s.setFrec n v).ctl = s.ctl := rfl
theorem State.setFrec_flt (v : FaultRec) : (s.setFrec n v).flt = { s.flt with recs := tput {} s.flt.recs n v } := rfl
@[simp] theorem State.setFrec_sec (v : FaultRec) : (s.setFrec n v).sec = s.sec := rfl
@[simp] theorem State.setFrec_perf (v : FaultRec) : (s.setFrec n v).perf = s.perf := rfl
@[simp] theorem State.setFrec_pwr (v : FaultRec) : (s.setFrec n v).pwr = s.pwr := rfl
@[simp] theorem State.frec_setFrec_self (v : FaultRec) : (s.setFrec n v).frec n = v := tget_tput_self _ _ _ _
theorem State.frec_setFrec_ne (v : FaultRec) (h : k ≠ n) : (s.setFrec n v).frec k = s.frec k := tget_tput_ne _ _ _ h
theorem State.modFrec_eq (g : FaultRec → FaultRec) : s.modFrec n g = s.setFrec n (g (s.frec n)) := rfl

/-! ### ctlO -/

@[simp] theorem State.setCtlO_pending (v : Ctl) : (s.setCtlO n v).pending = s.pending := rfl
@[simp] theorem State.setCtlO_now (v : Ctl) : (s.setCtlO n v).now = s.now := rfl
@[simp] theorem State.setCtlO_freeNo (v : Ctl) : (s.setCtlO n v).freeNo = s.freeNo := rfl
@[simp] theorem State.setCtlO_host (v : Ctl) : (s.setCtlO n v).host = s.host := rfl
@[simp] theorem State.setCtlO_fe (v : Ctl) : (s.setCtlO n v).fe = s.fe := rfl
@[simp] theorem State.setCtlO_clk (v : Ctl) : (s.setCtlO n v).clk = s.clk := rfl
@[simp] theorem State.setCtlO_cal (v : Ctl) : (s.setCtlO n v).cal = s.cal := rfl
@[simp] theorem State.setCtlO_spec (v : Ctl) : (s.setCtlO n v).spec = s.spec := rfl
@[simp] theorem State.setCtlO_acq (v : Ctl) : (s.setCtlO n v).acq = s.acq := rfl
@[simp] theorem State.setCtlO_disp (v : Ctl) : (s.setCtlO n v).disp = s.disp := rfl
@[simp] theorem State.setCtlO_mon (v : Ctl) : (s.setCtlO n v).mon = s.mon := rfl
@[simp] theorem State.setCtlO_tiu (v : Ctl) : (s.setCtlO n v).tiu = s.tiu := rfl
@[simp] theorem State.setCtlO_grove (v : Ctl) : (s.setCtlO n v).grove = s.grove := rfl
@[simp] theorem State.setCtlO_mem (v : Ctl) : (s.setCtlO n v).mem = s.mem := rfl
@[simp] theorem State.setCtlO_move (v : Ctl) : (s.setCtlO n v).move = s.move := rfl
@[simp] theorem State.setCtlO_aux (v : Ctl) : (s.setCtlO n v).aux = s.aux := rfl
theorem State.setCtlO_ctl (v : Ctl) : (s.setCtlO n v).ctl = tput {} s.ctl n v := rfl
@[simp] theorem State.setCtlO_flt (v : Ctl) : (s.setCtlO n v).flt = s.flt := rfl
@[simp] theorem State.setCtlO_sec (v : Ctl) : (s.setCtlO n v).sec = s.sec := rfl
@[simp] theorem State.setCtlO_perf (v : Ctl) : (s.setCtlO n v).perf = s.perf := rfl
@[simp] theorem State.setCtlO_pwr (v : Ctl) : (s.setCtlO n v).pwr = s.pwr := rfl
@[simp] theorem State.ctlO_setCtlO_self (v : Ctl) : (s.setCtlO n v).ctlO n = v := tget_tput_self _ _ _ _
theorem State.ctlO_setCtlO_ne (v : Ctl) (h : k ≠ n) : (s.setCtlO n v).ctlO k = s.ctlO k := tget_tput_ne _ _ _ h
theorem State.modCtlO_eq (g : Ctl → Ctl) : s.modCtlO n g = s.setCtlO n (g (s.ctlO n)) := rfl

/-! ### perfC -/

@[simp] theorem State.setPerfC_pending (v : Perf) : (s.setPerfC n v).pending = s.pending := rfl
@[simp] theorem State.setPerfC_now (v : Perf) : (s.setPerfC n v).now = s.now := rfl
@[simp] theorem State.setPerfC_freeNo (v : Perf) : (s.setPerfC n v).freeNo = s.freeNo := rfl
@[simp] theorem State.setPerfC_host (v : Perf) : (s.setPerfC n v).host = s.host := rfl
@[simp] theorem State.setPerfC_fe (v : Perf) : (s.setPerfC n v).fe = s.fe := rfl
@[simp] theorem State.setPerfC_clk (v : Perf) : (s.setPerfC n v).clk = s.clk := rfl
@[simp] theorem State.setPerfC_cal (v : Perf) : (s.setPerfC n v).cal = s.cal := rfl
@[simp] theorem State.setPerfC_spec (v : Perf) : (s.setPerfC n v).spec = s.spec := rfl
@[simp] theorem State.setPerfC_acq (v : Perf) : (s.setPerfC n v).acq = s.acq := rfl
@[simp] theorem State.setPerfC_disp (v : Perf) : (s.setPerfC n v).disp = s.disp := rfl
@[simp] theorem State.setPerfC_mon (v : Perf) : (s.setPerfC n v).mon = s.mon := rfl
@[simp] theorem State.setPerfC_tiu (v : Perf) : (s.setPerfC n v).tiu = s.tiu := rfl
@[simp] theorem State.setPerfC_grove (v : Perf) : (s.setPerfC n v).grove = s.grove := rfl
@[simp] theorem State.setPerfC_mem (v : Perf) : (s.setPerfC n v).mem = s.mem := rfl
@[simp] theorem State.setPerfC_move (v : Perf) : (s.setPerfC n v).move = s.move := rfl
@[simp] theorem State.setPerfC_aux (v : Perf) : (s.setPerfC n v).aux = s.aux := rfl
@[simp] theorem State.setPerfC_ctl (v : Perf) : (s.setPerfC n v).ctl = s.ctl := rfl
@[simp] theorem State.setPerfC_flt (v : Perf) : (s.setPerfC n v).flt = s.flt := rfl
@[simp] theorem State.setPerfC_sec (v : Perf) : (s.setPerfC n v).sec = s.sec := rfl
theorem State.setPerfC_perf (v : Perf) : (s.setPerfC n v).perf = tput {} s.perf n v := rfl
@[simp] theorem State.setPerfC_pwr (v : Perf) : (s.setPerfC n v).pwr = s.pwr := rfl
@[simp] theorem State.perfC_setPerfC_self (v : Perf) : (s.setPerfC n v).perfC n = v := tget_tput_self _ _ _ _
theorem State.perfC_setPerfC_ne (v : Perf) (h : k ≠ n) : (s.setPerfC n v).perfC k = s.perfC k := tget_tput_ne _ _ _ h
theorem State.modPerfC_eq (g : Perf → Perf) : s.modPerfC n g = s.setPerfC n (g (s.perfC n)) := rfl

end Sys2Proof.Machine
end

