-- ==== Sys2Proof/Laws/Quiet.lean ====
section
/-! SUPPORT. What the operations every row shares can do: counting, posting, signalling and completing touch the host interface and the
performance counters and nothing else; of these, the events touch only the event ring and its signals. -/

namespace Sys2Proof.Machine

/-! ## Two relations between states -/

theorem PerfCounts.refl (a : Tab Perf) : PerfCounts a a := fun _ => ⟨rfl, fun _ => rfl⟩

theorem PerfCounts.trans {a b c : Tab Perf} (h : PerfCounts a b) (g : PerfCounts b c) : PerfCounts a c := by
  intro k
  obtain ⟨h1, h2⟩ := h k
  obtain ⟨g1, g2⟩ := g k
  refine ⟨?_, fun hr => ?_⟩
  · rw [g1, h1]
  · have e := h2 hr
    rw [g2 (by rw [e]; exact hr), e]

/-- A running counter counts. -/
theorem PerfCounts.count (a : Tab Perf) (n src inst v : Nat) (h : (tget {} a n).takes src inst = true) :
    PerfCounts a (tput {} a n ((tget {} a n).count v)) := by
  intro k
  rw [tget_tput]
  split
  · rename_i e
    subst e
    have hr : (tget {} a k).run = true := by
      unfold Perf.takes at h
      simp only [Bool.and_eq_true] at h
      exact h.1.1
    refine ⟨?_, fun hf => by rw [hr] at hf; cases hf⟩
    unfold Perf.count
    dsimp only
    split_ifs <;> rfl
  · exact ⟨rfl, fun _ => rfl⟩

/-- `t` differs from `s` at most in the host interface and the performance counters. -/
structure Quiet (s t : State) : Prop where
  pending : t.pending = s.pending
  now : t.now = s.now
  freeNo : t.freeNo = s.freeNo
  fe : t.fe = s.fe
  clk : t.clk = s.clk
  cal : t.cal = s.cal
  spec : t.spec = s.spec
  acq : t.acq = s.acq
  disp : t.disp = s.disp
  mon : t.mon = s.mon
  tiu : t.tiu = s.tiu
  grove : t.grove = s.grove
  mem : t.mem = s.mem
  move : t.move = s.move
  aux : t.aux = s.aux
  ctl : t.ctl = s.ctl
  flt : t.flt = s.flt
  sec : t.sec = s.sec
  pwr : t.pwr = s.pwr
  perf : PerfCounts s.perf t.perf

theorem Quiet.refl (s : State) : Quiet s s := by constructor <;> first | rfl | exact PerfCounts.refl _

theorem Quiet.trans {s t u : State} (h : Quiet s t) (g : Quiet t u) : Quiet s u :=
  ⟨g.pending.trans h.pending, g.now.trans h.now, g.freeNo.trans h.freeNo, g.fe.trans h.fe, g.clk.trans h.clk, g.cal.trans h.cal, g.spec.trans h.spec, g.acq.trans h.acq, g.disp.trans h.disp, g.mon.trans h.mon, g.tiu.trans h.tiu, g.grove.trans h.grove, g.mem.trans h.mem, g.move.trans h.move, g.aux.trans h.aux, g.ctl.trans h.ctl, g.flt.trans h.flt, g.sec.trans h.sec, g.pwr.trans h.pwr, h.perf.trans g.perf⟩

theorem Quiet.foldl {β : Type} (f : State → β → State) (h : ∀ a x, Quiet a (f a x)) (l : List β) (s : State) : Quiet s (l.foldl f s) := by
  induction l generalizing s with
  | nil => exact Quiet.refl s
  | cons x r ih => exact (h s x).trans (ih _)

theorem Quiet.ite {c : Prop} [Decidable c] {s a b : State} (h : c → Quiet s a) (g : ¬c → Quiet s b) : Quiet s (if c then a else b) := by
  split <;> simp_all

theorem RingsOnly.trans {h g k : HostIf} (a : RingsOnly h g) (b : RingsOnly g k) : RingsOnly h k := by
  cases h; cases g; cases k
  simp only [RingsOnly, HostIf.mk.injEq, true_and] at a b ⊢
  simp_all

theorem HostEvents.refl (h : HostIf) : HostEvents h h := ⟨rfl, List.Sublist.refl _⟩

theorem HostEvents.trans {h g k : HostIf} (a : HostEvents h g) (b : HostEvents g k) : HostEvents h k := ⟨a.1.trans b.1, b.2.trans a.2⟩

/-- `t` differs from `s` at most in the event ring, its signals and the performance counters. -/
structure Posts (s t : State) : Prop extends Quiet s t where
  host : HostEvents s.host t.host

theorem Posts.refl (s : State) : Posts s s := ⟨Quiet.refl s, HostEvents.refl _⟩

theorem Posts.trans {s t u : State} (h : Posts s t) (g : Posts t u) : Posts s u := ⟨h.toQuiet.trans g.toQuiet, HostEvents.trans h.host g.host⟩

theorem Posts.ite {c : Prop} [Decidable c] {s a b : State} (h : c → Posts s a) (g : ¬c → Posts s b) : Posts s (if c then a else b) := by
  split <;> simp_all

theorem Posts.foldl {β : Type} (f : State → β → State) (h : ∀ a x, Posts a (f a x)) (l : List β) (s : State) : Posts s (l.foldl f s) := by
  induction l generalizing s with
  | nil => exact Posts.refl s
  | cons x r ih => exact (h s x).trans (ih _)

/-- A change of the event ring and its signals alone. -/
theorem Posts.ofRings {s : State} {h : HostIf} (a : RingsOnly s.host h) (b : h.cplWait = s.host.cplWait) : Posts s { s with host := h } :=
  ⟨by constructor <;> first | rfl | exact PerfCounts.refl _, a, by rw [b]⟩

/-- A `Posts` that writes no completion. -/
def Emits (s t : State) : Prop := Posts s t ∧ t.host.cplWait = s.host.cplWait

theorem Emits.refl (s : State) : Emits s s := ⟨Posts.refl s, rfl⟩

theorem Emits.trans {s t u : State} (h : Emits s t) (g : Emits t u) : Emits s u := ⟨h.1.trans g.1, g.2.trans h.2⟩

theorem Emits.ite {c : Prop} [Decidable c] {s a b : State} (h : c → Emits s a) (g : ¬c → Emits s b) : Emits s (if c then a else b) := by
  split <;> simp_all

theorem Emits.foldl {β : Type} (f : State → β → State) (h : ∀ a x, Emits a (f a x)) (l : List β) (s : State) : Emits s (l.foldl f s) := by
  induction l generalizing s with
  | nil => exact Emits.refl s
  | cons x r ih => exact (h s x).trans (ih _)

theorem Emits.ofRings {s : State} {h : HostIf} (a : RingsOnly s.host h) (b : h.cplWait = s.host.cplWait) : Emits s { s with host := h } :=
  ⟨.ofRings a b, b⟩

/-- What follows a change of the event ring and its signals. -/
theorem Emits.after {s u : State} {h : HostIf} (g : Emits { s with host := h } u) (a : RingsOnly s.host h) (b : h.cplWait = s.host.cplWait) :
    Emits s u := (Emits.ofRings a b).trans g

/-! ## Events and counters -/

/-- A running counter takes a quantity. -/
theorem setPerfC_emits {s : State} {n src inst : Nat} (v : Nat) (h : (s.perfC n).takes src inst = true) :
    Emits s (s.setPerfC n ((s.perfC n).count v)) := by
  refine ⟨⟨?_, HostEvents.refl _⟩, rfl⟩
  constructor <;> first | rfl | exact PerfCounts.count _ _ _ _ _ h

theorem setMsixE_emits (s : State) (n : Nat) (v : MsixEntry) : Emits s (s.setMsixE n v) := .ofRings rfl rfl
theorem postAt_emits (s : State) (pos code pay : Nat) : Emits s (postAt s pos code pay) := .ofRings rfl rfl
theorem post_emits (s : State) (code pay : Nat) : Emits s (post s code pay) := postAt_emits s _ _ _
theorem evtLose_emits (s : State) : Emits s (evtLose s) := .ofRings rfl rfl

theorem signal_emits (s : State) (v : Nat) : Emits s (signal s v) := by
  unfold signal; split
  · exact Emits.refl s
  · dsimp only; split <;> exact setMsixE_emits _ _ _

theorem perfCount_emits (s : State) (src inst v : Nat) : Emits s (perfCount s src inst v).1 := by
  unfold perfCount
  suffices h : ∀ (l : List Nat) (a : State × List Nat), Emits s a.1 → Emits s (l.foldl (fun (a : State × List Nat) k =>
      let c := a.1.perfC k
      if c.takes src inst && v != 0 then
        let c' := c.count v
        (a.1.setPerfC k c', if c'.sat && !c.sat then a.2 ++ [k] else a.2)
      else a) a).1 from h _ _ (Emits.refl s)
  intro l
  induction l with
  | nil => intro a h; exact h
  | cons k r ih =>
    intro a h
    rw [List.foldl_cons]
    apply ih
    dsimp only
    split
    · rename_i hc
      exact h.trans (setPerfC_emits v (Bool.and_eq_true_iff.1 hc).1)
    · exact h

theorem perfAdd_emits (s : State) (src inst v : Nat) : Emits s (perfAdd s src inst v) :=
  (perfCount_emits s src inst v).trans (Emits.foldl _ (fun a _ => post_emits a _ _) _ _)

theorem evtWrite_emits (s : State) (e : EventRecord) : Emits s (evtWrite s e) := by
  unfold evtWrite
  refine Emits.ite (fun _ => evtLose_emits s) (fun _ => ?_)
  dsimp only
  exact Emits.ite (fun _ => (signal_emits _ _).after rfl rfl) (fun _ => .ofRings rfl rfl)

theorem evtSend_emits (s : State) (e : EventRecord) : Emits s (evtSend s e) := by
  unfold evtSend; split
  · exact Emits.refl s
  · split
    · exact evtLose_emits s
    · split
      · exact .ofRings rfl rfl
      · exact evtWrite_emits s e

theorem evtSendAll_emits (n : Nat) (s : State) (l : List EventRecord) : Emits s (evtSendAll n s l) := by
  induction n generalizing s l with
  | zero => exact Emits.refl s
  | succ n ih =>
    cases l with
    | nil => exact Emits.refl s
    | cons e r =>
      unfold evtSendAll
      dsimp only
      refine ((evtSend_emits s e).trans ?_).trans (ih _ _)
      split
      · exact Emits.refl _
      · exact perfCount_emits _ _ _ _

theorem flushEvents_emits (s : State) (T : Tick) : Emits s (flushEvents s T) := by
  unfold flushEvents
  exact (evtSendAll_emits _ _ _).after rfl rfl

theorem flushAll_emits (s : State) : Emits s (flushAll s) := flushEvents_emits s _

theorem postAt_posts (s : State) (pos code pay : Nat) : Posts s (postAt s pos code pay) := (postAt_emits s pos code pay).1
theorem post_posts (s : State) (code pay : Nat) : Posts s (post s code pay) := (post_emits s code pay).1
theorem setMsixE_posts (s : State) (n : Nat) (v : MsixEntry) : Posts s (s.setMsixE n v) := (setMsixE_emits s n v).1
theorem setPerfC_posts {s : State} {n src inst : Nat} (v : Nat) (h : (s.perfC n).takes src inst = true) :
    Posts s (s.setPerfC n ((s.perfC n).count v)) := (setPerfC_emits v h).1
theorem perfCount_posts (s : State) (src inst v : Nat) : Posts s (perfCount s src inst v).1 := (perfCount_emits s src inst v).1
theorem evtLose_posts (s : State) : Posts s (evtLose s) := (evtLose_emits s).1
theorem signal_posts (s : State) (v : Nat) : Posts s (signal s v) := (signal_emits s v).1
theorem perfAdd_posts (s : State) (src inst v : Nat) : Posts s (perfAdd s src inst v) := (perfAdd_emits s src inst v).1
theorem evtWrite_posts (s : State) (e : EventRecord) : Posts s (evtWrite s e) := (evtWrite_emits s e).1
theorem evtSend_posts (s : State) (e : EventRecord) : Posts s (evtSend s e) := (evtSend_emits s e).1
theorem evtSendAll_posts (n : Nat) (s : State) (l : List EventRecord) : Posts s (evtSendAll n s l) := (evtSendAll_emits n s l).1
theorem flushEvents_posts (s : State) (T : Tick) : Posts s (flushEvents s T) := (flushEvents_emits s T).1
theorem flushAll_posts (s : State) : Posts s (flushAll s) := (flushAll_emits s).1

/-! ## Completions -/

theorem setSes_quiet (s : State) (n : Nat) (v : Session) : Quiet s (s.setSes n v) := by constructor <;> first | rfl | exact PerfCounts.refl _

theorem setCplR_posts (s : State) (n : Nat) (v : CplRing) : Posts s (s.setCplR n v) := .ofRings rfl rfl

theorem cqSignal_posts (s : State) (n : Nat) : Posts s (cqSignal s n) := by
  unfold cqSignal; dsimp only
  exact Posts.ite (fun _ => Posts.refl s) fun _ => Posts.ite (fun _ => setCplR_posts _ _ _) fun _ => (setCplR_posts _ _ _).trans (signal_posts _ _)

theorem cqWrite_posts (s : State) (n : Nat) (c : Completion) : Posts s (cqWrite s n c) := (setCplR_posts _ _ _).trans (cqSignal_posts _ _)

/-- The completions of the ticks that are over leave those that wait. -/
theorem cplSend_posts (s : State) (T : Tick) : Posts s (cplSend s T) := by
  unfold cplSend
  refine Posts.ite (fun _ => Posts.refl s) fun _ => Posts.trans ?_ (Posts.foldl _ (fun a w => Posts.ite (fun _ => cqWrite_posts _ _ _) fun _ => Posts.refl _) _ _)
  refine ⟨by constructor <;> first | rfl | exact PerfCounts.refl _, rfl, List.filter_sublist⟩

theorem complete_quiet (s : State) (n : Nat) (c : Completion) : Quiet s (complete s n c) := by
  unfold complete; split
  · exact Quiet.refl s
  · constructor <;> first | rfl | exact PerfCounts.refl _

theorem finish_quiet (s : State) (p : InProg) (st rl r : Nat) : Quiet s (finish s p st rl r) := by
  unfold finish
  refine Quiet.trans ?_ (complete_quiet _ _ _)
  constructor <;> first | rfl | exact PerfCounts.refl _

theorem finishAll_quiet (s : State) (op u st rl r : Nat) : Quiet s (finishAll s op u st rl r) :=
  Quiet.foldl _ (fun a p => finish_quiet a p _ _ _) _ _

theorem sesPost_posts (s : State) (n ch ca : Nat) : Posts s (sesPost s n ch ca) := post_posts s _ _

theorem flushUnknown_quiet (k : Nat) (s : State) (n : Nat) : Quiet s (flushUnknown k s n) := by
  induction k generalizing s with
  | zero => exact Quiet.refl s
  | succ k ih =>
    unfold flushUnknown
    split
    · split
      · exact Quiet.refl s
      · exact ((setSes_quiet _ _ _).trans (complete_quiet _ _ _)).trans (ih _)
    · exact Quiet.refl s

theorem flushFront_quiet (s : State) (n : Nat) : Quiet s (flushFront s n) := flushUnknown_quiet _ s n

/-! ## Time -/

/-- Setting the count aside, a `Posts` stays one. -/
theorem Posts.at {s t : State} (h : Posts s t) (m : Tick) : Posts { s with now := m } { t with now := m } :=
  ⟨⟨h.pending, rfl, h.freeNo, h.fe, h.clk, h.cal, h.spec, h.acq, h.disp, h.mon, h.tiu, h.grove, h.mem, h.move, h.aux, h.ctl, h.flt, h.sec, h.pwr, h.perf⟩,
    h.host⟩

/-- Time passes: but for the Canopy count, only counters, and the rings that events and completions enter. -/
theorem pass_posts (s : State) (t : Tick) : Posts { s with now := max s.now t } (pass s t) := by
  unfold pass
  dsimp only
  have h0 := (((flushEvents_posts s ({ s with now := max s.now t } : State).evTick).trans
    (cplSend_posts _ ({ s with now := max s.now t } : State).evTick)).at (max s.now t))
  refine Posts.ite (fun _ => h0) fun _ => (h0.trans (Posts.trans ?_ (Posts.foldl _ (fun a _ => perfAdd_posts a _ _ _) _ _))).trans
      (Posts.foldl _ (fun a e => ?_) _ _)
  · exact Posts.ite (fun _ => perfAdd_posts _ _ _ _) fun _ => Posts.refl _
  · exact Posts.ite (fun _ => perfAdd_posts _ _ _ _) fun _ => Posts.refl _

/-- Time passes to the tick at which a row acts. -/
theorem advance_posts (s : State) (t : Tick) : Posts { s with now := actsAt s t } (advance s t) := by
  unfold advance actsAt
  cases h : s.clk.stepAt with
  | none => exact pass_posts s t
  | some x =>
    obtain ⟨e, d⟩ := x
    dsimp only
    split
    · have h1 := ((pass_posts s e).trans (flushEvents_posts _ (e + 1))).at (max (e + d) t)
      exact h1.trans (pass_posts { flushEvents (pass s e) (e + 1) with now := e + d } t)
    · exact pass_posts s t

/-! ## The same, one equation a part, for rewriting -/

@[simp] theorem post_pending (s : State) (code pay : Nat) : (post s code pay).pending = s.pending := (post_posts s code pay).pending
@[simp] theorem post_now (s : State) (code pay : Nat) : (post s code pay).now = s.now := (post_posts s code pay).now
@[simp] theorem post_freeNo (s : State) (code pay : Nat) : (post s code pay).freeNo = s.freeNo := (post_posts s code pay).freeNo
@[simp] theorem post_fe (s : State) (code pay : Nat) : (post s code pay).fe = s.fe := (post_posts s code pay).fe
@[simp] theorem post_clk (s : State) (code pay : Nat) : (post s code pay).clk = s.clk := (post_posts s code pay).clk
@[simp] theorem post_cal (s : State) (code pay : Nat) : (post s code pay).cal = s.cal := (post_posts s code pay).cal
@[simp] theorem post_spec (s : State) (code pay : Nat) : (post s code pay).spec = s.spec := (post_posts s code pay).spec
@[simp] theorem post_acq (s : State) (code pay : Nat) : (post s code pay).acq = s.acq := (post_posts s code pay).acq
@[simp] theorem post_disp (s : State) (code pay : Nat) : (post s code pay).disp = s.disp := (post_posts s code pay).disp
@[simp] theorem post_mon (s : State) (code pay : Nat) : (post s code pay).mon = s.mon := (post_posts s code pay).mon
@[simp] theorem post_tiu (s : State) (code pay : Nat) : (post s code pay).tiu = s.tiu := (post_posts s code pay).tiu
@[simp] theorem post_grove (s : State) (code pay : Nat) : (post s code pay).grove = s.grove := (post_posts s code pay).grove
@[simp] theorem post_mem (s : State) (code pay : Nat) : (post s code pay).mem = s.mem := (post_posts s code pay).mem
@[simp] theorem post_move (s : State) (code pay : Nat) : (post s code pay).move = s.move := (post_posts s code pay).move
@[simp] theorem post_aux (s : State) (code pay : Nat) : (post s code pay).aux = s.aux := (post_posts s code pay).aux
@[simp] theorem post_ctl (s : State) (code pay : Nat) : (post s code pay).ctl = s.ctl := (post_posts s code pay).ctl
@[simp] theorem post_flt (s : State) (code pay : Nat) : (post s code pay).flt = s.flt := (post_posts s code pay).flt
@[simp] theorem post_sec (s : State) (code pay : Nat) : (post s code pay).sec = s.sec := (post_posts s code pay).sec
@[simp] theorem post_pwr (s : State) (code pay : Nat) : (post s code pay).pwr = s.pwr := (post_posts s code pay).pwr

@[simp] theorem postAt_pending (s : State) (pos code pay : Nat) : (postAt s pos code pay).pending = s.pending := (postAt_posts s pos code pay).pending
@[simp] theorem postAt_now (s : State) (pos code pay : Nat) : (postAt s pos code pay).now = s.now := (postAt_posts s pos code pay).now
@[simp] theorem postAt_freeNo (s : State) (pos code pay : Nat) : (postAt s pos code pay).freeNo = s.freeNo := (postAt_posts s pos code pay).freeNo
@[simp] theorem postAt_fe (s : State) (pos code pay : Nat) : (postAt s pos code pay).fe = s.fe := (postAt_posts s pos code pay).fe
@[simp] theorem postAt_clk (s : State) (pos code pay : Nat) : (postAt s pos code pay).clk = s.clk := (postAt_posts s pos code pay).clk
@[simp] theorem postAt_cal (s : State) (pos code pay : Nat) : (postAt s pos code pay).cal = s.cal := (postAt_posts s pos code pay).cal
@[simp] theorem postAt_spec (s : State) (pos code pay : Nat) : (postAt s pos code pay).spec = s.spec := (postAt_posts s pos code pay).spec
@[simp] theorem postAt_acq (s : State) (pos code pay : Nat) : (postAt s pos code pay).acq = s.acq := (postAt_posts s pos code pay).acq
@[simp] theorem postAt_disp (s : State) (pos code pay : Nat) : (postAt s pos code pay).disp = s.disp := (postAt_posts s pos code pay).disp
@[simp] theorem postAt_mon (s : State) (pos code pay : Nat) : (postAt s pos code pay).mon = s.mon := (postAt_posts s pos code pay).mon
@[simp] theorem postAt_tiu (s : State) (pos code pay : Nat) : (postAt s pos code pay).tiu = s.tiu := (postAt_posts s pos code pay).tiu
@[simp] theorem postAt_grove (s : State) (pos code pay : Nat) : (postAt s pos code pay).grove = s.grove := (postAt_posts s pos code pay).grove
@[simp] theorem postAt_mem (s : State) (pos code pay : Nat) : (postAt s pos code pay).mem = s.mem := (postAt_posts s pos code pay).mem
@[simp] theorem postAt_move (s : State) (pos code pay : Nat) : (postAt s pos code pay).move = s.move := (postAt_posts s pos code pay).move
@[simp] theorem postAt_aux (s : State) (pos code pay : Nat) : (postAt s pos code pay).aux = s.aux := (postAt_posts s pos code pay).aux
@[simp] theorem postAt_ctl (s : State) (pos code pay : Nat) : (postAt s pos code pay).ctl = s.ctl := (postAt_posts s pos code pay).ctl
@[simp] theorem postAt_flt (s : State) (pos code pay : Nat) : (postAt s pos code pay).flt = s.flt := (postAt_posts s pos code pay).flt
@[simp] theorem postAt_sec (s : State) (pos code pay : Nat) : (postAt s pos code pay).sec = s.sec := (postAt_posts s pos code pay).sec
@[simp] theorem postAt_pwr (s : State) (pos code pay : Nat) : (postAt s pos code pay).pwr = s.pwr := (postAt_posts s pos code pay).pwr

@[simp] theorem signal_pending (s : State) (v : Nat) : (signal s v).pending = s.pending := (signal_posts s v).pending
@[simp] theorem signal_now (s : State) (v : Nat) : (signal s v).now = s.now := (signal_posts s v).now
@[simp] theorem signal_freeNo (s : State) (v : Nat) : (signal s v).freeNo = s.freeNo := (signal_posts s v).freeNo
@[simp] theorem signal_fe (s : State) (v : Nat) : (signal s v).fe = s.fe := (signal_posts s v).fe
@[simp] theorem signal_clk (s : State) (v : Nat) : (signal s v).clk = s.clk := (signal_posts s v).clk
@[simp] theorem signal_cal (s : State) (v : Nat) : (signal s v).cal = s.cal := (signal_posts s v).cal
@[simp] theorem signal_spec (s : State) (v : Nat) : (signal s v).spec = s.spec := (signal_posts s v).spec
@[simp] theorem signal_acq (s : State) (v : Nat) : (signal s v).acq = s.acq := (signal_posts s v).acq
@[simp] theorem signal_disp (s : State) (v : Nat) : (signal s v).disp = s.disp := (signal_posts s v).disp
@[simp] theorem signal_mon (s : State) (v : Nat) : (signal s v).mon = s.mon := (signal_posts s v).mon
@[simp] theorem signal_tiu (s : State) (v : Nat) : (signal s v).tiu = s.tiu := (signal_posts s v).tiu
@[simp] theorem signal_grove (s : State) (v : Nat) : (signal s v).grove = s.grove := (signal_posts s v).grove
@[simp] theorem signal_mem (s : State) (v : Nat) : (signal s v).mem = s.mem := (signal_posts s v).mem
@[simp] theorem signal_move (s : State) (v : Nat) : (signal s v).move = s.move := (signal_posts s v).move
@[simp] theorem signal_aux (s : State) (v : Nat) : (signal s v).aux = s.aux := (signal_posts s v).aux
@[simp] theorem signal_ctl (s : State) (v : Nat) : (signal s v).ctl = s.ctl := (signal_posts s v).ctl
@[simp] theorem signal_flt (s : State) (v : Nat) : (signal s v).flt = s.flt := (signal_posts s v).flt
@[simp] theorem signal_sec (s : State) (v : Nat) : (signal s v).sec = s.sec := (signal_posts s v).sec
@[simp] theorem signal_pwr (s : State) (v : Nat) : (signal s v).pwr = s.pwr := (signal_posts s v).pwr

@[simp] theorem perfAdd_pending (s : State) (src inst v : Nat) : (perfAdd s src inst v).pending = s.pending := (perfAdd_posts s src inst v).pending
@[simp] theorem perfAdd_now (s : State) (src inst v : Nat) : (perfAdd s src inst v).now = s.now := (perfAdd_posts s src inst v).now
@[simp] theorem perfAdd_freeNo (s : State) (src inst v : Nat) : (perfAdd s src inst v).freeNo = s.freeNo := (perfAdd_posts s src inst v).freeNo
@[simp] theorem perfAdd_fe (s : State) (src inst v : Nat) : (perfAdd s src inst v).fe = s.fe := (perfAdd_posts s src inst v).fe
@[simp] theorem perfAdd_clk (s : State) (src inst v : Nat) : (perfAdd s src inst v).clk = s.clk := (perfAdd_posts s src inst v).clk
@[simp] theorem perfAdd_cal (s : State) (src inst v : Nat) : (perfAdd s src inst v).cal = s.cal := (perfAdd_posts s src inst v).cal
@[simp] theorem perfAdd_spec (s : State) (src inst v : Nat) : (perfAdd s src inst v).spec = s.spec := (perfAdd_posts s src inst v).spec
@[simp] theorem perfAdd_acq (s : State) (src inst v : Nat) : (perfAdd s src inst v).acq = s.acq := (perfAdd_posts s src inst v).acq
@[simp] theorem perfAdd_disp (s : State) (src inst v : Nat) : (perfAdd s src inst v).disp = s.disp := (perfAdd_posts s src inst v).disp
@[simp] theorem perfAdd_mon (s : State) (src inst v : Nat) : (perfAdd s src inst v).mon = s.mon := (perfAdd_posts s src inst v).mon
@[simp] theorem perfAdd_tiu (s : State) (src inst v : Nat) : (perfAdd s src inst v).tiu = s.tiu := (perfAdd_posts s src inst v).tiu
@[simp] theorem perfAdd_grove (s : State) (src inst v : Nat) : (perfAdd s src inst v).grove = s.grove := (perfAdd_posts s src inst v).grove
@[simp] theorem perfAdd_mem (s : State) (src inst v : Nat) : (perfAdd s src inst v).mem = s.mem := (perfAdd_posts s src inst v).mem
@[simp] theorem perfAdd_move (s : State) (src inst v : Nat) : (perfAdd s src inst v).move = s.move := (perfAdd_posts s src inst v).move
@[simp] theorem perfAdd_aux (s : State) (src inst v : Nat) : (perfAdd s src inst v).aux = s.aux := (perfAdd_posts s src inst v).aux
@[simp] theorem perfAdd_ctl (s : State) (src inst v : Nat) : (perfAdd s src inst v).ctl = s.ctl := (perfAdd_posts s src inst v).ctl
@[simp] theorem perfAdd_flt (s : State) (src inst v : Nat) : (perfAdd s src inst v).flt = s.flt := (perfAdd_posts s src inst v).flt
@[simp] theorem perfAdd_sec (s : State) (src inst v : Nat) : (perfAdd s src inst v).sec = s.sec := (perfAdd_posts s src inst v).sec
@[simp] theorem perfAdd_pwr (s : State) (src inst v : Nat) : (perfAdd s src inst v).pwr = s.pwr := (perfAdd_posts s src inst v).pwr

@[simp] theorem flushEvents_pending (s : State) (T : Tick) : (flushEvents s T).pending = s.pending := (flushEvents_posts s T).pending
@[simp] theorem flushEvents_now (s : State) (T : Tick) : (flushEvents s T).now = s.now := (flushEvents_posts s T).now
@[simp] theorem flushEvents_freeNo (s : State) (T : Tick) : (flushEvents s T).freeNo = s.freeNo := (flushEvents_posts s T).freeNo
@[simp] theorem flushEvents_fe (s : State) (T : Tick) : (flushEvents s T).fe = s.fe := (flushEvents_posts s T).fe
@[simp] theorem flushEvents_clk (s : State) (T : Tick) : (flushEvents s T).clk = s.clk := (flushEvents_posts s T).clk
@[simp] theorem flushEvents_cal (s : State) (T : Tick) : (flushEvents s T).cal = s.cal := (flushEvents_posts s T).cal
@[simp] theorem flushEvents_spec (s : State) (T : Tick) : (flushEvents s T).spec = s.spec := (flushEvents_posts s T).spec
@[simp] theorem flushEvents_acq (s : State) (T : Tick) : (flushEvents s T).acq = s.acq := (flushEvents_posts s T).acq
@[simp] theorem flushEvents_disp (s : State) (T : Tick) : (flushEvents s T).disp = s.disp := (flushEvents_posts s T).disp
@[simp] theorem flushEvents_mon (s : State) (T : Tick) : (flushEvents s T).mon = s.mon := (flushEvents_posts s T).mon
@[simp] theorem flushEvents_tiu (s : State) (T : Tick) : (flushEvents s T).tiu = s.tiu := (flushEvents_posts s T).tiu
@[simp] theorem flushEvents_grove (s : State) (T : Tick) : (flushEvents s T).grove = s.grove := (flushEvents_posts s T).grove
@[simp] theorem flushEvents_mem (s : State) (T : Tick) : (flushEvents s T).mem = s.mem := (flushEvents_posts s T).mem
@[simp] theorem flushEvents_move (s : State) (T : Tick) : (flushEvents s T).move = s.move := (flushEvents_posts s T).move
@[simp] theorem flushEvents_aux (s : State) (T : Tick) : (flushEvents s T).aux = s.aux := (flushEvents_posts s T).aux
@[simp] theorem flushEvents_ctl (s : State) (T : Tick) : (flushEvents s T).ctl = s.ctl := (flushEvents_posts s T).ctl
@[simp] theorem flushEvents_flt (s : State) (T : Tick) : (flushEvents s T).flt = s.flt := (flushEvents_posts s T).flt
@[simp] theorem flushEvents_sec (s : State) (T : Tick) : (flushEvents s T).sec = s.sec := (flushEvents_posts s T).sec
@[simp] theorem flushEvents_pwr (s : State) (T : Tick) : (flushEvents s T).pwr = s.pwr := (flushEvents_posts s T).pwr

@[simp] theorem cqSignal_pending (s : State) (n : Nat) : (cqSignal s n).pending = s.pending := (cqSignal_posts s n).pending
@[simp] theorem cqSignal_now (s : State) (n : Nat) : (cqSignal s n).now = s.now := (cqSignal_posts s n).now
@[simp] theorem cqSignal_freeNo (s : State) (n : Nat) : (cqSignal s n).freeNo = s.freeNo := (cqSignal_posts s n).freeNo
@[simp] theorem cqSignal_fe (s : State) (n : Nat) : (cqSignal s n).fe = s.fe := (cqSignal_posts s n).fe
@[simp] theorem cqSignal_clk (s : State) (n : Nat) : (cqSignal s n).clk = s.clk := (cqSignal_posts s n).clk
@[simp] theorem cqSignal_cal (s : State) (n : Nat) : (cqSignal s n).cal = s.cal := (cqSignal_posts s n).cal
@[simp] theorem cqSignal_spec (s : State) (n : Nat) : (cqSignal s n).spec = s.spec := (cqSignal_posts s n).spec
@[simp] theorem cqSignal_acq (s : State) (n : Nat) : (cqSignal s n).acq = s.acq := (cqSignal_posts s n).acq
@[simp] theorem cqSignal_disp (s : State) (n : Nat) : (cqSignal s n).disp = s.disp := (cqSignal_posts s n).disp
@[simp] theorem cqSignal_mon (s : State) (n : Nat) : (cqSignal s n).mon = s.mon := (cqSignal_posts s n).mon
@[simp] theorem cqSignal_tiu (s : State) (n : Nat) : (cqSignal s n).tiu = s.tiu := (cqSignal_posts s n).tiu
@[simp] theorem cqSignal_grove (s : State) (n : Nat) : (cqSignal s n).grove = s.grove := (cqSignal_posts s n).grove
@[simp] theorem cqSignal_mem (s : State) (n : Nat) : (cqSignal s n).mem = s.mem := (cqSignal_posts s n).mem
@[simp] theorem cqSignal_move (s : State) (n : Nat) : (cqSignal s n).move = s.move := (cqSignal_posts s n).move
@[simp] theorem cqSignal_aux (s : State) (n : Nat) : (cqSignal s n).aux = s.aux := (cqSignal_posts s n).aux
@[simp] theorem cqSignal_ctl (s : State) (n : Nat) : (cqSignal s n).ctl = s.ctl := (cqSignal_posts s n).ctl
@[simp] theorem cqSignal_flt (s : State) (n : Nat) : (cqSignal s n).flt = s.flt := (cqSignal_posts s n).flt
@[simp] theorem cqSignal_sec (s : State) (n : Nat) : (cqSignal s n).sec = s.sec := (cqSignal_posts s n).sec
@[simp] theorem cqSignal_pwr (s : State) (n : Nat) : (cqSignal s n).pwr = s.pwr := (cqSignal_posts s n).pwr

@[simp] theorem cqWrite_pending (s : State) (n : Nat) (c : Completion) : (cqWrite s n c).pending = s.pending := (cqWrite_posts s n c).pending
@[simp] theorem cqWrite_now (s : State) (n : Nat) (c : Completion) : (cqWrite s n c).now = s.now := (cqWrite_posts s n c).now
@[simp] theorem cqWrite_freeNo (s : State) (n : Nat) (c : Completion) : (cqWrite s n c).freeNo = s.freeNo := (cqWrite_posts s n c).freeNo
@[simp] theorem cqWrite_fe (s : State) (n : Nat) (c : Completion) : (cqWrite s n c).fe = s.fe := (cqWrite_posts s n c).fe
@[simp] theorem cqWrite_clk (s : State) (n : Nat) (c : Completion) : (cqWrite s n c).clk = s.clk := (cqWrite_posts s n c).clk
@[simp] theorem cqWrite_cal (s : State) (n : Nat) (c : Completion) : (cqWrite s n c).cal = s.cal := (cqWrite_posts s n c).cal
@[simp] theorem cqWrite_spec (s : State) (n : Nat) (c : Completion) : (cqWrite s n c).spec = s.spec := (cqWrite_posts s n c).spec
@[simp] theorem cqWrite_acq (s : State) (n : Nat) (c : Completion) : (cqWrite s n c).acq = s.acq := (cqWrite_posts s n c).acq
@[simp] theorem cqWrite_disp (s : State) (n : Nat) (c : Completion) : (cqWrite s n c).disp = s.disp := (cqWrite_posts s n c).disp
@[simp] theorem cqWrite_mon (s : State) (n : Nat) (c : Completion) : (cqWrite s n c).mon = s.mon := (cqWrite_posts s n c).mon
@[simp] theorem cqWrite_tiu (s : State) (n : Nat) (c : Completion) : (cqWrite s n c).tiu = s.tiu := (cqWrite_posts s n c).tiu
@[simp] theorem cqWrite_grove (s : State) (n : Nat) (c : Completion) : (cqWrite s n c).grove = s.grove := (cqWrite_posts s n c).grove
@[simp] theorem cqWrite_mem (s : State) (n : Nat) (c : Completion) : (cqWrite s n c).mem = s.mem := (cqWrite_posts s n c).mem
@[simp] theorem cqWrite_move (s : State) (n : Nat) (c : Completion) : (cqWrite s n c).move = s.move := (cqWrite_posts s n c).move
@[simp] theorem cqWrite_aux (s : State) (n : Nat) (c : Completion) : (cqWrite s n c).aux = s.aux := (cqWrite_posts s n c).aux
@[simp] theorem cqWrite_ctl (s : State) (n : Nat) (c : Completion) : (cqWrite s n c).ctl = s.ctl := (cqWrite_posts s n c).ctl
@[simp] theorem cqWrite_flt (s : State) (n : Nat) (c : Completion) : (cqWrite s n c).flt = s.flt := (cqWrite_posts s n c).flt
@[simp] theorem cqWrite_sec (s : State) (n : Nat) (c : Completion) : (cqWrite s n c).sec = s.sec := (cqWrite_posts s n c).sec
@[simp] theorem cqWrite_pwr (s : State) (n : Nat) (c : Completion) : (cqWrite s n c).pwr = s.pwr := (cqWrite_posts s n c).pwr

@[simp] theorem complete_pending (s : State) (n : Nat) (c : Completion) : (complete s n c).pending = s.pending := (complete_quiet s n c).pending
@[simp] theorem complete_now (s : State) (n : Nat) (c : Completion) : (complete s n c).now = s.now := (complete_quiet s n c).now
@[simp] theorem complete_freeNo (s : State) (n : Nat) (c : Completion) : (complete s n c).freeNo = s.freeNo := (complete_quiet s n c).freeNo
@[simp] theorem complete_fe (s : State) (n : Nat) (c : Completion) : (complete s n c).fe = s.fe := (complete_quiet s n c).fe
@[simp] theorem complete_clk (s : State) (n : Nat) (c : Completion) : (complete s n c).clk = s.clk := (complete_quiet s n c).clk
@[simp] theorem complete_cal (s : State) (n : Nat) (c : Completion) : (complete s n c).cal = s.cal := (complete_quiet s n c).cal
@[simp] theorem complete_spec (s : State) (n : Nat) (c : Completion) : (complete s n c).spec = s.spec := (complete_quiet s n c).spec
@[simp] theorem complete_acq (s : State) (n : Nat) (c : Completion) : (complete s n c).acq = s.acq := (complete_quiet s n c).acq
@[simp] theorem complete_disp (s : State) (n : Nat) (c : Completion) : (complete s n c).disp = s.disp := (complete_quiet s n c).disp
@[simp] theorem complete_mon (s : State) (n : Nat) (c : Completion) : (complete s n c).mon = s.mon := (complete_quiet s n c).mon
@[simp] theorem complete_tiu (s : State) (n : Nat) (c : Completion) : (complete s n c).tiu = s.tiu := (complete_quiet s n c).tiu
@[simp] theorem complete_grove (s : State) (n : Nat) (c : Completion) : (complete s n c).grove = s.grove := (complete_quiet s n c).grove
@[simp] theorem complete_mem (s : State) (n : Nat) (c : Completion) : (complete s n c).mem = s.mem := (complete_quiet s n c).mem
@[simp] theorem complete_move (s : State) (n : Nat) (c : Completion) : (complete s n c).move = s.move := (complete_quiet s n c).move
@[simp] theorem complete_aux (s : State) (n : Nat) (c : Completion) : (complete s n c).aux = s.aux := (complete_quiet s n c).aux
@[simp] theorem complete_ctl (s : State) (n : Nat) (c : Completion) : (complete s n c).ctl = s.ctl := (complete_quiet s n c).ctl
@[simp] theorem complete_flt (s : State) (n : Nat) (c : Completion) : (complete s n c).flt = s.flt := (complete_quiet s n c).flt
@[simp] theorem complete_sec (s : State) (n : Nat) (c : Completion) : (complete s n c).sec = s.sec := (complete_quiet s n c).sec
@[simp] theorem complete_pwr (s : State) (n : Nat) (c : Completion) : (complete s n c).pwr = s.pwr := (complete_quiet s n c).pwr

@[simp] theorem finish_pending (s : State) (p : InProg) (st rl r : Nat) : (finish s p st rl r).pending = s.pending := (finish_quiet s p st rl r).pending
@[simp] theorem finish_now (s : State) (p : InProg) (st rl r : Nat) : (finish s p st rl r).now = s.now := (finish_quiet s p st rl r).now
@[simp] theorem finish_freeNo (s : State) (p : InProg) (st rl r : Nat) : (finish s p st rl r).freeNo = s.freeNo := (finish_quiet s p st rl r).freeNo
@[simp] theorem finish_fe (s : State) (p : InProg) (st rl r : Nat) : (finish s p st rl r).fe = s.fe := (finish_quiet s p st rl r).fe
@[simp] theorem finish_clk (s : State) (p : InProg) (st rl r : Nat) : (finish s p st rl r).clk = s.clk := (finish_quiet s p st rl r).clk
@[simp] theorem finish_cal (s : State) (p : InProg) (st rl r : Nat) : (finish s p st rl r).cal = s.cal := (finish_quiet s p st rl r).cal
@[simp] theorem finish_spec (s : State) (p : InProg) (st rl r : Nat) : (finish s p st rl r).spec = s.spec := (finish_quiet s p st rl r).spec
@[simp] theorem finish_acq (s : State) (p : InProg) (st rl r : Nat) : (finish s p st rl r).acq = s.acq := (finish_quiet s p st rl r).acq
@[simp] theorem finish_disp (s : State) (p : InProg) (st rl r : Nat) : (finish s p st rl r).disp = s.disp := (finish_quiet s p st rl r).disp
@[simp] theorem finish_mon (s : State) (p : InProg) (st rl r : Nat) : (finish s p st rl r).mon = s.mon := (finish_quiet s p st rl r).mon
@[simp] theorem finish_tiu (s : State) (p : InProg) (st rl r : Nat) : (finish s p st rl r).tiu = s.tiu := (finish_quiet s p st rl r).tiu
@[simp] theorem finish_grove (s : State) (p : InProg) (st rl r : Nat) : (finish s p st rl r).grove = s.grove := (finish_quiet s p st rl r).grove
@[simp] theorem finish_mem (s : State) (p : InProg) (st rl r : Nat) : (finish s p st rl r).mem = s.mem := (finish_quiet s p st rl r).mem
@[simp] theorem finish_move (s : State) (p : InProg) (st rl r : Nat) : (finish s p st rl r).move = s.move := (finish_quiet s p st rl r).move
@[simp] theorem finish_aux (s : State) (p : InProg) (st rl r : Nat) : (finish s p st rl r).aux = s.aux := (finish_quiet s p st rl r).aux
@[simp] theorem finish_ctl (s : State) (p : InProg) (st rl r : Nat) : (finish s p st rl r).ctl = s.ctl := (finish_quiet s p st rl r).ctl
@[simp] theorem finish_flt (s : State) (p : InProg) (st rl r : Nat) : (finish s p st rl r).flt = s.flt := (finish_quiet s p st rl r).flt
@[simp] theorem finish_sec (s : State) (p : InProg) (st rl r : Nat) : (finish s p st rl r).sec = s.sec := (finish_quiet s p st rl r).sec
@[simp] theorem finish_pwr (s : State) (p : InProg) (st rl r : Nat) : (finish s p st rl r).pwr = s.pwr := (finish_quiet s p st rl r).pwr

@[simp] theorem finishAll_pending (s : State) (op u st rl r : Nat) : (finishAll s op u st rl r).pending = s.pending := (finishAll_quiet s op u st rl r).pending
@[simp] theorem finishAll_now (s : State) (op u st rl r : Nat) : (finishAll s op u st rl r).now = s.now := (finishAll_quiet s op u st rl r).now
@[simp] theorem finishAll_freeNo (s : State) (op u st rl r : Nat) : (finishAll s op u st rl r).freeNo = s.freeNo := (finishAll_quiet s op u st rl r).freeNo
@[simp] theorem finishAll_fe (s : State) (op u st rl r : Nat) : (finishAll s op u st rl r).fe = s.fe := (finishAll_quiet s op u st rl r).fe
@[simp] theorem finishAll_clk (s : State) (op u st rl r : Nat) : (finishAll s op u st rl r).clk = s.clk := (finishAll_quiet s op u st rl r).clk
@[simp] theorem finishAll_cal (s : State) (op u st rl r : Nat) : (finishAll s op u st rl r).cal = s.cal := (finishAll_quiet s op u st rl r).cal
@[simp] theorem finishAll_spec (s : State) (op u st rl r : Nat) : (finishAll s op u st rl r).spec = s.spec := (finishAll_quiet s op u st rl r).spec
@[simp] theorem finishAll_acq (s : State) (op u st rl r : Nat) : (finishAll s op u st rl r).acq = s.acq := (finishAll_quiet s op u st rl r).acq
@[simp] theorem finishAll_disp (s : State) (op u st rl r : Nat) : (finishAll s op u st rl r).disp = s.disp := (finishAll_quiet s op u st rl r).disp
@[simp] theorem finishAll_mon (s : State) (op u st rl r : Nat) : (finishAll s op u st rl r).mon = s.mon := (finishAll_quiet s op u st rl r).mon
@[simp] theorem finishAll_tiu (s : State) (op u st rl r : Nat) : (finishAll s op u st rl r).tiu = s.tiu := (finishAll_quiet s op u st rl r).tiu
@[simp] theorem finishAll_grove (s : State) (op u st rl r : Nat) : (finishAll s op u st rl r).grove = s.grove := (finishAll_quiet s op u st rl r).grove
@[simp] theorem finishAll_mem (s : State) (op u st rl r : Nat) : (finishAll s op u st rl r).mem = s.mem := (finishAll_quiet s op u st rl r).mem
@[simp] theorem finishAll_move (s : State) (op u st rl r : Nat) : (finishAll s op u st rl r).move = s.move := (finishAll_quiet s op u st rl r).move
@[simp] theorem finishAll_aux (s : State) (op u st rl r : Nat) : (finishAll s op u st rl r).aux = s.aux := (finishAll_quiet s op u st rl r).aux
@[simp] theorem finishAll_ctl (s : State) (op u st rl r : Nat) : (finishAll s op u st rl r).ctl = s.ctl := (finishAll_quiet s op u st rl r).ctl
@[simp] theorem finishAll_flt (s : State) (op u st rl r : Nat) : (finishAll s op u st rl r).flt = s.flt := (finishAll_quiet s op u st rl r).flt
@[simp] theorem finishAll_sec (s : State) (op u st rl r : Nat) : (finishAll s op u st rl r).sec = s.sec := (finishAll_quiet s op u st rl r).sec
@[simp] theorem finishAll_pwr (s : State) (op u st rl r : Nat) : (finishAll s op u st rl r).pwr = s.pwr := (finishAll_quiet s op u st rl r).pwr

@[simp] theorem flushFront_pending (s : State) (n : Nat) : (flushFront s n).pending = s.pending := (flushFront_quiet s n).pending
@[simp] theorem flushFront_now (s : State) (n : Nat) : (flushFront s n).now = s.now := (flushFront_quiet s n).now
@[simp] theorem flushFront_freeNo (s : State) (n : Nat) : (flushFront s n).freeNo = s.freeNo := (flushFront_quiet s n).freeNo
@[simp] theorem flushFront_fe (s : State) (n : Nat) : (flushFront s n).fe = s.fe := (flushFront_quiet s n).fe
@[simp] theorem flushFront_clk (s : State) (n : Nat) : (flushFront s n).clk = s.clk := (flushFront_quiet s n).clk
@[simp] theorem flushFront_cal (s : State) (n : Nat) : (flushFront s n).cal = s.cal := (flushFront_quiet s n).cal
@[simp] theorem flushFront_spec (s : State) (n : Nat) : (flushFront s n).spec = s.spec := (flushFront_quiet s n).spec
@[simp] theorem flushFront_acq (s : State) (n : Nat) : (flushFront s n).acq = s.acq := (flushFront_quiet s n).acq
@[simp] theorem flushFront_disp (s : State) (n : Nat) : (flushFront s n).disp = s.disp := (flushFront_quiet s n).disp
@[simp] theorem flushFront_mon (s : State) (n : Nat) : (flushFront s n).mon = s.mon := (flushFront_quiet s n).mon
@[simp] theorem flushFront_tiu (s : State) (n : Nat) : (flushFront s n).tiu = s.tiu := (flushFront_quiet s n).tiu
@[simp] theorem flushFront_grove (s : State) (n : Nat) : (flushFront s n).grove = s.grove := (flushFront_quiet s n).grove
@[simp] theorem flushFront_mem (s : State) (n : Nat) : (flushFront s n).mem = s.mem := (flushFront_quiet s n).mem
@[simp] theorem flushFront_move (s : State) (n : Nat) : (flushFront s n).move = s.move := (flushFront_quiet s n).move
@[simp] theorem flushFront_aux (s : State) (n : Nat) : (flushFront s n).aux = s.aux := (flushFront_quiet s n).aux
@[simp] theorem flushFront_ctl (s : State) (n : Nat) : (flushFront s n).ctl = s.ctl := (flushFront_quiet s n).ctl
@[simp] theorem flushFront_flt (s : State) (n : Nat) : (flushFront s n).flt = s.flt := (flushFront_quiet s n).flt
@[simp] theorem flushFront_sec (s : State) (n : Nat) : (flushFront s n).sec = s.sec := (flushFront_quiet s n).sec
@[simp] theorem flushFront_pwr (s : State) (n : Nat) : (flushFront s n).pwr = s.pwr := (flushFront_quiet s n).pwr

@[simp] theorem sesPost_pending (s : State) (n ch ca : Nat) : (sesPost s n ch ca).pending = s.pending := (sesPost_posts s n ch ca).pending
@[simp] theorem sesPost_now (s : State) (n ch ca : Nat) : (sesPost s n ch ca).now = s.now := (sesPost_posts s n ch ca).now
@[simp] theorem sesPost_freeNo (s : State) (n ch ca : Nat) : (sesPost s n ch ca).freeNo = s.freeNo := (sesPost_posts s n ch ca).freeNo
@[simp] theorem sesPost_fe (s : State) (n ch ca : Nat) : (sesPost s n ch ca).fe = s.fe := (sesPost_posts s n ch ca).fe
@[simp] theorem sesPost_clk (s : State) (n ch ca : Nat) : (sesPost s n ch ca).clk = s.clk := (sesPost_posts s n ch ca).clk
@[simp] theorem sesPost_cal (s : State) (n ch ca : Nat) : (sesPost s n ch ca).cal = s.cal := (sesPost_posts s n ch ca).cal
@[simp] theorem sesPost_spec (s : State) (n ch ca : Nat) : (sesPost s n ch ca).spec = s.spec := (sesPost_posts s n ch ca).spec
@[simp] theorem sesPost_acq (s : State) (n ch ca : Nat) : (sesPost s n ch ca).acq = s.acq := (sesPost_posts s n ch ca).acq
@[simp] theorem sesPost_disp (s : State) (n ch ca : Nat) : (sesPost s n ch ca).disp = s.disp := (sesPost_posts s n ch ca).disp
@[simp] theorem sesPost_mon (s : State) (n ch ca : Nat) : (sesPost s n ch ca).mon = s.mon := (sesPost_posts s n ch ca).mon
@[simp] theorem sesPost_tiu (s : State) (n ch ca : Nat) : (sesPost s n ch ca).tiu = s.tiu := (sesPost_posts s n ch ca).tiu
@[simp] theorem sesPost_grove (s : State) (n ch ca : Nat) : (sesPost s n ch ca).grove = s.grove := (sesPost_posts s n ch ca).grove
@[simp] theorem sesPost_mem (s : State) (n ch ca : Nat) : (sesPost s n ch ca).mem = s.mem := (sesPost_posts s n ch ca).mem
@[simp] theorem sesPost_move (s : State) (n ch ca : Nat) : (sesPost s n ch ca).move = s.move := (sesPost_posts s n ch ca).move
@[simp] theorem sesPost_aux (s : State) (n ch ca : Nat) : (sesPost s n ch ca).aux = s.aux := (sesPost_posts s n ch ca).aux
@[simp] theorem sesPost_ctl (s : State) (n ch ca : Nat) : (sesPost s n ch ca).ctl = s.ctl := (sesPost_posts s n ch ca).ctl
@[simp] theorem sesPost_flt (s : State) (n ch ca : Nat) : (sesPost s n ch ca).flt = s.flt := (sesPost_posts s n ch ca).flt
@[simp] theorem sesPost_sec (s : State) (n ch ca : Nat) : (sesPost s n ch ca).sec = s.sec := (sesPost_posts s n ch ca).sec
@[simp] theorem sesPost_pwr (s : State) (n ch ca : Nat) : (sesPost s n ch ca).pwr = s.pwr := (sesPost_posts s n ch ca).pwr

@[simp] theorem advance_pending (s : State) (t : Tick) : (advance s t).pending = s.pending := (advance_posts s t).pending
@[simp] theorem advance_freeNo (s : State) (t : Tick) : (advance s t).freeNo = s.freeNo := (advance_posts s t).freeNo
@[simp] theorem advance_fe (s : State) (t : Tick) : (advance s t).fe = s.fe := (advance_posts s t).fe
@[simp] theorem advance_clk (s : State) (t : Tick) : (advance s t).clk = s.clk := (advance_posts s t).clk
@[simp] theorem advance_cal (s : State) (t : Tick) : (advance s t).cal = s.cal := (advance_posts s t).cal
@[simp] theorem advance_spec (s : State) (t : Tick) : (advance s t).spec = s.spec := (advance_posts s t).spec
@[simp] theorem advance_acq (s : State) (t : Tick) : (advance s t).acq = s.acq := (advance_posts s t).acq
@[simp] theorem advance_disp (s : State) (t : Tick) : (advance s t).disp = s.disp := (advance_posts s t).disp
@[simp] theorem advance_mon (s : State) (t : Tick) : (advance s t).mon = s.mon := (advance_posts s t).mon
@[simp] theorem advance_tiu (s : State) (t : Tick) : (advance s t).tiu = s.tiu := (advance_posts s t).tiu
@[simp] theorem advance_grove (s : State) (t : Tick) : (advance s t).grove = s.grove := (advance_posts s t).grove
@[simp] theorem advance_mem (s : State) (t : Tick) : (advance s t).mem = s.mem := (advance_posts s t).mem
@[simp] theorem advance_move (s : State) (t : Tick) : (advance s t).move = s.move := (advance_posts s t).move
@[simp] theorem advance_aux (s : State) (t : Tick) : (advance s t).aux = s.aux := (advance_posts s t).aux
@[simp] theorem advance_ctl (s : State) (t : Tick) : (advance s t).ctl = s.ctl := (advance_posts s t).ctl
@[simp] theorem advance_flt (s : State) (t : Tick) : (advance s t).flt = s.flt := (advance_posts s t).flt
@[simp] theorem advance_sec (s : State) (t : Tick) : (advance s t).sec = s.sec := (advance_posts s t).sec
@[simp] theorem advance_pwr (s : State) (t : Tick) : (advance s t).pwr = s.pwr := (advance_posts s t).pwr
@[simp] theorem advance_now (s : State) (t : Tick) : (advance s t).now = actsAt s t := (advance_posts s t).now

end Sys2Proof.Machine
end

