-- ==== Sys2Proof/Laws/Act.lean ====
section
/-! SUPPORT. The harness of a row and of a ZCI command: what stands between a meaning's own effect and the state that exec answers. -/

namespace Sys2Proof.Machine

/-! ## A row that acts -/

/-- The state that a row's own effect `f` leaves, before the events of the ticks that are over have gone. -/
def acted (s : State) (t : Tick) (f : State → State) : State :=
  { f (advance s t) with pending := s.pending, now := max (advance s t).now (f (advance s t)).now, freeNo := max s.freeNo (f (advance s t)).freeNo }

/-- The state that a row's own effect `f` leaves. -/
def settle (s : State) (t : Tick) (f : State → State) : State := flushEvents (acted s t f) (acted s t f).evTick

/-- An engine that is up acts. -/
theorem act_up {s : State} (h : s.pwr.down = false) (t : Tick) (f : State → State) : act t s f = .next (settle s t f) := by
  unfold act settle; rw [h]; rfl

/-- An engine that is down does not. -/
theorem act_down {s : State} (h : s.pwr.down = true) (t : Tick) (f : State → State) : act t s f = .next s := by
  unfold act; simp [h]

section
variable (s : State) (t : Tick) (f : State → State)

@[simp] theorem settle_pending : (settle s t f).pending = s.pending := (flushEvents_posts _ _).pending
theorem settle_now : (settle s t f).now = max (actsAt s t) (f (advance s t)).now := by
  rw [← advance_now s t]; exact (flushEvents_posts _ _).now
theorem settle_freeNo : (settle s t f).freeNo = max s.freeNo (f (advance s t)).freeNo := (flushEvents_posts _ _).freeNo
theorem settle_host : HostEvents (f (advance s t)).host (settle s t f).host := (flushEvents_posts (acted s t f) _).host
theorem settle_perf : PerfCounts (f (advance s t)).perf (settle s t f).perf := (flushEvents_posts (acted s t f) _).perf
theorem settle_cplWait : (settle s t f).host.cplWait = (f (advance s t)).host.cplWait := (flushEvents_emits (acted s t f) _).2
@[simp] theorem settle_fe : (settle s t f).fe = (f (advance s t)).fe := (flushEvents_posts (acted s t f) _).fe
@[simp] theorem settle_clk : (settle s t f).clk = (f (advance s t)).clk := (flushEvents_posts (acted s t f) _).clk
@[simp] theorem settle_cal : (settle s t f).cal = (f (advance s t)).cal := (flushEvents_posts (acted s t f) _).cal
@[simp] theorem settle_spec : (settle s t f).spec = (f (advance s t)).spec := (flushEvents_posts (acted s t f) _).spec
@[simp] theorem settle_acq : (settle s t f).acq = (f (advance s t)).acq := (flushEvents_posts (acted s t f) _).acq
@[simp] theorem settle_disp : (settle s t f).disp = (f (advance s t)).disp := (flushEvents_posts (acted s t f) _).disp
@[simp] theorem settle_mon : (settle s t f).mon = (f (advance s t)).mon := (flushEvents_posts (acted s t f) _).mon
@[simp] theorem settle_tiu : (settle s t f).tiu = (f (advance s t)).tiu := (flushEvents_posts (acted s t f) _).tiu
@[simp] theorem settle_grove : (settle s t f).grove = (f (advance s t)).grove := (flushEvents_posts (acted s t f) _).grove
@[simp] theorem settle_mem : (settle s t f).mem = (f (advance s t)).mem := (flushEvents_posts (acted s t f) _).mem
@[simp] theorem settle_move : (settle s t f).move = (f (advance s t)).move := (flushEvents_posts (acted s t f) _).move
@[simp] theorem settle_aux : (settle s t f).aux = (f (advance s t)).aux := (flushEvents_posts (acted s t f) _).aux
@[simp] theorem settle_ctl : (settle s t f).ctl = (f (advance s t)).ctl := (flushEvents_posts (acted s t f) _).ctl
@[simp] theorem settle_flt : (settle s t f).flt = (f (advance s t)).flt := (flushEvents_posts (acted s t f) _).flt
@[simp] theorem settle_sec : (settle s t f).sec = (f (advance s t)).sec := (flushEvents_posts (acted s t f) _).sec
@[simp] theorem settle_pwr : (settle s t f).pwr = (f (advance s t)).pwr := (flushEvents_posts (acted s t f) _).pwr
end

/-- What the row leaves follows what its effect leaves. -/
theorem follows_settle' (s : State) (t : Tick) (f : State → State) : Follows (f (advance s t)) (settle s t f) := by
  refine ⟨?_, ?_, ?_⟩
  · rw [settle_now]; exact Nat.le_max_right _ _
  · rw [settle_freeNo]; exact Nat.le_max_right _ _
  · have h : ({ f (advance s t) with pending := (settle s t f).pending, now := (settle s t f).now, freeNo := (settle s t f).freeNo } : State) =
        acted s t f := by
      rw [settle_pending, settle_now, settle_freeNo, ← advance_now s t]; rfl
    have he : (settle s t f).evTick = (acted s t f).evTick := by
      unfold State.evTick; rw [settle_clk, settle_now, ← advance_now s t]; rfl
    rw [h, he]; rfl

/-- The host interface after time has passed: only the event ring. -/
theorem advance_host (s : State) (t : Tick) : HostEvents s.host (advance s t).host := (advance_posts s t).host

/-! What flushing the event queue leaves. -/

@[simp] theorem flushAll_pending (s : State) : (flushAll s).pending = s.pending := (flushAll_posts s).pending
@[simp] theorem flushAll_now (s : State) : (flushAll s).now = s.now := (flushAll_posts s).now
@[simp] theorem flushAll_freeNo (s : State) : (flushAll s).freeNo = s.freeNo := (flushAll_posts s).freeNo
@[simp] theorem flushAll_fe (s : State) : (flushAll s).fe = s.fe := (flushAll_posts s).fe
@[simp] theorem flushAll_clk (s : State) : (flushAll s).clk = s.clk := (flushAll_posts s).clk
@[simp] theorem flushAll_cal (s : State) : (flushAll s).cal = s.cal := (flushAll_posts s).cal
@[simp] theorem flushAll_spec (s : State) : (flushAll s).spec = s.spec := (flushAll_posts s).spec
@[simp] theorem flushAll_acq (s : State) : (flushAll s).acq = s.acq := (flushAll_posts s).acq
@[simp] theorem flushAll_disp (s : State) : (flushAll s).disp = s.disp := (flushAll_posts s).disp
@[simp] theorem flushAll_mon (s : State) : (flushAll s).mon = s.mon := (flushAll_posts s).mon
@[simp] theorem flushAll_tiu (s : State) : (flushAll s).tiu = s.tiu := (flushAll_posts s).tiu
@[simp] theorem flushAll_grove (s : State) : (flushAll s).grove = s.grove := (flushAll_posts s).grove
@[simp] theorem flushAll_mem (s : State) : (flushAll s).mem = s.mem := (flushAll_posts s).mem
@[simp] theorem flushAll_move (s : State) : (flushAll s).move = s.move := (flushAll_posts s).move
@[simp] theorem flushAll_aux (s : State) : (flushAll s).aux = s.aux := (flushAll_posts s).aux
@[simp] theorem flushAll_ctl (s : State) : (flushAll s).ctl = s.ctl := (flushAll_posts s).ctl
@[simp] theorem flushAll_flt (s : State) : (flushAll s).flt = s.flt := (flushAll_posts s).flt
@[simp] theorem flushAll_sec (s : State) : (flushAll s).sec = s.sec := (flushAll_posts s).sec
@[simp] theorem flushAll_pwr (s : State) : (flushAll s).pwr = s.pwr := (flushAll_posts s).pwr

theorem SameSessions.refl (h : HostIf) : SameSessions h h := ⟨rfl, rfl⟩

theorem SameSessions.trans {h g k : HostIf} (a : SameSessions h g) (b : SameSessions g k) : SameSessions h k :=
  ⟨b.1.trans a.1, b.2.trans a.2⟩

theorem SameCommands.refl (h : HostIf) : SameCommands h h := ⟨List.Sublist.refl _, rfl⟩

theorem SameCommands.trans {h g k : HostIf} (a : SameCommands h g) (b : SameCommands g k) : SameCommands h k :=
  ⟨b.1.trans a.1, b.2.trans a.2⟩

theorem SameHostRest.refl (h : HostIf) : SameHostRest h h := rfl

theorem SameHostRest.trans {h g k : HostIf} (a : SameHostRest h g) (b : SameHostRest g k) : SameHostRest h k := by
  cases h; cases g; cases k
  simp only [SameHostRest, RingsOnly, HostIf.mk.injEq, true_and] at a b ⊢
  simp_all

/-- Events leave the sessions alone. -/
theorem HostEvents.same {h g : HostIf} (a : HostEvents h g) : SameSessions h g := by
  obtain ⟨a, b⟩ := a
  exact ⟨by rw [a], by rw [a]⟩

/-- Events start and end no command. -/
theorem HostEvents.cmds {h g : HostIf} (a : HostEvents h g) : SameCommands h g := by
  obtain ⟨a, b⟩ := a
  exact ⟨b, by rw [a]⟩

/-- Events leave the rest of the host interface alone. -/
theorem HostEvents.rest {h g : HostIf} (a : HostEvents h g) : SameHostRest h g := by
  replace a := a.1
  cases h; cases g
  simp only [SameHostRest, RingsOnly, HostIf.mk.injEq, true_and] at a ⊢
  simp_all

/-- Where neither changes, only the event ring does. -/
theorem HostEvents.ofSame {h g : HostIf} (a : SameSessions h g) (c : SameCommands h g) (b : SameHostRest h g) : HostEvents h g := by
  cases h; cases g
  simp only [SameSessions, SameCommands, SameHostRest, HostEvents, RingsOnly, HostIf.mk.injEq, true_and] at a b c ⊢
  simp_all

/-- The frame of a row whose effect leaves a part alone (`SameParts`), from the frame of the effect. -/
theorem kept_settle {l : List Part} {s : State} {t : Tick} {f : State → State}
    (h : Kept l (advance s t) (f (advance s t))) : Kept l s (settle s t f) := by
  obtain ⟨⟨hp, h⟩, hs, hm, hh, hc⟩ := h
  refine ⟨⟨settle_pending s t f, ?_⟩, ?_, ?_, ?_, ?_⟩
  · simpa using h
  · exact hs.imp_right fun a => ((advance_host s t).same.trans a).trans (settle_host s t f).same
  · exact hm.imp_right fun a => ((advance_host s t).cmds.trans a).trans (settle_host s t f).cmds
  · exact hh.imp_right fun a => ((advance_host s t).rest.trans a).trans (settle_host s t f).rest
  · exact hc.imp_right fun a => ((advance_posts s t).perf.trans a).trans (settle_perf s t f)

/-- Frames compose. -/
theorem SameParts.refl (l : List Part) (s : State) : SameParts l s s := by simp [SameParts]

theorem SameParts.trans {l : List Part} {s t u : State} (h : SameParts l s t) (g : SameParts l t u) : SameParts l s u := by
  unfold SameParts at *
  refine ⟨g.1.trans h.1, ?_⟩
  have h := h.2
  have g := g.2
  refine ⟨(h.1).elim .inl fun a => (g.1).elim .inl fun b => .inr (b.trans a),
    (h.2.1).elim .inl fun a => (g.2.1).elim .inl fun b => .inr (b.trans a),
    (h.2.2.1).elim .inl fun a => (g.2.2.1).elim .inl fun b => .inr (b.trans a),
    (h.2.2.2.1).elim .inl fun a => (g.2.2.2.1).elim .inl fun b => .inr (b.trans a),
    (h.2.2.2.2.1).elim .inl fun a => (g.2.2.2.2.1).elim .inl fun b => .inr (b.trans a),
    (h.2.2.2.2.2.1).elim .inl fun a => (g.2.2.2.2.2.1).elim .inl fun b => .inr (b.trans a),
    (h.2.2.2.2.2.2.1).elim .inl fun a => (g.2.2.2.2.2.2.1).elim .inl fun b => .inr (b.trans a),
    (h.2.2.2.2.2.2.2.1).elim .inl fun a => (g.2.2.2.2.2.2.2.1).elim .inl fun b => .inr (b.trans a),
    (h.2.2.2.2.2.2.2.2.1).elim .inl fun a => (g.2.2.2.2.2.2.2.2.1).elim .inl fun b => .inr (b.trans a),
    (h.2.2.2.2.2.2.2.2.2.1).elim .inl fun a => (g.2.2.2.2.2.2.2.2.2.1).elim .inl fun b => .inr (b.trans a),
    (h.2.2.2.2.2.2.2.2.2.2.1).elim .inl fun a => (g.2.2.2.2.2.2.2.2.2.2.1).elim .inl fun b => .inr (b.trans a),
    (h.2.2.2.2.2.2.2.2.2.2.2.1).elim .inl fun a => (g.2.2.2.2.2.2.2.2.2.2.2.1).elim .inl fun b => .inr (b.trans a),
    (h.2.2.2.2.2.2.2.2.2.2.2.2.1).elim .inl fun a => (g.2.2.2.2.2.2.2.2.2.2.2.2.1).elim .inl fun b => .inr (b.trans a),
    (h.2.2.2.2.2.2.2.2.2.2.2.2.2.1).elim .inl fun a => (g.2.2.2.2.2.2.2.2.2.2.2.2.2.1).elim .inl fun b => .inr (b.trans a),
    (h.2.2.2.2.2.2.2.2.2.2.2.2.2.2.1).elim .inl fun a => (g.2.2.2.2.2.2.2.2.2.2.2.2.2.2.1).elim .inl fun b => .inr (b.trans a),
    (h.2.2.2.2.2.2.2.2.2.2.2.2.2.2.2).elim .inl fun a => (g.2.2.2.2.2.2.2.2.2.2.2.2.2.2.2).elim .inl fun b => .inr (b.trans a)⟩

theorem Kept.refl (l : List Part) (s : State) : Kept l s s := ⟨SameParts.refl l s, .inr (.refl _), .inr (.refl _), .inr (.refl _), .inr (.refl _)⟩

theorem Kept.trans {l : List Part} {s t u : State} (h : Kept l s t) (g : Kept l t u) : Kept l s u :=
  ⟨h.1.trans g.1, h.2.1.elim .inl fun a => g.2.1.elim .inl fun b => .inr (a.trans b), h.2.2.1.elim .inl fun a => g.2.2.1.elim .inl fun b => .inr (a.trans b),
   h.2.2.2.1.elim .inl fun a => g.2.2.2.1.elim .inl fun b => .inr (a.trans b),
   h.2.2.2.2.elim .inl fun a => g.2.2.2.2.elim .inl fun b => .inr (a.trans b)⟩

theorem Quiet.same {s t : State} (l : List Part) (h : Quiet s t) : SameParts l s t := by
  simp [SameParts, h.pending, h.fe, h.clk, h.cal, h.spec, h.acq, h.disp, h.mon, h.tiu, h.grove, h.mem, h.move, h.aux, h.ctl, h.flt, h.sec, h.pwr]

theorem Posts.kept {s t : State} (l : List Part) (h : Posts s t) : Kept l s t := ⟨h.toQuiet.same l, .inr h.host.same, .inr h.host.cmds, .inr h.host.rest, .inr h.perf⟩

/-- What follows a row's own effect leaves every part of the engine as it is. -/
theorem Follows.parts {x u : State} (h : Follows x u) : SameParts [] { x with pending := u.pending } u := by
  have p := (flushEvents_posts { x with pending := u.pending, now := u.now, freeNo := u.freeNo } u.evTick).toQuiet.same []
  rw [← h.2.2] at p
  exact p

theorem SameParts.foldl {β : Type} {l : List Part} (f : State → β → State) (h : ∀ a x, SameParts l a (f a x)) (xs : List β) (s : State) :
    SameParts l s (xs.foldl f s) := by
  induction xs generalizing s with
  | nil => exact SameParts.refl l s
  | cons x r ih => exact (h s x).trans (ih _)

theorem Kept.foldl {β : Type} {l : List Part} (f : State → β → State) (h : ∀ a x, Kept l a (f a x)) (xs : List β) (s : State) :
    Kept l s (xs.foldl f s) := by
  induction xs generalizing s with
  | nil => exact Kept.refl l s
  | cons x r ih => exact (h s x).trans (ih _)

theorem Kept.ite {l : List Part} {c : Prop} [Decidable c] {s a b : State} (h : c → Kept l s a) (g : ¬c → Kept l s b) :
    Kept l s (if c then a else b) := by
  split <;> simp_all

/-- What a row leaves of the state `x` that its own effect answered. -/
structure Done (s : State) (t : Tick) (x u : State) : Prop where
  pending : u.pending = s.pending
  parts   : SameParts [] { x with pending := s.pending } u
  host    : HostEvents x.host u.host
  now     : u.now = max (actsAt s t) x.now
  freeNo  : u.freeNo = max s.freeNo x.freeNo
  perf    : PerfCounts x.perf u.perf
  follows : Follows x u

/-- A row of an engine that is up. -/
theorem act_row {s : State} (h : s.pwr.down = false) (t : Tick) (f : State → State) :
    ∃ u, act t s f = .next u ∧ Done s t (f (advance s t)) u :=
  ⟨_, act_up h t f, settle_pending s t f, by simp [SameParts], settle_host s t f, settle_now s t f, settle_freeNo s t f, settle_perf s t f, follows_settle' s t f⟩

theorem Done.fe {s x u : State} {t : Tick} (h : Done s t x u) : u.fe = x.fe := by have := h.parts; simp only [SameParts, List.not_mem_nil, false_or] at this; simp [this]
theorem Done.clk {s x u : State} {t : Tick} (h : Done s t x u) : u.clk = x.clk := by have := h.parts; simp only [SameParts, List.not_mem_nil, false_or] at this; simp [this]
theorem Done.cal {s x u : State} {t : Tick} (h : Done s t x u) : u.cal = x.cal := by have := h.parts; simp only [SameParts, List.not_mem_nil, false_or] at this; simp [this]
theorem Done.spec {s x u : State} {t : Tick} (h : Done s t x u) : u.spec = x.spec := by have := h.parts; simp only [SameParts, List.not_mem_nil, false_or] at this; simp [this]
theorem Done.acq {s x u : State} {t : Tick} (h : Done s t x u) : u.acq = x.acq := by have := h.parts; simp only [SameParts, List.not_mem_nil, false_or] at this; simp [this]
theorem Done.disp {s x u : State} {t : Tick} (h : Done s t x u) : u.disp = x.disp := by have := h.parts; simp only [SameParts, List.not_mem_nil, false_or] at this; simp [this]
theorem Done.mon {s x u : State} {t : Tick} (h : Done s t x u) : u.mon = x.mon := by have := h.parts; simp only [SameParts, List.not_mem_nil, false_or] at this; simp [this]
theorem Done.tiu {s x u : State} {t : Tick} (h : Done s t x u) : u.tiu = x.tiu := by have := h.parts; simp only [SameParts, List.not_mem_nil, false_or] at this; simp [this]
theorem Done.grove {s x u : State} {t : Tick} (h : Done s t x u) : u.grove = x.grove := by have := h.parts; simp only [SameParts, List.not_mem_nil, false_or] at this; simp [this]
theorem Done.mem {s x u : State} {t : Tick} (h : Done s t x u) : u.mem = x.mem := by have := h.parts; simp only [SameParts, List.not_mem_nil, false_or] at this; simp [this]
theorem Done.move {s x u : State} {t : Tick} (h : Done s t x u) : u.move = x.move := by have := h.parts; simp only [SameParts, List.not_mem_nil, false_or] at this; simp [this]
theorem Done.aux {s x u : State} {t : Tick} (h : Done s t x u) : u.aux = x.aux := by have := h.parts; simp only [SameParts, List.not_mem_nil, false_or] at this; simp [this]
theorem Done.ctl {s x u : State} {t : Tick} (h : Done s t x u) : u.ctl = x.ctl := by have := h.parts; simp only [SameParts, List.not_mem_nil, false_or] at this; simp [this]
theorem Done.flt {s x u : State} {t : Tick} (h : Done s t x u) : u.flt = x.flt := by have := h.parts; simp only [SameParts, List.not_mem_nil, false_or] at this; simp [this]
theorem Done.sec {s x u : State} {t : Tick} (h : Done s t x u) : u.sec = x.sec := by have := h.parts; simp only [SameParts, List.not_mem_nil, false_or] at this; simp [this]
theorem Done.pwr {s x u : State} {t : Tick} (h : Done s t x u) : u.pwr = x.pwr := by have := h.parts; simp only [SameParts, List.not_mem_nil, false_or] at this; simp [this]

/-- The frame of a row from the frame of its effect. -/
theorem Done.kept {s x u : State} {t : Tick} {l : List Part} (h : Done s t x u) (hk : Kept l (advance s t) x) : Kept l s u := by
  obtain ⟨hs, hc, hm, hh, hp⟩ := hk
  refine ⟨?_, ?_, ?_, ?_, hp.imp_right fun a => ((advance_posts s t).perf.trans a).trans h.perf⟩
  · simp only [SameParts] at hs ⊢
    refine ⟨h.pending, ?_⟩
    simp only [h.fe, h.clk, h.cal, h.spec, h.acq, h.disp, h.mon, h.tiu, h.grove, h.mem, h.move, h.aux, h.ctl, h.flt, h.sec, h.pwr]
    simpa using hs.2
  · exact hc.imp_right fun a => ((advance_host s t).same.trans a).trans h.host.same
  · exact hm.imp_right fun a => ((advance_host s t).cmds.trans a).trans h.host.cmds
  · exact hh.imp_right fun a => ((advance_host s t).rest.trans a).trans h.host.rest

/-- A field that lies in the block is a field of the entry's bytes. -/
theorem fld_blk (p : Block) (u lo w : Nat) (h : lo + w ≤ 64 * u) : fld (blk p u) lo w = arg p lo w := by
  unfold blk arg fld
  apply Nat.eq_of_testBit_eq
  intro i
  simp only [Nat.testBit_mod_two_pow, Nat.testBit_div_two_pow]
  by_cases hi : i < w
  · have : i + lo < 64 * u := by omega
    simp [hi, this]
  · simp [hi]

theorem sfld_blk (p : Block) (u lo w : Nat) (h : lo + w ≤ 64 * u) : sfld (blk p u) lo w = sarg p lo w := by
  unfold sarg sfld; rw [fld_blk p u lo w h]; rfl

theorem bit_blk (p : Block) (u i : Nat) (h : i < 64 * u) : bit (blk p u) i = argBit p i := by
  unfold bit argBit bit; rw [fld_blk p u i 1 (by omega)]; rfl

end Sys2Proof.Machine
end

