-- ==== Sys2Proof/Laws/Zci.lean ====
section
/-! SUPPORT. The harness of a ZCI command: from the hypotheses of `zciReady` on the state and the operands to what exec answers, once for
every kind of reply. -/

namespace Sys2Proof.Machine

/-! ## The host interface around a command -/

theorem HostEvents.sessions {h g : HostIf} (a : HostEvents h g) : g.sessions = h.sessions := by rw [a.1]
theorem HostEvents.owners {h g : HostIf} (a : HostEvents h g) : g.owners = h.owners := by rw [a.1]
theorem HostEvents.inProg {h g : HostIf} (a : HostEvents h g) : g.inProg = h.inProg := by rw [a.1]
theorem HostEvents.engine {h g : HostIf} (a : HostEvents h g) : g.engine = h.engine := by rw [a.1]
theorem HostEvents.busMaster {h g : HostIf} (a : HostEvents h g) : g.busMaster = h.busMaster := by rw [a.1]

/-- A session page after operations that touch only the rings. -/
theorem HostEvents.ses {s t : State} (a : HostEvents s.host t.host) (n : Nat) : t.ses n = s.ses n := by
  unfold State.ses; rw [a.sessions]

/-- Nothing of the host interface differs but the rings and their signals, the page of session n, the completions that wait and the commands in
progress. -/
def HostZ (n : Nat) (s t : State) : Prop :=
  t.host = { s.host with
    evtTail := t.host.evtTail, evtLost := t.host.evtLost, evtPhase := t.host.evtPhase, evtLossPend := t.host.evtLossPend,
    evtUnsig := t.host.evtUnsig, evRing := t.host.evRing, evtWait := t.host.evtWait, evtNow := t.host.evtNow, msix := t.host.msix,
    cpls := t.host.cpls, sessions := t.host.sessions, cplWait := t.host.cplWait, inProg := t.host.inProg } ∧
  ∀ m, m ≠ n → t.ses m = s.ses m

theorem HostZ.refl (n : Nat) (s : State) : HostZ n s s := ⟨rfl, fun _ _ => rfl⟩

theorem HostZ.trans {n : Nat} {s t u : State} (h : HostZ n s t) (g : HostZ n t u) : HostZ n s u := by
  refine ⟨?_, fun m hm => (g.2 m hm).trans (h.2 m hm)⟩
  have a := h.1
  have b := g.1
  revert a b
  generalize s.host = x; generalize t.host = y; generalize u.host = z
  intro a b
  cases x; cases y; cases z
  simp only [HostIf.mk.injEq, true_and] at a b ⊢
  simp_all

theorem HostZ.ofEvents (n : Nat) {s t : State} (h : HostEvents s.host t.host) : HostZ n s t := by
  refine ⟨?_, fun m _ => h.ses m⟩
  replace h := h.1
  revert h
  generalize s.host = x; generalize t.host = y
  intro h
  cases x; cases y
  simp only [RingsOnly, HostIf.mk.injEq, true_and] at h ⊢
  simp_all

theorem HostZ.ofPosts (n : Nat) {s t : State} (h : Posts s t) : HostZ n s t := .ofEvents n h.host

theorem HostZ.ite {n : Nat} {c : Prop} [Decidable c] {s a b : State} (h : c → HostZ n s a) (g : ¬c → HostZ n s b) :
    HostZ n s (if c then a else b) := by
  split <;> simp_all

theorem hostZ_setSes (s : State) (n : Nat) (v : Session) : HostZ n s (s.setSes n v) :=
  ⟨rfl, fun _ h => State.ses_setSes_ne _ _ _ _ h⟩

theorem hostZ_complete (s : State) (n : Nat) (c : Completion) : HostZ n s (complete s n c) := by
  unfold complete
  exact .ite (fun _ => .refl _ _) fun _ => ⟨rfl, fun _ _ => rfl⟩

theorem hostZ_flushUnknown (k : Nat) (s : State) (n : Nat) : HostZ n s (flushUnknown k s n) := by
  induction k generalizing s with
  | zero => exact .refl n s
  | succ k ih =>
    unfold flushUnknown
    split
    · refine .ite (fun _ => .refl _ _) fun _ => ?_
      exact ((hostZ_setSes _ _ _).trans (hostZ_complete _ _ _)).trans (ih _)
    · exact .refl n s

theorem hostZ_flushFront (s : State) (n : Nat) : HostZ n s (flushFront s n) := hostZ_flushUnknown _ s n

/-! ## What waits to be written after a completion -/

/-- A command's completion, on a session that is OPEN, waits after those that wait; nothing else of the host interface changes. -/
theorem answered_complete (s : State) (n : Nat) (k : Completion) (h : (s.ses n).st = 1) :
    complete s n k = { s with host := { s.host with cplWait := s.host.cplWait ++ [(s.evTick, n, k)] } } := by
  have ht : (s.ses n).takesCpl = true := by simp [Session.takesCpl, h]
  unfold complete
  simp [ht]

/-- Nothing is answered while the front of the fetched commands is known, or nothing is fetched. -/
def frontKnown (x : Session) : Bool :=
  match x.fetched with
  | [] => true
  | f :: _ => opKnown f.opcode

theorem flushFront_known {s : State} {n : Nat} (h : frontKnown (s.ses n) = true) : flushFront s n = s := by
  unfold flushFront frontKnown at *
  cases hf : (s.ses n).fetched with
  | nil => simp [flushUnknown]
  | cons f r => rw [hf] at h; simp_all [flushUnknown]

/-! ## The command at its tick -/

theorem takeUp_cases {op : Nat} {c : Cmd} {s s1 : State} (h : takeUp op c s = some s1) :
    Quiet s s1 ∧ HostZ c.session.val s s1 ∧ s1.host.inProg = s.host.inProg ∧ s1.host.cplWait = s.host.cplWait ∧
    (s1.ses c.session.val).st = (s.ses c.session.val).st ∧ (s1.ses c.session.val).fetched = (s.ses c.session.val).fetched.tail := by
  unfold takeUp at h
  dsimp only at h
  split at h
  · cases h
  · split at h
    · split at h
      · cases h
        rename_i hf _
        exact ⟨setSes_quiet _ _ _, hostZ_setSes _ _ _, rfl, rfl, by simp [hf]⟩
      · cases h
    · split at h
      · cases h
      · cases h
        rename_i hf _
        exact ⟨setSes_quiet _ _ _, hostZ_setSes _ _ _, rfl, rfl, by simp [hf]⟩

theorem HostZ.engine {n : Nat} {s t : State} (h : HostZ n s t) : t.host.engine = s.host.engine := by rw [h.1]
theorem HostZ.owners {n : Nat} {s t : State} (h : HostZ n s t) : t.host.owners = s.host.owners := by rw [h.1]
theorem HostZ.busMaster {n : Nat} {s t : State} (h : HostZ n s t) : t.host.busMaster = s.host.busMaster := by rw [h.1]

/-- The session's page at the tick of a row. -/
@[simp] theorem advance_ses (s : State) (t : Tick) (n : Nat) : (advance s t).ses n = s.ses n := (advance_host s t).ses n

/-- What `zciFront` says of the state at the command's tick: the command is taken up, and nothing precedes it. -/
theorem taken_of_front {op : Nat} {c : Cmd} {s : State} (hop : opKnown op = true) (h : zciFront op c s = true) :
    s.pwr.down = false ∧ (s.ses c.session.val).st = 1 ∧ flushFront (advance s c.t) c.session.val = advance s c.t ∧
    takeUp op c (advance s c.t) = some (seen op c s) ∧ eligible c (advance s c.t) = true ∧
    frontKnown ((seen op c s).ses c.session.val) = true := by
  unfold zciFront at h
  simp only [Bool.and_eq_true, Bool.not_eq_true', beq_iff_eq, decide_eq_true_eq, Bool.or_eq_true] at h
  obtain ⟨⟨⟨⟨⟨⟨⟨hup, hst⟩, hcp⟩, heng⟩, hfet⟩, hfence⟩, hslot⟩, hroom⟩ := h
  have hh := advance_host s c.t
  have hses := advance_ses s c.t c.session.val
  have hfront : frontKnown ((advance s c.t).ses c.session.val) = true := by
    unfold frontKnown; rw [hses]
    cases hf : (s.ses c.session.val).fetched with
    | nil => rfl
    | cons f r =>
      rw [hf] at hfet
      simp only [Bool.and_eq_true, beq_iff_eq] at hfet
      show opKnown f.opcode = true
      rw [hfet.1.1.1]; exact hop
  have htake : ∃ u, takeUp op c (advance s c.t) = some u := by
    unfold takeUp
    simp only [hses, hst, hh.engine, hh.busMaster, advance_flt, hcp, advance_now]
    rw [if_neg (by rcases heng with h | h <;> simp [h])]
    cases hf : (s.ses c.session.val).fetched with
    | nil => rw [hf] at hfet; simp_all
    | cons f r =>
      rw [hf] at hfet
      simp only [Bool.and_eq_true, beq_iff_eq, Bool.or_eq_true, decide_eq_true_eq] at hfet
      simp [hfet.1.1.1, hfet.1.1.2, hfet.1.2]
  obtain ⟨u, hu⟩ := htake
  have hseen : seen op c s = u := by simp [seen, hu]
  obtain ⟨q, hc, -, -, -, hft⟩ := takeUp_cases hu
  refine ⟨hup, hst, flushFront_known hfront, by rw [hseen, hu], ?_, ?_⟩
  · unfold eligible
    unfold inProgOf at hfence ⊢
    simp only [hh.inProg, Bool.and_eq_true, Bool.or_eq_true, Bool.not_eq_true', beq_iff_eq, decide_eq_true_eq]
    exact ⟨⟨hfence, hslot⟩, hroom⟩
  · rw [hseen]; unfold frontKnown; rw [hft, hses]
    cases hf : (s.ses c.session.val).fetched with
    | nil => rfl
    | cons f r =>
      rw [hf] at hfet
      cases r with
      | nil => rfl
      | cons g r => simp only [Bool.and_eq_true] at hfet; exact hfet.2

/-- What the command's own rules see differs from the state before it in the Canopy count, the rings, the counters and the session. -/
theorem seen_frame (op : Nat) (c : Cmd) (s : State) :
    Quiet (advance s c.t) (seen op c s) ∧ HostZ c.session.val s (seen op c s) ∧ (seen op c s).host.inProg = s.host.inProg ∧
    (seen op c s).host.cplWait.Sublist s.host.cplWait := by
  have hh := advance_host s c.t
  unfold seen
  cases hu : takeUp op c (advance s c.t) with
  | none => exact ⟨Quiet.refl _, .ofEvents _ hh, hh.inProg, hh.2⟩
  | some u =>
    obtain ⟨q, hc, hi, hw, -⟩ := takeUp_cases hu
    exact ⟨q, (HostZ.ofEvents _ hh).trans hc, hi.trans hh.inProg, hw ▸ hh.2⟩

/-- The count as it reads to a command's own rules. -/
@[simp] theorem seen_countRead (op : Nat) (c : Cmd) (s : State) : countRead (seen op c s) = readAt s c.t := by
  have q := (seen_frame op c s).1
  unfold readAt countRead; rw [q.clk, q.now]

@[simp] theorem seen_now (op : Nat) (c : Cmd) (s : State) : (seen op c s).now = actsAt s c.t := by simp [(seen_frame op c s).1.now]
@[simp] theorem seen_pending (op : Nat) (c : Cmd) (s : State) : (seen op c s).pending = s.pending := by simp [(seen_frame op c s).1.pending]
@[simp] theorem seen_freeNo (op : Nat) (c : Cmd) (s : State) : (seen op c s).freeNo = s.freeNo := by simp [(seen_frame op c s).1.freeNo]
@[simp] theorem seen_fe (op : Nat) (c : Cmd) (s : State) : (seen op c s).fe = s.fe := by simp [(seen_frame op c s).1.fe]
@[simp] theorem seen_clk (op : Nat) (c : Cmd) (s : State) : (seen op c s).clk = s.clk := by simp [(seen_frame op c s).1.clk]
@[simp] theorem seen_cal (op : Nat) (c : Cmd) (s : State) : (seen op c s).cal = s.cal := by simp [(seen_frame op c s).1.cal]
@[simp] theorem seen_spec (op : Nat) (c : Cmd) (s : State) : (seen op c s).spec = s.spec := by simp [(seen_frame op c s).1.spec]
@[simp] theorem seen_acq (op : Nat) (c : Cmd) (s : State) : (seen op c s).acq = s.acq := by simp [(seen_frame op c s).1.acq]
@[simp] theorem seen_disp (op : Nat) (c : Cmd) (s : State) : (seen op c s).disp = s.disp := by simp [(seen_frame op c s).1.disp]
@[simp] theorem seen_mon (op : Nat) (c : Cmd) (s : State) : (seen op c s).mon = s.mon := by simp [(seen_frame op c s).1.mon]
@[simp] theorem seen_tiu (op : Nat) (c : Cmd) (s : State) : (seen op c s).tiu = s.tiu := by simp [(seen_frame op c s).1.tiu]
@[simp] theorem seen_grove (op : Nat) (c : Cmd) (s : State) : (seen op c s).grove = s.grove := by simp [(seen_frame op c s).1.grove]
@[simp] theorem seen_mem (op : Nat) (c : Cmd) (s : State) : (seen op c s).mem = s.mem := by simp [(seen_frame op c s).1.mem]
@[simp] theorem seen_move (op : Nat) (c : Cmd) (s : State) : (seen op c s).move = s.move := by simp [(seen_frame op c s).1.move]
@[simp] theorem seen_aux (op : Nat) (c : Cmd) (s : State) : (seen op c s).aux = s.aux := by simp [(seen_frame op c s).1.aux]
@[simp] theorem seen_ctl (op : Nat) (c : Cmd) (s : State) : (seen op c s).ctl = s.ctl := by simp [(seen_frame op c s).1.ctl]
@[simp] theorem seen_flt (op : Nat) (c : Cmd) (s : State) : (seen op c s).flt = s.flt := by simp [(seen_frame op c s).1.flt]
@[simp] theorem seen_sec (op : Nat) (c : Cmd) (s : State) : (seen op c s).sec = s.sec := by simp [(seen_frame op c s).1.sec]
@[simp] theorem seen_pwr (op : Nat) (c : Cmd) (s : State) : (seen op c s).pwr = s.pwr := by simp [(seen_frame op c s).1.pwr]
@[simp] theorem seen_owners (op : Nat) (c : Cmd) (s : State) : (seen op c s).host.owners = s.host.owners := (seen_frame op c s).2.1.owners
@[simp] theorem seen_engine (op : Nat) (c : Cmd) (s : State) : (seen op c s).host.engine = s.host.engine := (seen_frame op c s).2.1.engine
@[simp] theorem seen_inProg (op : Nat) (c : Cmd) (s : State) : (seen op c s).host.inProg = s.host.inProg := (seen_frame op c s).2.2.1

/-- What the checks that all commands share come to (R465). -/
theorem commonCheck_eq (op units : Nat) (used : Nat → List (Nat × Nat)) (c : Cmd) (p : Block) (s : State) :
    commonCheck op units used c p (seen op c s) = if denies s op then stDenied
      else if s.host.engine = 2 ∧ fatalOk op = false then stFaulted else if wellFormed units used c p then 0 else stInvalid := by
  obtain ⟨q, hc, -⟩ := seen_frame op c s
  have hd : denies (seen op c s) op = denies s op := by unfold denies keyUsable; rw [q.sec, advance_sec]
  have hw : (if c.plen.toNat ≠ units ∨ c.rsv ≠ 0 then stInvalid else if !rsvOk p.toNat units (used (blk p units)) then stInvalid else 0) =
      if wellFormed units used c p then 0 else stInvalid := by
    unfold wellFormed
    by_cases h1 : c.plen.toNat = units <;> by_cases h2 : c.rsv = 0 <;> cases rsvOk p.toNat units (used (blk p units)) <;> simp [h1, h2]
  unfold commonCheck
  rw [hd, hc.engine, hw]
  simp

/-- The reply of a command that is taken up. -/
def replyOf (op units : Nat) (used : Nat → List (Nat × Nat)) (c : Cmd) (p : Block) (s : State) (body : Nat → State → Reply) : Reply :=
  if commonCheck op units used c p (seen op c s) = 0 then body (blk p units) (seen op c s) else .fail (commonCheck op units used c p (seen op c s))

theorem ready_front {op units : Nat} {used : Nat → List (Nat × Nat)} {c : Cmd} {p : Block} {s : State} (h : zciReady op units used c p s = true) :
    zciFront op c s = true := by
  unfold zciReady at h
  simp only [Bool.and_eq_true] at h
  exact h.1.1.1

/-- A command that passes the shared checks runs its own rules. -/
theorem replyOf_ready {op units : Nat} {used : Nat → List (Nat × Nat)} {c : Cmd} {p : Block} {s : State} (h : zciReady op units used c p s = true)
    (body : Nat → State → Reply) : replyOf op units used c p s body = body (blk p units) (seen op c s) := by
  unfold zciReady at h
  simp only [Bool.and_eq_true, Bool.or_eq_true, beq_iff_eq, Bool.not_eq_true'] at h
  unfold replyOf
  rw [if_pos]
  rw [commonCheck_eq, h.1.1.2, h.2]
  rcases h.1.2 with g | g <;> simp [g]

/-- What a ZCI command leaves of the state `s'` that its own rules answered: every part; of the host interface all but the event ring, the
session, the completions that wait and the commands in progress. -/
structure Closed (c : Cmd) (s s' t : State) : Prop where
  pending : t.pending = s.pending
  parts   : SameParts [] { s' with pending := s.pending } t
  host    : HostZ c.session.val s' t
  cmds    : OwnCommand c s'.host t.host
  now     : t.now = max (actsAt s c.t) s'.now
  perf    : PerfCounts s'.perf t.perf

/-- Only the effect at the row's own state matters. -/
theorem settle_const (s : State) (t : Tick) (f : State → State) : settle s t f = settle s t (fun _ => f (advance s t)) := rfl

/-- A command that is taken up runs its own rules; its reply is completed, and it counts in source 0x14 unless it is rejected. -/
theorem zciThen_eq {op units : Nat} {used : Nat → List (Nat × Nat)} {c : Cmd} {p : Block} {s : State} (hop : opKnown op = true)
    (h : zciFront op c s = true) (after : State → State) (body : Nat → State → Reply) :
    zciThen after op units used c p s body = .next (settle s c.t (fun _ =>
      let s2 := reply op c (seen op c s) (replyOf op units used c p s body)
      flushFront (after (if (replyOf op units used c p s body).rejects then s2 else perfAdd s2 0x14 c.session.val 1)) c.session.val)) := by
  obtain ⟨hup, -, hff, htk, hel, -⟩ := taken_of_front hop h
  unfold zciThen
  rw [act_up hup, settle_const]
  simp only [hff, htk, hel, replyOf, Bool.not_true, Bool.false_eq_true, if_false]
  rfl

theorem follows_settle (s : State) (t : Tick) (x : State) : Follows x (settle s t (fun _ => x)) := follows_settle' s t (fun _ => x)

theorem closed_settle {c : Cmd} {s s' x : State} (q : Quiet s' x) (hc : HostZ c.session.val s' x) (ho : OwnCommand c s'.host x.host) :
    Closed c s s' (settle s c.t (fun _ => x)) := by
  refine ⟨settle_pending _ _ _, ?_, ?_, ?_, ?_, q.perf.trans (settle_perf s c.t (fun _ => x))⟩
  · simp [SameParts, q.fe, q.clk, q.cal, q.spec, q.acq, q.disp, q.mon, q.tiu, q.grove, q.mem, q.move, q.aux, q.ctl, q.flt, q.sec, q.pwr]
  · exact hc.trans (.ofEvents _ (settle_host s c.t (fun _ => x)))
  · obtain ⟨p, w, v, h1, h2, h3⟩ := ho
    exact ⟨p, w, v, ((settle_host s c.t (fun _ => x)).inProg).trans h1, (settle_cplWait s c.t (fun _ => x)).trans h2, h3⟩
  · rw [settle_now, q.now]

/-- A command that completes with `k`; `after` is what follows every command of the opcode. -/
theorem zciThen_complete {op units : Nat} {used : Nat → List (Nat × Nat)} {c : Cmd} {p : Block} {s s' : State} {body : Nat → State → Reply}
    {k : Completion} {after : State → State} (hkt : k.tag = c.tag.toNat) (hop : opKnown op = true) (h : zciFront op c s = true)
    (hrep : reply op c (seen op c s) (replyOf op units used c p s body) = complete s' c.session.val k)
    (hs : s'.host.sessions = (seen op c s).host.sessions)
    (hq : ∀ a b, Quiet a b → Quiet (after a) (after b)) (ha : ∀ a, (after a).host = a.host) :
    ∃ t, zciThen after op units used c p s body = .next t ∧ Completed c k s' t ∧ Closed c s (after s') t ∧
      Follows (after (if (replyOf op units used c p s body).rejects then complete s' c.session.val k
        else perfAdd (complete s' c.session.val k) 0x14 c.session.val 1)) t := by
  obtain ⟨-, hst, -, htk, -, hfk⟩ := taken_of_front hop h
  obtain ⟨-, -, -, -, hst', -⟩ := takeUp_cases htk
  rw [advance_ses] at hst'
  have hses : s'.ses c.session.val = (seen op c s).ses c.session.val := by unfold State.ses; rw [hs]
  have hk := answered_complete s' c.session.val k (by rw [hses, hst', hst])
  have hp : Emits (complete s' c.session.val k) (if (replyOf op units used c p s body).rejects then complete s' c.session.val k
      else perfAdd (complete s' c.session.val k) 0x14 c.session.val 1) := Emits.ite (fun _ => Emits.refl _) fun _ => perfAdd_emits _ _ _ _
  have e := zciThen_eq (units := units) (used := used) (p := p) hop h after body
  dsimp only at e
  rw [hrep] at e
  revert hp e
  generalize (if (replyOf op units used c p s body).rejects then complete s' c.session.val k
      else perfAdd (complete s' c.session.val k) 0x14 c.session.val 1) = y
  intro hp e
  have hff : flushFront (after y) c.session.val = after y := by
    apply flushFront_known
    have hy : (after y).ses c.session.val = (complete s' c.session.val k).ses c.session.val := by
      rw [← hp.1.host.ses]; unfold State.ses; rw [ha]
    unfold frontKnown; rw [hy, hk]; unfold State.ses at hses ⊢; rw [hses]; exact hfk
  rw [hff] at e
  have hset := settle_host s c.t (fun _ => after y)
  refine ⟨_, e, ⟨?_, ?_⟩, ?_, follows_settle _ _ _⟩
  · rw [hset.inProg, ha, hp.1.host.inProg, hk]
  · rw [settle_cplWait, ha, hp.2, hk]
  · refine closed_settle (hq _ _ ((complete_quiet _ _ _).trans hp.1.toQuiet)) ?_ ?_
    · have hz := (hostZ_complete s' c.session.val k).trans (.ofPosts _ hp.1)
      refine ⟨?_, fun m hm' => ?_⟩
      · rw [ha, ha]; exact hz.1
      · unfold State.ses; rw [ha, ha]; exact hz.2 m hm'
    · refine ⟨[], s'.host.cplWait, [(s'.evTick, c.session.val, k)], ?_, ?_, ?_, by simp, by simp [hkt]⟩
      · rw [ha, ha, hp.1.host.inProg, hk]; simp
      · rw [ha, hp.2, hk]
      · rw [ha]

/-- A command that completes with `k`. -/
theorem zci_complete {op units : Nat} {used : Nat → List (Nat × Nat)} {c : Cmd} {p : Block} {s s' : State} {body : Nat → State → Reply} {k : Completion}
    (hkt : k.tag = c.tag.toNat) (hop : opKnown op = true) (h : zciFront op c s = true)
    (hrep : reply op c (seen op c s) (replyOf op units used c p s body) = complete s' c.session.val k)
    (hs : s'.host.sessions = (seen op c s).host.sessions) :
    ∃ t, zci op units used c p s body = .next t ∧ Completed c k s' t ∧ Closed c s s' t ∧
      Follows (if (replyOf op units used c p s body).rejects then complete s' c.session.val k
        else perfAdd (complete s' c.session.val k) 0x14 c.session.val 1) t :=
  zciThen_complete hkt hop h hrep hs (fun _ _ q => q) (fun _ => rfl)

/-- A command that is applied and stays in progress. -/
theorem zci_later {op units : Nat} {used : Nat → List (Nat × Nat)} {c : Cmd} {p : Block} {s s' : State} {body : Nat → State → Reply} {u : Nat}
    {d regs : List Nat} (hop : opKnown op = true) (h : zciReady op units used c p s = true)
    (hb : body (blk p units) (seen op c s) = .later s' u d ∧ regs = [] ∨ body (blk p units) (seen op c s) = .laterR s' u d regs)
    (hs : s'.host.sessions = (seen op c s).host.sessions) :
    ∃ t, zci op units used c p s body = .next t ∧ Waits op c u d regs s' s t ∧ Closed c s s' t := by
  obtain ⟨-, -, -, htk, -, hfk⟩ := taken_of_front hop (ready_front h)
  have hses : s'.ses c.session.val = (seen op c s).ses c.session.val := by unfold State.ses; rw [hs]
  refine ⟨_, zciThen_eq hop (ready_front h) _ body, ?_⟩
  generalize he : ({ session := c.session.val, opcode := op, tag := c.tag.toNat, applied := readAt s c.t, unit_ := u, data := d, regs := regs } : InProg) = e
  have hrep : (replyOf op units used c p s body).rejects = false ∧
      reply op c (seen op c s) (replyOf op units used c p s body) = { s' with host := { s'.host with inProg := s'.host.inProg ++ [e] } } := by
    rw [replyOf_ready h]
    rcases hb with ⟨hb, hr⟩ | hb
    · subst hr; rw [hb]; subst he; exact ⟨rfl, by simp [reply]⟩
    · rw [hb]; subst he; exact ⟨rfl, by simp [reply]⟩
  simp only [hrep, Bool.false_eq_true, if_false]
  generalize hx : ({ s' with host := { s'.host with inProg := s'.host.inProg ++ [e] } } : State) = x
  have hxs : x.ses c.session.val = s'.ses c.session.val := by rw [← hx]; rfl
  have hp := perfAdd_emits x 0x14 c.session.val 1
  have hff : flushFront (perfAdd x 0x14 c.session.val 1) c.session.val = perfAdd x 0x14 c.session.val 1 := by
    apply flushFront_known
    unfold frontKnown; rw [hp.1.host.ses, hxs, hses]; exact hfk
  rw [hff]
  have hset := settle_host s c.t (fun _ => perfAdd x 0x14 c.session.val 1)
  constructor
  · unfold Waits
    dsimp only
    rw [he, hx]
    refine ⟨?_, ?_, follows_settle _ _ _⟩
    · rw [hset.inProg, hp.1.host.inProg, ← hx]
    · rw [settle_cplWait, hp.2, ← hx]
  · refine closed_settle (Quiet.trans ?_ hp.1.toQuiet) (HostZ.trans ?_ (.ofPosts _ hp.1)) ⟨[e], s'.host.cplWait, [], ?_, ?_, List.Sublist.refl _, ?_, by simp⟩
    · rw [← hx]; constructor <;> first | rfl | exact PerfCounts.refl _
    · rw [← hx]; exact ⟨rfl, fun _ _ => rfl⟩
    · rw [hp.1.host.inProg, ← hx]
    · rw [hp.2, ← hx]; simp
    · rw [← he]; simp

theorem Closed.fe {c : Cmd} {s s' t : State} (h : Closed c s s' t) : t.fe = s'.fe := by have := h.parts; simp only [SameParts, List.not_mem_nil, false_or] at this; simp [this]
theorem Closed.clk {c : Cmd} {s s' t : State} (h : Closed c s s' t) : t.clk = s'.clk := by have := h.parts; simp only [SameParts, List.not_mem_nil, false_or] at this; simp [this]
theorem Closed.cal {c : Cmd} {s s' t : State} (h : Closed c s s' t) : t.cal = s'.cal := by have := h.parts; simp only [SameParts, List.not_mem_nil, false_or] at this; simp [this]
theorem Closed.spec {c : Cmd} {s s' t : State} (h : Closed c s s' t) : t.spec = s'.spec := by have := h.parts; simp only [SameParts, List.not_mem_nil, false_or] at this; simp [this]
theorem Closed.acq {c : Cmd} {s s' t : State} (h : Closed c s s' t) : t.acq = s'.acq := by have := h.parts; simp only [SameParts, List.not_mem_nil, false_or] at this; simp [this]
theorem Closed.disp {c : Cmd} {s s' t : State} (h : Closed c s s' t) : t.disp = s'.disp := by have := h.parts; simp only [SameParts, List.not_mem_nil, false_or] at this; simp [this]
theorem Closed.mon {c : Cmd} {s s' t : State} (h : Closed c s s' t) : t.mon = s'.mon := by have := h.parts; simp only [SameParts, List.not_mem_nil, false_or] at this; simp [this]
theorem Closed.tiu {c : Cmd} {s s' t : State} (h : Closed c s s' t) : t.tiu = s'.tiu := by have := h.parts; simp only [SameParts, List.not_mem_nil, false_or] at this; simp [this]
theorem Closed.grove {c : Cmd} {s s' t : State} (h : Closed c s s' t) : t.grove = s'.grove := by have := h.parts; simp only [SameParts, List.not_mem_nil, false_or] at this; simp [this]
theorem Closed.mem {c : Cmd} {s s' t : State} (h : Closed c s s' t) : t.mem = s'.mem := by have := h.parts; simp only [SameParts, List.not_mem_nil, false_or] at this; simp [this]
theorem Closed.move {c : Cmd} {s s' t : State} (h : Closed c s s' t) : t.move = s'.move := by have := h.parts; simp only [SameParts, List.not_mem_nil, false_or] at this; simp [this]
theorem Closed.aux {c : Cmd} {s s' t : State} (h : Closed c s s' t) : t.aux = s'.aux := by have := h.parts; simp only [SameParts, List.not_mem_nil, false_or] at this; simp [this]
theorem Closed.ctl {c : Cmd} {s s' t : State} (h : Closed c s s' t) : t.ctl = s'.ctl := by have := h.parts; simp only [SameParts, List.not_mem_nil, false_or] at this; simp [this]
theorem Closed.flt {c : Cmd} {s s' t : State} (h : Closed c s s' t) : t.flt = s'.flt := by have := h.parts; simp only [SameParts, List.not_mem_nil, false_or] at this; simp [this]
theorem Closed.sec {c : Cmd} {s s' t : State} (h : Closed c s s' t) : t.sec = s'.sec := by have := h.parts; simp only [SameParts, List.not_mem_nil, false_or] at this; simp [this]
theorem Closed.pwr {c : Cmd} {s s' t : State} (h : Closed c s s' t) : t.pwr = s'.pwr := by have := h.parts; simp only [SameParts, List.not_mem_nil, false_or] at this; simp [this]

theorem HostZ.rest {n : Nat} {s t : State} (h : HostZ n s t) : SameHostRest s.host t.host := by
  have a := h.1
  revert a
  generalize s.host = x; generalize t.host = y
  intro a
  cases x; cases y
  simp only [SameHostRest, RingsOnly, HostIf.mk.injEq, true_and] at a ⊢
  simp_all

/-- The frame of a command from the frame of its own rules. -/
theorem Closed.keptZ {c : Cmd} {s s' t : State} {l : List Part} {op : Nat} (h : Closed c s s' t) (hk : Kept l (seen op c s) s') : KeptZ c l s t := by
  obtain ⟨hs, hc, hm, hh, hp⟩ := hk
  have q := (seen_frame op c s).2.1
  refine ⟨?_, ?_, ?_, ?_, hp.imp_right fun a => (((advance_posts s c.t).perf.trans (seen_frame op c s).1.perf).trans a).trans h.perf⟩
  · have := h.parts
    simp only [SameParts, List.not_mem_nil, false_or] at this
    simp only [SameParts] at hs ⊢
    refine ⟨h.pending, ?_⟩
    simp only [this.2.1, this.2.2.1, this.2.2.2.1, this.2.2.2.2.1, this.2.2.2.2.2.1, this.2.2.2.2.2.2.1, this.2.2.2.2.2.2.2.1, this.2.2.2.2.2.2.2.2.1, this.2.2.2.2.2.2.2.2.2.1, this.2.2.2.2.2.2.2.2.2.2.1, this.2.2.2.2.2.2.2.2.2.2.2.1, this.2.2.2.2.2.2.2.2.2.2.2.2.1, this.2.2.2.2.2.2.2.2.2.2.2.2.2.1, this.2.2.2.2.2.2.2.2.2.2.2.2.2.2.1, this.2.2.2.2.2.2.2.2.2.2.2.2.2.2.2.1, this.2.2.2.2.2.2.2.2.2.2.2.2.2.2.2.2]
    simpa using hs.2
  · refine hc.imp_right fun a => ⟨?_, fun m hm => ?_⟩
    · rw [h.host.busMaster, a.2, q.busMaster]
    · rw [h.host.2 m hm, ← q.2 m hm]; unfold State.ses; rw [a.1]
  · refine hm.imp_right fun a => ?_
    obtain ⟨p, w, v, h1, h2, h3, h4⟩ := h.cmds
    refine ⟨p, w, v, ?_, h2, h3.trans (a.1.trans (seen_frame op c s).2.2.2), h4⟩
    rw [h1, a.2, (seen_frame op c s).2.2.1]
  · exact hh.imp_right fun a => (q.rest.trans a).trans h.host.rest

/-! ## A command's row, from its checks and its effect -/

/-- Checks that all pass. -/
theorem chk_pass {l : List (Bool × Nat)} {r : Reply} (h : ∀ x ∈ l, x.1 = false) : chk l r = r := by
  induction l with
  | nil => rfl
  | cons x l ih => simp [chk, h x, ih (fun y hy => h y (List.mem_cons_of_mem x hy))]

/-- The reply is a refusal exactly where a check fails, with the first failing check's STATUS. -/
theorem chk_fail {l : List (Bool × Nat)} {r : Reply} {st : Nat} (h : firstFailing l = some st) : chk l r = .fail st := by
  induction l with
  | nil => cases h
  | cons x l ih =>
    obtain ⟨b, n⟩ := x
    cases b <;> simp_all [chk, firstFailing]

theorem chk_none {l : List (Bool × Nat)} {r : Reply} (h : firstFailing l = none) : chk l r = r := by
  induction l with
  | nil => rfl
  | cons x l ih =>
    obtain ⟨b, n⟩ := x
    cases b <;> simp_all [chk, firstFailing]

theorem firstFailing_none {l : List (Bool × Nat)} (h : firstFailing l = none) : ∀ x ∈ l, x.1 = false := by
  induction l with
  | nil => simp
  | cons x l ih =>
    obtain ⟨b, n⟩ := x
    cases b <;> simp_all [firstFailing]

/-- What the state that exec answers holds where the command's own rules left `s'`. -/
structure Left (c : Cmd) (L : List Part) (s s' t : State) : Prop where
  kept  : KeptZ c L s t
  fe    : t.fe = s'.fe
  clk   : t.clk = s'.clk
  cal   : t.cal = s'.cal
  spec  : t.spec = s'.spec
  acq   : t.acq = s'.acq
  disp  : t.disp = s'.disp
  mon   : t.mon = s'.mon
  tiu   : t.tiu = s'.tiu
  grove : t.grove = s'.grove
  mem   : t.mem = s'.mem
  move  : t.move = s'.move
  aux   : t.aux = s'.aux
  ctl   : t.ctl = s'.ctl
  flt   : t.flt = s'.flt
  sec   : t.sec = s'.sec
  pwr   : t.pwr = s'.pwr
  now   : t.now = max (actsAt s c.t) s'.now
  perf  : PerfCounts s'.perf t.perf
  host  : HostZ c.session.val s' t

theorem Closed.left {c : Cmd} {s s' t : State} {L : List Part} (h : Closed c s s' t) (k : KeptZ c L s t) : Left c L s s' t :=
  ⟨k, h.fe, h.clk, h.cal, h.spec, h.acq, h.disp, h.mon, h.tiu, h.grove, h.mem, h.move, h.aux, h.ctl, h.flt, h.sec, h.pwr, h.now, h.perf, h.host⟩

/-- A command that is applied and completes at once. -/
theorem ok_row {op units : Nat} {used : Nat → List (Nat × Nat)} {c : Cmd} {p : Block} {s s' : State} {i : Instr} {body : Nat → State → Reply}
    {rl r : Nat} {l : List (Bool × Nat)} {L : List Part} (he : exec i s = zci op units used c p s body) (hop : opKnown op = true)
    (h : zciReady op units used c p s = true) (hb : body (blk p units) (seen op c s) = chk l (.ok s' rl r)) (hl : ∀ x ∈ l, x.1 = false)
    (hk : Kept L (seen op c s) s') (hh : Part.ses ∉ L) :
    ∃ t, exec i s = .next t ∧ Answered c (cplOf op c 0 rl r s) s' t ∧ Left c L s s' t := by
  have e := hk.2.1.resolve_left hh
  have hr : replyOf op units used c p s body = .ok s' rl r := (replyOf_ready h body).trans (hb.trans (chk_pass hl))
  obtain ⟨t, h1, h2, h3, h4⟩ := zci_complete (s' := s') (k := cplOf op c 0 rl r s) (body := body) rfl hop (ready_front h) (by rw [hr]; simp [reply, cplOf]) e.1
  rw [hr] at h4
  exact ⟨t, he.trans h1, ⟨h2, h4⟩, h3.left (h3.keptZ hk)⟩

/-- A command that is applied and stays in progress. -/
theorem later_row {op units : Nat} {used : Nat → List (Nat × Nat)} {c : Cmd} {p : Block} {s s' : State} {i : Instr} {body : Nat → State → Reply}
    {u : Nat} {d : List Nat} {l : List (Bool × Nat)} {L : List Part} (he : exec i s = zci op units used c p s body) (hop : opKnown op = true)
    (h : zciReady op units used c p s = true) (hb : body (blk p units) (seen op c s) = chk l (.later s' u d)) (hl : ∀ x ∈ l, x.1 = false)
    (hk : Kept L (seen op c s) s') (hh : Part.ses ∉ L) :
    ∃ t, exec i s = .next t ∧ Waits op c u d [] s' s t ∧ Left c L s s' t := by
  have e := hk.2.1.resolve_left hh
  obtain ⟨t, h1, h2, h3⟩ := zci_later hop h (.inl ⟨hb.trans (chk_pass hl), rfl⟩) e.1
  exact ⟨t, he.trans h1, h2, h3.left (h3.keptZ hk)⟩

/-- A command that is applied and stays in progress, naming regions. -/
theorem laterR_row {op units : Nat} {used : Nat → List (Nat × Nat)} {c : Cmd} {p : Block} {s s' : State} {i : Instr} {body : Nat → State → Reply}
    {u : Nat} {d regs : List Nat} {l : List (Bool × Nat)} {L : List Part} (he : exec i s = zci op units used c p s body) (hop : opKnown op = true)
    (h : zciReady op units used c p s = true) (hb : body (blk p units) (seen op c s) = chk l (.laterR s' u d regs)) (hl : ∀ x ∈ l, x.1 = false)
    (hk : Kept L (seen op c s) s') (hh : Part.ses ∉ L) :
    ∃ t, exec i s = .next t ∧ Waits op c u d regs s' s t ∧ Left c L s s' t := by
  have e := hk.2.1.resolve_left hh
  obtain ⟨t, h1, h2, h3⟩ := zci_later hop h (.inr (hb.trans (chk_pass hl))) e.1
  exact ⟨t, he.trans h1, h2, h3.left (h3.keptZ hk)⟩

/-- A command that fails with a result or an effect that its chapter defines. -/
theorem failWith_row {op units : Nat} {used : Nat → List (Nat × Nat)} {c : Cmd} {p : Block} {s s' : State} {i : Instr} {body : Nat → State → Reply}
    {st rl r : Nat} {L : List Part} (he : exec i s = zci op units used c p s body) (hop : opKnown op = true)
    (h : zciReady op units used c p s = true) (hb : body (blk p units) (seen op c s) = .failWith s' st rl r)
    (hk : Kept L (seen op c s) s') (hh : Part.ses ∉ L) :
    ∃ t, exec i s = .next t ∧ Answered c (cplOf op c st rl r s) s' t ∧ Left c L s s' t := by
  have e := hk.2.1.resolve_left hh
  have hr : replyOf op units used c p s body = .failWith s' st rl r := (replyOf_ready h body).trans hb
  obtain ⟨t, h1, h2, h3, h4⟩ := zci_complete (s' := s') (k := cplOf op c st rl r s) (body := body) rfl hop (ready_front h)
    (by rw [hr]; simp [reply, cplOf]) e.1
  rw [hr] at h4
  exact ⟨t, he.trans h1, ⟨h2, h4⟩, h3.left (h3.keptZ hk)⟩

/-- A command that is applied and completes with DEFERRED = 1. -/
theorem deferred_row {op units : Nat} {used : Nat → List (Nat × Nat)} {c : Cmd} {p : Block} {s s' : State} {i : Instr} {body : Nat → State → Reply}
    {L : List Part} (he : exec i s = zci op units used c p s body) (hop : opKnown op = true)
    (h : zciReady op units used c p s = true) (hb : body (blk p units) (seen op c s) = .deferred s')
    (hk : Kept L (seen op c s) s') (hh : Part.ses ∉ L) :
    ∃ t, exec i s = .next t ∧ Answered c { cplOf op c 0 0 0 s with deferred := true } s' t ∧ Left c L s s' t := by
  have e := hk.2.1.resolve_left hh
  have hr : replyOf op units used c p s body = .deferred s' := (replyOf_ready h body).trans hb
  obtain ⟨t, h1, h2, h3, h4⟩ := zci_complete (s' := s') (k := { cplOf op c 0 0 0 s with deferred := true }) (body := body) rfl hop (ready_front h)
    (by rw [hr]; simp [reply, cplOf]) e.1
  rw [hr] at h4
  exact ⟨t, he.trans h1, ⟨h2, h4⟩, h3.left (h3.keptZ hk)⟩

/-- A command that its own checks refuse. -/
theorem refused_row {op units : Nat} {used : Nat → List (Nat × Nat)} {c : Cmd} {p : Block} {s : State} {i : Instr} {body : Nat → State → Reply}
    {st : Nat} (he : exec i s = zci op units used c p s body) (hop : opKnown op = true) (h : zciReady op units used c p s = true)
    (hb : body (blk p units) (seen op c s) = .fail st) : ∃ t, exec i s = .next t ∧ Refused op c st s t := by
  have hr : replyOf op units used c p s body = .fail st := (replyOf_ready h body).trans hb
  obtain ⟨t, h1, h2, h3, h4⟩ := zci_complete (s' := seen op c s) (k := cplOf op c st 0 0 s) (body := body) rfl hop (ready_front h)
    (by rw [hr]; simp [reply, cplOf]) rfl
  rw [hr] at h4
  exact ⟨t, he.trans h1, h2, h4, h3.keptZ (Kept.refl _ _)⟩

/-- The checks that all commands share. -/
theorem shared_row {op units : Nat} {used : Nat → List (Nat × Nat)} {i : Cmd → Block → Instr} {body : Cmd → Block → Nat → State → Reply}
    (hop : opKnown op = true) (he : ∀ c p s, exec (i c p) s = zci op units used c p s (body c p)) : Shared op units used i := by
  intro c p s h
  have key : ∀ st, st ≠ 0 → commonCheck op units used c p (seen op c s) = st → ∃ t, exec (i c p) s = .next t ∧ Refused op c st s t := by
    intro st hne hst
    have hr : replyOf op units used c p s (body c p) = .fail st := by unfold replyOf; rw [hst, if_neg hne]
    obtain ⟨t, h1, h2, h3, h4⟩ := zci_complete (s' := seen op c s) (k := cplOf op c st 0 0 s) (body := body c p) rfl hop h
      (by rw [hr]; simp [reply, cplOf]) rfl
    rw [hr] at h4
    exact ⟨t, (he c p s).trans h1, h2, h4, h3.keptZ (Kept.refl _ _)⟩
  refine ⟨fun hd => key _ (by decide) ?_, fun hd h2 hf => key _ (by decide) ?_, fun hd hg hw => key _ (by decide) ?_⟩
  · rw [commonCheck_eq, hd, if_pos rfl]
  · rw [commonCheck_eq, hd]; simp [h2, hf]
  · rw [commonCheck_eq, hd, hw]; rcases hg with g | g <;> simp [g]

/-- A command that is applied and never completes: what decides where completions go stays, but that the command has left the ring. -/
theorem silent_row {op units : Nat} {used : Nat → List (Nat × Nat)} {c : Cmd} {p : Block} {s s' : State} {i : Instr} {body : Nat → State → Reply}
    {l : List (Bool × Nat)} {L : List Part} (he : exec i s = zci op units used c p s body) (hop : opKnown op = true)
    (h : zciReady op units used c p s = true) (hb : body (blk p units) (seen op c s) = chk l (.silent s')) (hl : ∀ x ∈ l, x.1 = false)
    (hk : Kept L (seen op c s) s') (hh : Part.ses ∉ L) :
    ∃ t, exec i s = .next t ∧ Unanswered c s' t ∧ Left c L s s' t := by
  have e := hk.2.1.resolve_left hh
  obtain ⟨-, -, -, htk, -, hfk⟩ := taken_of_front hop (ready_front h)
  have hses : s'.ses c.session.val = (seen op c s).ses c.session.val := by unfold State.ses; rw [e.1]
  have hrep : (replyOf op units used c p s body).rejects = false ∧ reply op c (seen op c s) (replyOf op units used c p s body) = s' := by
    rw [replyOf_ready h, hb, chk_pass hl]; exact ⟨rfl, by simp [reply]⟩
  have hp := perfAdd_emits s' 0x14 c.session.val 1
  have hff : flushFront (perfAdd s' 0x14 c.session.val 1) c.session.val = perfAdd s' 0x14 c.session.val 1 := by
    apply flushFront_known
    unfold frontKnown; rw [hp.1.host.ses, hses]; exact hfk
  have hz : zci op units used c p s body = .next (settle s c.t (fun _ => perfAdd s' 0x14 c.session.val 1)) := by
    have := zciThen_eq (units := units) (used := used) (p := p) hop (ready_front h) (fun a => a) body
    simp only [hrep, Bool.false_eq_true, if_false, hff] at this
    exact this
  have hset := settle_host s c.t (fun _ => perfAdd s' 0x14 c.session.val 1)
  have hc : Closed c s s' (settle s c.t (fun _ => perfAdd s' 0x14 c.session.val 1)) := closed_settle hp.1.toQuiet (.ofPosts _ hp.1)
    ⟨[], s'.host.cplWait, [], by rw [hp.1.host.inProg]; simp, by rw [hp.2]; simp, List.Sublist.refl _, by simp, by simp⟩
  refine ⟨_, he.trans hz, ⟨?_, ?_, follows_settle _ _ _⟩, hc.left (hc.keptZ hk)⟩
  · rw [hset.inProg, hp.1.host.inProg]
  · rw [settle_cplWait, hp.2]

/-- A command after whose completion something more happens whatever the outcome; `k` is the completion and `s'` what its rules left. -/
theorem then_row {op units : Nat} {used : Nat → List (Nat × Nat)} {c : Cmd} {p : Block} {s s' : State} {i : Instr} {body : Nat → State → Reply}
    {after : State → State} {st rl r : Nat} {L : List Part} (rej : Bool) (he : exec i s = zciThen after op units used c p s body) (hop : opKnown op = true)
    (h : zciReady op units used c p s = true)
    (hb : (rej = true ∧ body (blk p units) (seen op c s) = .fail st ∧ s' = seen op c s ∧ rl = 0 ∧ r = 0) ∨
      (rej = false ∧ body (blk p units) (seen op c s) = .ok s' rl r ∧ st = 0) ∨
      (rej = false ∧ body (blk p units) (seen op c s) = .failWith s' st rl r))
    (hq : ∀ a b, Quiet a b → Quiet (after a) (after b)) (ha : ∀ a, (after a).host = a.host) (hM : Kept L (seen op c s) (after s'))
    (hk : Kept L (seen op c s) s') (hh : Part.ses ∉ L) :
    ∃ t, exec i s = .next t ∧ Completed c (cplOf op c st rl r s) s' t ∧ Left c L s (after s') t ∧
      Follows (after (if rej then complete s' c.session.val (cplOf op c st rl r s)
        else perfAdd (complete s' c.session.val (cplOf op c st rl r s)) 0x14 c.session.val 1)) t := by
  have e := hk.2.1.resolve_left hh
  obtain ⟨t, h1, h2, h3, h4⟩ := zciThen_complete (s' := s') (k := cplOf op c st rl r s) (body := body) (after := after) rfl hop (ready_front h)
    (by
      rw [replyOf_ready h]
      rcases hb with ⟨-, hb, rfl, rfl, rfl⟩ | ⟨-, hb, rfl⟩ | ⟨-, hb⟩ <;> rw [hb] <;> simp [reply, cplOf]) e.1 hq ha
  have hj : (replyOf op units used c p s body).rejects = rej := by
    rw [replyOf_ready h]
    rcases hb with ⟨rfl, hb, -⟩ | ⟨rfl, hb, -⟩ | ⟨rfl, hb⟩ <;> rw [hb] <;> rfl
  rw [hj] at h4
  exact ⟨t, he.trans h1, h2, h3.left (h3.keptZ hM), h4⟩

/-- A shared check refuses a command after whose completion something more happens. -/
theorem thenShared_row {op units : Nat} {used : Nat → List (Nat × Nat)} {c : Cmd} {p : Block} {s : State} {i : Instr} {body : Nat → State → Reply}
    {after : State → State} {st : Nat} {L : List Part} (he : exec i s = zciThen after op units used c p s body) (hop : opKnown op = true)
    (h : zciFront op c s = true) (hne : st ≠ 0) (hst : commonCheck op units used c p (seen op c s) = st)
    (hq : ∀ a b, Quiet a b → Quiet (after a) (after b)) (ha : ∀ a, (after a).host = a.host) (hk : Kept L (seen op c s) (after (seen op c s))) :
    ∃ t, exec i s = .next t ∧ Completed c (cplOf op c st 0 0 s) (seen op c s) t ∧ Follows (after (complete (seen op c s) c.session.val (cplOf op c st 0 0 s))) t ∧
      KeptZ c L s t := by
  have hr : replyOf op units used c p s body = .fail st := by unfold replyOf; rw [hst, if_neg hne]
  obtain ⟨t, h1, h2, h3, h4⟩ := zciThen_complete (s' := seen op c s) (k := cplOf op c st 0 0 s) (body := body) (after := after) rfl hop h
    (by rw [hr]; simp [reply, cplOf]) rfl hq ha
  rw [hr] at h4
  exact ⟨t, he.trans h1, h2, h4, h3.keptZ hk⟩

/-! ## A row that is no command -/

/-- What the state that exec answers holds where the row's own effect left `x`. -/
structure Settled (L : List Part) (t : Tick) (s x u : State) : Prop where
  kept  : Kept L s u
  fe    : u.fe = x.fe
  clk   : u.clk = x.clk
  cal   : u.cal = x.cal
  spec  : u.spec = x.spec
  acq   : u.acq = x.acq
  disp  : u.disp = x.disp
  mon   : u.mon = x.mon
  tiu   : u.tiu = x.tiu
  grove : u.grove = x.grove
  mem   : u.mem = x.mem
  move  : u.move = x.move
  aux   : u.aux = x.aux
  ctl   : u.ctl = x.ctl
  flt   : u.flt = x.flt
  sec   : u.sec = x.sec
  pwr   : u.pwr = x.pwr
  now   : u.now = max (actsAt s t) x.now
  freeNo : u.freeNo = max s.freeNo x.freeNo
  perf  : PerfCounts x.perf u.perf
  follows : Follows x u
  host  : HostEvents x.host u.host

/-- A row of an engine that is up, from its effect `x` on the state at its tick. -/
theorem row_row {i : Instr} {t : Tick} {s x : State} {f : State → State} {L : List Part} (he : exec i s = act t s f) (hup : s.pwr.down = false)
    (hf : f (advance s t) = x) (hk : Kept L (advance s t) x) : ∃ u, exec i s = .next u ∧ Settled L t s x u := by
  obtain ⟨u, h1, h2⟩ := act_row hup t f
  rw [hf] at h2
  exact ⟨u, he.trans h1, h2.kept hk, h2.fe, h2.clk, h2.cal, h2.spec, h2.acq, h2.disp, h2.mon, h2.tiu, h2.grove, h2.mem, h2.move, h2.aux, h2.ctl,
    h2.flt, h2.sec, h2.pwr, h2.now, h2.freeNo, h2.perf, h2.follows, h2.host⟩

end Sys2Proof.Machine
end

