-- ==== Sys2Proof/Laws/Acts.lean ====
section
/-! SUPPORT. Every row but those of power, reset and HP_PERST is one `act` of an effect: what holds of `act` whatever the effect holds of it. -/

namespace Sys2Proof.Machine

/-- The outcome is that of a row that acts at some tick on `s`. -/
def Acts (s : State) (o : Host.Outcome State Fault Refusal) : Prop := ∃ t f, o = act t s f

theorem acts_act (t : Tick) (s : State) (f : State → State) : Acts s (act t s f) := ⟨t, f, rfl⟩

theorem acts_zci (op units : Nat) (used : Nat → List (Nat × Nat)) (c : Cmd) (p : Block) (s : State) (body : Nat → State → Reply) :
    Acts s (zci op units used c p s body) := by
  unfold zci zciThen; exact acts_act _ _ _

theorem acts_zciThen (after : State → State) (op units : Nat) (used : Nat → List (Nat × Nat)) (c : Cmd) (p : Block) (s : State)
    (body : Nat → State → Reply) : Acts s (zciThen after op units used c p s body) := by
  unfold zciThen; exact acts_act _ _ _

theorem acts_issue (op : Nat) (used : List (Nat × Nat)) (t n : Nat) (w : BitVec 26) (s : State) (eff : State → GCore → Nat → GEff) :
    Acts s (issue op used t n w s eff) := by
  unfold issue; exact acts_act _ _ _

theorem execSysGetInfo_acts (c : Cmd) (p : Block) (s : State) : Acts s (execSysGetInfo c p s) := by unfold execSysGetInfo; exact acts_zci _ _ _ _ _ _ _
theorem execSysAlloc_acts (c : Cmd) (p : Block) (s : State) : Acts s (execSysAlloc c p s) := by unfold execSysAlloc; exact acts_zci _ _ _ _ _ _ _
theorem execSysFree_acts (c : Cmd) (p : Block) (s : State) : Acts s (execSysFree c p s) := by unfold execSysFree; exact acts_zci _ _ _ _ _ _ _
theorem execSysGetAlloc_acts (c : Cmd) (p : Block) (s : State) : Acts s (execSysGetAlloc c p s) := by unfold execSysGetAlloc; exact acts_zci _ _ _ _ _ _ _
theorem execSysFwStage_acts (c : Cmd) (p : Block) (img : List Nat) (s : State) : Acts s (execSysFwStage c p img s) := by unfold execSysFwStage; exact acts_zci _ _ _ _ _ _ _
theorem execSysFwActivate_acts (c : Cmd) (p : Block) (s : State) : Acts s (execSysFwActivate c p s) := by unfold execSysFwActivate; exact acts_zci _ _ _ _ _ _ _
theorem execSysReset_acts (c : Cmd) (p : Block) (s : State) : Acts s (execSysReset c p s) := by unfold execSysReset; exact acts_zci _ _ _ _ _ _ _
theorem execSysNop_acts (c : Cmd) (p : Block) (s : State) : Acts s (execSysNop c p s) := by unfold execSysNop; exact acts_zci _ _ _ _ _ _ _
theorem execFeSetMode_acts (c : Cmd) (p : Block) (s : State) : Acts s (execFeSetMode c p s) := by unfold execFeSetMode; exact acts_zci _ _ _ _ _ _ _
theorem execFeSetSource_acts (c : Cmd) (p : Block) (s : State) : Acts s (execFeSetSource c p s) := by unfold execFeSetSource; exact acts_zci _ _ _ _ _ _ _
theorem execFeSetAtten_acts (c : Cmd) (p : Block) (s : State) : Acts s (execFeSetAtten c p s) := by unfold execFeSetAtten; exact acts_zci _ _ _ _ _ _ _
theorem execFeStream_acts (c : Cmd) (p : Block) (s : State) : Acts s (execFeStream c p s) := by unfold execFeStream; exact acts_zci _ _ _ _ _ _ _
theorem execFeGetStatus_acts (c : Cmd) (p : Block) (s : State) : Acts s (execFeGetStatus c p s) := by unfold execFeGetStatus; exact acts_zci _ _ _ _ _ _ _
theorem execFeSetProtect_acts (c : Cmd) (p : Block) (s : State) : Acts s (execFeSetProtect c p s) := by unfold execFeSetProtect; exact acts_zci _ _ _ _ _ _ _
theorem execClkSetRef_acts (c : Cmd) (p : Block) (s : State) : Acts s (execClkSetRef c p s) := by unfold execClkSetRef; exact acts_zci _ _ _ _ _ _ _
theorem execClkSetPll_acts (c : Cmd) (p : Block) (s : State) : Acts s (execClkSetPll c p s) := by unfold execClkSetPll; exact acts_zci _ _ _ _ _ _ _
theorem execClkBuildHops_acts (c : Cmd) (p : Block) (s : State) : Acts s (execClkBuildHops c p s) := by unfold execClkBuildHops; exact acts_zci _ _ _ _ _ _ _
theorem execClkSetPps_acts (c : Cmd) (p : Block) (s : State) : Acts s (execClkSetPps c p s) := by unfold execClkSetPps; exact acts_zci _ _ _ _ _ _ _
theorem execClkSetTime_acts (c : Cmd) (p : Block) (s : State) : Acts s (execClkSetTime c p s) := by unfold execClkSetTime; exact acts_zci _ _ _ _ _ _ _
theorem execClkGetStatus_acts (c : Cmd) (p : Block) (s : State) : Acts s (execClkGetStatus c p s) := by unfold execClkGetStatus; exact acts_zci _ _ _ _ _ _ _
theorem execCalRun_acts (c : Cmd) (p : Block) (s : State) : Acts s (execCalRun c p s) := by unfold execCalRun; exact acts_zci _ _ _ _ _ _ _
theorem execCalSetBlind_acts (c : Cmd) (p : Block) (s : State) : Acts s (execCalSetBlind c p s) := by unfold execCalSetBlind; exact acts_zci _ _ _ _ _ _ _
theorem execCalRestore_acts (c : Cmd) (p : Block) (s : State) : Acts s (execCalRestore c p s) := by unfold execCalRestore; exact acts_zci _ _ _ _ _ _ _
theorem execCalRead_acts (c : Cmd) (p : Block) (s : State) : Acts s (execCalRead c p s) := by unfold execCalRead; exact acts_zci _ _ _ _ _ _ _
theorem execCalGetRecord_acts (c : Cmd) (p : Block) (s : State) : Acts s (execCalGetRecord c p s) := by unfold execCalGetRecord; exact acts_zci _ _ _ _ _ _ _
theorem execCalGetStatus_acts (c : Cmd) (p : Block) (s : State) : Acts s (execCalGetStatus c p s) := by unfold execCalGetStatus; exact acts_zci _ _ _ _ _ _ _
theorem execSpecSetLane_acts (c : Cmd) (p : Block) (s : State) : Acts s (execSpecSetLane c p s) := by unfold execSpecSetLane; exact acts_zci _ _ _ _ _ _ _
theorem execSpecLoadWindow_acts (c : Cmd) (p : Block) (data : List Nat) (s : State) : Acts s (execSpecLoadWindow c p data s) := by unfold execSpecLoadWindow; exact acts_zci _ _ _ _ _ _ _
theorem execSpecSetDdc_acts (c : Cmd) (p : Block) (s : State) : Acts s (execSpecSetDdc c p s) := by unfold execSpecSetDdc; exact acts_zci _ _ _ _ _ _ _
theorem execSpecTuneDdc_acts (c : Cmd) (p : Block) (s : State) : Acts s (execSpecTuneDdc c p s) := by unfold execSpecTuneDdc; exact acts_zci _ _ _ _ _ _ _
theorem execSpecSetTrace_acts (c : Cmd) (p : Block) (s : State) : Acts s (execSpecSetTrace c p s) := by unfold execSpecSetTrace; exact acts_zci _ _ _ _ _ _ _
theorem execSpecSetOutput_acts (c : Cmd) (p : Block) (s : State) : Acts s (execSpecSetOutput c p s) := by unfold execSpecSetOutput; exact acts_zci _ _ _ _ _ _ _
theorem execSpecGetStatus_acts (c : Cmd) (p : Block) (s : State) : Acts s (execSpecGetStatus c p s) := by unfold execSpecGetStatus; exact acts_zci _ _ _ _ _ _ _
theorem execSpecSetGovernor_acts (c : Cmd) (p : Block) (s : State) : Acts s (execSpecSetGovernor c p s) := by unfold execSpecSetGovernor; exact acts_zci _ _ _ _ _ _ _
theorem execAcqSetTerm_acts (c : Cmd) (p : Block) (s : State) : Acts s (execAcqSetTerm c p s) := by unfold execAcqSetTerm; exact acts_zci _ _ _ _ _ _ _
theorem execAcqSetCombiner_acts (c : Cmd) (p : Block) (s : State) : Acts s (execAcqSetCombiner c p s) := by unfold execAcqSetCombiner; exact acts_zci _ _ _ _ _ _ _
theorem execAcqSetCapture_acts (c : Cmd) (p : Block) (s : State) : Acts s (execAcqSetCapture c p s) := by unfold execAcqSetCapture; exact acts_zci _ _ _ _ _ _ _
theorem execAcqArm_acts (c : Cmd) (p : Block) (s : State) : Acts s (execAcqArm c p s) := by unfold execAcqArm; exact acts_zci _ _ _ _ _ _ _
theorem execAcqStop_acts (c : Cmd) (p : Block) (s : State) : Acts s (execAcqStop c p s) := by unfold execAcqStop; exact acts_zci _ _ _ _ _ _ _
theorem execAcqForce_acts (c : Cmd) (p : Block) (s : State) : Acts s (execAcqForce c p s) := by unfold execAcqForce; exact acts_zci _ _ _ _ _ _ _
theorem execAcqLoadMask_acts (c : Cmd) (p : Block) (data : List Nat) (s : State) : Acts s (execAcqLoadMask c p data s) := by unfold execAcqLoadMask; exact acts_zci _ _ _ _ _ _ _
theorem execAcqSetMask_acts (c : Cmd) (p : Block) (s : State) : Acts s (execAcqSetMask c p s) := by unfold execAcqSetMask; exact acts_zci _ _ _ _ _ _ _
theorem execAcqSetTest_acts (c : Cmd) (p : Block) (s : State) : Acts s (execAcqSetTest c p s) := by unfold execAcqSetTest; exact acts_zci _ _ _ _ _ _ _
theorem execAcqSetEvtOut_acts (c : Cmd) (p : Block) (s : State) : Acts s (execAcqSetEvtOut c p s) := by unfold execAcqSetEvtOut; exact acts_zci _ _ _ _ _ _ _
theorem execAcqGetStatus_acts (c : Cmd) (p : Block) (s : State) : Acts s (execAcqGetStatus c p s) := by unfold execAcqGetStatus; exact acts_zci _ _ _ _ _ _ _
theorem execDensSetMap_acts (c : Cmd) (p : Block) (s : State) : Acts s (execDensSetMap c p s) := by unfold execDensSetMap; exact acts_zci _ _ _ _ _ _ _
theorem execDensClear_acts (c : Cmd) (p : Block) (s : State) : Acts s (execDensClear c p s) := by unfold execDensClear; exact acts_zci _ _ _ _ _ _ _
theorem execDensRead_acts (c : Cmd) (p : Block) (s : State) : Acts s (execDensRead c p s) := by unfold execDensRead; exact acts_zci _ _ _ _ _ _ _
theorem execDensSetPigment_acts (c : Cmd) (p : Block) (data : List Nat) (s : State) : Acts s (execDensSetPigment c p data s) := by unfold execDensSetPigment; exact acts_zci _ _ _ _ _ _ _
theorem execDispSetMode_acts (c : Cmd) (p : Block) (s : State) : Acts s (execDispSetMode c p s) := by unfold execDispSetMode; exact acts_zci _ _ _ _ _ _ _
theorem execDispSetLayer_acts (c : Cmd) (p : Block) (s : State) : Acts s (execDispSetLayer c p s) := by unfold execDispSetLayer; exact acts_zci _ _ _ _ _ _ _
theorem execDispSetEvents_acts (c : Cmd) (p : Block) (s : State) : Acts s (execDispSetEvents c p s) := by unfold execDispSetEvents; exact acts_zci _ _ _ _ _ _ _
theorem execDispFallow_acts (c : Cmd) (p : Block) (s : State) : Acts s (execDispFallow c p s) := by unfold execDispFallow; exact acts_zci _ _ _ _ _ _ _
theorem execDispAux_acts (c : Cmd) (p : Block) (s : State) : Acts s (execDispAux c p s) := by unfold execDispAux; exact acts_zci _ _ _ _ _ _ _
theorem execDispGetStatus_acts (c : Cmd) (p : Block) (s : State) : Acts s (execDispGetStatus c p s) := by unfold execDispGetStatus; exact acts_zci _ _ _ _ _ _ _
theorem execDensGetStatus_acts (c : Cmd) (p : Block) (s : State) : Acts s (execDensGetStatus c p s) := by unfold execDensGetStatus; exact acts_zci _ _ _ _ _ _ _
theorem execMonSetContext_acts (c : Cmd) (p : Block) (s : State) : Acts s (execMonSetContext c p s) := by unfold execMonSetContext; exact acts_zci _ _ _ _ _ _ _
theorem execMonLoad_acts (c : Cmd) (p : Block) (data : List Nat) (s : State) : Acts s (execMonLoad c p data s) := by unfold execMonLoad; exact acts_zci _ _ _ _ _ _ _
theorem execMonClear_acts (c : Cmd) (p : Block) (s : State) : Acts s (execMonClear c p s) := by unfold execMonClear; exact acts_zci _ _ _ _ _ _ _
theorem execMonSnapshot_acts (c : Cmd) (p : Block) (s : State) : Acts s (execMonSnapshot c p s) := by unfold execMonSnapshot; exact acts_zci _ _ _ _ _ _ _
theorem execMonRead_acts (c : Cmd) (p : Block) (s : State) : Acts s (execMonRead c p s) := by unfold execMonRead; exact acts_zci _ _ _ _ _ _ _
theorem execMonSetLog_acts (c : Cmd) (p : Block) (s : State) : Acts s (execMonSetLog c p s) := by unfold execMonSetLog; exact acts_zci _ _ _ _ _ _ _
theorem execMonGetStatus_acts (c : Cmd) (p : Block) (s : State) : Acts s (execMonGetStatus c p s) := by unfold execMonGetStatus; exact acts_zci _ _ _ _ _ _ _
theorem execTiuSetInput_acts (c : Cmd) (p : Block) (s : State) : Acts s (execTiuSetInput c p s) := by unfold execTiuSetInput; exact acts_zci _ _ _ _ _ _ _
theorem execTiuSetStats_acts (c : Cmd) (p : Block) (s : State) : Acts s (execTiuSetStats c p s) := by unfold execTiuSetStats; exact acts_zci _ _ _ _ _ _ _
theorem execTiuGetStats_acts (c : Cmd) (p : Block) (s : State) : Acts s (execTiuGetStats c p s) := by unfold execTiuGetStats; exact acts_zci _ _ _ _ _ _ _
theorem execTiuRead_acts (c : Cmd) (p : Block) (s : State) : Acts s (execTiuRead c p s) := by unfold execTiuRead; exact acts_zci _ _ _ _ _ _ _
theorem execTiuSetDrain_acts (c : Cmd) (p : Block) (s : State) : Acts s (execTiuSetDrain c p s) := by unfold execTiuSetDrain; exact acts_zci _ _ _ _ _ _ _
theorem execTiuCal_acts (c : Cmd) (p : Block) (s : State) : Acts s (execTiuCal c p s) := by unfold execTiuCal; exact acts_zci _ _ _ _ _ _ _
theorem execTiuGetStatus_acts (c : Cmd) (p : Block) (s : State) : Acts s (execTiuGetStatus c p s) := by unfold execTiuGetStatus; exact acts_zci _ _ _ _ _ _ _
theorem execGroveLoad_acts (c : Cmd) (p : Block) (data : List Nat) (s : State) : Acts s (execGroveLoad c p data s) := by unfold execGroveLoad; exact acts_zci _ _ _ _ _ _ _
theorem execGroveStart_acts (c : Cmd) (p : Block) (s : State) : Acts s (execGroveStart c p s) := by unfold execGroveStart; exact acts_zci _ _ _ _ _ _ _
theorem execGroveStop_acts (c : Cmd) (p : Block) (s : State) : Acts s (execGroveStop c p s) := by unfold execGroveStop; exact acts_zci _ _ _ _ _ _ _
theorem execGroveSetShadow_acts (c : Cmd) (p : Block) (s : State) : Acts s (execGroveSetShadow c p s) := by unfold execGroveSetShadow; exact acts_zci _ _ _ _ _ _ _
theorem execGroveSetFeed_acts (c : Cmd) (p : Block) (s : State) : Acts s (execGroveSetFeed c p s) := by unfold execGroveSetFeed; exact acts_zci _ _ _ _ _ _ _
theorem execGroveSetBarrier_acts (c : Cmd) (p : Block) (s : State) : Acts s (execGroveSetBarrier c p s) := by unfold execGroveSetBarrier; exact acts_zci _ _ _ _ _ _ _
theorem execGroveRead_acts (c : Cmd) (p : Block) (s : State) : Acts s (execGroveRead c p s) := by unfold execGroveRead; exact acts_zci _ _ _ _ _ _ _
theorem execGroveGetStatus_acts (c : Cmd) (p : Block) (s : State) : Acts s (execGroveGetStatus c p s) := by unfold execGroveGetStatus; exact acts_zci _ _ _ _ _ _ _
theorem execGroveGetFeed_acts (c : Cmd) (p : Block) (s : State) : Acts s (execGroveGetFeed c p s) := by unfold execGroveGetFeed; exact acts_zci _ _ _ _ _ _ _
theorem execMemAlloc_acts (c : Cmd) (p : Block) (s : State) : Acts s (execMemAlloc c p s) := by unfold execMemAlloc; exact acts_zci _ _ _ _ _ _ _
theorem execMemFree_acts (c : Cmd) (p : Block) (s : State) : Acts s (execMemFree c p s) := by unfold execMemFree; exact acts_zci _ _ _ _ _ _ _
theorem execMemSetRing_acts (c : Cmd) (p : Block) (s : State) : Acts s (execMemSetRing c p s) := by unfold execMemSetRing; exact acts_zci _ _ _ _ _ _ _
theorem execMemRingAck_acts (c : Cmd) (p : Block) (s : State) : Acts s (execMemRingAck c p s) := by unfold execMemRingAck; exact acts_zci _ _ _ _ _ _ _
theorem execMemRingStatus_acts (c : Cmd) (p : Block) (s : State) : Acts s (execMemRingStatus c p s) := by unfold execMemRingStatus; exact acts_zci _ _ _ _ _ _ _
theorem execMemCommons_acts (c : Cmd) (p : Block) (s : State) : Acts s (execMemCommons c p s) := by unfold execMemCommons; exact acts_zci _ _ _ _ _ _ _
theorem execMemRetire_acts (c : Cmd) (p : Block) (s : State) : Acts s (execMemRetire c p s) := by unfold execMemRetire; exact acts_zci _ _ _ _ _ _ _
theorem execMemGetStatus_acts (c : Cmd) (p : Block) (s : State) : Acts s (execMemGetStatus c p s) := by unfold execMemGetStatus; exact acts_zci _ _ _ _ _ _ _
theorem execMemGetPoison_acts (c : Cmd) (p : Block) (s : State) : Acts s (execMemGetPoison c p s) := by unfold execMemGetPoison; exact acts_zci _ _ _ _ _ _ _
theorem execDmaSetChannel_acts (c : Cmd) (p : Block) (s : State) : Acts s (execDmaSetChannel c p s) := by unfold execDmaSetChannel; exact acts_zci _ _ _ _ _ _ _
theorem execDmaSetShadow_acts (c : Cmd) (p : Block) (s : State) : Acts s (execDmaSetShadow c p s) := by unfold execDmaSetShadow; exact acts_zci _ _ _ _ _ _ _
theorem execDmaRaise_acts (c : Cmd) (p : Block) (s : State) : Acts s (execDmaRaise c p s) := by unfold execDmaRaise; exact acts_zci _ _ _ _ _ _ _
theorem execDmaSetTimer_acts (c : Cmd) (p : Block) (s : State) : Acts s (execDmaSetTimer c p s) := by unfold execDmaSetTimer; exact acts_zci _ _ _ _ _ _ _
theorem execDmaGetStatus_acts (c : Cmd) (p : Block) (s : State) : Acts s (execDmaGetStatus c p s) := by unfold execDmaGetStatus; exact acts_zci _ _ _ _ _ _ _
theorem execStreamSet_acts (c : Cmd) (p : Block) (s : State) : Acts s (execStreamSet c p s) := by unfold execStreamSet; exact acts_zci _ _ _ _ _ _ _
theorem execStorSetPort_acts (c : Cmd) (p : Block) (s : State) : Acts s (execStorSetPort c p s) := by unfold execStorSetPort; exact acts_zci _ _ _ _ _ _ _
theorem execStorFormat_acts (c : Cmd) (p : Block) (s : State) : Acts s (execStorFormat c p s) := by unfold execStorFormat; exact acts_zci _ _ _ _ _ _ _
theorem execStorMount_acts (c : Cmd) (p : Block) (s : State) : Acts s (execStorMount c p s) := by unfold execStorMount; exact acts_zci _ _ _ _ _ _ _
theorem execStorUnmount_acts (c : Cmd) (p : Block) (s : State) : Acts s (execStorUnmount c p s) := by unfold execStorUnmount; exact acts_zci _ _ _ _ _ _ _
theorem execRecOpen_acts (c : Cmd) (p : Block) (s : State) : Acts s (execRecOpen c p s) := by unfold execRecOpen; exact acts_zci _ _ _ _ _ _ _
theorem execRecClose_acts (c : Cmd) (p : Block) (s : State) : Acts s (execRecClose c p s) := by unfold execRecClose; exact acts_zci _ _ _ _ _ _ _
theorem execStorGetStatus_acts (c : Cmd) (p : Block) (s : State) : Acts s (execStorGetStatus c p s) := by unfold execStorGetStatus; exact acts_zci _ _ _ _ _ _ _
theorem execStorLogPage_acts (c : Cmd) (p : Block) (s : State) : Acts s (execStorLogPage c p s) := by unfold execStorLogPage; exact acts_zci _ _ _ _ _ _ _
theorem execAuxSetRef_acts (c : Cmd) (p : Block) (s : State) : Acts s (execAuxSetRef c p s) := by unfold execAuxSetRef; exact acts_zci _ _ _ _ _ _ _
theorem execAuxSetInput_acts (c : Cmd) (p : Block) (s : State) : Acts s (execAuxSetInput c p s) := by unfold execAuxSetInput; exact acts_zci _ _ _ _ _ _ _
theorem execAuxSetSeq_acts (c : Cmd) (p : Block) (s : State) : Acts s (execAuxSetSeq c p s) := by unfold execAuxSetSeq; exact acts_zci _ _ _ _ _ _ _
theorem execAuxGetStatus_acts (c : Cmd) (p : Block) (s : State) : Acts s (execAuxGetStatus c p s) := by unfold execAuxGetStatus; exact acts_zci _ _ _ _ _ _ _
theorem execCtlSetOutput_acts (c : Cmd) (p : Block) (s : State) : Acts s (execCtlSetOutput c p s) := by unfold execCtlSetOutput; exact acts_zci _ _ _ _ _ _ _
theorem execCtlWrite_acts (c : Cmd) (p : Block) (s : State) : Acts s (execCtlWrite c p s) := by unfold execCtlWrite; exact acts_zci _ _ _ _ _ _ _
theorem execCtlGetStatus_acts (c : Cmd) (p : Block) (s : State) : Acts s (execCtlGetStatus c p s) := by unfold execCtlGetStatus; exact acts_zci _ _ _ _ _ _ _
theorem execFltGetStatus_acts (c : Cmd) (p : Block) (s : State) : Acts s (execFltGetStatus c p s) := by unfold execFltGetStatus; exact acts_zci _ _ _ _ _ _ _
theorem execFltSetSeverity_acts (c : Cmd) (p : Block) (s : State) : Acts s (execFltSetSeverity c p s) := by unfold execFltSetSeverity; exact acts_zci _ _ _ _ _ _ _
theorem execFltGetRecord_acts (c : Cmd) (p : Block) (s : State) : Acts s (execFltGetRecord c p s) := by unfold execFltGetRecord; exact acts_zci _ _ _ _ _ _ _
theorem execFltClear_acts (c : Cmd) (p : Block) (s : State) : Acts s (execFltClear c p s) := by unfold execFltClear; exact acts_zci _ _ _ _ _ _ _
theorem execFltForce_acts (c : Cmd) (p : Block) (s : State) : Acts s (execFltForce c p s) := by unfold execFltForce; exact acts_zci _ _ _ _ _ _ _
theorem execSecGetCert_acts (c : Cmd) (p : Block) (s : State) : Acts s (execSecGetCert c p s) := by unfold execSecGetCert; exact acts_zci _ _ _ _ _ _ _
theorem execSecAttest_acts (c : Cmd) (p : Block) (s : State) : Acts s (execSecAttest c p s) := by unfold execSecAttest; exact acts_zci _ _ _ _ _ _ _
theorem execSecSetLifecycle_acts (c : Cmd) (p : Block) (auth : List Nat) (s : State) : Acts s (execSecSetLifecycle c p auth s) := by unfold execSecSetLifecycle; exact acts_zciThen _ _ _ _ _ _ _ _
theorem execSecGetStatus_acts (c : Cmd) (p : Block) (s : State) : Acts s (execSecGetStatus c p s) := by unfold execSecGetStatus; exact acts_zci _ _ _ _ _ _ _
theorem execPerfSetCounter_acts (c : Cmd) (p : Block) (s : State) : Acts s (execPerfSetCounter c p s) := by unfold execPerfSetCounter; exact acts_zci _ _ _ _ _ _ _
theorem execPerfControl_acts (c : Cmd) (p : Block) (s : State) : Acts s (execPerfControl c p s) := by unfold execPerfControl; exact acts_zci _ _ _ _ _ _ _
theorem execPerfRead_acts (c : Cmd) (p : Block) (s : State) : Acts s (execPerfRead c p s) := by unfold execPerfRead; exact acts_zci _ _ _ _ _ _ _
theorem execGNop_acts (t : Nat) (core : Nat) (w : BitVec 26) (s : State) : Acts s (execGNop t core w s) := by unfold execGNop; exact acts_issue _ _ _ _ _ _ _
theorem execGAdd_acts (t : Nat) (core : Nat) (w : BitVec 26) (s : State) : Acts s (execGAdd t core w s) := by unfold execGAdd aluR; exact acts_issue _ _ _ _ _ _ _
theorem execGSub_acts (t : Nat) (core : Nat) (w : BitVec 26) (s : State) : Acts s (execGSub t core w s) := by unfold execGSub aluR; exact acts_issue _ _ _ _ _ _ _
theorem execGAnd_acts (t : Nat) (core : Nat) (w : BitVec 26) (s : State) : Acts s (execGAnd t core w s) := by unfold execGAnd aluR; exact acts_issue _ _ _ _ _ _ _
theorem execGOr_acts (t : Nat) (core : Nat) (w : BitVec 26) (s : State) : Acts s (execGOr t core w s) := by unfold execGOr aluR; exact acts_issue _ _ _ _ _ _ _
theorem execGXor_acts (t : Nat) (core : Nat) (w : BitVec 26) (s : State) : Acts s (execGXor t core w s) := by unfold execGXor aluR; exact acts_issue _ _ _ _ _ _ _
theorem execGShl_acts (t : Nat) (core : Nat) (w : BitVec 26) (s : State) : Acts s (execGShl t core w s) := by unfold execGShl aluR; exact acts_issue _ _ _ _ _ _ _
theorem execGShr_acts (t : Nat) (core : Nat) (w : BitVec 26) (s : State) : Acts s (execGShr t core w s) := by unfold execGShr aluR; exact acts_issue _ _ _ _ _ _ _
theorem execGSar_acts (t : Nat) (core : Nat) (w : BitVec 26) (s : State) : Acts s (execGSar t core w s) := by unfold execGSar aluR; exact acts_issue _ _ _ _ _ _ _
theorem execGSlt_acts (t : Nat) (core : Nat) (w : BitVec 26) (s : State) : Acts s (execGSlt t core w s) := by unfold execGSlt aluR; exact acts_issue _ _ _ _ _ _ _
theorem execGSltu_acts (t : Nat) (core : Nat) (w : BitVec 26) (s : State) : Acts s (execGSltu t core w s) := by unfold execGSltu aluR; exact acts_issue _ _ _ _ _ _ _
theorem execGMul_acts (t : Nat) (core : Nat) (w : BitVec 26) (s : State) : Acts s (execGMul t core w s) := by unfold execGMul aluR; exact acts_issue _ _ _ _ _ _ _
theorem execGAddi_acts (t : Nat) (core : Nat) (w : BitVec 26) (s : State) : Acts s (execGAddi t core w s) := by unfold execGAddi aluI; exact acts_issue _ _ _ _ _ _ _
theorem execGAndi_acts (t : Nat) (core : Nat) (w : BitVec 26) (s : State) : Acts s (execGAndi t core w s) := by unfold execGAndi aluI; exact acts_issue _ _ _ _ _ _ _
theorem execGOri_acts (t : Nat) (core : Nat) (w : BitVec 26) (s : State) : Acts s (execGOri t core w s) := by unfold execGOri aluI; exact acts_issue _ _ _ _ _ _ _
theorem execGShi_acts (t : Nat) (core : Nat) (w : BitVec 26) (s : State) : Acts s (execGShi t core w s) := by unfold execGShi; exact acts_issue _ _ _ _ _ _ _
theorem execGMovi_acts (t : Nat) (core : Nat) (w : BitVec 26) (s : State) : Acts s (execGMovi t core w s) := by unfold execGMovi; exact acts_issue _ _ _ _ _ _ _
theorem execGMovhi_acts (t : Nat) (core : Nat) (w : BitVec 26) (s : State) : Acts s (execGMovhi t core w s) := by unfold execGMovhi; exact acts_issue _ _ _ _ _ _ _
theorem execGCmul_acts (t : Nat) (core : Nat) (w : BitVec 26) (s : State) : Acts s (execGCmul t core w s) := by unfold execGCmul cplxR; exact acts_issue _ _ _ _ _ _ _
theorem execGCadds_acts (t : Nat) (core : Nat) (w : BitVec 26) (s : State) : Acts s (execGCadds t core w s) := by unfold execGCadds cplxR; exact acts_issue _ _ _ _ _ _ _
theorem execGCsubs_acts (t : Nat) (core : Nat) (w : BitVec 26) (s : State) : Acts s (execGCsubs t core w s) := by unfold execGCsubs cplxR; exact acts_issue _ _ _ _ _ _ _
theorem execGMovr_acts (t : Nat) (core : Nat) (w : BitVec 26) (s : State) : Acts s (execGMovr t core w s) := by unfold execGMovr; exact acts_issue _ _ _ _ _ _ _
theorem execGSmov_acts (t : Nat) (core : Nat) (w : BitVec 26) (s : State) : Acts s (execGSmov t core w s) := by unfold execGSmov; exact acts_issue _ _ _ _ _ _ _
theorem execGMovsr_acts (t : Nat) (core : Nat) (w : BitVec 26) (s : State) : Acts s (execGMovsr t core w s) := by unfold execGMovsr; exact acts_issue _ _ _ _ _ _ _
theorem execGMovrs_acts (t : Nat) (core : Nat) (w : BitVec 26) (s : State) : Acts s (execGMovrs t core w s) := by unfold execGMovrs; exact acts_issue _ _ _ _ _ _ _
theorem execGLd_acts (t : Nat) (core : Nat) (w : BitVec 26) (s : State) : Acts s (execGLd t core w s) := by unfold execGLd loadM; exact acts_issue _ _ _ _ _ _ _
theorem execGLdh_acts (t : Nat) (core : Nat) (w : BitVec 26) (s : State) : Acts s (execGLdh t core w s) := by unfold execGLdh loadM; exact acts_issue _ _ _ _ _ _ _
theorem execGSt_acts (t : Nat) (core : Nat) (w : BitVec 26) (s : State) : Acts s (execGSt t core w s) := by unfold execGSt storeM; exact acts_issue _ _ _ _ _ _ _
theorem execGSth_acts (t : Nat) (core : Nat) (w : BitVec 26) (s : State) : Acts s (execGSth t core w s) := by unfold execGSth storeM; exact acts_issue _ _ _ _ _ _ _
theorem execGSta_acts (t : Nat) (core : Nat) (w : BitVec 26) (s : State) : Acts s (execGSta t core w s) := by unfold execGSta; exact acts_issue _ _ _ _ _ _ _
theorem execGVsta_acts (t : Nat) (core : Nat) (w : BitVec 26) (s : State) : Acts s (execGVsta t core w s) := by unfold execGVsta; exact acts_issue _ _ _ _ _ _ _
theorem execGRda_acts (t : Nat) (core : Nat) (w : BitVec 26) (s : State) : Acts s (execGRda t core w s) := by unfold execGRda; exact acts_issue _ _ _ _ _ _ _
theorem execGVmacD_acts (t : Nat) (core : Nat) (w : BitVec 26) (s : State) : Acts s (execGVmacD t core w s) := by unfold execGVmacD; exact acts_issue _ _ _ _ _ _ _
theorem execGVmacP_acts (t : Nat) (core : Nat) (w : BitVec 26) (s : State) : Acts s (execGVmacP t core w s) := by unfold execGVmacP; exact acts_issue _ _ _ _ _ _ _
theorem execGVmagP_acts (t : Nat) (core : Nat) (w : BitVec 26) (s : State) : Acts s (execGVmagP t core w s) := by unfold execGVmagP; exact acts_issue _ _ _ _ _ _ _
theorem execGCmac_acts (t : Nat) (core : Nat) (w : BitVec 26) (s : State) : Acts s (execGCmac t core w s) := by unfold execGCmac; exact acts_issue _ _ _ _ _ _ _
theorem execGBr_acts (t : Nat) (core : Nat) (w : BitVec 26) (s : State) : Acts s (execGBr t core w s) := by unfold execGBr; exact acts_issue _ _ _ _ _ _ _
theorem execGCall_acts (t : Nat) (core : Nat) (w : BitVec 26) (s : State) : Acts s (execGCall t core w s) := by unfold execGCall; exact acts_issue _ _ _ _ _ _ _
theorem execGJr_acts (t : Nat) (core : Nat) (w : BitVec 26) (s : State) : Acts s (execGJr t core w s) := by unfold execGJr; exact acts_issue _ _ _ _ _ _ _
theorem execGRepeat_acts (t : Nat) (core : Nat) (w : BitVec 26) (s : State) : Acts s (execGRepeat t core w s) := by unfold execGRepeat; exact acts_issue _ _ _ _ _ _ _
theorem execGRepr_acts (t : Nat) (core : Nat) (w : BitVec 26) (s : State) : Acts s (execGRepr t core w s) := by unfold execGRepr; exact acts_issue _ _ _ _ _ _ _
theorem execGReti_acts (t : Nat) (core : Nat) (w : BitVec 26) (s : State) : Acts s (execGReti t core w s) := by unfold execGReti; exact acts_issue _ _ _ _ _ _ _
theorem execGWait_acts (t : Nat) (core : Nat) (w : BitVec 26) (s : State) : Acts s (execGWait t core w s) := by unfold execGWait; exact acts_issue _ _ _ _ _ _ _
theorem execGHalt_acts (t : Nat) (core : Nat) (w : BitVec 26) (s : State) : Acts s (execGHalt t core w s) := by unfold execGHalt; exact acts_issue _ _ _ _ _ _ _
theorem execGBar_acts (t : Nat) (core : Nat) (w : BitVec 26) (s : State) : Acts s (execGBar t core w s) := by unfold execGBar; exact acts_issue _ _ _ _ _ _ _
theorem execGFrel_acts (t : Nat) (core : Nat) (w : BitVec 26) (s : State) : Acts s (execGFrel t core w s) := by unfold execGFrel; exact acts_issue _ _ _ _ _ _ _
theorem execGSync_acts (t : Nat) (core : Nat) (w : BitVec 26) (s : State) : Acts s (execGSync t core w s) := by unfold execGSync; exact acts_issue _ _ _ _ _ _ _
theorem execGNotify_acts (t : Nat) (core : Nat) (w : BitVec 26) (s : State) : Acts s (execGNotify t core w s) := by unfold execGNotify; exact acts_issue _ _ _ _ _ _ _
theorem execGPost_acts (t : Nat) (core : Nat) (w : BitVec 26) (s : State) : Acts s (execGPost t core w s) := by unfold execGPost; exact acts_issue _ _ _ _ _ _ _
theorem execSqTailWrite_acts (t : Nat) (n : Nat) (v : Nat) (s : State) : Acts s (execSqTailWrite t n v s) := by unfold execSqTailWrite; exact acts_act _ _ _
theorem execCqHeadWrite_acts (t : Nat) (n : Nat) (v : Nat) (s : State) : Acts s (execCqHeadWrite t n v s) := by unfold execCqHeadWrite; exact acts_act _ _ _
theorem execEvtHeadWrite_acts (t : Nat) (v : Nat) (s : State) : Acts s (execEvtHeadWrite t v s) := by unfold execEvtHeadWrite; exact acts_act _ _ _
theorem execStrdbWrite_acts (t : Nat) (n : Nat) (v : Nat) (s : State) : Acts s (execStrdbWrite t n v s) := by unfold execStrdbWrite; exact acts_act _ _ _
theorem execQctlOpen_acts (t : Nat) (n : Nat) (s : State) : Acts s (execQctlOpen t n s) := by unfold execQctlOpen; exact acts_act _ _ _
theorem execQctlReclaim_acts (t : Nat) (n : Nat) (s : State) : Acts s (execQctlReclaim t n s) := by unfold execQctlReclaim; exact acts_act _ _ _
theorem execQctlClose_acts (t : Nat) (n : Nat) (s : State) : Acts s (execQctlClose t n s) := by unfold execQctlClose; exact acts_act _ _ _
theorem execLeaseWrite_acts (t : Nat) (n : Nat) (v : Nat) (s : State) : Acts s (execLeaseWrite t n v s) := by unfold execLeaseWrite; exact acts_act _ _ _
theorem execEvtCtlWrite_acts (t : Nat) (v : Nat) (s : State) : Acts s (execEvtCtlWrite t v s) := by unfold execEvtCtlWrite; exact acts_act _ _ _
theorem execTime0Read_acts (t : Nat) (s : State) : Acts s (execTime0Read t s) := by unfold execTime0Read; exact acts_act _ _ _
theorem execSerial0Read_acts (t : Nat) (s : State) : Acts s (execSerial0Read t s) := by unfold execSerial0Read; exact acts_act _ _ _
theorem execLatchedWordRead_acts (t : Nat) (k : Nat) (s : State) : Acts s (execLatchedWordRead t k s) := by unfold execLatchedWordRead; exact acts_act _ _ _
theorem execAuxDataRead_acts (t : Nat) (s : State) : Acts s (execAuxDataRead t s) := by unfold execAuxDataRead; exact acts_act _ _ _
theorem execCtlCodeWrite_acts (t : Nat) (n : Nat) (v : Nat) (s : State) : Acts s (execCtlCodeWrite t n v s) := by unfold execCtlCodeWrite; exact acts_act _ _ _
theorem execRegisterWrite_acts (t : Nat) (off : Nat) (v : Nat) (kind : Nat) (s : State) : Acts s (execRegisterWrite t off v kind s) := by unfold execRegisterWrite; exact acts_act _ _ _
theorem execCommandFetch_acts (c : Cmd) (opcode : BitVec 16) (res : Nat) (s : State) : Acts s (execCommandFetch c opcode res s) := by unfold execCommandFetch; exact acts_act _ _ _
theorem execCommandTimeout_acts (t : Nat) (n : Nat) (i : Nat) (s : State) : Acts s (execCommandTimeout t n i s) := by unfold execCommandTimeout; exact acts_act _ _ _
theorem execCompletionSignalHoldEnd_acts (t : Nat) (n : Nat) (s : State) : Acts s (execCompletionSignalHoldEnd t n s) := by unfold execCompletionSignalHoldEnd; exact acts_act _ _ _
theorem execEventDelayExpiry_acts (t : Nat) (s : State) : Acts s (execEventDelayExpiry t s) := by unfold execEventDelayExpiry; exact acts_act _ _ _
theorem execSysLease_acts (t : Nat) (n : Nat) (s : State) : Acts s (execSysLease t n s) := by unfold execSysLease; exact acts_act _ _ _
theorem execLeaseExpiry_acts (t : Nat) (n : Nat) (s : State) : Acts s (execLeaseExpiry t n s) := by unfold execLeaseExpiry; exact acts_act _ _ _
theorem execReleaseEnd_acts (t : Nat) (n : Nat) (s : State) : Acts s (execReleaseEnd t n s) := by unfold execReleaseEnd; exact acts_act _ _ _
theorem execHeartbeatAdvance_acts (t : Nat) (s : State) : Acts s (execHeartbeatAdvance t s) := by unfold execHeartbeatAdvance; exact acts_act _ _ _
theorem execGrainTag_acts (t : Nat) (id : Nat) (codes : List Nat) (s : State) : Acts s (execGrainTag t id codes s) := by unfold execGrainTag; exact acts_act _ _ _
theorem execOverloadEnd_acts (t : Nat) (id : Nat) (s : State) : Acts s (execOverloadEnd t id s) := by unfold execOverloadEnd; exact acts_act _ _ _
theorem execEpochRollover_acts (t : Nat) (id : Nat) (s : State) : Acts s (execEpochRollover t id s) := by unfold execEpochRollover; exact acts_act _ _ _
theorem execGrainDelivery_acts (t : Nat) (k : Nat) (id : Nat) (n : Nat) (tid : Nat) (ok : Bool) (fill : Nat) (s : State) : Acts s (execGrainDelivery t k id n tid ok fill s) := by unfold execGrainDelivery; exact acts_act _ _ _
theorem execAcqArmAtCt_acts (t : Nat) (s : State) : Acts s (execAcqArmAtCt t s) := by unfold execAcqArmAtCt; exact acts_act _ _ _
theorem execSpectrumCompute_acts (t : Nat) (c : Nat) (margin : Nat) (s : State) : Acts s (execSpectrumCompute t c margin s) := by unfold execSpectrumCompute; exact acts_act _ _ _
theorem execTimeTestVerdict_acts (t : Nat) (a : Nat) (s : State) : Acts s (execTimeTestVerdict t a s) := by unfold execTimeTestVerdict; exact acts_act _ _ _
theorem execEvtOutPulse_acts (t : Nat) (s : State) : Acts s (execEvtOutPulse t s) := by unfold execEvtOutPulse; exact acts_act _ _ _
theorem execEvtOutPulseEnd_acts (t : Nat) (s : State) : Acts s (execEvtOutPulseEnd t s) := by unfold execEvtOutPulseEnd; exact acts_act _ _ _
theorem execGovRaiseStep_acts (t : Nat) (ms : List (Nat × Nat)) (s : State) : Acts s (execGovRaiseStep t ms s) := by unfold execGovRaiseStep; exact acts_act _ _ _
theorem execGovLowerStep_acts (t : Nat) (ms : List (Nat × Nat)) (s : State) : Acts s (execGovLowerStep t ms s) := by unfold execGovLowerStep; exact acts_act _ _ _
theorem execGovShed_acts (t : Nat) (ms : List (Nat × Nat)) (s : State) : Acts s (execGovShed t ms s) := by unfold execGovShed; exact acts_act _ _ _
theorem execGovRestore_acts (t : Nat) (ms : List (Nat × Nat)) (s : State) : Acts s (execGovRestore t ms s) := by unfold execGovRestore; exact acts_act _ _ _
theorem execDecaySweep_acts (t : Nat) (s : State) : Acts s (execDecaySweep t s) := by unfold execDecaySweep; exact acts_act _ _ _
theorem execDensReadCopyEnd_acts (t : Nat) (i : Nat) (s : State) : Acts s (execDensReadCopyEnd t i s) := by unfold execDensReadCopyEnd; exact acts_act _ _ _
theorem execMonitorRound_acts (t : Nat) (s : State) : Acts s (execMonitorRound t s) := by unfold execMonitorRound; exact acts_act _ _ _
theorem execMonEvlost_acts (t : Nat) (s : State) : Acts s (execMonEvlost t s) := by unfold execMonEvlost; exact acts_act _ _ _
theorem execMonSnapshotWriteEnd_acts (t : Nat) (s : State) : Acts s (execMonSnapshotWriteEnd t s) := by unfold execMonSnapshotWriteEnd; exact acts_act _ _ _
theorem execProtectTrip_acts (t : Nat) (i : Nat) (s : State) : Acts s (execProtectTrip t i s) := by unfold execProtectTrip; exact acts_act _ _ _
theorem execFeStreamAtCt_acts (t : Nat) (s : State) : Acts s (execFeStreamAtCt t s) := by unfold execFeStreamAtCt; exact acts_act _ _ _
theorem execPllLockLoss_acts (t : Nat) (k : Nat) (freq : Bool) (s : State) : Acts s (execPllLockLoss t k freq s) := by unfold execPllLockLoss; exact acts_act _ _ _
theorem execPllSyncEdge_acts (t : Nat) (k : Nat) (found : List Nat) (s : State) : Acts s (execPllSyncEdge t k found s) := by unfold execPllSyncEdge; exact acts_act _ _ _
theorem execRelockAttemptFail_acts (t : Nat) (k : Nat) (found : List Nat) (s : State) : Acts s (execRelockAttemptFail t k found s) := by unfold execRelockAttemptFail; exact acts_act _ _ _
theorem execRefInLoss_acts (t : Nat) (freq : Bool) (ppm : Int) (s : State) : Acts s (execRefInLoss t freq ppm s) := by unfold execRefInLoss; exact acts_act _ _ _
theorem execRefLoopLock_acts (t : Nat) (s : State) : Acts s (execRefLoopLock t s) := by unfold execRefLoopLock; exact acts_act _ _ _
theorem execNodeLoss_acts (t : Nat) (s : State) : Acts s (execNodeLoss t s) := by unfold execNodeLoss; exact acts_act _ _ _
theorem execNodeRecovery_acts (t : Nat) (s : State) : Acts s (execNodeRecovery t s) := by unfold execNodeRecovery; exact acts_act _ _ _
theorem execInputEdge_acts (t : Nat) (n : Nat) (fall : Bool) (c : Nat) (s : State) : Acts s (execInputEdge t n fall c s) := by unfold execInputEdge; exact acts_act _ _ _
theorem execPpsLoss_acts (t : Nat) (s : State) : Acts s (execPpsLoss t s) := by unfold execPpsLoss; exact acts_act _ _ _
theorem execPendingEdgeClose_acts (t : Nat) (u : Nat) (s : State) : Acts s (execPendingEdgeClose t u s) := by unfold execPendingEdgeClose; exact acts_act _ _ _
theorem execTiuLost_acts (t : Nat) (n : Nat) (s : State) : Acts s (execTiuLost t n s) := by unfold execTiuLost; exact acts_act _ _ _
theorem execQueueDrain_acts (t : Nat) (n : Nat) (k : Nat) (s : State) : Acts s (execQueueDrain t n k s) := by unfold execQueueDrain; exact acts_act _ _ _
theorem execTiuCalTestEnd_acts (t : Nat) (n : Nat) (counts : List Nat) (s : State) : Acts s (execTiuCalTestEnd t n counts s) := by unfold execTiuCalTestEnd; exact acts_act _ _ _
theorem execCalStepEnd_acts (t : Nat) (tgt : Nat) (m : Measured) (s : State) : Acts s (execCalStepEnd t tgt m s) := by unfold execCalStepEnd; exact acts_act _ _ _
theorem execBlindRun_acts (t : Nat) (tgt : Nat) (s : State) : Acts s (execBlindRun t tgt s) := by unfold execBlindRun; exact acts_act _ _ _
theorem execCalDrift_acts (t : Nat) (tgt : Nat) (tj : Int) (s : State) : Acts s (execCalDrift t tgt tj s) := by unfold execCalDrift; exact acts_act _ _ _
theorem execHandOver_acts (t : Nat) (n : Nat) (s : State) : Acts s (execHandOver t n s) := by unfold execHandOver; exact acts_act _ _ _
theorem execHandlerReturn_acts (t : Nat) (n : Nat) (s : State) : Acts s (execHandlerReturn t n s) := by unfold execHandlerReturn; exact acts_act _ _ _
theorem execWaitEnd_acts (t : Nat) (n : Nat) (s : State) : Acts s (execWaitEnd t n s) := by unfold execWaitEnd; exact acts_act _ _ _
theorem execCommonsLoadReturn_acts (t : Nat) (n : Nat) (s : State) : Acts s (execCommonsLoadReturn t n s) := by unfold execCommonsLoadReturn; exact acts_act _ _ _
theorem execSyncComplete_acts (t : Nat) (n : Nat) (s : State) : Acts s (execSyncComplete t n s) := by unfold execSyncComplete; exact acts_act _ _ _
theorem execTimerMatch_acts (t : Nat) (n : Nat) (s : State) : Acts s (execTimerMatch t n s) := by unfold execTimerMatch; exact acts_act _ _ _
theorem execFeedCopyBlock_acts (t : Nat) (i : Nat) (s : State) : Acts s (execFeedCopyBlock t i s) := by unfold execFeedCopyBlock; exact acts_act _ _ _
theorem execFeedWriteOut_acts (t : Nat) (i : Nat) (s : State) : Acts s (execFeedWriteOut t i s) := by unfold execFeedWriteOut; exact acts_act _ _ _
theorem execRefresh_acts (t : Nat) (s : State) : Acts s (execRefresh t s) := by unfold execRefresh; exact acts_act _ _ _
theorem execPatrolScrub_acts (t : Nat) (a : Nat) (s : State) : Acts s (execPatrolScrub t a s) := by unfold execPatrolScrub; exact acts_act _ _ _
theorem execCorrectableError_acts (t : Nat) (a : Nat) (master : Nat) (inst : Nat) (s : State) : Acts s (execCorrectableError t a master inst s) := by unfold execCorrectableError; exact acts_act _ _ _
theorem execUncorrectableError_acts (t : Nat) (a : Nat) (cmdErr : Bool) (master : Nat) (inst : Nat) (s : State) : Acts s (execUncorrectableError t a cmdErr master inst s) := by unfold execUncorrectableError; exact acts_act _ _ _
theorem execRankSwitchOver_acts (t : Nat) (s : State) : Acts s (execRankSwitchOver t s) := by unfold execRankSwitchOver; exact acts_act _ _ _
theorem execMigrationRowCopy_acts (t : Nat) (bad : List Nat) (s : State) : Acts s (execMigrationRowCopy t bad s) := by unfold execMigrationRowCopy; exact acts_act _ _ _
theorem execMemRingLost_acts (t : Nat) (s : State) : Acts s (execMemRingLost t s) := by unfold execMemRingLost; exact acts_act _ _ _
theorem execZeroingDone_acts (t : Nat) (n : Nat) (s : State) : Acts s (execZeroingDone t n s) := by unfold execZeroingDone; exact acts_act _ _ _
theorem execOnDieError_acts (t : Nat) (kind : Nat) (n : Nat) (addr : Nat) (core : Nat) (double : Bool) (s : State) : Acts s (execOnDieError t kind n addr core double s) := by unfold execOnDieError; exact acts_act _ _ _
theorem execDmaHandover_acts (t : Nat) (n : Nat) (s : State) : Acts s (execDmaHandover t n s) := by unfold execDmaHandover; exact acts_act _ _ _
theorem execDmaBurst_acts (t : Nat) (n : Nat) (data : List Nat) (ok : Bool) (s : State) : Acts s (execDmaBurst t n data ok s) := by unfold execDmaBurst; exact acts_act _ _ _
theorem execDescriptorEnd_acts (t : Nat) (n : Nat) (s : State) : Acts s (execDescriptorEnd t n s) := by unfold execDescriptorEnd; exact acts_act _ _ _
theorem execTimerLinePulse_acts (t : Nat) (l : Nat) (s : State) : Acts s (execTimerLinePulse t l s) := by unfold execTimerLinePulse; exact acts_act _ _ _
theorem execStreamRecordCopy_acts (t : Nat) (n : Nat) (held : Nat) (s : State) : Acts s (execStreamRecordCopy t n held s) := by unfold execStreamRecordCopy; exact acts_act _ _ _
theorem execCheckpoint_acts (t : Nat) (s : State) : Acts s (execCheckpoint t s) := by unfold execCheckpoint; exact acts_act _ _ _
theorem execStripeComplete_acts (t : Nat) (q : Nat) (held : Nat) (s : State) : Acts s (execStripeComplete t q held s) := by unfold execStripeComplete; exact acts_act _ _ _
theorem execMountMeasurementEnd_acts (t : Nat) (rates : List Nat) (s : State) : Acts s (execMountMeasurementEnd t rates s) := by unfold execMountMeasurementEnd; exact acts_act _ _ _
theorem execDriveFail_acts (t : Nat) (n : Nat) (cause : Nat) (status : Nat) (s : State) : Acts s (execDriveFail t n cause status s) := by unfold execDriveFail; exact acts_act _ _ _
theorem execDispLineStart_acts (t : Nat) (p : Nat) (long : Bool) (under : List Nat) (late : Bool) (s : State) : Acts s (execDispLineStart t p long under late s) := by unfold execDispLineStart; exact acts_act _ _ _
theorem execFrameDone_acts (t : Nat) (p : Nat) (s : State) : Acts s (execFrameDone t p s) := by unfold execFrameDone; exact acts_act _ _ _
theorem execHpdLoss_acts (t : Nat) (p : Nat) (s : State) : Acts s (execHpdLoss t p s) := by unfold execHpdLoss; exact acts_act _ _ _
theorem execHpdRestore_acts (t : Nat) (p : Nat) (ok : Bool) (s : State) : Acts s (execHpdRestore t p ok s) := by unfold execHpdRestore; exact acts_act _ _ _
theorem execHpdIrq_acts (t : Nat) (p : Nat) (lost : Bool) (ok : Bool) (psr : Bool) (s : State) : Acts s (execHpdIrq t p lost ok psr s) := by unfold execHpdIrq; exact acts_act _ _ _
theorem execPanelHpdWait_acts (t : Nat) (p : Nat) (high : Bool) (lanes : Nat) (rate : Nat) (psr : Bool) (s : State) : Acts s (execPanelHpdWait t p high lanes rate psr s) := by unfold execPanelHpdWait; exact acts_act _ _ _
theorem execBldelayExpiry_acts (t : Nat) (p : Nat) (s : State) : Acts s (execBldelayExpiry t p s) := by unfold execBldelayExpiry; exact acts_act _ _ _
theorem execVddenOffDelay_acts (t : Nat) (p : Nat) (s : State) : Acts s (execVddenOffDelay t p s) := by unfold execVddenOffDelay; exact acts_act _ _ _
theorem execAuxPassStart_acts (t : Nat) (s : State) : Acts s (execAuxPassStart t s) := by unfold execAuxPassStart; exact acts_act _ _ _
theorem execAuxConversion_acts (t : Nat) (v : Int) (vref : Nat) (s : State) : Acts s (execAuxConversion t v vref s) := by unfold execAuxConversion; exact acts_act _ _ _
theorem execAuxLimitPeriodEnd_acts (t : Nat) (s : State) : Acts s (execAuxLimitPeriodEnd t s) := by unfold execAuxLimitPeriodEnd; exact acts_act _ _ _
theorem execAuxOvr_acts (t : Nat) (s : State) : Acts s (execAuxOvr t s) := by unfold execAuxOvr; exact acts_act _ _ _
theorem execAuxRef_acts (t : Nat) (v : Nat) (s : State) : Acts s (execAuxRef t v s) := by unfold execAuxRef; exact acts_act _ _ _
theorem execCtlStep_acts (t : Nat) (n : Nat) (s : State) : Acts s (execCtlStep t n s) := by unfold execCtlStep; exact acts_act _ _ _
theorem execCtlRangePhase_acts (t : Nat) (n : Nat) (s : State) : Acts s (execCtlRangePhase t n s) := by unfold execCtlRangePhase; exact acts_act _ _ _
theorem execCtlTimedWrite_acts (t : Nat) (s : State) : Acts s (execCtlTimedWrite t s) := by unfold execCtlTimedWrite; exact acts_act _ _ _
theorem execCtlFault_acts (t : Nat) (n : Nat) (ov : Bool) (s : State) : Acts s (execCtlFault t n ov s) := by unfold execCtlFault; exact acts_act _ _ _
theorem execGroveStartAtCt_acts (t : Nat) (s : State) : Acts s (execGroveStartAtCt t s) := by unfold execGroveStartAtCt; exact acts_act _ _ _
theorem execPerfControlAtCt_acts (t : Nat) (s : State) : Acts s (execPerfControlAtCt t s) := by unfold execPerfControlAtCt; exact acts_act _ _ _
theorem execPerfSat_acts (t : Nat) (k : Nat) (v : Nat) (s : State) : Acts s (execPerfSat t k v s) := by unfold execPerfSat; exact acts_act _ _ _
theorem execForcedRaise_acts (t : Nat) (items : List Nat) (s : State) : Acts s (execForcedRaise t items s) := by unfold execForcedRaise; exact acts_act _ _ _
theorem execSuppressionWindowClose_acts (t : Nat) (s : State) : Acts s (execSuppressionWindowClose t s) := by unfold execSuppressionWindowClose; exact acts_act _ _ _
theorem execThermalStage_acts (t : Nat) (rs : List Int) (s : State) : Acts s (execThermalStage t rs s) := by unfold execThermalStage; exact acts_act _ _ _
theorem execThermalStageExit_acts (t : Nat) (tj : Int) (s : State) : Acts s (execThermalStageExit t tj s) := by unfold execThermalStageExit; exact acts_act _ _ _
theorem execFaultDetection_acts (t : Nat) (id : Nat) (mode : Nat) (items : List Nat) (s : State) : Acts s (execFaultDetection t id mode items s) := by unfold execFaultDetection; exact acts_act _ _ _
theorem execRailFault_acts (t : Nat) (k : Nat) (core : Bool) (on : Bool) (s : State) : Acts s (execRailFault t k core on s) := by unfold execRailFault; exact acts_act _ _ _
theorem execTiuTableUncal_acts (t : Nat) (n : Nat) (tj : Int) (s : State) : Acts s (execTiuTableUncal t n tj s) := by unfold execTiuTableUncal; exact acts_act _ _ _
theorem execCtlFaultClear_acts (t : Nat) (n : Nat) (ov : Bool) (s : State) : Acts s (execCtlFaultClear t n ov s) := by unfold execCtlFaultClear; exact acts_act _ _ _
theorem execVddenLowTimeExpiry_acts (t : Nat) (p : Nat) (s : State) : Acts s (execVddenLowTimeExpiry t p s) := by unfold execVddenLowTimeExpiry; exact acts_act _ _ _
theorem execDispLinkTrainingEnd_acts (t : Nat) (p : Nat) (ok : Bool) (s : State) : Acts s (execDispLinkTrainingEnd t p ok s) := by unfold execDispLinkTrainingEnd; exact acts_act _ _ _
theorem execDispAuxReply_acts (t : Nat) (p : Nat) (r : Nat) (data : List Nat) (s : State) : Acts s (execDispAuxReply t p r data s) := by unfold execDispAuxReply; exact acts_act _ _ _
theorem execDriveCommandCompletion_acts (t : Nat) (n : Nat) (status : Nat) (kind : Nat) (fin : Bool) (data : List Nat) (s : State) : Acts s (execDriveCommandCompletion t n status kind fin data s) := by unfold execDriveCommandCompletion; exact acts_act _ _ _
theorem execStorageLinkUp_acts (t : Nat) (n : Nat) (rate : Nat) (width : Nat) (flit : Bool) (ok : Bool) (stripes : Nat) (lba : Nat) (suitable : Bool) (serial : Nat) (vwc : Bool) (s : State) : Acts s (execStorageLinkUp t n rate width flit ok stripes lba suitable serial vwc s) := by unfold execStorageLinkUp; exact acts_act _ _ _
theorem execHpLinkUp_acts (t : Nat) (rate : Nat) (width : Nat) (flit : Bool) (s : State) : Acts s (execHpLinkUp t rate width flit s) := by unfold execHpLinkUp; exact acts_act _ _ _
theorem execConfigWrite_acts (t : Nat) (bme : Bool) (d3 : Bool) (msix : Bool) (mask : Bool) (s : State) : Acts s (execConfigWrite t bme d3 msix mask s) := by unfold execConfigWrite; exact acts_act _ _ _
theorem execMsixTableWrite_acts (t : Nat) (v : Nat) (addr : Nat) (data : Nat) (masked : Bool) (s : State) : Acts s (execMsixTableWrite t v addr data masked s) := by unfold execMsixTableWrite; exact acts_act _ _ _
theorem execStagedSignalRaise_acts (t : Nat) (n : Nat) (s : State) : Acts s (execStagedSignalRaise t n s) := by unfold execStagedSignalRaise; exact acts_act _ _ _
theorem execPanicClear_acts (t : Nat) (port : Nat) (inst : Nat) (held : Nat) (s : State) : Acts s (execPanicClear t port inst held s) := by unfold execPanicClear; exact acts_act _ _ _
theorem execPanicLong_acts (t : Nat) (port : Nat) (inst : Nat) (s : State) : Acts s (execPanicLong t port inst s) := by unfold execPanicLong; exact acts_act _ _ _
theorem execRankSwitchOverEnd_acts (t : Nat) (s : State) : Acts s (execRankSwitchOverEnd t s) := by unfold execRankSwitchOverEnd; exact acts_act _ _ _
theorem execDensClearEnd_acts (t : Nat) (i : Nat) (s : State) : Acts s (execDensClearEnd t i s) := by unfold execDensClearEnd; exact acts_act _ _ _
theorem execCommandTransferEnd_acts (t : Nat) (i : Nat) (s : State) : Acts s (execCommandTransferEnd t i s) := by unfold execCommandTransferEnd; exact acts_act _ _ _
theorem execStartupComplete_acts (t : Nat) (fails : List Nat) (slotOk : Bool) (otherOk : Bool) (found : List Nat) (edges : List Nat) (s : State) : Acts s (execStartupComplete t fails slotOk otherOk found edges s) := by unfold execStartupComplete; exact acts_act _ _ _
theorem execTestPortAccess_acts (t : Nat) (kind : Nat) (id : Nat) (a : Nat) (b : Nat) (v : Int) (s : State) : Acts s (execTestPortAccess t kind id a b v s) := by unfold execTestPortAccess; exact acts_act _ _ _
theorem execCeilingRampEnd_acts (t : Nat) (s : State) : Acts s (execCeilingRampEnd t s) := by unfold execCeilingRampEnd; exact acts_act _ _ _
theorem execClkSetTimeTimeout_acts (t : Nat) (s : State) : Acts s (execClkSetTimeTimeout t s) := by unfold execClkSetTimeTimeout; exact acts_act _ _ _
theorem execNodeActivityReturn_acts (t : Nat) (s : State) : Acts s (execNodeActivityReturn t s) := by unfold execNodeActivityReturn; exact acts_act _ _ _
theorem execRefInReturn_acts (t : Nat) (s : State) : Acts s (execRefInReturn t s) := by unfold execRefInReturn; exact acts_act _ _ _

/-- Every row but those of power, reset and HP_PERST is one `act`. -/
theorem exec_acts (i : Instr) (s : State) (h : restarts i = false) (hp : actsWhileDown i = false) : Acts s (exec i s) := by
  cases i with
  | sysGetInfo c p => exact execSysGetInfo_acts c p s
  | sysAlloc c p => exact execSysAlloc_acts c p s
  | sysFree c p => exact execSysFree_acts c p s
  | sysGetAlloc c p => exact execSysGetAlloc_acts c p s
  | sysFwStage c p img => exact execSysFwStage_acts c p img s
  | sysFwActivate c p => exact execSysFwActivate_acts c p s
  | sysReset c p => exact execSysReset_acts c p s
  | sysNop c p => exact execSysNop_acts c p s
  | feSetMode c p => exact execFeSetMode_acts c p s
  | feSetSource c p => exact execFeSetSource_acts c p s
  | feSetAtten c p => exact execFeSetAtten_acts c p s
  | feStream c p => exact execFeStream_acts c p s
  | feGetStatus c p => exact execFeGetStatus_acts c p s
  | feSetProtect c p => exact execFeSetProtect_acts c p s
  | clkSetRef c p => exact execClkSetRef_acts c p s
  | clkSetPll c p => exact execClkSetPll_acts c p s
  | clkBuildHops c p => exact execClkBuildHops_acts c p s
  | clkSetPps c p => exact execClkSetPps_acts c p s
  | clkSetTime c p => exact execClkSetTime_acts c p s
  | clkGetStatus c p => exact execClkGetStatus_acts c p s
  | calRun c p => exact execCalRun_acts c p s
  | calSetBlind c p => exact execCalSetBlind_acts c p s
  | calRestore c p => exact execCalRestore_acts c p s
  | calRead c p => exact execCalRead_acts c p s
  | calGetRecord c p => exact execCalGetRecord_acts c p s
  | calGetStatus c p => exact execCalGetStatus_acts c p s
  | specSetLane c p => exact execSpecSetLane_acts c p s
  | specLoadWindow c p data => exact execSpecLoadWindow_acts c p data s
  | specSetDdc c p => exact execSpecSetDdc_acts c p s
  | specTuneDdc c p => exact execSpecTuneDdc_acts c p s
  | specSetTrace c p => exact execSpecSetTrace_acts c p s
  | specSetOutput c p => exact execSpecSetOutput_acts c p s
  | specGetStatus c p => exact execSpecGetStatus_acts c p s
  | specSetGovernor c p => exact execSpecSetGovernor_acts c p s
  | acqSetTerm c p => exact execAcqSetTerm_acts c p s
  | acqSetCombiner c p => exact execAcqSetCombiner_acts c p s
  | acqSetCapture c p => exact execAcqSetCapture_acts c p s
  | acqArm c p => exact execAcqArm_acts c p s
  | acqStop c p => exact execAcqStop_acts c p s
  | acqForce c p => exact execAcqForce_acts c p s
  | acqLoadMask c p data => exact execAcqLoadMask_acts c p data s
  | acqSetMask c p => exact execAcqSetMask_acts c p s
  | acqSetTest c p => exact execAcqSetTest_acts c p s
  | acqSetEvtOut c p => exact execAcqSetEvtOut_acts c p s
  | acqGetStatus c p => exact execAcqGetStatus_acts c p s
  | densSetMap c p => exact execDensSetMap_acts c p s
  | densClear c p => exact execDensClear_acts c p s
  | densRead c p => exact execDensRead_acts c p s
  | densSetPigment c p data => exact execDensSetPigment_acts c p data s
  | dispSetMode c p => exact execDispSetMode_acts c p s
  | dispSetLayer c p => exact execDispSetLayer_acts c p s
  | dispSetEvents c p => exact execDispSetEvents_acts c p s
  | dispFallow c p => exact execDispFallow_acts c p s
  | dispAux c p => exact execDispAux_acts c p s
  | dispGetStatus c p => exact execDispGetStatus_acts c p s
  | densGetStatus c p => exact execDensGetStatus_acts c p s
  | monSetContext c p => exact execMonSetContext_acts c p s
  | monLoad c p data => exact execMonLoad_acts c p data s
  | monClear c p => exact execMonClear_acts c p s
  | monSnapshot c p => exact execMonSnapshot_acts c p s
  | monRead c p => exact execMonRead_acts c p s
  | monSetLog c p => exact execMonSetLog_acts c p s
  | monGetStatus c p => exact execMonGetStatus_acts c p s
  | tiuSetInput c p => exact execTiuSetInput_acts c p s
  | tiuSetStats c p => exact execTiuSetStats_acts c p s
  | tiuGetStats c p => exact execTiuGetStats_acts c p s
  | tiuRead c p => exact execTiuRead_acts c p s
  | tiuSetDrain c p => exact execTiuSetDrain_acts c p s
  | tiuCal c p => exact execTiuCal_acts c p s
  | tiuGetStatus c p => exact execTiuGetStatus_acts c p s
  | groveLoad c p data => exact execGroveLoad_acts c p data s
  | groveStart c p => exact execGroveStart_acts c p s
  | groveStop c p => exact execGroveStop_acts c p s
  | groveSetShadow c p => exact execGroveSetShadow_acts c p s
  | groveSetFeed c p => exact execGroveSetFeed_acts c p s
  | groveSetBarrier c p => exact execGroveSetBarrier_acts c p s
  | groveRead c p => exact execGroveRead_acts c p s
  | groveGetStatus c p => exact execGroveGetStatus_acts c p s
  | groveGetFeed c p => exact execGroveGetFeed_acts c p s
  | memAlloc c p => exact execMemAlloc_acts c p s
  | memFree c p => exact execMemFree_acts c p s
  | memSetRing c p => exact execMemSetRing_acts c p s
  | memRingAck c p => exact execMemRingAck_acts c p s
  | memRingStatus c p => exact execMemRingStatus_acts c p s
  | memCommons c p => exact execMemCommons_acts c p s
  | memRetire c p => exact execMemRetire_acts c p s
  | memGetStatus c p => exact execMemGetStatus_acts c p s
  | memGetPoison c p => exact execMemGetPoison_acts c p s
  | dmaSetChannel c p => exact execDmaSetChannel_acts c p s
  | dmaSetShadow c p => exact execDmaSetShadow_acts c p s
  | dmaRaise c p => exact execDmaRaise_acts c p s
  | dmaSetTimer c p => exact execDmaSetTimer_acts c p s
  | dmaGetStatus c p => exact execDmaGetStatus_acts c p s
  | streamSet c p => exact execStreamSet_acts c p s
  | storSetPort c p => exact execStorSetPort_acts c p s
  | storFormat c p => exact execStorFormat_acts c p s
  | storMount c p => exact execStorMount_acts c p s
  | storUnmount c p => exact execStorUnmount_acts c p s
  | recOpen c p => exact execRecOpen_acts c p s
  | recClose c p => exact execRecClose_acts c p s
  | storGetStatus c p => exact execStorGetStatus_acts c p s
  | storLogPage c p => exact execStorLogPage_acts c p s
  | auxSetRef c p => exact execAuxSetRef_acts c p s
  | auxSetInput c p => exact execAuxSetInput_acts c p s
  | auxSetSeq c p => exact execAuxSetSeq_acts c p s
  | auxGetStatus c p => exact execAuxGetStatus_acts c p s
  | ctlSetOutput c p => exact execCtlSetOutput_acts c p s
  | ctlWrite c p => exact execCtlWrite_acts c p s
  | ctlGetStatus c p => exact execCtlGetStatus_acts c p s
  | fltGetStatus c p => exact execFltGetStatus_acts c p s
  | fltSetSeverity c p => exact execFltSetSeverity_acts c p s
  | fltGetRecord c p => exact execFltGetRecord_acts c p s
  | fltClear c p => exact execFltClear_acts c p s
  | fltForce c p => exact execFltForce_acts c p s
  | secGetCert c p => exact execSecGetCert_acts c p s
  | secAttest c p => exact execSecAttest_acts c p s
  | secSetLifecycle c p auth => exact execSecSetLifecycle_acts c p auth s
  | secGetStatus c p => exact execSecGetStatus_acts c p s
  | perfSetCounter c p => exact execPerfSetCounter_acts c p s
  | perfControl c p => exact execPerfControl_acts c p s
  | perfRead c p => exact execPerfRead_acts c p s
  | gNop t core w => exact execGNop_acts t core w s
  | gAdd t core w => exact execGAdd_acts t core w s
  | gSub t core w => exact execGSub_acts t core w s
  | gAnd t core w => exact execGAnd_acts t core w s
  | gOr t core w => exact execGOr_acts t core w s
  | gXor t core w => exact execGXor_acts t core w s
  | gShl t core w => exact execGShl_acts t core w s
  | gShr t core w => exact execGShr_acts t core w s
  | gSar t core w => exact execGSar_acts t core w s
  | gSlt t core w => exact execGSlt_acts t core w s
  | gSltu t core w => exact execGSltu_acts t core w s
  | gMul t core w => exact execGMul_acts t core w s
  | gAddi t core w => exact execGAddi_acts t core w s
  | gAndi t core w => exact execGAndi_acts t core w s
  | gOri t core w => exact execGOri_acts t core w s
  | gShi t core w => exact execGShi_acts t core w s
  | gMovi t core w => exact execGMovi_acts t core w s
  | gMovhi t core w => exact execGMovhi_acts t core w s
  | gCmul t core w => exact execGCmul_acts t core w s
  | gCadds t core w => exact execGCadds_acts t core w s
  | gCsubs t core w => exact execGCsubs_acts t core w s
  | gMovr t core w => exact execGMovr_acts t core w s
  | gSmov t core w => exact execGSmov_acts t core w s
  | gMovsr t core w => exact execGMovsr_acts t core w s
  | gMovrs t core w => exact execGMovrs_acts t core w s
  | gLd t core w => exact execGLd_acts t core w s
  | gLdh t core w => exact execGLdh_acts t core w s
  | gSt t core w => exact execGSt_acts t core w s
  | gSth t core w => exact execGSth_acts t core w s
  | gSta t core w => exact execGSta_acts t core w s
  | gVsta t core w => exact execGVsta_acts t core w s
  | gRda t core w => exact execGRda_acts t core w s
  | gVmacD t core w => exact execGVmacD_acts t core w s
  | gVmacP t core w => exact execGVmacP_acts t core w s
  | gVmagP t core w => exact execGVmagP_acts t core w s
  | gCmac t core w => exact execGCmac_acts t core w s
  | gBr t core w => exact execGBr_acts t core w s
  | gCall t core w => exact execGCall_acts t core w s
  | gJr t core w => exact execGJr_acts t core w s
  | gRepeat t core w => exact execGRepeat_acts t core w s
  | gRepr t core w => exact execGRepr_acts t core w s
  | gReti t core w => exact execGReti_acts t core w s
  | gWait t core w => exact execGWait_acts t core w s
  | gHalt t core w => exact execGHalt_acts t core w s
  | gBar t core w => exact execGBar_acts t core w s
  | gFrel t core w => exact execGFrel_acts t core w s
  | gSync t core w => exact execGSync_acts t core w s
  | gNotify t core w => exact execGNotify_acts t core w s
  | gPost t core w => exact execGPost_acts t core w s
  | sqTailWrite t n v => exact execSqTailWrite_acts t n v s
  | cqHeadWrite t n v => exact execCqHeadWrite_acts t n v s
  | evtHeadWrite t v => exact execEvtHeadWrite_acts t v s
  | strdbWrite t n v => exact execStrdbWrite_acts t n v s
  | qctlOpen t n => exact execQctlOpen_acts t n s
  | qctlReclaim t n => exact execQctlReclaim_acts t n s
  | qctlClose t n => exact execQctlClose_acts t n s
  | leaseWrite t n v => exact execLeaseWrite_acts t n v s
  | evtCtlWrite t v => exact execEvtCtlWrite_acts t v s
  | time0Read t => exact execTime0Read_acts t s
  | serial0Read t => exact execSerial0Read_acts t s
  | latchedWordRead t k => exact execLatchedWordRead_acts t k s
  | auxDataRead t => exact execAuxDataRead_acts t s
  | ctlCodeWrite t n v => exact execCtlCodeWrite_acts t n v s
  | registerWrite t off v kind => exact execRegisterWrite_acts t off v kind s
  | commandFetch c opcode res => exact execCommandFetch_acts c opcode res s
  | commandTimeout t n i => exact execCommandTimeout_acts t n i s
  | completionSignalHoldEnd t n => exact execCompletionSignalHoldEnd_acts t n s
  | eventDelayExpiry t => exact execEventDelayExpiry_acts t s
  | sysLease t n => exact execSysLease_acts t n s
  | leaseExpiry t n => exact execLeaseExpiry_acts t n s
  | releaseEnd t n => exact execReleaseEnd_acts t n s
  | heartbeatAdvance t => exact execHeartbeatAdvance_acts t s
  | grainTag t id codes => exact execGrainTag_acts t id codes s
  | overloadEnd t id => exact execOverloadEnd_acts t id s
  | epochRollover t id => exact execEpochRollover_acts t id s
  | grainDelivery t k id n tid ok fill => exact execGrainDelivery_acts t k id n tid ok fill s
  | acqArmAtCt t => exact execAcqArmAtCt_acts t s
  | spectrumCompute t c margin => exact execSpectrumCompute_acts t c margin s
  | timeTestVerdict t a => exact execTimeTestVerdict_acts t a s
  | evtOutPulse t => exact execEvtOutPulse_acts t s
  | evtOutPulseEnd t => exact execEvtOutPulseEnd_acts t s
  | govRaiseStep t ms => exact execGovRaiseStep_acts t ms s
  | govLowerStep t ms => exact execGovLowerStep_acts t ms s
  | govShed t ms => exact execGovShed_acts t ms s
  | govRestore t ms => exact execGovRestore_acts t ms s
  | decaySweep t => exact execDecaySweep_acts t s
  | densReadCopyEnd t i => exact execDensReadCopyEnd_acts t i s
  | monitorRound t => exact execMonitorRound_acts t s
  | monEvlost t => exact execMonEvlost_acts t s
  | monSnapshotWriteEnd t => exact execMonSnapshotWriteEnd_acts t s
  | protectTrip t i => exact execProtectTrip_acts t i s
  | feStreamAtCt t => exact execFeStreamAtCt_acts t s
  | pllLockLoss t k freq => exact execPllLockLoss_acts t k freq s
  | pllSyncEdge t k found => exact execPllSyncEdge_acts t k found s
  | relockAttemptFail t k found => exact execRelockAttemptFail_acts t k found s
  | refInLoss t freq ppm => exact execRefInLoss_acts t freq ppm s
  | refLoopLock t => exact execRefLoopLock_acts t s
  | nodeLoss t => exact execNodeLoss_acts t s
  | nodeRecovery t => exact execNodeRecovery_acts t s
  | inputEdge t n fall c => exact execInputEdge_acts t n fall c s
  | ppsLoss t => exact execPpsLoss_acts t s
  | pendingEdgeClose t u => exact execPendingEdgeClose_acts t u s
  | tiuLost t n => exact execTiuLost_acts t n s
  | queueDrain t n k => exact execQueueDrain_acts t n k s
  | tiuCalTestEnd t n counts => exact execTiuCalTestEnd_acts t n counts s
  | calStepEnd t tgt m => exact execCalStepEnd_acts t tgt m s
  | blindRun t tgt => exact execBlindRun_acts t tgt s
  | calDrift t tgt tj => exact execCalDrift_acts t tgt tj s
  | handOver t n => exact execHandOver_acts t n s
  | handlerReturn t n => exact execHandlerReturn_acts t n s
  | waitEnd t n => exact execWaitEnd_acts t n s
  | commonsLoadReturn t n => exact execCommonsLoadReturn_acts t n s
  | syncComplete t n => exact execSyncComplete_acts t n s
  | timerMatch t n => exact execTimerMatch_acts t n s
  | feedCopyBlock t i => exact execFeedCopyBlock_acts t i s
  | feedWriteOut t i => exact execFeedWriteOut_acts t i s
  | refresh t => exact execRefresh_acts t s
  | patrolScrub t a => exact execPatrolScrub_acts t a s
  | correctableError t a master inst => exact execCorrectableError_acts t a master inst s
  | uncorrectableError t a cmdErr master inst => exact execUncorrectableError_acts t a cmdErr master inst s
  | rankSwitchOver t => exact execRankSwitchOver_acts t s
  | migrationRowCopy t bad => exact execMigrationRowCopy_acts t bad s
  | memRingLost t => exact execMemRingLost_acts t s
  | zeroingDone t n => exact execZeroingDone_acts t n s
  | onDieError t kind n addr core double => exact execOnDieError_acts t kind n addr core double s
  | dmaHandover t n => exact execDmaHandover_acts t n s
  | dmaBurst t n data ok => exact execDmaBurst_acts t n data ok s
  | descriptorEnd t n => exact execDescriptorEnd_acts t n s
  | timerLinePulse t l => exact execTimerLinePulse_acts t l s
  | streamRecordCopy t n held => exact execStreamRecordCopy_acts t n held s
  | checkpoint t => exact execCheckpoint_acts t s
  | stripeComplete t q held => exact execStripeComplete_acts t q held s
  | mountMeasurementEnd t rates => exact execMountMeasurementEnd_acts t rates s
  | driveFail t n cause status => exact execDriveFail_acts t n cause status s
  | dispLineStart t p long under late => exact execDispLineStart_acts t p long under late s
  | frameDone t p => exact execFrameDone_acts t p s
  | hpdLoss t p => exact execHpdLoss_acts t p s
  | hpdRestore t p ok => exact execHpdRestore_acts t p ok s
  | hpdIrq t p lost ok psr => exact execHpdIrq_acts t p lost ok psr s
  | panelHpdWait t p high lanes rate psr => exact execPanelHpdWait_acts t p high lanes rate psr s
  | bldelayExpiry t p => exact execBldelayExpiry_acts t p s
  | vddenOffDelay t p => exact execVddenOffDelay_acts t p s
  | auxPassStart t => exact execAuxPassStart_acts t s
  | auxConversion t v vref => exact execAuxConversion_acts t v vref s
  | auxLimitPeriodEnd t => exact execAuxLimitPeriodEnd_acts t s
  | auxOvr t => exact execAuxOvr_acts t s
  | auxRef t v => exact execAuxRef_acts t v s
  | ctlStep t n => exact execCtlStep_acts t n s
  | ctlRangePhase t n => exact execCtlRangePhase_acts t n s
  | ctlTimedWrite t => exact execCtlTimedWrite_acts t s
  | ctlFault t n ov => exact execCtlFault_acts t n ov s
  | groveStartAtCt t => exact execGroveStartAtCt_acts t s
  | perfControlAtCt t => exact execPerfControlAtCt_acts t s
  | perfSat t k v => exact execPerfSat_acts t k v s
  | forcedRaise t items => exact execForcedRaise_acts t items s
  | suppressionWindowClose t => exact execSuppressionWindowClose_acts t s
  | thermalStage t rs => exact execThermalStage_acts t rs s
  | thermalStageExit t tj => exact execThermalStageExit_acts t tj s
  | faultDetection t id mode items => exact execFaultDetection_acts t id mode items s
  | railFault t k core on => exact execRailFault_acts t k core on s
  | tiuTableUncal t n tj => exact execTiuTableUncal_acts t n tj s
  | ctlFaultClear t n ov => exact execCtlFaultClear_acts t n ov s
  | vddenLowTimeExpiry t p => exact execVddenLowTimeExpiry_acts t p s
  | dispLinkTrainingEnd t p ok => exact execDispLinkTrainingEnd_acts t p ok s
  | dispAuxReply t p r data => exact execDispAuxReply_acts t p r data s
  | driveCommandCompletion t n status kind fin data => exact execDriveCommandCompletion_acts t n status kind fin data s
  | storageLinkUp t n rate width flit ok stripes lba suitable serial vwc => exact execStorageLinkUp_acts t n rate width flit ok stripes lba suitable serial vwc s
  | hpLinkUp t rate width flit => exact execHpLinkUp_acts t rate width flit s
  | configWrite t bme d3 msix mask => exact execConfigWrite_acts t bme d3 msix mask s
  | msixTableWrite t v addr data masked => exact execMsixTableWrite_acts t v addr data masked s
  | stagedSignalRaise t n => exact execStagedSignalRaise_acts t n s
  | panicClear t port inst held => exact execPanicClear_acts t port inst held s
  | panicLong t port inst => exact execPanicLong_acts t port inst s
  | rankSwitchOverEnd t => exact execRankSwitchOverEnd_acts t s
  | densClearEnd t i => exact execDensClearEnd_acts t i s
  | commandTransferEnd t i => exact execCommandTransferEnd_acts t i s
  | startupComplete t fails slotOk otherOk found edges => exact execStartupComplete_acts t fails slotOk otherOk found edges s
  | testPortAccess t kind id a b v => exact execTestPortAccess_acts t kind id a b v s
  | ceilingRampEnd t => exact execCeilingRampEnd_acts t s
  | clkSetTimeTimeout t => exact execClkSetTimeTimeout_acts t s
  | nodeActivityReturn t => exact execNodeActivityReturn_acts t s
  | refInReturn t => exact execRefInReturn_acts t s
  | powerOn => exact Bool.noConfusion h
  | powerDown => exact Bool.noConfusion h
  | thermalTrip => exact Bool.noConfusion h
  | rstNRelease => exact Bool.noConfusion h
  | hostInterfaceReset => exact Bool.noConfusion hp
  | hpPerstRelease => exact Bool.noConfusion hp
  | deviceReset => exact Bool.noConfusion h
  | firmwareStartTimeout => exact Bool.noConfusion h

end Sys2Proof.Machine
end

