-- ==== Sys2Proof/Laws/Frames0.lean ====
section
/-! SUPPORT. Frames of the shared operations (part 1 of 8): the parts of the engine that each can change, and, where the host interface is
not among them, that it changes only the event ring and its signals. -/

set_option linter.unusedTactic false
set_option linter.unreachableTactic false
set_option linter.unusedVariables false
set_option linter.unusedSimpArgs false

namespace Sys2Proof.Machine

theorem SameHostRest.symm {h g : HostIf} (a : SameHostRest h g) : SameHostRest g h := by
  cases h; cases g
  simp only [SameHostRest, RingsOnly, HostIf.mk.injEq, true_and] at a ⊢
  simp_all

/-- A frame that names fewer parts is a stronger one. -/
theorem SameParts.mono {l m : List Part} {s t : State} (h : SameParts l s t) (hl : ∀ x ∈ l, x ∈ m) : SameParts m s t := by
  unfold SameParts at *
  exact ⟨h.1, (h.2.1).imp_left (hl _), (h.2.2.1).imp_left (hl _), (h.2.2.2.1).imp_left (hl _), (h.2.2.2.2.1).imp_left (hl _), (h.2.2.2.2.2.1).imp_left (hl _), (h.2.2.2.2.2.2.1).imp_left (hl _), (h.2.2.2.2.2.2.2.1).imp_left (hl _), (h.2.2.2.2.2.2.2.2.1).imp_left (hl _), (h.2.2.2.2.2.2.2.2.2.1).imp_left (hl _), (h.2.2.2.2.2.2.2.2.2.2.1).imp_left (hl _), (h.2.2.2.2.2.2.2.2.2.2.2.1).imp_left (hl _), (h.2.2.2.2.2.2.2.2.2.2.2.2.1).imp_left (hl _), (h.2.2.2.2.2.2.2.2.2.2.2.2.2.1).imp_left (hl _), (h.2.2.2.2.2.2.2.2.2.2.2.2.2.2.1).imp_left (hl _), (h.2.2.2.2.2.2.2.2.2.2.2.2.2.2.2.1).imp_left (hl _), (h.2.2.2.2.2.2.2.2.2.2.2.2.2.2.2.2).imp_left (hl _)⟩

theorem Kept.mono {l m : List Part} {s t : State} (h : Kept l s t) (hl : ∀ x ∈ l, x ∈ m) : Kept m s t :=
  ⟨h.1.mono hl, h.2.1.imp_left (hl _), h.2.2.1.imp_left (hl _), h.2.2.2.1.imp_left (hl _), h.2.2.2.2.imp_left (hl _)⟩

theorem Kept.foldp {β γ : Type} {l : List Part} (f : State × γ → β → State × γ) (h : ∀ a x, Kept l a.1 (f a x).1) (xs : List β)
    (a : State × γ) : Kept l a.1 (xs.foldl f a).1 := by
  induction xs generalizing a with
  | nil => exact Kept.refl l _
  | cons x r ih => exact (h a x).trans (ih _)

theorem Kept.chain {k l : List Part} {s t u : State} (g : Kept k t u) (hl : ∀ x ∈ k, x ∈ l) (h : Kept l s t) : Kept l s u := h.trans (g.mono hl)

theorem Kept.foldl' {β : Type} {l : List Part} {f : State → β → State} {xs : List β} {s t : State} (h : Kept l s t) (g : ∀ a x, Kept l a (f a x)) :
    Kept l s (xs.foldl f t) := h.trans (Kept.foldl f g xs t)

theorem Kept.foldp' {β γ : Type} {l : List Part} {f : State × γ → β → State × γ} {xs : List β} {s : State} {a : State × γ} (h : Kept l s a.1)
    (g : ∀ a x, Kept l a.1 (f a x).1) : Kept l s (xs.foldl f a).1 := h.trans (Kept.foldp f g xs a)

theorem Kept.foldq {β γ : Type} {l : List Part} (f : γ × State → β → γ × State) (h : ∀ a x, Kept l a.2 (f a x).2) (xs : List β)
    (a : γ × State) : Kept l a.2 (xs.foldl f a).2 := by
  induction xs generalizing a with
  | nil => exact Kept.refl l _
  | cons x r ih => exact (h a x).trans (ih _)

theorem Kept.foldq' {β γ : Type} {l : List Part} {f : γ × State → β → γ × State} {xs : List β} {s : State} {a : γ × State} (h : Kept l s a.2)
    (g : ∀ a x, Kept l a.2 (f a x).2) : Kept l s (xs.foldl f a).2 := h.trans (Kept.foldq f g xs a)

theorem Kept.pair {l : List Part} {γ : Type} {s u : State} {b : γ} {r : State × γ} (h : Kept l s r.1) (e : r = (u, b)) : Kept l s u := by
  rw [e] at h; exact h

theorem Kept.ite2 {γ : Type} {l : List Part} {c : Prop} [Decidable c] {s : State} {a b : γ × State} (h : c → Kept l s a.2) (g : ¬c → Kept l s b.2) :
    Kept l s (if c then a else b).2 := by
  split <;> simp_all

theorem Kept.ite1 {γ : Type} {l : List Part} {c : Prop} [Decidable c] {s : State} {a b : State × γ} (h : c → Kept l s a.1) (g : ¬c → Kept l s b.1) :
    Kept l s (if c then a else b).1 := by
  split <;> simp_all

theorem Kept.upd_fe {l : List Part} {s t : State} (h : Part.fe ∈ l) (v) : Kept l s { t with fe := v } ↔ Kept l s t := by simp [Kept, SameParts, h]
theorem Kept.upd_clk {l : List Part} {s t : State} (h : Part.clk ∈ l) (v) : Kept l s { t with clk := v } ↔ Kept l s t := by simp [Kept, SameParts, h]
theorem Kept.upd_cal {l : List Part} {s t : State} (h : Part.cal ∈ l) (v) : Kept l s { t with cal := v } ↔ Kept l s t := by simp [Kept, SameParts, h]
theorem Kept.upd_spec {l : List Part} {s t : State} (h : Part.spec ∈ l) (v) : Kept l s { t with spec := v } ↔ Kept l s t := by simp [Kept, SameParts, h]
theorem Kept.upd_acq {l : List Part} {s t : State} (h : Part.acq ∈ l) (v) : Kept l s { t with acq := v } ↔ Kept l s t := by simp [Kept, SameParts, h]
theorem Kept.upd_disp {l : List Part} {s t : State} (h : Part.disp ∈ l) (v) : Kept l s { t with disp := v } ↔ Kept l s t := by simp [Kept, SameParts, h]
theorem Kept.upd_mon {l : List Part} {s t : State} (h : Part.mon ∈ l) (v) : Kept l s { t with mon := v } ↔ Kept l s t := by simp [Kept, SameParts, h]
theorem Kept.upd_tiu {l : List Part} {s t : State} (h : Part.tiu ∈ l) (v) : Kept l s { t with tiu := v } ↔ Kept l s t := by simp [Kept, SameParts, h]
theorem Kept.upd_grove {l : List Part} {s t : State} (h : Part.grove ∈ l) (v) : Kept l s { t with grove := v } ↔ Kept l s t := by simp [Kept, SameParts, h]
theorem Kept.upd_mem {l : List Part} {s t : State} (h : Part.mem ∈ l) (v) : Kept l s { t with mem := v } ↔ Kept l s t := by simp [Kept, SameParts, h]
theorem Kept.upd_move {l : List Part} {s t : State} (h : Part.move ∈ l) (v) : Kept l s { t with move := v } ↔ Kept l s t := by simp [Kept, SameParts, h]
theorem Kept.upd_aux {l : List Part} {s t : State} (h : Part.aux ∈ l) (v) : Kept l s { t with aux := v } ↔ Kept l s t := by simp [Kept, SameParts, h]
theorem Kept.upd_ctl {l : List Part} {s t : State} (h : Part.ctl ∈ l) (v) : Kept l s { t with ctl := v } ↔ Kept l s t := by simp [Kept, SameParts, h]
theorem Kept.upd_flt {l : List Part} {s t : State} (h : Part.flt ∈ l) (v) : Kept l s { t with flt := v } ↔ Kept l s t := by simp [Kept, SameParts, h]
theorem Kept.upd_sec {l : List Part} {s t : State} (h : Part.sec ∈ l) (v) : Kept l s { t with sec := v } ↔ Kept l s t := by simp [Kept, SameParts, h]
theorem Kept.upd_pwr {l : List Part} {s t : State} (h : Part.pwr ∈ l) (v) : Kept l s { t with pwr := v } ↔ Kept l s t := by simp [Kept, SameParts, h]
theorem Kept.upd_perf {l : List Part} {s t : State} (h : Part.perf ∈ l) (v) : Kept l s { t with perf := v } ↔ Kept l s t := by simp [Kept, SameParts, h]
theorem Kept.upd_now {l : List Part} {s t : State} (v) : Kept l s { t with now := v } ↔ Kept l s t := by simp [Kept, SameParts]
theorem Kept.upd_freeNo {l : List Part} {s t : State} (v) : Kept l s { t with freeNo := v } ↔ Kept l s t := by simp [Kept, SameParts]
/-- The commands in progress and the completions that wait are the same. -/
def EqCommands (h g : HostIf) : Prop := g.cplWait = h.cplWait ∧ g.inProg = h.inProg

theorem SameSessions.symm {h g : HostIf} (a : SameSessions h g) : SameSessions g h := ⟨a.1.symm, a.2.symm⟩

theorem EqCommands.symm {h g : HostIf} (a : EqCommands h g) : EqCommands g h := ⟨a.1.symm, a.2.symm⟩

theorem EqCommands.same {h g : HostIf} (a : EqCommands h g) : SameCommands h g := ⟨by rw [a.1], a.2⟩

theorem Kept.upd_host {l : List Part} {s t : State} (v : HostIf)
    (h : (Part.host ∈ l ∨ SameHostRest t.host v) ∧ (Part.ses ∈ l ∨ SameSessions t.host v) ∧ (Part.cmds ∈ l ∨ EqCommands t.host v)) :
    Kept l s { t with host := v } ↔ Kept l s t := by
  obtain ⟨h1, h2, h3⟩ := h
  constructor
  · rintro ⟨a, b, m, c, d⟩
    refine ⟨by simpa [SameParts] using a, ?_, ?_, ?_, d⟩
    · exact h2.elim .inl fun h2 => b.imp_right fun b => b.trans h2.symm
    · exact h3.elim .inl fun h3 => m.imp_right fun m => m.trans h3.symm.same
    · exact h1.elim .inl fun h1 => c.imp_right fun c => c.trans h1.symm
  · rintro ⟨a, b, m, c, d⟩
    refine ⟨by simpa [SameParts] using a, ?_, ?_, ?_, d⟩
    · exact h2.elim .inl fun h2 => b.imp_right fun b => b.trans h2
    · exact h3.elim .inl fun h3 => m.imp_right fun m => m.trans h3.same
    · exact h1.elim .inl fun h1 => c.imp_right fun c => c.trans h1

/-- Sources whose raising ends no command: those of no command of the host (R502). -/
def quietSource (id : Nat) : Prop := id / 256 ≠ 0 ∧ id / 256 ≠ 1 ∧ id / 256 ≠ 0x2E

theorem Kept.upd_cal_mem {l : List Part} {s t : State} (v_cal) (v_mem) (h_cal : Part.cal ∈ l) (h_mem : Part.mem ∈ l)  : Kept l s { t with cal := v_cal, mem := v_mem } ↔ Kept l s t := by simp [Kept, SameParts, h_cal, h_mem]
theorem Kept.upd_cal_sec {l : List Part} {s t : State} (v_cal) (v_sec) (h_cal : Part.cal ∈ l) (h_sec : Part.sec ∈ l)  : Kept l s { t with cal := v_cal, sec := v_sec } ↔ Kept l s t := by simp [Kept, SameParts, h_cal, h_sec]
theorem Kept.upd_fe_cal {l : List Part} {s t : State} (v_fe) (v_cal) (h_fe : Part.fe ∈ l) (h_cal : Part.cal ∈ l)  : Kept l s { t with fe := v_fe, cal := v_cal } ↔ Kept l s t := by simp [Kept, SameParts, h_fe, h_cal]
theorem Kept.upd_fe_move {l : List Part} {s t : State} (v_fe) (v_move) (h_fe : Part.fe ∈ l) (h_move : Part.move ∈ l)  : Kept l s { t with fe := v_fe, move := v_move } ↔ Kept l s t := by simp [Kept, SameParts, h_fe, h_move]
theorem Kept.upd_grove_mem {l : List Part} {s t : State} (v_grove) (v_mem) (h_grove : Part.grove ∈ l) (h_mem : Part.mem ∈ l)  : Kept l s { t with grove := v_grove, mem := v_mem } ↔ Kept l s t := by simp [Kept, SameParts, h_grove, h_mem]
theorem Kept.upd_host_aux_sec_pwr {l : List Part} {s t : State} (v_host) (v_aux) (v_sec) (v_pwr) (h_aux : Part.aux ∈ l) (h_sec : Part.sec ∈ l) (h_pwr : Part.pwr ∈ l) (h : (Part.host ∈ l ∨ SameHostRest t.host v_host) ∧ (Part.ses ∈ l ∨ SameSessions t.host v_host) ∧ (Part.cmds ∈ l ∨ EqCommands t.host v_host)) : Kept l s { t with host := v_host, aux := v_aux, sec := v_sec, pwr := v_pwr } ↔ Kept l s t := by
  rw [← Kept.upd_host (t := t) v_host h]
  simp [Kept, SameParts, h_aux, h_sec, h_pwr]
theorem Kept.upd_host_flt {l : List Part} {s t : State} (v_host) (v_flt) (h_flt : Part.flt ∈ l) (h : (Part.host ∈ l ∨ SameHostRest t.host v_host) ∧ (Part.ses ∈ l ∨ SameSessions t.host v_host) ∧ (Part.cmds ∈ l ∨ EqCommands t.host v_host)) : Kept l s { t with host := v_host, flt := v_flt } ↔ Kept l s t := by
  rw [← Kept.upd_host (t := t) v_host h]
  simp [Kept, SameParts, h_flt]
theorem Kept.upd_host_flt_pwr {l : List Part} {s t : State} (v_host) (v_flt) (v_pwr) (h_flt : Part.flt ∈ l) (h_pwr : Part.pwr ∈ l) (h : (Part.host ∈ l ∨ SameHostRest t.host v_host) ∧ (Part.ses ∈ l ∨ SameSessions t.host v_host) ∧ (Part.cmds ∈ l ∨ EqCommands t.host v_host)) : Kept l s { t with host := v_host, flt := v_flt, pwr := v_pwr } ↔ Kept l s t := by
  rw [← Kept.upd_host (t := t) v_host h]
  simp [Kept, SameParts, h_flt, h_pwr]
theorem Kept.upd_host_pwr {l : List Part} {s t : State} (v_host) (v_pwr) (h_pwr : Part.pwr ∈ l) (h : (Part.host ∈ l ∨ SameHostRest t.host v_host) ∧ (Part.ses ∈ l ∨ SameSessions t.host v_host) ∧ (Part.cmds ∈ l ∨ EqCommands t.host v_host)) : Kept l s { t with host := v_host, pwr := v_pwr } ↔ Kept l s t := by
  rw [← Kept.upd_host (t := t) v_host h]
  simp [Kept, SameParts, h_pwr]
theorem Kept.upd_host_sec {l : List Part} {s t : State} (v_host) (v_sec) (h_sec : Part.sec ∈ l) (h : (Part.host ∈ l ∨ SameHostRest t.host v_host) ∧ (Part.ses ∈ l ∨ SameSessions t.host v_host) ∧ (Part.cmds ∈ l ∨ EqCommands t.host v_host)) : Kept l s { t with host := v_host, sec := v_sec } ↔ Kept l s t := by
  rw [← Kept.upd_host (t := t) v_host h]
  simp [Kept, SameParts, h_sec]

theorem State.setSes_kept (s : State) (n : Nat) (v : Session) : Kept [.ses] s (State.setSes s n v) := by
  unfold State.setSes
  try dsimp only
  repeat' first
    | with_reducible exact Kept.refl _ _
    | with_reducible refine Kept.ite (fun _ => ?_) (fun _ => ?_)
    | with_reducible refine Kept.foldl' ?_ (fun a x => ?_)
    | with_reducible simp (disch := first | decide | (with_unfolding_all constructor <;> first | exact Or.inl (by decide) | exact Or.inr rfl | (constructor <;> first | exact Or.inl (by decide) | exact Or.inr (And.intro rfl rfl)))) only [Kept.upd_host, Kept.upd_now, Kept.upd_freeNo]
    | split
    | intro _

theorem State.modSes_kept (s : State) (n : Nat) (g : Session → Session) : Kept [.ses] s (State.modSes s n g) := by
  unfold State.modSes
  try dsimp only
  repeat' first
    | with_reducible exact Kept.refl _ _
    | with_reducible refine Kept.ite (fun _ => ?_) (fun _ => ?_)
    | with_reducible refine Kept.foldl' ?_ (fun a x => ?_)
    | with_reducible apply Kept.chain (State.setSes_kept _ _ _) (by decide)
    | with_reducible simp (disch := first | decide | (with_unfolding_all constructor <;> first | exact Or.inl (by decide) | exact Or.inr rfl | (constructor <;> first | exact Or.inl (by decide) | exact Or.inr (And.intro rfl rfl)))) only [Kept.upd_host, Kept.upd_now, Kept.upd_freeNo]
    | split
    | intro _

theorem State.setCplR_kept (s : State) (n : Nat) (v : CplRing) : Kept [] s (State.setCplR s n v) := (setCplR_posts _ _ _).kept _

theorem State.modCplR_kept (s : State) (n : Nat) (g : CplRing → CplRing) : Kept [] s (State.modCplR s n g) := by
  unfold State.modCplR
  try dsimp only
  repeat' first
    | with_reducible exact Kept.refl _ _
    | with_reducible refine Kept.ite (fun _ => ?_) (fun _ => ?_)
    | with_reducible refine Kept.foldl' ?_ (fun a x => ?_)
    | with_reducible apply Kept.chain (State.setCplR_kept _ _ _) (by decide)
    | with_reducible simp (disch := first | decide | (with_unfolding_all constructor <;> first | exact Or.inl (by decide) | exact Or.inr rfl | (constructor <;> first | exact Or.inl (by decide) | exact Or.inr (And.intro rfl rfl)))) only [Kept.upd_host, Kept.upd_now, Kept.upd_freeNo]
    | split
    | intro _

theorem State.setMsixE_kept (s : State) (n : Nat) (v : MsixEntry) : Kept [] s (State.setMsixE s n v) := (setMsixE_posts _ _ _).kept _

theorem State.modMsixE_kept (s : State) (n : Nat) (g : MsixEntry → MsixEntry) : Kept [] s (State.modMsixE s n g) := by
  unfold State.modMsixE
  try dsimp only
  repeat' first
    | with_reducible exact Kept.refl _ _
    | with_reducible refine Kept.ite (fun _ => ?_) (fun _ => ?_)
    | with_reducible refine Kept.foldl' ?_ (fun a x => ?_)
    | with_reducible apply Kept.chain (State.setMsixE_kept _ _ _) (by decide)
    | with_reducible simp (disch := first | decide | (with_unfolding_all constructor <;> first | exact Or.inl (by decide) | exact Or.inr rfl | (constructor <;> first | exact Or.inl (by decide) | exact Or.inr (And.intro rfl rfl)))) only [Kept.upd_host, Kept.upd_now, Kept.upd_freeNo]
    | split
    | intro _

theorem State.setOwnerOf_kept (s : State) (n : Nat) (v : Nat) : Kept [.host] s (State.setOwnerOf s n v) := by
  unfold State.setOwnerOf
  try dsimp only
  repeat' first
    | with_reducible exact Kept.refl _ _
    | with_reducible refine Kept.ite (fun _ => ?_) (fun _ => ?_)
    | with_reducible refine Kept.foldl' ?_ (fun a x => ?_)
    | with_reducible simp (disch := first | decide | (with_unfolding_all constructor <;> first | exact Or.inl (by decide) | exact Or.inr rfl | (constructor <;> first | exact Or.inl (by decide) | exact Or.inr (And.intro rfl rfl)))) only [Kept.upd_host, Kept.upd_now, Kept.upd_freeNo]
    | split
    | intro _

theorem State.modOwnerOf_kept (s : State) (n : Nat) (g : Nat → Nat) : Kept [.host] s (State.modOwnerOf s n g) := by
  unfold State.modOwnerOf
  try dsimp only
  repeat' first
    | with_reducible exact Kept.refl _ _
    | with_reducible refine Kept.ite (fun _ => ?_) (fun _ => ?_)
    | with_reducible refine Kept.foldl' ?_ (fun a x => ?_)
    | with_reducible apply Kept.chain (State.setOwnerOf_kept _ _ _) (by decide)
    | with_reducible simp (disch := first | decide | (with_unfolding_all constructor <;> first | exact Or.inl (by decide) | exact Or.inr rfl | (constructor <;> first | exact Or.inl (by decide) | exact Or.inr (And.intro rfl rfl)))) only [Kept.upd_host, Kept.upd_now, Kept.upd_freeNo]
    | split
    | intro _

theorem State.setInp_kept (s : State) (n : Nat) (v : RfInput) : Kept [.fe] s (State.setInp s n v) := by
  unfold State.setInp
  try dsimp only
  repeat' first
    | with_reducible exact Kept.refl _ _
    | with_reducible refine Kept.ite (fun _ => ?_) (fun _ => ?_)
    | with_reducible refine Kept.foldl' ?_ (fun a x => ?_)
    | with_reducible simp (disch := first | decide | (with_unfolding_all constructor <;> first | exact Or.inl (by decide) | exact Or.inr rfl | (constructor <;> first | exact Or.inl (by decide) | exact Or.inr (And.intro rfl rfl)))) only [Kept.upd_fe, Kept.upd_host, Kept.upd_now, Kept.upd_freeNo]
    | split
    | intro _

theorem State.modInp_kept (s : State) (n : Nat) (g : RfInput → RfInput) : Kept [.fe] s (State.modInp s n g) := by
  unfold State.modInp
  try dsimp only
  repeat' first
    | with_reducible exact Kept.refl _ _
    | with_reducible refine Kept.ite (fun _ => ?_) (fun _ => ?_)
    | with_reducible refine Kept.foldl' ?_ (fun a x => ?_)
    | with_reducible apply Kept.chain (State.setInp_kept _ _ _) (by decide)
    | with_reducible simp (disch := first | decide | (with_unfolding_all constructor <;> first | exact Or.inl (by decide) | exact Or.inr rfl | (constructor <;> first | exact Or.inl (by decide) | exact Or.inr (And.intro rfl rfl)))) only [Kept.upd_fe, Kept.upd_host, Kept.upd_now, Kept.upd_freeNo]
    | split
    | intro _

theorem State.setStr_kept (s : State) (n : Nat) (v : Stream) : Kept [.fe] s (State.setStr s n v) := by
  unfold State.setStr
  try dsimp only
  repeat' first
    | with_reducible exact Kept.refl _ _
    | with_reducible refine Kept.ite (fun _ => ?_) (fun _ => ?_)
    | with_reducible refine Kept.foldl' ?_ (fun a x => ?_)
    | with_reducible simp (disch := first | decide | (with_unfolding_all constructor <;> first | exact Or.inl (by decide) | exact Or.inr rfl | (constructor <;> first | exact Or.inl (by decide) | exact Or.inr (And.intro rfl rfl)))) only [Kept.upd_fe, Kept.upd_host, Kept.upd_now, Kept.upd_freeNo]
    | split
    | intro _

theorem State.modStr_kept (s : State) (n : Nat) (g : Stream → Stream) : Kept [.fe] s (State.modStr s n g) := by
  unfold State.modStr
  try dsimp only
  repeat' first
    | with_reducible exact Kept.refl _ _
    | with_reducible refine Kept.ite (fun _ => ?_) (fun _ => ?_)
    | with_reducible refine Kept.foldl' ?_ (fun a x => ?_)
    | with_reducible apply Kept.chain (State.setStr_kept _ _ _) (by decide)
    | with_reducible simp (disch := first | decide | (with_unfolding_all constructor <;> first | exact Or.inl (by decide) | exact Or.inr rfl | (constructor <;> first | exact Or.inl (by decide) | exact Or.inr (And.intro rfl rfl)))) only [Kept.upd_fe, Kept.upd_host, Kept.upd_now, Kept.upd_freeNo]
    | split
    | intro _

theorem State.setPll_kept (s : State) (n : Nat) (v : Pll) : Kept [.clk] s (State.setPll s n v) := by
  unfold State.setPll
  try dsimp only
  repeat' first
    | with_reducible exact Kept.refl _ _
    | with_reducible refine Kept.ite (fun _ => ?_) (fun _ => ?_)
    | with_reducible refine Kept.foldl' ?_ (fun a x => ?_)
    | with_reducible simp (disch := first | decide | (with_unfolding_all constructor <;> first | exact Or.inl (by decide) | exact Or.inr rfl | (constructor <;> first | exact Or.inl (by decide) | exact Or.inr (And.intro rfl rfl)))) only [Kept.upd_clk, Kept.upd_host, Kept.upd_now, Kept.upd_freeNo]
    | split
    | intro _

theorem State.modPll_kept (s : State) (n : Nat) (g : Pll → Pll) : Kept [.clk] s (State.modPll s n g) := by
  unfold State.modPll
  try dsimp only
  repeat' first
    | with_reducible exact Kept.refl _ _
    | with_reducible refine Kept.ite (fun _ => ?_) (fun _ => ?_)
    | with_reducible refine Kept.foldl' ?_ (fun a x => ?_)
    | with_reducible apply Kept.chain (State.setPll_kept _ _ _) (by decide)
    | with_reducible simp (disch := first | decide | (with_unfolding_all constructor <;> first | exact Or.inl (by decide) | exact Or.inr rfl | (constructor <;> first | exact Or.inl (by decide) | exact Or.inr (And.intro rfl rfl)))) only [Kept.upd_clk, Kept.upd_host, Kept.upd_now, Kept.upd_freeNo]
    | split
    | intro _

theorem State.setCalT_kept (s : State) (n : Nat) (v : CalTarget) : Kept [.cal] s (State.setCalT s n v) := by
  unfold State.setCalT
  try dsimp only
  repeat' first
    | with_reducible exact Kept.refl _ _
    | with_reducible refine Kept.ite (fun _ => ?_) (fun _ => ?_)
    | with_reducible refine Kept.foldl' ?_ (fun a x => ?_)
    | with_reducible simp (disch := first | decide | (with_unfolding_all constructor <;> first | exact Or.inl (by decide) | exact Or.inr rfl | (constructor <;> first | exact Or.inl (by decide) | exact Or.inr (And.intro rfl rfl)))) only [Kept.upd_cal, Kept.upd_host, Kept.upd_now, Kept.upd_freeNo]
    | split
    | intro _

theorem State.modCalT_kept (s : State) (n : Nat) (g : CalTarget → CalTarget) : Kept [.cal] s (State.modCalT s n g) := by
  unfold State.modCalT
  try dsimp only
  repeat' first
    | with_reducible exact Kept.refl _ _
    | with_reducible refine Kept.ite (fun _ => ?_) (fun _ => ?_)
    | with_reducible refine Kept.foldl' ?_ (fun a x => ?_)
    | with_reducible apply Kept.chain (State.setCalT_kept _ _ _) (by decide)
    | with_reducible simp (disch := first | decide | (with_unfolding_all constructor <;> first | exact Or.inl (by decide) | exact Or.inr rfl | (constructor <;> first | exact Or.inl (by decide) | exact Or.inr (And.intro rfl rfl)))) only [Kept.upd_cal, Kept.upd_host, Kept.upd_now, Kept.upd_freeNo]
    | split
    | intro _

theorem State.setCalStep_kept (s : State) (n : Nat) (v : (Option CalStep)) : Kept [.cal] s (State.setCalStep s n v) := by
  unfold State.setCalStep
  try dsimp only
  repeat' first
    | with_reducible exact Kept.refl _ _
    | with_reducible refine Kept.ite (fun _ => ?_) (fun _ => ?_)
    | with_reducible refine Kept.foldl' ?_ (fun a x => ?_)
    | with_reducible simp (disch := first | decide | (with_unfolding_all constructor <;> first | exact Or.inl (by decide) | exact Or.inr rfl | (constructor <;> first | exact Or.inl (by decide) | exact Or.inr (And.intro rfl rfl)))) only [Kept.upd_cal, Kept.upd_host, Kept.upd_now, Kept.upd_freeNo]
    | split
    | intro _

theorem State.modCalStep_kept (s : State) (n : Nat) (g : (Option CalStep) → (Option CalStep)) : Kept [.cal] s (State.modCalStep s n g) := by
  unfold State.modCalStep
  try dsimp only
  repeat' first
    | with_reducible exact Kept.refl _ _
    | with_reducible refine Kept.ite (fun _ => ?_) (fun _ => ?_)
    | with_reducible refine Kept.foldl' ?_ (fun a x => ?_)
    | with_reducible apply Kept.chain (State.setCalStep_kept _ _ _) (by decide)
    | with_reducible simp (disch := first | decide | (with_unfolding_all constructor <;> first | exact Or.inl (by decide) | exact Or.inr rfl | (constructor <;> first | exact Or.inl (by decide) | exact Or.inr (And.intro rfl rfl)))) only [Kept.upd_cal, Kept.upd_host, Kept.upd_now, Kept.upd_freeNo]
    | split
    | intro _

theorem State.setCalBlind_kept (s : State) (n : Nat) (v : Blind) : Kept [.cal] s (State.setCalBlind s n v) := by
  unfold State.setCalBlind
  try dsimp only
  repeat' first
    | with_reducible exact Kept.refl _ _
    | with_reducible refine Kept.ite (fun _ => ?_) (fun _ => ?_)
    | with_reducible refine Kept.foldl' ?_ (fun a x => ?_)
    | with_reducible simp (disch := first | decide | (with_unfolding_all constructor <;> first | exact Or.inl (by decide) | exact Or.inr rfl | (constructor <;> first | exact Or.inl (by decide) | exact Or.inr (And.intro rfl rfl)))) only [Kept.upd_cal, Kept.upd_host, Kept.upd_now, Kept.upd_freeNo]
    | split
    | intro _

theorem State.modCalBlind_kept (s : State) (n : Nat) (g : Blind → Blind) : Kept [.cal] s (State.modCalBlind s n g) := by
  unfold State.modCalBlind
  try dsimp only
  repeat' first
    | with_reducible exact Kept.refl _ _
    | with_reducible refine Kept.ite (fun _ => ?_) (fun _ => ?_)
    | with_reducible refine Kept.foldl' ?_ (fun a x => ?_)
    | with_reducible apply Kept.chain (State.setCalBlind_kept _ _ _) (by decide)
    | with_reducible simp (disch := first | decide | (with_unfolding_all constructor <;> first | exact Or.inl (by decide) | exact Or.inr rfl | (constructor <;> first | exact Or.inl (by decide) | exact Or.inr (And.intro rfl rfl)))) only [Kept.upd_cal, Kept.upd_host, Kept.upd_now, Kept.upd_freeNo]
    | split
    | intro _

theorem State.setLane_kept (s : State) (n : Nat) (v : Lane) : Kept [.spec] s (State.setLane s n v) := by
  unfold State.setLane
  try dsimp only
  repeat' first
    | with_reducible exact Kept.refl _ _
    | with_reducible refine Kept.ite (fun _ => ?_) (fun _ => ?_)
    | with_reducible refine Kept.foldl' ?_ (fun a x => ?_)
    | with_reducible simp (disch := first | decide | (with_unfolding_all constructor <;> first | exact Or.inl (by decide) | exact Or.inr rfl | (constructor <;> first | exact Or.inl (by decide) | exact Or.inr (And.intro rfl rfl)))) only [Kept.upd_spec, Kept.upd_host, Kept.upd_now, Kept.upd_freeNo]
    | split
    | intro _

theorem State.modLane_kept (s : State) (n : Nat) (g : Lane → Lane) : Kept [.spec] s (State.modLane s n g) := by
  unfold State.modLane
  try dsimp only
  repeat' first
    | with_reducible exact Kept.refl _ _
    | with_reducible refine Kept.ite (fun _ => ?_) (fun _ => ?_)
    | with_reducible refine Kept.foldl' ?_ (fun a x => ?_)
    | with_reducible apply Kept.chain (State.setLane_kept _ _ _) (by decide)
    | with_reducible simp (disch := first | decide | (with_unfolding_all constructor <;> first | exact Or.inl (by decide) | exact Or.inr rfl | (constructor <;> first | exact Or.inl (by decide) | exact Or.inr (And.intro rfl rfl)))) only [Kept.upd_spec, Kept.upd_host, Kept.upd_now, Kept.upd_freeNo]
    | split
    | intro _

theorem State.setTrace_kept (s : State) (n : Nat) (v : Trace) : Kept [.spec] s (State.setTrace s n v) := by
  unfold State.setTrace
  try dsimp only
  repeat' first
    | with_reducible exact Kept.refl _ _
    | with_reducible refine Kept.ite (fun _ => ?_) (fun _ => ?_)
    | with_reducible refine Kept.foldl' ?_ (fun a x => ?_)
    | with_reducible simp (disch := first | decide | (with_unfolding_all constructor <;> first | exact Or.inl (by decide) | exact Or.inr rfl | (constructor <;> first | exact Or.inl (by decide) | exact Or.inr (And.intro rfl rfl)))) only [Kept.upd_spec, Kept.upd_host, Kept.upd_now, Kept.upd_freeNo]
    | split
    | intro _

theorem State.modTrace_kept (s : State) (n : Nat) (g : Trace → Trace) : Kept [.spec] s (State.modTrace s n g) := by
  unfold State.modTrace
  try dsimp only
  repeat' first
    | with_reducible exact Kept.refl _ _
    | with_reducible refine Kept.ite (fun _ => ?_) (fun _ => ?_)
    | with_reducible refine Kept.foldl' ?_ (fun a x => ?_)
    | with_reducible apply Kept.chain (State.setTrace_kept _ _ _) (by decide)
    | with_reducible simp (disch := first | decide | (with_unfolding_all constructor <;> first | exact Or.inl (by decide) | exact Or.inr rfl | (constructor <;> first | exact Or.inl (by decide) | exact Or.inr (And.intro rfl rfl)))) only [Kept.upd_spec, Kept.upd_host, Kept.upd_now, Kept.upd_freeNo]
    | split
    | intro _

theorem State.setSout_kept (s : State) (n : Nat) (v : SpecOut) : Kept [.spec] s (State.setSout s n v) := by
  unfold State.setSout
  try dsimp only
  repeat' first
    | with_reducible exact Kept.refl _ _
    | with_reducible refine Kept.ite (fun _ => ?_) (fun _ => ?_)
    | with_reducible refine Kept.foldl' ?_ (fun a x => ?_)
    | with_reducible simp (disch := first | decide | (with_unfolding_all constructor <;> first | exact Or.inl (by decide) | exact Or.inr rfl | (constructor <;> first | exact Or.inl (by decide) | exact Or.inr (And.intro rfl rfl)))) only [Kept.upd_spec, Kept.upd_host, Kept.upd_now, Kept.upd_freeNo]
    | split
    | intro _

theorem State.modSout_kept (s : State) (n : Nat) (g : SpecOut → SpecOut) : Kept [.spec] s (State.modSout s n g) := by
  unfold State.modSout
  try dsimp only
  repeat' first
    | with_reducible exact Kept.refl _ _
    | with_reducible refine Kept.ite (fun _ => ?_) (fun _ => ?_)
    | with_reducible refine Kept.foldl' ?_ (fun a x => ?_)
    | with_reducible apply Kept.chain (State.setSout_kept _ _ _) (by decide)
    | with_reducible simp (disch := first | decide | (with_unfolding_all constructor <;> first | exact Or.inl (by decide) | exact Or.inr rfl | (constructor <;> first | exact Or.inl (by decide) | exact Or.inr (And.intro rfl rfl)))) only [Kept.upd_spec, Kept.upd_host, Kept.upd_now, Kept.upd_freeNo]
    | split
    | intro _

theorem State.setDdc_kept (s : State) (n : Nat) (v : Ddc) : Kept [.spec] s (State.setDdc s n v) := by
  unfold State.setDdc
  try dsimp only
  repeat' first
    | with_reducible exact Kept.refl _ _
    | with_reducible refine Kept.ite (fun _ => ?_) (fun _ => ?_)
    | with_reducible refine Kept.foldl' ?_ (fun a x => ?_)
    | with_reducible simp (disch := first | decide | (with_unfolding_all constructor <;> first | exact Or.inl (by decide) | exact Or.inr rfl | (constructor <;> first | exact Or.inl (by decide) | exact Or.inr (And.intro rfl rfl)))) only [Kept.upd_spec, Kept.upd_host, Kept.upd_now, Kept.upd_freeNo]
    | split
    | intro _

theorem State.modDdc_kept (s : State) (n : Nat) (g : Ddc → Ddc) : Kept [.spec] s (State.modDdc s n g) := by
  unfold State.modDdc
  try dsimp only
  repeat' first
    | with_reducible exact Kept.refl _ _
    | with_reducible refine Kept.ite (fun _ => ?_) (fun _ => ?_)
    | with_reducible refine Kept.foldl' ?_ (fun a x => ?_)
    | with_reducible apply Kept.chain (State.setDdc_kept _ _ _) (by decide)
    | with_reducible simp (disch := first | decide | (with_unfolding_all constructor <;> first | exact Or.inl (by decide) | exact Or.inr rfl | (constructor <;> first | exact Or.inl (by decide) | exact Or.inr (And.intro rfl rfl)))) only [Kept.upd_spec, Kept.upd_host, Kept.upd_now, Kept.upd_freeNo]
    | split
    | intro _

theorem State.setAu_kept (s : State) (n : Nat) (v : Acq) : Kept [.acq] s (State.setAu s n v) := by
  unfold State.setAu
  try dsimp only
  repeat' first
    | with_reducible exact Kept.refl _ _
    | with_reducible refine Kept.ite (fun _ => ?_) (fun _ => ?_)
    | with_reducible refine Kept.foldl' ?_ (fun a x => ?_)
    | with_reducible simp (disch := first | decide | (with_unfolding_all constructor <;> first | exact Or.inl (by decide) | exact Or.inr rfl | (constructor <;> first | exact Or.inl (by decide) | exact Or.inr (And.intro rfl rfl)))) only [Kept.upd_acq, Kept.upd_host, Kept.upd_now, Kept.upd_freeNo]
    | split
    | intro _

theorem State.modAu_kept (s : State) (n : Nat) (g : Acq → Acq) : Kept [.acq] s (State.modAu s n g) := by
  unfold State.modAu
  try dsimp only
  repeat' first
    | with_reducible exact Kept.refl _ _
    | with_reducible refine Kept.ite (fun _ => ?_) (fun _ => ?_)
    | with_reducible refine Kept.foldl' ?_ (fun a x => ?_)
    | with_reducible apply Kept.chain (State.setAu_kept _ _ _) (by decide)
    | with_reducible simp (disch := first | decide | (with_unfolding_all constructor <;> first | exact Or.inl (by decide) | exact Or.inr rfl | (constructor <;> first | exact Or.inl (by decide) | exact Or.inr (And.intro rfl rfl)))) only [Kept.upd_acq, Kept.upd_host, Kept.upd_now, Kept.upd_freeNo]
    | split
    | intro _

theorem State.setTerm_kept (s : State) (n : Nat) (v : Term) : Kept [.acq] s (State.setTerm s n v) := by
  unfold State.setTerm
  try dsimp only
  repeat' first
    | with_reducible exact Kept.refl _ _
    | with_reducible refine Kept.ite (fun _ => ?_) (fun _ => ?_)
    | with_reducible refine Kept.foldl' ?_ (fun a x => ?_)
    | with_reducible simp (disch := first | decide | (with_unfolding_all constructor <;> first | exact Or.inl (by decide) | exact Or.inr rfl | (constructor <;> first | exact Or.inl (by decide) | exact Or.inr (And.intro rfl rfl)))) only [Kept.upd_acq, Kept.upd_host, Kept.upd_now, Kept.upd_freeNo]
    | split
    | intro _

theorem State.modTerm_kept (s : State) (n : Nat) (g : Term → Term) : Kept [.acq] s (State.modTerm s n g) := by
  unfold State.modTerm
  try dsimp only
  repeat' first
    | with_reducible exact Kept.refl _ _
    | with_reducible refine Kept.ite (fun _ => ?_) (fun _ => ?_)
    | with_reducible refine Kept.foldl' ?_ (fun a x => ?_)
    | with_reducible apply Kept.chain (State.setTerm_kept _ _ _) (by decide)
    | with_reducible simp (disch := first | decide | (with_unfolding_all constructor <;> first | exact Or.inl (by decide) | exact Or.inr rfl | (constructor <;> first | exact Or.inl (by decide) | exact Or.inr (And.intro rfl rfl)))) only [Kept.upd_acq, Kept.upd_host, Kept.upd_now, Kept.upd_freeNo]
    | split
    | intro _

theorem State.setTst_kept (s : State) (n : Nat) (v : Test) : Kept [.acq] s (State.setTst s n v) := by
  unfold State.setTst
  try dsimp only
  repeat' first
    | with_reducible exact Kept.refl _ _
    | with_reducible refine Kept.ite (fun _ => ?_) (fun _ => ?_)
    | with_reducible refine Kept.foldl' ?_ (fun a x => ?_)
    | with_reducible simp (disch := first | decide | (with_unfolding_all constructor <;> first | exact Or.inl (by decide) | exact Or.inr rfl | (constructor <;> first | exact Or.inl (by decide) | exact Or.inr (And.intro rfl rfl)))) only [Kept.upd_acq, Kept.upd_host, Kept.upd_now, Kept.upd_freeNo]
    | split
    | intro _

theorem State.modTst_kept (s : State) (n : Nat) (g : Test → Test) : Kept [.acq] s (State.modTst s n g) := by
  unfold State.modTst
  try dsimp only
  repeat' first
    | with_reducible exact Kept.refl _ _
    | with_reducible refine Kept.ite (fun _ => ?_) (fun _ => ?_)
    | with_reducible refine Kept.foldl' ?_ (fun a x => ?_)
    | with_reducible apply Kept.chain (State.setTst_kept _ _ _) (by decide)
    | with_reducible simp (disch := first | decide | (with_unfolding_all constructor <;> first | exact Or.inl (by decide) | exact Or.inr rfl | (constructor <;> first | exact Or.inl (by decide) | exact Or.inr (And.intro rfl rfl)))) only [Kept.upd_acq, Kept.upd_host, Kept.upd_now, Kept.upd_freeNo]
    | split
    | intro _

theorem State.setMaskS_kept (s : State) (n : Nat) (v : MaskSlot) : Kept [.acq] s (State.setMaskS s n v) := by
  unfold State.setMaskS
  try dsimp only
  repeat' first
    | with_reducible exact Kept.refl _ _
    | with_reducible refine Kept.ite (fun _ => ?_) (fun _ => ?_)
    | with_reducible refine Kept.foldl' ?_ (fun a x => ?_)
    | with_reducible simp (disch := first | decide | (with_unfolding_all constructor <;> first | exact Or.inl (by decide) | exact Or.inr rfl | (constructor <;> first | exact Or.inl (by decide) | exact Or.inr (And.intro rfl rfl)))) only [Kept.upd_acq, Kept.upd_host, Kept.upd_now, Kept.upd_freeNo]
    | split
    | intro _

theorem State.modMaskS_kept (s : State) (n : Nat) (g : MaskSlot → MaskSlot) : Kept [.acq] s (State.modMaskS s n g) := by
  unfold State.modMaskS
  try dsimp only
  repeat' first
    | with_reducible exact Kept.refl _ _
    | with_reducible refine Kept.ite (fun _ => ?_) (fun _ => ?_)
    | with_reducible refine Kept.foldl' ?_ (fun a x => ?_)
    | with_reducible apply Kept.chain (State.setMaskS_kept _ _ _) (by decide)
    | with_reducible simp (disch := first | decide | (with_unfolding_all constructor <;> first | exact Or.inl (by decide) | exact Or.inr rfl | (constructor <;> first | exact Or.inl (by decide) | exact Or.inr (And.intro rfl rfl)))) only [Kept.upd_acq, Kept.upd_host, Kept.upd_now, Kept.upd_freeNo]
    | split
    | intro _

theorem State.setBp_kept (s : State) (n : Nat) (v : Bp) : Kept [.acq] s (State.setBp s n v) := by
  unfold State.setBp
  try dsimp only
  repeat' first
    | with_reducible exact Kept.refl _ _
    | with_reducible refine Kept.ite (fun _ => ?_) (fun _ => ?_)
    | with_reducible refine Kept.foldl' ?_ (fun a x => ?_)
    | with_reducible simp (disch := first | decide | (with_unfolding_all constructor <;> first | exact Or.inl (by decide) | exact Or.inr rfl | (constructor <;> first | exact Or.inl (by decide) | exact Or.inr (And.intro rfl rfl)))) only [Kept.upd_acq, Kept.upd_host, Kept.upd_now, Kept.upd_freeNo]
    | split
    | intro _

theorem State.modBp_kept (s : State) (n : Nat) (g : Bp → Bp) : Kept [.acq] s (State.modBp s n g) := by
  unfold State.modBp
  try dsimp only
  repeat' first
    | with_reducible exact Kept.refl _ _
    | with_reducible refine Kept.ite (fun _ => ?_) (fun _ => ?_)
    | with_reducible refine Kept.foldl' ?_ (fun a x => ?_)
    | with_reducible apply Kept.chain (State.setBp_kept _ _ _) (by decide)
    | with_reducible simp (disch := first | decide | (with_unfolding_all constructor <;> first | exact Or.inl (by decide) | exact Or.inr rfl | (constructor <;> first | exact Or.inl (by decide) | exact Or.inr (And.intro rfl rfl)))) only [Kept.upd_acq, Kept.upd_host, Kept.upd_now, Kept.upd_freeNo]
    | split
    | intro _

theorem State.setPin_kept (s : State) (n : Nat) (v : EvtOut) : Kept [.acq] s (State.setPin s n v) := by
  unfold State.setPin
  try dsimp only
  repeat' first
    | with_reducible exact Kept.refl _ _
    | with_reducible refine Kept.ite (fun _ => ?_) (fun _ => ?_)
    | with_reducible refine Kept.foldl' ?_ (fun a x => ?_)
    | with_reducible simp (disch := first | decide | (with_unfolding_all constructor <;> first | exact Or.inl (by decide) | exact Or.inr rfl | (constructor <;> first | exact Or.inl (by decide) | exact Or.inr (And.intro rfl rfl)))) only [Kept.upd_acq, Kept.upd_host, Kept.upd_now, Kept.upd_freeNo]
    | split
    | intro _

theorem State.modPin_kept (s : State) (n : Nat) (g : EvtOut → EvtOut) : Kept [.acq] s (State.modPin s n g) := by
  unfold State.modPin
  try dsimp only
  repeat' first
    | with_reducible exact Kept.refl _ _
    | with_reducible refine Kept.ite (fun _ => ?_) (fun _ => ?_)
    | with_reducible refine Kept.foldl' ?_ (fun a x => ?_)
    | with_reducible apply Kept.chain (State.setPin_kept _ _ _) (by decide)
    | with_reducible simp (disch := first | decide | (with_unfolding_all constructor <;> first | exact Or.inl (by decide) | exact Or.inr rfl | (constructor <;> first | exact Or.inl (by decide) | exact Or.inr (And.intro rfl rfl)))) only [Kept.upd_acq, Kept.upd_host, Kept.upd_now, Kept.upd_freeNo]
    | split
    | intro _

theorem State.setDmap_kept (s : State) (n : Nat) (v : DensMap) : Kept [.disp] s (State.setDmap s n v) := by
  unfold State.setDmap
  try dsimp only
  repeat' first
    | with_reducible exact Kept.refl _ _
    | with_reducible refine Kept.ite (fun _ => ?_) (fun _ => ?_)
    | with_reducible refine Kept.foldl' ?_ (fun a x => ?_)
    | with_reducible simp (disch := first | decide | (with_unfolding_all constructor <;> first | exact Or.inl (by decide) | exact Or.inr rfl | (constructor <;> first | exact Or.inl (by decide) | exact Or.inr (And.intro rfl rfl)))) only [Kept.upd_disp, Kept.upd_host, Kept.upd_now, Kept.upd_freeNo]
    | split
    | intro _

theorem State.modDmap_kept (s : State) (n : Nat) (g : DensMap → DensMap) : Kept [.disp] s (State.modDmap s n g) := by
  unfold State.modDmap
  try dsimp only
  repeat' first
    | with_reducible exact Kept.refl _ _
    | with_reducible refine Kept.ite (fun _ => ?_) (fun _ => ?_)
    | with_reducible refine Kept.foldl' ?_ (fun a x => ?_)
    | with_reducible apply Kept.chain (State.setDmap_kept _ _ _) (by decide)
    | with_reducible simp (disch := first | decide | (with_unfolding_all constructor <;> first | exact Or.inl (by decide) | exact Or.inr rfl | (constructor <;> first | exact Or.inl (by decide) | exact Or.inr (And.intro rfl rfl)))) only [Kept.upd_disp, Kept.upd_host, Kept.upd_now, Kept.upd_freeNo]
    | split
    | intro _

theorem State.setPigm_kept (s : State) (n : Nat) (v : Pigment) : Kept [.disp] s (State.setPigm s n v) := by
  unfold State.setPigm
  try dsimp only
  repeat' first
    | with_reducible exact Kept.refl _ _
    | with_reducible refine Kept.ite (fun _ => ?_) (fun _ => ?_)
    | with_reducible refine Kept.foldl' ?_ (fun a x => ?_)
    | with_reducible simp (disch := first | decide | (with_unfolding_all constructor <;> first | exact Or.inl (by decide) | exact Or.inr rfl | (constructor <;> first | exact Or.inl (by decide) | exact Or.inr (And.intro rfl rfl)))) only [Kept.upd_disp, Kept.upd_host, Kept.upd_now, Kept.upd_freeNo]
    | split
    | intro _

theorem State.modPigm_kept (s : State) (n : Nat) (g : Pigment → Pigment) : Kept [.disp] s (State.modPigm s n g) := by
  unfold State.modPigm
  try dsimp only
  repeat' first
    | with_reducible exact Kept.refl _ _
    | with_reducible refine Kept.ite (fun _ => ?_) (fun _ => ?_)
    | with_reducible refine Kept.foldl' ?_ (fun a x => ?_)
    | with_reducible apply Kept.chain (State.setPigm_kept _ _ _) (by decide)
    | with_reducible simp (disch := first | decide | (with_unfolding_all constructor <;> first | exact Or.inl (by decide) | exact Or.inr rfl | (constructor <;> first | exact Or.inl (by decide) | exact Or.inr (And.intro rfl rfl)))) only [Kept.upd_disp, Kept.upd_host, Kept.upd_now, Kept.upd_freeNo]
    | split
    | intro _

theorem State.setPort_kept (s : State) (n : Nat) (v : Port) : Kept [.disp] s (State.setPort s n v) := by
  unfold State.setPort
  try dsimp only
  repeat' first
    | with_reducible exact Kept.refl _ _
    | with_reducible refine Kept.ite (fun _ => ?_) (fun _ => ?_)
    | with_reducible refine Kept.foldl' ?_ (fun a x => ?_)
    | with_reducible simp (disch := first | decide | (with_unfolding_all constructor <;> first | exact Or.inl (by decide) | exact Or.inr rfl | (constructor <;> first | exact Or.inl (by decide) | exact Or.inr (And.intro rfl rfl)))) only [Kept.upd_disp, Kept.upd_host, Kept.upd_now, Kept.upd_freeNo]
    | split
    | intro _

theorem State.modPort_kept (s : State) (n : Nat) (g : Port → Port) : Kept [.disp] s (State.modPort s n g) := by
  unfold State.modPort
  try dsimp only
  repeat' first
    | with_reducible exact Kept.refl _ _
    | with_reducible refine Kept.ite (fun _ => ?_) (fun _ => ?_)
    | with_reducible refine Kept.foldl' ?_ (fun a x => ?_)
    | with_reducible apply Kept.chain (State.setPort_kept _ _ _) (by decide)
    | with_reducible simp (disch := first | decide | (with_unfolding_all constructor <;> first | exact Or.inl (by decide) | exact Or.inr rfl | (constructor <;> first | exact Or.inl (by decide) | exact Or.inr (And.intro rfl rfl)))) only [Kept.upd_disp, Kept.upd_host, Kept.upd_now, Kept.upd_freeNo]
    | split
    | intro _

theorem State.setCtx_kept (s : State) (n : Nat) (v : Ctx) : Kept [.mon] s (State.setCtx s n v) := by
  unfold State.setCtx
  try dsimp only
  repeat' first
    | with_reducible exact Kept.refl _ _
    | with_reducible refine Kept.ite (fun _ => ?_) (fun _ => ?_)
    | with_reducible refine Kept.foldl' ?_ (fun a x => ?_)
    | with_reducible simp (disch := first | decide | (with_unfolding_all constructor <;> first | exact Or.inl (by decide) | exact Or.inr rfl | (constructor <;> first | exact Or.inl (by decide) | exact Or.inr (And.intro rfl rfl)))) only [Kept.upd_mon, Kept.upd_host, Kept.upd_now, Kept.upd_freeNo]
    | split
    | intro _

theorem State.modCtx_kept (s : State) (n : Nat) (g : Ctx → Ctx) : Kept [.mon] s (State.modCtx s n g) := by
  unfold State.modCtx
  try dsimp only
  repeat' first
    | with_reducible exact Kept.refl _ _
    | with_reducible refine Kept.ite (fun _ => ?_) (fun _ => ?_)
    | with_reducible refine Kept.foldl' ?_ (fun a x => ?_)
    | with_reducible apply Kept.chain (State.setCtx_kept _ _ _) (by decide)
    | with_reducible simp (disch := first | decide | (with_unfolding_all constructor <;> first | exact Or.inl (by decide) | exact Or.inr rfl | (constructor <;> first | exact Or.inl (by decide) | exact Or.inr (And.intro rfl rfl)))) only [Kept.upd_mon, Kept.upd_host, Kept.upd_now, Kept.upd_freeNo]
    | split
    | intro _

theorem State.setTiuIn_kept (s : State) (n : Nat) (v : TiuIn) : Kept [.tiu] s (State.setTiuIn s n v) := by
  unfold State.setTiuIn
  try dsimp only
  repeat' first
    | with_reducible exact Kept.refl _ _
    | with_reducible refine Kept.ite (fun _ => ?_) (fun _ => ?_)
    | with_reducible refine Kept.foldl' ?_ (fun a x => ?_)
    | with_reducible simp (disch := first | decide | (with_unfolding_all constructor <;> first | exact Or.inl (by decide) | exact Or.inr rfl | (constructor <;> first | exact Or.inl (by decide) | exact Or.inr (And.intro rfl rfl)))) only [Kept.upd_tiu, Kept.upd_host, Kept.upd_now, Kept.upd_freeNo]
    | split
    | intro _

theorem State.modTiuIn_kept (s : State) (n : Nat) (g : TiuIn → TiuIn) : Kept [.tiu] s (State.modTiuIn s n g) := by
  unfold State.modTiuIn
  try dsimp only
  repeat' first
    | with_reducible exact Kept.refl _ _
    | with_reducible refine Kept.ite (fun _ => ?_) (fun _ => ?_)
    | with_reducible refine Kept.foldl' ?_ (fun a x => ?_)
    | with_reducible apply Kept.chain (State.setTiuIn_kept _ _ _) (by decide)
    | with_reducible simp (disch := first | decide | (with_unfolding_all constructor <;> first | exact Or.inl (by decide) | exact Or.inr rfl | (constructor <;> first | exact Or.inl (by decide) | exact Or.inr (And.intro rfl rfl)))) only [Kept.upd_tiu, Kept.upd_host, Kept.upd_now, Kept.upd_freeNo]
    | split
    | intro _

theorem State.setTiuSt_kept (s : State) (n : Nat) (v : TiuStat) : Kept [.tiu] s (State.setTiuSt s n v) := by
  unfold State.setTiuSt
  try dsimp only
  repeat' first
    | with_reducible exact Kept.refl _ _
    | with_reducible refine Kept.ite (fun _ => ?_) (fun _ => ?_)
    | with_reducible refine Kept.foldl' ?_ (fun a x => ?_)
    | with_reducible simp (disch := first | decide | (with_unfolding_all constructor <;> first | exact Or.inl (by decide) | exact Or.inr rfl | (constructor <;> first | exact Or.inl (by decide) | exact Or.inr (And.intro rfl rfl)))) only [Kept.upd_tiu, Kept.upd_host, Kept.upd_now, Kept.upd_freeNo]
    | split
    | intro _

theorem State.modTiuSt_kept (s : State) (n : Nat) (g : TiuStat → TiuStat) : Kept [.tiu] s (State.modTiuSt s n g) := by
  unfold State.modTiuSt
  try dsimp only
  repeat' first
    | with_reducible exact Kept.refl _ _
    | with_reducible refine Kept.ite (fun _ => ?_) (fun _ => ?_)
    | with_reducible refine Kept.foldl' ?_ (fun a x => ?_)
    | with_reducible apply Kept.chain (State.setTiuSt_kept _ _ _) (by decide)
    | with_reducible simp (disch := first | decide | (with_unfolding_all constructor <;> first | exact Or.inl (by decide) | exact Or.inr rfl | (constructor <;> first | exact Or.inl (by decide) | exact Or.inr (And.intro rfl rfl)))) only [Kept.upd_tiu, Kept.upd_host, Kept.upd_now, Kept.upd_freeNo]
    | split
    | intro _

theorem State.setCore_kept (s : State) (n : Nat) (v : GCore) : Kept [.grove] s (State.setCore s n v) := by
  unfold State.setCore
  try dsimp only
  repeat' first
    | with_reducible exact Kept.refl _ _
    | with_reducible refine Kept.ite (fun _ => ?_) (fun _ => ?_)
    | with_reducible refine Kept.foldl' ?_ (fun a x => ?_)
    | with_reducible simp (disch := first | decide | (with_unfolding_all constructor <;> first | exact Or.inl (by decide) | exact Or.inr rfl | (constructor <;> first | exact Or.inl (by decide) | exact Or.inr (And.intro rfl rfl)))) only [Kept.upd_grove, Kept.upd_host, Kept.upd_now, Kept.upd_freeNo]
    | split
    | intro _

theorem State.modCore_kept (s : State) (n : Nat) (g : GCore → GCore) : Kept [.grove] s (State.modCore s n g) := by
  unfold State.modCore
  try dsimp only
  repeat' first
    | with_reducible exact Kept.refl _ _
    | with_reducible refine Kept.ite (fun _ => ?_) (fun _ => ?_)
    | with_reducible refine Kept.foldl' ?_ (fun a x => ?_)
    | with_reducible apply Kept.chain (State.setCore_kept _ _ _) (by decide)
    | with_reducible simp (disch := first | decide | (with_unfolding_all constructor <;> first | exact Or.inl (by decide) | exact Or.inr rfl | (constructor <;> first | exact Or.inl (by decide) | exact Or.inr (And.intro rfl rfl)))) only [Kept.upd_grove, Kept.upd_host, Kept.upd_now, Kept.upd_freeNo]
    | split
    | intro _

theorem State.setFeed_kept (s : State) (n : Nat) (v : Feed) : Kept [.grove] s (State.setFeed s n v) := by
  unfold State.setFeed
  try dsimp only
  repeat' first
    | with_reducible exact Kept.refl _ _
    | with_reducible refine Kept.ite (fun _ => ?_) (fun _ => ?_)
    | with_reducible refine Kept.foldl' ?_ (fun a x => ?_)
    | with_reducible simp (disch := first | decide | (with_unfolding_all constructor <;> first | exact Or.inl (by decide) | exact Or.inr rfl | (constructor <;> first | exact Or.inl (by decide) | exact Or.inr (And.intro rfl rfl)))) only [Kept.upd_grove, Kept.upd_host, Kept.upd_now, Kept.upd_freeNo]
    | split
    | intro _

theorem State.modFeed_kept (s : State) (n : Nat) (g : Feed → Feed) : Kept [.grove] s (State.modFeed s n g) := by
  unfold State.modFeed
  try dsimp only
  repeat' first
    | with_reducible exact Kept.refl _ _
    | with_reducible refine Kept.ite (fun _ => ?_) (fun _ => ?_)
    | with_reducible refine Kept.foldl' ?_ (fun a x => ?_)
    | with_reducible apply Kept.chain (State.setFeed_kept _ _ _) (by decide)
    | with_reducible simp (disch := first | decide | (with_unfolding_all constructor <;> first | exact Or.inl (by decide) | exact Or.inr rfl | (constructor <;> first | exact Or.inl (by decide) | exact Or.inr (And.intro rfl rfl)))) only [Kept.upd_grove, Kept.upd_host, Kept.upd_now, Kept.upd_freeNo]
    | split
    | intro _

theorem State.setBar_kept (s : State) (n : Nat) (v : Barrier) : Kept [.grove] s (State.setBar s n v) := by
  unfold State.setBar
  try dsimp only
  repeat' first
    | with_reducible exact Kept.refl _ _
    | with_reducible refine Kept.ite (fun _ => ?_) (fun _ => ?_)
    | with_reducible refine Kept.foldl' ?_ (fun a x => ?_)
    | with_reducible simp (disch := first | decide | (with_unfolding_all constructor <;> first | exact Or.inl (by decide) | exact Or.inr rfl | (constructor <;> first | exact Or.inl (by decide) | exact Or.inr (And.intro rfl rfl)))) only [Kept.upd_grove, Kept.upd_host, Kept.upd_now, Kept.upd_freeNo]
    | split
    | intro _

theorem State.modBar_kept (s : State) (n : Nat) (g : Barrier → Barrier) : Kept [.grove] s (State.modBar s n g) := by
  unfold State.modBar
  try dsimp only
  repeat' first
    | with_reducible exact Kept.refl _ _
    | with_reducible refine Kept.ite (fun _ => ?_) (fun _ => ?_)
    | with_reducible refine Kept.foldl' ?_ (fun a x => ?_)
    | with_reducible apply Kept.chain (State.setBar_kept _ _ _) (by decide)
    | with_reducible simp (disch := first | decide | (with_unfolding_all constructor <;> first | exact Or.inl (by decide) | exact Or.inr rfl | (constructor <;> first | exact Or.inl (by decide) | exact Or.inr (And.intro rfl rfl)))) only [Kept.upd_grove, Kept.upd_host, Kept.upd_now, Kept.upd_freeNo]
    | split
    | intro _

theorem State.setReg_kept (s : State) (n : Nat) (v : Region) : Kept [.mem] s (State.setReg s n v) := by
  unfold State.setReg
  try dsimp only
  repeat' first
    | with_reducible exact Kept.refl _ _
    | with_reducible refine Kept.ite (fun _ => ?_) (fun _ => ?_)
    | with_reducible refine Kept.foldl' ?_ (fun a x => ?_)
    | with_reducible simp (disch := first | decide | (with_unfolding_all constructor <;> first | exact Or.inl (by decide) | exact Or.inr rfl | (constructor <;> first | exact Or.inl (by decide) | exact Or.inr (And.intro rfl rfl)))) only [Kept.upd_mem, Kept.upd_host, Kept.upd_now, Kept.upd_freeNo]
    | split
    | intro _

theorem State.modReg_kept (s : State) (n : Nat) (g : Region → Region) : Kept [.mem] s (State.modReg s n g) := by
  unfold State.modReg
  try dsimp only
  repeat' first
    | with_reducible exact Kept.refl _ _
    | with_reducible refine Kept.ite (fun _ => ?_) (fun _ => ?_)
    | with_reducible refine Kept.foldl' ?_ (fun a x => ?_)
    | with_reducible apply Kept.chain (State.setReg_kept _ _ _) (by decide)
    | with_reducible simp (disch := first | decide | (with_unfolding_all constructor <;> first | exact Or.inl (by decide) | exact Or.inr rfl | (constructor <;> first | exact Or.inl (by decide) | exact Or.inr (And.intro rfl rfl)))) only [Kept.upd_mem, Kept.upd_host, Kept.upd_now, Kept.upd_freeNo]
    | split
    | intro _

theorem State.setQuad_kept (s : State) (n : Nat) (v : Quad) : Kept [.mem] s (State.setQuad s n v) := by
  unfold State.setQuad
  try dsimp only
  repeat' first
    | with_reducible exact Kept.refl _ _
    | with_reducible refine Kept.ite (fun _ => ?_) (fun _ => ?_)
    | with_reducible refine Kept.foldl' ?_ (fun a x => ?_)
    | with_reducible simp (disch := first | decide | (with_unfolding_all constructor <;> first | exact Or.inl (by decide) | exact Or.inr rfl | (constructor <;> first | exact Or.inl (by decide) | exact Or.inr (And.intro rfl rfl)))) only [Kept.upd_mem, Kept.upd_host, Kept.upd_now, Kept.upd_freeNo]
    | split
    | intro _

theorem State.modQuad_kept (s : State) (n : Nat) (g : Quad → Quad) : Kept [.mem] s (State.modQuad s n g) := by
  unfold State.modQuad
  try dsimp only
  repeat' first
    | with_reducible exact Kept.refl _ _
    | with_reducible refine Kept.ite (fun _ => ?_) (fun _ => ?_)
    | with_reducible refine Kept.foldl' ?_ (fun a x => ?_)
    | with_reducible apply Kept.chain (State.setQuad_kept _ _ _) (by decide)
    | with_reducible simp (disch := first | decide | (with_unfolding_all constructor <;> first | exact Or.inl (by decide) | exact Or.inr rfl | (constructor <;> first | exact Or.inl (by decide) | exact Or.inr (And.intro rfl rfl)))) only [Kept.upd_mem, Kept.upd_host, Kept.upd_now, Kept.upd_freeNo]
    | split
    | intro _

theorem State.setRank_kept (s : State) (n : Nat) (v : RankErr) : Kept [.mem] s (State.setRank s n v) := by
  unfold State.setRank
  try dsimp only
  repeat' first
    | with_reducible exact Kept.refl _ _
    | with_reducible refine Kept.ite (fun _ => ?_) (fun _ => ?_)
    | with_reducible refine Kept.foldl' ?_ (fun a x => ?_)
    | with_reducible simp (disch := first | decide | (with_unfolding_all constructor <;> first | exact Or.inl (by decide) | exact Or.inr rfl | (constructor <;> first | exact Or.inl (by decide) | exact Or.inr (And.intro rfl rfl)))) only [Kept.upd_mem, Kept.upd_host, Kept.upd_now, Kept.upd_freeNo]
    | split
    | intro _

theorem State.modRank_kept (s : State) (n : Nat) (g : RankErr → RankErr) : Kept [.mem] s (State.modRank s n g) := by
  unfold State.modRank
  try dsimp only
  repeat' first
    | with_reducible exact Kept.refl _ _
    | with_reducible refine Kept.ite (fun _ => ?_) (fun _ => ?_)
    | with_reducible refine Kept.foldl' ?_ (fun a x => ?_)
    | with_reducible apply Kept.chain (State.setRank_kept _ _ _) (by decide)
    | with_reducible simp (disch := first | decide | (with_unfolding_all constructor <;> first | exact Or.inl (by decide) | exact Or.inr rfl | (constructor <;> first | exact Or.inl (by decide) | exact Or.inr (And.intro rfl rfl)))) only [Kept.upd_mem, Kept.upd_host, Kept.upd_now, Kept.upd_freeNo]
    | split
    | intro _

theorem State.setDma_kept (s : State) (n : Nat) (v : Dma) : Kept [.move] s (State.setDma s n v) := by
  unfold State.setDma
  try dsimp only
  repeat' first
    | with_reducible exact Kept.refl _ _
    | with_reducible refine Kept.ite (fun _ => ?_) (fun _ => ?_)
    | with_reducible refine Kept.foldl' ?_ (fun a x => ?_)
    | with_reducible simp (disch := first | decide | (with_unfolding_all constructor <;> first | exact Or.inl (by decide) | exact Or.inr rfl | (constructor <;> first | exact Or.inl (by decide) | exact Or.inr (And.intro rfl rfl)))) only [Kept.upd_move, Kept.upd_host, Kept.upd_now, Kept.upd_freeNo]
    | split
    | intro _

theorem State.modDma_kept (s : State) (n : Nat) (g : Dma → Dma) : Kept [.move] s (State.modDma s n g) := by
  unfold State.modDma
  try dsimp only
  repeat' first
    | with_reducible exact Kept.refl _ _
    | with_reducible refine Kept.ite (fun _ => ?_) (fun _ => ?_)
    | with_reducible refine Kept.foldl' ?_ (fun a x => ?_)
    | with_reducible apply Kept.chain (State.setDma_kept _ _ _) (by decide)
    | with_reducible simp (disch := first | decide | (with_unfolding_all constructor <;> first | exact Or.inl (by decide) | exact Or.inr rfl | (constructor <;> first | exact Or.inl (by decide) | exact Or.inr (And.intro rfl rfl)))) only [Kept.upd_move, Kept.upd_host, Kept.upd_now, Kept.upd_freeNo]
    | split
    | intro _

end Sys2Proof.Machine
end

