-- ==== Sys2Proof/Laws/Frames1.lean ====
section
/-! SUPPORT. Frames of the shared operations (part 2 of 8): the parts of the engine that each can change, and, where the host interface is
not among them, that it changes only the event ring and its signals. -/

set_option linter.unusedTactic false
set_option linter.unreachableTactic false
set_option linter.unusedVariables false
set_option linter.unusedSimpArgs false

namespace Sys2Proof.Machine

theorem State.setTml_kept (s : State) (n : Nat) (v : TmLine) : Kept [.move] s (State.setTml s n v) := by
  unfold State.setTml
  try dsimp only
  repeat' first
    | with_reducible exact Kept.refl _ _
    | with_reducible refine Kept.ite (fun _ => ?_) (fun _ => ?_)
    | with_reducible refine Kept.foldl' ?_ (fun a x => ?_)
    | with_reducible simp (disch := first | decide | (with_unfolding_all constructor <;> first | exact Or.inl (by decide) | exact Or.inr rfl | (constructor <;> first | exact Or.inl (by decide) | exact Or.inr (And.intro rfl rfl)))) only [Kept.upd_move, Kept.upd_host, Kept.upd_now, Kept.upd_freeNo]
    | split
    | intro _

theorem State.modTml_kept (s : State) (n : Nat) (g : TmLine → TmLine) : Kept [.move] s (State.modTml s n g) := by
  unfold State.modTml
  try dsimp only
  repeat' first
    | with_reducible exact Kept.refl _ _
    | with_reducible refine Kept.ite (fun _ => ?_) (fun _ => ?_)
    | with_reducible refine Kept.foldl' ?_ (fun a x => ?_)
    | with_reducible apply Kept.chain (State.setTml_kept _ _ _) (by decide)
    | with_reducible simp (disch := first | decide | (with_unfolding_all constructor <;> first | exact Or.inl (by decide) | exact Or.inr rfl | (constructor <;> first | exact Or.inl (by decide) | exact Or.inr (And.intro rfl rfl)))) only [Kept.upd_move, Kept.upd_host, Kept.upd_now, Kept.upd_freeNo]
    | split
    | intro _

theorem State.setLink_kept (s : State) (n : Nat) (v : Link) : Kept [.move] s (State.setLink s n v) := by
  unfold State.setLink
  try dsimp only
  repeat' first
    | with_reducible exact Kept.refl _ _
    | with_reducible refine Kept.ite (fun _ => ?_) (fun _ => ?_)
    | with_reducible refine Kept.foldl' ?_ (fun a x => ?_)
    | with_reducible simp (disch := first | decide | (with_unfolding_all constructor <;> first | exact Or.inl (by decide) | exact Or.inr rfl | (constructor <;> first | exact Or.inl (by decide) | exact Or.inr (And.intro rfl rfl)))) only [Kept.upd_move, Kept.upd_host, Kept.upd_now, Kept.upd_freeNo]
    | split
    | intro _

theorem State.modLink_kept (s : State) (n : Nat) (g : Link → Link) : Kept [.move] s (State.modLink s n g) := by
  unfold State.modLink
  try dsimp only
  repeat' first
    | with_reducible exact Kept.refl _ _
    | with_reducible refine Kept.ite (fun _ => ?_) (fun _ => ?_)
    | with_reducible refine Kept.foldl' ?_ (fun a x => ?_)
    | with_reducible apply Kept.chain (State.setLink_kept _ _ _) (by decide)
    | with_reducible simp (disch := first | decide | (with_unfolding_all constructor <;> first | exact Or.inl (by decide) | exact Or.inr rfl | (constructor <;> first | exact Or.inl (by decide) | exact Or.inr (And.intro rfl rfl)))) only [Kept.upd_move, Kept.upd_host, Kept.upd_now, Kept.upd_freeNo]
    | split
    | intro _

theorem State.setDirE_kept (s : State) (n : Nat) (v : DirEnt) : Kept [.move] s (State.setDirE s n v) := by
  unfold State.setDirE
  try dsimp only
  repeat' first
    | with_reducible exact Kept.refl _ _
    | with_reducible refine Kept.ite (fun _ => ?_) (fun _ => ?_)
    | with_reducible refine Kept.foldl' ?_ (fun a x => ?_)
    | with_reducible simp (disch := first | decide | (with_unfolding_all constructor <;> first | exact Or.inl (by decide) | exact Or.inr rfl | (constructor <;> first | exact Or.inl (by decide) | exact Or.inr (And.intro rfl rfl)))) only [Kept.upd_move, Kept.upd_host, Kept.upd_now, Kept.upd_freeNo]
    | split
    | intro _

theorem State.modDirE_kept (s : State) (n : Nat) (g : DirEnt → DirEnt) : Kept [.move] s (State.modDirE s n g) := by
  unfold State.modDirE
  try dsimp only
  repeat' first
    | with_reducible exact Kept.refl _ _
    | with_reducible refine Kept.ite (fun _ => ?_) (fun _ => ?_)
    | with_reducible refine Kept.foldl' ?_ (fun a x => ?_)
    | with_reducible apply Kept.chain (State.setDirE_kept _ _ _) (by decide)
    | with_reducible simp (disch := first | decide | (with_unfolding_all constructor <;> first | exact Or.inl (by decide) | exact Or.inr rfl | (constructor <;> first | exact Or.inl (by decide) | exact Or.inr (And.intro rfl rfl)))) only [Kept.upd_move, Kept.upd_host, Kept.upd_now, Kept.upd_freeNo]
    | split
    | intro _

theorem State.setAuxIn_kept (s : State) (n : Nat) (v : AuxIn) : Kept [.aux] s (State.setAuxIn s n v) := by
  unfold State.setAuxIn
  try dsimp only
  repeat' first
    | with_reducible exact Kept.refl _ _
    | with_reducible refine Kept.ite (fun _ => ?_) (fun _ => ?_)
    | with_reducible refine Kept.foldl' ?_ (fun a x => ?_)
    | with_reducible simp (disch := first | decide | (with_unfolding_all constructor <;> first | exact Or.inl (by decide) | exact Or.inr rfl | (constructor <;> first | exact Or.inl (by decide) | exact Or.inr (And.intro rfl rfl)))) only [Kept.upd_aux, Kept.upd_host, Kept.upd_now, Kept.upd_freeNo]
    | split
    | intro _

theorem State.modAuxIn_kept (s : State) (n : Nat) (g : AuxIn → AuxIn) : Kept [.aux] s (State.modAuxIn s n g) := by
  unfold State.modAuxIn
  try dsimp only
  repeat' first
    | with_reducible exact Kept.refl _ _
    | with_reducible refine Kept.ite (fun _ => ?_) (fun _ => ?_)
    | with_reducible refine Kept.foldl' ?_ (fun a x => ?_)
    | with_reducible apply Kept.chain (State.setAuxIn_kept _ _ _) (by decide)
    | with_reducible simp (disch := first | decide | (with_unfolding_all constructor <;> first | exact Or.inl (by decide) | exact Or.inr rfl | (constructor <;> first | exact Or.inl (by decide) | exact Or.inr (And.intro rfl rfl)))) only [Kept.upd_aux, Kept.upd_host, Kept.upd_now, Kept.upd_freeNo]
    | split
    | intro _

theorem State.setFrec_kept (s : State) (n : Nat) (v : FaultRec) : Kept [.flt] s (State.setFrec s n v) := by
  unfold State.setFrec
  try dsimp only
  repeat' first
    | with_reducible exact Kept.refl _ _
    | with_reducible refine Kept.ite (fun _ => ?_) (fun _ => ?_)
    | with_reducible refine Kept.foldl' ?_ (fun a x => ?_)
    | with_reducible simp (disch := first | decide | (with_unfolding_all constructor <;> first | exact Or.inl (by decide) | exact Or.inr rfl | (constructor <;> first | exact Or.inl (by decide) | exact Or.inr (And.intro rfl rfl)))) only [Kept.upd_flt, Kept.upd_host, Kept.upd_now, Kept.upd_freeNo]
    | split
    | intro _

theorem State.modFrec_kept (s : State) (n : Nat) (g : FaultRec → FaultRec) : Kept [.flt] s (State.modFrec s n g) := by
  unfold State.modFrec
  try dsimp only
  repeat' first
    | with_reducible exact Kept.refl _ _
    | with_reducible refine Kept.ite (fun _ => ?_) (fun _ => ?_)
    | with_reducible refine Kept.foldl' ?_ (fun a x => ?_)
    | with_reducible apply Kept.chain (State.setFrec_kept _ _ _) (by decide)
    | with_reducible simp (disch := first | decide | (with_unfolding_all constructor <;> first | exact Or.inl (by decide) | exact Or.inr rfl | (constructor <;> first | exact Or.inl (by decide) | exact Or.inr (And.intro rfl rfl)))) only [Kept.upd_flt, Kept.upd_host, Kept.upd_now, Kept.upd_freeNo]
    | split
    | intro _

theorem State.setCtlO_kept (s : State) (n : Nat) (v : Ctl) : Kept [.ctl] s (State.setCtlO s n v) := by
  unfold State.setCtlO
  try dsimp only
  repeat' first
    | with_reducible exact Kept.refl _ _
    | with_reducible refine Kept.ite (fun _ => ?_) (fun _ => ?_)
    | with_reducible refine Kept.foldl' ?_ (fun a x => ?_)
    | with_reducible simp (disch := first | decide | (with_unfolding_all constructor <;> first | exact Or.inl (by decide) | exact Or.inr rfl | (constructor <;> first | exact Or.inl (by decide) | exact Or.inr (And.intro rfl rfl)))) only [Kept.upd_ctl, Kept.upd_host, Kept.upd_now, Kept.upd_freeNo]
    | split
    | intro _

theorem State.modCtlO_kept (s : State) (n : Nat) (g : Ctl → Ctl) : Kept [.ctl] s (State.modCtlO s n g) := by
  unfold State.modCtlO
  try dsimp only
  repeat' first
    | with_reducible exact Kept.refl _ _
    | with_reducible refine Kept.ite (fun _ => ?_) (fun _ => ?_)
    | with_reducible refine Kept.foldl' ?_ (fun a x => ?_)
    | with_reducible apply Kept.chain (State.setCtlO_kept _ _ _) (by decide)
    | with_reducible simp (disch := first | decide | (with_unfolding_all constructor <;> first | exact Or.inl (by decide) | exact Or.inr rfl | (constructor <;> first | exact Or.inl (by decide) | exact Or.inr (And.intro rfl rfl)))) only [Kept.upd_ctl, Kept.upd_host, Kept.upd_now, Kept.upd_freeNo]
    | split
    | intro _

theorem State.setPerfC_kept (s : State) (n : Nat) (v : Perf) : Kept [.perf] s (State.setPerfC s n v) := (Kept.upd_perf (by decide) _).2 (Kept.refl _ _)

theorem State.modPerfC_kept (s : State) (n : Nat) (g : Perf → Perf) : Kept [.perf] s (State.modPerfC s n g) := by
  unfold State.modPerfC
  try dsimp only
  repeat' first
    | with_reducible exact Kept.refl _ _
    | with_reducible refine Kept.ite (fun _ => ?_) (fun _ => ?_)
    | with_reducible refine Kept.foldl' ?_ (fun a x => ?_)
    | with_reducible apply Kept.chain (State.setPerfC_kept _ _ _) (by decide)
    | with_reducible simp (disch := first | decide | (with_unfolding_all constructor <;> first | exact Or.inl (by decide) | exact Or.inr rfl | (constructor <;> first | exact Or.inl (by decide) | exact Or.inr (And.intro rfl rfl)))) only [Kept.upd_perf, Kept.upd_host, Kept.upd_now, Kept.upd_freeNo]
    | split
    | intro _

theorem clearMasks_kept (s : State) (a : Nat) : Kept [.acq] s (clearMasks s a) := by
  unfold clearMasks
  try dsimp only
  repeat' first
    | with_reducible exact Kept.refl _ _
    | with_reducible refine Kept.ite (fun _ => ?_) (fun _ => ?_)
    | with_reducible refine Kept.foldl' ?_ (fun a x => ?_)
    | with_reducible apply Kept.chain (State.modMaskS_kept _ _ _) (by decide)
    | with_reducible simp (disch := first | decide | (with_unfolding_all constructor <;> first | exact Or.inl (by decide) | exact Or.inr rfl | (constructor <;> first | exact Or.inl (by decide) | exact Or.inr (And.intro rfl rfl)))) only [Kept.upd_acq, Kept.upd_host, Kept.upd_now, Kept.upd_freeNo]
    | split
    | intro _

theorem setCursor_kept (s : State) (k : Nat) (id : Nat) (v : Nat × Nat) : Kept [.fe] s (setCursor s k id v) := by
  unfold setCursor
  try dsimp only
  repeat' first
    | with_reducible exact Kept.refl _ _
    | with_reducible refine Kept.ite (fun _ => ?_) (fun _ => ?_)
    | with_reducible refine Kept.foldl' ?_ (fun a x => ?_)
    | with_reducible simp (disch := first | decide | (with_unfolding_all constructor <;> first | exact Or.inl (by decide) | exact Or.inr rfl | (constructor <;> first | exact Or.inl (by decide) | exact Or.inr (And.intro rfl rfl)))) only [Kept.upd_fe, Kept.upd_host, Kept.upd_now, Kept.upd_freeNo]
    | split
    | intro _

theorem bindNow_kept (s : State) (k : Nat) (id : Nat) : Kept [.fe] s (bindNow s k id) := by
  unfold bindNow
  try dsimp only
  repeat' first
    | with_reducible exact Kept.refl _ _
    | with_reducible refine Kept.ite (fun _ => ?_) (fun _ => ?_)
    | with_reducible refine Kept.foldl' ?_ (fun a x => ?_)
    | with_reducible apply Kept.chain (setCursor_kept _ _ _ _) (by decide)
    | with_reducible simp (disch := first | decide | (with_unfolding_all constructor <;> first | exact Or.inl (by decide) | exact Or.inr rfl | (constructor <;> first | exact Or.inl (by decide) | exact Or.inr (And.intro rfl rfl)))) only [Kept.upd_fe, Kept.upd_host, Kept.upd_now, Kept.upd_freeNo]
    | split
    | intro _

theorem drivePin_kept (s : State) (n : Nat) : Kept [.acq] s (drivePin s n) := by
  unfold drivePin
  try dsimp only
  repeat' first
    | with_reducible exact Kept.refl _ _
    | with_reducible refine Kept.ite (fun _ => ?_) (fun _ => ?_)
    | with_reducible refine Kept.foldl' ?_ (fun a x => ?_)
    | with_reducible apply Kept.chain (State.modPin_kept _ _ _) (by decide)
    | with_reducible simp (disch := first | decide | (with_unfolding_all constructor <;> first | exact Or.inl (by decide) | exact Or.inr rfl | (constructor <;> first | exact Or.inl (by decide) | exact Or.inr (And.intro rfl rfl)))) only [Kept.upd_acq, Kept.upd_host, Kept.upd_now, Kept.upd_freeNo]
    | split
    | intro _

theorem drivePins_kept (s : State) : Kept [.acq] s (drivePins s) := by
  unfold drivePins
  try dsimp only
  repeat' first
    | with_reducible exact Kept.refl _ _
    | with_reducible refine Kept.ite (fun _ => ?_) (fun _ => ?_)
    | with_reducible refine Kept.foldl' ?_ (fun a x => ?_)
    | with_reducible apply Kept.chain (drivePin_kept _ _) (by decide)
    | with_reducible simp (disch := first | decide | (with_unfolding_all constructor <;> first | exact Or.inl (by decide) | exact Or.inr rfl | (constructor <;> first | exact Or.inl (by decide) | exact Or.inr (And.intro rfl rfl)))) only [Kept.upd_acq, Kept.upd_host, Kept.upd_now, Kept.upd_freeNo]
    | split
    | intro _

theorem postAt_kept (s : State) (pos : Nat) (code : Nat) (payload : Nat) : Kept [] s (postAt s pos code payload) := (postAt_posts _ _ _ _).kept _

theorem post_kept (s : State) (code : Nat) (payload : Nat) : Kept [] s (post s code payload) := (post_posts _ _ _).kept _

theorem setAcqSt_kept (s : State) (a : Nat) (st : Nat) : Kept [.acq] s (setAcqSt s a st) := by
  unfold setAcqSt
  try dsimp only
  repeat' first
    | with_reducible exact Kept.refl _ _
    | with_reducible refine Kept.ite (fun _ => ?_) (fun _ => ?_)
    | with_reducible refine Kept.foldl' ?_ (fun a x => ?_)
    | with_reducible apply Kept.chain (State.modAu_kept _ _ _) (by decide)
    | with_reducible apply Kept.chain (drivePins_kept _) (by decide)
    | with_reducible simp (disch := first | decide | (with_unfolding_all constructor <;> first | exact Or.inl (by decide) | exact Or.inr rfl | (constructor <;> first | exact Or.inl (by decide) | exact Or.inr (And.intro rfl rfl)))) only [Kept.upd_acq, Kept.upd_host, Kept.upd_now, Kept.upd_freeNo]
    | split
    | intro _

theorem prefillCheck_kept (s : State) (a : Nat) : Kept [.acq] s (prefillCheck s a) := by
  unfold prefillCheck
  try dsimp only
  repeat' first
    | with_reducible exact Kept.refl _ _
    | with_reducible refine Kept.ite (fun _ => ?_) (fun _ => ?_)
    | with_reducible refine Kept.foldl' ?_ (fun a x => ?_)
    | with_reducible apply Kept.chain (setAcqSt_kept _ _ _) (by decide)
    | with_reducible simp (disch := first | decide | (with_unfolding_all constructor <;> first | exact Or.inl (by decide) | exact Or.inr rfl | (constructor <;> first | exact Or.inl (by decide) | exact Or.inr (And.intro rfl rfl)))) only [Kept.upd_acq, Kept.upd_host, Kept.upd_now, Kept.upd_freeNo]
    | split
    | intro _

theorem armNow_kept (s : State) (a : Nat) : Kept [.fe, .acq] s (armNow s a) := by
  unfold armNow
  try dsimp only
  repeat' first
    | with_reducible exact Kept.refl _ _
    | with_reducible refine Kept.ite (fun _ => ?_) (fun _ => ?_)
    | with_reducible refine Kept.foldl' ?_ (fun a x => ?_)
    | with_reducible apply Kept.chain (State.modTerm_kept _ _ _) (by decide)
    | with_reducible apply Kept.chain (State.setAu_kept _ _ _) (by decide)
    | with_reducible apply Kept.chain (bindNow_kept _ _ _) (by decide)
    | with_reducible apply Kept.chain (clearMasks_kept _ _) (by decide)
    | with_reducible apply Kept.chain (drivePins_kept _) (by decide)
    | with_reducible apply Kept.chain (post_kept _ _ _) (by decide)
    | with_reducible apply Kept.chain (prefillCheck_kept _ _) (by decide)
    | with_reducible simp (disch := first | decide | (with_unfolding_all constructor <;> first | exact Or.inl (by decide) | exact Or.inr rfl | (constructor <;> first | exact Or.inl (by decide) | exact Or.inr (And.intro rfl rfl)))) only [Kept.upd_fe, Kept.upd_acq, Kept.upd_host, Kept.upd_now, Kept.upd_freeNo]
    | split
    | intro _

theorem complete_kept (s : State) (n : Nat) (c : Completion) : Kept [.cmds] s (complete s n c) := by
  unfold complete
  try dsimp only
  repeat' first
    | with_reducible exact Kept.refl _ _
    | with_reducible refine Kept.ite (fun _ => ?_) (fun _ => ?_)
    | with_reducible refine Kept.foldl' ?_ (fun a x => ?_)
    | with_reducible simp (disch := first | decide | (with_unfolding_all constructor <;> first | exact Or.inl (by decide) | exact Or.inr rfl | (constructor <;> first | exact Or.inl (by decide) | exact Or.inr (And.intro rfl rfl)))) only [Kept.upd_host, Kept.upd_now, Kept.upd_freeNo]
    | split
    | intro _

theorem finish_kept (s : State) (p : InProg) (status : Nat) (rlen : Nat) (result : Nat) : Kept [.cmds] s (finish s p status rlen result) := by
  unfold finish
  try dsimp only
  repeat' first
    | with_reducible exact Kept.refl _ _
    | with_reducible refine Kept.ite (fun _ => ?_) (fun _ => ?_)
    | with_reducible refine Kept.foldl' ?_ (fun a x => ?_)
    | with_reducible apply Kept.chain (complete_kept _ _ _) (by decide)
    | with_reducible simp (disch := first | decide | (with_unfolding_all constructor <;> first | exact Or.inl (by decide) | exact Or.inr rfl | (constructor <;> first | exact Or.inl (by decide) | exact Or.inr (And.intro rfl rfl)))) only [Kept.upd_host, Kept.upd_now, Kept.upd_freeNo]
    | split
    | intro _

theorem finishAll_kept (s : State) (op : Nat) (unit : Nat) (status : Nat) (rlen : Nat) (result : Nat) : Kept [.cmds] s (finishAll s op unit status rlen result) := by
  unfold finishAll
  try dsimp only
  repeat' first
    | with_reducible exact Kept.refl _ _
    | with_reducible refine Kept.ite (fun _ => ?_) (fun _ => ?_)
    | with_reducible refine Kept.foldl' ?_ (fun a x => ?_)
    | with_reducible apply Kept.chain (finish_kept _ _ _ _ _) (by decide)
    | with_reducible simp (disch := first | decide | (with_unfolding_all constructor <;> first | exact Or.inl (by decide) | exact Or.inr rfl | (constructor <;> first | exact Or.inl (by decide) | exact Or.inr (And.intro rfl rfl)))) only [Kept.upd_host, Kept.upd_now, Kept.upd_freeNo]
    | split
    | intro _

theorem armDue_kept (s : State) (a : Nat) : Kept [.cmds, .fe, .acq] s (armDue s a) := by
  unfold armDue
  try dsimp only
  repeat' first
    | with_reducible exact Kept.refl _ _
    | with_reducible refine Kept.ite (fun _ => ?_) (fun _ => ?_)
    | with_reducible refine Kept.foldl' ?_ (fun a x => ?_)
    | with_reducible apply Kept.chain (State.modAu_kept _ _ _) (by decide)
    | with_reducible apply Kept.chain (armNow_kept _ _) (by decide)
    | with_reducible apply Kept.chain (finishAll_kept _ _ _ _ _ _) (by decide)
    | with_reducible simp (disch := first | decide | (with_unfolding_all constructor <;> first | exact Or.inl (by decide) | exact Or.inr rfl | (constructor <;> first | exact Or.inl (by decide) | exact Or.inr (And.intro rfl rfl)))) only [Kept.upd_fe, Kept.upd_acq, Kept.upd_host, Kept.upd_now, Kept.upd_freeNo]
    | split
    | intro _

theorem acqEnd_kept (s : State) (a : Nat) (st : Nat) : Kept [.acq] s (acqEnd s a st) := by
  unfold acqEnd
  try dsimp only
  repeat' first
    | with_reducible exact Kept.refl _ _
    | with_reducible refine Kept.ite (fun _ => ?_) (fun _ => ?_)
    | with_reducible refine Kept.foldl' ?_ (fun a x => ?_)
    | with_reducible apply Kept.chain (State.modAu_kept _ _ _) (by decide)
    | with_reducible apply Kept.chain (setAcqSt_kept _ _ _) (by decide)
    | with_reducible simp (disch := first | decide | (with_unfolding_all constructor <;> first | exact Or.inl (by decide) | exact Or.inr rfl | (constructor <;> first | exact Or.inl (by decide) | exact Or.inr (And.intro rfl rfl)))) only [Kept.upd_acq, Kept.upd_host, Kept.upd_now, Kept.upd_freeNo]
    | split
    | intro _

theorem dmaPulse_kept (s : State) (line : Nat) : Kept [.move] s (dmaPulse s line) := by
  unfold dmaPulse
  try dsimp only
  repeat' first
    | with_reducible exact Kept.refl _ _
    | with_reducible refine Kept.ite (fun _ => ?_) (fun _ => ?_)
    | with_reducible refine Kept.foldl' ?_ (fun a x => ?_)
    | with_reducible apply Kept.chain (State.modDma_kept _ _ _) (by decide)
    | with_reducible simp (disch := first | decide | (with_unfolding_all constructor <;> first | exact Or.inl (by decide) | exact Or.inr rfl | (constructor <;> first | exact Or.inl (by decide) | exact Or.inr (And.intro rfl rfl)))) only [Kept.upd_move, Kept.upd_host, Kept.upd_now, Kept.upd_freeNo]
    | split
    | intro _

theorem clearLine_kept (s : State) (l : Nat) : Kept [.mem] s (clearLine s l) := by
  unfold clearLine
  try dsimp only
  repeat' first
    | with_reducible exact Kept.refl _ _
    | with_reducible refine Kept.ite (fun _ => ?_) (fun _ => ?_)
    | with_reducible refine Kept.foldl' ?_ (fun a x => ?_)
    | with_reducible simp (disch := first | decide | (with_unfolding_all constructor <;> first | exact Or.inl (by decide) | exact Or.inr rfl | (constructor <;> first | exact Or.inl (by decide) | exact Or.inr (And.intro rfl rfl)))) only [Kept.upd_mem, Kept.upd_host, Kept.upd_now, Kept.upd_freeNo]
    | split
    | intro _

theorem perfCount_kept (s : State) (src : Nat) (inst : Nat) (v : Nat) : Kept [] s ((perfCount s src inst v).1) := (perfCount_posts _ _ _ _).kept _

theorem perfAdd_kept (s : State) (src : Nat) (inst : Nat) (v : Nat) : Kept [] s (perfAdd s src inst v) := (perfAdd_posts _ _ _ _).kept _

theorem writeInLine_kept (s : State) (a : Nat) (bs : List Byte) : Kept [.mem] s (writeInLine s a bs) := by
  unfold writeInLine
  dsimp only
  have h := (perfAdd_kept s 7 (quadOf a) 1).mono (m := [.mem]) (by simp)
  refine Kept.ite (fun _ => ?_) (fun _ => Kept.ite (fun _ => ?_) (fun _ => ?_))
  · exact (Kept.upd_mem (by decide) _).2 (h.trans ((clearLine_kept _ _).mono (by decide)))
  · exact (Kept.upd_mem (by decide) _).2 h
  · exact (Kept.upd_mem (by decide) _).2 h

theorem memWriteN_kept (x0 : Nat) (x1 : State) (x2 : Nat) (x3 : List Byte) : Kept [.mem] x1 (memWriteN x0 x1 x2 x3) := by
  induction x0 generalizing x1 x2 x3 with
  | zero => exact Kept.refl _ _
  | succ n ih =>
  unfold memWriteN
  try dsimp only
  repeat' first
    | with_reducible exact Kept.refl _ _
    | with_reducible refine Kept.ite (fun _ => ?_) (fun _ => ?_)
    | with_reducible refine Kept.foldl' ?_ (fun a x => ?_)
    | with_reducible apply Kept.chain (ih _ _ _) (by decide)
    | with_reducible apply Kept.chain (writeInLine_kept _ _ _) (by decide)
    | with_reducible simp (disch := first | decide | (with_unfolding_all constructor <;> first | exact Or.inl (by decide) | exact Or.inr rfl | (constructor <;> first | exact Or.inl (by decide) | exact Or.inr (And.intro rfl rfl)))) only [Kept.upd_mem, Kept.upd_host, Kept.upd_now, Kept.upd_freeNo]
    | split
    | intro _

theorem memWrite_kept (s : State) (a : Nat) (bs : List Byte) : Kept [.mem] s (memWrite s a bs) := by
  unfold memWrite
  try dsimp only
  repeat' first
    | with_reducible exact Kept.refl _ _
    | with_reducible refine Kept.ite (fun _ => ?_) (fun _ => ?_)
    | with_reducible refine Kept.foldl' ?_ (fun a x => ?_)
    | with_reducible apply Kept.chain (memWriteN_kept _ _ _ _) (by decide)
    | with_reducible simp (disch := first | decide | (with_unfolding_all constructor <;> first | exact Or.inl (by decide) | exact Or.inr rfl | (constructor <;> first | exact Or.inl (by decide) | exact Or.inr (And.intro rfl rfl)))) only [Kept.upd_mem, Kept.upd_host, Kept.upd_now, Kept.upd_freeNo]
    | split
    | intro _

theorem drawFree_kept (w : Nat) (s : State) : Kept [] s ((drawFree w s).2) := (Kept.upd_freeNo _).2 (Kept.refl _ _)

theorem timeTest_kept (s : State) (t : Test) (e : CapEntry) (d : List Nat) : Kept [] s ((timeTest s t e d).2) := by
  unfold timeTest
  split
  · exact Kept.refl _ _
  · exact drawFree_kept 128 s

theorem timeTests_kept (s : State) (a : Nat) (u : Acq) : Kept [] s ((timeTests s a u).2) := by
  unfold timeTests
  refine Kept.foldq _ (fun a x => ?_) _ ([], s)
  split
  · exact timeTest_kept _ _ _ _
  · exact Kept.refl _ _

theorem writeSegment_kept (s : State) (a : Nat) (trunc : Bool) : Kept [.acq, .mem, .move] s (writeSegment s a trunc) := by
  unfold writeSegment
  dsimp only
  refine Kept.trans ?_ ((State.modAu_kept _ _ _).mono (by decide))
  refine Kept.trans ?_ ((dmaPulse_kept _ _).mono (by decide))
  refine Kept.trans ?_ ((post_kept _ _ _).mono (by decide))
  apply Kept.chain (timeTests_kept _ _ _) (by decide)
  exact Kept.foldl _ (fun a x => (memWrite_kept _ _ _).mono (by decide)) _ _

theorem segmentCheck_kept (s : State) (a : Nat) : Kept [.acq, .mem, .move] s (segmentCheck s a) := by
  unfold segmentCheck
  try dsimp only
  repeat' first
    | with_reducible exact Kept.refl _ _
    | with_reducible refine Kept.ite (fun _ => ?_) (fun _ => ?_)
    | with_reducible refine Kept.foldl' ?_ (fun a x => ?_)
    | with_reducible apply Kept.chain (State.modAu_kept _ _ _) (by decide)
    | with_reducible apply Kept.chain (acqEnd_kept _ _ _) (by decide)
    | with_reducible apply Kept.chain (post_kept _ _ _) (by decide)
    | with_reducible apply Kept.chain (prefillCheck_kept _ _) (by decide)
    | with_reducible apply Kept.chain (setAcqSt_kept _ _ _) (by decide)
    | with_reducible apply Kept.chain (writeSegment_kept _ _ _) (by decide)
    | with_reducible simp (disch := first | decide | (with_unfolding_all constructor <;> first | exact Or.inl (by decide) | exact Or.inr rfl | (constructor <;> first | exact Or.inl (by decide) | exact Or.inr (And.intro rfl rfl)))) only [Kept.upd_acq, Kept.upd_mem, Kept.upd_move, Kept.upd_host, Kept.upd_now, Kept.upd_freeNo]
    | split
    | intro _

theorem closeEntry_kept (s : State) (a : Nat) (i : Nat) : Kept [.acq, .mem, .move] s (closeEntry s a i) := by
  unfold closeEntry
  try dsimp only
  repeat' first
    | with_reducible exact Kept.refl _ _
    | with_reducible refine Kept.ite (fun _ => ?_) (fun _ => ?_)
    | with_reducible refine Kept.foldl' ?_ (fun a x => ?_)
    | with_reducible apply Kept.chain (State.setAu_kept _ _ _) (by decide)
    | with_reducible apply Kept.chain (segmentCheck_kept _ _) (by decide)
    | with_reducible simp (disch := first | decide | (with_unfolding_all constructor <;> first | exact Or.inl (by decide) | exact Or.inr rfl | (constructor <;> first | exact Or.inl (by decide) | exact Or.inr (And.intro rfl rfl)))) only [Kept.upd_acq, Kept.upd_mem, Kept.upd_move, Kept.upd_host, Kept.upd_now, Kept.upd_freeNo]
    | split
    | intro _

theorem closeReached_kept (s : State) (a : Nat) : Kept [.acq, .mem, .move] s (closeReached s a) := by
  unfold closeReached
  try dsimp only
  repeat' first
    | with_reducible exact Kept.refl _ _
    | with_reducible refine Kept.ite (fun _ => ?_) (fun _ => ?_)
    | with_reducible refine Kept.foldl' ?_ (fun a x => ?_)
    | with_reducible apply Kept.chain (closeEntry_kept _ _ _) (by decide)
    | with_reducible simp (disch := first | decide | (with_unfolding_all constructor <;> first | exact Or.inl (by decide) | exact Or.inr rfl | (constructor <;> first | exact Or.inl (by decide) | exact Or.inr (And.intro rfl rfl)))) only [Kept.upd_acq, Kept.upd_mem, Kept.upd_move, Kept.upd_host, Kept.upd_now, Kept.upd_freeNo]
    | split
    | intro _

theorem cutSegment_kept (s : State) (a : Nat) : Kept [.acq, .mem, .move] s (cutSegment s a) := by
  unfold cutSegment
  try dsimp only
  repeat' first
    | with_reducible exact Kept.refl _ _
    | with_reducible refine Kept.ite (fun _ => ?_) (fun _ => ?_)
    | with_reducible refine Kept.foldl' ?_ (fun a x => ?_)
    | with_reducible apply Kept.chain (State.modAu_kept _ _ _) (by decide)
    | with_reducible apply Kept.chain (closeReached_kept _ _) (by decide)
    | with_reducible simp (disch := first | decide | (with_unfolding_all constructor <;> first | exact Or.inl (by decide) | exact Or.inr rfl | (constructor <;> first | exact Or.inl (by decide) | exact Or.inr (And.intro rfl rfl)))) only [Kept.upd_acq, Kept.upd_mem, Kept.upd_move, Kept.upd_host, Kept.upd_now, Kept.upd_freeNo]
    | split
    | intro _

theorem evtDropped_kept (s : State) (n : Nat) : Kept [.acq] s (evtDropped s n) := by
  unfold evtDropped
  try dsimp only
  repeat' first
    | with_reducible exact Kept.refl _ _
    | with_reducible refine Kept.ite (fun _ => ?_) (fun _ => ?_)
    | with_reducible refine Kept.foldl' ?_ (fun a x => ?_)
    | with_reducible apply Kept.chain (State.modAu_kept _ _ _) (by decide)
    | with_reducible simp (disch := first | decide | (with_unfolding_all constructor <;> first | exact Or.inl (by decide) | exact Or.inr rfl | (constructor <;> first | exact Or.inl (by decide) | exact Or.inr (And.intro rfl rfl)))) only [Kept.upd_acq, Kept.upd_host, Kept.upd_now, Kept.upd_freeNo]
    | split
    | intro _

theorem clearTerms_kept (s : State) (id : Nat) : Kept [.acq] s (clearTerms s id) := by
  unfold clearTerms
  try dsimp only
  repeat' first
    | with_reducible exact Kept.refl _ _
    | with_reducible refine Kept.ite (fun _ => ?_) (fun _ => ?_)
    | with_reducible refine Kept.foldl' ?_ (fun a x => ?_)
    | with_reducible apply Kept.chain (State.setTerm_kept _ _ _) (by decide)
    | with_reducible simp (disch := first | decide | (with_unfolding_all constructor <;> first | exact Or.inl (by decide) | exact Or.inr rfl | (constructor <;> first | exact Or.inl (by decide) | exact Or.inr (And.intro rfl rfl)))) only [Kept.upd_acq, Kept.upd_host, Kept.upd_now, Kept.upd_freeNo]
    | split
    | intro _

theorem setIpend_kept (s : State) (n : Nat) (k : Nat) : Kept [.grove] s (setIpend s n k) := by
  unfold setIpend
  try dsimp only
  repeat' first
    | with_reducible exact Kept.refl _ _
    | with_reducible refine Kept.ite (fun _ => ?_) (fun _ => ?_)
    | with_reducible refine Kept.foldl' ?_ (fun a x => ?_)
    | with_reducible apply Kept.chain (State.modCore_kept _ _ _) (by decide)
    | with_reducible simp (disch := first | decide | (with_unfolding_all constructor <;> first | exact Or.inl (by decide) | exact Or.inr rfl | (constructor <;> first | exact Or.inl (by decide) | exact Or.inr (And.intro rfl rfl)))) only [Kept.upd_grove, Kept.upd_host, Kept.upd_now, Kept.upd_freeNo]
    | split
    | intro _

theorem stageWrite_kept (s : State) (n : Nat) (sp : Nat) (v : Nat) : Kept [.grove] s (stageWrite s n sp v) := by
  unfold stageWrite
  try dsimp only
  repeat' first
    | with_reducible exact Kept.refl _ _
    | with_reducible refine Kept.ite (fun _ => ?_) (fun _ => ?_)
    | with_reducible refine Kept.foldl' ?_ (fun a x => ?_)
    | with_reducible apply Kept.chain (State.modCore_kept _ _ _) (by decide)
    | with_reducible simp (disch := first | decide | (with_unfolding_all constructor <;> first | exact Or.inl (by decide) | exact Or.inr rfl | (constructor <;> first | exact Or.inl (by decide) | exact Or.inr (And.intro rfl rfl)))) only [Kept.upd_grove, Kept.upd_host, Kept.upd_now, Kept.upd_freeNo]
    | split
    | intro _

theorem feedAdvance_kept (s : State) (i : Nat) : Kept [.grove] s (feedAdvance s i) := by
  unfold feedAdvance
  try dsimp only
  repeat' first
    | with_reducible exact Kept.refl _ _
    | with_reducible refine Kept.ite (fun _ => ?_) (fun _ => ?_)
    | with_reducible refine Kept.foldl' ?_ (fun a x => ?_)
    | with_reducible apply Kept.chain (State.modCore_kept _ _ _) (by decide)
    | with_reducible apply Kept.chain (State.setFeed_kept _ _ _) (by decide)
    | with_reducible apply Kept.chain (setIpend_kept _ _ _) (by decide)
    | with_reducible apply Kept.chain (stageWrite_kept _ _ _ _) (by decide)
    | with_reducible simp (disch := first | decide | (with_unfolding_all constructor <;> first | exact Or.inl (by decide) | exact Or.inr rfl | (constructor <;> first | exact Or.inl (by decide) | exact Or.inr (And.intro rfl rfl)))) only [Kept.upd_grove, Kept.upd_host, Kept.upd_now, Kept.upd_freeNo]
    | split
    | intro _

theorem freeDest_kept (s : State) (n : Nat) (d : Nat × Dest) : Kept [.grove] s (freeDest s n d) := by
  unfold freeDest
  try dsimp only
  repeat' first
    | with_reducible exact Kept.refl _ _
    | with_reducible refine Kept.ite (fun _ => ?_) (fun _ => ?_)
    | with_reducible refine Kept.foldp' ?_ (fun a x => ?_)
    | with_reducible refine Kept.foldq' ?_ (fun a x => ?_)
    | with_reducible refine Kept.foldl' ?_ (fun a x => ?_)
    | with_reducible apply Kept.chain (drawFree_kept _ _) (by decide)
    | with_reducible apply Kept.chain (State.modCore_kept _ _ _) (by decide)
    | with_reducible simp (disch := first | decide | (with_unfolding_all constructor <;> first | exact Or.inl (by decide) | exact Or.inr rfl | (constructor <;> first | exact Or.inl (by decide) | exact Or.inr (And.intro rfl rfl)))) only [Kept.upd_grove, Kept.upd_host, Kept.upd_now, Kept.upd_freeNo]
    | split
    | intro _

theorem portTwo_kept (s : State) (u : PortUse) : Kept [.grove] s (portTwo s u) := by
  unfold portTwo
  try dsimp only
  repeat' first
    | with_reducible exact Kept.refl _ _
    | with_reducible refine Kept.ite (fun _ => ?_) (fun _ => ?_)
    | with_reducible refine Kept.foldl' ?_ (fun a x => ?_)
    | with_reducible apply Kept.chain (State.modFeed_kept _ _ _) (by decide)
    | with_reducible apply Kept.chain (freeDest_kept _ _ _) (by decide)
    | with_reducible simp (disch := first | decide | (with_unfolding_all constructor <;> first | exact Or.inl (by decide) | exact Or.inr rfl | (constructor <;> first | exact Or.inl (by decide) | exact Or.inr (And.intro rfl rfl)))) only [Kept.upd_grove, Kept.upd_host, Kept.upd_now, Kept.upd_freeNo]
    | split
    | intro _

theorem feedWrite_kept (s : State) (i : Nat) (n : Nat) (a : Nat) (bs : List Byte) : Kept [.grove] s (feedWrite s i n a bs) := by
  unfold feedWrite
  try dsimp only
  repeat' first
    | with_reducible exact Kept.refl _ _
    | with_reducible refine Kept.ite (fun _ => ?_) (fun _ => ?_)
    | with_reducible refine Kept.foldl' ?_ (fun a x => ?_)
    | with_reducible apply Kept.chain (State.modCore_kept _ _ _) (by decide)
    | with_reducible apply Kept.chain (portTwo_kept _ _) (by decide)
    | with_reducible simp (disch := first | decide | (with_unfolding_all constructor <;> first | exact Or.inl (by decide) | exact Or.inr rfl | (constructor <;> first | exact Or.inl (by decide) | exact Or.inr (And.intro rfl rfl)))) only [Kept.upd_grove, Kept.upd_host, Kept.upd_now, Kept.upd_freeNo]
    | split
    | intro _

theorem feedClose_kept (s : State) (i : Nat) (short : Bool) : Kept [.grove] s (feedClose s i short) := by
  unfold feedClose
  try dsimp only
  repeat' first
    | with_reducible exact Kept.refl _ _
    | with_reducible refine Kept.ite (fun _ => ?_) (fun _ => ?_)
    | with_reducible refine Kept.foldl' ?_ (fun a x => ?_)
    | with_reducible apply Kept.chain (State.setFeed_kept _ _ _) (by decide)
    | with_reducible apply Kept.chain (feedAdvance_kept _ _) (by decide)
    | with_reducible apply Kept.chain (feedWrite_kept _ _ _ _ _) (by decide)
    | with_reducible simp (disch := first | decide | (with_unfolding_all constructor <;> first | exact Or.inl (by decide) | exact Or.inr rfl | (constructor <;> first | exact Or.inl (by decide) | exact Or.inr (And.intro rfl rfl)))) only [Kept.upd_grove, Kept.upd_host, Kept.upd_now, Kept.upd_freeNo]
    | split
    | intro _

theorem feedGapPost_kept (s : State) (i : Nat) : Kept [.grove] s (feedGapPost s i) := by
  unfold feedGapPost
  try dsimp only
  repeat' first
    | with_reducible exact Kept.refl _ _
    | with_reducible refine Kept.ite (fun _ => ?_) (fun _ => ?_)
    | with_reducible refine Kept.foldl' ?_ (fun a x => ?_)
    | with_reducible apply Kept.chain (State.setFeed_kept _ _ _) (by decide)
    | with_reducible apply Kept.chain (post_kept _ _ _) (by decide)
    | with_reducible simp (disch := first | decide | (with_unfolding_all constructor <;> first | exact Or.inl (by decide) | exact Or.inr rfl | (constructor <;> first | exact Or.inl (by decide) | exact Or.inr (And.intro rfl rfl)))) only [Kept.upd_grove, Kept.upd_host, Kept.upd_now, Kept.upd_freeNo]
    | split
    | intro _

theorem feedEpochEnd_kept (s : State) (i : Nat) : Kept [.grove] s (feedEpochEnd s i) := by
  unfold feedEpochEnd
  try dsimp only
  repeat' first
    | with_reducible exact Kept.refl _ _
    | with_reducible refine Kept.ite (fun _ => ?_) (fun _ => ?_)
    | with_reducible refine Kept.foldl' ?_ (fun a x => ?_)
    | with_reducible apply Kept.chain (State.modFeed_kept _ _ _) (by decide)
    | with_reducible apply Kept.chain (feedClose_kept _ _ _) (by decide)
    | with_reducible apply Kept.chain (feedGapPost_kept _ _) (by decide)
    | with_reducible simp (disch := first | decide | (with_unfolding_all constructor <;> first | exact Or.inl (by decide) | exact Or.inr rfl | (constructor <;> first | exact Or.inl (by decide) | exact Or.inr (And.intro rfl rfl)))) only [Kept.upd_grove, Kept.upd_host, Kept.upd_now, Kept.upd_freeNo]
    | split
    | intro _

theorem laneForget_kept (s : State) (c : Nat) : Kept [.spec] s (laneForget s c) := by
  unfold laneForget
  try dsimp only
  repeat' first
    | with_reducible exact Kept.refl _ _
    | with_reducible refine Kept.ite (fun _ => ?_) (fun _ => ?_)
    | with_reducible refine Kept.foldl' ?_ (fun a x => ?_)
    | with_reducible apply Kept.chain (State.modLane_kept _ _ _) (by decide)
    | with_reducible simp (disch := first | decide | (with_unfolding_all constructor <;> first | exact Or.inl (by decide) | exact Or.inr rfl | (constructor <;> first | exact Or.inl (by decide) | exact Or.inr (And.intro rfl rfl)))) only [Kept.upd_spec, Kept.upd_host, Kept.upd_now, Kept.upd_freeNo]
    | split
    | intro _

theorem frontState_kept (s : State) (c : Nat) : Kept [.spec] s (frontState s c) := by
  unfold frontState
  try dsimp only
  repeat' first
    | with_reducible exact Kept.refl _ _
    | with_reducible refine Kept.ite (fun _ => ?_) (fun _ => ?_)
    | with_reducible refine Kept.foldl' ?_ (fun a x => ?_)
    | with_reducible apply Kept.chain (State.setLane_kept _ _ _) (by decide)
    | with_reducible simp (disch := first | decide | (with_unfolding_all constructor <;> first | exact Or.inl (by decide) | exact Or.inr rfl | (constructor <;> first | exact Or.inl (by decide) | exact Or.inr (And.intro rfl rfl)))) only [Kept.upd_spec, Kept.upd_host, Kept.upd_now, Kept.upd_freeNo]
    | split
    | intro _

theorem clearOnce_kept (s : State) (ids : List Nat) : Kept [.flt] s (clearOnce s ids) := by
  unfold clearOnce
  try dsimp only
  repeat' first
    | with_reducible exact Kept.refl _ _
    | with_reducible refine Kept.ite (fun _ => ?_) (fun _ => ?_)
    | with_reducible refine Kept.foldl' ?_ (fun a x => ?_)
    | with_reducible simp (disch := first | decide | (with_unfolding_all constructor <;> first | exact Or.inl (by decide) | exact Or.inr rfl | (constructor <;> first | exact Or.inl (by decide) | exact Or.inr (And.intro rfl rfl)))) only [Kept.upd_flt, Kept.upd_host, Kept.upd_now, Kept.upd_freeNo]
    | split
    | intro _

theorem drained_kept (s : State) : Kept [.mem] s (drained s) := by
  unfold drained
  try dsimp only
  repeat' first
    | with_reducible exact Kept.refl _ _
    | with_reducible refine Kept.ite (fun _ => ?_) (fun _ => ?_)
    | with_reducible refine Kept.foldl' ?_ (fun a x => ?_)
    | with_reducible simp (disch := first | decide | (with_unfolding_all constructor <;> first | exact Or.inl (by decide) | exact Or.inr rfl | (constructor <;> first | exact Or.inl (by decide) | exact Or.inr (And.intro rfl rfl)))) only [Kept.upd_mem, Kept.upd_host, Kept.upd_now, Kept.upd_freeNo]
    | split
    | intro _

theorem storFinish_kept (s : State) (op : Nat) (status : Nat) (rlen : Nat) (result : Nat) : Kept [.cmds] s (storFinish s op status rlen result) := by
  unfold storFinish
  try dsimp only
  repeat' first
    | with_reducible exact Kept.refl _ _
    | with_reducible refine Kept.ite (fun _ => ?_) (fun _ => ?_)
    | with_reducible refine Kept.foldl' ?_ (fun a x => ?_)
    | with_reducible apply Kept.chain (finish_kept _ _ _ _ _) (by decide)
    | with_reducible simp (disch := first | decide | (with_unfolding_all constructor <;> first | exact Or.inl (by decide) | exact Or.inr rfl | (constructor <;> first | exact Or.inl (by decide) | exact Or.inr (And.intro rfl rfl)))) only [Kept.upd_host, Kept.upd_now, Kept.upd_freeNo]
    | split
    | intro _

theorem endWindow_kept (s : State) (origin : Nat) : Kept [.flt] s (endWindow s origin) := by
  unfold endWindow
  try dsimp only
  repeat' first
    | with_reducible exact Kept.refl _ _
    | with_reducible refine Kept.ite (fun _ => ?_) (fun _ => ?_)
    | with_reducible refine Kept.foldl' ?_ (fun a x => ?_)
    | with_reducible simp (disch := first | decide | (with_unfolding_all constructor <;> first | exact Or.inl (by decide) | exact Or.inr rfl | (constructor <;> first | exact Or.inl (by decide) | exact Or.inr (And.intro rfl rfl)))) only [Kept.upd_flt, Kept.upd_host, Kept.upd_now, Kept.upd_freeNo]
    | split
    | intro _

theorem mountPost_kept (s : State) : Kept [] s (mountPost s) := by
  unfold mountPost
  try dsimp only
  repeat' first
    | with_reducible exact Kept.refl _ _
    | with_reducible refine Kept.ite (fun _ => ?_) (fun _ => ?_)
    | with_reducible refine Kept.foldl' ?_ (fun a x => ?_)
    | with_reducible apply Kept.chain (post_kept _ _ _) (by decide)
    | with_reducible simp (disch := first | decide | (with_unfolding_all constructor <;> first | exact Or.inl (by decide) | exact Or.inr rfl | (constructor <;> first | exact Or.inl (by decide) | exact Or.inr (And.intro rfl rfl)))) only [Kept.upd_host, Kept.upd_now, Kept.upd_freeNo]
    | split
    | intro _

theorem unmountNow_kept (s : State) : Kept [.move, .flt] s (unmountNow s) := by
  unfold unmountNow
  try dsimp only
  repeat' first
    | with_reducible exact Kept.refl _ _
    | with_reducible refine Kept.ite (fun _ => ?_) (fun _ => ?_)
    | with_reducible refine Kept.foldl' ?_ (fun a x => ?_)
    | with_reducible apply Kept.chain (State.modLink_kept _ _ _) (by decide)
    | with_reducible apply Kept.chain (endWindow_kept _ _) (by decide)
    | with_reducible apply Kept.chain (mountPost_kept _) (by decide)
    | with_reducible simp (disch := first | decide | (with_unfolding_all constructor <;> first | exact Or.inl (by decide) | exact Or.inr rfl | (constructor <;> first | exact Or.inl (by decide) | exact Or.inr (And.intro rfl rfl)))) only [Kept.upd_move, Kept.upd_flt, Kept.upd_host, Kept.upd_now, Kept.upd_freeNo]
    | split
    | intro _

theorem recGone_kept (s : State) : Kept [.cmds, .move, .flt] s (recGone s) := by
  unfold recGone
  try dsimp only
  repeat' first
    | with_reducible exact Kept.refl _ _
    | with_reducible refine Kept.ite (fun _ => ?_) (fun _ => ?_)
    | with_reducible refine Kept.foldl' ?_ (fun a x => ?_)
    | with_reducible apply Kept.chain (post_kept _ _ _) (by decide)
    | with_reducible apply Kept.chain (storFinish_kept _ _ _ _ _) (by decide)
    | with_reducible apply Kept.chain (unmountNow_kept _) (by decide)
    | with_reducible simp (disch := first | decide | (with_unfolding_all constructor <;> first | exact Or.inl (by decide) | exact Or.inr rfl | (constructor <;> first | exact Or.inl (by decide) | exact Or.inr (And.intro rfl rfl)))) only [Kept.upd_move, Kept.upd_flt, Kept.upd_host, Kept.upd_now, Kept.upd_freeNo]
    | split
    | intro _

theorem sealEntry_kept (s : State) (n : Nat) (f : DirEnt → DirEnt) : Kept [.move, .sec] s (sealEntry s n f) := by
  unfold sealEntry
  try dsimp only
  repeat' first
    | with_reducible exact Kept.refl _ _
    | with_reducible refine Kept.ite (fun _ => ?_) (fun _ => ?_)
    | with_reducible refine Kept.foldl' ?_ (fun a x => ?_)
    | with_reducible apply Kept.chain (State.setDirE_kept _ _ _) (by decide)
    | with_reducible simp (disch := first | decide | (with_unfolding_all constructor <;> first | exact Or.inl (by decide) | exact Or.inr rfl | (constructor <;> first | exact Or.inl (by decide) | exact Or.inr (And.intro rfl rfl)))) only [Kept.upd_move, Kept.upd_sec, Kept.upd_host, Kept.upd_now, Kept.upd_freeNo]
    | split
    | intro _

theorem setJob_kept (s : State) (j : Nat) : Kept [.move] s (setJob s j) := by
  unfold setJob
  try dsimp only
  repeat' first
    | with_reducible exact Kept.refl _ _
    | with_reducible refine Kept.ite (fun _ => ?_) (fun _ => ?_)
    | with_reducible refine Kept.foldl' ?_ (fun a x => ?_)
    | with_reducible simp (disch := first | decide | (with_unfolding_all constructor <;> first | exact Or.inl (by decide) | exact Or.inr rfl | (constructor <;> first | exact Or.inl (by decide) | exact Or.inr (And.intro rfl rfl)))) only [Kept.upd_move, Kept.upd_host, Kept.upd_now, Kept.upd_freeNo]
    | split
    | intro _

end Sys2Proof.Machine
end

