-- ==== Sys2Proof/Laws/Frames2.lean ====
section
/-! SUPPORT. Frames of the shared operations (part 3 of 8): the parts of the engine that each can change, and, where the host interface is
not among them, that it changes only the event ring and its signals. -/

set_option linter.unusedTactic false
set_option linter.unreachableTactic false
set_option linter.unusedVariables false
set_option linter.unusedSimpArgs false

namespace Sys2Proof.Machine

theorem sealRec_kept (s : State) : Kept [.move, .sec] s (sealRec s) := by
  unfold sealRec
  try dsimp only
  repeat' first
    | with_reducible exact Kept.refl _ _
    | with_reducible refine Kept.ite (fun _ => ?_) (fun _ => ?_)
    | with_reducible refine Kept.foldl' ?_ (fun a x => ?_)
    | with_reducible apply Kept.chain (sealEntry_kept _ _ _) (by decide)
    | with_reducible apply Kept.chain (setJob_kept _ _) (by decide)
    | with_reducible simp (disch := first | decide | (with_unfolding_all constructor <;> first | exact Or.inl (by decide) | exact Or.inr rfl | (constructor <;> first | exact Or.inl (by decide) | exact Or.inr (And.intro rfl rfl)))) only [Kept.upd_move, Kept.upd_sec, Kept.upd_host, Kept.upd_now, Kept.upd_freeNo]
    | split
    | intro _

theorem recSeal_kept (s : State) : Kept [.cmds, .move, .flt, .sec] s (recSeal s) := by
  unfold recSeal
  try dsimp only
  repeat' first
    | with_reducible exact Kept.refl _ _
    | with_reducible refine Kept.ite (fun _ => ?_) (fun _ => ?_)
    | with_reducible refine Kept.foldl' ?_ (fun a x => ?_)
    | with_reducible apply Kept.chain (recGone_kept _) (by decide)
    | with_reducible apply Kept.chain (sealRec_kept _) (by decide)
    | with_reducible simp (disch := first | decide | (with_unfolding_all constructor <;> first | exact Or.inl (by decide) | exact Or.inr rfl | (constructor <;> first | exact Or.inl (by decide) | exact Or.inr (And.intro rfl rfl)))) only [Kept.upd_move, Kept.upd_flt, Kept.upd_sec, Kept.upd_host, Kept.upd_now, Kept.upd_freeNo]
    | split
    | intro _

theorem endCheck_kept (s : State) : Kept [.cmds, .move, .flt, .sec] s (endCheck s) := by
  unfold endCheck
  try dsimp only
  repeat' first
    | with_reducible exact Kept.refl _ _
    | with_reducible refine Kept.ite (fun _ => ?_) (fun _ => ?_)
    | with_reducible refine Kept.foldl' ?_ (fun a x => ?_)
    | with_reducible apply Kept.chain (recSeal_kept _) (by decide)
    | with_reducible simp (disch := first | decide | (with_unfolding_all constructor <;> first | exact Or.inl (by decide) | exact Or.inr rfl | (constructor <;> first | exact Or.inl (by decide) | exact Or.inr (And.intro rfl rfl)))) only [Kept.upd_move, Kept.upd_flt, Kept.upd_sec, Kept.upd_host, Kept.upd_now, Kept.upd_freeNo]
    | split
    | intro _

theorem placeChunk_kept (s : State) (c : Chunk) : Kept [.mem, .move] s (placeChunk s c) := by
  unfold placeChunk
  try dsimp only
  repeat' first
    | with_reducible exact Kept.refl _ _
    | with_reducible refine Kept.ite (fun _ => ?_) (fun _ => ?_)
    | with_reducible refine Kept.foldl' ?_ (fun a x => ?_)
    | with_reducible apply Kept.chain (memWrite_kept _ _ _) (by decide)
    | with_reducible simp (disch := first | decide | (with_unfolding_all constructor <;> first | exact Or.inl (by decide) | exact Or.inr rfl | (constructor <;> first | exact Or.inl (by decide) | exact Or.inr (And.intro rfl rfl)))) only [Kept.upd_mem, Kept.upd_move, Kept.upd_host, Kept.upd_now, Kept.upd_freeNo]
    | split
    | intro _

theorem closeSource_kept (s : State) (j : Nat) : Kept [.mem, .move] s (closeSource s j) := by
  unfold closeSource
  try dsimp only
  repeat' first
    | with_reducible exact Kept.refl _ _
    | with_reducible refine Kept.ite (fun _ => ?_) (fun _ => ?_)
    | with_reducible refine Kept.foldl' ?_ (fun a x => ?_)
    | with_reducible apply Kept.chain (placeChunk_kept _ _) (by decide)
    | with_reducible simp (disch := first | decide | (with_unfolding_all constructor <;> first | exact Or.inl (by decide) | exact Or.inr rfl | (constructor <;> first | exact Or.inl (by decide) | exact Or.inr (And.intro rfl rfl)))) only [Kept.upd_mem, Kept.upd_move, Kept.upd_host, Kept.upd_now, Kept.upd_freeNo]
    | split
    | intro _

theorem closeOpen_kept (s : State) : Kept [.mem, .move] s (closeOpen s) := by
  unfold closeOpen
  try dsimp only
  repeat' first
    | with_reducible exact Kept.refl _ _
    | with_reducible refine Kept.ite (fun _ => ?_) (fun _ => ?_)
    | with_reducible refine Kept.foldl' ?_ (fun a x => ?_)
    | with_reducible apply Kept.chain (closeSource_kept _ _) (by decide)
    | with_reducible simp (disch := first | decide | (with_unfolding_all constructor <;> first | exact Or.inl (by decide) | exact Or.inr rfl | (constructor <;> first | exact Or.inl (by decide) | exact Or.inr (And.intro rfl rfl)))) only [Kept.upd_mem, Kept.upd_move, Kept.upd_host, Kept.upd_now, Kept.upd_freeNo]
    | split
    | intro _

theorem modEntry_kept (s : State) (f : DirEnt → DirEnt) : Kept [.move] s (modEntry s f) := by
  unfold modEntry
  try dsimp only
  repeat' first
    | with_reducible exact Kept.refl _ _
    | with_reducible refine Kept.ite (fun _ => ?_) (fun _ => ?_)
    | with_reducible refine Kept.foldl' ?_ (fun a x => ?_)
    | with_reducible apply Kept.chain (State.setDirE_kept _ _ _) (by decide)
    | with_reducible simp (disch := first | decide | (with_unfolding_all constructor <;> first | exact Or.inl (by decide) | exact Or.inr rfl | (constructor <;> first | exact Or.inl (by decide) | exact Or.inr (And.intro rfl rfl)))) only [Kept.upd_move, Kept.upd_host, Kept.upd_now, Kept.upd_freeNo]
    | split
    | intro _

theorem poisonPost_kept (s : State) (rd : Reader) (l : Nat) : Kept [.mem] s (poisonPost s rd l) := by
  unfold poisonPost
  try dsimp only
  repeat' first
    | with_reducible exact Kept.refl _ _
    | with_reducible refine Kept.ite (fun _ => ?_) (fun _ => ?_)
    | with_reducible refine Kept.foldl' ?_ (fun a x => ?_)
    | with_reducible apply Kept.chain (post_kept _ _ _) (by decide)
    | with_reducible simp (disch := first | decide | (with_unfolding_all constructor <;> first | exact Or.inl (by decide) | exact Or.inr rfl | (constructor <;> first | exact Or.inl (by decide) | exact Or.inr (And.intro rfl rfl)))) only [Kept.upd_mem, Kept.upd_host, Kept.upd_now, Kept.upd_freeNo]
    | split
    | intro _

theorem handStripe_kept (s : State) (check : Bool) : Kept [.mem, .move] s (handStripe s check) := by
  unfold handStripe
  try dsimp only
  repeat' first
    | with_reducible exact Kept.refl _ _
    | with_reducible refine Kept.ite (fun _ => ?_) (fun _ => ?_)
    | with_reducible refine Kept.foldl' ?_ (fun a x => ?_)
    | with_reducible apply Kept.chain (closeOpen_kept _) (by decide)
    | with_reducible apply Kept.chain (memWrite_kept _ _ _) (by decide)
    | with_reducible apply Kept.chain (modEntry_kept _ _) (by decide)
    | with_reducible apply Kept.chain (poisonPost_kept _ _ _) (by decide)
    | with_reducible simp (disch := first | decide | (with_unfolding_all constructor <;> first | exact Or.inl (by decide) | exact Or.inr rfl | (constructor <;> first | exact Or.inl (by decide) | exact Or.inr (And.intro rfl rfl)))) only [Kept.upd_mem, Kept.upd_move, Kept.upd_host, Kept.upd_now, Kept.upd_freeNo]
    | split
    | intro _

theorem recEndAt_kept (s : State) (end_ : Nat) (at_ : Tick) : Kept [.cmds, .mem, .move, .flt, .sec] s (recEndAt s end_ at_) := by
  unfold recEndAt
  try dsimp only
  repeat' first
    | with_reducible exact Kept.refl _ _
    | with_reducible refine Kept.ite (fun _ => ?_) (fun _ => ?_)
    | with_reducible refine Kept.foldl' ?_ (fun a x => ?_)
    | with_reducible apply Kept.chain (State.modReg_kept _ _ _) (by decide)
    | with_reducible apply Kept.chain (endCheck_kept _) (by decide)
    | with_reducible apply Kept.chain (handStripe_kept _ _) (by decide)
    | with_reducible apply Kept.chain (modEntry_kept _ _) (by decide)
    | with_reducible simp (disch := first | decide | (with_unfolding_all constructor <;> first | exact Or.inl (by decide) | exact Or.inr rfl | (constructor <;> first | exact Or.inl (by decide) | exact Or.inr (And.intro rfl rfl)))) only [Kept.upd_mem, Kept.upd_move, Kept.upd_flt, Kept.upd_sec, Kept.upd_host, Kept.upd_now, Kept.upd_freeNo]
    | split
    | intro _

theorem recFinish_kept (s : State) (j : Nat) : Kept [.cmds, .mem, .move, .flt, .sec] s (recFinish s j) := by
  unfold recFinish
  try dsimp only
  repeat' first
    | with_reducible exact Kept.refl _ _
    | with_reducible refine Kept.ite (fun _ => ?_) (fun _ => ?_)
    | with_reducible refine Kept.foldl' ?_ (fun a x => ?_)
    | with_reducible apply Kept.chain (recEndAt_kept _ _ _) (by decide)
    | with_reducible simp (disch := first | decide | (with_unfolding_all constructor <;> first | exact Or.inl (by decide) | exact Or.inr rfl | (constructor <;> first | exact Or.inl (by decide) | exact Or.inr (And.intro rfl rfl)))) only [Kept.upd_mem, Kept.upd_move, Kept.upd_flt, Kept.upd_sec, Kept.upd_host, Kept.upd_now, Kept.upd_freeNo]
    | split
    | intro _

theorem appendChunk_kept (s : State) (j : Nat) (kind : Nat) (n : Nat) (flags : Nat) (bs : List Byte) : Kept [.mem, .move] s (appendChunk s j kind n flags bs) := by
  unfold appendChunk
  try dsimp only
  repeat' first
    | with_reducible exact Kept.refl _ _
    | with_reducible refine Kept.ite (fun _ => ?_) (fun _ => ?_)
    | with_reducible refine Kept.foldl' ?_ (fun a x => ?_)
    | with_reducible apply Kept.chain (closeSource_kept _ _) (by decide)
    | with_reducible simp (disch := first | decide | (with_unfolding_all constructor <;> first | exact Or.inl (by decide) | exact Or.inr rfl | (constructor <;> first | exact Or.inl (by decide) | exact Or.inr (And.intro rfl rfl)))) only [Kept.upd_mem, Kept.upd_move, Kept.upd_host, Kept.upd_now, Kept.upd_freeNo]
    | split
    | intro _

theorem recEnd_kept (s : State) (end_ : Nat) : Kept [.cmds, .mem, .move, .flt, .sec] s (recEnd s end_) := by
  unfold recEnd
  try dsimp only
  repeat' first
    | with_reducible exact Kept.refl _ _
    | with_reducible refine Kept.ite (fun _ => ?_) (fun _ => ?_)
    | with_reducible refine Kept.foldl' ?_ (fun a x => ?_)
    | with_reducible apply Kept.chain (recEndAt_kept _ _ _) (by decide)
    | with_reducible simp (disch := first | decide | (with_unfolding_all constructor <;> first | exact Or.inl (by decide) | exact Or.inr rfl | (constructor <;> first | exact Or.inl (by decide) | exact Or.inr (And.intro rfl rfl)))) only [Kept.upd_mem, Kept.upd_move, Kept.upd_flt, Kept.upd_sec, Kept.upd_host, Kept.upd_now, Kept.upd_freeNo]
    | split
    | intro _

theorem handFull_kept (s : State) (check : Bool) : Kept [.cmds, .mem, .move, .flt, .sec] s (handFull s check) := by
  unfold handFull
  try dsimp only
  repeat' first
    | with_reducible exact Kept.refl _ _
    | with_reducible refine Kept.ite (fun _ => ?_) (fun _ => ?_)
    | with_reducible refine Kept.foldl' ?_ (fun a x => ?_)
    | with_reducible apply Kept.chain (handStripe_kept _ _) (by decide)
    | with_reducible apply Kept.chain (recEnd_kept _ _) (by decide)
    | with_reducible simp (disch := first | decide | (with_unfolding_all constructor <;> first | exact Or.inl (by decide) | exact Or.inr rfl | (constructor <;> first | exact Or.inl (by decide) | exact Or.inr (And.intro rfl rfl)))) only [Kept.upd_mem, Kept.upd_move, Kept.upd_flt, Kept.upd_sec, Kept.upd_host, Kept.upd_now, Kept.upd_freeNo]
    | split
    | intro _

theorem recMake_kept (s : State) (grow : Nat) (fresh : Nat) : Kept [.cmds, .mem, .move, .flt, .sec] s ((recMake s grow fresh).1) := by
  unfold recMake
  try dsimp only
  repeat' first
    | with_reducible exact Kept.refl _ _
    | with_reducible refine Kept.ite (fun _ => ?_) (fun _ => ?_)
    | with_reducible refine Kept.foldp' ?_ (fun a x => ?_)
    | with_reducible refine Kept.foldq' ?_ (fun a x => ?_)
    | with_reducible refine Kept.foldl' ?_ (fun a x => ?_)
    | with_reducible apply Kept.chain (handFull_kept _ _) (by decide)
    | with_reducible simp (disch := first | decide | (with_unfolding_all constructor <;> first | exact Or.inl (by decide) | exact Or.inr rfl | (constructor <;> first | exact Or.inl (by decide) | exact Or.inr (And.intro rfl rfl)))) only [Kept.upd_mem, Kept.upd_move, Kept.upd_flt, Kept.upd_sec, Kept.upd_host, Kept.upd_now, Kept.upd_freeNo]
    | split
    | intro _

theorem ringAck_kept (s : State) (h : Nat) (rpos : Nat) : Kept [.mem] s (ringAck s h rpos) := by
  unfold ringAck
  try dsimp only
  repeat' first
    | with_reducible exact Kept.refl _ _
    | with_reducible refine Kept.ite (fun _ => ?_) (fun _ => ?_)
    | with_reducible refine Kept.foldl' ?_ (fun a x => ?_)
    | with_reducible apply Kept.chain (State.setReg_kept _ _ _) (by decide)
    | with_reducible simp (disch := first | decide | (with_unfolding_all constructor <;> first | exact Or.inl (by decide) | exact Or.inr rfl | (constructor <;> first | exact Or.inl (by decide) | exact Or.inr (And.intro rfl rfl)))) only [Kept.upd_mem, Kept.upd_host, Kept.upd_now, Kept.upd_freeNo]
    | split
    | intro _

theorem turnRaise_kept (s : State) (w : Win) (e : Raise) : Kept [.flt] s (turnRaise s w e) := by
  unfold turnRaise
  try dsimp only
  repeat' first
    | with_reducible exact Kept.refl _ _
    | with_reducible refine Kept.ite (fun _ => ?_) (fun _ => ?_)
    | with_reducible refine Kept.foldl' ?_ (fun a x => ?_)
    | with_reducible apply Kept.chain (State.setFrec_kept _ _ _) (by decide)
    | with_reducible simp (disch := first | decide | (with_unfolding_all constructor <;> first | exact Or.inl (by decide) | exact Or.inr rfl | (constructor <;> first | exact Or.inl (by decide) | exact Or.inr (And.intro rfl rfl)))) only [Kept.upd_host_flt, Kept.upd_flt, Kept.upd_host, Kept.upd_now, Kept.upd_freeNo]
    | split
    | intro _

theorem openWindow_kept (s : State) (origin : Nat) (deps : List Nat) (ids : List Nat) (ended : Bool) : Kept [.flt] s (openWindow s origin deps ids ended) := by
  unfold openWindow
  try dsimp only
  repeat' first
    | with_reducible exact Kept.refl _ _
    | with_reducible refine Kept.ite (fun _ => ?_) (fun _ => ?_)
    | with_reducible refine Kept.foldl' ?_ (fun a x => ?_)
    | with_reducible apply Kept.chain (post_kept _ _ _) (by decide)
    | with_reducible apply Kept.chain (turnRaise_kept _ _ _) (by decide)
    | with_reducible simp (disch := first | decide | (with_unfolding_all constructor <;> first | exact Or.inl (by decide) | exact Or.inr rfl | (constructor <;> first | exact Or.inl (by decide) | exact Or.inr (And.intro rfl rfl)))) only [Kept.upd_flt, Kept.upd_host, Kept.upd_now, Kept.upd_freeNo]
    | split
    | intro _

theorem barRelease_kept (s : State) (k : Nat) (n : Nat) (brk : Bool) : Kept [.grove] s (barRelease s k n brk) := by
  unfold barRelease
  try dsimp only
  repeat' first
    | with_reducible exact Kept.refl _ _
    | with_reducible refine Kept.ite (fun _ => ?_) (fun _ => ?_)
    | with_reducible refine Kept.foldl' ?_ (fun a x => ?_)
    | with_reducible apply Kept.chain (State.modCore_kept _ _ _) (by decide)
    | with_reducible simp (disch := first | decide | (with_unfolding_all constructor <;> first | exact Or.inl (by decide) | exact Or.inr rfl | (constructor <;> first | exact Or.inl (by decide) | exact Or.inr (And.intro rfl rfl)))) only [Kept.upd_grove, Kept.upd_host, Kept.upd_now, Kept.upd_freeNo]
    | split
    | intro _

theorem barBreak_kept (s : State) (k : Nat) (n : Nat) (cause : Nat) : Kept [.grove] s ((barBreak s k n cause).1) := by
  unfold barBreak
  try dsimp only
  repeat' first
    | with_reducible exact Kept.refl _ _
    | with_reducible refine Kept.ite (fun _ => ?_) (fun _ => ?_)
    | with_reducible refine Kept.foldp' ?_ (fun a x => ?_)
    | with_reducible refine Kept.foldq' ?_ (fun a x => ?_)
    | with_reducible refine Kept.foldl' ?_ (fun a x => ?_)
    | with_reducible apply Kept.chain (State.setBar_kept _ _ _) (by decide)
    | with_reducible apply Kept.chain (barRelease_kept _ _ _ _) (by decide)
    | with_reducible apply Kept.chain (post_kept _ _ _) (by decide)
    | with_reducible simp (disch := first | decide | (with_unfolding_all constructor <;> first | exact Or.inl (by decide) | exact Or.inr rfl | (constructor <;> first | exact Or.inl (by decide) | exact Or.inr (And.intro rfl rfl)))) only [Kept.upd_grove, Kept.upd_host, Kept.upd_now, Kept.upd_freeNo]
    | split
    | intro _

theorem completePosted_kept (s : State) (p : PostedW) : Kept [.grove] s (completePosted s p) := by
  unfold completePosted
  try dsimp only
  repeat' first
    | with_reducible exact Kept.refl _ _
    | with_reducible refine Kept.ite (fun _ => ?_) (fun _ => ?_)
    | with_reducible refine Kept.foldl' ?_ (fun a x => ?_)
    | with_reducible simp (disch := first | decide | (with_unfolding_all constructor <;> first | exact Or.inl (by decide) | exact Or.inr rfl | (constructor <;> first | exact Or.inl (by decide) | exact Or.inr (And.intro rfl rfl)))) only [Kept.upd_grove, Kept.upd_host, Kept.upd_now, Kept.upd_freeNo]
    | split
    | intro _

theorem drainPosted_kept (s : State) (n : Nat) (k : Nat) : Kept [.grove] s (drainPosted s n k) := by
  unfold drainPosted
  try dsimp only
  repeat' first
    | with_reducible exact Kept.refl _ _
    | with_reducible refine Kept.ite (fun _ => ?_) (fun _ => ?_)
    | with_reducible refine Kept.foldl' ?_ (fun a x => ?_)
    | with_reducible apply Kept.chain (State.setCore_kept _ _ _) (by decide)
    | with_reducible apply Kept.chain (completePosted_kept _ _) (by decide)
    | with_reducible simp (disch := first | decide | (with_unfolding_all constructor <;> first | exact Or.inl (by decide) | exact Or.inr rfl | (constructor <;> first | exact Or.inl (by decide) | exact Or.inr (And.intro rfl rfl)))) only [Kept.upd_grove, Kept.upd_host, Kept.upd_now, Kept.upd_freeNo]
    | split
    | intro _

theorem stopCore_kept (s : State) (n : Nat) (cause : Nat) (faddr : Nat) : Kept [.grove] s ((stopCore s n cause faddr).1) := by
  unfold stopCore
  dsimp only
  refine Kept.trans ?_ (Kept.foldp _ (fun a x => ?_) _ _)
  · refine Kept.trans ?_ ((post_kept _ _ _).mono (by decide))
    refine Kept.trans ?_ ((State.modCore_kept _ _ _).mono (by decide))
    refine Kept.trans ?_ ((drainPosted_kept _ _ _).mono (by decide))
    exact (State.modCore_kept _ _ _).mono (by decide)
  · exact barBreak_kept _ _ _ _

theorem coreStopWith_kept {l : List Part} (again : State → Nat → FaultInfo → State) (ha : ∀ s id i, Kept l s (again s id i)) (hg : Part.grove ∈ l)
    (hf : Part.flt ∈ l) (hh : Part.host ∈ l) (s : State) (n : Nat) (cause : Nat) (faddr : Nat) : Kept l s (coreStopWith again s n cause faddr) := by
  unfold coreStopWith
  dsimp only
  have h1 := (stopCore_kept s n cause faddr).mono (m := l) (by simp [hg])
  refine Kept.trans ?_ (Kept.foldl _ (fun a x => ha _ _ _) _ _)
  refine Kept.trans ?_ ((openWindow_kept _ _ _ _ _).mono (by simp [hf, hh]))
  exact Kept.ite (fun _ => h1.trans (ha _ _ _)) (fun _ => h1)

theorem ctlPut_kept (s : State) (n : Nat) (code : Nat) : Kept [.ctl] s (ctlPut s n code) := by
  unfold ctlPut
  try dsimp only
  repeat' first
    | with_reducible exact Kept.refl _ _
    | with_reducible refine Kept.ite (fun _ => ?_) (fun _ => ?_)
    | with_reducible refine Kept.foldl' ?_ (fun a x => ?_)
    | with_reducible apply Kept.chain (State.modCtlO_kept _ _ _) (by decide)
    | with_reducible simp (disch := first | decide | (with_unfolding_all constructor <;> first | exact Or.inl (by decide) | exact Or.inr rfl | (constructor <;> first | exact Or.inl (by decide) | exact Or.inr (And.intro rfl rfl)))) only [Kept.upd_ctl, Kept.upd_host, Kept.upd_now, Kept.upd_freeNo]
    | split
    | intro _

theorem driftUpdate_kept (s : State) (tgt : Nat) : Kept [.cal] s (driftUpdate s tgt) := by
  unfold driftUpdate
  try dsimp only
  repeat' first
    | with_reducible exact Kept.refl _ _
    | with_reducible refine Kept.ite (fun _ => ?_) (fun _ => ?_)
    | with_reducible refine Kept.foldl' ?_ (fun a x => ?_)
    | with_reducible apply Kept.chain (State.modCalT_kept _ _ _) (by decide)
    | with_reducible apply Kept.chain (post_kept _ _ _) (by decide)
    | with_reducible simp (disch := first | decide | (with_unfolding_all constructor <;> first | exact Or.inl (by decide) | exact Or.inr rfl | (constructor <;> first | exact Or.inl (by decide) | exact Or.inr (And.intro rfl rfl)))) only [Kept.upd_cal, Kept.upd_host, Kept.upd_now, Kept.upd_freeNo]
    | split
    | intro _

theorem driftAll_kept (s : State) : Kept [.cal] s (driftAll s) := by
  unfold driftAll
  try dsimp only
  repeat' first
    | with_reducible exact Kept.refl _ _
    | with_reducible refine Kept.ite (fun _ => ?_) (fun _ => ?_)
    | with_reducible refine Kept.foldl' ?_ (fun a x => ?_)
    | with_reducible apply Kept.chain (driftUpdate_kept _ _) (by decide)
    | with_reducible simp (disch := first | decide | (with_unfolding_all constructor <;> first | exact Or.inl (by decide) | exact Or.inr rfl | (constructor <;> first | exact Or.inl (by decide) | exact Or.inr (And.intro rfl rfl)))) only [Kept.upd_cal, Kept.upd_host, Kept.upd_now, Kept.upd_freeNo]
    | split
    | intro _

theorem faultCommand_kept (s : State) (items : List Nat) : Kept [.cmds] s (faultCommand s items) := by
  unfold faultCommand
  try dsimp only
  repeat' first
    | with_reducible exact Kept.refl _ _
    | with_reducible refine Kept.ite (fun _ => ?_) (fun _ => ?_)
    | with_reducible refine Kept.foldl' ?_ (fun a x => ?_)
    | with_reducible apply Kept.chain (finish_kept _ _ _ _ _) (by decide)
    | with_reducible simp (disch := first | decide | (with_unfolding_all constructor <;> first | exact Or.inl (by decide) | exact Or.inr rfl | (constructor <;> first | exact Or.inl (by decide) | exact Or.inr (And.intro rfl rfl)))) only [Kept.upd_host, Kept.upd_now, Kept.upd_freeNo]
    | split
    | intro _

theorem feedOff_kept (s : State) (i : Nat) : Kept [.grove] s (feedOff s i) := by
  unfold feedOff
  try dsimp only
  repeat' first
    | with_reducible exact Kept.refl _ _
    | with_reducible refine Kept.ite (fun _ => ?_) (fun _ => ?_)
    | with_reducible refine Kept.foldl' ?_ (fun a x => ?_)
    | with_reducible apply Kept.chain (State.modFeed_kept _ _ _) (by decide)
    | with_reducible apply Kept.chain (feedGapPost_kept _ _) (by decide)
    | with_reducible simp (disch := first | decide | (with_unfolding_all constructor <;> first | exact Or.inl (by decide) | exact Or.inr rfl | (constructor <;> first | exact Or.inl (by decide) | exact Or.inr (And.intro rfl rfl)))) only [Kept.upd_grove, Kept.upd_host, Kept.upd_now, Kept.upd_freeNo]
    | split
    | intro _

theorem feedDisable_kept (s : State) (i : Nat) : Kept [.grove] s (feedDisable s i) := by
  unfold feedDisable
  try dsimp only
  repeat' first
    | with_reducible exact Kept.refl _ _
    | with_reducible refine Kept.ite (fun _ => ?_) (fun _ => ?_)
    | with_reducible refine Kept.foldl' ?_ (fun a x => ?_)
    | with_reducible apply Kept.chain (State.setFeed_kept _ _ _) (by decide)
    | with_reducible apply Kept.chain (feedOff_kept _ _) (by decide)
    | with_reducible simp (disch := first | decide | (with_unfolding_all constructor <;> first | exact Or.inl (by decide) | exact Or.inr rfl | (constructor <;> first | exact Or.inl (by decide) | exact Or.inr (And.intro rfl rfl)))) only [Kept.upd_grove, Kept.upd_host, Kept.upd_now, Kept.upd_freeNo]
    | split
    | intro _

theorem markUnlocked_kept (s : State) (id : Nat) : Kept [.fe] s (markUnlocked s id) := by
  unfold markUnlocked
  try dsimp only
  repeat' first
    | with_reducible exact Kept.refl _ _
    | with_reducible refine Kept.ite (fun _ => ?_) (fun _ => ?_)
    | with_reducible refine Kept.foldl' ?_ (fun a x => ?_)
    | with_reducible apply Kept.chain (State.modStr_kept _ _ _) (by decide)
    | with_reducible simp (disch := first | decide | (with_unfolding_all constructor <;> first | exact Or.inl (by decide) | exact Or.inr rfl | (constructor <;> first | exact Or.inl (by decide) | exact Or.inr (And.intro rfl rfl)))) only [Kept.upd_fe, Kept.upd_host, Kept.upd_now, Kept.upd_freeNo]
    | split
    | intro _

theorem markAllUnlocked_kept (s : State) : Kept [.fe] s (markAllUnlocked s) := by
  unfold markAllUnlocked
  try dsimp only
  repeat' first
    | with_reducible exact Kept.refl _ _
    | with_reducible refine Kept.ite (fun _ => ?_) (fun _ => ?_)
    | with_reducible refine Kept.foldl' ?_ (fun a x => ?_)
    | with_reducible apply Kept.chain (markUnlocked_kept _ _) (by decide)
    | with_reducible simp (disch := first | decide | (with_unfolding_all constructor <;> first | exact Or.inl (by decide) | exact Or.inr rfl | (constructor <;> first | exact Or.inl (by decide) | exact Or.inr (And.intro rfl rfl)))) only [Kept.upd_fe, Kept.upd_host, Kept.upd_now, Kept.upd_freeNo]
    | split
    | intro _

theorem markOnce_kept (s : State) (id : Nat) : Kept [.flt] s (markOnce s id) := by
  unfold markOnce
  try dsimp only
  repeat' first
    | with_reducible exact Kept.refl _ _
    | with_reducible refine Kept.ite (fun _ => ?_) (fun _ => ?_)
    | with_reducible refine Kept.foldl' ?_ (fun a x => ?_)
    | with_reducible simp (disch := first | decide | (with_unfolding_all constructor <;> first | exact Or.inl (by decide) | exact Or.inr rfl | (constructor <;> first | exact Or.inl (by decide) | exact Or.inr (And.intro rfl rfl)))) only [Kept.upd_flt, Kept.upd_host, Kept.upd_now, Kept.upd_freeNo]
    | split
    | intro _

theorem markSuspect_kept (s : State) (id : Nat) : Kept [.fe] s (markSuspect s id) := by
  unfold markSuspect
  try dsimp only
  repeat' first
    | with_reducible exact Kept.refl _ _
    | with_reducible refine Kept.ite (fun _ => ?_) (fun _ => ?_)
    | with_reducible refine Kept.foldl' ?_ (fun a x => ?_)
    | with_reducible apply Kept.chain (State.modStr_kept _ _ _) (by decide)
    | with_reducible simp (disch := first | decide | (with_unfolding_all constructor <;> first | exact Or.inl (by decide) | exact Or.inr rfl | (constructor <;> first | exact Or.inl (by decide) | exact Or.inr (And.intro rfl rfl)))) only [Kept.upd_fe, Kept.upd_host, Kept.upd_now, Kept.upd_freeNo]
    | split
    | intro _

theorem monSuspect_kept (s : State) (c : Nat) : Kept [.mon] s (monSuspect s c) := by
  unfold monSuspect
  try dsimp only
  repeat' first
    | with_reducible exact Kept.refl _ _
    | with_reducible refine Kept.ite (fun _ => ?_) (fun _ => ?_)
    | with_reducible refine Kept.foldl' ?_ (fun a x => ?_)
    | with_reducible apply Kept.chain (State.modCtx_kept _ _ _) (by decide)
    | with_reducible simp (disch := first | decide | (with_unfolding_all constructor <;> first | exact Or.inl (by decide) | exact Or.inr rfl | (constructor <;> first | exact Or.inl (by decide) | exact Or.inr (And.intro rfl rfl)))) only [Kept.upd_mon, Kept.upd_host, Kept.upd_now, Kept.upd_freeNo]
    | split
    | intro _

theorem govTrack_kept (s : State) : Kept [.spec] s (govTrack s) := by
  unfold govTrack
  try dsimp only
  repeat' first
    | with_reducible exact Kept.refl _ _
    | with_reducible refine Kept.ite (fun _ => ?_) (fun _ => ?_)
    | with_reducible refine Kept.foldl' ?_ (fun a x => ?_)
    | with_reducible simp (disch := first | decide | (with_unfolding_all constructor <;> first | exact Or.inl (by decide) | exact Or.inr rfl | (constructor <;> first | exact Or.inl (by decide) | exact Or.inr (And.intro rfl rfl)))) only [Kept.upd_spec, Kept.upd_host, Kept.upd_now, Kept.upd_freeNo]
    | split
    | intro _

theorem setSupply_kept (s : State) (mv : Nat) : Kept [.spec] s (setSupply s mv) := by
  unfold setSupply
  try dsimp only
  repeat' first
    | with_reducible exact Kept.refl _ _
    | with_reducible refine Kept.ite (fun _ => ?_) (fun _ => ?_)
    | with_reducible refine Kept.foldl' ?_ (fun a x => ?_)
    | with_reducible apply Kept.chain (govTrack_kept _) (by decide)
    | with_reducible apply Kept.chain (post_kept _ _ _) (by decide)
    | with_reducible simp (disch := first | decide | (with_unfolding_all constructor <;> first | exact Or.inl (by decide) | exact Or.inr rfl | (constructor <;> first | exact Or.inl (by decide) | exact Or.inr (And.intro rfl rfl)))) only [Kept.upd_spec, Kept.upd_host, Kept.upd_now, Kept.upd_freeNo]
    | split
    | intro _

theorem contain_kept (again : State → Nat → FaultInfo → State)
    (ha : ∀ s id i, Kept [.host, .cmds, .fe, .cal, .spec, .acq, .disp, .mon, .tiu, .grove, .mem, .move, .ctl, .flt, .sec, .pwr] s (again s id i)) (s : State) (id : Nat) (i : FaultInfo) :
    Kept [.host, .cmds, .fe, .cal, .spec, .acq, .disp, .mon, .tiu, .grove, .mem, .move, .ctl, .flt, .sec, .pwr] s (contain again s id i) := by
  unfold contain
  dsimp only
  have hh : ∀ s : State, ∀ b : Bool, Kept [.host, .cmds, .fe, .cal, .spec, .acq, .disp, .mon, .tiu, .grove, .mem, .move, .ctl, .flt, .sec, .pwr] s (if b then { s with flt := { s.flt with held := tput false s.flt.held id true } } else s) :=
    fun s b => Kept.ite (fun _ => (Kept.upd_flt (by decide) _).2 (Kept.refl _ _)) (fun _ => Kept.refl _ _)
  have hf := fun (u s : State) (h : Kept [.host, .cmds, .fe, .cal, .spec, .acq, .disp, .mon, .tiu, .grove, .mem, .move, .ctl, .flt, .sec, .pwr] s u) (l : List Nat) =>
    h.trans (Kept.foldl markSuspect (fun a x => (markSuspect_kept a x).mono (m := [.host, .cmds, .fe, .cal, .spec, .acq, .disp, .mon, .tiu, .grove, .mem, .move, .ctl, .flt, .sec, .pwr]) (by decide)) l u)
  split
  · exact Kept.ite (fun _ => (faultCommand_kept _ _).mono (by decide)) (fun _ => Kept.refl _ _)
  · exact ((Kept.upd_sec (by decide) _).2 (Kept.refl _ _)).trans ((faultCommand_kept _ _).mono (by decide))
  · exact (markAllUnlocked_kept _).mono (by decide)
  · exact hf _ _ (Kept.refl _ _) _
  · exact hf _ _ (Kept.refl _ _) _
  · exact hf _ _ (Kept.refl _ _) _
  · exact hf _ _ (Kept.refl _ _) _
  · exact hf _ _ (hh _ _) _
  · exact hf _ _ (hh _ _) _
  · exact Kept.ite (fun _ => hh _ _) (fun _ => Kept.ite (fun _ => (markOnce_kept _ _).mono (by decide)) (fun _ => Kept.refl _ _))
  · exact Kept.ite (fun _ => Kept.foldl _ (fun a x => (State.modMaskS_kept _ _ _).mono (by decide)) _ _) (fun _ => Kept.refl _ _)
  · exact hh _ _
  · exact hh _ _
  · exact (State.modAu_kept _ _ _).mono (by decide)
  · exact (State.modAu_kept _ _ _).mono (by decide)
  · exact (State.modDmap_kept _ _ _).mono (by decide)
  · exact Kept.foldl _ (fun a x => (monSuspect_kept _ _).mono (by decide)) _ _
  · exact (State.modTiuIn_kept _ _ _).mono (by decide)
  · refine Kept.ite (fun _ => hf _ _ ((Kept.upd_flt (by decide) _).2 (hh _ _)) _) (fun _ => Kept.ite (fun _ => ?_) (fun _ => Kept.ite (fun _ => ?_) (fun _ => Kept.refl _ _)))
    · exact (Kept.upd_flt (by decide) _).2 (Kept.refl _ _)
    · exact (driftAll_kept _).mono (by decide)
  iterate 8
    · refine Kept.ite (fun _ => ?_) (fun _ => Kept.ite (fun _ => ?_) (fun _ => Kept.refl _ _))
      · exact coreStopWith_kept again ha (by decide) (by decide) (by decide) _ _ _ _
      · exact Kept.foldl _ (fun a x => (feedDisable_kept _ _).mono (by decide)) _ _
  · exact Kept.ite (fun _ => (ctlPut_kept _ _ _).mono (by decide)) (fun _ => Kept.refl _ _)
  · exact Kept.chain (setSupply_kept _ _) (by decide) ((Kept.upd_spec (by decide) _).2 (Kept.refl _ _))
  · exact (faultCommand_kept _ _).mono (by decide)
  · exact Kept.refl _ _

theorem barBreak_members (s : State) (k n cause : Nat) : ∀ m ∈ (barBreak s k n cause).2, m < 64 := by
  unfold barBreak
  dsimp only
  split
  · intro m h; cases h
  · intro m h
    simp only [maskBits, List.mem_filter, List.mem_range] at h
    exact h.1.1

theorem stopCore_members (s : State) (n cause faddr : Nat) : ∀ m ∈ (stopCore s n cause faddr).2, m < 64 := by
  have h : ∀ (l : List Nat) (a : State × List Nat), (∀ m ∈ a.2, m < 64) →
      ∀ m ∈ (l.foldl (fun a k => let r := barBreak a.1 k n cause; (r.1, a.2 ++ r.2)) a).2, m < 64 := by
    intro l
    induction l with
    | nil => exact fun a h => h
    | cons x l ih =>
      intro a ha
      refine ih _ fun m hm => ?_
      rcases List.mem_append.1 hm with hm | hm
      · exact ha m hm
      · exact barBreak_members _ _ _ _ m hm
  exact h _ _ (by intro m h; cases h)

theorem coreStopWith_quiet (again : State → Nat → FaultInfo → State) (ha : ∀ s id i, quietSource id → Kept [.host, .fe, .cal, .spec, .acq, .disp, .mon, .tiu, .grove, .mem, .move, .ctl, .flt, .sec, .pwr] s (again s id i)) (s : State) (n cause faddr : Nat)
    (hn : n < 104) : Kept [.host, .fe, .cal, .spec, .acq, .disp, .mon, .tiu, .grove, .mem, .move, .ctl, .flt, .sec, .pwr] s (coreStopWith again s n cause faddr) := by
  unfold coreStopWith
  dsimp only
  have h1 := (stopCore_kept s n cause faddr).mono (m := [.host, .fe, .cal, .spec, .acq, .disp, .mon, .tiu, .grove, .mem, .move, .ctl, .flt, .sec, .pwr]) (by decide)
  have hm := stopCore_members s n cause faddr
  have hq : ∀ m, m < 104 → ∀ k, k < 6 → quietSource (groveSrc m k) := by
    intro m h k hk; unfold quietSource groveSrc; omega
  have hf : ∀ (l : List Nat), (∀ m ∈ l, m < 64) → ∀ u, Kept [.host, .fe, .cal, .spec, .acq, .disp, .mon, .tiu, .grove, .mem, .move, .ctl, .flt, .sec, .pwr] u (l.foldl (fun a m => again a (groveSrc m 5) { master := 2, inst := m }) u) := by
    intro l
    induction l with
    | nil => exact fun _ u => Kept.refl _ u
    | cons x l ih =>
      intro h u
      exact (ha _ _ _ (hq x (by have := h x (by simp); omega) 5 (by decide))).trans (ih (fun m hm => h m (by simp [hm])) _)
  refine Kept.trans ?_ (hf _ hm _)
  apply Kept.chain (openWindow_kept _ _ _ _ _) (by decide)
  exact Kept.ite (fun _ => h1.trans (ha _ _ _ (hq n hn 0 (by decide)))) (fun _ => h1)

theorem containQuiet_kept (again : State → Nat → FaultInfo → State) (ha : ∀ s id i, quietSource id → Kept [.host, .fe, .cal, .spec, .acq, .disp, .mon, .tiu, .grove, .mem, .move, .ctl, .flt, .sec, .pwr] s (again s id i)) (s : State) (id : Nat)
    (i : FaultInfo) (hq : quietSource id) : Kept [.host, .fe, .cal, .spec, .acq, .disp, .mon, .tiu, .grove, .mem, .move, .ctl, .flt, .sec, .pwr] s (contain again s id i) := by
  unfold contain
  dsimp only
  have hh : ∀ s : State, ∀ b : Bool, Kept [.host, .fe, .cal, .spec, .acq, .disp, .mon, .tiu, .grove, .mem, .move, .ctl, .flt, .sec, .pwr] s (if b then { s with flt := { s.flt with held := tput false s.flt.held id true } } else s) :=
    fun s b => Kept.ite (fun _ => (Kept.upd_flt (by decide) _).2 (Kept.refl _ _)) (fun _ => Kept.refl _ _)
  have hf := fun (u s : State) (h : Kept [.host, .fe, .cal, .spec, .acq, .disp, .mon, .tiu, .grove, .mem, .move, .ctl, .flt, .sec, .pwr] s u) (l : List Nat) =>
    h.trans (Kept.foldl markSuspect (fun a x => (markSuspect_kept a x).mono (m := [.host, .fe, .cal, .spec, .acq, .disp, .mon, .tiu, .grove, .mem, .move, .ctl, .flt, .sec, .pwr]) (by decide)) l u)
  obtain ⟨q0, q1, q2⟩ := hq
  split
  · rename_i h; exact absurd h q0
  · rename_i h; exact absurd h q1
  · exact (markAllUnlocked_kept _).mono (by decide)
  · exact hf _ _ (Kept.refl _ _) _
  · exact hf _ _ (Kept.refl _ _) _
  · exact hf _ _ (Kept.refl _ _) _
  · exact hf _ _ (Kept.refl _ _) _
  · exact hf _ _ (hh _ _) _
  · exact hf _ _ (hh _ _) _
  · exact Kept.ite (fun _ => hh _ _) (fun _ => Kept.ite (fun _ => (markOnce_kept _ _).mono (by decide)) (fun _ => Kept.refl _ _))
  · exact Kept.ite (fun _ => Kept.foldl _ (fun a x => (State.modMaskS_kept _ _ _).mono (by decide)) _ _) (fun _ => Kept.refl _ _)
  · exact hh _ _
  · exact hh _ _
  · exact (State.modAu_kept _ _ _).mono (by decide)
  · exact (State.modAu_kept _ _ _).mono (by decide)
  · exact (State.modDmap_kept _ _ _).mono (by decide)
  · exact Kept.foldl _ (fun a x => (monSuspect_kept _ _).mono (by decide)) _ _
  · exact (State.modTiuIn_kept _ _ _).mono (by decide)
  · refine Kept.ite (fun _ => hf _ _ ((Kept.upd_flt (by decide) _).2 (hh _ _)) _) (fun _ => Kept.ite (fun _ => ?_) (fun _ => Kept.ite (fun _ => ?_) (fun _ => Kept.refl _ _)))
    · exact (Kept.upd_flt (by decide) _).2 (Kept.refl _ _)
    · exact (driftAll_kept _).mono (by decide)
  iterate 8
    · refine Kept.ite (fun _ => ?_) (fun _ => Kept.ite (fun _ => ?_) (fun _ => Kept.refl _ _))
      · exact coreStopWith_quiet again ha _ _ _ _ (by omega)
      · exact Kept.foldl _ (fun a x => (feedDisable_kept _ _).mono (by decide)) _ _
  · exact Kept.ite (fun _ => (ctlPut_kept _ _ _).mono (by decide)) (fun _ => Kept.refl _ _)
  · exact Kept.chain (setSupply_kept _ _) (by decide) ((Kept.upd_spec (by decide) _).2 (Kept.refl _ _))
  · rename_i h; exact absurd h q2
  · exact Kept.refl _ _


theorem acqAbort_kept (s : State) (a : Nat) (reason : Nat) : Kept [.acq, .mem, .move] s (acqAbort s a reason) := by
  unfold acqAbort
  try dsimp only
  repeat' first
    | with_reducible exact Kept.refl _ _
    | with_reducible refine Kept.ite (fun _ => ?_) (fun _ => ?_)
    | with_reducible refine Kept.foldl' ?_ (fun a x => ?_)
    | with_reducible apply Kept.chain (acqEnd_kept _ _ _) (by decide)
    | with_reducible apply Kept.chain (post_kept _ _ _) (by decide)
    | with_reducible apply Kept.chain (writeSegment_kept _ _ _) (by decide)
    | with_reducible simp (disch := first | decide | (with_unfolding_all constructor <;> first | exact Or.inl (by decide) | exact Or.inr rfl | (constructor <;> first | exact Or.inl (by decide) | exact Or.inr (And.intro rfl rfl)))) only [Kept.upd_acq, Kept.upd_mem, Kept.upd_move, Kept.upd_host, Kept.upd_now, Kept.upd_freeNo]
    | split
    | intro _

theorem abortWhere_kept (s : State) (reason : Nat) (sel : Nat → Acq → Bool) : Kept [.acq, .mem, .move] s (abortWhere s reason sel) := by
  unfold abortWhere
  try dsimp only
  repeat' first
    | with_reducible exact Kept.refl _ _
    | with_reducible refine Kept.ite (fun _ => ?_) (fun _ => ?_)
    | with_reducible refine Kept.foldl' ?_ (fun a x => ?_)
    | with_reducible apply Kept.chain (acqAbort_kept _ _ _) (by decide)
    | with_reducible simp (disch := first | decide | (with_unfolding_all constructor <;> first | exact Or.inl (by decide) | exact Or.inr rfl | (constructor <;> first | exact Or.inl (by decide) | exact Or.inr (And.intro rfl rfl)))) only [Kept.upd_acq, Kept.upd_mem, Kept.upd_move, Kept.upd_host, Kept.upd_now, Kept.upd_freeNo]
    | split
    | intro _

theorem abortAll_kept (s : State) (reason : Nat) : Kept [.acq, .mem, .move] s (abortAll s reason) := by
  unfold abortAll
  try dsimp only
  repeat' first
    | with_reducible exact Kept.refl _ _
    | with_reducible refine Kept.ite (fun _ => ?_) (fun _ => ?_)
    | with_reducible refine Kept.foldl' ?_ (fun a x => ?_)
    | with_reducible apply Kept.chain (abortWhere_kept _ _ _) (by decide)
    | with_reducible simp (disch := first | decide | (with_unfolding_all constructor <;> first | exact Or.inl (by decide) | exact Or.inr rfl | (constructor <;> first | exact Or.inl (by decide) | exact Or.inr (And.intro rfl rfl)))) only [Kept.upd_acq, Kept.upd_mem, Kept.upd_move, Kept.upd_host, Kept.upd_now, Kept.upd_freeNo]
    | split
    | intro _

theorem ctlSafe_kept (s : State) (sel : Nat → Bool) : Kept [.ctl] s (ctlSafe s sel) := by
  unfold ctlSafe
  try dsimp only
  repeat' first
    | with_reducible exact Kept.refl _ _
    | with_reducible refine Kept.ite (fun _ => ?_) (fun _ => ?_)
    | with_reducible refine Kept.foldl' ?_ (fun a x => ?_)
    | with_reducible apply Kept.chain (ctlPut_kept _ _ _) (by decide)
    | with_reducible simp (disch := first | decide | (with_unfolding_all constructor <;> first | exact Or.inl (by decide) | exact Or.inr rfl | (constructor <;> first | exact Or.inl (by decide) | exact Or.inr (And.intro rfl rfl)))) only [Kept.upd_ctl, Kept.upd_host, Kept.upd_now, Kept.upd_freeNo]
    | split
    | intro _

theorem ctlFatal_kept (s : State) : Kept [.ctl] s (ctlFatal s) := by
  unfold ctlFatal
  try dsimp only
  repeat' first
    | with_reducible exact Kept.refl _ _
    | with_reducible refine Kept.ite (fun _ => ?_) (fun _ => ?_)
    | with_reducible refine Kept.foldl' ?_ (fun a x => ?_)
    | with_reducible apply Kept.chain (ctlSafe_kept _ _) (by decide)
    | with_reducible simp (disch := first | decide | (with_unfolding_all constructor <;> first | exact Or.inl (by decide) | exact Or.inr rfl | (constructor <;> first | exact Or.inl (by decide) | exact Or.inr (And.intro rfl rfl)))) only [Kept.upd_ctl, Kept.upd_host, Kept.upd_now, Kept.upd_freeNo]
    | split
    | intro _

theorem enterFatal_kept (s : State) (id : Nat) : Kept [.host, .acq, .mem, .move, .ctl, .flt, .pwr] s (enterFatal s id) := by
  unfold enterFatal
  try dsimp only
  repeat' first
    | with_reducible exact Kept.refl _ _
    | with_reducible refine Kept.ite (fun _ => ?_) (fun _ => ?_)
    | with_reducible refine Kept.foldl' ?_ (fun a x => ?_)
    | with_reducible apply Kept.chain (State.modPin_kept _ _ _) (by decide)
    | with_reducible apply Kept.chain (abortAll_kept _ _) (by decide)
    | with_reducible apply Kept.chain (ctlFatal_kept _) (by decide)
    | with_reducible apply Kept.chain (drivePins_kept _) (by decide)
    | with_reducible simp (disch := first | decide | (with_unfolding_all constructor <;> first | exact Or.inl (by decide) | exact Or.inr rfl | (constructor <;> first | exact Or.inl (by decide) | exact Or.inr (And.intro rfl rfl)))) only [Kept.upd_host_flt_pwr, Kept.upd_acq, Kept.upd_mem, Kept.upd_move, Kept.upd_ctl, Kept.upd_flt, Kept.upd_pwr, Kept.upd_host, Kept.upd_now, Kept.upd_freeNo]
    | split
    | intro _

theorem recordRaise_kept (s : State) (id : Nat) (sev : Nat) (origin : Option Nat) (i : FaultInfo) : Kept [.flt] s (recordRaise s id sev origin i) := by
  unfold recordRaise
  try dsimp only
  repeat' first
    | with_reducible exact Kept.refl _ _
    | with_reducible refine Kept.ite (fun _ => ?_) (fun _ => ?_)
    | with_reducible refine Kept.foldl' ?_ (fun a x => ?_)
    | with_reducible apply Kept.chain (State.setFrec_kept _ _ _) (by decide)
    | with_reducible simp (disch := first | decide | (with_unfolding_all constructor <;> first | exact Or.inl (by decide) | exact Or.inr rfl | (constructor <;> first | exact Or.inl (by decide) | exact Or.inr (And.intro rfl rfl)))) only [Kept.upd_flt, Kept.upd_host, Kept.upd_now, Kept.upd_freeNo]
    | split
    | intro _

theorem raiseFault_kept (s : State) (id : Nat) (i : FaultInfo) : Kept [.host, .cmds, .fe, .cal, .spec, .acq, .disp, .mon, .tiu, .grove, .mem, .move, .ctl, .flt, .sec, .pwr] s (raiseFault s id i) := by
  have h : ∀ n s id i, Kept [.host, .cmds, .fe, .cal, .spec, .acq, .disp, .mon, .tiu, .grove, .mem, .move, .ctl, .flt, .sec, .pwr] s (raiseN n s id i) := by
    intro n
    induction n with
    | zero => intro s id i; exact Kept.refl _ _
    | succ n ih =>
      intro s id i
      unfold raiseN
      dsimp only
      refine Kept.ite (fun _ => Kept.refl _ _) (fun _ => ?_)
      generalize hsev : appliedSev s id = sev
      generalize horg : originOf s id = org
      have h1 := (recordRaise_kept s id sev org i).mono (m := [.host, .cmds, .fe, .cal, .spec, .acq, .disp, .mon, .tiu, .grove, .mem, .move, .ctl, .flt, .sec, .pwr]) (by decide)
      generalize recordRaise s id sev org i = s1 at h1 ⊢
      generalize hg : ({ s1 with flt := _ } : State) = u
      have hu : Kept [.host, .cmds, .fe, .cal, .spec, .acq, .disp, .mon, .tiu, .grove, .mem, .move, .ctl, .flt, .sec, .pwr] s u := by rw [← hg]; exact (Kept.upd_flt (by decide) _).2 h1
      have h2 := hu.trans ((perfAdd_kept u 0x12 (id / 256) 1).mono (by simp))
      generalize perfAdd u 0x12 (id / 256) 1 = s2 at h2 ⊢
      have h3 : ∀ b : Prop, [Decidable b] → ∀ x, Kept [.host, .cmds, .fe, .cal, .spec, .acq, .disp, .mon, .tiu, .grove, .mem, .move, .ctl, .flt, .sec, .pwr] s (if b then post s2 0x0D01 x else s2) := fun b _ x =>
        Kept.ite (fun _ => h2.trans ((post_kept _ _ _).mono (by simp))) (fun _ => h2)
      have h4 : ∀ s3, Kept [.host, .cmds, .fe, .cal, .spec, .acq, .disp, .mon, .tiu, .grove, .mem, .move, .ctl, .flt, .sec, .pwr] s s3 → Kept [.host, .cmds, .fe, .cal, .spec, .acq, .disp, .mon, .tiu, .grove, .mem, .move, .ctl, .flt, .sec, .pwr] s (if 2 ≤ sev then contain (raiseN n) s3 id i else s3) := fun s3 hs =>
        Kept.ite (fun _ => hs.trans (contain_kept _ ih _ _ _)) (fun _ => hs)
      refine Kept.ite (fun _ => ?_) (fun _ => h4 _ (h3 _ _))
      exact (h4 _ (h3 _ _)).trans ((enterFatal_kept _ _).mono (by decide))
  exact h _ _ _ _

/-- Raising a source that concerns no command ends none. -/
theorem raiseQuiet_kept (s : State) (id : Nat) (i : FaultInfo) (hq : quietSource id) : Kept [.host, .fe, .cal, .spec, .acq, .disp, .mon, .tiu, .grove, .mem, .move, .ctl, .flt, .sec, .pwr] s (raiseFault s id i) := by
  have h : ∀ n s id i, quietSource id → Kept [.host, .fe, .cal, .spec, .acq, .disp, .mon, .tiu, .grove, .mem, .move, .ctl, .flt, .sec, .pwr] s (raiseN n s id i) := by
    intro n
    induction n with
    | zero => intro s id i _; exact Kept.refl _ _
    | succ n ih =>
      intro s id i hq
      unfold raiseN
      dsimp only
      refine Kept.ite (fun _ => Kept.refl _ _) (fun _ => ?_)
      generalize hsev : appliedSev s id = sev
      generalize horg : originOf s id = org
      have h1 := (recordRaise_kept s id sev org i).mono (m := [.host, .fe, .cal, .spec, .acq, .disp, .mon, .tiu, .grove, .mem, .move, .ctl, .flt, .sec, .pwr]) (by decide)
      generalize recordRaise s id sev org i = s1 at h1 ⊢
      generalize hg : ({ s1 with flt := _ } : State) = u
      have hu : Kept [.host, .fe, .cal, .spec, .acq, .disp, .mon, .tiu, .grove, .mem, .move, .ctl, .flt, .sec, .pwr] s u := by rw [← hg]; exact (Kept.upd_flt (by decide) _).2 h1
      have h2 := hu.trans ((perfAdd_kept u 0x12 (id / 256) 1).mono (by simp))
      generalize perfAdd u 0x12 (id / 256) 1 = s2 at h2 ⊢
      have h3 : ∀ b : Prop, [Decidable b] → ∀ x, Kept [.host, .fe, .cal, .spec, .acq, .disp, .mon, .tiu, .grove, .mem, .move, .ctl, .flt, .sec, .pwr] s (if b then post s2 0x0D01 x else s2) := fun b _ x =>
        Kept.ite (fun _ => h2.trans ((post_kept _ _ _).mono (by simp))) (fun _ => h2)
      have h4 : ∀ s3, Kept [.host, .fe, .cal, .spec, .acq, .disp, .mon, .tiu, .grove, .mem, .move, .ctl, .flt, .sec, .pwr] s s3 → Kept [.host, .fe, .cal, .spec, .acq, .disp, .mon, .tiu, .grove, .mem, .move, .ctl, .flt, .sec, .pwr] s (if 2 ≤ sev then contain (raiseN n) s3 id i else s3) := fun s3 hs =>
        Kept.ite (fun _ => hs.trans (containQuiet_kept _ ih _ _ _ hq)) (fun _ => hs)
      refine Kept.ite (fun _ => ?_) (fun _ => h4 _ (h3 _ _))
      exact (h4 _ (h3 _ _)).trans ((enterFatal_kept _ _).mono (by decide))
  exact h _ _ _ _ hq

theorem quiet_gap (c : Nat) : quietSource (gapSource c) := by
  unfold quietSource gapSource
  split
  · omega
  · split
    · omega
    · split
      · omega
      · split
        · decide
        · split <;> decide

theorem quiet_rank (s : State) (a k : Nat) (hk : k < 2) : quietSource (rankSrc s a k) := by
  have h1 : quadOf a < 4 := Nat.mod_lt _ (by decide)
  have h2 : rankOf s a < 16 := by
    unfold rankOf
    dsimp only
    split_ifs <;> omega
  unfold quietSource rankSrc; omega

theorem ceError_kept (s : State) (l : Nat) (forced : Bool) (i : FaultInfo) : Kept [.host, .fe, .cal, .spec, .acq, .disp, .mon, .tiu, .grove, .mem, .move, .ctl, .flt, .sec, .pwr] s (ceError s l forced i) := by
  unfold ceError
  try dsimp only
  repeat' first
    | with_reducible exact Kept.refl _ _
    | with_reducible refine Kept.ite (fun _ => ?_) (fun _ => ?_)
    | with_reducible refine Kept.foldl' ?_ (fun a x => ?_)
    | with_reducible apply Kept.chain (State.modRank_kept _ _ _) (by decide)
    | with_reducible apply Kept.chain (State.setRank_kept _ _ _) (by decide)
    | with_reducible apply Kept.chain (post_kept _ _ _) (by decide)
    | with_reducible apply Kept.chain (raiseQuiet_kept _ _ _ (by first | (unfold quietSource; decide) | exact quiet_rank _ _ _ (by decide))) (by decide)
    | with_reducible simp (disch := first | decide | (with_unfolding_all constructor <;> first | exact Or.inl (by decide) | exact Or.inr rfl | (constructor <;> first | exact Or.inl (by decide) | exact Or.inr (And.intro rfl rfl)))) only [Kept.upd_fe, Kept.upd_cal, Kept.upd_spec, Kept.upd_acq, Kept.upd_disp, Kept.upd_mon, Kept.upd_tiu, Kept.upd_grove, Kept.upd_mem, Kept.upd_move, Kept.upd_ctl, Kept.upd_flt, Kept.upd_sec, Kept.upd_pwr, Kept.upd_host, Kept.upd_now, Kept.upd_freeNo]
    | split
    | intro _

theorem retireRank_kept (s : State) (q : Nat) (d : Nat) (byCmd : Bool) : Kept [.mem] s (retireRank s q d byCmd) := by
  unfold retireRank
  try dsimp only
  repeat' first
    | with_reducible exact Kept.refl _ _
    | with_reducible refine Kept.ite (fun _ => ?_) (fun _ => ?_)
    | with_reducible refine Kept.foldl' ?_ (fun a x => ?_)
    | with_reducible apply Kept.chain (State.modQuad_kept _ _ _) (by decide)
    | with_reducible simp (disch := first | decide | (with_unfolding_all constructor <;> first | exact Or.inl (by decide) | exact Or.inr rfl | (constructor <;> first | exact Or.inl (by decide) | exact Or.inr (And.intro rfl rfl)))) only [Kept.upd_mem, Kept.upd_host, Kept.upd_now, Kept.upd_freeNo]
    | split
    | intro _

theorem poisonLine_kept (s : State) (a : Nat) : Kept [.mem] s (poisonLine s a) := by
  unfold poisonLine
  try dsimp only
  repeat' first
    | with_reducible exact Kept.refl _ _
    | with_reducible refine Kept.ite (fun _ => ?_) (fun _ => ?_)
    | with_reducible refine Kept.foldl' ?_ (fun a x => ?_)
    | with_reducible simp (disch := first | decide | (with_unfolding_all constructor <;> first | exact Or.inl (by decide) | exact Or.inr rfl | (constructor <;> first | exact Or.inl (by decide) | exact Or.inr (And.intro rfl rfl)))) only [Kept.upd_mem, Kept.upd_host, Kept.upd_now, Kept.upd_freeNo]
    | split
    | intro _

theorem ueMark_kept (s : State) (l : Nat) (cmdErr : Bool) (i : FaultInfo) : Kept [.host, .fe, .cal, .spec, .acq, .disp, .mon, .tiu, .grove, .mem, .move, .ctl, .flt, .sec, .pwr] s (ueMark s l cmdErr i) := by
  unfold ueMark
  try dsimp only
  repeat' first
    | with_reducible exact Kept.refl _ _
    | with_reducible refine Kept.ite (fun _ => ?_) (fun _ => ?_)
    | with_reducible refine Kept.foldl' ?_ (fun a x => ?_)
    | with_reducible apply Kept.chain (poisonLine_kept _ _) (by decide)
    | with_reducible apply Kept.chain (post_kept _ _ _) (by decide)
    | with_reducible apply Kept.chain (raiseQuiet_kept _ _ _ (by first | (unfold quietSource; decide) | exact quiet_rank _ _ _ (by decide))) (by decide)
    | with_reducible simp (disch := first | decide | (with_unfolding_all constructor <;> first | exact Or.inl (by decide) | exact Or.inr rfl | (constructor <;> first | exact Or.inl (by decide) | exact Or.inr (And.intro rfl rfl)))) only [Kept.upd_fe, Kept.upd_cal, Kept.upd_spec, Kept.upd_acq, Kept.upd_disp, Kept.upd_mon, Kept.upd_tiu, Kept.upd_grove, Kept.upd_mem, Kept.upd_move, Kept.upd_ctl, Kept.upd_flt, Kept.upd_sec, Kept.upd_pwr, Kept.upd_host, Kept.upd_now, Kept.upd_freeNo]
    | split
    | intro _

theorem ueError_kept (s : State) (l : Nat) (cmdErr : Bool) (forced : Bool) (i : FaultInfo) : Kept [.host, .fe, .cal, .spec, .acq, .disp, .mon, .tiu, .grove, .mem, .move, .ctl, .flt, .sec, .pwr] s (ueError s l cmdErr forced i) := by
  unfold ueError
  try dsimp only
  repeat' first
    | with_reducible exact Kept.refl _ _
    | with_reducible refine Kept.ite (fun _ => ?_) (fun _ => ?_)
    | with_reducible refine Kept.foldl' ?_ (fun a x => ?_)
    | with_reducible apply Kept.chain (post_kept _ _ _) (by decide)
    | with_reducible apply Kept.chain (retireRank_kept _ _ _ _) (by decide)
    | with_reducible apply Kept.chain (ueMark_kept _ _ _ _) (by decide)
    | with_reducible simp (disch := first | decide | (with_unfolding_all constructor <;> first | exact Or.inl (by decide) | exact Or.inr rfl | (constructor <;> first | exact Or.inl (by decide) | exact Or.inr (And.intro rfl rfl)))) only [Kept.upd_fe, Kept.upd_cal, Kept.upd_spec, Kept.upd_acq, Kept.upd_disp, Kept.upd_mon, Kept.upd_tiu, Kept.upd_grove, Kept.upd_mem, Kept.upd_move, Kept.upd_ctl, Kept.upd_flt, Kept.upd_sec, Kept.upd_pwr, Kept.upd_host, Kept.upd_now, Kept.upd_freeNo]
    | split
    | intro _

theorem readLine_kept (s : State) (l : Nat) (rd : Reader) : Kept [.host, .fe, .cal, .spec, .acq, .disp, .mon, .tiu, .grove, .mem, .move, .ctl, .flt, .sec, .pwr] s ((readLine s l rd).2.2) := by
  unfold readLine
  try dsimp only
  repeat' first
    | with_reducible exact Kept.refl _ _
    | with_reducible refine Kept.ite (fun _ => ?_) (fun _ => ?_)
    | with_reducible refine Kept.foldp' ?_ (fun a x => ?_)
    | with_reducible refine Kept.foldq' ?_ (fun a x => ?_)
    | with_reducible refine Kept.foldl' ?_ (fun a x => ?_)
    | with_reducible apply Kept.chain (ceError_kept _ _ _ _) (by decide)
    | with_reducible apply Kept.chain (perfAdd_kept _ _ _ _) (by decide)
    | with_reducible apply Kept.chain (poisonPost_kept _ _ _) (by decide)
    | with_reducible apply Kept.chain (ueError_kept _ _ _ _ _) (by decide)
    | with_reducible simp (disch := first | decide | (with_unfolding_all constructor <;> first | exact Or.inl (by decide) | exact Or.inr rfl | (constructor <;> first | exact Or.inl (by decide) | exact Or.inr (And.intro rfl rfl)))) only [Kept.upd_fe, Kept.upd_cal, Kept.upd_spec, Kept.upd_acq, Kept.upd_disp, Kept.upd_mon, Kept.upd_tiu, Kept.upd_grove, Kept.upd_mem, Kept.upd_move, Kept.upd_ctl, Kept.upd_flt, Kept.upd_sec, Kept.upd_pwr, Kept.upd_host, Kept.upd_now, Kept.upd_freeNo]
    | split
    | intro _

theorem readLines_kept (rd : Reader) (x0 : Nat) (x1 : State) (x2 : Nat) : Kept [.host, .fe, .cal, .spec, .acq, .disp, .mon, .tiu, .grove, .mem, .move, .ctl, .flt, .sec, .pwr] x1 ((readLines rd x0 x1 x2).2.2) := by
  induction x0 generalizing x1 x2 with
  | zero => exact Kept.refl _ _
  | succ n ih =>
    have h := (readLine_kept x1 x2 rd).trans (ih (readLine x1 x2 rd).2.2 (x2 + 64))
    have e : (readLines rd (n + 1) x1 x2).2.2 = (readLines rd n (readLine x1 x2 rd).2.2 (x2 + 64)).2.2 := by rw [readLines]
    rw [e]; exact h

theorem memRead_kept (s : State) (a : Nat) (n : Nat) (rd : Reader) : Kept [.host, .fe, .cal, .spec, .acq, .disp, .mon, .tiu, .grove, .mem, .move, .ctl, .flt, .sec, .pwr] s ((memRead s a n rd).2.2) := by
  unfold memRead
  split
  · exact Kept.refl _ _
  · generalize (a + n - 1) / 64 - a / 64 + 1 = k
    dsimp only
    exact readLines_kept rd k s (lineOf a)

theorem ringRead_kept (s : State) (h : Nat) (pos : Nat) (n : Nat) (rd : Reader) : Kept [.host, .fe, .cal, .spec, .acq, .disp, .mon, .tiu, .grove, .mem, .move, .ctl, .flt, .sec, .pwr] s ((ringRead s h pos n rd).2.2) := (memRead_kept _ _ _ _).trans (memRead_kept _ _ _ _)

theorem recRing_kept (x0 : Nat) (x1 : State) (x2 : Nat) (x3 : Nat) : Kept [.host, .cmds, .fe, .cal, .spec, .acq, .disp, .mon, .tiu, .grove, .mem, .move, .ctl, .flt, .sec, .pwr] x1 (recRing x0 x1 x2 x3) := by
  induction x0 generalizing x1 x2 x3 with
  | zero => exact Kept.refl _ _
  | succ n ih =>
  unfold recRing
  dsimp only
  split
  · exact Kept.refl _ _
  · refine Kept.ite (fun _ => Kept.refl _ _) (fun _ => Kept.ite (fun _ => ?_) (fun _ => ?_))
    · refine Kept.trans ?_ (ih _ _ _)
      exact Kept.chain (ringAck_kept _ _ _) (by decide) (Kept.chain (modEntry_kept _ _) (by decide) (Kept.refl _ _))
    · rename_i len _ _ _ _
      have h1 := recMake_kept x1 (growth x1 x2 len) (chunkLen len)
      generalize recMake _ _ _ = o at h1 ⊢
      obtain ⟨s1, b⟩ := o
      cases b with
      | false => exact h1.mono (by decide)
      | true =>
        dsimp only at h1 ⊢
        refine Kept.trans ?_ (ih _ _ _)
        apply Kept.chain (ringAck_kept _ _ _) (by decide)
        apply Kept.chain (appendChunk_kept _ _ _ _ _ _) (by decide)
        apply Kept.chain (ringRead_kept _ _ _ _ _) (by decide)
        exact h1.mono (by decide)

theorem recPull_kept (s : State) : Kept [.host, .cmds, .fe, .cal, .spec, .acq, .disp, .mon, .tiu, .grove, .mem, .move, .ctl, .flt, .sec, .pwr] s (recPull s) := by
  unfold recPull
  try dsimp only
  repeat' first
    | with_reducible exact Kept.refl _ _
    | with_reducible refine Kept.ite (fun _ => ?_) (fun _ => ?_)
    | with_reducible refine Kept.foldl' ?_ (fun a x => ?_)
    | with_reducible apply Kept.chain (recFinish_kept _ _) (by decide)
    | with_reducible apply Kept.chain (recRing_kept _ _ _ _) (by decide)
    | with_reducible simp (disch := first | decide | (with_unfolding_all constructor <;> first | exact Or.inl (by decide) | exact Or.inr rfl | (constructor <;> first | exact Or.inl (by decide) | exact Or.inr (And.intro rfl rfl)))) only [Kept.upd_fe, Kept.upd_cal, Kept.upd_spec, Kept.upd_acq, Kept.upd_disp, Kept.upd_mon, Kept.upd_tiu, Kept.upd_grove, Kept.upd_mem, Kept.upd_move, Kept.upd_ctl, Kept.upd_flt, Kept.upd_sec, Kept.upd_pwr, Kept.upd_host, Kept.upd_now, Kept.upd_freeNo]
    | split
    | intro _

theorem ringDrop_kept (s : State) (h : Nat) : Kept [.mem] s (ringDrop s h) := by
  unfold ringDrop
  try dsimp only
  repeat' first
    | with_reducible exact Kept.refl _ _
    | with_reducible refine Kept.ite (fun _ => ?_) (fun _ => ?_)
    | with_reducible refine Kept.foldl' ?_ (fun a x => ?_)
    | with_reducible apply Kept.chain (State.modReg_kept _ _ _) (by decide)
    | with_reducible simp (disch := first | decide | (with_unfolding_all constructor <;> first | exact Or.inl (by decide) | exact Or.inr rfl | (constructor <;> first | exact Or.inl (by decide) | exact Or.inr (And.intro rfl rfl)))) only [Kept.upd_mem, Kept.upd_host, Kept.upd_now, Kept.upd_freeNo]
    | split
    | intro _

theorem ringHigh_kept (s : State) (h : Nat) : Kept [.mem] s (ringHigh s h) := by
  unfold ringHigh
  try dsimp only
  repeat' first
    | with_reducible exact Kept.refl _ _
    | with_reducible refine Kept.ite (fun _ => ?_) (fun _ => ?_)
    | with_reducible refine Kept.foldl' ?_ (fun a x => ?_)
    | with_reducible apply Kept.chain (State.setReg_kept _ _ _) (by decide)
    | with_reducible apply Kept.chain (post_kept _ _ _) (by decide)
    | with_reducible simp (disch := first | decide | (with_unfolding_all constructor <;> first | exact Or.inl (by decide) | exact Or.inr rfl | (constructor <;> first | exact Or.inl (by decide) | exact Or.inr (And.intro rfl rfl)))) only [Kept.upd_mem, Kept.upd_host, Kept.upd_now, Kept.upd_freeNo]
    | split
    | intro _

theorem ringPut_kept (s : State) (h : Nat) (bs : List Byte) : Kept [.mem] s (ringPut s h bs) := by
  unfold ringPut
  try dsimp only
  repeat' first
    | with_reducible exact Kept.refl _ _
    | with_reducible refine Kept.ite (fun _ => ?_) (fun _ => ?_)
    | with_reducible refine Kept.foldl' ?_ (fun a x => ?_)
    | with_reducible apply Kept.chain (State.modReg_kept _ _ _) (by decide)
    | with_reducible apply Kept.chain (memWrite_kept _ _ _) (by decide)
    | with_reducible apply Kept.chain (ringHigh_kept _ _) (by decide)
    | with_reducible simp (disch := first | decide | (with_unfolding_all constructor <;> first | exact Or.inl (by decide) | exact Or.inr rfl | (constructor <;> first | exact Or.inl (by decide) | exact Or.inr (And.intro rfl rfl)))) only [Kept.upd_mem, Kept.upd_host, Kept.upd_now, Kept.upd_freeNo]
    | split
    | intro _

theorem ringWrite_kept (s : State) (h : Nat) (bs : List Byte) : Kept [.mem] s ((ringWrite s h bs).1) := by
  unfold ringWrite
  try dsimp only
  repeat' first
    | with_reducible exact Kept.refl _ _
    | with_reducible refine Kept.ite (fun _ => ?_) (fun _ => ?_)
    | with_reducible refine Kept.foldp' ?_ (fun a x => ?_)
    | with_reducible refine Kept.foldq' ?_ (fun a x => ?_)
    | with_reducible refine Kept.foldl' ?_ (fun a x => ?_)
    | with_reducible apply Kept.chain (ringDrop_kept _ _) (by decide)
    | with_reducible apply Kept.chain (ringPut_kept _ _ _) (by decide)
    | with_reducible simp (disch := first | decide | (with_unfolding_all constructor <;> first | exact Or.inl (by decide) | exact Or.inr rfl | (constructor <;> first | exact Or.inl (by decide) | exact Or.inr (And.intro rfl rfl)))) only [Kept.upd_mem, Kept.upd_host, Kept.upd_now, Kept.upd_freeNo]
    | split
    | intro _

theorem traceWrite_kept (s : State) (id : Nat) (trunc : Bool) : Kept [.host, .cmds, .fe, .cal, .spec, .acq, .disp, .mon, .tiu, .grove, .mem, .move, .ctl, .flt, .sec, .pwr] s (traceWrite s id trunc) := by
  unfold traceWrite
  try dsimp only
  repeat' first
    | with_reducible exact Kept.refl _ _
    | with_reducible refine Kept.ite (fun _ => ?_) (fun _ => ?_)
    | with_reducible refine Kept.foldp' ?_ (fun a x => ?_)
    | with_reducible refine Kept.foldq' ?_ (fun a x => ?_)
    | with_reducible refine Kept.foldl' ?_ (fun a x => ?_)
    | with_reducible apply Kept.chain (ringWrite_kept _ _ _) (by decide)
    | with_reducible apply Kept.chain (State.setTrace_kept _ _ _) (by decide)
    | with_reducible apply Kept.chain (clearOnce_kept _ _) (by decide)
    | with_reducible apply Kept.chain (drained_kept _) (by decide)
    | with_reducible apply Kept.chain (post_kept _ _ _) (by decide)
    | with_reducible apply Kept.chain (recPull_kept _) (by decide)
    | with_reducible apply Kept.chain (Kept.pair (ringWrite_kept _ _ _) (by assumption)) (by decide)
    | with_reducible simp (disch := first | decide | (with_unfolding_all constructor <;> first | exact Or.inl (by decide) | exact Or.inr rfl | (constructor <;> first | exact Or.inl (by decide) | exact Or.inr (And.intro rfl rfl)))) only [Kept.upd_fe, Kept.upd_cal, Kept.upd_spec, Kept.upd_acq, Kept.upd_disp, Kept.upd_mon, Kept.upd_tiu, Kept.upd_grove, Kept.upd_mem, Kept.upd_move, Kept.upd_ctl, Kept.upd_flt, Kept.upd_sec, Kept.upd_pwr, Kept.upd_host, Kept.upd_now, Kept.upd_freeNo]
    | split
    | intro _

theorem laneTrunc_kept (s : State) (c : Nat) : Kept [.host, .cmds, .fe, .cal, .spec, .acq, .disp, .mon, .tiu, .grove, .mem, .move, .ctl, .flt, .sec, .pwr] s (laneTrunc s c) := by
  unfold laneTrunc
  try dsimp only
  repeat' first
    | with_reducible exact Kept.refl _ _
    | with_reducible refine Kept.ite (fun _ => ?_) (fun _ => ?_)
    | with_reducible refine Kept.foldl' ?_ (fun a x => ?_)
    | with_reducible apply Kept.chain (traceWrite_kept _ _ _) (by decide)
    | with_reducible simp (disch := first | decide | (with_unfolding_all constructor <;> first | exact Or.inl (by decide) | exact Or.inr rfl | (constructor <;> first | exact Or.inl (by decide) | exact Or.inr (And.intro rfl rfl)))) only [Kept.upd_fe, Kept.upd_cal, Kept.upd_spec, Kept.upd_acq, Kept.upd_disp, Kept.upd_mon, Kept.upd_tiu, Kept.upd_grove, Kept.upd_mem, Kept.upd_move, Kept.upd_ctl, Kept.upd_flt, Kept.upd_sec, Kept.upd_pwr, Kept.upd_host, Kept.upd_now, Kept.upd_freeNo]
    | split
    | intro _

theorem laneSkip_kept (x0 : Nat) (x1 : State) (x2 : Nat) : Kept [.host, .cmds, .fe, .cal, .spec, .acq, .disp, .mon, .tiu, .grove, .mem, .move, .ctl, .flt, .sec, .pwr] x1 (laneSkip x0 x1 x2) := by
  induction x0 generalizing x1 x2 with
  | zero => exact Kept.refl _ _
  | succ n ih =>
  unfold laneSkip
  try dsimp only
  repeat' first
    | with_reducible exact Kept.refl _ _
    | with_reducible refine Kept.ite (fun _ => ?_) (fun _ => ?_)
    | with_reducible refine Kept.foldl' ?_ (fun a x => ?_)
    | with_reducible apply Kept.chain (ih _ _) (by decide)
    | with_reducible apply Kept.chain (State.setLane_kept _ _ _) (by decide)
    | with_reducible apply Kept.chain (frontState_kept _ _) (by decide)
    | with_reducible apply Kept.chain (laneTrunc_kept _ _) (by decide)
    | with_reducible simp (disch := first | decide | (with_unfolding_all constructor <;> first | exact Or.inl (by decide) | exact Or.inr rfl | (constructor <;> first | exact Or.inl (by decide) | exact Or.inr (And.intro rfl rfl)))) only [Kept.upd_fe, Kept.upd_cal, Kept.upd_spec, Kept.upd_acq, Kept.upd_disp, Kept.upd_mon, Kept.upd_tiu, Kept.upd_grove, Kept.upd_mem, Kept.upd_move, Kept.upd_ctl, Kept.upd_flt, Kept.upd_sec, Kept.upd_pwr, Kept.upd_host, Kept.upd_now, Kept.upd_freeNo]
    | split
    | intro _

theorem laneFront_kept (s : State) (c : Nat) : Kept [.host, .cmds, .fe, .cal, .spec, .acq, .disp, .mon, .tiu, .grove, .mem, .move, .ctl, .flt, .sec, .pwr] s (laneFront s c) := by
  unfold laneFront
  try dsimp only
  repeat' first
    | with_reducible exact Kept.refl _ _
    | with_reducible refine Kept.ite (fun _ => ?_) (fun _ => ?_)
    | with_reducible refine Kept.foldl' ?_ (fun a x => ?_)
    | with_reducible apply Kept.chain (laneSkip_kept _ _ _) (by decide)
    | with_reducible simp (disch := first | decide | (with_unfolding_all constructor <;> first | exact Or.inl (by decide) | exact Or.inr rfl | (constructor <;> first | exact Or.inl (by decide) | exact Or.inr (And.intro rfl rfl)))) only [Kept.upd_fe, Kept.upd_cal, Kept.upd_spec, Kept.upd_acq, Kept.upd_disp, Kept.upd_mon, Kept.upd_tiu, Kept.upd_grove, Kept.upd_mem, Kept.upd_move, Kept.upd_ctl, Kept.upd_flt, Kept.upd_sec, Kept.upd_pwr, Kept.upd_host, Kept.upd_now, Kept.upd_freeNo]
    | split
    | intro _

theorem laneEnd_kept (s : State) (c : Nat) (id : Nat) (no : Nat) (lim : Nat) : Kept [.host, .cmds, .fe, .cal, .spec, .acq, .disp, .mon, .tiu, .grove, .mem, .move, .ctl, .flt, .sec, .pwr] s (laneEnd s c id no lim) := by
  unfold laneEnd
  try dsimp only
  repeat' first
    | with_reducible exact Kept.refl _ _
    | with_reducible refine Kept.ite (fun _ => ?_) (fun _ => ?_)
    | with_reducible refine Kept.foldl' ?_ (fun a x => ?_)
    | with_reducible apply Kept.chain (State.setLane_kept _ _ _) (by decide)
    | with_reducible apply Kept.chain (laneForget_kept _ _) (by decide)
    | with_reducible apply Kept.chain (laneFront_kept _ _) (by decide)
    | with_reducible simp (disch := first | decide | (with_unfolding_all constructor <;> first | exact Or.inl (by decide) | exact Or.inr rfl | (constructor <;> first | exact Or.inl (by decide) | exact Or.inr (And.intro rfl rfl)))) only [Kept.upd_fe, Kept.upd_cal, Kept.upd_spec, Kept.upd_acq, Kept.upd_disp, Kept.upd_mon, Kept.upd_tiu, Kept.upd_grove, Kept.upd_mem, Kept.upd_move, Kept.upd_ctl, Kept.upd_flt, Kept.upd_sec, Kept.upd_pwr, Kept.upd_host, Kept.upd_now, Kept.upd_freeNo]
    | split
    | intro _

end Sys2Proof.Machine
end

