-- ==== Sys2Proof/Laws/Frames3.lean ====
section
/-! SUPPORT. Frames of the shared operations (part 4 of 8): the parts of the engine that each can change, and, where the host interface is
not among them, that it changes only the event ring and its signals. -/

set_option linter.unusedTactic false
set_option linter.unreachableTactic false
set_option linter.unusedVariables false
set_option linter.unusedSimpArgs false

namespace Sys2Proof.Machine

theorem laneTruncDue_kept (s : State) (c : Nat) : Kept [.host, .cmds, .fe, .cal, .spec, .acq, .disp, .mon, .tiu, .grove, .mem, .move, .ctl, .flt, .sec, .pwr] s (laneTruncDue s c) := by
  unfold laneTruncDue
  try dsimp only
  repeat' first
    | with_reducible exact Kept.refl _ _
    | with_reducible refine Kept.ite (fun _ => ?_) (fun _ => ?_)
    | with_reducible refine Kept.foldl' ?_ (fun a x => ?_)
    | with_reducible apply Kept.chain (State.modLane_kept _ _ _) (by decide)
    | with_reducible apply Kept.chain (laneTrunc_kept _ _) (by decide)
    | with_reducible simp (disch := first | decide | (with_unfolding_all constructor <;> first | exact Or.inl (by decide) | exact Or.inr rfl | (constructor <;> first | exact Or.inl (by decide) | exact Or.inr (And.intro rfl rfl)))) only [Kept.upd_fe, Kept.upd_cal, Kept.upd_spec, Kept.upd_acq, Kept.upd_disp, Kept.upd_mon, Kept.upd_tiu, Kept.upd_grove, Kept.upd_mem, Kept.upd_move, Kept.upd_ctl, Kept.upd_flt, Kept.upd_sec, Kept.upd_pwr, Kept.upd_host, Kept.upd_now, Kept.upd_freeNo]
    | split
    | intro _

theorem epochChunk_kept (s : State) (j : Nat) (id : Nat) : Kept [.mem, .move] s (epochChunk s j id) := by
  unfold epochChunk
  try dsimp only
  repeat' first
    | with_reducible exact Kept.refl _ _
    | with_reducible refine Kept.ite (fun _ => ?_) (fun _ => ?_)
    | with_reducible refine Kept.foldl' ?_ (fun a x => ?_)
    | with_reducible apply Kept.chain (closeSource_kept _ _) (by decide)
    | with_reducible apply Kept.chain (placeChunk_kept _ _) (by decide)
    | with_reducible simp (disch := first | decide | (with_unfolding_all constructor <;> first | exact Or.inl (by decide) | exact Or.inr rfl | (constructor <;> first | exact Or.inl (by decide) | exact Or.inr (And.intro rfl rfl)))) only [Kept.upd_mem, Kept.upd_move, Kept.upd_host, Kept.upd_now, Kept.upd_freeNo]
    | split
    | intro _

theorem recBegin_kept (s : State) (id : Nat) : Kept [.cmds, .mem, .move, .flt, .sec] s (recBegin s id) := by
  unfold recBegin
  try dsimp only
  repeat' first
    | with_reducible exact Kept.refl _ _
    | with_reducible refine Kept.ite (fun _ => ?_) (fun _ => ?_)
    | with_reducible refine Kept.foldp' ?_ (fun a x => ?_)
    | with_reducible refine Kept.foldq' ?_ (fun a x => ?_)
    | with_reducible refine Kept.foldl' ?_ (fun a x => ?_)
    | with_reducible apply Kept.chain (recMake_kept _ _ _) (by decide)
    | with_reducible apply Kept.chain (epochChunk_kept _ _ _) (by decide)
    | with_reducible apply Kept.chain (Kept.pair (recMake_kept _ _ _) (by assumption)) (by decide)
    | with_reducible simp (disch := first | decide | (with_unfolding_all constructor <;> first | exact Or.inl (by decide) | exact Or.inr rfl | (constructor <;> first | exact Or.inl (by decide) | exact Or.inr (And.intro rfl rfl)))) only [Kept.upd_mem, Kept.upd_move, Kept.upd_flt, Kept.upd_sec, Kept.upd_host, Kept.upd_now, Kept.upd_freeNo]
    | split
    | intro _

theorem recEpoch_kept (s : State) (id : Nat) : Kept [.cmds, .mem, .move, .flt, .sec] s (recEpoch s id) := by
  unfold recEpoch
  try dsimp only
  repeat' first
    | with_reducible exact Kept.refl _ _
    | with_reducible refine Kept.ite (fun _ => ?_) (fun _ => ?_)
    | with_reducible refine Kept.foldl' ?_ (fun a x => ?_)
    | with_reducible apply Kept.chain (closeSource_kept _ _) (by decide)
    | with_reducible apply Kept.chain (recFinish_kept _ _) (by decide)
    | with_reducible simp (disch := first | decide | (with_unfolding_all constructor <;> first | exact Or.inl (by decide) | exact Or.inr rfl | (constructor <;> first | exact Or.inl (by decide) | exact Or.inr (And.intro rfl rfl)))) only [Kept.upd_mem, Kept.upd_move, Kept.upd_flt, Kept.upd_sec, Kept.upd_host, Kept.upd_now, Kept.upd_freeNo]
    | split
    | intro _

theorem streamClose_kept (s : State) (c : Nat) (short : Bool) : Kept [.mem, .move] s (streamClose s c short) := by
  unfold streamClose
  try dsimp only
  repeat' first
    | with_reducible exact Kept.refl _ _
    | with_reducible refine Kept.ite (fun _ => ?_) (fun _ => ?_)
    | with_reducible refine Kept.foldl' ?_ (fun a x => ?_)
    | with_reducible apply Kept.chain (State.setDma_kept _ _ _) (by decide)
    | with_reducible apply Kept.chain (ringPut_kept _ _ _) (by decide)
    | with_reducible simp (disch := first | decide | (with_unfolding_all constructor <;> first | exact Or.inl (by decide) | exact Or.inr rfl | (constructor <;> first | exact Or.inl (by decide) | exact Or.inr (And.intro rfl rfl)))) only [Kept.upd_mem, Kept.upd_move, Kept.upd_host, Kept.upd_now, Kept.upd_freeNo]
    | split
    | intro _

theorem endAt_kept (s : State) (k : Nat) (id : Nat) (no : Nat) (lim : Nat) : Kept [.host, .cmds, .fe, .cal, .spec, .acq, .disp, .mon, .tiu, .grove, .mem, .move, .ctl, .flt, .sec, .pwr] s (endAt s k id no lim) := by
  unfold endAt
  try dsimp only
  repeat' first
    | with_reducible exact Kept.refl _ _
    | with_reducible refine Kept.ite (fun _ => ?_) (fun _ => ?_)
    | with_reducible refine Kept.foldl' ?_ (fun a x => ?_)
    | with_reducible apply Kept.chain (State.modDma_kept _ _ _) (by decide)
    | with_reducible apply Kept.chain (State.modFeed_kept _ _ _) (by decide)
    | with_reducible apply Kept.chain (clearTerms_kept _ _) (by decide)
    | with_reducible apply Kept.chain (feedEpochEnd_kept _ _) (by decide)
    | with_reducible apply Kept.chain (laneEnd_kept _ _ _ _ _) (by decide)
    | with_reducible apply Kept.chain (laneTruncDue_kept _ _) (by decide)
    | with_reducible apply Kept.chain (recBegin_kept _ _) (by decide)
    | with_reducible apply Kept.chain (recEpoch_kept _ _) (by decide)
    | with_reducible apply Kept.chain (streamClose_kept _ _ _) (by decide)
    | with_reducible simp (disch := first | decide | (with_unfolding_all constructor <;> first | exact Or.inl (by decide) | exact Or.inr rfl | (constructor <;> first | exact Or.inl (by decide) | exact Or.inr (And.intro rfl rfl)))) only [Kept.upd_fe, Kept.upd_cal, Kept.upd_spec, Kept.upd_acq, Kept.upd_disp, Kept.upd_mon, Kept.upd_tiu, Kept.upd_grove, Kept.upd_mem, Kept.upd_move, Kept.upd_ctl, Kept.upd_flt, Kept.upd_sec, Kept.upd_pwr, Kept.upd_host, Kept.upd_now, Kept.upd_freeNo]
    | split
    | intro _

theorem leadEdge_kept (s : State) (n : Nat) (t : Tick) : Kept [.host, .cmds, .fe, .cal, .spec, .acq, .disp, .mon, .tiu, .grove, .mem, .move, .ctl, .flt, .sec, .pwr] s (leadEdge s n t) := by
  unfold leadEdge
  try dsimp only
  repeat' first
    | with_reducible exact Kept.refl _ _
    | with_reducible refine Kept.ite (fun _ => ?_) (fun _ => ?_)
    | with_reducible refine Kept.foldl' ?_ (fun a x => ?_)
    | with_reducible apply Kept.chain (State.setPin_kept _ _ _) (by decide)
    | with_reducible apply Kept.chain (drivePin_kept _ _) (by decide)
    | with_reducible apply Kept.chain (endAt_kept _ _ _ _ _) (by decide)
    | with_reducible apply Kept.chain (evtDropped_kept _ _) (by decide)
    | with_reducible simp (disch := first | decide | (with_unfolding_all constructor <;> first | exact Or.inl (by decide) | exact Or.inr rfl | (constructor <;> first | exact Or.inl (by decide) | exact Or.inr (And.intro rfl rfl)))) only [Kept.upd_fe, Kept.upd_cal, Kept.upd_spec, Kept.upd_acq, Kept.upd_disp, Kept.upd_mon, Kept.upd_tiu, Kept.upd_grove, Kept.upd_mem, Kept.upd_move, Kept.upd_ctl, Kept.upd_flt, Kept.upd_sec, Kept.upd_pwr, Kept.upd_host, Kept.upd_now, Kept.upd_freeNo]
    | split
    | intro _

theorem pulse_kept (s : State) (a : Nat) (src : Nat) (idx : Nat) (T : Stamp) : Kept [.host, .cmds, .fe, .cal, .spec, .acq, .disp, .mon, .tiu, .grove, .mem, .move, .ctl, .flt, .sec, .pwr] s (pulse s a src idx T) := by
  unfold pulse
  try dsimp only
  repeat' first
    | with_reducible exact Kept.refl _ _
    | with_reducible refine Kept.ite (fun _ => ?_) (fun _ => ?_)
    | with_reducible refine Kept.foldl' ?_ (fun a x => ?_)
    | with_reducible apply Kept.chain (State.setPin_kept _ _ _) (by decide)
    | with_reducible apply Kept.chain (evtDropped_kept _ _) (by decide)
    | with_reducible apply Kept.chain (leadEdge_kept _ _ _) (by decide)
    | with_reducible simp (disch := first | decide | (with_unfolding_all constructor <;> first | exact Or.inl (by decide) | exact Or.inr rfl | (constructor <;> first | exact Or.inl (by decide) | exact Or.inr (And.intro rfl rfl)))) only [Kept.upd_fe, Kept.upd_cal, Kept.upd_spec, Kept.upd_acq, Kept.upd_disp, Kept.upd_mon, Kept.upd_tiu, Kept.upd_grove, Kept.upd_mem, Kept.upd_move, Kept.upd_ctl, Kept.upd_flt, Kept.upd_sec, Kept.upd_pwr, Kept.upd_host, Kept.upd_now, Kept.upd_freeNo]
    | split
    | intro _

theorem openPost_kept (s : State) (a : Nat) (T : Stamp) (terms : Nat) (forced : Bool) : Kept [.acq, .mem, .move] s (openPost s a T terms forced) := by
  unfold openPost
  try dsimp only
  repeat' first
    | with_reducible exact Kept.refl _ _
    | with_reducible refine Kept.ite (fun _ => ?_) (fun _ => ?_)
    | with_reducible refine Kept.foldl' ?_ (fun a x => ?_)
    | with_reducible apply Kept.chain (State.modAu_kept _ _ _) (by decide)
    | with_reducible apply Kept.chain (closeReached_kept _ _) (by decide)
    | with_reducible apply Kept.chain (setAcqSt_kept _ _ _) (by decide)
    | with_reducible simp (disch := first | decide | (with_unfolding_all constructor <;> first | exact Or.inl (by decide) | exact Or.inr rfl | (constructor <;> first | exact Or.inl (by decide) | exact Or.inr (And.intro rfl rfl)))) only [Kept.upd_acq, Kept.upd_mem, Kept.upd_move, Kept.upd_host, Kept.upd_now, Kept.upd_freeNo]
    | split
    | intro _

theorem stopPoint_kept (s : State) (a : Nat) (T : Stamp) (forced : Bool) : Kept [.acq, .mem, .move] s (stopPoint s a T forced) := by
  unfold stopPoint
  try dsimp only
  repeat' first
    | with_reducible exact Kept.refl _ _
    | with_reducible refine Kept.ite (fun _ => ?_) (fun _ => ?_)
    | with_reducible refine Kept.foldl' ?_ (fun a x => ?_)
    | with_reducible apply Kept.chain (openPost_kept _ _ _ _ _) (by decide)
    | with_reducible simp (disch := first | decide | (with_unfolding_all constructor <;> first | exact Or.inl (by decide) | exact Or.inr rfl | (constructor <;> first | exact Or.inl (by decide) | exact Or.inr (And.intro rfl rfl)))) only [Kept.upd_acq, Kept.upd_mem, Kept.upd_move, Kept.upd_host, Kept.upd_now, Kept.upd_freeNo]
    | split
    | intro _

theorem violation_kept (s : State) (a : Nat) (k : Nat) (T : Stamp) : Kept [.host, .cmds, .fe, .cal, .spec, .acq, .disp, .mon, .tiu, .grove, .mem, .move, .ctl, .flt, .sec, .pwr] s (violation s a k T) := by
  unfold violation
  try dsimp only
  repeat' first
    | with_reducible exact Kept.refl _ _
    | with_reducible refine Kept.ite (fun _ => ?_) (fun _ => ?_)
    | with_reducible refine Kept.foldl' ?_ (fun a x => ?_)
    | with_reducible apply Kept.chain (State.modAu_kept _ _ _) (by decide)
    | with_reducible apply Kept.chain (State.setAu_kept _ _ _) (by decide)
    | with_reducible apply Kept.chain (acqEnd_kept _ _ _) (by decide)
    | with_reducible apply Kept.chain (pulse_kept _ _ _ _ _) (by decide)
    | with_reducible apply Kept.chain (stopPoint_kept _ _ _ _) (by decide)
    | with_reducible simp (disch := first | decide | (with_unfolding_all constructor <;> first | exact Or.inl (by decide) | exact Or.inr rfl | (constructor <;> first | exact Or.inl (by decide) | exact Or.inr (And.intro rfl rfl)))) only [Kept.upd_fe, Kept.upd_cal, Kept.upd_spec, Kept.upd_acq, Kept.upd_disp, Kept.upd_mon, Kept.upd_tiu, Kept.upd_grove, Kept.upd_mem, Kept.upd_move, Kept.upd_ctl, Kept.upd_flt, Kept.upd_sec, Kept.upd_pwr, Kept.upd_host, Kept.upd_now, Kept.upd_freeNo]
    | split
    | intro _

theorem timeVerdict_kept (s : State) (a : Nat) (k : Nat) (d : List Nat) : Kept [.host, .cmds, .fe, .cal, .spec, .acq, .disp, .mon, .tiu, .grove, .mem, .move, .ctl, .flt, .sec, .pwr] s (timeVerdict s a k d) := by
  unfold timeVerdict
  try dsimp only
  repeat' first
    | with_reducible exact Kept.refl _ _
    | with_reducible refine Kept.ite (fun _ => ?_) (fun _ => ?_)
    | with_reducible refine Kept.foldl' ?_ (fun a x => ?_)
    | with_reducible apply Kept.chain (memWrite_kept _ _ _) (by decide)
    | with_reducible apply Kept.chain (post_kept _ _ _) (by decide)
    | with_reducible apply Kept.chain (violation_kept _ _ _ _) (by decide)
    | with_reducible simp (disch := first | decide | (with_unfolding_all constructor <;> first | exact Or.inl (by decide) | exact Or.inr rfl | (constructor <;> first | exact Or.inl (by decide) | exact Or.inr (And.intro rfl rfl)))) only [Kept.upd_fe, Kept.upd_cal, Kept.upd_spec, Kept.upd_acq, Kept.upd_disp, Kept.upd_mon, Kept.upd_tiu, Kept.upd_grove, Kept.upd_mem, Kept.upd_move, Kept.upd_ctl, Kept.upd_flt, Kept.upd_sec, Kept.upd_pwr, Kept.upd_host, Kept.upd_now, Kept.upd_freeNo]
    | split
    | intro _

theorem acceptTrigger_kept (s : State) (a : Nat) (T : Stamp) (terms : Nat) (forced : Bool) : Kept [.host, .cmds, .fe, .cal, .spec, .acq, .disp, .mon, .tiu, .grove, .mem, .move, .ctl, .flt, .sec, .pwr] s (acceptTrigger s a T terms forced) := by
  unfold acceptTrigger
  try dsimp only
  repeat' first
    | with_reducible exact Kept.refl _ _
    | with_reducible refine Kept.ite (fun _ => ?_) (fun _ => ?_)
    | with_reducible refine Kept.foldl' ?_ (fun a x => ?_)
    | with_reducible apply Kept.chain (State.setAu_kept _ _ _) (by decide)
    | with_reducible apply Kept.chain (openPost_kept _ _ _ _ _) (by decide)
    | with_reducible apply Kept.chain (perfAdd_kept _ _ _ _) (by decide)
    | with_reducible apply Kept.chain (post_kept _ _ _) (by decide)
    | with_reducible apply Kept.chain (pulse_kept _ _ _ _ _) (by decide)
    | with_reducible simp (disch := first | decide | (with_unfolding_all constructor <;> first | exact Or.inl (by decide) | exact Or.inr rfl | (constructor <;> first | exact Or.inl (by decide) | exact Or.inr (And.intro rfl rfl)))) only [Kept.upd_fe, Kept.upd_cal, Kept.upd_spec, Kept.upd_acq, Kept.upd_disp, Kept.upd_mon, Kept.upd_tiu, Kept.upd_grove, Kept.upd_mem, Kept.upd_move, Kept.upd_ctl, Kept.upd_flt, Kept.upd_sec, Kept.upd_pwr, Kept.upd_host, Kept.upd_now, Kept.upd_freeNo]
    | split
    | intro _

theorem trigger_kept (s : State) (a : Nat) (T : Stamp) (terms : Nat) : Kept [.host, .cmds, .fe, .cal, .spec, .acq, .disp, .mon, .tiu, .grove, .mem, .move, .ctl, .flt, .sec, .pwr] s (trigger s a T terms) := by
  unfold trigger
  try dsimp only
  repeat' first
    | with_reducible exact Kept.refl _ _
    | with_reducible refine Kept.ite (fun _ => ?_) (fun _ => ?_)
    | with_reducible refine Kept.foldl' ?_ (fun a x => ?_)
    | with_reducible apply Kept.chain (State.setAu_kept _ _ _) (by decide)
    | with_reducible apply Kept.chain (acceptTrigger_kept _ _ _ _ _) (by decide)
    | with_reducible simp (disch := first | decide | (with_unfolding_all constructor <;> first | exact Or.inl (by decide) | exact Or.inr rfl | (constructor <;> first | exact Or.inl (by decide) | exact Or.inr (And.intro rfl rfl)))) only [Kept.upd_fe, Kept.upd_cal, Kept.upd_spec, Kept.upd_acq, Kept.upd_disp, Kept.upd_mon, Kept.upd_tiu, Kept.upd_grove, Kept.upd_mem, Kept.upd_move, Kept.upd_ctl, Kept.upd_flt, Kept.upd_sec, Kept.upd_pwr, Kept.upd_host, Kept.upd_now, Kept.upd_freeNo]
    | split
    | intro _

theorem abortStream_kept (s : State) (id : Nat) (reason : Nat) : Kept [.acq, .mem, .move] s (abortStream s id reason) := by
  unfold abortStream
  try dsimp only
  repeat' first
    | with_reducible exact Kept.refl _ _
    | with_reducible refine Kept.ite (fun _ => ?_) (fun _ => ?_)
    | with_reducible refine Kept.foldl' ?_ (fun a x => ?_)
    | with_reducible apply Kept.chain (abortWhere_kept _ _ _) (by decide)
    | with_reducible simp (disch := first | decide | (with_unfolding_all constructor <;> first | exact Or.inl (by decide) | exact Or.inr rfl | (constructor <;> first | exact Or.inl (by decide) | exact Or.inr (And.intro rfl rfl)))) only [Kept.upd_acq, Kept.upd_mem, Kept.upd_move, Kept.upd_host, Kept.upd_now, Kept.upd_freeNo]
    | split
    | intro _

theorem combine_kept (s : State) (a : Nat) (T : Stamp) (k : Nat) : Kept [.host, .cmds, .fe, .cal, .spec, .acq, .disp, .mon, .tiu, .grove, .mem, .move, .ctl, .flt, .sec, .pwr] s (combine s a T k) := by
  unfold combine
  try dsimp only
  repeat' first
    | with_reducible exact Kept.refl _ _
    | with_reducible refine Kept.ite (fun _ => ?_) (fun _ => ?_)
    | with_reducible refine Kept.foldl' ?_ (fun a x => ?_)
    | with_reducible apply Kept.chain (State.setAu_kept _ _ _) (by decide)
    | with_reducible apply Kept.chain (trigger_kept _ _ _ _) (by decide)
    | with_reducible simp (disch := first | decide | (with_unfolding_all constructor <;> first | exact Or.inl (by decide) | exact Or.inr rfl | (constructor <;> first | exact Or.inl (by decide) | exact Or.inr (And.intro rfl rfl)))) only [Kept.upd_fe, Kept.upd_cal, Kept.upd_spec, Kept.upd_acq, Kept.upd_disp, Kept.upd_mon, Kept.upd_tiu, Kept.upd_grove, Kept.upd_mem, Kept.upd_move, Kept.upd_ctl, Kept.upd_flt, Kept.upd_sec, Kept.upd_pwr, Kept.upd_host, Kept.upd_now, Kept.upd_freeNo]
    | split
    | intro _

theorem drainQueue_kept (x0 : Nat) (x1 : State) (x2 : Nat) : Kept [.host, .cmds, .fe, .cal, .spec, .acq, .disp, .mon, .tiu, .grove, .mem, .move, .ctl, .flt, .sec, .pwr] x1 (drainQueue x0 x1 x2) := by
  induction x0 generalizing x1 x2 with
  | zero => exact Kept.refl _ _
  | succ n ih =>
  unfold drainQueue
  try dsimp only
  repeat' first
    | with_reducible exact Kept.refl _ _
    | with_reducible refine Kept.ite (fun _ => ?_) (fun _ => ?_)
    | with_reducible refine Kept.foldl' ?_ (fun a x => ?_)
    | with_reducible apply Kept.chain (ih _ _) (by decide)
    | with_reducible apply Kept.chain (State.setAu_kept _ _ _) (by decide)
    | with_reducible apply Kept.chain (combine_kept _ _ _ _) (by decide)
    | with_reducible simp (disch := first | decide | (with_unfolding_all constructor <;> first | exact Or.inl (by decide) | exact Or.inr rfl | (constructor <;> first | exact Or.inl (by decide) | exact Or.inr (And.intro rfl rfl)))) only [Kept.upd_fe, Kept.upd_cal, Kept.upd_spec, Kept.upd_acq, Kept.upd_disp, Kept.upd_mon, Kept.upd_tiu, Kept.upd_grove, Kept.upd_mem, Kept.upd_move, Kept.upd_ctl, Kept.upd_flt, Kept.upd_sec, Kept.upd_pwr, Kept.upd_host, Kept.upd_now, Kept.upd_freeNo]
    | split
    | intro _

theorem termProgress_kept (s : State) (a : Nat) (k : Nat) (T : Stamp) : Kept [.host, .cmds, .fe, .cal, .spec, .acq, .disp, .mon, .tiu, .grove, .mem, .move, .ctl, .flt, .sec, .pwr] s (termProgress s a k T) := by
  unfold termProgress
  try dsimp only
  repeat' first
    | with_reducible exact Kept.refl _ _
    | with_reducible refine Kept.ite (fun _ => ?_) (fun _ => ?_)
    | with_reducible refine Kept.foldl' ?_ (fun a x => ?_)
    | with_reducible apply Kept.chain (State.modTerm_kept _ _ _) (by decide)
    | with_reducible apply Kept.chain (drainQueue_kept _ _ _) (by decide)
    | with_reducible simp (disch := first | decide | (with_unfolding_all constructor <;> first | exact Or.inl (by decide) | exact Or.inr rfl | (constructor <;> first | exact Or.inl (by decide) | exact Or.inr (And.intro rfl rfl)))) only [Kept.upd_fe, Kept.upd_cal, Kept.upd_spec, Kept.upd_acq, Kept.upd_disp, Kept.upd_mon, Kept.upd_tiu, Kept.upd_grove, Kept.upd_mem, Kept.upd_move, Kept.upd_ctl, Kept.upd_flt, Kept.upd_sec, Kept.upd_pwr, Kept.upd_host, Kept.upd_now, Kept.upd_freeNo]
    | split
    | intro _

theorem termEvent_kept (s : State) (a : Nat) (k : Nat) (T : Stamp) : Kept [.host, .cmds, .fe, .cal, .spec, .acq, .disp, .mon, .tiu, .grove, .mem, .move, .ctl, .flt, .sec, .pwr] s (termEvent s a k T) := by
  unfold termEvent
  try dsimp only
  repeat' first
    | with_reducible exact Kept.refl _ _
    | with_reducible refine Kept.ite (fun _ => ?_) (fun _ => ?_)
    | with_reducible refine Kept.foldl' ?_ (fun a x => ?_)
    | with_reducible apply Kept.chain (State.modAu_kept _ _ _) (by decide)
    | with_reducible apply Kept.chain (pulse_kept _ _ _ _ _) (by decide)
    | with_reducible apply Kept.chain (trigger_kept _ _ _ _) (by decide)
    | with_reducible simp (disch := first | decide | (with_unfolding_all constructor <;> first | exact Or.inl (by decide) | exact Or.inr rfl | (constructor <;> first | exact Or.inl (by decide) | exact Or.inr (And.intro rfl rfl)))) only [Kept.upd_fe, Kept.upd_cal, Kept.upd_spec, Kept.upd_acq, Kept.upd_disp, Kept.upd_mon, Kept.upd_tiu, Kept.upd_grove, Kept.upd_mem, Kept.upd_move, Kept.upd_ctl, Kept.upd_flt, Kept.upd_sec, Kept.upd_pwr, Kept.upd_host, Kept.upd_now, Kept.upd_freeNo]
    | split
    | intro _

theorem crossTime_kept (s : State) (id : Nat) (j : Nat) (prev : Option Int) (v : Int) (X : Int) : Kept [] s ((crossTime s id j prev v X).2) := by
  unfold crossTime
  try dsimp only
  repeat' first
    | with_reducible exact Kept.refl _ _
    | with_reducible refine Kept.ite (fun _ => ?_) (fun _ => ?_)
    | with_reducible refine Kept.foldp' ?_ (fun a x => ?_)
    | with_reducible refine Kept.foldq' ?_ (fun a x => ?_)
    | with_reducible refine Kept.foldl' ?_ (fun a x => ?_)
    | with_reducible apply Kept.chain (drawFree_kept _ _) (by decide)
    | with_reducible simp (disch := first | decide | (with_unfolding_all constructor <;> first | exact Or.inl (by decide) | exact Or.inr rfl | (constructor <;> first | exact Or.inl (by decide) | exact Or.inr (And.intro rfl rfl)))) only [Kept.upd_host, Kept.upd_now, Kept.upd_freeNo]
    | split
    | intro _

theorem termGrain_kept (s : State) (a : Nat) (k : Nat) (id : Nat) (n : Nat) (flags : Nat) (samples : List Int) : Kept [.host, .cmds, .fe, .cal, .spec, .acq, .disp, .mon, .tiu, .grove, .mem, .move, .ctl, .flt, .sec, .pwr] s (termGrain s a k id n flags samples) := by
  unfold termGrain
  try dsimp only
  repeat' first
    | with_reducible exact Kept.refl _ _
    | with_reducible refine Kept.ite (fun _ => ?_) (fun _ => ?_)
    | with_reducible refine Kept.foldp' ?_ (fun a x => ?_)
    | with_reducible refine Kept.foldq' ?_ (fun a x => ?_)
    | with_reducible refine Kept.foldl' ?_ (fun a x => ?_)
    | with_reducible apply Kept.chain (crossTime_kept _ _ _ _ _ _) (by decide)
    | with_reducible apply Kept.chain (State.setTerm_kept _ _ _) (by decide)
    | with_reducible apply Kept.chain (termEvent_kept _ _ _ _) (by decide)
    | with_reducible apply Kept.chain (termProgress_kept _ _ _ _) (by decide)
    | with_reducible simp (disch := first | decide | (with_unfolding_all constructor <;> first | exact Or.inl (by decide) | exact Or.inr rfl | (constructor <;> first | exact Or.inl (by decide) | exact Or.inr (And.intro rfl rfl)))) only [Kept.upd_fe, Kept.upd_cal, Kept.upd_spec, Kept.upd_acq, Kept.upd_disp, Kept.upd_mon, Kept.upd_tiu, Kept.upd_grove, Kept.upd_mem, Kept.upd_move, Kept.upd_ctl, Kept.upd_flt, Kept.upd_sec, Kept.upd_pwr, Kept.upd_host, Kept.upd_now, Kept.upd_freeNo]
    | split
    | intro _

theorem grainTerms_kept (s : State) (id : Nat) (n : Nat) (flags : Nat) (samples : List Int) : Kept [.host, .cmds, .fe, .cal, .spec, .acq, .disp, .mon, .tiu, .grove, .mem, .move, .ctl, .flt, .sec, .pwr] s (grainTerms s id n flags samples) := by
  unfold grainTerms
  try dsimp only
  repeat' first
    | with_reducible exact Kept.refl _ _
    | with_reducible refine Kept.ite (fun _ => ?_) (fun _ => ?_)
    | with_reducible refine Kept.foldl' ?_ (fun a x => ?_)
    | with_reducible apply Kept.chain (termGrain_kept _ _ _ _ _ _ _) (by decide)
    | with_reducible simp (disch := first | decide | (with_unfolding_all constructor <;> first | exact Or.inl (by decide) | exact Or.inr rfl | (constructor <;> first | exact Or.inl (by decide) | exact Or.inr (And.intro rfl rfl)))) only [Kept.upd_fe, Kept.upd_cal, Kept.upd_spec, Kept.upd_acq, Kept.upd_disp, Kept.upd_mon, Kept.upd_tiu, Kept.upd_grove, Kept.upd_mem, Kept.upd_move, Kept.upd_ctl, Kept.upd_flt, Kept.upd_sec, Kept.upd_pwr, Kept.upd_host, Kept.upd_now, Kept.upd_freeNo]
    | split
    | intro _

theorem externalTerms_kept (s : State) (n : Nat) (fall : Bool) (T : Stamp) : Kept [.host, .cmds, .fe, .cal, .spec, .acq, .disp, .mon, .tiu, .grove, .mem, .move, .ctl, .flt, .sec, .pwr] s (externalTerms s n fall T) := by
  unfold externalTerms
  try dsimp only
  repeat' first
    | with_reducible exact Kept.refl _ _
    | with_reducible refine Kept.ite (fun _ => ?_) (fun _ => ?_)
    | with_reducible refine Kept.foldl' ?_ (fun a x => ?_)
    | with_reducible apply Kept.chain (termEvent_kept _ _ _ _) (by decide)
    | with_reducible apply Kept.chain (termProgress_kept _ _ _ _) (by decide)
    | with_reducible simp (disch := first | decide | (with_unfolding_all constructor <;> first | exact Or.inl (by decide) | exact Or.inr rfl | (constructor <;> first | exact Or.inl (by decide) | exact Or.inr (And.intro rfl rfl)))) only [Kept.upd_fe, Kept.upd_cal, Kept.upd_spec, Kept.upd_acq, Kept.upd_disp, Kept.upd_mon, Kept.upd_tiu, Kept.upd_grove, Kept.upd_mem, Kept.upd_move, Kept.upd_ctl, Kept.upd_flt, Kept.upd_sec, Kept.upd_pwr, Kept.upd_host, Kept.upd_now, Kept.upd_freeNo]
    | split
    | intro _

theorem monitorTerms_kept (s : State) (c : Nat) (code : Nat) (T : Stamp) (e : Epoch) (flags : Nat) : Kept [.host, .cmds, .fe, .cal, .spec, .acq, .disp, .mon, .tiu, .grove, .mem, .move, .ctl, .flt, .sec, .pwr] s (monitorTerms s c code T e flags) := by
  unfold monitorTerms
  try dsimp only
  repeat' first
    | with_reducible exact Kept.refl _ _
    | with_reducible refine Kept.ite (fun _ => ?_) (fun _ => ?_)
    | with_reducible refine Kept.foldl' ?_ (fun a x => ?_)
    | with_reducible apply Kept.chain (termEvent_kept _ _ _ _) (by decide)
    | with_reducible simp (disch := first | decide | (with_unfolding_all constructor <;> first | exact Or.inl (by decide) | exact Or.inr rfl | (constructor <;> first | exact Or.inl (by decide) | exact Or.inr (And.intro rfl rfl)))) only [Kept.upd_fe, Kept.upd_cal, Kept.upd_spec, Kept.upd_acq, Kept.upd_disp, Kept.upd_mon, Kept.upd_tiu, Kept.upd_grove, Kept.upd_mem, Kept.upd_move, Kept.upd_ctl, Kept.upd_flt, Kept.upd_sec, Kept.upd_pwr, Kept.upd_host, Kept.upd_now, Kept.upd_freeNo]
    | split
    | intro _

theorem typeProgress_kept (s : State) (ty : Nat) (T : Term → Stamp) : Kept [.host, .cmds, .fe, .cal, .spec, .acq, .disp, .mon, .tiu, .grove, .mem, .move, .ctl, .flt, .sec, .pwr] s (typeProgress s ty T) := by
  unfold typeProgress
  try dsimp only
  repeat' first
    | with_reducible exact Kept.refl _ _
    | with_reducible refine Kept.ite (fun _ => ?_) (fun _ => ?_)
    | with_reducible refine Kept.foldl' ?_ (fun a x => ?_)
    | with_reducible apply Kept.chain (termProgress_kept _ _ _ _) (by decide)
    | with_reducible simp (disch := first | decide | (with_unfolding_all constructor <;> first | exact Or.inl (by decide) | exact Or.inr rfl | (constructor <;> first | exact Or.inl (by decide) | exact Or.inr (And.intro rfl rfl)))) only [Kept.upd_fe, Kept.upd_cal, Kept.upd_spec, Kept.upd_acq, Kept.upd_disp, Kept.upd_mon, Kept.upd_tiu, Kept.upd_grove, Kept.upd_mem, Kept.upd_move, Kept.upd_ctl, Kept.upd_flt, Kept.upd_sec, Kept.upd_pwr, Kept.upd_host, Kept.upd_now, Kept.upd_freeNo]
    | split
    | intro _

theorem captureGrain_kept (s : State) (a : Nat) (i : Nat) (n : Nat) (flags : Nat) (data : List Byte) : Kept [.acq, .mem, .move] s (captureGrain s a i n flags data) := by
  unfold captureGrain
  try dsimp only
  repeat' first
    | with_reducible exact Kept.refl _ _
    | with_reducible refine Kept.ite (fun _ => ?_) (fun _ => ?_)
    | with_reducible refine Kept.foldl' ?_ (fun a x => ?_)
    | with_reducible apply Kept.chain (State.modAu_kept _ _ _) (by decide)
    | with_reducible apply Kept.chain (closeEntry_kept _ _ _) (by decide)
    | with_reducible apply Kept.chain (drained_kept _) (by decide)
    | with_reducible apply Kept.chain (memWrite_kept _ _ _) (by decide)
    | with_reducible apply Kept.chain (prefillCheck_kept _ _) (by decide)
    | with_reducible simp (disch := first | decide | (with_unfolding_all constructor <;> first | exact Or.inl (by decide) | exact Or.inr rfl | (constructor <;> first | exact Or.inl (by decide) | exact Or.inr (And.intro rfl rfl)))) only [Kept.upd_acq, Kept.upd_mem, Kept.upd_move, Kept.upd_host, Kept.upd_now, Kept.upd_freeNo]
    | split
    | intro _

theorem auxSetRefok_kept (s : State) (ok : Bool) : Kept [.host, .fe, .cal, .spec, .acq, .disp, .mon, .tiu, .grove, .mem, .move, .aux, .ctl, .flt, .sec, .pwr] s (auxSetRefok s ok) := by
  unfold auxSetRefok
  try dsimp only
  repeat' first
    | with_reducible exact Kept.refl _ _
    | with_reducible refine Kept.ite (fun _ => ?_) (fun _ => ?_)
    | with_reducible refine Kept.foldl' ?_ (fun a x => ?_)
    | with_reducible apply Kept.chain (postAt_kept _ _ _ _) (by decide)
    | with_reducible apply Kept.chain (raiseQuiet_kept _ _ _ (by first | (unfold quietSource; decide) | exact quiet_rank _ _ _ (by decide))) (by decide)
    | with_reducible simp (disch := first | decide | (with_unfolding_all constructor <;> first | exact Or.inl (by decide) | exact Or.inr rfl | (constructor <;> first | exact Or.inl (by decide) | exact Or.inr (And.intro rfl rfl)))) only [Kept.upd_fe, Kept.upd_cal, Kept.upd_spec, Kept.upd_acq, Kept.upd_disp, Kept.upd_mon, Kept.upd_tiu, Kept.upd_grove, Kept.upd_mem, Kept.upd_move, Kept.upd_aux, Kept.upd_ctl, Kept.upd_flt, Kept.upd_sec, Kept.upd_pwr, Kept.upd_host, Kept.upd_now, Kept.upd_freeNo]
    | split
    | intro _

theorem auxLimit_kept (s : State) (n : Nat) (code : Nat) : Kept [.aux] s (auxLimit s n code) := by
  unfold auxLimit
  try dsimp only
  repeat' first
    | with_reducible exact Kept.refl _ _
    | with_reducible refine Kept.ite (fun _ => ?_) (fun _ => ?_)
    | with_reducible refine Kept.foldl' ?_ (fun a x => ?_)
    | with_reducible apply Kept.chain (State.setAuxIn_kept _ _ _) (by decide)
    | with_reducible apply Kept.chain (post_kept _ _ _) (by decide)
    | with_reducible apply Kept.chain (postAt_kept _ _ _ _) (by decide)
    | with_reducible simp (disch := first | decide | (with_unfolding_all constructor <;> first | exact Or.inl (by decide) | exact Or.inr rfl | (constructor <;> first | exact Or.inl (by decide) | exact Or.inr (And.intro rfl rfl)))) only [Kept.upd_aux, Kept.upd_host, Kept.upd_now, Kept.upd_freeNo]
    | split
    | intro _

theorem setCalValue_kept (s : State) (item : Nat) (index : Nat) (v : Int) : Kept [.cal] s (setCalValue s item index v) := by
  unfold setCalValue
  try dsimp only
  repeat' first
    | with_reducible exact Kept.refl _ _
    | with_reducible refine Kept.ite (fun _ => ?_) (fun _ => ?_)
    | with_reducible refine Kept.foldl' ?_ (fun a x => ?_)
    | with_reducible simp (disch := first | decide | (with_unfolding_all constructor <;> first | exact Or.inl (by decide) | exact Or.inr rfl | (constructor <;> first | exact Or.inl (by decide) | exact Or.inr (And.intro rfl rfl)))) only [Kept.upd_cal, Kept.upd_host, Kept.upd_now, Kept.upd_freeNo]
    | split
    | intro _

theorem keepRecord_kept (s : State) (r : CalRecord) : Kept [.cal, .sec] s ((keepRecord s r).1) := by
  unfold keepRecord
  try dsimp only
  repeat' first
    | with_reducible exact Kept.refl _ _
    | with_reducible refine Kept.ite (fun _ => ?_) (fun _ => ?_)
    | with_reducible refine Kept.foldp' ?_ (fun a x => ?_)
    | with_reducible refine Kept.foldq' ?_ (fun a x => ?_)
    | with_reducible refine Kept.foldl' ?_ (fun a x => ?_)
    | with_reducible simp (disch := first | decide | (with_unfolding_all constructor <;> first | exact Or.inl (by decide) | exact Or.inr rfl | (constructor <;> first | exact Or.inl (by decide) | exact Or.inr (And.intro rfl rfl)))) only [Kept.upd_cal_sec, Kept.upd_cal, Kept.upd_sec, Kept.upd_host, Kept.upd_now, Kept.upd_freeNo]
    | split
    | intro _

theorem calCount_kept (s : State) (at_ : Stamp) : Kept [.cal] s (calCount s at_) := by
  unfold calCount
  try dsimp only
  repeat' first
    | with_reducible exact Kept.refl _ _
    | with_reducible refine Kept.ite (fun _ => ?_) (fun _ => ?_)
    | with_reducible refine Kept.foldl' ?_ (fun a x => ?_)
    | with_reducible simp (disch := first | decide | (with_unfolding_all constructor <;> first | exact Or.inl (by decide) | exact Or.inr rfl | (constructor <;> first | exact Or.inl (by decide) | exact Or.inr (And.intro rfl rfl)))) only [Kept.upd_cal, Kept.upd_host, Kept.upd_now, Kept.upd_freeNo]
    | split
    | intro _

theorem calDone_kept (s : State) (r : CalRecord) : Kept [] s (calDone s r) := by
  unfold calDone
  try dsimp only
  repeat' first
    | with_reducible exact Kept.refl _ _
    | with_reducible refine Kept.ite (fun _ => ?_) (fun _ => ?_)
    | with_reducible refine Kept.foldl' ?_ (fun a x => ?_)
    | with_reducible apply Kept.chain (post_kept _ _ _) (by decide)
    | with_reducible simp (disch := first | decide | (with_unfolding_all constructor <;> first | exact Or.inl (by decide) | exact Or.inr rfl | (constructor <;> first | exact Or.inl (by decide) | exact Or.inr (And.intro rfl rfl)))) only [Kept.upd_host, Kept.upd_now, Kept.upd_freeNo]
    | split
    | intro _

theorem storeAcc_kept (s : State) (tgt : Nat) (step : Nat) (at_ : Stamp) : Kept [.cal] s (storeAcc s tgt step at_) := by
  unfold storeAcc
  try dsimp only
  repeat' first
    | with_reducible exact Kept.refl _ _
    | with_reducible refine Kept.ite (fun _ => ?_) (fun _ => ?_)
    | with_reducible refine Kept.foldl' ?_ (fun a x => ?_)
    | with_reducible apply Kept.chain (State.modCalT_kept _ _ _) (by decide)
    | with_reducible simp (disch := first | decide | (with_unfolding_all constructor <;> first | exact Or.inl (by decide) | exact Or.inr rfl | (constructor <;> first | exact Or.inl (by decide) | exact Or.inr (And.intro rfl rfl)))) only [Kept.upd_cal, Kept.upd_host, Kept.upd_now, Kept.upd_freeNo]
    | split
    | intro _

theorem keepFront_kept (s : State) (id : Nat) (g : Nat) : Kept [.fe] s (keepFront s id g) := by
  unfold keepFront
  try dsimp only
  repeat' first
    | with_reducible exact Kept.refl _ _
    | with_reducible refine Kept.ite (fun _ => ?_) (fun _ => ?_)
    | with_reducible refine Kept.foldl' ?_ (fun a x => ?_)
    | with_reducible apply Kept.chain (State.modStr_kept _ _ _) (by decide)
    | with_reducible simp (disch := first | decide | (with_unfolding_all constructor <;> first | exact Or.inl (by decide) | exact Or.inr rfl | (constructor <;> first | exact Or.inl (by decide) | exact Or.inr (And.intro rfl rfl)))) only [Kept.upd_fe, Kept.upd_host, Kept.upd_now, Kept.upd_freeNo]
    | split
    | intro _

theorem keepFronts_kept (s : State) : Kept [.fe] s (keepFronts s) := by
  unfold keepFronts
  try dsimp only
  repeat' first
    | with_reducible exact Kept.refl _ _
    | with_reducible refine Kept.ite (fun _ => ?_) (fun _ => ?_)
    | with_reducible refine Kept.foldl' ?_ (fun a x => ?_)
    | with_reducible apply Kept.chain (keepFront_kept _ _ _) (by decide)
    | with_reducible simp (disch := first | decide | (with_unfolding_all constructor <;> first | exact Or.inl (by decide) | exact Or.inr rfl | (constructor <;> first | exact Or.inl (by decide) | exact Or.inr (And.intro rfl rfl)))) only [Kept.upd_fe, Kept.upd_host, Kept.upd_now, Kept.upd_freeNo]
    | split
    | intro _

theorem applyCands_kept (s : State) (tgt : Nat) (g : Nat) (cs : List (Nat × Nat × Int)) : Kept [.fe, .cal] s (applyCands s tgt g cs) := by
  unfold applyCands
  try dsimp only
  repeat' first
    | with_reducible exact Kept.refl _ _
    | with_reducible refine Kept.ite (fun _ => ?_) (fun _ => ?_)
    | with_reducible refine Kept.foldl' ?_ (fun a x => ?_)
    | with_reducible apply Kept.chain (State.modStr_kept _ _ _) (by decide)
    | with_reducible apply Kept.chain (keepFronts_kept _) (by decide)
    | with_reducible apply Kept.chain (setCalValue_kept _ _ _ _) (by decide)
    | with_reducible simp (disch := first | decide | (with_unfolding_all constructor <;> first | exact Or.inl (by decide) | exact Or.inr rfl | (constructor <;> first | exact Or.inl (by decide) | exact Or.inr (And.intro rfl rfl)))) only [Kept.upd_fe, Kept.upd_cal, Kept.upd_host, Kept.upd_now, Kept.upd_freeNo]
    | split
    | intro _

theorem blindSkipped_kept (s : State) : Kept [.cal] s (blindSkipped s) := by
  unfold blindSkipped
  try dsimp only
  repeat' first
    | with_reducible exact Kept.refl _ _
    | with_reducible refine Kept.ite (fun _ => ?_) (fun _ => ?_)
    | with_reducible refine Kept.foldl' ?_ (fun a x => ?_)
    | with_reducible simp (disch := first | decide | (with_unfolding_all constructor <;> first | exact Or.inl (by decide) | exact Or.inr rfl | (constructor <;> first | exact Or.inl (by decide) | exact Or.inr (And.intro rfl rfl)))) only [Kept.upd_cal, Kept.upd_host, Kept.upd_now, Kept.upd_freeNo]
    | split
    | intro _

theorem stepRecord_kept (s : State) (r : CalRecord) : Kept [.cal, .sec] s ((stepRecord s r).1) := by
  unfold stepRecord
  try dsimp only
  repeat' first
    | with_reducible exact Kept.refl _ _
    | with_reducible refine Kept.ite (fun _ => ?_) (fun _ => ?_)
    | with_reducible refine Kept.foldp' ?_ (fun a x => ?_)
    | with_reducible refine Kept.foldq' ?_ (fun a x => ?_)
    | with_reducible refine Kept.foldl' ?_ (fun a x => ?_)
    | with_reducible apply Kept.chain (keepRecord_kept _ _) (by decide)
    | with_reducible apply Kept.chain (calDone_kept _ _) (by decide)
    | with_reducible apply Kept.chain (Kept.pair (keepRecord_kept _ _) (by assumption)) (by decide)
    | with_reducible simp (disch := first | decide | (with_unfolding_all constructor <;> first | exact Or.inl (by decide) | exact Or.inr rfl | (constructor <;> first | exact Or.inl (by decide) | exact Or.inr (And.intro rfl rfl)))) only [Kept.upd_cal, Kept.upd_sec, Kept.upd_host, Kept.upd_now, Kept.upd_freeNo]
    | split
    | intro _

theorem stepAccept_kept (s : State) (tgt : Nat) (g : Nat) (step : Nat) (cs : List (Nat × Nat × Int)) (r : CalRecord) : Kept [.fe, .cal, .sec] s ((stepAccept s tgt g step cs r).1) := by
  unfold stepAccept
  try dsimp only
  repeat' first
    | with_reducible exact Kept.refl _ _
    | with_reducible refine Kept.ite (fun _ => ?_) (fun _ => ?_)
    | with_reducible refine Kept.foldp' ?_ (fun a x => ?_)
    | with_reducible refine Kept.foldq' ?_ (fun a x => ?_)
    | with_reducible refine Kept.foldl' ?_ (fun a x => ?_)
    | with_reducible apply Kept.chain (keepRecord_kept _ _) (by decide)
    | with_reducible apply Kept.chain (applyCands_kept _ _ _ _) (by decide)
    | with_reducible apply Kept.chain (calCount_kept _ _) (by decide)
    | with_reducible apply Kept.chain (calDone_kept _ _) (by decide)
    | with_reducible apply Kept.chain (driftUpdate_kept _ _) (by decide)
    | with_reducible apply Kept.chain (Kept.pair (keepRecord_kept _ _) (by assumption)) (by decide)
    | with_reducible apply Kept.chain (storeAcc_kept _ _ _ _) (by decide)
    | with_reducible simp (disch := first | decide | (with_unfolding_all constructor <;> first | exact Or.inl (by decide) | exact Or.inr rfl | (constructor <;> first | exact Or.inl (by decide) | exact Or.inr (And.intro rfl rfl)))) only [Kept.upd_fe, Kept.upd_cal, Kept.upd_sec, Kept.upd_host, Kept.upd_now, Kept.upd_freeNo]
    | split
    | intro _

theorem openSettle_kept (s : State) (id : Nat) (g : Nat) (ct : Nat) : Kept [.fe] s (openSettle s id g ct) := by
  unfold openSettle
  try dsimp only
  repeat' first
    | with_reducible exact Kept.refl _ _
    | with_reducible refine Kept.ite (fun _ => ?_) (fun _ => ?_)
    | with_reducible refine Kept.foldl' ?_ (fun a x => ?_)
    | with_reducible apply Kept.chain (State.modStr_kept _ _ _) (by decide)
    | with_reducible simp (disch := first | decide | (with_unfolding_all constructor <;> first | exact Or.inl (by decide) | exact Or.inr rfl | (constructor <;> first | exact Or.inl (by decide) | exact Or.inr (And.intro rfl rfl)))) only [Kept.upd_fe, Kept.upd_host, Kept.upd_now, Kept.upd_freeNo]
    | split
    | intro _

theorem calLeave_kept (s : State) (tgt : Nat) (c : CalStep) : Kept [.fe, .cal] s (calLeave s tgt c) := by
  unfold calLeave
  try dsimp only
  repeat' first
    | with_reducible exact Kept.refl _ _
    | with_reducible refine Kept.ite (fun _ => ?_) (fun _ => ?_)
    | with_reducible refine Kept.foldl' ?_ (fun a x => ?_)
    | with_reducible apply Kept.chain (State.modStr_kept _ _ _) (by decide)
    | with_reducible apply Kept.chain (State.setInp_kept _ _ _) (by decide)
    | with_reducible apply Kept.chain (keepFront_kept _ _ _) (by decide)
    | with_reducible apply Kept.chain (openSettle_kept _ _ _ _) (by decide)
    | with_reducible simp (disch := first | decide | (with_unfolding_all constructor <;> first | exact Or.inl (by decide) | exact Or.inr rfl | (constructor <;> first | exact Or.inl (by decide) | exact Or.inr (And.intro rfl rfl)))) only [Kept.upd_fe_cal, Kept.upd_fe, Kept.upd_cal, Kept.upd_host, Kept.upd_now, Kept.upd_freeNo]
    | split
    | intro _

theorem stepEnd_kept (s : State) (tgt : Nat) (c : CalStep) (m : Measured) : Kept [.host, .cmds, .fe, .cal, .spec, .acq, .disp, .mon, .tiu, .grove, .mem, .move, .ctl, .flt, .sec, .pwr] s ((stepEnd s tgt c m).1) := by
  unfold stepEnd
  try dsimp only
  repeat' first
    | with_reducible exact Kept.refl _ _
    | with_reducible refine Kept.ite (fun _ => ?_) (fun _ => ?_)
    | with_reducible refine Kept.foldp' ?_ (fun a x => ?_)
    | with_reducible refine Kept.foldq' ?_ (fun a x => ?_)
    | with_reducible refine Kept.foldl' ?_ (fun a x => ?_)
    | with_reducible apply Kept.chain (stepAccept_kept _ _ _ _ _ _) (by decide)
    | with_reducible apply Kept.chain (stepRecord_kept _ _) (by decide)
    | with_reducible apply Kept.chain (State.setCalStep_kept _ _ _) (by decide)
    | with_reducible apply Kept.chain (blindSkipped_kept _) (by decide)
    | with_reducible apply Kept.chain (calLeave_kept _ _ _) (by decide)
    | with_reducible apply Kept.chain (raiseFault_kept _ _ _) (by decide)
    | with_reducible apply Kept.chain (Kept.pair (stepAccept_kept _ _ _ _ _ _) (by assumption)) (by decide)
    | with_reducible apply Kept.chain (Kept.pair (stepRecord_kept _ _) (by assumption)) (by decide)
    | with_reducible simp (disch := first | decide | (with_unfolding_all constructor <;> first | exact Or.inl (by decide) | exact Or.inr rfl | (constructor <;> first | exact Or.inl (by decide) | exact Or.inr (And.intro rfl rfl)))) only [Kept.upd_fe, Kept.upd_cal, Kept.upd_spec, Kept.upd_acq, Kept.upd_disp, Kept.upd_mon, Kept.upd_tiu, Kept.upd_grove, Kept.upd_mem, Kept.upd_move, Kept.upd_ctl, Kept.upd_flt, Kept.upd_sec, Kept.upd_pwr, Kept.upd_host, Kept.upd_now, Kept.upd_freeNo]
    | split
    | intro _

theorem blindStart_kept (s : State) (tgt : Nat) (step : Nat) : Kept [.cal] s (blindStart s tgt step) := by
  unfold blindStart
  try dsimp only
  repeat' first
    | with_reducible exact Kept.refl _ _
    | with_reducible refine Kept.ite (fun _ => ?_) (fun _ => ?_)
    | with_reducible refine Kept.foldl' ?_ (fun a x => ?_)
    | with_reducible apply Kept.chain (State.setCalStep_kept _ _ _) (by decide)
    | with_reducible simp (disch := first | decide | (with_unfolding_all constructor <;> first | exact Or.inl (by decide) | exact Or.inr rfl | (constructor <;> first | exact Or.inl (by decide) | exact Or.inr (And.intro rfl rfl)))) only [Kept.upd_cal, Kept.upd_host, Kept.upd_now, Kept.upd_freeNo]
    | split
    | intro _

theorem regWrite_kept (s : State) (h : Nat) (off : Nat) (bs : List Byte) : Kept [.mem] s (regWrite s h off bs) := by
  unfold regWrite
  try dsimp only
  repeat' first
    | with_reducible exact Kept.refl _ _
    | with_reducible refine Kept.ite (fun _ => ?_) (fun _ => ?_)
    | with_reducible refine Kept.foldl' ?_ (fun a x => ?_)
    | with_reducible apply Kept.chain (memWrite_kept _ _ _) (by decide)
    | with_reducible simp (disch := first | decide | (with_unfolding_all constructor <;> first | exact Or.inl (by decide) | exact Or.inr rfl | (constructor <;> first | exact Or.inl (by decide) | exact Or.inr (And.intro rfl rfl)))) only [Kept.upd_mem, Kept.upd_host, Kept.upd_now, Kept.upd_freeNo]
    | split
    | intro _

theorem calRecordOut_kept (s : State) (p : InProg) (c : CalStep) (r : CalRecord) : Kept [.cmds, .mem] s (calRecordOut s p c r) := by
  unfold calRecordOut
  try dsimp only
  repeat' first
    | with_reducible exact Kept.refl _ _
    | with_reducible refine Kept.ite (fun _ => ?_) (fun _ => ?_)
    | with_reducible refine Kept.foldl' ?_ (fun a x => ?_)
    | with_reducible apply Kept.chain (finish_kept _ _ _ _ _) (by decide)
    | with_reducible apply Kept.chain (regWrite_kept _ _ _ _) (by decide)
    | with_reducible simp (disch := first | decide | (with_unfolding_all constructor <;> first | exact Or.inl (by decide) | exact Or.inr rfl | (constructor <;> first | exact Or.inl (by decide) | exact Or.inr (And.intro rfl rfl)))) only [Kept.upd_mem, Kept.upd_host, Kept.upd_now, Kept.upd_freeNo]
    | split
    | intro _

theorem attenCode_kept (s : State) (id : Nat) (x : CalStep) (a : Nat) (l : List Nat) : Kept [.fe, .cal] s (attenCode s id x a l) := by
  unfold attenCode
  try dsimp only
  repeat' first
    | with_reducible exact Kept.refl _ _
    | with_reducible refine Kept.ite (fun _ => ?_) (fun _ => ?_)
    | with_reducible refine Kept.foldl' ?_ (fun a x => ?_)
    | with_reducible apply Kept.chain (State.modInp_kept _ _ _) (by decide)
    | with_reducible apply Kept.chain (State.setCalStep_kept _ _ _) (by decide)
    | with_reducible apply Kept.chain (keepFront_kept _ _ _) (by decide)
    | with_reducible apply Kept.chain (openSettle_kept _ _ _ _) (by decide)
    | with_reducible simp (disch := first | decide | (with_unfolding_all constructor <;> first | exact Or.inl (by decide) | exact Or.inr rfl | (constructor <;> first | exact Or.inl (by decide) | exact Or.inr (And.intro rfl rfl)))) only [Kept.upd_fe, Kept.upd_cal, Kept.upd_host, Kept.upd_now, Kept.upd_freeNo]
    | split
    | intro _

theorem calTake_kept (s : State) (tgt : Nat) (c : CalStep) : Kept [.fe, .cal] s (calTake s tgt c) := by
  unfold calTake
  try dsimp only
  repeat' first
    | with_reducible exact Kept.refl _ _
    | with_reducible refine Kept.ite (fun _ => ?_) (fun _ => ?_)
    | with_reducible refine Kept.foldl' ?_ (fun a x => ?_)
    | with_reducible apply Kept.chain (State.modStr_kept _ _ _) (by decide)
    | with_reducible apply Kept.chain (State.setCalStep_kept _ _ _) (by decide)
    | with_reducible apply Kept.chain (attenCode_kept _ _ _ _ _) (by decide)
    | with_reducible simp (disch := first | decide | (with_unfolding_all constructor <;> first | exact Or.inl (by decide) | exact Or.inr rfl | (constructor <;> first | exact Or.inl (by decide) | exact Or.inr (And.intro rfl rfl)))) only [Kept.upd_fe_cal, Kept.upd_fe, Kept.upd_cal, Kept.upd_host, Kept.upd_now, Kept.upd_freeNo]
    | split
    | intro _

theorem tiuTestShare_kept (n : Nat) (ok : Bool) (s : State) (p : InProg) : Kept [.cmds] s (tiuTestShare n ok s p) := by
  unfold tiuTestShare
  try dsimp only
  repeat' first
    | with_reducible exact Kept.refl _ _
    | with_reducible refine Kept.ite (fun _ => ?_) (fun _ => ?_)
    | with_reducible refine Kept.foldl' ?_ (fun a x => ?_)
    | with_reducible apply Kept.chain (finish_kept _ _ _ _ _) (by decide)
    | with_reducible simp (disch := first | decide | (with_unfolding_all constructor <;> first | exact Or.inl (by decide) | exact Or.inr rfl | (constructor <;> first | exact Or.inl (by decide) | exact Or.inr (And.intro rfl rfl)))) only [Kept.upd_host, Kept.upd_now, Kept.upd_freeNo]
    | split
    | intro _

theorem tiuTestDone_kept (s : State) (n : Nat) (w : List Nat) : Kept [.host, .cmds, .fe, .cal, .spec, .acq, .disp, .mon, .tiu, .grove, .mem, .move, .ctl, .flt, .sec, .pwr] s (tiuTestDone s n w) := by
  unfold tiuTestDone
  try dsimp only
  repeat' first
    | with_reducible exact Kept.refl _ _
    | with_reducible refine Kept.ite (fun _ => ?_) (fun _ => ?_)
    | with_reducible refine Kept.foldp' ?_ (fun a x => ?_)
    | with_reducible refine Kept.foldq' ?_ (fun a x => ?_)
    | with_reducible refine Kept.foldl' ?_ (fun a x => ?_)
    | with_reducible apply Kept.chain (keepRecord_kept _ _) (by decide)
    | with_reducible apply Kept.chain (State.setTiuIn_kept _ _ _) (by decide)
    | with_reducible apply Kept.chain (calCount_kept _ _) (by decide)
    | with_reducible apply Kept.chain (Kept.pair (keepRecord_kept _ _) (by assumption)) (by decide)
    | with_reducible apply Kept.chain (post_kept _ _ _) (by decide)
    | with_reducible apply Kept.chain (raiseFault_kept _ _ _) (by decide)
    | with_reducible apply Kept.chain (tiuTestShare_kept _ _ _ _) (by decide)
    | with_reducible simp (disch := first | decide | (with_unfolding_all constructor <;> first | exact Or.inl (by decide) | exact Or.inr rfl | (constructor <;> first | exact Or.inl (by decide) | exact Or.inr (And.intro rfl rfl)))) only [Kept.upd_fe, Kept.upd_cal, Kept.upd_spec, Kept.upd_acq, Kept.upd_disp, Kept.upd_mon, Kept.upd_tiu, Kept.upd_grove, Kept.upd_mem, Kept.upd_move, Kept.upd_ctl, Kept.upd_flt, Kept.upd_sec, Kept.upd_pwr, Kept.upd_host, Kept.upd_now, Kept.upd_freeNo]
    | split
    | intro _

theorem pllAttempt_kept (s : State) (k : Nat) (n : Nat) : Kept [.clk] s (pllAttempt s k n) := by
  unfold pllAttempt
  try dsimp only
  repeat' first
    | with_reducible exact Kept.refl _ _
    | with_reducible refine Kept.ite (fun _ => ?_) (fun _ => ?_)
    | with_reducible refine Kept.foldl' ?_ (fun a x => ?_)
    | with_reducible apply Kept.chain (State.setPll_kept _ _ _) (by decide)
    | with_reducible simp (disch := first | decide | (with_unfolding_all constructor <;> first | exact Or.inl (by decide) | exact Or.inr rfl | (constructor <;> first | exact Or.inl (by decide) | exact Or.inr (And.intro rfl rfl)))) only [Kept.upd_clk, Kept.upd_host, Kept.upd_now, Kept.upd_freeNo]
    | split
    | intro _

theorem pllRelock_kept (s : State) (k : Nat) (n : Nat) (search : Bool) (byLoss : Bool) : Kept [.clk] s (pllRelock s k n search byLoss) := by
  unfold pllRelock
  try dsimp only
  repeat' first
    | with_reducible exact Kept.refl _ _
    | with_reducible refine Kept.ite (fun _ => ?_) (fun _ => ?_)
    | with_reducible refine Kept.foldl' ?_ (fun a x => ?_)
    | with_reducible apply Kept.chain (State.modPll_kept _ _ _) (by decide)
    | with_reducible apply Kept.chain (pllAttempt_kept _ _ _) (by decide)
    | with_reducible simp (disch := first | decide | (with_unfolding_all constructor <;> first | exact Or.inl (by decide) | exact Or.inr rfl | (constructor <;> first | exact Or.inl (by decide) | exact Or.inr (And.intro rfl rfl)))) only [Kept.upd_clk, Kept.upd_host, Kept.upd_now, Kept.upd_freeNo]
    | split
    | intro _

theorem pllWindow_kept (s : State) (k : Nat) (origin : Nat) : Kept [.flt] s (pllWindow s k origin) := by
  unfold pllWindow
  try dsimp only
  repeat' first
    | with_reducible exact Kept.refl _ _
    | with_reducible refine Kept.ite (fun _ => ?_) (fun _ => ?_)
    | with_reducible refine Kept.foldl' ?_ (fun a x => ?_)
    | with_reducible apply Kept.chain (openWindow_kept _ _ _ _ _) (by decide)
    | with_reducible simp (disch := first | decide | (with_unfolding_all constructor <;> first | exact Or.inl (by decide) | exact Or.inr rfl | (constructor <;> first | exact Or.inl (by decide) | exact Or.inr (And.intro rfl rfl)))) only [Kept.upd_flt, Kept.upd_host, Kept.upd_now, Kept.upd_freeNo]
    | split
    | intro _

theorem postEpoch_kept (s : State) (id : Nat) (e : Epoch) : Kept [] s (postEpoch s id e) := by
  unfold postEpoch
  try dsimp only
  repeat' first
    | with_reducible exact Kept.refl _ _
    | with_reducible refine Kept.ite (fun _ => ?_) (fun _ => ?_)
    | with_reducible refine Kept.foldl' ?_ (fun a x => ?_)
    | with_reducible apply Kept.chain (post_kept _ _ _) (by decide)
    | with_reducible simp (disch := first | decide | (with_unfolding_all constructor <;> first | exact Or.inl (by decide) | exact Or.inr rfl | (constructor <;> first | exact Or.inl (by decide) | exact Or.inr (And.intro rfl rfl)))) only [Kept.upd_host, Kept.upd_now, Kept.upd_freeNo]
    | split
    | intro _

theorem abortEpoch_kept (s : State) (id : Nat) (reason : Nat) : Kept [.acq, .mem, .move] s (abortEpoch s id reason) := by
  unfold abortEpoch
  try dsimp only
  repeat' first
    | with_reducible exact Kept.refl _ _
    | with_reducible refine Kept.ite (fun _ => ?_) (fun _ => ?_)
    | with_reducible refine Kept.foldl' ?_ (fun a x => ?_)
    | with_reducible apply Kept.chain (abortStream_kept _ _ _) (by decide)
    | with_reducible simp (disch := first | decide | (with_unfolding_all constructor <;> first | exact Or.inl (by decide) | exact Or.inr rfl | (constructor <;> first | exact Or.inl (by decide) | exact Or.inr (And.intro rfl rfl)))) only [Kept.upd_acq, Kept.upd_mem, Kept.upd_move, Kept.upd_host, Kept.upd_now, Kept.upd_freeNo]
    | split
    | intro _

theorem ddcBegin_kept (s : State) (n : Nat) (p : Nat) : Kept [.host, .cmds, .fe, .cal, .spec, .acq, .disp, .mon, .tiu, .grove, .mem, .move, .ctl, .flt, .sec, .pwr] s (ddcBegin s n p) := by
  unfold ddcBegin
  try dsimp only
  repeat' first
    | with_reducible exact Kept.refl _ _
    | with_reducible refine Kept.ite (fun _ => ?_) (fun _ => ?_)
    | with_reducible refine Kept.foldl' ?_ (fun a x => ?_)
    | with_reducible apply Kept.chain (State.setDdc_kept _ _ _) (by decide)
    | with_reducible apply Kept.chain (endAt_kept _ _ _ _ _) (by decide)
    | with_reducible simp (disch := first | decide | (with_unfolding_all constructor <;> first | exact Or.inl (by decide) | exact Or.inr rfl | (constructor <;> first | exact Or.inl (by decide) | exact Or.inr (And.intro rfl rfl)))) only [Kept.upd_fe, Kept.upd_cal, Kept.upd_spec, Kept.upd_acq, Kept.upd_disp, Kept.upd_mon, Kept.upd_tiu, Kept.upd_grove, Kept.upd_mem, Kept.upd_move, Kept.upd_ctl, Kept.upd_flt, Kept.upd_sec, Kept.upd_pwr, Kept.upd_host, Kept.upd_now, Kept.upd_freeNo]
    | split
    | intro _

theorem ddcFollow_kept (s : State) (n : Nat) : Kept [.host, .cmds, .fe, .cal, .spec, .acq, .disp, .mon, .tiu, .grove, .mem, .move, .ctl, .flt, .sec, .pwr] s (ddcFollow s n) := by
  unfold ddcFollow
  try dsimp only
  repeat' first
    | with_reducible exact Kept.refl _ _
    | with_reducible refine Kept.ite (fun _ => ?_) (fun _ => ?_)
    | with_reducible refine Kept.foldl' ?_ (fun a x => ?_)
    | with_reducible apply Kept.chain (ddcBegin_kept _ _ _) (by decide)
    | with_reducible simp (disch := first | decide | (with_unfolding_all constructor <;> first | exact Or.inl (by decide) | exact Or.inr rfl | (constructor <;> first | exact Or.inl (by decide) | exact Or.inr (And.intro rfl rfl)))) only [Kept.upd_fe, Kept.upd_cal, Kept.upd_spec, Kept.upd_acq, Kept.upd_disp, Kept.upd_mon, Kept.upd_tiu, Kept.upd_grove, Kept.upd_mem, Kept.upd_move, Kept.upd_ctl, Kept.upd_flt, Kept.upd_sec, Kept.upd_pwr, Kept.upd_host, Kept.upd_now, Kept.upd_freeNo]
    | split
    | intro _

theorem streamBegin_kept (s : State) (id : Nat) : Kept [.host, .cmds, .fe, .cal, .spec, .acq, .disp, .mon, .tiu, .grove, .mem, .move, .ctl, .flt, .sec, .pwr] s (streamBegin s id) := by
  unfold streamBegin
  try dsimp only
  repeat' first
    | with_reducible exact Kept.refl _ _
    | with_reducible refine Kept.ite (fun _ => ?_) (fun _ => ?_)
    | with_reducible refine Kept.foldl' ?_ (fun a x => ?_)
    | with_reducible apply Kept.chain (abortEpoch_kept _ _ _) (by decide)
    | with_reducible apply Kept.chain (ddcFollow_kept _ _) (by decide)
    | with_reducible apply Kept.chain (laneTruncDue_kept _ _) (by decide)
    | with_reducible apply Kept.chain (recBegin_kept _ _) (by decide)
    | with_reducible simp (disch := first | decide | (with_unfolding_all constructor <;> first | exact Or.inl (by decide) | exact Or.inr rfl | (constructor <;> first | exact Or.inl (by decide) | exact Or.inr (And.intro rfl rfl)))) only [Kept.upd_fe, Kept.upd_cal, Kept.upd_spec, Kept.upd_acq, Kept.upd_disp, Kept.upd_mon, Kept.upd_tiu, Kept.upd_grove, Kept.upd_mem, Kept.upd_move, Kept.upd_ctl, Kept.upd_flt, Kept.upd_sec, Kept.upd_pwr, Kept.upd_host, Kept.upd_now, Kept.upd_freeNo]
    | split
    | intro _

theorem announceNext_kept (s : State) (id : Nat) : Kept [.host, .cmds, .fe, .cal, .spec, .acq, .disp, .mon, .tiu, .grove, .mem, .move, .ctl, .flt, .sec, .pwr] s (announceNext s id) := by
  unfold announceNext
  try dsimp only
  repeat' first
    | with_reducible exact Kept.refl _ _
    | with_reducible refine Kept.ite (fun _ => ?_) (fun _ => ?_)
    | with_reducible refine Kept.foldl' ?_ (fun a x => ?_)
    | with_reducible apply Kept.chain (State.modStr_kept _ _ _) (by decide)
    | with_reducible apply Kept.chain (State.setStr_kept _ _ _) (by decide)
    | with_reducible apply Kept.chain (postEpoch_kept _ _ _) (by decide)
    | with_reducible apply Kept.chain (streamBegin_kept _ _) (by decide)
    | with_reducible simp (disch := first | decide | (with_unfolding_all constructor <;> first | exact Or.inl (by decide) | exact Or.inr rfl | (constructor <;> first | exact Or.inl (by decide) | exact Or.inr (And.intro rfl rfl)))) only [Kept.upd_fe, Kept.upd_cal, Kept.upd_spec, Kept.upd_acq, Kept.upd_disp, Kept.upd_mon, Kept.upd_tiu, Kept.upd_grove, Kept.upd_mem, Kept.upd_move, Kept.upd_ctl, Kept.upd_flt, Kept.upd_sec, Kept.upd_pwr, Kept.upd_host, Kept.upd_now, Kept.upd_freeNo]
    | split
    | intro _

theorem gapPost_kept (s : State) (consumer : Nat) (id : Nat) : Kept [.host, .fe, .cal, .spec, .acq, .disp, .mon, .tiu, .grove, .mem, .move, .ctl, .flt, .sec, .pwr] s (gapPost s consumer id) := by
  unfold gapPost
  try dsimp only
  repeat' first
    | with_reducible exact Kept.refl _ _
    | with_reducible refine Kept.ite (fun _ => ?_) (fun _ => ?_)
    | with_reducible refine Kept.foldl' ?_ (fun a x => ?_)
    | with_reducible apply Kept.chain (post_kept _ _ _) (by decide)
    | with_reducible apply Kept.chain (raiseQuiet_kept _ _ _ (by first | (unfold quietSource; decide) | exact quiet_gap _)) (by decide)
    | with_reducible simp (disch := first | decide | (with_unfolding_all constructor <;> first | exact Or.inl (by decide) | exact Or.inr rfl | (constructor <;> first | exact Or.inl (by decide) | exact Or.inr (And.intro rfl rfl)))) only [Kept.upd_fe, Kept.upd_cal, Kept.upd_spec, Kept.upd_acq, Kept.upd_disp, Kept.upd_mon, Kept.upd_tiu, Kept.upd_grove, Kept.upd_mem, Kept.upd_move, Kept.upd_ctl, Kept.upd_flt, Kept.upd_sec, Kept.upd_pwr, Kept.upd_host, Kept.upd_now, Kept.upd_freeNo]
    | split
    | intro _

theorem consumerEnd_kept (s : State) (k : Nat) (id : Nat) : Kept [.host, .cmds, .fe, .cal, .spec, .acq, .disp, .mon, .tiu, .grove, .mem, .move, .ctl, .flt, .sec, .pwr] s (consumerEnd s k id) := by
  unfold consumerEnd
  try dsimp only
  repeat' first
    | with_reducible exact Kept.refl _ _
    | with_reducible refine Kept.ite (fun _ => ?_) (fun _ => ?_)
    | with_reducible refine Kept.foldl' ?_ (fun a x => ?_)
    | with_reducible apply Kept.chain (endAt_kept _ _ _ _ _) (by decide)
    | with_reducible apply Kept.chain (gapPost_kept _ _ _) (by decide)
    | with_reducible apply Kept.chain (setCursor_kept _ _ _ _) (by decide)
    | with_reducible simp (disch := first | decide | (with_unfolding_all constructor <;> first | exact Or.inl (by decide) | exact Or.inr rfl | (constructor <;> first | exact Or.inl (by decide) | exact Or.inr (And.intro rfl rfl)))) only [Kept.upd_fe, Kept.upd_cal, Kept.upd_spec, Kept.upd_acq, Kept.upd_disp, Kept.upd_mon, Kept.upd_tiu, Kept.upd_grove, Kept.upd_mem, Kept.upd_move, Kept.upd_ctl, Kept.upd_flt, Kept.upd_sec, Kept.upd_pwr, Kept.upd_host, Kept.upd_now, Kept.upd_freeNo]
    | split
    | intro _

theorem bindAll_kept (s : State) (id : Nat) : Kept [.fe] s (bindAll s id) := by
  unfold bindAll
  try dsimp only
  repeat' first
    | with_reducible exact Kept.refl _ _
    | with_reducible refine Kept.ite (fun _ => ?_) (fun _ => ?_)
    | with_reducible refine Kept.foldl' ?_ (fun a x => ?_)
    | with_reducible apply Kept.chain (setCursor_kept _ _ _ _) (by decide)
    | with_reducible simp (disch := first | decide | (with_unfolding_all constructor <;> first | exact Or.inl (by decide) | exact Or.inr rfl | (constructor <;> first | exact Or.inl (by decide) | exact Or.inr (And.intro rfl rfl)))) only [Kept.upd_fe, Kept.upd_host, Kept.upd_now, Kept.upd_freeNo]
    | split
    | intro _

theorem ddcConsumersOver_kept (s : State) (id : Nat) : Kept [.host, .cmds, .fe, .cal, .spec, .acq, .disp, .mon, .tiu, .grove, .mem, .move, .ctl, .flt, .sec, .pwr] s (ddcConsumersOver s id) := by
  unfold ddcConsumersOver
  try dsimp only
  repeat' first
    | with_reducible exact Kept.refl _ _
    | with_reducible refine Kept.ite (fun _ => ?_) (fun _ => ?_)
    | with_reducible refine Kept.foldl' ?_ (fun a x => ?_)
    | with_reducible apply Kept.chain (consumerEnd_kept _ _ _) (by decide)
    | with_reducible simp (disch := first | decide | (with_unfolding_all constructor <;> first | exact Or.inl (by decide) | exact Or.inr rfl | (constructor <;> first | exact Or.inl (by decide) | exact Or.inr (And.intro rfl rfl)))) only [Kept.upd_fe, Kept.upd_cal, Kept.upd_spec, Kept.upd_acq, Kept.upd_disp, Kept.upd_mon, Kept.upd_tiu, Kept.upd_grove, Kept.upd_mem, Kept.upd_move, Kept.upd_ctl, Kept.upd_flt, Kept.upd_sec, Kept.upd_pwr, Kept.upd_host, Kept.upd_now, Kept.upd_freeNo]
    | split
    | intro _

theorem letGo_kept (s : State) (id : Nat) : Kept [.fe, .spec] s (letGo s id) := by
  unfold letGo
  try dsimp only
  repeat' first
    | with_reducible exact Kept.refl _ _
    | with_reducible refine Kept.ite (fun _ => ?_) (fun _ => ?_)
    | with_reducible refine Kept.foldl' ?_ (fun a x => ?_)
    | with_reducible apply Kept.chain (State.modDdc_kept _ _ _) (by decide)
    | with_reducible apply Kept.chain (State.modStr_kept _ _ _) (by decide)
    | with_reducible simp (disch := first | decide | (with_unfolding_all constructor <;> first | exact Or.inl (by decide) | exact Or.inr rfl | (constructor <;> first | exact Or.inl (by decide) | exact Or.inr (And.intro rfl rfl)))) only [Kept.upd_fe, Kept.upd_spec, Kept.upd_host, Kept.upd_now, Kept.upd_freeNo]
    | split
    | intro _

theorem ddcEnd_kept (s : State) (n : Nat) : Kept [.host, .cmds, .fe, .cal, .spec, .acq, .disp, .mon, .tiu, .grove, .mem, .move, .ctl, .flt, .sec, .pwr] s (ddcEnd s n) := by
  unfold ddcEnd
  try dsimp only
  repeat' first
    | with_reducible exact Kept.refl _ _
    | with_reducible refine Kept.ite (fun _ => ?_) (fun _ => ?_)
    | with_reducible refine Kept.foldl' ?_ (fun a x => ?_)
    | with_reducible apply Kept.chain (State.modDdc_kept _ _ _) (by decide)
    | with_reducible apply Kept.chain (bindAll_kept _ _) (by decide)
    | with_reducible apply Kept.chain (ddcConsumersOver_kept _ _) (by decide)
    | with_reducible apply Kept.chain (ddcFollow_kept _ _) (by decide)
    | with_reducible apply Kept.chain (endAt_kept _ _ _ _ _) (by decide)
    | with_reducible apply Kept.chain (letGo_kept _ _) (by decide)
    | with_reducible simp (disch := first | decide | (with_unfolding_all constructor <;> first | exact Or.inl (by decide) | exact Or.inr rfl | (constructor <;> first | exact Or.inl (by decide) | exact Or.inr (And.intro rfl rfl)))) only [Kept.upd_fe, Kept.upd_cal, Kept.upd_spec, Kept.upd_acq, Kept.upd_disp, Kept.upd_mon, Kept.upd_tiu, Kept.upd_grove, Kept.upd_mem, Kept.upd_move, Kept.upd_ctl, Kept.upd_flt, Kept.upd_sec, Kept.upd_pwr, Kept.upd_host, Kept.upd_now, Kept.upd_freeNo]
    | split
    | intro _

theorem consumersOver_kept (s : State) (id : Nat) : Kept [.host, .cmds, .fe, .cal, .spec, .acq, .disp, .mon, .tiu, .grove, .mem, .move, .ctl, .flt, .sec, .pwr] s (consumersOver s id) := by
  unfold consumersOver
  try dsimp only
  repeat' first
    | with_reducible exact Kept.refl _ _
    | with_reducible refine Kept.ite (fun _ => ?_) (fun _ => ?_)
    | with_reducible refine Kept.foldl' ?_ (fun a x => ?_)
    | with_reducible apply Kept.chain (consumerEnd_kept _ _ _) (by decide)
    | with_reducible apply Kept.chain (ddcEnd_kept _ _) (by decide)
    | with_reducible apply Kept.chain (ddcFollow_kept _ _) (by decide)
    | with_reducible simp (disch := first | decide | (with_unfolding_all constructor <;> first | exact Or.inl (by decide) | exact Or.inr rfl | (constructor <;> first | exact Or.inl (by decide) | exact Or.inr (And.intro rfl rfl)))) only [Kept.upd_fe, Kept.upd_cal, Kept.upd_spec, Kept.upd_acq, Kept.upd_disp, Kept.upd_mon, Kept.upd_tiu, Kept.upd_grove, Kept.upd_mem, Kept.upd_move, Kept.upd_ctl, Kept.upd_flt, Kept.upd_sec, Kept.upd_pwr, Kept.upd_host, Kept.upd_now, Kept.upd_freeNo]
    | split
    | intro _

theorem endEpisode_kept (s : State) (id : Nat) : Kept [.fe] s (endEpisode s id) := by
  unfold endEpisode
  try dsimp only
  repeat' first
    | with_reducible exact Kept.refl _ _
    | with_reducible refine Kept.ite (fun _ => ?_) (fun _ => ?_)
    | with_reducible refine Kept.foldl' ?_ (fun a x => ?_)
    | with_reducible apply Kept.chain (State.setStr_kept _ _ _) (by decide)
    | with_reducible apply Kept.chain (post_kept _ _ _) (by decide)
    | with_reducible simp (disch := first | decide | (with_unfolding_all constructor <;> first | exact Or.inl (by decide) | exact Or.inr rfl | (constructor <;> first | exact Or.inl (by decide) | exact Or.inr (And.intro rfl rfl)))) only [Kept.upd_fe, Kept.upd_host, Kept.upd_now, Kept.upd_freeNo]
    | split
    | intro _

end Sys2Proof.Machine
end

