-- ==== Sys2Proof/Laws/Frames4.lean ====
section
/-! SUPPORT. Frames of the shared operations (part 5 of 8): the parts of the engine that each can change, and, where the host interface is
not among them, that it changes only the event ring and its signals. -/

set_option linter.unusedTactic false
set_option linter.unreachableTactic false
set_option linter.unusedVariables false
set_option linter.unusedSimpArgs false

namespace Sys2Proof.Machine

theorem closeHeads_kept (x0 : Nat) (x1 : State) (x2 : Nat) : Kept [.host, .cmds, .fe, .cal, .spec, .acq, .disp, .mon, .tiu, .grove, .mem, .move, .ctl, .flt, .sec, .pwr] x1 (closeHeads x0 x1 x2) := by
  induction x0 generalizing x1 x2 with
  | zero => exact Kept.refl _ _
  | succ n ih =>
  unfold closeHeads
  try dsimp only
  repeat' first
    | with_reducible exact Kept.refl _ _
    | with_reducible refine Kept.ite (fun _ => ?_) (fun _ => ?_)
    | with_reducible refine Kept.foldl' ?_ (fun a x => ?_)
    | with_reducible apply Kept.chain (ih _ _) (by decide)
    | with_reducible apply Kept.chain (State.modStr_kept _ _ _) (by decide)
    | with_reducible apply Kept.chain (announceNext_kept _ _) (by decide)
    | with_reducible apply Kept.chain (consumersOver_kept _ _) (by decide)
    | with_reducible apply Kept.chain (endEpisode_kept _ _) (by decide)
    | with_reducible apply Kept.chain (post_kept _ _ _) (by decide)
    | with_reducible simp (disch := first | decide | (with_unfolding_all constructor <;> first | exact Or.inl (by decide) | exact Or.inr rfl | (constructor <;> first | exact Or.inl (by decide) | exact Or.inr (And.intro rfl rfl)))) only [Kept.upd_fe, Kept.upd_cal, Kept.upd_spec, Kept.upd_acq, Kept.upd_disp, Kept.upd_mon, Kept.upd_tiu, Kept.upd_grove, Kept.upd_mem, Kept.upd_move, Kept.upd_ctl, Kept.upd_flt, Kept.upd_sec, Kept.upd_pwr, Kept.upd_host, Kept.upd_now, Kept.upd_freeNo]
    | split
    | intro _

theorem calAbort_kept (s : State) (tgt : Nat) (reason : Nat) : Kept [.fe, .cal] s (calAbort s tgt reason) := by
  unfold calAbort
  try dsimp only
  repeat' first
    | with_reducible exact Kept.refl _ _
    | with_reducible refine Kept.ite (fun _ => ?_) (fun _ => ?_)
    | with_reducible refine Kept.foldl' ?_ (fun a x => ?_)
    | with_reducible apply Kept.chain (State.setCalStep_kept _ _ _) (by decide)
    | with_reducible apply Kept.chain (calLeave_kept _ _ _) (by decide)
    | with_reducible simp (disch := first | decide | (with_unfolding_all constructor <;> first | exact Or.inl (by decide) | exact Or.inr rfl | (constructor <;> first | exact Or.inl (by decide) | exact Or.inr (And.intro rfl rfl)))) only [Kept.upd_fe, Kept.upd_cal, Kept.upd_host, Kept.upd_now, Kept.upd_freeNo]
    | split
    | intro _

theorem endTagging_kept (s : State) (id : Nat) (g : Nat) (halts : Bool) : Kept [.fe, .cal] s (endTagging s id g halts) := by
  unfold endTagging
  try dsimp only
  repeat' first
    | with_reducible exact Kept.refl _ _
    | with_reducible refine Kept.ite (fun _ => ?_) (fun _ => ?_)
    | with_reducible refine Kept.foldl' ?_ (fun a x => ?_)
    | with_reducible apply Kept.chain (State.modStr_kept _ _ _) (by decide)
    | with_reducible apply Kept.chain (bindAll_kept _ _) (by decide)
    | with_reducible apply Kept.chain (calAbort_kept _ _ _) (by decide)
    | with_reducible apply Kept.chain (keepFront_kept _ _ _) (by decide)
    | with_reducible simp (disch := first | decide | (with_unfolding_all constructor <;> first | exact Or.inl (by decide) | exact Or.inr rfl | (constructor <;> first | exact Or.inl (by decide) | exact Or.inr (And.intro rfl rfl)))) only [Kept.upd_fe, Kept.upd_cal, Kept.upd_host, Kept.upd_now, Kept.upd_freeNo]
    | split
    | intro _

theorem strHalt_kept (s : State) (id : Nat) (g : Nat) : Kept [.host, .cmds, .fe, .cal, .spec, .acq, .disp, .mon, .tiu, .grove, .mem, .move, .ctl, .flt, .sec, .pwr] s (strHalt s id g) := by
  unfold strHalt
  try dsimp only
  repeat' first
    | with_reducible exact Kept.refl _ _
    | with_reducible refine Kept.ite (fun _ => ?_) (fun _ => ?_)
    | with_reducible refine Kept.foldl' ?_ (fun a x => ?_)
    | with_reducible apply Kept.chain (State.setCalBlind_kept _ _ _) (by decide)
    | with_reducible apply Kept.chain (closeHeads_kept _ _ _) (by decide)
    | with_reducible apply Kept.chain (endTagging_kept _ _ _ _) (by decide)
    | with_reducible simp (disch := first | decide | (with_unfolding_all constructor <;> first | exact Or.inl (by decide) | exact Or.inr rfl | (constructor <;> first | exact Or.inl (by decide) | exact Or.inr (And.intro rfl rfl)))) only [Kept.upd_fe, Kept.upd_cal, Kept.upd_spec, Kept.upd_acq, Kept.upd_disp, Kept.upd_mon, Kept.upd_tiu, Kept.upd_grove, Kept.upd_mem, Kept.upd_move, Kept.upd_ctl, Kept.upd_flt, Kept.upd_sec, Kept.upd_pwr, Kept.upd_host, Kept.upd_now, Kept.upd_freeNo]
    | split
    | intro _

theorem cmdRelock_kept (s : State) (k : Nat) (n : Nat) (search : Bool) : Kept [.host, .cmds, .fe, .clk, .cal, .spec, .acq, .disp, .mon, .tiu, .grove, .mem, .move, .ctl, .flt, .sec, .pwr] s (cmdRelock s k n search) := by
  unfold cmdRelock
  try dsimp only
  repeat' first
    | with_reducible exact Kept.refl _ _
    | with_reducible refine Kept.ite (fun _ => ?_) (fun _ => ?_)
    | with_reducible refine Kept.foldl' ?_ (fun a x => ?_)
    | with_reducible apply Kept.chain (State.modStr_kept _ _ _) (by decide)
    | with_reducible apply Kept.chain (pllRelock_kept _ _ _ _ _) (by decide)
    | with_reducible apply Kept.chain (pllWindow_kept _ _ _) (by decide)
    | with_reducible apply Kept.chain (strHalt_kept _ _ _) (by decide)
    | with_reducible simp (disch := first | decide | (with_unfolding_all constructor <;> first | exact Or.inl (by decide) | exact Or.inr rfl | (constructor <;> first | exact Or.inl (by decide) | exact Or.inr (And.intro rfl rfl)))) only [Kept.upd_fe, Kept.upd_clk, Kept.upd_cal, Kept.upd_spec, Kept.upd_acq, Kept.upd_disp, Kept.upd_mon, Kept.upd_tiu, Kept.upd_grove, Kept.upd_mem, Kept.upd_move, Kept.upd_ctl, Kept.upd_flt, Kept.upd_sec, Kept.upd_pwr, Kept.upd_host, Kept.upd_now, Kept.upd_freeNo]
    | split
    | intro _

theorem countLoss_kept (s : State) : Kept [.clk] s (countLoss s) := by
  unfold countLoss
  try dsimp only
  repeat' first
    | with_reducible exact Kept.refl _ _
    | with_reducible refine Kept.ite (fun _ => ?_) (fun _ => ?_)
    | with_reducible refine Kept.foldl' ?_ (fun a x => ?_)
    | with_reducible simp (disch := first | decide | (with_unfolding_all constructor <;> first | exact Or.inl (by decide) | exact Or.inr rfl | (constructor <;> first | exact Or.inl (by decide) | exact Or.inr (And.intro rfl rfl)))) only [Kept.upd_clk, Kept.upd_host, Kept.upd_now, Kept.upd_freeNo]
    | split
    | intro _

theorem auxHalt_kept (s : State) : Kept [.aux] s (auxHalt s) := by
  unfold auxHalt
  try dsimp only
  repeat' first
    | with_reducible exact Kept.refl _ _
    | with_reducible refine Kept.ite (fun _ => ?_) (fun _ => ?_)
    | with_reducible refine Kept.foldl' ?_ (fun a x => ?_)
    | with_reducible simp (disch := first | decide | (with_unfolding_all constructor <;> first | exact Or.inl (by decide) | exact Or.inr rfl | (constructor <;> first | exact Or.inl (by decide) | exact Or.inr (And.intro rfl rfl)))) only [Kept.upd_aux, Kept.upd_host, Kept.upd_now, Kept.upd_freeNo]
    | split
    | intro _

theorem setCoarse_kept (s : State) (on : Bool) : Kept [.clk] s (setCoarse s on) := by
  unfold setCoarse
  try dsimp only
  repeat' first
    | with_reducible exact Kept.refl _ _
    | with_reducible refine Kept.ite (fun _ => ?_) (fun _ => ?_)
    | with_reducible refine Kept.foldl' ?_ (fun a x => ?_)
    | with_reducible apply Kept.chain (post_kept _ _ _) (by decide)
    | with_reducible simp (disch := first | decide | (with_unfolding_all constructor <;> first | exact Or.inl (by decide) | exact Or.inr rfl | (constructor <;> first | exact Or.inl (by decide) | exact Or.inr (And.intro rfl rfl)))) only [Kept.upd_clk, Kept.upd_host, Kept.upd_now, Kept.upd_freeNo]
    | split
    | intro _

theorem pllLost_kept (s : State) (k : Nat) : Kept [.host, .cmds, .fe, .clk, .cal, .spec, .acq, .disp, .mon, .tiu, .grove, .mem, .move, .aux, .ctl, .flt, .sec, .pwr] s (pllLost s k) := by
  unfold pllLost
  try dsimp only
  repeat' first
    | with_reducible exact Kept.refl _ _
    | with_reducible refine Kept.ite (fun _ => ?_) (fun _ => ?_)
    | with_reducible refine Kept.foldl' ?_ (fun a x => ?_)
    | with_reducible apply Kept.chain (State.modStr_kept _ _ _) (by decide)
    | with_reducible apply Kept.chain (abortEpoch_kept _ _ _) (by decide)
    | with_reducible apply Kept.chain (auxHalt_kept _) (by decide)
    | with_reducible apply Kept.chain (markAllUnlocked_kept _) (by decide)
    | with_reducible apply Kept.chain (markUnlocked_kept _ _) (by decide)
    | with_reducible apply Kept.chain (setCoarse_kept _ _) (by decide)
    | with_reducible apply Kept.chain (strHalt_kept _ _ _) (by decide)
    | with_reducible simp (disch := first | decide | (with_unfolding_all constructor <;> first | exact Or.inl (by decide) | exact Or.inr rfl | (constructor <;> first | exact Or.inl (by decide) | exact Or.inr (And.intro rfl rfl)))) only [Kept.upd_fe, Kept.upd_clk, Kept.upd_cal, Kept.upd_spec, Kept.upd_acq, Kept.upd_disp, Kept.upd_mon, Kept.upd_tiu, Kept.upd_grove, Kept.upd_mem, Kept.upd_move, Kept.upd_aux, Kept.upd_ctl, Kept.upd_flt, Kept.upd_sec, Kept.upd_pwr, Kept.upd_host, Kept.upd_now, Kept.upd_freeNo]
    | split
    | intro _

theorem nodeNext_kept (s : State) : Kept [.clk, .flt] s (nodeNext s) := by
  unfold nodeNext
  try dsimp only
  repeat' first
    | with_reducible exact Kept.refl _ _
    | with_reducible refine Kept.ite (fun _ => ?_) (fun _ => ?_)
    | with_reducible refine Kept.foldl' ?_ (fun a x => ?_)
    | with_reducible apply Kept.chain (endWindow_kept _ _) (by decide)
    | with_reducible apply Kept.chain (pllRelock_kept _ _ _ _ _) (by decide)
    | with_reducible simp (disch := first | decide | (with_unfolding_all constructor <;> first | exact Or.inl (by decide) | exact Or.inr rfl | (constructor <;> first | exact Or.inl (by decide) | exact Or.inr (And.intro rfl rfl)))) only [Kept.upd_clk, Kept.upd_flt, Kept.upd_host, Kept.upd_now, Kept.upd_freeNo]
    | split
    | intro _

theorem nodeStep_kept (s : State) (k : Nat) : Kept [.clk, .flt] s (nodeStep s k) := by
  unfold nodeStep
  try dsimp only
  repeat' first
    | with_reducible exact Kept.refl _ _
    | with_reducible refine Kept.ite (fun _ => ?_) (fun _ => ?_)
    | with_reducible refine Kept.foldl' ?_ (fun a x => ?_)
    | with_reducible apply Kept.chain (nodeNext_kept _) (by decide)
    | with_reducible simp (disch := first | decide | (with_unfolding_all constructor <;> first | exact Or.inl (by decide) | exact Or.inr rfl | (constructor <;> first | exact Or.inl (by decide) | exact Or.inr (And.intro rfl rfl)))) only [Kept.upd_clk, Kept.upd_flt, Kept.upd_host, Kept.upd_now, Kept.upd_freeNo]
    | split
    | intro _

theorem pllFinish_kept (s : State) (k : Nat) (p : InProg) (ok : Bool) (hop : Bool) : Kept [.cmds] s (pllFinish s k p ok hop) := by
  unfold pllFinish
  try dsimp only
  repeat' first
    | with_reducible exact Kept.refl _ _
    | with_reducible refine Kept.ite (fun _ => ?_) (fun _ => ?_)
    | with_reducible refine Kept.foldl' ?_ (fun a x => ?_)
    | with_reducible apply Kept.chain (finish_kept _ _ _ _ _) (by decide)
    | with_reducible simp (disch := first | decide | (with_unfolding_all constructor <;> first | exact Or.inl (by decide) | exact Or.inr rfl | (constructor <;> first | exact Or.inl (by decide) | exact Or.inr (And.intro rfl rfl)))) only [Kept.upd_host, Kept.upd_now, Kept.upd_freeNo]
    | split
    | intro _

theorem pllFailed_kept (s : State) (k : Nat) : Kept [.host, .cmds, .fe, .clk, .cal, .spec, .acq, .disp, .mon, .tiu, .grove, .mem, .move, .ctl, .flt, .sec, .pwr] s (pllFailed s k) := by
  unfold pllFailed
  try dsimp only
  repeat' first
    | with_reducible exact Kept.refl _ _
    | with_reducible refine Kept.ite (fun _ => ?_) (fun _ => ?_)
    | with_reducible refine Kept.foldl' ?_ (fun a x => ?_)
    | with_reducible apply Kept.chain (State.modStr_kept _ _ _) (by decide)
    | with_reducible apply Kept.chain (State.setPll_kept _ _ _) (by decide)
    | with_reducible apply Kept.chain (nodeStep_kept _ _) (by decide)
    | with_reducible apply Kept.chain (pllFinish_kept _ _ _ _ _) (by decide)
    | with_reducible apply Kept.chain (post_kept _ _ _) (by decide)
    | with_reducible apply Kept.chain (raiseFault_kept _ _ _) (by decide)
    | with_reducible simp (disch := first | decide | (with_unfolding_all constructor <;> first | exact Or.inl (by decide) | exact Or.inr rfl | (constructor <;> first | exact Or.inl (by decide) | exact Or.inr (And.intro rfl rfl)))) only [Kept.upd_fe, Kept.upd_clk, Kept.upd_cal, Kept.upd_spec, Kept.upd_acq, Kept.upd_disp, Kept.upd_mon, Kept.upd_tiu, Kept.upd_grove, Kept.upd_mem, Kept.upd_move, Kept.upd_ctl, Kept.upd_flt, Kept.upd_sec, Kept.upd_pwr, Kept.upd_host, Kept.upd_now, Kept.upd_freeNo]
    | split
    | intro _

theorem attemptFail_kept (s : State) (k : Nat) : Kept [.host, .cmds, .fe, .clk, .cal, .spec, .acq, .disp, .mon, .tiu, .grove, .mem, .move, .ctl, .flt, .sec, .pwr] s (attemptFail s k) := by
  unfold attemptFail
  try dsimp only
  repeat' first
    | with_reducible exact Kept.refl _ _
    | with_reducible refine Kept.ite (fun _ => ?_) (fun _ => ?_)
    | with_reducible refine Kept.foldl' ?_ (fun a x => ?_)
    | with_reducible apply Kept.chain (pllAttempt_kept _ _ _) (by decide)
    | with_reducible apply Kept.chain (pllFailed_kept _ _) (by decide)
    | with_reducible simp (disch := first | decide | (with_unfolding_all constructor <;> first | exact Or.inl (by decide) | exact Or.inr rfl | (constructor <;> first | exact Or.inl (by decide) | exact Or.inr (And.intro rfl rfl)))) only [Kept.upd_fe, Kept.upd_clk, Kept.upd_cal, Kept.upd_spec, Kept.upd_acq, Kept.upd_disp, Kept.upd_mon, Kept.upd_tiu, Kept.upd_grove, Kept.upd_mem, Kept.upd_move, Kept.upd_ctl, Kept.upd_flt, Kept.upd_sec, Kept.upd_pwr, Kept.upd_host, Kept.upd_now, Kept.upd_freeNo]
    | split
    | intro _

theorem lockLoss_kept (s : State) (k : Nat) (freq : Bool) (i : FaultInfo) : Kept [.host, .cmds, .fe, .clk, .cal, .spec, .acq, .disp, .mon, .tiu, .grove, .mem, .move, .aux, .ctl, .flt, .sec, .pwr] s (lockLoss s k freq i) := by
  unfold lockLoss
  try dsimp only
  repeat' first
    | with_reducible exact Kept.refl _ _
    | with_reducible refine Kept.ite (fun _ => ?_) (fun _ => ?_)
    | with_reducible refine Kept.foldl' ?_ (fun a x => ?_)
    | with_reducible apply Kept.chain (State.modPll_kept _ _ _) (by decide)
    | with_reducible apply Kept.chain (attemptFail_kept _ _) (by decide)
    | with_reducible apply Kept.chain (countLoss_kept _) (by decide)
    | with_reducible apply Kept.chain (pllAttempt_kept _ _ _) (by decide)
    | with_reducible apply Kept.chain (pllLost_kept _ _) (by decide)
    | with_reducible apply Kept.chain (pllRelock_kept _ _ _ _ _) (by decide)
    | with_reducible apply Kept.chain (pllWindow_kept _ _ _) (by decide)
    | with_reducible apply Kept.chain (post_kept _ _ _) (by decide)
    | with_reducible apply Kept.chain (raiseFault_kept _ _ _) (by decide)
    | with_reducible simp (disch := first | decide | (with_unfolding_all constructor <;> first | exact Or.inl (by decide) | exact Or.inr rfl | (constructor <;> first | exact Or.inl (by decide) | exact Or.inr (And.intro rfl rfl)))) only [Kept.upd_fe, Kept.upd_clk, Kept.upd_cal, Kept.upd_spec, Kept.upd_acq, Kept.upd_disp, Kept.upd_mon, Kept.upd_tiu, Kept.upd_grove, Kept.upd_mem, Kept.upd_move, Kept.upd_aux, Kept.upd_ctl, Kept.upd_flt, Kept.upd_sec, Kept.upd_pwr, Kept.upd_host, Kept.upd_now, Kept.upd_freeNo]
    | split
    | intro _

theorem refInLoss_kept (s : State) (freq : Bool) (ppm : Int) (i : FaultInfo) : Kept [.host, .fe, .clk, .cal, .spec, .acq, .disp, .mon, .tiu, .grove, .mem, .move, .ctl, .flt, .sec, .pwr] s (refInLoss s freq ppm i) := by
  unfold refInLoss
  try dsimp only
  repeat' first
    | with_reducible exact Kept.refl _ _
    | with_reducible refine Kept.ite (fun _ => ?_) (fun _ => ?_)
    | with_reducible refine Kept.foldl' ?_ (fun a x => ?_)
    | with_reducible apply Kept.chain (countLoss_kept _) (by decide)
    | with_reducible apply Kept.chain (markAllUnlocked_kept _) (by decide)
    | with_reducible apply Kept.chain (post_kept _ _ _) (by decide)
    | with_reducible apply Kept.chain (raiseQuiet_kept _ _ _ (by first | (unfold quietSource; decide) | exact quiet_rank _ _ _ (by decide))) (by decide)
    | with_reducible simp (disch := first | decide | (with_unfolding_all constructor <;> first | exact Or.inl (by decide) | exact Or.inr rfl | (constructor <;> first | exact Or.inl (by decide) | exact Or.inr (And.intro rfl rfl)))) only [Kept.upd_fe, Kept.upd_clk, Kept.upd_cal, Kept.upd_spec, Kept.upd_acq, Kept.upd_disp, Kept.upd_mon, Kept.upd_tiu, Kept.upd_grove, Kept.upd_mem, Kept.upd_move, Kept.upd_ctl, Kept.upd_flt, Kept.upd_sec, Kept.upd_pwr, Kept.upd_host, Kept.upd_now, Kept.upd_freeNo]
    | split
    | intro _

theorem hopWrite_kept (s : State) (k : Nat) (n0 : Nat) (found : List Nat) : Kept [.clk] s (hopWrite s k n0 found) := by
  unfold hopWrite
  try dsimp only
  repeat' first
    | with_reducible exact Kept.refl _ _
    | with_reducible refine Kept.ite (fun _ => ?_) (fun _ => ?_)
    | with_reducible refine Kept.foldl' ?_ (fun a x => ?_)
    | with_reducible apply Kept.chain (State.modPll_kept _ _ _) (by decide)
    | with_reducible simp (disch := first | decide | (with_unfolding_all constructor <;> first | exact Or.inl (by decide) | exact Or.inr rfl | (constructor <;> first | exact Or.inl (by decide) | exact Or.inr (And.intro rfl rfl)))) only [Kept.upd_clk, Kept.upd_host, Kept.upd_now, Kept.upd_freeNo]
    | split
    | intro _

theorem hopBuild_kept (s : State) (k : Nat) (found : List Nat) : Kept [.clk] s (hopBuild s k found) := by
  unfold hopBuild
  try dsimp only
  repeat' first
    | with_reducible exact Kept.refl _ _
    | with_reducible refine Kept.ite (fun _ => ?_) (fun _ => ?_)
    | with_reducible refine Kept.foldl' ?_ (fun a x => ?_)
    | with_reducible apply Kept.chain (State.modPll_kept _ _ _) (by decide)
    | with_reducible apply Kept.chain (hopWrite_kept _ _ _ _) (by decide)
    | with_reducible simp (disch := first | decide | (with_unfolding_all constructor <;> first | exact Or.inl (by decide) | exact Or.inr rfl | (constructor <;> first | exact Or.inl (by decide) | exact Or.inr (And.intro rfl rfl)))) only [Kept.upd_clk, Kept.upd_host, Kept.upd_now, Kept.upd_freeNo]
    | split
    | intro _

theorem buildSoFar_kept (s : State) (k : Nat) : Kept [.clk] s (buildSoFar s k) := by
  unfold buildSoFar
  try dsimp only
  repeat' first
    | with_reducible exact Kept.refl _ _
    | with_reducible refine Kept.ite (fun _ => ?_) (fun _ => ?_)
    | with_reducible refine Kept.foldp' ?_ (fun a x => ?_)
    | with_reducible refine Kept.foldq' ?_ (fun a x => ?_)
    | with_reducible refine Kept.foldl' ?_ (fun a x => ?_)
    | with_reducible apply Kept.chain (drawFree_kept _ _) (by decide)
    | with_reducible apply Kept.chain (hopBuild_kept _ _ _) (by decide)
    | with_reducible simp (disch := first | decide | (with_unfolding_all constructor <;> first | exact Or.inl (by decide) | exact Or.inr rfl | (constructor <;> first | exact Or.inl (by decide) | exact Or.inr (And.intro rfl rfl)))) only [Kept.upd_clk, Kept.upd_host, Kept.upd_now, Kept.upd_freeNo]
    | split
    | intro _

theorem nodeLoss_kept (s : State) (i : FaultInfo) : Kept [.host, .cmds, .fe, .clk, .cal, .spec, .acq, .disp, .mon, .tiu, .grove, .mem, .move, .aux, .ctl, .flt, .sec, .pwr] s (nodeLoss s i) := by
  unfold nodeLoss
  try dsimp only
  repeat' first
    | with_reducible exact Kept.refl _ _
    | with_reducible refine Kept.ite (fun _ => ?_) (fun _ => ?_)
    | with_reducible refine Kept.foldl' ?_ (fun a x => ?_)
    | with_reducible apply Kept.chain (State.modPll_kept _ _ _) (by decide)
    | with_reducible apply Kept.chain (State.modStr_kept _ _ _) (by decide)
    | with_reducible apply Kept.chain (auxHalt_kept _) (by decide)
    | with_reducible apply Kept.chain (buildSoFar_kept _ _) (by decide)
    | with_reducible apply Kept.chain (countLoss_kept _) (by decide)
    | with_reducible apply Kept.chain (markAllUnlocked_kept _) (by decide)
    | with_reducible apply Kept.chain (openWindow_kept _ _ _ _ _) (by decide)
    | with_reducible apply Kept.chain (pllFinish_kept _ _ _ _ _) (by decide)
    | with_reducible apply Kept.chain (post_kept _ _ _) (by decide)
    | with_reducible apply Kept.chain (raiseQuiet_kept _ _ _ (by first | (unfold quietSource; decide) | exact quiet_rank _ _ _ (by decide))) (by decide)
    | with_reducible apply Kept.chain (setCoarse_kept _ _) (by decide)
    | with_reducible apply Kept.chain (strHalt_kept _ _ _) (by decide)
    | with_reducible simp (disch := first | decide | (with_unfolding_all constructor <;> first | exact Or.inl (by decide) | exact Or.inr rfl | (constructor <;> first | exact Or.inl (by decide) | exact Or.inr (And.intro rfl rfl)))) only [Kept.upd_fe, Kept.upd_clk, Kept.upd_cal, Kept.upd_spec, Kept.upd_acq, Kept.upd_disp, Kept.upd_mon, Kept.upd_tiu, Kept.upd_grove, Kept.upd_mem, Kept.upd_move, Kept.upd_aux, Kept.upd_ctl, Kept.upd_flt, Kept.upd_sec, Kept.upd_pwr, Kept.upd_host, Kept.upd_now, Kept.upd_freeNo]
    | split
    | intro _

theorem steer_kept (s : State) : Kept [.clk] s (steer s) := by
  unfold steer
  try dsimp only
  repeat' first
    | with_reducible exact Kept.refl _ _
    | with_reducible refine Kept.ite (fun _ => ?_) (fun _ => ?_)
    | with_reducible refine Kept.foldp' ?_ (fun a x => ?_)
    | with_reducible refine Kept.foldq' ?_ (fun a x => ?_)
    | with_reducible refine Kept.foldl' ?_ (fun a x => ?_)
    | with_reducible apply Kept.chain (drawFree_kept _ _) (by decide)
    | with_reducible simp (disch := first | decide | (with_unfolding_all constructor <;> first | exact Or.inl (by decide) | exact Or.inr rfl | (constructor <;> first | exact Or.inl (by decide) | exact Or.inr (And.intro rfl rfl)))) only [Kept.upd_clk, Kept.upd_host, Kept.upd_now, Kept.upd_freeNo]
    | split
    | intro _

theorem endTimed_kept (s : State) : Kept [.cmds, .acq, .grove, .ctl] s (endTimed s) := by
  unfold endTimed
  try dsimp only
  repeat' first
    | with_reducible exact Kept.refl _ _
    | with_reducible refine Kept.ite (fun _ => ?_) (fun _ => ?_)
    | with_reducible refine Kept.foldl' ?_ (fun a x => ?_)
    | with_reducible apply Kept.chain (State.modAu_kept _ _ _) (by decide)
    | with_reducible apply Kept.chain (State.modCtlO_kept _ _ _) (by decide)
    | with_reducible apply Kept.chain (finish_kept _ _ _ _ _) (by decide)
    | with_reducible simp (disch := first | decide | (with_unfolding_all constructor <;> first | exact Or.inl (by decide) | exact Or.inr rfl | (constructor <;> first | exact Or.inl (by decide) | exact Or.inr (And.intro rfl rfl)))) only [Kept.upd_acq, Kept.upd_grove, Kept.upd_ctl, Kept.upd_host, Kept.upd_now, Kept.upd_freeNo]
    | split
    | intro _

theorem setTimeAt_kept (s : State) (q : InProg) (S : Stamp) : Kept [.cmds, .clk, .acq, .grove, .ctl] s (setTimeAt s q S) := by
  unfold setTimeAt
  try dsimp only
  repeat' first
    | with_reducible exact Kept.refl _ _
    | with_reducible refine Kept.ite (fun _ => ?_) (fun _ => ?_)
    | with_reducible refine Kept.foldl' ?_ (fun a x => ?_)
    | with_reducible apply Kept.chain (endTimed_kept _) (by decide)
    | with_reducible apply Kept.chain (finish_kept _ _ _ _ _) (by decide)
    | with_reducible apply Kept.chain (post_kept _ _ _) (by decide)
    | with_reducible simp (disch := first | decide | (with_unfolding_all constructor <;> first | exact Or.inl (by decide) | exact Or.inr rfl | (constructor <;> first | exact Or.inl (by decide) | exact Or.inr (And.intro rfl rfl)))) only [Kept.upd_clk, Kept.upd_acq, Kept.upd_grove, Kept.upd_ctl, Kept.upd_host, Kept.upd_now, Kept.upd_freeNo]
    | split
    | intro _

theorem ppsAccept_kept (s : State) (S : Stamp) : Kept [.cmds, .clk, .acq, .grove, .ctl] s (ppsAccept s S) := by
  unfold ppsAccept
  try dsimp only
  repeat' first
    | with_reducible exact Kept.refl _ _
    | with_reducible refine Kept.ite (fun _ => ?_) (fun _ => ?_)
    | with_reducible refine Kept.foldl' ?_ (fun a x => ?_)
    | with_reducible apply Kept.chain (post_kept _ _ _) (by decide)
    | with_reducible apply Kept.chain (setTimeAt_kept _ _ _) (by decide)
    | with_reducible apply Kept.chain (steer_kept _) (by decide)
    | with_reducible simp (disch := first | decide | (with_unfolding_all constructor <;> first | exact Or.inl (by decide) | exact Or.inr rfl | (constructor <;> first | exact Or.inl (by decide) | exact Or.inr (And.intro rfl rfl)))) only [Kept.upd_clk, Kept.upd_acq, Kept.upd_grove, Kept.upd_ctl, Kept.upd_host, Kept.upd_now, Kept.upd_freeNo]
    | split
    | intro _

theorem ctlCmd_kept (s : State) (n : Nat) (code : Nat) : Kept [.ctl] s (ctlCmd s n code) := by
  unfold ctlCmd
  try dsimp only
  repeat' first
    | with_reducible exact Kept.refl _ _
    | with_reducible refine Kept.ite (fun _ => ?_) (fun _ => ?_)
    | with_reducible refine Kept.foldl' ?_ (fun a x => ?_)
    | with_reducible apply Kept.chain (State.modCtlO_kept _ _ _) (by decide)
    | with_reducible apply Kept.chain (ctlPut_kept _ _ _) (by decide)
    | with_reducible simp (disch := first | decide | (with_unfolding_all constructor <;> first | exact Or.inl (by decide) | exact Or.inr rfl | (constructor <;> first | exact Or.inl (by decide) | exact Or.inr (And.intro rfl rfl)))) only [Kept.upd_ctl, Kept.upd_host, Kept.upd_now, Kept.upd_freeNo]
    | split
    | intro _

theorem ctlDrw_kept (s : State) (n : Nat) (code : Nat) : Kept [.ctl] s (ctlDrw s n code) := by
  unfold ctlDrw
  try dsimp only
  repeat' first
    | with_reducible exact Kept.refl _ _
    | with_reducible refine Kept.ite (fun _ => ?_) (fun _ => ?_)
    | with_reducible refine Kept.foldl' ?_ (fun a x => ?_)
    | with_reducible apply Kept.chain (State.setCtlO_kept _ _ _) (by decide)
    | with_reducible apply Kept.chain (ctlPut_kept _ _ _) (by decide)
    | with_reducible simp (disch := first | decide | (with_unfolding_all constructor <;> first | exact Or.inl (by decide) | exact Or.inr rfl | (constructor <;> first | exact Or.inl (by decide) | exact Or.inr (And.intro rfl rfl)))) only [Kept.upd_ctl, Kept.upd_host, Kept.upd_now, Kept.upd_freeNo]
    | split
    | intro _

theorem ctlRelease_kept (s : State) (sess : Nat) : Kept [.ctl] s (ctlRelease s sess) := by
  unfold ctlRelease
  try dsimp only
  repeat' first
    | with_reducible exact Kept.refl _ _
    | with_reducible refine Kept.ite (fun _ => ?_) (fun _ => ?_)
    | with_reducible refine Kept.foldl' ?_ (fun a x => ?_)
    | with_reducible apply Kept.chain (State.modCtlO_kept _ _ _) (by decide)
    | with_reducible apply Kept.chain (ctlPut_kept _ _ _) (by decide)
    | with_reducible simp (disch := first | decide | (with_unfolding_all constructor <;> first | exact Or.inl (by decide) | exact Or.inr rfl | (constructor <;> first | exact Or.inl (by decide) | exact Or.inr (And.intro rfl rfl)))) only [Kept.upd_ctl, Kept.upd_host, Kept.upd_now, Kept.upd_freeNo]
    | split
    | intro _

theorem ctlTimedDue_kept (s : State) : Kept [.ctl] s (ctlTimedDue s) := by
  unfold ctlTimedDue
  try dsimp only
  repeat' first
    | with_reducible exact Kept.refl _ _
    | with_reducible refine Kept.ite (fun _ => ?_) (fun _ => ?_)
    | with_reducible refine Kept.foldl' ?_ (fun a x => ?_)
    | with_reducible apply Kept.chain (State.modCtlO_kept _ _ _) (by decide)
    | with_reducible apply Kept.chain (ctlCmd_kept _ _ _) (by decide)
    | with_reducible simp (disch := first | decide | (with_unfolding_all constructor <;> first | exact Or.inl (by decide) | exact Or.inr rfl | (constructor <;> first | exact Or.inl (by decide) | exact Or.inr (And.intro rfl rfl)))) only [Kept.upd_ctl, Kept.upd_host, Kept.upd_now, Kept.upd_freeNo]
    | split
    | intro _

theorem ctlTimedDone_kept (s : State) : Kept [.cmds] s (ctlTimedDone s) := by
  unfold ctlTimedDone
  try dsimp only
  repeat' first
    | with_reducible exact Kept.refl _ _
    | with_reducible refine Kept.ite (fun _ => ?_) (fun _ => ?_)
    | with_reducible refine Kept.foldl' ?_ (fun a x => ?_)
    | with_reducible apply Kept.chain (finish_kept _ _ _ _ _) (by decide)
    | with_reducible simp (disch := first | decide | (with_unfolding_all constructor <;> first | exact Or.inl (by decide) | exact Or.inr rfl | (constructor <;> first | exact Or.inl (by decide) | exact Or.inr (And.intro rfl rfl)))) only [Kept.upd_host, Kept.upd_now, Kept.upd_freeNo]
    | split
    | intro _

theorem ctlRelock_kept (s : State) : Kept [.cmds, .ctl] s (ctlRelock s) := by
  unfold ctlRelock
  try dsimp only
  repeat' first
    | with_reducible exact Kept.refl _ _
    | with_reducible refine Kept.ite (fun _ => ?_) (fun _ => ?_)
    | with_reducible refine Kept.foldl' ?_ (fun a x => ?_)
    | with_reducible apply Kept.chain (State.modCtlO_kept _ _ _) (by decide)
    | with_reducible apply Kept.chain (ctlPut_kept _ _ _) (by decide)
    | with_reducible apply Kept.chain (ctlTimedDone_kept _) (by decide)
    | with_reducible apply Kept.chain (ctlTimedDue_kept _) (by decide)
    | with_reducible simp (disch := first | decide | (with_unfolding_all constructor <;> first | exact Or.inl (by decide) | exact Or.inr rfl | (constructor <;> first | exact Or.inl (by decide) | exact Or.inr (And.intro rfl rfl)))) only [Kept.upd_ctl, Kept.upd_host, Kept.upd_now, Kept.upd_freeNo]
    | split
    | intro _

theorem auxStop_kept (s : State) : Kept [.aux] s (auxStop s) := by
  unfold auxStop
  try dsimp only
  repeat' first
    | with_reducible exact Kept.refl _ _
    | with_reducible refine Kept.ite (fun _ => ?_) (fun _ => ?_)
    | with_reducible refine Kept.foldl' ?_ (fun a x => ?_)
    | with_reducible simp (disch := first | decide | (with_unfolding_all constructor <;> first | exact Or.inl (by decide) | exact Or.inr rfl | (constructor <;> first | exact Or.inl (by decide) | exact Or.inr (And.intro rfl rfl)))) only [Kept.upd_aux, Kept.upd_host, Kept.upd_now, Kept.upd_freeNo]
    | split
    | intro _

theorem ddcProduce_kept (x0 : Nat) (x1 : State) (x2 : Nat) : Kept [.spec] x1 (ddcProduce x0 x1 x2) := by
  induction x0 generalizing x1 x2 with
  | zero => exact Kept.refl _ _
  | succ n ih =>
  unfold ddcProduce
  try dsimp only
  repeat' first
    | with_reducible exact Kept.refl _ _
    | with_reducible refine Kept.ite (fun _ => ?_) (fun _ => ?_)
    | with_reducible refine Kept.foldl' ?_ (fun a x => ?_)
    | with_reducible apply Kept.chain (ih _ _) (by decide)
    | with_reducible apply Kept.chain (State.setDdc_kept _ _ _) (by decide)
    | with_reducible apply Kept.chain (perfAdd_kept _ _ _ _) (by decide)
    | with_reducible simp (disch := first | decide | (with_unfolding_all constructor <;> first | exact Or.inl (by decide) | exact Or.inr rfl | (constructor <;> first | exact Or.inl (by decide) | exact Or.inr (And.intro rfl rfl)))) only [Kept.upd_spec, Kept.upd_host, Kept.upd_now, Kept.upd_freeNo]
    | split
    | intro _

theorem ddcTake_kept (s : State) (n : Nat) (h : HeldGrain) : Kept [.fe, .spec] s (ddcTake s n h) := by
  unfold ddcTake
  try dsimp only
  repeat' first
    | with_reducible exact Kept.refl _ _
    | with_reducible refine Kept.ite (fun _ => ?_) (fun _ => ?_)
    | with_reducible refine Kept.foldl' ?_ (fun a x => ?_)
    | with_reducible apply Kept.chain (State.modDdc_kept _ _ _) (by decide)
    | with_reducible apply Kept.chain (ddcProduce_kept _ _ _) (by decide)
    | with_reducible apply Kept.chain (letGo_kept _ _) (by decide)
    | with_reducible simp (disch := first | decide | (with_unfolding_all constructor <;> first | exact Or.inl (by decide) | exact Or.inr rfl | (constructor <;> first | exact Or.inl (by decide) | exact Or.inr (And.intro rfl rfl)))) only [Kept.upd_fe, Kept.upd_spec, Kept.upd_host, Kept.upd_now, Kept.upd_freeNo]
    | split
    | intro _

theorem laneGrain_kept (s : State) (c : Nat) (h : HeldGrain) : Kept [.host, .cmds, .fe, .cal, .spec, .acq, .disp, .mon, .tiu, .grove, .mem, .move, .ctl, .flt, .sec, .pwr] s (laneGrain s c h) := by
  unfold laneGrain
  try dsimp only
  repeat' first
    | with_reducible exact Kept.refl _ _
    | with_reducible refine Kept.ite (fun _ => ?_) (fun _ => ?_)
    | with_reducible refine Kept.foldl' ?_ (fun a x => ?_)
    | with_reducible apply Kept.chain (State.modLane_kept _ _ _) (by decide)
    | with_reducible apply Kept.chain (laneForget_kept _ _) (by decide)
    | with_reducible apply Kept.chain (laneFront_kept _ _) (by decide)
    | with_reducible simp (disch := first | decide | (with_unfolding_all constructor <;> first | exact Or.inl (by decide) | exact Or.inr rfl | (constructor <;> first | exact Or.inl (by decide) | exact Or.inr (And.intro rfl rfl)))) only [Kept.upd_fe, Kept.upd_cal, Kept.upd_spec, Kept.upd_acq, Kept.upd_disp, Kept.upd_mon, Kept.upd_tiu, Kept.upd_grove, Kept.upd_mem, Kept.upd_move, Kept.upd_ctl, Kept.upd_flt, Kept.upd_sec, Kept.upd_pwr, Kept.upd_host, Kept.upd_now, Kept.upd_freeNo]
    | split
    | intro _

theorem missGrain_kept (s : State) (consumer : Nat) (id : Nat) (n : Nat) : Kept [.fe, .move] s (missGrain s consumer id n) := by
  unfold missGrain
  try dsimp only
  repeat' first
    | with_reducible exact Kept.refl _ _
    | with_reducible refine Kept.ite (fun _ => ?_) (fun _ => ?_)
    | with_reducible refine Kept.foldl' ?_ (fun a x => ?_)
    | with_reducible simp (disch := first | decide | (with_unfolding_all constructor <;> first | exact Or.inl (by decide) | exact Or.inr rfl | (constructor <;> first | exact Or.inl (by decide) | exact Or.inr (And.intro rfl rfl)))) only [Kept.upd_fe_move, Kept.upd_fe, Kept.upd_move, Kept.upd_host, Kept.upd_now, Kept.upd_freeNo]
    | split
    | intro _

theorem streamMiss_kept (s : State) (c : Nat) (id : Nat) (n : Nat) : Kept [.fe, .mem, .move] s (streamMiss s c id n) := by
  unfold streamMiss
  try dsimp only
  repeat' first
    | with_reducible exact Kept.refl _ _
    | with_reducible refine Kept.ite (fun _ => ?_) (fun _ => ?_)
    | with_reducible refine Kept.foldl' ?_ (fun a x => ?_)
    | with_reducible apply Kept.chain (missGrain_kept _ _ _ _) (by decide)
    | with_reducible apply Kept.chain (streamClose_kept _ _ _) (by decide)
    | with_reducible simp (disch := first | decide | (with_unfolding_all constructor <;> first | exact Or.inl (by decide) | exact Or.inr rfl | (constructor <;> first | exact Or.inl (by decide) | exact Or.inr (And.intro rfl rfl)))) only [Kept.upd_fe, Kept.upd_mem, Kept.upd_move, Kept.upd_host, Kept.upd_now, Kept.upd_freeNo]
    | split
    | intro _

theorem missAt_kept (s : State) (d : Delivery) : Kept [.host, .cmds, .fe, .cal, .spec, .acq, .disp, .mon, .tiu, .grove, .mem, .move, .ctl, .flt, .sec, .pwr] s (missAt s d) := by
  unfold missAt
  try dsimp only
  repeat' first
    | with_reducible exact Kept.refl _ _
    | with_reducible refine Kept.ite (fun _ => ?_) (fun _ => ?_)
    | with_reducible refine Kept.foldl' ?_ (fun a x => ?_)
    | with_reducible apply Kept.chain (closeSource_kept _ _) (by decide)
    | with_reducible apply Kept.chain (ddcTake_kept _ _ _) (by decide)
    | with_reducible apply Kept.chain (laneGrain_kept _ _ _) (by decide)
    | with_reducible apply Kept.chain (missGrain_kept _ _ _ _) (by decide)
    | with_reducible apply Kept.chain (streamMiss_kept _ _ _ _) (by decide)
    | with_reducible simp (disch := first | decide | (with_unfolding_all constructor <;> first | exact Or.inl (by decide) | exact Or.inr rfl | (constructor <;> first | exact Or.inl (by decide) | exact Or.inr (And.intro rfl rfl)))) only [Kept.upd_fe, Kept.upd_cal, Kept.upd_spec, Kept.upd_acq, Kept.upd_disp, Kept.upd_mon, Kept.upd_tiu, Kept.upd_grove, Kept.upd_mem, Kept.upd_move, Kept.upd_ctl, Kept.upd_flt, Kept.upd_sec, Kept.upd_pwr, Kept.upd_host, Kept.upd_now, Kept.upd_freeNo]
    | split
    | intro _

theorem feedGrain_kept (s : State) (i : Nat) (id : Nat) (n : Nat) (flags : Nat) (data : List Byte) : Kept [.grove] s (feedGrain s i id n flags data) := by
  unfold feedGrain
  try dsimp only
  repeat' first
    | with_reducible exact Kept.refl _ _
    | with_reducible refine Kept.ite (fun _ => ?_) (fun _ => ?_)
    | with_reducible refine Kept.foldl' ?_ (fun a x => ?_)
    | with_reducible apply Kept.chain (State.setFeed_kept _ _ _) (by decide)
    | with_reducible apply Kept.chain (feedClose_kept _ _ _) (by decide)
    | with_reducible apply Kept.chain (feedGapPost_kept _ _) (by decide)
    | with_reducible apply Kept.chain (feedWrite_kept _ _ _ _ _) (by decide)
    | with_reducible simp (disch := first | decide | (with_unfolding_all constructor <;> first | exact Or.inl (by decide) | exact Or.inr rfl | (constructor <;> first | exact Or.inl (by decide) | exact Or.inr (And.intro rfl rfl)))) only [Kept.upd_grove, Kept.upd_host, Kept.upd_now, Kept.upd_freeNo]
    | split
    | intro _

theorem recGrain_kept (s : State) (j : Nat) (id : Nat) (n : Nat) (flags : Nat) (data : List Byte) : Kept [.host, .cmds, .fe, .cal, .spec, .acq, .disp, .mon, .tiu, .grove, .mem, .move, .ctl, .flt, .sec, .pwr] s (recGrain s j id n flags data) := by
  unfold recGrain
  try dsimp only
  repeat' first
    | with_reducible exact Kept.refl _ _
    | with_reducible refine Kept.ite (fun _ => ?_) (fun _ => ?_)
    | with_reducible refine Kept.foldp' ?_ (fun a x => ?_)
    | with_reducible refine Kept.foldq' ?_ (fun a x => ?_)
    | with_reducible refine Kept.foldl' ?_ (fun a x => ?_)
    | with_reducible apply Kept.chain (recMake_kept _ _ _) (by decide)
    | with_reducible apply Kept.chain (appendChunk_kept _ _ _ _ _ _) (by decide)
    | with_reducible apply Kept.chain (closeSource_kept _ _) (by decide)
    | with_reducible apply Kept.chain (epochChunk_kept _ _ _) (by decide)
    | with_reducible apply Kept.chain (gapPost_kept _ _ _) (by decide)
    | with_reducible apply Kept.chain (missGrain_kept _ _ _ _) (by decide)
    | with_reducible apply Kept.chain (placeChunk_kept _ _) (by decide)
    | with_reducible apply Kept.chain (recFinish_kept _ _) (by decide)
    | with_reducible apply Kept.chain (Kept.pair (recMake_kept _ _ _) (by assumption)) (by decide)
    | with_reducible simp (disch := first | decide | (with_unfolding_all constructor <;> first | exact Or.inl (by decide) | exact Or.inr rfl | (constructor <;> first | exact Or.inl (by decide) | exact Or.inr (And.intro rfl rfl)))) only [Kept.upd_fe, Kept.upd_cal, Kept.upd_spec, Kept.upd_acq, Kept.upd_disp, Kept.upd_mon, Kept.upd_tiu, Kept.upd_grove, Kept.upd_mem, Kept.upd_move, Kept.upd_ctl, Kept.upd_flt, Kept.upd_sec, Kept.upd_pwr, Kept.upd_host, Kept.upd_now, Kept.upd_freeNo]
    | split
    | intro _

theorem streamGrain_kept (s : State) (c : Nat) (id : Nat) (n : Nat) (flags : Nat) (data : List Byte) : Kept [.host, .fe, .cal, .spec, .acq, .disp, .mon, .tiu, .grove, .mem, .move, .ctl, .flt, .sec, .pwr] s (streamGrain s c id n flags data) := by
  unfold streamGrain
  try dsimp only
  repeat' first
    | with_reducible exact Kept.refl _ _
    | with_reducible refine Kept.ite (fun _ => ?_) (fun _ => ?_)
    | with_reducible refine Kept.foldl' ?_ (fun a x => ?_)
    | with_reducible apply Kept.chain (State.setDma_kept _ _ _) (by decide)
    | with_reducible apply Kept.chain (gapPost_kept _ _ _) (by decide)
    | with_reducible apply Kept.chain (streamClose_kept _ _ _) (by decide)
    | with_reducible apply Kept.chain (streamMiss_kept _ _ _ _) (by decide)
    | with_reducible simp (disch := first | decide | (with_unfolding_all constructor <;> first | exact Or.inl (by decide) | exact Or.inr rfl | (constructor <;> first | exact Or.inl (by decide) | exact Or.inr (And.intro rfl rfl)))) only [Kept.upd_fe, Kept.upd_cal, Kept.upd_spec, Kept.upd_acq, Kept.upd_disp, Kept.upd_mon, Kept.upd_tiu, Kept.upd_grove, Kept.upd_mem, Kept.upd_move, Kept.upd_ctl, Kept.upd_flt, Kept.upd_sec, Kept.upd_pwr, Kept.upd_host, Kept.upd_now, Kept.upd_freeNo]
    | split
    | intro _

theorem consume_kept (s : State) (d : Delivery) : Kept [.host, .cmds, .fe, .cal, .spec, .acq, .disp, .mon, .tiu, .grove, .mem, .move, .ctl, .flt, .sec, .pwr] s (consume s d) := by
  unfold consume
  try dsimp only
  repeat' first
    | with_reducible exact Kept.refl _ _
    | with_reducible refine Kept.ite (fun _ => ?_) (fun _ => ?_)
    | with_reducible refine Kept.foldl' ?_ (fun a x => ?_)
    | with_reducible apply Kept.chain (captureGrain_kept _ _ _ _ _ _) (by decide)
    | with_reducible apply Kept.chain (ddcTake_kept _ _ _) (by decide)
    | with_reducible apply Kept.chain (feedGrain_kept _ _ _ _ _ _) (by decide)
    | with_reducible apply Kept.chain (grainTerms_kept _ _ _ _ _) (by decide)
    | with_reducible apply Kept.chain (laneGrain_kept _ _ _) (by decide)
    | with_reducible apply Kept.chain (recGrain_kept _ _ _ _ _ _) (by decide)
    | with_reducible apply Kept.chain (streamGrain_kept _ _ _ _ _ _) (by decide)
    | with_reducible simp (disch := first | decide | (with_unfolding_all constructor <;> first | exact Or.inl (by decide) | exact Or.inr rfl | (constructor <;> first | exact Or.inl (by decide) | exact Or.inr (And.intro rfl rfl)))) only [Kept.upd_fe, Kept.upd_cal, Kept.upd_spec, Kept.upd_acq, Kept.upd_disp, Kept.upd_mon, Kept.upd_tiu, Kept.upd_grove, Kept.upd_mem, Kept.upd_move, Kept.upd_ctl, Kept.upd_flt, Kept.upd_sec, Kept.upd_pwr, Kept.upd_host, Kept.upd_now, Kept.upd_freeNo]
    | split
    | intro _

theorem accept_kept (s : State) (d : Delivery) (tid : Nat) (n : Nat) : Kept [.host, .cmds, .fe, .cal, .spec, .acq, .disp, .mon, .tiu, .grove, .mem, .move, .ctl, .flt, .sec, .pwr] s (accept s d tid n) := by
  unfold accept
  try dsimp only
  repeat' first
    | with_reducible exact Kept.refl _ _
    | with_reducible refine Kept.ite (fun _ => ?_) (fun _ => ?_)
    | with_reducible refine Kept.foldl' ?_ (fun a x => ?_)
    | with_reducible apply Kept.chain (consume_kept _ _) (by decide)
    | with_reducible apply Kept.chain (gapPost_kept _ _ _) (by decide)
    | with_reducible apply Kept.chain (perfAdd_kept _ _ _ _) (by decide)
    | with_reducible apply Kept.chain (raiseFault_kept _ _ _) (by decide)
    | with_reducible simp (disch := first | decide | (with_unfolding_all constructor <;> first | exact Or.inl (by decide) | exact Or.inr rfl | (constructor <;> first | exact Or.inl (by decide) | exact Or.inr (And.intro rfl rfl)))) only [Kept.upd_fe, Kept.upd_cal, Kept.upd_spec, Kept.upd_acq, Kept.upd_disp, Kept.upd_mon, Kept.upd_tiu, Kept.upd_grove, Kept.upd_mem, Kept.upd_move, Kept.upd_ctl, Kept.upd_flt, Kept.upd_sec, Kept.upd_pwr, Kept.upd_host, Kept.upd_now, Kept.upd_freeNo]
    | split
    | intro _

theorem panicRaise_kept (s : State) (port : Nat) (inst : Nat) : Kept [.mem] s (panicRaise s port inst) := by
  unfold panicRaise
  try dsimp only
  repeat' first
    | with_reducible exact Kept.refl _ _
    | with_reducible refine Kept.ite (fun _ => ?_) (fun _ => ?_)
    | with_reducible refine Kept.foldl' ?_ (fun a x => ?_)
    | with_reducible simp (disch := first | decide | (with_unfolding_all constructor <;> first | exact Or.inl (by decide) | exact Or.inr rfl | (constructor <;> first | exact Or.inl (by decide) | exact Or.inr (And.intro rfl rfl)))) only [Kept.upd_mem, Kept.upd_host, Kept.upd_now, Kept.upd_freeNo]
    | split
    | intro _

theorem stagingFill_kept (s : State) (fill : Nat) : Kept [.mem] s (stagingFill s fill) := by
  unfold stagingFill
  try dsimp only
  repeat' first
    | with_reducible exact Kept.refl _ _
    | with_reducible refine Kept.ite (fun _ => ?_) (fun _ => ?_)
    | with_reducible refine Kept.foldl' ?_ (fun a x => ?_)
    | with_reducible apply Kept.chain (panicRaise_kept _ _ _) (by decide)
    | with_reducible apply Kept.chain (perfAdd_kept _ _ _ _) (by decide)
    | with_reducible simp (disch := first | decide | (with_unfolding_all constructor <;> first | exact Or.inl (by decide) | exact Or.inr rfl | (constructor <;> first | exact Or.inl (by decide) | exact Or.inr (And.intro rfl rfl)))) only [Kept.upd_mem, Kept.upd_host, Kept.upd_now, Kept.upd_freeNo]
    | split
    | intro _

theorem ddcPass_kept (s : State) (n : Nat) : Kept [.host, .cmds, .fe, .cal, .spec, .acq, .disp, .mon, .tiu, .grove, .mem, .move, .ctl, .flt, .sec, .pwr] s (ddcPass s n) := by
  unfold ddcPass
  try dsimp only
  repeat' first
    | with_reducible exact Kept.refl _ _
    | with_reducible refine Kept.ite (fun _ => ?_) (fun _ => ?_)
    | with_reducible refine Kept.foldl' ?_ (fun a x => ?_)
    | with_reducible apply Kept.chain (ddcEnd_kept _ _) (by decide)
    | with_reducible simp (disch := first | decide | (with_unfolding_all constructor <;> first | exact Or.inl (by decide) | exact Or.inr rfl | (constructor <;> first | exact Or.inl (by decide) | exact Or.inr (And.intro rfl rfl)))) only [Kept.upd_fe, Kept.upd_cal, Kept.upd_spec, Kept.upd_acq, Kept.upd_disp, Kept.upd_mon, Kept.upd_tiu, Kept.upd_grove, Kept.upd_mem, Kept.upd_move, Kept.upd_ctl, Kept.upd_flt, Kept.upd_sec, Kept.upd_pwr, Kept.upd_host, Kept.upd_now, Kept.upd_freeNo]
    | split
    | intro _

theorem takenGrain_kept (s : State) (k : Nat) (id : Nat) (g : Grain) : Kept [.host, .cmds, .fe, .cal, .spec, .acq, .disp, .mon, .tiu, .grove, .mem, .move, .ctl, .flt, .sec, .pwr] s (takenGrain s k id g) := by
  unfold takenGrain
  try dsimp only
  repeat' first
    | with_reducible exact Kept.refl _ _
    | with_reducible refine Kept.ite (fun _ => ?_) (fun _ => ?_)
    | with_reducible refine Kept.foldl' ?_ (fun a x => ?_)
    | with_reducible apply Kept.chain (consumersOver_kept _ _) (by decide)
    | with_reducible apply Kept.chain (ddcConsumersOver_kept _ _) (by decide)
    | with_reducible apply Kept.chain (ddcPass_kept _ _) (by decide)
    | with_reducible apply Kept.chain (letGo_kept _ _) (by decide)
    | with_reducible apply Kept.chain (setCursor_kept _ _ _ _) (by decide)
    | with_reducible simp (disch := first | decide | (with_unfolding_all constructor <;> first | exact Or.inl (by decide) | exact Or.inr rfl | (constructor <;> first | exact Or.inl (by decide) | exact Or.inr (And.intro rfl rfl)))) only [Kept.upd_fe, Kept.upd_cal, Kept.upd_spec, Kept.upd_acq, Kept.upd_disp, Kept.upd_mon, Kept.upd_tiu, Kept.upd_grove, Kept.upd_mem, Kept.upd_move, Kept.upd_ctl, Kept.upd_flt, Kept.upd_sec, Kept.upd_pwr, Kept.upd_host, Kept.upd_now, Kept.upd_freeNo]
    | split
    | intro _

theorem maskCommit_kept (s : State) (i : Nat) (T : Stamp) : Kept [.acq] s (maskCommit s i T) := by
  unfold maskCommit
  try dsimp only
  repeat' first
    | with_reducible exact Kept.refl _ _
    | with_reducible refine Kept.ite (fun _ => ?_) (fun _ => ?_)
    | with_reducible refine Kept.foldl' ?_ (fun a x => ?_)
    | with_reducible apply Kept.chain (State.setMaskS_kept _ _ _) (by decide)
    | with_reducible apply Kept.chain (post_kept _ _ _) (by decide)
    | with_reducible simp (disch := first | decide | (with_unfolding_all constructor <;> first | exact Or.inl (by decide) | exact Or.inr rfl | (constructor <;> first | exact Or.inl (by decide) | exact Or.inr (And.intro rfl rfl)))) only [Kept.upd_acq, Kept.upd_host, Kept.upd_now, Kept.upd_freeNo]
    | split
    | intro _

theorem maskTrigger_kept (s : State) (x : Spectrum) (T : Stamp) (i : Nat) : Kept [.host, .cmds, .fe, .cal, .spec, .acq, .disp, .mon, .tiu, .grove, .mem, .move, .ctl, .flt, .sec, .pwr] s (maskTrigger s x T i) := by
  unfold maskTrigger
  try dsimp only
  repeat' first
    | with_reducible exact Kept.refl _ _
    | with_reducible refine Kept.ite (fun _ => ?_) (fun _ => ?_)
    | with_reducible refine Kept.foldl' ?_ (fun a x => ?_)
    | with_reducible apply Kept.chain (State.setMaskS_kept _ _ _) (by decide)
    | with_reducible apply Kept.chain (termEvent_kept _ _ _ _) (by decide)
    | with_reducible apply Kept.chain (termProgress_kept _ _ _ _) (by decide)
    | with_reducible simp (disch := first | decide | (with_unfolding_all constructor <;> first | exact Or.inl (by decide) | exact Or.inr rfl | (constructor <;> first | exact Or.inl (by decide) | exact Or.inr (And.intro rfl rfl)))) only [Kept.upd_fe, Kept.upd_cal, Kept.upd_spec, Kept.upd_acq, Kept.upd_disp, Kept.upd_mon, Kept.upd_tiu, Kept.upd_grove, Kept.upd_mem, Kept.upd_move, Kept.upd_ctl, Kept.upd_flt, Kept.upd_sec, Kept.upd_pwr, Kept.upd_host, Kept.upd_now, Kept.upd_freeNo]
    | split
    | intro _

theorem maskTested_kept (s : State) (x : Spectrum) (i : Nat) : Kept [.host, .cmds, .fe, .cal, .spec, .acq, .disp, .mon, .tiu, .grove, .mem, .move, .ctl, .flt, .sec, .pwr] s (maskTested s x i) := by
  unfold maskTested
  try dsimp only
  repeat' first
    | with_reducible exact Kept.refl _ _
    | with_reducible refine Kept.ite (fun _ => ?_) (fun _ => ?_)
    | with_reducible refine Kept.foldl' ?_ (fun a x => ?_)
    | with_reducible apply Kept.chain (State.modAu_kept _ _ _) (by decide)
    | with_reducible apply Kept.chain (State.setMaskS_kept _ _ _) (by decide)
    | with_reducible apply Kept.chain (post_kept _ _ _) (by decide)
    | with_reducible apply Kept.chain (violation_kept _ _ _ _) (by decide)
    | with_reducible simp (disch := first | decide | (with_unfolding_all constructor <;> first | exact Or.inl (by decide) | exact Or.inr rfl | (constructor <;> first | exact Or.inl (by decide) | exact Or.inr (And.intro rfl rfl)))) only [Kept.upd_fe, Kept.upd_cal, Kept.upd_spec, Kept.upd_acq, Kept.upd_disp, Kept.upd_mon, Kept.upd_tiu, Kept.upd_grove, Kept.upd_mem, Kept.upd_move, Kept.upd_ctl, Kept.upd_flt, Kept.upd_sec, Kept.upd_pwr, Kept.upd_host, Kept.upd_now, Kept.upd_freeNo]
    | split
    | intro _

theorem densTerm_kept (s : State) (x : Spectrum) (T : Stamp) (k : Nat) : Kept [.host, .cmds, .fe, .cal, .spec, .acq, .disp, .mon, .tiu, .grove, .mem, .move, .ctl, .flt, .sec, .pwr] s (densTerm s x T k) := by
  unfold densTerm
  try dsimp only
  repeat' first
    | with_reducible exact Kept.refl _ _
    | with_reducible refine Kept.ite (fun _ => ?_) (fun _ => ?_)
    | with_reducible refine Kept.foldl' ?_ (fun a x => ?_)
    | with_reducible apply Kept.chain (State.setTerm_kept _ _ _) (by decide)
    | with_reducible apply Kept.chain (termEvent_kept _ _ _ _) (by decide)
    | with_reducible apply Kept.chain (termProgress_kept _ _ _ _) (by decide)
    | with_reducible simp (disch := first | decide | (with_unfolding_all constructor <;> first | exact Or.inl (by decide) | exact Or.inr rfl | (constructor <;> first | exact Or.inl (by decide) | exact Or.inr (And.intro rfl rfl)))) only [Kept.upd_fe, Kept.upd_cal, Kept.upd_spec, Kept.upd_acq, Kept.upd_disp, Kept.upd_mon, Kept.upd_tiu, Kept.upd_grove, Kept.upd_mem, Kept.upd_move, Kept.upd_ctl, Kept.upd_flt, Kept.upd_sec, Kept.upd_pwr, Kept.upd_host, Kept.upd_now, Kept.upd_freeNo]
    | split
    | intro _

theorem feedSpectrum_kept (s : State) (i : Nat) (first : Nat) (flags : Nat) (mk : Nat → Nat → List Byte) : Kept [.grove] s (feedSpectrum s i first flags mk) := by
  unfold feedSpectrum
  try dsimp only
  repeat' first
    | with_reducible exact Kept.refl _ _
    | with_reducible refine Kept.ite (fun _ => ?_) (fun _ => ?_)
    | with_reducible refine Kept.foldl' ?_ (fun a x => ?_)
    | with_reducible apply Kept.chain (State.setFeed_kept _ _ _) (by decide)
    | with_reducible apply Kept.chain (feedAdvance_kept _ _) (by decide)
    | with_reducible apply Kept.chain (feedGapPost_kept _ _) (by decide)
    | with_reducible apply Kept.chain (feedWrite_kept _ _ _ _ _) (by decide)
    | with_reducible simp (disch := first | decide | (with_unfolding_all constructor <;> first | exact Or.inl (by decide) | exact Or.inr rfl | (constructor <;> first | exact Or.inl (by decide) | exact Or.inr (And.intro rfl rfl)))) only [Kept.upd_grove, Kept.upd_host, Kept.upd_now, Kept.upd_freeNo]
    | split
    | intro _

theorem feedsTake_kept (s : State) (x : Spectrum) : Kept [.grove] s (feedsTake s x) := by
  unfold feedsTake
  try dsimp only
  repeat' first
    | with_reducible exact Kept.refl _ _
    | with_reducible refine Kept.ite (fun _ => ?_) (fun _ => ?_)
    | with_reducible refine Kept.foldl' ?_ (fun a x => ?_)
    | with_reducible apply Kept.chain (feedSpectrum_kept _ _ _ _ _) (by decide)
    | with_reducible simp (disch := first | decide | (with_unfolding_all constructor <;> first | exact Or.inl (by decide) | exact Or.inr rfl | (constructor <;> first | exact Or.inl (by decide) | exact Or.inr (And.intro rfl rfl)))) only [Kept.upd_grove, Kept.upd_host, Kept.upd_now, Kept.upd_freeNo]
    | split
    | intro _

theorem densHit_kept (s : State) (i : Nat) (idx : Nat) (col : Nat) (row : Nat) : Kept [.disp] s (densHit s i idx col row) := by
  unfold densHit
  try dsimp only
  repeat' first
    | with_reducible exact Kept.refl _ _
    | with_reducible refine Kept.ite (fun _ => ?_) (fun _ => ?_)
    | with_reducible refine Kept.foldl' ?_ (fun a x => ?_)
    | with_reducible apply Kept.chain (State.modDmap_kept _ _ _) (by decide)
    | with_reducible apply Kept.chain (State.setDmap_kept _ _ _) (by decide)
    | with_reducible apply Kept.chain (post_kept _ _ _) (by decide)
    | with_reducible simp (disch := first | decide | (with_unfolding_all constructor <;> first | exact Or.inl (by decide) | exact Or.inr rfl | (constructor <;> first | exact Or.inl (by decide) | exact Or.inr (And.intro rfl rfl)))) only [Kept.upd_disp, Kept.upd_host, Kept.upd_now, Kept.upd_freeNo]
    | split
    | intro _

theorem densColumn_kept (s : State) (i : Nat) (x : Spectrum) (col : Nat) : Kept [.disp] s (densColumn s i x col) := by
  unfold densColumn
  try dsimp only
  repeat' first
    | with_reducible exact Kept.refl _ _
    | with_reducible refine Kept.ite (fun _ => ?_) (fun _ => ?_)
    | with_reducible refine Kept.foldl' ?_ (fun a x => ?_)
    | with_reducible apply Kept.chain (densHit_kept _ _ _ _ _) (by decide)
    | with_reducible simp (disch := first | decide | (with_unfolding_all constructor <;> first | exact Or.inl (by decide) | exact Or.inr rfl | (constructor <;> first | exact Or.inl (by decide) | exact Or.inr (And.intro rfl rfl)))) only [Kept.upd_disp, Kept.upd_host, Kept.upd_now, Kept.upd_freeNo]
    | split
    | intro _

theorem densApply_kept (s : State) (i : Nat) (x : Spectrum) : Kept [.cmds, .disp] s (densApply s i x) := by
  unfold densApply
  try dsimp only
  repeat' first
    | with_reducible exact Kept.refl _ _
    | with_reducible refine Kept.ite (fun _ => ?_) (fun _ => ?_)
    | with_reducible refine Kept.foldl' ?_ (fun a x => ?_)
    | with_reducible apply Kept.chain (State.setDmap_kept _ _ _) (by decide)
    | with_reducible apply Kept.chain (densColumn_kept _ _ _ _) (by decide)
    | with_reducible apply Kept.chain (finishAll_kept _ _ _ _ _ _) (by decide)
    | with_reducible simp (disch := first | decide | (with_unfolding_all constructor <;> first | exact Or.inl (by decide) | exact Or.inr rfl | (constructor <;> first | exact Or.inl (by decide) | exact Or.inr (And.intro rfl rfl)))) only [Kept.upd_disp, Kept.upd_host, Kept.upd_now, Kept.upd_freeNo]
    | split
    | intro _

theorem densTake_kept (s : State) (i : Nat) (x : Spectrum) : Kept [.cmds, .disp] s (densTake s i x) := by
  unfold densTake
  try dsimp only
  repeat' first
    | with_reducible exact Kept.refl _ _
    | with_reducible refine Kept.ite (fun _ => ?_) (fun _ => ?_)
    | with_reducible refine Kept.foldl' ?_ (fun a x => ?_)
    | with_reducible apply Kept.chain (State.setDmap_kept _ _ _) (by decide)
    | with_reducible apply Kept.chain (densApply_kept _ _ _) (by decide)
    | with_reducible simp (disch := first | decide | (with_unfolding_all constructor <;> first | exact Or.inl (by decide) | exact Or.inr rfl | (constructor <;> first | exact Or.inl (by decide) | exact Or.inr (And.intro rfl rfl)))) only [Kept.upd_disp, Kept.upd_host, Kept.upd_now, Kept.upd_freeNo]
    | split
    | intro _

theorem outTake_kept (s : State) (x : Spectrum) : Kept [.host, .cmds, .fe, .cal, .spec, .acq, .disp, .mon, .tiu, .grove, .mem, .move, .ctl, .flt, .sec, .pwr] s (outTake s x) := by
  unfold outTake
  try dsimp only
  repeat' first
    | with_reducible exact Kept.refl _ _
    | with_reducible refine Kept.ite (fun _ => ?_) (fun _ => ?_)
    | with_reducible refine Kept.foldp' ?_ (fun a x => ?_)
    | with_reducible refine Kept.foldq' ?_ (fun a x => ?_)
    | with_reducible refine Kept.foldl' ?_ (fun a x => ?_)
    | with_reducible apply Kept.chain (ringWrite_kept _ _ _) (by decide)
    | with_reducible apply Kept.chain (State.setSout_kept _ _ _) (by decide)
    | with_reducible apply Kept.chain (drained_kept _) (by decide)
    | with_reducible apply Kept.chain (recPull_kept _) (by decide)
    | with_reducible apply Kept.chain (Kept.pair (ringWrite_kept _ _ _) (by assumption)) (by decide)
    | with_reducible simp (disch := first | decide | (with_unfolding_all constructor <;> first | exact Or.inl (by decide) | exact Or.inr rfl | (constructor <;> first | exact Or.inl (by decide) | exact Or.inr (And.intro rfl rfl)))) only [Kept.upd_fe, Kept.upd_cal, Kept.upd_spec, Kept.upd_acq, Kept.upd_disp, Kept.upd_mon, Kept.upd_tiu, Kept.upd_grove, Kept.upd_mem, Kept.upd_move, Kept.upd_ctl, Kept.upd_flt, Kept.upd_sec, Kept.upd_pwr, Kept.upd_host, Kept.upd_now, Kept.upd_freeNo]
    | split
    | intro _

theorem traceTake_kept (s : State) (x : Spectrum) (T : Stamp) (id : Nat) : Kept [.host, .cmds, .fe, .cal, .spec, .acq, .disp, .mon, .tiu, .grove, .mem, .move, .ctl, .flt, .sec, .pwr] s (traceTake s x T id) := by
  unfold traceTake
  try dsimp only
  repeat' first
    | with_reducible exact Kept.refl _ _
    | with_reducible refine Kept.ite (fun _ => ?_) (fun _ => ?_)
    | with_reducible refine Kept.foldl' ?_ (fun a x => ?_)
    | with_reducible apply Kept.chain (State.setTrace_kept _ _ _) (by decide)
    | with_reducible apply Kept.chain (traceWrite_kept _ _ _) (by decide)
    | with_reducible simp (disch := first | decide | (with_unfolding_all constructor <;> first | exact Or.inl (by decide) | exact Or.inr rfl | (constructor <;> first | exact Or.inl (by decide) | exact Or.inr (And.intro rfl rfl)))) only [Kept.upd_fe, Kept.upd_cal, Kept.upd_spec, Kept.upd_acq, Kept.upd_disp, Kept.upd_mon, Kept.upd_tiu, Kept.upd_grove, Kept.upd_mem, Kept.upd_move, Kept.upd_ctl, Kept.upd_flt, Kept.upd_sec, Kept.upd_pwr, Kept.upd_host, Kept.upd_now, Kept.upd_freeNo]
    | split
    | intro _

theorem deliverSpectrum_kept (s : State) (x : Spectrum) (T : Stamp) : Kept [.host, .cmds, .fe, .cal, .spec, .acq, .disp, .mon, .tiu, .grove, .mem, .move, .ctl, .flt, .sec, .pwr] s (deliverSpectrum s x T) := by
  unfold deliverSpectrum
  try dsimp only
  repeat' first
    | with_reducible exact Kept.refl _ _
    | with_reducible refine Kept.ite (fun _ => ?_) (fun _ => ?_)
    | with_reducible refine Kept.foldl' ?_ (fun a x => ?_)
    | with_reducible apply Kept.chain (densTake_kept _ _ _) (by decide)
    | with_reducible apply Kept.chain (densTerm_kept _ _ _ _) (by decide)
    | with_reducible apply Kept.chain (feedsTake_kept _ _) (by decide)
    | with_reducible apply Kept.chain (maskCommit_kept _ _ _) (by decide)
    | with_reducible apply Kept.chain (maskTested_kept _ _ _) (by decide)
    | with_reducible apply Kept.chain (maskTrigger_kept _ _ _ _) (by decide)
    | with_reducible apply Kept.chain (outTake_kept _ _) (by decide)
    | with_reducible apply Kept.chain (traceTake_kept _ _ _ _) (by decide)
    | with_reducible simp (disch := first | decide | (with_unfolding_all constructor <;> first | exact Or.inl (by decide) | exact Or.inr rfl | (constructor <;> first | exact Or.inl (by decide) | exact Or.inr (And.intro rfl rfl)))) only [Kept.upd_fe, Kept.upd_cal, Kept.upd_spec, Kept.upd_acq, Kept.upd_disp, Kept.upd_mon, Kept.upd_tiu, Kept.upd_grove, Kept.upd_mem, Kept.upd_move, Kept.upd_ctl, Kept.upd_flt, Kept.upd_sec, Kept.upd_pwr, Kept.upd_host, Kept.upd_now, Kept.upd_freeNo]
    | split
    | intro _

theorem backState_kept (s : State) (c : Nat) (x0 : Lane) (nextS : Nat) : Kept [.spec] s (backState s c x0 nextS) := by
  unfold backState
  try dsimp only
  repeat' first
    | with_reducible exact Kept.refl _ _
    | with_reducible refine Kept.ite (fun _ => ?_) (fun _ => ?_)
    | with_reducible refine Kept.foldl' ?_ (fun a x => ?_)
    | with_reducible apply Kept.chain (State.modLane_kept _ _ _) (by decide)
    | with_reducible simp (disch := first | decide | (with_unfolding_all constructor <;> first | exact Or.inl (by decide) | exact Or.inr rfl | (constructor <;> first | exact Or.inl (by decide) | exact Or.inr (And.intro rfl rfl)))) only [Kept.upd_spec, Kept.upd_host, Kept.upd_now, Kept.upd_freeNo]
    | split
    | intro _

theorem State.setEpoch_kept (s : State) (id : Nat) (e : Epoch) : Kept [.fe, .spec] s (State.setEpoch s id e) := by
  unfold State.setEpoch
  try dsimp only
  repeat' first
    | with_reducible exact Kept.refl _ _
    | with_reducible refine Kept.ite (fun _ => ?_) (fun _ => ?_)
    | with_reducible refine Kept.foldl' ?_ (fun a x => ?_)
    | with_reducible apply Kept.chain (State.modDdc_kept _ _ _) (by decide)
    | with_reducible apply Kept.chain (State.modStr_kept _ _ _) (by decide)
    | with_reducible simp (disch := first | decide | (with_unfolding_all constructor <;> first | exact Or.inl (by decide) | exact Or.inr rfl | (constructor <;> first | exact Or.inl (by decide) | exact Or.inr (And.intro rfl rfl)))) only [Kept.upd_fe, Kept.upd_spec, Kept.upd_host, Kept.upd_now, Kept.upd_freeNo]
    | split
    | intro _

theorem withEpoch_kept {l : List Part} (s : State) (id : Nat) (e : Epoch) (f : State → State) (hm : ∀ x ∈ [.fe, .spec], x ∈ l) (h : ∀ a, Kept l a (f a)) : Kept l s (withEpoch s id e f) := by
  unfold withEpoch
  dsimp only
  refine Kept.ite (fun _ => h _) fun _ => ?_
  exact Kept.chain (State.setEpoch_kept _ _ _) hm ((Kept.chain (State.setEpoch_kept _ _ _) hm (Kept.refl _ _)).trans (h _))

theorem withEpoch_then {l : List Part} {r s : State} {id : Nat} {e : Epoch} {f : State → State} (hm : ∀ x ∈ [.fe, .spec], x ∈ l) (h : Kept l r s) (hg : ∀ a, Kept l a (f a)) :
    Kept l r (withEpoch s id e f) := h.trans (withEpoch_kept s id e f hm hg)

theorem computeSpectrum_kept (s : State) (c : Nat) (margin : Nat) : Kept [.host, .cmds, .fe, .cal, .spec, .acq, .disp, .mon, .tiu, .grove, .mem, .move, .ctl, .flt, .sec, .pwr] s (computeSpectrum s c margin) := by
  unfold computeSpectrum
  try dsimp only
  repeat' first
    | with_reducible exact Kept.refl _ _
    | with_reducible refine Kept.ite (fun _ => ?_) (fun _ => ?_)
    | with_reducible refine Kept.foldl' ?_ (fun a x => ?_)
    | with_reducible apply Kept.chain (State.setLane_kept _ _ _) (by decide)
    | with_reducible apply Kept.chain (backState_kept _ _ _ _) (by decide)
    | with_reducible apply Kept.chain (clearOnce_kept _ _) (by decide)
    | with_reducible apply Kept.chain (deliverSpectrum_kept _ _ _) (by decide)
    | with_reducible apply Kept.chain (frontState_kept _ _) (by decide)
    | with_reducible apply Kept.chain (laneForget_kept _ _) (by decide)
    | with_reducible apply Kept.chain (laneFront_kept _ _) (by decide)
    | with_reducible apply Kept.chain (perfAdd_kept _ _ _ _) (by decide)
    | with_reducible refine withEpoch_then (by decide) ?_ (fun a => ?_)
    | with_reducible simp (disch := first | decide | (with_unfolding_all constructor <;> first | exact Or.inl (by decide) | exact Or.inr rfl | (constructor <;> first | exact Or.inl (by decide) | exact Or.inr (And.intro rfl rfl)))) only [Kept.upd_fe, Kept.upd_cal, Kept.upd_spec, Kept.upd_acq, Kept.upd_disp, Kept.upd_mon, Kept.upd_tiu, Kept.upd_grove, Kept.upd_mem, Kept.upd_move, Kept.upd_ctl, Kept.upd_flt, Kept.upd_sec, Kept.upd_pwr, Kept.upd_host, Kept.upd_now, Kept.upd_freeNo]
    | split
    | intro _

theorem tagDetect_kept (s : State) (id : Nat) (i : FaultInfo) : Kept [.host, .cmds, .fe, .cal, .spec, .acq, .disp, .mon, .tiu, .grove, .mem, .move, .ctl, .flt, .sec, .pwr] s (tagDetect s id i) := by
  unfold tagDetect
  try dsimp only
  repeat' first
    | with_reducible exact Kept.refl _ _
    | with_reducible refine Kept.ite (fun _ => ?_) (fun _ => ?_)
    | with_reducible refine Kept.foldl' ?_ (fun a x => ?_)
    | with_reducible apply Kept.chain (markSuspect_kept _ _) (by decide)
    | with_reducible apply Kept.chain (raiseFault_kept _ _ _) (by decide)
    | with_reducible simp (disch := first | decide | (with_unfolding_all constructor <;> first | exact Or.inl (by decide) | exact Or.inr rfl | (constructor <;> first | exact Or.inl (by decide) | exact Or.inr (And.intro rfl rfl)))) only [Kept.upd_fe, Kept.upd_cal, Kept.upd_spec, Kept.upd_acq, Kept.upd_disp, Kept.upd_mon, Kept.upd_tiu, Kept.upd_grove, Kept.upd_mem, Kept.upd_move, Kept.upd_ctl, Kept.upd_flt, Kept.upd_sec, Kept.upd_pwr, Kept.upd_host, Kept.upd_now, Kept.upd_freeNo]
    | split
    | intro _

theorem coreStop_kept (s : State) (n : Nat) (cause : Nat) (faddr : Nat) : Kept [.host, .cmds, .fe, .cal, .spec, .acq, .disp, .mon, .tiu, .grove, .mem, .move, .ctl, .flt, .sec, .pwr] s (coreStop s n cause faddr) := coreStopWith_kept _ (fun _ _ _ => raiseFault_kept _ _ _) (by decide) (by decide) (by decide) _ _ _ _

theorem onDieDetect_kept (s : State) (id : Nat) (i : FaultInfo) : Kept [.host, .cmds, .fe, .cal, .spec, .acq, .disp, .mon, .tiu, .grove, .mem, .move, .ctl, .flt, .sec, .pwr] s (onDieDetect s id i) := by
  unfold onDieDetect
  try dsimp only
  repeat' first
    | with_reducible exact Kept.refl _ _
    | with_reducible refine Kept.ite (fun _ => ?_) (fun _ => ?_)
    | with_reducible refine Kept.foldl' ?_ (fun a x => ?_)
    | with_reducible apply Kept.chain (State.modMaskS_kept _ _ _) (by decide)
    | with_reducible apply Kept.chain (coreStop_kept _ _ _ _) (by decide)
    | with_reducible apply Kept.chain (raiseFault_kept _ _ _) (by decide)
    | with_reducible simp (disch := first | decide | (with_unfolding_all constructor <;> first | exact Or.inl (by decide) | exact Or.inr rfl | (constructor <;> first | exact Or.inl (by decide) | exact Or.inr (And.intro rfl rfl)))) only [Kept.upd_fe, Kept.upd_cal, Kept.upd_spec, Kept.upd_acq, Kept.upd_disp, Kept.upd_mon, Kept.upd_tiu, Kept.upd_grove, Kept.upd_mem, Kept.upd_move, Kept.upd_ctl, Kept.upd_flt, Kept.upd_sec, Kept.upd_pwr, Kept.upd_host, Kept.upd_now, Kept.upd_freeNo]
    | split
    | intro _

end Sys2Proof.Machine
end

