-- ==== Sys2Proof/Laws/Frames5.lean ====
section
/-! SUPPORT. Frames of the shared operations (part 6 of 8): the parts of the engine that each can change, and, where the host interface is
not among them, that it changes only the event ring and its signals. -/

set_option linter.unusedTactic false
set_option linter.unreachableTactic false
set_option linter.unusedVariables false
set_option linter.unusedSimpArgs false

namespace Sys2Proof.Machine

theorem detect_kept (s : State) (id : Nat) (i : FaultInfo) : Kept [.host, .cmds, .fe, .clk, .cal, .spec, .acq, .disp, .mon, .tiu, .grove, .mem, .move, .aux, .ctl, .flt, .sec, .pwr] s (detect s id i) := by
  unfold detect
  try dsimp only
  repeat' first
    | with_reducible exact Kept.refl _ _
    | with_reducible refine Kept.ite (fun _ => ?_) (fun _ => ?_)
    | with_reducible refine Kept.foldp' ?_ (fun a x => ?_)
    | with_reducible refine Kept.foldq' ?_ (fun a x => ?_)
    | with_reducible refine Kept.foldl' ?_ (fun a x => ?_)
    | with_reducible apply Kept.chain (drawFree_kept _ _) (by decide)
    | with_reducible apply Kept.chain (lockLoss_kept _ _ _ _) (by decide)
    | with_reducible apply Kept.chain (nodeLoss_kept _ _) (by decide)
    | with_reducible apply Kept.chain (onDieDetect_kept _ _ _) (by decide)
    | with_reducible apply Kept.chain (refInLoss_kept _ _ _ _) (by decide)
    | with_reducible apply Kept.chain (tagDetect_kept _ _ _) (by decide)
    | with_reducible simp (disch := first | decide | (with_unfolding_all constructor <;> first | exact Or.inl (by decide) | exact Or.inr rfl | (constructor <;> first | exact Or.inl (by decide) | exact Or.inr (And.intro rfl rfl)))) only [Kept.upd_fe, Kept.upd_clk, Kept.upd_cal, Kept.upd_spec, Kept.upd_acq, Kept.upd_disp, Kept.upd_mon, Kept.upd_tiu, Kept.upd_grove, Kept.upd_mem, Kept.upd_move, Kept.upd_aux, Kept.upd_ctl, Kept.upd_flt, Kept.upd_sec, Kept.upd_pwr, Kept.upd_host, Kept.upd_now, Kept.upd_freeNo]
    | split
    | intro _

theorem State.setActive_kept (s : State) (id : Nat) (on : Bool) : Kept [.flt] s (State.setActive s id on) := by
  unfold State.setActive
  try dsimp only
  repeat' first
    | with_reducible exact Kept.refl _ _
    | with_reducible refine Kept.ite (fun _ => ?_) (fun _ => ?_)
    | with_reducible refine Kept.foldl' ?_ (fun a x => ?_)
    | with_reducible simp (disch := first | decide | (with_unfolding_all constructor <;> first | exact Or.inl (by decide) | exact Or.inr rfl | (constructor <;> first | exact Or.inl (by decide) | exact Or.inr (And.intro rfl rfl)))) only [Kept.upd_flt, Kept.upd_host, Kept.upd_now, Kept.upd_freeNo]
    | split
    | intro _

theorem detectEnd_kept (s : State) (id : Nat) : Kept [.fe, .flt] s (detectEnd s id) := by
  unfold detectEnd
  try dsimp only
  repeat' first
    | with_reducible exact Kept.refl _ _
    | with_reducible refine Kept.ite (fun _ => ?_) (fun _ => ?_)
    | with_reducible refine Kept.foldl' ?_ (fun a x => ?_)
    | with_reducible apply Kept.chain (State.setActive_kept _ _ _) (by decide)
    | with_reducible apply Kept.chain (markSuspect_kept _ _) (by decide)
    | with_reducible simp (disch := first | decide | (with_unfolding_all constructor <;> first | exact Or.inl (by decide) | exact Or.inr rfl | (constructor <;> first | exact Or.inl (by decide) | exact Or.inr (And.intro rfl rfl)))) only [Kept.upd_fe, Kept.upd_flt, Kept.upd_host, Kept.upd_now, Kept.upd_freeNo]
    | split
    | intro _

theorem winClose_kept (s : State) (w : Win) : Kept [.host, .fe, .cal, .spec, .acq, .disp, .mon, .tiu, .grove, .mem, .move, .ctl, .flt, .sec, .pwr] s (winClose s w) := by
  unfold winClose
  try dsimp only
  repeat' first
    | with_reducible exact Kept.refl _ _
    | with_reducible refine Kept.ite (fun _ => ?_) (fun _ => ?_)
    | with_reducible refine Kept.foldl' ?_ (fun a x => ?_)
    | with_reducible apply Kept.chain (post_kept _ _ _) (by decide)
    | with_reducible apply Kept.chain (raiseQuiet_kept _ _ _ (by first | (unfold quietSource; decide) | exact quiet_rank _ _ _ (by decide))) (by decide)
    | with_reducible simp (disch := first | decide | (with_unfolding_all constructor <;> first | exact Or.inl (by decide) | exact Or.inr rfl | (constructor <;> first | exact Or.inl (by decide) | exact Or.inr (And.intro rfl rfl)))) only [Kept.upd_fe, Kept.upd_cal, Kept.upd_spec, Kept.upd_acq, Kept.upd_disp, Kept.upd_mon, Kept.upd_tiu, Kept.upd_grove, Kept.upd_mem, Kept.upd_move, Kept.upd_ctl, Kept.upd_flt, Kept.upd_sec, Kept.upd_pwr, Kept.upd_host, Kept.upd_now, Kept.upd_freeNo]
    | split
    | intro _

theorem recover_kept (s : State) : Kept [.host, .acq, .pwr] s (recover s) := by
  unfold recover
  try dsimp only
  repeat' first
    | with_reducible exact Kept.refl _ _
    | with_reducible refine Kept.ite (fun _ => ?_) (fun _ => ?_)
    | with_reducible refine Kept.foldl' ?_ (fun a x => ?_)
    | with_reducible apply Kept.chain (State.modPin_kept _ _ _) (by decide)
    | with_reducible apply Kept.chain (drivePins_kept _) (by decide)
    | with_reducible apply Kept.chain (post_kept _ _ _) (by decide)
    | with_reducible simp (disch := first | decide | (with_unfolding_all constructor <;> first | exact Or.inl (by decide) | exact Or.inr rfl | (constructor <;> first | exact Or.inl (by decide) | exact Or.inr (And.intro rfl rfl)))) only [Kept.upd_host_pwr, Kept.upd_acq, Kept.upd_pwr, Kept.upd_host, Kept.upd_now, Kept.upd_freeNo]
    | split
    | intro _

theorem clearGroups_kept (s : State) (m : Nat) : Kept [.flt] s (clearGroups s m) := by
  unfold clearGroups
  try dsimp only
  repeat' first
    | with_reducible exact Kept.refl _ _
    | with_reducible refine Kept.ite (fun _ => ?_) (fun _ => ?_)
    | with_reducible refine Kept.foldl' ?_ (fun a x => ?_)
    | with_reducible simp (disch := first | decide | (with_unfolding_all constructor <;> first | exact Or.inl (by decide) | exact Or.inr rfl | (constructor <;> first | exact Or.inl (by decide) | exact Or.inr (And.intro rfl rfl)))) only [Kept.upd_flt, Kept.upd_host, Kept.upd_now, Kept.upd_freeNo]
    | split
    | intro _

theorem modPorts_kept (s : State) (ps : List Nat) (f : Port → Port) : Kept [.disp] s (modPorts s ps f) := by
  unfold modPorts
  try dsimp only
  repeat' first
    | with_reducible exact Kept.refl _ _
    | with_reducible refine Kept.ite (fun _ => ?_) (fun _ => ?_)
    | with_reducible refine Kept.foldl' ?_ (fun a x => ?_)
    | with_reducible apply Kept.chain (State.modPort_kept _ _ _) (by decide)
    | with_reducible simp (disch := first | decide | (with_unfolding_all constructor <;> first | exact Or.inl (by decide) | exact Or.inr rfl | (constructor <;> first | exact Or.inl (by decide) | exact Or.inr (And.intro rfl rfl)))) only [Kept.upd_disp, Kept.upd_host, Kept.upd_now, Kept.upd_freeNo]
    | split
    | intro _

theorem clearRange_kept (s : State) (a : Nat) (n : Nat) : Kept [.mem] s (clearRange s a n) := by
  unfold clearRange
  try dsimp only
  repeat' first
    | with_reducible exact Kept.refl _ _
    | with_reducible refine Kept.ite (fun _ => ?_) (fun _ => ?_)
    | with_reducible refine Kept.foldl' ?_ (fun a x => ?_)
    | with_reducible simp (disch := first | decide | (with_unfolding_all constructor <;> first | exact Or.inl (by decide) | exact Or.inr rfl | (constructor <;> first | exact Or.inl (by decide) | exact Or.inr (And.intro rfl rfl)))) only [Kept.upd_mem, Kept.upd_host, Kept.upd_now, Kept.upd_freeNo]
    | split
    | intro _

theorem regFree_kept (s : State) (h : Nat) : Kept [.mem] s (regFree s h) := by
  unfold regFree
  try dsimp only
  repeat' first
    | with_reducible exact Kept.refl _ _
    | with_reducible refine Kept.ite (fun _ => ?_) (fun _ => ?_)
    | with_reducible refine Kept.foldl' ?_ (fun a x => ?_)
    | with_reducible apply Kept.chain (State.setReg_kept _ _ _) (by decide)
    | with_reducible apply Kept.chain (clearRange_kept _ _ _) (by decide)
    | with_reducible simp (disch := first | decide | (with_unfolding_all constructor <;> first | exact Or.inl (by decide) | exact Or.inr rfl | (constructor <;> first | exact Or.inl (by decide) | exact Or.inr (And.intro rfl rfl)))) only [Kept.upd_mem, Kept.upd_host, Kept.upd_now, Kept.upd_freeNo]
    | split
    | intro _

theorem regGone_kept (s : State) (h : Nat) : Kept [.disp, .mem] s (regGone s h) := by
  unfold regGone
  try dsimp only
  repeat' first
    | with_reducible exact Kept.refl _ _
    | with_reducible refine Kept.ite (fun _ => ?_) (fun _ => ?_)
    | with_reducible refine Kept.foldl' ?_ (fun a x => ?_)
    | with_reducible apply Kept.chain (modPorts_kept _ _ _) (by decide)
    | with_reducible apply Kept.chain (regFree_kept _ _) (by decide)
    | with_reducible simp (disch := first | decide | (with_unfolding_all constructor <;> first | exact Or.inl (by decide) | exact Or.inr rfl | (constructor <;> first | exact Or.inl (by decide) | exact Or.inr (And.intro rfl rfl)))) only [Kept.upd_disp, Kept.upd_mem, Kept.upd_host, Kept.upd_now, Kept.upd_freeNo]
    | split
    | intro _

theorem regRead_kept (s : State) (h : Nat) (off : Nat) (n : Nat) (rd : Reader) : Kept [.host, .fe, .cal, .spec, .acq, .disp, .mon, .tiu, .grove, .mem, .move, .ctl, .flt, .sec, .pwr] s ((regRead s h off n rd).2.2) := memRead_kept _ _ _ _

theorem fetchBytes_kept (s : State) (p : Nat) (h : Nat) (off : Nat) (n : Nat) : Kept [.host, .cmds, .fe, .cal, .spec, .acq, .disp, .mon, .tiu, .grove, .mem, .move, .ctl, .flt, .sec, .pwr] s ((fetchBytes s p h off n).2.2) := by
  unfold fetchBytes
  try dsimp only
  repeat' first
    | with_reducible exact Kept.refl _ _
    | with_reducible refine Kept.ite (fun _ => ?_) (fun _ => ?_)
    | with_reducible refine Kept.foldp' ?_ (fun a x => ?_)
    | with_reducible refine Kept.foldq' ?_ (fun a x => ?_)
    | with_reducible refine Kept.foldl' ?_ (fun a x => ?_)
    | with_reducible apply Kept.chain (regRead_kept _ _ _ _ _) (by decide)
    | with_reducible apply Kept.chain (raiseFault_kept _ _ _) (by decide)
    | with_reducible simp (disch := first | decide | (with_unfolding_all constructor <;> first | exact Or.inl (by decide) | exact Or.inr rfl | (constructor <;> first | exact Or.inl (by decide) | exact Or.inr (And.intro rfl rfl)))) only [Kept.upd_fe, Kept.upd_cal, Kept.upd_spec, Kept.upd_acq, Kept.upd_disp, Kept.upd_mon, Kept.upd_tiu, Kept.upd_grove, Kept.upd_mem, Kept.upd_move, Kept.upd_ctl, Kept.upd_flt, Kept.upd_sec, Kept.upd_pwr, Kept.upd_host, Kept.upd_now, Kept.upd_freeNo]
    | split
    | intro _

theorem fetchL1_kept (s : State) (p : Nat) (l : Layer) (l2 : Layer) (W : Nat) (y : Nat) : Kept [.host, .cmds, .fe, .cal, .spec, .acq, .disp, .mon, .tiu, .grove, .mem, .move, .ctl, .flt, .sec, .pwr] s ((fetchL1 s p l l2 W y).2.2) := by
  unfold fetchL1
  try dsimp only
  repeat' first
    | with_reducible exact Kept.refl _ _
    | with_reducible refine Kept.ite (fun _ => ?_) (fun _ => ?_)
    | with_reducible refine Kept.foldp' ?_ (fun a x => ?_)
    | with_reducible refine Kept.foldq' ?_ (fun a x => ?_)
    | with_reducible refine Kept.foldl' ?_ (fun a x => ?_)
    | with_reducible apply Kept.chain (fetchBytes_kept _ _ _ _ _) (by decide)
    | with_reducible simp (disch := first | decide | (with_unfolding_all constructor <;> first | exact Or.inl (by decide) | exact Or.inr rfl | (constructor <;> first | exact Or.inl (by decide) | exact Or.inr (And.intro rfl rfl)))) only [Kept.upd_fe, Kept.upd_cal, Kept.upd_spec, Kept.upd_acq, Kept.upd_disp, Kept.upd_mon, Kept.upd_tiu, Kept.upd_grove, Kept.upd_mem, Kept.upd_move, Kept.upd_ctl, Kept.upd_flt, Kept.upd_sec, Kept.upd_pwr, Kept.upd_host, Kept.upd_now, Kept.upd_freeNo]
    | split
    | intro _

theorem fetchL2_kept (s : State) (p : Nat) (l : Layer) (W : Nat) (y : Nat) : Kept [.host, .cmds, .fe, .cal, .spec, .acq, .disp, .mon, .tiu, .grove, .mem, .move, .ctl, .flt, .sec, .pwr] s ((fetchL2 s p l W y).2.2) := by
  unfold fetchL2
  try dsimp only
  repeat' first
    | with_reducible exact Kept.refl _ _
    | with_reducible refine Kept.ite (fun _ => ?_) (fun _ => ?_)
    | with_reducible refine Kept.foldp' ?_ (fun a x => ?_)
    | with_reducible refine Kept.foldq' ?_ (fun a x => ?_)
    | with_reducible refine Kept.foldl' ?_ (fun a x => ?_)
    | with_reducible apply Kept.chain (fetchBytes_kept _ _ _ _ _) (by decide)
    | with_reducible simp (disch := first | decide | (with_unfolding_all constructor <;> first | exact Or.inl (by decide) | exact Or.inr rfl | (constructor <;> first | exact Or.inl (by decide) | exact Or.inr (And.intro rfl rfl)))) only [Kept.upd_fe, Kept.upd_cal, Kept.upd_spec, Kept.upd_acq, Kept.upd_disp, Kept.upd_mon, Kept.upd_tiu, Kept.upd_grove, Kept.upd_mem, Kept.upd_move, Kept.upd_ctl, Kept.upd_flt, Kept.upd_sec, Kept.upd_pwr, Kept.upd_host, Kept.upd_now, Kept.upd_freeNo]
    | split
    | intro _

theorem fetchL3_kept (s : State) (p : Nat) (l : Layer) (W : Nat) (y : Nat) : Kept [.host, .cmds, .fe, .cal, .spec, .acq, .disp, .mon, .tiu, .grove, .mem, .move, .ctl, .flt, .sec, .pwr] s ((fetchL3 s p l W y).2.2) := by
  unfold fetchL3
  try dsimp only
  repeat' first
    | with_reducible exact Kept.refl _ _
    | with_reducible refine Kept.ite (fun _ => ?_) (fun _ => ?_)
    | with_reducible refine Kept.foldp' ?_ (fun a x => ?_)
    | with_reducible refine Kept.foldq' ?_ (fun a x => ?_)
    | with_reducible refine Kept.foldl' ?_ (fun a x => ?_)
    | with_reducible apply Kept.chain (fetchBytes_kept _ _ _ _ _) (by decide)
    | with_reducible simp (disch := first | decide | (with_unfolding_all constructor <;> first | exact Or.inl (by decide) | exact Or.inr rfl | (constructor <;> first | exact Or.inl (by decide) | exact Or.inr (And.intro rfl rfl)))) only [Kept.upd_fe, Kept.upd_cal, Kept.upd_spec, Kept.upd_acq, Kept.upd_disp, Kept.upd_mon, Kept.upd_tiu, Kept.upd_grove, Kept.upd_mem, Kept.upd_move, Kept.upd_ctl, Kept.upd_flt, Kept.upd_sec, Kept.upd_pwr, Kept.upd_host, Kept.upd_now, Kept.upd_freeNo]
    | split
    | intro _

theorem fetchLine_kept (s : State) (p : Nat) (y : Nat) : Kept [.host, .cmds, .fe, .cal, .spec, .acq, .disp, .mon, .tiu, .grove, .mem, .move, .ctl, .flt, .sec, .pwr] s (fetchLine s p y) := by
  unfold fetchLine
  try dsimp only
  repeat' first
    | with_reducible exact Kept.refl _ _
    | with_reducible refine Kept.ite (fun _ => ?_) (fun _ => ?_)
    | with_reducible refine Kept.foldp' ?_ (fun a x => ?_)
    | with_reducible refine Kept.foldq' ?_ (fun a x => ?_)
    | with_reducible refine Kept.foldl' ?_ (fun a x => ?_)
    | with_reducible apply Kept.chain (fetchL1_kept _ _ _ _ _ _) (by decide)
    | with_reducible apply Kept.chain (fetchL2_kept _ _ _ _ _) (by decide)
    | with_reducible apply Kept.chain (fetchL3_kept _ _ _ _ _) (by decide)
    | with_reducible apply Kept.chain (State.modPort_kept _ _ _) (by decide)
    | with_reducible simp (disch := first | decide | (with_unfolding_all constructor <;> first | exact Or.inl (by decide) | exact Or.inr rfl | (constructor <;> first | exact Or.inl (by decide) | exact Or.inr (And.intro rfl rfl)))) only [Kept.upd_fe, Kept.upd_cal, Kept.upd_spec, Kept.upd_acq, Kept.upd_disp, Kept.upd_mon, Kept.upd_tiu, Kept.upd_grove, Kept.upd_mem, Kept.upd_move, Kept.upd_ctl, Kept.upd_flt, Kept.upd_sec, Kept.upd_pwr, Kept.upd_host, Kept.upd_now, Kept.upd_freeNo]
    | split
    | intro _

theorem sendLine_kept (s : State) (p : Nat) (y : Nat) (under : List Nat) : Kept [.disp] s (sendLine s p y under) := by
  unfold sendLine
  try dsimp only
  repeat' first
    | with_reducible exact Kept.refl _ _
    | with_reducible refine Kept.ite (fun _ => ?_) (fun _ => ?_)
    | with_reducible refine Kept.foldl' ?_ (fun a x => ?_)
    | with_reducible apply Kept.chain (State.modPort_kept _ _ _) (by decide)
    | with_reducible simp (disch := first | decide | (with_unfolding_all constructor <;> first | exact Or.inl (by decide) | exact Or.inr rfl | (constructor <;> first | exact Or.inl (by decide) | exact Or.inr (And.intro rfl rfl)))) only [Kept.upd_disp, Kept.upd_host, Kept.upd_now, Kept.upd_freeNo]
    | split
    | intro _

theorem startTiming_kept (s : State) (p : Nat) : Kept [.host, .cmds, .fe, .cal, .spec, .acq, .disp, .mon, .tiu, .grove, .mem, .move, .ctl, .flt, .sec, .pwr] s (startTiming s p) := by
  unfold startTiming
  try dsimp only
  repeat' first
    | with_reducible exact Kept.refl _ _
    | with_reducible refine Kept.ite (fun _ => ?_) (fun _ => ?_)
    | with_reducible refine Kept.foldl' ?_ (fun a x => ?_)
    | with_reducible apply Kept.chain (State.modPort_kept _ _ _) (by decide)
    | with_reducible apply Kept.chain (fetchLine_kept _ _ _) (by decide)
    | with_reducible simp (disch := first | decide | (with_unfolding_all constructor <;> first | exact Or.inl (by decide) | exact Or.inr rfl | (constructor <;> first | exact Or.inl (by decide) | exact Or.inr (And.intro rfl rfl)))) only [Kept.upd_fe, Kept.upd_cal, Kept.upd_spec, Kept.upd_acq, Kept.upd_disp, Kept.upd_mon, Kept.upd_tiu, Kept.upd_grove, Kept.upd_mem, Kept.upd_move, Kept.upd_ctl, Kept.upd_flt, Kept.upd_sec, Kept.upd_pwr, Kept.upd_host, Kept.upd_now, Kept.upd_freeNo]
    | split
    | intro _

theorem lineStart_kept (s : State) (p : Nat) (long : Bool) (under : List Nat) : Kept [.host, .cmds, .fe, .cal, .spec, .acq, .disp, .mon, .tiu, .grove, .mem, .move, .ctl, .flt, .sec, .pwr] s (lineStart s p long under) := by
  unfold lineStart
  try dsimp only
  repeat' first
    | with_reducible exact Kept.refl _ _
    | with_reducible refine Kept.ite (fun _ => ?_) (fun _ => ?_)
    | with_reducible refine Kept.foldl' ?_ (fun a x => ?_)
    | with_reducible apply Kept.chain (State.setPort_kept _ _ _) (by decide)
    | with_reducible apply Kept.chain (dmaPulse_kept _ _) (by decide)
    | with_reducible apply Kept.chain (fetchLine_kept _ _ _) (by decide)
    | with_reducible apply Kept.chain (post_kept _ _ _) (by decide)
    | with_reducible apply Kept.chain (sendLine_kept _ _ _ _) (by decide)
    | with_reducible simp (disch := first | decide | (with_unfolding_all constructor <;> first | exact Or.inl (by decide) | exact Or.inr rfl | (constructor <;> first | exact Or.inl (by decide) | exact Or.inr (And.intro rfl rfl)))) only [Kept.upd_fe, Kept.upd_cal, Kept.upd_spec, Kept.upd_acq, Kept.upd_disp, Kept.upd_mon, Kept.upd_tiu, Kept.upd_grove, Kept.upd_mem, Kept.upd_move, Kept.upd_ctl, Kept.upd_flt, Kept.upd_sec, Kept.upd_pwr, Kept.upd_host, Kept.upd_now, Kept.upd_freeNo]
    | split
    | intro _

theorem endRefs_kept (s : State) (p : Nat) (last : Bool) : Kept [.disp, .mem] s (endRefs s p last) := by
  unfold endRefs
  try dsimp only
  repeat' first
    | with_reducible exact Kept.refl _ _
    | with_reducible refine Kept.ite (fun _ => ?_) (fun _ => ?_)
    | with_reducible refine Kept.foldl' ?_ (fun a x => ?_)
    | with_reducible apply Kept.chain (State.setPort_kept _ _ _) (by decide)
    | with_reducible apply Kept.chain (post_kept _ _ _) (by decide)
    | with_reducible apply Kept.chain (regGone_kept _ _) (by decide)
    | with_reducible simp (disch := first | decide | (with_unfolding_all constructor <;> first | exact Or.inl (by decide) | exact Or.inr rfl | (constructor <;> first | exact Or.inl (by decide) | exact Or.inr (And.intro rfl rfl)))) only [Kept.upd_disp, Kept.upd_mem, Kept.upd_host, Kept.upd_now, Kept.upd_freeNo]
    | split
    | intro _

theorem frameUnderrun_kept (s : State) (p : Nat) : Kept [.host, .cmds, .fe, .cal, .spec, .acq, .disp, .mon, .tiu, .grove, .mem, .move, .ctl, .flt, .sec, .pwr] s (frameUnderrun s p) := by
  unfold frameUnderrun
  try dsimp only
  repeat' first
    | with_reducible exact Kept.refl _ _
    | with_reducible refine Kept.ite (fun _ => ?_) (fun _ => ?_)
    | with_reducible refine Kept.foldl' ?_ (fun a x => ?_)
    | with_reducible apply Kept.chain (State.setPort_kept _ _ _) (by decide)
    | with_reducible apply Kept.chain (post_kept _ _ _) (by decide)
    | with_reducible apply Kept.chain (raiseFault_kept _ _ _) (by decide)
    | with_reducible simp (disch := first | decide | (with_unfolding_all constructor <;> first | exact Or.inl (by decide) | exact Or.inr rfl | (constructor <;> first | exact Or.inl (by decide) | exact Or.inr (And.intro rfl rfl)))) only [Kept.upd_fe, Kept.upd_cal, Kept.upd_spec, Kept.upd_acq, Kept.upd_disp, Kept.upd_mon, Kept.upd_tiu, Kept.upd_grove, Kept.upd_mem, Kept.upd_move, Kept.upd_ctl, Kept.upd_flt, Kept.upd_sec, Kept.upd_pwr, Kept.upd_host, Kept.upd_now, Kept.upd_freeNo]
    | split
    | intro _

theorem trainFail_kept (s : State) (p : Nat) : Kept [.cmds, .disp] s (trainFail s p) := by
  unfold trainFail
  try dsimp only
  repeat' first
    | with_reducible exact Kept.refl _ _
    | with_reducible refine Kept.ite (fun _ => ?_) (fun _ => ?_)
    | with_reducible refine Kept.foldl' ?_ (fun a x => ?_)
    | with_reducible apply Kept.chain (finishAll_kept _ _ _ _ _ _) (by decide)
    | with_reducible apply Kept.chain (modPorts_kept _ _ _) (by decide)
    | with_reducible simp (disch := first | decide | (with_unfolding_all constructor <;> first | exact Or.inl (by decide) | exact Or.inr rfl | (constructor <;> first | exact Or.inl (by decide) | exact Or.inr (And.intro rfl rfl)))) only [Kept.upd_disp, Kept.upd_host, Kept.upd_now, Kept.upd_freeNo]
    | split
    | intro _

theorem startTraining_kept (s : State) (p : Nat) : Kept [.cmds, .disp] s (startTraining s p) := by
  unfold startTraining
  try dsimp only
  repeat' first
    | with_reducible exact Kept.refl _ _
    | with_reducible refine Kept.ite (fun _ => ?_) (fun _ => ?_)
    | with_reducible refine Kept.foldl' ?_ (fun a x => ?_)
    | with_reducible apply Kept.chain (modPorts_kept _ _ _) (by decide)
    | with_reducible apply Kept.chain (trainFail_kept _ _) (by decide)
    | with_reducible simp (disch := first | decide | (with_unfolding_all constructor <;> first | exact Or.inl (by decide) | exact Or.inr rfl | (constructor <;> first | exact Or.inl (by decide) | exact Or.inr (And.intro rfl rfl)))) only [Kept.upd_disp, Kept.upd_host, Kept.upd_now, Kept.upd_freeNo]
    | split
    | intro _

theorem startVideo_kept (s : State) (ps : List Nat) : Kept [.host, .cmds, .fe, .cal, .spec, .acq, .disp, .mon, .tiu, .grove, .mem, .move, .ctl, .flt, .sec, .pwr] s (startVideo s ps) := by
  unfold startVideo
  try dsimp only
  repeat' first
    | with_reducible exact Kept.refl _ _
    | with_reducible refine Kept.ite (fun _ => ?_) (fun _ => ?_)
    | with_reducible refine Kept.foldl' ?_ (fun a x => ?_)
    | with_reducible apply Kept.chain (State.modPort_kept _ _ _) (by decide)
    | with_reducible apply Kept.chain (startTiming_kept _ _) (by decide)
    | with_reducible simp (disch := first | decide | (with_unfolding_all constructor <;> first | exact Or.inl (by decide) | exact Or.inr rfl | (constructor <;> first | exact Or.inl (by decide) | exact Or.inr (And.intro rfl rfl)))) only [Kept.upd_fe, Kept.upd_cal, Kept.upd_spec, Kept.upd_acq, Kept.upd_disp, Kept.upd_mon, Kept.upd_tiu, Kept.upd_grove, Kept.upd_mem, Kept.upd_move, Kept.upd_ctl, Kept.upd_flt, Kept.upd_sec, Kept.upd_pwr, Kept.upd_host, Kept.upd_now, Kept.upd_freeNo]
    | split
    | intro _

theorem powerOn_kept (s : State) (ps : List Nat) : Kept [.disp] s (powerOn s ps) := by
  unfold powerOn
  try dsimp only
  repeat' first
    | with_reducible exact Kept.refl _ _
    | with_reducible refine Kept.ite (fun _ => ?_) (fun _ => ?_)
    | with_reducible refine Kept.foldl' ?_ (fun a x => ?_)
    | with_reducible apply Kept.chain (modPorts_kept _ _ _) (by decide)
    | with_reducible simp (disch := first | decide | (with_unfolding_all constructor <;> first | exact Or.inl (by decide) | exact Or.inr rfl | (constructor <;> first | exact Or.inl (by decide) | exact Or.inr (And.intro rfl rfl)))) only [Kept.upd_disp, Kept.upd_host, Kept.upd_now, Kept.upd_freeNo]
    | split
    | intro _

theorem endVideo_kept (s : State) (p : Nat) : Kept [.disp] s (endVideo s p) := by
  unfold endVideo
  try dsimp only
  repeat' first
    | with_reducible exact Kept.refl _ _
    | with_reducible refine Kept.ite (fun _ => ?_) (fun _ => ?_)
    | with_reducible refine Kept.foldl' ?_ (fun a x => ?_)
    | with_reducible apply Kept.chain (State.setPort_kept _ _ _) (by decide)
    | with_reducible apply Kept.chain (powerOn_kept _ _) (by decide)
    | with_reducible simp (disch := first | decide | (with_unfolding_all constructor <;> first | exact Or.inl (by decide) | exact Or.inr rfl | (constructor <;> first | exact Or.inl (by decide) | exact Or.inr (And.intro rfl rfl)))) only [Kept.upd_disp, Kept.upd_host, Kept.upd_now, Kept.upd_freeNo]
    | split
    | intro _

theorem frameDone_kept (s : State) (p : Nat) : Kept [.host, .cmds, .fe, .cal, .spec, .acq, .disp, .mon, .tiu, .grove, .mem, .move, .ctl, .flt, .sec, .pwr] s (frameDone s p) := by
  unfold frameDone
  try dsimp only
  repeat' first
    | with_reducible exact Kept.refl _ _
    | with_reducible refine Kept.ite (fun _ => ?_) (fun _ => ?_)
    | with_reducible refine Kept.foldl' ?_ (fun a x => ?_)
    | with_reducible apply Kept.chain (State.modPort_kept _ _ _) (by decide)
    | with_reducible apply Kept.chain (State.setPort_kept _ _ _) (by decide)
    | with_reducible apply Kept.chain (endRefs_kept _ _ _) (by decide)
    | with_reducible apply Kept.chain (endVideo_kept _ _) (by decide)
    | with_reducible apply Kept.chain (finishAll_kept _ _ _ _ _ _) (by decide)
    | with_reducible apply Kept.chain (frameUnderrun_kept _ _) (by decide)
    | with_reducible apply Kept.chain (post_kept _ _ _) (by decide)
    | with_reducible simp (disch := first | decide | (with_unfolding_all constructor <;> first | exact Or.inl (by decide) | exact Or.inr rfl | (constructor <;> first | exact Or.inl (by decide) | exact Or.inr (And.intro rfl rfl)))) only [Kept.upd_fe, Kept.upd_cal, Kept.upd_spec, Kept.upd_acq, Kept.upd_disp, Kept.upd_mon, Kept.upd_tiu, Kept.upd_grove, Kept.upd_mem, Kept.upd_move, Kept.upd_ctl, Kept.upd_flt, Kept.upd_sec, Kept.upd_pwr, Kept.upd_host, Kept.upd_now, Kept.upd_freeNo]
    | split
    | intro _

theorem beginMode_kept (s : State) (p : Nat) (m : Nat) (bpc : Bool) (maxRate : Nat) (bldelay : Nat) : Kept [.disp] s (beginMode s p m bpc maxRate bldelay) := by
  unfold beginMode
  try dsimp only
  repeat' first
    | with_reducible exact Kept.refl _ _
    | with_reducible refine Kept.ite (fun _ => ?_) (fun _ => ?_)
    | with_reducible refine Kept.foldl' ?_ (fun a x => ?_)
    | with_reducible apply Kept.chain (State.modPort_kept _ _ _) (by decide)
    | with_reducible simp (disch := first | decide | (with_unfolding_all constructor <;> first | exact Or.inl (by decide) | exact Or.inr rfl | (constructor <;> first | exact Or.inl (by decide) | exact Or.inr (And.intro rfl rfl)))) only [Kept.upd_disp, Kept.upd_host, Kept.upd_now, Kept.upd_freeNo]
    | split
    | intro _

theorem powerFail_kept (s : State) (p : Nat) (st : Nat) : Kept [.cmds, .disp] s (powerFail s p st) := by
  unfold powerFail
  try dsimp only
  repeat' first
    | with_reducible exact Kept.refl _ _
    | with_reducible refine Kept.ite (fun _ => ?_) (fun _ => ?_)
    | with_reducible refine Kept.foldl' ?_ (fun a x => ?_)
    | with_reducible apply Kept.chain (finishAll_kept _ _ _ _ _ _) (by decide)
    | with_reducible apply Kept.chain (modPorts_kept _ _ _) (by decide)
    | with_reducible simp (disch := first | decide | (with_unfolding_all constructor <;> first | exact Or.inl (by decide) | exact Or.inr rfl | (constructor <;> first | exact Or.inl (by decide) | exact Or.inr (And.intro rfl rfl)))) only [Kept.upd_disp, Kept.upd_host, Kept.upd_now, Kept.upd_freeNo]
    | split
    | intro _

theorem capsRead_kept (s : State) (p : Nat) (lanes : Nat) (rate : Nat) (psr : Bool) : Kept [.cmds, .disp] s (capsRead s p lanes rate psr) := by
  unfold capsRead
  try dsimp only
  repeat' first
    | with_reducible exact Kept.refl _ _
    | with_reducible refine Kept.ite (fun _ => ?_) (fun _ => ?_)
    | with_reducible refine Kept.foldl' ?_ (fun a x => ?_)
    | with_reducible apply Kept.chain (State.modPort_kept _ _ _) (by decide)
    | with_reducible apply Kept.chain (powerFail_kept _ _ _) (by decide)
    | with_reducible apply Kept.chain (startTraining_kept _ _) (by decide)
    | with_reducible simp (disch := first | decide | (with_unfolding_all constructor <;> first | exact Or.inl (by decide) | exact Or.inr rfl | (constructor <;> first | exact Or.inl (by decide) | exact Or.inr (And.intro rfl rfl)))) only [Kept.upd_disp, Kept.upd_host, Kept.upd_now, Kept.upd_freeNo]
    | split
    | intro _

theorem fallowExit_kept (s : State) (p : Nat) (ok : Bool) : Kept [.host, .cmds, .fe, .cal, .spec, .acq, .disp, .mon, .tiu, .grove, .mem, .move, .ctl, .flt, .sec, .pwr] s (fallowExit s p ok) := by
  unfold fallowExit
  try dsimp only
  repeat' first
    | with_reducible exact Kept.refl _ _
    | with_reducible refine Kept.ite (fun _ => ?_) (fun _ => ?_)
    | with_reducible refine Kept.foldl' ?_ (fun a x => ?_)
    | with_reducible apply Kept.chain (State.modPort_kept _ _ _) (by decide)
    | with_reducible apply Kept.chain (finishAll_kept _ _ _ _ _ _) (by decide)
    | with_reducible apply Kept.chain (modPorts_kept _ _ _) (by decide)
    | with_reducible apply Kept.chain (post_kept _ _ _) (by decide)
    | with_reducible apply Kept.chain (raiseFault_kept _ _ _) (by decide)
    | with_reducible apply Kept.chain (startTiming_kept _ _) (by decide)
    | with_reducible simp (disch := first | decide | (with_unfolding_all constructor <;> first | exact Or.inl (by decide) | exact Or.inr rfl | (constructor <;> first | exact Or.inl (by decide) | exact Or.inr (And.intro rfl rfl)))) only [Kept.upd_fe, Kept.upd_cal, Kept.upd_spec, Kept.upd_acq, Kept.upd_disp, Kept.upd_mon, Kept.upd_tiu, Kept.upd_grove, Kept.upd_mem, Kept.upd_move, Kept.upd_ctl, Kept.upd_flt, Kept.upd_sec, Kept.upd_pwr, Kept.upd_host, Kept.upd_now, Kept.upd_freeNo]
    | split
    | intro _

theorem writeBack_kept (s : State) (n : Nat) : Kept [.host, .cmds, .fe, .cal, .spec, .acq, .disp, .mon, .tiu, .grove, .mem, .move, .ctl, .flt, .sec, .pwr] s (writeBack s n) := by
  unfold writeBack
  try dsimp only
  repeat' first
    | with_reducible exact Kept.refl _ _
    | with_reducible refine Kept.ite (fun _ => ?_) (fun _ => ?_)
    | with_reducible refine Kept.foldl' ?_ (fun a x => ?_)
    | with_reducible apply Kept.chain (State.setDma_kept _ _ _) (by decide)
    | with_reducible apply Kept.chain (recPull_kept _) (by decide)
    | with_reducible apply Kept.chain (regWrite_kept _ _ _ _) (by decide)
    | with_reducible apply Kept.chain (ringPut_kept _ _ _) (by decide)
    | with_reducible simp (disch := first | decide | (with_unfolding_all constructor <;> first | exact Or.inl (by decide) | exact Or.inr rfl | (constructor <;> first | exact Or.inl (by decide) | exact Or.inr (And.intro rfl rfl)))) only [Kept.upd_fe, Kept.upd_cal, Kept.upd_spec, Kept.upd_acq, Kept.upd_disp, Kept.upd_mon, Kept.upd_tiu, Kept.upd_grove, Kept.upd_mem, Kept.upd_move, Kept.upd_ctl, Kept.upd_flt, Kept.upd_sec, Kept.upd_pwr, Kept.upd_host, Kept.upd_now, Kept.upd_freeNo]
    | split
    | intro _

theorem writeBackDone_kept (s : State) (n : Nat) : Kept [.host, .cmds, .fe, .cal, .spec, .acq, .disp, .mon, .tiu, .grove, .mem, .move, .ctl, .flt, .sec, .pwr] s (writeBackDone s n) := by
  unfold writeBackDone
  try dsimp only
  repeat' first
    | with_reducible exact Kept.refl _ _
    | with_reducible refine Kept.ite (fun _ => ?_) (fun _ => ?_)
    | with_reducible refine Kept.foldl' ?_ (fun a x => ?_)
    | with_reducible apply Kept.chain (finishAll_kept _ _ _ _ _ _) (by decide)
    | with_reducible apply Kept.chain (writeBack_kept _ _) (by decide)
    | with_reducible simp (disch := first | decide | (with_unfolding_all constructor <;> first | exact Or.inl (by decide) | exact Or.inr rfl | (constructor <;> first | exact Or.inl (by decide) | exact Or.inr (And.intro rfl rfl)))) only [Kept.upd_fe, Kept.upd_cal, Kept.upd_spec, Kept.upd_acq, Kept.upd_disp, Kept.upd_mon, Kept.upd_tiu, Kept.upd_grove, Kept.upd_mem, Kept.upd_move, Kept.upd_ctl, Kept.upd_flt, Kept.upd_sec, Kept.upd_pwr, Kept.upd_host, Kept.upd_now, Kept.upd_freeNo]
    | split
    | intro _

theorem descEnd_kept (s : State) (n : Nat) (bad : Bool) (stopped : Bool) (reason : Nat) : Kept [.host, .cmds, .fe, .cal, .spec, .acq, .disp, .mon, .tiu, .grove, .mem, .move, .ctl, .flt, .sec, .pwr] s (descEnd s n bad stopped reason) := by
  unfold descEnd
  try dsimp only
  repeat' first
    | with_reducible exact Kept.refl _ _
    | with_reducible refine Kept.ite (fun _ => ?_) (fun _ => ?_)
    | with_reducible refine Kept.foldl' ?_ (fun a x => ?_)
    | with_reducible apply Kept.chain (State.setDma_kept _ _ _) (by decide)
    | with_reducible apply Kept.chain (post_kept _ _ _) (by decide)
    | with_reducible apply Kept.chain (raiseFault_kept _ _ _) (by decide)
    | with_reducible apply Kept.chain (writeBack_kept _ _) (by decide)
    | with_reducible simp (disch := first | decide | (with_unfolding_all constructor <;> first | exact Or.inl (by decide) | exact Or.inr rfl | (constructor <;> first | exact Or.inl (by decide) | exact Or.inr (And.intro rfl rfl)))) only [Kept.upd_fe, Kept.upd_cal, Kept.upd_spec, Kept.upd_acq, Kept.upd_disp, Kept.upd_mon, Kept.upd_tiu, Kept.upd_grove, Kept.upd_mem, Kept.upd_move, Kept.upd_ctl, Kept.upd_flt, Kept.upd_sec, Kept.upd_pwr, Kept.upd_host, Kept.upd_now, Kept.upd_freeNo]
    | split
    | intro _

theorem loadChain_kept (s : State) (n : Nat) (i : Nat) : Kept [.host, .fe, .cal, .spec, .acq, .disp, .mon, .tiu, .grove, .mem, .move, .ctl, .flt, .sec, .pwr] s (loadChain s n i) := by
  unfold loadChain
  try dsimp only
  repeat' first
    | with_reducible exact Kept.refl _ _
    | with_reducible refine Kept.ite (fun _ => ?_) (fun _ => ?_)
    | with_reducible refine Kept.foldp' ?_ (fun a x => ?_)
    | with_reducible refine Kept.foldq' ?_ (fun a x => ?_)
    | with_reducible refine Kept.foldl' ?_ (fun a x => ?_)
    | with_reducible apply Kept.chain (regRead_kept _ _ _ _ _) (by decide)
    | with_reducible apply Kept.chain (State.modDma_kept _ _ _) (by decide)
    | with_reducible simp (disch := first | decide | (with_unfolding_all constructor <;> first | exact Or.inl (by decide) | exact Or.inr rfl | (constructor <;> first | exact Or.inl (by decide) | exact Or.inr (And.intro rfl rfl)))) only [Kept.upd_fe, Kept.upd_cal, Kept.upd_spec, Kept.upd_acq, Kept.upd_disp, Kept.upd_mon, Kept.upd_tiu, Kept.upd_grove, Kept.upd_mem, Kept.upd_move, Kept.upd_ctl, Kept.upd_flt, Kept.upd_sec, Kept.upd_pwr, Kept.upd_host, Kept.upd_now, Kept.upd_freeNo]
    | split
    | intro _

theorem dmaWaits_kept (s : State) (n : Nat) : Kept [.host, .cmds, .fe, .cal, .spec, .acq, .disp, .mon, .tiu, .grove, .mem, .move, .ctl, .flt, .sec, .pwr] s (dmaWaits s n) := by
  unfold dmaWaits
  try dsimp only
  repeat' first
    | with_reducible exact Kept.refl _ _
    | with_reducible refine Kept.ite (fun _ => ?_) (fun _ => ?_)
    | with_reducible refine Kept.foldl' ?_ (fun a x => ?_)
    | with_reducible apply Kept.chain (loadChain_kept _ _ _) (by decide)
    | with_reducible apply Kept.chain (writeBackDone_kept _ _) (by decide)
    | with_reducible simp (disch := first | decide | (with_unfolding_all constructor <;> first | exact Or.inl (by decide) | exact Or.inr rfl | (constructor <;> first | exact Or.inl (by decide) | exact Or.inr (And.intro rfl rfl)))) only [Kept.upd_fe, Kept.upd_cal, Kept.upd_spec, Kept.upd_acq, Kept.upd_disp, Kept.upd_mon, Kept.upd_tiu, Kept.upd_grove, Kept.upd_mem, Kept.upd_move, Kept.upd_ctl, Kept.upd_flt, Kept.upd_sec, Kept.upd_pwr, Kept.upd_host, Kept.upd_now, Kept.upd_freeNo]
    | split
    | intro _

theorem handOver_kept (s : State) (n : Nat) : Kept [.host, .cmds, .fe, .cal, .spec, .acq, .disp, .mon, .tiu, .grove, .mem, .move, .ctl, .flt, .sec, .pwr] s (handOver s n) := by
  unfold handOver
  try dsimp only
  repeat' first
    | with_reducible exact Kept.refl _ _
    | with_reducible refine Kept.ite (fun _ => ?_) (fun _ => ?_)
    | with_reducible refine Kept.foldl' ?_ (fun a x => ?_)
    | with_reducible apply Kept.chain (State.setDma_kept _ _ _) (by decide)
    | with_reducible apply Kept.chain (descEnd_kept _ _ _ _ _) (by decide)
    | with_reducible apply Kept.chain (loadChain_kept _ _ _) (by decide)
    | with_reducible simp (disch := first | decide | (with_unfolding_all constructor <;> first | exact Or.inl (by decide) | exact Or.inr rfl | (constructor <;> first | exact Or.inl (by decide) | exact Or.inr (And.intro rfl rfl)))) only [Kept.upd_fe, Kept.upd_cal, Kept.upd_spec, Kept.upd_acq, Kept.upd_disp, Kept.upd_mon, Kept.upd_tiu, Kept.upd_grove, Kept.upd_mem, Kept.upd_move, Kept.upd_ctl, Kept.upd_flt, Kept.upd_sec, Kept.upd_pwr, Kept.upd_host, Kept.upd_now, Kept.upd_freeNo]
    | split
    | intro _

theorem handFirst_kept (s : State) (n : Nat) : Kept [.host, .cmds, .fe, .cal, .spec, .acq, .disp, .mon, .tiu, .grove, .mem, .move, .ctl, .flt, .sec, .pwr] s (handFirst s n) := by
  unfold handFirst
  try dsimp only
  repeat' first
    | with_reducible exact Kept.refl _ _
    | with_reducible refine Kept.ite (fun _ => ?_) (fun _ => ?_)
    | with_reducible refine Kept.foldl' ?_ (fun a x => ?_)
    | with_reducible apply Kept.chain (dmaWaits_kept _ _) (by decide)
    | with_reducible apply Kept.chain (handOver_kept _ _) (by decide)
    | with_reducible simp (disch := first | decide | (with_unfolding_all constructor <;> first | exact Or.inl (by decide) | exact Or.inr rfl | (constructor <;> first | exact Or.inl (by decide) | exact Or.inr (And.intro rfl rfl)))) only [Kept.upd_fe, Kept.upd_cal, Kept.upd_spec, Kept.upd_acq, Kept.upd_disp, Kept.upd_mon, Kept.upd_tiu, Kept.upd_grove, Kept.upd_mem, Kept.upd_move, Kept.upd_ctl, Kept.upd_flt, Kept.upd_sec, Kept.upd_pwr, Kept.upd_host, Kept.upd_now, Kept.upd_freeNo]
    | split
    | intro _

theorem dmaDisable_kept (s : State) (n : Nat) : Kept [.host, .cmds, .fe, .cal, .spec, .acq, .disp, .mon, .tiu, .grove, .mem, .move, .ctl, .flt, .sec, .pwr] s (dmaDisable s n) := by
  unfold dmaDisable
  try dsimp only
  repeat' first
    | with_reducible exact Kept.refl _ _
    | with_reducible refine Kept.ite (fun _ => ?_) (fun _ => ?_)
    | with_reducible refine Kept.foldl' ?_ (fun a x => ?_)
    | with_reducible apply Kept.chain (State.modDma_kept _ _ _) (by decide)
    | with_reducible apply Kept.chain (descEnd_kept _ _ _ _ _) (by decide)
    | with_reducible simp (disch := first | decide | (with_unfolding_all constructor <;> first | exact Or.inl (by decide) | exact Or.inr rfl | (constructor <;> first | exact Or.inl (by decide) | exact Or.inr (And.intro rfl rfl)))) only [Kept.upd_fe, Kept.upd_cal, Kept.upd_spec, Kept.upd_acq, Kept.upd_disp, Kept.upd_mon, Kept.upd_tiu, Kept.upd_grove, Kept.upd_mem, Kept.upd_move, Kept.upd_ctl, Kept.upd_flt, Kept.upd_sec, Kept.upd_pwr, Kept.upd_host, Kept.upd_now, Kept.upd_freeNo]
    | split
    | intro _

theorem streamDisable_kept (s : State) (n : Nat) : Kept [.host, .fe, .cal, .spec, .acq, .disp, .mon, .tiu, .grove, .mem, .move, .ctl, .flt, .sec, .pwr] s (streamDisable s n) := by
  unfold streamDisable
  try dsimp only
  repeat' first
    | with_reducible exact Kept.refl _ _
    | with_reducible refine Kept.ite (fun _ => ?_) (fun _ => ?_)
    | with_reducible refine Kept.foldl' ?_ (fun a x => ?_)
    | with_reducible apply Kept.chain (State.modDma_kept _ _ _) (by decide)
    | with_reducible apply Kept.chain (State.modReg_kept _ _ _) (by decide)
    | with_reducible apply Kept.chain (gapPost_kept _ _ _) (by decide)
    | with_reducible apply Kept.chain (streamClose_kept _ _ _) (by decide)
    | with_reducible simp (disch := first | decide | (with_unfolding_all constructor <;> first | exact Or.inl (by decide) | exact Or.inr rfl | (constructor <;> first | exact Or.inl (by decide) | exact Or.inr (And.intro rfl rfl)))) only [Kept.upd_fe, Kept.upd_cal, Kept.upd_spec, Kept.upd_acq, Kept.upd_disp, Kept.upd_mon, Kept.upd_tiu, Kept.upd_grove, Kept.upd_mem, Kept.upd_move, Kept.upd_ctl, Kept.upd_flt, Kept.upd_sec, Kept.upd_pwr, Kept.upd_host, Kept.upd_now, Kept.upd_freeNo]
    | split
    | intro _

theorem drwErr_kept (s : State) (b : Nat) : Kept [.host] s (drwErr s b) := by
  unfold drwErr
  try dsimp only
  repeat' first
    | with_reducible exact Kept.refl _ _
    | with_reducible refine Kept.ite (fun _ => ?_) (fun _ => ?_)
    | with_reducible refine Kept.foldl' ?_ (fun a x => ?_)
    | with_reducible simp (disch := first | decide | (with_unfolding_all constructor <;> first | exact Or.inl (by decide) | exact Or.inr rfl | (constructor <;> first | exact Or.inl (by decide) | exact Or.inr (And.intro rfl rfl)))) only [Kept.upd_host, Kept.upd_now, Kept.upd_freeNo]
    | split
    | intro _

theorem strdbWrite_kept (s : State) (n : Nat) (v : Nat) : Kept [.host, .fe, .cal, .spec, .acq, .disp, .mon, .tiu, .grove, .mem, .move, .ctl, .flt, .sec, .pwr] s (strdbWrite s n v) := by
  unfold strdbWrite
  try dsimp only
  repeat' first
    | with_reducible exact Kept.refl _ _
    | with_reducible refine Kept.ite (fun _ => ?_) (fun _ => ?_)
    | with_reducible refine Kept.foldl' ?_ (fun a x => ?_)
    | with_reducible apply Kept.chain (State.setDma_kept _ _ _) (by decide)
    | with_reducible apply Kept.chain (drwErr_kept _ _) (by decide)
    | with_reducible apply Kept.chain (raiseQuiet_kept _ _ _ (by first | (unfold quietSource; decide) | exact quiet_rank _ _ _ (by decide))) (by decide)
    | with_reducible simp (disch := first | decide | (with_unfolding_all constructor <;> first | exact Or.inl (by decide) | exact Or.inr rfl | (constructor <;> first | exact Or.inl (by decide) | exact Or.inr (And.intro rfl rfl)))) only [Kept.upd_fe, Kept.upd_cal, Kept.upd_spec, Kept.upd_acq, Kept.upd_disp, Kept.upd_mon, Kept.upd_tiu, Kept.upd_grove, Kept.upd_mem, Kept.upd_move, Kept.upd_ctl, Kept.upd_flt, Kept.upd_sec, Kept.upd_pwr, Kept.upd_host, Kept.upd_now, Kept.upd_freeNo]
    | split
    | intro _

theorem barBreakBy_kept (s : State) (k : Nat) (n : Nat) (cause : Nat) : Kept [.host, .cmds, .fe, .cal, .spec, .acq, .disp, .mon, .tiu, .grove, .mem, .move, .ctl, .flt, .sec, .pwr] s (barBreakBy s k n cause) := by
  unfold barBreakBy
  try dsimp only
  repeat' first
    | with_reducible exact Kept.refl _ _
    | with_reducible refine Kept.ite (fun _ => ?_) (fun _ => ?_)
    | with_reducible refine Kept.foldp' ?_ (fun a x => ?_)
    | with_reducible refine Kept.foldq' ?_ (fun a x => ?_)
    | with_reducible refine Kept.foldl' ?_ (fun a x => ?_)
    | with_reducible apply Kept.chain (barBreak_kept _ _ _ _) (by decide)
    | with_reducible apply Kept.chain (Kept.pair (barBreak_kept _ _ _ _) (by assumption)) (by decide)
    | with_reducible apply Kept.chain (raiseFault_kept _ _ _) (by decide)
    | with_reducible simp (disch := first | decide | (with_unfolding_all constructor <;> first | exact Or.inl (by decide) | exact Or.inr rfl | (constructor <;> first | exact Or.inl (by decide) | exact Or.inr (And.intro rfl rfl)))) only [Kept.upd_fe, Kept.upd_cal, Kept.upd_spec, Kept.upd_acq, Kept.upd_disp, Kept.upd_mon, Kept.upd_tiu, Kept.upd_grove, Kept.upd_mem, Kept.upd_move, Kept.upd_ctl, Kept.upd_flt, Kept.upd_sec, Kept.upd_pwr, Kept.upd_host, Kept.upd_now, Kept.upd_freeNo]
    | split
    | intro _

theorem setSource_kept (s : State) (tgt : Nat) (code : Nat) : Kept [.fe] s (setSource s tgt code) := by
  unfold setSource
  try dsimp only
  repeat' first
    | with_reducible exact Kept.refl _ _
    | with_reducible refine Kept.ite (fun _ => ?_) (fun _ => ?_)
    | with_reducible refine Kept.foldl' ?_ (fun a x => ?_)
    | with_reducible simp (disch := first | decide | (with_unfolding_all constructor <;> first | exact Or.inl (by decide) | exact Or.inr rfl | (constructor <;> first | exact Or.inl (by decide) | exact Or.inr (And.intro rfl rfl)))) only [Kept.upd_fe, Kept.upd_host, Kept.upd_now, Kept.upd_freeNo]
    | split
    | intro _

theorem tripStream_kept (s : State) (id : Nat) (i : Nat) : Kept [.fe] s (tripStream s id i) := by
  unfold tripStream
  try dsimp only
  repeat' first
    | with_reducible exact Kept.refl _ _
    | with_reducible refine Kept.ite (fun _ => ?_) (fun _ => ?_)
    | with_reducible refine Kept.foldl' ?_ (fun a x => ?_)
    | with_reducible apply Kept.chain (State.modStr_kept _ _ _) (by decide)
    | with_reducible apply Kept.chain (keepFront_kept _ _ _) (by decide)
    | with_reducible simp (disch := first | decide | (with_unfolding_all constructor <;> first | exact Or.inl (by decide) | exact Or.inr rfl | (constructor <;> first | exact Or.inl (by decide) | exact Or.inr (And.intro rfl rfl)))) only [Kept.upd_fe, Kept.upd_host, Kept.upd_now, Kept.upd_freeNo]
    | split
    | intro _

theorem pathChanged_kept (s : State) (tgts : List Nat) : Kept [.fe] s (pathChanged s tgts) := by
  unfold pathChanged
  try dsimp only
  repeat' first
    | with_reducible exact Kept.refl _ _
    | with_reducible refine Kept.ite (fun _ => ?_) (fun _ => ?_)
    | with_reducible refine Kept.foldl' ?_ (fun a x => ?_)
    | with_reducible simp (disch := first | decide | (with_unfolding_all constructor <;> first | exact Or.inl (by decide) | exact Or.inr rfl | (constructor <;> first | exact Or.inl (by decide) | exact Or.inr (And.intro rfl rfl)))) only [Kept.upd_fe, Kept.upd_host, Kept.upd_now, Kept.upd_freeNo]
    | split
    | intro _

theorem laneSwitch_kept (s : State) (c : Nat) (src : Nat) : Kept [.fe, .spec] s (laneSwitch s c src) := by
  unfold laneSwitch
  try dsimp only
  repeat' first
    | with_reducible exact Kept.refl _ _
    | with_reducible refine Kept.ite (fun _ => ?_) (fun _ => ?_)
    | with_reducible refine Kept.foldl' ?_ (fun a x => ?_)
    | with_reducible apply Kept.chain (State.setLane_kept _ _ _) (by decide)
    | with_reducible apply Kept.chain (bindNow_kept _ _ _) (by decide)
    | with_reducible simp (disch := first | decide | (with_unfolding_all constructor <;> first | exact Or.inl (by decide) | exact Or.inr rfl | (constructor <;> first | exact Or.inl (by decide) | exact Or.inr (And.intro rfl rfl)))) only [Kept.upd_fe, Kept.upd_spec, Kept.upd_host, Kept.upd_now, Kept.upd_freeNo]
    | split
    | intro _

theorem setRate_kept (s : State) (p : Nat) (pair : Bool) (rate : Nat) : Kept [.fe, .spec] s (setRate s p pair rate) := by
  unfold setRate
  try dsimp only
  repeat' first
    | with_reducible exact Kept.refl _ _
    | with_reducible refine Kept.ite (fun _ => ?_) (fun _ => ?_)
    | with_reducible refine Kept.foldl' ?_ (fun a x => ?_)
    | with_reducible apply Kept.chain (laneSwitch_kept _ _ _) (by decide)
    | with_reducible apply Kept.chain (setSource_kept _ _ _) (by decide)
    | with_reducible simp (disch := first | decide | (with_unfolding_all constructor <;> first | exact Or.inl (by decide) | exact Or.inr rfl | (constructor <;> first | exact Or.inl (by decide) | exact Or.inr (And.intro rfl rfl)))) only [Kept.upd_fe, Kept.upd_spec, Kept.upd_host, Kept.upd_now, Kept.upd_freeNo]
    | split
    | intro _

theorem setMode_kept (s : State) (p : Nat) (pair : Bool) (rate : Nat) : Kept [.host, .cmds, .fe, .clk, .cal, .spec, .acq, .disp, .mon, .tiu, .grove, .mem, .move, .ctl, .flt, .sec, .pwr] s (setMode s p pair rate) := by
  unfold setMode
  try dsimp only
  repeat' first
    | with_reducible exact Kept.refl _ _
    | with_reducible refine Kept.ite (fun _ => ?_) (fun _ => ?_)
    | with_reducible refine Kept.foldl' ?_ (fun a x => ?_)
    | with_reducible apply Kept.chain (State.modPll_kept _ _ _) (by decide)
    | with_reducible apply Kept.chain (State.modStr_kept _ _ _) (by decide)
    | with_reducible apply Kept.chain (pathChanged_kept _ _) (by decide)
    | with_reducible apply Kept.chain (pllRelock_kept _ _ _ _ _) (by decide)
    | with_reducible apply Kept.chain (pllWindow_kept _ _ _) (by decide)
    | with_reducible apply Kept.chain (setRate_kept _ _ _ _) (by decide)
    | with_reducible apply Kept.chain (strHalt_kept _ _ _) (by decide)
    | with_reducible simp (disch := first | decide | (with_unfolding_all constructor <;> first | exact Or.inl (by decide) | exact Or.inr rfl | (constructor <;> first | exact Or.inl (by decide) | exact Or.inr (And.intro rfl rfl)))) only [Kept.upd_fe, Kept.upd_clk, Kept.upd_cal, Kept.upd_spec, Kept.upd_acq, Kept.upd_disp, Kept.upd_mon, Kept.upd_tiu, Kept.upd_grove, Kept.upd_mem, Kept.upd_move, Kept.upd_ctl, Kept.upd_flt, Kept.upd_sec, Kept.upd_pwr, Kept.upd_host, Kept.upd_now, Kept.upd_freeNo]
    | split
    | intro _

theorem strBegin_kept (s : State) (id : Nat) (m0 : Nat) (reason : Nat) : Kept [.host, .cmds, .fe, .cal, .spec, .acq, .disp, .mon, .tiu, .grove, .mem, .move, .ctl, .flt, .sec, .pwr] s (strBegin s id m0 reason) := by
  unfold strBegin
  try dsimp only
  repeat' first
    | with_reducible exact Kept.refl _ _
    | with_reducible refine Kept.ite (fun _ => ?_) (fun _ => ?_)
    | with_reducible refine Kept.foldl' ?_ (fun a x => ?_)
    | with_reducible apply Kept.chain (State.modStr_kept _ _ _) (by decide)
    | with_reducible apply Kept.chain (announceNext_kept _ _) (by decide)
    | with_reducible simp (disch := first | decide | (with_unfolding_all constructor <;> first | exact Or.inl (by decide) | exact Or.inr rfl | (constructor <;> first | exact Or.inl (by decide) | exact Or.inr (And.intro rfl rfl)))) only [Kept.upd_fe, Kept.upd_cal, Kept.upd_spec, Kept.upd_acq, Kept.upd_disp, Kept.upd_mon, Kept.upd_tiu, Kept.upd_grove, Kept.upd_mem, Kept.upd_move, Kept.upd_ctl, Kept.upd_flt, Kept.upd_sec, Kept.upd_pwr, Kept.upd_host, Kept.upd_now, Kept.upd_freeNo]
    | split
    | intro _

theorem strNewEpoch_kept {l : List Part} (s : State) (id g : Nat) (f : State → State) (hm : ∀ x ∈ [.host, .cmds, .fe, .cal, .spec, .acq, .disp, .mon, .tiu, .grove, .mem, .move, .ctl, .flt, .sec, .pwr], x ∈ l) (h : ∀ a, Kept l a (f a)) : Kept l s (strNewEpoch s id g f) := by
  unfold strNewEpoch
  dsimp only
  apply Kept.chain (closeHeads_kept _ _ _) (by intro x hx; exact hm x (by revert x; decide))
  apply Kept.chain (strBegin_kept _ _ _ _) (by intro x hx; exact hm x (by revert x; decide))
  exact Kept.trans (Kept.chain (endTagging_kept _ _ _ _) (by intro x hx; exact hm x (by revert x; decide)) (Kept.refl _ _)) (h (endTagging s id g false))

theorem strNewEpoch_then {l : List Part} {r s : State} {id g : Nat} {f : State → State} (hm : ∀ x ∈ [.host, .cmds, .fe, .cal, .spec, .acq, .disp, .mon, .tiu, .grove, .mem, .move, .ctl, .flt, .sec, .pwr], x ∈ l) (h : Kept l r s) (hg : ∀ a, Kept l a (f a)) :
    Kept l r (strNewEpoch s id g f) := h.trans (strNewEpoch_kept s id g f hm hg)

theorem changeSource_kept (s : State) (t : Nat) (src : Nat) : Kept [.host, .cmds, .fe, .cal, .spec, .acq, .disp, .mon, .tiu, .grove, .mem, .move, .ctl, .flt, .sec, .pwr] s (changeSource s t src) := by
  unfold changeSource
  try dsimp only
  repeat' first
    | with_reducible exact Kept.refl _ _
    | with_reducible refine Kept.ite (fun _ => ?_) (fun _ => ?_)
    | with_reducible refine Kept.foldl' ?_ (fun a x => ?_)
    | with_reducible apply Kept.chain (openSettle_kept _ _ _ _) (by decide)
    | with_reducible apply Kept.chain (pathChanged_kept _ _) (by decide)
    | with_reducible apply Kept.chain (setSource_kept _ _ _) (by decide)
    | with_reducible refine strNewEpoch_then (by decide) ?_ (fun a => ?_)
    | with_reducible simp (disch := first | decide | (with_unfolding_all constructor <;> first | exact Or.inl (by decide) | exact Or.inr rfl | (constructor <;> first | exact Or.inl (by decide) | exact Or.inr (And.intro rfl rfl)))) only [Kept.upd_fe, Kept.upd_cal, Kept.upd_spec, Kept.upd_acq, Kept.upd_disp, Kept.upd_mon, Kept.upd_tiu, Kept.upd_grove, Kept.upd_mem, Kept.upd_move, Kept.upd_ctl, Kept.upd_flt, Kept.upd_sec, Kept.upd_pwr, Kept.upd_host, Kept.upd_now, Kept.upd_freeNo]
    | split
    | intro _

theorem changeAtten_kept (s : State) (i : Nat) (id : Nat) (a : Nat) (clear : Bool) : Kept [.fe] s (changeAtten s i id a clear) := by
  unfold changeAtten
  try dsimp only
  repeat' first
    | with_reducible exact Kept.refl _ _
    | with_reducible refine Kept.ite (fun _ => ?_) (fun _ => ?_)
    | with_reducible refine Kept.foldl' ?_ (fun a x => ?_)
    | with_reducible apply Kept.chain (State.setInp_kept _ _ _) (by decide)
    | with_reducible apply Kept.chain (keepFront_kept _ _ _) (by decide)
    | with_reducible apply Kept.chain (openSettle_kept _ _ _ _) (by decide)
    | with_reducible apply Kept.chain (pathChanged_kept _ _) (by decide)
    | with_reducible simp (disch := first | decide | (with_unfolding_all constructor <;> first | exact Or.inl (by decide) | exact Or.inr rfl | (constructor <;> first | exact Or.inl (by decide) | exact Or.inr (And.intro rfl rfl)))) only [Kept.upd_fe, Kept.upd_host, Kept.upd_now, Kept.upd_freeNo]
    | split
    | intro _

theorem strStart_kept (s : State) (id : Nat) (t : Tick) : Kept [.host, .cmds, .fe, .cal, .spec, .acq, .disp, .mon, .tiu, .grove, .mem, .move, .ctl, .flt, .sec, .pwr] s (strStart s id t) := by
  unfold strStart
  try dsimp only
  repeat' first
    | with_reducible exact Kept.refl _ _
    | with_reducible refine Kept.ite (fun _ => ?_) (fun _ => ?_)
    | with_reducible refine Kept.foldl' ?_ (fun a x => ?_)
    | with_reducible apply Kept.chain (strBegin_kept _ _ _ _) (by decide)
    | with_reducible simp (disch := first | decide | (with_unfolding_all constructor <;> first | exact Or.inl (by decide) | exact Or.inr rfl | (constructor <;> first | exact Or.inl (by decide) | exact Or.inr (And.intro rfl rfl)))) only [Kept.upd_fe, Kept.upd_cal, Kept.upd_spec, Kept.upd_acq, Kept.upd_disp, Kept.upd_mon, Kept.upd_tiu, Kept.upd_grove, Kept.upd_mem, Kept.upd_move, Kept.upd_ctl, Kept.upd_flt, Kept.upd_sec, Kept.upd_pwr, Kept.upd_host, Kept.upd_now, Kept.upd_freeNo]
    | split
    | intro _

theorem feStreamGo_kept (s : State) (sel : Nat) (start : Bool) (at_ : Tick) : Kept [.host, .cmds, .fe, .cal, .spec, .acq, .disp, .mon, .tiu, .grove, .mem, .move, .ctl, .flt, .sec, .pwr] s (feStreamGo s sel start at_) := by
  unfold feStreamGo
  try dsimp only
  repeat' first
    | with_reducible exact Kept.refl _ _
    | with_reducible refine Kept.ite (fun _ => ?_) (fun _ => ?_)
    | with_reducible refine Kept.foldl' ?_ (fun a x => ?_)
    | with_reducible apply Kept.chain (strHalt_kept _ _ _) (by decide)
    | with_reducible apply Kept.chain (strStart_kept _ _ _) (by decide)
    | with_reducible simp (disch := first | decide | (with_unfolding_all constructor <;> first | exact Or.inl (by decide) | exact Or.inr rfl | (constructor <;> first | exact Or.inl (by decide) | exact Or.inr (And.intro rfl rfl)))) only [Kept.upd_fe, Kept.upd_cal, Kept.upd_spec, Kept.upd_acq, Kept.upd_disp, Kept.upd_mon, Kept.upd_tiu, Kept.upd_grove, Kept.upd_mem, Kept.upd_move, Kept.upd_ctl, Kept.upd_flt, Kept.upd_sec, Kept.upd_pwr, Kept.upd_host, Kept.upd_now, Kept.upd_freeNo]
    | split
    | intro _

theorem calGrainAbort_kept (s : State) (id : Nat) (n : Nat) (fl : Nat) : Kept [.fe, .cal] s (calGrainAbort s id n fl) := by
  unfold calGrainAbort
  try dsimp only
  repeat' first
    | with_reducible exact Kept.refl _ _
    | with_reducible refine Kept.ite (fun _ => ?_) (fun _ => ?_)
    | with_reducible refine Kept.foldl' ?_ (fun a x => ?_)
    | with_reducible apply Kept.chain (calAbort_kept _ _ _) (by decide)
    | with_reducible simp (disch := first | decide | (with_unfolding_all constructor <;> first | exact Or.inl (by decide) | exact Or.inr rfl | (constructor <;> first | exact Or.inl (by decide) | exact Or.inr (And.intro rfl rfl)))) only [Kept.upd_fe, Kept.upd_cal, Kept.upd_host, Kept.upd_now, Kept.upd_freeNo]
    | split
    | intro _

theorem attenGrain_kept (s : State) (id : Nat) (x : CalStep) (fl : Nat) : Kept [.fe, .cal] s (attenGrain s id x fl) := by
  unfold attenGrain
  try dsimp only
  repeat' first
    | with_reducible exact Kept.refl _ _
    | with_reducible refine Kept.ite (fun _ => ?_) (fun _ => ?_)
    | with_reducible refine Kept.foldp' ?_ (fun a x => ?_)
    | with_reducible refine Kept.foldq' ?_ (fun a x => ?_)
    | with_reducible refine Kept.foldl' ?_ (fun a x => ?_)
    | with_reducible apply Kept.chain (drawFree_kept _ _) (by decide)
    | with_reducible apply Kept.chain (State.setCalStep_kept _ _ _) (by decide)
    | with_reducible apply Kept.chain (attenCode_kept _ _ _ _ _) (by decide)
    | with_reducible simp (disch := first | decide | (with_unfolding_all constructor <;> first | exact Or.inl (by decide) | exact Or.inr rfl | (constructor <;> first | exact Or.inl (by decide) | exact Or.inr (And.intro rfl rfl)))) only [Kept.upd_fe, Kept.upd_cal, Kept.upd_host, Kept.upd_now, Kept.upd_freeNo]
    | split
    | intro _

theorem calMeasure_kept (s : State) (id : Nat) (n : Nat) (fl : Nat) (c : Tagging) : Kept [.fe, .cal] s (calMeasure s id n fl c) := by
  unfold calMeasure
  try dsimp only
  repeat' first
    | with_reducible exact Kept.refl _ _
    | with_reducible refine Kept.ite (fun _ => ?_) (fun _ => ?_)
    | with_reducible refine Kept.foldl' ?_ (fun a x => ?_)
    | with_reducible apply Kept.chain (State.setCalStep_kept _ _ _) (by decide)
    | with_reducible apply Kept.chain (attenGrain_kept _ _ _ _) (by decide)
    | with_reducible simp (disch := first | decide | (with_unfolding_all constructor <;> first | exact Or.inl (by decide) | exact Or.inr rfl | (constructor <;> first | exact Or.inl (by decide) | exact Or.inr (And.intro rfl rfl)))) only [Kept.upd_fe, Kept.upd_cal, Kept.upd_host, Kept.upd_now, Kept.upd_freeNo]
    | split
    | intro _

theorem episode_kept (s : State) (id : Nat) (n : Nat) (fl : Nat) : Kept [.fe] s (episode s id n fl) := by
  unfold episode
  try dsimp only
  repeat' first
    | with_reducible exact Kept.refl _ _
    | with_reducible refine Kept.ite (fun _ => ?_) (fun _ => ?_)
    | with_reducible refine Kept.foldl' ?_ (fun a x => ?_)
    | with_reducible apply Kept.chain (State.modStr_kept _ _ _) (by decide)
    | with_reducible apply Kept.chain (endEpisode_kept _ _) (by decide)
    | with_reducible apply Kept.chain (post_kept _ _ _) (by decide)
    | with_reducible simp (disch := first | decide | (with_unfolding_all constructor <;> first | exact Or.inl (by decide) | exact Or.inr rfl | (constructor <;> first | exact Or.inl (by decide) | exact Or.inr (And.intro rfl rfl)))) only [Kept.upd_fe, Kept.upd_host, Kept.upd_now, Kept.upd_freeNo]
    | split
    | intro _

theorem ddcsAbort_kept (s : State) (id : Nat) (n : Nat) : Kept [.spec, .acq, .mem, .move] s (ddcsAbort s id n) := by
  unfold ddcsAbort
  try dsimp only
  repeat' first
    | with_reducible exact Kept.refl _ _
    | with_reducible refine Kept.ite (fun _ => ?_) (fun _ => ?_)
    | with_reducible refine Kept.foldl' ?_ (fun a x => ?_)
    | with_reducible apply Kept.chain (State.modDdc_kept _ _ _) (by decide)
    | with_reducible apply Kept.chain (abortStream_kept _ _ _) (by decide)
    | with_reducible simp (disch := first | decide | (with_unfolding_all constructor <;> first | exact Or.inl (by decide) | exact Or.inr rfl | (constructor <;> first | exact Or.inl (by decide) | exact Or.inr (And.intro rfl rfl)))) only [Kept.upd_spec, Kept.upd_acq, Kept.upd_mem, Kept.upd_move, Kept.upd_host, Kept.upd_now, Kept.upd_freeNo]
    | split
    | intro _

theorem shedStep_kept (s : State) (level : Nat) : Kept [.host, .fe, .cal, .spec, .acq, .disp, .mon, .tiu, .grove, .mem, .move, .ctl, .flt, .sec, .pwr] s (shedStep s level) := by
  unfold shedStep
  try dsimp only
  repeat' first
    | with_reducible exact Kept.refl _ _
    | with_reducible refine Kept.ite (fun _ => ?_) (fun _ => ?_)
    | with_reducible refine Kept.foldl' ?_ (fun a x => ?_)
    | with_reducible apply Kept.chain (perfAdd_kept _ _ _ _) (by decide)
    | with_reducible apply Kept.chain (post_kept _ _ _) (by decide)
    | with_reducible apply Kept.chain (raiseQuiet_kept _ _ _ (by first | (unfold quietSource; decide) | exact quiet_rank _ _ _ (by decide))) (by decide)
    | with_reducible simp (disch := first | decide | (with_unfolding_all constructor <;> first | exact Or.inl (by decide) | exact Or.inr rfl | (constructor <;> first | exact Or.inl (by decide) | exact Or.inr (And.intro rfl rfl)))) only [Kept.upd_fe, Kept.upd_cal, Kept.upd_spec, Kept.upd_acq, Kept.upd_disp, Kept.upd_mon, Kept.upd_tiu, Kept.upd_grove, Kept.upd_mem, Kept.upd_move, Kept.upd_ctl, Kept.upd_flt, Kept.upd_sec, Kept.upd_pwr, Kept.upd_host, Kept.upd_now, Kept.upd_freeNo]
    | split
    | intro _

theorem shedTo_kept (s : State) (level : Nat) : Kept [.host, .fe, .cal, .spec, .acq, .disp, .mon, .tiu, .grove, .mem, .move, .ctl, .flt, .sec, .pwr] s (shedTo s level) := by
  unfold shedTo
  try dsimp only
  repeat' first
    | with_reducible exact Kept.refl _ _
    | with_reducible refine Kept.ite (fun _ => ?_) (fun _ => ?_)
    | with_reducible refine Kept.foldl' ?_ (fun a x => ?_)
    | with_reducible apply Kept.chain (shedStep_kept _ _) (by decide)
    | with_reducible simp (disch := first | decide | (with_unfolding_all constructor <;> first | exact Or.inl (by decide) | exact Or.inr rfl | (constructor <;> first | exact Or.inl (by decide) | exact Or.inr (And.intro rfl rfl)))) only [Kept.upd_fe, Kept.upd_cal, Kept.upd_spec, Kept.upd_acq, Kept.upd_disp, Kept.upd_mon, Kept.upd_tiu, Kept.upd_grove, Kept.upd_mem, Kept.upd_move, Kept.upd_ctl, Kept.upd_flt, Kept.upd_sec, Kept.upd_pwr, Kept.upd_host, Kept.upd_now, Kept.upd_freeNo]
    | split
    | intro _

theorem State.setGov_kept (s : State) (f : Gov → Gov) : Kept [.spec] s (State.setGov s f) := by
  unfold State.setGov
  try dsimp only
  repeat' first
    | with_reducible exact Kept.refl _ _
    | with_reducible refine Kept.ite (fun _ => ?_) (fun _ => ?_)
    | with_reducible refine Kept.foldl' ?_ (fun a x => ?_)
    | with_reducible simp (disch := first | decide | (with_unfolding_all constructor <;> first | exact Or.inl (by decide) | exact Or.inr rfl | (constructor <;> first | exact Or.inl (by decide) | exact Or.inr (And.intro rfl rfl)))) only [Kept.upd_spec, Kept.upd_host, Kept.upd_now, Kept.upd_freeNo]
    | split
    | intro _

theorem ddcSet_kept (s : State) (n : Nat) (y : Ddc) : Kept [.host, .cmds, .fe, .cal, .spec, .acq, .disp, .mon, .tiu, .grove, .mem, .move, .ctl, .flt, .sec, .pwr] s (ddcSet s n y) := by
  unfold ddcSet
  try dsimp only
  repeat' first
    | with_reducible exact Kept.refl _ _
    | with_reducible refine Kept.ite (fun _ => ?_) (fun _ => ?_)
    | with_reducible refine Kept.foldl' ?_ (fun a x => ?_)
    | with_reducible apply Kept.chain (State.setDdc_kept _ _ _) (by decide)
    | with_reducible apply Kept.chain (abortStream_kept _ _ _) (by decide)
    | with_reducible apply Kept.chain (bindNow_kept _ _ _) (by decide)
    | with_reducible apply Kept.chain (ddcFollow_kept _ _) (by decide)
    | with_reducible apply Kept.chain (ddcPass_kept _ _) (by decide)
    | with_reducible apply Kept.chain (endAt_kept _ _ _ _ _) (by decide)
    | with_reducible simp (disch := first | decide | (with_unfolding_all constructor <;> first | exact Or.inl (by decide) | exact Or.inr rfl | (constructor <;> first | exact Or.inl (by decide) | exact Or.inr (And.intro rfl rfl)))) only [Kept.upd_fe, Kept.upd_cal, Kept.upd_spec, Kept.upd_acq, Kept.upd_disp, Kept.upd_mon, Kept.upd_tiu, Kept.upd_grove, Kept.upd_mem, Kept.upd_move, Kept.upd_ctl, Kept.upd_flt, Kept.upd_sec, Kept.upd_pwr, Kept.upd_host, Kept.upd_now, Kept.upd_freeNo]
    | split
    | intro _

theorem laneChange_kept (s : State) (c : Nat) (on : Bool) (run : LaneRun) : Kept [.host, .cmds, .fe, .cal, .spec, .acq, .disp, .mon, .tiu, .grove, .mem, .move, .ctl, .flt, .sec, .pwr] s (laneChange s c on run) := by
  unfold laneChange
  try dsimp only
  repeat' first
    | with_reducible exact Kept.refl _ _
    | with_reducible refine Kept.ite (fun _ => ?_) (fun _ => ?_)
    | with_reducible refine Kept.foldl' ?_ (fun a x => ?_)
    | with_reducible apply Kept.chain (State.setLane_kept _ _ _) (by decide)
    | with_reducible apply Kept.chain (laneForget_kept _ _) (by decide)
    | with_reducible apply Kept.chain (laneFront_kept _ _) (by decide)
    | with_reducible apply Kept.chain (laneTruncDue_kept _ _) (by decide)
    | with_reducible simp (disch := first | decide | (with_unfolding_all constructor <;> first | exact Or.inl (by decide) | exact Or.inr rfl | (constructor <;> first | exact Or.inl (by decide) | exact Or.inr (And.intro rfl rfl)))) only [Kept.upd_fe, Kept.upd_cal, Kept.upd_spec, Kept.upd_acq, Kept.upd_disp, Kept.upd_mon, Kept.upd_tiu, Kept.upd_grove, Kept.upd_mem, Kept.upd_move, Kept.upd_ctl, Kept.upd_flt, Kept.upd_sec, Kept.upd_pwr, Kept.upd_host, Kept.upd_now, Kept.upd_freeNo]
    | split
    | intro _

theorem laneOff_kept (s : State) (c : Nat) : Kept [.host, .cmds, .fe, .cal, .spec, .acq, .disp, .mon, .tiu, .grove, .mem, .move, .ctl, .flt, .sec, .pwr] s (laneOff s c) := by
  unfold laneOff
  try dsimp only
  repeat' first
    | with_reducible exact Kept.refl _ _
    | with_reducible refine Kept.ite (fun _ => ?_) (fun _ => ?_)
    | with_reducible refine Kept.foldl' ?_ (fun a x => ?_)
    | with_reducible apply Kept.chain (laneChange_kept _ _ _ _) (by decide)
    | with_reducible simp (disch := first | decide | (with_unfolding_all constructor <;> first | exact Or.inl (by decide) | exact Or.inr rfl | (constructor <;> first | exact Or.inl (by decide) | exact Or.inr (And.intro rfl rfl)))) only [Kept.upd_fe, Kept.upd_cal, Kept.upd_spec, Kept.upd_acq, Kept.upd_disp, Kept.upd_mon, Kept.upd_tiu, Kept.upd_grove, Kept.upd_mem, Kept.upd_move, Kept.upd_ctl, Kept.upd_flt, Kept.upd_sec, Kept.upd_pwr, Kept.upd_host, Kept.upd_now, Kept.upd_freeNo]
    | split
    | intro _

end Sys2Proof.Machine
end

