-- ==== Sys2Proof/Laws/Frames6.lean ====
section
/-! SUPPORT. Frames of the shared operations (part 7 of 8): the parts of the engine that each can change, and, where the host interface is
not among them, that it changes only the event ring and its signals. -/

set_option linter.unusedTactic false
set_option linter.unreachableTactic false
set_option linter.unusedVariables false
set_option linter.unusedSimpArgs false

namespace Sys2Proof.Machine

theorem laneSet_kept (s : State) (c : Nat) (b : Nat) : Kept [.host, .cmds, .fe, .cal, .spec, .acq, .disp, .mon, .tiu, .grove, .mem, .move, .ctl, .flt, .sec, .pwr] s (laneSet s c b) := by
  unfold laneSet
  try dsimp only
  repeat' first
    | with_reducible exact Kept.refl _ _
    | with_reducible refine Kept.ite (fun _ => ?_) (fun _ => ?_)
    | with_reducible refine Kept.foldl' ?_ (fun a x => ?_)
    | with_reducible apply Kept.chain (State.setLane_kept _ _ _) (by decide)
    | with_reducible apply Kept.chain (bindNow_kept _ _ _) (by decide)
    | with_reducible apply Kept.chain (laneChange_kept _ _ _ _) (by decide)
    | with_reducible simp (disch := first | decide | (with_unfolding_all constructor <;> first | exact Or.inl (by decide) | exact Or.inr rfl | (constructor <;> first | exact Or.inl (by decide) | exact Or.inr (And.intro rfl rfl)))) only [Kept.upd_fe, Kept.upd_cal, Kept.upd_spec, Kept.upd_acq, Kept.upd_disp, Kept.upd_mon, Kept.upd_tiu, Kept.upd_grove, Kept.upd_mem, Kept.upd_move, Kept.upd_ctl, Kept.upd_flt, Kept.upd_sec, Kept.upd_pwr, Kept.upd_host, Kept.upd_now, Kept.upd_freeNo]
    | split
    | intro _

theorem traceOff_kept (s : State) (id : Nat) : Kept [.host, .cmds, .fe, .cal, .spec, .acq, .disp, .mon, .tiu, .grove, .mem, .move, .ctl, .flt, .sec, .pwr] s (traceOff s id) := by
  unfold traceOff
  try dsimp only
  repeat' first
    | with_reducible exact Kept.refl _ _
    | with_reducible refine Kept.ite (fun _ => ?_) (fun _ => ?_)
    | with_reducible refine Kept.foldl' ?_ (fun a x => ?_)
    | with_reducible apply Kept.chain (State.modTrace_kept _ _ _) (by decide)
    | with_reducible apply Kept.chain (traceWrite_kept _ _ _) (by decide)
    | with_reducible simp (disch := first | decide | (with_unfolding_all constructor <;> first | exact Or.inl (by decide) | exact Or.inr rfl | (constructor <;> first | exact Or.inl (by decide) | exact Or.inr (And.intro rfl rfl)))) only [Kept.upd_fe, Kept.upd_cal, Kept.upd_spec, Kept.upd_acq, Kept.upd_disp, Kept.upd_mon, Kept.upd_tiu, Kept.upd_grove, Kept.upd_mem, Kept.upd_move, Kept.upd_ctl, Kept.upd_flt, Kept.upd_sec, Kept.upd_pwr, Kept.upd_host, Kept.upd_now, Kept.upd_freeNo]
    | split
    | intro _

theorem startCores_kept (s : State) (cores : Nat) (pc : Nat) (g : List Nat) (at_ : Tick) : Kept [.grove] s (startCores s cores pc g at_) := by
  unfold startCores
  try dsimp only
  repeat' first
    | with_reducible exact Kept.refl _ _
    | with_reducible refine Kept.ite (fun _ => ?_) (fun _ => ?_)
    | with_reducible refine Kept.foldl' ?_ (fun a x => ?_)
    | with_reducible apply Kept.chain (State.modCore_kept _ _ _) (by decide)
    | with_reducible simp (disch := first | decide | (with_unfolding_all constructor <;> first | exact Or.inl (by decide) | exact Or.inr rfl | (constructor <;> first | exact Or.inl (by decide) | exact Or.inr (And.intro rfl rfl)))) only [Kept.upd_grove, Kept.upd_host, Kept.upd_now, Kept.upd_freeNo]
    | split
    | intro _

theorem freeCopy_kept (s : State) (u : PortUse) (v : PortUse) : Kept [.mem] s (freeCopy s u v) := by
  unfold freeCopy
  try dsimp only
  repeat' first
    | with_reducible exact Kept.refl _ _
    | with_reducible refine Kept.ite (fun _ => ?_) (fun _ => ?_)
    | with_reducible refine Kept.foldp' ?_ (fun a x => ?_)
    | with_reducible refine Kept.foldq' ?_ (fun a x => ?_)
    | with_reducible refine Kept.foldl' ?_ (fun a x => ?_)
    | with_reducible apply Kept.chain (drawFree_kept _ _) (by decide)
    | with_reducible apply Kept.chain (memWrite_kept _ _ _) (by decide)
    | with_reducible simp (disch := first | decide | (with_unfolding_all constructor <;> first | exact Or.inl (by decide) | exact Or.inr rfl | (constructor <;> first | exact Or.inl (by decide) | exact Or.inr (And.intro rfl rfl)))) only [Kept.upd_mem, Kept.upd_host, Kept.upd_now, Kept.upd_freeNo]
    | split
    | intro _

theorem portOne_kept (s : State) (n : Nat) (us : List PortUse) : Kept [.grove, .mem] s (portOne s n us) := by
  unfold portOne
  try dsimp only
  repeat' first
    | with_reducible exact Kept.refl _ _
    | with_reducible refine Kept.ite (fun _ => ?_) (fun _ => ?_)
    | with_reducible refine Kept.foldl' ?_ (fun a x => ?_)
    | with_reducible apply Kept.chain (State.modCore_kept _ _ _) (by decide)
    | with_reducible apply Kept.chain (freeCopy_kept _ _ _) (by decide)
    | with_reducible simp (disch := first | decide | (with_unfolding_all constructor <;> first | exact Or.inl (by decide) | exact Or.inr rfl | (constructor <;> first | exact Or.inl (by decide) | exact Or.inr (And.intro rfl rfl)))) only [Kept.upd_grove, Kept.upd_mem, Kept.upd_host, Kept.upd_now, Kept.upd_freeNo]
    | split
    | intro _

theorem issued_kept (s : State) (n : Nat) (op : Nat) (f : Nat) (x : GCore) (y : GCore) : Kept [.grove, .mem] s (issued s n op f x y) := by
  unfold issued
  try dsimp only
  repeat' first
    | with_reducible exact Kept.refl _ _
    | with_reducible refine Kept.ite (fun _ => ?_) (fun _ => ?_)
    | with_reducible refine Kept.foldl' ?_ (fun a x => ?_)
    | with_reducible apply Kept.chain (State.setCore_kept _ _ _) (by decide)
    | with_reducible apply Kept.chain (perfAdd_kept _ _ _ _) (by decide)
    | with_reducible apply Kept.chain (portOne_kept _ _ _) (by decide)
    | with_reducible simp (disch := first | decide | (with_unfolding_all constructor <;> first | exact Or.inl (by decide) | exact Or.inr rfl | (constructor <;> first | exact Or.inl (by decide) | exact Or.inr (And.intro rfl rfl)))) only [Kept.upd_grove, Kept.upd_mem, Kept.upd_host, Kept.upd_now, Kept.upd_freeNo]
    | split
    | intro _

theorem settlePosted_kept (s : State) : Kept [.grove] s (settlePosted s) := by
  unfold settlePosted
  try dsimp only
  repeat' first
    | with_reducible exact Kept.refl _ _
    | with_reducible refine Kept.ite (fun _ => ?_) (fun _ => ?_)
    | with_reducible refine Kept.foldp' ?_ (fun a x => ?_)
    | with_reducible refine Kept.foldq' ?_ (fun a x => ?_)
    | with_reducible refine Kept.foldl' ?_ (fun a x => ?_)
    | with_reducible apply Kept.chain (drawFree_kept _ _) (by decide)
    | with_reducible apply Kept.chain (drainPosted_kept _ _ _) (by decide)
    | with_reducible simp (disch := first | decide | (with_unfolding_all constructor <;> first | exact Or.inl (by decide) | exact Or.inr rfl | (constructor <;> first | exact Or.inl (by decide) | exact Or.inr (And.intro rfl rfl)))) only [Kept.upd_grove, Kept.upd_host, Kept.upd_now, Kept.upd_freeNo]
    | split
    | intro _

theorem allocUnit_kept (s : State) (n : Nat) (cls : Nat) (u : Nat) : Kept [.host, .mon] s (allocUnit s n cls u) := by
  unfold allocUnit
  try dsimp only
  repeat' first
    | with_reducible exact Kept.refl _ _
    | with_reducible refine Kept.ite (fun _ => ?_) (fun _ => ?_)
    | with_reducible refine Kept.foldl' ?_ (fun a x => ?_)
    | with_reducible apply Kept.chain (State.setCtx_kept _ _ _) (by decide)
    | with_reducible apply Kept.chain (State.setOwnerOf_kept _ _ _) (by decide)
    | with_reducible simp (disch := first | decide | (with_unfolding_all constructor <;> first | exact Or.inl (by decide) | exact Or.inr rfl | (constructor <;> first | exact Or.inl (by decide) | exact Or.inr (And.intro rfl rfl)))) only [Kept.upd_mon, Kept.upd_host, Kept.upd_now, Kept.upd_freeNo]
    | split
    | intro _

theorem fwStaged_kept (s : State) (r : Nat) : Kept [.host, .sec] s (fwStaged s r) := by
  unfold fwStaged
  try dsimp only
  repeat' first
    | with_reducible exact Kept.refl _ _
    | with_reducible refine Kept.ite (fun _ => ?_) (fun _ => ?_)
    | with_reducible refine Kept.foldl' ?_ (fun a x => ?_)
    | with_reducible simp (disch := first | decide | (with_unfolding_all constructor <;> first | exact Or.inl (by decide) | exact Or.inr rfl | (constructor <;> first | exact Or.inl (by decide) | exact Or.inr (And.intro rfl rfl)))) only [Kept.upd_host_sec, Kept.upd_sec, Kept.upd_host, Kept.upd_now, Kept.upd_freeNo]
    | split
    | intro _

theorem leaseStart_kept (s : State) (n : Nat) : Kept [.ses] s (leaseStart s n) := by
  unfold leaseStart
  try dsimp only
  repeat' first
    | with_reducible exact Kept.refl _ _
    | with_reducible refine Kept.ite (fun _ => ?_) (fun _ => ?_)
    | with_reducible refine Kept.foldl' ?_ (fun a x => ?_)
    | with_reducible apply Kept.chain (State.modSes_kept _ _ _) (by decide)
    | with_reducible simp (disch := first | decide | (with_unfolding_all constructor <;> first | exact Or.inl (by decide) | exact Or.inr rfl | (constructor <;> first | exact Or.inl (by decide) | exact Or.inr (And.intro rfl rfl)))) only [Kept.upd_host, Kept.upd_now, Kept.upd_freeNo]
    | split
    | intro _

theorem drwIgnored_kept (s : State) : Kept [.host] s (drwIgnored s) := by
  unfold drwIgnored
  try dsimp only
  repeat' first
    | with_reducible exact Kept.refl _ _
    | with_reducible refine Kept.ite (fun _ => ?_) (fun _ => ?_)
    | with_reducible refine Kept.foldl' ?_ (fun a x => ?_)
    | with_reducible apply Kept.chain (drwErr_kept _ _) (by decide)
    | with_reducible simp (disch := first | decide | (with_unfolding_all constructor <;> first | exact Or.inl (by decide) | exact Or.inr rfl | (constructor <;> first | exact Or.inl (by decide) | exact Or.inr (And.intro rfl rfl)))) only [Kept.upd_host, Kept.upd_now, Kept.upd_freeNo]
    | split
    | intro _

theorem drwRefused_kept (s : State) (b : Nat) : Kept [.host, .fe, .cal, .spec, .acq, .disp, .mon, .tiu, .grove, .mem, .move, .ctl, .flt, .sec, .pwr] s (drwRefused s b) := by
  unfold drwRefused
  try dsimp only
  repeat' first
    | with_reducible exact Kept.refl _ _
    | with_reducible refine Kept.ite (fun _ => ?_) (fun _ => ?_)
    | with_reducible refine Kept.foldl' ?_ (fun a x => ?_)
    | with_reducible apply Kept.chain (drwErr_kept _ _) (by decide)
    | with_reducible apply Kept.chain (raiseQuiet_kept _ _ _ (by first | (unfold quietSource; decide) | exact quiet_rank _ _ _ (by decide))) (by decide)
    | with_reducible simp (disch := first | decide | (with_unfolding_all constructor <;> first | exact Or.inl (by decide) | exact Or.inr rfl | (constructor <;> first | exact Or.inl (by decide) | exact Or.inr (And.intro rfl rfl)))) only [Kept.upd_fe, Kept.upd_cal, Kept.upd_spec, Kept.upd_acq, Kept.upd_disp, Kept.upd_mon, Kept.upd_tiu, Kept.upd_grove, Kept.upd_mem, Kept.upd_move, Kept.upd_ctl, Kept.upd_flt, Kept.upd_sec, Kept.upd_pwr, Kept.upd_host, Kept.upd_now, Kept.upd_freeNo]
    | split
    | intro _

theorem sqTailWrite_kept (s : State) (n : Nat) (v : Nat) : Kept [.host, .ses, .fe, .cal, .spec, .acq, .disp, .mon, .tiu, .grove, .mem, .move, .ctl, .flt, .sec, .pwr] s (sqTailWrite s n v) := by
  unfold sqTailWrite
  try dsimp only
  repeat' first
    | with_reducible exact Kept.refl _ _
    | with_reducible refine Kept.ite (fun _ => ?_) (fun _ => ?_)
    | with_reducible refine Kept.foldl' ?_ (fun a x => ?_)
    | with_reducible apply Kept.chain (State.setSes_kept _ _ _) (by decide)
    | with_reducible apply Kept.chain (drwIgnored_kept _) (by decide)
    | with_reducible apply Kept.chain (drwRefused_kept _ _) (by decide)
    | with_reducible apply Kept.chain (leaseStart_kept _ _) (by decide)
    | with_reducible simp (disch := first | decide | (with_unfolding_all constructor <;> first | exact Or.inl (by decide) | exact Or.inr rfl | (constructor <;> first | exact Or.inl (by decide) | exact Or.inr (And.intro rfl rfl)))) only [Kept.upd_fe, Kept.upd_cal, Kept.upd_spec, Kept.upd_acq, Kept.upd_disp, Kept.upd_mon, Kept.upd_tiu, Kept.upd_grove, Kept.upd_mem, Kept.upd_move, Kept.upd_ctl, Kept.upd_flt, Kept.upd_sec, Kept.upd_pwr, Kept.upd_host, Kept.upd_now, Kept.upd_freeNo]
    | split
    | intro _

theorem signal_kept (s : State) (v : Nat) : Kept [] s (signal s v) := (signal_posts _ _).kept _

theorem cqSignal_kept (s : State) (n : Nat) : Kept [] s (cqSignal s n) := (cqSignal_posts _ _).kept _

theorem cqHeadWrite_kept (s : State) (n : Nat) (v : Nat) : Kept [.host, .ses, .fe, .cal, .spec, .acq, .disp, .mon, .tiu, .grove, .mem, .move, .ctl, .flt, .sec, .pwr] s (cqHeadWrite s n v) := by
  unfold cqHeadWrite
  try dsimp only
  repeat' first
    | with_reducible exact Kept.refl _ _
    | with_reducible refine Kept.ite (fun _ => ?_) (fun _ => ?_)
    | with_reducible refine Kept.foldl' ?_ (fun a x => ?_)
    | with_reducible apply Kept.chain (State.setCplR_kept _ _ _) (by decide)
    | with_reducible apply Kept.chain (State.setSes_kept _ _ _) (by decide)
    | with_reducible apply Kept.chain (cqSignal_kept _ _) (by decide)
    | with_reducible apply Kept.chain (drwIgnored_kept _) (by decide)
    | with_reducible apply Kept.chain (drwRefused_kept _ _) (by decide)
    | with_reducible apply Kept.chain (leaseStart_kept _ _) (by decide)
    | with_reducible simp (disch := first | decide | (with_unfolding_all constructor <;> first | exact Or.inl (by decide) | exact Or.inr rfl | (constructor <;> first | exact Or.inl (by decide) | exact Or.inr (And.intro rfl rfl)))) only [Kept.upd_fe, Kept.upd_cal, Kept.upd_spec, Kept.upd_acq, Kept.upd_disp, Kept.upd_mon, Kept.upd_tiu, Kept.upd_grove, Kept.upd_mem, Kept.upd_move, Kept.upd_ctl, Kept.upd_flt, Kept.upd_sec, Kept.upd_pwr, Kept.upd_host, Kept.upd_now, Kept.upd_freeNo]
    | split
    | intro _

theorem evtHeadWrite_kept (s : State) (v : Nat) : Kept [.host, .fe, .cal, .spec, .acq, .disp, .mon, .tiu, .grove, .mem, .move, .ctl, .flt, .sec, .pwr] s (evtHeadWrite s v) := by
  unfold evtHeadWrite
  try dsimp only
  repeat' first
    | with_reducible exact Kept.refl _ _
    | with_reducible refine Kept.ite (fun _ => ?_) (fun _ => ?_)
    | with_reducible refine Kept.foldl' ?_ (fun a x => ?_)
    | with_reducible apply Kept.chain (drwRefused_kept _ _) (by decide)
    | with_reducible simp (disch := first | decide | (with_unfolding_all constructor <;> first | exact Or.inl (by decide) | exact Or.inr rfl | (constructor <;> first | exact Or.inl (by decide) | exact Or.inr (And.intro rfl rfl)))) only [Kept.upd_fe, Kept.upd_cal, Kept.upd_spec, Kept.upd_acq, Kept.upd_disp, Kept.upd_mon, Kept.upd_tiu, Kept.upd_grove, Kept.upd_mem, Kept.upd_move, Kept.upd_ctl, Kept.upd_flt, Kept.upd_sec, Kept.upd_pwr, Kept.upd_host, Kept.upd_now, Kept.upd_freeNo]
    | split
    | intro _

theorem qctlRefused_kept (s : State) (n : Nat) : Kept [.ses] s (qctlRefused s n) := by
  unfold qctlRefused
  try dsimp only
  repeat' first
    | with_reducible exact Kept.refl _ _
    | with_reducible refine Kept.ite (fun _ => ?_) (fun _ => ?_)
    | with_reducible refine Kept.foldl' ?_ (fun a x => ?_)
    | with_reducible apply Kept.chain (State.modSes_kept _ _ _) (by decide)
    | with_reducible simp (disch := first | decide | (with_unfolding_all constructor <;> first | exact Or.inl (by decide) | exact Or.inr rfl | (constructor <;> first | exact Or.inl (by decide) | exact Or.inr (And.intro rfl rfl)))) only [Kept.upd_host, Kept.upd_now, Kept.upd_freeNo]
    | split
    | intro _

theorem sesPost_kept (s : State) (n : Nat) (change : Nat) (cause : Nat) : Kept [] s (sesPost s n change cause) := (sesPost_posts _ _ _ _).kept _

theorem sesOpen_kept (s : State) (n : Nat) (change : Nat) (cookie : Nat) : Kept [.ses] s (sesOpen s n change cookie) := by
  unfold sesOpen
  try dsimp only
  repeat' first
    | with_reducible exact Kept.refl _ _
    | with_reducible refine Kept.ite (fun _ => ?_) (fun _ => ?_)
    | with_reducible refine Kept.foldl' ?_ (fun a x => ?_)
    | with_reducible apply Kept.chain (State.modSes_kept _ _ _) (by decide)
    | with_reducible apply Kept.chain (State.setCplR_kept _ _ _) (by decide)
    | with_reducible apply Kept.chain (leaseStart_kept _ _) (by decide)
    | with_reducible apply Kept.chain (sesPost_kept _ _ _ _) (by decide)
    | with_reducible simp (disch := first | decide | (with_unfolding_all constructor <;> first | exact Or.inl (by decide) | exact Or.inr rfl | (constructor <;> first | exact Or.inl (by decide) | exact Or.inr (And.intro rfl rfl)))) only [Kept.upd_host, Kept.upd_now, Kept.upd_freeNo]
    | split
    | intro _

theorem qctlOpen_kept (s : State) (n : Nat) : Kept [.ses] s (qctlOpen s n) := by
  unfold qctlOpen
  try dsimp only
  repeat' first
    | with_reducible exact Kept.refl _ _
    | with_reducible refine Kept.ite (fun _ => ?_) (fun _ => ?_)
    | with_reducible refine Kept.foldl' ?_ (fun a x => ?_)
    | with_reducible apply Kept.chain (qctlRefused_kept _ _) (by decide)
    | with_reducible apply Kept.chain (sesOpen_kept _ _ _ _) (by decide)
    | with_reducible simp (disch := first | decide | (with_unfolding_all constructor <;> first | exact Or.inl (by decide) | exact Or.inr rfl | (constructor <;> first | exact Or.inl (by decide) | exact Or.inr (And.intro rfl rfl)))) only [Kept.upd_host, Kept.upd_now, Kept.upd_freeNo]
    | split
    | intro _

theorem qctlReclaim_kept (s : State) (n : Nat) : Kept [.ses] s (qctlReclaim s n) := by
  unfold qctlReclaim
  try dsimp only
  repeat' first
    | with_reducible exact Kept.refl _ _
    | with_reducible refine Kept.ite (fun _ => ?_) (fun _ => ?_)
    | with_reducible refine Kept.foldl' ?_ (fun a x => ?_)
    | with_reducible apply Kept.chain (qctlRefused_kept _ _) (by decide)
    | with_reducible apply Kept.chain (sesOpen_kept _ _ _ _) (by decide)
    | with_reducible simp (disch := first | decide | (with_unfolding_all constructor <;> first | exact Or.inl (by decide) | exact Or.inr rfl | (constructor <;> first | exact Or.inl (by decide) | exact Or.inr (And.intro rfl rfl)))) only [Kept.upd_host, Kept.upd_now, Kept.upd_freeNo]
    | split
    | intro _

theorem startRelease_kept (s : State) (n : Nat) (cause : Nat) : Kept [.ses] s (startRelease s n cause) := by
  unfold startRelease
  try dsimp only
  repeat' first
    | with_reducible exact Kept.refl _ _
    | with_reducible refine Kept.ite (fun _ => ?_) (fun _ => ?_)
    | with_reducible refine Kept.foldl' ?_ (fun a x => ?_)
    | with_reducible apply Kept.chain (State.modCplR_kept _ _ _) (by decide)
    | with_reducible apply Kept.chain (State.modSes_kept _ _ _) (by decide)
    | with_reducible simp (disch := first | decide | (with_unfolding_all constructor <;> first | exact Or.inl (by decide) | exact Or.inr rfl | (constructor <;> first | exact Or.inl (by decide) | exact Or.inr (And.intro rfl rfl)))) only [Kept.upd_host, Kept.upd_now, Kept.upd_freeNo]
    | split
    | intro _

theorem qctlClose_kept (s : State) (n : Nat) : Kept [.ses] s (qctlClose s n) := by
  unfold qctlClose
  try dsimp only
  repeat' first
    | with_reducible exact Kept.refl _ _
    | with_reducible refine Kept.ite (fun _ => ?_) (fun _ => ?_)
    | with_reducible refine Kept.foldl' ?_ (fun a x => ?_)
    | with_reducible apply Kept.chain (State.modSes_kept _ _ _) (by decide)
    | with_reducible apply Kept.chain (qctlRefused_kept _ _) (by decide)
    | with_reducible apply Kept.chain (startRelease_kept _ _ _) (by decide)
    | with_reducible simp (disch := first | decide | (with_unfolding_all constructor <;> first | exact Or.inl (by decide) | exact Or.inr rfl | (constructor <;> first | exact Or.inl (by decide) | exact Or.inr (And.intro rfl rfl)))) only [Kept.upd_host, Kept.upd_now, Kept.upd_freeNo]
    | split
    | intro _

theorem leaseWrite_kept (s : State) (n : Nat) (v : Nat) : Kept [.host, .ses] s (leaseWrite s n v) := by
  unfold leaseWrite
  try dsimp only
  repeat' first
    | with_reducible exact Kept.refl _ _
    | with_reducible refine Kept.ite (fun _ => ?_) (fun _ => ?_)
    | with_reducible refine Kept.foldl' ?_ (fun a x => ?_)
    | with_reducible apply Kept.chain (State.modSes_kept _ _ _) (by decide)
    | with_reducible apply Kept.chain (drwIgnored_kept _) (by decide)
    | with_reducible apply Kept.chain (leaseStart_kept _ _) (by decide)
    | with_reducible simp (disch := first | decide | (with_unfolding_all constructor <;> first | exact Or.inl (by decide) | exact Or.inr rfl | (constructor <;> first | exact Or.inl (by decide) | exact Or.inr (And.intro rfl rfl)))) only [Kept.upd_host, Kept.upd_now, Kept.upd_freeNo]
    | split
    | intro _

theorem evtLose_kept (s : State) : Kept [] s (evtLose s) := (evtLose_posts _).kept _

theorem evtDiscard_kept (s : State) : Kept [] s (evtDiscard s) := by
  unfold evtDiscard
  try dsimp only
  repeat' first
    | with_reducible exact Kept.refl _ _
    | with_reducible refine Kept.ite (fun _ => ?_) (fun _ => ?_)
    | with_reducible refine Kept.foldl' ?_ (fun a x => ?_)
    | with_reducible apply Kept.chain (evtLose_kept _) (by decide)
    | with_reducible simp (disch := first | decide | (with_unfolding_all constructor <;> first | exact Or.inl (by decide) | exact Or.inr rfl | (constructor <;> first | exact Or.inl (by decide) | exact Or.inr (And.intro rfl rfl)))) only [Kept.upd_host, Kept.upd_now, Kept.upd_freeNo]
    | split
    | intro _

theorem evtCtlWrite_kept (s : State) (v : Nat) : Kept [.host] s (evtCtlWrite s v) := by
  unfold evtCtlWrite
  try dsimp only
  repeat' first
    | with_reducible exact Kept.refl _ _
    | with_reducible refine Kept.ite (fun _ => ?_) (fun _ => ?_)
    | with_reducible refine Kept.foldl' ?_ (fun a x => ?_)
    | with_reducible apply Kept.chain (drwIgnored_kept _) (by decide)
    | with_reducible apply Kept.chain (evtDiscard_kept _) (by decide)
    | with_reducible simp (disch := first | decide | (with_unfolding_all constructor <;> first | exact Or.inl (by decide) | exact Or.inr rfl | (constructor <;> first | exact Or.inl (by decide) | exact Or.inr (And.intro rfl rfl)))) only [Kept.upd_host, Kept.upd_now, Kept.upd_freeNo]
    | split
    | intro _

theorem ctlCodeWrite_kept (s : State) (n : Nat) (v : Nat) : Kept [.host, .ctl] s (ctlCodeWrite s n v) := by
  unfold ctlCodeWrite
  try dsimp only
  repeat' first
    | with_reducible exact Kept.refl _ _
    | with_reducible refine Kept.ite (fun _ => ?_) (fun _ => ?_)
    | with_reducible refine Kept.foldl' ?_ (fun a x => ?_)
    | with_reducible apply Kept.chain (ctlDrw_kept _ _ _) (by decide)
    | with_reducible apply Kept.chain (drwIgnored_kept _) (by decide)
    | with_reducible simp (disch := first | decide | (with_unfolding_all constructor <;> first | exact Or.inl (by decide) | exact Or.inr rfl | (constructor <;> first | exact Or.inl (by decide) | exact Or.inr (And.intro rfl rfl)))) only [Kept.upd_ctl, Kept.upd_host, Kept.upd_now, Kept.upd_freeNo]
    | split
    | intro _

theorem sesRegWrite_kept (s : State) (n : Nat) (o : Nat) (v : Nat) : Kept [.host, .ses] s (sesRegWrite s n o v) := by
  unfold sesRegWrite
  try dsimp only
  repeat' first
    | with_reducible exact Kept.refl _ _
    | with_reducible refine Kept.ite (fun _ => ?_) (fun _ => ?_)
    | with_reducible refine Kept.foldl' ?_ (fun a x => ?_)
    | with_reducible apply Kept.chain (State.setSes_kept _ _ _) (by decide)
    | with_reducible apply Kept.chain (drwIgnored_kept _) (by decide)
    | with_reducible simp (disch := first | decide | (with_unfolding_all constructor <;> first | exact Or.inl (by decide) | exact Or.inr rfl | (constructor <;> first | exact Or.inl (by decide) | exact Or.inr (And.intro rfl rfl)))) only [Kept.upd_host, Kept.upd_now, Kept.upd_freeNo]
    | split
    | intro _

theorem qctlWrite_kept (s : State) (n : Nat) (v : Nat) : Kept [.ses] s (qctlWrite s n v) := by
  unfold qctlWrite
  try dsimp only
  repeat' first
    | with_reducible exact Kept.refl _ _
    | with_reducible refine Kept.ite (fun _ => ?_) (fun _ => ?_)
    | with_reducible refine Kept.foldl' ?_ (fun a x => ?_)
    | with_reducible apply Kept.chain (qctlClose_kept _ _) (by decide)
    | with_reducible apply Kept.chain (qctlOpen_kept _ _) (by decide)
    | with_reducible apply Kept.chain (qctlReclaim_kept _ _) (by decide)
    | with_reducible simp (disch := first | decide | (with_unfolding_all constructor <;> first | exact Or.inl (by decide) | exact Or.inr rfl | (constructor <;> first | exact Or.inl (by decide) | exact Or.inr (And.intro rfl rfl)))) only [Kept.upd_host, Kept.upd_now, Kept.upd_freeNo]
    | split
    | intro _

theorem sesWrite_kept (s : State) (n : Nat) (o : Nat) (v : Nat) : Kept [.host, .ses, .fe, .cal, .spec, .acq, .disp, .mon, .tiu, .grove, .mem, .move, .ctl, .flt, .sec, .pwr] s (sesWrite s n o v) := by
  unfold sesWrite
  try dsimp only
  repeat' first
    | with_reducible exact Kept.refl _ _
    | with_reducible refine Kept.ite (fun _ => ?_) (fun _ => ?_)
    | with_reducible refine Kept.foldl' ?_ (fun a x => ?_)
    | with_reducible apply Kept.chain (cqHeadWrite_kept _ _ _) (by decide)
    | with_reducible apply Kept.chain (drwIgnored_kept _) (by decide)
    | with_reducible apply Kept.chain (leaseWrite_kept _ _ _) (by decide)
    | with_reducible apply Kept.chain (qctlWrite_kept _ _ _) (by decide)
    | with_reducible apply Kept.chain (sesRegWrite_kept _ _ _ _) (by decide)
    | with_reducible apply Kept.chain (sqTailWrite_kept _ _ _) (by decide)
    | with_reducible simp (disch := first | decide | (with_unfolding_all constructor <;> first | exact Or.inl (by decide) | exact Or.inr rfl | (constructor <;> first | exact Or.inl (by decide) | exact Or.inr (And.intro rfl rfl)))) only [Kept.upd_fe, Kept.upd_cal, Kept.upd_spec, Kept.upd_acq, Kept.upd_disp, Kept.upd_mon, Kept.upd_tiu, Kept.upd_grove, Kept.upd_mem, Kept.upd_move, Kept.upd_ctl, Kept.upd_flt, Kept.upd_sec, Kept.upd_pwr, Kept.upd_host, Kept.upd_now, Kept.upd_freeNo]
    | split
    | intro _

theorem pageWrite_kept (s : State) (o : Nat) (v : Nat) : Kept [.host, .fe, .cal, .spec, .acq, .disp, .mon, .tiu, .grove, .mem, .move, .ctl, .flt, .sec, .pwr] s (pageWrite s o v) := by
  unfold pageWrite
  try dsimp only
  repeat' first
    | with_reducible exact Kept.refl _ _
    | with_reducible refine Kept.ite (fun _ => ?_) (fun _ => ?_)
    | with_reducible refine Kept.foldl' ?_ (fun a x => ?_)
    | with_reducible apply Kept.chain (ctlCodeWrite_kept _ _ _) (by decide)
    | with_reducible apply Kept.chain (drwIgnored_kept _) (by decide)
    | with_reducible apply Kept.chain (evtCtlWrite_kept _ _) (by decide)
    | with_reducible apply Kept.chain (evtHeadWrite_kept _ _) (by decide)
    | with_reducible simp (disch := first | decide | (with_unfolding_all constructor <;> first | exact Or.inl (by decide) | exact Or.inr rfl | (constructor <;> first | exact Or.inl (by decide) | exact Or.inr (And.intro rfl rfl)))) only [Kept.upd_fe, Kept.upd_cal, Kept.upd_spec, Kept.upd_acq, Kept.upd_disp, Kept.upd_mon, Kept.upd_tiu, Kept.upd_grove, Kept.upd_mem, Kept.upd_move, Kept.upd_ctl, Kept.upd_flt, Kept.upd_sec, Kept.upd_pwr, Kept.upd_host, Kept.upd_now, Kept.upd_freeNo]
    | split
    | intro _

theorem drwWrite_kept (s : State) (off : Nat) (v : Nat) : Kept [.host, .ses, .fe, .cal, .spec, .acq, .disp, .mon, .tiu, .grove, .mem, .move, .ctl, .flt, .sec, .pwr] s (drwWrite s off v) := by
  unfold drwWrite
  try dsimp only
  repeat' first
    | with_reducible exact Kept.refl _ _
    | with_reducible refine Kept.ite (fun _ => ?_) (fun _ => ?_)
    | with_reducible refine Kept.foldl' ?_ (fun a x => ?_)
    | with_reducible apply Kept.chain (drwIgnored_kept _) (by decide)
    | with_reducible apply Kept.chain (pageWrite_kept _ _ _) (by decide)
    | with_reducible apply Kept.chain (sesWrite_kept _ _ _ _) (by decide)
    | with_reducible apply Kept.chain (strdbWrite_kept _ _ _) (by decide)
    | with_reducible simp (disch := first | decide | (with_unfolding_all constructor <;> first | exact Or.inl (by decide) | exact Or.inr rfl | (constructor <;> first | exact Or.inl (by decide) | exact Or.inr (And.intro rfl rfl)))) only [Kept.upd_fe, Kept.upd_cal, Kept.upd_spec, Kept.upd_acq, Kept.upd_disp, Kept.upd_mon, Kept.upd_tiu, Kept.upd_grove, Kept.upd_mem, Kept.upd_move, Kept.upd_ctl, Kept.upd_flt, Kept.upd_sec, Kept.upd_pwr, Kept.upd_host, Kept.upd_now, Kept.upd_freeNo]
    | split
    | intro _

theorem hostWrite_kept {l : List Part} (s : State) (off : Nat) (f : State → State) (h : Kept l s (f s)) :
    Kept l s (hostWrite s off f) := by
  unfold hostWrite
  first
    | exact Kept.ite (fun _ => Kept.refl _ _) (fun _ => h)

theorem readOut_kept (s : State) (w : Word) : Kept [.host] s (readOut s w) := by
  unfold readOut
  try dsimp only
  repeat' first
    | with_reducible exact Kept.refl _ _
    | with_reducible refine Kept.ite (fun _ => ?_) (fun _ => ?_)
    | with_reducible refine Kept.foldl' ?_ (fun a x => ?_)
    | with_reducible simp (disch := first | decide | (with_unfolding_all constructor <;> first | exact Or.inl (by decide) | exact Or.inr rfl | (constructor <;> first | exact Or.inl (by decide) | exact Or.inr (And.intro rfl rfl)))) only [Kept.upd_host, Kept.upd_now, Kept.upd_freeNo]
    | split
    | intro _

theorem readAux_kept (s : State) : Kept [.host, .aux] s (readAux s) := by
  unfold readAux
  try dsimp only
  repeat' first
    | with_reducible exact Kept.refl _ _
    | with_reducible refine Kept.ite (fun _ => ?_) (fun _ => ?_)
    | with_reducible refine Kept.foldl' ?_ (fun a x => ?_)
    | with_reducible apply Kept.chain (readOut_kept _ _) (by decide)
    | with_reducible simp (disch := first | decide | (with_unfolding_all constructor <;> first | exact Or.inl (by decide) | exact Or.inr rfl | (constructor <;> first | exact Or.inl (by decide) | exact Or.inr (And.intro rfl rfl)))) only [Kept.upd_aux, Kept.upd_host, Kept.upd_now, Kept.upd_freeNo]
    | split
    | intro _

theorem readLatched_kept (s : State) (k : Nat) : Kept [.host] s (readLatched s k) := by
  unfold readLatched
  try dsimp only
  repeat' first
    | with_reducible exact Kept.refl _ _
    | with_reducible refine Kept.ite (fun _ => ?_) (fun _ => ?_)
    | with_reducible refine Kept.foldl' ?_ (fun a x => ?_)
    | with_reducible apply Kept.chain (readOut_kept _ _) (by decide)
    | with_reducible simp (disch := first | decide | (with_unfolding_all constructor <;> first | exact Or.inl (by decide) | exact Or.inr rfl | (constructor <;> first | exact Or.inl (by decide) | exact Or.inr (And.intro rfl rfl)))) only [Kept.upd_host, Kept.upd_now, Kept.upd_freeNo]
    | split
    | intro _

theorem readSerial0_kept (s : State) : Kept [.host] s (readSerial0 s) := by
  unfold readSerial0
  try dsimp only
  repeat' first
    | with_reducible exact Kept.refl _ _
    | with_reducible refine Kept.ite (fun _ => ?_) (fun _ => ?_)
    | with_reducible refine Kept.foldl' ?_ (fun a x => ?_)
    | with_reducible apply Kept.chain (readOut_kept _ _) (by decide)
    | with_reducible simp (disch := first | decide | (with_unfolding_all constructor <;> first | exact Or.inl (by decide) | exact Or.inr rfl | (constructor <;> first | exact Or.inl (by decide) | exact Or.inr (And.intro rfl rfl)))) only [Kept.upd_host, Kept.upd_now, Kept.upd_freeNo]
    | split
    | intro _

theorem readTime0_kept (s : State) : Kept [.host] s (readTime0 s) := by
  unfold readTime0
  try dsimp only
  repeat' first
    | with_reducible exact Kept.refl _ _
    | with_reducible refine Kept.ite (fun _ => ?_) (fun _ => ?_)
    | with_reducible refine Kept.foldl' ?_ (fun a x => ?_)
    | with_reducible apply Kept.chain (readOut_kept _ _) (by decide)
    | with_reducible simp (disch := first | decide | (with_unfolding_all constructor <;> first | exact Or.inl (by decide) | exact Or.inr rfl | (constructor <;> first | exact Or.inl (by decide) | exact Or.inr (And.intro rfl rfl)))) only [Kept.upd_host, Kept.upd_now, Kept.upd_freeNo]
    | split
    | intro _

theorem drwRead_kept (s : State) (off : Nat) : Kept [.host, .aux] s (drwRead s off) := by
  unfold drwRead
  try dsimp only
  repeat' first
    | with_reducible exact Kept.refl _ _
    | with_reducible refine Kept.ite (fun _ => ?_) (fun _ => ?_)
    | with_reducible refine Kept.foldl' ?_ (fun a x => ?_)
    | with_reducible apply Kept.chain (readAux_kept _) (by decide)
    | with_reducible apply Kept.chain (readLatched_kept _ _) (by decide)
    | with_reducible apply Kept.chain (readOut_kept _ _) (by decide)
    | with_reducible apply Kept.chain (readSerial0_kept _) (by decide)
    | with_reducible apply Kept.chain (readTime0_kept _) (by decide)
    | with_reducible simp (disch := first | decide | (with_unfolding_all constructor <;> first | exact Or.inl (by decide) | exact Or.inr rfl | (constructor <;> first | exact Or.inl (by decide) | exact Or.inr (And.intro rfl rfl)))) only [Kept.upd_aux, Kept.upd_host, Kept.upd_now, Kept.upd_freeNo]
    | split
    | intro _

theorem eachOwned_kept {l : List Part} (s : State) (n cls : Nat) (f : State → Nat → State) (h : ∀ a u, Kept l a (f a u)) :
    Kept l s (eachOwned s n cls f) :=
  Kept.foldl _ (fun a u => Kept.ite (fun _ => h a u) (fun _ => Kept.refl _ _)) _ _

theorem eachOwned_then {l : List Part} {s t : State} {n cls : Nat} {f : State → Nat → State} (h : Kept l s t) (g : ∀ a u, Kept l a (f a u)) :
    Kept l s (eachOwned t n cls f) := h.trans (eachOwned_kept t n cls f g)

theorem recStop_kept (s : State) (end_ : Nat) : Kept [.host, .cmds, .fe, .cal, .spec, .acq, .disp, .mon, .tiu, .grove, .mem, .move, .ctl, .flt, .sec, .pwr] s (recStop s end_) := by
  unfold recStop
  try dsimp only
  repeat' first
    | with_reducible exact Kept.refl _ _
    | with_reducible refine Kept.ite (fun _ => ?_) (fun _ => ?_)
    | with_reducible refine Kept.foldl' ?_ (fun a x => ?_)
    | with_reducible apply Kept.chain (recFinish_kept _ _) (by decide)
    | with_reducible apply Kept.chain (recPull_kept _) (by decide)
    | with_reducible simp (disch := first | decide | (with_unfolding_all constructor <;> first | exact Or.inl (by decide) | exact Or.inr rfl | (constructor <;> first | exact Or.inl (by decide) | exact Or.inr (And.intro rfl rfl)))) only [Kept.upd_fe, Kept.upd_cal, Kept.upd_spec, Kept.upd_acq, Kept.upd_disp, Kept.upd_mon, Kept.upd_tiu, Kept.upd_grove, Kept.upd_mem, Kept.upd_move, Kept.upd_ctl, Kept.upd_flt, Kept.upd_sec, Kept.upd_pwr, Kept.upd_host, Kept.upd_now, Kept.upd_freeNo]
    | split
    | intro _

theorem releaseMove_kept (s : State) (n : Nat) : Kept [.host, .cmds, .fe, .cal, .spec, .acq, .disp, .mon, .tiu, .grove, .mem, .move, .aux, .ctl, .flt, .sec, .pwr] s (releaseMove s n) := by
  unfold releaseMove
  try dsimp only
  repeat' first
    | with_reducible exact Kept.refl _ _
    | with_reducible refine Kept.ite (fun _ => ?_) (fun _ => ?_)
    | with_reducible refine Kept.foldl' ?_ (fun a x => ?_)
    | with_reducible apply Kept.chain (State.modDma_kept _ _ _) (by decide)
    | with_reducible apply Kept.chain (State.setTml_kept _ _ _) (by decide)
    | with_reducible apply Kept.chain (auxStop_kept _) (by decide)
    | with_reducible apply Kept.chain (ctlRelease_kept _ _) (by decide)
    | with_reducible apply Kept.chain (dmaDisable_kept _ _) (by decide)
    | with_reducible refine eachOwned_then ?_ (fun a u => ?_)
    | with_reducible apply Kept.chain (recStop_kept _ _) (by decide)
    | with_reducible apply Kept.chain (streamDisable_kept _ _) (by decide)
    | with_reducible simp (disch := first | decide | (with_unfolding_all constructor <;> first | exact Or.inl (by decide) | exact Or.inr rfl | (constructor <;> first | exact Or.inl (by decide) | exact Or.inr (And.intro rfl rfl)))) only [Kept.upd_fe, Kept.upd_cal, Kept.upd_spec, Kept.upd_acq, Kept.upd_disp, Kept.upd_mon, Kept.upd_tiu, Kept.upd_grove, Kept.upd_mem, Kept.upd_move, Kept.upd_aux, Kept.upd_ctl, Kept.upd_flt, Kept.upd_sec, Kept.upd_pwr, Kept.upd_host, Kept.upd_now, Kept.upd_freeNo]
    | split
    | intro _

theorem releaseGrove_kept (s : State) (g : Nat) : Kept [.host, .cmds, .fe, .cal, .spec, .acq, .disp, .mon, .tiu, .grove, .mem, .move, .ctl, .flt, .sec, .pwr] s (releaseGrove s g) := by
  unfold releaseGrove
  try dsimp only
  repeat' first
    | with_reducible exact Kept.refl _ _
    | with_reducible refine Kept.ite (fun _ => ?_) (fun _ => ?_)
    | with_reducible refine Kept.foldl' ?_ (fun a x => ?_)
    | with_reducible apply Kept.chain (State.modBar_kept _ _ _) (by decide)
    | with_reducible apply Kept.chain (State.modCore_kept _ _ _) (by decide)
    | with_reducible apply Kept.chain (barBreakBy_kept _ _ _ _) (by decide)
    | with_reducible apply Kept.chain (coreStop_kept _ _ _ _) (by decide)
    | with_reducible apply Kept.chain (feedOff_kept _ _) (by decide)
    | with_reducible simp (disch := first | decide | (with_unfolding_all constructor <;> first | exact Or.inl (by decide) | exact Or.inr rfl | (constructor <;> first | exact Or.inl (by decide) | exact Or.inr (And.intro rfl rfl)))) only [Kept.upd_fe, Kept.upd_cal, Kept.upd_spec, Kept.upd_acq, Kept.upd_disp, Kept.upd_mon, Kept.upd_tiu, Kept.upd_grove, Kept.upd_mem, Kept.upd_move, Kept.upd_ctl, Kept.upd_flt, Kept.upd_sec, Kept.upd_pwr, Kept.upd_host, Kept.upd_now, Kept.upd_freeNo]
    | split
    | intro _

theorem releaseSignal_kept (s : State) (n : Nat) : Kept [.cal, .spec, .acq, .mon, .mem, .move] s (releaseSignal s n) := by
  unfold releaseSignal
  try dsimp only
  repeat' first
    | with_reducible exact Kept.refl _ _
    | with_reducible refine Kept.ite (fun _ => ?_) (fun _ => ?_)
    | with_reducible refine Kept.foldl' ?_ (fun a x => ?_)
    | with_reducible apply Kept.chain (State.modCtx_kept _ _ _) (by decide)
    | with_reducible apply Kept.chain (State.setCalBlind_kept _ _ _) (by decide)
    | with_reducible apply Kept.chain (State.setPin_kept _ _ _) (by decide)
    | with_reducible apply Kept.chain (acqAbort_kept _ _ _) (by decide)
    | with_reducible apply Kept.chain (drivePin_kept _ _) (by decide)
    | with_reducible refine eachOwned_then ?_ (fun a u => ?_)
    | with_reducible apply Kept.chain (setAcqSt_kept _ _ _) (by decide)
    | with_reducible simp (disch := first | decide | (with_unfolding_all constructor <;> first | exact Or.inl (by decide) | exact Or.inr rfl | (constructor <;> first | exact Or.inl (by decide) | exact Or.inr (And.intro rfl rfl)))) only [Kept.upd_cal, Kept.upd_spec, Kept.upd_acq, Kept.upd_mon, Kept.upd_mem, Kept.upd_move, Kept.upd_host, Kept.upd_now, Kept.upd_freeNo]
    | split
    | intro _

theorem releaseUsers_kept (s : State) (n : Nat) : Kept [.host, .cmds, .fe, .cal, .spec, .acq, .disp, .mon, .tiu, .grove, .mem, .move, .ctl, .flt, .sec, .pwr] s (releaseUsers s n) := by
  unfold releaseUsers
  try dsimp only
  repeat' first
    | with_reducible exact Kept.refl _ _
    | with_reducible refine Kept.ite (fun _ => ?_) (fun _ => ?_)
    | with_reducible refine Kept.foldl' ?_ (fun a x => ?_)
    | with_reducible apply Kept.chain (State.modSout_kept _ _ _) (by decide)
    | with_reducible apply Kept.chain (State.modTiuIn_kept _ _ _) (by decide)
    | with_reducible apply Kept.chain (feedOff_kept _ _) (by decide)
    | with_reducible apply Kept.chain (traceOff_kept _ _) (by decide)
    | with_reducible simp (disch := first | decide | (with_unfolding_all constructor <;> first | exact Or.inl (by decide) | exact Or.inr rfl | (constructor <;> first | exact Or.inl (by decide) | exact Or.inr (And.intro rfl rfl)))) only [Kept.upd_fe, Kept.upd_cal, Kept.upd_spec, Kept.upd_acq, Kept.upd_disp, Kept.upd_mon, Kept.upd_tiu, Kept.upd_grove, Kept.upd_mem, Kept.upd_move, Kept.upd_ctl, Kept.upd_flt, Kept.upd_sec, Kept.upd_pwr, Kept.upd_host, Kept.upd_now, Kept.upd_freeNo]
    | split
    | intro _

theorem commonsFree_kept (s : State) (r : Nat × Nat × Nat) : Kept [.grove, .mem] s (commonsFree s r) := by
  unfold commonsFree
  try dsimp only
  repeat' first
    | with_reducible exact Kept.refl _ _
    | with_reducible refine Kept.ite (fun _ => ?_) (fun _ => ?_)
    | with_reducible refine Kept.foldl' ?_ (fun a x => ?_)
    | with_reducible simp (disch := first | decide | (with_unfolding_all constructor <;> first | exact Or.inl (by decide) | exact Or.inr rfl | (constructor <;> first | exact Or.inl (by decide) | exact Or.inr (And.intro rfl rfl)))) only [Kept.upd_grove_mem, Kept.upd_grove, Kept.upd_mem, Kept.upd_host, Kept.upd_now, Kept.upd_freeNo]
    | split
    | intro _

theorem freeRegion_kept (s : State) (h : Nat) : Kept [.disp, .mem] s (freeRegion s h) := by
  unfold freeRegion
  try dsimp only
  repeat' first
    | with_reducible exact Kept.refl _ _
    | with_reducible refine Kept.ite (fun _ => ?_) (fun _ => ?_)
    | with_reducible refine Kept.foldl' ?_ (fun a x => ?_)
    | with_reducible apply Kept.chain (State.modPort_kept _ _ _) (by decide)
    | with_reducible apply Kept.chain (State.modReg_kept _ _ _) (by decide)
    | with_reducible apply Kept.chain (regGone_kept _ _) (by decide)
    | with_reducible simp (disch := first | decide | (with_unfolding_all constructor <;> first | exact Or.inl (by decide) | exact Or.inr rfl | (constructor <;> first | exact Or.inl (by decide) | exact Or.inr (And.intro rfl rfl)))) only [Kept.upd_disp, Kept.upd_mem, Kept.upd_host, Kept.upd_now, Kept.upd_freeNo]
    | split
    | intro _

theorem releaseMem_kept (s : State) (n : Nat) : Kept [.host, .cmds, .fe, .cal, .spec, .acq, .disp, .mon, .tiu, .grove, .mem, .move, .ctl, .flt, .sec, .pwr] s (releaseMem s n) := by
  unfold releaseMem
  try dsimp only
  repeat' first
    | with_reducible exact Kept.refl _ _
    | with_reducible refine Kept.ite (fun _ => ?_) (fun _ => ?_)
    | with_reducible refine Kept.foldl' ?_ (fun a x => ?_)
    | with_reducible apply Kept.chain (commonsFree_kept _ _) (by decide)
    | with_reducible apply Kept.chain (freeRegion_kept _ _) (by decide)
    | with_reducible apply Kept.chain (releaseUsers_kept _ _) (by decide)
    | with_reducible simp (disch := first | decide | (with_unfolding_all constructor <;> first | exact Or.inl (by decide) | exact Or.inr rfl | (constructor <;> first | exact Or.inl (by decide) | exact Or.inr (And.intro rfl rfl)))) only [Kept.upd_fe, Kept.upd_cal, Kept.upd_spec, Kept.upd_acq, Kept.upd_disp, Kept.upd_mon, Kept.upd_tiu, Kept.upd_grove, Kept.upd_mem, Kept.upd_move, Kept.upd_ctl, Kept.upd_flt, Kept.upd_sec, Kept.upd_pwr, Kept.upd_host, Kept.upd_now, Kept.upd_freeNo]
    | split
    | intro _

theorem releaseOwners_kept (s : State) (n : Nat) : Kept [.host, .cmds] s (releaseOwners s n) := by
  unfold releaseOwners
  try dsimp only
  repeat' first
    | with_reducible exact Kept.refl _ _
    | with_reducible refine Kept.ite (fun _ => ?_) (fun _ => ?_)
    | with_reducible refine Kept.foldl' ?_ (fun a x => ?_)
    | with_reducible simp (disch := first | decide | (with_unfolding_all constructor <;> first | exact Or.inl (by decide) | exact Or.inr rfl | (constructor <;> first | exact Or.inl (by decide) | exact Or.inr (And.intro rfl rfl)))) only [Kept.upd_host, Kept.upd_now, Kept.upd_freeNo]
    | split
    | intro _

theorem msixFlush_kept (s : State) : Kept [] s (msixFlush s) := by
  unfold msixFlush
  try dsimp only
  repeat' first
    | with_reducible exact Kept.refl _ _
    | with_reducible refine Kept.ite (fun _ => ?_) (fun _ => ?_)
    | with_reducible refine Kept.foldl' ?_ (fun a x => ?_)
    | with_reducible apply Kept.chain (State.modMsixE_kept _ _ _) (by decide)
    | with_reducible apply Kept.chain (signal_kept _ _) (by decide)
    | with_reducible simp (disch := first | decide | (with_unfolding_all constructor <;> first | exact Or.inl (by decide) | exact Or.inr rfl | (constructor <;> first | exact Or.inl (by decide) | exact Or.inr (And.intro rfl rfl)))) only [Kept.upd_host, Kept.upd_now, Kept.upd_freeNo]
    | split
    | intro _

theorem cqWrite_kept (s : State) (n : Nat) (c : Completion) : Kept [] s (cqWrite s n c) := (cqWrite_posts _ _ _).kept _

theorem cplSend_kept (s : State) (T : Tick) : Kept [] s (cplSend s T) := (cplSend_posts _ _).kept _

theorem evtWrite_kept (s : State) (e : EventRecord) : Kept [] s (evtWrite s e) := (evtWrite_posts _ _).kept _

theorem waitFlush_kept (s : State) : Kept [] s (waitFlush s) := by
  unfold waitFlush
  try dsimp only
  repeat' first
    | with_reducible exact Kept.refl _ _
    | with_reducible refine Kept.ite (fun _ => ?_) (fun _ => ?_)
    | with_reducible refine Kept.foldl' ?_ (fun a x => ?_)
    | with_reducible apply Kept.chain (cplSend_kept _ _) (by decide)
    | with_reducible apply Kept.chain (evtWrite_kept _ _) (by decide)
    | with_reducible simp (disch := first | decide | (with_unfolding_all constructor <;> first | exact Or.inl (by decide) | exact Or.inr rfl | (constructor <;> first | exact Or.inl (by decide) | exact Or.inr (And.intro rfl rfl)))) only [Kept.upd_host, Kept.upd_now, Kept.upd_freeNo]
    | split
    | intro _

theorem sesHostReset_kept (s : State) (n : Nat) : Kept [.ses] s (sesHostReset s n) := by
  unfold sesHostReset
  try dsimp only
  repeat' first
    | with_reducible exact Kept.refl _ _
    | with_reducible refine Kept.ite (fun _ => ?_) (fun _ => ?_)
    | with_reducible refine Kept.foldl' ?_ (fun a x => ?_)
    | with_reducible apply Kept.chain (State.modCplR_kept _ _ _) (by decide)
    | with_reducible apply Kept.chain (State.modSes_kept _ _ _) (by decide)
    | with_reducible apply Kept.chain (sesPost_kept _ _ _ _) (by decide)
    | with_reducible apply Kept.chain (startRelease_kept _ _ _) (by decide)
    | with_reducible simp (disch := first | decide | (with_unfolding_all constructor <;> first | exact Or.inl (by decide) | exact Or.inr rfl | (constructor <;> first | exact Or.inl (by decide) | exact Or.inr (And.intro rfl rfl)))) only [Kept.upd_host, Kept.upd_now, Kept.upd_freeNo]
    | split
    | intro _

theorem hostReset_kept (s : State) : Kept [.host, .ses, .cmds] s (hostReset s) := by
  unfold hostReset
  try dsimp only
  repeat' first
    | with_reducible exact Kept.refl _ _
    | with_reducible refine Kept.ite (fun _ => ?_) (fun _ => ?_)
    | with_reducible refine Kept.foldl' ?_ (fun a x => ?_)
    | with_reducible apply Kept.chain (evtDiscard_kept _) (by decide)
    | with_reducible apply Kept.chain (sesHostReset_kept _ _) (by decide)
    | with_reducible simp (disch := first | decide | (with_unfolding_all constructor <;> first | exact Or.inl (by decide) | exact Or.inr rfl | (constructor <;> first | exact Or.inl (by decide) | exact Or.inr (And.intro rfl rfl)))) only [Kept.upd_host, Kept.upd_now, Kept.upd_freeNo]
    | split
    | intro _

theorem measure_kept (s : State) (ms : List (Nat × Nat)) : Kept [.spec] s (measure s ms) := by
  unfold measure
  try dsimp only
  repeat' first
    | with_reducible exact Kept.refl _ _
    | with_reducible refine Kept.ite (fun _ => ?_) (fun _ => ?_)
    | with_reducible refine Kept.foldl' ?_ (fun a x => ?_)
    | with_reducible apply Kept.chain (govTrack_kept _) (by decide)
    | with_reducible simp (disch := first | decide | (with_unfolding_all constructor <;> first | exact Or.inl (by decide) | exact Or.inr rfl | (constructor <;> first | exact Or.inl (by decide) | exact Or.inr (And.intro rfl rfl)))) only [Kept.upd_spec, Kept.upd_host, Kept.upd_now, Kept.upd_freeNo]
    | split
    | intro _

theorem zeroSome_kept (s : State) (a : Nat) (b : Nat) (n : Nat) : Kept [.mem] s ((zeroSome s a b n).1) := by
  unfold zeroSome
  try dsimp only
  repeat' first
    | with_reducible exact Kept.refl _ _
    | with_reducible refine Kept.ite (fun _ => ?_) (fun _ => ?_)
    | with_reducible refine Kept.foldp' ?_ (fun a x => ?_)
    | with_reducible refine Kept.foldq' ?_ (fun a x => ?_)
    | with_reducible refine Kept.foldl' ?_ (fun a x => ?_)
    | with_reducible apply Kept.chain (clearRange_kept _ _ _) (by decide)
    | with_reducible simp (disch := first | decide | (with_unfolding_all constructor <;> first | exact Or.inl (by decide) | exact Or.inr rfl | (constructor <;> first | exact Or.inl (by decide) | exact Or.inr (And.intro rfl rfl)))) only [Kept.upd_mem, Kept.upd_host, Kept.upd_now, Kept.upd_freeNo]
    | split
    | intro _

theorem allocDone_kept (s : State) (p : InProg) : Kept [.cmds, .mem] s (allocDone s p) := by
  unfold allocDone
  try dsimp only
  repeat' first
    | with_reducible exact Kept.refl _ _
    | with_reducible refine Kept.ite (fun _ => ?_) (fun _ => ?_)
    | with_reducible refine Kept.foldl' ?_ (fun a x => ?_)
    | with_reducible apply Kept.chain (finish_kept _ _ _ _ _) (by decide)
    | with_reducible simp (disch := first | decide | (with_unfolding_all constructor <;> first | exact Or.inl (by decide) | exact Or.inr rfl | (constructor <;> first | exact Or.inl (by decide) | exact Or.inr (And.intro rfl rfl)))) only [Kept.upd_mem, Kept.upd_host, Kept.upd_now, Kept.upd_freeNo]
    | split
    | intro _

theorem monEvent_kept (a : State × Nat) (c : Nat) (code : Nat) (r : SpecRes) (payload : Nat) : Kept [.host, .cmds, .fe, .cal, .spec, .acq, .disp, .mon, .tiu, .grove, .mem, .move, .ctl, .flt, .sec, .pwr] a.1 ((monEvent a c code r payload).1) := by
  unfold monEvent
  try dsimp only
  repeat' first
    | with_reducible exact Kept.refl _ _
    | with_reducible refine Kept.ite (fun _ => ?_) (fun _ => ?_)
    | with_reducible refine Kept.foldp' ?_ (fun a x => ?_)
    | with_reducible refine Kept.foldq' ?_ (fun a x => ?_)
    | with_reducible refine Kept.foldl' ?_ (fun a x => ?_)
    | with_reducible apply Kept.chain (monitorTerms_kept _ _ _ _ _ _) (by decide)
    | with_reducible apply Kept.chain (post_kept _ _ _) (by decide)
    | with_reducible simp (disch := first | decide | (with_unfolding_all constructor <;> first | exact Or.inl (by decide) | exact Or.inr rfl | (constructor <;> first | exact Or.inl (by decide) | exact Or.inr (And.intro rfl rfl)))) only [Kept.upd_fe, Kept.upd_cal, Kept.upd_spec, Kept.upd_acq, Kept.upd_disp, Kept.upd_mon, Kept.upd_tiu, Kept.upd_grove, Kept.upd_mem, Kept.upd_move, Kept.upd_ctl, Kept.upd_flt, Kept.upd_sec, Kept.upd_pwr, Kept.upd_host, Kept.upd_now, Kept.upd_freeNo]
    | split
    | intro _

theorem monLog_kept (s : State) (c : Nat) (x : Ctx) (T : Stamp) : Kept [.mon, .mem] s (monLog s c x T) := by
  unfold monLog
  try dsimp only
  repeat' first
    | with_reducible exact Kept.refl _ _
    | with_reducible refine Kept.ite (fun _ => ?_) (fun _ => ?_)
    | with_reducible refine Kept.foldp' ?_ (fun a x => ?_)
    | with_reducible refine Kept.foldq' ?_ (fun a x => ?_)
    | with_reducible refine Kept.foldl' ?_ (fun a x => ?_)
    | with_reducible apply Kept.chain (ringWrite_kept _ _ _) (by decide)
    | with_reducible apply Kept.chain (Kept.pair (ringWrite_kept _ _ _) (by assumption)) (by decide)
    | with_reducible simp (disch := first | decide | (with_unfolding_all constructor <;> first | exact Or.inl (by decide) | exact Or.inr rfl | (constructor <;> first | exact Or.inl (by decide) | exact Or.inr (And.intro rfl rfl)))) only [Kept.upd_mon, Kept.upd_mem, Kept.upd_host, Kept.upd_now, Kept.upd_freeNo]
    | split
    | intro _

theorem monCloseEvents_kept (a : State × Nat) (c : Nat) (r : SpecRes) : Kept [.host, .cmds, .fe, .cal, .spec, .acq, .disp, .mon, .tiu, .grove, .mem, .move, .ctl, .flt, .sec, .pwr] a.1 ((monCloseEvents a c r).1) := by
  unfold monCloseEvents
  try dsimp only
  repeat' first
    | with_reducible exact Kept.refl _ _
    | with_reducible refine Kept.ite (fun _ => ?_) (fun _ => ?_)
    | with_reducible refine Kept.foldp' ?_ (fun a x => ?_)
    | with_reducible refine Kept.foldq' ?_ (fun a x => ?_)
    | with_reducible refine Kept.foldl' ?_ (fun a x => ?_)
    | with_reducible apply Kept.chain (monEvent_kept _ _ _ _ _) (by decide)
    | with_reducible apply Kept.chain (Kept.pair (monEvent_kept _ _ _ _ _) (by assumption)) (by decide)
    | with_reducible simp (disch := first | decide | (with_unfolding_all constructor <;> first | exact Or.inl (by decide) | exact Or.inr rfl | (constructor <;> first | exact Or.inl (by decide) | exact Or.inr (And.intro rfl rfl)))) only [Kept.upd_fe, Kept.upd_cal, Kept.upd_spec, Kept.upd_acq, Kept.upd_disp, Kept.upd_mon, Kept.upd_tiu, Kept.upd_grove, Kept.upd_mem, Kept.upd_move, Kept.upd_ctl, Kept.upd_flt, Kept.upd_sec, Kept.upd_pwr, Kept.upd_host, Kept.upd_now, Kept.upd_freeNo]
    | split
    | intro _

theorem monTake_kept (a : State × Nat) (c : Nat) (r : SpecRes) : Kept [.host, .cmds, .fe, .cal, .spec, .acq, .disp, .mon, .tiu, .grove, .mem, .move, .ctl, .flt, .sec, .pwr] a.1 ((monTake a c r).1) := by
  unfold monTake
  extract_lets s x0 T x1 reset ends closed x2 a1 x3 x v x4 code busy begins ends' us x5
  have h0 : Kept [.host, .cmds, .fe, .cal, .spec, .acq, .disp, .mon, .tiu, .grove, .mem, .move, .ctl, .flt, .sec, .pwr] a.1 (s.setCtx c x2) := (State.setCtx_kept _ _ _).mono (by decide)
  have h1 : Kept [.host, .cmds, .fe, .cal, .spec, .acq, .disp, .mon, .tiu, .grove, .mem, .move, .ctl, .flt, .sec, .pwr] a.1 a1.1 :=
    Kept.ite1 (fun _ => Kept.chain (monCloseEvents_kept _ _ _) (by decide) h0) (fun _ => h0)
  have h2 : Kept [.host, .cmds, .fe, .cal, .spec, .acq, .disp, .mon, .tiu, .grove, .mem, .move, .ctl, .flt, .sec, .pwr] a.1 (a1.1.setCtx c x5) := Kept.chain (State.setCtx_kept _ _ _) (by decide) h1
  refine Kept.ite1 (fun _ => Kept.chain (monEvent_kept _ _ _ _ _) (by decide) h2) (fun _ => Kept.ite1 (fun _ => ?_) (fun _ => h2))
  refine Kept.chain (monEvent_kept _ _ _ _ _) (by decide) (Kept.chain (State.setCtx_kept _ _ _) (by decide) ?_)
  exact Kept.ite (fun _ => Kept.chain (monLog_kept _ _ _ _) (by decide) h1) (fun _ => h1)

theorem monTurn_kept (a : State × Nat) (c : Nat) : Kept [.host, .cmds, .fe, .cal, .spec, .acq, .disp, .mon, .tiu, .grove, .mem, .move, .ctl, .flt, .sec, .pwr] a.1 ((monTurn a c).1) := by
  unfold monTurn
  try dsimp only
  repeat' first
    | with_reducible exact Kept.refl _ _
    | with_reducible refine Kept.ite (fun _ => ?_) (fun _ => ?_)
    | with_reducible refine Kept.foldp' ?_ (fun a x => ?_)
    | with_reducible refine Kept.foldq' ?_ (fun a x => ?_)
    | with_reducible refine Kept.foldl' ?_ (fun a x => ?_)
    | with_reducible apply Kept.chain (monTake_kept _ _ _) (by decide)
    | with_reducible apply Kept.chain (State.setCtx_kept _ _ _) (by decide)
    | with_reducible apply Kept.chain (Kept.pair (monTake_kept _ _ _) (by assumption)) (by decide)
    | with_reducible simp (disch := first | decide | (with_unfolding_all constructor <;> first | exact Or.inl (by decide) | exact Or.inr rfl | (constructor <;> first | exact Or.inl (by decide) | exact Or.inr (And.intro rfl rfl)))) only [Kept.upd_fe, Kept.upd_cal, Kept.upd_spec, Kept.upd_acq, Kept.upd_disp, Kept.upd_mon, Kept.upd_tiu, Kept.upd_grove, Kept.upd_mem, Kept.upd_move, Kept.upd_ctl, Kept.upd_flt, Kept.upd_sec, Kept.upd_pwr, Kept.upd_host, Kept.upd_now, Kept.upd_freeNo]
    | split
    | intro _

end Sys2Proof.Machine
end

