-- ==== Sys2Proof/Laws/Frames7.lean ====
section
/-! SUPPORT. Frames of the shared operations (part 8 of 8): the parts of the engine that each can change, and, where the host interface is
not among them, that it changes only the event ring and its signals. -/

set_option linter.unusedTactic false
set_option linter.unreachableTactic false
set_option linter.unusedVariables false
set_option linter.unusedSimpArgs false

namespace Sys2Proof.Machine

theorem gapPostAll_kept (s : State) (id : Nat) : Kept [.host, .fe, .cal, .spec, .acq, .disp, .mon, .tiu, .grove, .mem, .move, .ctl, .flt, .sec, .pwr] s (gapPostAll s id) := by
  unfold gapPostAll
  try dsimp only
  repeat' first
    | with_reducible exact Kept.refl _ _
    | with_reducible refine Kept.ite (fun _ => ?_) (fun _ => ?_)
    | with_reducible refine Kept.foldl' ?_ (fun a x => ?_)
    | with_reducible apply Kept.chain (gapPost_kept _ _ _) (by decide)
    | with_reducible simp (disch := first | decide | (with_unfolding_all constructor <;> first | exact Or.inl (by decide) | exact Or.inr rfl | (constructor <;> first | exact Or.inl (by decide) | exact Or.inr (And.intro rfl rfl)))) only [Kept.upd_fe, Kept.upd_cal, Kept.upd_spec, Kept.upd_acq, Kept.upd_disp, Kept.upd_mon, Kept.upd_tiu, Kept.upd_grove, Kept.upd_mem, Kept.upd_move, Kept.upd_ctl, Kept.upd_flt, Kept.upd_sec, Kept.upd_pwr, Kept.upd_host, Kept.upd_now, Kept.upd_freeNo]
    | split
    | intro _

theorem flushCheck_kept (s : State) : Kept [.move] s (flushCheck s) := by
  unfold flushCheck
  try dsimp only
  repeat' first
    | with_reducible exact Kept.refl _ _
    | with_reducible refine Kept.ite (fun _ => ?_) (fun _ => ?_)
    | with_reducible refine Kept.foldl' ?_ (fun a x => ?_)
    | with_reducible simp (disch := first | decide | (with_unfolding_all constructor <;> first | exact Or.inl (by decide) | exact Or.inr rfl | (constructor <;> first | exact Or.inl (by decide) | exact Or.inr (And.intro rfl rfl)))) only [Kept.upd_move, Kept.upd_host, Kept.upd_now, Kept.upd_freeNo]
    | split
    | intro _

theorem streamEpoch_kept (s : State) (id : Nat) : Kept [.mem, .move] s (streamEpoch s id) := by
  unfold streamEpoch
  try dsimp only
  repeat' first
    | with_reducible exact Kept.refl _ _
    | with_reducible refine Kept.ite (fun _ => ?_) (fun _ => ?_)
    | with_reducible refine Kept.foldl' ?_ (fun a x => ?_)
    | with_reducible apply Kept.chain (State.modDma_kept _ _ _) (by decide)
    | with_reducible apply Kept.chain (streamClose_kept _ _ _) (by decide)
    | with_reducible simp (disch := first | decide | (with_unfolding_all constructor <;> first | exact Or.inl (by decide) | exact Or.inr rfl | (constructor <;> first | exact Or.inl (by decide) | exact Or.inr (And.intro rfl rfl)))) only [Kept.upd_mem, Kept.upd_move, Kept.upd_host, Kept.upd_now, Kept.upd_freeNo]
    | split
    | intro _

theorem evtSend_kept (s : State) (e : EventRecord) : Kept [] s (evtSend s e) := (evtSend_posts _ _).kept _

theorem flushEvents_kept (s : State) (T : Tick) : Kept [] s (flushEvents s T) := (flushEvents_posts _ _).kept _

theorem flushAll_kept (s : State) : Kept [] s (flushAll s) := (flushAll_posts _).kept _

theorem pass_kept (s : State) (t : Tick) : Kept [] s (pass s t) := (pass_posts _ _).kept _

theorem advance_kept (s : State) (t : Tick) : Kept [] s (advance s t) := by
  unfold advance
  try dsimp only
  repeat' first
    | with_reducible exact Kept.refl _ _
    | with_reducible refine Kept.ite (fun _ => ?_) (fun _ => ?_)
    | with_reducible refine Kept.foldl' ?_ (fun a x => ?_)
    | with_reducible apply Kept.chain (flushEvents_kept _ _) (by decide)
    | with_reducible apply Kept.chain (pass_kept _ _) (by decide)
    | with_reducible simp (disch := first | decide | (with_unfolding_all constructor <;> first | exact Or.inl (by decide) | exact Or.inr rfl | (constructor <;> first | exact Or.inl (by decide) | exact Or.inr (And.intro rfl rfl)))) only [Kept.upd_host, Kept.upd_now, Kept.upd_freeNo]
    | split
    | intro _

theorem flushUnknown_kept (x0 : Nat) (x1 : State) (x2 : Nat) : Kept [.ses, .cmds] x1 (flushUnknown x0 x1 x2) := by
  induction x0 generalizing x1 x2 with
  | zero => exact Kept.refl _ _
  | succ n ih =>
  unfold flushUnknown
  try dsimp only
  repeat' first
    | with_reducible exact Kept.refl _ _
    | with_reducible refine Kept.ite (fun _ => ?_) (fun _ => ?_)
    | with_reducible refine Kept.foldl' ?_ (fun a x => ?_)
    | with_reducible apply Kept.chain (ih _ _) (by decide)
    | with_reducible apply Kept.chain (State.modSes_kept _ _ _) (by decide)
    | with_reducible apply Kept.chain (complete_kept _ _ _) (by decide)
    | with_reducible simp (disch := first | decide | (with_unfolding_all constructor <;> first | exact Or.inl (by decide) | exact Or.inr rfl | (constructor <;> first | exact Or.inl (by decide) | exact Or.inr (And.intro rfl rfl)))) only [Kept.upd_host, Kept.upd_now, Kept.upd_freeNo]
    | split
    | intro _

theorem flushFront_kept (s : State) (n : Nat) : Kept [.ses, .cmds] s (flushFront s n) := flushUnknown_kept _ _ _

theorem deviceReset_kept (s : State) : Kept [.host, .ses, .cmds, .fe, .clk, .cal, .spec, .acq, .disp, .mon, .tiu, .grove, .mem, .move, .aux, .ctl, .flt, .sec, .pwr, .perf] s (deviceReset s) := by
  simp [Kept, SameParts, deviceReset]

theorem powerDown_kept (s : State) (trip : Bool) : Kept [.host, .ses, .cmds, .fe, .clk, .cal, .spec, .acq, .disp, .mon, .tiu, .grove, .mem, .move, .aux, .ctl, .flt, .sec, .pwr, .perf] s (powerDown s trip) := by
  unfold powerDown
  try dsimp only
  repeat' first
    | with_reducible exact Kept.refl _ _
    | with_reducible refine Kept.ite (fun _ => ?_) (fun _ => ?_)
    | with_reducible refine Kept.foldl' ?_ (fun a x => ?_)
    | with_reducible apply Kept.chain (deviceReset_kept _) (by decide)
    | with_reducible simp (disch := first | decide | (with_unfolding_all constructor <;> first | exact Or.inl (by decide) | exact Or.inr rfl | (constructor <;> first | exact Or.inl (by decide) | exact Or.inr (And.intro rfl rfl)))) only [Kept.upd_fe, Kept.upd_clk, Kept.upd_cal, Kept.upd_spec, Kept.upd_acq, Kept.upd_disp, Kept.upd_mon, Kept.upd_tiu, Kept.upd_grove, Kept.upd_mem, Kept.upd_move, Kept.upd_aux, Kept.upd_ctl, Kept.upd_flt, Kept.upd_sec, Kept.upd_pwr, Kept.upd_perf, Kept.upd_host, Kept.upd_now, Kept.upd_freeNo]
    | split
    | intro _

theorem resetOther_kept (s : State) (engine : Nat) (fallback : Bool) (activating : Bool) : Kept [.host, .ses, .cmds, .fe, .clk, .cal, .spec, .acq, .disp, .mon, .tiu, .grove, .mem, .move, .aux, .ctl, .flt, .sec, .pwr, .perf] s (resetOther s engine fallback activating) := by
  unfold resetOther
  try dsimp only
  repeat' first
    | with_reducible exact Kept.refl _ _
    | with_reducible refine Kept.ite (fun _ => ?_) (fun _ => ?_)
    | with_reducible refine Kept.foldl' ?_ (fun a x => ?_)
    | with_reducible apply Kept.chain (deviceReset_kept _) (by decide)
    | with_reducible simp (disch := first | decide | (with_unfolding_all constructor <;> first | exact Or.inl (by decide) | exact Or.inr rfl | (constructor <;> first | exact Or.inl (by decide) | exact Or.inr (And.intro rfl rfl)))) only [Kept.upd_fe, Kept.upd_clk, Kept.upd_cal, Kept.upd_spec, Kept.upd_acq, Kept.upd_disp, Kept.upd_mon, Kept.upd_tiu, Kept.upd_grove, Kept.upd_mem, Kept.upd_move, Kept.upd_aux, Kept.upd_ctl, Kept.upd_flt, Kept.upd_sec, Kept.upd_pwr, Kept.upd_perf, Kept.upd_host, Kept.upd_now, Kept.upd_freeNo]
    | split
    | intro _

theorem storeUnused_kept (s : State) (k : Nat) : Kept [.cal, .mem, .sec] s (storeUnused s k) := by
  unfold storeUnused
  try dsimp only
  repeat' first
    | with_reducible exact Kept.refl _ _
    | with_reducible refine Kept.ite (fun _ => ?_) (fun _ => ?_)
    | with_reducible refine Kept.foldl' ?_ (fun a x => ?_)
    | with_reducible simp (disch := first | decide | (with_unfolding_all constructor <;> first | exact Or.inl (by decide) | exact Or.inr rfl | (constructor <;> first | exact Or.inl (by decide) | exact Or.inr (And.intro rfl rfl)))) only [Kept.upd_cal_mem, Kept.upd_cal, Kept.upd_mem, Kept.upd_sec, Kept.upd_host, Kept.upd_now, Kept.upd_freeNo]
    | split
    | intro _

theorem startupFail_kept (s : State) (id : Nat) : Kept [.host, .cmds, .fe, .clk, .cal, .spec, .acq, .disp, .mon, .tiu, .grove, .mem, .move, .ctl, .flt, .sec, .pwr] s (startupFail s id) := by
  unfold startupFail
  try dsimp only
  repeat' first
    | with_reducible exact Kept.refl _ _
    | with_reducible refine Kept.ite (fun _ => ?_) (fun _ => ?_)
    | with_reducible refine Kept.foldl' ?_ (fun a x => ?_)
    | with_reducible apply Kept.chain (State.modPll_kept _ _ _) (by decide)
    | with_reducible apply Kept.chain (raiseFault_kept _ _ _) (by decide)
    | with_reducible apply Kept.chain (storeUnused_kept _ _) (by decide)
    | with_reducible simp (disch := first | decide | (with_unfolding_all constructor <;> first | exact Or.inl (by decide) | exact Or.inr rfl | (constructor <;> first | exact Or.inl (by decide) | exact Or.inr (And.intro rfl rfl)))) only [Kept.upd_fe, Kept.upd_clk, Kept.upd_cal, Kept.upd_spec, Kept.upd_acq, Kept.upd_disp, Kept.upd_mon, Kept.upd_tiu, Kept.upd_grove, Kept.upd_mem, Kept.upd_move, Kept.upd_ctl, Kept.upd_flt, Kept.upd_sec, Kept.upd_pwr, Kept.upd_host, Kept.upd_now, Kept.upd_freeNo]
    | split
    | intro _

theorem startVersions_kept (s : State) (activated : Bool) : Kept [.sec] s (startVersions s activated) := by
  unfold startVersions
  try dsimp only
  repeat' first
    | with_reducible exact Kept.refl _ _
    | with_reducible refine Kept.ite (fun _ => ?_) (fun _ => ?_)
    | with_reducible refine Kept.foldl' ?_ (fun a x => ?_)
    | with_reducible simp (disch := first | decide | (with_unfolding_all constructor <;> first | exact Or.inl (by decide) | exact Or.inr rfl | (constructor <;> first | exact Or.inl (by decide) | exact Or.inr (And.intro rfl rfl)))) only [Kept.upd_sec, Kept.upd_host, Kept.upd_now, Kept.upd_freeNo]
    | split
    | intro _

theorem ready_kept (s : State) : Kept [.host, .aux, .sec, .pwr] s (ready s) := by
  unfold ready
  try dsimp only
  repeat' first
    | with_reducible exact Kept.refl _ _
    | with_reducible refine Kept.ite (fun _ => ?_) (fun _ => ?_)
    | with_reducible refine Kept.foldl' ?_ (fun a x => ?_)
    | with_reducible simp (disch := first | decide | (with_unfolding_all constructor <;> first | exact Or.inl (by decide) | exact Or.inr rfl | (constructor <;> first | exact Or.inl (by decide) | exact Or.inr (And.intro rfl rfl)))) only [Kept.upd_host_aux_sec_pwr, Kept.upd_aux, Kept.upd_sec, Kept.upd_pwr, Kept.upd_host, Kept.upd_now, Kept.upd_freeNo]
    | split
    | intro _

theorem startLock_kept (s : State) (k : Nat) (found : Nat) (edge : Nat) : Kept [.clk] s (startLock s k found edge) := by
  unfold startLock
  try dsimp only
  repeat' first
    | with_reducible exact Kept.refl _ _
    | with_reducible refine Kept.ite (fun _ => ?_) (fun _ => ?_)
    | with_reducible refine Kept.foldl' ?_ (fun a x => ?_)
    | with_reducible apply Kept.chain (State.modPll_kept _ _ _) (by decide)
    | with_reducible apply Kept.chain (hopWrite_kept _ _ _ _) (by decide)
    | with_reducible simp (disch := first | decide | (with_unfolding_all constructor <;> first | exact Or.inl (by decide) | exact Or.inr rfl | (constructor <;> first | exact Or.inl (by decide) | exact Or.inr (And.intro rfl rfl)))) only [Kept.upd_clk, Kept.upd_host, Kept.upd_now, Kept.upd_freeNo]
    | split
    | intro _

theorem attestEnd_kept (s : State) (q : InProg) : Kept [.host, .cmds, .fe, .cal, .spec, .acq, .disp, .mon, .tiu, .grove, .mem, .move, .ctl, .flt, .sec, .pwr] s (attestEnd s q) := by
  unfold attestEnd
  try dsimp only
  repeat' first
    | with_reducible exact Kept.refl _ _
    | with_reducible refine Kept.ite (fun _ => ?_) (fun _ => ?_)
    | with_reducible refine Kept.foldp' ?_ (fun a x => ?_)
    | with_reducible refine Kept.foldq' ?_ (fun a x => ?_)
    | with_reducible refine Kept.foldl' ?_ (fun a x => ?_)
    | with_reducible apply Kept.chain (regRead_kept _ _ _ _ _) (by decide)
    | with_reducible apply Kept.chain (finish_kept _ _ _ _ _) (by decide)
    | with_reducible apply Kept.chain (regWrite_kept _ _ _ _) (by decide)
    | with_reducible simp (disch := first | decide | (with_unfolding_all constructor <;> first | exact Or.inl (by decide) | exact Or.inr rfl | (constructor <;> first | exact Or.inl (by decide) | exact Or.inr (And.intro rfl rfl)))) only [Kept.upd_fe, Kept.upd_cal, Kept.upd_spec, Kept.upd_acq, Kept.upd_disp, Kept.upd_mon, Kept.upd_tiu, Kept.upd_grove, Kept.upd_mem, Kept.upd_move, Kept.upd_ctl, Kept.upd_flt, Kept.upd_sec, Kept.upd_pwr, Kept.upd_host, Kept.upd_now, Kept.upd_freeNo]
    | split
    | intro _

theorem feedRead_kept (s : State) (i : Nat) (n : Nat) (a : Nat) (len : Nat) (dst : Nat) : Kept [.grove] s ((feedRead s i n a len dst).2) := by
  unfold feedRead
  try dsimp only
  repeat' first
    | with_reducible exact Kept.refl _ _
    | with_reducible refine Kept.ite (fun _ => ?_) (fun _ => ?_)
    | with_reducible refine Kept.foldp' ?_ (fun a x => ?_)
    | with_reducible refine Kept.foldq' ?_ (fun a x => ?_)
    | with_reducible refine Kept.foldl' ?_ (fun a x => ?_)
    | with_reducible apply Kept.chain (portTwo_kept _ _) (by decide)
    | with_reducible simp (disch := first | decide | (with_unfolding_all constructor <;> first | exact Or.inl (by decide) | exact Or.inr rfl | (constructor <;> first | exact Or.inl (by decide) | exact Or.inr (And.intro rfl rfl)))) only [Kept.upd_grove, Kept.upd_host, Kept.upd_now, Kept.upd_freeNo]
    | split
    | intro _

theorem transferEnd_kept (s : State) (q : InProg) : Kept [.host, .cmds, .fe, .cal, .spec, .acq, .disp, .mon, .tiu, .grove, .mem, .move, .ctl, .flt, .sec, .pwr] s (transferEnd s q) := by
  unfold transferEnd
  try dsimp only
  repeat' first
    | with_reducible exact Kept.refl _ _
    | with_reducible refine Kept.ite (fun _ => ?_) (fun _ => ?_)
    | with_reducible refine Kept.foldp' ?_ (fun a x => ?_)
    | with_reducible refine Kept.foldq' ?_ (fun a x => ?_)
    | with_reducible refine Kept.foldl' ?_ (fun a x => ?_)
    | with_reducible apply Kept.chain (feedRead_kept _ _ _ _ _ _) (by decide)
    | with_reducible apply Kept.chain (attestEnd_kept _ _) (by decide)
    | with_reducible apply Kept.chain (feedWrite_kept _ _ _ _ _) (by decide)
    | with_reducible apply Kept.chain (finish_kept _ _ _ _ _) (by decide)
    | with_reducible apply Kept.chain (fwStaged_kept _ _) (by decide)
    | with_reducible apply Kept.chain (regWrite_kept _ _ _ _) (by decide)
    | with_reducible simp (disch := first | decide | (with_unfolding_all constructor <;> first | exact Or.inl (by decide) | exact Or.inr rfl | (constructor <;> first | exact Or.inl (by decide) | exact Or.inr (And.intro rfl rfl)))) only [Kept.upd_fe, Kept.upd_cal, Kept.upd_spec, Kept.upd_acq, Kept.upd_disp, Kept.upd_mon, Kept.upd_tiu, Kept.upd_grove, Kept.upd_mem, Kept.upd_move, Kept.upd_ctl, Kept.upd_flt, Kept.upd_sec, Kept.upd_pwr, Kept.upd_host, Kept.upd_now, Kept.upd_freeNo]
    | split
    | intro _

theorem renewChallenge_kept (s : State) : Kept [.sec] s (renewChallenge s) := by
  unfold renewChallenge
  try dsimp only
  repeat' first
    | with_reducible exact Kept.refl _ _
    | with_reducible refine Kept.ite (fun _ => ?_) (fun _ => ?_)
    | with_reducible refine Kept.foldl' ?_ (fun a x => ?_)
    | with_reducible simp (disch := first | decide | (with_unfolding_all constructor <;> first | exact Or.inl (by decide) | exact Or.inr rfl | (constructor <;> first | exact Or.inl (by decide) | exact Or.inr (And.intro rfl rfl)))) only [Kept.upd_sec, Kept.upd_host, Kept.upd_now, Kept.upd_freeNo]
    | split
    | intro _

theorem lifeMove_kept (s : State) (new : Nat) : Kept [.host, .sec] s (lifeMove s new) := by
  unfold lifeMove
  try dsimp only
  repeat' first
    | with_reducible exact Kept.refl _ _
    | with_reducible refine Kept.ite (fun _ => ?_) (fun _ => ?_)
    | with_reducible refine Kept.foldl' ?_ (fun a x => ?_)
    | with_reducible apply Kept.chain (post_kept _ _ _) (by decide)
    | with_reducible simp (disch := first | decide | (with_unfolding_all constructor <;> first | exact Or.inl (by decide) | exact Or.inr rfl | (constructor <;> first | exact Or.inl (by decide) | exact Or.inr (And.intro rfl rfl)))) only [Kept.upd_host_sec, Kept.upd_sec, Kept.upd_host, Kept.upd_now, Kept.upd_freeNo]
    | split
    | intro _

theorem eraseField_kept (s : State) : Kept [.cal, .sec] s (eraseField s) := by
  unfold eraseField
  try dsimp only
  repeat' first
    | with_reducible exact Kept.refl _ _
    | with_reducible refine Kept.ite (fun _ => ?_) (fun _ => ?_)
    | with_reducible refine Kept.foldl' ?_ (fun a x => ?_)
    | with_reducible simp (disch := first | decide | (with_unfolding_all constructor <;> first | exact Or.inl (by decide) | exact Or.inr rfl | (constructor <;> first | exact Or.inl (by decide) | exact Or.inr (And.intro rfl rfl)))) only [Kept.upd_cal_sec, Kept.upd_cal, Kept.upd_sec, Kept.upd_host, Kept.upd_now, Kept.upd_freeNo]
    | split
    | intro _

theorem portRefused_kept (s : State) : Kept [.host, .fe, .cal, .spec, .acq, .disp, .mon, .tiu, .grove, .mem, .move, .ctl, .flt, .sec, .pwr] s (portRefused s) := by
  unfold portRefused
  try dsimp only
  repeat' first
    | with_reducible exact Kept.refl _ _
    | with_reducible refine Kept.ite (fun _ => ?_) (fun _ => ?_)
    | with_reducible refine Kept.foldl' ?_ (fun a x => ?_)
    | with_reducible apply Kept.chain (raiseQuiet_kept _ _ _ (by first | (unfold quietSource; decide) | exact quiet_rank _ _ _ (by decide))) (by decide)
    | with_reducible simp (disch := first | decide | (with_unfolding_all constructor <;> first | exact Or.inl (by decide) | exact Or.inr rfl | (constructor <;> first | exact Or.inl (by decide) | exact Or.inr (And.intro rfl rfl)))) only [Kept.upd_fe, Kept.upd_cal, Kept.upd_spec, Kept.upd_acq, Kept.upd_disp, Kept.upd_mon, Kept.upd_tiu, Kept.upd_grove, Kept.upd_mem, Kept.upd_move, Kept.upd_ctl, Kept.upd_flt, Kept.upd_sec, Kept.upd_pwr, Kept.upd_host, Kept.upd_now, Kept.upd_freeNo]
    | split
    | intro _

theorem factoryWrite_kept (s : State) (key : Nat) (v : Int) : Kept [.cal] s (factoryWrite s key v) := by
  unfold factoryWrite
  try dsimp only
  repeat' first
    | with_reducible exact Kept.refl _ _
    | with_reducible refine Kept.ite (fun _ => ?_) (fun _ => ?_)
    | with_reducible refine Kept.foldl' ?_ (fun a x => ?_)
    | with_reducible apply Kept.chain (setCalValue_kept _ _ _ _) (by decide)
    | with_reducible simp (disch := first | decide | (with_unfolding_all constructor <;> first | exact Or.inl (by decide) | exact Or.inr rfl | (constructor <;> first | exact Or.inl (by decide) | exact Or.inr (And.intro rfl rfl)))) only [Kept.upd_cal, Kept.upd_host, Kept.upd_now, Kept.upd_freeNo]
    | split
    | intro _

theorem perfGo_kept (s : State) (mask : Nat) (a : Nat) : Kept [.perf] s (perfGo s mask a) := by
  unfold perfGo
  try dsimp only
  repeat' first
    | with_reducible exact Kept.refl _ _
    | with_reducible refine Kept.ite (fun _ => ?_) (fun _ => ?_)
    | with_reducible refine Kept.foldl' ?_ (fun a x => ?_)
    | with_reducible apply Kept.chain (State.modPerfC_kept _ _ _) (by decide)
    | with_reducible simp (disch := first | decide | (with_unfolding_all constructor <;> first | exact Or.inl (by decide) | exact Or.inr rfl | (constructor <;> first | exact Or.inl (by decide) | exact Or.inr (And.intro rfl rfl)))) only [Kept.upd_perf, Kept.upd_host, Kept.upd_now, Kept.upd_freeNo]
    | split
    | intro _

theorem linkPost_kept (s : State) (n : Nat) : Kept [] s (linkPost s n) := by
  unfold linkPost
  try dsimp only
  repeat' first
    | with_reducible exact Kept.refl _ _
    | with_reducible refine Kept.ite (fun _ => ?_) (fun _ => ?_)
    | with_reducible refine Kept.foldl' ?_ (fun a x => ?_)
    | with_reducible apply Kept.chain (post_kept _ _ _) (by decide)
    | with_reducible simp (disch := first | decide | (with_unfolding_all constructor <;> first | exact Or.inl (by decide) | exact Or.inr rfl | (constructor <;> first | exact Or.inl (by decide) | exact Or.inr (And.intro rfl rfl)))) only [Kept.upd_host, Kept.upd_now, Kept.upd_freeNo]
    | split
    | intro _

theorem linkDown_kept (s : State) (n : Nat) : Kept [.move] s (linkDown s n) := by
  unfold linkDown
  try dsimp only
  repeat' first
    | with_reducible exact Kept.refl _ _
    | with_reducible refine Kept.ite (fun _ => ?_) (fun _ => ?_)
    | with_reducible refine Kept.foldl' ?_ (fun a x => ?_)
    | with_reducible apply Kept.chain (State.modLink_kept _ _ _) (by decide)
    | with_reducible apply Kept.chain (linkPost_kept _ _) (by decide)
    | with_reducible simp (disch := first | decide | (with_unfolding_all constructor <;> first | exact Or.inl (by decide) | exact Or.inr rfl | (constructor <;> first | exact Or.inl (by decide) | exact Or.inr (And.intro rfl rfl)))) only [Kept.upd_move, Kept.upd_host, Kept.upd_now, Kept.upd_freeNo]
    | split
    | intro _

theorem writeLabels_kept (s : State) (prove : Nat) : Kept [.move] s (writeLabels s prove) := by
  unfold writeLabels
  try dsimp only
  repeat' first
    | with_reducible exact Kept.refl _ _
    | with_reducible refine Kept.ite (fun _ => ?_) (fun _ => ?_)
    | with_reducible refine Kept.foldp' ?_ (fun a x => ?_)
    | with_reducible refine Kept.foldq' ?_ (fun a x => ?_)
    | with_reducible refine Kept.foldl' ?_ (fun a x => ?_)
    | with_reducible apply Kept.chain (drawFree_kept _ _) (by decide)
    | with_reducible apply Kept.chain (State.modLink_kept _ _ _) (by decide)
    | with_reducible simp (disch := first | decide | (with_unfolding_all constructor <;> first | exact Or.inl (by decide) | exact Or.inr rfl | (constructor <;> first | exact Or.inl (by decide) | exact Or.inr (And.intro rfl rfl)))) only [Kept.upd_move, Kept.upd_host, Kept.upd_now, Kept.upd_freeNo]
    | split
    | intro _

theorem takeEntry_kept (s : State) (n : Nat) (bs : List Byte) : Kept [.cal, .move] s (takeEntry s n bs) := by
  unfold takeEntry
  try dsimp only
  repeat' first
    | with_reducible exact Kept.refl _ _
    | with_reducible refine Kept.ite (fun _ => ?_) (fun _ => ?_)
    | with_reducible refine Kept.foldl' ?_ (fun a x => ?_)
    | with_reducible apply Kept.chain (State.setDirE_kept _ _ _) (by decide)
    | with_reducible simp (disch := first | decide | (with_unfolding_all constructor <;> first | exact Or.inl (by decide) | exact Or.inr rfl | (constructor <;> first | exact Or.inl (by decide) | exact Or.inr (And.intro rfl rfl)))) only [Kept.upd_cal, Kept.upd_move, Kept.upd_host, Kept.upd_now, Kept.upd_freeNo]
    | split
    | intro _

theorem mountFail_kept (s : State) (status : Nat) : Kept [.cmds, .move] s (mountFail s status) := by
  unfold mountFail
  try dsimp only
  repeat' first
    | with_reducible exact Kept.refl _ _
    | with_reducible refine Kept.ite (fun _ => ?_) (fun _ => ?_)
    | with_reducible refine Kept.foldl' ?_ (fun a x => ?_)
    | with_reducible apply Kept.chain (setJob_kept _ _) (by decide)
    | with_reducible apply Kept.chain (storFinish_kept _ _ _ _ _) (by decide)
    | with_reducible simp (disch := first | decide | (with_unfolding_all constructor <;> first | exact Or.inl (by decide) | exact Or.inr rfl | (constructor <;> first | exact Or.inl (by decide) | exact Or.inr (And.intro rfl rfl)))) only [Kept.upd_move, Kept.upd_host, Kept.upd_now, Kept.upd_freeNo]
    | split
    | intro _

theorem mountDone_kept (s : State) : Kept [.cmds, .move] s (mountDone s) := by
  unfold mountDone
  try dsimp only
  repeat' first
    | with_reducible exact Kept.refl _ _
    | with_reducible refine Kept.ite (fun _ => ?_) (fun _ => ?_)
    | with_reducible refine Kept.foldl' ?_ (fun a x => ?_)
    | with_reducible apply Kept.chain (State.modLink_kept _ _ _) (by decide)
    | with_reducible apply Kept.chain (mountPost_kept _) (by decide)
    | with_reducible apply Kept.chain (storFinish_kept _ _ _ _ _) (by decide)
    | with_reducible simp (disch := first | decide | (with_unfolding_all constructor <;> first | exact Or.inl (by decide) | exact Or.inr rfl | (constructor <;> first | exact Or.inl (by decide) | exact Or.inr (And.intro rfl rfl)))) only [Kept.upd_move, Kept.upd_host, Kept.upd_now, Kept.upd_freeNo]
    | split
    | intro _

theorem mountRepair_kept (s : State) : Kept [.cmds, .move] s (mountRepair s) := by
  unfold mountRepair
  try dsimp only
  repeat' first
    | with_reducible exact Kept.refl _ _
    | with_reducible refine Kept.ite (fun _ => ?_) (fun _ => ?_)
    | with_reducible refine Kept.foldl' ?_ (fun a x => ?_)
    | with_reducible apply Kept.chain (mountDone_kept _) (by decide)
    | with_reducible apply Kept.chain (mountFail_kept _ _) (by decide)
    | with_reducible simp (disch := first | decide | (with_unfolding_all constructor <;> first | exact Or.inl (by decide) | exact Or.inr rfl | (constructor <;> first | exact Or.inl (by decide) | exact Or.inr (And.intro rfl rfl)))) only [Kept.upd_move, Kept.upd_host, Kept.upd_now, Kept.upd_freeNo]
    | split
    | intro _

theorem repairEntry_kept (s : State) (n : Nat) (bytes : Nat) : Kept [.move, .sec] s (repairEntry s n bytes) := by
  unfold repairEntry
  try dsimp only
  repeat' first
    | with_reducible exact Kept.refl _ _
    | with_reducible refine Kept.ite (fun _ => ?_) (fun _ => ?_)
    | with_reducible refine Kept.foldl' ?_ (fun a x => ?_)
    | with_reducible apply Kept.chain (sealEntry_kept _ _ _) (by decide)
    | with_reducible simp (disch := first | decide | (with_unfolding_all constructor <;> first | exact Or.inl (by decide) | exact Or.inr rfl | (constructor <;> first | exact Or.inl (by decide) | exact Or.inr (And.intro rfl rfl)))) only [Kept.upd_move, Kept.upd_sec, Kept.upd_host, Kept.upd_now, Kept.upd_freeNo]
    | split
    | intro _

theorem labelsRead_kept (s : State) : Kept [.cmds, .move] s (labelsRead s) := by
  unfold labelsRead
  try dsimp only
  repeat' first
    | with_reducible exact Kept.refl _ _
    | with_reducible refine Kept.ite (fun _ => ?_) (fun _ => ?_)
    | with_reducible refine Kept.foldl' ?_ (fun a x => ?_)
    | with_reducible apply Kept.chain (State.modLink_kept _ _ _) (by decide)
    | with_reducible apply Kept.chain (mountFail_kept _ _) (by decide)
    | with_reducible simp (disch := first | decide | (with_unfolding_all constructor <;> first | exact Or.inl (by decide) | exact Or.inr rfl | (constructor <;> first | exact Or.inl (by decide) | exact Or.inr (And.intro rfl rfl)))) only [Kept.upd_move, Kept.upd_host, Kept.upd_now, Kept.upd_freeNo]
    | split
    | intro _

theorem recDriveLost_kept (s : State) : Kept [.cmds, .mem, .move, .flt, .sec] s (recDriveLost s) := by
  unfold recDriveLost
  try dsimp only
  repeat' first
    | with_reducible exact Kept.refl _ _
    | with_reducible refine Kept.ite (fun _ => ?_) (fun _ => ?_)
    | with_reducible refine Kept.foldl' ?_ (fun a x => ?_)
    | with_reducible apply Kept.chain (State.modReg_kept _ _ _) (by decide)
    | with_reducible apply Kept.chain (endCheck_kept _) (by decide)
    | with_reducible apply Kept.chain (modEntry_kept _ _) (by decide)
    | with_reducible apply Kept.chain (recGone_kept _) (by decide)
    | with_reducible apply Kept.chain (recSeal_kept _) (by decide)
    | with_reducible simp (disch := first | decide | (with_unfolding_all constructor <;> first | exact Or.inl (by decide) | exact Or.inr rfl | (constructor <;> first | exact Or.inl (by decide) | exact Or.inr (And.intro rfl rfl)))) only [Kept.upd_mem, Kept.upd_move, Kept.upd_flt, Kept.upd_sec, Kept.upd_host, Kept.upd_now, Kept.upd_freeNo]
    | split
    | intro _

theorem driveFail_kept (s : State) (n : Nat) (cause : Nat) (status : Nat) : Kept [.host, .cmds, .fe, .cal, .spec, .acq, .disp, .mon, .tiu, .grove, .mem, .move, .ctl, .flt, .sec, .pwr] s (driveFail s n cause status) := by
  unfold driveFail
  try dsimp only
  repeat' first
    | with_reducible exact Kept.refl _ _
    | with_reducible refine Kept.ite (fun _ => ?_) (fun _ => ?_)
    | with_reducible refine Kept.foldl' ?_ (fun a x => ?_)
    | with_reducible apply Kept.chain (State.modLink_kept _ _ _) (by decide)
    | with_reducible apply Kept.chain (finish_kept _ _ _ _ _) (by decide)
    | with_reducible apply Kept.chain (linkDown_kept _ _) (by decide)
    | with_reducible apply Kept.chain (mountFail_kept _ _) (by decide)
    | with_reducible apply Kept.chain (openWindow_kept _ _ _ _ _) (by decide)
    | with_reducible apply Kept.chain (post_kept _ _ _) (by decide)
    | with_reducible apply Kept.chain (raiseFault_kept _ _ _) (by decide)
    | with_reducible apply Kept.chain (recDriveLost_kept _) (by decide)
    | with_reducible apply Kept.chain (setJob_kept _ _) (by decide)
    | with_reducible apply Kept.chain (storFinish_kept _ _ _ _ _) (by decide)
    | with_reducible apply Kept.chain (unmountNow_kept _) (by decide)
    | with_reducible simp (disch := first | decide | (with_unfolding_all constructor <;> first | exact Or.inl (by decide) | exact Or.inr rfl | (constructor <;> first | exact Or.inl (by decide) | exact Or.inr (And.intro rfl rfl)))) only [Kept.upd_fe, Kept.upd_cal, Kept.upd_spec, Kept.upd_acq, Kept.upd_disp, Kept.upd_mon, Kept.upd_tiu, Kept.upd_grove, Kept.upd_mem, Kept.upd_move, Kept.upd_ctl, Kept.upd_flt, Kept.upd_sec, Kept.upd_pwr, Kept.upd_host, Kept.upd_now, Kept.upd_freeNo]
    | split
    | intro _

theorem recBegun_kept (s : State) : Kept [.host, .cmds, .fe, .cal, .spec, .acq, .disp, .mon, .tiu, .grove, .mem, .move, .ctl, .flt, .sec, .pwr] s (recBegun s) := by
  unfold recBegun
  try dsimp only
  repeat' first
    | with_reducible exact Kept.refl _ _
    | with_reducible refine Kept.ite (fun _ => ?_) (fun _ => ?_)
    | with_reducible refine Kept.foldl' ?_ (fun a x => ?_)
    | with_reducible apply Kept.chain (bindNow_kept _ _ _) (by decide)
    | with_reducible apply Kept.chain (recPull_kept _) (by decide)
    | with_reducible apply Kept.chain (storFinish_kept _ _ _ _ _) (by decide)
    | with_reducible simp (disch := first | decide | (with_unfolding_all constructor <;> first | exact Or.inl (by decide) | exact Or.inr rfl | (constructor <;> first | exact Or.inl (by decide) | exact Or.inr (And.intro rfl rfl)))) only [Kept.upd_fe, Kept.upd_cal, Kept.upd_spec, Kept.upd_acq, Kept.upd_disp, Kept.upd_mon, Kept.upd_tiu, Kept.upd_grove, Kept.upd_mem, Kept.upd_move, Kept.upd_ctl, Kept.upd_flt, Kept.upd_sec, Kept.upd_pwr, Kept.upd_host, Kept.upd_now, Kept.upd_freeNo]
    | split
    | intro _

theorem flushDone_kept (s : State) : Kept [.cmds, .move, .flt, .sec] s (flushDone s) := by
  unfold flushDone
  try dsimp only
  repeat' first
    | with_reducible exact Kept.refl _ _
    | with_reducible refine Kept.ite (fun _ => ?_) (fun _ => ?_)
    | with_reducible refine Kept.foldl' ?_ (fun a x => ?_)
    | with_reducible apply Kept.chain (endCheck_kept _) (by decide)
    | with_reducible apply Kept.chain (flushCheck_kept _) (by decide)
    | with_reducible simp (disch := first | decide | (with_unfolding_all constructor <;> first | exact Or.inl (by decide) | exact Or.inr rfl | (constructor <;> first | exact Or.inl (by decide) | exact Or.inr (And.intro rfl rfl)))) only [Kept.upd_move, Kept.upd_flt, Kept.upd_sec, Kept.upd_host, Kept.upd_now, Kept.upd_freeNo]
    | split
    | intro _

theorem flushStep_kept {l : List Part} (s : State) (n : Nat) (f : State → State) (hm : ∀ x ∈ [.move], x ∈ l) (h : ∀ a, Kept l a (f a)) : Kept l s (flushStep s n f) := by
  unfold flushStep
  dsimp only
  have hu := fun (x : Move) => (Kept.upd_move (l := l) (s := s) (t := s) (hm _ (by decide)) x).2 (Kept.refl _ _)
  exact Kept.ite (fun _ => Kept.refl _ _) fun _ => Kept.ite (fun _ => (hu _).trans (h _)) fun _ => hu _

theorem flushStep_then {l : List Part} {r s : State} {n : Nat} {f : State → State} (hm : ∀ x ∈ [.move], x ∈ l) (h : Kept l r s) (hg : ∀ a, Kept l a (f a)) :
    Kept l r (flushStep s n f) := h.trans (flushStep_kept s n f hm hg)

theorem entryStep_kept {l : List Part} (s : State) (n kind : Nat) (f : State → State) (hm : ∀ x ∈ [.move], x ∈ l) (h : ∀ a, Kept l a (f a)) : Kept l s (entryStep s n kind f) := by
  unfold entryStep
  dsimp only
  have hu := fun (x : Move) => (Kept.upd_move (l := l) (s := s) (t := s) (hm _ (by decide)) x).2 (Kept.refl _ _)
  exact Kept.ite (fun _ => Kept.refl _ _) fun _ => Kept.ite (fun _ => (hu _).trans (h _)) fun _ => hu _

theorem entryStep_then {l : List Part} {r s : State} {n kind : Nat} {f : State → State} (hm : ∀ x ∈ [.move], x ∈ l) (h : Kept l r s) (hg : ∀ a, Kept l a (f a)) :
    Kept l r (entryStep s n kind f) := h.trans (entryStep_kept s n kind f hm hg)

theorem jobStep_kept (s : State) (n : Nat) (kind : Nat) (fin : Bool) (data : List Nat) : Kept [.host, .cmds, .fe, .cal, .spec, .acq, .disp, .mon, .tiu, .grove, .mem, .move, .ctl, .flt, .sec, .pwr] s (jobStep s n kind fin data) := by
  unfold jobStep
  try dsimp only
  repeat' first
    | with_reducible exact Kept.refl _ _
    | with_reducible refine Kept.ite (fun _ => ?_) (fun _ => ?_)
    | with_reducible refine Kept.foldl' ?_ (fun a x => ?_)
    | with_reducible apply Kept.chain (State.modLink_kept _ _ _) (by decide)
    | with_reducible refine entryStep_then (by decide) ?_ (fun a => ?_)
    | with_reducible apply Kept.chain (flushDone_kept _) (by decide)
    | with_reducible refine flushStep_then (by decide) ?_ (fun a => ?_)
    | with_reducible apply Kept.chain (labelsRead_kept _) (by decide)
    | with_reducible apply Kept.chain (mountRepair_kept _) (by decide)
    | with_reducible apply Kept.chain (recBegun_kept _) (by decide)
    | with_reducible apply Kept.chain (recGone_kept _) (by decide)
    | with_reducible apply Kept.chain (recSeal_kept _) (by decide)
    | with_reducible apply Kept.chain (repairEntry_kept _ _ _) (by decide)
    | with_reducible apply Kept.chain (setJob_kept _ _) (by decide)
    | with_reducible apply Kept.chain (storFinish_kept _ _ _ _ _) (by decide)
    | with_reducible apply Kept.chain (takeEntry_kept _ _ _) (by decide)
    | with_reducible apply Kept.chain (unmountNow_kept _) (by decide)
    | with_reducible simp (disch := first | decide | (with_unfolding_all constructor <;> first | exact Or.inl (by decide) | exact Or.inr rfl | (constructor <;> first | exact Or.inl (by decide) | exact Or.inr (And.intro rfl rfl)))) only [Kept.upd_fe, Kept.upd_cal, Kept.upd_spec, Kept.upd_acq, Kept.upd_disp, Kept.upd_mon, Kept.upd_tiu, Kept.upd_grove, Kept.upd_mem, Kept.upd_move, Kept.upd_ctl, Kept.upd_flt, Kept.upd_sec, Kept.upd_pwr, Kept.upd_host, Kept.upd_now, Kept.upd_freeNo]
    | split
    | intro _

theorem linkTrained_kept (s : State) (p : InProg) (n : Nat) (x : Link) : Kept [.cmds, .move] s (linkTrained s p n x) := by
  unfold linkTrained
  try dsimp only
  repeat' first
    | with_reducible exact Kept.refl _ _
    | with_reducible refine Kept.ite (fun _ => ?_) (fun _ => ?_)
    | with_reducible refine Kept.foldl' ?_ (fun a x => ?_)
    | with_reducible apply Kept.chain (State.setLink_kept _ _ _) (by decide)
    | with_reducible apply Kept.chain (finish_kept _ _ _ _ _) (by decide)
    | with_reducible apply Kept.chain (linkPost_kept _ _) (by decide)
    | with_reducible simp (disch := first | decide | (with_unfolding_all constructor <;> first | exact Or.inl (by decide) | exact Or.inr rfl | (constructor <;> first | exact Or.inl (by decide) | exact Or.inr (And.intro rfl rfl)))) only [Kept.upd_move, Kept.upd_host, Kept.upd_now, Kept.upd_freeNo]
    | split
    | intro _

theorem portIdle_kept (s : State) : Kept [.move] s (portIdle s) := by
  unfold portIdle
  try dsimp only
  repeat' first
    | with_reducible exact Kept.refl _ _
    | with_reducible refine Kept.ite (fun _ => ?_) (fun _ => ?_)
    | with_reducible refine Kept.foldl' ?_ (fun a x => ?_)
    | with_reducible apply Kept.chain (State.setLink_kept _ _ _) (by decide)
    | with_reducible apply Kept.chain (linkDown_kept _ _) (by decide)
    | with_reducible simp (disch := first | decide | (with_unfolding_all constructor <;> first | exact Or.inl (by decide) | exact Or.inr rfl | (constructor <;> first | exact Or.inl (by decide) | exact Or.inr (And.intro rfl rfl)))) only [Kept.upd_move, Kept.upd_host, Kept.upd_now, Kept.upd_freeNo]
    | split
    | intro _

theorem recStart_kept (s : State) (sess : Nat) (b : Nat) : Kept [.cal, .mem, .move] s (recStart s sess b) := by
  unfold recStart
  try dsimp only
  repeat' first
    | with_reducible exact Kept.refl _ _
    | with_reducible refine Kept.ite (fun _ => ?_) (fun _ => ?_)
    | with_reducible refine Kept.foldl' ?_ (fun a x => ?_)
    | with_reducible apply Kept.chain (State.modReg_kept _ _ _) (by decide)
    | with_reducible apply Kept.chain (State.setDirE_kept _ _ _) (by decide)
    | with_reducible apply Kept.chain (calCount_kept _ _) (by decide)
    | with_reducible simp (disch := first | decide | (with_unfolding_all constructor <;> first | exact Or.inl (by decide) | exact Or.inr rfl | (constructor <;> first | exact Or.inl (by decide) | exact Or.inr (And.intro rfl rfl)))) only [Kept.upd_cal, Kept.upd_mem, Kept.upd_move, Kept.upd_host, Kept.upd_now, Kept.upd_freeNo]
    | split
    | intro _

theorem pllWindowEnd_kept (s : State) (k : Nat) : Kept [.flt] s (pllWindowEnd s k) := by
  unfold pllWindowEnd
  try dsimp only
  repeat' first
    | with_reducible exact Kept.refl _ _
    | with_reducible refine Kept.ite (fun _ => ?_) (fun _ => ?_)
    | with_reducible refine Kept.foldl' ?_ (fun a x => ?_)
    | with_reducible apply Kept.chain (endWindow_kept _ _) (by decide)
    | with_reducible simp (disch := first | decide | (with_unfolding_all constructor <;> first | exact Or.inl (by decide) | exact Or.inr rfl | (constructor <;> first | exact Or.inl (by decide) | exact Or.inr (And.intro rfl rfl)))) only [Kept.upd_flt, Kept.upd_host, Kept.upd_now, Kept.upd_freeNo]
    | split
    | intro _

theorem statClose_kept (s : State) (u : Nat) : Kept [.tiu] s (statClose s u) := by
  unfold statClose
  try dsimp only
  repeat' first
    | with_reducible exact Kept.refl _ _
    | with_reducible refine Kept.ite (fun _ => ?_) (fun _ => ?_)
    | with_reducible refine Kept.foldl' ?_ (fun a x => ?_)
    | with_reducible apply Kept.chain (State.setTiuSt_kept _ _ _) (by decide)
    | with_reducible apply Kept.chain (post_kept _ _ _) (by decide)
    | with_reducible simp (disch := first | decide | (with_unfolding_all constructor <;> first | exact Or.inl (by decide) | exact Or.inr rfl | (constructor <;> first | exact Or.inl (by decide) | exact Or.inr (And.intro rfl rfl)))) only [Kept.upd_tiu, Kept.upd_host, Kept.upd_now, Kept.upd_freeNo]
    | split
    | intro _

theorem statSample_kept (s : State) (u : Nat) (v : Int) : Kept [.tiu] s (statSample s u v) := by
  unfold statSample
  try dsimp only
  repeat' first
    | with_reducible exact Kept.refl _ _
    | with_reducible refine Kept.ite (fun _ => ?_) (fun _ => ?_)
    | with_reducible refine Kept.foldl' ?_ (fun a x => ?_)
    | with_reducible apply Kept.chain (State.setTiuSt_kept _ _ _) (by decide)
    | with_reducible apply Kept.chain (statClose_kept _ _) (by decide)
    | with_reducible simp (disch := first | decide | (with_unfolding_all constructor <;> first | exact Or.inl (by decide) | exact Or.inr rfl | (constructor <;> first | exact Or.inl (by decide) | exact Or.inr (And.intro rfl rfl)))) only [Kept.upd_tiu, Kept.upd_host, Kept.upd_now, Kept.upd_freeNo]
    | split
    | intro _

theorem statPair_kept (x0 : Nat) (x1 : State) (x2 : Nat) : Kept [.tiu] x1 (statPair x0 x1 x2) := by
  induction x0 generalizing x1 x2 with
  | zero => exact Kept.refl _ _
  | succ n ih =>
  unfold statPair
  try dsimp only
  repeat' first
    | with_reducible exact Kept.refl _ _
    | with_reducible refine Kept.ite (fun _ => ?_) (fun _ => ?_)
    | with_reducible refine Kept.foldl' ?_ (fun a x => ?_)
    | with_reducible apply Kept.chain (ih _ _) (by decide)
    | with_reducible apply Kept.chain (State.setTiuSt_kept _ _ _) (by decide)
    | with_reducible apply Kept.chain (statSample_kept _ _ _) (by decide)
    | with_reducible simp (disch := first | decide | (with_unfolding_all constructor <;> first | exact Or.inl (by decide) | exact Or.inr rfl | (constructor <;> first | exact Or.inl (by decide) | exact Or.inr (And.intro rfl rfl)))) only [Kept.upd_tiu, Kept.upd_host, Kept.upd_now, Kept.upd_freeNo]
    | split
    | intro _

theorem statStamp_kept (s : State) (u : Nat) (n : Nat) (T : Stamp) (coarse : Bool) (uncal : Bool) : Kept [.tiu] s (statStamp s u n T coarse uncal) := by
  unfold statStamp
  try dsimp only
  repeat' first
    | with_reducible exact Kept.refl _ _
    | with_reducible refine Kept.ite (fun _ => ?_) (fun _ => ?_)
    | with_reducible refine Kept.foldl' ?_ (fun a x => ?_)
    | with_reducible apply Kept.chain (State.setTiuSt_kept _ _ _) (by decide)
    | with_reducible apply Kept.chain (statPair_kept _ _ _) (by decide)
    | with_reducible apply Kept.chain (statSample_kept _ _ _) (by decide)
    | with_reducible simp (disch := first | decide | (with_unfolding_all constructor <;> first | exact Or.inl (by decide) | exact Or.inr rfl | (constructor <;> first | exact Or.inl (by decide) | exact Or.inr (And.intro rfl rfl)))) only [Kept.upd_tiu, Kept.upd_host, Kept.upd_now, Kept.upd_freeNo]
    | split
    | intro _

theorem statLost_kept (s : State) (n : Nat) : Kept [.tiu] s (statLost s n) := by
  unfold statLost
  try dsimp only
  repeat' first
    | with_reducible exact Kept.refl _ _
    | with_reducible refine Kept.ite (fun _ => ?_) (fun _ => ?_)
    | with_reducible refine Kept.foldl' ?_ (fun a x => ?_)
    | with_reducible apply Kept.chain (State.modTiuSt_kept _ _ _) (by decide)
    | with_reducible simp (disch := first | decide | (with_unfolding_all constructor <;> first | exact Or.inl (by decide) | exact Or.inr rfl | (constructor <;> first | exact Or.inl (by decide) | exact Or.inr (And.intro rfl rfl)))) only [Kept.upd_tiu, Kept.upd_host, Kept.upd_now, Kept.upd_freeNo]
    | split
    | intro _

theorem queuePut_kept (s : State) (n : Nat) (r : StampRec) : Kept [.tiu] s (queuePut s n r) := by
  unfold queuePut
  try dsimp only
  repeat' first
    | with_reducible exact Kept.refl _ _
    | with_reducible refine Kept.ite (fun _ => ?_) (fun _ => ?_)
    | with_reducible refine Kept.foldl' ?_ (fun a x => ?_)
    | with_reducible apply Kept.chain (State.setTiuIn_kept _ _ _) (by decide)
    | with_reducible apply Kept.chain (post_kept _ _ _) (by decide)
    | with_reducible simp (disch := first | decide | (with_unfolding_all constructor <;> first | exact Or.inl (by decide) | exact Or.inr rfl | (constructor <;> first | exact Or.inl (by decide) | exact Or.inr (And.intro rfl rfl)))) only [Kept.upd_tiu, Kept.upd_host, Kept.upd_now, Kept.upd_freeNo]
    | split
    | intro _

theorem edgeLost_kept (s : State) (n : Nat) : Kept [.tiu] s (edgeLost s n) := by
  unfold edgeLost
  try dsimp only
  repeat' first
    | with_reducible exact Kept.refl _ _
    | with_reducible refine Kept.ite (fun _ => ?_) (fun _ => ?_)
    | with_reducible refine Kept.foldl' ?_ (fun a x => ?_)
    | with_reducible apply Kept.chain (State.modTiuIn_kept _ _ _) (by decide)
    | with_reducible apply Kept.chain (statLost_kept _ _) (by decide)
    | with_reducible simp (disch := first | decide | (with_unfolding_all constructor <;> first | exact Or.inl (by decide) | exact Or.inr rfl | (constructor <;> first | exact Or.inl (by decide) | exact Or.inr (And.intro rfl rfl)))) only [Kept.upd_tiu, Kept.upd_host, Kept.upd_now, Kept.upd_freeNo]
    | split
    | intro _

theorem edgeStamp_kept (s : State) (n : Nat) (fall : Bool) (c : Nat) : Kept [.host, .cmds, .fe, .clk, .cal, .spec, .acq, .disp, .mon, .tiu, .grove, .mem, .move, .ctl, .flt, .sec, .pwr] s (edgeStamp s n fall c) := by
  unfold edgeStamp
  try dsimp only
  repeat' first
    | with_reducible exact Kept.refl _ _
    | with_reducible refine Kept.ite (fun _ => ?_) (fun _ => ?_)
    | with_reducible refine Kept.foldl' ?_ (fun a x => ?_)
    | with_reducible apply Kept.chain (State.setTiuIn_kept _ _ _) (by decide)
    | with_reducible apply Kept.chain (edgeLost_kept _ _) (by decide)
    | with_reducible apply Kept.chain (externalTerms_kept _ _ _ _) (by decide)
    | with_reducible apply Kept.chain (ppsAccept_kept _ _) (by decide)
    | with_reducible apply Kept.chain (queuePut_kept _ _ _) (by decide)
    | with_reducible apply Kept.chain (statStamp_kept _ _ _ _ _ _) (by decide)
    | with_reducible simp (disch := first | decide | (with_unfolding_all constructor <;> first | exact Or.inl (by decide) | exact Or.inr rfl | (constructor <;> first | exact Or.inl (by decide) | exact Or.inr (And.intro rfl rfl)))) only [Kept.upd_fe, Kept.upd_clk, Kept.upd_cal, Kept.upd_spec, Kept.upd_acq, Kept.upd_disp, Kept.upd_mon, Kept.upd_tiu, Kept.upd_grove, Kept.upd_mem, Kept.upd_move, Kept.upd_ctl, Kept.upd_flt, Kept.upd_sec, Kept.upd_pwr, Kept.upd_host, Kept.upd_now, Kept.upd_freeNo]
    | split
    | intro _

theorem writeSide_kept (d : Desc) (x0 : State) (x1 : List (Nat × Nat)) (x2 : List Byte) : Kept [.host, .grove, .mem] x0 (writeSide d x0 x1 x2) := by
  induction x1 generalizing x0 x2 with
  | nil => exact Kept.refl _ _
  | cons hd tl ih0 =>
  have ih := fun (a : State) (b : List Byte) => ih0 a b
  obtain ⟨p, q⟩ := hd
  unfold writeSide
  try dsimp only
  repeat' first
    | with_reducible exact Kept.refl _ _
    | with_reducible refine Kept.ite (fun _ => ?_) (fun _ => ?_)
    | with_reducible refine Kept.foldl' ?_ (fun a x => ?_)
    | with_reducible apply Kept.chain (ih _ _) (by decide)
    | with_reducible apply Kept.chain (feedWrite_kept _ _ _ _ _) (by decide)
    | with_reducible apply Kept.chain (regWrite_kept _ _ _ _) (by decide)
    | with_reducible simp (disch := first | decide | (with_unfolding_all constructor <;> first | exact Or.inl (by decide) | exact Or.inr rfl | (constructor <;> first | exact Or.inl (by decide) | exact Or.inr (And.intro rfl rfl)))) only [Kept.upd_grove, Kept.upd_mem, Kept.upd_host, Kept.upd_now, Kept.upd_freeNo]
    | split
    | intro _

theorem drainTo_kept (x0 : Nat) (x1 : State) (x2 : Nat) : Kept [.tiu, .mem] x1 (drainTo x0 x1 x2) := by
  induction x0 generalizing x1 x2 with
  | zero => exact Kept.refl _ _
  | succ n ih =>
  unfold drainTo
  try dsimp only
  repeat' first
    | with_reducible exact Kept.refl _ _
    | with_reducible refine Kept.ite (fun _ => ?_) (fun _ => ?_)
    | with_reducible refine Kept.foldl' ?_ (fun a x => ?_)
    | with_reducible apply Kept.chain (ih _ _) (by decide)
    | with_reducible apply Kept.chain (State.setTiuIn_kept _ _ _) (by decide)
    | with_reducible apply Kept.chain (ringPut_kept _ _ _) (by decide)
    | with_reducible simp (disch := first | decide | (with_unfolding_all constructor <;> first | exact Or.inl (by decide) | exact Or.inr rfl | (constructor <;> first | exact Or.inl (by decide) | exact Or.inr (And.intro rfl rfl)))) only [Kept.upd_tiu, Kept.upd_mem, Kept.upd_host, Kept.upd_now, Kept.upd_freeNo]
    | split
    | intro _

theorem readSide_kept (s : State) (n : Nat) (d : Desc) (runs : List (Nat × Nat)) (data : List Nat) : Kept [.host, .fe, .cal, .spec, .acq, .disp, .mon, .tiu, .grove, .mem, .move, .ctl, .flt, .sec, .pwr] s ((readSide s n d runs data).2.2) := by
  have h : ∀ (l : List Part) (f : List Byte × Bool × State → Nat × Nat → List Byte × Bool × State), (∀ a r, Kept l a.2.2 (f a r).2.2) →
      ∀ (runs : List (Nat × Nat)) a, Kept l a.2.2 (runs.foldl f a).2.2 := by
    intro l f hf runs
    induction runs with
    | nil => intro a; exact Kept.refl _ _
    | cons r t ih => intro a; exact (hf a r).trans (ih _)
  unfold readSide
  split
  · exact Kept.refl _ _
  · refine h _ _ (fun a r => ?_) runs ([], false, s)
    dsimp only
    split
    · exact Kept.refl _ _
    · exact regRead_kept _ _ _ _ _

theorem pllRead_kept (s : State) (k : Nat) : Kept [] s ((pllRead s k).2) := by
  unfold pllRead
  try dsimp only
  repeat' first
    | with_reducible exact Kept.refl _ _
    | with_reducible refine Kept.ite (fun _ => ?_) (fun _ => ?_)
    | with_reducible refine Kept.foldp' ?_ (fun a x => ?_)
    | with_reducible refine Kept.foldq' ?_ (fun a x => ?_)
    | with_reducible refine Kept.foldl' ?_ (fun a x => ?_)
    | with_reducible apply Kept.chain (drawFree_kept _ _) (by decide)
    | with_reducible simp (disch := first | decide | (with_unfolding_all constructor <;> first | exact Or.inl (by decide) | exact Or.inr rfl | (constructor <;> first | exact Or.inl (by decide) | exact Or.inr (And.intro rfl rfl)))) only [Kept.upd_host, Kept.upd_now, Kept.upd_freeNo]
    | split
    | intro _

/-! ## What a frame says of one part -/

theorem Kept.fe_eq {l : List Part} {s t : State} (h : Kept l s t) (n : Part.fe ∉ l) : t.fe = s.fe := by
  have a := h.1
  simp only [SameParts, n, false_or] at a
  simp [a]
theorem Kept.clk_eq {l : List Part} {s t : State} (h : Kept l s t) (n : Part.clk ∉ l) : t.clk = s.clk := by
  have a := h.1
  simp only [SameParts, n, false_or] at a
  simp [a]
theorem Kept.cal_eq {l : List Part} {s t : State} (h : Kept l s t) (n : Part.cal ∉ l) : t.cal = s.cal := by
  have a := h.1
  simp only [SameParts, n, false_or] at a
  simp [a]
theorem Kept.spec_eq {l : List Part} {s t : State} (h : Kept l s t) (n : Part.spec ∉ l) : t.spec = s.spec := by
  have a := h.1
  simp only [SameParts, n, false_or] at a
  simp [a]
theorem Kept.acq_eq {l : List Part} {s t : State} (h : Kept l s t) (n : Part.acq ∉ l) : t.acq = s.acq := by
  have a := h.1
  simp only [SameParts, n, false_or] at a
  simp [a]
theorem Kept.disp_eq {l : List Part} {s t : State} (h : Kept l s t) (n : Part.disp ∉ l) : t.disp = s.disp := by
  have a := h.1
  simp only [SameParts, n, false_or] at a
  simp [a]
theorem Kept.mon_eq {l : List Part} {s t : State} (h : Kept l s t) (n : Part.mon ∉ l) : t.mon = s.mon := by
  have a := h.1
  simp only [SameParts, n, false_or] at a
  simp [a]
theorem Kept.tiu_eq {l : List Part} {s t : State} (h : Kept l s t) (n : Part.tiu ∉ l) : t.tiu = s.tiu := by
  have a := h.1
  simp only [SameParts, n, false_or] at a
  simp [a]
theorem Kept.grove_eq {l : List Part} {s t : State} (h : Kept l s t) (n : Part.grove ∉ l) : t.grove = s.grove := by
  have a := h.1
  simp only [SameParts, n, false_or] at a
  simp [a]
theorem Kept.mem_eq {l : List Part} {s t : State} (h : Kept l s t) (n : Part.mem ∉ l) : t.mem = s.mem := by
  have a := h.1
  simp only [SameParts, n, false_or] at a
  simp [a]
theorem Kept.move_eq {l : List Part} {s t : State} (h : Kept l s t) (n : Part.move ∉ l) : t.move = s.move := by
  have a := h.1
  simp only [SameParts, n, false_or] at a
  simp [a]
theorem Kept.aux_eq {l : List Part} {s t : State} (h : Kept l s t) (n : Part.aux ∉ l) : t.aux = s.aux := by
  have a := h.1
  simp only [SameParts, n, false_or] at a
  simp [a]
theorem Kept.ctl_eq {l : List Part} {s t : State} (h : Kept l s t) (n : Part.ctl ∉ l) : t.ctl = s.ctl := by
  have a := h.1
  simp only [SameParts, n, false_or] at a
  simp [a]
theorem Kept.flt_eq {l : List Part} {s t : State} (h : Kept l s t) (n : Part.flt ∉ l) : t.flt = s.flt := by
  have a := h.1
  simp only [SameParts, n, false_or] at a
  simp [a]
theorem Kept.sec_eq {l : List Part} {s t : State} (h : Kept l s t) (n : Part.sec ∉ l) : t.sec = s.sec := by
  have a := h.1
  simp only [SameParts, n, false_or] at a
  simp [a]
theorem Kept.pwr_eq {l : List Part} {s t : State} (h : Kept l s t) (n : Part.pwr ∉ l) : t.pwr = s.pwr := by
  have a := h.1
  simp only [SameParts, n, false_or] at a
  simp [a]
theorem Kept.host_ev {l : List Part} {s t : State} (h : Kept l s t) (n : Part.host ∉ l) (m : Part.ses ∉ l) (k : Part.cmds ∉ l) :
    HostEvents s.host t.host := .ofSame (h.2.1.resolve_left m) (h.2.2.1.resolve_left k) (h.2.2.2.1.resolve_left n)

end Sys2Proof.Machine
end

