-- ==== Sys2Proof/Laws/Rows.lean ====
section
/-! SUPPORT. Frames that the operations' own ones leave too wide: what ends no command of the host. -/

namespace Sys2Proof.Machine

/-- What a fault of the engine that concerns no command of the host can reach. -/
abbrev faultParts : List Part := [.host, .fe, .cal, .spec, .acq, .disp, .mon, .tiu, .grove, .mem, .move, .ctl, .flt, .sec, .pwr]

/-- A grove core that stops ends no command. -/
theorem coreStop_quiet (s : State) (n cause faddr : Nat) (hn : n < 104) : Kept faultParts s (coreStop s n cause faddr) :=
  coreStopWith_quiet raiseFault raiseQuiet_kept s n cause faddr hn

/-- Every index of a mask is below its width. -/
theorem maskBits_lt {w v m : Nat} (h : m ∈ maskBits w v) : m < w := by
  unfold maskBits at h
  exact List.mem_range.1 (List.mem_of_mem_filter h)

/-- A frame over a fold, of which each step keeps its frame for the elements of the list. -/
theorem Kept.foldl_mem {α : Type} {l : List Part} {f : State → α → State} (xs : List α) (h : ∀ x ∈ xs, ∀ s, Kept l s (f s x)) (s : State) :
    Kept l s (xs.foldl f s) := by
  induction xs generalizing s with
  | nil => exact .refl _ _
  | cons x xs ih => exact (h x (by simp) s).trans (ih (fun y hy => h y (by simp [hy])) _)

/-! ## Work that waits for the supply (R521) -/

theorem atCeiling_fail (e : Bool) (d : List Nat) (s : State) (st : Nat) : atCeiling e d s (.fail st) = .fail st := by
  simp [atCeiling, Reply.rejects]

theorem atCeiling_wait {e : Bool} {d : List Nat} {s : State} {r : Reply} (hr : r.rejects = false) (he : e = true) (hv : s.spec.vcore < 850) :
    atCeiling e d s r = .later s ceilingWait d := by
  simp [atCeiling, hr, he, hv]

theorem atCeiling_pass {e : Bool} {d : List Nat} {s : State} {r : Reply} (h : (e && decide (s.spec.vcore < 850)) = false) :
    atCeiling e d s r = r := by
  unfold atCeiling
  rw [if_neg]
  intro h'
  simp only [Bool.and_eq_true, decide_eq_true_eq] at h'
  simp [h'.1.1, h'.2] at h

/-! ## The blocks of MON_LOAD (R228) -/

theorem ctxSet_ok {adm : Bool} {n b : Nat} {s s1 : State} {rl r : Nat} (h : ctxSet adm n b s = .ok s1 rl r) : Kept [.mon] s s1 := by
  unfold ctxSet at h
  dsimp only at h
  generalize [(!ownsCtx s n (fld b 0 16), stBusy), _, _, _, _, _] = l at h
  cases hl : firstFailing l with
  | some st => rw [chk_fail hl] at h; cases h
  | none =>
    rw [chk_none hl] at h
    split at h <;> · cases h; exact State.setCtx_kept _ _ _

theorem loadBlocks_ok {adm : Bool} {n : Nat} {bl : List Nat} {i : Nat} {seen : List Nat} {s s1 : State} {rl r : Nat} (h : loadBlocks adm n bl i seen s = .ok s1 rl r) :
    Kept [.mon] s s1 := by
  induction bl generalizing i seen s with
  | nil => unfold loadBlocks at h; cases h; exact .refl _ _
  | cons b bl ih =>
    unfold loadBlocks at h
    dsimp only at h
    split at h
    · cases h
    · split at h
      · cases h
      · rename_i hc; exact (ctxSet_ok hc).trans (ih h)
      · cases h

/-! ## Commands that the supply held back (R103) -/

/-- The state that a reply carries differs from `s` in the parts listed at most. -/
def Reply.Keeps (l : List Part) (s : State) : Reply → Prop
  | .fail _ => True
  | .failWith t _ _ _ => Kept l s t
  | .ok t _ _ => Kept l s t
  | .deferred t => Kept l s t
  | .later t _ _ => Kept l s t
  | .laterR t _ _ _ => Kept l s t
  | .silent t => Kept l s t

theorem Reply.Keeps.chk {l : List Part} {s : State} {c : List (Bool × Nat)} {r : Reply} (h : r.Keeps l s) : (chk c r).Keeps l s := by
  cases e : firstFailing c with
  | some st => rw [chk_fail e]; exact True.intro
  | none => rw [chk_none e]; exact h

theorem Reply.Keeps.ite {l : List Part} {s : State} {c : Prop} [Decidable c] {a b : Reply} (h : c → a.Keeps l s) (g : ¬c → b.Keeps l s) :
    (if c then a else b).Keeps l s := by
  split <;> simp_all

/-- The parts that a command or its containment can reach. -/
abbrev commandParts : List Part := [.host, .cmds, .fe, .cal, .spec, .acq, .disp, .mon, .tiu, .grove, .mem, .move, .ctl, .flt, .sec, .pwr]

theorem bodySetLane_keeps (n b : Nat) (s : State) : (bodySetLane n b s).Keeps commandParts s := by
  unfold bodySetLane
  exact .chk (.ite (fun _ => (laneOff_kept _ _).mono (by decide)) (fun _ => (laneSet_kept _ _ _).mono (by decide)))

theorem bodySetMap_keeps (n b : Nat) (s : State) : (bodySetMap n b s).Keeps commandParts s := by
  unfold bodySetMap
  have hd : ∀ i m, Kept commandParts s (s.setDmap i m) := fun i m => (State.setDmap_kept _ _ _).mono (by decide)
  have hf : ∀ u op k st rl r, Kept commandParts s u → Kept commandParts s (finishAll u op k st rl r) := fun u op k st rl r h =>
    Kept.chain (finishAll_kept _ _ _ _ _ _) (by decide) h
  exact .chk (.ite (fun _ => .ite (fun _ => hd _ _) (fun _ => hf _ _ _ _ _ _ (hf _ _ _ _ _ _ (hd _ _))))
    (fun _ => .ite (fun _ => hd _ _) (fun _ => .ite (fun _ => hd _ _) (fun _ => hd _ _))))

theorem bodySetTrace_keeps (n b : Nat) (s : State) : (bodySetTrace n b s).Keeps commandParts s := by
  unfold bodySetTrace
  exact .chk (.ite (fun _ => Kept.chain (State.setTrace_kept _ _ _) (by decide) ((traceOff_kept _ _).mono (by decide)))
    (fun _ => (traceOff_kept _ _).mono (by decide)))

theorem bodySetDdc_keeps (n b : Nat) (s : State) : (bodySetDdc n b s).Keeps commandParts s := by
  unfold bodySetDdc
  have h : ∀ k y, Kept commandParts s (ddcSet s k y) := fun k y => (ddcSet_kept _ _ _).mono (by decide)
  exact .chk (.ite (fun _ => Kept.chain (drawFree_kept _ _) (by decide) (h _ _))
    (fun _ => .ite (fun _ => h _ _) (fun _ => Kept.chain (drawFree_kept _ _) (by decide) (h _ _))))

theorem ctxSet_keeps (adm : Bool) (n b : Nat) (s : State) : (ctxSet adm n b s).Keeps commandParts s := by
  unfold ctxSet
  exact .chk (.ite (fun _ => (State.setCtx_kept _ _ _).mono (by decide)) (fun _ => (State.setCtx_kept _ _ _).mono (by decide)))

theorem loadBlocks_cases (adm : Bool) (n : Nat) (bl : List Nat) (i : Nat) (seen : List Nat) (s : State) :
    (∃ t rl r, loadBlocks adm n bl i seen s = .ok t rl r) ∨ (∃ t st rl r, loadBlocks adm n bl i seen s = .failWith t st rl r) := by
  induction bl generalizing i seen s with
  | nil => exact .inl ⟨_, _, _, rfl⟩
  | cons b bl ih =>
    unfold loadBlocks
    dsimp only
    split
    · exact .inr ⟨_, _, _, _, rfl⟩
    · split
      · exact .inr ⟨_, _, _, _, rfl⟩
      · exact ih _ _ _
      · exact .inr ⟨_, _, _, _, rfl⟩

/-- What MON_LOAD replies: it fails and leaves the state as it is, or the blocks took effect. -/
theorem bodyMonLoad_cases (n : Nat) (bl : List Nat) (s : State) :
    (∃ st rl r, bodyMonLoad n bl s = .failWith s st rl r) ∨ (∃ t rl r, bodyMonLoad n bl s = .ok t rl r ∧ Kept [.mon] s t) := by
  have h2 : ∀ q : Reply, (∃ t rl r, q = .ok t rl r ∧ Kept [.mon] s t) ∨ (∃ t st rl r, q = .failWith t st rl r) →
      (∃ st rl r, (match q with | .failWith _ st rl r => .failWith s st rl r | r => r) = Reply.failWith s st rl r) ∨
      (∃ t rl r, (match q with | .failWith _ st rl r => .failWith s st rl r | r => r) = Reply.ok t rl r ∧ Kept [.mon] s t) := by
    rintro q (⟨t, rl, r, rfl, k⟩ | ⟨t, st, rl, r, rfl⟩)
    · exact .inr ⟨_, _, _, rfl, k⟩
    · exact .inl ⟨_, _, _, rfl⟩
  have h1 : ∀ adm, (∃ t rl r, loadBlocks adm n bl 0 [] s = .ok t rl r ∧ Kept [.mon] s t) ∨ (∃ t st rl r, loadBlocks adm n bl 0 [] s = .failWith t st rl r) :=
    fun adm => (loadBlocks_cases adm n bl 0 [] s).imp_left fun ⟨t, rl, r, e⟩ => ⟨t, rl, r, e, loadBlocks_ok e⟩
  unfold bodyMonLoad
  rcases h1 false with ⟨t, rl, r, e, k⟩ | ⟨t, st, rl, r, e⟩
  · rw [e]
    dsimp only
    split
    · exact .inr ⟨_, _, _, rfl, k⟩
    · exact h2 _ (h1 true)
  · rw [e]; exact .inl ⟨_, _, _, rfl⟩

theorem bodyMonLoad_keeps (n : Nat) (bl : List Nat) (s : State) : (bodyMonLoad n bl s).Keeps commandParts s := by
  rcases bodyMonLoad_cases n bl s with ⟨st, rl, r, e⟩ | ⟨t, rl, r, e, k⟩
  · rw [e]; exact Kept.refl _ _
  · rw [e]; exact k.mono (by decide)

/-- A command that comes to be, or ceases to be, in progress. -/
theorem Kept.progress {l : List Part} {s t : State} (hs : Part.cmds ∈ l) (h : Kept l s t) (v : List InProg) :
    Kept l s { t with host := { t.host with inProg := v } } := by
  have hr : SameHostRest t.host { t.host with inProg := v } := rfl
  exact (Kept.upd_host _ ⟨.inr hr, .inr ⟨rfl, rfl⟩, .inl hs⟩).2 h

theorem reply_keeps {l : List Part} {op : Nat} {c : Cmd} {s : State} {r : Reply} (hs : Part.cmds ∈ l) (h : r.Keeps l s) : Kept l s (reply op c s r) := by
  have hc : ∀ t k, Kept l s t → Kept l s (complete t c.session.val k) := fun t k g => Kept.chain (complete_kept _ _ _) (by simp [hs]) g
  cases r with
  | fail st => exact hc _ _ (Kept.refl _ _)
  | failWith t st rl r => exact hc _ _ h
  | ok t rl r => exact hc _ _ h
  | deferred t => exact hc _ _ h
  | later t u d => exact h.progress hs _
  | laterR t u d rg => exact h.progress hs _
  | silent t => exact h

/-- A command that waited for the supply is applied. -/
theorem ceilingApply_kept (s : State) (p : InProg) : Kept commandParts s (ceilingApply s p) := by
  unfold ceilingApply
  dsimp only
  generalize hu : ({ s with host := { s.host with inProg := s.host.inProg.erase p } } : State) = u
  have h : Kept commandParts s u := by rw [← hu]; exact Kept.progress (by decide) (Kept.refl _ _) _
  refine h.trans (reply_keeps (by decide) ?_)
  unfold ceilingBody
  dsimp only
  exact .ite (fun _ => bodySetLane_keeps _ _ _) (fun _ => .ite (fun _ => bodySetDdc_keeps _ _ _) (fun _ => .ite (fun _ => bodySetTrace_keeps _ _ _)
    (fun _ => .ite (fun _ => bodySetMap_keeps _ _ _) (fun _ => .ite (fun _ => ctxSet_keeps _ _ _ _) (fun _ => bodyMonLoad_keeps _ _ _)))))

end Sys2Proof.Machine
end

