-- ==== Sys2Proof/Laws/Grove.lean ====
section
/-! SUPPORT. The harness of a Grove instruction: what exec answers, from what the instruction itself does, and where it is not issued. -/

namespace Sys2Proof.Machine

theorem advance_core (s : State) (t n : Nat) : (advance s t).core n = s.core n := by
  unfold State.core; rw [(advance_posts s t).grove]

theorem grvCore_advance (s : State) (t n : Nat) : ((advance s t).core n).settle ((advance s t).core n).issued = grvCore n s := by
  rw [advance_core]; rfl

section
variable {i : Instr} {op t n : Nat} {used : List (Nat × Nat)} {w : BitVec 26} {s : State} {eff : State → GCore → Nat → GEff}

/-- The tests of the row, on the state at its tick. -/
theorem issues_eq (t n : Nat) (s : State) : grvIssues t n s = false ↔
    (((advance s t).core n).st ≠ 1 || ((advance s t).core n).stall ≠ 0 || decide ((advance s t).now < ((advance s t).core n).startAt) ||
      (((advance s t).core n).settle ((advance s t).core n).issued).handDue) = true := by
  rw [grvCore_advance, advance_core, advance_now]
  unfold grvIssues
  simp only [Bool.and_eq_false_iff, beq_eq_false_iff_ne, decide_eq_false_iff_not, Bool.not_eq_false', Bool.or_eq_true, decide_eq_true_eq, not_le]

/-- The row's effect, from what the instruction does. -/
theorem issue_eff (he : exec i s = issue op used t n w s eff) (h : grvReady op used t n w s = true) :
    s.pwr.down = false ∧ ∃ f, exec i s = act t s f ∧ f (advance s t) =
      (match eff (advance s t) (grvCore n s) w.toNat with
       | .fault c a => coreStop (advance s t) n c a
       | .ok s1 y => issued s1 n op w.toNat (grvCore n s) y
       | .halt y => coreStop (issued (advance s t) n op w.toNat (grvCore n s) y) n 0 0) := by
  unfold grvReady at h
  simp only [Bool.and_eq_true, Bool.not_eq_true'] at h
  obtain ⟨⟨⟨⟨h0, h1⟩, h2⟩, h3⟩, h4⟩ := h
  refine ⟨h0, _, he, ?_⟩
  have g1 : ¬(_ = true) := fun e => by rw [(issues_eq t n s).2 e] at h1; cases h1
  unfold grvPcOk at h2
  unfold grvThere at h3
  unfold grvLegal at h4
  simp only [Bool.and_eq_true, beq_iff_eq, decide_eq_true_eq, Bool.or_eq_true, Bool.not_eq_true'] at h2 h3 h4
  obtain ⟨⟨h5, h6⟩, h7⟩ := h4
  dsimp only
  rw [if_neg g1]
  rw [grvCore_advance]
  simp only [advance_core]
  have e2 : ¬(((s.core n).pc % 4 ≠ 0 || decide (0x40000 ≤ (s.core n).pc)) = true) := by simp [h2.1]; omega
  have e3 : (fetchFixed (advance s t) n (grvCore n s) && decide ((grvCore n s).fetch ≠ op * 2 ^ 26 + w.toNat)) = false := by
    rcases h3 with h | h <;> simp [h]
  have e6 : (decide ((s.core n).rep ≠ 0) && !repOk op) = false := by rcases h6 with h | h <;> simp [h]
  have e7 : (decide ((s.core n).slots ≠ 0) && slotBad op) = false := by rcases h7 with h | h <;> simp [h]
  exact (if_neg (by simpa using e2)).trans ((if_neg (by simpa using e3)).trans (if_neg (by simp only [h5, e6, e7]; simp)))

/-- An instruction that goes on. -/
theorem issue_ok {s1 : State} {y : GCore} (L : List Part) (he : exec i s = issue op used t n w s eff) (h : grvReady op used t n w s = true)
    (hb : eff (advance s t) (grvCore n s) w.toNat = .ok s1 y) (hg : Part.grove ∈ L ∧ Part.mem ∈ L) (hk : Kept L (advance s t) s1) :
    ∃ u, exec i s = .next u ∧ Follows (issued s1 n op w.toNat (grvCore n s) y) u ∧ Kept L s u := by
  obtain ⟨hup, f, e, hf⟩ := issue_eff he h
  rw [hb] at hf
  obtain ⟨u, h1, h2⟩ := row_row e hup hf (Kept.chain (issued_kept _ _ _ _ _ _) (by simp [hg]) hk)
  exact ⟨u, h1, h2.follows, h2.kept⟩

/-- An instruction that stops its core. -/
theorem issue_fault {c a : Nat} (he : exec i s = issue op used t n w s eff) (h : grvReady op used t n w s = true)
    (hb : eff (advance s t) (grvCore n s) w.toNat = .fault c a) : StopsCore i t n c a s := by
  obtain ⟨hup, f, e, hf⟩ := issue_eff he h
  rw [hb] at hf
  obtain ⟨u, h1, h2⟩ := row_row e hup hf (coreStop_kept _ _ _ _)
  exact ⟨u, h1, h2.follows, h2.kept⟩

/-- HALT. -/
theorem issue_halt {y : GCore} (he : exec i s = issue op used t n w s eff) (h : grvReady op used t n w s = true)
    (hb : eff (advance s t) (grvCore n s) w.toNat = .halt y) :
    ∃ u, exec i s = .next u ∧ Follows (coreStop (issued (advance s t) n op w.toNat (grvCore n s) y) n 0 0) u ∧ Kept commandParts s u := by
  obtain ⟨hup, f, e, hf⟩ := issue_eff he h
  rw [hb] at hf
  obtain ⟨u, h1, h2⟩ := row_row e hup hf (L := commandParts) (Kept.trans ((issued_kept _ _ _ _ _ _).mono (by decide)) (coreStop_kept _ _ _ _))
  exact ⟨u, h1, h2.follows, h2.kept⟩

/-- Where an instruction is not issued. -/
theorem issue_stops (he : exec i s = issue op used t n w s eff) (hup : s.pwr.down = false) : GroveStops op used i t n w s := by
  have stop : ∀ {c a x}, x = coreStop (advance s t) n c a → (∀ f, exec i s = act t s f → f (advance s t) = x → StopsCore i t n c a s) := by
    rintro c a x rfl f e hf
    obtain ⟨u, h1, h2⟩ := row_row (L := commandParts) e hup hf (coreStop_kept _ _ _ _)
    exact ⟨u, h1, h2.follows, h2.kept⟩
  have idle : ∀ f, exec i s = act t s f → f (advance s t) = advance s t → Idles i t s := by
    intro f e hf
    obtain ⟨u, h1, h2⟩ := row_row (L := []) e hup hf (Kept.refl _ _)
    exact ⟨u, h1, h2.follows, h2.kept⟩
  have run : grvIssues t n s = true → ¬((((advance s t).core n).st ≠ 1 || ((advance s t).core n).stall ≠ 0 ||
      decide ((advance s t).now < ((advance s t).core n).startAt) || (((advance s t).core n).settle ((advance s t).core n).issued).handDue) = true) :=
    fun h1 e => by rw [(issues_eq t n s).2 e] at h1; cases h1
  have pc : grvPcOk n s = true → ¬((((advance s t).core n).pc % 4 ≠ 0 || decide (0x40000 ≤ ((advance s t).core n).pc)) = true) := by
    intro h
    unfold grvPcOk at h
    simp only [Bool.and_eq_true, beq_iff_eq, decide_eq_true_eq] at h
    rw [advance_core]; simp [h.1]; omega
  refine ⟨fun h => idle _ he ?_, fun h1 h2 => stop rfl _ he ?_, fun h1 h2 h3 => ?_, fun h1 h2 h3 h4 => stop rfl _ he ?_⟩
  · dsimp only; rw [if_pos ((issues_eq t n s).1 h)]
  · dsimp only
    rw [if_neg (run h1), if_pos, advance_core]
    unfold grvPcOk at h2
    rw [advance_core]
    simpa [imp_iff_not_or] using h2
  · have g : (fetchFixed (advance s t) n (((advance s t).core n).settle ((advance s t).core n).issued) &&
        decide ((((advance s t).core n).settle ((advance s t).core n).issued).fetch ≠ op * 2 ^ 26 + w.toNat)) = true := by
      rw [grvCore_advance]
      unfold grvThere at h3
      simpa using h3
    split
    · rename_i h4
      refine idle _ he ?_
      dsimp only
      rw [if_neg (run h1), if_neg (pc h2), if_pos g, grvCore_advance, if_pos h4]
    · rename_i h4
      refine stop rfl _ he ?_
      dsimp only
      rw [if_neg (run h1), if_neg (pc h2), if_pos g, grvCore_advance, if_neg h4]
  · have g : ¬((fetchFixed (advance s t) n (((advance s t).core n).settle ((advance s t).core n).issued) &&
        decide ((((advance s t).core n).settle ((advance s t).core n).issued).fetch ≠ op * 2 ^ 26 + w.toNat)) = true) := by
      rw [grvCore_advance]
      unfold grvThere at h3
      simpa [or_iff_not_imp_left] using h3
    dsimp only
    rw [if_neg (run h1), if_neg (pc h2), if_neg g, if_pos]
    unfold grvLegal at h4
    rw [advance_core]
    simp only [Bool.and_eq_false_iff, beq_eq_false_iff_ne, Bool.or_eq_false_iff, Bool.not_eq_false'] at h4
    simp only [Bool.or_eq_true, Bool.and_eq_true, decide_eq_true_eq, Bool.not_eq_true', or_assoc] at h4 ⊢
    exact h4

end

end Sys2Proof.Machine
end

