-- ==== Sys2Proof/Laws/Harness.lean ====
section
/-! SUPPORT. What the harness of every row does whatever the row's own effect: it answers a next state, leaves the queue, moves the Canopy count
on and hands every posted event over. -/

namespace Sys2Proof.Machine

theorem setMsixE_evtNow (s : State) (n : Nat) (v : MsixEntry) : (s.setMsixE n v).host.evtNow = s.host.evtNow := rfl

theorem signal_evtNow (s : State) (v : Nat) : (signal s v).host.evtNow = s.host.evtNow := by
  unfold signal
  split
  · rfl
  · dsimp only; split <;> exact setMsixE_evtNow _ _ _

theorem evtWrite_evtNow (s : State) (e : EventRecord) : (evtWrite s e).host.evtNow = s.host.evtNow := by
  unfold evtWrite
  refine (apply_ite (fun u : State => u.host.evtNow) _ _ _).trans ?_
  refine (ite_congr rfl (fun _ => rfl) fun _ => ?_).trans (ite_self _)
  dsimp only
  refine (apply_ite (fun u : State => u.host.evtNow) _ _ _).trans ?_
  exact (ite_congr rfl (fun _ => signal_evtNow _ _) fun _ => rfl).trans (ite_self _)

theorem evtSend_evtNow (s : State) (e : EventRecord) : (evtSend s e).host.evtNow = s.host.evtNow := by
  unfold evtSend
  split
  · rfl
  · split
    · rfl
    · split
      · rfl
      · exact evtWrite_evtNow _ _

theorem perfCount_host (s : State) (src inst v : Nat) : (perfCount s src inst v).1.host = s.host := by
  unfold perfCount
  generalize List.range 64 = l
  have h : ∀ a : State × List Nat, a.1.host = s.host → (l.foldl (fun (a : State × List Nat) k =>
      let c := a.1.perfC k
      if c.takes src inst && v != 0 then
        let c' := c.count v
        (a.1.setPerfC k c', if c'.sat && !c.sat then a.2 ++ [k] else a.2)
      else a) a).1.host = s.host := by
    induction l with
    | nil => intro a h; exact h
    | cons k l ih =>
      intro a h
      rw [List.foldl_cons]
      refine ih _ ?_
      dsimp only
      split <;> exact h
  exact h (s, []) rfl

theorem evtSendAll_evtNow (n : Nat) (s : State) (l : List EventRecord) : (evtSendAll n s l).host.evtNow = s.host.evtNow := by
  induction n generalizing s l with
  | zero => rfl
  | succ n ih =>
    cases l with
    | nil => rfl
    | cons e r =>
      unfold evtSendAll
      dsimp only
      rw [ih]
      split
      · exact evtSend_evtNow _ _
      · rw [perfCount_host]; exact evtSend_evtNow _ _

/-- Handing the events of the ticks before `T` over leaves those of later ticks. -/
theorem flushEvents_evtNow (s : State) (T : Tick) : (flushEvents s T).host.evtNow = s.host.evtNow.filter (fun e => decide (T ≤ e.2.time)) := by
  unfold flushEvents
  exact evtSendAll_evtNow _ _ _

/-- The event tick stays while events are handed over. -/
theorem flushEvents_evTick (s : State) (T : Tick) : (flushEvents s T).evTick = s.evTick := by
  have h := flushEvents_posts s T
  unfold State.evTick
  rw [h.now, h.clk]

/-- After the events of earlier ticks have been handed over, none is left. -/
theorem flushEvents_sent (s : State) : EventsSent (flushEvents s s.evTick) := by
  intro e he
  rw [flushEvents_evTick]
  rw [flushEvents_evtNow] at he
  exact of_decide_eq_true (List.mem_filter.1 he).2

/-- A row that acts leaves no event behind. -/
theorem act_sends {t : Tick} {s u : State} {f : State → State} (hs : EventsSent s) (h : act t s f = .next u) : EventsSent u := by
  unfold act at h
  split at h
  · cases h; exact hs
  · cases h; exact flushEvents_sent _

/-- The Canopy count never falls with time. -/
theorem advance_le (s : State) (t : Tick) : s.now ≤ (advance s t).now := by
  rw [advance_now]
  unfold actsAt
  split
  · exact Nat.le_max_left _ _
  · split
    · rename_i h
      simp only [Bool.and_eq_true, decide_eq_true_eq] at h
      exact Nat.le_trans (Nat.le_of_lt h.1) (Nat.le_trans h.2 (Nat.le_max_right _ _))
    · exact Nat.le_max_left _ _

/-- A row that acts answers. -/
theorem act_answers (t : Tick) (s : State) (f : State → State) :
    ∃ u, act t s f = .next u ∧ u.pending = s.pending ∧ s.freeNo ≤ u.freeNo ∧ s.now ≤ u.now := by
  by_cases hd : s.pwr.down = true
  · exact ⟨_, act_down hd t f, rfl, Nat.le_refl _, Nat.le_refl _⟩
  · refine ⟨_, act_up (by simpa using hd) t f, settle_pending s t f, ?_, ?_⟩
    · rw [settle_freeNo]; exact Nat.le_max_left _ _
    · rw [settle_now, ← advance_now s t]
      exact Nat.le_trans (advance_le s t) (Nat.le_max_left _ _)

/-- What a row that acts answers, stated of the row. -/
theorem Acts.answers {s : State} {o : Host.Outcome State Fault Refusal} (h : Acts s o) :
    ∃ u, o = .next u ∧ u.pending = s.pending ∧ s.freeNo ≤ u.freeNo ∧ s.now ≤ u.now := by
  obtain ⟨t, f, rfl⟩ := h
  exact act_answers t s f

/-- A row that acts leaves no event behind, stated of the row. -/
theorem Acts.sends {s u : State} {o : Host.Outcome State Fault Refusal} (h : Acts s o) (hs : EventsSent s) (hu : o = .next u) : EventsSent u := by
  obtain ⟨t, f, rfl⟩ := h
  exact act_sends hs hu

/-- A row that acts does not, without power or in reset. -/
theorem Acts.stays {s : State} {o : Host.Outcome State Fault Refusal} (h : Acts s o) (hd : s.pwr.down = true) : o = .next s := by
  obtain ⟨t, f, rfl⟩ := h
  exact act_down hd t f

/-- A row that may reset the engine answers. -/
theorem actReset_answers (t : Tick) (s : State) (f : State → State) :
    ∃ u, actReset t s f = .next u ∧ u.pending = s.pending ∧ s.freeNo ≤ u.freeNo :=
  ⟨_, rfl, rfl, Nat.le_max_left _ _⟩

/-- A row that may reset the engine leaves no event behind where its own effect does not. -/
theorem actReset_sends {t : Tick} {s u : State} {f : State → State} (hf : EventsSent (f (flushAll (advance s t)))) (h : actReset t s f = .next u) :
    EventsSent u := by
  unfold actReset at h
  cases h
  exact hf

end Sys2Proof.Machine
end

