-- ==== Sys2Proof/Laws/Commands.lean ====
section
/-! SUPPORT. What a statement about one row cites: from what the row's own rules reply, the state that exec answers. The hypotheses come in the
order in which they can be settled: the frame's parts first, then the reply, the checks, and the frame. -/

namespace Sys2Proof.Machine

/-- A field of the block is a field of the operand. -/
theorem fld_arg (p : Block) (u lo w : Nat) (h : lo + w ≤ 64 * u) : fld (blk p u) lo w = arg p lo w := fld_blk p u lo w h

/-- A bit of the block is a bit of the operand. -/
theorem bit_argBit (p : Block) (u i : Nat) (h : i < 64 * u) : bit (blk p u) i = argBit p i := bit_blk p u i h

/-- A ZCI command that is applied and completes at once. -/
theorem command_ok {op units : Nat} {used : Nat → List (Nat × Nat)} {c : Cmd} {p : Block} {s : State} {i : Instr} {body : Nat → State → Reply}
    (L : List Part) (he : exec i s = zci op units used c p s body) (hop : opKnown op = true)
    (h : zciReady op units used c p s = true) (hh : Part.ses ∉ L) {s' : State} {rl r : Nat} {l : List (Bool × Nat)}
    (hb : body (blk p units) (seen op c s) = chk l (.ok s' rl r)) (hl : ∀ x ∈ l, x.1 = false)
    (hk : Kept L (seen op c s) s') :
    ∃ t, exec i s = .next t ∧ Answered c (cplOf op c 0 rl r s) s' t ∧ Left c L s s' t := ok_row he hop h hb hl hk hh

/-- A ZCI command that is applied and completes later. -/
theorem command_later {op units : Nat} {used : Nat → List (Nat × Nat)} {c : Cmd} {p : Block} {s : State} {i : Instr} {body : Nat → State → Reply}
    (L : List Part) (he : exec i s = zci op units used c p s body) (hop : opKnown op = true)
    (h : zciReady op units used c p s = true) (hh : Part.ses ∉ L) {s' : State} {u : Nat} {d : List Nat} {l : List (Bool × Nat)}
    (hb : body (blk p units) (seen op c s) = chk l (.later s' u d)) (hl : ∀ x ∈ l, x.1 = false)
    (hk : Kept L (seen op c s) s') :
    ∃ t, exec i s = .next t ∧ Waits op c u d [] s' s t ∧ Left c L s s' t := later_row he hop h hb hl hk hh

/-- A ZCI command that is applied and completes later, naming regions. -/
theorem command_laterR {op units : Nat} {used : Nat → List (Nat × Nat)} {c : Cmd} {p : Block} {s : State} {i : Instr} {body : Nat → State → Reply}
    (L : List Part) (he : exec i s = zci op units used c p s body) (hop : opKnown op = true)
    (h : zciReady op units used c p s = true) (hh : Part.ses ∉ L) {s' : State} {u : Nat} {d rg : List Nat} {l : List (Bool × Nat)}
    (hb : body (blk p units) (seen op c s) = chk l (.laterR s' u d rg)) (hl : ∀ x ∈ l, x.1 = false)
    (hk : Kept L (seen op c s) s') :
    ∃ t, exec i s = .next t ∧ Waits op c u d rg s' s t ∧ Left c L s s' t := laterR_row he hop h hb hl hk hh

/-- A row that is no command, of an engine that is up. -/
theorem row_effect {i : Instr} {t : Tick} {s : State} {f : State → State} (L : List Part) (he : exec i s = act t s f) (hup : s.pwr.down = false)
    {x : State} (hf : f (advance s t) = x) (hk : Kept L (advance s t) x) : ∃ u, exec i s = .next u ∧ Settled L t s x u := row_row he hup hf hk

/-- A signed field of the block is a signed field of the operand. -/
theorem sfld_sarg (p : Block) (u lo w : Nat) (h : lo + w ≤ 64 * u) : sfld (blk p u) lo w = sarg p lo w := sfld_blk p u lo w h

/-- A ZCI command that a check refuses. -/
theorem command_refused {op units : Nat} {used : Nat → List (Nat × Nat)} {c : Cmd} {p : Block} {s : State} {i : Instr} {body : Nat → State → Reply}
    {st : Nat} (he : exec i s = zci op units used c p s body) (hop : opKnown op = true) (h : zciReady op units used c p s = true)
    (_ : op = op) (hb : body (blk p units) (seen op c s) = .fail st) : ∃ t, exec i s = .next t ∧ Refused op c st s t := refused_row he hop h hb

/-- A ZCI command that fails with an effect or a result of its own. -/
theorem command_failWith {op units : Nat} {used : Nat → List (Nat × Nat)} {c : Cmd} {p : Block} {s : State} {i : Instr} {body : Nat → State → Reply}
    (L : List Part) (he : exec i s = zci op units used c p s body) (hop : opKnown op = true)
    (h : zciReady op units used c p s = true) (hh : Part.ses ∉ L) {s' : State} {st rl r : Nat} {l : List (Bool × Nat)}
    (hb : body (blk p units) (seen op c s) = chk l (.failWith s' st rl r)) (hl : ∀ x ∈ l, x.1 = false)
    (hk : Kept L (seen op c s) s') :
    ∃ t, exec i s = .next t ∧ Answered c (cplOf op c st rl r s) s' t ∧ Left c L s s' t := failWith_row he hop h (hb.trans (chk_pass hl)) hk hh

/-- A ZCI command that completes with DEFERRED = 1. -/
theorem command_deferred {op units : Nat} {used : Nat → List (Nat × Nat)} {c : Cmd} {p : Block} {s : State} {i : Instr} {body : Nat → State → Reply}
    (L : List Part) (he : exec i s = zci op units used c p s body) (hop : opKnown op = true)
    (h : zciReady op units used c p s = true) (hh : Part.ses ∉ L) {s' : State} {l : List (Bool × Nat)}
    (hb : body (blk p units) (seen op c s) = chk l (.deferred s')) (hl : ∀ x ∈ l, x.1 = false)
    (hk : Kept L (seen op c s) s') :
    ∃ t, exec i s = .next t ∧ Answered c { cplOf op c 0 0 0 s with deferred := true } s' t ∧ Left c L s s' t := deferred_row he hop h (hb.trans (chk_pass hl)) hk hh

/-- Renewing CHALLENGE keeps what two states share. -/
theorem renewChallenge_quiet (a b : State) (h : Quiet a b) : Quiet (renewChallenge a) (renewChallenge b) := by
  unfold renewChallenge
  constructor <;> first | exact h.1 | exact h.2 | simp [h.fe, h.sec, h.clk, h.cal, h.spec, h.acq, h.disp, h.mon, h.tiu, h.grove, h.mem, h.move, h.aux, h.ctl, h.flt, h.pwr, h.freeNo, h.perf]

/-- Renewing CHALLENGE writes the security part alone. -/
theorem renewChallenge_kept1 (a : State) : Kept [.sec] a (renewChallenge a) := (Kept.upd_sec (by decide) _).2 (Kept.refl _ _)

/-- Time leaves the running slot. -/
theorem advance_slot (s : State) (t : Tick) : (advance s t).host.slot = s.host.slot := by rw [(advance_host s t).1]

/-- Time leaves an activation. -/
theorem advance_activating (s : State) (t : Tick) : (advance s t).host.activating = s.host.activating := by rw [(advance_host s t).1]

/-- Writing events leaves the running slot. -/
theorem flushAll_slot (s : State) : (flushAll s).host.slot = s.host.slot := by rw [(flushAll_posts s).host.1]

/-- Writing events leaves an activation. -/
theorem flushAll_activating (s : State) : (flushAll s).host.activating = s.host.activating := by rw [(flushAll_posts s).host.1]

/-- RETURN erases in the security and calibration parts. -/
theorem eraseField_kept1 (s : State) : Kept [.sec, .cal, .host] s (eraseField s) := by
  unfold eraseField
  exact ⟨by simp [SameParts], .inr ⟨rfl, rfl⟩, .inr (.refl _), .inl (by decide), .inr (PerfCounts.refl _)⟩

/-- No block enables, or the supply is up. -/
theorem any_bit16_false {l : List Nat} {v : Nat} (h : ¬(l.any (fun b => bit b 16) = true ∧ v < 850)) : (l.any (fun b => bit b 16) && decide (v < 850)) = false := by
  refine Bool.eq_false_iff.2 fun g => h ?_
  rw [Bool.and_eq_true, decide_eq_true_eq] at g; exact g

/-- A change of the host interface that leaves sessions and commands alone. -/
theorem kept_hostFree {s : State} (h : HostIf) (h1 : h.sessions = s.host.sessions) (h2 : h.cplWait = s.host.cplWait) (h3 : h.inProg = s.host.inProg) (h4 : h.busMaster = s.host.busMaster) :
    Kept [.host] s { s with host := h } := ⟨by simp [SameParts], .inr ⟨h1, h4⟩, .inr ⟨by rw [h2], h3⟩, .inl (by decide), .inr (PerfCounts.refl _)⟩

/-- A row of an engine that is up answers a next state that follows what its effect leaves. -/
theorem act_follows {i : Instr} {t : Tick} {s x : State} {f : State → State} (he : exec i s = act t s f) (hup : s.pwr.down = false)
    (hf : f (advance s t) = x) : ∃ u, exec i s = .next u ∧ Follows x u :=
  ⟨_, he.trans (act_up hup t f), hf ▸ follows_settle' s t f⟩

/-- While the engine is ready or in the fatal state, a register write acts (R451). -/
theorem hostWrite_runs {s : State} {off : Nat} {f : State → State} (h : s.host.engine = 1 ∨ s.host.engine = 2) : hostWrite s off f = f s := by
  rcases h with h | h <;> simp [hostWrite, h]

end Sys2Proof.Machine
end

