-- ==== Sys2Proof/WellFormed.lean ====
section
/-! DEFINITION. Well-formed commands: every operand that is a plain number lies within the width of its field. -/

namespace Sys2Proof

/-- The tick of a command fits the 64-bit Canopy count (R245). -/
def Cmd.wf (c : Cmd) : Bool := decide (c.t < 2^64)

/-- A number below a bound. -/
def ltN (v b : Nat) : Bool := decide (v < b)

/-- An integer whose magnitude is below a bound. -/
def ltI (v : Int) (b : Nat) : Bool := decide (v.natAbs < b)

/-- Every number of a list is below a bound. -/
def ltL (l : List Nat) (b : Nat) : Bool := l.all (fun x => ltN x b)

/-- A number of `w` bits; an integer and a list of numbers likewise. -/
def fitN (v w : Nat) : Bool := ltN v (2^w)
def fitI (v : Int) (w : Nat) : Bool := ltI v (2^w)
def fitL (l : List Nat) (w : Nat) : Bool := ltL l (2^w)

/-- What a calibration step measured lies within 2,000 dB and below 100 GHz, its values within 32 bits. -/
def Measured.wf (m : Measured) : Bool :=
  fitI m.level 31 && fitI m.level1 31 && fitI m.level2 31 && fitI m.purity 31 && ltN m.freq 100000000000000 && fitL m.vals 32 && fitL m.vals1 32 && fitL m.vals2 32

/-- Measured margins: pairs of a path below 33 and a margin of at most 100 %, in 0.01 %. -/
def ltM (l : List (Nat × Nat)) : Bool := l.all (fun e => ltN e.1 33 && ltN e.2 10001)

/-- Every operand of a row lies within the bound that its field has in the spec. -/
def Instr.wf : Instr → Bool
  | .sysGetInfo c _ => c.wf
  | .sysAlloc c _ => c.wf
  | .sysFree c _ => c.wf
  | .sysGetAlloc c _ => c.wf
  | .sysFwStage c _ img => c.wf && ltL img 256
  | .sysFwActivate c _ => c.wf
  | .sysReset c _ => c.wf
  | .sysNop c _ => c.wf
  | .feSetMode c _ => c.wf
  | .feSetSource c _ => c.wf
  | .feSetAtten c _ => c.wf
  | .feStream c _ => c.wf
  | .feGetStatus c _ => c.wf
  | .feSetProtect c _ => c.wf
  | .clkSetRef c _ => c.wf
  | .clkSetPll c _ => c.wf
  | .clkBuildHops c _ => c.wf
  | .clkSetPps c _ => c.wf
  | .clkSetTime c _ => c.wf
  | .clkGetStatus c _ => c.wf
  | .calRun c _ => c.wf
  | .calSetBlind c _ => c.wf
  | .calRestore c _ => c.wf
  | .calRead c _ => c.wf
  | .calGetRecord c _ => c.wf
  | .calGetStatus c _ => c.wf
  | .specSetLane c _ => c.wf
  | .specLoadWindow c _ data => c.wf && fitL data 32
  | .specSetDdc c _ => c.wf
  | .specTuneDdc c _ => c.wf
  | .specSetTrace c _ => c.wf
  | .specSetOutput c _ => c.wf
  | .specGetStatus c _ => c.wf
  | .specSetGovernor c _ => c.wf
  | .acqSetTerm c _ => c.wf
  | .acqSetCombiner c _ => c.wf
  | .acqSetCapture c _ => c.wf
  | .acqArm c _ => c.wf
  | .acqStop c _ => c.wf
  | .acqForce c _ => c.wf
  | .acqLoadMask c _ data => c.wf && fitL data 64
  | .acqSetMask c _ => c.wf
  | .acqSetTest c _ => c.wf
  | .acqSetEvtOut c _ => c.wf
  | .acqGetStatus c _ => c.wf
  | .densSetMap c _ => c.wf
  | .densClear c _ => c.wf
  | .densRead c _ => c.wf
  | .densSetPigment c _ data => c.wf && fitL data 32
  | .dispSetMode c _ => c.wf
  | .dispSetLayer c _ => c.wf
  | .dispSetEvents c _ => c.wf
  | .dispFallow c _ => c.wf
  | .dispAux c _ => c.wf
  | .dispGetStatus c _ => c.wf
  | .densGetStatus c _ => c.wf
  | .monSetContext c _ => c.wf
  | .monLoad c _ data => c.wf && fitL data 256
  | .monClear c _ => c.wf
  | .monSnapshot c _ => c.wf
  | .monRead c _ => c.wf
  | .monSetLog c _ => c.wf
  | .monGetStatus c _ => c.wf
  | .tiuSetInput c _ => c.wf
  | .tiuSetStats c _ => c.wf
  | .tiuGetStats c _ => c.wf
  | .tiuRead c _ => c.wf
  | .tiuSetDrain c _ => c.wf
  | .tiuCal c _ => c.wf
  | .tiuGetStatus c _ => c.wf
  | .groveLoad c _ data => c.wf && ltL data 256
  | .groveStart c _ => c.wf
  | .groveStop c _ => c.wf
  | .groveSetShadow c _ => c.wf
  | .groveSetFeed c _ => c.wf
  | .groveSetBarrier c _ => c.wf
  | .groveRead c _ => c.wf
  | .groveGetStatus c _ => c.wf
  | .groveGetFeed c _ => c.wf
  | .memAlloc c _ => c.wf
  | .memFree c _ => c.wf
  | .memSetRing c _ => c.wf
  | .memRingAck c _ => c.wf
  | .memRingStatus c _ => c.wf
  | .memCommons c _ => c.wf
  | .memRetire c _ => c.wf
  | .memGetStatus c _ => c.wf
  | .memGetPoison c _ => c.wf
  | .dmaSetChannel c _ => c.wf
  | .dmaSetShadow c _ => c.wf
  | .dmaRaise c _ => c.wf
  | .dmaSetTimer c _ => c.wf
  | .dmaGetStatus c _ => c.wf
  | .streamSet c _ => c.wf
  | .storSetPort c _ => c.wf
  | .storFormat c _ => c.wf
  | .storMount c _ => c.wf
  | .storUnmount c _ => c.wf
  | .recOpen c _ => c.wf
  | .recClose c _ => c.wf
  | .storGetStatus c _ => c.wf
  | .storLogPage c _ => c.wf
  | .auxSetRef c _ => c.wf
  | .auxSetInput c _ => c.wf
  | .auxSetSeq c _ => c.wf
  | .auxGetStatus c _ => c.wf
  | .ctlSetOutput c _ => c.wf
  | .ctlWrite c _ => c.wf
  | .ctlGetStatus c _ => c.wf
  | .fltGetStatus c _ => c.wf
  | .fltSetSeverity c _ => c.wf
  | .fltGetRecord c _ => c.wf
  | .fltClear c _ => c.wf
  | .fltForce c _ => c.wf
  | .secGetCert c _ => c.wf
  | .secAttest c _ => c.wf
  | .secSetLifecycle c _ auth => c.wf && ltL auth 256
  | .secGetStatus c _ => c.wf
  | .perfSetCounter c _ => c.wf
  | .perfControl c _ => c.wf
  | .perfRead c _ => c.wf
  | .gNop t core _ => fitN t 64 && ltN core 64
  | .gAdd t core _ => fitN t 64 && ltN core 64
  | .gSub t core _ => fitN t 64 && ltN core 64
  | .gAnd t core _ => fitN t 64 && ltN core 64
  | .gOr t core _ => fitN t 64 && ltN core 64
  | .gXor t core _ => fitN t 64 && ltN core 64
  | .gShl t core _ => fitN t 64 && ltN core 64
  | .gShr t core _ => fitN t 64 && ltN core 64
  | .gSar t core _ => fitN t 64 && ltN core 64
  | .gSlt t core _ => fitN t 64 && ltN core 64
  | .gSltu t core _ => fitN t 64 && ltN core 64
  | .gMul t core _ => fitN t 64 && ltN core 64
  | .gAddi t core _ => fitN t 64 && ltN core 64
  | .gAndi t core _ => fitN t 64 && ltN core 64
  | .gOri t core _ => fitN t 64 && ltN core 64
  | .gShi t core _ => fitN t 64 && ltN core 64
  | .gMovi t core _ => fitN t 64 && ltN core 64
  | .gMovhi t core _ => fitN t 64 && ltN core 64
  | .gCmul t core _ => fitN t 64 && ltN core 64
  | .gCadds t core _ => fitN t 64 && ltN core 64
  | .gCsubs t core _ => fitN t 64 && ltN core 64
  | .gMovr t core _ => fitN t 64 && ltN core 64
  | .gSmov t core _ => fitN t 64 && ltN core 64
  | .gMovsr t core _ => fitN t 64 && ltN core 64
  | .gMovrs t core _ => fitN t 64 && ltN core 64
  | .gLd t core _ => fitN t 64 && ltN core 64
  | .gLdh t core _ => fitN t 64 && ltN core 64
  | .gSt t core _ => fitN t 64 && ltN core 64
  | .gSth t core _ => fitN t 64 && ltN core 64
  | .gSta t core _ => fitN t 64 && ltN core 64
  | .gVsta t core _ => fitN t 64 && ltN core 64
  | .gRda t core _ => fitN t 64 && ltN core 64
  | .gVmacD t core _ => fitN t 64 && ltN core 64
  | .gVmacP t core _ => fitN t 64 && ltN core 64
  | .gVmagP t core _ => fitN t 64 && ltN core 64
  | .gCmac t core _ => fitN t 64 && ltN core 64
  | .gBr t core _ => fitN t 64 && ltN core 64
  | .gCall t core _ => fitN t 64 && ltN core 64
  | .gJr t core _ => fitN t 64 && ltN core 64
  | .gRepeat t core _ => fitN t 64 && ltN core 64
  | .gRepr t core _ => fitN t 64 && ltN core 64
  | .gReti t core _ => fitN t 64 && ltN core 64
  | .gWait t core _ => fitN t 64 && ltN core 64
  | .gHalt t core _ => fitN t 64 && ltN core 64
  | .gBar t core _ => fitN t 64 && ltN core 64
  | .gFrel t core _ => fitN t 64 && ltN core 64
  | .gSync t core _ => fitN t 64 && ltN core 64
  | .gNotify t core _ => fitN t 64 && ltN core 64
  | .gPost t core _ => fitN t 64 && ltN core 64
  | .sqTailWrite t n v => fitN t 64 && ltN n 16 && fitN v 32
  | .cqHeadWrite t n v => fitN t 64 && ltN n 16 && fitN v 32
  | .evtHeadWrite t v => fitN t 64 && fitN v 32
  | .strdbWrite t n v => fitN t 64 && ltN n 32 && fitN v 32
  | .qctlOpen t n => fitN t 64 && ltN n 16
  | .qctlReclaim t n => fitN t 64 && ltN n 16
  | .qctlClose t n => fitN t 64 && ltN n 16
  | .leaseWrite t n v => fitN t 64 && ltN n 16 && fitN v 32
  | .evtCtlWrite t v => fitN t 64 && fitN v 32
  | .time0Read t => fitN t 64
  | .serial0Read t => fitN t 64
  | .latchedWordRead t k => fitN t 64 && ltN k 5
  | .auxDataRead t => fitN t 64
  | .ctlCodeWrite t n v => fitN t 64 && ltN n 8 && fitN v 32
  | .registerWrite t off v kind => fitN t 64 && ltN off 131072 && fitN v 32 && ltN kind 3
  | .commandFetch c _ res => c.wf && ltN res 3
  | .commandTimeout t n idx => fitN t 64 && ltN n 16 && ltN idx 4096
  | .completionSignalHoldEnd t n => fitN t 64 && ltN n 16
  | .eventDelayExpiry t => fitN t 64
  | .sysLease t n => fitN t 64 && ltN n 16
  | .leaseExpiry t n => fitN t 64 && ltN n 16
  | .releaseEnd t n => fitN t 64 && ltN n 16
  | .hostInterfaceReset t cause => fitN t 64 && ltN cause 4
  | .heartbeatAdvance t => fitN t 64
  | .grainTag t id codes => fitN t 64 && ltN id 6 && ltL codes 4096
  | .overloadEnd t id => fitN t 64 && ltN id 6
  | .epochRollover t id => fitN t 64 && ltN id 32
  | .grainDelivery t k id n tid _ fill => fitN t 64 && ltN k 256 && ltN id 32 && fitN n 64 && ltN tid 256 && ltN fill 2000001
  | .acqArmAtCt t => fitN t 64
  | .spectrumCompute t c margin => fitN t 64 && ltN c 12 && ltN margin 10001
  | .timeTestVerdict t a => fitN t 64 && ltN a 8
  | .evtOutPulse t => fitN t 64
  | .evtOutPulseEnd t => fitN t 64
  | .govRaiseStep t ms => fitN t 64 && ltM ms
  | .govLowerStep t ms => fitN t 64 && ltM ms
  | .govShed t ms => fitN t 64 && ltM ms
  | .govRestore t ms => fitN t 64 && ltM ms
  | .decaySweep t => fitN t 64
  | .densReadCopyEnd t idx => fitN t 64 && ltN idx 4
  | .monitorRound t => fitN t 64
  | .monEvlost t => fitN t 64
  | .monSnapshotWriteEnd t => fitN t 64
  | .protectTrip t idx => fitN t 64 && ltN idx 4
  | .feStreamAtCt t => fitN t 64
  | .pllLockLoss t k _ => fitN t 64 && ltN k 4
  | .pllSyncEdge t k found => fitN t 64 && ltN k 4 && fitL found 16
  | .relockAttemptFail t k found => fitN t 64 && ltN k 4 && fitL found 16
  | .refInLoss t _ ppm => fitN t 64 && fitI ppm 31
  | .refLoopLock t => fitN t 64
  | .nodeLoss t => fitN t 64
  | .nodeRecovery t => fitN t 64
  | .inputEdge t n _ c => fitN t 64 && ltN n 9 && ltN c 192
  | .ppsLoss t => fitN t 64
  | .pendingEdgeClose t u => fitN t 64 && ltN u 4
  | .tiuLost t n => fitN t 64 && ltN n 9
  | .queueDrain t n k => fitN t 64 && ltN n 9 && ltN k 4097
  | .tiuCalTestEnd t n counts => fitN t 64 && ltN n 9 && fitL counts 22
  | .calStepEnd t tgt m => fitN t 64 && ltN tgt 6 && m.wf
  | .blindRun t tgt => fitN t 64 && ltN tgt 6
  | .calDrift t tgt tj => fitN t 64 && ltN tgt 6 && ltI tj 32768
  | .handOver t core => fitN t 64 && ltN core 64
  | .handlerReturn t core => fitN t 64 && ltN core 64
  | .waitEnd t core => fitN t 64 && ltN core 64
  | .commonsLoadReturn t core => fitN t 64 && ltN core 64
  | .syncComplete t core => fitN t 64 && ltN core 64
  | .timerMatch t core => fitN t 64 && ltN core 64
  | .feedCopyBlock t feed => fitN t 64 && ltN feed 32
  | .feedWriteOut t feed => fitN t 64 && ltN feed 32
  | .refresh t => fitN t 64
  | .patrolScrub t a => fitN t 64 && fitN a 36
  | .correctableError t a master inst => fitN t 64 && fitN a 36 && ltN master 14 && ltN inst 256
  | .uncorrectableError t a _ master inst => fitN t 64 && fitN a 36 && ltN master 14 && ltN inst 256
  | .rankSwitchOver t => fitN t 64
  | .migrationRowCopy t bad => fitN t 64 && ltL bad 4
  | .memRingLost t => fitN t 64
  | .zeroingDone t n => fitN t 64 && fitN n 36
  | .onDieError t kind n addr core _ => fitN t 64 && ltN kind 6 && ltN n 65536 && fitN addr 32 && ltN core 129
  | .dmaHandover t n => fitN t 64 && ltN n 32
  | .dmaBurst t n data _ => fitN t 64 && ltN n 32 && ltL data 256
  | .descriptorEnd t n => fitN t 64 && ltN n 32
  | .timerLinePulse t l => fitN t 64 && ltN l 16
  | .streamRecordCopy t n held => fitN t 64 && ltN n 32 && ltN held 2097153
  | .checkpoint t => fitN t 64
  | .stripeComplete t q held => fitN t 64 && fitN q 32 && ltN held 4194305
  | .mountMeasurementEnd t rates => fitN t 64 && fitL rates 32
  | .driveFail t n cause status => fitN t 64 && ltN n 4 && ltN cause 5 && fitN status 16
  | .dispLineStart t p _ under _ => fitN t 64 && ltN p 2 && ltL under 4
  | .frameDone t p => fitN t 64 && ltN p 2
  | .hpdLoss t p => fitN t 64 && ltN p 2
  | .hpdRestore t p _ => fitN t 64 && ltN p 2
  | .hpdIrq t p _ _ _ => fitN t 64 && ltN p 2
  | .panelHpdWait t p _ lanes rate _ => fitN t 64 && ltN p 2 && ltN lanes 32 && ltN rate 4
  | .bldelayExpiry t p => fitN t 64 && ltN p 2
  | .vddenOffDelay t p => fitN t 64 && ltN p 2
  | .auxPassStart t => fitN t 64
  | .auxConversion t v vref => fitN t 64 && fitI v 32 && fitN vref 32 && vref != 0
  | .auxLimitPeriodEnd t => fitN t 64
  | .auxOvr t => fitN t 64
  | .auxRef t v => fitN t 64 && fitN v 32
  | .ctlStep t n => fitN t 64 && ltN n 8
  | .ctlRangePhase t n => fitN t 64 && ltN n 8
  | .ctlTimedWrite t => fitN t 64
  | .ctlFault t n _ => fitN t 64 && ltN n 8
  | .groveStartAtCt t => fitN t 64
  | .perfControlAtCt t => fitN t 64
  | .perfSat t k v => fitN t 64 && ltN k 64 && fitN v 48
  | .forcedRaise t items => fitN t 64 && ltL items 65536
  | .suppressionWindowClose t => fitN t 64
  | .powerOn t _ tj => fitN t 64 && ltI tj 32768
  | .deviceReset t _ => fitN t 64
  | .powerDown t => fitN t 64
  | .thermalStage t rs => fitN t 64 && rs.length == 8 && rs.all (ltI · 32768)
  | .thermalStageExit t tj => fitN t 64 && ltI tj 32768
  | .thermalTrip t rs => fitN t 64 && rs.length == 8 && rs.all (ltI · 32768)
  | .faultDetection t id mode items => fitN t 64 && fitN id 16 && ltN mode 3 && ltL items 65536
  | .railFault t k _ _ => fitN t 64 && ltN k 12
  | .tiuTableUncal t n tj => fitN t 64 && ltN n 9 && ltI tj 32768
  | .ctlFaultClear t n _ => fitN t 64 && ltN n 8
  | .vddenLowTimeExpiry t p => fitN t 64 && ltN p 2
  | .dispLinkTrainingEnd t p _ => fitN t 64 && ltN p 2
  | .dispAuxReply t p r data => fitN t 64 && ltN p 2 && ltN r 4 && ltL data 256
  | .driveCommandCompletion t n status kind _ data => fitN t 64 && ltN n 4 && fitN status 16 && ltN kind 4 && ltL data 4096
  | .storageLinkUp t n rate width _ _ stripes lba _ serial _ => fitN t 64 && ltN n 4 && ltN rate 7 && ltN width 17 && fitN stripes 64 && fitN lba 32 && fitN serial 160
  | .hpPerstRelease t => fitN t 64
  | .hpLinkUp t rate width _ => fitN t 64 && ltN rate 7 && ltN width 5
  | .configWrite t _ _ _ _ => fitN t 64
  | .msixTableWrite t v addr data _ => fitN t 64 && ltN v 64 && fitN addr 64 && fitN data 32
  | .stagedSignalRaise t core => fitN t 64 && ltN core 64
  | .panicClear t port inst held => fitN t 64 && ltN port 4 && ltN inst 8 && ltN held 4194305
  | .panicLong t port inst => fitN t 64 && ltN port 4 && ltN inst 8
  | .rankSwitchOverEnd t => fitN t 64
  | .densClearEnd t idx => fitN t 64 && ltN idx 4
  | .commandTransferEnd t idx => fitN t 64 && ltN idx 64
  | .firmwareStartTimeout t => fitN t 64
  | .startupComplete t fails _ _ found edges => fitN t 64 && fitL fails 16 && fitL found 16 && fitL edges 64
  | .rstNRelease t => fitN t 64
  | .testPortAccess t kind id a b v => fitN t 64 && ltN kind 8 && fitN id 32 && fitN a 384 && ltN b 4 && fitI v 31
  | .ceilingRampEnd t => fitN t 64
  | .clkSetTimeTimeout t => fitN t 64
  | .nodeActivityReturn t => fitN t 64
  | .refInReturn t => fitN t 64

end Sys2Proof
end

