-- ==== Sys2Proof/Laws/PerInstr.lean ====
section
/-! SUPPORT. One lemma per command: the tick of a well-formed command fits the 64 bits of the Canopy count (R245). -/

namespace Sys2Proof

/-- The Canopy tick that a command names: every row has it, as its first operand or in its command header. -/
def Instr.tick : Instr → Nat
  | .sysGetInfo c _ => c.t
  | .sysAlloc c _ => c.t
  | .sysFree c _ => c.t
  | .sysGetAlloc c _ => c.t
  | .sysFwStage c _ _ => c.t
  | .sysFwActivate c _ => c.t
  | .sysReset c _ => c.t
  | .sysNop c _ => c.t
  | .feSetMode c _ => c.t
  | .feSetSource c _ => c.t
  | .feSetAtten c _ => c.t
  | .feStream c _ => c.t
  | .feGetStatus c _ => c.t
  | .feSetProtect c _ => c.t
  | .clkSetRef c _ => c.t
  | .clkSetPll c _ => c.t
  | .clkBuildHops c _ => c.t
  | .clkSetPps c _ => c.t
  | .clkSetTime c _ => c.t
  | .clkGetStatus c _ => c.t
  | .calRun c _ => c.t
  | .calSetBlind c _ => c.t
  | .calRestore c _ => c.t
  | .calRead c _ => c.t
  | .calGetRecord c _ => c.t
  | .calGetStatus c _ => c.t
  | .specSetLane c _ => c.t
  | .specLoadWindow c _ _ => c.t
  | .specSetDdc c _ => c.t
  | .specTuneDdc c _ => c.t
  | .specSetTrace c _ => c.t
  | .specSetOutput c _ => c.t
  | .specGetStatus c _ => c.t
  | .specSetGovernor c _ => c.t
  | .acqSetTerm c _ => c.t
  | .acqSetCombiner c _ => c.t
  | .acqSetCapture c _ => c.t
  | .acqArm c _ => c.t
  | .acqStop c _ => c.t
  | .acqForce c _ => c.t
  | .acqLoadMask c _ _ => c.t
  | .acqSetMask c _ => c.t
  | .acqSetTest c _ => c.t
  | .acqSetEvtOut c _ => c.t
  | .acqGetStatus c _ => c.t
  | .densSetMap c _ => c.t
  | .densClear c _ => c.t
  | .densRead c _ => c.t
  | .densSetPigment c _ _ => c.t
  | .dispSetMode c _ => c.t
  | .dispSetLayer c _ => c.t
  | .dispSetEvents c _ => c.t
  | .dispFallow c _ => c.t
  | .dispAux c _ => c.t
  | .dispGetStatus c _ => c.t
  | .densGetStatus c _ => c.t
  | .monSetContext c _ => c.t
  | .monLoad c _ _ => c.t
  | .monClear c _ => c.t
  | .monSnapshot c _ => c.t
  | .monRead c _ => c.t
  | .monSetLog c _ => c.t
  | .monGetStatus c _ => c.t
  | .tiuSetInput c _ => c.t
  | .tiuSetStats c _ => c.t
  | .tiuGetStats c _ => c.t
  | .tiuRead c _ => c.t
  | .tiuSetDrain c _ => c.t
  | .tiuCal c _ => c.t
  | .tiuGetStatus c _ => c.t
  | .groveLoad c _ _ => c.t
  | .groveStart c _ => c.t
  | .groveStop c _ => c.t
  | .groveSetShadow c _ => c.t
  | .groveSetFeed c _ => c.t
  | .groveSetBarrier c _ => c.t
  | .groveRead c _ => c.t
  | .groveGetStatus c _ => c.t
  | .groveGetFeed c _ => c.t
  | .memAlloc c _ => c.t
  | .memFree c _ => c.t
  | .memSetRing c _ => c.t
  | .memRingAck c _ => c.t
  | .memRingStatus c _ => c.t
  | .memCommons c _ => c.t
  | .memRetire c _ => c.t
  | .memGetStatus c _ => c.t
  | .memGetPoison c _ => c.t
  | .dmaSetChannel c _ => c.t
  | .dmaSetShadow c _ => c.t
  | .dmaRaise c _ => c.t
  | .dmaSetTimer c _ => c.t
  | .dmaGetStatus c _ => c.t
  | .streamSet c _ => c.t
  | .storSetPort c _ => c.t
  | .storFormat c _ => c.t
  | .storMount c _ => c.t
  | .storUnmount c _ => c.t
  | .recOpen c _ => c.t
  | .recClose c _ => c.t
  | .storGetStatus c _ => c.t
  | .storLogPage c _ => c.t
  | .auxSetRef c _ => c.t
  | .auxSetInput c _ => c.t
  | .auxSetSeq c _ => c.t
  | .auxGetStatus c _ => c.t
  | .ctlSetOutput c _ => c.t
  | .ctlWrite c _ => c.t
  | .ctlGetStatus c _ => c.t
  | .fltGetStatus c _ => c.t
  | .fltSetSeverity c _ => c.t
  | .fltGetRecord c _ => c.t
  | .fltClear c _ => c.t
  | .fltForce c _ => c.t
  | .secGetCert c _ => c.t
  | .secAttest c _ => c.t
  | .secSetLifecycle c _ _ => c.t
  | .secGetStatus c _ => c.t
  | .perfSetCounter c _ => c.t
  | .perfControl c _ => c.t
  | .perfRead c _ => c.t
  | .gNop t _ _ => t
  | .gAdd t _ _ => t
  | .gSub t _ _ => t
  | .gAnd t _ _ => t
  | .gOr t _ _ => t
  | .gXor t _ _ => t
  | .gShl t _ _ => t
  | .gShr t _ _ => t
  | .gSar t _ _ => t
  | .gSlt t _ _ => t
  | .gSltu t _ _ => t
  | .gMul t _ _ => t
  | .gAddi t _ _ => t
  | .gAndi t _ _ => t
  | .gOri t _ _ => t
  | .gShi t _ _ => t
  | .gMovi t _ _ => t
  | .gMovhi t _ _ => t
  | .gCmul t _ _ => t
  | .gCadds t _ _ => t
  | .gCsubs t _ _ => t
  | .gMovr t _ _ => t
  | .gSmov t _ _ => t
  | .gMovsr t _ _ => t
  | .gMovrs t _ _ => t
  | .gLd t _ _ => t
  | .gLdh t _ _ => t
  | .gSt t _ _ => t
  | .gSth t _ _ => t
  | .gSta t _ _ => t
  | .gVsta t _ _ => t
  | .gRda t _ _ => t
  | .gVmacD t _ _ => t
  | .gVmacP t _ _ => t
  | .gVmagP t _ _ => t
  | .gCmac t _ _ => t
  | .gBr t _ _ => t
  | .gCall t _ _ => t
  | .gJr t _ _ => t
  | .gRepeat t _ _ => t
  | .gRepr t _ _ => t
  | .gReti t _ _ => t
  | .gWait t _ _ => t
  | .gHalt t _ _ => t
  | .gBar t _ _ => t
  | .gFrel t _ _ => t
  | .gSync t _ _ => t
  | .gNotify t _ _ => t
  | .gPost t _ _ => t
  | .sqTailWrite t _ _ => t
  | .cqHeadWrite t _ _ => t
  | .evtHeadWrite t _ => t
  | .strdbWrite t _ _ => t
  | .qctlOpen t _ => t
  | .qctlReclaim t _ => t
  | .qctlClose t _ => t
  | .leaseWrite t _ _ => t
  | .evtCtlWrite t _ => t
  | .time0Read t => t
  | .serial0Read t => t
  | .latchedWordRead t _ => t
  | .auxDataRead t => t
  | .ctlCodeWrite t _ _ => t
  | .registerWrite t _ _ _ => t
  | .commandFetch c _ _ => c.t
  | .commandTimeout t _ _ => t
  | .completionSignalHoldEnd t _ => t
  | .eventDelayExpiry t => t
  | .sysLease t _ => t
  | .leaseExpiry t _ => t
  | .releaseEnd t _ => t
  | .hostInterfaceReset t _ => t
  | .heartbeatAdvance t => t
  | .grainTag t _ _ => t
  | .overloadEnd t _ => t
  | .epochRollover t _ => t
  | .grainDelivery t _ _ _ _ _ _ => t
  | .acqArmAtCt t => t
  | .spectrumCompute t _ _ => t
  | .timeTestVerdict t _ => t
  | .evtOutPulse t => t
  | .evtOutPulseEnd t => t
  | .govRaiseStep t _ => t
  | .govLowerStep t _ => t
  | .govShed t _ => t
  | .govRestore t _ => t
  | .decaySweep t => t
  | .densReadCopyEnd t _ => t
  | .monitorRound t => t
  | .monEvlost t => t
  | .monSnapshotWriteEnd t => t
  | .protectTrip t _ => t
  | .feStreamAtCt t => t
  | .pllLockLoss t _ _ => t
  | .pllSyncEdge t _ _ => t
  | .relockAttemptFail t _ _ => t
  | .refInLoss t _ _ => t
  | .refLoopLock t => t
  | .nodeLoss t => t
  | .nodeRecovery t => t
  | .inputEdge t _ _ _ => t
  | .ppsLoss t => t
  | .pendingEdgeClose t _ => t
  | .tiuLost t _ => t
  | .queueDrain t _ _ => t
  | .tiuCalTestEnd t _ _ => t
  | .calStepEnd t _ _ => t
  | .blindRun t _ => t
  | .calDrift t _ _ => t
  | .handOver t _ => t
  | .handlerReturn t _ => t
  | .waitEnd t _ => t
  | .commonsLoadReturn t _ => t
  | .syncComplete t _ => t
  | .timerMatch t _ => t
  | .feedCopyBlock t _ => t
  | .feedWriteOut t _ => t
  | .refresh t => t
  | .patrolScrub t _ => t
  | .correctableError t _ _ _ => t
  | .uncorrectableError t _ _ _ _ => t
  | .rankSwitchOver t => t
  | .migrationRowCopy t _ => t
  | .memRingLost t => t
  | .zeroingDone t _ => t
  | .onDieError t _ _ _ _ _ => t
  | .dmaHandover t _ => t
  | .dmaBurst t _ _ _ => t
  | .descriptorEnd t _ => t
  | .timerLinePulse t _ => t
  | .streamRecordCopy t _ _ => t
  | .checkpoint t => t
  | .stripeComplete t _ _ => t
  | .mountMeasurementEnd t _ => t
  | .driveFail t _ _ _ => t
  | .dispLineStart t _ _ _ _ => t
  | .frameDone t _ => t
  | .hpdLoss t _ => t
  | .hpdRestore t _ _ => t
  | .hpdIrq t _ _ _ _ => t
  | .panelHpdWait t _ _ _ _ _ => t
  | .bldelayExpiry t _ => t
  | .vddenOffDelay t _ => t
  | .auxPassStart t => t
  | .auxConversion t _ _ => t
  | .auxLimitPeriodEnd t => t
  | .auxOvr t => t
  | .auxRef t _ => t
  | .ctlStep t _ => t
  | .ctlRangePhase t _ => t
  | .ctlTimedWrite t => t
  | .ctlFault t _ _ => t
  | .groveStartAtCt t => t
  | .perfControlAtCt t => t
  | .perfSat t _ _ => t
  | .forcedRaise t _ => t
  | .suppressionWindowClose t => t
  | .powerOn t _ _ => t
  | .deviceReset t _ => t
  | .powerDown t => t
  | .thermalStage t _ => t
  | .thermalStageExit t _ => t
  | .thermalTrip t _ => t
  | .faultDetection t _ _ _ => t
  | .railFault t _ _ _ => t
  | .tiuTableUncal t _ _ => t
  | .ctlFaultClear t _ _ => t
  | .vddenLowTimeExpiry t _ => t
  | .dispLinkTrainingEnd t _ _ => t
  | .dispAuxReply t _ _ _ => t
  | .driveCommandCompletion t _ _ _ _ _ => t
  | .storageLinkUp t _ _ _ _ _ _ _ _ _ _ => t
  | .hpPerstRelease t => t
  | .hpLinkUp t _ _ _ => t
  | .configWrite t _ _ _ _ => t
  | .msixTableWrite t _ _ _ _ => t
  | .stagedSignalRaise t _ => t
  | .panicClear t _ _ _ => t
  | .panicLong t _ _ => t
  | .rankSwitchOverEnd t => t
  | .densClearEnd t _ => t
  | .commandTransferEnd t _ => t
  | .firmwareStartTimeout t => t
  | .startupComplete t _ _ _ _ _ => t
  | .rstNRelease t => t
  | .testPortAccess t _ _ _ _ _ => t
  | .ceilingRampEnd t => t
  | .clkSetTimeTimeout t => t
  | .nodeActivityReturn t => t
  | .refInReturn t => t

end Sys2Proof

namespace Sys2Proof.Laws.TickFits

/-- A well-formed command names a tick that the Canopy count can hold. -/
def Statement (i : Instr) : Prop := i.wf = true → i.tick < 2^64

theorem first_of_and {a b : Bool} (h : (a && b) = true) : a = true := by cases a <;> simp_all

theorem fits {v : Nat} (h : ltN v (2^64) = true) : v < 2^64 := of_decide_eq_true h

theorem cmd_fits {c : Cmd} (h : c.wf = true) : c.t < 2^64 := of_decide_eq_true h

theorem sysGetInfo a0 a1 : Statement (.sysGetInfo a0 a1) := fun h => cmd_fits h

theorem sysAlloc a0 a1 : Statement (.sysAlloc a0 a1) := fun h => cmd_fits h

theorem sysFree a0 a1 : Statement (.sysFree a0 a1) := fun h => cmd_fits h

theorem sysGetAlloc a0 a1 : Statement (.sysGetAlloc a0 a1) := fun h => cmd_fits h

theorem sysFwStage a0 a1 a2 : Statement (.sysFwStage a0 a1 a2) := fun h => cmd_fits (first_of_and h)

theorem sysFwActivate a0 a1 : Statement (.sysFwActivate a0 a1) := fun h => cmd_fits h

theorem sysReset a0 a1 : Statement (.sysReset a0 a1) := fun h => cmd_fits h

theorem sysNop a0 a1 : Statement (.sysNop a0 a1) := fun h => cmd_fits h

theorem feSetMode a0 a1 : Statement (.feSetMode a0 a1) := fun h => cmd_fits h

theorem feSetSource a0 a1 : Statement (.feSetSource a0 a1) := fun h => cmd_fits h

theorem feSetAtten a0 a1 : Statement (.feSetAtten a0 a1) := fun h => cmd_fits h

theorem feStream a0 a1 : Statement (.feStream a0 a1) := fun h => cmd_fits h

theorem feGetStatus a0 a1 : Statement (.feGetStatus a0 a1) := fun h => cmd_fits h

theorem feSetProtect a0 a1 : Statement (.feSetProtect a0 a1) := fun h => cmd_fits h

theorem clkSetRef a0 a1 : Statement (.clkSetRef a0 a1) := fun h => cmd_fits h

theorem clkSetPll a0 a1 : Statement (.clkSetPll a0 a1) := fun h => cmd_fits h

theorem clkBuildHops a0 a1 : Statement (.clkBuildHops a0 a1) := fun h => cmd_fits h

theorem clkSetPps a0 a1 : Statement (.clkSetPps a0 a1) := fun h => cmd_fits h

theorem clkSetTime a0 a1 : Statement (.clkSetTime a0 a1) := fun h => cmd_fits h

theorem clkGetStatus a0 a1 : Statement (.clkGetStatus a0 a1) := fun h => cmd_fits h

theorem calRun a0 a1 : Statement (.calRun a0 a1) := fun h => cmd_fits h

theorem calSetBlind a0 a1 : Statement (.calSetBlind a0 a1) := fun h => cmd_fits h

theorem calRestore a0 a1 : Statement (.calRestore a0 a1) := fun h => cmd_fits h

theorem calRead a0 a1 : Statement (.calRead a0 a1) := fun h => cmd_fits h

theorem calGetRecord a0 a1 : Statement (.calGetRecord a0 a1) := fun h => cmd_fits h

theorem calGetStatus a0 a1 : Statement (.calGetStatus a0 a1) := fun h => cmd_fits h

theorem specSetLane a0 a1 : Statement (.specSetLane a0 a1) := fun h => cmd_fits h

theorem specLoadWindow a0 a1 a2 : Statement (.specLoadWindow a0 a1 a2) := fun h => cmd_fits (first_of_and h)

theorem specSetDdc a0 a1 : Statement (.specSetDdc a0 a1) := fun h => cmd_fits h

theorem specTuneDdc a0 a1 : Statement (.specTuneDdc a0 a1) := fun h => cmd_fits h

theorem specSetTrace a0 a1 : Statement (.specSetTrace a0 a1) := fun h => cmd_fits h

theorem specSetOutput a0 a1 : Statement (.specSetOutput a0 a1) := fun h => cmd_fits h

theorem specGetStatus a0 a1 : Statement (.specGetStatus a0 a1) := fun h => cmd_fits h

theorem specSetGovernor a0 a1 : Statement (.specSetGovernor a0 a1) := fun h => cmd_fits h

theorem acqSetTerm a0 a1 : Statement (.acqSetTerm a0 a1) := fun h => cmd_fits h

theorem acqSetCombiner a0 a1 : Statement (.acqSetCombiner a0 a1) := fun h => cmd_fits h

theorem acqSetCapture a0 a1 : Statement (.acqSetCapture a0 a1) := fun h => cmd_fits h

theorem acqArm a0 a1 : Statement (.acqArm a0 a1) := fun h => cmd_fits h

theorem acqStop a0 a1 : Statement (.acqStop a0 a1) := fun h => cmd_fits h

theorem acqForce a0 a1 : Statement (.acqForce a0 a1) := fun h => cmd_fits h

theorem acqLoadMask a0 a1 a2 : Statement (.acqLoadMask a0 a1 a2) := fun h => cmd_fits (first_of_and h)

theorem acqSetMask a0 a1 : Statement (.acqSetMask a0 a1) := fun h => cmd_fits h

theorem acqSetTest a0 a1 : Statement (.acqSetTest a0 a1) := fun h => cmd_fits h

theorem acqSetEvtOut a0 a1 : Statement (.acqSetEvtOut a0 a1) := fun h => cmd_fits h

theorem acqGetStatus a0 a1 : Statement (.acqGetStatus a0 a1) := fun h => cmd_fits h

theorem densSetMap a0 a1 : Statement (.densSetMap a0 a1) := fun h => cmd_fits h

theorem densClear a0 a1 : Statement (.densClear a0 a1) := fun h => cmd_fits h

theorem densRead a0 a1 : Statement (.densRead a0 a1) := fun h => cmd_fits h

theorem densSetPigment a0 a1 a2 : Statement (.densSetPigment a0 a1 a2) := fun h => cmd_fits (first_of_and h)

theorem dispSetMode a0 a1 : Statement (.dispSetMode a0 a1) := fun h => cmd_fits h

theorem dispSetLayer a0 a1 : Statement (.dispSetLayer a0 a1) := fun h => cmd_fits h

theorem dispSetEvents a0 a1 : Statement (.dispSetEvents a0 a1) := fun h => cmd_fits h

theorem dispFallow a0 a1 : Statement (.dispFallow a0 a1) := fun h => cmd_fits h

theorem dispAux a0 a1 : Statement (.dispAux a0 a1) := fun h => cmd_fits h

theorem dispGetStatus a0 a1 : Statement (.dispGetStatus a0 a1) := fun h => cmd_fits h

theorem densGetStatus a0 a1 : Statement (.densGetStatus a0 a1) := fun h => cmd_fits h

theorem monSetContext a0 a1 : Statement (.monSetContext a0 a1) := fun h => cmd_fits h

theorem monLoad a0 a1 a2 : Statement (.monLoad a0 a1 a2) := fun h => cmd_fits (first_of_and h)

theorem monClear a0 a1 : Statement (.monClear a0 a1) := fun h => cmd_fits h

theorem monSnapshot a0 a1 : Statement (.monSnapshot a0 a1) := fun h => cmd_fits h

theorem monRead a0 a1 : Statement (.monRead a0 a1) := fun h => cmd_fits h

theorem monSetLog a0 a1 : Statement (.monSetLog a0 a1) := fun h => cmd_fits h

theorem monGetStatus a0 a1 : Statement (.monGetStatus a0 a1) := fun h => cmd_fits h

theorem tiuSetInput a0 a1 : Statement (.tiuSetInput a0 a1) := fun h => cmd_fits h

theorem tiuSetStats a0 a1 : Statement (.tiuSetStats a0 a1) := fun h => cmd_fits h

theorem tiuGetStats a0 a1 : Statement (.tiuGetStats a0 a1) := fun h => cmd_fits h

theorem tiuRead a0 a1 : Statement (.tiuRead a0 a1) := fun h => cmd_fits h

theorem tiuSetDrain a0 a1 : Statement (.tiuSetDrain a0 a1) := fun h => cmd_fits h

theorem tiuCal a0 a1 : Statement (.tiuCal a0 a1) := fun h => cmd_fits h

theorem tiuGetStatus a0 a1 : Statement (.tiuGetStatus a0 a1) := fun h => cmd_fits h

theorem groveLoad a0 a1 a2 : Statement (.groveLoad a0 a1 a2) := fun h => cmd_fits (first_of_and h)

theorem groveStart a0 a1 : Statement (.groveStart a0 a1) := fun h => cmd_fits h

theorem groveStop a0 a1 : Statement (.groveStop a0 a1) := fun h => cmd_fits h

theorem groveSetShadow a0 a1 : Statement (.groveSetShadow a0 a1) := fun h => cmd_fits h

theorem groveSetFeed a0 a1 : Statement (.groveSetFeed a0 a1) := fun h => cmd_fits h

theorem groveSetBarrier a0 a1 : Statement (.groveSetBarrier a0 a1) := fun h => cmd_fits h

theorem groveRead a0 a1 : Statement (.groveRead a0 a1) := fun h => cmd_fits h

theorem groveGetStatus a0 a1 : Statement (.groveGetStatus a0 a1) := fun h => cmd_fits h

theorem groveGetFeed a0 a1 : Statement (.groveGetFeed a0 a1) := fun h => cmd_fits h

theorem memAlloc a0 a1 : Statement (.memAlloc a0 a1) := fun h => cmd_fits h

theorem memFree a0 a1 : Statement (.memFree a0 a1) := fun h => cmd_fits h

theorem memSetRing a0 a1 : Statement (.memSetRing a0 a1) := fun h => cmd_fits h

theorem memRingAck a0 a1 : Statement (.memRingAck a0 a1) := fun h => cmd_fits h

theorem memRingStatus a0 a1 : Statement (.memRingStatus a0 a1) := fun h => cmd_fits h

theorem memCommons a0 a1 : Statement (.memCommons a0 a1) := fun h => cmd_fits h

theorem memRetire a0 a1 : Statement (.memRetire a0 a1) := fun h => cmd_fits h

theorem memGetStatus a0 a1 : Statement (.memGetStatus a0 a1) := fun h => cmd_fits h

theorem memGetPoison a0 a1 : Statement (.memGetPoison a0 a1) := fun h => cmd_fits h

theorem dmaSetChannel a0 a1 : Statement (.dmaSetChannel a0 a1) := fun h => cmd_fits h

theorem dmaSetShadow a0 a1 : Statement (.dmaSetShadow a0 a1) := fun h => cmd_fits h

theorem dmaRaise a0 a1 : Statement (.dmaRaise a0 a1) := fun h => cmd_fits h

theorem dmaSetTimer a0 a1 : Statement (.dmaSetTimer a0 a1) := fun h => cmd_fits h

theorem dmaGetStatus a0 a1 : Statement (.dmaGetStatus a0 a1) := fun h => cmd_fits h

theorem streamSet a0 a1 : Statement (.streamSet a0 a1) := fun h => cmd_fits h

theorem storSetPort a0 a1 : Statement (.storSetPort a0 a1) := fun h => cmd_fits h

theorem storFormat a0 a1 : Statement (.storFormat a0 a1) := fun h => cmd_fits h

theorem storMount a0 a1 : Statement (.storMount a0 a1) := fun h => cmd_fits h

theorem storUnmount a0 a1 : Statement (.storUnmount a0 a1) := fun h => cmd_fits h

theorem recOpen a0 a1 : Statement (.recOpen a0 a1) := fun h => cmd_fits h

theorem recClose a0 a1 : Statement (.recClose a0 a1) := fun h => cmd_fits h

theorem storGetStatus a0 a1 : Statement (.storGetStatus a0 a1) := fun h => cmd_fits h

theorem storLogPage a0 a1 : Statement (.storLogPage a0 a1) := fun h => cmd_fits h

theorem auxSetRef a0 a1 : Statement (.auxSetRef a0 a1) := fun h => cmd_fits h

theorem auxSetInput a0 a1 : Statement (.auxSetInput a0 a1) := fun h => cmd_fits h

theorem auxSetSeq a0 a1 : Statement (.auxSetSeq a0 a1) := fun h => cmd_fits h

theorem auxGetStatus a0 a1 : Statement (.auxGetStatus a0 a1) := fun h => cmd_fits h

theorem ctlSetOutput a0 a1 : Statement (.ctlSetOutput a0 a1) := fun h => cmd_fits h

theorem ctlWrite a0 a1 : Statement (.ctlWrite a0 a1) := fun h => cmd_fits h

theorem ctlGetStatus a0 a1 : Statement (.ctlGetStatus a0 a1) := fun h => cmd_fits h

theorem fltGetStatus a0 a1 : Statement (.fltGetStatus a0 a1) := fun h => cmd_fits h

theorem fltSetSeverity a0 a1 : Statement (.fltSetSeverity a0 a1) := fun h => cmd_fits h

theorem fltGetRecord a0 a1 : Statement (.fltGetRecord a0 a1) := fun h => cmd_fits h

theorem fltClear a0 a1 : Statement (.fltClear a0 a1) := fun h => cmd_fits h

theorem fltForce a0 a1 : Statement (.fltForce a0 a1) := fun h => cmd_fits h

theorem secGetCert a0 a1 : Statement (.secGetCert a0 a1) := fun h => cmd_fits h

theorem secAttest a0 a1 : Statement (.secAttest a0 a1) := fun h => cmd_fits h

theorem secSetLifecycle a0 a1 a2 : Statement (.secSetLifecycle a0 a1 a2) := fun h => cmd_fits (first_of_and h)

theorem secGetStatus a0 a1 : Statement (.secGetStatus a0 a1) := fun h => cmd_fits h

theorem perfSetCounter a0 a1 : Statement (.perfSetCounter a0 a1) := fun h => cmd_fits h

theorem perfControl a0 a1 : Statement (.perfControl a0 a1) := fun h => cmd_fits h

theorem perfRead a0 a1 : Statement (.perfRead a0 a1) := fun h => cmd_fits h

theorem gNop a0 a1 a2 : Statement (.gNop a0 a1 a2) := fun h => fits (first_of_and h)

theorem gAdd a0 a1 a2 : Statement (.gAdd a0 a1 a2) := fun h => fits (first_of_and h)

theorem gSub a0 a1 a2 : Statement (.gSub a0 a1 a2) := fun h => fits (first_of_and h)

theorem gAnd a0 a1 a2 : Statement (.gAnd a0 a1 a2) := fun h => fits (first_of_and h)

theorem gOr a0 a1 a2 : Statement (.gOr a0 a1 a2) := fun h => fits (first_of_and h)

theorem gXor a0 a1 a2 : Statement (.gXor a0 a1 a2) := fun h => fits (first_of_and h)

theorem gShl a0 a1 a2 : Statement (.gShl a0 a1 a2) := fun h => fits (first_of_and h)

theorem gShr a0 a1 a2 : Statement (.gShr a0 a1 a2) := fun h => fits (first_of_and h)

theorem gSar a0 a1 a2 : Statement (.gSar a0 a1 a2) := fun h => fits (first_of_and h)

theorem gSlt a0 a1 a2 : Statement (.gSlt a0 a1 a2) := fun h => fits (first_of_and h)

theorem gSltu a0 a1 a2 : Statement (.gSltu a0 a1 a2) := fun h => fits (first_of_and h)

theorem gMul a0 a1 a2 : Statement (.gMul a0 a1 a2) := fun h => fits (first_of_and h)

theorem gAddi a0 a1 a2 : Statement (.gAddi a0 a1 a2) := fun h => fits (first_of_and h)

theorem gAndi a0 a1 a2 : Statement (.gAndi a0 a1 a2) := fun h => fits (first_of_and h)

theorem gOri a0 a1 a2 : Statement (.gOri a0 a1 a2) := fun h => fits (first_of_and h)

theorem gShi a0 a1 a2 : Statement (.gShi a0 a1 a2) := fun h => fits (first_of_and h)

theorem gMovi a0 a1 a2 : Statement (.gMovi a0 a1 a2) := fun h => fits (first_of_and h)

theorem gMovhi a0 a1 a2 : Statement (.gMovhi a0 a1 a2) := fun h => fits (first_of_and h)

theorem gCmul a0 a1 a2 : Statement (.gCmul a0 a1 a2) := fun h => fits (first_of_and h)

theorem gCadds a0 a1 a2 : Statement (.gCadds a0 a1 a2) := fun h => fits (first_of_and h)

theorem gCsubs a0 a1 a2 : Statement (.gCsubs a0 a1 a2) := fun h => fits (first_of_and h)

theorem gMovr a0 a1 a2 : Statement (.gMovr a0 a1 a2) := fun h => fits (first_of_and h)

theorem gSmov a0 a1 a2 : Statement (.gSmov a0 a1 a2) := fun h => fits (first_of_and h)

theorem gMovsr a0 a1 a2 : Statement (.gMovsr a0 a1 a2) := fun h => fits (first_of_and h)

theorem gMovrs a0 a1 a2 : Statement (.gMovrs a0 a1 a2) := fun h => fits (first_of_and h)

theorem gLd a0 a1 a2 : Statement (.gLd a0 a1 a2) := fun h => fits (first_of_and h)

theorem gLdh a0 a1 a2 : Statement (.gLdh a0 a1 a2) := fun h => fits (first_of_and h)

theorem gSt a0 a1 a2 : Statement (.gSt a0 a1 a2) := fun h => fits (first_of_and h)

theorem gSth a0 a1 a2 : Statement (.gSth a0 a1 a2) := fun h => fits (first_of_and h)

theorem gSta a0 a1 a2 : Statement (.gSta a0 a1 a2) := fun h => fits (first_of_and h)

theorem gVsta a0 a1 a2 : Statement (.gVsta a0 a1 a2) := fun h => fits (first_of_and h)

theorem gRda a0 a1 a2 : Statement (.gRda a0 a1 a2) := fun h => fits (first_of_and h)

theorem gVmacD a0 a1 a2 : Statement (.gVmacD a0 a1 a2) := fun h => fits (first_of_and h)

theorem gVmacP a0 a1 a2 : Statement (.gVmacP a0 a1 a2) := fun h => fits (first_of_and h)

theorem gVmagP a0 a1 a2 : Statement (.gVmagP a0 a1 a2) := fun h => fits (first_of_and h)

theorem gCmac a0 a1 a2 : Statement (.gCmac a0 a1 a2) := fun h => fits (first_of_and h)

theorem gBr a0 a1 a2 : Statement (.gBr a0 a1 a2) := fun h => fits (first_of_and h)

theorem gCall a0 a1 a2 : Statement (.gCall a0 a1 a2) := fun h => fits (first_of_and h)

theorem gJr a0 a1 a2 : Statement (.gJr a0 a1 a2) := fun h => fits (first_of_and h)

theorem gRepeat a0 a1 a2 : Statement (.gRepeat a0 a1 a2) := fun h => fits (first_of_and h)

theorem gRepr a0 a1 a2 : Statement (.gRepr a0 a1 a2) := fun h => fits (first_of_and h)

theorem gReti a0 a1 a2 : Statement (.gReti a0 a1 a2) := fun h => fits (first_of_and h)

theorem gWait a0 a1 a2 : Statement (.gWait a0 a1 a2) := fun h => fits (first_of_and h)

theorem gHalt a0 a1 a2 : Statement (.gHalt a0 a1 a2) := fun h => fits (first_of_and h)

theorem gBar a0 a1 a2 : Statement (.gBar a0 a1 a2) := fun h => fits (first_of_and h)

theorem gFrel a0 a1 a2 : Statement (.gFrel a0 a1 a2) := fun h => fits (first_of_and h)

theorem gSync a0 a1 a2 : Statement (.gSync a0 a1 a2) := fun h => fits (first_of_and h)

theorem gNotify a0 a1 a2 : Statement (.gNotify a0 a1 a2) := fun h => fits (first_of_and h)

theorem gPost a0 a1 a2 : Statement (.gPost a0 a1 a2) := fun h => fits (first_of_and h)

theorem sqTailWrite a0 a1 a2 : Statement (.sqTailWrite a0 a1 a2) := fun h => fits (first_of_and (first_of_and h))

theorem cqHeadWrite a0 a1 a2 : Statement (.cqHeadWrite a0 a1 a2) := fun h => fits (first_of_and (first_of_and h))

theorem evtHeadWrite a0 a1 : Statement (.evtHeadWrite a0 a1) := fun h => fits (first_of_and h)

theorem strdbWrite a0 a1 a2 : Statement (.strdbWrite a0 a1 a2) := fun h => fits (first_of_and (first_of_and h))

theorem qctlOpen a0 a1 : Statement (.qctlOpen a0 a1) := fun h => fits (first_of_and h)

theorem qctlReclaim a0 a1 : Statement (.qctlReclaim a0 a1) := fun h => fits (first_of_and h)

theorem qctlClose a0 a1 : Statement (.qctlClose a0 a1) := fun h => fits (first_of_and h)

theorem leaseWrite a0 a1 a2 : Statement (.leaseWrite a0 a1 a2) := fun h => fits (first_of_and (first_of_and h))

theorem evtCtlWrite a0 a1 : Statement (.evtCtlWrite a0 a1) := fun h => fits (first_of_and h)

theorem time0Read a0 : Statement (.time0Read a0) := fun h => fits h

theorem serial0Read a0 : Statement (.serial0Read a0) := fun h => fits h

theorem latchedWordRead a0 a1 : Statement (.latchedWordRead a0 a1) := fun h => fits (first_of_and h)

theorem auxDataRead a0 : Statement (.auxDataRead a0) := fun h => fits h

theorem ctlCodeWrite a0 a1 a2 : Statement (.ctlCodeWrite a0 a1 a2) := fun h => fits (first_of_and (first_of_and h))

theorem registerWrite a0 a1 a2 a3 : Statement (.registerWrite a0 a1 a2 a3) := fun h => fits (first_of_and (first_of_and (first_of_and h)))

theorem commandFetch a0 a1 a2 : Statement (.commandFetch a0 a1 a2) := fun h => cmd_fits (first_of_and h)

theorem commandTimeout a0 a1 a2 : Statement (.commandTimeout a0 a1 a2) := fun h => fits (first_of_and (first_of_and h))

theorem completionSignalHoldEnd a0 a1 : Statement (.completionSignalHoldEnd a0 a1) := fun h => fits (first_of_and h)

theorem eventDelayExpiry a0 : Statement (.eventDelayExpiry a0) := fun h => fits h

theorem sysLease a0 a1 : Statement (.sysLease a0 a1) := fun h => fits (first_of_and h)

theorem leaseExpiry a0 a1 : Statement (.leaseExpiry a0 a1) := fun h => fits (first_of_and h)

theorem releaseEnd a0 a1 : Statement (.releaseEnd a0 a1) := fun h => fits (first_of_and h)

theorem hostInterfaceReset a0 a1 : Statement (.hostInterfaceReset a0 a1) := fun h => fits (first_of_and h)

theorem heartbeatAdvance a0 : Statement (.heartbeatAdvance a0) := fun h => fits h

theorem grainTag a0 a1 a2 : Statement (.grainTag a0 a1 a2) := fun h => fits (first_of_and (first_of_and h))

theorem overloadEnd a0 a1 : Statement (.overloadEnd a0 a1) := fun h => fits (first_of_and h)

theorem epochRollover a0 a1 : Statement (.epochRollover a0 a1) := fun h => fits (first_of_and h)

theorem grainDelivery a0 a1 a2 a3 a4 a5 a6 : Statement (.grainDelivery a0 a1 a2 a3 a4 a5 a6) := fun h => fits (first_of_and (first_of_and (first_of_and (first_of_and (first_of_and h)))))

theorem acqArmAtCt a0 : Statement (.acqArmAtCt a0) := fun h => fits h

theorem spectrumCompute a0 a1 a2 : Statement (.spectrumCompute a0 a1 a2) := fun h => fits (first_of_and (first_of_and h))

theorem timeTestVerdict a0 a1 : Statement (.timeTestVerdict a0 a1) := fun h => fits (first_of_and h)

theorem evtOutPulse a0 : Statement (.evtOutPulse a0) := fun h => fits h

theorem evtOutPulseEnd a0 : Statement (.evtOutPulseEnd a0) := fun h => fits h

theorem govRaiseStep a0 a1 : Statement (.govRaiseStep a0 a1) := fun h => fits (first_of_and h)

theorem govLowerStep a0 a1 : Statement (.govLowerStep a0 a1) := fun h => fits (first_of_and h)

theorem govShed a0 a1 : Statement (.govShed a0 a1) := fun h => fits (first_of_and h)

theorem govRestore a0 a1 : Statement (.govRestore a0 a1) := fun h => fits (first_of_and h)

theorem decaySweep a0 : Statement (.decaySweep a0) := fun h => fits h

theorem densReadCopyEnd a0 a1 : Statement (.densReadCopyEnd a0 a1) := fun h => fits (first_of_and h)

theorem monitorRound a0 : Statement (.monitorRound a0) := fun h => fits h

theorem monEvlost a0 : Statement (.monEvlost a0) := fun h => fits h

theorem monSnapshotWriteEnd a0 : Statement (.monSnapshotWriteEnd a0) := fun h => fits h

theorem protectTrip a0 a1 : Statement (.protectTrip a0 a1) := fun h => fits (first_of_and h)

theorem feStreamAtCt a0 : Statement (.feStreamAtCt a0) := fun h => fits h

theorem pllLockLoss a0 a1 a2 : Statement (.pllLockLoss a0 a1 a2) := fun h => fits (first_of_and h)

theorem pllSyncEdge a0 a1 a2 : Statement (.pllSyncEdge a0 a1 a2) := fun h => fits (first_of_and (first_of_and h))

theorem relockAttemptFail a0 a1 a2 : Statement (.relockAttemptFail a0 a1 a2) := fun h => fits (first_of_and (first_of_and h))

theorem refInLoss a0 a1 a2 : Statement (.refInLoss a0 a1 a2) := fun h => fits (first_of_and h)

theorem refLoopLock a0 : Statement (.refLoopLock a0) := fun h => fits h

theorem nodeLoss a0 : Statement (.nodeLoss a0) := fun h => fits h

theorem nodeRecovery a0 : Statement (.nodeRecovery a0) := fun h => fits h

theorem inputEdge a0 a1 a2 a3 : Statement (.inputEdge a0 a1 a2 a3) := fun h => fits (first_of_and (first_of_and h))

theorem ppsLoss a0 : Statement (.ppsLoss a0) := fun h => fits h

theorem pendingEdgeClose a0 a1 : Statement (.pendingEdgeClose a0 a1) := fun h => fits (first_of_and h)

theorem tiuLost a0 a1 : Statement (.tiuLost a0 a1) := fun h => fits (first_of_and h)

theorem queueDrain a0 a1 a2 : Statement (.queueDrain a0 a1 a2) := fun h => fits (first_of_and (first_of_and h))

theorem tiuCalTestEnd a0 a1 a2 : Statement (.tiuCalTestEnd a0 a1 a2) := fun h => fits (first_of_and (first_of_and h))

theorem calStepEnd a0 a1 a2 : Statement (.calStepEnd a0 a1 a2) := fun h => fits (first_of_and (first_of_and h))

theorem blindRun a0 a1 : Statement (.blindRun a0 a1) := fun h => fits (first_of_and h)

theorem calDrift a0 a1 a2 : Statement (.calDrift a0 a1 a2) := fun h => fits (first_of_and (first_of_and h))

theorem handOver a0 a1 : Statement (.handOver a0 a1) := fun h => fits (first_of_and h)

theorem handlerReturn a0 a1 : Statement (.handlerReturn a0 a1) := fun h => fits (first_of_and h)

theorem waitEnd a0 a1 : Statement (.waitEnd a0 a1) := fun h => fits (first_of_and h)

theorem commonsLoadReturn a0 a1 : Statement (.commonsLoadReturn a0 a1) := fun h => fits (first_of_and h)

theorem syncComplete a0 a1 : Statement (.syncComplete a0 a1) := fun h => fits (first_of_and h)

theorem timerMatch a0 a1 : Statement (.timerMatch a0 a1) := fun h => fits (first_of_and h)

theorem feedCopyBlock a0 a1 : Statement (.feedCopyBlock a0 a1) := fun h => fits (first_of_and h)

theorem feedWriteOut a0 a1 : Statement (.feedWriteOut a0 a1) := fun h => fits (first_of_and h)

theorem refresh a0 : Statement (.refresh a0) := fun h => fits h

theorem patrolScrub a0 a1 : Statement (.patrolScrub a0 a1) := fun h => fits (first_of_and h)

theorem correctableError a0 a1 a2 a3 : Statement (.correctableError a0 a1 a2 a3) := fun h => fits (first_of_and (first_of_and (first_of_and h)))

theorem uncorrectableError a0 a1 a2 a3 a4 : Statement (.uncorrectableError a0 a1 a2 a3 a4) := fun h => fits (first_of_and (first_of_and (first_of_and h)))

theorem rankSwitchOver a0 : Statement (.rankSwitchOver a0) := fun h => fits h

theorem migrationRowCopy a0 a1 : Statement (.migrationRowCopy a0 a1) := fun h => fits (first_of_and h)

theorem memRingLost a0 : Statement (.memRingLost a0) := fun h => fits h

theorem zeroingDone a0 a1 : Statement (.zeroingDone a0 a1) := fun h => fits (first_of_and h)

theorem onDieError a0 a1 a2 a3 a4 a5 : Statement (.onDieError a0 a1 a2 a3 a4 a5) := fun h => fits (first_of_and (first_of_and (first_of_and (first_of_and h))))

theorem dmaHandover a0 a1 : Statement (.dmaHandover a0 a1) := fun h => fits (first_of_and h)

theorem dmaBurst a0 a1 a2 a3 : Statement (.dmaBurst a0 a1 a2 a3) := fun h => fits (first_of_and (first_of_and h))

theorem descriptorEnd a0 a1 : Statement (.descriptorEnd a0 a1) := fun h => fits (first_of_and h)

theorem timerLinePulse a0 a1 : Statement (.timerLinePulse a0 a1) := fun h => fits (first_of_and h)

theorem streamRecordCopy a0 a1 a2 : Statement (.streamRecordCopy a0 a1 a2) := fun h => fits (first_of_and (first_of_and h))

theorem checkpoint a0 : Statement (.checkpoint a0) := fun h => fits h

theorem stripeComplete a0 a1 a2 : Statement (.stripeComplete a0 a1 a2) := fun h => fits (first_of_and (first_of_and h))

theorem mountMeasurementEnd a0 a1 : Statement (.mountMeasurementEnd a0 a1) := fun h => fits (first_of_and h)

theorem driveFail a0 a1 a2 a3 : Statement (.driveFail a0 a1 a2 a3) := fun h => fits (first_of_and (first_of_and (first_of_and h)))

theorem dispLineStart a0 a1 a2 a3 a4 : Statement (.dispLineStart a0 a1 a2 a3 a4) := fun h => fits (first_of_and (first_of_and h))

theorem frameDone a0 a1 : Statement (.frameDone a0 a1) := fun h => fits (first_of_and h)

theorem hpdLoss a0 a1 : Statement (.hpdLoss a0 a1) := fun h => fits (first_of_and h)

theorem hpdRestore a0 a1 a2 : Statement (.hpdRestore a0 a1 a2) := fun h => fits (first_of_and h)

theorem hpdIrq a0 a1 a2 a3 a4 : Statement (.hpdIrq a0 a1 a2 a3 a4) := fun h => fits (first_of_and h)

theorem panelHpdWait a0 a1 a2 a3 a4 a5 : Statement (.panelHpdWait a0 a1 a2 a3 a4 a5) := fun h => fits (first_of_and (first_of_and (first_of_and h)))

theorem bldelayExpiry a0 a1 : Statement (.bldelayExpiry a0 a1) := fun h => fits (first_of_and h)

theorem vddenOffDelay a0 a1 : Statement (.vddenOffDelay a0 a1) := fun h => fits (first_of_and h)

theorem auxPassStart a0 : Statement (.auxPassStart a0) := fun h => fits h

theorem auxConversion a0 a1 a2 : Statement (.auxConversion a0 a1 a2) := fun h => fits (first_of_and (first_of_and (first_of_and h)))

theorem auxLimitPeriodEnd a0 : Statement (.auxLimitPeriodEnd a0) := fun h => fits h

theorem auxOvr a0 : Statement (.auxOvr a0) := fun h => fits h

theorem auxRef a0 a1 : Statement (.auxRef a0 a1) := fun h => fits (first_of_and h)

theorem ctlStep a0 a1 : Statement (.ctlStep a0 a1) := fun h => fits (first_of_and h)

theorem ctlRangePhase a0 a1 : Statement (.ctlRangePhase a0 a1) := fun h => fits (first_of_and h)

theorem ctlTimedWrite a0 : Statement (.ctlTimedWrite a0) := fun h => fits h

theorem ctlFault a0 a1 a2 : Statement (.ctlFault a0 a1 a2) := fun h => fits (first_of_and h)

theorem groveStartAtCt a0 : Statement (.groveStartAtCt a0) := fun h => fits h

theorem perfControlAtCt a0 : Statement (.perfControlAtCt a0) := fun h => fits h

theorem perfSat a0 a1 a2 : Statement (.perfSat a0 a1 a2) := fun h => fits (first_of_and (first_of_and h))

theorem forcedRaise a0 a1 : Statement (.forcedRaise a0 a1) := fun h => fits (first_of_and h)

theorem suppressionWindowClose a0 : Statement (.suppressionWindowClose a0) := fun h => fits h

theorem powerOn a0 a1 a2 : Statement (.powerOn a0 a1 a2) := fun h => fits (first_of_and h)

theorem deviceReset a0 a1 : Statement (.deviceReset a0 a1) := fun h => fits h

theorem powerDown a0 : Statement (.powerDown a0) := fun h => fits h

theorem thermalStage a0 a1 : Statement (.thermalStage a0 a1) := fun h => fits (first_of_and (first_of_and h))

theorem thermalStageExit a0 a1 : Statement (.thermalStageExit a0 a1) := fun h => fits (first_of_and h)

theorem thermalTrip a0 a1 : Statement (.thermalTrip a0 a1) := fun h => fits (first_of_and (first_of_and h))

theorem faultDetection a0 a1 a2 a3 : Statement (.faultDetection a0 a1 a2 a3) := fun h => fits (first_of_and (first_of_and (first_of_and h)))

theorem railFault a0 a1 a2 a3 : Statement (.railFault a0 a1 a2 a3) := fun h => fits (first_of_and h)

theorem tiuTableUncal a0 a1 a2 : Statement (.tiuTableUncal a0 a1 a2) := fun h => fits (first_of_and (first_of_and h))

theorem ctlFaultClear a0 a1 a2 : Statement (.ctlFaultClear a0 a1 a2) := fun h => fits (first_of_and h)

theorem vddenLowTimeExpiry a0 a1 : Statement (.vddenLowTimeExpiry a0 a1) := fun h => fits (first_of_and h)

theorem dispLinkTrainingEnd a0 a1 a2 : Statement (.dispLinkTrainingEnd a0 a1 a2) := fun h => fits (first_of_and h)

theorem dispAuxReply a0 a1 a2 a3 : Statement (.dispAuxReply a0 a1 a2 a3) := fun h => fits (first_of_and (first_of_and (first_of_and h)))

theorem driveCommandCompletion a0 a1 a2 a3 a4 a5 : Statement (.driveCommandCompletion a0 a1 a2 a3 a4 a5) := fun h => fits (first_of_and (first_of_and (first_of_and (first_of_and h))))

theorem storageLinkUp a0 a1 a2 a3 a4 a5 a6 a7 a8 a9 a10 : Statement (.storageLinkUp a0 a1 a2 a3 a4 a5 a6 a7 a8 a9 a10) := fun h => fits (first_of_and (first_of_and (first_of_and (first_of_and (first_of_and (first_of_and h))))))

theorem hpPerstRelease a0 : Statement (.hpPerstRelease a0) := fun h => fits h

theorem hpLinkUp a0 a1 a2 a3 : Statement (.hpLinkUp a0 a1 a2 a3) := fun h => fits (first_of_and (first_of_and h))

theorem configWrite a0 a1 a2 a3 a4 : Statement (.configWrite a0 a1 a2 a3 a4) := fun h => fits h

theorem msixTableWrite a0 a1 a2 a3 a4 : Statement (.msixTableWrite a0 a1 a2 a3 a4) := fun h => fits (first_of_and (first_of_and (first_of_and h)))

theorem stagedSignalRaise a0 a1 : Statement (.stagedSignalRaise a0 a1) := fun h => fits (first_of_and h)

theorem panicClear a0 a1 a2 a3 : Statement (.panicClear a0 a1 a2 a3) := fun h => fits (first_of_and (first_of_and (first_of_and h)))

theorem panicLong a0 a1 a2 : Statement (.panicLong a0 a1 a2) := fun h => fits (first_of_and (first_of_and h))

theorem rankSwitchOverEnd a0 : Statement (.rankSwitchOverEnd a0) := fun h => fits h

theorem densClearEnd a0 a1 : Statement (.densClearEnd a0 a1) := fun h => fits (first_of_and h)

theorem commandTransferEnd a0 a1 : Statement (.commandTransferEnd a0 a1) := fun h => fits (first_of_and h)

theorem firmwareStartTimeout a0 : Statement (.firmwareStartTimeout a0) := fun h => fits h

theorem startupComplete a0 a1 a2 a3 a4 a5 : Statement (.startupComplete a0 a1 a2 a3 a4 a5) := fun h => fits (first_of_and (first_of_and (first_of_and h)))

theorem rstNRelease a0 : Statement (.rstNRelease a0) := fun h => fits h

theorem testPortAccess a0 a1 a2 a3 a4 a5 : Statement (.testPortAccess a0 a1 a2 a3 a4 a5) := fun h => fits (first_of_and (first_of_and (first_of_and (first_of_and (first_of_and h)))))

theorem ceilingRampEnd a0 : Statement (.ceilingRampEnd a0) := fun h => fits h

theorem clkSetTimeTimeout a0 : Statement (.clkSetTimeTimeout a0) := fun h => fits h

theorem nodeActivityReturn a0 : Statement (.nodeActivityReturn a0) := fun h => fits h

theorem refInReturn a0 : Statement (.refInReturn a0) := fun h => fits h

end Sys2Proof.Laws.TickFits
end

