-- ==== Sys2Proof/Tests/Slice0.lean ====
section
/-! SUPPORT. Tests: worked examples of the spec, ill-formed commands that the check refuses, and for every statement with hypotheses a
witness, clause by clause, that they can hold. -/

set_option Elab.async false
set_option linter.unusedVariables false

open Sys2Proof Sys2Proof.Machine

namespace Sys2Proof.Tests

/-! ## Small states -/

/-- Session 0 owns units of every class of R458. -/
def allOwned : Tab Nat :=
  [(1, 4), (2, 4), (3, 2), (4, 2), (5, 1), (6, 2), (7, 2), (8, 4), (9, 9), (10, 4), (11, 2), (12, 1), (13, 2), (14, 2), (15, 8), (16, 2), (17, 2),
   (18, 2), (19, 1), (20, 1), (21, 1), (22, 1), (23, 1), (24, 2)].flatMap (fun e => (List.range e.2).map (fun u => (e.1 * 65536 + u, 1)))

/-- A ready engine: session 0 is OPEN with rings of 16 entries, Bus Master Enable is set, nothing is owned. -/
def ready : State :=
  { now := 1000000, host := { engine := 1, busMaster := true, sessions := [(0, { st := 1, qcfg := 0x44 })] }, pwr := { step := 9, alertLow := false, perst := true } }

/-- Session 0 owns units of every class, four regions (two plain ones, a record ring and a capture ring), and CH0 to CH3 run from RF_IN0 to RF_IN3. -/
def owned : State :=
  { ready with
    host := { ready.host with owners := allOwned }
    mem := { regions := [(0, { addr := 0x1000000, size := 0x1000000 }), (1, { addr := 0x2000000, size := 0x100000, kind := 1 }),
                         (2, { addr := 0x3000000, size := 0x1000000, kind := 2 }), (3, { addr := 0x4000000, size := 0x1000000 })] }
    fe := { src := [(0, 6), (1, 7), (2, 4), (3, 5)], streams := [(0, { running := true }), (1, { running := true }), (2, { running := true }), (3, { running := true })] } }

/-- A command of session 0 with tag 1 and a block of n units. -/
def cmd (n : Nat) : Cmd := { t := 1000000, session := 0, tag := 1, plen := BitVec.ofNat 5 n, fence := false, timeout := 0, rsv := 0 }

/-- A block with fields: bit position, width, value. -/
def block (l : List (Nat × Nat × Nat)) : Block := BitVec.ofNat 1792 (l.foldl (fun a e => a + e.2.2 % 2 ^ e.2.1 * 2 ^ e.1) 0)

/-- `owned` without streams. -/
def quiet : State := { owned with fe := {} }

/-- `owned` at work: a calibration record, zeroed memory, an armable unit, a lane with a density map on it, a port in a mode with a layer's region in use,
the aux sequencer in a pass, an enabled control output, a running core. -/
def rich : State :=
  { owned with
    cal := { records := [{}] }
    mem := { owned.mem with zeroed := [(0x5000000, 0x6000000)] }
    acq := { units := [(0, { terms := 1, capSet := true, post := 256, entries := [{ stream := 0, ring := 2 }] })], terms := [(0, { on := true })] }
    spec := { lanes := [(0, { on := true, run := { source := 0, log2n := 8 } })] }
    disp := { maps := [(1, { on := true, bins := 1 })], ports := [(0, { mode := 0, psrCap := true, refs := [(0, true)] })] }
    aux := { run := true, inPass := true }
    ctl := [(0, { on := true })]
    grove := { cores := [(0, { st := 1 })] } }

/-- `rich` with port 0 in Fallow and the core supply below 0.85 V. -/
def lean_ : State := { rich with disp := { rich.disp with ports := [(0, { mode := 0, fallow := true })] }, spec := { rich.spec with vcore := 800 } }

/-- `quiet` in SAPLING, without an owner. -/
def young : State := { quiet with sec := { life := 1 } }

/-- A core of a session that owns its Grove and one page of the commons. -/
def coreAt (x : GCore) : State := { owned with grove := { cores := [(0, x)] }, mem := { owned.mem with commons := [(0, 1, 0)] } }

/-- A core in its handler, its page of the commons as in `coreAt`. -/
def inHandler : State := coreAt { st := 1, inh := true }

/-- A drive in the storage port's link 0, and a volume on it. -/
def stored : State :=
  { owned with
    move := { portOn := true, links := [(0, { rate := 5, width := 4, ok := true, member := true, stripes := 9000 })], mounted := true, drives := 1, vstripes := 4000,
              admitRate := 60000, admitV := 800000000000 }
    mem := { regions := [(0, { addr := 0x1000000, size := 0x4000000 })] } }

/-- Core 0 has the word of instruction `op` with the fields `w` at its program counter. -/
def withWord (op w : Nat) (s : State) : State :=
  let x := s.core 0
  s.setCore 0 { x with spad := wrBytes x.spad x.pc (toBytes (op * 2 ^ 26 + w) 4) }

/-! ## Worked examples of the spec: every expected value is the spec's own -/

/-- Pair PA at 40.0 GS/s with its epoch at 1,000,000 ct (01_architecture.md, the example of R22). -/
def pairAt (base : Int) : State := { ready with fe := { pairMode := [(0, true)], streams := [(4, { running := true, cur := { ep := { no := 1, base := base, ns := 400 } } })] } }

theorem test_grainTime : grainTime (pairAt (stampOf 1000000)) 4 3 = stampOf 1000030 + 47186 ∧
    grainTime (pairAt (stampOf 1000000)) 4 4 = stampOf 1000040 + 62915 := by decide +kernel

/-- CH1 at 20.0 GS/s with an attenuator change at grain 1,000,000: a window of 1.0 µs, 1,600 ct (02_sampling_front_end.md, the example of R52). -/
def changed (id : Nat) (s : State) : State := openSettle s id 1000000 1600
def inSettle (s : State) (id n : Nat) : Bool :=
  (s.str id).settle.any (fun w => decide (w.1 ≤ (s.str id).cur.ep.exact (256 * n) ∧ (s.str id).cur.ep.exact (256 * n) < w.2))
def ch1 : State := { ready with fe := { streams := [(1, { running := true, cur := { ep := { no := 1, ns := 200 } } })] } }

theorem test_settleWindow : inSettle (changed 1 ch1) 1 999999 = false ∧ inSettle (changed 1 ch1) 1 1000000 = true ∧
    inSettle (changed 1 ch1) 1 1000078 = true ∧ inSettle (changed 1 ch1) 1 1000079 = false ∧
    inSettle (changed 4 (pairAt 0)) 4 1000156 = true ∧ inSettle (changed 4 (pairAt 0)) 4 1000157 = false := by decide +kernel

/-- A sync edge at 1,600,000,016 ct with DELAY 100 and T_ALIGN −24,864 (07_clocks_and_canopy_timebase.md, the example of R244). -/
theorem test_epochStamp : epochStamp (pairAt ((1600000016 * 65536 : Nat) + 6400 - 24864)) 4 = stampOf 1600000015 + 47072 ∧
    grainTime (pairAt ((1600000016 * 65536 : Nat) + 6400 - 24864)) 4 1 = stampOf 1600000025 + 62801 := by decide +kernel

/-- Three breakpoints (04_triggers_and_acquisition.md, the example of R127). -/
def slope : List Bp := [{ pos := 1000, level := -6400, lin := true }, { pos := 1200, level := -3840 }, { pos := 1300, level := -3840 }]

theorem test_maskLimit : limitAt slope 1050 = some (-5760) ∧ limitAt slope 1200 = some (-3840) ∧ limitAt slope 1300 = some (-3840) ∧
    limitAt slope 999 = none ∧ limitAt slope 1301 = none := by decide +kernel

/-- A density map over bins 0 to 1,024 (05_density_and_display.md, the example of R167). -/
theorem test_densityCell : (densBins { bins := 1025 } 700).1 = 350 ∧ densRow { bottom := -16384, step := 16 } (-5120) = 704 ∧
    decEff { ready with spec := { shed := 2 } } { dec := 2 } = 8 := by decide +kernel

/-- A calibrated table with 33,981 LSB before code 100 and 378 LSB at it, and IN_DELAY 190,000 (08_time_interval_unit.md, the example of R271). -/
def edgeIn : State :=
  { ready with tiu := { ins := [(5, { bins := some (33981 :: List.replicate 99 0 ++ [378]) })] } }

theorem test_rawEdge : rawTime2 (edgeIn.tiuIn 5) 1000000 100 - 2 * 190000 = 2 * ((999996 * 65536 + 37974 : Nat) : Int) := by decide +kernel

/-- The device address 0x8D240, before and after rank 10 of Q2 is retired (11_memory_system.md, the example of R360). -/
theorem test_addressMapping : quadOf 578112 = 2 ∧ rowOf 578112 = 37 ∧ rankOf ready 578112 = 10 ∧ channelOf ready 578112 = 18 ∧
    globalRank ready 578112 = 42 ∧ rankAddr 578112 = 9536 ∧
    rankOf { ready with mem := { quads := [(2, { retired := 10, wmark := 38 })] } } 578112 = 5 ∧
    channelOf { ready with mem := { quads := [(2, { retired := 10, wmark := 38 })] } } 578112 = 21 := by decide +kernel

/-- A link of four lanes at 64 GT/s carries 29.5 GB/s (12_data_movement_and_recording.md, the example of R415). -/
theorem test_linkCapacity : linkCap 6 4 true = 29500000000 := by decide +kernel

/-- TIME0 at 5,000,000,000 ct, with TIME1 and TIME2 latched (13_host_interface_and_zci.md, the example of R452). -/
def timeAt : State := { ready with now := 5000000000 }

theorem test_timeWords : (readTime0 timeAt).host.time1 = some 0x00012A05 ∧ (readTime0 timeAt).host.time2 = some 0 ∧
    (readTime0 timeAt).host.readData = 0xF2000000 := by decide +kernel

/-- REPEAT 15 is 0xAC00000F; its low 26 bits are the operand (10_grove_dsp_cluster.md, the example of R338). -/
theorem test_repeatWord : fld 0xAC00000F 26 6 = 0x2B ∧ fld (BitVec.ofNat 26 0xAC00000F).toNat 0 16 = 15 := by decide +kernel

/-- A step takes the command at the front and leaves the rest. -/
theorem test_stepTakesFront : ∃ u, step { ready with pending := [.sysNop (cmd 0) 0, .heartbeatAdvance 1000000] } = .next u ∧
    u.pending = [.heartbeatAdvance 1000000] ∧ u.host.inProg = [] := ⟨_, rfl, by decide +kernel, by decide +kernel⟩

/-- A TONE of −10.00 dBm at 2.400 GHz into RF_IN1 at ATTEN 4, whose coupler stands at −20.120 dB, reads −36.31 dBFS (09_calibration.md, the example
of R305). -/
def toneAt : State := { ready with cal := { values := [(calKey 12 279, -20120)] } }
def toneStep : CalStep := { step := 2, input := 1, atten := 4, freq := 2400000, level := -1000 }

theorem test_toneGain : toneExpected toneAt toneStep = -36120000 ∧ toneGain toneAt toneStep 68157 (-36310000) = 69664 := by decide +kernel

/-! ## The form of a command: an ill-formed term for each check, and terms at the last value allowed -/

/-- A command header, and one whose tick does not fit. -/
def hdr : Cmd := cmd 0
def late : Cmd := { cmd 0 with t := 2^64 }

/-- What a calibration step measured, and eight temperatures. -/
def meas : Measured := ⟨0, 0, 0, 0, 0, false, [], [], []⟩
def temps : List Int := List.replicate 8 250

theorem test_illFormed_part0 : ([
    .sysGetInfo late 0, .sysAlloc late 0, .sysFree late 0, .sysGetAlloc late 0, .sysFwStage late 0 [], .sysFwStage hdr 0 [0, 256],
    .sysFwActivate late 0, .sysReset late 0, .sysNop late 0, .feSetMode late 0, .feSetSource late 0, .feSetAtten late 0,
    .feStream late 0, .feGetStatus late 0, .feSetProtect late 0, .clkSetRef late 0, .clkSetPll late 0, .clkBuildHops late 0,
    .clkSetPps late 0, .clkSetTime late 0, .clkGetStatus late 0, .calRun late 0, .calSetBlind late 0, .calRestore late 0,
    .calRead late 0, .calGetRecord late 0, .calGetStatus late 0, .specSetLane late 0, .specLoadWindow late 0 [],
    .specLoadWindow hdr 0 [0, 2^32], .specSetDdc late 0, .specTuneDdc late 0, .specSetTrace late 0, .specSetOutput late 0,
    .specGetStatus late 0, .specSetGovernor late 0, .acqSetTerm late 0, .acqSetCombiner late 0, .acqSetCapture late 0,
    .acqArm late 0, .acqStop late 0, .acqForce late 0, .acqLoadMask late 0 [], .acqLoadMask hdr 0 [0, 2^64], .acqSetMask late 0,
    .acqSetTest late 0, .acqSetEvtOut late 0, .acqGetStatus late 0, .densSetMap late 0, .densClear late 0, .densRead late 0,
    .densSetPigment late 0 [], .densSetPigment hdr 0 [0, 2^32], .dispSetMode late 0, .dispSetLayer late 0, .dispSetEvents late 0,
    .dispFallow late 0, .dispAux late 0, .dispGetStatus late 0, .densGetStatus late 0] : List Instr).all (fun i => !i.wf) = true := by decide +kernel

theorem test_illFormed_part1 : ([
    .monSetContext late 0, .monLoad late 0 [], .monLoad hdr 0 [0, 2^256], .monClear late 0, .monSnapshot late 0, .monRead late 0,
    .monSetLog late 0, .monGetStatus late 0, .tiuSetInput late 0, .tiuSetStats late 0, .tiuGetStats late 0, .tiuRead late 0,
    .tiuSetDrain late 0, .tiuCal late 0, .tiuGetStatus late 0, .groveLoad late 0 [], .groveLoad hdr 0 [0, 256],
    .groveStart late 0, .groveStop late 0, .groveSetShadow late 0, .groveSetFeed late 0, .groveSetBarrier late 0,
    .groveRead late 0, .groveGetStatus late 0, .groveGetFeed late 0, .memAlloc late 0, .memFree late 0, .memSetRing late 0,
    .memRingAck late 0, .memRingStatus late 0, .memCommons late 0, .memRetire late 0, .memGetStatus late 0, .memGetPoison late 0,
    .dmaSetChannel late 0, .dmaSetShadow late 0, .dmaRaise late 0, .dmaSetTimer late 0, .dmaGetStatus late 0, .streamSet late 0,
    .storSetPort late 0, .storFormat late 0, .storMount late 0, .storUnmount late 0, .recOpen late 0, .recClose late 0,
    .storGetStatus late 0, .storLogPage late 0, .auxSetRef late 0, .auxSetInput late 0, .auxSetSeq late 0, .auxGetStatus late 0,
    .ctlSetOutput late 0, .ctlWrite late 0, .ctlGetStatus late 0, .fltGetStatus late 0, .fltSetSeverity late 0,
    .fltGetRecord late 0, .fltClear late 0, .fltForce late 0] : List Instr).all (fun i => !i.wf) = true := by decide +kernel

theorem test_illFormed_part2 : ([
    .secGetCert late 0, .secAttest late 0, .secSetLifecycle late 0 [], .secSetLifecycle hdr 0 [0, 256], .secGetStatus late 0,
    .perfSetCounter late 0, .perfControl late 0, .perfRead late 0, .gNop (2^64) 0 0, .gNop 0 64 0, .gAdd (2^64) 0 0, .gAdd 0 64 0,
    .gSub (2^64) 0 0, .gSub 0 64 0, .gAnd (2^64) 0 0, .gAnd 0 64 0, .gOr (2^64) 0 0, .gOr 0 64 0, .gXor (2^64) 0 0, .gXor 0 64 0,
    .gShl (2^64) 0 0, .gShl 0 64 0, .gShr (2^64) 0 0, .gShr 0 64 0, .gSar (2^64) 0 0, .gSar 0 64 0, .gSlt (2^64) 0 0,
    .gSlt 0 64 0, .gSltu (2^64) 0 0, .gSltu 0 64 0, .gMul (2^64) 0 0, .gMul 0 64 0, .gAddi (2^64) 0 0, .gAddi 0 64 0,
    .gAndi (2^64) 0 0, .gAndi 0 64 0, .gOri (2^64) 0 0, .gOri 0 64 0, .gShi (2^64) 0 0, .gShi 0 64 0, .gMovi (2^64) 0 0,
    .gMovi 0 64 0, .gMovhi (2^64) 0 0, .gMovhi 0 64 0, .gCmul (2^64) 0 0, .gCmul 0 64 0, .gCadds (2^64) 0 0, .gCadds 0 64 0,
    .gCsubs (2^64) 0 0, .gCsubs 0 64 0, .gMovr (2^64) 0 0, .gMovr 0 64 0, .gSmov (2^64) 0 0, .gSmov 0 64 0, .gMovsr (2^64) 0 0,
    .gMovsr 0 64 0, .gMovrs (2^64) 0 0, .gMovrs 0 64 0, .gLd (2^64) 0 0, .gLd 0 64 0] : List Instr).all (fun i => !i.wf) = true := by decide +kernel

theorem test_illFormed_part3 : ([
    .gLdh (2^64) 0 0, .gLdh 0 64 0, .gSt (2^64) 0 0, .gSt 0 64 0, .gSth (2^64) 0 0, .gSth 0 64 0, .gSta (2^64) 0 0, .gSta 0 64 0,
    .gVsta (2^64) 0 0, .gVsta 0 64 0, .gRda (2^64) 0 0, .gRda 0 64 0, .gVmacD (2^64) 0 0, .gVmacD 0 64 0, .gVmacP (2^64) 0 0,
    .gVmacP 0 64 0, .gVmagP (2^64) 0 0, .gVmagP 0 64 0, .gCmac (2^64) 0 0, .gCmac 0 64 0, .gBr (2^64) 0 0, .gBr 0 64 0,
    .gCall (2^64) 0 0, .gCall 0 64 0, .gJr (2^64) 0 0, .gJr 0 64 0, .gRepeat (2^64) 0 0, .gRepeat 0 64 0, .gRepr (2^64) 0 0,
    .gRepr 0 64 0, .gReti (2^64) 0 0, .gReti 0 64 0, .gWait (2^64) 0 0, .gWait 0 64 0, .gHalt (2^64) 0 0, .gHalt 0 64 0,
    .gBar (2^64) 0 0, .gBar 0 64 0, .gFrel (2^64) 0 0, .gFrel 0 64 0, .gSync (2^64) 0 0, .gSync 0 64 0, .gNotify (2^64) 0 0,
    .gNotify 0 64 0, .gPost (2^64) 0 0, .gPost 0 64 0, .sqTailWrite (2^64) 0 0, .sqTailWrite 0 16 0, .sqTailWrite 0 0 (2^32),
    .cqHeadWrite (2^64) 0 0, .cqHeadWrite 0 16 0, .cqHeadWrite 0 0 (2^32), .evtHeadWrite (2^64) 0, .evtHeadWrite 0 (2^32),
    .strdbWrite (2^64) 0 0, .strdbWrite 0 32 0, .strdbWrite 0 0 (2^32), .qctlOpen (2^64) 0, .qctlOpen 0 16, .qctlReclaim (2^64) 0] : List Instr).all (fun i => !i.wf) = true := by decide +kernel

theorem test_illFormed_part4 : ([
    .qctlReclaim 0 16, .qctlClose (2^64) 0, .qctlClose 0 16, .leaseWrite (2^64) 0 0, .leaseWrite 0 16 0, .leaseWrite 0 0 (2^32),
    .evtCtlWrite (2^64) 0, .evtCtlWrite 0 (2^32), .time0Read (2^64), .serial0Read (2^64), .latchedWordRead (2^64) 0,
    .latchedWordRead 0 5, .auxDataRead (2^64), .ctlCodeWrite (2^64) 0 0, .ctlCodeWrite 0 8 0, .ctlCodeWrite 0 0 (2^32),
    .registerWrite (2^64) 0 0 0, .registerWrite 0 131072 0 0, .registerWrite 0 0 (2^32) 0, .registerWrite 0 0 0 3,
    .commandFetch late 0 0, .commandFetch hdr 0 3, .commandTimeout (2^64) 0 0, .commandTimeout 0 16 0, .commandTimeout 0 0 4096,
    .completionSignalHoldEnd (2^64) 0, .completionSignalHoldEnd 0 16, .eventDelayExpiry (2^64), .sysLease (2^64) 0,
    .sysLease 0 16, .leaseExpiry (2^64) 0, .leaseExpiry 0 16, .releaseEnd (2^64) 0, .releaseEnd 0 16,
    .hostInterfaceReset (2^64) 0, .hostInterfaceReset 0 4, .heartbeatAdvance (2^64), .grainTag (2^64) 0 [], .grainTag 0 6 [],
    .grainTag 0 0 [0, 4096], .overloadEnd (2^64) 0, .overloadEnd 0 6, .epochRollover (2^64) 0, .epochRollover 0 32,
    .grainDelivery (2^64) 0 0 0 0 false 0, .grainDelivery 0 256 0 0 0 false 0, .grainDelivery 0 0 32 0 0 false 0,
    .grainDelivery 0 0 0 (2^64) 0 false 0, .grainDelivery 0 0 0 0 256 false 0, .grainDelivery 0 0 0 0 0 false 2000001,
    .acqArmAtCt (2^64), .spectrumCompute (2^64) 0 0, .spectrumCompute 0 12 0, .spectrumCompute 0 0 10001,
    .timeTestVerdict (2^64) 0, .timeTestVerdict 0 8, .evtOutPulse (2^64), .evtOutPulseEnd (2^64), .govRaiseStep (2^64) [],
    .govRaiseStep 0 [(33, 0)]] : List Instr).all (fun i => !i.wf) = true := by decide +kernel

theorem test_illFormed_part5 : ([
    .govRaiseStep 0 [(0, 10001)], .govLowerStep (2^64) [], .govLowerStep 0 [(33, 0)], .govLowerStep 0 [(0, 10001)],
    .govShed (2^64) [], .govShed 0 [(33, 0)], .govShed 0 [(0, 10001)], .govRestore (2^64) [], .govRestore 0 [(33, 0)],
    .govRestore 0 [(0, 10001)], .decaySweep (2^64), .densReadCopyEnd (2^64) 0, .densReadCopyEnd 0 4, .monitorRound (2^64),
    .monEvlost (2^64), .monSnapshotWriteEnd (2^64), .protectTrip (2^64) 0, .protectTrip 0 4, .feStreamAtCt (2^64),
    .pllLockLoss (2^64) 0 false, .pllLockLoss 0 4 false, .pllSyncEdge (2^64) 0 [], .pllSyncEdge 0 4 [],
    .pllSyncEdge 0 0 [0, 2^16], .relockAttemptFail (2^64) 0 [], .relockAttemptFail 0 4 [], .relockAttemptFail 0 0 [0, 2^16],
    .refInLoss (2^64) false 0, .refInLoss 0 false (-(2^31)), .refLoopLock (2^64), .nodeLoss (2^64), .nodeRecovery (2^64),
    .inputEdge (2^64) 0 false 0, .inputEdge 0 9 false 0, .inputEdge 0 0 false 192, .ppsLoss (2^64), .pendingEdgeClose (2^64) 0,
    .pendingEdgeClose 0 4, .tiuLost (2^64) 0, .tiuLost 0 9, .queueDrain (2^64) 0 0, .queueDrain 0 9 0, .queueDrain 0 0 4097,
    .tiuCalTestEnd (2^64) 0 [], .tiuCalTestEnd 0 9 [], .tiuCalTestEnd 0 0 [0, 2^22], .calStepEnd (2^64) 0 meas,
    .calStepEnd 0 6 meas, .calStepEnd 0 0 { meas with freq := 100000000000000 }, .calStepEnd 0 0 { meas with level := 2^31 },
    .calStepEnd 0 0 { meas with vals := [2^32] }, .blindRun (2^64) 0, .blindRun 0 6, .calDrift (2^64) 0 0, .calDrift 0 6 0,
    .calDrift 0 0 (-32768), .handOver (2^64) 0, .handOver 0 64, .handlerReturn (2^64) 0, .handlerReturn 0 64] : List Instr).all (fun i => !i.wf) = true := by decide +kernel

theorem test_illFormed_part6 : ([
    .waitEnd (2^64) 0, .waitEnd 0 64, .commonsLoadReturn (2^64) 0, .commonsLoadReturn 0 64, .syncComplete (2^64) 0,
    .syncComplete 0 64, .timerMatch (2^64) 0, .timerMatch 0 64, .feedCopyBlock (2^64) 0, .feedCopyBlock 0 32,
    .feedWriteOut (2^64) 0, .feedWriteOut 0 32, .refresh (2^64), .patrolScrub (2^64) 0, .patrolScrub 0 (2^36),
    .correctableError (2^64) 0 0 0, .correctableError 0 (2^36) 0 0, .correctableError 0 0 14 0, .correctableError 0 0 0 256,
    .uncorrectableError (2^64) 0 false 0 0, .uncorrectableError 0 (2^36) false 0 0, .uncorrectableError 0 0 false 14 0,
    .uncorrectableError 0 0 false 0 256, .rankSwitchOver (2^64), .migrationRowCopy (2^64) [], .migrationRowCopy 0 [0, 4],
    .memRingLost (2^64), .zeroingDone (2^64) 0, .zeroingDone 0 (2^36), .onDieError (2^64) 0 0 0 0 false,
    .onDieError 0 6 0 0 0 false, .onDieError 0 0 65536 0 0 false, .onDieError 0 0 0 (2^32) 0 false, .onDieError 0 0 0 0 129 false,
    .dmaHandover (2^64) 0, .dmaHandover 0 32, .dmaBurst (2^64) 0 [] false, .dmaBurst 0 32 [] false, .dmaBurst 0 0 [0, 256] false,
    .descriptorEnd (2^64) 0, .descriptorEnd 0 32, .timerLinePulse (2^64) 0, .timerLinePulse 0 16, .streamRecordCopy (2^64) 0 0,
    .streamRecordCopy 0 32 0, .streamRecordCopy 0 0 2097153, .checkpoint (2^64), .stripeComplete (2^64) 0 0,
    .stripeComplete 0 (2^32) 0, .stripeComplete 0 0 4194305, .mountMeasurementEnd (2^64) [], .mountMeasurementEnd 0 [0, 2^32],
    .driveFail (2^64) 0 0 0, .driveFail 0 4 0 0, .driveFail 0 0 5 0, .driveFail 0 0 0 (2^16),
    .dispLineStart (2^64) 0 false [] false, .dispLineStart 0 2 false [] false, .dispLineStart 0 0 false [0, 4] false,
    .frameDone (2^64) 0] : List Instr).all (fun i => !i.wf) = true := by decide +kernel

theorem test_illFormed_part7 : ([
    .frameDone 0 2, .hpdLoss (2^64) 0, .hpdLoss 0 2, .hpdRestore (2^64) 0 false, .hpdRestore 0 2 false,
    .hpdIrq (2^64) 0 false false false, .hpdIrq 0 2 false false false, .panelHpdWait (2^64) 0 false 0 0 false,
    .panelHpdWait 0 2 false 0 0 false, .panelHpdWait 0 0 false 32 0 false, .panelHpdWait 0 0 false 0 4 false,
    .bldelayExpiry (2^64) 0, .bldelayExpiry 0 2, .vddenOffDelay (2^64) 0, .vddenOffDelay 0 2, .auxPassStart (2^64),
    .auxConversion (2^64) 0 1, .auxConversion 0 (-(2^32)) 1, .auxConversion 0 0 (2^32), .auxConversion 0 0 0,
    .auxLimitPeriodEnd (2^64), .auxOvr (2^64), .auxRef (2^64) 0, .auxRef 0 (2^32), .ctlStep (2^64) 0, .ctlStep 0 8,
    .ctlRangePhase (2^64) 0, .ctlRangePhase 0 8, .ctlTimedWrite (2^64), .ctlFault (2^64) 0 false, .ctlFault 0 8 false,
    .groveStartAtCt (2^64), .perfControlAtCt (2^64), .perfSat (2^64) 0 0, .perfSat 0 64 0, .perfSat 0 0 (2^48),
    .forcedRaise (2^64) [], .forcedRaise 0 [0, 65536], .suppressionWindowClose (2^64), .powerOn (2^64) false 0,
    .powerOn 0 false (-32768), .deviceReset (2^64) false, .powerDown (2^64), .thermalStage (2^64) [], .thermalStage 0 [],
    .thermalStage 0 (List.replicate 8 32768), .thermalStageExit (2^64) 0, .thermalStageExit 0 (-32768), .thermalTrip (2^64) [],
    .thermalTrip 0 [], .thermalTrip 0 (List.replicate 8 32768), .faultDetection (2^64) 0 0 [], .faultDetection 0 (2^16) 0 [],
    .faultDetection 0 0 3 [], .faultDetection 0 0 0 [0, 65536], .railFault (2^64) 0 false false, .railFault 0 12 false false,
    .tiuTableUncal (2^64) 0 0, .tiuTableUncal 0 9 0, .tiuTableUncal 0 0 (-32768)] : List Instr).all (fun i => !i.wf) = true := by decide +kernel

theorem test_illFormed_part8 : ([
    .ctlFaultClear (2^64) 0 false, .ctlFaultClear 0 8 false, .vddenLowTimeExpiry (2^64) 0, .vddenLowTimeExpiry 0 2,
    .dispLinkTrainingEnd (2^64) 0 false, .dispLinkTrainingEnd 0 2 false, .dispAuxReply (2^64) 0 0 [], .dispAuxReply 0 2 0 [],
    .dispAuxReply 0 0 4 [], .dispAuxReply 0 0 0 [0, 256], .driveCommandCompletion (2^64) 0 0 0 false [],
    .driveCommandCompletion 0 4 0 0 false [], .driveCommandCompletion 0 0 (2^16) 0 false [],
    .driveCommandCompletion 0 0 0 4 false [], .driveCommandCompletion 0 0 0 0 false [0, 4096],
    .storageLinkUp (2^64) 0 0 0 false false 0 0 false 0 false, .storageLinkUp 0 4 0 0 false false 0 0 false 0 false,
    .storageLinkUp 0 0 7 0 false false 0 0 false 0 false, .storageLinkUp 0 0 0 17 false false 0 0 false 0 false,
    .storageLinkUp 0 0 0 0 false false (2^64) 0 false 0 false, .storageLinkUp 0 0 0 0 false false 0 (2^32) false 0 false,
    .storageLinkUp 0 0 0 0 false false 0 0 false (2^160) false, .hpPerstRelease (2^64), .hpLinkUp (2^64) 0 0 false,
    .hpLinkUp 0 7 0 false, .hpLinkUp 0 0 5 false, .configWrite (2^64) false false false false, .msixTableWrite (2^64) 0 0 0 false,
    .msixTableWrite 0 64 0 0 false, .msixTableWrite 0 0 (2^64) 0 false, .msixTableWrite 0 0 0 (2^32) false,
    .stagedSignalRaise (2^64) 0, .stagedSignalRaise 0 64, .panicClear (2^64) 0 0 0, .panicClear 0 4 0 0, .panicClear 0 0 8 0,
    .panicClear 0 0 0 4194305, .panicLong (2^64) 0 0, .panicLong 0 4 0, .panicLong 0 0 8, .rankSwitchOverEnd (2^64),
    .densClearEnd (2^64) 0, .densClearEnd 0 4, .commandTransferEnd (2^64) 0, .commandTransferEnd 0 64,
    .firmwareStartTimeout (2^64), .startupComplete (2^64) [] false false [] [], .startupComplete 0 [0, 2^16] false false [] [],
    .startupComplete 0 [] false false [0, 2^16] [], .startupComplete 0 [] false false [] [0, 2^64], .rstNRelease (2^64),
    .testPortAccess (2^64) 0 0 0 0 0, .testPortAccess 0 8 0 0 0 0, .testPortAccess 0 0 (2^32) 0 0 0,
    .testPortAccess 0 0 0 (2^384) 0 0, .testPortAccess 0 0 0 0 4 0, .testPortAccess 0 0 0 0 0 (-(2^31)), .ceilingRampEnd (2^64),
    .clkSetTimeTimeout (2^64), .nodeActivityReturn (2^64)] : List Instr).all (fun i => !i.wf) = true := by decide +kernel

theorem test_illFormed_part9 : ([
    .refInReturn (2^64)] : List Instr).all (fun i => !i.wf) = true := by decide +kernel

theorem test_wellFormed_part0 : ([
    .sysGetInfo hdr 0, .sysAlloc hdr 0, .sysFree hdr 0, .sysGetAlloc hdr 0, .sysFwStage hdr 0 [0, 256 - 1], .sysFwActivate hdr 0,
    .sysReset hdr 0, .sysNop hdr 0, .feSetMode hdr 0, .feSetSource hdr 0, .feSetAtten hdr 0, .feStream hdr 0, .feGetStatus hdr 0,
    .feSetProtect hdr 0, .clkSetRef hdr 0, .clkSetPll hdr 0, .clkBuildHops hdr 0, .clkSetPps hdr 0, .clkSetTime hdr 0,
    .clkGetStatus hdr 0, .calRun hdr 0, .calSetBlind hdr 0, .calRestore hdr 0, .calRead hdr 0, .calGetRecord hdr 0,
    .calGetStatus hdr 0, .specSetLane hdr 0, .specLoadWindow hdr 0 [0, 2^32 - 1], .specSetDdc hdr 0, .specTuneDdc hdr 0,
    .specSetTrace hdr 0, .specSetOutput hdr 0, .specGetStatus hdr 0, .specSetGovernor hdr 0, .acqSetTerm hdr 0,
    .acqSetCombiner hdr 0, .acqSetCapture hdr 0, .acqArm hdr 0, .acqStop hdr 0, .acqForce hdr 0, .acqLoadMask hdr 0 [0, 2^64 - 1],
    .acqSetMask hdr 0, .acqSetTest hdr 0, .acqSetEvtOut hdr 0, .acqGetStatus hdr 0, .densSetMap hdr 0, .densClear hdr 0,
    .densRead hdr 0, .densSetPigment hdr 0 [0, 2^32 - 1], .dispSetMode hdr 0, .dispSetLayer hdr 0, .dispSetEvents hdr 0,
    .dispFallow hdr 0, .dispAux hdr 0, .dispGetStatus hdr 0, .densGetStatus hdr 0, .monSetContext hdr 0,
    .monLoad hdr 0 [0, 2^256 - 1], .monClear hdr 0, .monSnapshot hdr 0] : List Instr).all Instr.wf = true := by decide +kernel

theorem test_wellFormed_part1 : ([
    .monRead hdr 0, .monSetLog hdr 0, .monGetStatus hdr 0, .tiuSetInput hdr 0, .tiuSetStats hdr 0, .tiuGetStats hdr 0,
    .tiuRead hdr 0, .tiuSetDrain hdr 0, .tiuCal hdr 0, .tiuGetStatus hdr 0, .groveLoad hdr 0 [0, 256 - 1], .groveStart hdr 0,
    .groveStop hdr 0, .groveSetShadow hdr 0, .groveSetFeed hdr 0, .groveSetBarrier hdr 0, .groveRead hdr 0, .groveGetStatus hdr 0,
    .groveGetFeed hdr 0, .memAlloc hdr 0, .memFree hdr 0, .memSetRing hdr 0, .memRingAck hdr 0, .memRingStatus hdr 0,
    .memCommons hdr 0, .memRetire hdr 0, .memGetStatus hdr 0, .memGetPoison hdr 0, .dmaSetChannel hdr 0, .dmaSetShadow hdr 0,
    .dmaRaise hdr 0, .dmaSetTimer hdr 0, .dmaGetStatus hdr 0, .streamSet hdr 0, .storSetPort hdr 0, .storFormat hdr 0,
    .storMount hdr 0, .storUnmount hdr 0, .recOpen hdr 0, .recClose hdr 0, .storGetStatus hdr 0, .storLogPage hdr 0,
    .auxSetRef hdr 0, .auxSetInput hdr 0, .auxSetSeq hdr 0, .auxGetStatus hdr 0, .ctlSetOutput hdr 0, .ctlWrite hdr 0,
    .ctlGetStatus hdr 0, .fltGetStatus hdr 0, .fltSetSeverity hdr 0, .fltGetRecord hdr 0, .fltClear hdr 0, .fltForce hdr 0,
    .secGetCert hdr 0, .secAttest hdr 0, .secSetLifecycle hdr 0 [0, 256 - 1], .secGetStatus hdr 0, .perfSetCounter hdr 0,
    .perfControl hdr 0] : List Instr).all Instr.wf = true := by decide +kernel

theorem test_wellFormed_part2 : ([
    .perfRead hdr 0, .gNop (2^64 - 1) 63 0, .gAdd (2^64 - 1) 63 0, .gSub (2^64 - 1) 63 0, .gAnd (2^64 - 1) 63 0,
    .gOr (2^64 - 1) 63 0, .gXor (2^64 - 1) 63 0, .gShl (2^64 - 1) 63 0, .gShr (2^64 - 1) 63 0, .gSar (2^64 - 1) 63 0,
    .gSlt (2^64 - 1) 63 0, .gSltu (2^64 - 1) 63 0, .gMul (2^64 - 1) 63 0, .gAddi (2^64 - 1) 63 0, .gAndi (2^64 - 1) 63 0,
    .gOri (2^64 - 1) 63 0, .gShi (2^64 - 1) 63 0, .gMovi (2^64 - 1) 63 0, .gMovhi (2^64 - 1) 63 0, .gCmul (2^64 - 1) 63 0,
    .gCadds (2^64 - 1) 63 0, .gCsubs (2^64 - 1) 63 0, .gMovr (2^64 - 1) 63 0, .gSmov (2^64 - 1) 63 0, .gMovsr (2^64 - 1) 63 0,
    .gMovrs (2^64 - 1) 63 0, .gLd (2^64 - 1) 63 0, .gLdh (2^64 - 1) 63 0, .gSt (2^64 - 1) 63 0, .gSth (2^64 - 1) 63 0,
    .gSta (2^64 - 1) 63 0, .gVsta (2^64 - 1) 63 0, .gRda (2^64 - 1) 63 0, .gVmacD (2^64 - 1) 63 0, .gVmacP (2^64 - 1) 63 0,
    .gVmagP (2^64 - 1) 63 0, .gCmac (2^64 - 1) 63 0, .gBr (2^64 - 1) 63 0, .gCall (2^64 - 1) 63 0, .gJr (2^64 - 1) 63 0,
    .gRepeat (2^64 - 1) 63 0, .gRepr (2^64 - 1) 63 0, .gReti (2^64 - 1) 63 0, .gWait (2^64 - 1) 63 0, .gHalt (2^64 - 1) 63 0,
    .gBar (2^64 - 1) 63 0, .gFrel (2^64 - 1) 63 0, .gSync (2^64 - 1) 63 0, .gNotify (2^64 - 1) 63 0, .gPost (2^64 - 1) 63 0,
    .sqTailWrite (2^64 - 1) 15 (2^32 - 1), .cqHeadWrite (2^64 - 1) 15 (2^32 - 1), .evtHeadWrite (2^64 - 1) (2^32 - 1),
    .strdbWrite (2^64 - 1) 31 (2^32 - 1), .qctlOpen (2^64 - 1) 15, .qctlReclaim (2^64 - 1) 15, .qctlClose (2^64 - 1) 15,
    .leaseWrite (2^64 - 1) 15 (2^32 - 1), .evtCtlWrite (2^64 - 1) (2^32 - 1), .time0Read (2^64 - 1)] : List Instr).all Instr.wf = true := by decide +kernel

theorem test_wellFormed_part3 : ([
    .serial0Read (2^64 - 1), .latchedWordRead (2^64 - 1) 4, .auxDataRead (2^64 - 1), .ctlCodeWrite (2^64 - 1) 7 (2^32 - 1),
    .registerWrite (2^64 - 1) 131071 (2^32 - 1) 2, .commandFetch hdr 0 2, .commandTimeout (2^64 - 1) 15 4095,
    .completionSignalHoldEnd (2^64 - 1) 15, .eventDelayExpiry (2^64 - 1), .sysLease (2^64 - 1) 15, .leaseExpiry (2^64 - 1) 15,
    .releaseEnd (2^64 - 1) 15, .hostInterfaceReset (2^64 - 1) 3, .heartbeatAdvance (2^64 - 1),
    .grainTag (2^64 - 1) 5 [0, 4096 - 1], .overloadEnd (2^64 - 1) 5, .epochRollover (2^64 - 1) 31,
    .grainDelivery (2^64 - 1) 255 31 (2^64 - 1) 255 false 2000000, .acqArmAtCt (2^64 - 1), .spectrumCompute (2^64 - 1) 11 10000,
    .timeTestVerdict (2^64 - 1) 7, .evtOutPulse (2^64 - 1), .evtOutPulseEnd (2^64 - 1), .govRaiseStep (2^64 - 1) [(32, 10000)],
    .govLowerStep (2^64 - 1) [(32, 10000)], .govShed (2^64 - 1) [(32, 10000)], .govRestore (2^64 - 1) [(32, 10000)],
    .decaySweep (2^64 - 1), .densReadCopyEnd (2^64 - 1) 3, .monitorRound (2^64 - 1), .monEvlost (2^64 - 1),
    .monSnapshotWriteEnd (2^64 - 1), .protectTrip (2^64 - 1) 3, .feStreamAtCt (2^64 - 1), .pllLockLoss (2^64 - 1) 3 false,
    .pllSyncEdge (2^64 - 1) 3 [0, 2^16 - 1], .relockAttemptFail (2^64 - 1) 3 [0, 2^16 - 1],
    .refInLoss (2^64 - 1) false (1 - 2^31), .refLoopLock (2^64 - 1), .nodeLoss (2^64 - 1), .nodeRecovery (2^64 - 1),
    .inputEdge (2^64 - 1) 8 false 191, .ppsLoss (2^64 - 1), .pendingEdgeClose (2^64 - 1) 3, .tiuLost (2^64 - 1) 8,
    .queueDrain (2^64 - 1) 8 4096, .tiuCalTestEnd (2^64 - 1) 8 [0, 2^22 - 1],
    .calStepEnd (2^64 - 1) 5 { meas with freq := 99999999999999, purity := 2^31 - 1 }, .blindRun (2^64 - 1) 5,
    .calDrift (2^64 - 1) 5 (1 - 32768), .handOver (2^64 - 1) 63, .handlerReturn (2^64 - 1) 63, .waitEnd (2^64 - 1) 63,
    .commonsLoadReturn (2^64 - 1) 63, .syncComplete (2^64 - 1) 63, .timerMatch (2^64 - 1) 63, .feedCopyBlock (2^64 - 1) 31,
    .feedWriteOut (2^64 - 1) 31, .refresh (2^64 - 1), .patrolScrub (2^64 - 1) (2^36 - 1)] : List Instr).all Instr.wf = true := by decide +kernel

theorem test_wellFormed_part4 : ([
    .correctableError (2^64 - 1) (2^36 - 1) 13 255, .uncorrectableError (2^64 - 1) (2^36 - 1) false 13 255,
    .rankSwitchOver (2^64 - 1), .migrationRowCopy (2^64 - 1) [0, 4 - 1], .memRingLost (2^64 - 1),
    .zeroingDone (2^64 - 1) (2^36 - 1), .onDieError (2^64 - 1) 5 65535 (2^32 - 1) 128 false, .dmaHandover (2^64 - 1) 31,
    .dmaBurst (2^64 - 1) 31 [0, 256 - 1] false, .descriptorEnd (2^64 - 1) 31, .timerLinePulse (2^64 - 1) 15,
    .streamRecordCopy (2^64 - 1) 31 2097152, .checkpoint (2^64 - 1), .stripeComplete (2^64 - 1) (2^32 - 1) 4194304,
    .mountMeasurementEnd (2^64 - 1) [0, 2^32 - 1], .driveFail (2^64 - 1) 3 4 (2^16 - 1),
    .dispLineStart (2^64 - 1) 1 false [0, 4 - 1] false, .frameDone (2^64 - 1) 1, .hpdLoss (2^64 - 1) 1,
    .hpdRestore (2^64 - 1) 1 false, .hpdIrq (2^64 - 1) 1 false false false, .panelHpdWait (2^64 - 1) 1 false 31 3 false,
    .bldelayExpiry (2^64 - 1) 1, .vddenOffDelay (2^64 - 1) 1, .auxPassStart (2^64 - 1),
    .auxConversion (2^64 - 1) (1 - 2^32) (2^32 - 1), .auxLimitPeriodEnd (2^64 - 1), .auxOvr (2^64 - 1),
    .auxRef (2^64 - 1) (2^32 - 1), .ctlStep (2^64 - 1) 7, .ctlRangePhase (2^64 - 1) 7, .ctlTimedWrite (2^64 - 1),
    .ctlFault (2^64 - 1) 7 false, .groveStartAtCt (2^64 - 1), .perfControlAtCt (2^64 - 1), .perfSat (2^64 - 1) 63 (2^48 - 1),
    .forcedRaise (2^64 - 1) [0, 65536 - 1], .suppressionWindowClose (2^64 - 1), .powerOn (2^64 - 1) false (1 - 32768),
    .deviceReset (2^64 - 1) false, .powerDown (2^64 - 1), .thermalStage (2^64 - 1) (List.replicate 8 32767),
    .thermalStageExit (2^64 - 1) (1 - 32768), .thermalTrip (2^64 - 1) (List.replicate 8 32767),
    .faultDetection (2^64 - 1) (2^16 - 1) 2 [0, 65536 - 1], .railFault (2^64 - 1) 11 false false,
    .tiuTableUncal (2^64 - 1) 8 (1 - 32768), .ctlFaultClear (2^64 - 1) 7 false, .vddenLowTimeExpiry (2^64 - 1) 1,
    .dispLinkTrainingEnd (2^64 - 1) 1 false, .dispAuxReply (2^64 - 1) 1 3 [0, 256 - 1],
    .driveCommandCompletion (2^64 - 1) 3 (2^16 - 1) 3 false [0, 4096 - 1],
    .storageLinkUp (2^64 - 1) 3 6 16 false false (2^64 - 1) (2^32 - 1) false (2^160 - 1) false, .hpPerstRelease (2^64 - 1),
    .hpLinkUp (2^64 - 1) 6 4 false, .configWrite (2^64 - 1) false false false false,
    .msixTableWrite (2^64 - 1) 63 (2^64 - 1) (2^32 - 1) false, .stagedSignalRaise (2^64 - 1) 63,
    .panicClear (2^64 - 1) 3 7 4194304, .panicLong (2^64 - 1) 3 7] : List Instr).all Instr.wf = true := by decide +kernel

theorem test_wellFormed_part5 : ([
    .rankSwitchOverEnd (2^64 - 1), .densClearEnd (2^64 - 1) 3, .commandTransferEnd (2^64 - 1) 63,
    .firmwareStartTimeout (2^64 - 1), .startupComplete (2^64 - 1) [0, 2^16 - 1] false false [0, 2^16 - 1] [0, 2^64 - 1],
    .rstNRelease (2^64 - 1), .testPortAccess (2^64 - 1) 7 (2^32 - 1) (2^384 - 1) 3 (1 - 2^31), .ceilingRampEnd (2^64 - 1),
    .clkSetTimeTimeout (2^64 - 1), .nodeActivityReturn (2^64 - 1), .refInReturn (2^64 - 1)] : List Instr).all Instr.wf = true := by decide +kernel

/-! ## Witnesses of the statements' hypotheses -/

/-- The opcodes of Table 13-10. -/
def opcodes : List Nat := (List.range 0x0F00).filter opKnown

/-- `ready` in the fatal state, in NURSERY without an identity key, and in DEADWOOD. -/
def fatal : State := { ready with host := { ready.host with engine := 2 } }
def nursery : State := { ready with sec := { life := 0 } }
def deadwood : State := { ready with sec := { life := 4 } }

/-- The hypotheses of the checks that all commands share: for every opcode a state in which the command is taken up and not denied, with the engine
running and in the fatal state; a state that denies each command that the life cycle can deny; and an envelope that is malformed for every command. -/
theorem met_shared :
    (opcodes.all fun op => zciFront op (cmd 0) ready && !denies ready op && zciFront op (cmd 0) fatal && !denies fatal op) = true ∧
    ready.host.engine = 1 ∧ fatal.host.engine = 2 ∧
    ([0x0301, 0x0302, 0x0303, 0x0806, 0x0B08, 0x0B0B, 0x0D07].all fun op => zciFront op (cmd 0) nursery && denies nursery op) = true ∧
    (zciFront 0x0D05 (cmd 0) deadwood && denies deadwood 0x0D05) = true ∧
    (∀ units used p, wellFormed units used { cmd 0 with rsv := 1 } p = false) ∧
    (opcodes.all fun op => zciFront op { cmd 0 with rsv := 1 } ready) = true := by
  refine ⟨by decide +kernel, by decide +kernel, by decide +kernel, by decide +kernel, by decide +kernel, fun units used p => ?_, by decide +kernel⟩
  simp [wellFormed]

/-- SYS_FW_STAGE: an image of the smallest size passes the checks in front of the signature's; what the signature says is Config's. -/
theorem met_sysFwStage_signed : ∃ (c : Cmd) (p : Block) (img : List Nat) (s : State), zciReady 0x0005 2 (fun _ => [(0, 64), (64, 32)]) c p s = true ∧
    (imgDenied s img = false → firstFailing [(s.host.inProg.any (fun q => q.opcode == 0x0005), stBusy), (arg p 0 64 % 4096 != 0, stInvalid),
      (decide (arg p 64 32 < 576 ∨ 16777216 < arg p 64 32) || arg p 64 32 != 512 + imgNum img 20 4, stRange), (imgInvalid img, stInvalid),
      (imgDenied s img, stDenied)] = none) := by
  refine ⟨cmd 2, block [(64, 32, 576)], [0x5A, 0x43, 0x49, 0x49, 0x4D, 0x41, 0x47, 0x45, 1, 0, 0, 0, 0, 1, 0, 0, 0, 0, 0, 0, 64], owned, by decide +kernel, fun h => ?_⟩
  rw [h]
  decide +kernel

/-- SEC_GET_CERT: with a certificate of at most 64 KiB (its length is Config's) every check passes. -/
theorem met_secGetCert_fits : ∃ (c : Cmd) (p : Block) (s : State), zciReady 0x0D06 1 (fun _ => [(0, 2), (16, 16), (32, 32)]) c p s = true ∧
    ∀ n, n ≤ 65536 → firstFailing [(!regOwned s c.session.val (arg p 16 16), stBusy), (s.sec.life == 0, stState),
      (arg p 0 2 == 3 || regPast s (arg p 16 16) (64 * arg p 32 32) n, stRange)] = none := by
  refine ⟨cmd 1, 0, owned, by decide +kernel, fun n hn => ?_⟩
  have h : regPast owned 0 0 n = false := by
    unfold regPast
    rw [show (owned.reg 0).size = 0x1000000 by decide +kernel]
    simp; omega
  rw [show arg 0 0 2 = 0 by decide +kernel, show arg 0 16 16 = 0 by decide +kernel, show arg 0 32 32 = 0 by decide +kernel, h]
  decide +kernel

/-- Operands and states that meet the hypotheses of each clause of SystemCommands. Part 1. -/
theorem witness_SystemCommands_part1 :
  -- SYS_GET_INFO (R474)
  (∃ (c : Cmd) (p : Block) (s₀ : State), zciReady 0x0001 1 (fun _ => []) c p s₀ = true) ∧
  -- SYS_ALLOC (R475)
  (∃ (c : Cmd) (p : Block) (s₀ : State), zciReady 0x0002 1 (fun _ => [(0, 8), (8, 16), (24, 16)]) c p s₀ = true ∧ (let s := seen 0x0002 c s₀; let n := c.session.val; let cls := arg p 0 8; let us := (List.range (arg p 24 16)).map (· + arg p 8 16); let checks : List (Bool × Nat) := [(us.any (fun u => decide (u < classUnits cls) && s.ownerOf (cls * 65536 + u) != 0 && !owns s n cls u), stBusy), (arg p 24 16 == 0, stInvalid), (rangeBad cls (arg p 8 16) (arg p 24 16), stRange)]; (firstFailing checks).isSome = true)) ∧
  (∃ (c : Cmd) (p : Block) (s₀ : State), zciReady 0x0002 1 (fun _ => [(0, 8), (8, 16), (24, 16)]) c p s₀ = true ∧ (let s := seen 0x0002 c s₀; let n := c.session.val; let cls := arg p 0 8; let us := (List.range (arg p 24 16)).map (· + arg p 8 16); let checks : List (Bool × Nat) := [(us.any (fun u => decide (u < classUnits cls) && s.ownerOf (cls * 65536 + u) != 0 && !owns s n cls u), stBusy), (arg p 24 16 == 0, stInvalid), (rangeBad cls (arg p 8 16) (arg p 24 16), stRange)]; firstFailing checks = none)) ∧
  -- SYS_FREE (R475)
  (∃ (c : Cmd) (p : Block) (s₀ : State), zciReady 0x0003 1 (fun _ => [(0, 8), (8, 16), (24, 16)]) c p s₀ = true ∧ (let s := seen 0x0003 c s₀; let cls := arg p 0 8; let us := (List.range (arg p 24 16)).map (· + arg p 8 16); let checks : List (Bool × Nat) := [(arg p 24 16 == 0, stInvalid), (us.any (fun u => decide (u < classUnits cls) && !owns s c.session.val cls u), stInvalid), (us.any (fun u => decide (u < classUnits cls) && unitInUse s cls u), stState), (rangeBad cls (arg p 8 16) (arg p 24 16), stRange)]; (firstFailing checks).isSome = true)) ∧
  (∃ (c : Cmd) (p : Block) (s₀ : State), zciReady 0x0003 1 (fun _ => [(0, 8), (8, 16), (24, 16)]) c p s₀ = true ∧ (let s := seen 0x0003 c s₀; let cls := arg p 0 8; let us := (List.range (arg p 24 16)).map (· + arg p 8 16); let checks : List (Bool × Nat) := [(arg p 24 16 == 0, stInvalid), (us.any (fun u => decide (u < classUnits cls) && !owns s c.session.val cls u), stInvalid), (us.any (fun u => decide (u < classUnits cls) && unitInUse s cls u), stState), (rangeBad cls (arg p 8 16) (arg p 24 16), stRange)]; firstFailing checks = none)) ∧
  -- SYS_GET_ALLOC (R475)
  (∃ (c : Cmd) (p : Block) (s₀ : State), zciReady 0x0004 1 (fun _ => [(0, 8), (8, 16), (32, 8)]) c p s₀ = true ∧ (let cls := arg p 0 8; let k := arg p 32 8; let checks : List (Bool × Nat) := [(k == 0, stInvalid), (decide (128 < k), stRange), (rangeBad cls (arg p 8 16) k, stRange)]; (firstFailing checks).isSome = true)) ∧
  (∃ (c : Cmd) (p : Block) (s₀ : State), zciReady 0x0004 1 (fun _ => [(0, 8), (8, 16), (32, 8)]) c p s₀ = true ∧ (let cls := arg p 0 8; let k := arg p 32 8; let checks : List (Bool × Nat) := [(k == 0, stInvalid), (decide (128 < k), stRange), (rangeBad cls (arg p 8 16) k, stRange)]; firstFailing checks = none)) ∧
  -- SYS_FW_STAGE (R472)
  (∃ (c : Cmd) (p : Block) (img : List Nat) (s₀ : State), zciReady 0x0005 2 (fun _ => [(0, 64), (64, 32)]) c p s₀ = true ∧ (let s := seen 0x0005 c s₀; let len := arg p 64 32; let checks : List (Bool × Nat) := [(s.host.inProg.any (fun q => q.opcode == 0x0005), stBusy), (arg p 0 64 % 4096 != 0, stInvalid), (decide (len < 576 ∨ 16777216 < len) || len != 512 + imgNum img 20 4 || imgNum img 20 4 % 64 != 0, stRange), (imgInvalid img, stInvalid), (imgDenied s img, stDenied)]; (firstFailing checks).isSome = true)) ∧
  -- SYS_FW_ACTIVATE (R473)
  (∃ (c : Cmd) (p : Block) (s₀ : State), zciReady 0x0006 1 (fun _ => []) c p s₀ = true ∧ (let s := seen 0x0006 c s₀; let checks : List (Bool × Nat) := [(othersOpen s c.session.val || (List.range 6).any (fun id => (s.str id).running) || s.move.entry != 0xFFFF || !s.host.stagedOk, stState)]; (firstFailing checks).isSome = true)) ∧
  (∃ (c : Cmd) (p : Block) (s₀ : State), zciReady 0x0006 1 (fun _ => []) c p s₀ = true ∧ (let s := seen 0x0006 c s₀; let checks : List (Bool × Nat) := [(othersOpen s c.session.val || (List.range 6).any (fun id => (s.str id).running) || s.move.entry != 0xFFFF || !s.host.stagedOk, stState)]; firstFailing checks = none)) ∧
  -- SYS_RESET (R476)
  (∃ (c : Cmd) (p : Block) (s₀ : State), zciReady 0x0007 1 (fun _ => []) c p s₀ = true ∧ (let s := seen 0x0007 c s₀; let checks : List (Bool × Nat) := [(othersOpen s c.session.val, stState)]; (firstFailing checks).isSome = true)) ∧
  (∃ (c : Cmd) (p : Block) (s₀ : State), zciReady 0x0007 1 (fun _ => []) c p s₀ = true ∧ (let s := seen 0x0007 c s₀; let checks : List (Bool × Nat) := [(othersOpen s c.session.val, stState)]; firstFailing checks = none)) := by
  refine ⟨⟨cmd 1, 0, ready, ?_⟩, ⟨cmd 1, 0, ready, ?_⟩, ⟨cmd 1, block [(0, 8, 16), (8, 16, 8), (24, 16, 5)], ready, ?_⟩, ⟨cmd 1, 0, ready, ?_⟩, ⟨cmd 1, block [(0, 8, 18), (24, 16, 1)], owned, ?_⟩, ⟨cmd 1, 0, ready, ?_⟩, ⟨cmd 1, block [(0, 8, 16), (8, 16, 8), (32, 8, 5)], ready, ?_⟩, ⟨cmd 2, 0, [], ready, ?_⟩, ⟨cmd 1, 0, ready, ?_⟩, ⟨cmd 1, 0, { quiet with host := { quiet.host with stagedOk := true } }, ?_⟩, ⟨cmd 1, 0, { ready with host := { ready.host with sessions := [(0, { st := 1, qcfg := 0x44 }), (1, { st := 1, qcfg := 0x44 })] } }, ?_⟩, ⟨cmd 1, 0, ready, ?_⟩⟩ <;> decide +kernel

/-- Operands and states that meet the hypotheses of each clause of SystemCommands. Part 2. -/
theorem witness_SystemCommands_part2 :
  -- SYS_NOP (R476)
  (∃ (c : Cmd) (p : Block) (s₀ : State), zciReady 0x0008 1 (fun _ => []) c p s₀ = true) := ⟨cmd 1, 0, ready, by decide +kernel⟩

/-- Operands and states that meet the hypotheses of each clause of FrontEndCommands. Part 1. -/
theorem witness_FrontEndCommands_part1 :
  -- FE_SET_MODE (R58)
  (∃ (c : Cmd) (p : Block) (s₀ : State), zciReady 0x0101 1 (fun _ => [(0, 2), (2, 1), (8, 8)]) c p s₀ = true ∧ (let s := seen 0x0101 c s₀; let k := arg p 0 2; let pair := argBit p 2; let rate := arg p 8 8; let same := pair == s.pairMode k && rate == s.rate k; let checks : List (Bool × Nat) := [(k < 2 && !ownsTarget s c.session.val (4 + k), stBusy), (decide (2 ≤ k), stInvalid), (!same && (pairStreams s k ++ [2 * k, 2 * k + 1, 4 + k]).any (calOwned s), stBusy), (!same && (pairStreams s k).any (strHeld s), stState), (pllBusy s k, stBusy), (pllDead s k, stState), (decide (100 < rate), stRange), (!same && overAdmission s (setRate s k pair rate), stNoRes)]; (firstFailing checks).isSome = true)) ∧
  (∃ (c : Cmd) (p : Block) (s₀ : State), zciReady 0x0101 1 (fun _ => [(0, 2), (2, 1), (8, 8)]) c p s₀ = true ∧ (let s := seen 0x0101 c s₀; let k := arg p 0 2; let pair := argBit p 2; let rate := arg p 8 8; let same := pair == s.pairMode k && rate == s.rate k; let checks : List (Bool × Nat) := [(k < 2 && !ownsTarget s c.session.val (4 + k), stBusy), (decide (2 ≤ k), stInvalid), (!same && (pairStreams s k ++ [2 * k, 2 * k + 1, 4 + k]).any (calOwned s), stBusy), (!same && (pairStreams s k).any (strHeld s), stState), (pllBusy s k, stBusy), (pllDead s k, stState), (decide (100 < rate), stRange), (!same && overAdmission s (setRate s k pair rate), stNoRes)]; firstFailing checks = none ∧ (same = true))) ∧
  (∃ (c : Cmd) (p : Block) (s₀ : State), zciReady 0x0101 1 (fun _ => [(0, 2), (2, 1), (8, 8)]) c p s₀ = true ∧ (let s := seen 0x0101 c s₀; let k := arg p 0 2; let pair := argBit p 2; let rate := arg p 8 8; let same := pair == s.pairMode k && rate == s.rate k; let checks : List (Bool × Nat) := [(k < 2 && !ownsTarget s c.session.val (4 + k), stBusy), (decide (2 ≤ k), stInvalid), (!same && (pairStreams s k ++ [2 * k, 2 * k + 1, 4 + k]).any (calOwned s), stBusy), (!same && (pairStreams s k).any (strHeld s), stState), (pllBusy s k, stBusy), (pllDead s k, stState), (decide (100 < rate), stRange), (!same && overAdmission s (setRate s k pair rate), stNoRes)]; firstFailing checks = none ∧ (same = false))) ∧
  -- FE_SET_SOURCE (R59)
  (∃ (c : Cmd) (p : Block) (s₀ : State), zciReady 0x0102 1 (fun _ => [(0, 3), (8, 4)]) c p s₀ = true ∧ (let s := seen 0x0102 c s₀; let t := arg p 0 3; let src := arg p 8 4; let same := s.source t == src; let checks : List (Bool × Nat) := [(t < 6 && !ownsTarget s c.session.val t, stBusy), (decide (6 ≤ t) || !sourceOk s t src, stInvalid), (!strExists s t, stState), (!same && calOwned s t, stBusy), (!same && strHeld s t, stState), (pllBusy s (pairOf t), stBusy)]; (firstFailing checks).isSome = true)) ∧
  (∃ (c : Cmd) (p : Block) (s₀ : State), zciReady 0x0102 1 (fun _ => [(0, 3), (8, 4)]) c p s₀ = true ∧ (let s := seen 0x0102 c s₀; let t := arg p 0 3; let src := arg p 8 4; let same := s.source t == src; let checks : List (Bool × Nat) := [(t < 6 && !ownsTarget s c.session.val t, stBusy), (decide (6 ≤ t) || !sourceOk s t src, stInvalid), (!strExists s t, stState), (!same && calOwned s t, stBusy), (!same && strHeld s t, stState), (pllBusy s (pairOf t), stBusy)]; firstFailing checks = none)) ∧
  -- FE_SET_ATTEN (R60)
  (∃ (c : Cmd) (p : Block) (s₀ : State), zciReady 0x0103 1 (fun _ => [(0, 2), (8, 4), (12, 1)]) c p s₀ = true ∧ (let s := seen 0x0103 c s₀; let i := arg p 0 2; let a := arg p 8 4; let clear := argBit p 12; let x := s.inp i; let id := routedTo s i; let same := a == x.atten && !(x.tripped && clear); let checks : List (Bool × Nat) := [(id != 0xFF && !ownsTarget s c.session.val id, stBusy), (x.tripped && !clear, stState), (!same && id != 0xFF && calOwned s id, stBusy), (decide (10 < a), stRange)]; (firstFailing checks).isSome = true)) ∧
  (∃ (c : Cmd) (p : Block) (s₀ : State), zciReady 0x0103 1 (fun _ => [(0, 2), (8, 4), (12, 1)]) c p s₀ = true ∧ (let s := seen 0x0103 c s₀; let i := arg p 0 2; let a := arg p 8 4; let clear := argBit p 12; let x := s.inp i; let id := routedTo s i; let same := a == x.atten && !(x.tripped && clear); let checks : List (Bool × Nat) := [(id != 0xFF && !ownsTarget s c.session.val id, stBusy), (x.tripped && !clear, stState), (!same && id != 0xFF && calOwned s id, stBusy), (decide (10 < a), stRange)]; firstFailing checks = none)) ∧
  -- FE_STREAM (R61)
  (∃ (c : Cmd) (p : Block) (s₀ : State), zciReady 0x0104 2 (fun _ => [(0, 6), (8, 1), (64, 64)]) c p s₀ = true ∧ (let s := seen 0x0104 c s₀; let sel := maskBits 6 (arg p 0 6); let at_ := arg p 64 64; let start := argBit p 8; let checks : List (Bool × Nat) := [(sel.any (fun t => !ownsTarget s c.session.val t), stBusy), (sel.isEmpty, stInvalid), (sel.any (fun t => !strExists s t), stState), (!start && sel.any (strHeld s), stState), (sel.any (fun t => pllBusy s (pairOf t)), stBusy), (start && sel.any (fun t => pllDead s (pairOf t)), stState), (tickBad s at_, stRange)]; (firstFailing checks).isSome = true)) ∧
  (∃ (c : Cmd) (p : Block) (s₀ : State), zciReady 0x0104 2 (fun _ => [(0, 6), (8, 1), (64, 64)]) c p s₀ = true ∧ (let s := seen 0x0104 c s₀; let sel := maskBits 6 (arg p 0 6); let at_ := arg p 64 64; let start := argBit p 8; let checks : List (Bool × Nat) := [(sel.any (fun t => !ownsTarget s c.session.val t), stBusy), (sel.isEmpty, stInvalid), (sel.any (fun t => !strExists s t), stState), (!start && sel.any (strHeld s), stState), (sel.any (fun t => pllBusy s (pairOf t)), stBusy), (start && sel.any (fun t => pllDead s (pairOf t)), stState), (tickBad s at_, stRange)]; firstFailing checks = none ∧ (at_ = 0))) ∧
  (∃ (c : Cmd) (p : Block) (s₀ : State), zciReady 0x0104 2 (fun _ => [(0, 6), (8, 1), (64, 64)]) c p s₀ = true ∧ (let s := seen 0x0104 c s₀; let sel := maskBits 6 (arg p 0 6); let at_ := arg p 64 64; let start := argBit p 8; let checks : List (Bool × Nat) := [(sel.any (fun t => !ownsTarget s c.session.val t), stBusy), (sel.isEmpty, stInvalid), (sel.any (fun t => !strExists s t), stState), (!start && sel.any (strHeld s), stState), (sel.any (fun t => pllBusy s (pairOf t)), stBusy), (start && sel.any (fun t => pllDead s (pairOf t)), stState), (tickBad s at_, stRange)]; firstFailing checks = none ∧ (at_ ≠ 0))) ∧
  -- FE_SET_PROTECT (R63)
  (∃ (c : Cmd) (p : Block) (s₀ : State), zciReady 0x0106 1 (fun _ => [(0, 2), (8, 1)]) c p s₀ = true ∧ (let s := seen 0x0106 c s₀; let i := arg p 0 2; let checks : List (Bool × Nat) := [(routedTo s i != 0xFF && !ownsTarget s c.session.val (routedTo s i), stBusy)]; (firstFailing checks).isSome = true)) ∧
  (∃ (c : Cmd) (p : Block) (s₀ : State), zciReady 0x0106 1 (fun _ => [(0, 2), (8, 1)]) c p s₀ = true ∧ (let s := seen 0x0106 c s₀; let i := arg p 0 2; let checks : List (Bool × Nat) := [(routedTo s i != 0xFF && !ownsTarget s c.session.val (routedTo s i), stBusy)]; firstFailing checks = none)) := by
  refine ⟨⟨cmd 1, 0, ready, ?_⟩, ⟨cmd 1, block [(8, 8, 100)], owned, ?_⟩, ⟨cmd 1, 0, owned, ?_⟩, ⟨cmd 1, 0, ready, ?_⟩, ⟨cmd 1, 0, owned, ?_⟩, ⟨cmd 1, block [(12, 1, 1), (0, 2, 3), (8, 4, 11)], ready, ?_⟩, ⟨cmd 1, 0, ready, ?_⟩, ⟨cmd 2, 0, ready, ?_⟩, ⟨cmd 2, block [(0, 6, 9), (8, 1, 1)], owned, ?_⟩, ⟨cmd 2, block [(8, 1, 1), (0, 6, 8), (64, 64, 18446744073709551615)], owned, ?_⟩, ⟨cmd 1, 0, { ready with fe := owned.fe }, ?_⟩, ⟨cmd 1, 0, ready, ?_⟩⟩ <;> decide +kernel

/-- Operands and states that meet the hypotheses of each clause of FrontEndCommands. Part 2. -/
theorem witness_FrontEndCommands_part2 :
  -- FE_GET_STATUS (R62)
  (∃ (c : Cmd) (p : Block) (s₀ : State), zciReady 0x0105 1 (fun _ => [(0, 3), (8, 1)]) c p s₀ = true ∧ (let t := arg p 0 3; let checks : List (Bool × Nat) := [(decide (6 ≤ t), stInvalid)]; (firstFailing checks).isSome = true)) ∧
  (∃ (c : Cmd) (p : Block) (s₀ : State), zciReady 0x0105 1 (fun _ => [(0, 3), (8, 1)]) c p s₀ = true ∧ (let t := arg p 0 3; let checks : List (Bool × Nat) := [(decide (6 ≤ t), stInvalid)]; firstFailing checks = none)) := by
  refine ⟨⟨cmd 1, block [(0, 3, 6)], ready, ?_⟩, ⟨cmd 1, 0, ready, ?_⟩⟩ <;> decide +kernel

/-- Operands and states that meet the hypotheses of each clause of ClockCommands. -/
theorem witness_ClockCommands :
  -- CLK_SET_REF (R257)
  (∃ (c : Cmd) (p : Block) (s₀ : State), zciReady 0x0201 1 (fun _ => [(0, 2), (2, 1), (3, 1), (8, 10)]) c p s₀ = true ∧ (let s := seen 0x0201 c s₀; let src := arg p 0 2; let k := s.clk; let checks : List (Bool × Nat) := [(!ownsAllCh s c.session.val, stBusy), (src == 3, stInvalid), (src != k.source && anyStream s, stState), (src != 0 && k.ppsMode == 2, stState)]; (firstFailing checks).isSome = true)) ∧
  (∃ (c : Cmd) (p : Block) (s₀ : State), zciReady 0x0201 1 (fun _ => [(0, 2), (2, 1), (3, 1), (8, 10)]) c p s₀ = true ∧ (let s := seen 0x0201 c s₀; let src := arg p 0 2; let k := s.clk; let checks : List (Bool × Nat) := [(!ownsAllCh s c.session.val, stBusy), (src == 3, stInvalid), (src != k.source && anyStream s, stState), (src != 0 && k.ppsMode == 2, stState)]; firstFailing checks = none)) ∧
  -- CLK_SET_PLL (R258)
  (∃ (c : Cmd) (p : Block) (s₀ : State), zciReady 0x0202 1 (fun _ => [(0, 2), (2, 1), (3, 1), (4, 1), (8, 10)]) c p s₀ = true ∧ (let s := seen 0x0202 c s₀; let k := arg p 0 2; let go := argBit p 2; let checks : List (Bool × Nat) := [(!ownsPll s c.session.val k, stBusy), (go && k < 2 && (pairStreams s k).any (strHeld s), stState), (go && decide (2 ≤ k) && !pllDead s k, stState), (go && k < 2 && pllBusy s k, stBusy)]; (firstFailing checks).isSome = true)) ∧
  (∃ (c : Cmd) (p : Block) (s₀ : State), zciReady 0x0202 1 (fun _ => [(0, 2), (2, 1), (3, 1), (4, 1), (8, 10)]) c p s₀ = true ∧ (let s := seen 0x0202 c s₀; let k := arg p 0 2; let go := argBit p 2; let checks : List (Bool × Nat) := [(!ownsPll s c.session.val k, stBusy), (go && k < 2 && (pairStreams s k).any (strHeld s), stState), (go && decide (2 ≤ k) && !pllDead s k, stState), (go && k < 2 && pllBusy s k, stBusy)]; firstFailing checks = none ∧ (go = true))) ∧
  (∃ (c : Cmd) (p : Block) (s₀ : State), zciReady 0x0202 1 (fun _ => [(0, 2), (2, 1), (3, 1), (4, 1), (8, 10)]) c p s₀ = true ∧ (let s := seen 0x0202 c s₀; let k := arg p 0 2; let go := argBit p 2; let checks : List (Bool × Nat) := [(!ownsPll s c.session.val k, stBusy), (go && k < 2 && (pairStreams s k).any (strHeld s), stState), (go && decide (2 ≤ k) && !pllDead s k, stState), (go && k < 2 && pllBusy s k, stBusy)]; firstFailing checks = none ∧ (go = false))) ∧
  -- CLK_BUILD_HOPS (R259)
  (∃ (c : Cmd) (p : Block) (s₀ : State), zciReady 0x0203 1 (fun _ => [(0, 1)]) c p s₀ = true ∧ (let s := seen 0x0203 c s₀; let k := arg p 0 1; let checks : List (Bool × Nat) := [(!ownsPll s c.session.val k, stBusy), ((pairStreams s k).any (fun id => (s.str id).running), stState), (pllBusy s k, stBusy)]; (firstFailing checks).isSome = true)) ∧
  (∃ (c : Cmd) (p : Block) (s₀ : State), zciReady 0x0203 1 (fun _ => [(0, 1)]) c p s₀ = true ∧ (let s := seen 0x0203 c s₀; let k := arg p 0 1; let checks : List (Bool × Nat) := [(!ownsPll s c.session.val k, stBusy), ((pairStreams s k).any (fun id => (s.str id).running), stState), (pllBusy s k, stBusy)]; firstFailing checks = none)) ∧
  -- CLK_SET_PPS (R260)
  (∃ (c : Cmd) (p : Block) (s₀ : State), zciReady 0x0204 1 (fun _ => [(0, 2), (2, 1), (3, 1)]) c p s₀ = true ∧ (let s := seen 0x0204 c s₀; let m := arg p 0 2; let k := s.clk; let checks : List (Bool × Nat) := [(!owns s c.session.val 9 8, stBusy), (m == 3, stInvalid), (m == 2 && k.source != 0, stState)]; (firstFailing checks).isSome = true)) ∧
  (∃ (c : Cmd) (p : Block) (s₀ : State), zciReady 0x0204 1 (fun _ => [(0, 2), (2, 1), (3, 1)]) c p s₀ = true ∧ (let s := seen 0x0204 c s₀; let m := arg p 0 2; let k := s.clk; let checks : List (Bool × Nat) := [(!owns s c.session.val 9 8, stBusy), (m == 3, stInvalid), (m == 2 && k.source != 0, stState)]; firstFailing checks = none)) ∧
  -- CLK_SET_TIME (R261)
  (∃ (c : Cmd) (p : Block) (s₀ : State), zciReady 0x0205 2 (fun _ => [(0, 64)]) c p s₀ = true ∧ (let s := seen 0x0205 c s₀; let sec := arg p 0 64; let checks : List (Bool × Nat) := [(!owns s c.session.val 9 8, stBusy), (sec == 0, stInvalid), (s.clk.ppsMode == 0 || ppsMissed s, stState), (anyStream s, stState), ((List.range 8).any (fun a => (s.au a).runs), stState), (s.move.entry != 0xFFFF, stState), (decide (11529215045 < sec), stRange)]; (firstFailing checks).isSome = true)) ∧
  (∃ (c : Cmd) (p : Block) (s₀ : State), zciReady 0x0205 2 (fun _ => [(0, 64)]) c p s₀ = true ∧ (let s := seen 0x0205 c s₀; let sec := arg p 0 64; let checks : List (Bool × Nat) := [(!owns s c.session.val 9 8, stBusy), (sec == 0, stInvalid), (s.clk.ppsMode == 0 || ppsMissed s, stState), (anyStream s, stState), ((List.range 8).any (fun a => (s.au a).runs), stState), (s.move.entry != 0xFFFF, stState), (decide (11529215045 < sec), stRange)]; firstFailing checks = none)) ∧
  -- CLK_GET_STATUS (R262)
  (∃ (c : Cmd) (p : Block) (s₀ : State), zciReady 0x0206 1 (fun _ => [(8, 1)]) c p s₀ = true) := by
  refine ⟨⟨cmd 1, 0, ready, ?_⟩, ⟨cmd 1, 0, owned, ?_⟩, ⟨cmd 1, 0, ready, ?_⟩, ⟨cmd 1, block [(2, 1, 1), (4, 1, 1), (8, 10, 1023)], owned, ?_⟩, ⟨cmd 1, 0, owned, ?_⟩, ⟨cmd 1, 0, ready, ?_⟩, ⟨cmd 1, 0, quiet, ?_⟩, ⟨cmd 1, 0, ready, ?_⟩, ⟨cmd 1, 0, owned, ?_⟩, ⟨cmd 2, 0, ready, ?_⟩, ⟨cmd 2, block [(0, 64, 11529215045)], { quiet with clk := { ppsMode := 1 } }, ?_⟩, ⟨cmd 1, 0, ready, ?_⟩⟩ <;> decide +kernel

/-- Operands and states that meet the hypotheses of each clause of CalibrationCommands. -/
theorem witness_CalibrationCommands :
  -- CAL_RUN (R309)
  (∃ (c : Cmd) (p : Block) (s₀ : State), zciReady 0x0301 4 (fun _ => [(0, 3), (4, 4), (8, 1), (64, 32), (96, 16), (112, 16), (128, 64)]) c p s₀ = true ∧ (let s := seen 0x0301 c s₀; let tgt := arg p 0 3; let step := arg p 4 4; let h := arg p 112 16; let off := arg p 128 64; let stim := decide (2 ≤ step ∧ step ≤ 6); let known := tgt < 6; let checks : List (Bool × Nat) := [(s.flt.signBad, stFaulted), (known && !ownsTarget s c.session.val tgt, stBusy), (!regOwned s c.session.val h, stBusy), ((stim && (s.cal.stim.isSome || (known && tget 0 s.fe.changedAt tgt == s.now + 1))) || (known && (s.calStep tgt).isSome), stBusy), (known && !calReady s tgt step, stState), (known && step == 4 && strHeld s tgt, stState), (!known || decide (7 ≤ step) || off % 64 != 0, stInvalid), (toneBad s tgt (blk p 4) || regPast s h off 8352, stRange), (s.cal.count == 0xFFFFFFFF, stDenied)]; (firstFailing checks).isSome = true)) ∧
  (∃ (c : Cmd) (p : Block) (s₀ : State), zciReady 0x0301 4 (fun _ => [(0, 3), (4, 4), (8, 1), (64, 32), (96, 16), (112, 16), (128, 64)]) c p s₀ = true ∧ (let s := seen 0x0301 c s₀; let tgt := arg p 0 3; let step := arg p 4 4; let h := arg p 112 16; let off := arg p 128 64; let stim := decide (2 ≤ step ∧ step ≤ 6); let known := tgt < 6; let checks : List (Bool × Nat) := [(s.flt.signBad, stFaulted), (known && !ownsTarget s c.session.val tgt, stBusy), (!regOwned s c.session.val h, stBusy), ((stim && (s.cal.stim.isSome || (known && tget 0 s.fe.changedAt tgt == s.now + 1))) || (known && (s.calStep tgt).isSome), stBusy), (known && !calReady s tgt step, stState), (known && step == 4 && strHeld s tgt, stState), (!known || decide (7 ≤ step) || off % 64 != 0, stInvalid), (toneBad s tgt (blk p 4) || regPast s h off 8352, stRange), (s.cal.count == 0xFFFFFFFF, stDenied)]; firstFailing checks = none)) ∧
  -- CAL_SET_BLIND (R311)
  (∃ (c : Cmd) (p : Block) (s₀ : State), zciReady 0x0302 1 (fun _ => [(0, 3), (3, 1), (4, 1), (5, 1), (16, 16), (32, 16)]) c p s₀ = true ∧ (let s := seen 0x0302 c s₀; let tgt := arg p 0 3; let on := argBit p 3; let h := arg p 32 16; let checks : List (Bool × Nat) := ([(decide (tgt < 6) && !ownsTarget s c.session.val tgt, stBusy), (on && h != noHandle && !regOwned s c.session.val h, stBusy), (decide (6 ≤ tgt) || (argBit p 5 && decide (tgt < 4)), stInvalid), (on && h != noHandle && !isRecRing s h, stInvalid), (on && (arg p 16 16 == 0 || decide (3600 < arg p 16 16)), stRange), (on && !(s.str tgt).running, stState)]); (firstFailing checks).isSome = true)) ∧
  (∃ (c : Cmd) (p : Block) (s₀ : State), zciReady 0x0302 1 (fun _ => [(0, 3), (3, 1), (4, 1), (5, 1), (16, 16), (32, 16)]) c p s₀ = true ∧ (let s := seen 0x0302 c s₀; let tgt := arg p 0 3; let on := argBit p 3; let h := arg p 32 16; let checks : List (Bool × Nat) := ([(decide (tgt < 6) && !ownsTarget s c.session.val tgt, stBusy), (on && h != noHandle && !regOwned s c.session.val h, stBusy), (decide (6 ≤ tgt) || (argBit p 5 && decide (tgt < 4)), stInvalid), (on && h != noHandle && !isRecRing s h, stInvalid), (on && (arg p 16 16 == 0 || decide (3600 < arg p 16 16)), stRange), (on && !(s.str tgt).running, stState)]); firstFailing checks = none)) ∧
  -- CAL_RESTORE (R310)
  (∃ (c : Cmd) (p : Block) (s₀ : State), zciReady 0x0303 1 (fun _ => [(0, 3), (16, 16), (32, 32)]) c p s₀ = true ∧ (let s := seen 0x0303 c s₀; let tgt := arg p 0 3; let h := arg p 16 16; let off := 64 * arg p 32 32; let checks : List (Bool × Nat) := [(s.flt.signBad, stFaulted), (decide (tgt < 6) && !ownsTarget s c.session.val tgt, stBusy), (!regOwned s c.session.val h, stBusy), (decide (6 ≤ tgt), stInvalid), (regPast s h off 8352, stRange), (s.cal.count == 0xFFFFFFFF, stDenied)]; (firstFailing checks).isSome = true)) ∧
  (∃ (c : Cmd) (p : Block) (s₀ : State), zciReady 0x0303 1 (fun _ => [(0, 3), (16, 16), (32, 32)]) c p s₀ = true ∧ (let s := seen 0x0303 c s₀; let tgt := arg p 0 3; let h := arg p 16 16; let off := 64 * arg p 32 32; let checks : List (Bool × Nat) := [(s.flt.signBad, stFaulted), (decide (tgt < 6) && !ownsTarget s c.session.val tgt, stBusy), (!regOwned s c.session.val h, stBusy), (decide (6 ≤ tgt), stInvalid), (regPast s h off 8352, stRange), (s.cal.count == 0xFFFFFFFF, stDenied)]; firstFailing checks = none)) ∧
  -- CAL_READ (R312)
  (∃ (c : Cmd) (p : Block) (s₀ : State), zciReady 0x0304 2 (fun _ => [(0, 16), (64, 64)]) c p s₀ = true ∧ (let s := seen 0x0304 c s₀; let h := arg p 0 16; let off := arg p 64 64; let checks : List (Bool × Nat) := [(!regOwned s c.session.val h, stBusy), (off % 64 != 0, stInvalid), (regPast s h off 61936, stRange)]; (firstFailing checks).isSome = true)) ∧
  (∃ (c : Cmd) (p : Block) (s₀ : State), zciReady 0x0304 2 (fun _ => [(0, 16), (64, 64)]) c p s₀ = true ∧ (let s := seen 0x0304 c s₀; let h := arg p 0 16; let off := arg p 64 64; let checks : List (Bool × Nat) := [(!regOwned s c.session.val h, stBusy), (off % 64 != 0, stInvalid), (regPast s h off 61936, stRange)]; firstFailing checks = none)) ∧
  -- CAL_GET_RECORD (R313)
  (∃ (c : Cmd) (p : Block) (s₀ : State), zciReady 0x0305 2 (fun _ => [(0, 6), (16, 16), (64, 64)]) c p s₀ = true ∧ (let s := seen 0x0305 c s₀; let h := arg p 16 16; let off := arg p 64 64; let r := s.cal.records.getD (arg p 0 6) {}; let checks : List (Bool × Nat) := [(!regOwned s c.session.val h, stBusy), (off % 64 != 0, stInvalid), (decide (s.cal.records.length ≤ arg p 0 6) || regPast s h off r.len, stRange)]; (firstFailing checks).isSome = true)) ∧
  (∃ (c : Cmd) (p : Block) (s₀ : State), zciReady 0x0305 2 (fun _ => [(0, 6), (16, 16), (64, 64)]) c p s₀ = true ∧ (let s := seen 0x0305 c s₀; let h := arg p 16 16; let off := arg p 64 64; let r := s.cal.records.getD (arg p 0 6) {}; let checks : List (Bool × Nat) := [(!regOwned s c.session.val h, stBusy), (off % 64 != 0, stInvalid), (decide (s.cal.records.length ≤ arg p 0 6) || regPast s h off r.len, stRange)]; firstFailing checks = none)) ∧
  -- CAL_GET_STATUS (R314)
  (∃ (c : Cmd) (p : Block) (s₀ : State), zciReady 0x0306 1 (fun _ => [(8, 1)]) c p s₀ = true) := by
  refine ⟨⟨cmd 4, 0, ready, ?_⟩, ⟨cmd 4, 0, owned, ?_⟩, ⟨cmd 1, 0, ready, ?_⟩, ⟨cmd 1, 0, owned, ?_⟩, ⟨cmd 1, 0, ready, ?_⟩, ⟨cmd 1, 0, owned, ?_⟩, ⟨cmd 2, 0, ready, ?_⟩, ⟨cmd 2, 0, owned, ?_⟩, ⟨cmd 2, 0, ready, ?_⟩, ⟨cmd 2, 0, rich, ?_⟩, ⟨cmd 1, 0, ready, ?_⟩⟩ <;> decide +kernel

/-- Operands and states that meet the hypotheses of each clause of SpectralCommands. Part 1. -/
theorem witness_SpectralCommands_part1 :
  -- SPEC_SET_LANE (R107)
  (∃ (c : Cmd) (p : Block) (s₀ : State), zciReady 0x0401 1 (fun _ => [(0, 4), (4, 1), (8, 8), (16, 5), (24, 3), (27, 2), (29, 1), (30, 2), (32, 16)]) c p s₀ = true ∧ (let s := seen 0x0401 c s₀; let ln := arg p 0 4; let en := argBit p 4; let w := arg p 24 3; let l2 := arg p 16 5; let x := s.lane ln; let r := x.run; let src := if ln < 4 then slSource s ln else arg p 8 8; let slot := tget [] s.spec.windows (arg p 27 2); let s1 := laneSet s ln (blk p 1); let windowed := w != r.window || (w == 4 && arg p 32 16 != r.beta) || (w == 5 && slot != r.codes) || arg p 30 2 != r.overlap || argBit p 29 != r.norm; let checks : List (Bool × Nat) := [(decide (ln < 12) && !ownsLane s c.session.val ln, stBusy), (en && decide (4 ≤ ln) && !owns s c.session.val 4 (src - 16) && decide (16 ≤ src ∧ src < 32), stBusy), (en && w == 5 && !owns s c.session.val 5 (arg p 27 2), stBusy), (decide (12 ≤ ln), stInvalid), (en && (if ln < 4 then arg p 8 8 != 0xFF else decide (src < 16 ∨ 31 < src)), stInvalid), (en && decide (5 < w), stInvalid), (en && w == 5 && slot.length != 2 ^ l2, stInvalid), (oddOfPair s ln, stState), (x.on && laneConsumed s ln && (!en || l2 != r.log2n || (decide (4 ≤ ln) && src != r.source)), stState), (x.on && en && windowed && laneArmed s ln, stState), (en && decide (l2 < 6 ∨ (if ln < 4 then 16 else 20) < l2), stRange), (en && w == 4 && decide (0x2800 < arg p 32 16), stRange), (en && decide (4 ≤ ln) && decide (zoomLine < laneW s1 ln), stNoRes), (en && decide (4 ≤ ln) && decide (zoomLimit < strRate s src), stRange), (en && !laneBinsOk s1 ln, stRange), (en && (decide (laneLine ln < laneLoad s1 ln) || !densLaneOk s1 ln), stNoRes)]; (firstFailing checks).isSome = true)) ∧
  (∃ (c : Cmd) (p : Block) (s₀ : State), zciReady 0x0401 1 (fun _ => [(0, 4), (4, 1), (8, 8), (16, 5), (24, 3), (27, 2), (29, 1), (30, 2), (32, 16)]) c p s₀ = true ∧ (let s := seen 0x0401 c s₀; let ln := arg p 0 4; let en := argBit p 4; let w := arg p 24 3; let l2 := arg p 16 5; let x := s.lane ln; let r := x.run; let src := if ln < 4 then slSource s ln else arg p 8 8; let slot := tget [] s.spec.windows (arg p 27 2); let s1 := laneSet s ln (blk p 1); let windowed := w != r.window || (w == 4 && arg p 32 16 != r.beta) || (w == 5 && slot != r.codes) || arg p 30 2 != r.overlap || argBit p 29 != r.norm; let checks : List (Bool × Nat) := [(decide (ln < 12) && !ownsLane s c.session.val ln, stBusy), (en && decide (4 ≤ ln) && !owns s c.session.val 4 (src - 16) && decide (16 ≤ src ∧ src < 32), stBusy), (en && w == 5 && !owns s c.session.val 5 (arg p 27 2), stBusy), (decide (12 ≤ ln), stInvalid), (en && (if ln < 4 then arg p 8 8 != 0xFF else decide (src < 16 ∨ 31 < src)), stInvalid), (en && decide (5 < w), stInvalid), (en && w == 5 && slot.length != 2 ^ l2, stInvalid), (oddOfPair s ln, stState), (x.on && laneConsumed s ln && (!en || l2 != r.log2n || (decide (4 ≤ ln) && src != r.source)), stState), (x.on && en && windowed && laneArmed s ln, stState), (en && decide (l2 < 6 ∨ (if ln < 4 then 16 else 20) < l2), stRange), (en && w == 4 && decide (0x2800 < arg p 32 16), stRange), (en && decide (4 ≤ ln) && decide (zoomLine < laneW s1 ln), stNoRes), (en && decide (4 ≤ ln) && decide (zoomLimit < strRate s src), stRange), (en && !laneBinsOk s1 ln, stRange), (en && (decide (laneLine ln < laneLoad s1 ln) || !densLaneOk s1 ln), stNoRes)]; firstFailing checks = none ∧ ((laneEnables (blk p 1) s) = true) ∧ (s.spec.vcore < 850))) ∧
  (∃ (c : Cmd) (p : Block) (s₀ : State), zciReady 0x0401 1 (fun _ => [(0, 4), (4, 1), (8, 8), (16, 5), (24, 3), (27, 2), (29, 1), (30, 2), (32, 16)]) c p s₀ = true ∧ (let s := seen 0x0401 c s₀; let ln := arg p 0 4; let en := argBit p 4; let w := arg p 24 3; let l2 := arg p 16 5; let x := s.lane ln; let r := x.run; let src := if ln < 4 then slSource s ln else arg p 8 8; let slot := tget [] s.spec.windows (arg p 27 2); let s1 := laneSet s ln (blk p 1); let windowed := w != r.window || (w == 4 && arg p 32 16 != r.beta) || (w == 5 && slot != r.codes) || arg p 30 2 != r.overlap || argBit p 29 != r.norm; let checks : List (Bool × Nat) := [(decide (ln < 12) && !ownsLane s c.session.val ln, stBusy), (en && decide (4 ≤ ln) && !owns s c.session.val 4 (src - 16) && decide (16 ≤ src ∧ src < 32), stBusy), (en && w == 5 && !owns s c.session.val 5 (arg p 27 2), stBusy), (decide (12 ≤ ln), stInvalid), (en && (if ln < 4 then arg p 8 8 != 0xFF else decide (src < 16 ∨ 31 < src)), stInvalid), (en && decide (5 < w), stInvalid), (en && w == 5 && slot.length != 2 ^ l2, stInvalid), (oddOfPair s ln, stState), (x.on && laneConsumed s ln && (!en || l2 != r.log2n || (decide (4 ≤ ln) && src != r.source)), stState), (x.on && en && windowed && laneArmed s ln, stState), (en && decide (l2 < 6 ∨ (if ln < 4 then 16 else 20) < l2), stRange), (en && w == 4 && decide (0x2800 < arg p 32 16), stRange), (en && decide (4 ≤ ln) && decide (zoomLine < laneW s1 ln), stNoRes), (en && decide (4 ≤ ln) && decide (zoomLimit < strRate s src), stRange), (en && !laneBinsOk s1 ln, stRange), (en && (decide (laneLine ln < laneLoad s1 ln) || !densLaneOk s1 ln), stNoRes)]; firstFailing checks = none ∧ (((laneEnables (blk p 1) s) && decide (s.spec.vcore < 850)) = false) ∧ (en = false))) ∧
  (∃ (c : Cmd) (p : Block) (s₀ : State), zciReady 0x0401 1 (fun _ => [(0, 4), (4, 1), (8, 8), (16, 5), (24, 3), (27, 2), (29, 1), (30, 2), (32, 16)]) c p s₀ = true ∧ (let s := seen 0x0401 c s₀; let ln := arg p 0 4; let en := argBit p 4; let w := arg p 24 3; let l2 := arg p 16 5; let x := s.lane ln; let r := x.run; let src := if ln < 4 then slSource s ln else arg p 8 8; let slot := tget [] s.spec.windows (arg p 27 2); let s1 := laneSet s ln (blk p 1); let windowed := w != r.window || (w == 4 && arg p 32 16 != r.beta) || (w == 5 && slot != r.codes) || arg p 30 2 != r.overlap || argBit p 29 != r.norm; let checks : List (Bool × Nat) := [(decide (ln < 12) && !ownsLane s c.session.val ln, stBusy), (en && decide (4 ≤ ln) && !owns s c.session.val 4 (src - 16) && decide (16 ≤ src ∧ src < 32), stBusy), (en && w == 5 && !owns s c.session.val 5 (arg p 27 2), stBusy), (decide (12 ≤ ln), stInvalid), (en && (if ln < 4 then arg p 8 8 != 0xFF else decide (src < 16 ∨ 31 < src)), stInvalid), (en && decide (5 < w), stInvalid), (en && w == 5 && slot.length != 2 ^ l2, stInvalid), (oddOfPair s ln, stState), (x.on && laneConsumed s ln && (!en || l2 != r.log2n || (decide (4 ≤ ln) && src != r.source)), stState), (x.on && en && windowed && laneArmed s ln, stState), (en && decide (l2 < 6 ∨ (if ln < 4 then 16 else 20) < l2), stRange), (en && w == 4 && decide (0x2800 < arg p 32 16), stRange), (en && decide (4 ≤ ln) && decide (zoomLine < laneW s1 ln), stNoRes), (en && decide (4 ≤ ln) && decide (zoomLimit < strRate s src), stRange), (en && !laneBinsOk s1 ln, stRange), (en && (decide (laneLine ln < laneLoad s1 ln) || !densLaneOk s1 ln), stNoRes)]; firstFailing checks = none ∧ (((laneEnables (blk p 1) s) && decide (s.spec.vcore < 850)) = false) ∧ (en = true))) ∧
  -- SPEC_LOAD_WINDOW (R108)
  (∃ (c : Cmd) (p : Block) (data : List Nat) (s₀ : State), zciReady 0x0402 2 (fun _ => [(0, 2), (8, 5), (64, 64)]) c p s₀ = true ∧ (let s := seen 0x0402 c s₀; let k := arg p 0 2; let l2 := arg p 8 5; let ws := (List.range (2 ^ l2)).map (fun i => data.getD i 0); let checks : List (Bool × Nat) := [(!owns s c.session.val 5 k, stBusy), (arg p 64 64 % 4 != 0, stInvalid), (decide (l2 < 6 ∨ 16 < l2), stRange), (windowCheck ws != 0, windowCheck ws), (ws.all (· == 0), stInvalid)]; (firstFailing checks).isSome = true)) ∧
  (∃ (c : Cmd) (p : Block) (data : List Nat) (s₀ : State), zciReady 0x0402 2 (fun _ => [(0, 2), (8, 5), (64, 64)]) c p s₀ = true ∧ (let s := seen 0x0402 c s₀; let k := arg p 0 2; let l2 := arg p 8 5; let ws := (List.range (2 ^ l2)).map (fun i => data.getD i 0); let checks : List (Bool × Nat) := [(!owns s c.session.val 5 k, stBusy), (arg p 64 64 % 4 != 0, stInvalid), (decide (l2 < 6 ∨ 16 < l2), stRange), (windowCheck ws != 0, windowCheck ws), (ws.all (· == 0), stInvalid)]; firstFailing checks = none)) ∧
  -- SPEC_SET_DDC (R109)
  (∃ (c : Cmd) (p : Block) (s₀ : State), zciReady 0x0403 2 (fun _ => [(0, 4), (4, 1), (8, 8), (16, 5), (21, 3), (32, 48), (80, 16)]) c p s₀ = true ∧ (let s := seen 0x0403 c s₀; let n := arg p 0 4; let en := argBit p 4; let src := arg p 8 8; let e := arg p 16 5; let x := s.ddc n; let fout := (nsOf s src * 100000000 : ℚ) / 2 ^ e; let y : Ddc := { x with on := true, source := src, e := e, gain := arg p 21 3, freq := arg p 32 48, phase := arg p 80 16 }; let s1 := ddcSet s n y; let checks : List (Bool × Nat) := [(!owns s c.session.val 4 n, stBusy), (en && decide (5 < src), stInvalid), (ddcZoomed s n && (if en then src != x.source || e != x.e || decide (zoomLimit < fout) else x.on), stState), (en && decide (e < 1 ∨ 16 < e), stRange), (en && decide (2^47 < arg p 32 48), stRange), (en && decide (ddcRateLimit < fout), stRange), (en && overAdmission s s1, stNoRes)]; (firstFailing checks).isSome = true)) ∧
  (∃ (c : Cmd) (p : Block) (s₀ : State), zciReady 0x0403 2 (fun _ => [(0, 4), (4, 1), (8, 8), (16, 5), (21, 3), (32, 48), (80, 16)]) c p s₀ = true ∧ (let s := seen 0x0403 c s₀; let n := arg p 0 4; let en := argBit p 4; let src := arg p 8 8; let e := arg p 16 5; let x := s.ddc n; let fout := (nsOf s src * 100000000 : ℚ) / 2 ^ e; let y : Ddc := { x with on := true, source := src, e := e, gain := arg p 21 3, freq := arg p 32 48, phase := arg p 80 16 }; let s1 := ddcSet s n y; let checks : List (Bool × Nat) := [(!owns s c.session.val 4 n, stBusy), (en && decide (5 < src), stInvalid), (ddcZoomed s n && (if en then src != x.source || e != x.e || decide (zoomLimit < fout) else x.on), stState), (en && decide (e < 1 ∨ 16 < e), stRange), (en && decide (2^47 < arg p 32 48), stRange), (en && decide (ddcRateLimit < fout), stRange), (en && overAdmission s s1, stNoRes)]; firstFailing checks = none ∧ ((argBit p 4 && !(s.ddc (arg p 0 4)).on) = true) ∧ (s.spec.vcore < 850))) ∧
  (∃ (c : Cmd) (p : Block) (s₀ : State), zciReady 0x0403 2 (fun _ => [(0, 4), (4, 1), (8, 8), (16, 5), (21, 3), (32, 48), (80, 16)]) c p s₀ = true ∧ (let s := seen 0x0403 c s₀; let n := arg p 0 4; let en := argBit p 4; let src := arg p 8 8; let e := arg p 16 5; let x := s.ddc n; let fout := (nsOf s src * 100000000 : ℚ) / 2 ^ e; let y : Ddc := { x with on := true, source := src, e := e, gain := arg p 21 3, freq := arg p 32 48, phase := arg p 80 16 }; let s1 := ddcSet s n y; let checks : List (Bool × Nat) := [(!owns s c.session.val 4 n, stBusy), (en && decide (5 < src), stInvalid), (ddcZoomed s n && (if en then src != x.source || e != x.e || decide (zoomLimit < fout) else x.on), stState), (en && decide (e < 1 ∨ 16 < e), stRange), (en && decide (2^47 < arg p 32 48), stRange), (en && decide (ddcRateLimit < fout), stRange), (en && overAdmission s s1, stNoRes)]; firstFailing checks = none ∧ (((argBit p 4 && !(s.ddc (arg p 0 4)).on) && decide (s.spec.vcore < 850)) = false) ∧ (en = false))) ∧
  (∃ (c : Cmd) (p : Block) (s₀ : State), zciReady 0x0403 2 (fun _ => [(0, 4), (4, 1), (8, 8), (16, 5), (21, 3), (32, 48), (80, 16)]) c p s₀ = true ∧ (let s := seen 0x0403 c s₀; let n := arg p 0 4; let en := argBit p 4; let src := arg p 8 8; let e := arg p 16 5; let x := s.ddc n; let fout := (nsOf s src * 100000000 : ℚ) / 2 ^ e; let y : Ddc := { x with on := true, source := src, e := e, gain := arg p 21 3, freq := arg p 32 48, phase := arg p 80 16 }; let s1 := ddcSet s n y; let checks : List (Bool × Nat) := [(!owns s c.session.val 4 n, stBusy), (en && decide (5 < src), stInvalid), (ddcZoomed s n && (if en then src != x.source || e != x.e || decide (zoomLimit < fout) else x.on), stState), (en && decide (e < 1 ∨ 16 < e), stRange), (en && decide (2^47 < arg p 32 48), stRange), (en && decide (ddcRateLimit < fout), stRange), (en && overAdmission s s1, stNoRes)]; firstFailing checks = none ∧ (((argBit p 4 && !(s.ddc (arg p 0 4)).on) && decide (s.spec.vcore < 850)) = false) ∧ (en = true) ∧ ((s.str src).running = true))) ∧
  (∃ (c : Cmd) (p : Block) (s₀ : State), zciReady 0x0403 2 (fun _ => [(0, 4), (4, 1), (8, 8), (16, 5), (21, 3), (32, 48), (80, 16)]) c p s₀ = true ∧ (let s := seen 0x0403 c s₀; let n := arg p 0 4; let en := argBit p 4; let src := arg p 8 8; let e := arg p 16 5; let x := s.ddc n; let fout := (nsOf s src * 100000000 : ℚ) / 2 ^ e; let y : Ddc := { x with on := true, source := src, e := e, gain := arg p 21 3, freq := arg p 32 48, phase := arg p 80 16 }; let s1 := ddcSet s n y; let checks : List (Bool × Nat) := [(!owns s c.session.val 4 n, stBusy), (en && decide (5 < src), stInvalid), (ddcZoomed s n && (if en then src != x.source || e != x.e || decide (zoomLimit < fout) else x.on), stState), (en && decide (e < 1 ∨ 16 < e), stRange), (en && decide (2^47 < arg p 32 48), stRange), (en && decide (ddcRateLimit < fout), stRange), (en && overAdmission s s1, stNoRes)]; firstFailing checks = none ∧ (((argBit p 4 && !(s.ddc (arg p 0 4)).on) && decide (s.spec.vcore < 850)) = false) ∧ (en = true) ∧ ((s.str src).running = false))) ∧
  -- SPEC_TUNE_DDC (R110)
  (∃ (c : Cmd) (p : Block) (s₀ : State), zciReady 0x0404 2 (fun _ => [(0, 4), (64, 48)]) c p s₀ = true ∧ (let s := seen 0x0404 c s₀; let n := arg p 0 4; let x := s.ddc n; let checks : List (Bool × Nat) := [(!owns s c.session.val 4 n, stBusy), (!x.on, stState), (decide (2^47 < arg p 64 48), stRange)]; (firstFailing checks).isSome = true)) := by
  refine ⟨⟨cmd 1, 0, ready, ?_⟩, ⟨cmd 1, block [(4, 1, 1), (8, 8, 255), (16, 5, 6)], { owned with spec := { vcore := 800 } }, ?_⟩, ⟨cmd 1, 0, owned, ?_⟩, ⟨cmd 1, block [(4, 1, 1), (8, 8, 255), (16, 5, 6)], owned, ?_⟩, ⟨cmd 2, 0, [], ready, ?_⟩, ⟨cmd 2, block [(8, 5, 6)], [1], owned, ?_⟩, ⟨cmd 2, 0, ready, ?_⟩, ⟨cmd 2, block [(16, 5, 16), (32, 48, 2048), (4, 1, 1), (8, 8, 1), (80, 16, 8)], lean_, ?_⟩, ⟨cmd 2, 0, owned, ?_⟩, ⟨cmd 2, block [(16, 5, 16), (32, 48, 2048), (4, 1, 1), (8, 8, 1), (80, 16, 8)], owned, ?_⟩, ⟨cmd 2, block [(16, 5, 16), (32, 48, 2048), (4, 1, 1), (8, 8, 1), (80, 16, 8)], quiet, ?_⟩, ⟨cmd 2, 0, ready, ?_⟩⟩ <;> decide +kernel

/-- Operands and states that meet the hypotheses of each clause of SpectralCommands. Part 2. -/
theorem witness_SpectralCommands_part2 :
  -- SPEC_TUNE_DDC (R110)
  (∃ (c : Cmd) (p : Block) (s₀ : State), zciReady 0x0404 2 (fun _ => [(0, 4), (64, 48)]) c p s₀ = true ∧ (let s := seen 0x0404 c s₀; let n := arg p 0 4; let x := s.ddc n; let checks : List (Bool × Nat) := [(!owns s c.session.val 4 n, stBusy), (!x.on, stState), (decide (2^47 < arg p 64 48), stRange)]; firstFailing checks = none ∧ ((x.live && x.endAt.isNone) = true))) ∧
  (∃ (c : Cmd) (p : Block) (s₀ : State), zciReady 0x0404 2 (fun _ => [(0, 4), (64, 48)]) c p s₀ = true ∧ (let s := seen 0x0404 c s₀; let n := arg p 0 4; let x := s.ddc n; let checks : List (Bool × Nat) := [(!owns s c.session.val 4 n, stBusy), (!x.on, stState), (decide (2^47 < arg p 64 48), stRange)]; firstFailing checks = none ∧ ((x.live && x.endAt.isNone) = false))) ∧
  -- SPEC_SET_TRACE (R111)
  (∃ (c : Cmd) (p : Block) (s₀ : State), zciReady 0x0405 2 (fun _ => [(0, 4), (4, 2), (6, 1), (7, 1), (8, 3), (11, 1), (16, 24), (40, 24), (64, 15), (80, 17), (112, 16)]) c p s₀ = true ∧ (let s := seen 0x0405 c s₀; let ln := arg p 0 4; let id := 4 * ln + arg p 4 2; let en := argBit p 6; let h := arg p 112 16; let P := arg p 64 15; let s0 := traceOff s id; let t : Trace := { on := true, single := argBit p 7, det := arg p 8 3, f32 := argBit p 11, firstBin := sarg p 16 24, bins := arg p 40 24, points := P, m := arg p 80 17, ring := h, fromTime := (unitFrom s ln).2 }; let s1 := s0.setTrace id t; let checks : List (Bool × Nat) := [(decide (ln < 12) && !ownsLane s c.session.val ln, stBusy), (en && !regOwned s c.session.val h, stBusy), (decide (12 ≤ ln), stInvalid), (en && (t.det == 7 || t.bins == 0 || t.m == 0), stInvalid), (en && !isRecRing s h, stInvalid), (oddOfPair s ln, stState), (en && !(s.lane ln).on, stState), (en && decide (P < 1024 ∨ 16384 < P ∨ 1048576 < t.bins ∨ 65536 < t.m), stRange), (en && !binsIn s ln t.firstBin t.bins, stRange), (en && decide ((s.reg h).size < recordLen P t.f32), stRange), (en && decide (laneLine ln < laneLoad s1 ln), stNoRes)]; (firstFailing checks).isSome = true)) ∧
  (∃ (c : Cmd) (p : Block) (s₀ : State), zciReady 0x0405 2 (fun _ => [(0, 4), (4, 2), (6, 1), (7, 1), (8, 3), (11, 1), (16, 24), (40, 24), (64, 15), (80, 17), (112, 16)]) c p s₀ = true ∧ (let s := seen 0x0405 c s₀; let ln := arg p 0 4; let id := 4 * ln + arg p 4 2; let en := argBit p 6; let h := arg p 112 16; let P := arg p 64 15; let s0 := traceOff s id; let t : Trace := { on := true, single := argBit p 7, det := arg p 8 3, f32 := argBit p 11, firstBin := sarg p 16 24, bins := arg p 40 24, points := P, m := arg p 80 17, ring := h, fromTime := (unitFrom s ln).2 }; let s1 := s0.setTrace id t; let checks : List (Bool × Nat) := [(decide (ln < 12) && !ownsLane s c.session.val ln, stBusy), (en && !regOwned s c.session.val h, stBusy), (decide (12 ≤ ln), stInvalid), (en && (t.det == 7 || t.bins == 0 || t.m == 0), stInvalid), (en && !isRecRing s h, stInvalid), (oddOfPair s ln, stState), (en && !(s.lane ln).on, stState), (en && decide (P < 1024 ∨ 16384 < P ∨ 1048576 < t.bins ∨ 65536 < t.m), stRange), (en && !binsIn s ln t.firstBin t.bins, stRange), (en && decide ((s.reg h).size < recordLen P t.f32), stRange), (en && decide (laneLine ln < laneLoad s1 ln), stNoRes)]; firstFailing checks = none ∧ ((argBit p 6 && !(s.trace (4 * arg p 0 4 + arg p 4 2)).on) = true) ∧ (s.spec.vcore < 850))) ∧
  (∃ (c : Cmd) (p : Block) (s₀ : State), zciReady 0x0405 2 (fun _ => [(0, 4), (4, 2), (6, 1), (7, 1), (8, 3), (11, 1), (16, 24), (40, 24), (64, 15), (80, 17), (112, 16)]) c p s₀ = true ∧ (let s := seen 0x0405 c s₀; let ln := arg p 0 4; let id := 4 * ln + arg p 4 2; let en := argBit p 6; let h := arg p 112 16; let P := arg p 64 15; let s0 := traceOff s id; let t : Trace := { on := true, single := argBit p 7, det := arg p 8 3, f32 := argBit p 11, firstBin := sarg p 16 24, bins := arg p 40 24, points := P, m := arg p 80 17, ring := h, fromTime := (unitFrom s ln).2 }; let s1 := s0.setTrace id t; let checks : List (Bool × Nat) := [(decide (ln < 12) && !ownsLane s c.session.val ln, stBusy), (en && !regOwned s c.session.val h, stBusy), (decide (12 ≤ ln), stInvalid), (en && (t.det == 7 || t.bins == 0 || t.m == 0), stInvalid), (en && !isRecRing s h, stInvalid), (oddOfPair s ln, stState), (en && !(s.lane ln).on, stState), (en && decide (P < 1024 ∨ 16384 < P ∨ 1048576 < t.bins ∨ 65536 < t.m), stRange), (en && !binsIn s ln t.firstBin t.bins, stRange), (en && decide ((s.reg h).size < recordLen P t.f32), stRange), (en && decide (laneLine ln < laneLoad s1 ln), stNoRes)]; firstFailing checks = none ∧ (((argBit p 6 && !(s.trace (4 * arg p 0 4 + arg p 4 2)).on) && decide (s.spec.vcore < 850)) = false) ∧ (en = true))) ∧
  (∃ (c : Cmd) (p : Block) (s₀ : State), zciReady 0x0405 2 (fun _ => [(0, 4), (4, 2), (6, 1), (7, 1), (8, 3), (11, 1), (16, 24), (40, 24), (64, 15), (80, 17), (112, 16)]) c p s₀ = true ∧ (let s := seen 0x0405 c s₀; let ln := arg p 0 4; let id := 4 * ln + arg p 4 2; let en := argBit p 6; let h := arg p 112 16; let P := arg p 64 15; let s0 := traceOff s id; let t : Trace := { on := true, single := argBit p 7, det := arg p 8 3, f32 := argBit p 11, firstBin := sarg p 16 24, bins := arg p 40 24, points := P, m := arg p 80 17, ring := h, fromTime := (unitFrom s ln).2 }; let s1 := s0.setTrace id t; let checks : List (Bool × Nat) := [(decide (ln < 12) && !ownsLane s c.session.val ln, stBusy), (en && !regOwned s c.session.val h, stBusy), (decide (12 ≤ ln), stInvalid), (en && (t.det == 7 || t.bins == 0 || t.m == 0), stInvalid), (en && !isRecRing s h, stInvalid), (oddOfPair s ln, stState), (en && !(s.lane ln).on, stState), (en && decide (P < 1024 ∨ 16384 < P ∨ 1048576 < t.bins ∨ 65536 < t.m), stRange), (en && !binsIn s ln t.firstBin t.bins, stRange), (en && decide ((s.reg h).size < recordLen P t.f32), stRange), (en && decide (laneLine ln < laneLoad s1 ln), stNoRes)]; firstFailing checks = none ∧ (((argBit p 6 && !(s.trace (4 * arg p 0 4 + arg p 4 2)).on) && decide (s.spec.vcore < 850)) = false) ∧ (en = false))) ∧
  -- SPEC_SET_OUTPUT (R112)
  (∃ (c : Cmd) (p : Block) (s₀ : State), zciReady 0x0406 2 (fun _ => [(0, 4), (4, 1), (5, 1), (8, 24), (32, 24), (64, 17), (112, 16)]) c p s₀ = true ∧ (let s := seen 0x0406 c s₀; let n := c.session.val; let l := arg p 0 4; let en := argBit p 4; let h := arg p 112 16; let o : SpecOut := { on := true, f32 := argBit p 5, firstBin := sarg p 8 24, bins := arg p 32 24, decim := arg p 64 17, ring := h }; let s1 := s.setSout l o; let checks : List (Bool × Nat) := [(decide (l < 12) && !ownsLane s n l, stBusy), (en && !regOwned s n h, stBusy), (decide (12 ≤ l), stInvalid), (en && (o.bins == 0 || o.decim == 0), stInvalid), (en && !isRecRing s h, stInvalid), (oddOfPair s l, stState), (en && !(s.lane l).on, stState), (en && decide (1048576 < o.bins ∨ 65536 < o.decim), stRange), (en && !binsIn s l o.firstBin o.bins, stRange), (en && decide ((s.reg h).size < recordLen o.bins o.f32), stRange), (en && decide (laneLine l < laneLoad s1 l), stNoRes)]; (firstFailing checks).isSome = true)) ∧
  (∃ (c : Cmd) (p : Block) (s₀ : State), zciReady 0x0406 2 (fun _ => [(0, 4), (4, 1), (5, 1), (8, 24), (32, 24), (64, 17), (112, 16)]) c p s₀ = true ∧ (let s := seen 0x0406 c s₀; let n := c.session.val; let l := arg p 0 4; let en := argBit p 4; let h := arg p 112 16; let o : SpecOut := { on := true, f32 := argBit p 5, firstBin := sarg p 8 24, bins := arg p 32 24, decim := arg p 64 17, ring := h }; let s1 := s.setSout l o; let checks : List (Bool × Nat) := [(decide (l < 12) && !ownsLane s n l, stBusy), (en && !regOwned s n h, stBusy), (decide (12 ≤ l), stInvalid), (en && (o.bins == 0 || o.decim == 0), stInvalid), (en && !isRecRing s h, stInvalid), (oddOfPair s l, stState), (en && !(s.lane l).on, stState), (en && decide (1048576 < o.bins ∨ 65536 < o.decim), stRange), (en && !binsIn s l o.firstBin o.bins, stRange), (en && decide ((s.reg h).size < recordLen o.bins o.f32), stRange), (en && decide (laneLine l < laneLoad s1 l), stNoRes)]; firstFailing checks = none)) ∧
  -- SPEC_GET_STATUS (R113)
  (∃ (c : Cmd) (p : Block) (s₀ : State), zciReady 0x0407 1 (fun _ => [(0, 4), (8, 1)]) c p s₀ = true ∧ (let l := arg p 0 4; let checks : List (Bool × Nat) := [(decide (12 ≤ l), stInvalid)]; (firstFailing checks).isSome = true)) ∧
  (∃ (c : Cmd) (p : Block) (s₀ : State), zciReady 0x0407 1 (fun _ => [(0, 4), (8, 1)]) c p s₀ = true ∧ (let l := arg p 0 4; let checks : List (Bool × Nat) := [(decide (12 ≤ l), stInvalid)]; firstFailing checks = none)) ∧
  -- SPEC_SET_GOVERNOR (R106)
  (∃ (c : Cmd) (p : Block) (s₀ : State), zciReady 0x0408 1 (fun _ => [(0, 1)]) c p s₀ = true) := by
  refine ⟨⟨cmd 2, block [(64, 48, 140737488355328)], { owned with spec := { ddcs := [(0, { on := true, live := true })] } }, ?_⟩, ⟨cmd 2, block [(64, 48, 140737488355328)], { owned with spec := { ddcs := [(0, { on := true })] } }, ?_⟩, ⟨cmd 2, 0, ready, ?_⟩, ⟨cmd 2, block [(6, 1, 1), (40, 24, 1), (64, 15, 1024), (80, 17, 65536), (112, 16, 1)], lean_, ?_⟩, ⟨cmd 2, block [(6, 1, 1), (40, 24, 1), (64, 15, 1024), (80, 17, 65536), (112, 16, 1)], rich, ?_⟩, ⟨cmd 2, 0, owned, ?_⟩, ⟨cmd 2, 0, ready, ?_⟩, ⟨cmd 2, 0, owned, ?_⟩, ⟨cmd 1, block [(0, 4, 15), (8, 1, 1)], ready, ?_⟩, ⟨cmd 1, 0, ready, ?_⟩, ⟨cmd 1, 0, ready, ?_⟩⟩ <;> decide +kernel

/-- Operands and states that meet the hypotheses of each clause of AcquisitionSetCommands. Part 1. -/
theorem witness_AcquisitionSetCommands_part1 :
  -- ACQ_SET_TERM (R152)
  (∃ (c : Cmd) (p : Block) (s₀ : State), zciReady 0x0501 4 (fun b => termFields (fld b 8 4)) c p s₀ = true ∧ (let s := seen 0x0501 c s₀; let n := c.session.val; let a := arg p 0 3; let k := 8 * a + arg p 3 3; let en := argBit p 6; let ty := arg p 8 4; let checks : List (Bool × Nat) := [(!ownsAu s n a || (en && termUnowned s n ty (blk p 4)), stBusy), (en && termInvalid ty (blk p 4), stInvalid), (auLocked s a || (en && ty == 4 && oddOfPair s (arg p 32 4)) || (en && ty == 6 && (s.tiuIn (arg p 32 3)).prescale != 0), stState), (en && ty == 4 && slotTaken s k (blk p 4), stBusy), (en && termFar ty (blk p 4), stRange)]; (firstFailing checks).isSome = true)) ∧
  (∃ (c : Cmd) (p : Block) (s₀ : State), zciReady 0x0501 4 (fun b => termFields (fld b 8 4)) c p s₀ = true ∧ (let s := seen 0x0501 c s₀; let n := c.session.val; let a := arg p 0 3; let k := 8 * a + arg p 3 3; let en := argBit p 6; let ty := arg p 8 4; let checks : List (Bool × Nat) := [(!ownsAu s n a || (en && termUnowned s n ty (blk p 4)), stBusy), (en && termInvalid ty (blk p 4), stInvalid), (auLocked s a || (en && ty == 4 && oddOfPair s (arg p 32 4)) || (en && ty == 6 && (s.tiuIn (arg p 32 3)).prescale != 0), stState), (en && ty == 4 && slotTaken s k (blk p 4), stBusy), (en && termFar ty (blk p 4), stRange)]; firstFailing checks = none)) ∧
  -- ACQ_SET_COMBINER (R153)
  (∃ (c : Cmd) (p : Block) (s₀ : State), zciReady 0x0502 2 (fun _ => [(0, 3), (8, 2), (16, 8), (32, 32), (64, 32), (96, 4)]) c p s₀ = true ∧ (let s := seen 0x0502 c s₀; let a := arg p 0 3; let m := arg p 8 2; let r := arg p 96 4; let checks : List (Bool × Nat) := [(!ownsAu s c.session.val a, stBusy), (m == 3, stInvalid), (arg p 16 8 == 0, stInvalid), (m == 1 && arg p 32 32 == 0, stInvalid), (m == 2 && r != 15 && (decide (7 < r) || bit (arg p 16 8) r), stInvalid), (auLocked s a, stState)]; (firstFailing checks).isSome = true)) ∧
  (∃ (c : Cmd) (p : Block) (s₀ : State), zciReady 0x0502 2 (fun _ => [(0, 3), (8, 2), (16, 8), (32, 32), (64, 32), (96, 4)]) c p s₀ = true ∧ (let s := seen 0x0502 c s₀; let a := arg p 0 3; let m := arg p 8 2; let r := arg p 96 4; let checks : List (Bool × Nat) := [(!ownsAu s c.session.val a, stBusy), (m == 3, stInvalid), (arg p 16 8 == 0, stInvalid), (m == 1 && arg p 32 32 == 0, stInvalid), (m == 2 && r != 15 && (decide (7 < r) || bit (arg p 16 8) r), stInvalid), (auLocked s a, stState)]; firstFailing checks = none)) ∧
  -- ACQ_SET_CAPTURE (R154)
  (∃ (c : Cmd) (p : Block) (s₀ : State), zciReady 0x0503 6 captureFields c p s₀ = true ∧ (let s := seen 0x0503 c s₀; let n := c.session.val; let a := arg p 0 3; let es := captureEntries (blk p 6); let m := arg p 8 2; let checks : List (Bool × Nat) := [(!ownsAu s n a || es.any (fun e => !regOwned s n e.2), stBusy), (m == 3, stInvalid), (arg p 16 3 == 0, stInvalid), (arg p 128 17 == 0 || (m != 1 && arg p 128 17 != 1), stInvalid), (es.any (fun e => !streamId e.1), stInvalid), (es.any (fun e => !isCapRing s e.2), stInvalid), (auLocked s a, stState), (decide (4 < arg p 16 3 ∨ 65536 < arg p 128 17), stRange)]; (firstFailing checks).isSome = true)) ∧
  (∃ (c : Cmd) (p : Block) (s₀ : State), zciReady 0x0503 6 captureFields c p s₀ = true ∧ (let s := seen 0x0503 c s₀; let n := c.session.val; let a := arg p 0 3; let es := captureEntries (blk p 6); let m := arg p 8 2; let checks : List (Bool × Nat) := [(!ownsAu s n a || es.any (fun e => !regOwned s n e.2), stBusy), (m == 3, stInvalid), (arg p 16 3 == 0, stInvalid), (arg p 128 17 == 0 || (m != 1 && arg p 128 17 != 1), stInvalid), (es.any (fun e => !streamId e.1), stInvalid), (es.any (fun e => !isCapRing s e.2), stInvalid), (auLocked s a, stState), (decide (4 < arg p 16 3 ∨ 65536 < arg p 128 17), stRange)]; firstFailing checks = none)) ∧
  -- ACQ_LOAD_MASK (R156)
  (∃ (c : Cmd) (p : Block) (data : List Nat) (s₀ : State), zciReady 0x0507 2 (fun _ => [(0, 17), (32, 18), (64, 64)]) c p s₀ = true ∧ (let s := seen 0x0507 c s₀; let base := arg p 0 17; let n := arg p 32 18; let ws := (List.range (min n 131072)).map (fun i => data.getD i 0); let checks : List (Bool × Nat) := [(arg p 64 64 % 8 != 0, stInvalid), ((bpRanges s).any (fun r => decide (r.1 < base + n ∧ base < r.1 + r.2)), stState), (decide (n < 1 ∨ 131072 < base + n), stRange), (ws.any (fun w => fld w 49 15 != 0), stInvalid)]; (firstFailing checks).isSome = true)) ∧
  (∃ (c : Cmd) (p : Block) (data : List Nat) (s₀ : State), zciReady 0x0507 2 (fun _ => [(0, 17), (32, 18), (64, 64)]) c p s₀ = true ∧ (let s := seen 0x0507 c s₀; let base := arg p 0 17; let n := arg p 32 18; let ws := (List.range (min n 131072)).map (fun i => data.getD i 0); let checks : List (Bool × Nat) := [(arg p 64 64 % 8 != 0, stInvalid), ((bpRanges s).any (fun r => decide (r.1 < base + n ∧ base < r.1 + r.2)), stState), (decide (n < 1 ∨ 131072 < base + n), stRange), (ws.any (fun w => fld w 49 15 != 0), stInvalid)]; firstFailing checks = none)) ∧
  -- ACQ_SET_MASK (R130)
  (∃ (c : Cmd) (p : Block) (s₀ : State), zciReady 0x0508 4 (fun _ => [(0, 4), (4, 2), (6, 1), (7, 1), (8, 1), (9, 1), (16, 17), (48, 18), (72, 9), (88, 9), (104, 16), (128, 48), (176, 8)]) c p s₀ = true ∧ (let s := seen 0x0508 c s₀; let l := arg p 0 4; let i := 4 * l + arg p 4 2; let en := argBit p 6; let m : Mask := { on := true, test := argBit p 7, lower := argBit p 8, tpoint := argBit p 9, base := arg p 16 17, count := arg p 48 18, nq := arg p 72 9, mq := arg p 88 9, vbins := arg p 104 16 }; let auto := arg p 176 8 == 0xFF; let st := if auto then (s.lane l).run.source else arg p 176 8; let from_ := stampOf (s.now + 3200); let g := if auto then grainFrom s st from_ else (s.epoch st).ep0 + arg p 128 48; let checks : List (Bool × Nat) := [(decide (l < 12) && !ownsLane s c.session.val l, stBusy), (decide (12 ≤ l), stInvalid), (en && m.vbins == 0, stInvalid), (!auto && !streamId st, stInvalid), (en && decide (m.base + m.count ≤ 131072) && !posRises (maskBps s m.base m.count), stInvalid), (oddOfPair s l, stState), (!strRuns s st, stState), ((s.maskS i).pend.isSome, stState), (en && (m.count == 0 || decide (131072 < m.base + m.count) || m.mq == 0 || decide (256 < m.mq) || m.nq == 0 || decide (m.mq < m.nq)), stRange), (decide (grainTime s st g < from_), stRange)]; (firstFailing checks).isSome = true)) ∧
  (∃ (c : Cmd) (p : Block) (s₀ : State), zciReady 0x0508 4 (fun _ => [(0, 4), (4, 2), (6, 1), (7, 1), (8, 1), (9, 1), (16, 17), (48, 18), (72, 9), (88, 9), (104, 16), (128, 48), (176, 8)]) c p s₀ = true ∧ (let s := seen 0x0508 c s₀; let l := arg p 0 4; let i := 4 * l + arg p 4 2; let en := argBit p 6; let m : Mask := { on := true, test := argBit p 7, lower := argBit p 8, tpoint := argBit p 9, base := arg p 16 17, count := arg p 48 18, nq := arg p 72 9, mq := arg p 88 9, vbins := arg p 104 16 }; let auto := arg p 176 8 == 0xFF; let st := if auto then (s.lane l).run.source else arg p 176 8; let from_ := stampOf (s.now + 3200); let g := if auto then grainFrom s st from_ else (s.epoch st).ep0 + arg p 128 48; let checks : List (Bool × Nat) := [(decide (l < 12) && !ownsLane s c.session.val l, stBusy), (decide (12 ≤ l), stInvalid), (en && m.vbins == 0, stInvalid), (!auto && !streamId st, stInvalid), (en && decide (m.base + m.count ≤ 131072) && !posRises (maskBps s m.base m.count), stInvalid), (oddOfPair s l, stState), (!strRuns s st, stState), ((s.maskS i).pend.isSome, stState), (en && (m.count == 0 || decide (131072 < m.base + m.count) || m.mq == 0 || decide (256 < m.mq) || m.nq == 0 || decide (m.mq < m.nq)), stRange), (decide (grainTime s st g < from_), stRange)]; firstFailing checks = none)) ∧
  -- ACQ_SET_TEST (R158)
  (∃ (c : Cmd) (p : Block) (s₀ : State), zciReady 0x0509 4 (fun _ => [(0, 3), (3, 1), (4, 1), (5, 1), (6, 1), (8, 8), (16, 4), (20, 2), (32, 17), (64, 18), (96, 17), (128, 18)]) c p s₀ = true ∧ (let s := seen 0x0509 c s₀; let n := c.session.val; let a := arg p 0 3; let k := 2 * a + arg p 3 1; let en := argBit p 4; let fr := argBit p 5; let l := arg p 16 4; let i := 4 * l + arg p 20 2; let t : Test := { on := true, freq := fr, stop := argBit p 6, stream := arg p 8 8, lane := l, slot := arg p 20 2, ubase := arg p 32 17, ucount := arg p 64 18, lbase := arg p 96 17, lcount := arg p 128 18 }; let bps := maskBps s t.ubase t.ucount ++ maskBps s t.lbase t.lcount; let checks : List (Bool × Nat) := [(!ownsAu s n a || (en && fr && decide (l < 12) && !ownsLane s n l), stBusy), (en && fr && decide (12 ≤ l), stInvalid), (en && fr && (!(slotConfig s i).on || !(slotConfig s i).test), stInvalid), (en && !fr && !(s.au a).entries.any (fun e => e.stream == t.stream), stInvalid), (en && !fr && t.ucount == 0 && t.lcount == 0, stInvalid), (en && !fr && decide (t.ubase + t.ucount ≤ 131072 ∧ t.lbase + t.lcount ≤ 131072) && !(posRises (maskBps s t.ubase t.ucount) && posRises (maskBps s t.lbase t.lcount)), stInvalid), (auLocked s a || (en && fr && oddOfPair s l), stState), (en && fr && (List.range 16).any (fun j => j != k && (s.tst j).on && (s.tst j).freq && (s.tst j).lane == l && (s.tst j).slot == t.slot), stBusy), (en && !fr && decide (131072 < t.ubase + t.ucount ∨ 131072 < t.lbase + t.lcount), stRange), (en && !fr && bps.any (fun x => decide (x.level < -2048 ∨ 2047 < x.level)), stRange)]; (firstFailing checks).isSome = true)) ∧
  (∃ (c : Cmd) (p : Block) (s₀ : State), zciReady 0x0509 4 (fun _ => [(0, 3), (3, 1), (4, 1), (5, 1), (6, 1), (8, 8), (16, 4), (20, 2), (32, 17), (64, 18), (96, 17), (128, 18)]) c p s₀ = true ∧ (let s := seen 0x0509 c s₀; let n := c.session.val; let a := arg p 0 3; let k := 2 * a + arg p 3 1; let en := argBit p 4; let fr := argBit p 5; let l := arg p 16 4; let i := 4 * l + arg p 20 2; let t : Test := { on := true, freq := fr, stop := argBit p 6, stream := arg p 8 8, lane := l, slot := arg p 20 2, ubase := arg p 32 17, ucount := arg p 64 18, lbase := arg p 96 17, lcount := arg p 128 18 }; let bps := maskBps s t.ubase t.ucount ++ maskBps s t.lbase t.lcount; let checks : List (Bool × Nat) := [(!ownsAu s n a || (en && fr && decide (l < 12) && !ownsLane s n l), stBusy), (en && fr && decide (12 ≤ l), stInvalid), (en && fr && (!(slotConfig s i).on || !(slotConfig s i).test), stInvalid), (en && !fr && !(s.au a).entries.any (fun e => e.stream == t.stream), stInvalid), (en && !fr && t.ucount == 0 && t.lcount == 0, stInvalid), (en && !fr && decide (t.ubase + t.ucount ≤ 131072 ∧ t.lbase + t.lcount ≤ 131072) && !(posRises (maskBps s t.ubase t.ucount) && posRises (maskBps s t.lbase t.lcount)), stInvalid), (auLocked s a || (en && fr && oddOfPair s l), stState), (en && fr && (List.range 16).any (fun j => j != k && (s.tst j).on && (s.tst j).freq && (s.tst j).lane == l && (s.tst j).slot == t.slot), stBusy), (en && !fr && decide (131072 < t.ubase + t.ucount ∨ 131072 < t.lbase + t.lcount), stRange), (en && !fr && bps.any (fun x => decide (x.level < -2048 ∨ 2047 < x.level)), stRange)]; firstFailing checks = none)) := by
  refine ⟨⟨cmd 4, 0, ready, ?_⟩, ⟨cmd 4, 0, owned, ?_⟩, ⟨cmd 2, 0, ready, ?_⟩, ⟨cmd 2, block [(8, 2, 1), (16, 8, 14), (32, 32, 200), (64, 32, 100), (96, 4, 15)], owned, ?_⟩, ⟨cmd 6, 0, ready, ?_⟩, ⟨cmd 6, block [(16, 3, 1), (128, 17, 1), (176, 16, 2)], owned, ?_⟩, ⟨cmd 2, 0, [], ready, ?_⟩, ⟨cmd 2, block [(32, 18, 64), (64, 64, 256)], [], ready, ?_⟩, ⟨cmd 4, 0, ready, ?_⟩, ⟨cmd 4, block [(7, 1, 1), (4, 2, 3), (8, 1, 1), (16, 17, 30581), (88, 9, 511), (104, 16, 16384), (128, 48, 15747087505488)], owned, ?_⟩, ⟨cmd 4, 0, ready, ?_⟩, ⟨cmd 4, 0, owned, ?_⟩⟩ <;> decide +kernel

/-- Operands and states that meet the hypotheses of each clause of AcquisitionSetCommands. Part 2. -/
theorem witness_AcquisitionSetCommands_part2 :
  -- ACQ_SET_EVT_OUT (R159)
  (∃ (c : Cmd) (p : Block) (s₀ : State), zciReady 0x050A 2 (fun _ => [(0, 2), (2, 1), (3, 1), (4, 3), (7, 1), (8, 3), (11, 3), (16, 1), (32, 32), (64, 32)]) c p s₀ = true ∧ (let s := seen 0x050A c s₀; let n := arg p 0 2; let en := argBit p 2; let x : EvtOut := { on := true, pol := argBit p 3, source := arg p 4 3, retrig := argBit p 7, au := arg p 8 3, index := arg p 11 3, fixed := argBit p 16, width := arg p 32 32, delay := arg p 64 32 }; let old := s.pin n; let checks : List (Bool × Nat) := [(!owns s c.session.val 8 n, stBusy), (en && decide (4 < x.source), stInvalid), (en && (x.source == 2 || x.source == 4) && x.fixed, stInvalid), ((old.on && pinUnitRuns s old.source old.au) || (en && pinUnitRuns s x.source x.au), stState), (en && x.source == 3 && decide (1 < x.index), stRange), (en && pulseSource x.source && decide (x.width < 16), stRange)]; (firstFailing checks).isSome = true)) ∧
  (∃ (c : Cmd) (p : Block) (s₀ : State), zciReady 0x050A 2 (fun _ => [(0, 2), (2, 1), (3, 1), (4, 3), (7, 1), (8, 3), (11, 3), (16, 1), (32, 32), (64, 32)]) c p s₀ = true ∧ (let s := seen 0x050A c s₀; let n := arg p 0 2; let en := argBit p 2; let x : EvtOut := { on := true, pol := argBit p 3, source := arg p 4 3, retrig := argBit p 7, au := arg p 8 3, index := arg p 11 3, fixed := argBit p 16, width := arg p 32 32, delay := arg p 64 32 }; let old := s.pin n; let checks : List (Bool × Nat) := [(!owns s c.session.val 8 n, stBusy), (en && decide (4 < x.source), stInvalid), (en && (x.source == 2 || x.source == 4) && x.fixed, stInvalid), ((old.on && pinUnitRuns s old.source old.au) || (en && pinUnitRuns s x.source x.au), stState), (en && x.source == 3 && decide (1 < x.index), stRange), (en && pulseSource x.source && decide (x.width < 16), stRange)]; firstFailing checks = none)) := by
  refine ⟨⟨cmd 2, 0, ready, ?_⟩, ⟨cmd 2, 0, owned, ?_⟩⟩ <;> decide +kernel

/-- Operands and states that meet the hypotheses of each clause of AcquisitionRunCommands. -/
theorem witness_AcquisitionRunCommands :
  -- ACQ_ARM (R143)
  (∃ (c : Cmd) (p : Block) (s₀ : State), zciReady 0x0504 2 (fun _ => [(0, 3), (64, 64)]) c p s₀ = true ∧ (let s := seen 0x0504 c s₀; let n := c.session.val; let a := arg p 0 3; let at_ := arg p 64 64; let u := sizedUnit s a; let t := s.setAu a { u with st := 2 }; let checks : List (Bool × Nat) := [(auLocked s a, stState), (!ownsAu s n a || u.entries.any (fun e => !regOwned s n e.ring) || ringsTaken s a, stBusy), ((unitTerms s a).isEmpty || !u.capSet || u.entries.any (fun e => !isCapRing s e.ring), stInvalid), (u.capMode == 2 && [0, 1].any (fun k => (s.tst (2 * a + k)).on && !(s.tst (2 * a + k)).freq), stInvalid), (streamsStopped s a, stState), (u.entries.any (fun e => !e.fits s u), stRange), (delayShort s a, stRange), (tickBad s at_, stRange), (decide (rawLimit < rawLoad t ∨ ddcLimit < ddcLoad t), stNoRes)]; (firstFailing checks).isSome = true)) ∧
  (∃ (c : Cmd) (p : Block) (s₀ : State), zciReady 0x0504 2 (fun _ => [(0, 3), (64, 64)]) c p s₀ = true ∧ (let s := seen 0x0504 c s₀; let n := c.session.val; let a := arg p 0 3; let at_ := arg p 64 64; let u := sizedUnit s a; let t := s.setAu a { u with st := 2 }; let checks : List (Bool × Nat) := [(auLocked s a, stState), (!ownsAu s n a || u.entries.any (fun e => !regOwned s n e.ring) || ringsTaken s a, stBusy), ((unitTerms s a).isEmpty || !u.capSet || u.entries.any (fun e => !isCapRing s e.ring), stInvalid), (u.capMode == 2 && [0, 1].any (fun k => (s.tst (2 * a + k)).on && !(s.tst (2 * a + k)).freq), stInvalid), (streamsStopped s a, stState), (u.entries.any (fun e => !e.fits s u), stRange), (delayShort s a, stRange), (tickBad s at_, stRange), (decide (rawLimit < rawLoad t ∨ ddcLimit < ddcLoad t), stNoRes)]; firstFailing checks = none ∧ (at_ = 0))) ∧
  (∃ (c : Cmd) (p : Block) (s₀ : State), zciReady 0x0504 2 (fun _ => [(0, 3), (64, 64)]) c p s₀ = true ∧ (let s := seen 0x0504 c s₀; let n := c.session.val; let a := arg p 0 3; let at_ := arg p 64 64; let u := sizedUnit s a; let t := s.setAu a { u with st := 2 }; let checks : List (Bool × Nat) := [(auLocked s a, stState), (!ownsAu s n a || u.entries.any (fun e => !regOwned s n e.ring) || ringsTaken s a, stBusy), ((unitTerms s a).isEmpty || !u.capSet || u.entries.any (fun e => !isCapRing s e.ring), stInvalid), (u.capMode == 2 && [0, 1].any (fun k => (s.tst (2 * a + k)).on && !(s.tst (2 * a + k)).freq), stInvalid), (streamsStopped s a, stState), (u.entries.any (fun e => !e.fits s u), stRange), (delayShort s a, stRange), (tickBad s at_, stRange), (decide (rawLimit < rawLoad t ∨ ddcLimit < ddcLoad t), stNoRes)]; firstFailing checks = none ∧ (at_ ≠ 0))) ∧
  -- ACQ_STOP (R141)
  (∃ (c : Cmd) (p : Block) (s₀ : State), zciReady 0x0505 1 (fun _ => [(0, 3)]) c p s₀ = true ∧ (let s := seen 0x0505 c s₀; let a := arg p 0 3; let u := s.au a; let checks : List (Bool × Nat) := [(!ownsAu s c.session.val a, stBusy), (!u.runs || (u.capMode == 2 && u.st == 3), stState)]; (firstFailing checks).isSome = true)) ∧
  (∃ (c : Cmd) (p : Block) (s₀ : State), zciReady 0x0505 1 (fun _ => [(0, 3)]) c p s₀ = true ∧ (let s := seen 0x0505 c s₀; let a := arg p 0 3; let u := s.au a; let checks : List (Bool × Nat) := [(!ownsAu s c.session.val a, stBusy), (!u.runs || (u.capMode == 2 && u.st == 3), stState)]; firstFailing checks = none)) ∧
  -- ACQ_FORCE (R142)
  (∃ (c : Cmd) (p : Block) (s₀ : State), zciReady 0x0506 1 (fun _ => [(0, 3)]) c p s₀ = true ∧ (let s := seen 0x0506 c s₀; let a := arg p 0 3; let u := s.au a; let checks : List (Bool × Nat) := [(!ownsAu s c.session.val a, stBusy), (u.st != 1 && u.st != 2, stState)]; (firstFailing checks).isSome = true)) ∧
  (∃ (c : Cmd) (p : Block) (s₀ : State), zciReady 0x0506 1 (fun _ => [(0, 3)]) c p s₀ = true ∧ (let s := seen 0x0506 c s₀; let a := arg p 0 3; let u := s.au a; let checks : List (Bool × Nat) := [(!ownsAu s c.session.val a, stBusy), (u.st != 1 && u.st != 2, stState)]; firstFailing checks = none)) ∧
  -- ACQ_GET_STATUS (R160)
  (∃ (c : Cmd) (p : Block) (s₀ : State), zciReady 0x050B 1 (fun _ => [(0, 3), (8, 1)]) c p s₀ = true) := by
  refine ⟨⟨cmd 2, 0, ready, ?_⟩, ⟨cmd 2, 0, rich, ?_⟩, ⟨cmd 2, block [(64, 64, 18446744073709551615)], rich, ?_⟩, ⟨cmd 1, 0, ready, ?_⟩, ⟨cmd 1, 0, { rich with acq := { units := [(0, { st := 2, terms := 1, capSet := true, post := 256, entries := [{ stream := 0, ring := 2 }] })] } }, ?_⟩, ⟨cmd 1, 0, ready, ?_⟩, ⟨cmd 1, 0, { rich with acq := { units := [(0, { st := 2, terms := 1, capSet := true, post := 256, entries := [{ stream := 0, ring := 2 }] })] } }, ?_⟩, ⟨cmd 1, 0, ready, ?_⟩⟩ <;> decide +kernel

/-- Operands and states that meet the hypotheses of each clause of DensityAndDisplayCommands. Part 1. -/
theorem witness_DensityAndDisplayCommands_part1 :
  -- DENS_SET_MAP (R172)
  (∃ (c : Cmd) (p : Block) (s₀ : State), zciReady 0x0601 4 (fun _ => [(0, 2), (2, 1), (3, 1), (8, 4), (16, 6), (32, 24), (56, 24), (80, 16), (96, 12), (112, 17), (144, 16)]) c p s₀ = true ∧ (let s := seen 0x0601 c s₀; let i := arg p 0 2; let en := argBit p 2; let m := s.dmap i; let n := m.config (blk p 4); let checks : List (Bool × Nat) := [(!owns s c.session.val 0x0B i, stBusy), (en && decide (12 ≤ n.lane), stInvalid), (en && (n.bins == 0 || n.step == 0 || n.dec == 0), stInvalid), (en && (oddOfPair s n.lane || !(s.lane n.lane).on), stState), (densTermed s i, stState), (en && decide (1048576 < n.bins ∨ 65536 < n.dec ∨ 60000 < n.halfLife), stRange), (en && !binsIn s n.lane n.firstBin n.bins, stRange), (en && decide (densLimit < densRate s n), stNoRes)]; (firstFailing checks).isSome = true)) ∧
  (∃ (c : Cmd) (p : Block) (s₀ : State), zciReady 0x0601 4 (fun _ => [(0, 2), (2, 1), (3, 1), (8, 4), (16, 6), (32, 24), (56, 24), (80, 16), (96, 12), (112, 17), (144, 16)]) c p s₀ = true ∧ (let s := seen 0x0601 c s₀; let i := arg p 0 2; let en := argBit p 2; let m := s.dmap i; let n := m.config (blk p 4); let checks : List (Bool × Nat) := [(!owns s c.session.val 0x0B i, stBusy), (en && decide (12 ≤ n.lane), stInvalid), (en && (n.bins == 0 || n.step == 0 || n.dec == 0), stInvalid), (en && (oddOfPair s n.lane || !(s.lane n.lane).on), stState), (densTermed s i, stState), (en && decide (1048576 < n.bins ∨ 65536 < n.dec ∨ 60000 < n.halfLife), stRange), (en && !binsIn s n.lane n.firstBin n.bins, stRange), (en && decide (densLimit < densRate s n), stNoRes)]; firstFailing checks = none ∧ ((argBit p 2 && !(s.dmap (arg p 0 2)).on) = true) ∧ (s.spec.vcore < 850))) ∧
  (∃ (c : Cmd) (p : Block) (s₀ : State), zciReady 0x0601 4 (fun _ => [(0, 2), (2, 1), (3, 1), (8, 4), (16, 6), (32, 24), (56, 24), (80, 16), (96, 12), (112, 17), (144, 16)]) c p s₀ = true ∧ (let s := seen 0x0601 c s₀; let i := arg p 0 2; let en := argBit p 2; let m := s.dmap i; let n := m.config (blk p 4); let checks : List (Bool × Nat) := [(!owns s c.session.val 0x0B i, stBusy), (en && decide (12 ≤ n.lane), stInvalid), (en && (n.bins == 0 || n.step == 0 || n.dec == 0), stInvalid), (en && (oddOfPair s n.lane || !(s.lane n.lane).on), stState), (densTermed s i, stState), (en && decide (1048576 < n.bins ∨ 65536 < n.dec ∨ 60000 < n.halfLife), stRange), (en && !binsIn s n.lane n.firstBin n.bins, stRange), (en && decide (densLimit < densRate s n), stNoRes)]; firstFailing checks = none ∧ (((argBit p 2 && !(s.dmap (arg p 0 2)).on) && decide (s.spec.vcore < 850)) = false) ∧ (en = false) ∧ (argBit p 3 = true))) ∧
  (∃ (c : Cmd) (p : Block) (s₀ : State), zciReady 0x0601 4 (fun _ => [(0, 2), (2, 1), (3, 1), (8, 4), (16, 6), (32, 24), (56, 24), (80, 16), (96, 12), (112, 17), (144, 16)]) c p s₀ = true ∧ (let s := seen 0x0601 c s₀; let i := arg p 0 2; let en := argBit p 2; let m := s.dmap i; let n := m.config (blk p 4); let checks : List (Bool × Nat) := [(!owns s c.session.val 0x0B i, stBusy), (en && decide (12 ≤ n.lane), stInvalid), (en && (n.bins == 0 || n.step == 0 || n.dec == 0), stInvalid), (en && (oddOfPair s n.lane || !(s.lane n.lane).on), stState), (densTermed s i, stState), (en && decide (1048576 < n.bins ∨ 65536 < n.dec ∨ 60000 < n.halfLife), stRange), (en && !binsIn s n.lane n.firstBin n.bins, stRange), (en && decide (densLimit < densRate s n), stNoRes)]; firstFailing checks = none ∧ (((argBit p 2 && !(s.dmap (arg p 0 2)).on) && decide (s.spec.vcore < 850)) = false) ∧ (en = false) ∧ (argBit p 3 = false))) ∧
  (∃ (c : Cmd) (p : Block) (s₀ : State), zciReady 0x0601 4 (fun _ => [(0, 2), (2, 1), (3, 1), (8, 4), (16, 6), (32, 24), (56, 24), (80, 16), (96, 12), (112, 17), (144, 16)]) c p s₀ = true ∧ (let s := seen 0x0601 c s₀; let i := arg p 0 2; let en := argBit p 2; let m := s.dmap i; let n := m.config (blk p 4); let checks : List (Bool × Nat) := [(!owns s c.session.val 0x0B i, stBusy), (en && decide (12 ≤ n.lane), stInvalid), (en && (n.bins == 0 || n.step == 0 || n.dec == 0), stInvalid), (en && (oddOfPair s n.lane || !(s.lane n.lane).on), stState), (densTermed s i, stState), (en && decide (1048576 < n.bins ∨ 65536 < n.dec ∨ 60000 < n.halfLife), stRange), (en && !binsIn s n.lane n.firstBin n.bins, stRange), (en && decide (densLimit < densRate s n), stNoRes)]; firstFailing checks = none ∧ (((argBit p 2 && !(s.dmap (arg p 0 2)).on) && decide (s.spec.vcore < 850)) = false) ∧ (en = true) ∧ (m.clears n (blk p 4) = true))) ∧
  (∃ (c : Cmd) (p : Block) (s₀ : State), zciReady 0x0601 4 (fun _ => [(0, 2), (2, 1), (3, 1), (8, 4), (16, 6), (32, 24), (56, 24), (80, 16), (96, 12), (112, 17), (144, 16)]) c p s₀ = true ∧ (let s := seen 0x0601 c s₀; let i := arg p 0 2; let en := argBit p 2; let m := s.dmap i; let n := m.config (blk p 4); let checks : List (Bool × Nat) := [(!owns s c.session.val 0x0B i, stBusy), (en && decide (12 ≤ n.lane), stInvalid), (en && (n.bins == 0 || n.step == 0 || n.dec == 0), stInvalid), (en && (oddOfPair s n.lane || !(s.lane n.lane).on), stState), (densTermed s i, stState), (en && decide (1048576 < n.bins ∨ 65536 < n.dec ∨ 60000 < n.halfLife), stRange), (en && !binsIn s n.lane n.firstBin n.bins, stRange), (en && decide (densLimit < densRate s n), stNoRes)]; firstFailing checks = none ∧ (((argBit p 2 && !(s.dmap (arg p 0 2)).on) && decide (s.spec.vcore < 850)) = false) ∧ (en = true) ∧ (m.clears n (blk p 4) = false) ∧ ((m.clearing || densRuns s n) = true))) ∧
  (∃ (c : Cmd) (p : Block) (s₀ : State), zciReady 0x0601 4 (fun _ => [(0, 2), (2, 1), (3, 1), (8, 4), (16, 6), (32, 24), (56, 24), (80, 16), (96, 12), (112, 17), (144, 16)]) c p s₀ = true ∧ (let s := seen 0x0601 c s₀; let i := arg p 0 2; let en := argBit p 2; let m := s.dmap i; let n := m.config (blk p 4); let checks : List (Bool × Nat) := [(!owns s c.session.val 0x0B i, stBusy), (en && decide (12 ≤ n.lane), stInvalid), (en && (n.bins == 0 || n.step == 0 || n.dec == 0), stInvalid), (en && (oddOfPair s n.lane || !(s.lane n.lane).on), stState), (densTermed s i, stState), (en && decide (1048576 < n.bins ∨ 65536 < n.dec ∨ 60000 < n.halfLife), stRange), (en && !binsIn s n.lane n.firstBin n.bins, stRange), (en && decide (densLimit < densRate s n), stNoRes)]; firstFailing checks = none ∧ (((argBit p 2 && !(s.dmap (arg p 0 2)).on) && decide (s.spec.vcore < 850)) = false) ∧ (en = true) ∧ (m.clears n (blk p 4) = false) ∧ ((m.clearing || densRuns s n) = false))) ∧
  -- DENS_CLEAR (R170)
  (∃ (c : Cmd) (p : Block) (s₀ : State), zciReady 0x0602 1 (fun _ => [(0, 2)]) c p s₀ = true ∧ (let s := seen 0x0602 c s₀; let i := arg p 0 2; let checks : List (Bool × Nat) := [(!owns s c.session.val 0x0B i, stBusy), ((s.dmap i).reading, stState)]; (firstFailing checks).isSome = true)) ∧
  (∃ (c : Cmd) (p : Block) (s₀ : State), zciReady 0x0602 1 (fun _ => [(0, 2)]) c p s₀ = true ∧ (let s := seen 0x0602 c s₀; let i := arg p 0 2; let checks : List (Bool × Nat) := [(!owns s c.session.val 0x0B i, stBusy), ((s.dmap i).reading, stState)]; firstFailing checks = none)) ∧
  -- DENS_READ (R171)
  (∃ (c : Cmd) (p : Block) (s₀ : State), zciReady 0x0603 2 (fun _ => [(0, 2), (2, 1), (16, 16), (64, 64)]) c p s₀ = true ∧ (let s := seen 0x0603 c s₀; let i := arg p 0 2; let h := arg p 16 16; let off := arg p 64 64; let m := s.dmap i; let checks : List (Bool × Nat) := [(!owns s c.session.val 0x0B i || !regOwned s c.session.val h, stBusy), (off % 64 != 0, stInvalid), (m.reading, stState), (regPast s h off densCopySize, stRange)]; (firstFailing checks).isSome = true)) ∧
  (∃ (c : Cmd) (p : Block) (s₀ : State), zciReady 0x0603 2 (fun _ => [(0, 2), (2, 1), (16, 16), (64, 64)]) c p s₀ = true ∧ (let s := seen 0x0603 c s₀; let i := arg p 0 2; let h := arg p 16 16; let off := arg p 64 64; let m := s.dmap i; let checks : List (Bool × Nat) := [(!owns s c.session.val 0x0B i || !regOwned s c.session.val h, stBusy), (off % 64 != 0, stInvalid), (m.reading, stState), (regPast s h off densCopySize, stRange)]; firstFailing checks = none)) ∧
  -- DENS_SET_PIGMENT (R174)
  (∃ (c : Cmd) (p : Block) (s₀ : State), zciReady 0x0604 4 (fun _ => [(0, 2), (2, 2), (4, 1), (32, 32), (64, 32), (128, 64)]) c p s₀ = true ∧ (let s := seen 0x0604 c s₀; let i := arg p 0 2; let checks : List (Bool × Nat) := [(!owns s c.session.val 0x0C i, stBusy), (arg p 2 2 == 3, stInvalid), (decide (arg p 64 32 ≤ arg p 32 32), stInvalid), (argBit p 4 && arg p 128 64 % 4 != 0, stInvalid)]; (firstFailing checks).isSome = true)) := by
  refine ⟨⟨cmd 4, 0, ready, ?_⟩, ⟨cmd 4, block [(2, 1, 1), (3, 1, 1), (16, 6, 63), (32, 24, 1), (56, 24, 13), (80, 16, 16), (96, 12, 1526), (112, 17, 4), (144, 16, 8)], lean_, ?_⟩, ⟨cmd 4, block [(3, 1, 1), (96, 12, 20), (0, 2, 1), (8, 4, 4), (32, 24, 11629914), (56, 24, 5), (80, 16, 1024), (144, 16, 1561)], owned, ?_⟩, ⟨cmd 4, 0, owned, ?_⟩, ⟨cmd 4, block [(2, 1, 1), (3, 1, 1), (16, 6, 63), (32, 24, 1), (56, 24, 13), (80, 16, 16), (96, 12, 1526), (112, 17, 4), (144, 16, 8)], rich, ?_⟩, ⟨cmd 4, block [(0, 2, 1), (2, 1, 1), (56, 24, 1), (96, 12, 1), (112, 17, 1024)], { rich with disp := { maps := [(1, { on := true, bins := 1, dec := 1024 })] } }, ?_⟩, ⟨cmd 4, block [(0, 2, 1), (2, 1, 1), (56, 24, 1), (96, 12, 1), (112, 17, 1024)], { rich with fe := {}, disp := { maps := [(1, { on := true, bins := 1, dec := 1024 })] } }, ?_⟩, ⟨cmd 1, 0, ready, ?_⟩, ⟨cmd 1, 0, owned, ?_⟩, ⟨cmd 2, 0, ready, ?_⟩, ⟨cmd 2, 0, owned, ?_⟩, ⟨cmd 4, 0, ready, ?_⟩⟩ <;> decide +kernel

/-- Operands and states that meet the hypotheses of each clause of DensityAndDisplayCommands. Part 2. -/
theorem witness_DensityAndDisplayCommands_part2 :
  -- DENS_SET_PIGMENT (R174)
  (∃ (c : Cmd) (p : Block) (s₀ : State), zciReady 0x0604 4 (fun _ => [(0, 2), (2, 2), (4, 1), (32, 32), (64, 32), (128, 64)]) c p s₀ = true ∧ (let s := seen 0x0604 c s₀; let i := arg p 0 2; let checks : List (Bool × Nat) := [(!owns s c.session.val 0x0C i, stBusy), (arg p 2 2 == 3, stInvalid), (decide (arg p 64 32 ≤ arg p 32 32), stInvalid), (argBit p 4 && arg p 128 64 % 4 != 0, stInvalid)]; firstFailing checks = none)) ∧
  -- DENS_GET_STATUS (R203)
  (∃ (c : Cmd) (p : Block) (s₀ : State), zciReady 0x060B 1 (fun _ => [(0, 2), (8, 1)]) c p s₀ = true) ∧
  -- DISP_SET_MODE (R179)
  (∃ (c : Cmd) (p : Block) (s₀ : State), zciReady 0x0605 2 (fun _ => [(0, 1), (8, 4), (16, 1), (20, 2), (32, 10)]) c p s₀ = true ∧ (let s := seen 0x0605 c s₀; let n := c.session.val; let k := arg p 0 1; let m := arg p 8 4; let bpc := argBit p 16; let mr := arg p 20 2; let split := splitMode m; let ps := if split || (s.port 0).split then [0, 1] else [k]; let checks : List (Bool × Nat) := [(!(if split then owns s n 0x0D 0 && owns s n 0x0D 1 else owns s n 0x0D k), stBusy), (!modeKnown m, stInvalid), (split && k == 1, stInvalid), (k == 1 && (s.port 0).split, stState), (ps.any (fun q => (s.port q).phase != 0 || (s.port q).enterFallow != 0 || (s.port q).exitFallow != 0), stBusy), (decide (1000 < arg p 32 10), stRange), (m != 0xF && (rateFor m bpc mr).isNone, stRange)]; (firstFailing checks).isSome = true)) ∧
  (∃ (c : Cmd) (p : Block) (s₀ : State), zciReady 0x0605 2 (fun _ => [(0, 1), (8, 4), (16, 1), (20, 2), (32, 10)]) c p s₀ = true ∧ (let s := seen 0x0605 c s₀; let n := c.session.val; let k := arg p 0 1; let m := arg p 8 4; let bpc := argBit p 16; let mr := arg p 20 2; let split := splitMode m; let ps := if split || (s.port 0).split then [0, 1] else [k]; let checks : List (Bool × Nat) := [(!(if split then owns s n 0x0D 0 && owns s n 0x0D 1 else owns s n 0x0D k), stBusy), (!modeKnown m, stInvalid), (split && k == 1, stInvalid), (k == 1 && (s.port 0).split, stState), (ps.any (fun q => (s.port q).phase != 0 || (s.port q).enterFallow != 0 || (s.port q).exitFallow != 0), stBusy), (decide (1000 < arg p 32 10), stRange), (m != 0xF && (rateFor m bpc mr).isNone, stRange)]; firstFailing checks = none ∧ (m = 0xF) ∧ (ps.all (fun q => (s.port q).idle) = true))) ∧
  (∃ (c : Cmd) (p : Block) (s₀ : State), zciReady 0x0605 2 (fun _ => [(0, 1), (8, 4), (16, 1), (20, 2), (32, 10)]) c p s₀ = true ∧ (let s := seen 0x0605 c s₀; let n := c.session.val; let k := arg p 0 1; let m := arg p 8 4; let bpc := argBit p 16; let mr := arg p 20 2; let split := splitMode m; let ps := if split || (s.port 0).split then [0, 1] else [k]; let checks : List (Bool × Nat) := [(!(if split then owns s n 0x0D 0 && owns s n 0x0D 1 else owns s n 0x0D k), stBusy), (!modeKnown m, stInvalid), (split && k == 1, stInvalid), (k == 1 && (s.port 0).split, stState), (ps.any (fun q => (s.port q).phase != 0 || (s.port q).enterFallow != 0 || (s.port q).exitFallow != 0), stBusy), (decide (1000 < arg p 32 10), stRange), (m != 0xF && (rateFor m bpc mr).isNone, stRange)]; firstFailing checks = none ∧ (¬(m = 0xF ∧ ps.all (fun q => (s.port q).idle) = true)))) ∧
  -- DISP_SET_LAYER (R187)
  (∃ (c : Cmd) (p : Block) (s₀ : State), zciReady 0x0606 4 (fun b => layerFields (fld b 1 2)) c p s₀ = true ∧ (let s := seen 0x0606 c s₀; let n := c.session.val; let k := arg p 0 1; let j := arg p 1 2; let en := argBit p 3; let x := s.port k; let h := arg p 16 16; let old := x.lastSet j; let l : Layer := if en then { on := true, p := (blk p 4), region := if j = 0 then noHandle else h } else { old with on := false, region := noHandle }; let checks : List (Bool × Nat) := [(!owns s n 0x0D k || (en && j != 0 && !regOwned s n h), stBusy), (en && j == 0 && (arg p 48 16 == 0 || arg p 64 16 == 0), stInvalid), (en && (j == 1 || j == 2) && l.stride % 64 != 0, stInvalid), (en && j != 0 && l.offset % 64 != 0, stInvalid), (splitDp1 s k, stState), (x.mode == 0xF, stState), (en && j != 0 && freeDeferred s h, stState), (en && j == 0 && !viewOk l x.mode, stRange), (en && j != 0 && decide ((s.reg h).size < layerEnd j l x.mode), stRange)]; (firstFailing checks).isSome = true)) ∧
  (∃ (c : Cmd) (p : Block) (s₀ : State), zciReady 0x0606 4 (fun b => layerFields (fld b 1 2)) c p s₀ = true ∧ (let s := seen 0x0606 c s₀; let n := c.session.val; let k := arg p 0 1; let j := arg p 1 2; let en := argBit p 3; let x := s.port k; let h := arg p 16 16; let old := x.lastSet j; let l : Layer := if en then { on := true, p := (blk p 4), region := if j = 0 then noHandle else h } else { old with on := false, region := noHandle }; let checks : List (Bool × Nat) := [(!owns s n 0x0D k || (en && j != 0 && !regOwned s n h), stBusy), (en && j == 0 && (arg p 48 16 == 0 || arg p 64 16 == 0), stInvalid), (en && (j == 1 || j == 2) && l.stride % 64 != 0, stInvalid), (en && j != 0 && l.offset % 64 != 0, stInvalid), (splitDp1 s k, stState), (x.mode == 0xF, stState), (en && j != 0 && freeDeferred s h, stState), (en && j == 0 && !viewOk l x.mode, stRange), (en && j != 0 && decide ((s.reg h).size < layerEnd j l x.mode), stRange)]; firstFailing checks = none)) ∧
  -- DISP_SET_EVENTS (R199)
  (∃ (c : Cmd) (p : Block) (s₀ : State), zciReady 0x0607 1 (fun _ => [(0, 1), (4, 1), (5, 1), (6, 1), (16, 16)]) c p s₀ = true ∧ (let s := seen 0x0607 c s₀; let k := arg p 0 1; let x := s.port k; let checks : List (Bool × Nat) := [(!owns s c.session.val 0x0D k, stBusy), (splitDp1 s k, stState), (x.mode == 0xF, stState), (decide (vTotal x.mode ≤ arg p 16 16), stRange)]; (firstFailing checks).isSome = true)) ∧
  (∃ (c : Cmd) (p : Block) (s₀ : State), zciReady 0x0607 1 (fun _ => [(0, 1), (4, 1), (5, 1), (6, 1), (16, 16)]) c p s₀ = true ∧ (let s := seen 0x0607 c s₀; let k := arg p 0 1; let x := s.port k; let checks : List (Bool × Nat) := [(!owns s c.session.val 0x0D k, stBusy), (splitDp1 s k, stState), (x.mode == 0xF, stState), (decide (vTotal x.mode ≤ arg p 16 16), stRange)]; firstFailing checks = none)) ∧
  -- DISP_FALLOW (R200)
  (∃ (c : Cmd) (p : Block) (s₀ : State), zciReady 0x0608 1 (fun _ => [(0, 1), (1, 1)]) c p s₀ = true ∧ (let s := seen 0x0608 c s₀; let k := arg p 0 1; let en := argBit p 1; let x := s.port k; let checks : List (Bool × Nat) := [(!owns s c.session.val 0x0D k, stBusy), (splitDp1 s k, stState), (en && x.mode == 0xF, stState), (x.phase != 0 || x.enterFallow != 0 || x.exitFallow != 0, stBusy), (en && !x.fallow && !x.psrCap, stUnsup)]; (firstFailing checks).isSome = true)) ∧
  (∃ (c : Cmd) (p : Block) (s₀ : State), zciReady 0x0608 1 (fun _ => [(0, 1), (1, 1)]) c p s₀ = true ∧ (let s := seen 0x0608 c s₀; let k := arg p 0 1; let en := argBit p 1; let x := s.port k; let checks : List (Bool × Nat) := [(!owns s c.session.val 0x0D k, stBusy), (splitDp1 s k, stState), (en && x.mode == 0xF, stState), (x.phase != 0 || x.enterFallow != 0 || x.exitFallow != 0, stBusy), (en && !x.fallow && !x.psrCap, stUnsup)]; firstFailing checks = none ∧ (en = x.fallow))) ∧
  (∃ (c : Cmd) (p : Block) (s₀ : State), zciReady 0x0608 1 (fun _ => [(0, 1), (1, 1)]) c p s₀ = true ∧ (let s := seen 0x0608 c s₀; let k := arg p 0 1; let en := argBit p 1; let x := s.port k; let checks : List (Bool × Nat) := [(!owns s c.session.val 0x0D k, stBusy), (splitDp1 s k, stState), (en && x.mode == 0xF, stState), (x.phase != 0 || x.enterFallow != 0 || x.exitFallow != 0, stBusy), (en && !x.fallow && !x.psrCap, stUnsup)]; firstFailing checks = none ∧ (en ≠ x.fallow) ∧ (en = true))) := by
  refine ⟨⟨cmd 4, block [(32, 32, 256), (64, 32, 1000000), (128, 64, 2048)], owned, ?_⟩, ⟨cmd 1, 0, ready, ?_⟩, ⟨cmd 2, 0, ready, ?_⟩, ⟨cmd 2, block [(0, 1, 1), (20, 2, 3), (8, 4, 15), (16, 1, 1), (32, 10, 12)], owned, ?_⟩, ⟨cmd 2, 0, owned, ?_⟩, ⟨cmd 4, 0, ready, ?_⟩, ⟨cmd 4, 0, rich, ?_⟩, ⟨cmd 1, 0, ready, ?_⟩, ⟨cmd 1, 0, rich, ?_⟩, ⟨cmd 1, 0, ready, ?_⟩, ⟨cmd 1, 0, owned, ?_⟩, ⟨cmd 1, block [(1, 1, 1)], rich, ?_⟩⟩ <;> decide +kernel

/-- Operands and states that meet the hypotheses of each clause of DensityAndDisplayCommands. Part 3. -/
theorem witness_DensityAndDisplayCommands_part3 :
  -- DISP_FALLOW (R200)
  (∃ (c : Cmd) (p : Block) (s₀ : State), zciReady 0x0608 1 (fun _ => [(0, 1), (1, 1)]) c p s₀ = true ∧ (let s := seen 0x0608 c s₀; let k := arg p 0 1; let en := argBit p 1; let x := s.port k; let checks : List (Bool × Nat) := [(!owns s c.session.val 0x0D k, stBusy), (splitDp1 s k, stState), (en && x.mode == 0xF, stState), (x.phase != 0 || x.enterFallow != 0 || x.exitFallow != 0, stBusy), (en && !x.fallow && !x.psrCap, stUnsup)]; firstFailing checks = none ∧ (en ≠ x.fallow) ∧ (en = false))) ∧
  -- DISP_AUX (R201)
  (∃ (c : Cmd) (p : Block) (s₀ : State), zciReady 0x0609 4 (fun b => [(0, 1), (1, 1), (2, 1), (8, 5), (128, 128)] ++ (if bit b 2 then [(16, 7), (24, 8)] else [(16, 20)])) c p s₀ = true ∧ (let s := seen 0x0609 c s₀; let k := arg p 0 1; let checks : List (Bool × Nat) := [(!owns s c.session.val 0x0D k, stBusy), (auxDenied (blk p 4), stDenied), ((s.port k).idle, stState), ((s.port k).auxBusy, stBusy), (decide (arg p 8 5 < 1 ∨ 16 < arg p 8 5), stRange)]; (firstFailing checks).isSome = true)) ∧
  (∃ (c : Cmd) (p : Block) (s₀ : State), zciReady 0x0609 4 (fun b => [(0, 1), (1, 1), (2, 1), (8, 5), (128, 128)] ++ (if bit b 2 then [(16, 7), (24, 8)] else [(16, 20)])) c p s₀ = true ∧ (let s := seen 0x0609 c s₀; let k := arg p 0 1; let checks : List (Bool × Nat) := [(!owns s c.session.val 0x0D k, stBusy), (auxDenied (blk p 4), stDenied), ((s.port k).idle, stState), ((s.port k).auxBusy, stBusy), (decide (arg p 8 5 < 1 ∨ 16 < arg p 8 5), stRange)]; firstFailing checks = none)) ∧
  -- DISP_GET_STATUS (R202)
  (∃ (c : Cmd) (p : Block) (s₀ : State), zciReady 0x060A 1 (fun _ => [(0, 1), (8, 1)]) c p s₀ = true) := by
  refine ⟨⟨cmd 1, 0, lean_, ?_⟩, ⟨cmd 4, 0, ready, ?_⟩, ⟨cmd 4, block [(2, 1, 1), (8, 5, 15), (128, 128, 340282366920938463463374607431768211455), (16, 7, 32)], rich, ?_⟩, ⟨cmd 1, 0, ready, ?_⟩⟩ <;> decide +kernel

/-- Operands and states that meet the hypotheses of each clause of MonitorCommands. Part 1. -/
theorem witness_MonitorCommands_part1 :
  -- MON_SET_CONTEXT (R227)
  (∃ (c : Cmd) (p : Block) (s₀ : State), zciReady 0x0701 4 (fun _ => ctxFields) c p s₀ = true ∧ (let s := seen 0x0701 c s₀; let cx := arg p 0 16; let y := ctxOf (blk p 4); let en := argBit p 16; let ph := ctxPhase s cx y; let checks : List (Bool × Nat) := [(!ownsCtx s c.session.val cx, stBusy), (en && (decide (12 ≤ y.lane) || y.bins == 0 || decide (4 < y.det) || y.reduce == 3 || (decide (3 ≤ y.det) && decide (4 < y.preset)) || !y.tausOk), stInvalid), (en && (oddOfPair s y.lane || !(s.lane y.lane).on), stState), (en && decide (4096 < y.bins ∨ 16 < y.log2k), stRange), (en && !binsIn s y.lane y.firstBin y.bins, stRange), (true && en && decide (roundSlots < ph.2), stNoRes)]; (firstFailing checks).isSome = true)) ∧
  (∃ (c : Cmd) (p : Block) (s₀ : State), zciReady 0x0701 4 (fun _ => ctxFields) c p s₀ = true ∧ (let s := seen 0x0701 c s₀; let cx := arg p 0 16; let y := ctxOf (blk p 4); let en := argBit p 16; let ph := ctxPhase s cx y; let checks : List (Bool × Nat) := [(!ownsCtx s c.session.val cx, stBusy), (en && (decide (12 ≤ y.lane) || y.bins == 0 || decide (4 < y.det) || y.reduce == 3 || (decide (3 ≤ y.det) && decide (4 < y.preset)) || !y.tausOk), stInvalid), (en && (oddOfPair s y.lane || !(s.lane y.lane).on), stState), (en && decide (4096 < y.bins ∨ 16 < y.log2k), stRange), (en && !binsIn s y.lane y.firstBin y.bins, stRange), (true && en && decide (roundSlots < ph.2), stNoRes)]; firstFailing checks = none ∧ ((argBit p 16 && !(s.ctx (arg p 0 16)).on) = true) ∧ (s.spec.vcore < 850))) ∧
  (∃ (c : Cmd) (p : Block) (s₀ : State), zciReady 0x0701 4 (fun _ => ctxFields) c p s₀ = true ∧ (let s := seen 0x0701 c s₀; let cx := arg p 0 16; let y := ctxOf (blk p 4); let en := argBit p 16; let ph := ctxPhase s cx y; let checks : List (Bool × Nat) := [(!ownsCtx s c.session.val cx, stBusy), (en && (decide (12 ≤ y.lane) || y.bins == 0 || decide (4 < y.det) || y.reduce == 3 || (decide (3 ≤ y.det) && decide (4 < y.preset)) || !y.tausOk), stInvalid), (en && (oddOfPair s y.lane || !(s.lane y.lane).on), stState), (en && decide (4096 < y.bins ∨ 16 < y.log2k), stRange), (en && !binsIn s y.lane y.firstBin y.bins, stRange), (true && en && decide (roundSlots < ph.2), stNoRes)]; firstFailing checks = none ∧ (((argBit p 16 && !(s.ctx (arg p 0 16)).on) && decide (s.spec.vcore < 850)) = false) ∧ (en = false))) ∧
  (∃ (c : Cmd) (p : Block) (s₀ : State), zciReady 0x0701 4 (fun _ => ctxFields) c p s₀ = true ∧ (let s := seen 0x0701 c s₀; let cx := arg p 0 16; let y := ctxOf (blk p 4); let en := argBit p 16; let ph := ctxPhase s cx y; let checks : List (Bool × Nat) := [(!ownsCtx s c.session.val cx, stBusy), (en && (decide (12 ≤ y.lane) || y.bins == 0 || decide (4 < y.det) || y.reduce == 3 || (decide (3 ≤ y.det) && decide (4 < y.preset)) || !y.tausOk), stInvalid), (en && (oddOfPair s y.lane || !(s.lane y.lane).on), stState), (en && decide (4096 < y.bins ∨ 16 < y.log2k), stRange), (en && !binsIn s y.lane y.firstBin y.bins, stRange), (true && en && decide (roundSlots < ph.2), stNoRes)]; firstFailing checks = none ∧ (((argBit p 16 && !(s.ctx (arg p 0 16)).on) && decide (s.spec.vcore < 850)) = false) ∧ (en = true))) ∧
  -- MON_LOAD (R228)
  (∃ (c : Cmd) (p : Block) (s₀ : State), zciReady 0x0702 2 (fun _ => [(0, 17), (64, 64)]) c p s₀ = true ∧ (let checks : List (Bool × Nat) := [(arg p 64 64 % 32 != 0, stInvalid), (decide (arg p 0 17 < 1 ∨ 65536 < arg p 0 17), stRange)]; (firstFailing checks).isSome = true)) ∧
  (∃ (c : Cmd) (p : Block) (data : List Nat) (s₀ : State), zciReady 0x0702 2 (fun _ => [(0, 17), (64, 64)]) c p s₀ = true ∧ (let s := seen 0x0702 c s₀; let blocks := (List.range (arg p 0 17)).map (fun i => data.getD i 0); let checks : List (Bool × Nat) := [(arg p 64 64 % 32 != 0, stInvalid), (decide (arg p 0 17 < 1 ∨ 65536 < arg p 0 17), stRange)]; firstFailing checks = none ∧ ((match bodyMonLoad c.session.val blocks s with | .failWith _ _ _ _ => true | _ => false) = true))) ∧
  (∃ (c : Cmd) (p : Block) (data : List Nat) (s₀ : State), zciReady 0x0702 2 (fun _ => [(0, 17), (64, 64)]) c p s₀ = true ∧ (let s := seen 0x0702 c s₀; let blocks := (List.range (arg p 0 17)).map (fun i => data.getD i 0); let checks : List (Bool × Nat) := [(arg p 64 64 % 32 != 0, stInvalid), (decide (arg p 0 17 < 1 ∨ 65536 < arg p 0 17), stRange)]; firstFailing checks = none ∧ ((match bodyMonLoad c.session.val blocks s with | .ok _ _ _ => true | _ => false) = true) ∧ blocks.any (fun b => bit b 16) = true ∧ s.spec.vcore < 850)) ∧
  (∃ (c : Cmd) (p : Block) (data : List Nat) (s₀ : State), zciReady 0x0702 2 (fun _ => [(0, 17), (64, 64)]) c p s₀ = true ∧ (let s := seen 0x0702 c s₀; let blocks := (List.range (arg p 0 17)).map (fun i => data.getD i 0); let checks : List (Bool × Nat) := [(arg p 64 64 % 32 != 0, stInvalid), (decide (arg p 0 17 < 1 ∨ 65536 < arg p 0 17), stRange)]; firstFailing checks = none ∧ ((match bodyMonLoad c.session.val blocks s with | .ok _ _ _ => true | _ => false) = true) ∧ ¬(blocks.any (fun b => bit b 16) = true ∧ s.spec.vcore < 850))) ∧
  -- MON_CLEAR (R229)
  (∃ (c : Cmd) (p : Block) (s₀ : State), zciReady 0x0703 1 (fun _ => [(0, 16), (16, 16)]) c p s₀ = true ∧ (let s := seen 0x0703 c s₀; let a := arg p 0 16; let z := arg p 16 16; let checks : List (Bool × Nat) := [(!ownsRange s c.session.val a z, stBusy), (decide (z < a), stInvalid)]; (firstFailing checks).isSome = true)) ∧
  (∃ (c : Cmd) (p : Block) (s₀ : State), zciReady 0x0703 1 (fun _ => [(0, 16), (16, 16)]) c p s₀ = true ∧ (let s := seen 0x0703 c s₀; let a := arg p 0 16; let z := arg p 16 16; let checks : List (Bool × Nat) := [(!ownsRange s c.session.val a z, stBusy), (decide (z < a), stInvalid)]; firstFailing checks = none)) ∧
  -- MON_SNAPSHOT (R223)
  (∃ (c : Cmd) (p : Block) (s₀ : State), zciReady 0x0704 2 (fun _ => [(0, 16), (16, 16), (32, 16), (64, 64)]) c p s₀ = true ∧ (let s := seen 0x0704 c s₀; let a := arg p 0 16; let z := arg p 16 16; let h := arg p 32 16; let off := arg p 64 64; let checks : List (Bool × Nat) := [(!ownsRange s c.session.val a z || !regOwned s c.session.val h, stBusy), (decide (z < a) || off % 64 != 0, stInvalid), (s.mon.snap, stBusy), (regPast s h off (64 * (z - a + 2)), stRange)]; (firstFailing checks).isSome = true)) ∧
  (∃ (c : Cmd) (p : Block) (s₀ : State), zciReady 0x0704 2 (fun _ => [(0, 16), (16, 16), (32, 16), (64, 64)]) c p s₀ = true ∧ (let s := seen 0x0704 c s₀; let a := arg p 0 16; let z := arg p 16 16; let h := arg p 32 16; let off := arg p 64 64; let checks : List (Bool × Nat) := [(!ownsRange s c.session.val a z || !regOwned s c.session.val h, stBusy), (decide (z < a) || off % 64 != 0, stInvalid), (s.mon.snap, stBusy), (regPast s h off (64 * (z - a + 2)), stRange)]; firstFailing checks = none)) := by
  refine ⟨⟨cmd 4, 0, ready, ?_⟩, ⟨cmd 4, block [(16, 1, 1), (56, 13, 1), (80, 5, 0)], lean_, ?_⟩, ⟨cmd 4, 0, owned, ?_⟩, ⟨cmd 4, block [(16, 1, 1), (56, 13, 1), (80, 5, 0)], rich, ?_⟩, ⟨cmd 2, 0, ready, ?_⟩, ⟨cmd 2, block [(0, 17, 6), (64, 64, 1000000)], [], ready, ?_⟩, ⟨cmd 2, block [(0, 17, 1)], [72057594037993472], lean_, ?_⟩, ⟨cmd 2, block [(0, 17, 1), (64, 64, 2000000)], [], owned, ?_⟩, ⟨cmd 1, 0, ready, ?_⟩, ⟨cmd 1, 0, owned, ?_⟩, ⟨cmd 2, 0, ready, ?_⟩, ⟨cmd 2, 0, owned, ?_⟩⟩ <;> decide +kernel

/-- Operands and states that meet the hypotheses of each clause of MonitorCommands. Part 2. -/
theorem witness_MonitorCommands_part2 :
  -- MON_READ (R231)
  (∃ (c : Cmd) (p : Block) (s₀ : State), zciReady 0x0705 1 (fun _ => [(0, 16)]) c p s₀ = true) ∧
  -- MON_SET_LOG (R231)
  (∃ (c : Cmd) (p : Block) (s₀ : State), zciReady 0x0706 1 (fun _ => [(0, 16)]) c p s₀ = true ∧ (let s := seen 0x0706 c s₀; let n := c.session.val; let h := arg p 0 16; let checks : List (Bool × Nat) := if h = noHandle then [] else ringChecks s n h; (firstFailing checks).isSome = true)) ∧
  (∃ (c : Cmd) (p : Block) (s₀ : State), zciReady 0x0706 1 (fun _ => [(0, 16)]) c p s₀ = true ∧ (let s := seen 0x0706 c s₀; let n := c.session.val; let h := arg p 0 16; let checks : List (Bool × Nat) := if h = noHandle then [] else ringChecks s n h; firstFailing checks = none)) ∧
  -- MON_GET_STATUS (R232)
  (∃ (c : Cmd) (p : Block) (s₀ : State), zciReady 0x0707 1 (fun _ => [(8, 1)]) c p s₀ = true) := by
  refine ⟨⟨cmd 1, 0, ready, ?_⟩, ⟨cmd 1, 0, ready, ?_⟩, ⟨cmd 1, block [(0, 16, 65535)], ready, ?_⟩, ⟨cmd 1, 0, ready, ?_⟩⟩ <;> decide +kernel

/-- Operands and states that meet the hypotheses of each clause of TimeIntervalCommands. Part 1. -/
theorem witness_TimeIntervalCommands_part1 :
  -- TIU_SET_INPUT (R286)
  (∃ (c : Cmd) (p : Block) (s₀ : State), zciReady 0x0801 1 (fun _ => [(0, 4), (4, 1), (5, 1), (6, 2), (8, 2), (10, 1), (11, 1), (16, 16), (32, 6)]) c p s₀ = true ∧ (let s := seen 0x0801 c s₀; let n := arg p 0 4; let sess := c.session.val; let x := s.tiuIn n; let on := argBit p 4; let e := if n = 8 && s.clk.ppsMode ≠ 0 then x.edge else arg p 6 2; let ps := arg p 8 2; let th := sarg p 16 16; let cond := argBit p 11; let checks : List (Bool × Nat) := [(decide (n < 9) && !(if cond then mayCondition s sess n else ownsIn s sess n), stBusy), (decide (8 < n), stInvalid), (!cond && on && extUsed s n && !owns s sess 7 n, stBusy), (!cond && e == 3, stInvalid), (!cond && ps != 0 && (e == 2 || n == 8), stInvalid), (!cond && ps != 0 && extUsed s n, stState), (!cond && statUses s n && (e != x.edge || ps != x.prescale || on != x.on), stState), (decide (th < -1000 ∨ 2500 < th) || decide (50 < arg p 32 6), stRange)]; (firstFailing checks).isSome = true)) ∧
  (∃ (c : Cmd) (p : Block) (s₀ : State), zciReady 0x0801 1 (fun _ => [(0, 4), (4, 1), (5, 1), (6, 2), (8, 2), (10, 1), (11, 1), (16, 16), (32, 6)]) c p s₀ = true ∧ (let s := seen 0x0801 c s₀; let n := arg p 0 4; let sess := c.session.val; let x := s.tiuIn n; let on := argBit p 4; let e := if n = 8 && s.clk.ppsMode ≠ 0 then x.edge else arg p 6 2; let ps := arg p 8 2; let th := sarg p 16 16; let cond := argBit p 11; let checks : List (Bool × Nat) := [(decide (n < 9) && !(if cond then mayCondition s sess n else ownsIn s sess n), stBusy), (decide (8 < n), stInvalid), (!cond && on && extUsed s n && !owns s sess 7 n, stBusy), (!cond && e == 3, stInvalid), (!cond && ps != 0 && (e == 2 || n == 8), stInvalid), (!cond && ps != 0 && extUsed s n, stState), (!cond && statUses s n && (e != x.edge || ps != x.prescale || on != x.on), stState), (decide (th < -1000 ∨ 2500 < th) || decide (50 < arg p 32 6), stRange)]; firstFailing checks = none)) ∧
  -- TIU_SET_STATS (R287)
  (∃ (c : Cmd) (p : Block) (s₀ : State), zciReady 0x0802 1 (fun _ => [(0, 2), (2, 1), (3, 1), (4, 1), (8, 4), (12, 4), (16, 33)]) c p s₀ = true ∧ (let s := seen 0x0802 c s₀; let u := arg p 0 2; let en := argBit p 2; let iv := argBit p 3; let a := arg p 8 4; let z := arg p 12 4; let n := arg p 16 33; let sess := c.session.val; let x := s.tiuSt u; let checks : List (Bool × Nat) := [(!owns s sess 0x0A u || (en && ((decide (a < 9) && !ownsIn s sess a) || (iv && decide (z < 9) && !ownsIn s sess z))), stBusy), (!en && x.run && (!ownsIn s sess x.start || (x.interval && !ownsIn s sess x.stop)), stBusy), (en && decide (8 < a), stInvalid), (en && (if iv then decide (8 < z) || z == a else z != 0), stInvalid), (n == 0, stInvalid), (en && !iv && tiuEdge s a == 2, stInvalid), (en && (x.run || !(s.tiuIn a).on || (iv && !(s.tiuIn z).on)), stState), (en && decide (2^32 < n), stRange)]; (firstFailing checks).isSome = true)) ∧
  (∃ (c : Cmd) (p : Block) (s₀ : State), zciReady 0x0802 1 (fun _ => [(0, 2), (2, 1), (3, 1), (4, 1), (8, 4), (12, 4), (16, 33)]) c p s₀ = true ∧ (let s := seen 0x0802 c s₀; let u := arg p 0 2; let en := argBit p 2; let iv := argBit p 3; let a := arg p 8 4; let z := arg p 12 4; let n := arg p 16 33; let sess := c.session.val; let x := s.tiuSt u; let checks : List (Bool × Nat) := [(!owns s sess 0x0A u || (en && ((decide (a < 9) && !ownsIn s sess a) || (iv && decide (z < 9) && !ownsIn s sess z))), stBusy), (!en && x.run && (!ownsIn s sess x.start || (x.interval && !ownsIn s sess x.stop)), stBusy), (en && decide (8 < a), stInvalid), (en && (if iv then decide (8 < z) || z == a else z != 0), stInvalid), (n == 0, stInvalid), (en && !iv && tiuEdge s a == 2, stInvalid), (en && (x.run || !(s.tiuIn a).on || (iv && !(s.tiuIn z).on)), stState), (en && decide (2^32 < n), stRange)]; firstFailing checks = none)) ∧
  -- TIU_GET_STATS (R288)
  (∃ (c : Cmd) (p : Block) (s₀ : State), zciReady 0x0803 1 (fun _ => [(0, 2), (8, 1)]) c p s₀ = true ∧ (let s := seen 0x0803 c s₀; let u := arg p 0 2; let checks : List (Bool × Nat) := [(argBit p 8 && !owns s c.session.val 0x0A u, stBusy)]; (firstFailing checks).isSome = true)) ∧
  (∃ (c : Cmd) (p : Block) (s₀ : State), zciReady 0x0803 1 (fun _ => [(0, 2), (8, 1)]) c p s₀ = true ∧ (let s := seen 0x0803 c s₀; let u := arg p 0 2; let checks : List (Bool × Nat) := [(argBit p 8 && !owns s c.session.val 0x0A u, stBusy)]; firstFailing checks = none)) ∧
  -- TIU_READ (R289)
  (∃ (c : Cmd) (p : Block) (s₀ : State), zciReady 0x0804 2 (fun _ => [(0, 4), (16, 16), (32, 13), (64, 64)]) c p s₀ = true ∧ (let s := seen 0x0804 c s₀; let n := arg p 0 4; let h := arg p 16 16; let m := arg p 32 13; let off := arg p 64 64; let x := s.tiuIn n; let checks : List (Bool × Nat) := [((decide (n < 9) && !ownsIn s c.session.val n) || !regOwned s c.session.val h, stBusy), (decide (8 < n), stInvalid), (m == 0, stInvalid), (off % 16 != 0, stInvalid), (x.drain != noHandle, stState), (decide (4096 < m) || regPast s h off (16 * m), stRange)]; (firstFailing checks).isSome = true)) ∧
  (∃ (c : Cmd) (p : Block) (s₀ : State), zciReady 0x0804 2 (fun _ => [(0, 4), (16, 16), (32, 13), (64, 64)]) c p s₀ = true ∧ (let s := seen 0x0804 c s₀; let n := arg p 0 4; let h := arg p 16 16; let m := arg p 32 13; let off := arg p 64 64; let x := s.tiuIn n; let checks : List (Bool × Nat) := [((decide (n < 9) && !ownsIn s c.session.val n) || !regOwned s c.session.val h, stBusy), (decide (8 < n), stInvalid), (m == 0, stInvalid), (off % 16 != 0, stInvalid), (x.drain != noHandle, stState), (decide (4096 < m) || regPast s h off (16 * m), stRange)]; firstFailing checks = none)) ∧
  -- TIU_SET_DRAIN (R290)
  (∃ (c : Cmd) (p : Block) (s₀ : State), zciReady 0x0805 1 (fun _ => [(0, 4), (16, 16)]) c p s₀ = true ∧ (let s := seen 0x0805 c s₀; let n := arg p 0 4; let h := arg p 16 16; let checks : List (Bool × Nat) := [((decide (n < 9) && !ownsIn s c.session.val n) || (h != noHandle && !regOwned s c.session.val h), stBusy), (decide (8 < n), stInvalid), (h != noHandle && !isRecRing s h, stInvalid)]; (firstFailing checks).isSome = true)) ∧
  (∃ (c : Cmd) (p : Block) (s₀ : State), zciReady 0x0805 1 (fun _ => [(0, 4), (16, 16)]) c p s₀ = true ∧ (let s := seen 0x0805 c s₀; let n := arg p 0 4; let h := arg p 16 16; let checks : List (Bool × Nat) := [((decide (n < 9) && !ownsIn s c.session.val n) || (h != noHandle && !regOwned s c.session.val h), stBusy), (decide (8 < n), stInvalid), (h != noHandle && !isRecRing s h, stInvalid)]; firstFailing checks = none)) ∧
  -- TIU_CAL (R291)
  (∃ (c : Cmd) (p : Block) (s₀ : State), zciReady 0x0806 1 (fun _ => [(0, 9)]) c p s₀ = true ∧ (let s := seen 0x0806 c s₀; let ns := maskBits 9 (blk p 1); let checks : List (Bool × Nat) := [(s.flt.signBad, stFaulted), (ns.any (fun n => !ownsIn s c.session.val n), stBusy), (ns.isEmpty, stInvalid), (ns.any (fun n => statUses s n || (n < 8 && extUsed s n) || (n == 8 && s.clk.ppsMode != 0)), stState), (ns.any (fun n => (s.tiuIn n).testing), stBusy), (s.cal.count == 0xFFFFFFFF, stDenied)]; (firstFailing checks).isSome = true)) ∧
  (∃ (c : Cmd) (p : Block) (s₀ : State), zciReady 0x0806 1 (fun _ => [(0, 9)]) c p s₀ = true ∧ (let s := seen 0x0806 c s₀; let ns := maskBits 9 (blk p 1); let checks : List (Bool × Nat) := [(s.flt.signBad, stFaulted), (ns.any (fun n => !ownsIn s c.session.val n), stBusy), (ns.isEmpty, stInvalid), (ns.any (fun n => statUses s n || (n < 8 && extUsed s n) || (n == 8 && s.clk.ppsMode != 0)), stState), (ns.any (fun n => (s.tiuIn n).testing), stBusy), (s.cal.count == 0xFFFFFFFF, stDenied)]; firstFailing checks = none)) := by
  refine ⟨⟨cmd 1, 0, ready, ?_⟩, ⟨cmd 1, 0, owned, ?_⟩, ⟨cmd 1, 0, ready, ?_⟩, ⟨cmd 1, block [(16, 33, 1)], owned, ?_⟩, ⟨cmd 1, block [(8, 1, 1)], ready, ?_⟩, ⟨cmd 1, 0, ready, ?_⟩, ⟨cmd 2, 0, ready, ?_⟩, ⟨cmd 2, block [(32, 13, 2384), (0, 4, 3)], owned, ?_⟩, ⟨cmd 1, 0, ready, ?_⟩, ⟨cmd 1, block [(16, 16, 65535), (0, 4, 2)], owned, ?_⟩, ⟨cmd 1, 0, ready, ?_⟩, ⟨cmd 1, block [(0, 9, 485)], owned, ?_⟩⟩ <;> decide +kernel

/-- Operands and states that meet the hypotheses of each clause of TimeIntervalCommands. Part 2. -/
theorem witness_TimeIntervalCommands_part2 :
  -- TIU_GET_STATUS (R292)
  (∃ (c : Cmd) (p : Block) (s₀ : State), zciReady 0x0807 1 (fun _ => [(0, 4), (8, 1)]) c p s₀ = true ∧ (let s := seen 0x0807 c s₀; let n := arg p 0 4; let checks : List (Bool × Nat) := [(argBit p 8 && decide (n < 9) && !ownsIn s c.session.val n, stBusy), (decide (8 < n), stInvalid)]; (firstFailing checks).isSome = true)) ∧
  (∃ (c : Cmd) (p : Block) (s₀ : State), zciReady 0x0807 1 (fun _ => [(0, 4), (8, 1)]) c p s₀ = true ∧ (let s := seen 0x0807 c s₀; let n := arg p 0 4; let checks : List (Bool × Nat) := [(argBit p 8 && decide (n < 9) && !ownsIn s c.session.val n, stBusy), (decide (8 < n), stInvalid)]; firstFailing checks = none)) := by
  refine ⟨⟨cmd 1, block [(8, 1, 1)], ready, ?_⟩, ⟨cmd 1, 0, ready, ?_⟩⟩ <;> decide +kernel

/-- Operands and states that meet the hypotheses of each clause of GroveCommands. Part 1. -/
theorem witness_GroveCommands_part1 :
  -- GROVE_LOAD (R348)
  (∃ (c : Cmd) (p : Block) (s₀ : State), zciReady 0x0901 4 (fun _ => [(0, 6), (32, 32), (64, 32), (128, 64)]) c p s₀ = true ∧ (let s := seen 0x0901 c s₀; let n := arg p 0 6; let dest := arg p 32 32; let len := arg p 64 32; let checks : List (Bool × Nat) := [(!ownsCore s c.session.val n, stBusy), (dest % 4 != 0 || arg p 128 64 % 4 != 0, stInvalid), (coreRuns s n, stState), (decide (len < 4 ∨ 262144 < len ∨ len % 4 ≠ 0 ∨ 262144 < dest + len), stRange)]; (firstFailing checks).isSome = true)) ∧
  (∃ (c : Cmd) (p : Block) (s₀ : State), zciReady 0x0901 4 (fun _ => [(0, 6), (32, 32), (64, 32), (128, 64)]) c p s₀ = true ∧ (let s := seen 0x0901 c s₀; let n := arg p 0 6; let dest := arg p 32 32; let len := arg p 64 32; let checks : List (Bool × Nat) := [(!ownsCore s c.session.val n, stBusy), (dest % 4 != 0 || arg p 128 64 % 4 != 0, stInvalid), (coreRuns s n, stState), (decide (len < 4 ∨ 262144 < len ∨ len % 4 ≠ 0 ∨ 262144 < dest + len), stRange)]; firstFailing checks = none)) ∧
  -- GROVE_START (R349)
  (∃ (c : Cmd) (p : Block) (s₀ : State), zciReady 0x0902 6 (fun _ => [(0, 64), (64, 18), (128, 64), (192, 32), (224, 32), (256, 32), (288, 32)]) c p s₀ = true ∧ (let s := seen 0x0902 c s₀; let m := maskBits 64 (arg p 0 64); let pc := arg p 64 18; let at_ := arg p 128 64; let checks : List (Bool × Nat) := [(m.isEmpty, stInvalid), (m.any (fun n => !ownsCore s c.session.val n), stBusy), (m.any (fun n => coreRuns s n), stState), (pc % 4 != 0, stInvalid), (tickBad s at_, stRange)]; (firstFailing checks).isSome = true)) ∧
  (∃ (c : Cmd) (p : Block) (s₀ : State), zciReady 0x0902 6 (fun _ => [(0, 64), (64, 18), (128, 64), (192, 32), (224, 32), (256, 32), (288, 32)]) c p s₀ = true ∧ (let s := seen 0x0902 c s₀; let m := maskBits 64 (arg p 0 64); let pc := arg p 64 18; let at_ := arg p 128 64; let checks : List (Bool × Nat) := [(m.isEmpty, stInvalid), (m.any (fun n => !ownsCore s c.session.val n), stBusy), (m.any (fun n => coreRuns s n), stState), (pc % 4 != 0, stInvalid), (tickBad s at_, stRange)]; firstFailing checks = none ∧ (at_ = 0))) ∧
  (∃ (c : Cmd) (p : Block) (s₀ : State), zciReady 0x0902 6 (fun _ => [(0, 64), (64, 18), (128, 64), (192, 32), (224, 32), (256, 32), (288, 32)]) c p s₀ = true ∧ (let s := seen 0x0902 c s₀; let m := maskBits 64 (arg p 0 64); let pc := arg p 64 18; let at_ := arg p 128 64; let checks : List (Bool × Nat) := [(m.isEmpty, stInvalid), (m.any (fun n => !ownsCore s c.session.val n), stBusy), (m.any (fun n => coreRuns s n), stState), (pc % 4 != 0, stInvalid), (tickBad s at_, stRange)]; firstFailing checks = none ∧ (at_ ≠ 0))) ∧
  -- GROVE_STOP (R350)
  (∃ (c : Cmd) (p : Block) (s₀ : State), zciReady 0x0903 2 (fun _ => [(0, 64)]) c p s₀ = true ∧ (let s := seen 0x0903 c s₀; let m := maskBits 64 (arg p 0 64); let checks : List (Bool × Nat) := [(m.any (fun n => !ownsCore s c.session.val n), stBusy), (m.isEmpty, stInvalid)]; (firstFailing checks).isSome = true)) ∧
  (∃ (c : Cmd) (p : Block) (s₀ : State), zciReady 0x0903 2 (fun _ => [(0, 64)]) c p s₀ = true ∧ (let s := seen 0x0903 c s₀; let m := maskBits 64 (arg p 0 64); let checks : List (Bool × Nat) := [(m.any (fun n => !ownsCore s c.session.val n), stBusy), (m.isEmpty, stInvalid)]; firstFailing checks = none)) ∧
  -- GROVE_SET_SHADOW (R351)
  (∃ (c : Cmd) (p : Block) (s₀ : State), zciReady 0x0904 5 (fun b => [(0, 6), (8, 1), (16, 3)] ++ (List.range (min 4 (fld b 16 3))).flatMap (fun e => [(64 * e + 64, 6), (64 * e + 96, 32)])) c p s₀ = true ∧ (let s := seen 0x0904 c s₀; let n := arg p 0 6; let k := arg p 16 3; let ents := (List.range (min 4 k)).map (fun e => (fld (blk p 5) (64 * e + 64) 6, fld (blk p 5) (64 * e + 96) 32)); let checks : List (Bool × Nat) := [(!ownsCore s c.session.val n, stBusy), (k == 0 && !argBit p 8, stInvalid), (ents.any (fun e => !specOk e.1), stInvalid), (!coreRuns s n, stState), (decide (4 < k), stRange)]; (firstFailing checks).isSome = true)) ∧
  (∃ (c : Cmd) (p : Block) (s₀ : State), zciReady 0x0904 5 (fun b => [(0, 6), (8, 1), (16, 3)] ++ (List.range (min 4 (fld b 16 3))).flatMap (fun e => [(64 * e + 64, 6), (64 * e + 96, 32)])) c p s₀ = true ∧ (let s := seen 0x0904 c s₀; let n := arg p 0 6; let k := arg p 16 3; let ents := (List.range (min 4 k)).map (fun e => (fld (blk p 5) (64 * e + 64) 6, fld (blk p 5) (64 * e + 96) 32)); let checks : List (Bool × Nat) := [(!ownsCore s c.session.val n, stBusy), (k == 0 && !argBit p 8, stInvalid), (ents.any (fun e => !specOk e.1), stInvalid), (!coreRuns s n, stState), (decide (4 < k), stRange)]; firstFailing checks = none)) ∧
  -- GROVE_SET_FEED (R352)
  (∃ (c : Cmd) (p : Block) (s₀ : State), zciReady 0x0905 6 (fun b => feedFields (fld b 6 2)) c p s₀ = true ∧ (let s := seen 0x0905 c s₀; let i := arg p 0 5; let n := arg p 8 6; let k := arg p 6 2; let f : Feed := { on := true, p := (blk p 6), kind := k, core := n, session := c.session.val }; let checks : List (Bool × Nat) := [(!owns s c.session.val 0x10 i || !ownsCore s c.session.val n || (argBit p 5 && k ≥ 2 && !regOwned s c.session.val f.handle), stBusy)]; (argBit p 5 = false) ∧ (firstFailing checks).isSome = true)) ∧
  (∃ (c : Cmd) (p : Block) (s₀ : State), zciReady 0x0905 6 (fun b => feedFields (fld b 6 2)) c p s₀ = true ∧ (let s := seen 0x0905 c s₀; let i := arg p 0 5; let n := arg p 8 6; let k := arg p 6 2; let f : Feed := { on := true, p := (blk p 6), kind := k, core := n, session := c.session.val }; let checks : List (Bool × Nat) := [(!owns s c.session.val 0x10 i || !ownsCore s c.session.val n || (argBit p 5 && k ≥ 2 && !regOwned s c.session.val f.handle), stBusy)]; (argBit p 5 = false) ∧ firstFailing checks = none ∧ ((s.feed i).on = true ∧ (s.feed i).kind = 3 ∧ (s.feed i).handed ≠ 0))) ∧
  (∃ (c : Cmd) (p : Block) (s₀ : State), zciReady 0x0905 6 (fun b => feedFields (fld b 6 2)) c p s₀ = true ∧ (let s := seen 0x0905 c s₀; let i := arg p 0 5; let n := arg p 8 6; let k := arg p 6 2; let f : Feed := { on := true, p := (blk p 6), kind := k, core := n, session := c.session.val }; let checks : List (Bool × Nat) := [(!owns s c.session.val 0x10 i || !ownsCore s c.session.val n || (argBit p 5 && k ≥ 2 && !regOwned s c.session.val f.handle), stBusy)]; (argBit p 5 = false) ∧ firstFailing checks = none ∧ (¬((s.feed i).on = true ∧ (s.feed i).kind = 3 ∧ (s.feed i).handed ≠ 0)))) := by
  refine ⟨⟨cmd 4, 0, ready, ?_⟩, ⟨cmd 4, block [(0, 6, 1), (32, 32, 65536), (64, 32, 4), (128, 64, 2048)], owned, ?_⟩, ⟨cmd 6, 0, ready, ?_⟩, ⟨cmd 6, block [(0, 64, 2), (64, 18, 32), (192, 32, 1003200), (256, 32, 1023), (288, 32, 3766639779)], owned, ?_⟩, ⟨cmd 6, block [(0, 64, 18446744073709551615), (128, 64, 1010000), (192, 32, 4294967295), (288, 32, 4294967295)], owned, ?_⟩, ⟨cmd 2, 0, ready, ?_⟩, ⟨cmd 2, block [(0, 64, 14702447995365)], owned, ?_⟩, ⟨cmd 5, 0, ready, ?_⟩, ⟨cmd 5, block [(8, 1, 1)], rich, ?_⟩, ⟨cmd 6, 0, ready, ?_⟩, ⟨cmd 6, 0, { owned with grove := { feeds := [(0, { on := true, kind := 3, coreCnt := 1 })] } }, ?_⟩, ⟨cmd 6, 0, owned, ?_⟩⟩ <;> decide +kernel

/-- Operands and states that meet the hypotheses of each clause of GroveCommands. Part 2. -/
theorem witness_GroveCommands_part2 :
  -- GROVE_SET_FEED (R352)
  (∃ (c : Cmd) (p : Block) (s₀ : State), zciReady 0x0905 6 (fun b => feedFields (fld b 6 2)) c p s₀ = true ∧ (let s := seen 0x0905 c s₀; let i := arg p 0 5; let n := arg p 8 6; let k := arg p 6 2; let f : Feed := { on := true, p := (blk p 6), kind := k, core := n, session := c.session.val }; let src := f.source; let checks : List (Bool × Nat) := [(!owns s c.session.val 0x10 i || !ownsCore s c.session.val n || (argBit p 5 && k ≥ 2 && !regOwned s c.session.val f.handle), stBusy), ((k == 0 && decide (src < 16 ∨ 31 < src)) || (k == 1 && decide (11 < src)), stInvalid), (f.base % 64 != 0, stInvalid), (f.nbuf == 0 || (k == 0 && f.gpb == 0), stInvalid), (k != 0 && f.blk % 64 != 0, stInvalid), (k == 0 && f.hbase % 32 != 0, stInvalid), (k == 3 && !isRecRing s f.handle, stInvalid), (k == 2 && arg p 256 64 % 64 != 0, stInvalid), ((s.feed i).on, stState), (k == 0 && !strRuns s src, stState), (k == 1 && (!(s.lane src).on || oddOfPair s src), stState), (decide (1024 < f.nbuf) || (k != 0 && decide (f.blk < 64 ∨ 0x400000 < f.blk)), stRange), (!coreRange s n f.base (f.nbuf * f.blk) || (k == 0 && !coreRange s n f.hbase (32 * f.nbuf)), stRange), (k == 1 && (decide (arg p 184 24 < 1 ∨ 1048576 < arg p 184 24 ∨ f.decim < 1 ∨ 65536 < f.decim) || !binsIn s src (sarg p 160 24) (arg p 184 24) || decide (f.blk < recordLen (arg p 184 24) f.f32)), stRange), (k == 2 && (arg p 320 32 == 0 || regPast s f.handle (arg p 256 64) (arg p 320 32 * f.blk)), stRange), (k == 3 && decide ((s.reg f.handle).size < f.blk), stRange), (decide (feedLimit < feedRate s f) || (k == 0 && decide (zoomLimit < strRate s src)) || (k ≤ 1 && decide (feedsLimit < feedLoads s + feedRate s f)), stNoRes)]; (argBit p 5 = true) ∧ (firstFailing checks).isSome = true)) ∧
  (∃ (c : Cmd) (p : Block) (s₀ : State), zciReady 0x0905 6 (fun b => feedFields (fld b 6 2)) c p s₀ = true ∧ (let s := seen 0x0905 c s₀; let i := arg p 0 5; let n := arg p 8 6; let k := arg p 6 2; let f : Feed := { on := true, p := (blk p 6), kind := k, core := n, session := c.session.val }; let src := f.source; let checks : List (Bool × Nat) := [(!owns s c.session.val 0x10 i || !ownsCore s c.session.val n || (argBit p 5 && k ≥ 2 && !regOwned s c.session.val f.handle), stBusy), ((k == 0 && decide (src < 16 ∨ 31 < src)) || (k == 1 && decide (11 < src)), stInvalid), (f.base % 64 != 0, stInvalid), (f.nbuf == 0 || (k == 0 && f.gpb == 0), stInvalid), (k != 0 && f.blk % 64 != 0, stInvalid), (k == 0 && f.hbase % 32 != 0, stInvalid), (k == 3 && !isRecRing s f.handle, stInvalid), (k == 2 && arg p 256 64 % 64 != 0, stInvalid), ((s.feed i).on, stState), (k == 0 && !strRuns s src, stState), (k == 1 && (!(s.lane src).on || oddOfPair s src), stState), (decide (1024 < f.nbuf) || (k != 0 && decide (f.blk < 64 ∨ 0x400000 < f.blk)), stRange), (!coreRange s n f.base (f.nbuf * f.blk) || (k == 0 && !coreRange s n f.hbase (32 * f.nbuf)), stRange), (k == 1 && (decide (arg p 184 24 < 1 ∨ 1048576 < arg p 184 24 ∨ f.decim < 1 ∨ 65536 < f.decim) || !binsIn s src (sarg p 160 24) (arg p 184 24) || decide (f.blk < recordLen (arg p 184 24) f.f32)), stRange), (k == 2 && (arg p 320 32 == 0 || regPast s f.handle (arg p 256 64) (arg p 320 32 * f.blk)), stRange), (k == 3 && decide ((s.reg f.handle).size < f.blk), stRange), (decide (feedLimit < feedRate s f) || (k == 0 && decide (zoomLimit < strRate s src)) || (k ≤ 1 && decide (feedsLimit < feedLoads s + feedRate s f)), stNoRes)]; (argBit p 5 = true) ∧ firstFailing checks = none)) ∧
  -- GROVE_SET_BARRIER (R353)
  (∃ (c : Cmd) (p : Block) (s₀ : State), zciReady 0x0906 2 (fun _ => [(0, 3), (8, 1), (64, 64)]) c p s₀ = true ∧ (let s := seen 0x0906 c s₀; let k := arg p 0 3; let m := arg p 64 64; let checks : List (Bool × Nat) := [(!owns s c.session.val 0x11 k || (maskBits 64 m).any (fun n => !ownsCore s c.session.val n), stBusy), (argBit p 8 && m == 0, stInvalid), ((s.bar k).arrived != 0, stState)]; (firstFailing checks).isSome = true)) ∧
  (∃ (c : Cmd) (p : Block) (s₀ : State), zciReady 0x0906 2 (fun _ => [(0, 3), (8, 1), (64, 64)]) c p s₀ = true ∧ (let s := seen 0x0906 c s₀; let k := arg p 0 3; let m := arg p 64 64; let checks : List (Bool × Nat) := [(!owns s c.session.val 0x11 k || (maskBits 64 m).any (fun n => !ownsCore s c.session.val n), stBusy), (argBit p 8 && m == 0, stInvalid), ((s.bar k).arrived != 0, stState)]; firstFailing checks = none)) ∧
  -- GROVE_READ (R354)
  (∃ (c : Cmd) (p : Block) (s₀ : State), zciReady 0x0907 4 (fun _ => [(0, 6), (32, 32), (64, 32), (96, 16), (128, 64)]) c p s₀ = true ∧ (let s := seen 0x0907 c s₀; let n := arg p 0 6; let src := arg p 32 32; let len := arg p 64 32; let h := arg p 96 16; let off := arg p 128 64; let checks : List (Bool × Nat) := [(!ownsCore s c.session.val n || !regOwned s c.session.val h, stBusy), (src % 4 != 0 || len % 4 != 0 || off % 64 != 0, stInvalid), (decide (len < 4 ∨ 262144 < len ∨ 262144 < src + len) || regPast s h off len, stRange)]; (firstFailing checks).isSome = true)) ∧
  (∃ (c : Cmd) (p : Block) (s₀ : State), zciReady 0x0907 4 (fun _ => [(0, 6), (32, 32), (64, 32), (96, 16), (128, 64)]) c p s₀ = true ∧ (let s := seen 0x0907 c s₀; let n := arg p 0 6; let src := arg p 32 32; let len := arg p 64 32; let h := arg p 96 16; let off := arg p 128 64; let checks : List (Bool × Nat) := [(!ownsCore s c.session.val n || !regOwned s c.session.val h, stBusy), (src % 4 != 0 || len % 4 != 0 || off % 64 != 0, stInvalid), (decide (len < 4 ∨ 262144 < len ∨ 262144 < src + len) || regPast s h off len, stRange)]; firstFailing checks = none)) ∧
  -- GROVE_GET_STATUS (R355)
  (∃ (c : Cmd) (p : Block) (s₀ : State), zciReady 0x0908 1 (fun _ => [(0, 6), (8, 1)]) c p s₀ = true ∧ (let s := seen 0x0908 c s₀; let n := arg p 0 6; let checks : List (Bool × Nat) := [(argBit p 8 && !ownsCore s c.session.val n, stBusy)]; (firstFailing checks).isSome = true)) ∧
  (∃ (c : Cmd) (p : Block) (s₀ : State), zciReady 0x0908 1 (fun _ => [(0, 6), (8, 1)]) c p s₀ = true ∧ (let s := seen 0x0908 c s₀; let n := arg p 0 6; let checks : List (Bool × Nat) := [(argBit p 8 && !ownsCore s c.session.val n, stBusy)]; firstFailing checks = none)) ∧
  -- GROVE_GET_FEED (R356)
  (∃ (c : Cmd) (p : Block) (s₀ : State), zciReady 0x0909 1 (fun _ => [(0, 5), (8, 1)]) c p s₀ = true ∧ (let s := seen 0x0909 c s₀; let i := arg p 0 5; let checks : List (Bool × Nat) := [(argBit p 8 && !owns s c.session.val 0x10 i, stBusy)]; (firstFailing checks).isSome = true)) ∧
  (∃ (c : Cmd) (p : Block) (s₀ : State), zciReady 0x0909 1 (fun _ => [(0, 5), (8, 1)]) c p s₀ = true ∧ (let s := seen 0x0909 c s₀; let i := arg p 0 5; let checks : List (Bool × Nat) := [(argBit p 8 && !owns s c.session.val 0x10 i, stBusy)]; firstFailing checks = none)) := by
  refine ⟨⟨cmd 6, block [(24, 8, 200), (128, 32, 4294967295), (0, 5, 26), (5, 1, 1), (14, 2, 3), (32, 32, 2000000), (18, 1, 1), (80, 8, 60)], ready, ?_⟩, ⟨cmd 6, block [(5, 1, 1), (6, 2, 3), (64, 16, 1), (96, 24, 64), (240, 16, 1)], owned, ?_⟩, ⟨cmd 2, 0, ready, ?_⟩, ⟨cmd 2, 0, owned, ?_⟩, ⟨cmd 4, 0, ready, ?_⟩, ⟨cmd 4, block [(32, 32, 4096), (64, 32, 100000), (128, 64, 256)], owned, ?_⟩, ⟨cmd 1, block [(8, 1, 1)], ready, ?_⟩, ⟨cmd 1, 0, ready, ?_⟩, ⟨cmd 1, block [(8, 1, 1)], ready, ?_⟩, ⟨cmd 1, 0, ready, ?_⟩⟩ <;> decide +kernel

/-- Operands and states that meet the hypotheses of each clause of MemoryCommands. Part 1. -/
theorem witness_MemoryCommands_part1 :
  -- MEM_ALLOC (R375)
  (∃ (c : Cmd) (p : Block) (s₀ : State), zciReady 0x0A01 2 (fun _ => [(0, 64)]) c p s₀ = true ∧ (let s := seen 0x0A01 c s₀; let n := arg p 0 64; let checks : List (Bool × Nat) := [(n % 65536 != 0, stInvalid), (n == 0 || decide (devSize < n), stRange), (s.mem.channelBad || (freeHandle s).isNone || (placeIn (freeRanges s) n).isNone, stNoRes)]; (firstFailing checks).isSome = true)) ∧
  (∃ (c : Cmd) (p : Block) (s₀ : State), zciReady 0x0A01 2 (fun _ => [(0, 64)]) c p s₀ = true ∧ (let s := seen 0x0A01 c s₀; let n := arg p 0 64; let checks : List (Bool × Nat) := [(n % 65536 != 0, stInvalid), (n == 0 || decide (devSize < n), stRange), (s.mem.channelBad || (freeHandle s).isNone || (placeIn (freeRanges s) n).isNone, stNoRes)]; firstFailing checks = none ∧ ((placeIn (freeZeroed s) n).isSome = true))) ∧
  (∃ (c : Cmd) (p : Block) (s₀ : State), zciReady 0x0A01 2 (fun _ => [(0, 64)]) c p s₀ = true ∧ (let s := seen 0x0A01 c s₀; let n := arg p 0 64; let checks : List (Bool × Nat) := [(n % 65536 != 0, stInvalid), (n == 0 || decide (devSize < n), stRange), (s.mem.channelBad || (freeHandle s).isNone || (placeIn (freeRanges s) n).isNone, stNoRes)]; firstFailing checks = none ∧ (placeIn (freeZeroed s) n = none))) ∧
  -- MEM_FREE (R376)
  (∃ (c : Cmd) (p : Block) (s₀ : State), zciReady 0x0A02 1 (fun _ => [(0, 16)]) c p s₀ = true ∧ (let s := seen 0x0A02 c s₀; let h := arg p 0 16; let checks : List (Bool × Nat) := [(!regOwned s c.session.val h, stBusy), (regUsed s h || (s.reg h).deferred, stState)]; (firstFailing checks).isSome = true)) ∧
  (∃ (c : Cmd) (p : Block) (s₀ : State), zciReady 0x0A02 1 (fun _ => [(0, 16)]) c p s₀ = true ∧ (let s := seen 0x0A02 c s₀; let h := arg p 0 16; let checks : List (Bool × Nat) := [(!regOwned s c.session.val h, stBusy), (regUsed s h || (s.reg h).deferred, stState)]; firstFailing checks = none ∧ (dispRefs s h = true))) ∧
  (∃ (c : Cmd) (p : Block) (s₀ : State), zciReady 0x0A02 1 (fun _ => [(0, 16)]) c p s₀ = true ∧ (let s := seen 0x0A02 c s₀; let h := arg p 0 16; let checks : List (Bool × Nat) := [(!regOwned s c.session.val h, stBusy), (regUsed s h || (s.reg h).deferred, stState)]; firstFailing checks = none ∧ (dispRefs s h = false))) ∧
  -- MEM_SET_RING (R377)
  (∃ (c : Cmd) (p : Block) (s₀ : State), zciReady 0x0A03 1 (fun _ => [(0, 16), (16, 2), (24, 8)]) c p s₀ = true ∧ (let s := seen 0x0A03 c s₀; let h := arg p 0 16; let checks : List (Bool × Nat) := [(!regOwned s c.session.val h, stBusy), (arg p 16 2 == 3, stInvalid), (regUsed s h || (s.reg h).deferred, stState)]; (firstFailing checks).isSome = true)) ∧
  (∃ (c : Cmd) (p : Block) (s₀ : State), zciReady 0x0A03 1 (fun _ => [(0, 16), (16, 2), (24, 8)]) c p s₀ = true ∧ (let s := seen 0x0A03 c s₀; let h := arg p 0 16; let checks : List (Bool × Nat) := [(!regOwned s c.session.val h, stBusy), (arg p 16 2 == 3, stInvalid), (regUsed s h || (s.reg h).deferred, stState)]; firstFailing checks = none)) ∧
  -- MEM_RING_ACK (R380)
  (∃ (c : Cmd) (p : Block) (s₀ : State), zciReady 0x0A04 2 (fun _ => [(0, 16), (64, 64)]) c p s₀ = true ∧ (let s := seen 0x0A04 c s₀; let h := arg p 0 16; let r := s.reg h; let v := arg p 64 64; let checks : List (Bool × Nat) := ringChecks s c.session.val h ++ [(r.bound != 0, stState), (decide (v < r.rpos ∨ r.wpos < v), stRange)]; (firstFailing checks).isSome = true)) ∧
  (∃ (c : Cmd) (p : Block) (s₀ : State), zciReady 0x0A04 2 (fun _ => [(0, 16), (64, 64)]) c p s₀ = true ∧ (let s := seen 0x0A04 c s₀; let h := arg p 0 16; let r := s.reg h; let v := arg p 64 64; let checks : List (Bool × Nat) := ringChecks s c.session.val h ++ [(r.bound != 0, stState), (decide (v < r.rpos ∨ r.wpos < v), stRange)]; firstFailing checks = none)) ∧
  -- MEM_RING_STATUS (R390)
  (∃ (c : Cmd) (p : Block) (s₀ : State), zciReady 0x0A05 1 (fun _ => [(0, 16), (16, 1)]) c p s₀ = true ∧ (let s := seen 0x0A05 c s₀; let h := arg p 0 16; let checks : List (Bool × Nat) := [(!regOwned s c.session.val h, stBusy)]; (firstFailing checks).isSome = true)) ∧
  (∃ (c : Cmd) (p : Block) (s₀ : State), zciReady 0x0A05 1 (fun _ => [(0, 16), (16, 1)]) c p s₀ = true ∧ (let s := seen 0x0A05 c s₀; let h := arg p 0 16; let checks : List (Bool × Nat) := [(!regOwned s c.session.val h, stBusy)]; firstFailing checks = none)) := by
  refine ⟨⟨cmd 2, 0, ready, ?_⟩, ⟨cmd 2, block [(0, 64, 65536)], rich, ?_⟩, ⟨cmd 2, block [(0, 64, 65536)], ready, ?_⟩, ⟨cmd 1, 0, ready, ?_⟩, ⟨cmd 1, 0, rich, ?_⟩, ⟨cmd 1, 0, owned, ?_⟩, ⟨cmd 1, 0, ready, ?_⟩, ⟨cmd 1, 0, owned, ?_⟩, ⟨cmd 2, 0, ready, ?_⟩, ⟨cmd 2, block [(0, 16, 1)], owned, ?_⟩, ⟨cmd 1, 0, ready, ?_⟩, ⟨cmd 1, 0, owned, ?_⟩⟩ <;> decide +kernel

/-- Operands and states that meet the hypotheses of each clause of MemoryCommands. Part 2. -/
theorem witness_MemoryCommands_part2 :
  -- MEM_COMMONS (R391)
  (∃ (c : Cmd) (p : Block) (s₀ : State), zciReady 0x0A06 1 (fun _ => [(0, 1), (16, 13), (32, 13)]) c p s₀ = true ∧ (let s := seen 0x0A06 c s₀; let n := arg p 16 13; let checks : List (Bool × Nat) := [(n == 0, stInvalid), (decide (4096 < n), stRange), ((commonsPlace s n).isNone, stNoRes)]; (argBit p 0 = true) ∧ (firstFailing checks).isSome = true)) ∧
  (∃ (c : Cmd) (p : Block) (s₀ : State), zciReady 0x0A06 1 (fun _ => [(0, 1), (16, 13), (32, 13)]) c p s₀ = true ∧ (let s := seen 0x0A06 c s₀; let n := arg p 16 13; let checks : List (Bool × Nat) := [(n == 0, stInvalid), (decide (4096 < n), stRange), ((commonsPlace s n).isNone, stNoRes)]; (argBit p 0 = true) ∧ firstFailing checks = none)) ∧
  (∃ (c : Cmd) (p : Block) (s₀ : State), zciReady 0x0A06 1 (fun _ => [(0, 1), (16, 13), (32, 13)]) c p s₀ = true ∧ (let s := seen 0x0A06 c s₀; let n := arg p 16 13; let f := arg p 32 13; let run := (f, n, c.session.val); let checks : List (Bool × Nat) := [(n == 0 || !s.mem.commons.contains run, stInvalid), (runFed s f n, stState)]; (argBit p 0 = false) ∧ (firstFailing checks).isSome = true)) ∧
  (∃ (c : Cmd) (p : Block) (s₀ : State), zciReady 0x0A06 1 (fun _ => [(0, 1), (16, 13), (32, 13)]) c p s₀ = true ∧ (let s := seen 0x0A06 c s₀; let n := arg p 16 13; let f := arg p 32 13; let run := (f, n, c.session.val); let checks : List (Bool × Nat) := [(n == 0 || !s.mem.commons.contains run, stInvalid), (runFed s f n, stState)]; (argBit p 0 = false) ∧ firstFailing checks = none)) ∧
  -- MEM_RETIRE (R392)
  (∃ (c : Cmd) (p : Block) (s₀ : State), zciReady 0x0A07 1 (fun _ => [(0, 6)]) c p s₀ = true ∧ (let s := seen 0x0A07 c s₀; let r := arg p 0 6; let q := r / 16; let checks : List (Bool × Nat) := [((List.range 4).any (fun k => !owns s c.session.val 1 k), stBusy), ((s.quad q).retired == r % 16, stState), (!spareFree s q, stNoRes)]; (firstFailing checks).isSome = true)) ∧
  (∃ (c : Cmd) (p : Block) (s₀ : State), zciReady 0x0A07 1 (fun _ => [(0, 6)]) c p s₀ = true ∧ (let s := seen 0x0A07 c s₀; let r := arg p 0 6; let q := r / 16; let checks : List (Bool × Nat) := [((List.range 4).any (fun k => !owns s c.session.val 1 k), stBusy), ((s.quad q).retired == r % 16, stState), (!spareFree s q, stNoRes)]; firstFailing checks = none)) ∧
  -- MEM_GET_STATUS (R393)
  (∃ (c : Cmd) (p : Block) (s₀ : State), zciReady 0x0A08 1 (fun _ => [(8, 1)]) c p s₀ = true) ∧
  -- MEM_GET_POISON (R394)
  (∃ (c : Cmd) (p : Block) (s₀ : State), zciReady 0x0A09 2 (fun _ => [(0, 16), (64, 64)]) c p s₀ = true ∧ (let s := seen 0x0A09 c s₀; let h := arg p 0 16; let off := arg p 64 64; let l := s.mem.poison; let checks : List (Bool × Nat) := [(!regOwned s c.session.val h, stBusy), (off % 64 != 0, stInvalid), (regPast s h off (64 + 8 * l.length), stRange)]; (firstFailing checks).isSome = true)) ∧
  (∃ (c : Cmd) (p : Block) (s₀ : State), zciReady 0x0A09 2 (fun _ => [(0, 16), (64, 64)]) c p s₀ = true ∧ (let s := seen 0x0A09 c s₀; let h := arg p 0 16; let off := arg p 64 64; let l := s.mem.poison; let checks : List (Bool × Nat) := [(!regOwned s c.session.val h, stBusy), (off % 64 != 0, stInvalid), (regPast s h off (64 + 8 * l.length), stRange)]; firstFailing checks = none)) := by
  refine ⟨⟨cmd 1, block [(0, 1, 1), (16, 13, 5410), (32, 13, 4)], ready, ?_⟩, ⟨cmd 1, block [(32, 13, 9), (0, 1, 1), (16, 13, 3)], ready, ?_⟩, ⟨cmd 1, 0, ready, ?_⟩, ⟨cmd 1, block [(16, 13, 1)], coreAt {}, ?_⟩, ⟨cmd 1, 0, ready, ?_⟩, ⟨cmd 1, 0, owned, ?_⟩, ⟨cmd 1, 0, ready, ?_⟩, ⟨cmd 2, 0, ready, ?_⟩, ⟨cmd 2, 0, owned, ?_⟩⟩ <;> decide +kernel

/-- Operands and states that meet the hypotheses of each clause of DmaCommands. Part 1. -/
theorem witness_DmaCommands_part1 :
  -- DMA_SET_CHANNEL (R437)
  (∃ (c : Cmd) (p : Block) (s₀ : State), zciReady 0x0B01 2 (fun _ => [(0, 5), (5, 1), (6, 1), (16, 16), (64, 32)]) c p s₀ = true ∧ (let s := seen 0x0B01 c s₀; let n := arg p 0 5; let on := argBit p 5; let m := arg p 6 1; let h := arg p 16 16; let first := arg p 64 32; let s := handFirst s n; let x := s.dma n; let used := on && (m == 0 || h != noHandle); let checks : List (Bool × Nat) := [(!ownsDma s c.session.val n || (used && !regOwned s c.session.val h), stBusy), (used && m == 1 && !isRecRing s h, stInvalid), ((x.on && (on || x.mode == 2)) || (!x.on && x.wbPend.isSome), stState), (on && m == 0 && decide ((s.reg h).size < 64 * (first + 1)), stState)]; (firstFailing checks).isSome = true)) ∧
  (∃ (c : Cmd) (p : Block) (s₀ : State), zciReady 0x0B01 2 (fun _ => [(0, 5), (5, 1), (6, 1), (16, 16), (64, 32)]) c p s₀ = true ∧ (let s := seen 0x0B01 c s₀; let n := arg p 0 5; let on := argBit p 5; let m := arg p 6 1; let h := arg p 16 16; let first := arg p 64 32; let s := handFirst s n; let x := s.dma n; let used := on && (m == 0 || h != noHandle); let checks : List (Bool × Nat) := [(!ownsDma s c.session.val n || (used && !regOwned s c.session.val h), stBusy), (used && m == 1 && !isRecRing s h, stInvalid), ((x.on && (on || x.mode == 2)) || (!x.on && x.wbPend.isSome), stState), (on && m == 0 && decide ((s.reg h).size < 64 * (first + 1)), stState)]; firstFailing checks = none ∧ (on = false) ∧ (((dmaDisable s n).dma n).wbPend.isSome = false))) ∧
  (∃ (c : Cmd) (p : Block) (s₀ : State), zciReady 0x0B01 2 (fun _ => [(0, 5), (5, 1), (6, 1), (16, 16), (64, 32)]) c p s₀ = true ∧ (let s := seen 0x0B01 c s₀; let n := arg p 0 5; let on := argBit p 5; let m := arg p 6 1; let h := arg p 16 16; let first := arg p 64 32; let s := handFirst s n; let x := s.dma n; let used := on && (m == 0 || h != noHandle); let checks : List (Bool × Nat) := [(!ownsDma s c.session.val n || (used && !regOwned s c.session.val h), stBusy), (used && m == 1 && !isRecRing s h, stInvalid), ((x.on && (on || x.mode == 2)) || (!x.on && x.wbPend.isSome), stState), (on && m == 0 && decide ((s.reg h).size < 64 * (first + 1)), stState)]; firstFailing checks = none ∧ (on = false) ∧ (((dmaDisable s n).dma n).wbPend.isSome = true))) ∧
  (∃ (c : Cmd) (p : Block) (s₀ : State), zciReady 0x0B01 2 (fun _ => [(0, 5), (5, 1), (6, 1), (16, 16), (64, 32)]) c p s₀ = true ∧ (let s := seen 0x0B01 c s₀; let n := arg p 0 5; let on := argBit p 5; let m := arg p 6 1; let h := arg p 16 16; let first := arg p 64 32; let s := handFirst s n; let x := s.dma n; let used := on && (m == 0 || h != noHandle); let checks : List (Bool × Nat) := [(!ownsDma s c.session.val n || (used && !regOwned s c.session.val h), stBusy), (used && m == 1 && !isRecRing s h, stInvalid), ((x.on && (on || x.mode == 2)) || (!x.on && x.wbPend.isSome), stState), (on && m == 0 && decide ((s.reg h).size < 64 * (first + 1)), stState)]; firstFailing checks = none ∧ (on = true))) ∧
  -- DMA_SET_SHADOW (R438)
  (∃ (c : Cmd) (p : Block) (s₀ : State), zciReady 0x0B02 10 (fun _ => [(0, 5), (128, 368)]) c p s₀ = true ∧ (let s := seen 0x0B02 c s₀; let n := arg p 0 5; let s := handFirst s n; let x := s.dma n; let checks : List (Bool × Nat) := [(!ownsDma s c.session.val n, stBusy), (!x.on || x.mode != 1, stState), (x.shadow.isSome, stState)]; (firstFailing checks).isSome = true)) ∧
  (∃ (c : Cmd) (p : Block) (s₀ : State), zciReady 0x0B02 10 (fun _ => [(0, 5), (128, 368)]) c p s₀ = true ∧ (let s := seen 0x0B02 c s₀; let n := arg p 0 5; let s := handFirst s n; let x := s.dma n; let checks : List (Bool × Nat) := [(!ownsDma s c.session.val n, stBusy), (!x.on || x.mode != 1, stState), (x.shadow.isSome, stState)]; firstFailing checks = none)) ∧
  -- DMA_RAISE (R439)
  (∃ (c : Cmd) (p : Block) (s₀ : State), zciReady 0x0B03 1 (fun _ => [(0, 4), (8, 1)]) c p s₀ = true ∧ (let s := seen 0x0B03 c s₀; let checks : List (Bool × Nat) := [(!owns s c.session.val 0x14 (arg p 0 4), stBusy)]; (firstFailing checks).isSome = true)) ∧
  (∃ (c : Cmd) (p : Block) (s₀ : State), zciReady 0x0B03 1 (fun _ => [(0, 4), (8, 1)]) c p s₀ = true ∧ (let s := seen 0x0B03 c s₀; let checks : List (Bool × Nat) := [(!owns s c.session.val 0x14 (arg p 0 4), stBusy)]; firstFailing checks = none)) ∧
  -- DMA_SET_TIMER (R439)
  (∃ (c : Cmd) (p : Block) (s₀ : State), zciReady 0x0B04 2 (fun _ => [(0, 4), (4, 1), (32, 32), (64, 64)]) c p s₀ = true ∧ (let s := seen 0x0B04 c s₀; let l := arg p 0 4; let on := argBit p 4; let at_ := arg p 64 64; let checks : List (Bool × Nat) := [(!owns s c.session.val 0x13 l, stBusy), (on && decide (arg p 32 32 < 16), stRange), (on && tickBad s at_, stRange)]; (firstFailing checks).isSome = true)) ∧
  (∃ (c : Cmd) (p : Block) (s₀ : State), zciReady 0x0B04 2 (fun _ => [(0, 4), (4, 1), (32, 32), (64, 64)]) c p s₀ = true ∧ (let s := seen 0x0B04 c s₀; let l := arg p 0 4; let on := argBit p 4; let at_ := arg p 64 64; let checks : List (Bool × Nat) := [(!owns s c.session.val 0x13 l, stBusy), (on && decide (arg p 32 32 < 16), stRange), (on && tickBad s at_, stRange)]; firstFailing checks = none)) ∧
  -- DMA_GET_STATUS (R440)
  (∃ (c : Cmd) (p : Block) (s₀ : State), zciReady 0x0B05 1 (fun _ => [(0, 5), (8, 1)]) c p s₀ = true ∧ (let s := seen 0x0B05 c s₀; let n := arg p 0 5; let s := handFirst s n; let checks : List (Bool × Nat) := [(argBit p 8 && !ownsDma s c.session.val n, stBusy)]; (firstFailing checks).isSome = true)) ∧
  (∃ (c : Cmd) (p : Block) (s₀ : State), zciReady 0x0B05 1 (fun _ => [(0, 5), (8, 1)]) c p s₀ = true ∧ (let s := seen 0x0B05 c s₀; let n := arg p 0 5; let s := handFirst s n; let checks : List (Bool × Nat) := [(argBit p 8 && !ownsDma s c.session.val n, stBusy)]; firstFailing checks = none)) := by
  refine ⟨⟨cmd 2, 0, ready, ?_⟩, ⟨cmd 2, 0, owned, ?_⟩, ⟨cmd 2, 0, { owned with move := { chans := [(0, { on := true, mode := 1, region := 1, wbPend := some 0 })] }, mem := { owned.mem with panic := [(0, some 1)] } }, ?_⟩, ⟨cmd 2, block [(5, 1, 1), (0, 5, 1), (6, 1, 1), (16, 16, 65535), (64, 32, 15)], owned, ?_⟩, ⟨cmd 10, 0, ready, ?_⟩, ⟨cmd 10, 0, { owned with move := { chans := [(0, { on := true, mode := 1 })] } }, ?_⟩, ⟨cmd 1, 0, ready, ?_⟩, ⟨cmd 1, 0, owned, ?_⟩, ⟨cmd 2, 0, ready, ?_⟩, ⟨cmd 2, 0, owned, ?_⟩, ⟨cmd 1, block [(8, 1, 1)], ready, ?_⟩, ⟨cmd 1, 0, ready, ?_⟩⟩ <;> decide +kernel

/-- Operands and states that meet the hypotheses of each clause of DmaCommands. Part 2. -/
theorem witness_DmaCommands_part2 :
  -- STREAM_SET (R441)
  (∃ (c : Cmd) (p : Block) (s₀ : State), zciReady 0x0B06 4 (fun _ => [(0, 5), (5, 1), (6, 1), (7, 1), (8, 8), (16, 16), (32, 7), (48, 6), (64, 32), (96, 16), (112, 16), (128, 64), (192, 64)]) c p s₀ = true ∧ (let s := seen 0x0B06 c s₀; let n := arg p 0 5; let on := argBit p 5; let x := s.dma n; let checks : List (Bool × Nat) := [(!ownsDma s c.session.val n, stBusy), (x.on && x.mode != 2, stState)]; (on = false) ∧ (firstFailing checks).isSome = true)) ∧
  (∃ (c : Cmd) (p : Block) (s₀ : State), zciReady 0x0B06 4 (fun _ => [(0, 5), (5, 1), (6, 1), (7, 1), (8, 8), (16, 16), (32, 7), (48, 6), (64, 32), (96, 16), (112, 16), (128, 64), (192, 64)]) c p s₀ = true ∧ (let s := seen 0x0B06 c s₀; let n := arg p 0 5; let on := argBit p 5; let x := s.dma n; let checks : List (Bool × Nat) := [(!ownsDma s c.session.val n, stBusy), (x.on && x.mode != 2, stState)]; (on = false) ∧ firstFailing checks = none)) ∧
  (∃ (c : Cmd) (p : Block) (s₀ : State), zciReady 0x0B06 4 (fun _ => [(0, 5), (5, 1), (6, 1), (7, 1), (8, 8), (16, 16), (32, 7), (48, 6), (64, 32), (96, 16), (112, 16), (128, 64), (192, 64)]) c p s₀ = true ∧ (let s := seen 0x0B06 c s₀; let n := arg p 0 5; let on := argBit p 5; let gr := argBit p 6; let id := arg p 8 8; let h := arg p 16 16; let k := arg p 32 7; let hs := arg p 64 32; let rate := arg p 96 16; let x := s.dma n; let new : Dma := { x with on := true, mode := 2, session := c.session.val, p := (blk p 4), hwpos := 0, hrpos := 0, updCnt := 0, dones := 0, sigAt := 0, grains := [], first := if gr then bindGrain s id else 0, perNo := 0, perN := 0, doneAt := s.now }; let s0 := (s.setDma n new).modReg h (fun r => { r with bound := n + 1 }); let s1 := if gr then bindNow s0 (0x30 + n) id else s0; let checks : List (Bool × Nat) := [(!ownsDma s c.session.val n || !regOwned s c.session.val h, stBusy), ((gr && !streamId id) || !isRecRing s h || (gr && k % 2 != 0) || hs % 4096 != 0 || (!gr && rate == 0) || arg p 128 64 % 4096 != 0 || arg p 192 64 % 64 != 0, stInvalid), (x.on || (gr && !strRuns s id) || (s.reg h).bound != 0, stState), ((gr && decide (k < 2 ∨ 64 < k ∨ (s.reg h).size < grainRecLen k (if id < 16 then 392 else 1032))) || decide (hs < 65536 ∨ 0x40000000 < hs) || (!gr && decide (29500 < rate)) || decide (hs < (s.reg h).size), stRange), (decide (streamCap s < streamLoads s1) || (gr && (decide (rawLimit < rawLoad s1) || decide (ddcLimit < ddcLoad s1))), stNoRes)]; (on = true) ∧ (firstFailing checks).isSome = true)) ∧
  (∃ (c : Cmd) (p : Block) (s₀ : State), zciReady 0x0B06 4 (fun _ => [(0, 5), (5, 1), (6, 1), (7, 1), (8, 8), (16, 16), (32, 7), (48, 6), (64, 32), (96, 16), (112, 16), (128, 64), (192, 64)]) c p s₀ = true ∧ (let s := seen 0x0B06 c s₀; let n := arg p 0 5; let on := argBit p 5; let gr := argBit p 6; let id := arg p 8 8; let h := arg p 16 16; let k := arg p 32 7; let hs := arg p 64 32; let rate := arg p 96 16; let x := s.dma n; let new : Dma := { x with on := true, mode := 2, session := c.session.val, p := (blk p 4), hwpos := 0, hrpos := 0, updCnt := 0, dones := 0, sigAt := 0, grains := [], first := if gr then bindGrain s id else 0, perNo := 0, perN := 0, doneAt := s.now }; let s0 := (s.setDma n new).modReg h (fun r => { r with bound := n + 1 }); let s1 := if gr then bindNow s0 (0x30 + n) id else s0; let checks : List (Bool × Nat) := [(!ownsDma s c.session.val n || !regOwned s c.session.val h, stBusy), ((gr && !streamId id) || !isRecRing s h || (gr && k % 2 != 0) || hs % 4096 != 0 || (!gr && rate == 0) || arg p 128 64 % 4096 != 0 || arg p 192 64 % 64 != 0, stInvalid), (x.on || (gr && !strRuns s id) || (s.reg h).bound != 0, stState), ((gr && decide (k < 2 ∨ 64 < k ∨ (s.reg h).size < grainRecLen k (if id < 16 then 392 else 1032))) || decide (hs < 65536 ∨ 0x40000000 < hs) || (!gr && decide (29500 < rate)) || decide (hs < (s.reg h).size), stRange), (decide (streamCap s < streamLoads s1) || (gr && (decide (rawLimit < rawLoad s1) || decide (ddcLimit < ddcLoad s1))), stNoRes)]; (on = true) ∧ firstFailing checks = none)) := by
  refine ⟨⟨cmd 4, 0, ready, ?_⟩, ⟨cmd 4, 0, owned, ?_⟩, ⟨cmd 4, block [(5, 1, 1), (112, 16, 37371), (0, 5, 31), (7, 1, 1), (8, 8, 167), (16, 16, 30752), (32, 7, 12), (48, 6, 9), (64, 32, 2894597727), (96, 16, 3), (128, 64, 18446744073709551615), (192, 64, 13340866662968)], ready, ?_⟩, ⟨cmd 4, block [(5, 1, 1), (16, 16, 1), (64, 32, 1048576), (96, 16, 1)], { owned with host := { owned.host with linkRate := 6, linkWidth := 16 } }, ?_⟩⟩ <;> decide +kernel

/-- Operands and states that meet the hypotheses of each clause of StorageCommands. Part 1. -/
theorem witness_StorageCommands_part1 :
  -- STOR_SET_PORT (R416)
  (∃ (c : Cmd) (p : Block) (s₀ : State), zciReady 0x0B07 1 (fun _ => [(0, 2), (4, 3), (8, 1)]) c p s₀ = true ∧ (let s := seen 0x0B07 c s₀; let bf := arg p 0 2; let mr := arg p 4 3; let checks : List (Bool × Nat) := [(!ownsPort s c.session.val, stBusy), (bf == 3 || mr == 0 || mr == 7, stInvalid), (s.move.mounted, stState), (storBusy s, stBusy)]; (firstFailing checks).isSome = true)) ∧
  (∃ (c : Cmd) (p : Block) (s₀ : State), zciReady 0x0B07 1 (fun _ => [(0, 2), (4, 3), (8, 1)]) c p s₀ = true ∧ (let s := seen 0x0B07 c s₀; let bf := arg p 0 2; let mr := arg p 4 3; let on := argBit p 8; let checks : List (Bool × Nat) := [(!ownsPort s c.session.val, stBusy), (bf == 3 || mr == 0 || mr == 7, stInvalid), (s.move.mounted, stState), (storBusy s, stBusy)]; firstFailing checks = none ∧ (on = true))) ∧
  (∃ (c : Cmd) (p : Block) (s₀ : State), zciReady 0x0B07 1 (fun _ => [(0, 2), (4, 3), (8, 1)]) c p s₀ = true ∧ (let s := seen 0x0B07 c s₀; let bf := arg p 0 2; let mr := arg p 4 3; let on := argBit p 8; let checks : List (Bool × Nat) := [(!ownsPort s c.session.val, stBusy), (bf == 3 || mr == 0 || mr == 7, stInvalid), (s.move.mounted, stState), (storBusy s, stBusy)]; firstFailing checks = none ∧ (on = false))) ∧
  -- STOR_FORMAT (R429)
  (∃ (c : Cmd) (p : Block) (s₀ : State), zciReady 0x0B08 1 (fun _ => [(0, 32)]) c p s₀ = true ∧ (let s := seen 0x0B08 c s₀; let pr := arg p 0 32; let checks : List (Bool × Nat) := [(!ownsPort s c.session.val, stBusy), (!s.move.portOn || s.move.mounted || (drivesOk s).isEmpty, stState), (storBusy s, stBusy), (decide (pr < 4096 ∨ 262144 < pr), stRange), ((drivesOk s).any (fun n => !(s.link n).fits pr), stUnsup)]; (firstFailing checks).isSome = true)) ∧
  (∃ (c : Cmd) (p : Block) (s₀ : State), zciReady 0x0B08 1 (fun _ => [(0, 32)]) c p s₀ = true ∧ (let s := seen 0x0B08 c s₀; let pr := arg p 0 32; let checks : List (Bool × Nat) := [(!ownsPort s c.session.val, stBusy), (!s.move.portOn || s.move.mounted || (drivesOk s).isEmpty, stState), (storBusy s, stBusy), (decide (pr < 4096 ∨ 262144 < pr), stRange), ((drivesOk s).any (fun n => !(s.link n).fits pr), stUnsup)]; firstFailing checks = none)) ∧
  -- STOR_MOUNT (R430)
  (∃ (c : Cmd) (p : Block) (s₀ : State), zciReady 0x0B09 1 (fun _ => []) c p s₀ = true ∧ (let s := seen 0x0B09 c s₀; let checks : List (Bool × Nat) := [(!ownsPort s c.session.val, stBusy), (!s.move.portOn || s.move.mounted || (drivesOk s).isEmpty, stState), (storBusy s, stBusy)]; (firstFailing checks).isSome = true)) ∧
  (∃ (c : Cmd) (p : Block) (s₀ : State), zciReady 0x0B09 1 (fun _ => []) c p s₀ = true ∧ (let s := seen 0x0B09 c s₀; let checks : List (Bool × Nat) := [(!ownsPort s c.session.val, stBusy), (!s.move.portOn || s.move.mounted || (drivesOk s).isEmpty, stState), (storBusy s, stBusy)]; firstFailing checks = none)) ∧
  -- STOR_UNMOUNT (R443)
  (∃ (c : Cmd) (p : Block) (s₀ : State), zciReady 0x0B0A 1 (fun _ => []) c p s₀ = true ∧ (let s := seen 0x0B0A c s₀; let checks : List (Bool × Nat) := [(!ownsPort s c.session.val, stBusy), (!s.move.mounted || s.move.entry != 0xFFFF, stState), (storBusy s, stBusy)]; (firstFailing checks).isSome = true)) ∧
  (∃ (c : Cmd) (p : Block) (s₀ : State), zciReady 0x0B0A 1 (fun _ => []) c p s₀ = true ∧ (let s := seen 0x0B0A c s₀; let checks : List (Bool × Nat) := [(!ownsPort s c.session.val, stBusy), (!s.move.mounted || s.move.entry != 0xFFFF, stState), (storBusy s, stBusy)]; firstFailing checks = none)) ∧
  -- REC_OPEN (R433)
  (∃ (c : Cmd) (p : Block) (s₀ : State), zciReady 0x0B0B 18 (fun b => [(0, 5), (16, 16), (32, 32)] ++ (List.range (min 16 (fld b 0 5))).map (fun j => (128 + 64 * j, 48))) c p s₀ = true ∧ (let s := seen 0x0B0B c s₀; let k := arg p 0 5; let es := recEntries (blk p 18); let h := arg p 16 16; let cp := arg p 32 32; let rings := (es.filter (fun e => srcKind e == 2)).map srcRing; let grains := (es.filter (fun e => srcKind e == 1)).map srcStream; let s1 := recStart s c.session.val (blk p 18); let checks : List (Bool × Nat) := [(!ownsPort s c.session.val || !regOwned s c.session.val h || rings.any (fun r => !regOwned s c.session.val r), stBusy), (es.any (fun e => srcKind e != 1 && srcKind e != 2) || grains.any (fun i => !streamId i) || rings.any (fun r => !isRecRing s r), stInvalid), (s.flt.signBad, stFaulted), (!s.move.mounted || s.move.entry != 0xFFFF || grains.any (fun i => !strRuns s i) || rings.any (fun r => (s.reg r).bound != 0), stState), (storBusy s, stBusy), (decide (k < 1 ∨ 16 < k) || (s.reg h).size % stripeSize != 0 || decide ((s.reg h).size < 16 * s.move.drives * stripeSize) || decide (cp < 10 ∨ 60000 < cp) || (es.any (fun e => srcKind e == 2 && srcRate e == 0)) || decide (s.move.vstripes ≤ s.move.next), stRange), (decide (recLine s < recLoadOf s es) || (freeEntry s).isNone || decide (rawLimit < rawLoad s1) || decide (ddcLimit < ddcLoad s1), stNoRes)]; (firstFailing checks).isSome = true)) ∧
  (∃ (c : Cmd) (p : Block) (s₀ : State), zciReady 0x0B0B 18 (fun b => [(0, 5), (16, 16), (32, 32)] ++ (List.range (min 16 (fld b 0 5))).map (fun j => (128 + 64 * j, 48))) c p s₀ = true ∧ (let s := seen 0x0B0B c s₀; let k := arg p 0 5; let es := recEntries (blk p 18); let h := arg p 16 16; let cp := arg p 32 32; let rings := (es.filter (fun e => srcKind e == 2)).map srcRing; let grains := (es.filter (fun e => srcKind e == 1)).map srcStream; let s1 := recStart s c.session.val (blk p 18); let checks : List (Bool × Nat) := [(!ownsPort s c.session.val || !regOwned s c.session.val h || rings.any (fun r => !regOwned s c.session.val r), stBusy), (es.any (fun e => srcKind e != 1 && srcKind e != 2) || grains.any (fun i => !streamId i) || rings.any (fun r => !isRecRing s r), stInvalid), (s.flt.signBad, stFaulted), (!s.move.mounted || s.move.entry != 0xFFFF || grains.any (fun i => !strRuns s i) || rings.any (fun r => (s.reg r).bound != 0), stState), (storBusy s, stBusy), (decide (k < 1 ∨ 16 < k) || (s.reg h).size % stripeSize != 0 || decide ((s.reg h).size < 16 * s.move.drives * stripeSize) || decide (cp < 10 ∨ 60000 < cp) || (es.any (fun e => srcKind e == 2 && srcRate e == 0)) || decide (s.move.vstripes ≤ s.move.next), stRange), (decide (recLine s < recLoadOf s es) || (freeEntry s).isNone || decide (rawLimit < rawLoad s1) || decide (ddcLimit < ddcLoad s1), stNoRes)]; firstFailing checks = none)) ∧
  -- REC_CLOSE (R436)
  (∃ (c : Cmd) (p : Block) (s₀ : State), zciReady 0x0B0C 1 (fun _ => []) c p s₀ = true ∧ (let s := seen 0x0B0C c s₀; let checks : List (Bool × Nat) := [(!ownsPort s c.session.val, stBusy), (s.move.entry == 0xFFFF || s.move.ending != 0xFF || s.move.job == 8 || s.move.recClose.isSome, stState)]; (firstFailing checks).isSome = true)) := by
  refine ⟨⟨cmd 1, 0, ready, ?_⟩, ⟨cmd 1, block [(4, 3, 4), (8, 1, 1)], owned, ?_⟩, ⟨cmd 1, block [(4, 3, 5)], { stored with move := { stored.move with mounted := false } }, ?_⟩, ⟨cmd 1, 0, ready, ?_⟩, ⟨cmd 1, block [(0, 32, 4096)], { stored with move := { stored.move with mounted := false } }, ?_⟩, ⟨cmd 1, 0, ready, ?_⟩, ⟨cmd 1, 0, { stored with move := { stored.move with mounted := false } }, ?_⟩, ⟨cmd 1, 0, ready, ?_⟩, ⟨cmd 1, 0, stored, ?_⟩, ⟨cmd 18, 0, ready, ?_⟩, ⟨cmd 18, block [(0, 5, 1), (32, 32, 1000), (128, 8, 1)], stored, ?_⟩, ⟨cmd 1, 0, ready, ?_⟩⟩ <;> decide +kernel

/-- Operands and states that meet the hypotheses of each clause of StorageCommands. Part 2. -/
theorem witness_StorageCommands_part2 :
  -- REC_CLOSE (R436)
  (∃ (c : Cmd) (p : Block) (s₀ : State), zciReady 0x0B0C 1 (fun _ => []) c p s₀ = true ∧ (let s := seen 0x0B0C c s₀; let checks : List (Bool × Nat) := [(!ownsPort s c.session.val, stBusy), (s.move.entry == 0xFFFF || s.move.ending != 0xFF || s.move.job == 8 || s.move.recClose.isSome, stState)]; firstFailing checks = none)) ∧
  -- STOR_GET_STATUS (R445)
  (∃ (c : Cmd) (p : Block) (s₀ : State), zciReady 0x0B0D 1 (fun _ => []) c p s₀ = true) ∧
  -- STOR_LOG_PAGE (R446)
  (∃ (c : Cmd) (p : Block) (s₀ : State), zciReady 0x0B0E 2 (fun _ => [(0, 2), (8, 8), (16, 16), (64, 64)]) c p s₀ = true ∧ (let s := seen 0x0B0E c s₀; let h := arg p 16 16; let off := arg p 64 64; let checks : List (Bool × Nat) := [(!ownsPort s c.session.val || !regOwned s c.session.val h, stBusy), (off % 64 != 0, stInvalid), (decide (arg p 8 8 < 1 ∨ 3 < arg p 8 8), stUnsup), (!(s.link (arg p 0 2)).ok, stState), (regPast s h off 4096, stRange)]; (firstFailing checks).isSome = true)) ∧
  (∃ (c : Cmd) (p : Block) (s₀ : State), zciReady 0x0B0E 2 (fun _ => [(0, 2), (8, 8), (16, 16), (64, 64)]) c p s₀ = true ∧ (let s := seen 0x0B0E c s₀; let h := arg p 16 16; let off := arg p 64 64; let checks : List (Bool × Nat) := [(!ownsPort s c.session.val || !regOwned s c.session.val h, stBusy), (off % 64 != 0, stInvalid), (decide (arg p 8 8 < 1 ∨ 3 < arg p 8 8), stUnsup), (!(s.link (arg p 0 2)).ok, stState), (regPast s h off 4096, stRange)]; firstFailing checks = none)) := by
  refine ⟨⟨cmd 1, 0, { stored with move := { stored.move with entry := 0 } }, ?_⟩, ⟨cmd 1, 0, ready, ?_⟩, ⟨cmd 2, 0, ready, ?_⟩, ⟨cmd 2, block [(8, 8, 1)], stored, ?_⟩⟩ <;> decide +kernel

/-- Operands and states that meet the hypotheses of each clause of AuxAndControlCommands. Part 1. -/
theorem witness_AuxAndControlCommands_part1 :
  -- AUX_SET_REF (R493)
  (∃ (c : Cmd) (p : Block) (s₀ : State), zciReady 0x0C01 1 (fun _ => [(0, 2)]) c p s₀ = true ∧ (let s := seen 0x0C01 c s₀; let checks : List (Bool × Nat) := [(!owns s c.session.val 0x16 0, stBusy), (arg p 0 2 == 3, stInvalid), (s.aux.run, stState)]; (firstFailing checks).isSome = true)) ∧
  (∃ (c : Cmd) (p : Block) (s₀ : State), zciReady 0x0C01 1 (fun _ => [(0, 2)]) c p s₀ = true ∧ (let s := seen 0x0C01 c s₀; let checks : List (Bool × Nat) := [(!owns s c.session.val 0x16 0, stBusy), (arg p 0 2 == 3, stInvalid), (s.aux.run, stState)]; firstFailing checks = none ∧ (arg p 0 2 = s.aux.source))) ∧
  (∃ (c : Cmd) (p : Block) (s₀ : State), zciReady 0x0C01 1 (fun _ => [(0, 2)]) c p s₀ = true ∧ (let s := seen 0x0C01 c s₀; let checks : List (Bool × Nat) := [(!owns s c.session.val 0x16 0, stBusy), (arg p 0 2 == 3, stInvalid), (s.aux.run, stState)]; firstFailing checks = none ∧ (arg p 0 2 ≠ s.aux.source))) ∧
  -- AUX_SET_INPUT (R493)
  (∃ (c : Cmd) (p : Block) (s₀ : State), zciReady 0x0C02 1 (fun _ => [(0, 4), (4, 1), (5, 1), (16, 16), (32, 16)]) c p s₀ = true ∧ (let s := seen 0x0C02 c s₀; let n := arg p 0 4; let x := s.auxIn n; let checks : List (Bool × Nat) := [(!owns s c.session.val 0x16 0, stBusy), (decide (arg p 16 16 > arg p 32 16), stInvalid), (s.aux.run && argBit p 4 != x.range, stState)]; (firstFailing checks).isSome = true)) ∧
  (∃ (c : Cmd) (p : Block) (s₀ : State), zciReady 0x0C02 1 (fun _ => [(0, 4), (4, 1), (5, 1), (16, 16), (32, 16)]) c p s₀ = true ∧ (let s := seen 0x0C02 c s₀; let n := arg p 0 4; let x := s.auxIn n; let checks : List (Bool × Nat) := [(!owns s c.session.val 0x16 0, stBusy), (decide (arg p 16 16 > arg p 32 16), stInvalid), (s.aux.run && argBit p 4 != x.range, stState)]; firstFailing checks = none)) ∧
  -- AUX_SET_SEQ (R494)
  (∃ (c : Cmd) (p : Block) (s₀ : State), zciReady 0x0C03 6 (fun b => if bit b 0 then [(0, 1), (1, 1), (8, 5), (32, 32), (64, 64)] ++ (List.range (min 16 (fld b 8 5))).flatMap (fun e => [(128 + 16 * e, 6), (136 + 16 * e, 8)]) else [(0, 1)]) c p s₀ = true ∧ (let s := seen 0x0C03 c s₀; let l := seqEntries (blk p 6); let at_ := arg p 64 64; let checks : List (Bool × Nat) := [(!owns s c.session.val 0x16 0, stBusy), (argBit p 0 && arg p 8 5 == 0, stInvalid), (argBit p 0 && (l.take 16).any (fun e => e.2.1 == 3 || (e.2.1 != 0 && (s.auxIn e.1).range)), stInvalid), (argBit p 0 && (decide (arg p 8 5 > 16) || (arg p 32 32 != 0 && decide (arg p 32 32 < seqLen l)) || tickBad s at_), stRange)]; (firstFailing checks).isSome = true)) ∧
  (∃ (c : Cmd) (p : Block) (s₀ : State), zciReady 0x0C03 6 (fun b => if bit b 0 then [(0, 1), (1, 1), (8, 5), (32, 32), (64, 64)] ++ (List.range (min 16 (fld b 8 5))).flatMap (fun e => [(128 + 16 * e, 6), (136 + 16 * e, 8)]) else [(0, 1)]) c p s₀ = true ∧ (let s := seen 0x0C03 c s₀; let l := seqEntries (blk p 6); let at_ := arg p 64 64; let checks : List (Bool × Nat) := [(!owns s c.session.val 0x16 0, stBusy), (argBit p 0 && arg p 8 5 == 0, stInvalid), (argBit p 0 && (l.take 16).any (fun e => e.2.1 == 3 || (e.2.1 != 0 && (s.auxIn e.1).range)), stInvalid), (argBit p 0 && (decide (arg p 8 5 > 16) || (arg p 32 32 != 0 && decide (arg p 32 32 < seqLen l)) || tickBad s at_), stRange)]; firstFailing checks = none ∧ (argBit p 0 = false))) ∧
  (∃ (c : Cmd) (p : Block) (s₀ : State), zciReady 0x0C03 6 (fun b => if bit b 0 then [(0, 1), (1, 1), (8, 5), (32, 32), (64, 64)] ++ (List.range (min 16 (fld b 8 5))).flatMap (fun e => [(128 + 16 * e, 6), (136 + 16 * e, 8)]) else [(0, 1)]) c p s₀ = true ∧ (let s := seen 0x0C03 c s₀; let l := seqEntries (blk p 6); let at_ := arg p 64 64; let checks : List (Bool × Nat) := [(!owns s c.session.val 0x16 0, stBusy), (argBit p 0 && arg p 8 5 == 0, stInvalid), (argBit p 0 && (l.take 16).any (fun e => e.2.1 == 3 || (e.2.1 != 0 && (s.auxIn e.1).range)), stInvalid), (argBit p 0 && (decide (arg p 8 5 > 16) || (arg p 32 32 != 0 && decide (arg p 32 32 < seqLen l)) || tickBad s at_), stRange)]; firstFailing checks = none ∧ (argBit p 0 = true) ∧ ((s.aux.run && s.aux.inPass) = true))) ∧
  (∃ (c : Cmd) (p : Block) (s₀ : State), zciReady 0x0C03 6 (fun b => if bit b 0 then [(0, 1), (1, 1), (8, 5), (32, 32), (64, 64)] ++ (List.range (min 16 (fld b 8 5))).flatMap (fun e => [(128 + 16 * e, 6), (136 + 16 * e, 8)]) else [(0, 1)]) c p s₀ = true ∧ (let s := seen 0x0C03 c s₀; let l := seqEntries (blk p 6); let at_ := arg p 64 64; let checks : List (Bool × Nat) := [(!owns s c.session.val 0x16 0, stBusy), (argBit p 0 && arg p 8 5 == 0, stInvalid), (argBit p 0 && (l.take 16).any (fun e => e.2.1 == 3 || (e.2.1 != 0 && (s.auxIn e.1).range)), stInvalid), (argBit p 0 && (decide (arg p 8 5 > 16) || (arg p 32 32 != 0 && decide (arg p 32 32 < seqLen l)) || tickBad s at_), stRange)]; firstFailing checks = none ∧ (argBit p 0 = true) ∧ ((s.aux.run && s.aux.inPass) = false))) ∧
  -- AUX_GET_STATUS (R495)
  (∃ (c : Cmd) (p : Block) (s₀ : State), zciReady 0x0C04 1 (fun _ => [(8, 1)]) c p s₀ = true) ∧
  -- CTL_SET_OUTPUT (R496)
  (∃ (c : Cmd) (p : Block) (s₀ : State), zciReady 0x0C05 1 (fun b => if bit b 3 then [(0, 3), (3, 1), (4, 1), (5, 1), (6, 1), (8, 12), (24, 12)] else [(0, 3), (3, 1)]) c p s₀ = true ∧ (let s := seen 0x0C05 c s₀; let n := arg p 0 3; let checks : List (Bool × Nat) := [(!owns s c.session.val 0x17 n, stBusy)]; (firstFailing checks).isSome = true)) ∧
  (∃ (c : Cmd) (p : Block) (s₀ : State), zciReady 0x0C05 1 (fun b => if bit b 3 then [(0, 3), (3, 1), (4, 1), (5, 1), (6, 1), (8, 12), (24, 12)] else [(0, 3), (3, 1)]) c p s₀ = true ∧ (let s := seen 0x0C05 c s₀; let n := arg p 0 3; let checks : List (Bool × Nat) := [(!owns s c.session.val 0x17 n, stBusy)]; firstFailing checks = none ∧ (argBit p 3 = false))) := by
  refine ⟨⟨cmd 1, 0, ready, ?_⟩, ⟨cmd 1, 0, owned, ?_⟩, ⟨cmd 1, block [(0, 2, 1)], owned, ?_⟩, ⟨cmd 1, 0, ready, ?_⟩, ⟨cmd 1, 0, owned, ?_⟩, ⟨cmd 6, 0, ready, ?_⟩, ⟨cmd 6, 0, owned, ?_⟩, ⟨cmd 6, block [(0, 1, 1), (8, 5, 8), (32, 32, 4294967295)], rich, ?_⟩, ⟨cmd 6, block [(0, 1, 1), (8, 5, 8), (32, 32, 4294967295)], owned, ?_⟩, ⟨cmd 1, 0, ready, ?_⟩, ⟨cmd 1, 0, ready, ?_⟩, ⟨cmd 1, 0, owned, ?_⟩⟩ <;> decide +kernel

/-- Operands and states that meet the hypotheses of each clause of AuxAndControlCommands. Part 2. -/
theorem witness_AuxAndControlCommands_part2 :
  -- CTL_SET_OUTPUT (R496)
  (∃ (c : Cmd) (p : Block) (s₀ : State), zciReady 0x0C05 1 (fun b => if bit b 3 then [(0, 3), (3, 1), (4, 1), (5, 1), (6, 1), (8, 12), (24, 12)] else [(0, 3), (3, 1)]) c p s₀ = true ∧ (let s := seen 0x0C05 c s₀; let n := arg p 0 3; let x := if yp0Locked s then (s.ctlO n).elapse s.now else s.ctlO n; let checks : List (Bool × Nat) := [(!owns s c.session.val 0x17 n, stBusy)]; firstFailing checks = none ∧ (argBit p 3 = true) ∧ (x.on = false))) ∧
  (∃ (c : Cmd) (p : Block) (s₀ : State), zciReady 0x0C05 1 (fun b => if bit b 3 then [(0, 3), (3, 1), (4, 1), (5, 1), (6, 1), (8, 12), (24, 12)] else [(0, 3), (3, 1)]) c p s₀ = true ∧ (let s := seen 0x0C05 c s₀; let n := arg p 0 3; let x := if yp0Locked s then (s.ctlO n).elapse s.now else s.ctlO n; let checks : List (Bool × Nat) := [(!owns s c.session.val 0x17 n, stBusy)]; firstFailing checks = none ∧ (argBit p 3 = true) ∧ (x.on = true) ∧ (argBit p 4 ≠ x.newRange))) ∧
  (∃ (c : Cmd) (p : Block) (s₀ : State), zciReady 0x0C05 1 (fun b => if bit b 3 then [(0, 3), (3, 1), (4, 1), (5, 1), (6, 1), (8, 12), (24, 12)] else [(0, 3), (3, 1)]) c p s₀ = true ∧ (let s := seen 0x0C05 c s₀; let n := arg p 0 3; let x := if yp0Locked s then (s.ctlO n).elapse s.now else s.ctlO n; let checks : List (Bool × Nat) := [(!owns s c.session.val 0x17 n, stBusy)]; firstFailing checks = none ∧ (argBit p 3 = true) ∧ (x.on = true) ∧ (argBit p 4 = x.newRange))) ∧
  -- CTL_WRITE (R497)
  (∃ (c : Cmd) (p : Block) (s₀ : State), zciReady 0x0C06 4 (fun _ => (0, 8) :: (192, 64) :: (List.range 8).map (fun n => (64 + 16 * n, 12))) c p s₀ = true ∧ (let s := seen 0x0C06 c s₀; let outs := maskBits 8 (arg p 0 8); let at_ := arg p 192 64; let checks : List (Bool × Nat) := [(outs.any (fun n => !owns s c.session.val 0x17 n), stBusy), (arg p 0 8 == 0, stInvalid), (outs.any (fun n => !(s.ctlO n).on || (s.ctlO n).timed.isSome), stState), (tickBad s at_, stRange)]; (firstFailing checks).isSome = true)) ∧
  (∃ (c : Cmd) (p : Block) (s₀ : State), zciReady 0x0C06 4 (fun _ => (0, 8) :: (192, 64) :: (List.range 8).map (fun n => (64 + 16 * n, 12))) c p s₀ = true ∧ (let s := seen 0x0C06 c s₀; let outs := maskBits 8 (arg p 0 8); let at_ := arg p 192 64; let checks : List (Bool × Nat) := [(outs.any (fun n => !owns s c.session.val 0x17 n), stBusy), (arg p 0 8 == 0, stInvalid), (outs.any (fun n => !(s.ctlO n).on || (s.ctlO n).timed.isSome), stState), (tickBad s at_, stRange)]; firstFailing checks = none)) ∧
  -- CTL_GET_STATUS (R498)
  (∃ (c : Cmd) (p : Block) (s₀ : State), zciReady 0x0C07 1 (fun _ => []) c p s₀ = true) := by
  refine ⟨⟨cmd 1, block [(3, 1, 1), (8, 12, 576), (24, 12, 1)], owned, ?_⟩, ⟨cmd 1, block [(3, 1, 1), (4, 1, 1), (8, 12, 9), (24, 12, 2498)], rich, ?_⟩, ⟨cmd 1, block [(3, 1, 1), (8, 12, 576), (24, 12, 1)], rich, ?_⟩, ⟨cmd 4, 0, ready, ?_⟩, ⟨cmd 4, block [(0, 8, 1)], rich, ?_⟩, ⟨cmd 1, 0, ready, ?_⟩⟩ <;> decide +kernel

/-- Operands and states that meet the hypotheses of each clause of FaultCommands. -/
theorem witness_FaultCommands :
  -- FLT_GET_STATUS (R521)
  (∃ (c : Cmd) (p : Block) (s₀ : State), zciReady 0x0D01 1 (fun _ => [(0, 6)]) c p s₀ = true ∧ (let g := arg p 0 6; let checks : List (Bool × Nat) := [(decide (48 ≤ g), stRange)]; (firstFailing checks).isSome = true)) ∧
  (∃ (c : Cmd) (p : Block) (s₀ : State), zciReady 0x0D01 1 (fun _ => [(0, 6)]) c p s₀ = true ∧ (let g := arg p 0 6; let checks : List (Bool × Nat) := [(decide (48 ≤ g), stRange)]; firstFailing checks = none)) ∧
  -- FLT_SET_SEVERITY (R522)
  (∃ (c : Cmd) (p : Block) (s₀ : State), zciReady 0x0D02 1 (fun _ => [(0, 16), (16, 2)]) c p s₀ = true ∧ (let s := seen 0x0D02 c s₀; let id := arg p 0 16; let v := arg p 16 2; let d := fltDefault id; let checks : List (Bool × Nat) := [(!ownsAllCh s c.session.val, stBusy), (v == 0, stInvalid), (!fltDefined id || decide (v < d.2), stRange)]; (firstFailing checks).isSome = true)) ∧
  (∃ (c : Cmd) (p : Block) (s₀ : State), zciReady 0x0D02 1 (fun _ => [(0, 16), (16, 2)]) c p s₀ = true ∧ (let s := seen 0x0D02 c s₀; let id := arg p 0 16; let v := arg p 16 2; let d := fltDefault id; let checks : List (Bool × Nat) := [(!ownsAllCh s c.session.val, stBusy), (v == 0, stInvalid), (!fltDefined id || decide (v < d.2), stRange)]; firstFailing checks = none)) ∧
  -- FLT_GET_RECORD (R521)
  (∃ (c : Cmd) (p : Block) (s₀ : State), zciReady 0x0D03 1 (fun _ => [(0, 6)]) c p s₀ = true ∧ (let checks : List (Bool × Nat) := [(decide (48 ≤ arg p 0 6), stRange)]; (firstFailing checks).isSome = true)) ∧
  (∃ (c : Cmd) (p : Block) (s₀ : State), zciReady 0x0D03 1 (fun _ => [(0, 6)]) c p s₀ = true ∧ (let checks : List (Bool × Nat) := [(decide (48 ≤ arg p 0 6), stRange)]; firstFailing checks = none)) ∧
  -- FLT_CLEAR (R503)
  (∃ (c : Cmd) (p : Block) (s₀ : State), zciReady 0x0D04 1 (fun _ => [(0, 48), (48, 1)]) c p s₀ = true ∧ (let s := seen 0x0D04 c s₀; let rec_ := argBit p 48 && s.host.engine == 2; let checks : List (Bool × Nat) := [(!ownsAllCh s c.session.val, stBusy), (arg p 0 48 == 0 && !argBit p 48, stInvalid), (rec_ && recoverBlocked s, stState)]; (firstFailing checks).isSome = true)) ∧
  (∃ (c : Cmd) (p : Block) (s₀ : State), zciReady 0x0D04 1 (fun _ => [(0, 48), (48, 1)]) c p s₀ = true ∧ (let s := seen 0x0D04 c s₀; let rec_ := argBit p 48 && s.host.engine == 2; let checks : List (Bool × Nat) := [(!ownsAllCh s c.session.val, stBusy), (arg p 0 48 == 0 && !argBit p 48, stInvalid), (rec_ && recoverBlocked s, stState)]; firstFailing checks = none)) ∧
  -- FLT_FORCE (R509)
  (∃ (c : Cmd) (p : Block) (s₀ : State), zciReady 0x0D05 2 (fun _ => [(0, 16), (16, 1), (64, 64)]) c p s₀ = true ∧ (let s := seen 0x0D05 c s₀; let id := arg p 0 16; let a := arg p 64 64; let checks : List (Bool × Nat) := [(!ownsAllCh s c.session.val, stBusy), (!forceable id, stDenied), (isEcc id && arg p 16 1 != id % 2, stInvalid), (isEcc id && a % 64 != 0, stRange), (isEcc id && !eccLineOk s c.session.val id a, stRange)]; (firstFailing checks).isSome = true)) ∧
  (∃ (c : Cmd) (p : Block) (s₀ : State), zciReady 0x0D05 2 (fun _ => [(0, 16), (16, 1), (64, 64)]) c p s₀ = true ∧ (let s := seen 0x0D05 c s₀; let id := arg p 0 16; let a := arg p 64 64; let checks : List (Bool × Nat) := [(!ownsAllCh s c.session.val, stBusy), (!forceable id, stDenied), (isEcc id && arg p 16 1 != id % 2, stInvalid), (isEcc id && a % 64 != 0, stRange), (isEcc id && !eccLineOk s c.session.val id a, stRange)]; firstFailing checks = none ∧ (isEcc id = true))) ∧
  (∃ (c : Cmd) (p : Block) (s₀ : State), zciReady 0x0D05 2 (fun _ => [(0, 16), (16, 1), (64, 64)]) c p s₀ = true ∧ (let s := seen 0x0D05 c s₀; let id := arg p 0 16; let a := arg p 64 64; let checks : List (Bool × Nat) := [(!ownsAllCh s c.session.val, stBusy), (!forceable id, stDenied), (isEcc id && arg p 16 1 != id % 2, stInvalid), (isEcc id && a % 64 != 0, stRange), (isEcc id && !eccLineOk s c.session.val id a, stRange)]; firstFailing checks = none ∧ (isEcc id = false))) := by
  refine ⟨⟨cmd 1, block [(0, 6, 63)], ready, ?_⟩, ⟨cmd 1, 0, ready, ?_⟩, ⟨cmd 1, 0, ready, ?_⟩, ⟨cmd 1, block [(16, 2, 3)], owned, ?_⟩, ⟨cmd 1, block [(0, 6, 63)], ready, ?_⟩, ⟨cmd 1, 0, ready, ?_⟩, ⟨cmd 1, 0, ready, ?_⟩, ⟨cmd 1, block [(48, 1, 1)], owned, ?_⟩, ⟨cmd 2, 0, ready, ?_⟩, ⟨cmd 2, block [(0, 16, 7434), (64, 64, 16777216)], owned, ?_⟩, ⟨cmd 2, block [(0, 16, 512), (16, 1, 1), (64, 64, 18446744073709551615)], owned, ?_⟩⟩ <;> decide +kernel

/-- Operands and states that meet the hypotheses of each clause of SecurityAndPerfCommands. Part 1. -/
theorem witness_SecurityAndPerfCommands_part1 :
  -- SEC_GET_CERT (R525)
  (∃ (c : Cmd) (p : Block) (s₀ : State), zciReady 0x0D06 1 (fun _ => [(0, 2), (16, 16), (32, 32)]) c p s₀ = true ∧ (let s := seen 0x0D06 c s₀; let h := arg p 16 16; let off := 64 * arg p 32 32; let bs := Config.cert (arg p 0 2); let checks : List (Bool × Nat) := [(!regOwned s c.session.val h, stBusy), (s.sec.life == 0, stState), (arg p 0 2 == 3 || regPast s h off bs.length, stRange)]; (firstFailing checks).isSome = true)) ∧
  -- SEC_ATTEST (R518)
  (∃ (c : Cmd) (p : Block) (s₀ : State), zciReady 0x0D07 10 (fun _ => [(0, 16), (16, 16), (64, 64), (128, 64), (192, 64), (256, 80), (352, 256)]) c p s₀ = true ∧ (let s := seen 0x0D07 c s₀; let h := arg p 0 16; let o := arg p 16 16; let len := arg p 128 64; let off := arg p 192 64; let checks : List (Bool × Nat) := [(s.flt.signBad, stFaulted), ((len != 0 && !regOwned s c.session.val h) || !regOwned s c.session.val o, stBusy), (off % 64 != 0, stInvalid), (len != 0 && regUsed s h, stState), (decide (devSize < len) || (len != 0 && regPast s h (arg p 64 64) len) || regPast s o off 352, stRange)]; (firstFailing checks).isSome = true)) ∧
  (∃ (c : Cmd) (p : Block) (s₀ : State), zciReady 0x0D07 10 (fun _ => [(0, 16), (16, 16), (64, 64), (128, 64), (192, 64), (256, 80), (352, 256)]) c p s₀ = true ∧ (let s := seen 0x0D07 c s₀; let h := arg p 0 16; let o := arg p 16 16; let len := arg p 128 64; let off := arg p 192 64; let checks : List (Bool × Nat) := [(s.flt.signBad, stFaulted), ((len != 0 && !regOwned s c.session.val h) || !regOwned s c.session.val o, stBusy), (off % 64 != 0, stInvalid), (len != 0 && regUsed s h, stState), (decide (devSize < len) || (len != 0 && regPast s h (arg p 64 64) len) || regPast s o off 352, stRange)]; firstFailing checks = none)) ∧
  -- SEC_SET_LIFECYCLE (R524)
  (∃ (c : Cmd) (p : Block) (s₀ : State), zciReady 0x0D08 2 (fun _ => [(0, 3), (64, 64)]) c p s₀ = true ∧ (let s := seen 0x0D08 c s₀; let n := c.session.val; let tgt := arg p 0 3; let new := (targetState tgt).getD 0; let checks : List (Bool × Nat) := [(!ownsAllCh s n, stBusy), ((targetState tgt).isNone || arg p 64 64 % 64 != 0, stInvalid), (othersOpen s n || (List.range 6).any (fun id => (s.str id).running) || s.move.entry != 0xFFFF, stState), (!lifeAllowed s.sec.life new, stState)]; (firstFailing checks).isSome = true)) ∧
  (∃ (c : Cmd) (p : Block) (auth : List Nat) (s₀ : State), zciReady 0x0D08 2 (fun _ => [(0, 3), (64, 64)]) c p s₀ = true ∧ (let s := seen 0x0D08 c s₀; let n := c.session.val; let tgt := arg p 0 3; let new := (targetState tgt).getD 0; let bs := (bytesOf auth ++ List.replicate 256 0).take 256; let checks : List (Bool × Nat) := [(!ownsAllCh s n, stBusy), ((targetState tgt).isNone || arg p 64 64 % 64 != 0, stInvalid), (othersOpen s n || (List.range 6).any (fun id => (s.str id).running) || s.move.entry != 0xFFFF, stState), (!lifeAllowed s.sec.life new, stState)]; let denied : Bool := decide (s.sec.life = 2) && !ownerAuth s tgt bs; firstFailing checks = none ∧ denied = true)) ∧
  (∃ (c : Cmd) (p : Block) (auth : List Nat) (s₀ : State), zciReady 0x0D08 2 (fun _ => [(0, 3), (64, 64)]) c p s₀ = true ∧ (let s := seen 0x0D08 c s₀; let n := c.session.val; let tgt := arg p 0 3; let new := (targetState tgt).getD 0; let bs := (bytesOf auth ++ List.replicate 256 0).take 256; let checks : List (Bool × Nat) := [(!ownsAllCh s n, stBusy), ((targetState tgt).isNone || arg p 64 64 % 64 != 0, stInvalid), (othersOpen s n || (List.range 6).any (fun id => (s.str id).running) || s.move.entry != 0xFFFF, stState), (!lifeAllowed s.sec.life new, stState)]; let denied : Bool := decide (s.sec.life = 2) && !ownerAuth s tgt bs; firstFailing checks = none ∧ denied = false)) ∧
  -- SEC_GET_STATUS (R527)
  (∃ (c : Cmd) (p : Block) (s₀ : State), zciReady 0x0D09 1 (fun _ => []) c p s₀ = true) ∧
  -- PERF_SET_COUNTER (R528)
  (∃ (c : Cmd) (p : Block) (s₀ : State), zciReady 0x0E01 1 (fun _ => [(0, 6), (8, 8), (16, 16), (32, 1)]) c p s₀ = true ∧ (let s := seen 0x0E01 c s₀; let k := arg p 0 6; let src := arg p 8 8; let checks : List (Bool × Nat) := [(!owns s c.session.val 0x18 k, stBusy), (!perfKnown src, stInvalid), ((s.perfC k).run, stState), (!perfInst src (arg p 16 16), stRange)]; (firstFailing checks).isSome = true)) ∧
  (∃ (c : Cmd) (p : Block) (s₀ : State), zciReady 0x0E01 1 (fun _ => [(0, 6), (8, 8), (16, 16), (32, 1)]) c p s₀ = true ∧ (let s := seen 0x0E01 c s₀; let k := arg p 0 6; let src := arg p 8 8; let checks : List (Bool × Nat) := [(!owns s c.session.val 0x18 k, stBusy), (!perfKnown src, stInvalid), ((s.perfC k).run, stState), (!perfInst src (arg p 16 16), stRange)]; firstFailing checks = none)) ∧
  -- PERF_CONTROL (R528)
  (∃ (c : Cmd) (p : Block) (s₀ : State), zciReady 0x0E02 3 (fun _ => [(0, 64), (64, 2), (128, 64)]) c p s₀ = true ∧ (let s := seen 0x0E02 c s₀; let m := arg p 0 64; let a := arg p 64 2; let at_ := arg p 128 64; let checks : List (Bool × Nat) := [((maskBits 64 m).any (fun k => !owns s c.session.val 0x18 k), stBusy), (m == 0, stInvalid), (a % 2 == 1 && (maskBits 64 m).any (fun k => !(s.perfC k).conf), stState), (tickBad s at_, stRange)]; (firstFailing checks).isSome = true)) ∧
  (∃ (c : Cmd) (p : Block) (s₀ : State), zciReady 0x0E02 3 (fun _ => [(0, 64), (64, 2), (128, 64)]) c p s₀ = true ∧ (let s := seen 0x0E02 c s₀; let m := arg p 0 64; let a := arg p 64 2; let at_ := arg p 128 64; let checks : List (Bool × Nat) := [((maskBits 64 m).any (fun k => !owns s c.session.val 0x18 k), stBusy), (m == 0, stInvalid), (a % 2 == 1 && (maskBits 64 m).any (fun k => !(s.perfC k).conf), stState), (tickBad s at_, stRange)]; firstFailing checks = none ∧ (at_ = 0))) ∧
  (∃ (c : Cmd) (p : Block) (s₀ : State), zciReady 0x0E02 3 (fun _ => [(0, 64), (64, 2), (128, 64)]) c p s₀ = true ∧ (let s := seen 0x0E02 c s₀; let m := arg p 0 64; let a := arg p 64 2; let at_ := arg p 128 64; let checks : List (Bool × Nat) := [((maskBits 64 m).any (fun k => !owns s c.session.val 0x18 k), stBusy), (m == 0, stInvalid), (a % 2 == 1 && (maskBits 64 m).any (fun k => !(s.perfC k).conf), stState), (tickBad s at_, stRange)]; firstFailing checks = none ∧ (at_ ≠ 0))) := by
  refine ⟨⟨cmd 1, 0, ready, ?_⟩, ⟨cmd 10, 0, ready, ?_⟩, ⟨cmd 10, 0, owned, ?_⟩, ⟨cmd 2, 0, ready, ?_⟩, ⟨cmd 2, block [(0, 3, 3)], [], quiet, ?_⟩, ⟨cmd 2, block [(0, 3, 3)], [], young, ?_⟩, ⟨cmd 1, 0, ready, ?_⟩, ⟨cmd 1, 0, ready, ?_⟩, ⟨cmd 1, block [(8, 8, 11), (16, 16, 2), (32, 1, 1)], owned, ?_⟩, ⟨cmd 3, 0, ready, ?_⟩, ⟨cmd 3, block [(0, 64, 2)], owned, ?_⟩, ⟨cmd 3, block [(128, 64, 2000000), (0, 64, 2)], owned, ?_⟩⟩ <;> decide +kernel

/-- Operands and states that meet the hypotheses of each clause of SecurityAndPerfCommands. Part 2. -/
theorem witness_SecurityAndPerfCommands_part2 :
  -- PERF_READ (R528)
  (∃ (c : Cmd) (p : Block) (s₀ : State), zciReady 0x0E03 3 (fun _ => [(0, 64), (64, 16), (128, 64)]) c p s₀ = true ∧ (let s := seen 0x0E03 c s₀; let ks := maskBits 64 (arg p 0 64); let h := arg p 64 16; let off := arg p 128 64; let checks : List (Bool × Nat) := [(!regOwned s c.session.val h, stBusy), (off % 64 != 0, stInvalid), (regPast s h off (64 + 8 * ks.length), stRange)]; (firstFailing checks).isSome = true)) ∧
  (∃ (c : Cmd) (p : Block) (s₀ : State), zciReady 0x0E03 3 (fun _ => [(0, 64), (64, 16), (128, 64)]) c p s₀ = true ∧ (let s := seen 0x0E03 c s₀; let ks := maskBits 64 (arg p 0 64); let h := arg p 64 16; let off := arg p 128 64; let checks : List (Bool × Nat) := [(!regOwned s c.session.val h, stBusy), (off % 64 != 0, stInvalid), (regPast s h off (64 + 8 * ks.length), stRange)]; firstFailing checks = none)) := by
  refine ⟨⟨cmd 3, 0, ready, ?_⟩, ⟨cmd 3, 0, owned, ?_⟩⟩ <;> decide +kernel

/-- Operands and states that meet the hypotheses of each clause of GroveIntegerOps. Part 1. -/
theorem witness_GroveIntegerOps_part1 :
  -- NOP (R329)
  (∃ (core : Nat) (s₀ : State), s₀.pwr.down = false ∧ ((s₀.core core).st ≠ 1 ∨ (s₀.core core).stall ≠ 0)) ∧
  (∃ (t : Nat) (core : Nat) (w : BitVec 26) (s₀ : State), grvReady 0x00 [] t core w s₀ = true) ∧
  -- ADD (R329)
  (∃ (core : Nat) (s₀ : State), s₀.pwr.down = false ∧ ((s₀.core core).st ≠ 1 ∨ (s₀.core core).stall ≠ 0)) ∧
  (∃ (t : Nat) (core : Nat) (w : BitVec 26) (s₀ : State), grvReady 0x01 fmtR t core w s₀ = true) ∧
  -- SUB (R329)
  (∃ (core : Nat) (s₀ : State), s₀.pwr.down = false ∧ ((s₀.core core).st ≠ 1 ∨ (s₀.core core).stall ≠ 0)) ∧
  (∃ (t : Nat) (core : Nat) (w : BitVec 26) (s₀ : State), grvReady 0x02 fmtR t core w s₀ = true) ∧
  -- AND (R329)
  (∃ (core : Nat) (s₀ : State), s₀.pwr.down = false ∧ ((s₀.core core).st ≠ 1 ∨ (s₀.core core).stall ≠ 0)) ∧
  (∃ (t : Nat) (core : Nat) (w : BitVec 26) (s₀ : State), grvReady 0x03 fmtR t core w s₀ = true) ∧
  -- OR (R329)
  (∃ (core : Nat) (s₀ : State), s₀.pwr.down = false ∧ ((s₀.core core).st ≠ 1 ∨ (s₀.core core).stall ≠ 0)) ∧
  (∃ (t : Nat) (core : Nat) (w : BitVec 26) (s₀ : State), grvReady 0x04 fmtR t core w s₀ = true) ∧
  -- XOR (R329)
  (∃ (core : Nat) (s₀ : State), s₀.pwr.down = false ∧ ((s₀.core core).st ≠ 1 ∨ (s₀.core core).stall ≠ 0)) ∧
  (∃ (t : Nat) (core : Nat) (w : BitVec 26) (s₀ : State), grvReady 0x05 fmtR t core w s₀ = true) := by
  refine ⟨⟨0, ready, ?_⟩, ⟨1000000, 0, 0#26, withWord 0 0 rich, ?_⟩, ⟨0, ready, ?_⟩, ⟨1000000, 0, 0#26, withWord 1 0 rich, ?_⟩, ⟨0, ready, ?_⟩, ⟨1000000, 0, 0#26, withWord 2 0 rich, ?_⟩, ⟨0, ready, ?_⟩, ⟨1000000, 0, 0#26, withWord 3 0 rich, ?_⟩, ⟨0, ready, ?_⟩, ⟨1000000, 0, 0#26, withWord 4 0 rich, ?_⟩, ⟨0, ready, ?_⟩, ⟨1000000, 0, 0#26, withWord 5 0 rich, ?_⟩⟩ <;> decide +kernel

/-- Operands and states that meet the hypotheses of each clause of GroveIntegerOps. Part 2. -/
theorem witness_GroveIntegerOps_part2 :
  -- SHL (R329)
  (∃ (core : Nat) (s₀ : State), s₀.pwr.down = false ∧ ((s₀.core core).st ≠ 1 ∨ (s₀.core core).stall ≠ 0)) ∧
  (∃ (t : Nat) (core : Nat) (w : BitVec 26) (s₀ : State), grvReady 0x06 fmtR t core w s₀ = true) ∧
  -- SHR (R329)
  (∃ (core : Nat) (s₀ : State), s₀.pwr.down = false ∧ ((s₀.core core).st ≠ 1 ∨ (s₀.core core).stall ≠ 0)) ∧
  (∃ (t : Nat) (core : Nat) (w : BitVec 26) (s₀ : State), grvReady 0x07 fmtR t core w s₀ = true) ∧
  -- SAR (R329)
  (∃ (core : Nat) (s₀ : State), s₀.pwr.down = false ∧ ((s₀.core core).st ≠ 1 ∨ (s₀.core core).stall ≠ 0)) ∧
  (∃ (t : Nat) (core : Nat) (w : BitVec 26) (s₀ : State), grvReady 0x08 fmtR t core w s₀ = true) ∧
  -- SLT (R329)
  (∃ (core : Nat) (s₀ : State), s₀.pwr.down = false ∧ ((s₀.core core).st ≠ 1 ∨ (s₀.core core).stall ≠ 0)) ∧
  (∃ (t : Nat) (core : Nat) (w : BitVec 26) (s₀ : State), grvReady 0x09 fmtR t core w s₀ = true) ∧
  -- SLTU (R329)
  (∃ (core : Nat) (s₀ : State), s₀.pwr.down = false ∧ ((s₀.core core).st ≠ 1 ∨ (s₀.core core).stall ≠ 0)) ∧
  (∃ (t : Nat) (core : Nat) (w : BitVec 26) (s₀ : State), grvReady 0x0A fmtR t core w s₀ = true) ∧
  -- MUL (R329)
  (∃ (core : Nat) (s₀ : State), s₀.pwr.down = false ∧ ((s₀.core core).st ≠ 1 ∨ (s₀.core core).stall ≠ 0)) ∧
  (∃ (t : Nat) (core : Nat) (w : BitVec 26) (s₀ : State), grvReady 0x0B fmtR t core w s₀ = true) := by
  refine ⟨⟨0, ready, ?_⟩, ⟨1000000, 0, 0#26, withWord 6 0 rich, ?_⟩, ⟨0, ready, ?_⟩, ⟨1000000, 0, 0#26, withWord 7 0 rich, ?_⟩, ⟨0, ready, ?_⟩, ⟨1000000, 0, 0#26, withWord 8 0 rich, ?_⟩, ⟨0, ready, ?_⟩, ⟨1000000, 0, 0#26, withWord 9 0 rich, ?_⟩, ⟨0, ready, ?_⟩, ⟨1000000, 0, 0#26, withWord 10 0 rich, ?_⟩, ⟨0, ready, ?_⟩, ⟨1000000, 0, 0#26, withWord 11 0 rich, ?_⟩⟩ <;> decide +kernel

/-- Operands and states that meet the hypotheses of each clause of GroveIntegerOps. Part 3. -/
theorem witness_GroveIntegerOps_part3 :
  -- ADDI (R329)
  (∃ (core : Nat) (s₀ : State), s₀.pwr.down = false ∧ ((s₀.core core).st ≠ 1 ∨ (s₀.core core).stall ≠ 0)) ∧
  (∃ (t : Nat) (core : Nat) (w : BitVec 26) (s₀ : State), grvReady 0x0C [(22, 4), (18, 4), (0, 18)] t core w s₀ = true) ∧
  -- ANDI (R329)
  (∃ (core : Nat) (s₀ : State), s₀.pwr.down = false ∧ ((s₀.core core).st ≠ 1 ∨ (s₀.core core).stall ≠ 0)) ∧
  (∃ (t : Nat) (core : Nat) (w : BitVec 26) (s₀ : State), grvReady 0x0D [(22, 4), (18, 4), (0, 18)] t core w s₀ = true) ∧
  -- ORI (R329)
  (∃ (core : Nat) (s₀ : State), s₀.pwr.down = false ∧ ((s₀.core core).st ≠ 1 ∨ (s₀.core core).stall ≠ 0)) ∧
  (∃ (t : Nat) (core : Nat) (w : BitVec 26) (s₀ : State), grvReady 0x0E [(22, 4), (18, 4), (0, 18)] t core w s₀ = true) ∧
  -- SHI (R329)
  (∃ (core : Nat) (s₀ : State), s₀.pwr.down = false ∧ ((s₀.core core).st ≠ 1 ∨ (s₀.core core).stall ≠ 0)) ∧
  (∃ (t : Nat) (core : Nat) (w : BitVec 26) (s₀ : State), grvReady 0x0F [(22, 4), (18, 4), (0, 7)] t core w s₀ = true ∧ (let f := w.toNat; let k := fld f 5 2; (k = 3))) ∧
  (∃ (t : Nat) (core : Nat) (w : BitVec 26) (s₀ : State), grvReady 0x0F [(22, 4), (18, 4), (0, 7)] t core w s₀ = true ∧ (let f := w.toNat; let k := fld f 5 2; (k ≠ 3))) ∧
  -- MOVI (R329)
  (∃ (core : Nat) (s₀ : State), s₀.pwr.down = false ∧ ((s₀.core core).st ≠ 1 ∨ (s₀.core core).stall ≠ 0)) ∧
  (∃ (t : Nat) (core : Nat) (w : BitVec 26) (s₀ : State), grvReady 0x10 [(22, 4), (0, 16)] t core w s₀ = true) ∧
  -- MOVHI (R329)
  (∃ (core : Nat) (s₀ : State), s₀.pwr.down = false ∧ ((s₀.core core).st ≠ 1 ∨ (s₀.core core).stall ≠ 0)) := by
  refine ⟨⟨0, ready, ?_⟩, ⟨1000000, 0, 0#26, withWord 12 0 rich, ?_⟩, ⟨0, ready, ?_⟩, ⟨1000000, 0, 0#26, withWord 13 0 rich, ?_⟩, ⟨0, ready, ?_⟩, ⟨1000000, 0, 0#26, withWord 14 0 rich, ?_⟩, ⟨0, ready, ?_⟩, ⟨0, 0, 12583039#26, withWord 15 12583039 rich, ?_⟩, ⟨1000000, 0, 0#26, withWord 15 0 rich, ?_⟩, ⟨0, ready, ?_⟩, ⟨1000000, 0, 0#26, withWord 16 0 rich, ?_⟩, ⟨0, ready, ?_⟩⟩ <;> decide +kernel

/-- Operands and states that meet the hypotheses of each clause of GroveIntegerOps. Part 4. -/
theorem witness_GroveIntegerOps_part4 :
  -- MOVHI (R329)
  (∃ (t : Nat) (core : Nat) (w : BitVec 26) (s₀ : State), grvReady 0x11 [(22, 4), (0, 16)] t core w s₀ = true) := ⟨1000000, 0, 0#26, withWord 17 0 rich, by decide +kernel⟩

/-- Operands and states that meet the hypotheses of each clause of GroveComplexAndRegisterOps. Part 1. -/
theorem witness_GroveComplexAndRegisterOps_part1 :
  -- CMUL (R327)
  (∃ (core : Nat) (s₀ : State), s₀.pwr.down = false ∧ ((s₀.core core).st ≠ 1 ∨ (s₀.core core).stall ≠ 0)) ∧
  (∃ (t : Nat) (core : Nat) (w : BitVec 26) (s₀ : State), grvReady 0x12 fmtR t core w s₀ = true) ∧
  -- CADDS (R327)
  (∃ (core : Nat) (s₀ : State), s₀.pwr.down = false ∧ ((s₀.core core).st ≠ 1 ∨ (s₀.core core).stall ≠ 0)) ∧
  (∃ (t : Nat) (core : Nat) (w : BitVec 26) (s₀ : State), grvReady 0x13 fmtR t core w s₀ = true) ∧
  -- CSUBS (R327)
  (∃ (core : Nat) (s₀ : State), s₀.pwr.down = false ∧ ((s₀.core core).st ≠ 1 ∨ (s₀.core core).stall ≠ 0)) ∧
  (∃ (t : Nat) (core : Nat) (w : BitVec 26) (s₀ : State), grvReady 0x14 fmtR t core w s₀ = true) ∧
  -- MOVR (R329)
  (∃ (core : Nat) (s₀ : State), s₀.pwr.down = false ∧ ((s₀.core core).st ≠ 1 ∨ (s₀.core core).stall ≠ 0)) ∧
  (∃ (t : Nat) (core : Nat) (w : BitVec 26) (s₀ : State), grvReady 0x15 [(20, 6), (14, 6)] t core w s₀ = true ∧ (let f := w.toNat; let d := fld f 20 6; let r := fld f 14 6; ((!specOk d || !specOk r) = true))) ∧
  (∃ (t : Nat) (core : Nat) (w : BitVec 26) (s₀ : State), grvReady 0x15 [(20, 6), (14, 6)] t core w s₀ = true ∧ (let f := w.toNat; let d := fld f 20 6; let r := fld f 14 6; ((!specOk d || !specOk r) = false))) ∧
  -- SMOV (R322)
  (∃ (core : Nat) (s₀ : State), s₀.pwr.down = false ∧ ((s₀.core core).st ≠ 1 ∨ (s₀.core core).stall ≠ 0)) ∧
  (∃ (t : Nat) (core : Nat) (w : BitVec 26) (s₀ : State), grvReady 0x16 [(20, 6), (14, 6)] t core w s₀ = true ∧ (let f := w.toNat; let d := fld f 20 6; let r := fld f 14 6; ((!specOk d || !specOk r) = true))) ∧
  (∃ (t : Nat) (core : Nat) (w : BitVec 26) (s₀ : State), grvReady 0x16 [(20, 6), (14, 6)] t core w s₀ = true ∧ (let f := w.toNat; let d := fld f 20 6; let r := fld f 14 6; ((!specOk d || !specOk r) = false))) := by
  refine ⟨⟨0, ready, ?_⟩, ⟨1000000, 0, 0#26, withWord 18 0 rich, ?_⟩, ⟨0, ready, ?_⟩, ⟨1000000, 0, 0#26, withWord 19 0 rich, ?_⟩, ⟨0, ready, ?_⟩, ⟨1000000, 0, 0#26, withWord 20 0 rich, ?_⟩, ⟨0, ready, ?_⟩, ⟨1000000, 0, 61865984#26, withWord 21 61865984 rich, ?_⟩, ⟨1000000, 0, 0#26, withWord 21 0 rich, ?_⟩, ⟨0, ready, ?_⟩, ⟨1000000, 0, 61865984#26, withWord 22 61865984 rich, ?_⟩, ⟨1000000, 0, 0#26, withWord 22 0 rich, ?_⟩⟩ <;> decide +kernel

/-- Operands and states that meet the hypotheses of each clause of GroveComplexAndRegisterOps. Part 2. -/
theorem witness_GroveComplexAndRegisterOps_part2 :
  -- MOVSR (R325)
  (∃ (core : Nat) (s₀ : State), s₀.pwr.down = false ∧ ((s₀.core core).st ≠ 1 ∨ (s₀.core core).stall ≠ 0)) ∧
  (∃ (t : Nat) (core : Nat) (w : BitVec 26) (s₀ : State), grvReady 0x17 [(22, 4), (16, 6)] t core w s₀ = true ∧ (let f := w.toNat; let sr := fld f 16 6; (srOk sr = false))) ∧
  (∃ (t : Nat) (core : Nat) (w : BitVec 26) (s₀ : State), grvReady 0x17 [(22, 4), (16, 6)] t core w s₀ = true ∧ (let x := grvCore core s₀; let f := w.toNat; let sr := fld f 16 6; (sr = 6) ∧ (x.cnth.isSome = true))) ∧
  (∃ (t : Nat) (core : Nat) (w : BitVec 26) (s₀ : State), grvReady 0x17 [(22, 4), (16, 6)] t core w s₀ = true ∧ (let x := grvCore core s₀; let f := w.toNat; let sr := fld f 16 6; (sr = 6) ∧ (x.cnth = none))) ∧
  (∃ (t : Nat) (core : Nat) (w : BitVec 26) (s₀ : State), grvReady 0x17 [(22, 4), (16, 6)] t core w s₀ = true ∧ (let f := w.toNat; let sr := fld f 16 6; (srOk sr = true) ∧ (sr ≠ 6))) ∧
  -- MOVRS (R325)
  (∃ (core : Nat) (s₀ : State), s₀.pwr.down = false ∧ ((s₀.core core).st ≠ 1 ∨ (s₀.core core).stall ≠ 0)) ∧
  (∃ (t : Nat) (core : Nat) (w : BitVec 26) (s₀ : State), grvReady 0x18 [(22, 4), (16, 6)] t core w s₀ = true ∧ (let f := w.toNat; let sr := fld f 16 6; ([0, 1, 2, 3, 7, 8, 9].contains sr = true))) ∧
  (∃ (t : Nat) (core : Nat) (w : BitVec 26) (s₀ : State), grvReady 0x18 [(22, 4), (16, 6)] t core w s₀ = true ∧ (let f := w.toNat; let sr := fld f 16 6; ([0, 1, 2, 3, 7, 8, 9].contains sr = false))) := by
  refine ⟨⟨0, ready, ?_⟩, ⟨1000000, 0, 4128768#26, withWord 23 4128768 rich, ?_⟩, ⟨1600000, 0, 393216#26, withWord 23 393216 rich, ?_⟩, ⟨1000000, 0, 393216#26, withWord 23 393216 (coreAt { st := 1, cnth := none }), ?_⟩, ⟨1000000, 0, 0#26, withWord 23 0 rich, ?_⟩, ⟨0, ready, ?_⟩, ⟨1000000, 0, 0#26, withWord 24 0 rich, ?_⟩, ⟨1000000, 0, 4128768#26, withWord 24 4128768 rich, ?_⟩⟩ <;> decide +kernel

/-- Operands and states that meet the hypotheses of each clause of GroveMemoryOps. Part 1. -/
theorem witness_GroveMemoryOps_part1 :
  -- LD (R324)
  (∃ (core : Nat) (s₀ : State), s₀.pwr.down = false ∧ ((s₀.core core).st ≠ 1 ∨ (s₀.core core).stall ≠ 0)) ∧
  (∃ (t : Nat) (core : Nat) (w : BitVec 26) (s₀ : State), grvReady 0x19 fmtM t core w s₀ = true ∧ (let x := grvCore core s₀; let f := w.toNat; (x.post (bit f 15) (fld f 19 3) (fld f 16 3) = none))) ∧
  (∃ (t : Nat) (core : Nat) (w : BitVec 26) (s₀ : State), grvReady 0x19 fmtM t core w s₀ = true ∧ (let s := advance s₀ t; let x := grvCore core s₀; let f := w.toNat; let a := (x.rdX x.bank (fld f 19 3)).toNat; ((x.post (bit f 15) (fld f 19 3) (fld f 16 3)).isSome = true) ∧ (resolve s core a 4 true = .bad))) ∧
  (∃ (t : Nat) (core : Nat) (w : BitVec 26) (s₀ : State), grvReady 0x19 fmtM t core w s₀ = true ∧ (let s := advance s₀ t; let x := grvCore core s₀; let f := w.toNat; let a := (x.rdX x.bank (fld f 19 3)).toNat; ((x.post (bit f 15) (fld f 19 3) (fld f 16 3)).isSome = true) ∧ (((match resolve s core a 4 true with | .pad _ _ => true | _ => false) = true)))) ∧
  (∃ (t : Nat) (core : Nat) (w : BitVec 26) (s₀ : State), grvReady 0x19 fmtM t core w s₀ = true ∧ (let s := advance s₀ t; let x := grvCore core s₀; let f := w.toNat; let a := (x.rdX x.bank (fld f 19 3)).toNat; ((x.post (bit f 15) (fld f 19 3) (fld f 16 3)).isSome = true) ∧ (((match resolve s core a 4 true with | .com _ _ => true | _ => false) = true)))) ∧
  -- LDH (R324)
  (∃ (core : Nat) (s₀ : State), s₀.pwr.down = false ∧ ((s₀.core core).st ≠ 1 ∨ (s₀.core core).stall ≠ 0)) ∧
  (∃ (t : Nat) (core : Nat) (w : BitVec 26) (s₀ : State), grvReady 0x1A fmtM t core w s₀ = true ∧ (let x := grvCore core s₀; let f := w.toNat; (x.post (bit f 15) (fld f 19 3) (fld f 16 3) = none))) ∧
  (∃ (t : Nat) (core : Nat) (w : BitVec 26) (s₀ : State), grvReady 0x1A fmtM t core w s₀ = true ∧ (let s := advance s₀ t; let x := grvCore core s₀; let f := w.toNat; let a := (x.rdX x.bank (fld f 19 3)).toNat; ((x.post (bit f 15) (fld f 19 3) (fld f 16 3)).isSome = true) ∧ (resolve s core a 2 true = .bad))) ∧
  (∃ (t : Nat) (core : Nat) (w : BitVec 26) (s₀ : State), grvReady 0x1A fmtM t core w s₀ = true ∧ (let s := advance s₀ t; let x := grvCore core s₀; let f := w.toNat; let a := (x.rdX x.bank (fld f 19 3)).toNat; ((x.post (bit f 15) (fld f 19 3) (fld f 16 3)).isSome = true) ∧ (((match resolve s core a 2 true with | .pad _ _ => true | _ => false) = true)))) ∧
  (∃ (t : Nat) (core : Nat) (w : BitVec 26) (s₀ : State), grvReady 0x1A fmtM t core w s₀ = true ∧ (let s := advance s₀ t; let x := grvCore core s₀; let f := w.toNat; let a := (x.rdX x.bank (fld f 19 3)).toNat; ((x.post (bit f 15) (fld f 19 3) (fld f 16 3)).isSome = true) ∧ (((match resolve s core a 2 true with | .com _ _ => true | _ => false) = true)))) ∧
  -- ST (R320)
  (∃ (core : Nat) (s₀ : State), s₀.pwr.down = false ∧ ((s₀.core core).st ≠ 1 ∨ (s₀.core core).stall ≠ 0)) ∧
  (∃ (t : Nat) (core : Nat) (w : BitVec 26) (s₀ : State), grvReady 0x1B fmtM t core w s₀ = true ∧ (let x := grvCore core s₀; let f := w.toNat; (x.post (bit f 15) (fld f 19 3) (fld f 16 3) = none))) := by
  refine ⟨⟨0, ready, ?_⟩, ⟨1000000, 0, 32768#26, withWord 25 32768 (coreAt { st := 1, m0 := [(0, 0x40000000)] }), ?_⟩, ⟨1000000, 0, 0#26, withWord 25 0 (coreAt { st := 1, x0 := [(0, 1)] }), ?_⟩, ⟨1000000, 0, 0#26, withWord 25 0 (coreAt { st := 1 }), ?_⟩, ⟨1000000, 0, 0#26, withWord 25 0 (coreAt { st := 1, x0 := [(0, 0x1000000)] }), ?_⟩, ⟨0, ready, ?_⟩, ⟨1000000, 0, 32768#26, withWord 26 32768 (coreAt { st := 1, m0 := [(0, 0x40000000)] }), ?_⟩, ⟨1000000, 0, 0#26, withWord 26 0 (coreAt { st := 1, x0 := [(0, 1)] }), ?_⟩, ⟨1000000, 0, 0#26, withWord 26 0 (coreAt { st := 1 }), ?_⟩, ⟨1000000, 0, 0#26, withWord 26 0 (coreAt { st := 1, x0 := [(0, 0x1000000)] }), ?_⟩, ⟨0, ready, ?_⟩, ⟨1000000, 0, 32768#26, withWord 27 32768 (coreAt { st := 1, m0 := [(0, 0x40000000)] }), ?_⟩⟩ <;> decide +kernel

/-- Operands and states that meet the hypotheses of each clause of GroveMemoryOps. Part 2. -/
theorem witness_GroveMemoryOps_part2 :
  -- ST (R320)
  (∃ (t : Nat) (core : Nat) (w : BitVec 26) (s₀ : State), grvReady 0x1B fmtM t core w s₀ = true ∧ (let s := advance s₀ t; let x := grvCore core s₀; let f := w.toNat; let a := (x.rdX x.bank (fld f 19 3)).toNat; ((x.post (bit f 15) (fld f 19 3) (fld f 16 3)).isSome = true) ∧ (resolve s core a 4 true = .bad))) ∧
  (∃ (t : Nat) (core : Nat) (w : BitVec 26) (s₀ : State), grvReady 0x1B fmtM t core w s₀ = true ∧ (let s := advance s₀ t; let x := grvCore core s₀; let f := w.toNat; let a := (x.rdX x.bank (fld f 19 3)).toNat; ((x.post (bit f 15) (fld f 19 3) (fld f 16 3)).isSome = true) ∧ (resolve s core a 4 true ≠ .bad))) ∧
  -- STH (R320)
  (∃ (core : Nat) (s₀ : State), s₀.pwr.down = false ∧ ((s₀.core core).st ≠ 1 ∨ (s₀.core core).stall ≠ 0)) ∧
  (∃ (t : Nat) (core : Nat) (w : BitVec 26) (s₀ : State), grvReady 0x1C fmtM t core w s₀ = true ∧ (let x := grvCore core s₀; let f := w.toNat; (x.post (bit f 15) (fld f 19 3) (fld f 16 3) = none))) ∧
  (∃ (t : Nat) (core : Nat) (w : BitVec 26) (s₀ : State), grvReady 0x1C fmtM t core w s₀ = true ∧ (let s := advance s₀ t; let x := grvCore core s₀; let f := w.toNat; let a := (x.rdX x.bank (fld f 19 3)).toNat; ((x.post (bit f 15) (fld f 19 3) (fld f 16 3)).isSome = true) ∧ (resolve s core a 2 true = .bad))) ∧
  (∃ (t : Nat) (core : Nat) (w : BitVec 26) (s₀ : State), grvReady 0x1C fmtM t core w s₀ = true ∧ (let s := advance s₀ t; let x := grvCore core s₀; let f := w.toNat; let a := (x.rdX x.bank (fld f 19 3)).toNat; ((x.post (bit f 15) (fld f 19 3) (fld f 16 3)).isSome = true) ∧ (resolve s core a 2 true ≠ .bad))) ∧
  -- STA (R327)
  (∃ (core : Nat) (s₀ : State), s₀.pwr.down = false ∧ ((s₀.core core).st ≠ 1 ∨ (s₀.core core).stall ≠ 0)) ∧
  (∃ (t : Nat) (core : Nat) (w : BitVec 26) (s₀ : State), grvReady 0x1D [(22, 3), (19, 3), (16, 3), (15, 1), (11, 4)] t core w s₀ = true ∧ (let x := grvCore core s₀; let f := w.toNat; (x.post (bit f 15) (fld f 19 3) (fld f 16 3) = none))) ∧
  (∃ (t : Nat) (core : Nat) (w : BitVec 26) (s₀ : State), grvReady 0x1D [(22, 3), (19, 3), (16, 3), (15, 1), (11, 4)] t core w s₀ = true ∧ (let s := advance s₀ t; let x := grvCore core s₀; let f := w.toNat; let a := (x.rdX x.bank (fld f 19 3)).toNat; ((x.post (bit f 15) (fld f 19 3) (fld f 16 3)).isSome = true) ∧ (resolve s core a 4 false = .bad))) ∧
  (∃ (t : Nat) (core : Nat) (w : BitVec 26) (s₀ : State), grvReady 0x1D [(22, 3), (19, 3), (16, 3), (15, 1), (11, 4)] t core w s₀ = true ∧ (let s := advance s₀ t; let x := grvCore core s₀; let f := w.toNat; let a := (x.rdX x.bank (fld f 19 3)).toNat; ((x.post (bit f 15) (fld f 19 3) (fld f 16 3)).isSome = true) ∧ (resolve s core a 4 false ≠ .bad))) ∧
  -- VSTA (R327)
  (∃ (core : Nat) (s₀ : State), s₀.pwr.down = false ∧ ((s₀.core core).st ≠ 1 ∨ (s₀.core core).stall ≠ 0)) ∧
  (∃ (t : Nat) (core : Nat) (w : BitVec 26) (s₀ : State), grvReady 0x1E [(22, 4), (19, 3), (16, 3), (15, 1), (11, 4)] t core w s₀ = true ∧ (let f := w.toNat; let g := fld f 22 4; (g ≠ 0 ∧ g ≠ 4))) := by
  refine ⟨⟨1000000, 0, 0#26, withWord 27 0 (coreAt { st := 1, x0 := [(0, 1)] }), ?_⟩, ⟨1000000, 0, 0#26, withWord 27 0 (coreAt { st := 1 }), ?_⟩, ⟨0, ready, ?_⟩, ⟨1000000, 0, 32768#26, withWord 28 32768 (coreAt { st := 1, m0 := [(0, 0x40000000)] }), ?_⟩, ⟨1000000, 0, 0#26, withWord 28 0 (coreAt { st := 1, x0 := [(0, 1)] }), ?_⟩, ⟨1000000, 0, 0#26, withWord 28 0 (coreAt { st := 1 }), ?_⟩, ⟨0, ready, ?_⟩, ⟨1000000, 0, 32768#26, withWord 29 32768 (coreAt { st := 1, m0 := [(0, 0x40000000)] }), ?_⟩, ⟨1000000, 0, 0#26, withWord 29 0 (coreAt { st := 1, x0 := [(0, 1)] }), ?_⟩, ⟨1000000, 0, 0#26, withWord 29 0 (coreAt { st := 1 }), ?_⟩, ⟨0, ready, ?_⟩, ⟨1000000, 0, 64550912#26, withWord 30 64550912 rich, ?_⟩⟩ <;> decide +kernel

/-- Operands and states that meet the hypotheses of each clause of GroveMemoryOps. Part 3. -/
theorem witness_GroveMemoryOps_part3 :
  -- VSTA (R327)
  (∃ (t : Nat) (core : Nat) (w : BitVec 26) (s₀ : State), grvReady 0x1E [(22, 4), (19, 3), (16, 3), (15, 1), (11, 4)] t core w s₀ = true ∧ (let x := grvCore core s₀; let f := w.toNat; let g := fld f 22 4; (g = 0 ∨ g = 4) ∧ (x.vec (fld f 19 3) (fld f 16 3) = none ∨ x.post (bit f 15) (fld f 19 3) (fld f 16 3) = none))) ∧
  (∃ (t : Nat) (core : Nat) (w : BitVec 26) (s₀ : State), grvReady 0x1E [(22, 4), (19, 3), (16, 3), (15, 1), (11, 4)] t core w s₀ = true ∧ (let s := advance s₀ t; let x := grvCore core s₀; let f := w.toNat; let g := fld f 22 4; (g = 0 ∨ g = 4) ∧ ((x.vec (fld f 19 3) (fld f 16 3)).isSome = true) ∧ ((x.post (bit f 15) (fld f 19 3) (fld f 16 3)).isSome = true) ∧ ((((x.vec (fld f 19 3) (fld f 16 3)).getD []).find? (fun a => resolve s core a 4 false == .bad)).isSome = true))) ∧
  (∃ (t : Nat) (core : Nat) (w : BitVec 26) (s₀ : State), grvReady 0x1E [(22, 4), (19, 3), (16, 3), (15, 1), (11, 4)] t core w s₀ = true ∧ (let s := advance s₀ t; let x := grvCore core s₀; let f := w.toNat; let g := fld f 22 4; (g = 0 ∨ g = 4) ∧ ((x.vec (fld f 19 3) (fld f 16 3)).isSome = true) ∧ ((x.post (bit f 15) (fld f 19 3) (fld f 16 3)).isSome = true) ∧ ((((x.vec (fld f 19 3) (fld f 16 3)).getD []).find? (fun a => resolve s core a 4 false == .bad)).isSome = false))) ∧
  -- RDA (R327)
  (∃ (core : Nat) (s₀ : State), s₀.pwr.down = false ∧ ((s₀.core core).st ≠ 1 ∨ (s₀.core core).stall ≠ 0)) ∧
  (∃ (t : Nat) (core : Nat) (w : BitVec 26) (s₀ : State), grvReady 0x1F [(22, 4), (19, 3), (15, 4)] t core w s₀ = true) := by
  refine ⟨⟨1000000, 0, 32768#26, withWord 30 32768 (coreAt { st := 1, m0 := [(0, 0x40000000)] }), ?_⟩, ⟨1000000, 0, 0#26, withWord 30 0 (coreAt { st := 1, x0 := [(0, 1)] }), ?_⟩, ⟨1000000, 0, 0#26, withWord 30 0 rich, ?_⟩, ⟨0, ready, ?_⟩, ⟨1000000, 0, 0#26, withWord 31 0 rich, ?_⟩⟩ <;> decide +kernel

/-- Operands and states that meet the hypotheses of each clause of GroveAccumulatorOps. Part 1. -/
theorem witness_GroveAccumulatorOps_part1 :
  -- VMAC_D (R326)
  (∃ (core : Nat) (s₀ : State), s₀.pwr.down = false ∧ ((s₀.core core).st ≠ 1 ∨ (s₀.core core).stall ≠ 0)) ∧
  (∃ (t : Nat) (core : Nat) (w : BitVec 26) (s₀ : State), grvReady 0x20 fmtV t core w s₀ = true ∧ (let s := advance s₀ t; let x := grvCore core s₀; let f := w.toNat; (((match vecOps s core x f true with | .error _ => true | _ => false) = true)))) ∧
  (∃ (t : Nat) (core : Nat) (w : BitVec 26) (s₀ : State), grvReady 0x20 fmtV t core w s₀ = true ∧ (let s := advance s₀ t; let x := grvCore core s₀; let f := w.toNat; (((match vecOps s core x f true with | .ok _ => true | _ => false) = true)))) ∧
  -- VMAC_P (R326)
  (∃ (core : Nat) (s₀ : State), s₀.pwr.down = false ∧ ((s₀.core core).st ≠ 1 ∨ (s₀.core core).stall ≠ 0)) ∧
  (∃ (t : Nat) (core : Nat) (w : BitVec 26) (s₀ : State), grvReady 0x21 fmtV t core w s₀ = true ∧ (let f := w.toNat; (fld f 23 3 ≠ 0 ∧ fld f 23 3 ≠ 4))) ∧
  (∃ (t : Nat) (core : Nat) (w : BitVec 26) (s₀ : State), grvReady 0x21 fmtV t core w s₀ = true ∧ (let s := advance s₀ t; let x := grvCore core s₀; let f := w.toNat; (fld f 23 3 = 0 ∨ fld f 23 3 = 4) ∧ (((match vecOps s core x f true with | .error _ => true | _ => false) = true)))) ∧
  (∃ (t : Nat) (core : Nat) (w : BitVec 26) (s₀ : State), grvReady 0x21 fmtV t core w s₀ = true ∧ (let s := advance s₀ t; let x := grvCore core s₀; let f := w.toNat; (fld f 23 3 = 0 ∨ fld f 23 3 = 4) ∧ (((match vecOps s core x f true with | .ok _ => true | _ => false) = true)))) ∧
  -- VMAG_P (R326)
  (∃ (core : Nat) (s₀ : State), s₀.pwr.down = false ∧ ((s₀.core core).st ≠ 1 ∨ (s₀.core core).stall ≠ 0)) ∧
  (∃ (t : Nat) (core : Nat) (w : BitVec 26) (s₀ : State), grvReady 0x22 [(23, 3), (20, 3), (17, 3), (9, 1), (8, 1), (7, 1)] t core w s₀ = true ∧ (let f := w.toNat; (fld f 23 3 ≠ 0 ∧ fld f 23 3 ≠ 4))) ∧
  (∃ (t : Nat) (core : Nat) (w : BitVec 26) (s₀ : State), grvReady 0x22 [(23, 3), (20, 3), (17, 3), (9, 1), (8, 1), (7, 1)] t core w s₀ = true ∧ (let s := advance s₀ t; let x := grvCore core s₀; let f := w.toNat; (fld f 23 3 = 0 ∨ fld f 23 3 = 4) ∧ (((match vecOps s core x f false with | .error _ => true | _ => false) = true)))) ∧
  (∃ (t : Nat) (core : Nat) (w : BitVec 26) (s₀ : State), grvReady 0x22 [(23, 3), (20, 3), (17, 3), (9, 1), (8, 1), (7, 1)] t core w s₀ = true ∧ (let s := advance s₀ t; let x := grvCore core s₀; let f := w.toNat; (fld f 23 3 = 0 ∨ fld f 23 3 = 4) ∧ (((match vecOps s core x f false with | .ok _ => true | _ => false) = true)))) ∧
  -- CMAC (R326)
  (∃ (core : Nat) (s₀ : State), s₀.pwr.down = false ∧ ((s₀.core core).st ≠ 1 ∨ (s₀.core core).stall ≠ 0)) := by
  refine ⟨⟨0, ready, ?_⟩, ⟨1000000, 0, 128#26, withWord 32 128 (coreAt { st := 1, m0 := [(0, 0x40000000)] }), ?_⟩, ⟨1000000, 0, 0#26, withWord 32 0 rich, ?_⟩, ⟨0, ready, ?_⟩, ⟨1000000, 0, 64000000#26, withWord 33 64000000 rich, ?_⟩, ⟨1000000, 0, 128#26, withWord 33 128 (coreAt { st := 1, m0 := [(0, 0x40000000)] }), ?_⟩, ⟨1000000, 0, 0#26, withWord 33 0 rich, ?_⟩, ⟨0, ready, ?_⟩, ⟨0, 0, 60162048#26, withWord 34 60162048 rich, ?_⟩, ⟨1000000, 0, 128#26, withWord 34 128 (coreAt { st := 1, m0 := [(0, 0x40000000)] }), ?_⟩, ⟨1000000, 0, 0#26, withWord 34 0 rich, ?_⟩, ⟨0, ready, ?_⟩⟩ <;> decide +kernel

/-- Operands and states that meet the hypotheses of each clause of GroveAccumulatorOps. Part 2. -/
theorem witness_GroveAccumulatorOps_part2 :
  -- CMAC (R326)
  (∃ (t : Nat) (core : Nat) (w : BitVec 26) (s₀ : State), grvReady 0x23 [(23, 3), (18, 4), (14, 4), (10, 1), (9, 1), (8, 1)] t core w s₀ = true) := ⟨1000000, 0, 0#26, withWord 35 0 rich, by decide +kernel⟩

/-- Operands and states that meet the hypotheses of each clause of GroveControlOps. Part 1. -/
theorem witness_GroveControlOps_part1 :
  -- BR (R331)
  (∃ (core : Nat) (s₀ : State), s₀.pwr.down = false ∧ ((s₀.core core).st ≠ 1 ∨ (s₀.core core).stall ≠ 0)) ∧
  (∃ (t : Nat) (core : Nat) (w : BitVec 26) (s₀ : State), grvReady 0x28 [(22, 4), (19, 3), (0, 18)] t core w s₀ = true ∧ (let x := grvCore core s₀; let f := w.toNat; (brCond (fld f 19 3) (x.rdG x.bank (fld f 22 4)) = none))) ∧
  (∃ (t : Nat) (core : Nat) (w : BitVec 26) (s₀ : State), grvReady 0x28 [(22, 4), (19, 3), (0, 18)] t core w s₀ = true ∧ (let x := grvCore core s₀; let f := w.toNat; ((brCond (fld f 19 3) (x.rdG x.bank (fld f 22 4))).isSome = true))) ∧
  -- CALL (R331)
  (∃ (core : Nat) (s₀ : State), s₀.pwr.down = false ∧ ((s₀.core core).st ≠ 1 ∨ (s₀.core core).stall ≠ 0)) ∧
  (∃ (t : Nat) (core : Nat) (w : BitVec 26) (s₀ : State), grvReady 0x29 [(0, 18)] t core w s₀ = true) ∧
  -- JR (R331)
  (∃ (core : Nat) (s₀ : State), s₀.pwr.down = false ∧ ((s₀.core core).st ≠ 1 ∨ (s₀.core core).stall ≠ 0)) ∧
  (∃ (t : Nat) (core : Nat) (w : BitVec 26) (s₀ : State), grvReady 0x2A [(22, 4)] t core w s₀ = true ∧ (let x := grvCore core s₀; let f := w.toNat; let g := (x.rdG x.bank (fld f 22 4)).toNat; (g % 4 ≠ 0))) ∧
  (∃ (t : Nat) (core : Nat) (w : BitVec 26) (s₀ : State), grvReady 0x2A [(22, 4)] t core w s₀ = true ∧ (let x := grvCore core s₀; let f := w.toNat; let g := (x.rdG x.bank (fld f 22 4)).toNat; (g % 4 = 0))) ∧
  -- REPEAT (R332)
  (∃ (core : Nat) (s₀ : State), s₀.pwr.down = false ∧ ((s₀.core core).st ≠ 1 ∨ (s₀.core core).stall ≠ 0)) ∧
  (∃ (t : Nat) (core : Nat) (w : BitVec 26) (s₀ : State), grvReady 0x2B [(0, 16)] t core w s₀ = true) ∧
  -- REPR (R332)
  (∃ (core : Nat) (s₀ : State), s₀.pwr.down = false ∧ ((s₀.core core).st ≠ 1 ∨ (s₀.core core).stall ≠ 0)) ∧
  (∃ (t : Nat) (core : Nat) (w : BitVec 26) (s₀ : State), grvReady 0x2C [(22, 4)] t core w s₀ = true ∧ (let x := grvCore core s₀; let f := w.toNat; let k := (x.rdG x.bank (fld f 22 4)).toNat; (65535 < k))) := by
  refine ⟨⟨0, ready, ?_⟩, ⟨2000000, 0, 3670016#26, withWord 40 3670016 rich, ?_⟩, ⟨1000000, 0, 0#26, withWord 40 0 rich, ?_⟩, ⟨0, ready, ?_⟩, ⟨1000000, 0, 0#26, withWord 41 0 rich, ?_⟩, ⟨0, ready, ?_⟩, ⟨1000000, 0, 0#26, withWord 42 0 (coreAt { st := 1, g0 := [(0, 2)] }), ?_⟩, ⟨1000000, 0, 0#26, withWord 42 0 rich, ?_⟩, ⟨0, ready, ?_⟩, ⟨1000000, 0, 0#26, withWord 43 0 rich, ?_⟩, ⟨0, ready, ?_⟩, ⟨1000000, 0, 0#26, withWord 44 0 (coreAt { st := 1, g0 := [(0, 65536)] }), ?_⟩⟩ <;> decide +kernel

/-- Operands and states that meet the hypotheses of each clause of GroveControlOps. Part 2. -/
theorem witness_GroveControlOps_part2 :
  -- REPR (R332)
  (∃ (t : Nat) (core : Nat) (w : BitVec 26) (s₀ : State), grvReady 0x2C [(22, 4)] t core w s₀ = true ∧ (let x := grvCore core s₀; let f := w.toNat; let k := (x.rdG x.bank (fld f 22 4)).toNat; (¬(65535 < k)))) ∧
  -- RETI (R337)
  (∃ (core : Nat) (s₀ : State), s₀.pwr.down = false ∧ ((s₀.core core).st ≠ 1 ∨ (s₀.core core).stall ≠ 0)) ∧
  (∃ (t : Nat) (core : Nat) (w : BitVec 26) (s₀ : State), grvReady 0x2D [] t core w s₀ = true ∧ (let x := grvCore core s₀; (x.inh = false))) ∧
  (∃ (t : Nat) (core : Nat) (w : BitVec 26) (s₀ : State), grvReady 0x2D [] t core w s₀ = true ∧ (let x := grvCore core s₀; (x.inh = true))) ∧
  -- WAIT (R335)
  (∃ (core : Nat) (s₀ : State), s₀.pwr.down = false ∧ ((s₀.core core).st ≠ 1 ∨ (s₀.core core).stall ≠ 0)) ∧
  (∃ (t : Nat) (core : Nat) (w : BitVec 26) (s₀ : State), grvReady 0x2E [] t core w s₀ = true) ∧
  -- HALT (R340)
  (∃ (core : Nat) (s₀ : State), s₀.pwr.down = false ∧ ((s₀.core core).st ≠ 1 ∨ (s₀.core core).stall ≠ 0)) ∧
  (∃ (t : Nat) (core : Nat) (w : BitVec 26) (s₀ : State), grvReady 0x2F [] t core w s₀ = true) := by
  refine ⟨⟨1000000, 0, 0#26, withWord 44 0 rich, ?_⟩, ⟨0, ready, ?_⟩, ⟨1000000, 0, 0#26, withWord 45 0 rich, ?_⟩, ⟨1000000, 0, 0#26, withWord 45 0 inHandler, ?_⟩, ⟨0, ready, ?_⟩, ⟨1000000, 0, 0#26, withWord 46 0 rich, ?_⟩, ⟨0, ready, ?_⟩, ⟨1000000, 0, 0#26, withWord 47 0 rich, ?_⟩⟩ <;> decide +kernel

/-- Operands and states that meet the hypotheses of each clause of GroveSyncOps. Part 1. -/
theorem witness_GroveSyncOps_part1 :
  -- BAR (R341)
  (∃ (core : Nat) (s₀ : State), s₀.pwr.down = false ∧ ((s₀.core core).st ≠ 1 ∨ (s₀.core core).stall ≠ 0)) ∧
  (∃ (t : Nat) (core : Nat) (w : BitVec 26) (s₀ : State), grvReady 0x30 [(0, 3)] t core w s₀ = true ∧ (let s := advance s₀ t; let f := w.toNat; let k := fld f 0 3; let b := s.bar k; ((!b.on || !bit b.members core) = true))) ∧
  (∃ (t : Nat) (core : Nat) (w : BitVec 26) (s₀ : State), grvReady 0x30 [(0, 3)] t core w s₀ = true ∧ (let s := advance s₀ t; let f := w.toNat; let k := fld f 0 3; let b := s.bar k; ((!b.on || !bit b.members core) = false) ∧ (b.broken = true))) ∧
  (∃ (t : Nat) (core : Nat) (w : BitVec 26) (s₀ : State), grvReady 0x30 [(0, 3)] t core w s₀ = true ∧ (let s := advance s₀ t; let f := w.toNat; let k := fld f 0 3; let b := s.bar k; let arr := b.arrived ||| 2^core; ((!b.on || !bit b.members core) = false) ∧ (b.broken = false) ∧ (arr = b.members))) ∧
  (∃ (t : Nat) (core : Nat) (w : BitVec 26) (s₀ : State), grvReady 0x30 [(0, 3)] t core w s₀ = true ∧ (let s := advance s₀ t; let f := w.toNat; let k := fld f 0 3; let b := s.bar k; let arr := b.arrived ||| 2^core; ((!b.on || !bit b.members core) = false) ∧ (b.broken = false) ∧ (arr ≠ b.members))) ∧
  -- FREL (R343)
  (∃ (core : Nat) (s₀ : State), s₀.pwr.down = false ∧ ((s₀.core core).st ≠ 1 ∨ (s₀.core core).stall ≠ 0)) ∧
  (∃ (t : Nat) (core : Nat) (w : BitVec 26) (s₀ : State), grvReady 0x31 [(21, 5), (0, 16)] t core w s₀ = true ∧ (let s := advance s₀ t; let f := w.toNat; let i := fld f 21 5; let d := s.feed i; ((!d.on || decide (d.core ≠ core)) = true))) ∧
  (∃ (t : Nat) (core : Nat) (w : BitVec 26) (s₀ : State), grvReady 0x31 [(21, 5), (0, 16)] t core w s₀ = true ∧ (let s := advance s₀ t; let f := w.toNat; let i := fld f 21 5; let k := fld f 0 16; let d := s.feed i; let bad := if d.kind = 3 then decide (d.nbuf < d.handed + k) else decide ((d.feedCnt - d.coreCnt).toNat < k); ((!d.on || decide (d.core ≠ core)) = false) ∧ (bad = true))) ∧
  (∃ (t : Nat) (core : Nat) (w : BitVec 26) (s₀ : State), grvReady 0x31 [(21, 5), (0, 16)] t core w s₀ = true ∧ (let s := advance s₀ t; let f := w.toNat; let i := fld f 21 5; let k := fld f 0 16; let d := s.feed i; let bad := if d.kind = 3 then decide (d.nbuf < d.handed + k) else decide ((d.feedCnt - d.coreCnt).toNat < k); ((!d.on || decide (d.core ≠ core)) = false) ∧ (bad = false))) ∧
  -- SYNC (R320)
  (∃ (core : Nat) (s₀ : State), s₀.pwr.down = false ∧ ((s₀.core core).st ≠ 1 ∨ (s₀.core core).stall ≠ 0)) ∧
  (∃ (t : Nat) (core : Nat) (w : BitVec 26) (s₀ : State), grvReady 0x32 [] t core w s₀ = true) ∧
  -- NOTIFY (R329)
  (∃ (core : Nat) (s₀ : State), s₀.pwr.down = false ∧ ((s₀.core core).st ≠ 1 ∨ (s₀.core core).stall ≠ 0)) := by
  refine ⟨⟨0, ready, ?_⟩, ⟨1000000, 0, 0#26, withWord 48 0 rich, ?_⟩, ⟨1000000, 0, 0#26, withWord 48 0 ({ coreAt { st := 1 } with grove := { cores := [(0, { st := 1 })], barriers := [(0, { on := true, members := 3, broken := true })] } }), ?_⟩, ⟨1000000, 0, 0#26, withWord 48 0 ({ coreAt { st := 1 } with grove := { cores := [(0, { st := 1 })], barriers := [(0, { on := true, members := 3, arrived := 2 })] } }), ?_⟩, ⟨1000000, 0, 0#26, withWord 48 0 ({ coreAt { st := 1 } with grove := { cores := [(0, { st := 1 })], barriers := [(0, { on := true, members := 3 })] } }), ?_⟩, ⟨0, ready, ?_⟩, ⟨1000000, 0, 0#26, withWord 49 0 rich, ?_⟩, ⟨1000000, 0, 1#26, withWord 49 1 ({ coreAt { st := 1 } with grove := { cores := [(0, { st := 1 })], feeds := [(0, { on := true, kind := 2, feedCnt := 0 })] } }), ?_⟩, ⟨1000000, 0, 1#26, withWord 49 1 ({ coreAt { st := 1 } with grove := { cores := [(0, { st := 1 })], feeds := [(0, { on := true, kind := 2, feedCnt := 1 })] } }), ?_⟩, ⟨0, ready, ?_⟩, ⟨1000000, 0, 0#26, withWord 50 0 rich, ?_⟩, ⟨0, ready, ?_⟩⟩ <;> decide +kernel

/-- Operands and states that meet the hypotheses of each clause of GroveSyncOps. Part 2. -/
theorem witness_GroveSyncOps_part2 :
  -- NOTIFY (R329)
  (∃ (t : Nat) (core : Nat) (w : BitVec 26) (s₀ : State), grvReady 0x33 [(22, 4)] t core w s₀ = true ∧ (let x := grvCore core s₀; let f := w.toNat; let m := (x.rdG x.bank (fld f 22 4)).toNat % 64; (m = core))) ∧
  (∃ (t : Nat) (core : Nat) (w : BitVec 26) (s₀ : State), grvReady 0x33 [(22, 4)] t core w s₀ = true ∧ (let x := grvCore core s₀; let f := w.toNat; let m := (x.rdG x.bank (fld f 22 4)).toNat % 64; (m ≠ core))) ∧
  -- POST (R357)
  (∃ (core : Nat) (s₀ : State), s₀.pwr.down = false ∧ ((s₀.core core).st ≠ 1 ∨ (s₀.core core).stall ≠ 0)) ∧
  (∃ (t : Nat) (core : Nat) (w : BitVec 26) (s₀ : State), grvReady 0x34 [(22, 4), (18, 4), (0, 16)] t core w s₀ = true ∧ (let s := advance s₀ t; let x := grvCore core s₀; let per := s.now / 1600; (x.userAt = some per))) ∧
  (∃ (t : Nat) (core : Nat) (w : BitVec 26) (s₀ : State), grvReady 0x34 [(22, 4), (18, 4), (0, 16)] t core w s₀ = true ∧ (let s := advance s₀ t; let x := grvCore core s₀; let per := s.now / 1600; (x.userAt ≠ some per))) := by
  refine ⟨⟨1000000, 0, 0#26, withWord 51 0 rich, ?_⟩, ⟨1000000, 0, 0#26, withWord 51 0 (coreAt { st := 1, g0 := [(0, 1)] }), ?_⟩, ⟨0, ready, ?_⟩, ⟨1000000, 0, 0#26, withWord 52 0 (coreAt { st := 1, userAt := some 625 }), ?_⟩, ⟨1000000, 0, 0#26, withWord 52 0 rich, ?_⟩⟩ <;> decide +kernel

/-- Operands and states that meet the hypotheses of each clause of HostDoorbells. -/
theorem witness_HostDoorbells :
  -- SQ_TAIL_WRITE (R453)
  (∃ (s₀ : State), s₀.pwr.down = false) ∧
  -- CQ_HEAD_WRITE (R453)
  (∃ (s₀ : State), s₀.pwr.down = false) ∧
  -- EVT_HEAD_WRITE (R453)
  (∃ (s₀ : State), s₀.pwr.down = false) ∧
  -- STRDB_WRITE (R412)
  (∃ (s₀ : State), s₀.pwr.down = false) ∧
  -- QCTL_OPEN (R454)
  (∃ (s₀ : State), s₀.pwr.down = false) ∧
  -- QCTL_RECLAIM (R456)
  (∃ (s₀ : State), s₀.pwr.down = false) ∧
  -- QCTL_CLOSE (R457)
  (∃ (s₀ : State), s₀.pwr.down = false) ∧
  -- LEASE_WRITE (R455)
  (∃ (s₀ : State), s₀.pwr.down = false) ∧
  -- EVT_CTL_WRITE (R462)
  (∃ (s₀ : State), s₀.pwr.down = false) ∧
  -- CTL_CODE_WRITE (R491)
  (∃ (s₀ : State), s₀.pwr.down = false) := by
  refine ⟨⟨ready, ?_⟩, ⟨ready, ?_⟩, ⟨ready, ?_⟩, ⟨ready, ?_⟩, ⟨ready, ?_⟩, ⟨ready, ?_⟩, ⟨ready, ?_⟩, ⟨ready, ?_⟩, ⟨ready, ?_⟩, ⟨ready, ?_⟩⟩ <;> decide +kernel

/-- Operands and states that meet the hypotheses of each clause of HostRegisters. -/
theorem witness_HostRegisters :
  -- TIME0_READ (R452)
  (∃ (s₀ : State), s₀.pwr.down = false) ∧
  -- SERIAL0_READ (R452)
  (∃ (s₀ : State), s₀.pwr.down = false) ∧
  -- LATCHED_WORD_READ (R452)
  (∃ (s₀ : State), s₀.pwr.down = false) ∧
  -- AUX_DATA_READ (R485)
  (∃ (s₀ : State), s₀.pwr.down = false) ∧
  -- REGISTER_WRITE (R451)
  (∃ (s₀ : State), s₀.pwr.down = false) ∧
  -- CONFIG_WRITE (R449)
  (∃ (s₀ : State), s₀.pwr.down = false) ∧
  -- MSIX_TABLE_WRITE (R463)
  (∃ (v : Nat) (s₀ : State), s₀.pwr.down = false ∧ (64 ≤ v)) ∧
  (∃ (v : Nat) (s₀ : State), s₀.pwr.down = false ∧ (¬(64 ≤ v))) ∧
  -- HP_LINK_UP (R448)
  (∃ (t : Nat) (rate : Nat) (width : Nat) (flit : Bool) (s₀ : State), s₀.pwr.down = false ∧ (let s := advance s₀ t; ((!s.pwr.perst || (s.pll 3).st ≠ 4 || !linkLegal rate width flit) = true))) ∧
  (∃ (t : Nat) (rate : Nat) (width : Nat) (flit : Bool) (s₀ : State), s₀.pwr.down = false ∧ (let s := advance s₀ t; ((!s.pwr.perst || (s.pll 3).st ≠ 4 || !linkLegal rate width flit) = false))) := by
  refine ⟨⟨ready, ?_⟩, ⟨ready, ?_⟩, ⟨ready, ?_⟩, ⟨ready, ?_⟩, ⟨ready, ?_⟩, ⟨ready, ?_⟩, ⟨2000000, ready, ?_⟩, ⟨0, ready, ?_⟩, ⟨1000000, 0, 0, false, ready, ?_⟩, ⟨2000000, 1, 2, false, ready, ?_⟩⟩ <;> decide +kernel

/-- Operands and states that meet the hypotheses of each clause of HostCommandFlow. Part 1. -/
theorem witness_HostCommandFlow_part1 :
  -- COMMAND_FETCH (R459)
  (∃ (c : Cmd) (s₀ : State), s₀.pwr.down = false ∧ (let s := advance s₀ c.t; let n := c.session.val; let x := s.ses n; ((x.st ≠ 1 || x.fetcherr || !s.host.busMaster || s.flt.cpDead || x.sqHead = x.sqTail) = true))) ∧
  (∃ (c : Cmd) (s₀ : State), s₀.pwr.down = false ∧ (let s := advance s₀ c.t; let n := c.session.val; let x := s.ses n; ((x.st ≠ 1 || x.fetcherr || !s.host.busMaster || s.flt.cpDead || x.sqHead = x.sqTail) = false))) ∧
  -- COMMAND_TIMEOUT (R467)
  (∃ (s₀ : State), s₀.pwr.down = false) ∧
  -- COMPLETION_SIGNAL_HOLD_END (R463)
  (∃ (t : Nat) (n : Nat) (s₀ : State), s₀.pwr.down = false ∧ (let s := advance s₀ t; let r := s.cplR n; ((!r.held || s.now < r.holdUntil) = true))) ∧
  (∃ (t : Nat) (n : Nat) (s₀ : State), s₀.pwr.down = false ∧ (let s := advance s₀ t; let r := s.cplR n; ((!r.held || s.now < r.holdUntil) = false))) ∧
  -- EVENT_DELAY_EXPIRY (R463)
  (∃ (t : Nat) (s₀ : State), s₀.pwr.down = false ∧ (let s := advance s₀ t; ((!s.host.evtEnable || !evtIrq s || s.host.evtUnsig = 0 || s.now < evtOldest s + 1600 * fld s.host.evtDelay.toNat 0 16) = true))) ∧
  (∃ (t : Nat) (s₀ : State), s₀.pwr.down = false ∧ (let s := advance s₀ t; ((!s.host.evtEnable || !evtIrq s || s.host.evtUnsig = 0 || s.now < evtOldest s + 1600 * fld s.host.evtDelay.toNat 0 16) = false))) ∧
  -- SYS_LEASE (R455)
  (∃ (t : Nat) (n : Nat) (s₀ : State), s₀.pwr.down = false ∧ (let s := advance s₀ t; let x := s.ses n; ((!x.leased || x.leaseWarn || 2 * (s.now - x.leaseFrom) < x.leaseSec * secondCt) = true))) ∧
  (∃ (t : Nat) (n : Nat) (s₀ : State), s₀.pwr.down = false ∧ (let s := advance s₀ t; let x := s.ses n; ((!x.leased || x.leaseWarn || 2 * (s.now - x.leaseFrom) < x.leaseSec * secondCt) = false))) ∧
  -- LEASE_EXPIRY (R455)
  (∃ (t : Nat) (n : Nat) (s₀ : State), s₀.pwr.down = false ∧ (let s := advance s₀ t; let x := s.ses n; ((!x.leased || s.now - x.leaseFrom < x.leaseSec * secondCt) = true))) ∧
  (∃ (t : Nat) (n : Nat) (s₀ : State), s₀.pwr.down = false ∧ (let s := advance s₀ t; let x := s.ses n; ((!x.leased || s.now - x.leaseFrom < x.leaseSec * secondCt) = false))) ∧
  -- RELEASE_END (R457)
  (∃ (t : Nat) (n : Nat) (s₀ : State), s₀.pwr.down = false ∧ (let s := advance s₀ t; (((s.ses n).st ≠ 3 || inProgOf s n ≠ 0 || s.host.cplWait.any (fun w => w.2.1 == n && decide (s.evTick ≤ w.1))) = true))) := by
  refine ⟨⟨cmd 1, ready, ?_⟩, ⟨cmd 1, { ready with host := { ready.host with sessions := [(0, { st := 1, qcfg := 0x44, sqTail := 1 })] } }, ?_⟩, ⟨ready, ?_⟩, ⟨1000000, 0, ready, ?_⟩, ⟨1000000, 0, { ready with host := { ready.host with cpls := [(0, { held := true, holdUntil := 1000000 })] } }, ?_⟩, ⟨1000000, ready, ?_⟩, ⟨1000000, { ready with host := { ready.host with evtEnable := true, evtCfg := 0x24, evtUnsig := 1 } }, ?_⟩, ⟨1000000, 0, ready, ?_⟩, ⟨800000000, 0, { ready with host := { ready.host with sessions := [(0, { st := 1, qcfg := 0x44, lease := 1 })] } }, ?_⟩, ⟨1000000, 0, ready, ?_⟩, ⟨1600000000, 0, { ready with host := { ready.host with sessions := [(0, { st := 1, qcfg := 0x44, lease := 1 })] } }, ?_⟩, ⟨1000000, 0, ready, ?_⟩⟩ <;> decide +kernel

/-- Operands and states that meet the hypotheses of each clause of HostCommandFlow. Part 2. -/
theorem witness_HostCommandFlow_part2 :
  -- RELEASE_END (R457)
  (∃ (t : Nat) (n : Nat) (s₀ : State), s₀.pwr.down = false ∧ (let s := advance s₀ t; (((s.ses n).st ≠ 3 || inProgOf s n ≠ 0 || s.host.cplWait.any (fun w => w.2.1 == n && decide (s.evTick ≤ w.1))) = false))) ∧
  -- HOST_INTERFACE_RESET (R450)
  (∃ (s₀ : State), s₀.pwr.down = true) ∧
  (∃ (s₀ : State), s₀.pwr.down = false) ∧
  -- HEARTBEAT_ADVANCE (R451)
  (∃ (t : Nat) (s₀ : State), s₀.pwr.down = false ∧ (let s := advance s₀ t; (((s.host.engine ≠ 1 && s.host.engine ≠ 2) || s.flt.cpDead || s.now < s.host.hbAt + periodCt) = true))) ∧
  (∃ (t : Nat) (s₀ : State), s₀.pwr.down = false ∧ (let s := advance s₀ t; (((s.host.engine ≠ 1 && s.host.engine ≠ 2) || s.flt.cpDead || s.now < s.host.hbAt + periodCt) = false))) := by
  refine ⟨⟨1000000, 0, { owned with host := { owned.host with sessions := [(0, { st := 3, qcfg := 0x44 })] } }, ?_⟩, ⟨{ ready with pwr := { powered := false } }, ?_⟩, ⟨ready, ?_⟩, ⟨1000000, ready, ?_⟩, ⟨1600000, ready, ?_⟩⟩ <;> decide +kernel

/-- Operands and states that meet the hypotheses of each clause of GrainRows. -/
theorem witness_GrainRows :
  -- GRAIN_TAG (R49)
  (∃ (s₀ : State), s₀.pwr.down = false) ∧
  -- OVERLOAD_END (R64)
  (∃ (s₀ : State), s₀.pwr.down = false) ∧
  -- EPOCH_ROLLOVER (R23)
  (∃ (t : Nat) (id : Nat) (s₀ : State), s₀.pwr.down = false ∧ (let s := advance s₀ t; let next := if id < 6 then (s.str id).cur.next else (s.ddc (id - 16)).next; let g := next / 2^48 * 2^48; let e := s.epoch id; ((!streamId id || !epochBegun s id || g ≤ e.ep0) = true))) ∧
  (∃ (t : Nat) (id : Nat) (s₀ : State), s₀.pwr.down = false ∧ (let s := advance s₀ t; let next := if id < 6 then (s.str id).cur.next else (s.ddc (id - 16)).next; let g := next / 2^48 * 2^48; let e := s.epoch id; ((!streamId id || !epochBegun s id || g ≤ e.ep0) = false))) ∧
  -- GRAIN_DELIVERY (R13)
  (∃ (t : Nat) (k : Nat) (id : Nat) (s₀ : State), s₀.pwr.down = false ∧ (let s := advance s₀ t; ((!streamId id || !boundTo s k id) = true))) ∧
  (∃ (t : Nat) (k : Nat) (id : Nat) (s₀ : State), s₀.pwr.down = false ∧ (let s := advance s₀ t; ((!streamId id || !boundTo s k id) = false))) ∧
  -- PROTECT_TRIP (R39)
  (∃ (t : Nat) (i : Nat) (s₀ : State), s₀.pwr.down = false ∧ (let s := advance s₀ t; let x := s.inp i; ((x.tripped || 4 ≤ i) = true))) ∧
  (∃ (t : Nat) (i : Nat) (s₀ : State), s₀.pwr.down = false ∧ (let s := advance s₀ t; let x := s.inp i; ((x.tripped || 4 ≤ i) = false))) ∧
  -- FE_STREAM_AT_CT (R61)
  (∃ (s₀ : State), s₀.pwr.down = false) := by
  refine ⟨⟨ready, ?_⟩, ⟨ready, ?_⟩, ⟨1000000, 0, ready, ?_⟩, ⟨1000000, 0, { owned with fe := { owned.fe with streams := [(0, { running := true, cur := { next := 2^48 } })] } }, ?_⟩, ⟨1000000, 0, 0, ready, ?_⟩, ⟨1000000, 0, 0, rich, ?_⟩, ⟨1000000, 55, ready, ?_⟩, ⟨1000000, 0, ready, ?_⟩, ⟨ready, ?_⟩⟩ <;> decide +kernel

/-- Operands and states that meet the hypotheses of each clause of SpectrumAndGovernorRows. -/
theorem witness_SpectrumAndGovernorRows :
  -- SPECTRUM_COMPUTE (R74)
  (∃ (t : Nat) (c : Nat) (s₀ : State), s₀.pwr.down = false ∧ (let s := advance s₀ t; ((!hasFront s c) = true))) ∧
  (∃ (t : Nat) (c : Nat) (s₀ : State), s₀.pwr.down = false ∧ (let s := advance s₀ t; ((!hasFront s c) = false))) ∧
  -- GOV_RAISE_STEP (R102)
  (∃ (s₀ : State), s₀.pwr.down = false) ∧
  -- GOV_LOWER_STEP (R102)
  (∃ (s₀ : State), s₀.pwr.down = false) ∧
  -- GOV_SHED (R104)
  (∃ (s₀ : State), s₀.pwr.down = false) ∧
  -- GOV_RESTORE (R104)
  (∃ (s₀ : State), s₀.pwr.down = false) ∧
  -- CEILING_RAMP_END (R103)
  (∃ (t : Nat) (s₀ : State), s₀.pwr.down = false ∧ (let s := advance s₀ t; ((!ceilingHeld s) = true))) ∧
  (∃ (t : Nat) (s₀ : State), s₀.pwr.down = false ∧ (let s := advance s₀ t; ((!ceilingHeld s) = false))) := by
  refine ⟨⟨1000000, 0, ready, ?_⟩, ⟨1000000, 0, rich, ?_⟩, ⟨ready, ?_⟩, ⟨ready, ?_⟩, ⟨ready, ?_⟩, ⟨ready, ?_⟩, ⟨1000000, ready, ?_⟩, ⟨1000000, { ready with spec := { vcore := 800, holds := [(0, true)] } }, ?_⟩⟩ <;> decide +kernel

/-- Operands and states that meet the hypotheses of each clause of AcquisitionRows. -/
theorem witness_AcquisitionRows :
  -- ACQ_ARM_AT_CT (R155)
  (∃ (s₀ : State), s₀.pwr.down = false) ∧
  -- TIME_TEST_VERDICT (R145)
  (∃ (s₀ : State), s₀.pwr.down = false) ∧
  -- EVT_OUT_PULSE (R149)
  (∃ (s₀ : State), s₀.pwr.down = false) ∧
  -- EVT_OUT_PULSE_END (R148)
  (∃ (s₀ : State), s₀.pwr.down = false) := by
  refine ⟨⟨ready, ?_⟩, ⟨ready, ?_⟩, ⟨ready, ?_⟩, ⟨ready, ?_⟩⟩ <;> decide +kernel

/-- Operands and states that meet the hypotheses of each clause of DensityAndDisplayRows. -/
theorem witness_DensityAndDisplayRows :
  -- DECAY_SWEEP (R169)
  (∃ (t : Nat) (s₀ : State), s₀.pwr.down = false ∧ (let s := advance s₀ t; (s.disp.sweepPer = periodOf s.now + 1))) ∧
  (∃ (t : Nat) (s₀ : State), s₀.pwr.down = false ∧ (let s := advance s₀ t; (¬(s.disp.sweepPer = periodOf s.now + 1)))) ∧
  -- DENS_READ_COPY_END (R171)
  (∃ (s₀ : State), s₀.pwr.down = false) ∧
  -- DENS_CLEAR_END (R170)
  (∃ (t : Nat) (i : Nat) (s₀ : State), s₀.pwr.down = false ∧ (let s := advance s₀ t; ((!(s.dmap i).clearing) = true))) ∧
  (∃ (t : Nat) (i : Nat) (s₀ : State), s₀.pwr.down = false ∧ (let s := advance s₀ t; ((!(s.dmap i).clearing) = false))) ∧
  -- DISP_LINE_START (R186)
  (∃ (s₀ : State), s₀.pwr.down = false) ∧
  -- FRAME_DONE (R190)
  (∃ (s₀ : State), s₀.pwr.down = false) := by
  refine ⟨⟨1000000, { ready with disp := { sweepPer := 1 } }, ?_⟩, ⟨1000000, ready, ?_⟩, ⟨ready, ?_⟩, ⟨1000000, 0, ready, ?_⟩, ⟨1000000, 0, { ready with disp := { maps := [(0, { clearing := true })] } }, ?_⟩, ⟨ready, ?_⟩, ⟨ready, ?_⟩⟩ <;> decide +kernel

/-- Operands and states that meet the hypotheses of each clause of DisplayLinkRows. Part 1. -/
theorem witness_DisplayLinkRows_part1 :
  -- HPD_LOSS (R180)
  (∃ (p : Nat) (s₀ : State), s₀.pwr.down = false ∧ (2 ≤ p)) ∧
  (∃ (p : Nat) (s₀ : State), s₀.pwr.down = false ∧ (¬(2 ≤ p))) ∧
  -- HPD_RESTORE (R180)
  (∃ (p : Nat) (s₀ : State), s₀.pwr.down = false ∧ (2 ≤ p)) ∧
  (∃ (p : Nat) (s₀ : State), s₀.pwr.down = false ∧ (¬(2 ≤ p))) ∧
  -- HPD_IRQ (R180)
  (∃ (p : Nat) (s₀ : State), s₀.pwr.down = false ∧ (2 ≤ p)) ∧
  (∃ (t : Nat) (p : Nat) (s₀ : State), s₀.pwr.down = false ∧ (let s := advance s₀ t; let x := s.port p; (¬(2 ≤ p)) ∧ ((x.mode = 0xF || !x.hpd) = true))) ∧
  (∃ (t : Nat) (p : Nat) (s₀ : State), s₀.pwr.down = false ∧ (let s := advance s₀ t; let x := s.port p; (¬(2 ≤ p)) ∧ ((x.mode = 0xF || !x.hpd) = false))) ∧
  -- PANEL_HPD_WAIT (R179)
  (∃ (s₀ : State), s₀.pwr.down = false) ∧
  -- BLDELAY_EXPIRY (R179)
  (∃ (p : Nat) (s₀ : State), s₀.pwr.down = false ∧ (2 ≤ p)) ∧
  (∃ (p : Nat) (s₀ : State), s₀.pwr.down = false ∧ (¬(2 ≤ p))) ∧
  -- VDDEN_OFF_DELAY (R179)
  (∃ (t : Nat) (p : Nat) (s₀ : State), s₀.pwr.down = false ∧ (let s := advance s₀ t; ((2 ≤ p || (s.port p).phase ≠ 7) = true))) ∧
  (∃ (t : Nat) (p : Nat) (s₀ : State), s₀.pwr.down = false ∧ (let s := advance s₀ t; ((2 ≤ p || (s.port p).phase ≠ 7) = false))) := by
  refine ⟨⟨55, ready, ?_⟩, ⟨0, ready, ?_⟩, ⟨1000000, ready, ?_⟩, ⟨0, ready, ?_⟩, ⟨6, ready, ?_⟩, ⟨1000000, 0, ready, ?_⟩, ⟨1000000, 0, { ready with disp := { ports := [(0, { mode := 0, hpd := true })] } }, ?_⟩, ⟨ready, ?_⟩, ⟨55, ready, ?_⟩, ⟨0, ready, ?_⟩, ⟨1000000, 0, ready, ?_⟩, ⟨1000000, 0, { ready with disp := { ports := [(0, { phase := 7 })] } }, ?_⟩⟩ <;> decide +kernel

/-- Operands and states that meet the hypotheses of each clause of DisplayLinkRows. Part 2. -/
theorem witness_DisplayLinkRows_part2 :
  -- VDDEN_LOW_TIME_EXPIRY (R179)
  (∃ (s₀ : State), s₀.pwr.down = false) ∧
  -- DISP_LINK_TRAINING_END (R178)
  (∃ (p : Nat) (s₀ : State), s₀.pwr.down = false ∧ (2 ≤ p)) ∧
  (∃ (p : Nat) (s₀ : State), s₀.pwr.down = false ∧ (¬(2 ≤ p))) ∧
  -- DISP_AUX_REPLY (R201)
  (∃ (t : Nat) (p : Nat) (s₀ : State), s₀.pwr.down = false ∧ (let s := advance s₀ t; ((2 ≤ p || !(s.port p).auxBusy) = true))) ∧
  (∃ (t : Nat) (p : Nat) (s₀ : State), s₀.pwr.down = false ∧ (let s := advance s₀ t; ((2 ≤ p || !(s.port p).auxBusy) = false))) := by
  refine ⟨⟨ready, ?_⟩, ⟨1000000, ready, ?_⟩, ⟨0, ready, ?_⟩, ⟨1000000, 0, ready, ?_⟩, ⟨1000000, 0, { ready with disp := { ports := [(0, { auxBusy := true })] } }, ?_⟩⟩ <;> decide +kernel

/-- Operands and states that meet the hypotheses of each clause of MonitorRows. -/
theorem witness_MonitorRows :
  -- MONITOR_ROUND (R212)
  (∃ (t : Nat) (s₀ : State), s₀.pwr.down = false ∧ (let s := advance s₀ t; ((s.now % 1600 ≠ 0 || s.mon.lastRound = roundNow s + 1) = true))) ∧
  (∃ (t : Nat) (s₀ : State), s₀.pwr.down = false ∧ (let s := advance s₀ t; ((s.now % 1600 ≠ 0 || s.mon.lastRound = roundNow s + 1) = false))) ∧
  -- MON_EVLOST (R221)
  (∃ (t : Nat) (s₀ : State), s₀.pwr.down = false ∧ (let s := advance s₀ t; let n := s.mon.evPer.ended s.now; (n = 0))) ∧
  (∃ (t : Nat) (s₀ : State), s₀.pwr.down = false ∧ (let s := advance s₀ t; let n := s.mon.evPer.ended s.now; (¬(n = 0)))) ∧
  -- MON_SNAPSHOT_WRITE_END (R223)
  (∃ (t : Nat) (s₀ : State), s₀.pwr.down = false ∧ (let s := advance s₀ t; ((!s.mon.snap) = true))) ∧
  (∃ (t : Nat) (s₀ : State), s₀.pwr.down = false ∧ (let s := advance s₀ t; ((!s.mon.snap) = false))) := by
  refine ⟨⟨1000001, ready, ?_⟩, ⟨1000000, ready, ?_⟩, ⟨1000000, ready, ?_⟩, ⟨1600000, { ready with mon := { evPer := { n := 1 } } }, ?_⟩, ⟨1000000, ready, ?_⟩, ⟨1000000, { ready with mon := { snap := true } }, ?_⟩⟩ <;> decide +kernel

/-- Operands and states that meet the hypotheses of each clause of ClockLossRows. Part 1. -/
theorem witness_ClockLossRows_part1 :
  -- PLL_LOCK_LOSS (R254)
  (∃ (s₀ : State), s₀.pwr.down = false) ∧
  -- PLL_SYNC_EDGE (R241)
  (∃ (t : Nat) (k : Nat) (s₀ : State), s₀.pwr.down = false ∧ (let s := advance s₀ t; let x := s.pll k; (x.attempt = 0))) ∧
  (∃ (k : Nat) (s₀ : State), s₀.pwr.down = false ∧ (s₀.pll k).attempt ≠ 0) ∧
  -- RELOCK_ATTEMPT_FAIL (R558)
  (∃ (t : Nat) (k : Nat) (s₀ : State), s₀.pwr.down = false ∧ (let s := advance s₀ t; let x := s.pll k; (x.attempt = 0))) ∧
  (∃ (t : Nat) (k : Nat) (s₀ : State), s₀.pwr.down = false ∧ (let s := advance s₀ t; let x := s.pll k; (¬(x.attempt = 0)))) ∧
  -- REF_IN_LOSS (R254)
  (∃ (s₀ : State), s₀.pwr.down = false) ∧
  -- REF_IN_RETURN (R254)
  (∃ (s₀ : State), s₀.pwr.down = false) ∧
  -- REF_LOOP_LOCK (R235)
  (∃ (t : Nat) (s₀ : State), s₀.pwr.down = false ∧ (let s := advance s₀ t; ((s.clk.source = 0 || s.clk.reflock || (s.clk.holdover && !s.clk.refSince.any (fun t => decide (t + 1600000000 ≤ s.now)))) = true))) ∧
  (∃ (t : Nat) (s₀ : State), s₀.pwr.down = false ∧ (let s := advance s₀ t; ((s.clk.source = 0 || s.clk.reflock || (s.clk.holdover && !s.clk.refSince.any (fun t => decide (t + 1600000000 ≤ s.now)))) = false))) ∧
  -- NODE_LOSS (R254)
  (∃ (s₀ : State), s₀.pwr.down = false) ∧
  -- NODE_ACTIVITY_RETURN (R254)
  (∃ (t : Nat) (s₀ : State), s₀.pwr.down = false ∧ (let s := advance s₀ t; ((s.clk.nodeOk || s.clk.nodeSince.isSome) = true))) ∧
  (∃ (t : Nat) (s₀ : State), s₀.pwr.down = false ∧ (let s := advance s₀ t; ((s.clk.nodeOk || s.clk.nodeSince.isSome) = false))) := by
  refine ⟨⟨ready, ?_⟩, ⟨1000000, 0, ready, ?_⟩, ⟨0, { owned with clk := { plls := [(0, { st := 2, attempt := 1 })] } }, ?_⟩, ⟨1000000, 0, ready, ?_⟩, ⟨1000000, 0, { owned with clk := { plls := [(0, { st := 2, attempt := 1 })] } }, ?_⟩, ⟨ready, ?_⟩, ⟨ready, ?_⟩, ⟨1000000, ready, ?_⟩, ⟨1000000, { ready with clk := { source := 1, reflock := false } }, ?_⟩, ⟨ready, ?_⟩, ⟨1000000, ready, ?_⟩, ⟨1000000, { ready with clk := { nodeOk := false } }, ?_⟩⟩ <;> decide +kernel

/-- Operands and states that meet the hypotheses of each clause of ClockLossRows. Part 2. -/
theorem witness_ClockLossRows_part2 :
  -- NODE_RECOVERY (R254)
  (∃ (t : Nat) (s₀ : State), s₀.pwr.down = false ∧ (let s := advance s₀ t; ((s.clk.nodeOk || !s.clk.nodeSince.any (fun t => decide (t + 16000000 ≤ s.now))) = true))) ∧
  (∃ (t : Nat) (s₀ : State), s₀.pwr.down = false ∧ (let s := advance s₀ t; ((s.clk.nodeOk || !s.clk.nodeSince.any (fun t => decide (t + 16000000 ≤ s.now))) = false))) ∧
  -- PPS_LOSS (R247)
  (∃ (s₀ : State), s₀.pwr.down = false) ∧
  -- CLK_SET_TIME_TIMEOUT (R261)
  (∃ (s₀ : State), s₀.pwr.down = false) := by
  refine ⟨⟨1000000, ready, ?_⟩, ⟨16000000, { ready with clk := { nodeOk := false, nodeSince := some 0 } }, ?_⟩, ⟨ready, ?_⟩, ⟨ready, ?_⟩⟩ <;> decide +kernel

/-- Operands and states that meet the hypotheses of each clause of TimeIntervalRows. -/
theorem witness_TimeIntervalRows :
  -- INPUT_EDGE (R273)
  (∃ (s₀ : State), s₀.pwr.down = false) ∧
  -- PENDING_EDGE_CLOSE (R279)
  (∃ (s₀ : State), s₀.pwr.down = false) ∧
  -- TIU_LOST (R293)
  (∃ (t : Nat) (n : Nat) (s₀ : State), s₀.pwr.down = false ∧ (let s := advance s₀ t; let x := s.tiuIn n; let k := x.lostPer.ended s.now; (k = 0))) ∧
  (∃ (t : Nat) (n : Nat) (s₀ : State), s₀.pwr.down = false ∧ (let s := advance s₀ t; let x := s.tiuIn n; let k := x.lostPer.ended s.now; (¬(k = 0)))) ∧
  -- QUEUE_DRAIN (R277)
  (∃ (t : Nat) (n : Nat) (s₀ : State), s₀.pwr.down = false ∧ (let s := advance s₀ t; (((s.tiuIn n).drain = noHandle || panicUp s) = true))) ∧
  (∃ (t : Nat) (n : Nat) (s₀ : State), s₀.pwr.down = false ∧ (let s := advance s₀ t; (((s.tiuIn n).drain = noHandle || panicUp s) = false))) ∧
  -- TIU_TABLE_UNCAL (R283)
  (∃ (s₀ : State), s₀.pwr.down = false) ∧
  -- TIU_CAL_TEST_END (R284)
  (∃ (t : Nat) (n : Nat) (s₀ : State), s₀.pwr.down = false ∧ (let s := advance s₀ t; ((!(s.tiuIn n).testing) = true))) ∧
  (∃ (t : Nat) (n : Nat) (s₀ : State), s₀.pwr.down = false ∧ (let s := advance s₀ t; ((!(s.tiuIn n).testing) = false))) := by
  refine ⟨⟨ready, ?_⟩, ⟨ready, ?_⟩, ⟨1000000, 0, ready, ?_⟩, ⟨1600000, 0, { ready with tiu := { ins := [(0, { lostPer := { n := 1 } })] } }, ?_⟩, ⟨1000000, 0, ready, ?_⟩, ⟨1000000, 0, { owned with tiu := { ins := [(0, { drain := 1 })] } }, ?_⟩, ⟨ready, ?_⟩, ⟨1000000, 0, ready, ?_⟩, ⟨1000000, 0, { ready with tiu := { ins := [(0, { on := true, testing := true })] } }, ?_⟩⟩ <;> decide +kernel

/-- Operands and states that meet the hypotheses of each clause of CalibrationRows. -/
theorem witness_CalibrationRows :
  -- CAL_STEP_END (R302)
  (∃ (s₀ : State), s₀.pwr.down = false) ∧
  -- BLIND_RUN (R311)
  (∃ (t : Nat) (tgt : Nat) (s₀ : State), s₀.pwr.down = false ∧ (let s := advance s₀ t; let b := s.calBlind tgt; ((!b.on || !(b.offset || b.ilv) || s.now < b.due) = true))) ∧
  (∃ (t : Nat) (tgt : Nat) (s₀ : State), s₀.pwr.down = false ∧ (let s := advance s₀ t; let b := s.calBlind tgt; ((!b.on || !(b.offset || b.ilv) || s.now < b.due) = false))) ∧
  -- CAL_DRIFT (R304)
  (∃ (tgt : Nat) (s₀ : State), s₀.pwr.down = false ∧ (6 ≤ tgt)) ∧
  (∃ (tgt : Nat) (s₀ : State), s₀.pwr.down = false ∧ (¬(6 ≤ tgt))) := by
  refine ⟨⟨ready, ?_⟩, ⟨1000000, 0, ready, ?_⟩, ⟨1000000, 0, { ready with cal := { blind := [(0, { on := true, offset := true, period := 10 })] } }, ?_⟩, ⟨1000000, ready, ?_⟩, ⟨0, ready, ?_⟩⟩ <;> decide +kernel

/-- Operands and states that meet the hypotheses of each clause of GroveRows. Part 1. -/
theorem witness_GroveRows_part1 :
  -- HAND_OVER (R334)
  (∃ (s₀ : State), s₀.pwr.down = false) ∧
  -- HANDLER_RETURN (R337)
  (∃ (t : Nat) (n : Nat) (s₀ : State), s₀.pwr.down = false ∧ (let s := advance s₀ t; let x := s.core n; (x.stall ≠ 5))) ∧
  (∃ (t : Nat) (n : Nat) (s₀ : State), s₀.pwr.down = false ∧ (let s := advance s₀ t; let x := s.core n; (¬(x.stall ≠ 5)))) ∧
  -- WAIT_END (R335)
  (∃ (t : Nat) (n : Nat) (s₀ : State), s₀.pwr.down = false ∧ (let s := advance s₀ t; let x := (s.core n).srSettle; ((x.stall ≠ 3 || x.pendEn = 0 || (x.ien.getLsbD 31 && x.interruptible)) = true))) ∧
  (∃ (t : Nat) (n : Nat) (s₀ : State), s₀.pwr.down = false ∧ (let s := advance s₀ t; let x := (s.core n).srSettle; ((x.stall ≠ 3 || x.pendEn = 0 || (x.ien.getLsbD 31 && x.interruptible)) = false))) ∧
  -- COMMONS_LOAD_RETURN (R320)
  (∃ (t : Nat) (n : Nat) (s₀ : State), s₀.pwr.down = false ∧ (let s := advance s₀ t; ((s.core n).stall ≠ 1))) ∧
  (∃ (t : Nat) (n : Nat) (s₀ : State), s₀.pwr.down = false ∧ (let s := advance s₀ t; (¬((s.core n).stall ≠ 1)))) ∧
  -- SYNC_COMPLETE (R320)
  (∃ (t : Nat) (n : Nat) (s₀ : State), s₀.pwr.down = false ∧ (let s := advance s₀ t; ((s.core n).stall ≠ 2))) ∧
  (∃ (t : Nat) (n : Nat) (s₀ : State), s₀.pwr.down = false ∧ (let s := advance s₀ t; (¬((s.core n).stall ≠ 2)))) ∧
  -- TIMER_MATCH (R333)
  (∃ (s₀ : State), s₀.pwr.down = false) ∧
  -- FEED_COPY_BLOCK (R343)
  (∃ (t : Nat) (i : Nat) (s₀ : State), s₀.pwr.down = false ∧ (let s := advance s₀ t; let f := s.feed i; ((!f.on || f.kind ≠ 2 || !f.free || f.done ≥ fld f.p 320 32 || panicUp s) = true))) ∧
  (∃ (t : Nat) (i : Nat) (s₀ : State), s₀.pwr.down = false ∧ (let s := advance s₀ t; let f := s.feed i; ((!f.on || f.kind ≠ 2 || !f.free || f.done ≥ fld f.p 320 32 || panicUp s) = false))) := by
  refine ⟨⟨ready, ?_⟩, ⟨1000000, 0, ready, ?_⟩, ⟨1000000, 0, coreAt { st := 1, inh := true, stall := 5 }, ?_⟩, ⟨1000000, 0, ready, ?_⟩, ⟨1000000, 0, coreAt { st := 2, stall := 3, ipend := 1, ien := 1 }, ?_⟩, ⟨1000000, 0, ready, ?_⟩, ⟨1000000, 0, coreAt { st := 1, stall := 1 }, ?_⟩, ⟨1000000, 0, ready, ?_⟩, ⟨1000000, 0, coreAt { st := 1, stall := 2 }, ?_⟩, ⟨ready, ?_⟩, ⟨1000000, 0, ready, ?_⟩, ⟨1000000, 0, { owned with grove := { cores := [(0, { st := 1 })], feeds := [(0, { on := true, kind := 2, p := 2135987035920910082395021706169552114602704522356652769947041607827290328181571914373022609309696 })] } }, ?_⟩⟩ <;> decide +kernel

/-- Operands and states that meet the hypotheses of each clause of GroveRows. Part 2. -/
theorem witness_GroveRows_part2 :
  -- FEED_WRITE_OUT (R343)
  (∃ (t : Nat) (i : Nat) (s₀ : State), s₀.pwr.down = false ∧ (let s := advance s₀ t; let f := s.feed i; ((!f.on || f.kind ≠ 3 || f.handed = 0 || panicUp s || !ringRoom s f.handle f.blk) = true))) ∧
  (∃ (t : Nat) (i : Nat) (s₀ : State), s₀.pwr.down = false ∧ (let s := advance s₀ t; let f := s.feed i; ((!f.on || f.kind ≠ 3 || f.handed = 0 || panicUp s || !ringRoom s f.handle f.blk) = false))) ∧
  -- GROVE_START_AT_CT (R349)
  (∃ (s₀ : State), s₀.pwr.down = false) ∧
  -- STAGED_SIGNAL_RAISE (R336)
  (∃ (s₀ : State), s₀.pwr.down = false) := by
  refine ⟨⟨1000000, 0, ready, ?_⟩, ⟨1000000, 0, { owned with grove := { cores := [(0, { st := 1 })], feeds := [(0, { on := true, kind := 3, p := 1766847064778384329583297500742918515827488967478019889485956261814992896, coreCnt := 1 })] } }, ?_⟩, ⟨ready, ?_⟩, ⟨ready, ?_⟩⟩ <;> decide +kernel

/-- Operands and states that meet the hypotheses of each clause of MemoryRows. Part 1. -/
theorem witness_MemoryRows_part1 :
  -- REFRESH (R361)
  (∃ (t : Nat) (s₀ : State), s₀.pwr.down = false ∧ (let s := advance s₀ t; ((s.mem.selfRef || s.mem.refAt.any (fun a => decide (s.now < a + 3120))) = true))) ∧
  (∃ (t : Nat) (s₀ : State), s₀.pwr.down = false ∧ (let s := advance s₀ t; ((s.mem.selfRef || s.mem.refAt.any (fun a => decide (s.now < a + 3120))) = false))) ∧
  -- PATROL_SCRUB (R364)
  (∃ (t : Nat) (a : Nat) (s₀ : State), s₀.pwr.down = false ∧ (let s := advance s₀ t; ((devSize ≤ a || s.mem.selfRef || panicUp s) = true))) ∧
  (∃ (t : Nat) (a : Nat) (s₀ : State), s₀.pwr.down = false ∧ (let s := advance s₀ t; ((devSize ≤ a || s.mem.selfRef || panicUp s) = false))) ∧
  -- CORRECTABLE_ERROR (R364)
  (∃ (t : Nat) (a : Nat) (s₀ : State), s₀.pwr.down = false ∧ (let s := advance s₀ t; ((devSize ≤ a || isPoisoned s a) = true))) ∧
  (∃ (t : Nat) (a : Nat) (s₀ : State), s₀.pwr.down = false ∧ (let s := advance s₀ t; ((devSize ≤ a || isPoisoned s a) = false))) ∧
  -- UNCORRECTABLE_ERROR (R365)
  (∃ (t : Nat) (a : Nat) (s₀ : State), s₀.pwr.down = false ∧ (let s := advance s₀ t; ((devSize ≤ a || isPoisoned s a) = true))) ∧
  (∃ (t : Nat) (a : Nat) (s₀ : State), s₀.pwr.down = false ∧ (let s := advance s₀ t; ((devSize ≤ a || isPoisoned s a) = false))) ∧
  -- RANK_SWITCH_OVER (R368)
  (∃ (s₀ : State), s₀.pwr.down = false) ∧
  -- RANK_SWITCH_OVER_END (R368)
  (∃ (s₀ : State), s₀.pwr.down = false) ∧
  -- MIGRATION_ROW_COPY (R369)
  (∃ (t : Nat) (s₀ : State), s₀.pwr.down = false ∧ (let s := advance s₀ t; ((List.range 4).find? (fun q => (s.quad q).moving)) = none)) ∧
  (∃ (t : Nat) (s₀ : State), s₀.pwr.down = false ∧ (let s := advance s₀ t; let q := ((List.range 4).find? (fun q => (s.quad q).moving)).getD default; ((List.range 4).find? (fun q => (s.quad q).moving)).isSome = true)) := by
  refine ⟨⟨1000000, { ready with mem := { selfRef := true } }, ?_⟩, ⟨1000000, ready, ?_⟩, ⟨1000000, 0, { ready with mem := { selfRef := true } }, ?_⟩, ⟨1000000, 0, ready, ?_⟩, ⟨1000000, 0, { ready with mem := { poison := [0] } }, ?_⟩, ⟨1000000, 0, ready, ?_⟩, ⟨1000000, 0, { ready with mem := { poison := [0] } }, ?_⟩, ⟨1000000, 0, ready, ?_⟩, ⟨ready, ?_⟩, ⟨ready, ?_⟩, ⟨1000000, ready, ?_⟩, ⟨1000000, { ready with mem := { quads := [(0, { retired := 0, moving := true })] } }, ?_⟩⟩ <;> decide +kernel

/-- Operands and states that meet the hypotheses of each clause of MemoryRows. Part 2. -/
theorem witness_MemoryRows_part2 :
  -- MEM_RING_LOST (R379)
  (∃ (s₀ : State), s₀.pwr.down = false) ∧
  -- ZEROING_DONE (R375)
  (∃ (t : Nat) (s₀ : State), s₀.pwr.down = false ∧ (let s := advance s₀ t; (panicUp s))) ∧
  (∃ (t : Nat) (s₀ : State), s₀.pwr.down = false ∧ (let s := advance s₀ t; (¬(panicUp s)))) ∧
  -- ON_DIE_ERROR (R385)
  (∃ (s₀ : State), s₀.pwr.down = false) ∧
  -- PANIC_CLEAR (R372)
  (∃ (port : Nat) (held : Nat) (s₀ : State), s₀.pwr.down = false ∧ ((!panicLow port held) = true)) ∧
  (∃ (port : Nat) (held : Nat) (s₀ : State), s₀.pwr.down = false ∧ ((!panicLow port held) = false)) ∧
  -- PANIC_LONG (R373)
  (∃ (s₀ : State), s₀.pwr.down = false) := by
  refine ⟨⟨ready, ?_⟩, ⟨1000000, { ready with mem := { panic := [(0, some 1)] } }, ?_⟩, ⟨1000000, ready, ?_⟩, ⟨ready, ?_⟩, ⟨0, 250000, ready, ?_⟩, ⟨1, 2, { ready with mem := { panic := [(8, some 1)] } }, ?_⟩, ⟨ready, ?_⟩⟩ <;> decide +kernel

/-- Operands and states that meet the hypotheses of each clause of DmaRows. -/
theorem witness_DmaRows :
  -- DMA_HANDOVER (R398)
  (∃ (s₀ : State), s₀.pwr.down = false) ∧
  -- DMA_BURST (R407)
  (∃ (s₀ : State), s₀.pwr.down = false) ∧
  -- DESCRIPTOR_END (R403)
  (∃ (s₀ : State), s₀.pwr.down = false) ∧
  -- TIMER_LINE_PULSE (R408)
  (∃ (s₀ : State), s₀.pwr.down = false) ∧
  -- STREAM_RECORD_COPY (R412)
  (∃ (s₀ : State), s₀.pwr.down = false) := by
  refine ⟨⟨ready, ?_⟩, ⟨ready, ?_⟩, ⟨ready, ?_⟩, ⟨ready, ?_⟩, ⟨ready, ?_⟩⟩ <;> decide +kernel

/-- Operands and states that meet the hypotheses of each clause of StorageRows. -/
theorem witness_StorageRows :
  -- CHECKPOINT (R435)
  (∃ (t : Nat) (s₀ : State), s₀.pwr.down = false ∧ (let s := advance s₀ t; ((!recTakes s || s.now < s.move.cpAt) = true))) ∧
  (∃ (t : Nat) (s₀ : State), s₀.pwr.down = false ∧ (let s := advance s₀ t; ((!recTakes s || s.now < s.move.cpAt) = false))) ∧
  -- STRIPE_COMPLETE (R435)
  (∃ (t : Nat) (q : Nat) (s₀ : State), s₀.pwr.down = false ∧ (let s := advance s₀ t; (s.move.stripes.find? (fun x => x.seq == q && !x.done)) = none)) ∧
  (∃ (t : Nat) (q : Nat) (s₀ : State), s₀.pwr.down = false ∧ (let s := advance s₀ t; (s.move.stripes.find? (fun x => x.seq == q && !x.done)).isSome = true)) ∧
  -- MOUNT_MEASUREMENT_END (R431)
  (∃ (t : Nat) (s₀ : State), s₀.pwr.down = false ∧ (let s := advance s₀ t; (s.move.job ≠ 3))) ∧
  (∃ (t : Nat) (s₀ : State), s₀.pwr.down = false ∧ (let s := advance s₀ t; (¬(s.move.job ≠ 3)))) ∧
  -- DRIVE_FAIL (R419)
  (∃ (s₀ : State), s₀.pwr.down = false) ∧
  -- DRIVE_COMMAND_COMPLETION (R417)
  (∃ (t : Nat) (n : Nat) (s₀ : State), s₀.pwr.down = false ∧ (let s := advance s₀ t; ((!(s.link n).ok) = true))) ∧
  (∃ (t : Nat) (n : Nat) (s₀ : State), s₀.pwr.down = false ∧ (let s := advance s₀ t; ((!(s.link n).ok) = false))) ∧
  -- STORAGE_LINK_UP (R416)
  (∃ (t : Nat) (n : Nat) (rate : Nat) (width : Nat) (flit : Bool) (s₀ : State), s₀.pwr.down = false ∧ (let s := advance s₀ t; ((!s.move.portOn || linkCount s.move.bifur ≤ n || (rate != 0 && !storLinkLegal s rate width flit)) = true))) ∧
  (∃ (t : Nat) (n : Nat) (rate : Nat) (width : Nat) (flit : Bool) (s₀ : State), s₀.pwr.down = false ∧ (let s := advance s₀ t; ((!s.move.portOn || linkCount s.move.bifur ≤ n || (rate != 0 && !storLinkLegal s rate width flit)) = false))) := by
  refine ⟨⟨1000000, ready, ?_⟩, ⟨1000000, { stored with move := { stored.move with entry := 0 } }, ?_⟩, ⟨1000000, 0, ready, ?_⟩, ⟨1000000, 0, { stored with move := { stored.move with entry := 0, stripes := [{}] } }, ?_⟩, ⟨1000000, ready, ?_⟩, ⟨1000000, { stored with move := { stored.move with job := 3 } }, ?_⟩, ⟨ready, ?_⟩, ⟨1000000, 0, ready, ?_⟩, ⟨1000000, 0, stored, ?_⟩, ⟨1000000, 0, 0, 0, false, ready, ?_⟩, ⟨1000000, 0, 0, 0, false, stored, ?_⟩⟩ <;> decide +kernel

/-- Operands and states that meet the hypotheses of each clause of AuxRows. -/
theorem witness_AuxRows :
  -- AUX_PASS_START (R482)
  (∃ (t : Nat) (s₀ : State), s₀.pwr.down = false ∧ (let s := advance s₀ t; let x := s.aux; ((!x.run || x.inPass || !yp0Locked s || s.now < x.start || auxPassCt s = 0) = true))) ∧
  (∃ (t : Nat) (s₀ : State), s₀.pwr.down = false ∧ (let s := advance s₀ t; let x := s.aux; ((!x.run || x.inPass || !yp0Locked s || s.now < x.start || auxPassCt s = 0) = false) ∧ (((s.now - x.start) % auxPassCt s ≠ 0 || (!x.cont && s.now ≠ x.start)) = true))) ∧
  (∃ (t : Nat) (s₀ : State), s₀.pwr.down = false ∧ (let s := advance s₀ t; let x := s.aux; ((!x.run || x.inPass || !yp0Locked s || s.now < x.start || auxPassCt s = 0) = false) ∧ (((s.now - x.start) % auxPassCt s ≠ 0 || (!x.cont && s.now ≠ x.start)) = false))) ∧
  -- AUX_CONVERSION (R484)
  (∃ (t : Nat) (s₀ : State), s₀.pwr.down = false ∧ (let s := advance s₀ t; let x := s.aux; ((!x.inPass || s.now < slotEnd x) = true))) ∧
  (∃ (s₀ : State), s₀.pwr.down = false ∧ s₀.aux.inPass = true) ∧
  -- AUX_LIMIT_PERIOD_END (R486)
  (∃ (s₀ : State), s₀.pwr.down = false) ∧
  -- AUX_OVR (R499)
  (∃ (t : Nat) (s₀ : State), s₀.pwr.down = false ∧ (let s := advance s₀ t; let n := s.aux.ovrPer.ended s.now; (n = 0))) ∧
  (∃ (t : Nat) (s₀ : State), s₀.pwr.down = false ∧ (let s := advance s₀ t; let n := s.aux.ovrPer.ended s.now; (¬(n = 0)))) ∧
  -- AUX_REF (R481)
  (∃ (s₀ : State), s₀.pwr.down = false) := by
  refine ⟨⟨1000000, ready, ?_⟩, ⟨1000001, { ready with aux := { run := true, cont := true, entries := [(0, 0, 0)], period := 1, start := 1000000 } }, ?_⟩, ⟨1000000, { ready with aux := { run := true, cont := true, entries := [(0, 0, 0)], period := 1, start := 1000000 } }, ?_⟩, ⟨1000000, ready, ?_⟩, ⟨rich, ?_⟩, ⟨ready, ?_⟩, ⟨1000000, ready, ?_⟩, ⟨1600000, { ready with aux := { ovrPer := { n := 1 } } }, ?_⟩, ⟨ready, ?_⟩⟩ <;> decide +kernel

/-- Operands and states that meet the hypotheses of each clause of ControlRows. -/
theorem witness_ControlRows :
  -- CTL_STEP (R489)
  (∃ (t : Nat) (n : Nat) (s₀ : State), s₀.pwr.down = false ∧ (let s := advance s₀ t; let x := s.ctlO n; ((!x.on || !x.hold || x.rphase ≠ 0 || s.now < x.holdEnd || !yp0Locked s) = true))) ∧
  (∃ (t : Nat) (n : Nat) (s₀ : State), s₀.pwr.down = false ∧ (let s := advance s₀ t; let x := s.ctlO n; ((!x.on || !x.hold || x.rphase ≠ 0 || s.now < x.holdEnd || !yp0Locked s) = false))) ∧
  -- CTL_RANGE_PHASE (R490)
  (∃ (t : Nat) (n : Nat) (s₀ : State), s₀.pwr.down = false ∧ (let s := advance s₀ t; let x := s.ctlO n; ((!x.on || x.rphase = 0 || s.now < x.holdEnd || !yp0Locked s) = true))) ∧
  (∃ (t : Nat) (n : Nat) (s₀ : State), s₀.pwr.down = false ∧ (let s := advance s₀ t; let x := s.ctlO n; ((!x.on || x.rphase = 0 || s.now < x.holdEnd || !yp0Locked s) = false))) ∧
  -- CTL_TIMED_WRITE (R497)
  (∃ (s₀ : State), s₀.pwr.down = false) ∧
  -- CTL_FAULT (R487)
  (∃ (t : Nat) (n : Nat) (ov : Bool) (s₀ : State), s₀.pwr.down = false ∧ (let s := advance s₀ t; let x := s.ctlO n; ((!x.on || x.range = ov || (if ov then x.overload else x.compl)) = true))) ∧
  (∃ (t : Nat) (n : Nat) (ov : Bool) (s₀ : State), s₀.pwr.down = false ∧ (let s := advance s₀ t; let x := s.ctlO n; ((!x.on || x.range = ov || (if ov then x.overload else x.compl)) = false))) ∧
  -- CTL_FAULT_CLEAR (R487)
  (∃ (s₀ : State), s₀.pwr.down = false) := by
  refine ⟨⟨1000000, 0, ready, ?_⟩, ⟨1000000, 0, { ready with ctl := [(0, { on := true, hold := true })] }, ?_⟩, ⟨1000000, 0, ready, ?_⟩, ⟨1000000, 0, { ready with ctl := [(0, { on := true, rphase := 1 })] }, ?_⟩, ⟨ready, ?_⟩, ⟨1000000, 0, false, ready, ?_⟩, ⟨1000000, 0, true, rich, ?_⟩, ⟨ready, ?_⟩⟩ <;> decide +kernel

/-- Operands and states that meet the hypotheses of each clause of FaultRows. -/
theorem witness_FaultRows :
  -- FORCED_RAISE (R509)
  (∃ (s₀ : State), s₀.pwr.down = false) ∧
  -- SUPPRESSION_WINDOW_CLOSE (R505)
  (∃ (s₀ : State), s₀.pwr.down = false) ∧
  -- FAULT_DETECTION (R501)
  (∃ (id : Nat) (s₀ : State), s₀.pwr.down = false ∧ ((!fltDefined id) = true)) ∧
  (∃ (id : Nat) (s₀ : State), s₀.pwr.down = false ∧ ((!fltDefined id) = false)) ∧
  -- RAIL_FAULT (R531)
  (∃ (k : Nat) (core : Bool) (s₀ : State), s₀.pwr.down = false ∧ (let id := (if core then 0x2600 else 0x2700) + k; ((!fltDefined id) = true))) ∧
  (∃ (k : Nat) (core : Bool) (s₀ : State), s₀.pwr.down = false ∧ (let id := (if core then 0x2600 else 0x2700) + k; ((!fltDefined id) = false))) ∧
  -- PERF_CONTROL_AT_CT (R528)
  (∃ (s₀ : State), s₀.pwr.down = false) ∧
  -- PERF_SAT (R511)
  (∃ (t : Nat) (k : Nat) (s₀ : State), s₀.pwr.down = false ∧ (let s := advance s₀ t; let x := s.perfC k; ((!x.run || !perfOpen x.source) = true))) ∧
  (∃ (t : Nat) (k : Nat) (s₀ : State), s₀.pwr.down = false ∧ (let s := advance s₀ t; let x := s.perfC k; ((!x.run || !perfOpen x.source) = false))) ∧
  -- COMMAND_TRANSFER_END (R464)
  (∃ (s₀ : State), s₀.pwr.down = false) ∧
  -- TEST_PORT_ACCESS (R513)
  (∃ (s₀ : State), s₀.pwr.down = false) := by
  refine ⟨⟨ready, ?_⟩, ⟨ready, ?_⟩, ⟨1023, ready, ?_⟩, ⟨0, ready, ?_⟩, ⟨1023, false, ready, ?_⟩, ⟨0, false, ready, ?_⟩, ⟨ready, ?_⟩, ⟨1000000, 0, ready, ?_⟩, ⟨1000000, 0, { ready with perf := [(0, { conf := true, run := true, value := 281474976710655, source := 0x15 })] }, ?_⟩, ⟨ready, ?_⟩, ⟨ready, ?_⟩⟩ <;> decide +kernel

/-- Operands and states that meet the hypotheses of each clause of PowerRows. Part 1. -/
theorem witness_PowerRows_part1 :
  -- POWER_ON (R533)
  (∃ (waited : Bool) (tj : Int) (s₀ : State), (s₀.pwr.powered = true ∨ waited = false ∨ (s₀.pwr.tripped = true ∧ 950 ≤ tj))) ∧
  (∃ (waited : Bool) (tj : Int) (s₀ : State), (s₀.pwr.powered = false ∧ waited = true ∧ (s₀.pwr.tripped = true → tj < 950))) ∧
  -- DEVICE_RESET (R538)
  (∃ (s₀ : State), (s₀.pwr.down = true)) ∧
  (∃ (held : Bool) (s₀ : State), (s₀.pwr.down = false ∧ held = true)) ∧
  (∃ (t : Nat) (held : Bool) (s₀ : State), (s₀.pwr.down = false ∧ held = false ∧ (s₀.host.resetAt.any (fun r => decide (r ≤ max s₀.now t))) = false)) ∧
  (∃ (t : Nat) (held : Bool) (s₀ : State), (s₀.pwr.down = false ∧ held = false ∧ (s₀.host.resetAt.any (fun r => decide (r ≤ max s₀.now t))) = true ∧ s₀.host.activating = false)) ∧
  (∃ (t : Nat) (held : Bool) (s₀ : State), (s₀.pwr.down = false ∧ held = false ∧ (s₀.host.resetAt.any (fun r => decide (r ≤ max s₀.now t))) = true ∧ s₀.host.activating = true)) ∧
  -- POWER_DOWN (R542)
  (∃ (s₀ : State), (s₀.pwr.powered = false)) ∧
  (∃ (s₀ : State), (s₀.pwr.powered = true)) ∧
  -- THERMAL_TRIP (R541)
  (∃ (rs : List Int) (s₀ : State), (s₀.pwr.powered = false ∨ tjOf s₀ rs < 1120)) ∧
  (∃ (rs : List Int) (s₀ : State), (s₀.pwr.powered = true ∧ 1120 ≤ tjOf s₀ rs)) ∧
  -- THERMAL_STAGE (R540)
  (∃ (s₀ : State), s₀.pwr.down = false) := by
  refine ⟨⟨false, 0, ready, ?_⟩, ⟨true, 949, { State.reset with pwr := { powered := false, tripped := true } }, ?_⟩, ⟨{ ready with pwr := { rstLow := true } }, ?_⟩, ⟨true, ready, ?_⟩, ⟨1000000, false, ready, ?_⟩, ⟨1000000, false, { ready with host := { ready.host with resetAt := some 1000000 } }, ?_⟩, ⟨1000000, false, { ready with host := { ready.host with resetAt := some 1000000, activating := true } }, ?_⟩, ⟨{ ready with pwr := { powered := false } }, ?_⟩, ⟨ready, ?_⟩, ⟨[1119], ready, ?_⟩, ⟨[1120], ready, ?_⟩, ⟨ready, ?_⟩⟩ <;> decide +kernel

/-- Operands and states that meet the hypotheses of each clause of PowerRows. Part 2. -/
theorem witness_PowerRows_part2 :
  -- THERMAL_STAGE_EXIT (R540)
  (∃ (s₀ : State), s₀.pwr.down = false) ∧
  -- RST_N_RELEASE (R537)
  (∃ (s₀ : State), (s₀.pwr.rstLow = false)) ∧
  (∃ (s₀ : State), (s₀.pwr.powered = true ∧ s₀.pwr.rstLow = true)) ∧
  -- FIRMWARE_START_TIMEOUT (R473)
  (∃ (s₀ : State), (s₀.pwr.down = true ∨ s₀.host.activating = false ∨ s₀.host.engine ≠ 3)) ∧
  (∃ (s₀ : State), (s₀.pwr.down = false ∧ s₀.host.activating = true ∧ s₀.host.engine = 3)) ∧
  -- STARTUP_COMPLETE (R533)
  (∃ (t : Nat) (s₀ : State), s₀.pwr.down = false ∧ (let s := advance s₀ t; ((s.pwr.step ≠ 4 || s.flt.cpDead) = true))) ∧
  (∃ (t : Nat) (s₀ : State), s₀.pwr.down = false ∧ (let s := advance s₀ t; ((s.pwr.step ≠ 4 || s.flt.cpDead) = false))) := by
  refine ⟨⟨ready, ?_⟩, ⟨ready, ?_⟩, ⟨{ State.reset with pwr := { rstLow := true } }, ?_⟩, ⟨ready, ?_⟩, ⟨{ State.reset with host := { engine := 3, activating := true } }, ?_⟩, ⟨1000000, ready, ?_⟩, ⟨1000000, State.reset, ?_⟩⟩ <;> decide +kernel

/-- Operands and states that meet the hypotheses of each clause of HostWritesComplete. Part 1. -/
theorem witness_HostWritesComplete_part1 :
  (∃ (t n v : Nat) (s₀ : State), s₀.pwr.down = false ∧ (let s := advance s₀ t; let x := s.ses n; let z := sqSize x; (x.st = 1) ∧ (v < z) ∧ ((x.sqTail + z - x.sqHead) % z ≤ (v + z - x.sqHead) % z))) ∧
  (∃ (t n v : Nat) (s₀ : State), s₀.pwr.down = false ∧ (let s := advance s₀ t; let x := s.ses n; let z := cqSize x; (x.st = 1) ∧ (v < z) ∧ ((v + z - x.cqHead) % z ≤ cqUnread s n) ∧ ((s.cplR n).held = false))) ∧
  (∃ (t v : Nat) (s₀ : State), s₀.pwr.down = false ∧ (let s := advance s₀ t; let u := flushAll s; let z := evtSize u; (u.host.evtEnable = true) ∧ (v < z) ∧ ((v + z - u.host.evtHead) % z ≤ (u.host.evtTail + z - u.host.evtHead) % z))) ∧
  (∃ (t n v : Nat) (s₀ : State), s₀.pwr.down = false ∧ (let s := advance s₀ t; let x := s.dma n; let d := (v + 2^32 - x.hrpos % 2^32) % 2^32; (x.on = true) ∧ (x.mode = 2) ∧ (d ≤ x.hwpos - x.hrpos))) ∧
  (∃ (t n : Nat) (s₀ : State), s₀.pwr.down = false ∧ (let s := advance s₀ t; let x := s.ses n; (s.host.engine = 1 ∨ s.host.engine = 2) ∧ (x.st = 0) ∧ (x.ringsOk = true))) ∧
  (∃ (t n : Nat) (s₀ : State), s₀.pwr.down = false ∧ (let s := advance s₀ t; let x := s.ses n; (s.host.engine = 1 ∨ s.host.engine = 2) ∧ (x.st = 2) ∧ (x.cookieReg = x.cookie) ∧ (x.ringsOk = true) ∧ (inProgOf s n < cqSize x))) ∧
  (∃ (t n : Nat) (s₀ : State), s₀.pwr.down = false ∧ (let s := advance s₀ t; let x := s.ses n; (s.host.engine = 1 ∨ s.host.engine = 2) ∧ (x.st = 1 ∨ (x.st = 2 ∧ x.cookieReg = x.cookie)))) ∧
  (∃ (t n v : Nat) (s₀ : State), s₀.pwr.down = false ∧ (let s := advance s₀ t; (s.host.engine = 1 ∨ s.host.engine = 2) ∧ (fld v 0 17 ≤ 86400))) ∧
  (∃ (t v : Nat) (s₀ : State), s₀.pwr.down = false ∧ (let s := advance s₀ t; let u := flushAll s; let k := fld u.host.evtCfg.toNat 0 5; (s.host.engine = 1 ∨ s.host.engine = 2) ∧ (bit v 0 = true) ∧ (u.host.evtEnable = false) ∧ (6 ≤ k ∧ k ≤ 16 ∧ u.host.evtBaseLo.toNat % 4096 = 0))) ∧
  (∃ (t v : Nat) (s₀ : State), s₀.pwr.down = false ∧ (let s := advance s₀ t; let u := flushAll s; (s.host.engine = 1 ∨ s.host.engine = 2) ∧ (bit v 0 = false))) ∧
  (∃ (t n v : Nat) (s₀ : State), s₀.pwr.down = false ∧ (let s := advance s₀ t; (s.host.engine = 1 ∨ s.host.engine = 2) ∧ ((s.ctlO n).on = true) ∧ ((s.ctlO n).direct = true) ∧ (n < 8))) ∧
  (∃ (t v : Nat) (s₀ : State), s₀.pwr.down = false ∧ (let s := advance s₀ t; let u := flushAll s; (u.host.engine = 1 ∨ u.host.engine = 2))) := by
  refine ⟨⟨1000000, 0, 1, ready, ?_⟩,
    ⟨1000000, 0, 0, ready, ?_⟩,
    ⟨1000000, 0, { ready with host := { ready.host with evtEnable := true, evtCfg := 8 } }, ?_⟩,
    ⟨1000000, 0, 64, { ready with move := { chans := [(0, { on := true, mode := 2, hwpos := 64 })] } }, ?_⟩,
    ⟨1000000, 0, { ready with host := { ready.host with sessions := [(0, { qcfg := 0x44 })] } }, ?_⟩,
    ⟨1000000, 0, { ready with host := { ready.host with sessions := [(0, { st := 2, qcfg := 0x44 })] } }, ?_⟩,
    ⟨1000000, 0, ready, ?_⟩,
    ⟨1000000, 0, 100, ready, ?_⟩,
    ⟨1000000, 1, { ready with host := { ready.host with evtEnable := false, evtCfg := 8 } }, ?_⟩,
    ⟨1000000, 0, ready, ?_⟩,
    ⟨1000000, 0, 0, { ready with ctl := [(0, { on := true, direct := true })] }, ?_⟩,
    ⟨1000000, 0, ready, ?_⟩⟩ <;> decide +kernel

/-- Operands and states that meet the hypotheses of each clause of HostWritesComplete. Part 2. -/
theorem witness_HostWritesComplete_part2 :
  (∃ (t : Nat) (s₀ : State), s₀.pwr.down = false ∧ (let s := advance s₀ t; True)) ∧
  (∃ (t : Nat) (s₀ : State), s₀.pwr.down = false ∧ (let s := advance s₀ t; let v := Config.serial.toNat; True)) ∧
  (∃ (t : Nat) (s₀ : State), s₀.pwr.down = false ∧ (let s := advance s₀ t; True)) ∧
  (∃ (t : Nat) (s₀ : State), s₀.pwr.down = false ∧ (let s := advance s₀ t; True)) ∧
  (∃ (t : Nat) (s₀ : State), s₀.pwr.down = false ∧ (let s := advance s₀ t; True)) ∧
  (∃ (t : Nat) (s₀ : State), s₀.pwr.down = false ∧ (let s := advance s₀ t; True)) ∧
  (∃ (t : Nat) (s₀ : State), s₀.pwr.down = false ∧ (let s := advance s₀ t; True)) ∧
  (∃ (t : Nat) (s₀ : State), s₀.pwr.down = false ∧ (let s := advance s₀ t; (s.aux.prev = none) ∧ (bit s.aux.data.toNat 30 = true))) := by
  refine ⟨⟨1000000, ready, ?_⟩,
    ⟨1000000, ready, ?_⟩,
    ⟨1000000, ready, ?_⟩,
    ⟨1000000, ready, ?_⟩,
    ⟨1000000, ready, ?_⟩,
    ⟨1000000, ready, ?_⟩,
    ⟨1000000, ready, ?_⟩,
    ⟨1000000, { ready with aux := { data := 0x40000000 } }, ?_⟩⟩ <;> decide +kernel

/-- Operands and states that meet the hypotheses of each clause of LossAndTransferRowsComplete. -/
theorem witness_LossAndTransferRowsComplete :
  (∃ (t k : Nat) (freq : Bool) (s₀ : State), s₀.pwr.down = false ∧ (let s := advance s₀ t; let id := (if freq then 0x0208 else 0x0204) + k; let s2 := countLoss (post (pllWindow (raiseFault s id {}) k id) 0x0201 (pack [(2, k), (1, b2n freq), (13, 0), (16, if freq then 32000 else 160)])); ((s.pll k).st = 4) ∧ ((s.pll k).attempt = 0) ∧ ((s.pll k).autoRel = false))) ∧
  (∃ (t k : Nat) (freq : Bool) (s₀ : State), s₀.pwr.down = false ∧ (let s := advance s₀ t; let id := (if freq then 0x0208 else 0x0204) + k; let s2 := countLoss (post (pllWindow (raiseFault s id {}) k id) 0x0201 (pack [(2, k), (1, b2n freq), (13, 0), (16, if freq then 32000 else 160)])); ((s.pll k).st = 4) ∧ ((s.pll k).attempt = 0) ∧ ((s.pll k).autoRel = true))) ∧
  (∃ (t : Nat) (freq : Bool) (ppm : Int) (s₀ : State), s₀.pwr.down = false ∧ (let s := advance s₀ t; let s2 := post (raiseFault s (if freq then 0x0202 else 0x0201) {}) 0x0204 (pack [(2, b2n freq), (30, 0), (32, if freq then enc 32 ppm else 0)]); (refWatched s = true))) ∧
  (∃ (t : Nat) (s₀ : State), s₀.pwr.down = false ∧ (let s := advance s₀ t; let s0 := raiseFault { s with clk := { s.clk with nodeOk := false, nodeSince := none, timeValid := false, nodeRecov := 0 } } 0x0200 {}; let s1 := countLoss (markAllUnlocked (post (openWindow s0 0x0200 nodeDeps [] false) 0x0204 2)); let s2 := (List.range 6).foldl (fun a id => (strHalt a id (grainAt a id a.now + 1)).modStr id (fun x => { x with resume := false })) s1; let s3 := (List.range 4).foldl (fun a k => let b := (buildSoFar a k).modPll k (fun x => { x with st := 6, attempt := 0, step := false, building := false, byLoss := false }); (pllCommands b k).foldl (fun d q => pllFinish d k q false false) b) s2; (s.clk.nodeOk = true))) ∧
  (∃ (t n cause status : Nat) (s₀ : State), s₀.pwr.down = false ∧ (let s := advance s₀ t; let s0 := s.modLink n (fun x => { x with ok := false }); let s1 := if cause = 0 then linkDown s0 n else s0; let s2 := raiseFault (post s1 0x0B06 (pack [(2, n), (2, 0), (4, cause), (8, 0), (16, if cause = 2 then status else 0)])) (0x2200 + n) { master := 13, inst := n }; let s3 := openWindow s2 (0x2200 + n) [0x21, 0x22] [] true; ((s.link n).ok = true) ∧ ((s.move.mounted && (s.link n).member) = false) ∧ (s3.host.inProg.filter (fun p => p.opcode == 0x0B0E && p.unit_ == n) = []) ∧ (s3.move.job = 0))) ∧
  (∃ (t n : Nat) (d : Desc) (s₀ : State), s₀.pwr.down = false ∧ (let s := advance s₀ t; let u := dmaWaits s n; let x := u.dma n; (x.handReady u.now = true) ∧ (x.shadow = some d) ∧ (descReason u x d = 0) ∧ (x.mode ≠ 0 ∨ d.last = true))) ∧
  (∃ (t i : Nat) (q : InProg) (s₀ : State), s₀.pwr.down = false ∧ (let s := advance s₀ t; (s.host.inProg[i]? = some q) ∧ (panicUp s = false) ∧ (q.unit_ = transferWait) ∧ (q.opcode ≠ 0x0005 ∧ q.opcode ≠ 0x0901 ∧ q.opcode ≠ 0x0907 ∧ q.opcode ≠ 0x0D07))) ∧
  (∃ (t i : Nat) (q : InProg) (s₀ : State), s₀.pwr.down = false ∧ (let s := advance s₀ t; (s.host.inProg[i]? = some q) ∧ (q.opcode = 0x0901))) ∧
  (∃ (t n : Nat) (fall : Bool) (c : Nat) (s₀ : State), s₀.pwr.down = false ∧ (let s := advance s₀ t; let u := s.modTiuIn n (fun x => { x with level := !fall }); let x : TiuIn := { u.tiuIn n with pre := 0 }; let v := u.setTiuIn n x; let T := stampAt v n s.now (min c 191); ((u.tiuIn n).testing = false) ∧ (tiuSel u n fall = true) ∧ ((u.tiuIn n).prescale = 0) ∧ (s.clk.coarse = false) ∧ (tiuSel v n fall = true) ∧ (extSel v n fall = false) ∧ (ppsSel v n fall = false) ∧ (x.deadEnd ≤ rawTime2 x s.now (min c 191)) ∧ (x.queueOn = false))) ∧
  (∃ s : State, s.pwr.down = false) ∧
  (∃ (s : State) (a w : Nat), (s.au a).armAt = some w ∧ w ≤ s.now ∧ streamsStopped s a = false) ∧
  (∃ (s : State) (a w : Nat), (s.au a).armAt = some w ∧ w ≤ s.now ∧ streamsStopped s a = true) := by
  refine ⟨⟨1000000, 0, false, { ready with clk := { plls := [(0, { autoRel := false })] } }, ?_⟩,
    ⟨1000000, 0, false, { ready with clk := { plls := [(0, { autoRel := true })] } }, ?_⟩,
    ⟨1000000, false, 0, { ready with clk := { source := 1 } }, ?_⟩,
    ⟨1000000, ready, ?_⟩,
    ⟨1000000, 0, 0, 0, { ready with move := { links := [(0, { ok := true })] } }, ?_⟩,
    ⟨1000000, 0, { bits := 2^167 + 64 * 2^176 + 2^200 + 64 * 2^256 + 2^280 }, { owned with move := { chans := [(0, { on := true, mode := 1, shadow := some { bits := 2^167 + 64 * 2^176 + 2^200 + 64 * 2^256 + 2^280 } })] } }, ?_⟩,
    ⟨1000000, 0, { unit_ := transferWait, opcode := 0x0D02, data := [2, 0, 0, 0] }, { ready with host := { ready.host with inProg := [{ unit_ := transferWait, opcode := 0x0D02, data := [2, 0, 0, 0] }] } }, ?_⟩,
    ⟨1000000, 0, { opcode := 0x0901, data := [0, 1] }, { ready with host := { ready.host with inProg := [{ opcode := 0x0901, data := [0, 1] }] } }, ?_⟩,
    ⟨1000000, 0, false, 0, { ready with tiu := { ins := [(0, { on := true })] } }, ?_⟩,
    ⟨ready, ?_⟩,
    ⟨{ ready with acq := { units := [(0, { armAt := some 0, entries := [{ stream := 0 }] })] }, fe := owned.fe }, 0, 0, ?_⟩,
    ⟨{ ready with acq := { units := [(0, { armAt := some 0, entries := [{ stream := 0 }] })] }, fe := {} }, 0, 0, ?_⟩⟩ <;> decide +kernel

theorem witness_StepRunsFrontCommand : ∃ (c : Instr) (rest : List Instr) (s : State), s.pending = c :: rest :=
  ⟨.sysNop (cmd 0) 0, [], { ready with pending := [.sysNop (cmd 0) 0] }, rfl⟩

theorem witness_EmptyQueueIdles : ∃ s : State, s.pending = [] := ⟨State.reset, rfl⟩

theorem witness_FrontEndAtReset : ∃ s : State, s.pwr.down = false ∧ (s.str 0).running = false ∧ (s.str 0).old = [] := ⟨ready, by decide +kernel⟩

theorem witness_StepsSendEveryEvent : ∃ s t : State, EventsSent s ∧ step s = .next t ∧ s.pending ≠ [] :=
  ⟨{ ready with pending := [.sysNop (cmd 0) 0] }, _, fun e he => (by cases he), rfl, by decide⟩

theorem witness_StepsNeverStop : ∃ (s : State) (c : Instr) (rest : List Instr), s.pending = c :: rest ∧ restarts c = false :=
  ⟨{ ready with pending := [.sysNop (cmd 0) 0] }, .sysNop (cmd 0) 0, [], rfl, rfl⟩

theorem witness_DownEngineStays : ∃ (i : Instr) (s : State), s.pwr.down = true ∧ actsWhileDown i = false :=
  ⟨.sysNop (cmd 0) 0, { ready with pwr := { powered := false } }, by decide +kernel⟩

theorem witness_GroveResultLatency : ∃ (x : GCore) (L k : Nat), x.pend = [] ∧ k < L ∧ L ≤ k + 1 := ⟨{}, 2, 1, by decide⟩

theorem witness_EventsEnterInOrder : ∃ l : List (Nat × EventRecord), (∀ e ∈ l, e.1 < 16 ∧ e.2.code < 2^16) ∧ 2 ≤ l.length :=
  ⟨[(2, { code := 0x0D01 }), (1, { code := 0x0103 })], by decide +kernel⟩

theorem witness_EventRingTakesOrLoses :
    (∃ (s : State) (e : EventRecord), bit s.host.evtMask.toNat (e.code / 256) = false) ∧
    (∃ (s : State) (e : EventRecord), bit s.host.evtMask.toNat (e.code / 256) = true ∧ s.host.evtEnable = false) ∧
    (∃ (s : State) (e : EventRecord), bit s.host.evtMask.toNat (e.code / 256) = true ∧ s.host.evtEnable = true ∧ s.host.busMaster = false) ∧
    (∃ (s : State) (e : EventRecord), bit s.host.evtMask.toNat (e.code / 256) = true ∧ s.host.evtEnable = true ∧ s.host.busMaster = true ∧
      evtUnread s + 1 < evtSize s) ∧
    (∃ (s : State) (e : EventRecord), bit s.host.evtMask.toNat (e.code / 256) = true ∧ s.host.evtEnable = true ∧ s.host.busMaster = true ∧
      evtSize s ≤ evtUnread s + 1) := by
  refine ⟨⟨{ ready with host := { ready.host with evtMask := 0 } }, {}, ?_⟩, ⟨{ ready with host := { ready.host with evtMask := 1 } }, {}, ?_⟩,
    ⟨{ ready with host := { ready.host with evtMask := 1, evtEnable := true, busMaster := false } }, {}, ?_⟩,
    ⟨{ ready with host := { ready.host with evtMask := 1, evtEnable := true, evtCfg := 8 } }, {}, ?_⟩,
    ⟨{ ready with host := { ready.host with evtMask := 1, evtEnable := true, evtCfg := 8, evtHead := 1 } }, {}, ?_⟩⟩ <;> decide +kernel

theorem witness_MemoryReadsBack : ∃ (m : Mem) (a n k : Nat), Memory.wf m = true ∧ a ≤ k ∧ k < a + n ∧ rdByte m k ≠ 0 :=
  ⟨[(5, 7)], 4, 2, 5, by decide +kernel⟩

theorem witness_FatalStateRefuses : (opcodes.all fun op => zciFront op (cmd 0) fatal && !denies fatal op) = true ∧ fatal.host.engine = 2 ∧
    ∃ (c : Cmd) (p : Block), wellFormed 0 (fun _ => []) c p = true := ⟨by decide +kernel, by decide +kernel, cmd 0, 0, by decide +kernel⟩

theorem witness_MonitorClear :
    (∃ (c : Cmd) (p : Block) (s : State), zciReady 0x0703 1 (fun _ => [(0, 16), (16, 16)]) c p s = true ∧
      ownsRange (seen 0x0703 c s) c.session.val (arg p 0 16) (arg p 16 16) = true ∧ arg p 16 16 < arg p 0 16) ∧
    (∃ (c : Cmd) (p : Block) (s : State), zciReady 0x0703 1 (fun _ => [(0, 16), (16, 16)]) c p s = true ∧
      ownsRange (seen 0x0703 c s) c.session.val (arg p 0 16) (arg p 16 16) = true ∧ arg p 0 16 = arg p 16 16) := by
  refine ⟨⟨cmd 1, block [(0, 16, 1)], owned, ?_⟩, ⟨cmd 1, 0, owned, ?_⟩⟩ <;> decide +kernel

theorem witness_BarrierCommand :
    (∃ (c : Cmd) (p : Block) (s : State), zciReady 0x0906 2 (fun _ => [(0, 3), (8, 1), (64, 64)]) c p s = true ∧
      owns (seen 0x0906 c s) c.session.val 0x11 (arg p 0 3) = true ∧
      (maskBits 64 (arg p 64 64)).any (fun n => !ownsCore (seen 0x0906 c s) c.session.val n) = false ∧ argBit p 8 = true ∧ arg p 64 64 = 0) ∧
    (∃ (c : Cmd) (p : Block) (s : State), zciReady 0x0906 2 (fun _ => [(0, 3), (8, 1), (64, 64)]) c p s = true ∧
      owns (seen 0x0906 c s) c.session.val 0x11 (arg p 0 3) = true ∧
      (maskBits 64 (arg p 64 64)).any (fun n => !ownsCore (seen 0x0906 c s) c.session.val n) = false ∧ argBit p 8 = false ∧
      (s.bar (arg p 0 3)).arrived ≠ 0) ∧
    (∃ (c : Cmd) (p : Block) (s : State), zciReady 0x0906 2 (fun _ => [(0, 3), (8, 1), (64, 64)]) c p s = true ∧
      owns (seen 0x0906 c s) c.session.val 0x11 (arg p 0 3) = true ∧
      (maskBits 64 (arg p 64 64)).any (fun n => !ownsCore (seen 0x0906 c s) c.session.val n) = false ∧ argBit p 8 = true ∧ arg p 64 64 = 3 ∧
      (s.bar (arg p 0 3)).arrived = 0) := by
  refine ⟨⟨cmd 2, block [(8, 1, 1)], owned, ?_⟩, ⟨cmd 2, 0, { owned with grove := { barriers := [(0, { arrived := 1 })] } }, ?_⟩,
    ⟨cmd 2, block [(8, 1, 1), (64, 64, 3)], owned, ?_⟩⟩ <;> decide +kernel

end Sys2Proof.Tests
end

section
/-! SUPPORT AND PROOF. The sampling front end after device reset (02_sampling_front_end.md, R57): what a device reset leaves of it is its
reset value, and a stream that no command has started has nothing to tag. -/

namespace Sys2Proof.Machine

/-! ## The front end that a device reset leaves -/

/-- The front end of R57: single mode at RATE 100, termination, ATTEN 10, protection enabled with no trip, no stream running. -/
def FreshFrontEnd (s : State) : Prop :=
  (∀ p, p < 2 → s.pairMode p = false ∧ s.rate p = 100) ∧ (∀ k, k < 6 → s.source k = 6) ∧
    (∀ i, i < 4 → (s.inp i).atten = 10 ∧ (s.inp i).protect = true ∧ (s.inp i).tripped = false) ∧ ∀ id, (s.str id).running = false

/-- At reset every table of the front end is empty, so that each of its entries reads as its default. -/
theorem freshFrontEnd_reset : FreshFrontEnd State.reset :=
  ⟨fun _ _ => ⟨rfl, rfl⟩, fun _ _ => Nat.zero_xor 6, fun _ _ => ⟨rfl, rfl, rfl⟩, fun _ => rfl⟩

/-- The settings of R57 are read from the front end alone. -/
theorem FreshFrontEnd.of_fe {s u : State} (h : FreshFrontEnd s) (he : u.fe = s.fe) : FreshFrontEnd u := by
  unfold FreshFrontEnd State.pairMode State.rate State.source State.inp State.str at *
  rwa [he]

/-- A device reset keeps nothing of the front end (R538). -/
@[simp] theorem deviceReset_fe (s : State) : (deviceReset s).fe = State.reset.fe := rfl

/-- A row that may reset the engine answers the front end that its effect leaves. -/
theorem actReset_fe {f : State → State} {v : FrontEnd} (hf : ∀ x, (f x).fe = v) (t : Tick) (s : State) :
    ∃ u, actReset t s f = .next u ∧ u.fe = v := ⟨_, rfl, hf _⟩

/-- DEVICE_RESET with RST_N held leaves the front end at its reset value (R538). -/
theorem exec_deviceReset_held_fe {s : State} (hup : s.pwr.down = false) (t : Nat) :
    ∃ u, exec (.deviceReset t true) s = .next u ∧ u.fe = State.reset.fe := by
  have hrow : exec (.deviceReset t true) s = execDeviceReset t true s := rfl
  rw [hrow, execDeviceReset, if_neg (by simp [hup]), if_pos rfl]
  refine actReset_fe (fun x => ?_) t s
  exact deviceReset_fe x

/-! ## A stream that no command has started -/

/-- There is no grain to tag exactly where no ended epoch has one left and the stream does not run. -/
theorem tagHead_eq_none {x : Stream} : tagHead x = none ↔ x.old = [] ∧ x.running = false := by
  unfold tagHead
  cases hold : x.old with
  | cons c l => simp
  | nil => cases hrun : x.running <;> simp

@[simp] theorem advance_str (s : State) (t : Tick) (id : Nat) : (advance s t).str id = s.str id := by
  unfold State.str; rw [advance_fe]

/-- A row of an engine that is up, whose effect leaves the state at its tick as it is, has no effect. -/
theorem idles_of_act {i : Instr} {t : Tick} {s : State} {f : State → State} (he : exec i s = act t s f) (hup : s.pwr.down = false)
    (hf : f (advance s t) = advance s t) : Idles i t s := by
  obtain ⟨u, hu, hset⟩ := row_row (L := []) he hup hf (Kept.refl _ _)
  exact ⟨u, hu, hset.follows, hset.kept⟩

/-- GRAIN_TAG has no effect on a stream with no grain to tag. -/
theorem grainTag_idles {s : State} {id : Nat} (hup : s.pwr.down = false) (hhead : tagHead (s.str id) = none) (t : Nat) (codes : List Nat) :
    Idles (.grainTag t id codes) t s := by
  have hthen : tagHead ((advance s t).str id) = none := by rw [advance_str, hhead]
  have hrow : exec (.grainTag t id codes) s = execGrainTag t id codes s := rfl
  unfold execGrainTag at hrow
  exact idles_of_act hrow hup (by simp only [hthen])

/-- Settles O3: DEVICE_RESET leaves the front end of `State.reset`, whose empty tables read as R57 says; and a stream that does not run
and has no ended epoch has no grain to tag. -/
theorem frontEndAtReset : Obligations.FrontEndAtReset := by
  unfold Obligations.FrontEndAtReset
  refine ⟨⟨freshFrontEnd_reset, fun t s hup => ?_⟩, fun t id codes s hup hrun hold => ?_⟩
  · obtain ⟨u, hu, hfe⟩ := exec_deviceReset_held_fe hup t
    exact ⟨u, hu, freshFrontEnd_reset.of_fe hfe⟩
  · exact grainTag_idles hup (tagHead_eq_none.2 ⟨hold, hrun⟩) t codes

end Sys2Proof.Machine
end

section
/-! SUPPORT AND PROOF. MON_CLEAR (06_channel_monitors.md, R229): clearing a range zeroes the contexts that the table lists there; one that it
does not list reads as the default, which is zero already. -/

namespace Sys2Proof.Machine

/-! ## Contexts cleared in turn -/

/-- A key that no entry of a table has reads as the default. -/
theorem tget_of_not_mem {α : Type} (d : α) {t : Tab α} {i : Nat} (h : i ∉ t.map Prod.fst) : tget d t i = d := by
  induction t with
  | nil => rfl
  | cons e r ih =>
    rw [List.map_cons, List.mem_cons, not_or] at h
    rw [tget, if_neg (Ne.symm h.1), ih h.2]

@[simp] theorem Ctx.zeroed_zeroed (x : Ctx) : x.zeroed.zeroed = x.zeroed := rfl

/-- The contexts of a list of entries, zeroed in its order. -/
def zeroCtxs (l : Tab Ctx) (s : State) : State := l.foldl (fun t e => t.modCtx e.1 Ctx.zeroed) s

/-- Zeroing contexts writes the monitors alone. -/
theorem zeroCtxs_eq (l : Tab Ctx) (s : State) : zeroCtxs l s = { s with mon := (zeroCtxs l s).mon } := by
  induction l generalizing s with
  | nil => rfl
  | cons e r ih => exact ih (s.modCtx e.1 Ctx.zeroed)

/-- A context after one is changed. -/
theorem State.ctx_modCtx (s : State) (n k : Nat) (g : Ctx → Ctx) :
    (s.modCtx n g).ctx k = if k = n then g (s.ctx k) else s.ctx k := by
  rw [State.modCtx_eq]
  split
  case isTrue h => rw [h, State.ctx_setCtx_self]
  case isFalse h => rw [State.ctx_setCtx_ne (h := h)]

/-- A context is zeroed where the list names it, once or more often. -/
theorem zeroCtxs_ctx (l : Tab Ctx) (s : State) (n : Nat) :
    (zeroCtxs l s).ctx n = if n ∈ l.map Prod.fst then (s.ctx n).zeroed else s.ctx n := by
  induction l generalizing s with
  | nil => rfl
  | cons e r ih =>
    have hstep : zeroCtxs (e :: r) s = zeroCtxs r (s.modCtx e.1 Ctx.zeroed) := rfl
    rw [hstep, ih, State.ctx_modCtx]
    simp only [List.map_cons, List.mem_cons]
    by_cases he : n = e.1
    · simp only [he, true_or, if_true, Ctx.zeroed_zeroed, ite_self]
    · simp only [he, false_or, if_false]

/-! ## The range of MON_CLEAR -/

/-- What MON_CLEAR makes of the monitors: the contexts that the table lists from `a` to `z`, zeroed. -/
def clearCtxs (a z : Nat) (s : State) : State := zeroCtxs (s.mon.ctxs.filter (fun e => decide (a ≤ e.1 ∧ e.1 ≤ z))) s

theorem clearCtxs_eq (a z : Nat) (s : State) : clearCtxs a z s = { s with mon := (clearCtxs a z s).mon } := zeroCtxs_eq _ s

theorem clearCtxs_kept (a z : Nat) (s : State) : Kept [.mon] s (clearCtxs a z s) := by
  rw [clearCtxs_eq]
  exact (Kept.upd_mon (by decide) _).2 (Kept.refl _ _)

/-- Every context of the range is zeroed, listed or not, and no other is. -/
theorem clearCtxs_ctx (a z : Nat) (s : State) (n : Nat) :
    (clearCtxs a z s).ctx n = if a ≤ n ∧ n ≤ z then (s.ctx n).zeroed else s.ctx n := by
  have hnamed : n ∈ (s.mon.ctxs.filter (fun e => decide (a ≤ e.1 ∧ e.1 ≤ z))).map Prod.fst ↔ (a ≤ n ∧ n ≤ z) ∧ n ∈ s.mon.ctxs.map Prod.fst := by
    simp [and_comm]
  rw [clearCtxs, zeroCtxs_ctx]
  by_cases hl : n ∈ s.mon.ctxs.map Prod.fst
  · simp only [hnamed, hl, and_true]
  · have hzero : s.ctx n = {} := tget_of_not_mem _ hl
    simp only [hzero, Ctx.zeroed, ite_self]

/-! ## The command -/

/-- MON_CLEAR's own checks and its effect, from its block (R229). -/
def monClearReply (c : Cmd) (b : Nat) (s : State) : Reply :=
  chk [(!ownsRange s c.session.val (fld b 0 16) (fld b 16 16), stBusy), (decide (fld b 16 16 < fld b 0 16), stInvalid)]
    (.ok (clearCtxs (fld b 0 16) (fld b 16 16) s) 0 0)

theorem exec_monClear (c : Cmd) (p : Block) (s : State) :
    exec (.monClear c p) s = zci 0x0703 1 (fun _ => [(0, 16), (16, 16)]) c p s (monClearReply c) := rfl

/-- The checks and the effect in terms of the operand. -/
theorem monClearReply_blk (c : Cmd) (p : Block) (s : State) :
    monClearReply c (blk p 1) s = chk [(!ownsRange s c.session.val (arg p 0 16) (arg p 16 16), stBusy), (decide (arg p 16 16 < arg p 0 16), stInvalid)]
      (.ok (clearCtxs (arg p 0 16) (arg p 16 16) s) 0 0) := by
  rw [monClearReply, fld_arg p 1 0 16 (by decide), fld_arg p 1 16 16 (by decide)]

/-- MON_CLEAR refuses LAST < FIRST of an owner with INVALID_PARAM. -/
theorem monClear_refused {c : Cmd} {p : Block} {s : State} (h : zciReady 0x0703 1 (fun _ => [(0, 16), (16, 16)]) c p s = true)
    (hown : ownsRange (seen 0x0703 c s) c.session.val (arg p 0 16) (arg p 16 16) = true) (hlt : arg p 16 16 < arg p 0 16) :
    ∃ t, exec (.monClear c p) s = .next t ∧ Refused 0x0703 c stInvalid s t := by
  refine command_refused (exec_monClear c p s) rfl h rfl ?_
  rw [monClearReply_blk]
  exact chk_fail (by simp [firstFailing, hown, hlt])

/-- MON_CLEAR of an owner completes with SUCCESS and leaves the monitors with the range cleared. -/
theorem monClear_answered {c : Cmd} {p : Block} {s : State} (h : zciReady 0x0703 1 (fun _ => [(0, 16), (16, 16)]) c p s = true)
    (hown : ownsRange (seen 0x0703 c s) c.session.val (arg p 0 16) (arg p 16 16) = true) (hle : arg p 0 16 ≤ arg p 16 16) :
    ∃ t, exec (.monClear c p) s = .next t ∧
      Answered c (cplOf 0x0703 c 0 0 0 s) (clearCtxs (arg p 0 16) (arg p 16 16) (seen 0x0703 c s)) t ∧
      Left c [.mon] s (clearCtxs (arg p 0 16) (arg p 16 16) (seen 0x0703 c s)) t := by
  refine command_ok [.mon] (exec_monClear c p s) rfl h (by decide) (monClearReply_blk c p _) ?_ (clearCtxs_kept _ _ _)
  simpa [hown] using hle

/-- What a command's own rules see of a context is what the state before it holds. -/
@[simp] theorem seen_ctx (op : Nat) (c : Cmd) (s : State) (n : Nat) : (seen op c s).ctx n = s.ctx n := by
  unfold State.ctx; rw [seen_mon]

/-- Settles O16: MON_CLEAR leaves the monitors of `clearCtxs`, in which a context is zeroed exactly where it lies in the range. -/
theorem monitorClear : Obligations.MonitorClear := by
  unfold Obligations.MonitorClear
  refine ⟨shared_row rfl exec_monClear, fun c p s h => ?_⟩
  intro a z hown
  refine ⟨monClear_refused h hown, fun hle => ?_⟩
  obtain ⟨t, ht, hans, hleft⟩ := monClear_answered h hown hle
  have hctx : ∀ n, t.ctx n = if a ≤ n ∧ n ≤ z then (s.ctx n).zeroed else s.ctx n := fun n => by
    rw [← seen_ctx 0x0703 c s, ← clearCtxs_ctx]
    unfold State.ctx; rw [hleft.mon]
  refine ⟨t, ht, ?completed, hleft.kept, fun n ha hz => ?inside, fun n hout => ?outside⟩
  case completed =>
    rw [clearCtxs_eq] at hans
    exact hans.1
  case inside =>
    have hzero : t.ctx n = (s.ctx n).zeroed := by rw [hctx, if_pos ⟨ha, hz⟩]
    simp [hzero, Ctx.zeroed]
  case outside => rw [hctx, if_neg (by omega)]

end Sys2Proof.Machine
end

section
/-! SUPPORT AND PROOF. GROVE_SET_BARRIER (10_grove_dsp_cluster.md, R353): the checks of a session that owns what it names decide between three
outcomes, and the group it names is all that a command which passes them writes. -/

namespace Sys2Proof.Machine

/-! ## What the command makes of a group -/

/-- A group after GROVE_SET_BARRIER: enabling gives it its members with nothing arrived and nothing broken, disabling turns it off as it is. -/
def Barrier.configured (en : Bool) (m : Nat) (b : Barrier) : Barrier := if en then { on := true, members := m } else { b with on := false }

@[simp] theorem Barrier.configured_on (en : Bool) (m : Nat) (b : Barrier) : (b.configured en m).on = en := by cases en <;> rfl

/-- No core has arrived at a group after the command, if none waited at it before. -/
theorem Barrier.configured_arrived {b : Barrier} (h : b.arrived = 0) (en : Bool) (m : Nat) : (b.configured en m).arrived = 0 := by
  cases en
  case false => exact h
  case true => rfl

/-- What a command's own rules see of a core is what the state before it holds. -/
@[simp] theorem seen_core (op : Nat) (c : Cmd) (s : State) (n : Nat) : (seen op c s).core n = s.core n := by
  unfold State.core; rw [seen_grove]

/-- What a command's own rules see of a barrier group is what the state before it holds. -/
@[simp] theorem seen_bar (op : Nat) (c : Cmd) (s : State) (n : Nat) : (seen op c s).bar n = s.bar n := by
  unfold State.bar; rw [seen_grove]

/-- The cores are those that the command's own rules left. -/
theorem Left.core {c : Cmd} {L : List Part} {s s' t : State} (h : Left c L s s' t) (n : Nat) : t.core n = s'.core n := by
  unfold State.core; rw [h.grove]

/-- The barrier groups are those that the command's own rules left. -/
theorem Left.bar {c : Cmd} {L : List Part} {s s' t : State} (h : Left c L s s' t) (n : Nat) : t.bar n = s'.bar n := by
  unfold State.bar; rw [h.grove]

/-! ## The command -/

/-- GROVE_SET_BARRIER's own checks, of session `n` for group `k` and members `m` (R353). -/
def barrierChecks (s : State) (n k m : Nat) (en : Bool) : List (Bool × Nat) :=
  [(!owns s n 0x11 k || (maskBits 64 m).any (fun i => !ownsCore s n i), stBusy), (en && m == 0, stInvalid), ((s.bar k).arrived != 0, stState)]

/-- The checks of a session that owns the group and the cores it names: no members to enable, then a core that waits. -/
theorem firstFailing_barrierChecks {s : State} {n k m : Nat} (hown : owns s n 0x11 k = true)
    (hcores : (maskBits 64 m).any (fun i => !ownsCore s n i) = false) (en : Bool) :
    firstFailing (barrierChecks s n k m en) =
      if en = true ∧ m = 0 then some stInvalid else if (s.bar k).arrived ≠ 0 then some stState else none := by
  simp [barrierChecks, firstFailing, hown, hcores]

/-- GROVE_SET_BARRIER's own checks and its effect, from its block (R353). -/
def setBarrierReply (c : Cmd) (b : Nat) (s : State) : Reply :=
  chk (barrierChecks s c.session.val (fld b 0 3) (fld b 64 64) (bit b 8))
    (.ok (s.setBar (fld b 0 3) ((s.bar (fld b 0 3)).configured (bit b 8) (fld b 64 64))) 0 0)

theorem exec_groveSetBarrier (c : Cmd) (p : Block) (s : State) :
    exec (.groveSetBarrier c p) s = zci 0x0906 2 (fun _ => [(0, 3), (8, 1), (64, 64)]) c p s (setBarrierReply c) := rfl

/-- The checks and the effect in terms of the operand. -/
theorem setBarrierReply_blk (c : Cmd) (p : Block) (s : State) :
    setBarrierReply c (blk p 2) s = chk (barrierChecks s c.session.val (arg p 0 3) (arg p 64 64) (argBit p 8))
      (.ok (s.setBar (arg p 0 3) ((s.bar (arg p 0 3)).configured (argBit p 8) (arg p 64 64))) 0 0) := by
  rw [setBarrierReply, fld_arg p 2 0 3 (by decide), fld_arg p 2 64 64 (by decide), bit_argBit p 2 8 (by decide)]

section
variable {c : Cmd} {p : Block} {s : State} (hready : zciReady 0x0906 2 (fun _ => [(0, 3), (8, 1), (64, 64)]) c p s = true)
include hready

/-- GROVE_SET_BARRIER is refused with the STATUS of the first of its checks that fails. -/
theorem groveSetBarrier_refused {st : Nat}
    (hfail : firstFailing (barrierChecks (seen 0x0906 c s) c.session.val (arg p 0 3) (arg p 64 64) (argBit p 8)) = some st) :
    ∃ t, exec (.groveSetBarrier c p) s = .next t ∧ Refused 0x0906 c st s t :=
  command_refused (exec_groveSetBarrier c p s) rfl hready rfl ((setBarrierReply_blk c p _).trans (chk_fail hfail))

/-- GROVE_SET_BARRIER whose checks pass completes with SUCCESS and leaves the group configured. -/
theorem groveSetBarrier_answered
    (hpass : firstFailing (barrierChecks (seen 0x0906 c s) c.session.val (arg p 0 3) (arg p 64 64) (argBit p 8)) = none) :
    let x := (seen 0x0906 c s).setBar (arg p 0 3) ((s.bar (arg p 0 3)).configured (argBit p 8) (arg p 64 64))
    ∃ t, exec (.groveSetBarrier c p) s = .next t ∧ Answered c (cplOf 0x0906 c 0 0 0 s) x t ∧ Left c [.grove] s x t := by
  refine command_ok [.grove] (exec_groveSetBarrier c p s) rfl hready (by decide) ?reply (firstFailing_none hpass) (State.setBar_kept _ _ _)
  rw [setBarrierReply_blk, seen_bar]

end

/-- Settles O17: the checks of an owner fail for an enabled group without members, else while a core waits; where they pass, the group named is
configured and no other group and no core is written. -/
theorem barrierCommand : Obligations.BarrierCommand := by
  unfold Obligations.BarrierCommand
  refine ⟨shared_row rfl exec_groveSetBarrier, fun c p s hready => ?_⟩
  intro k m hown hcores
  have hchecks := firstFailing_barrierChecks hown hcores (argBit p 8)
  rw [seen_bar] at hchecks
  have hsome : argBit p 8 = false ∨ m ≠ 0 → ¬(argBit p 8 = true ∧ m = 0) := fun h ⟨hen, hm⟩ => by simp [hen, hm] at h
  refine ⟨fun hen hm => ?noMembers, fun hmem hwait => ?waiting, fun hmem hnone => ?configured⟩
  case noMembers => exact groveSetBarrier_refused hready (hchecks.trans (if_pos ⟨hen, hm⟩))
  case waiting => exact groveSetBarrier_refused hready (by rw [hchecks, if_neg (hsome hmem), if_pos hwait])
  case configured =>
    obtain ⟨t, ht, hans, hleft⟩ := groveSetBarrier_answered hready (by rw [hchecks, if_neg (hsome hmem), if_neg (not_not_intro hnone)])
    have hbar : t.bar k = (s.bar k).configured (argBit p 8) m := by rw [hleft.bar, State.bar_setBar_self]
    have hothers : ∀ j, j ≠ k → t.bar j = s.bar j := fun j hj => by rw [hleft.bar, State.bar_setBar_ne (h := hj), seen_bar]
    have hcore : ∀ n, t.core n = s.core n := fun n => by rw [hleft.core, State.core_setBar, seen_core]
    refine ⟨t, ht, hans.1, ?on, ?arrived, fun hen => ?enabled, hothers, hcore, hleft.kept⟩
    case on => rw [hbar, Barrier.configured_on]
    case arrived => rw [hbar, Barrier.configured_arrived hnone]
    case enabled => rw [hbar, hen]; exact ⟨rfl, rfl⟩

end Sys2Proof.Machine
end

section
/-! SUPPORT AND PROOF. The fatal state (13_host_interface_and_zci.md, R470): of the checks that all commands share, the one for FAULTED comes before
every rule of the command's own, so that its opcode alone decides. -/

namespace Sys2Proof.Machine

/-- In the fatal state a command that R470 does not name, taken up and not denied, is refused with FAULTED, whatever its block and its own rules. -/
theorem refused_of_fatal {op units : Nat} {used : Nat → List (Nat × Nat)} {c : Cmd} {p : Block} {s : State} {i : Instr} {body : Nat → State → Reply}
    (he : exec i s = zci op units used c p s body) (hop : opKnown op = true) (hnot : fatalOk op = false)
    (hfront : zciFront op c s = true) (hden : denies s op = false) (hfatal : s.host.engine = 2) :
    ∃ t, exec i s = .next t ∧ Refused op c stFaulted s t := by
  have hcheck : commonCheck op units used c p (seen op c s) = stFaulted := by simp [commonCheck_eq, hden, hfatal, hnot]
  exact thenShared_row he hop hfront (by decide) hcheck (fun _ _ h => h) (fun _ => rfl) (Kept.refl _ _)

/-- A command that R470 names passes the check of the fatal state, and so every shared check where it is taken up, not denied and well formed. -/
theorem zciReady_of_fatalOk {op units : Nat} {used : Nat → List (Nat × Nat)} {c : Cmd} {p : Block} {s : State} (hok : fatalOk op = true)
    (hfront : zciFront op c s = true) (hden : denies s op = false) (hwf : wellFormed units used c p = true) :
    zciReady op units used c p s = true := by
  simp [zciReady, hok, hfront, hden, hwf]

/-- Settles O15: each refused row is by definition a ZCI command of an opcode that `fatalOk` rejects, and `fatalOk` accepts every
opcode that R470 names. -/
theorem fatalStateRefuses : Obligations.FatalStateRefuses := by
  unfold Obligations.FatalStateRefuses
  refine ⟨?refused, fun op hop units used c p s hfront hden _ hwf => ?applied⟩
  case refused =>
    -- Each clause is about one row; `exec` unfolded to the row gives the length, the fields and the rules of its `zci`.
    dsimp only
    and_intros
    all_goals
      intros
      rename_i hfront hden hfatal
      exact refused_of_fatal (by delta exec; rfl) rfl rfl hfront hden hfatal
  case applied =>
    have hok : fatalOk op = true := List.all_eq_true.1 (by decide) op hop
    exact zciReady_of_fatalOk hok hfront hden hwf

end Sys2Proof.Machine
end

section
/-! SUPPORT AND PROOF. What every step does, whatever the command at the front of the queue (R245, R250): one inversion lemma over the rows, from
which the queue, the two counts and the posted events follow. -/

namespace Sys2Proof.Machine

/-! ## The queue -/

/-- Settles O1: it is the branch of `step` for a queue with a front. -/
theorem stepRunsFrontCommand : Obligations.StepRunsFrontCommand := by
  unfold Obligations.StepRunsFrontCommand
  intro c rest s hq
  rw [step, hq]

/-- Settles O2: it is the branch of `step` for the empty queue. -/
theorem emptyQueueIdles : Obligations.EmptyQueueIdles := by
  unfold Obligations.EmptyQueueIdles
  intro s hq
  rw [step, hq]

/-! ## What a row can answer -/

/-- A row acts on the engine; or it writes the power signals alone, where RST_N_RELEASE starts the Canopy count again; or it resets the engine, of
which no posted event is left. -/
inductive RowAnswer (i : Instr) (s : State) : Prop where
  | acts (h : Acts s (exec i s))
  | signals (n : Tick) (p : Pwr) (h : exec i s = .next { s with now := n, pwr := p }) (hn : n = s.now ∨ (n = 0 ∧ restarts i = true))
  | resets (t : Tick) (f : State → State) (h : exec i s = actReset t s f) (hf : ∀ x, (f x).host.evtNow = []) (hi : restarts i = true)

/-- A row that leaves the state as it is writes no power signal either. -/
theorem RowAnswer.same {i : Instr} {s : State} (h : exec i s = .next s) : RowAnswer i s := .signals s.now s.pwr h (.inl rfl)

/-- Every row of the table has one of these answers: those of power, reset and HP_PERST by their branches, every other one because it acts. -/
theorem rowAnswer (i : Instr) (s : State) : RowAnswer i s := by
  by_cases hplain : restarts i = false ∧ actsWhileDown i = false
  · exact .acts (exec_acts i s hplain.1 hplain.2)
  cases i with
  | powerOn t waited tj =>
    have hrow : exec (.powerOn t waited tj) s = execPowerOn t waited tj s := rfl
    unfold execPowerOn at hrow
    split at hrow
    · exact .same hrow
    · exact .resets t _ hrow (fun _ => rfl) rfl
  | powerDown t =>
    have hrow : exec (.powerDown t) s = execPowerDown t s := rfl
    unfold execPowerDown at hrow
    split at hrow
    · exact .same hrow
    · exact .resets t _ hrow (fun _ => rfl) rfl
  | thermalTrip t rs =>
    have hrow : exec (.thermalTrip t rs) s = execThermalTrip t rs s := rfl
    unfold execThermalTrip at hrow
    split at hrow
    · exact .same hrow
    · exact .resets t _ hrow (fun _ => rfl) rfl
  | firmwareStartTimeout t =>
    have hrow : exec (.firmwareStartTimeout t) s = execFirmwareStartTimeout t s := rfl
    unfold execFirmwareStartTimeout at hrow
    split at hrow
    · exact .same hrow
    · exact .resets t _ hrow (fun _ => rfl) rfl
  | rstNRelease t =>
    have hrow : exec (.rstNRelease t) s = execRstNRelease t s := rfl
    unfold execRstNRelease at hrow
    split at hrow
    · exact .same hrow
    · exact .signals 0 _ hrow (.inr ⟨rfl, rfl⟩)
  | deviceReset t held =>
    have hrow : exec (.deviceReset t held) s = execDeviceReset t held s := rfl
    unfold execDeviceReset at hrow
    split_ifs at hrow
    · exact .same hrow
    · exact .resets t _ hrow (fun _ => rfl) rfl
    · exact .resets t _ hrow (fun x => by split <;> rfl) rfl
    · exact .acts (hrow ▸ acts_act t s _)
  | hostInterfaceReset t cause =>
    have hrow : exec (.hostInterfaceReset t cause) s = execHostInterfaceReset t cause s := rfl
    unfold execHostInterfaceReset at hrow
    split at hrow
    · exact .signals s.now _ hrow (.inl rfl)
    · exact .acts (hrow ▸ acts_act t s _)
  | hpPerstRelease t =>
    have hrow : exec (.hpPerstRelease t) s = execHpPerstRelease t s := rfl
    unfold execHpPerstRelease at hrow
    split at hrow
    · exact .signals s.now _ hrow (.inl rfl)
    · exact .acts (hrow ▸ acts_act t s _)
  | _ => exact absurd ⟨rfl, rfl⟩ hplain

/-- No event waits for a tick before the Canopy count begins. -/
theorem State.evTick_of_now_zero {s : State} (h : s.now = 0) : s.evTick = 0 := by
  simp [State.evTick, h]

/-- Every row keeps that no event of a tick that is over waits. -/
theorem RowAnswer.sends {i : Instr} {s u : State} (h : RowAnswer i s) (hs : EventsSent s) (hu : exec i s = .next u) : EventsSent u := by
  cases h with
  | acts h => exact h.sends hs hu
  | signals n p h hn =>
    cases h.symm.trans hu
    rcases hn with rfl | ⟨rfl, -⟩
    · exact hs
    · intro e _
      rw [State.evTick_of_now_zero rfl]
      exact Nat.zero_le _
  | resets t f h hf hi =>
    refine actReset_sends (fun e he => ?_) (h.symm.trans hu)
    rw [hf] at he
    cases he

/-- Every row answers a next state and leaves the queue; no count falls, but the Canopy count where the row starts it again. -/
theorem RowAnswer.answers {i : Instr} {s : State} (h : RowAnswer i s) :
    ∃ u, exec i s = .next u ∧ u.pending = s.pending ∧ s.freeNo ≤ u.freeNo ∧ (restarts i = false → s.now ≤ u.now) := by
  cases h with
  | acts h =>
    obtain ⟨u, hu, hp, hf, hn⟩ := h.answers
    exact ⟨u, hu, hp, hf, fun _ => hn⟩
  | signals n p h hn =>
    refine ⟨_, h, rfl, Nat.le_refl _, fun hr => ?_⟩
    rcases hn with rfl | ⟨-, hi⟩
    · exact Nat.le_refl _
    · rw [hr] at hi; cases hi
  | resets t f h hf hi =>
    obtain ⟨u, hu, hp, hf⟩ := actReset_answers t s f
    exact ⟨u, h.trans hu, hp, hf, fun hr => by rw [hr] at hi; cases hi⟩

/-! ## A step -/

/-- Settles O5: taking a command off the queue moves no event, and its row sends what it finds. -/
theorem stepsSendEveryEvent : Obligations.StepsSendEveryEvent := by
  unfold Obligations.StepsSendEveryEvent
  intro s t hs ht
  unfold step at ht
  split at ht
  case h_1 => cases ht; exact hs
  case h_2 c rest hq =>
    have hs' : EventsSent { s with pending := rest } := hs
    exact (rowAnswer c _).sends hs' ht

/-- Settles O6: an empty queue leaves the state, and every row answers on the rest of the queue. -/
theorem stepsNeverStop : Obligations.StepsNeverStop := by
  unfold Obligations.StepsNeverStop
  intro s
  cases hq : s.pending with
  | nil => exact ⟨s, emptyQueueIdles s hq, hq, Nat.le_refl _, fun _ _ h => by cases h⟩
  | cons c rest =>
    obtain ⟨u, hu, hp, hf, hn⟩ := (rowAnswer c { s with pending := rest }).answers
    refine ⟨u, (stepRunsFrontCommand c rest s hq).trans hu, hp, hf, fun c' rest' h hr => ?_⟩
    cases h
    exact hn hr

/-! ## Reset, and an engine that is down -/

/-- Settles O4: every memory of `State.reset` is the empty table, and every list of the host interface is empty. -/
theorem resetMeetsInvariants : Obligations.ResetMeetsInvariants := by
  unfold Obligations.ResetMeetsInvariants
  exact ⟨⟨rfl, rfl, rfl, fun _ _ => rfl⟩, rfl, rfl, rfl, rfl, fun _ he => absurd he List.not_mem_nil⟩

/-- Settles O7: a row that acts does nothing without power or in reset; of those that may reset the engine, DEVICE_RESET and
FIRMWARE_START_TIMEOUT alone are no rows of the supply or of RST_N, and both ask first whether the engine is up. -/
theorem downEngineStays : Obligations.DownEngineStays := by
  unfold Obligations.DownEngineStays
  intro i s hdown hi
  by_cases hr : restarts i = false
  · exact (exec_acts i s hr hi).stays hdown
  cases i with
  | deviceReset t held => exact if_pos hdown
  | firmwareStartTimeout t => exact if_pos (by simp [hdown])
  | powerOn | powerDown | thermalTrip | rstNRelease => cases hi
  | _ => exact absurd rfl hr

end Sys2Proof.Machine
end

section
/-! SUPPORT AND PROOF. Single operations: results in flight in a Grove core (R330), the order and the fate of event records (R250, R462), counters
(R511) and byte memory. -/

namespace Sys2Proof.Machine

/-! ## A result in flight (R330) -/

/-- What a write of a general register leaves of the registers of its bank. -/
theorem GCore.rdG_wrG (x : GCore) (b i j : Nat) (v : Word) : (x.wrG b i v).rdG b j = if j = i then v else x.rdG b j := by
  unfold GCore.rdG GCore.wrG
  split <;> simp [tget_tput, *]

/-- The one outstanding write of a core has landed from its position on, and not before. -/
theorem GCore.settle_wr {x : GCore} (hnone : x.pend = []) (L p : Nat) (d : Dest) (v : Nat) :
    (x.wr L d v).settle p = if x.issued + L ≤ p then x.land ⟨x.issued + L, d, v⟩ else x.wr L d v := by
  unfold GCore.settle GCore.wr
  rw [hnone]
  split
  case isTrue h =>
    have hx : ({ x with pend := [] } : GCore) = x := by rw [← hnone]
    simp [h, Nat.not_lt.2 h, hx]
  case isFalse h => simp [h, Nat.not_le.1 h]

/-- Settles O8: the write lands at position `issued + L`, and landing it writes the register it names alone. -/
theorem groveResultLatency : Obligations.GroveResultLatency := by
  unfold Obligations.GroveResultLatency
  intro x L b i v k hnone
  have hlanded : x.land ⟨x.issued + L, .g b i, v⟩ = x.wrG b i (BitVec.ofNat 32 v) := rfl
  have hwaits : ∀ j, (x.wr L (.g b i) v).rdG b j = x.rdG b j := fun _ => rfl
  simp only [GCore.settle_wr hnone, Nat.add_le_add_iff_left, hlanded]
  refine ⟨fun hk => ?early, fun hk => ?landed, fun j hj => ?other⟩
  case early => rw [if_neg (by omega), hwaits]
  case landed => rw [if_pos hk, GCore.rdG_wrG, if_pos rfl]
  case other =>
    split
    · rw [GCore.rdG_wrG, if_neg hj]
    · exact hwaits j

/-! ## The order of events (R250) -/

theorem evtInsert_perm (e : Nat × EventRecord) (l : List (Nat × EventRecord)) : (evtInsert e l).Perm (e :: l) := by
  induction l with
  | nil => exact .refl _
  | cons x r ih =>
    unfold evtInsert
    split
    · exact (ih.cons x).trans (.swap e x r)
    · exact .refl _

/-- Inserting an event keeps a list in the order of its keys. -/
theorem evtInsert_sorted (e : Nat × EventRecord) {l : List (Nat × EventRecord)} (h : l.Pairwise (fun a b => evtKey a ≤ evtKey b)) :
    (evtInsert e l).Pairwise (fun a b => evtKey a ≤ evtKey b) := by
  induction l with
  | nil => exact List.pairwise_singleton _ _
  | cons x r ih =>
    obtain ⟨hx, hr⟩ := List.pairwise_cons.1 h
    unfold evtInsert
    split
    case isTrue hle =>
      refine List.pairwise_cons.2 ⟨fun y hy => ?_, ih hr⟩
      rcases List.mem_cons.1 ((evtInsert_perm e r).mem_iff.1 hy) with rfl | hy
      · exact hle
      · exact hx y hy
    case isFalse hgt =>
      refine List.pairwise_cons.2 ⟨fun y hy => ?_, h⟩
      rcases List.mem_cons.1 hy with rfl | hy
      · omega
      · exact Nat.le_trans (by omega) (hx y hy)

/-- The sort is a permutation in the order of the keys. -/
theorem evtSort_sorted (l : List (Nat × EventRecord)) : (evtSort l).Perm l ∧ (evtSort l).Pairwise (fun a b => evtKey a ≤ evtKey b) := by
  have hfold : ∀ (l a : List (Nat × EventRecord)), a.Pairwise (fun a b => evtKey a ≤ evtKey b) →
      (l.foldl (fun a e => evtInsert e a) a).Perm (a ++ l) ∧ (l.foldl (fun a e => evtInsert e a) a).Pairwise (fun a b => evtKey a ≤ evtKey b) := by
    intro l
    induction l with
    | nil => intro a ha; simpa using ha
    | cons e r ih =>
      intro a ha
      obtain ⟨hp, hs⟩ := ih _ (evtInsert_sorted e ha)
      exact ⟨hp.trans (((evtInsert_perm e a).append_right r).trans List.perm_middle.symm), hs⟩
  exact hfold l [] .nil

/-- A source number has at most 16 bits: no field of Table 7-3 is wider. -/
theorem evtSource_lt (code pay : Nat) : evtSource code pay < 65536 := by
  have hfld : ∀ lo w, w ≤ 16 → fld pay lo w < 65536 := fun lo w hw =>
    Nat.lt_of_lt_of_le (Nat.mod_lt _ (by positivity)) (Nat.pow_le_pow_right (by decide) hw)
  unfold evtSource
  split
  · exact hfld _ _ (Nat.le_refl _)
  · refine hfld _ _ ?_
    have hall : ∀ w ∈ [4, 8, 2, 8, 8, 3, 1, 16, 4, 6, 6, 5, 4, 16, 6], w ≤ 16 := by decide
    rw [List.getD_eq_getElem?_getD]
    cases hw : [4, 8, 2, 8, 8, 3, 1, 16, 4, 6, 6, 5, 4, 16, 6][code / 256]? with
    | none => exact Nat.zero_le _
    | some w => exact hall w (List.mem_of_getElem? hw)

/-- Of two numbers of two digits the larger has the larger first digit, or the same first and the larger second one. -/
theorem digit_le {n x y a b : Nat} (h : x * n + a ≤ y * n + b) (hb : b < n) : x < y ∨ (x = y ∧ a ≤ b) := by
  rcases Nat.lt_trichotomy x y with hlt | rfl | hgt
  · exact .inl hlt
  · exact .inr ⟨rfl, by omega⟩
  · have hstep : y * n + n ≤ x * n := by rw [← Nat.succ_mul]; exact Nat.mul_le_mul_right n hgt
    omega

/-- The key compares tick, position, group, source and code in this order, where each lies in its field of the key. -/
theorem evtKey_le {a b : Nat × EventRecord} (h : evtKey a ≤ evtKey b) (ha : a.1 < 16 ∧ a.2.code < 2^16) (hb : b.1 < 16 ∧ b.2.code < 2^16) :
    a.2.time < b.2.time ∨ (a.2.time = b.2.time ∧ (a.1 < b.1 ∨ (a.1 = b.1 ∧ (a.2.code / 256 < b.2.code / 256 ∨ (a.2.code / 256 = b.2.code / 256 ∧
      (evtSource a.2.code a.2.payload < evtSource b.2.code b.2.payload ∨
        (evtSource a.2.code a.2.payload = evtSource b.2.code b.2.payload ∧ a.2.code ≤ b.2.code))))))) := by
  obtain ⟨hpa, hca⟩ := ha
  obtain ⟨hpb, hcb⟩ := hb
  have hle : ∀ {x y a b : Nat}, (x < y ∨ (x = y ∧ a ≤ b)) → x ≤ y := fun h => h.elim Nat.le_of_lt (fun h => Nat.le_of_eq h.1)
  have hcode := digit_le h (Nat.mod_lt _ (by decide))
  have hsrc := digit_le (hle hcode) (evtSource_lt _ _)
  have hgrp := digit_le (hle hsrc) (Nat.div_lt_of_lt_mul hcb)
  have hpos := digit_le (hle hgrp) hpb
  rcases hpos with htime | ⟨htime, -⟩
  · exact .inl htime
  · exact .inr ⟨htime, by omega⟩

/-- Settles O9: the sort is by the key, and the key compares what R250 names. -/
theorem eventsEnterInOrder : Obligations.EventsEnterInOrder := by
  unfold Obligations.EventsEnterInOrder
  intro l
  obtain ⟨hp, hs⟩ := evtSort_sorted l
  refine ⟨hp, fun hl => hs.imp_of_mem fun ha hb h => ?_⟩
  exact evtKey_le h (hl _ (hp.mem_iff.1 ha)) (hl _ (hp.mem_iff.1 hb))

/-! ## An event record and the ring (R449, R462) -/

theorem sat32_eq (v : Nat) : sat32 v = min (v + 1) (2^32 - 1) := by
  unfold sat32 satAdd
  omega

section
variable {s : State} {e : EventRecord} (hmask : bit s.host.evtMask.toNat (e.code / 256) = true)
include hmask

theorem evtSend_disabled (h : s.host.evtEnable = false) : evtSend s e = evtLose s := by simp [evtSend, hmask, h]

theorem evtSend_waiting (hen : s.host.evtEnable = true) (hbm : s.host.busMaster = false) :
    evtSend s e = { s with host := { s.host with evtWait := s.host.evtWait ++ [e] } } := by simp [evtSend, hmask, hen, hbm]

theorem evtSend_write (hen : s.host.evtEnable = true) (hbm : s.host.busMaster = true) : evtSend s e = evtWrite s e := by
  simp [evtSend, hmask, hen, hbm]

/-- A record that finds no place is counted. -/
theorem evtSend_lost (h : s.host.evtEnable = false ∨ (s.host.busMaster = true ∧ evtSize s ≤ evtUnread s + 1)) : evtSend s e = evtLose s := by
  cases hen : s.host.evtEnable with
  | false => exact evtSend_disabled hmask hen
  | true =>
    obtain ⟨hbm, hfull⟩ := h.resolve_left (by simp [hen])
    rw [evtSend_write hmask hen hbm, evtWrite, if_pos (by simp [hfull])]

end

/-- The host interface with the record written at EVT_TAIL, before any signal. -/
def HostIf.evtPut (h : HostIf) (z : Nat) (e : EventRecord) : HostIf :=
  { h with evRing := tput {} h.evRing h.evtTail { e with loss := h.evtLossPend, phase := h.evtPhase }, evtTail := (h.evtTail + 1) % z,
           evtPhase := if (h.evtTail + 1) % z = 0 then !h.evtPhase else h.evtPhase, evtLossPend := false, evtUnsig := h.evtUnsig + 1 }

/-- A signal writes MSI-X entries alone. -/
theorem signal_host (s : State) (v : Nat) : (signal s v).host = { s.host with msix := (signal s v).host.msix } := by
  unfold signal
  split
  · rfl
  · dsimp only; split <;> rfl

/-- A record that enters the ring may end in a signal. -/
theorem evtWrite_eq {s : State} {e : EventRecord} (hen : s.host.evtEnable = true) (hroom : evtUnread s + 1 < evtSize s) :
    let s1 := { s with host := s.host.evtPut (evtSize s) e }
    evtWrite s e = if evtIrq s1 && (evtThresh s1 == 0 || evtUnread s1 == evtThresh s1) then
      signal { s1 with host := { s1.host with evtUnsig := 0 } } (evtVector s1) else s1 := by
  unfold evtWrite
  rw [if_neg (by simp [hen, hroom])]
  rfl

/-- Where the ring has room, a record enters it; a signal that follows writes MSI-X entries and the count of unsignalled records alone. -/
theorem evtWrite_room {s : State} {e : EventRecord} (hen : s.host.evtEnable = true) (hroom : evtUnread s + 1 < evtSize s) :
    (evtWrite s e).host = { s.host.evtPut (evtSize s) e with evtUnsig := (evtWrite s e).host.evtUnsig, msix := (evtWrite s e).host.msix } := by
  rw [evtWrite_eq hen hroom]
  split
  · rw [signal_host]
  · rfl

/-- Settles O10: the four branches of `evtSend`. -/
theorem eventRingTakesOrLoses : Obligations.EventRingTakesOrLoses := by
  unfold Obligations.EventRingTakesOrLoses
  intro s e
  refine ⟨fun hmask => by simp [evtSend, hmask], fun hmask => ⟨fun h => ?lost, fun hen hbm => ?waits, fun hen hbm hroom => ?written⟩⟩
  case lost =>
    rw [evtSend_lost hmask h]
    exact ⟨rfl, rfl, sat32_eq _, rfl⟩
  case waits =>
    rw [evtSend_waiting hmask hen hbm]
    exact ⟨rfl, rfl, rfl⟩
  case written =>
    rw [evtSend_write hmask hen hbm, evtWrite_room hen hroom]
    exact ⟨tget_tput_self _ _ _ _, rfl, rfl, rfl, rfl⟩

/-! ## Counters (R511) -/

/-- Settles O11: the two branches of `Perf.count`, at the largest value of 48 bits. -/
theorem countersSaturate : Obligations.CountersSaturate := by
  unfold Obligations.CountersSaturate
  intro c v n
  have hcount : c.count v = if n < 2^48 then { c with value := n } else { c with value := 2^48 - 1, sat := true } := rfl
  rw [hcount]
  clear_value n
  by_cases h : n < 2^48
  · rw [if_pos h]
    exact ⟨(Nat.min_eq_left (Nat.le_pred_of_lt h)).symm, by rw [decide_eq_false (Nat.not_le.2 h), Bool.or_false], rfl, rfl, rfl, rfl⟩
  · rw [if_neg h]
    exact ⟨(Nat.min_eq_right ((Nat.sub_le _ _).trans (Nat.not_lt.1 h))).symm, by rw [decide_eq_true (Nat.not_lt.1 h), Bool.or_true], rfl, rfl, rfl, rfl⟩

/-! ## Byte memory -/

theorem rdBytes_eq_ofFn (m : Mem) (a n : Nat) : rdBytes m a n = List.ofFn (fun i : Fin n => rdByte m (a + i)) := by
  induction n generalizing a with
  | zero => rfl
  | succ n ih => rw [rdBytes, ih, List.ofFn_succ]; simp [Nat.add_comm, Nat.add_left_comm]

/-- A filter on keys leaves the entries whose keys pass and makes every other one the default. -/
theorem tget_filter {α : Type} (d : α) (f : Nat → Bool) (t : Tab α) (i : Nat) : tget d (t.filter (fun e => f e.1)) i = if f i then tget d t i else d := by
  induction t with
  | nil => simp [tget]
  | cons e r ih =>
    obtain ⟨j, w⟩ := e
    rw [List.filter_cons]
    by_cases hj : j = i
    · subst hj
      cases hf : f j <;> simp_all [tget]
    · split <;> simp [tget, hj, ih]

/-- Settles O12: a read is the list of its bytes, and zeroing filters the entries of its range out. -/
theorem memoryReadsBack : Obligations.MemoryReadsBack := by
  unfold Obligations.MemoryReadsBack
  refine ⟨fun m a l => ?back, fun m a n k _ => ?zeroed⟩
  case back =>
    rw [rdBytes_eq_ofFn]
    refine List.ext_getElem (by simp) fun i h₁ h₂ => ?_
    rw [List.getElem_ofFn]
    exact rdByte_wrBytes_in m a i l h₂
  case zeroed =>
    have hz := tget_filter (0 : Byte) (fun j => decide (j < a) || decide (a + n ≤ j)) m k
    rw [rdByte, zeroBytes, hz]
    by_cases hin : a ≤ k ∧ k < a + n
    · rw [if_neg (by simp; omega), if_pos hin]
    · rw [if_pos (by simp; omega), if_neg hin, rdByte]

end Sys2Proof.Machine
end

section
/-! SUPPORT. A ZCI command that is taken up, from the function that its row runs: refused by the first of its own checks that fails, else what its
rules reply (R465). Each lemma is the `command_` lemma of that reply, stated for a body whose checks have passed. -/

namespace Sys2Proof.Machine

/-- The row `i` dispatches to `o`, and `o` runs the command `op` with the rules `body` of its own. -/
structure Runs (i : Instr) (o : Host.Outcome State Fault Refusal) (op units : Nat) (used : Nat → List (Nat × Nat)) (c : Cmd) (p : Block) (s : State)
    (body : Nat → State → Reply) : Prop where
  dispatch : exec i s = o
  command : o = zci op units used c p s body
  known : opKnown op = true

section
variable {op units : Nat} {used : Nat → List (Nat × Nat)} {c : Cmd} {p : Block} {s s' : State} {i : Instr} {body : Nat → State → Reply}
  {l : List (Bool × Nat)} {o : Host.Outcome State Fault Refusal} {L : List Part}

theorem Runs.exec_eq (hr : Runs i o op units used c p s body) : exec i s = zci op units used c p s body := hr.dispatch.trans hr.command

/-- The checks that all commands share. -/
theorem shared_of {i : Cmd → Block → Instr} {f : Cmd → Block → State → Host.Outcome State Fault Refusal} {body : Cmd → Block → Nat → State → Reply}
    (hr : ∀ c p s, Runs (i c p) (f c p s) op units used c p s (body c p)) : Shared op units used i :=
  fun c p s => shared_row (hr c p s).known (fun c p s => (hr c p s).exec_eq) c p s

theorem refuses {st : Nat} (hr : Runs i o op units used c p s body) (h : zciReady op units used c p s = true)
    (hb : body (blk p units) (seen op c s) = .fail st) : ∃ t, exec i s = .next t ∧ Refused op c st s t :=
  command_refused hr.exec_eq hr.known h rfl hb

/-- The first of a command's own checks that fails refuses it. -/
theorem checks_refuse {r : Reply} (hr : Runs i o op units used c p s body) (h : zciReady op units used c p s = true)
    (hb : body (blk p units) (seen op c s) = chk l r) : ∀ st, firstFailing l = some st → ∃ t, exec i s = .next t ∧ Refused op c st s t :=
  fun _ hf => refuses hr h (hb.trans (chk_fail hf))

theorem answers {rl r : Nat} (hr : Runs i o op units used c p s body) (h : zciReady op units used c p s = true) (hh : Part.ses ∉ L)
    (hb : body (blk p units) (seen op c s) = .ok s' rl r) (hk : Kept L (seen op c s) s') :
    ∃ t, exec i s = .next t ∧ Answered c (cplOf op c 0 rl r s) s' t ∧ KeptZ c L s t := by
  obtain ⟨t, ht, ha, hl⟩ := command_ok L hr.exec_eq hr.known h hh (l := []) hb (by simp) hk
  exact ⟨t, ht, ha, hl.kept⟩

theorem fails {st rl r : Nat} (hr : Runs i o op units used c p s body) (h : zciReady op units used c p s = true) (hh : Part.ses ∉ L)
    (hb : body (blk p units) (seen op c s) = .failWith s' st rl r) (hk : Kept L (seen op c s) s') :
    ∃ t, exec i s = .next t ∧ Answered c (cplOf op c st rl r s) s' t ∧ KeptZ c L s t := by
  obtain ⟨t, ht, ha, hl⟩ := command_failWith L hr.exec_eq hr.known h hh (l := []) hb (by simp) hk
  exact ⟨t, ht, ha, hl.kept⟩

theorem defers (hr : Runs i o op units used c p s body) (h : zciReady op units used c p s = true) (hh : Part.ses ∉ L)
    (hb : body (blk p units) (seen op c s) = .deferred s') (hk : Kept L (seen op c s) s') :
    ∃ t, exec i s = .next t ∧ Answered c { cplOf op c 0 0 0 s with deferred := true } s' t ∧ KeptZ c L s t := by
  obtain ⟨t, ht, ha, hl⟩ := command_deferred L hr.exec_eq hr.known h hh (l := []) hb (by simp) hk
  exact ⟨t, ht, ha, hl.kept⟩

theorem waits {u : Nat} {d : List Nat} (hr : Runs i o op units used c p s body) (h : zciReady op units used c p s = true) (hh : Part.ses ∉ L)
    (hb : body (blk p units) (seen op c s) = .later s' u d) (hk : Kept L (seen op c s) s') :
    ∃ t, exec i s = .next t ∧ Waits op c u d [] s' s t ∧ KeptZ c L s t := by
  obtain ⟨t, ht, ha, hl⟩ := command_later L hr.exec_eq hr.known h hh (l := []) hb (by simp) hk
  exact ⟨t, ht, ha, hl.kept⟩

theorem waitsOn {u : Nat} {d regs : List Nat} (hr : Runs i o op units used c p s body) (h : zciReady op units used c p s = true) (hh : Part.ses ∉ L)
    (hb : body (blk p units) (seen op c s) = .laterR s' u d regs) (hk : Kept L (seen op c s) s') :
    ∃ t, exec i s = .next t ∧ Waits op c u d regs s' s t ∧ KeptZ c L s t := by
  obtain ⟨t, ht, ha, hl⟩ := command_laterR L hr.exec_eq hr.known h hh (l := []) hb (by simp) hk
  exact ⟨t, ht, ha, hl.kept⟩

theorem neverCompletes (hr : Runs i o op units used c p s body) (h : zciReady op units used c p s = true) (hh : Part.ses ∉ L)
    (hb : body (blk p units) (seen op c s) = .silent s') (hk : Kept L (seen op c s) s') :
    ∃ t, exec i s = .next t ∧ Unanswered c s' t ∧ KeptZ c L s t := by
  obtain ⟨t, ht, ha, hl⟩ := silent_row (L := L) hr.exec_eq hr.known h (l := []) hb (by simp) hk hh
  exact ⟨t, ht, ha, hl.kept⟩

/-! A command with one outcome behind its checks. -/

theorem checked_answers {rl r : Nat} (hr : Runs i o op units used c p s body) (h : zciReady op units used c p s = true) (hh : Part.ses ∉ L)
    (hb : body (blk p units) (seen op c s) = chk l (.ok s' rl r)) (hk : Kept L (seen op c s) s') :
    (∀ st, firstFailing l = some st → ∃ t, exec i s = .next t ∧ Refused op c st s t) ∧
    (firstFailing l = none → ∃ t, exec i s = .next t ∧ Answered c (cplOf op c 0 rl r s) s' t ∧ KeptZ c L s t) :=
  ⟨checks_refuse hr h hb, fun hl => answers hr h hh (hb.trans (chk_none hl)) hk⟩

theorem checked_waits {u : Nat} {d : List Nat} (hr : Runs i o op units used c p s body) (h : zciReady op units used c p s = true) (hh : Part.ses ∉ L)
    (hb : body (blk p units) (seen op c s) = chk l (.later s' u d)) (hk : Kept L (seen op c s) s') :
    (∀ st, firstFailing l = some st → ∃ t, exec i s = .next t ∧ Refused op c st s t) ∧
    (firstFailing l = none → ∃ t, exec i s = .next t ∧ Waits op c u d [] s' s t ∧ KeptZ c L s t) :=
  ⟨checks_refuse hr h hb, fun hl => waits hr h hh (hb.trans (chk_none hl)) hk⟩

theorem checked_waitsOn {u : Nat} {d regs : List Nat} (hr : Runs i o op units used c p s body) (h : zciReady op units used c p s = true)
    (hh : Part.ses ∉ L) (hb : body (blk p units) (seen op c s) = chk l (.laterR s' u d regs)) (hk : Kept L (seen op c s) s') :
    (∀ st, firstFailing l = some st → ∃ t, exec i s = .next t ∧ Refused op c st s t) ∧
    (firstFailing l = none → ∃ t, exec i s = .next t ∧ Waits op c u d regs s' s t ∧ KeptZ c L s t) :=
  ⟨checks_refuse hr h hb, fun hl => waitsOn hr h hh (hb.trans (chk_none hl)) hk⟩

end

/-- A command that leaves the host interface as it was but for what it does not share: no session, command or Bus Master Enable. -/
theorem kept_host {s : State} (h : HostIf) (h1 : h.sessions = s.host.sessions) (h2 : h.cplWait = s.host.cplWait) (h3 : h.inProg = s.host.inProg)
    (h4 : h.busMaster = s.host.busMaster) : Kept [.host] s { s with host := h } :=
  (Kept.upd_host h ⟨.inl (by decide), .inr ⟨h1, h4⟩, .inr ⟨h2, h3⟩⟩).2 (.refl _ _)

end Sys2Proof.Machine
end

section
/-! PROOF. The commands of the system (R472 to R476). -/

namespace Sys2Proof.Machine

/-- Settles O18: each command by its checks, its reply and the frame of its effect. -/
theorem systemCommands : Obligations.SystemCommands := by
  unfold Obligations.SystemCommands
  have getInfo : ∀ c p s, Runs (.sysGetInfo c p) (execSysGetInfo c p s) _ _ _ c p s _ := fun c p s => ⟨rfl, rfl, rfl⟩
  have alloc : ∀ c p s, Runs (.sysAlloc c p) (execSysAlloc c p s) _ _ _ c p s _ := fun c p s => ⟨rfl, rfl, rfl⟩
  have free : ∀ c p s, Runs (.sysFree c p) (execSysFree c p s) _ _ _ c p s _ := fun c p s => ⟨rfl, rfl, rfl⟩
  have getAlloc : ∀ c p s, Runs (.sysGetAlloc c p) (execSysGetAlloc c p s) _ _ _ c p s _ := fun c p s => ⟨rfl, rfl, rfl⟩
  have fwStage : ∀ img c p s, Runs (.sysFwStage c p img) (execSysFwStage c p img s) _ _ _ c p s _ := fun img c p s => ⟨rfl, rfl, rfl⟩
  have fwActivate : ∀ c p s, Runs (.sysFwActivate c p) (execSysFwActivate c p s) _ _ _ c p s _ := fun c p s => ⟨rfl, rfl, rfl⟩
  have reset : ∀ c p s, Runs (.sysReset c p) (execSysReset c p s) _ _ _ c p s _ := fun c p s => ⟨rfl, rfl, rfl⟩
  have nop : ∀ c p s, Runs (.sysNop c p) (execSysNop c p s) _ _ _ c p s _ := fun c p s => ⟨rfl, rfl, rfl⟩
  refine ⟨shared_of getInfo, fun c p s h => ?getInfo, shared_of alloc, fun c p s h => ?alloc, shared_of free, fun c p s h => ?free,
    shared_of getAlloc, fun c p s h => ?getAlloc, fun img => shared_of (fwStage img), fun c p img s h => ?fwStage,
    shared_of fwActivate, fun c p s h => ?fwActivate, shared_of reset, fun c p s h => ?reset, shared_of nop, fun c p s h => ?nop⟩
  case getInfo => exact answers (getInfo c p s) h (by decide) rfl (.refl _ _)
  case alloc =>
    exact checked_answers (alloc c p s) h (by decide) (by simp (disch := decide) only [fld_arg])
      (.foldl _ (fun a u => allocUnit_kept a _ _ u) _ _)
  case free =>
    exact checked_answers (free c p s) h (by decide) (by simp (disch := decide) only [fld_arg])
      (.foldl _ (fun a u => State.setOwnerOf_kept a _ _) _ _)
  case getAlloc => exact checked_answers (getAlloc c p s) h (by decide) (by simp (disch := decide) only [fld_arg]) (.refl _ _)
  case fwStage => exact checked_waits (fwStage img c p s) h (by decide) (by simp (disch := decide) only [fld_arg]) (.refl _ _)
  case fwActivate => exact checked_answers (fwActivate c p s) h (by decide) rfl (kept_host _ rfl rfl rfl rfl)
  case reset =>
    exact ⟨checks_refuse (reset c p s) h rfl,
      fun hl => neverCompletes (reset c p s) h (by decide) (chk_none hl) (kept_host _ rfl rfl rfl rfl)⟩
  case nop => exact answers (nop c p s) h (by decide) rfl (.refl _ _)

end Sys2Proof.Machine
end

section
/-! PROOF. The commands of the front end, the clocks and calibration (R58 to R63, R257 to R262, R309 to R314). -/

namespace Sys2Proof.Machine

/-- Settles O19: each command by its checks, its reply and the frame of its effect. -/
theorem frontEndCommands : Obligations.FrontEndCommands := by
  unfold Obligations.FrontEndCommands
  have setMode : ∀ c p s, Runs (.feSetMode c p) (execFeSetMode c p s) _ _ _ c p s _ := fun c p s => ⟨rfl, rfl, rfl⟩
  have setSource : ∀ c p s, Runs (.feSetSource c p) (execFeSetSource c p s) _ _ _ c p s _ := fun c p s => ⟨rfl, rfl, rfl⟩
  have setAtten : ∀ c p s, Runs (.feSetAtten c p) (execFeSetAtten c p s) _ _ _ c p s _ := fun c p s => ⟨rfl, rfl, rfl⟩
  have stream : ∀ c p s, Runs (.feStream c p) (execFeStream c p s) _ _ _ c p s _ := fun c p s => ⟨rfl, rfl, rfl⟩
  have setProtect : ∀ c p s, Runs (.feSetProtect c p) (execFeSetProtect c p s) _ _ _ c p s _ := fun c p s => ⟨rfl, rfl, rfl⟩
  have getStatus : ∀ c p s, Runs (.feGetStatus c p) (execFeGetStatus c p s) _ _ _ c p s _ := fun c p s => ⟨rfl, rfl, rfl⟩
  refine ⟨shared_of setMode, fun c p s h => ?setMode, shared_of setSource, fun c p s h => ?setSource, shared_of setAtten, fun c p s h => ?setAtten,
    shared_of stream, fun c p s h => ?stream, shared_of setProtect, fun c p s h => ?setProtect, shared_of getStatus, fun c p s h => ?getStatus⟩
  case setMode =>
    refine ⟨checks_refuse (setMode c p s) h (by simp (disch := decide) only [fld_arg, bit_argBit]; rfl), fun hl hc => ?same, fun hl hc => ?other⟩
    case same =>
      refine answers (setMode c p s) h (by decide) ?_ (.refl _ _)
      simp (disch := decide) only [fld_arg, bit_argBit]
      exact (chk_none hl).trans (if_pos hc)
    case other =>
      refine waits (setMode c p s) h (by decide) ?_ (setMode_kept _ _ _ _)
      simp (disch := decide) only [fld_arg, bit_argBit]
      exact (chk_none hl).trans (if_neg (ne_true_of_eq_false hc))
  case setSource =>
    refine checked_answers (setSource c p s) h (by decide) (by simp (disch := decide) only [fld_arg]) ?_
    exact .ite (fun _ => .refl _ _) (fun _ => changeSource_kept _ _ _)
  case setAtten =>
    refine checked_answers (setAtten c p s) h (by decide) (by simp (disch := decide) only [fld_arg, bit_argBit]) ?_
    exact .ite (fun _ => .refl _ _) (fun _ => changeAtten_kept _ _ _ _ _)
  case stream =>
    refine ⟨checks_refuse (stream c p s) h (by simp (disch := decide) only [fld_arg, bit_argBit]; rfl), fun hl hc => ?now, fun hl hc => ?later⟩
    case now =>
      refine answers (stream c p s) h (by decide) ?_ (feStreamGo_kept _ _ _ _)
      simp (disch := decide) only [fld_arg, bit_argBit]
      exact (chk_none hl).trans (if_pos hc)
    case later =>
      refine waits (stream c p s) h (by decide) ?_ (.refl _ _)
      simp (disch := decide) only [fld_arg, bit_argBit]
      exact (chk_none hl).trans (if_neg hc)
  case setProtect =>
    exact checked_answers (setProtect c p s) h (by decide) (by simp (disch := decide) only [fld_arg, bit_argBit]) (State.modInp_kept _ _ _)
  case getStatus =>
    refine checked_answers (getStatus c p s) h (by decide) (by simp (disch := decide) only [fld_arg, bit_argBit]) ?_
    exact .ite (fun _ => State.modStr_kept _ _ _) (fun _ => .refl _ _)

/-- Settles O20: each command by its checks, its reply and the frame of its effect. -/
theorem clockCommands : Obligations.ClockCommands := by
  unfold Obligations.ClockCommands
  have setRef : ∀ c p s, Runs (.clkSetRef c p) (execClkSetRef c p s) _ _ _ c p s _ := fun c p s => ⟨rfl, rfl, rfl⟩
  have setPll : ∀ c p s, Runs (.clkSetPll c p) (execClkSetPll c p s) _ _ _ c p s _ := fun c p s => ⟨rfl, rfl, rfl⟩
  have buildHops : ∀ c p s, Runs (.clkBuildHops c p) (execClkBuildHops c p s) _ _ _ c p s _ := fun c p s => ⟨rfl, rfl, rfl⟩
  have setPps : ∀ c p s, Runs (.clkSetPps c p) (execClkSetPps c p s) _ _ _ c p s _ := fun c p s => ⟨rfl, rfl, rfl⟩
  have setTime : ∀ c p s, Runs (.clkSetTime c p) (execClkSetTime c p s) _ _ _ c p s _ := fun c p s => ⟨rfl, rfl, rfl⟩
  have getStatus : ∀ c p s, Runs (.clkGetStatus c p) (execClkGetStatus c p s) _ _ _ c p s _ := fun c p s => ⟨rfl, rfl, rfl⟩
  refine ⟨shared_of setRef, fun c p s h => ?setRef, shared_of setPll, fun c p s h => ?setPll, shared_of buildHops, fun c p s h => ?buildHops,
    shared_of setPps, fun c p s h => ?setPps, shared_of setTime, fun c p s h => ?setTime, shared_of getStatus, fun c p s h => ?getStatus⟩
  case setRef =>
    exact checked_answers (setRef c p s) h (by decide) (by simp (disch := decide) only [fld_arg, bit_argBit])
      ((Kept.upd_clk (by decide) _).2 (.refl _ _))
  case setPll =>
    refine ⟨checks_refuse (setPll c p s) h (by simp (disch := decide) only [fld_arg, bit_argBit]; rfl), fun hl hc => ?relock, fun hl hc => ?keep⟩
    case relock =>
      refine waits (setPll c p s) h (by decide) ?_ (.chain (cmdRelock_kept _ _ _ _) (by decide) (.mono (State.modPll_kept _ _ _) (by decide)))
      simp (disch := decide) only [fld_arg, bit_argBit]
      exact (chk_none hl).trans (if_pos hc)
    case keep =>
      refine answers (setPll c p s) h (by decide) ?_ (State.modPll_kept _ _ _)
      simp (disch := decide) only [fld_arg, bit_argBit]
      refine (chk_none hl).trans ((if_neg (ne_true_of_eq_false hc)).trans ?_)
      simp only [hc, Bool.false_and, Bool.false_eq_true, if_false]
  case buildHops =>
    exact checked_waits (buildHops c p s) h (by decide) (by simp (disch := decide) only [fld_arg])
      (.chain (State.modPll_kept _ _ _) (by decide) (cmdRelock_kept _ _ _ _))
  case setPps =>
    exact checked_answers (setPps c p s) h (by decide) (by simp (disch := decide) only [fld_arg, bit_argBit])
      ((Kept.upd_clk (by decide) _).2 (.refl _ _))
  case setTime => exact checked_waits (setTime c p s) h (by decide) (by simp (disch := decide) only [fld_arg]) (.refl _ _)
  case getStatus =>
    have hread : ∀ s k, Kept [.clk] s (pllRead s k).2 := fun s k => .mono (pllRead_kept s k) (by simp)
    have hreads := (((hread (seen 0x0206 c s) 0).trans (hread _ 1)).trans (hread _ 2)).trans (hread _ 3)
    refine answers (getStatus c p s) h (by decide) (by simp (disch := decide) only [bit_argBit]) ?_
    exact .ite (fun _ => (Kept.upd_clk (by decide) _).2 hreads) (fun _ => hreads)

/-- Settles O21: each command by its checks, its reply and the frame of its effect. -/
theorem calibrationCommands : Obligations.CalibrationCommands := by
  unfold Obligations.CalibrationCommands
  have run : ∀ c p s, Runs (.calRun c p) (execCalRun c p s) _ _ _ c p s _ := fun c p s => ⟨rfl, rfl, rfl⟩
  have setBlind : ∀ c p s, Runs (.calSetBlind c p) (execCalSetBlind c p s) _ _ _ c p s _ := fun c p s => ⟨rfl, rfl, rfl⟩
  have restore : ∀ c p s, Runs (.calRestore c p) (execCalRestore c p s) _ _ _ c p s _ := fun c p s => ⟨rfl, rfl, rfl⟩
  have read : ∀ c p s, Runs (.calRead c p) (execCalRead c p s) _ _ _ c p s _ := fun c p s => ⟨rfl, rfl, rfl⟩
  have getRecord : ∀ c p s, Runs (.calGetRecord c p) (execCalGetRecord c p s) _ _ _ c p s _ := fun c p s => ⟨rfl, rfl, rfl⟩
  have getStatus : ∀ c p s, Runs (.calGetStatus c p) (execCalGetStatus c p s) _ _ _ c p s _ := fun c p s => ⟨rfl, rfl, rfl⟩
  refine ⟨shared_of run, fun c p s h => ?run, shared_of setBlind, fun c p s h => ?setBlind, shared_of restore, fun c p s h => ?restore,
    shared_of read, fun c p s h => ?read, shared_of getRecord, fun c p s h => ?getRecord, shared_of getStatus, fun c p s h => ?getStatus⟩
  case run =>
    exact checked_waitsOn (run c p s) h (by decide) (by simp (disch := decide) only [fld_arg, bit_argBit, sfld_sarg]) (calTake_kept _ _ _)
  case setBlind =>
    exact checked_answers (setBlind c p s) h (by decide) (by simp (disch := decide) only [fld_arg, bit_argBit]) (State.setCalBlind_kept _ _ _)
  case restore =>
    exact checked_waitsOn (restore c p s) h (by decide) (by simp (disch := decide) only [fld_arg]; rfl) (stepAccept_kept _ _ _ _ _ _)
  case read => exact checked_waitsOn (read c p s) h (by decide) (by simp (disch := decide) only [fld_arg]; rfl) (.refl _ _)
  case getRecord => exact checked_waitsOn (getRecord c p s) h (by decide) (by simp (disch := decide) only [fld_arg]; rfl) (.refl _ _)
  case getStatus =>
    exact answers (getStatus c p s) h (by decide) (by simp (disch := decide) only [bit_argBit])
      (.ite (fun _ => (Kept.upd_cal (by decide) _).2 (.refl _ _)) (fun _ => .refl _ _))

end Sys2Proof.Machine
end

section
/-! PROOF. The commands of the spectral engine (R106 to R113), some of which wait for the supply before they raise the ceiling (R521). -/

namespace Sys2Proof.Machine

/-- A command that would start work at the ceiling is refused by its own checks first. -/
theorem ceiling_refuses {e : Bool} {d : List Nat} {s : State} {l : List (Bool × Nat)} {r : Reply} {st : Nat} (hf : firstFailing l = some st) :
    atCeiling e d s (chk l r) = .fail st := by rw [chk_fail hf, atCeiling_fail]

/-- Of two replies that reject nothing, either rejects nothing. -/
theorem rejects_ite {c : Prop} [Decidable c] {a b : Reply} (ha : a.rejects = false) (hb : b.rejects = false) :
    (if c then a else b).rejects = false := by split <;> assumption

/-- A command whose checks pass waits for the supply below 850 mV. -/
theorem ceiling_waits {e : Bool} {d : List Nat} {s : State} {l : List (Bool × Nat)} {r : Reply} (hl : firstFailing l = none) (he : e = true)
    (hv : s.spec.vcore < 850) (hr : r.rejects = false) : atCeiling e d s (chk l r) = .later s ceilingWait d := by
  rw [chk_none hl, atCeiling_wait hr he hv]

/-- A command whose checks pass takes effect where it need not wait for the supply. -/
theorem ceiling_passes {e : Bool} {d : List Nat} {s : State} {l : List (Bool × Nat)} {r : Reply} (hl : firstFailing l = none)
    (hc : (e && decide (s.spec.vcore < 850)) = false) : atCeiling e d s (chk l r) = r := by
  rw [chk_none hl, atCeiling_pass hc]

/-- Settles O22: each command by its checks, its reply and the frame of its effect; those that may raise the ceiling wait for it. -/
theorem spectralCommands : Obligations.SpectralCommands := by
  unfold Obligations.SpectralCommands
  have setLane : ∀ c p s, Runs (.specSetLane c p) (execSpecSetLane c p s) _ _ _ c p s _ := fun c p s => ⟨rfl, rfl, rfl⟩
  have loadWindow : ∀ w c p s, Runs (.specLoadWindow c p w) (execSpecLoadWindow c p w s) _ _ _ c p s _ := fun w c p s => ⟨rfl, rfl, rfl⟩
  have setDdc : ∀ c p s, Runs (.specSetDdc c p) (execSpecSetDdc c p s) _ _ _ c p s _ := fun c p s => ⟨rfl, rfl, rfl⟩
  have tuneDdc : ∀ c p s, Runs (.specTuneDdc c p) (execSpecTuneDdc c p s) _ _ _ c p s _ := fun c p s => ⟨rfl, rfl, rfl⟩
  have setTrace : ∀ c p s, Runs (.specSetTrace c p) (execSpecSetTrace c p s) _ _ _ c p s _ := fun c p s => ⟨rfl, rfl, rfl⟩
  have setOutput : ∀ c p s, Runs (.specSetOutput c p) (execSpecSetOutput c p s) _ _ _ c p s _ := fun c p s => ⟨rfl, rfl, rfl⟩
  have getStatus : ∀ c p s, Runs (.specGetStatus c p) (execSpecGetStatus c p s) _ _ _ c p s _ := fun c p s => ⟨rfl, rfl, rfl⟩
  have setGovernor : ∀ c p s, Runs (.specSetGovernor c p) (execSpecSetGovernor c p s) _ _ _ c p s _ := fun c p s => ⟨rfl, rfl, rfl⟩
  refine ⟨shared_of setLane, fun c p s h => ?setLane, fun w => shared_of (loadWindow w), fun c p w s h => ?loadWindow,
    shared_of setDdc, fun c p s h => ?setDdc, shared_of tuneDdc, fun c p s h => ?tuneDdc, shared_of setTrace, fun c p s h => ?setTrace,
    shared_of setOutput, fun c p s h => ?setOutput, shared_of getStatus, fun c p s h => ?getStatus, shared_of setGovernor, fun c p s h => ?setGovernor⟩
  case setLane =>
    refine ⟨fun st hf => refuses (setLane c p s) h ?_, fun hl he hv => waits (setLane c p s) h (by decide) ?_ (.refl _ _),
      fun hl hc hen => answers (setLane c p s) h (by decide) ?_ (laneOff_kept _ _),
      fun hl hc hen => answers (setLane c p s) h (by decide) ?_ (laneSet_kept _ _ _)⟩
    all_goals simp (disch := decide) only [bodySetLane, fld_arg, bit_argBit]
    · exact ceiling_refuses hf
    · exact ceiling_waits hl he hv (rejects_ite rfl rfl)
    · exact (ceiling_passes hl hc).trans (if_pos (by rw [hen]; rfl))
    · exact (ceiling_passes hl hc).trans (if_neg (by rw [hen]; decide))
  case loadWindow =>
    exact checked_answers (loadWindow w c p s) h (by decide) (by simp (disch := decide) only [fld_arg]) ((Kept.upd_spec (by decide) _).2 (.refl _ _))
  case setDdc =>
    refine ⟨fun st hf => refuses (setDdc c p s) h ?_, fun hl he hv => waits (setDdc c p s) h (by decide) ?_ (.refl _ _),
      fun hl hc hen => answers (setDdc c p s) h (by decide) ?_ (.chain (drawFree_kept _ _) (by simp) (ddcSet_kept _ _ _)),
      fun hl hc hen hrun => answers (setDdc c p s) h (by decide) ?_ (ddcSet_kept _ _ _),
      fun hl hc hen hrun => answers (setDdc c p s) h (by decide) ?_ (.chain (drawFree_kept _ _) (by simp) (ddcSet_kept _ _ _))⟩
    all_goals simp (disch := decide) only [bodySetDdc, fld_arg, bit_argBit]
    · exact ceiling_refuses hf
    · exact ceiling_waits hl he hv (rejects_ite rfl (rejects_ite rfl rfl))
    · exact (ceiling_passes hl hc).trans (if_pos (by rw [hen]; rfl))
    · exact (ceiling_passes hl hc).trans ((if_neg (by rw [hen]; decide)).trans (if_pos hrun))
    · exact (ceiling_passes hl hc).trans ((if_neg (by rw [hen]; decide)).trans (if_neg (ne_true_of_eq_false hrun)))
  case tuneDdc =>
    refine ⟨checks_refuse (tuneDdc c p s) h (by simp (disch := decide) only [fld_arg]; rfl),
      fun hl hc => answers (tuneDdc c p s) h (by decide) ?_ (State.setDdc_kept _ _ _),
      fun hl hc => answers (tuneDdc c p s) h (by decide) ?_ (State.setDdc_kept _ _ _)⟩
    all_goals simp (disch := decide) only [fld_arg]
    · exact (chk_none hl).trans (if_pos hc)
    · exact (chk_none hl).trans (if_neg (ne_true_of_eq_false hc))
  case setTrace =>
    refine ⟨fun st hf => refuses (setTrace c p s) h ?_, fun hl he hv => waits (setTrace c p s) h (by decide) ?_ (.refl _ _),
      fun hl hc hen => answers (setTrace c p s) h (by decide) ?_ (.chain (State.setTrace_kept _ _ _) (by decide) (traceOff_kept _ _)),
      fun hl hc hen => answers (setTrace c p s) h (by decide) ?_ (traceOff_kept _ _)⟩
    all_goals simp (disch := decide) only [bodySetTrace, fld_arg, bit_argBit, sfld_sarg]
    · exact ceiling_refuses hf
    · exact ceiling_waits hl he hv (rejects_ite rfl rfl)
    · exact (ceiling_passes hl hc).trans (if_pos hen)
    · exact (ceiling_passes hl hc).trans (if_neg (ne_true_of_eq_false hen))
  case setOutput =>
    exact checked_answers (setOutput c p s) h (by decide) (by simp (disch := decide) only [fld_arg, bit_argBit, sfld_sarg])
      (.ite (fun _ => State.setSout_kept _ _ _) (fun _ => State.modSout_kept _ _ _))
  case getStatus =>
    exact checked_answers (getStatus c p s) h (by decide) (by simp (disch := decide) only [fld_arg, bit_argBit])
      (.ite (fun _ => State.setLane_kept _ _ _) (fun _ => .refl _ _))
  case setGovernor =>
    exact answers (setGovernor c p s) h (by decide) (by simp (disch := decide) only [bit_argBit]) ((Kept.upd_spec (by decide) _).2 (.refl _ _))

end Sys2Proof.Machine
end

section
/-! PROOF. The commands of the acquisition units (R130, R141 to R143, R152 to R160). -/

namespace Sys2Proof.Machine

/-- Settles O23: each command by its checks, its reply and the frame of its effect. -/
theorem acquisitionSetCommands : Obligations.AcquisitionSetCommands := by
  unfold Obligations.AcquisitionSetCommands
  have setTerm : ∀ c p s, Runs (.acqSetTerm c p) (execAcqSetTerm c p s) _ _ _ c p s _ := fun c p s => ⟨rfl, rfl, rfl⟩
  have setCombiner : ∀ c p s, Runs (.acqSetCombiner c p) (execAcqSetCombiner c p s) _ _ _ c p s _ := fun c p s => ⟨rfl, rfl, rfl⟩
  have setCapture : ∀ c p s, Runs (.acqSetCapture c p) (execAcqSetCapture c p s) _ _ _ c p s _ := fun c p s => ⟨rfl, rfl, rfl⟩
  have loadMask : ∀ d c p s, Runs (.acqLoadMask c p d) (execAcqLoadMask c p d s) _ _ _ c p s _ := fun d c p s => ⟨rfl, rfl, rfl⟩
  have setMask : ∀ c p s, Runs (.acqSetMask c p) (execAcqSetMask c p s) _ _ _ c p s _ := fun c p s => ⟨rfl, rfl, rfl⟩
  have setTest : ∀ c p s, Runs (.acqSetTest c p) (execAcqSetTest c p s) _ _ _ c p s _ := fun c p s => ⟨rfl, rfl, rfl⟩
  have setEvtOut : ∀ c p s, Runs (.acqSetEvtOut c p) (execAcqSetEvtOut c p s) _ _ _ c p s _ := fun c p s => ⟨rfl, rfl, rfl⟩
  refine ⟨shared_of setTerm, fun c p s h => ?setTerm, shared_of setCombiner, fun c p s h => ?setCombiner, shared_of setCapture, fun c p s h => ?setCapture,
    fun d => shared_of (loadMask d), fun c p d s h => ?loadMask, shared_of setMask, fun c p s h => ?setMask, shared_of setTest, fun c p s h => ?setTest,
    shared_of setEvtOut, fun c p s h => ?setEvtOut⟩
  case setTerm =>
    exact checked_answers (setTerm c p s) h (by decide) (by simp (disch := decide) only [fld_arg, bit_argBit])
      (.ite (fun _ => State.setTerm_kept _ _ _) (fun _ => State.modTerm_kept _ _ _))
  case setCombiner => exact checked_answers (setCombiner c p s) h (by decide) (by simp (disch := decide) only [fld_arg]) (State.modAu_kept _ _ _)
  case setCapture =>
    exact checked_answers (setCapture c p s) h (by decide) (by simp (disch := decide) only [fld_arg, bit_argBit]) (State.modAu_kept _ _ _)
  case loadMask =>
    exact checked_answers (loadMask d c p s) h (by decide) (by simp (disch := decide) only [fld_arg]) ((Kept.upd_acq (by decide) _).2 (.refl _ _))
  case setMask =>
    exact checked_answers (setMask c p s) h (by decide) (by simp (disch := decide) only [fld_arg, bit_argBit]) (State.modMaskS_kept _ _ _)
  case setTest =>
    exact checked_answers (setTest c p s) h (by decide) (by simp (disch := decide) only [fld_arg, bit_argBit])
      (.ite (fun _ => State.modTst_kept _ _ _) (fun _ => .ite (fun _ => (State.setTst_kept _ _ _).trans (State.modMaskS_kept _ _ _))
        (fun _ => State.setTst_kept _ _ _)))
  case setEvtOut =>
    exact checked_answers (setEvtOut c p s) h (by decide) (by simp (disch := decide) only [fld_arg, bit_argBit])
      ((State.setPin_kept _ _ _).trans (drivePin_kept _ _))

/-- Settles O24: each command by its checks, its reply and the frame of its effect. -/
theorem acquisitionRunCommands : Obligations.AcquisitionRunCommands := by
  unfold Obligations.AcquisitionRunCommands
  have arm : ∀ c p s, Runs (.acqArm c p) (execAcqArm c p s) _ _ _ c p s _ := fun c p s => ⟨rfl, rfl, rfl⟩
  have stop : ∀ c p s, Runs (.acqStop c p) (execAcqStop c p s) _ _ _ c p s _ := fun c p s => ⟨rfl, rfl, rfl⟩
  have force : ∀ c p s, Runs (.acqForce c p) (execAcqForce c p s) _ _ _ c p s _ := fun c p s => ⟨rfl, rfl, rfl⟩
  have getStatus : ∀ c p s, Runs (.acqGetStatus c p) (execAcqGetStatus c p s) _ _ _ c p s _ := fun c p s => ⟨rfl, rfl, rfl⟩
  refine ⟨shared_of arm, fun c p s h => ?arm, shared_of stop, fun c p s h => ?stop, shared_of force, fun c p s h => ?force,
    shared_of getStatus, fun c p s h => ?getStatus⟩
  case arm =>
    refine ⟨checks_refuse (arm c p s) h (by simp (disch := decide) only [fld_arg]; rfl),
      fun hl hc => answers (arm c p s) h (by decide) ?_ (armNow_kept _ _), fun hl hc => waitsOn (arm c p s) h (by decide) ?_ (State.modAu_kept _ _ _)⟩
    all_goals simp (disch := decide) only [fld_arg]
    · exact (chk_none hl).trans (if_pos hc)
    · exact (chk_none hl).trans (if_neg hc)
  case stop =>
    exact checked_answers (stop c p s) h (by decide) (by simp (disch := decide) only [fld_arg])
      (.ite (fun _ => stopPoint_kept _ _ _ _) (fun _ => .ite (fun _ => cutSegment_kept _ _) (fun _ => .mono (acqEnd_kept _ _ _) (by decide))))
  case force => exact checked_answers (force c p s) h (by decide) (by simp (disch := decide) only [fld_arg]) (acceptTrigger_kept _ _ _ _ _)
  case getStatus =>
    exact answers (getStatus c p s) h (by decide) (by simp (disch := decide) only [fld_arg, bit_argBit])
      (.ite (fun _ => State.setAu_kept _ _ _) (fun _ => .refl _ _))

end Sys2Proof.Machine
end

section
/-! PROOF. The commands of density maps and displays (R170 to R174, R179 to R203). -/

namespace Sys2Proof.Machine

/-- Settles O25: each command by its checks, its reply and the frame of its effect; the one that may raise the ceiling waits for it. -/
theorem densityAndDisplayCommands : Obligations.DensityAndDisplayCommands := by
  unfold Obligations.DensityAndDisplayCommands
  have setMap : ∀ c p s, Runs (.densSetMap c p) (execDensSetMap c p s) _ _ _ c p s _ := fun c p s => ⟨rfl, rfl, rfl⟩
  have clear : ∀ c p s, Runs (.densClear c p) (execDensClear c p s) _ _ _ c p s _ := fun c p s => ⟨rfl, rfl, rfl⟩
  have read : ∀ c p s, Runs (.densRead c p) (execDensRead c p s) _ _ _ c p s _ := fun c p s => ⟨rfl, rfl, rfl⟩
  have setPigment : ∀ d c p s, Runs (.densSetPigment c p d) (execDensSetPigment c p d s) _ _ _ c p s _ := fun d c p s => ⟨rfl, rfl, rfl⟩
  have densStatus : ∀ c p s, Runs (.densGetStatus c p) (execDensGetStatus c p s) _ _ _ c p s _ := fun c p s => ⟨rfl, rfl, rfl⟩
  have setMode : ∀ c p s, Runs (.dispSetMode c p) (execDispSetMode c p s) _ _ _ c p s _ := fun c p s => ⟨rfl, rfl, rfl⟩
  have setLayer : ∀ c p s, Runs (.dispSetLayer c p) (execDispSetLayer c p s) _ _ _ c p s _ := fun c p s => ⟨rfl, rfl, rfl⟩
  have setEvents : ∀ c p s, Runs (.dispSetEvents c p) (execDispSetEvents c p s) _ _ _ c p s _ := fun c p s => ⟨rfl, rfl, rfl⟩
  have fallow : ∀ c p s, Runs (.dispFallow c p) (execDispFallow c p s) _ _ _ c p s _ := fun c p s => ⟨rfl, rfl, rfl⟩
  have aux : ∀ c p s, Runs (.dispAux c p) (execDispAux c p s) _ _ _ c p s _ := fun c p s => ⟨rfl, rfl, rfl⟩
  have dispStatus : ∀ c p s, Runs (.dispGetStatus c p) (execDispGetStatus c p s) _ _ _ c p s _ := fun c p s => ⟨rfl, rfl, rfl⟩
  refine ⟨shared_of setMap, fun c p s h => ?setMap, shared_of clear, fun c p s h => ?clear, shared_of read, fun c p s h => ?read,
    fun d => shared_of (setPigment d), fun c p d s h => ?setPigment, shared_of densStatus, fun c p s h => ?densStatus,
    shared_of setMode, fun c p s h => ?setMode, shared_of setLayer, fun c p s h => ?setLayer, shared_of setEvents, fun c p s h => ?setEvents,
    shared_of fallow, fun c p s h => ?fallow, shared_of aux, fun c p s h => ?aux, shared_of dispStatus, fun c p s h => ?dispStatus⟩
  case setMap =>
    have hset : ∀ s n m, Kept [.cmds, .disp] s (State.setDmap s n m) := fun s n m => .mono (State.setDmap_kept s n m) (by decide)
    have hend : ∀ s o u st l r, Kept [.cmds, .disp] s (finishAll s o u st l r) := fun s o u st l r => .mono (finishAll_kept s o u st l r) (by decide)
    refine ⟨fun st hf => refuses (setMap c p s) h ?refused, fun hl he hv => waits (setMap c p s) h (by decide) ?supply (.refl _ _),
      fun hl hc hen hb => waits (setMap c p s) h (by decide) ?offClear (State.setDmap_kept _ _ _),
      fun hl hc hen hb => answers (setMap c p s) h (by decide) ?off (((hset _ _ _).trans (hend _ _ _ _ _ _)).trans (hend _ _ _ _ _ _)),
      fun hl hc hen hb => waits (setMap c p s) h (by decide) ?onClear (State.setDmap_kept _ _ _),
      fun hl hc hen hb hr => waits (setMap c p s) h (by decide) ?onRuns (State.setDmap_kept _ _ _),
      fun hl hc hen hb hr => answers (setMap c p s) h (by decide) ?on (State.setDmap_kept _ _ _)⟩
    all_goals simp (disch := decide) only [bodySetMap, fld_arg, bit_argBit]
    case refused => exact ceiling_refuses hf
    case supply => exact ceiling_waits hl he hv (rejects_ite (rejects_ite rfl rfl) (rejects_ite rfl (rejects_ite rfl rfl)))
    case offClear => exact (ceiling_passes hl hc).trans ((if_pos (by rw [hen]; rfl)).trans (if_pos hb))
    case off => exact (ceiling_passes hl hc).trans ((if_pos (by rw [hen]; rfl)).trans (if_neg (ne_true_of_eq_false hb)))
    case onClear => exact (ceiling_passes hl hc).trans ((if_neg (by rw [hen]; decide)).trans (if_pos hb))
    case onRuns =>
      exact (ceiling_passes hl hc).trans ((if_neg (by rw [hen]; decide)).trans ((if_neg (ne_true_of_eq_false hb)).trans (if_pos hr)))
    case on =>
      exact (ceiling_passes hl hc).trans ((if_neg (by rw [hen]; decide)).trans
        ((if_neg (ne_true_of_eq_false hb)).trans (if_neg (ne_true_of_eq_false hr))))
  case clear => exact checked_waits (clear c p s) h (by decide) (by simp (disch := decide) only [fld_arg]) (State.modDmap_kept _ _ _)
  case read => exact checked_waitsOn (read c p s) h (by decide) (by simp (disch := decide) only [fld_arg, bit_argBit]) (State.setDmap_kept _ _ _)
  case setPigment =>
    exact checked_answers (setPigment d c p s) h (by decide) (by simp (disch := decide) only [fld_arg, bit_argBit]) (State.setPigm_kept _ _ _)
  case densStatus =>
    exact answers (densStatus c p s) h (by decide) (by simp (disch := decide) only [fld_arg, bit_argBit])
      (.ite (fun _ => State.setDmap_kept _ _ _) (fun _ => .refl _ _))
  case setMode =>
    refine ⟨checks_refuse (setMode c p s) h (by simp (disch := decide) only [fld_arg, bit_argBit]; rfl),
      fun hl hm hi => answers (setMode c p s) h (by decide) ?idle (.refl _ _),
      fun hl hn => waits (setMode c p s) h (by decide) ?starts ((Kept.foldl _ (fun _ _ => beginMode_kept _ _ _ _ _ _) _ _).trans (powerOn_kept _ _))⟩
    all_goals simp (disch := decide) only [fld_arg, bit_argBit]
    case idle => exact (chk_none hl).trans (if_pos (by rw [Bool.and_eq_true, decide_eq_true_eq]; exact ⟨hm, hi⟩))
    case starts => exact (chk_none hl).trans (if_neg (by rw [Bool.and_eq_true, decide_eq_true_eq]; exact hn))
  case setLayer =>
    exact checked_answers (setLayer c p s) h (by decide) (by simp (disch := decide) only [fld_arg, bit_argBit]) (State.setPort_kept _ _ _)
  case setEvents =>
    exact checked_answers (setEvents c p s) h (by decide) (by simp (disch := decide) only [fld_arg, bit_argBit]) (State.setPort_kept _ _ _)
  case fallow =>
    refine ⟨checks_refuse (fallow c p s) h (by simp (disch := decide) only [fld_arg, bit_argBit]; rfl),
      fun hl hs => answers (fallow c p s) h (by decide) ?same (.refl _ _),
      fun hl hs hen => waits (fallow c p s) h (by decide) ?enter (modPorts_kept _ _ _),
      fun hl hs hen => waits (fallow c p s) h (by decide) ?exit (modPorts_kept _ _ _)⟩
    all_goals simp (disch := decide) only [fld_arg, bit_argBit]
    case same => exact (chk_none hl).trans (if_pos hs)
    case enter => exact (chk_none hl).trans ((if_neg hs).trans (if_pos hen))
    case exit => exact (chk_none hl).trans ((if_neg hs).trans (if_neg (ne_true_of_eq_false hen)))
  case aux => exact checked_waits (aux c p s) h (by decide) (by simp (disch := decide) only [fld_arg, bit_argBit]) (State.modPort_kept _ _ _)
  case dispStatus =>
    exact answers (dispStatus c p s) h (by decide) (by simp (disch := decide) only [fld_arg, bit_argBit])
      (.ite (fun _ => State.setPort_kept _ _ _) (fun _ => .refl _ _))

end Sys2Proof.Machine
end

section
/-! PROOF. The commands of the monitors and the time interval unit (R223 to R232, R286 to R292). -/

namespace Sys2Proof.Machine

/-- Settles O26: each command by its checks, its reply and the frame of its effect; those that may raise the ceiling wait for it. -/
theorem monitorCommands : Obligations.MonitorCommands := by
  unfold Obligations.MonitorCommands
  have setContext : ∀ c p s, Runs (.monSetContext c p) (execMonSetContext c p s) _ _ _ c p s _ := fun c p s => ⟨rfl, rfl, rfl⟩
  have load : ∀ d c p s, Runs (.monLoad c p d) (execMonLoad c p d s) _ _ _ c p s _ := fun d c p s => ⟨rfl, rfl, rfl⟩
  have clear : ∀ c p s, Runs (.monClear c p) (execMonClear c p s) _ _ _ c p s _ := fun c p s => ⟨rfl, rfl, rfl⟩
  have snapshot : ∀ c p s, Runs (.monSnapshot c p) (execMonSnapshot c p s) _ _ _ c p s _ := fun c p s => ⟨rfl, rfl, rfl⟩
  have read : ∀ c p s, Runs (.monRead c p) (execMonRead c p s) _ _ _ c p s _ := fun c p s => ⟨rfl, rfl, rfl⟩
  have setLog : ∀ c p s, Runs (.monSetLog c p) (execMonSetLog c p s) _ _ _ c p s _ := fun c p s => ⟨rfl, rfl, rfl⟩
  have getStatus : ∀ c p s, Runs (.monGetStatus c p) (execMonGetStatus c p s) _ _ _ c p s _ := fun c p s => ⟨rfl, rfl, rfl⟩
  refine ⟨shared_of setContext, fun c p s h => ?setContext, fun d => shared_of (load d), fun c p d s h => ?load, shared_of clear, fun c p s h => ?clear,
    shared_of snapshot, fun c p s h => ?snapshot, shared_of read, fun c p s h => ?read, shared_of setLog, fun c p s h => ?setLog,
    shared_of getStatus, fun c p s h => ?getStatus⟩
  case setContext =>
    refine ⟨fun st hf => refuses (setContext c p s) h ?refused, fun hl he hv => waits (setContext c p s) h (by decide) ?supply (.refl _ _),
      fun hl hc hen => answers (setContext c p s) h (by decide) ?off (State.setCtx_kept _ _ _),
      fun hl hc hen => answers (setContext c p s) h (by decide) ?on (State.setCtx_kept _ _ _)⟩
    all_goals simp (disch := decide) only [ctxSet, fld_arg, bit_argBit]
    case refused => exact ceiling_refuses hf
    case supply => exact ceiling_waits hl he hv (rejects_ite rfl rfl)
    case off => exact (ceiling_passes hl hc).trans (if_pos (by rw [hen]; rfl))
    case on => exact (ceiling_passes hl hc).trans (if_neg (by rw [hen]; decide))
  case load =>
    refine ⟨checks_refuse (load d c p s) h (by simp (disch := decide) only [fld_arg]; rfl), fun hl => ⟨?replies,
      fun st rl r he => fails (load d c p s) h (by decide) ?failed (.refl _ _),
      fun s1 rl r he hv => waits (load d c p s) h (by decide) ?supply (.refl _ _),
      fun s1 rl r he hv => answers (load d c p s) h (by decide) ?loaded ?kept⟩⟩
    case replies =>
      rcases bodyMonLoad_cases c.session.val ((List.range (arg p 0 17)).map (fun i => d.getD i 0)) (seen 0x0702 c s) with he | ⟨t, rl, r, he, -⟩
      · exact .inl he
      · exact .inr ⟨t, rl, r, he⟩
    case kept =>
      rcases bodyMonLoad_cases c.session.val ((List.range (arg p 0 17)).map (fun i => d.getD i 0)) (seen 0x0702 c s) with
        ⟨st, rl', r', hf⟩ | ⟨t, rl', r', ht, hk⟩
      · cases hf.symm.trans he
      · cases ht.symm.trans he
        exact hk
    all_goals
      simp (disch := decide) only [fld_arg]
      refine (chk_none hl).trans ?_
      rw [he]
    case supply => exact atCeiling_wait rfl hv.1 hv.2
    case loaded => exact atCeiling_pass (by rwa [Bool.eq_false_iff, ne_eq, Bool.and_eq_true, decide_eq_true_eq])
  case clear =>
    exact checked_answers (clear c p s) h (by decide) (by simp (disch := decide) only [fld_arg])
      (.foldl _ (fun _ _ => State.modCtx_kept _ _ _) _ _)
  case snapshot =>
    exact checked_waitsOn (snapshot c p s) h (by decide) (by simp (disch := decide) only [fld_arg]) ((Kept.upd_mon (by decide) _).2 (.refl _ _))
  case read => exact answers (read c p s) h (by decide) (by simp (disch := decide) only [fld_arg]) (.refl _ _)
  case setLog =>
    exact checked_answers (setLog c p s) h (by decide) (by simp (disch := decide) only [fld_arg]) ((Kept.upd_mon (by decide) _).2 (.refl _ _))
  case getStatus =>
    exact answers (getStatus c p s) h (by decide) (by simp (disch := decide) only [bit_argBit])
      (.ite (fun _ => (Kept.upd_mon (by decide) _).2 (.refl _ _)) (fun _ => .refl _ _))

/-- Settles O27: each command by its checks, its reply and the frame of its effect. -/
theorem timeIntervalCommands : Obligations.TimeIntervalCommands := by
  unfold Obligations.TimeIntervalCommands
  have setInput : ∀ c p s, Runs (.tiuSetInput c p) (execTiuSetInput c p s) _ _ _ c p s _ := fun c p s => ⟨rfl, rfl, rfl⟩
  have setStats : ∀ c p s, Runs (.tiuSetStats c p) (execTiuSetStats c p s) _ _ _ c p s _ := fun c p s => ⟨rfl, rfl, rfl⟩
  have getStats : ∀ c p s, Runs (.tiuGetStats c p) (execTiuGetStats c p s) _ _ _ c p s _ := fun c p s => ⟨rfl, rfl, rfl⟩
  have read : ∀ c p s, Runs (.tiuRead c p) (execTiuRead c p s) _ _ _ c p s _ := fun c p s => ⟨rfl, rfl, rfl⟩
  have setDrain : ∀ c p s, Runs (.tiuSetDrain c p) (execTiuSetDrain c p s) _ _ _ c p s _ := fun c p s => ⟨rfl, rfl, rfl⟩
  have cal : ∀ c p s, Runs (.tiuCal c p) (execTiuCal c p s) _ _ _ c p s _ := fun c p s => ⟨rfl, rfl, rfl⟩
  have getStatus : ∀ c p s, Runs (.tiuGetStatus c p) (execTiuGetStatus c p s) _ _ _ c p s _ := fun c p s => ⟨rfl, rfl, rfl⟩
  refine ⟨shared_of setInput, fun c p s h => ?setInput, shared_of setStats, fun c p s h => ?setStats, shared_of getStats, fun c p s h => ?getStats,
    shared_of read, fun c p s h => ?read, shared_of setDrain, fun c p s h => ?setDrain, shared_of cal, fun c p s h => ?cal,
    shared_of getStatus, fun c p s h => ?getStatus⟩
  case setInput =>
    exact checked_answers (setInput c p s) h (by decide) (by simp (disch := decide) only [fld_arg, bit_argBit, sfld_sarg]) (State.setTiuIn_kept _ _ _)
  case setStats =>
    exact checked_answers (setStats c p s) h (by decide) (by simp (disch := decide) only [fld_arg, bit_argBit])
      (.ite (fun _ => State.setTiuSt_kept _ _ _) (fun _ => State.setTiuSt_kept _ _ _))
  case getStats =>
    exact checked_answers (getStats c p s) h (by decide) (by simp (disch := decide) only [fld_arg, bit_argBit])
      (.ite (fun _ => State.setTiuSt_kept _ _ _) (fun _ => .refl _ _))
  case read => exact checked_waitsOn (read c p s) h (by decide) (by simp (disch := decide) only [fld_arg]; rfl) (State.setTiuIn_kept _ _ _)
  case setDrain => exact checked_answers (setDrain c p s) h (by decide) (by simp (disch := decide) only [fld_arg]) (State.modTiuIn_kept _ _ _)
  case cal =>
    exact checked_waits (cal c p s) h (by decide) (by simp (disch := decide) only [fld_arg]) (.foldl _ (fun _ _ => State.modTiuIn_kept _ _ _) _ _)
  case getStatus =>
    exact checked_answers (getStatus c p s) h (by decide) (by simp (disch := decide) only [fld_arg, bit_argBit])
      (.ite (fun _ => State.setTiuIn_kept _ _ _) (fun _ => .refl _ _))

end Sys2Proof.Machine
end

section
/-! PROOF. The commands of Grove and of device memory (R348 to R356, R375 to R394). -/

namespace Sys2Proof.Machine

/-- A check before others is the first of them. -/
theorem chk_cons (x : Bool × Nat) (l : List (Bool × Nat)) (r : Reply) : chk [x] (chk l r) = chk (x :: l) r := rfl

/-- Settles O28: each command by its checks, its reply and the frame of its effect. -/
theorem groveCommands : Obligations.GroveCommands := by
  unfold Obligations.GroveCommands
  have load : ∀ d c p s, Runs (.groveLoad c p d) (execGroveLoad c p d s) _ _ _ c p s _ := fun d c p s => ⟨rfl, rfl, rfl⟩
  have start : ∀ c p s, Runs (.groveStart c p) (execGroveStart c p s) _ _ _ c p s _ := fun c p s => ⟨rfl, rfl, rfl⟩
  have stop : ∀ c p s, Runs (.groveStop c p) (execGroveStop c p s) _ _ _ c p s _ := fun c p s => ⟨rfl, rfl, rfl⟩
  have setShadow : ∀ c p s, Runs (.groveSetShadow c p) (execGroveSetShadow c p s) _ _ _ c p s _ := fun c p s => ⟨rfl, rfl, rfl⟩
  have setFeed : ∀ c p s, Runs (.groveSetFeed c p) (execGroveSetFeed c p s) _ _ _ c p s _ := fun c p s => ⟨rfl, rfl, rfl⟩
  have setBarrier : ∀ c p s, Runs (.groveSetBarrier c p) (execGroveSetBarrier c p s) _ _ _ c p s _ := fun c p s => ⟨rfl, rfl, rfl⟩
  have read : ∀ c p s, Runs (.groveRead c p) (execGroveRead c p s) _ _ _ c p s _ := fun c p s => ⟨rfl, rfl, rfl⟩
  have getStatus : ∀ c p s, Runs (.groveGetStatus c p) (execGroveGetStatus c p s) _ _ _ c p s _ := fun c p s => ⟨rfl, rfl, rfl⟩
  have getFeed : ∀ c p s, Runs (.groveGetFeed c p) (execGroveGetFeed c p s) _ _ _ c p s _ := fun c p s => ⟨rfl, rfl, rfl⟩
  refine ⟨fun d => shared_of (load d), fun c p d s h => ?load, shared_of start, fun c p s h => ?start, shared_of stop, fun c p s h => ?stop,
    shared_of setShadow, fun c p s h => ?setShadow, shared_of setFeed, fun c p s h hen => ?feedOff, fun c p s h hen => ?feedOn,
    shared_of setBarrier, fun c p s h => ?setBarrier, shared_of read, fun c p s h => ?read, shared_of getStatus, fun c p s h => ?getStatus,
    shared_of getFeed, fun c p s h => ?getFeed⟩
  case load => exact checked_waits (load d c p s) h (by decide) (by simp (disch := decide) only [fld_arg]) (.refl _ _)
  case start =>
    refine ⟨checks_refuse (start c p s) h (by simp (disch := decide) only [fld_arg]; rfl),
      fun hl hc => answers (start c p s) h (by decide) ?now (startCores_kept _ _ _ _ _),
      fun hl hc => waits (start c p s) h (by decide) ?later ((Kept.upd_grove (by decide) _).2 (.refl _ _))⟩
    all_goals simp (disch := decide) only [fld_arg]
    case now => exact (chk_none hl).trans (if_pos hc)
    case later => exact (chk_none hl).trans (if_neg hc)
  case stop =>
    refine checked_answers (stop c p s) h (by decide) (by simp (disch := decide) only [fld_arg]) (.foldl_mem _ (fun n hn a => ?_) _)
    exact .ite (fun _ => coreStop_quiet _ _ _ _ (Nat.lt_trans (maskBits_lt hn) (by decide))) (fun _ => .refl _ _)
  case setShadow =>
    have hstages : ∀ (l : List (Nat × Nat)) n s, Kept [.grove] s (l.foldl (fun (a : State) (e : Nat × Nat) => stageWrite a n e.1 e.2) s) :=
      fun l n s => .foldl _ (fun _ _ => stageWrite_kept _ _ _ _) l s
    exact checked_answers (setShadow c p s) h (by decide) (by simp (disch := decide) only [fld_arg, bit_argBit])
      (.ite (fun _ => (hstages _ _ _).trans (State.modCore_kept _ _ _)) (fun _ => hstages _ _ _))
  case feedOff =>
    refine ⟨checks_refuse (setFeed c p s) h (by simp (disch := decide) only [fld_arg, bit_argBit]; rfl),
      fun hl hc => waits (setFeed c p s) h (by decide) ?handed (feedDisable_kept _ _),
      fun hl hc => answers (setFeed c p s) h (by decide) ?ended (feedDisable_kept _ _)⟩
    all_goals
      simp (disch := decide) only [fld_arg, bit_argBit]
      refine (chk_none hl).trans ((if_pos (by rw [hen]; rfl)).trans ?_)
    case handed => exact if_pos (by simpa only [Bool.and_eq_true, decide_eq_true_eq, and_assoc] using hc)
    case ended => exact if_neg (by simpa only [Bool.and_eq_true, decide_eq_true_eq, and_assoc] using hc)
  case feedOn =>
    refine checked_answers (setFeed c p s) h (by decide) ?_
      (.ite (fun _ => .chain (bindNow_kept _ _ _) (by decide) (.mono (State.setFeed_kept _ _ _) (by decide)))
        (fun _ => .mono (State.setFeed_kept _ _ _) (by decide)))
    simp (disch := decide) only [fld_arg, bit_argBit, sfld_sarg]
    exact (congrArg (chk _) (if_neg (by rw [hen]; decide))).trans (chk_cons _ _ _)
  case setBarrier =>
    exact checked_answers (setBarrier c p s) h (by decide) (by simp (disch := decide) only [fld_arg, bit_argBit]) (State.setBar_kept _ _ _)
  case read => exact checked_waitsOn (read c p s) h (by decide) (by simp (disch := decide) only [fld_arg]) (.refl _ _)
  case getStatus =>
    exact checked_answers (getStatus c p s) h (by decide) (by simp (disch := decide) only [fld_arg, bit_argBit])
      (.ite (fun _ => State.setCore_kept _ _ _) (fun _ => .refl _ _))
  case getFeed =>
    exact checked_answers (getFeed c p s) h (by decide) (by simp (disch := decide) only [fld_arg, bit_argBit])
      (.ite (fun _ => State.setFeed_kept _ _ _) (fun _ => .refl _ _))

/-- Settles O29: each command by its checks, its reply and the frame of its effect. -/
theorem memoryCommands : Obligations.MemoryCommands := by
  unfold Obligations.MemoryCommands
  have alloc : ∀ c p s, Runs (.memAlloc c p) (execMemAlloc c p s) _ _ _ c p s _ := fun c p s => ⟨rfl, rfl, rfl⟩
  have free : ∀ c p s, Runs (.memFree c p) (execMemFree c p s) _ _ _ c p s _ := fun c p s => ⟨rfl, rfl, rfl⟩
  have setRing : ∀ c p s, Runs (.memSetRing c p) (execMemSetRing c p s) _ _ _ c p s _ := fun c p s => ⟨rfl, rfl, rfl⟩
  have ack : ∀ c p s, Runs (.memRingAck c p) (execMemRingAck c p s) _ _ _ c p s _ := fun c p s => ⟨rfl, rfl, rfl⟩
  have ringStatus : ∀ c p s, Runs (.memRingStatus c p) (execMemRingStatus c p s) _ _ _ c p s _ := fun c p s => ⟨rfl, rfl, rfl⟩
  have commons : ∀ c p s, Runs (.memCommons c p) (execMemCommons c p s) _ _ _ c p s _ := fun c p s => ⟨rfl, rfl, rfl⟩
  have retire : ∀ c p s, Runs (.memRetire c p) (execMemRetire c p s) _ _ _ c p s _ := fun c p s => ⟨rfl, rfl, rfl⟩
  have getStatus : ∀ c p s, Runs (.memGetStatus c p) (execMemGetStatus c p s) _ _ _ c p s _ := fun c p s => ⟨rfl, rfl, rfl⟩
  have getPoison : ∀ c p s, Runs (.memGetPoison c p) (execMemGetPoison c p s) _ _ _ c p s _ := fun c p s => ⟨rfl, rfl, rfl⟩
  refine ⟨shared_of alloc, fun c p s h => ?alloc, shared_of free, fun c p s h => ?free, shared_of setRing, fun c p s h => ?setRing,
    shared_of ack, fun c p s h => ?ack, shared_of ringStatus, fun c p s h => ?ringStatus,
    shared_of commons, fun c p s h hb => ?commonsTake, fun c p s h hb => ?commonsFree, shared_of retire, fun c p s h => ?retire,
    shared_of getStatus, fun c p s h => ?getStatus, shared_of getPoison, fun c p s h => ?getPoison⟩
  case alloc =>
    refine ⟨checks_refuse (alloc c p s) h (by simp (disch := decide) only [fld_arg]; rfl),
      fun hl hz => answers (alloc c p s) h (by decide) ?zeroed (.chain (State.setReg_kept _ _ _) (by decide) ((Kept.upd_mem (by decide) _).2 (.refl _ _))),
      fun hl hz => waitsOn (alloc c p s) h (by decide) ?zeroes (State.setReg_kept _ _ _)⟩
    all_goals
      simp (disch := decide) only [fld_arg]
      refine (chk_none hl).trans ?_
    case zeroed =>
      obtain ⟨a, ha⟩ := Option.isSome_iff_exists.1 hz
      simp only [ha, Option.getD_some]
    case zeroes => rw [hz]
  case free =>
    refine ⟨checks_refuse (free c p s) h (by simp (disch := decide) only [fld_arg]; rfl),
      fun hl hc => defers (free c p s) h (by decide) ?shown (freeRegion_kept _ _), fun hl hc => answers (free c p s) h (by decide) ?freed (freeRegion_kept _ _)⟩
    all_goals simp (disch := decide) only [fld_arg]
    case shown => exact (chk_none hl).trans (if_pos hc)
    case freed => exact (chk_none hl).trans (if_neg (ne_true_of_eq_false hc))
  case setRing => exact checked_answers (setRing c p s) h (by decide) (by simp (disch := decide) only [fld_arg]) (State.modReg_kept _ _ _)
  case ack => exact checked_answers (ack c p s) h (by decide) (by simp (disch := decide) only [fld_arg]) (ringAck_kept _ _ _)
  case ringStatus =>
    exact checked_answers (ringStatus c p s) h (by decide) (by simp (disch := decide) only [fld_arg, bit_argBit])
      (.ite (fun _ => State.setReg_kept _ _ _) (fun _ => .refl _ _))
  case commonsTake =>
    refine checked_answers (commons c p s) h (by decide) ?_ ((Kept.upd_mem (by decide) _).2 (.refl _ _))
    simp (disch := decide) only [fld_arg, bit_argBit]
    exact if_pos hb
  case commonsFree =>
    refine checked_answers (commons c p s) h (by decide) ?_ (commonsFree_kept _ _)
    simp (disch := decide) only [fld_arg, bit_argBit]
    exact if_neg (ne_true_of_eq_false hb)
  case retire => exact checked_waits (retire c p s) h (by decide) (by simp (disch := decide) only [fld_arg]) (retireRank_kept _ _ _ _)
  case getStatus =>
    exact answers (getStatus c p s) h (by decide) (by simp (disch := decide) only [bit_argBit] <;> rfl)
      (.ite (fun _ => (Kept.upd_mem (by decide) _).2 (.refl _ _)) (fun _ => .refl _ _))
  case getPoison => exact checked_waitsOn (getPoison c p s) h (by decide) (by simp (disch := decide) only [fld_arg]; rfl) (.refl _ _)

end Sys2Proof.Machine
end

section
/-! PROOF. The commands of data movement (R437): a disable that its own clause does not frame. -/

namespace Sys2Proof.Machine

/-- Session 0 is open and owns DMA channel 0, which is disabled while the write-back of its last descriptor waits; the DMA_SET_CHANNEL that
disabled it is in progress. -/
def writeBackWaits : State :=
  { now := 1000000
    host := { engine := 1, busMaster := true, sessions := [(0, { st := 1, qcfg := 0x44 })], owners := [(0x120000, 1)],
              inProg := [{ session := 0, opcode := 0x0B01, tag := 7 }] }
    pwr := { step := 9, alertLow := false, perst := true }
    mem := { regions := [(1, { addr := 0x2000000, size := 0x100000 })] }
    move := { chans := [(0, { region := 1, wbPend := some 0 })] } }

/-- A second DMA_SET_CHANNEL that disables channel 0. -/
def disableChannel : Cmd := { t := 1000000, session := 0, tag := 1, plen := 2, fence := false, timeout := 0, rsv := 0 }

/-- Its block: channel 0, ENABLE clear. -/
def disableBlock : Block := BitVec.ofNat 1792 0

/-- The write-back that waited is done before the command acts, and with it the command in progress completes. -/
theorem disableChannel_completes :
    (dmaDisable (handFirst (seen 0x0B01 disableChannel writeBackWaits) (arg disableBlock 0 5)) (arg disableBlock 0 5)).host.inProg = [] := by
  decide +kernel

/-- Refutes O30: the clause of a disabling DMA_SET_CHANNEL says that no other command ends, but what the channel has waiting is done first
(`handFirst`): a write-back that waited ends the DMA_SET_CHANNEL that is in progress for it. -/
theorem not_dmaCommands : ¬ Obligations.DmaCommands := by
  unfold Obligations.DmaCommands
  intro h
  obtain ⟨-, hset, -⟩ := h
  obtain ⟨-, hdisable, -⟩ := hset disableChannel disableBlock writeBackWaits (by decide +kernel)
  obtain ⟨t, -, ⟨⟨hends, -⟩, -⟩, -, -, hcmds, -⟩ := hdisable (by decide +kernel) (by decide +kernel) (by decide +kernel)
  obtain ⟨p, w, v, hstays, -⟩ := hcmds.resolve_left (by decide)
  have hnone : t.host.inProg = [] := hends.trans disableChannel_completes
  have hone : writeBackWaits.host.inProg ++ p = [] := hstays.symm.trans hnone
  exact List.cons_ne_nil _ _ hone

end Sys2Proof.Machine
end

section
/-! PROOF. The commands of storage, auxiliary inputs and control outputs (R416 to R446, R493 to R498). -/

namespace Sys2Proof.Machine

/-- Settles O31: each command by its checks, its reply and the frame of its effect. -/
theorem storageCommands : Obligations.StorageCommands := by
  unfold Obligations.StorageCommands
  have setPort : ∀ c p s, Runs (.storSetPort c p) (execStorSetPort c p s) _ _ _ c p s _ := fun c p s => ⟨rfl, rfl, rfl⟩
  have format : ∀ c p s, Runs (.storFormat c p) (execStorFormat c p s) _ _ _ c p s _ := fun c p s => ⟨rfl, rfl, rfl⟩
  have mount : ∀ c p s, Runs (.storMount c p) (execStorMount c p s) _ _ _ c p s _ := fun c p s => ⟨rfl, rfl, rfl⟩
  have unmount : ∀ c p s, Runs (.storUnmount c p) (execStorUnmount c p s) _ _ _ c p s _ := fun c p s => ⟨rfl, rfl, rfl⟩
  have recOpen : ∀ c p s, Runs (.recOpen c p) (execRecOpen c p s) _ _ _ c p s _ := fun c p s => ⟨rfl, rfl, rfl⟩
  have recClose : ∀ c p s, Runs (.recClose c p) (execRecClose c p s) _ _ _ c p s _ := fun c p s => ⟨rfl, rfl, rfl⟩
  have getStatus : ∀ c p s, Runs (.storGetStatus c p) (execStorGetStatus c p s) _ _ _ c p s _ := fun c p s => ⟨rfl, rfl, rfl⟩
  have logPage : ∀ c p s, Runs (.storLogPage c p) (execStorLogPage c p s) _ _ _ c p s _ := fun c p s => ⟨rfl, rfl, rfl⟩
  refine ⟨shared_of setPort, fun c p s h => ?setPort, shared_of format, fun c p s h => ?format, shared_of mount, fun c p s h => ?mount,
    shared_of unmount, fun c p s h => ?unmount, shared_of recOpen, fun c p s h => ?recOpen, shared_of recClose, fun c p s h => ?recClose,
    shared_of getStatus, fun c p s h => ?getStatus, shared_of logPage, fun c p s h => ?logPage⟩
  case setPort =>
    refine ⟨checks_refuse (setPort c p s) h (by simp (disch := decide) only [fld_arg, bit_argBit]; rfl),
      fun hl hc => waits (setPort c p s) h (by decide) ?on ((Kept.upd_move (by decide) _).2 (portIdle_kept _)),
      fun hl hc => answers (setPort c p s) h (by decide) ?off ((Kept.upd_move (by decide) _).2 (portIdle_kept _))⟩
    all_goals simp (disch := decide) only [fld_arg, bit_argBit]
    case on => exact (chk_none hl).trans (if_pos hc)
    case off => exact (chk_none hl).trans (if_neg (ne_true_of_eq_false hc))
  case format =>
    exact checked_waits (format c p s) h (by decide) (by simp (disch := decide) only [fld_arg]) ((writeLabels_kept _ _).trans (setJob_kept _ _))
  case mount =>
    exact checked_waits (mount c p s) h (by decide) rfl ((Kept.foldl _ (fun _ _ => State.modLink_kept _ _ _) _ _).trans (setJob_kept _ _))
  case unmount => exact checked_waits (unmount c p s) h (by decide) rfl ((Kept.upd_move (by decide) _).2 (.refl _ _))
  case recOpen => exact checked_waitsOn (recOpen c p s) h (by decide) (by simp (disch := decide) only [fld_arg]) (recStart_kept _ _ _)
  case recClose => exact checked_waits (recClose c p s) h (by decide) rfl (recStop_kept _ _)
  case getStatus => exact answers (getStatus c p s) h (by decide) rfl (.refl _ _)
  case logPage => exact checked_waitsOn (logPage c p s) h (by decide) (by simp (disch := decide) only [fld_arg]) (.refl _ _)

/-- Settles O32: each command by its checks, its reply and the frame of its effect. -/
theorem auxAndControlCommands : Obligations.AuxAndControlCommands := by
  unfold Obligations.AuxAndControlCommands
  have setRef : ∀ c p s, Runs (.auxSetRef c p) (execAuxSetRef c p s) _ _ _ c p s _ := fun c p s => ⟨rfl, rfl, rfl⟩
  have setInput : ∀ c p s, Runs (.auxSetInput c p) (execAuxSetInput c p s) _ _ _ c p s _ := fun c p s => ⟨rfl, rfl, rfl⟩
  have setSeq : ∀ c p s, Runs (.auxSetSeq c p) (execAuxSetSeq c p s) _ _ _ c p s _ := fun c p s => ⟨rfl, rfl, rfl⟩
  have auxStatus : ∀ c p s, Runs (.auxGetStatus c p) (execAuxGetStatus c p s) _ _ _ c p s _ := fun c p s => ⟨rfl, rfl, rfl⟩
  have setOutput : ∀ c p s, Runs (.ctlSetOutput c p) (execCtlSetOutput c p s) _ _ _ c p s _ := fun c p s => ⟨rfl, rfl, rfl⟩
  have write : ∀ c p s, Runs (.ctlWrite c p) (execCtlWrite c p s) _ _ _ c p s _ := fun c p s => ⟨rfl, rfl, rfl⟩
  have ctlStatus : ∀ c p s, Runs (.ctlGetStatus c p) (execCtlGetStatus c p s) _ _ _ c p s _ := fun c p s => ⟨rfl, rfl, rfl⟩
  refine ⟨shared_of setRef, fun c p s h => ?setRef, shared_of setInput, fun c p s h => ?setInput, shared_of setSeq, fun c p s h => ?setSeq,
    shared_of auxStatus, fun c p s h => ?auxStatus, shared_of setOutput, fun c p s h => ?setOutput, shared_of write, fun c p s h => ?write,
    shared_of ctlStatus, fun c p s h => ?ctlStatus⟩
  case setRef =>
    refine ⟨checks_refuse (setRef c p s) h (by simp (disch := decide) only [fld_arg]; rfl),
      fun hl hc => answers (setRef c p s) h (by decide) ?same (.refl _ _),
      fun hl hc => answers (setRef c p s) h (by decide) ?changed ((Kept.upd_aux (by decide) _).2 (auxSetRefok_kept _ _))⟩
    all_goals simp (disch := decide) only [fld_arg]
    case same => exact (chk_none hl).trans (if_pos hc)
    case changed => exact (chk_none hl).trans (if_neg hc)
  case setInput =>
    exact checked_answers (setInput c p s) h (by decide) (by simp (disch := decide) only [fld_arg, bit_argBit]) (State.setAuxIn_kept _ _ _)
  case setSeq =>
    refine ⟨checks_refuse (setSeq c p s) h (by simp (disch := decide) only [fld_arg, bit_argBit]; rfl),
      fun hl hen => answers (setSeq c p s) h (by decide) ?stopped (auxStop_kept _),
      fun hl hen hp => answers (setSeq c p s) h (by decide) ?replaces ((Kept.upd_aux (by decide) _).2 (.refl _ _)),
      fun hl hen hp => answers (setSeq c p s) h (by decide) ?starts ((Kept.upd_aux (by decide) _).2 (.refl _ _))⟩
    all_goals simp (disch := decide) only [fld_arg, bit_argBit]
    case stopped => exact (chk_none hl).trans (if_pos (by rw [hen]; rfl))
    case replaces => exact (chk_none hl).trans ((if_neg (by rw [hen]; decide)).trans (if_pos hp))
    case starts => exact (chk_none hl).trans ((if_neg (by rw [hen]; decide)).trans (if_neg (ne_true_of_eq_false hp)))
  case auxStatus =>
    exact answers (auxStatus c p s) h (by decide) (by simp (disch := decide) only [bit_argBit])
      (.ite (fun _ => (Kept.upd_aux (by decide) _).2 (.refl _ _)) (fun _ => .refl _ _))
  case setOutput =>
    refine ⟨checks_refuse (setOutput c p s) h (by simp (disch := decide) only [fld_arg, bit_argBit]; rfl),
      fun hl hen => answers (setOutput c p s) h (by decide) ?off (State.setCtlO_kept _ _ _),
      fun hl hen hon => answers (setOutput c p s) h (by decide) ?enabled (State.setCtlO_kept _ _ _),
      fun hl hen hon hr => answers (setOutput c p s) h (by decide) ?range (State.setCtlO_kept _ _ _),
      fun hl hen hon hr => answers (setOutput c p s) h (by decide) ?code ((State.setCtlO_kept _ _ _).trans (ctlCmd_kept _ _ _))⟩
    all_goals
      simp (disch := decide) only [fld_arg, bit_argBit]
      refine (chk_none hl).trans ?_
    case off => exact if_pos (by rw [hen]; rfl)
    case enabled => exact (if_neg (by rw [hen]; decide)).trans (if_pos (by rw [hon]; rfl))
    case range => exact (if_neg (by rw [hen]; decide)).trans ((if_neg (by rw [hon]; decide)).trans (if_pos hr))
    case code => exact (if_neg (by rw [hen]; decide)).trans ((if_neg (by rw [hon]; decide)).trans (if_neg (not_not_intro hr)))
  case write =>
    exact checked_waits (write c p s) h (by decide) (by simp (disch := decide) only [fld_arg]) (.foldl _ (fun _ _ => State.modCtlO_kept _ _ _) _ _)
  case ctlStatus => exact answers (ctlStatus c p s) h (by decide) rfl (.refl _ _)

end Sys2Proof.Machine
end

section
/-! PROOF. The commands of faults, security and performance counters (R503, R509, R518 to R528). -/

namespace Sys2Proof.Machine

/-- Settles O33: each command by its checks, its reply and the frame of its effect. -/
theorem faultCommands : Obligations.FaultCommands := by
  unfold Obligations.FaultCommands
  have getStatus : ∀ c p s, Runs (.fltGetStatus c p) (execFltGetStatus c p s) _ _ _ c p s _ := fun c p s => ⟨rfl, rfl, rfl⟩
  have setSeverity : ∀ c p s, Runs (.fltSetSeverity c p) (execFltSetSeverity c p s) _ _ _ c p s _ := fun c p s => ⟨rfl, rfl, rfl⟩
  have getRecord : ∀ c p s, Runs (.fltGetRecord c p) (execFltGetRecord c p s) _ _ _ c p s _ := fun c p s => ⟨rfl, rfl, rfl⟩
  have clear : ∀ c p s, Runs (.fltClear c p) (execFltClear c p s) _ _ _ c p s _ := fun c p s => ⟨rfl, rfl, rfl⟩
  have force : ∀ c p s, Runs (.fltForce c p) (execFltForce c p s) _ _ _ c p s _ := fun c p s => ⟨rfl, rfl, rfl⟩
  refine ⟨shared_of getStatus, fun c p s h => ?getStatus, shared_of setSeverity, fun c p s h => ?setSeverity, shared_of getRecord, fun c p s h => ?getRecord,
    shared_of clear, fun c p s h => ?clear, shared_of force, fun c p s h => ?force⟩
  case getStatus => exact checked_answers (getStatus c p s) h (by decide) (by simp (disch := decide) only [fld_arg]) (.refl _ _)
  case setSeverity =>
    exact checked_answers (setSeverity c p s) h (by decide) (by simp (disch := decide) only [fld_arg]) ((Kept.upd_flt (by decide) _).2 (.refl _ _))
  case getRecord => exact checked_answers (getRecord c p s) h (by decide) (by simp (disch := decide) only [fld_arg]) (.refl _ _)
  case clear =>
    exact checked_answers (clear c p s) h (by decide) (by simp (disch := decide) only [fld_arg, bit_argBit])
      (.chain (clearGroups_kept _ _) (by decide) (.ite (fun _ => .mono (recover_kept _) (by decide)) (fun _ => .refl _ _)))
  case force =>
    refine ⟨checks_refuse (force c p s) h (by simp (disch := decide) only [fld_arg]; rfl),
      fun hl hc => answers (force c p s) h (by decide) ?ecc ((Kept.upd_mem (by decide) _).2 (.refl _ _)),
      fun hl hc => answers (force c p s) h (by decide) ?source ((Kept.upd_flt (by decide) _).2 (.refl _ _))⟩
    all_goals simp (disch := decide) only [fld_arg]
    case ecc => exact (chk_none hl).trans (if_pos hc)
    case source => exact (chk_none hl).trans (if_neg (ne_true_of_eq_false hc))

/-! ## The life cycle (R524): CHALLENGE is renewed whatever the outcome -/

/-- The life cycle forbids SEC_SET_LIFECYCLE in no state. -/
theorem denies_lifecycle (s : State) : denies s 0x0D08 = false := by simp [denies]

/-- SEC_SET_LIFECYCLE of a block that is not well formed fails the shared checks with INVALID_PARAM. -/
theorem lifecycle_illFormed {c : Cmd} {p : Block} (s : State) (hw : wellFormed 2 (fun _ => [(0, 3), (64, 64)]) c p = false) :
    commonCheck 0x0D08 2 (fun _ => [(0, 3), (64, 64)]) c p (seen 0x0D08 c s) = stInvalid := by
  have hfatal : ¬(s.host.engine = 2 ∧ fatalOk 0x0D08 = false) := fun h => absurd h.2 (by decide)
  rw [commonCheck_eq, denies_lifecycle, if_neg (by decide), if_neg hfatal, hw, if_neg (by decide)]

/-- A move of the life cycle keeps what R524 does not name. -/
theorem lifecycle_kept (s : State) (o : Option Nat) (new : Nat) : Kept [.sec, .cal, .host] s
    (lifeMove (if new = 2 then { s with sec := { s.sec with owner := o } } else if new = 3 then eraseField s else s) new) :=
  .chain (lifeMove_kept _ _) (by decide)
    (.ite (fun _ => (Kept.upd_sec (by decide) _).2 (.refl _ _)) (fun _ => .ite (fun _ => eraseField_kept1 s) (fun _ => .refl _ _)))

theorem renewChallenge_keeps {L : List Part} {s t : State} (hL : Part.sec ∈ L) (h : Kept L s t) : Kept L s (renewChallenge t) :=
  .chain (renewChallenge_kept1 t) (by simpa using hL) h

/-- Settles O34: each command by its checks, its reply and the frame of its effect. -/
theorem securityAndPerfCommands : Obligations.SecurityAndPerfCommands := by
  unfold Obligations.SecurityAndPerfCommands
  have getCert : ∀ c p s, Runs (.secGetCert c p) (execSecGetCert c p s) _ _ _ c p s _ := fun c p s => ⟨rfl, rfl, rfl⟩
  have attest : ∀ c p s, Runs (.secAttest c p) (execSecAttest c p s) _ _ _ c p s _ := fun c p s => ⟨rfl, rfl, rfl⟩
  have secStatus : ∀ c p s, Runs (.secGetStatus c p) (execSecGetStatus c p s) _ _ _ c p s _ := fun c p s => ⟨rfl, rfl, rfl⟩
  have setCounter : ∀ c p s, Runs (.perfSetCounter c p) (execPerfSetCounter c p s) _ _ _ c p s _ := fun c p s => ⟨rfl, rfl, rfl⟩
  have control : ∀ c p s, Runs (.perfControl c p) (execPerfControl c p s) _ _ _ c p s _ := fun c p s => ⟨rfl, rfl, rfl⟩
  have read : ∀ c p s, Runs (.perfRead c p) (execPerfRead c p s) _ _ _ c p s _ := fun c p s => ⟨rfl, rfl, rfl⟩
  have lifecycle : ∀ (c : Cmd) (p : Block) (auth : List Nat) (s : State), exec (.secSetLifecycle c p auth) s = execSecSetLifecycle c p auth s := fun _ _ _ _ => rfl
  refine ⟨shared_of getCert, fun c p s h => ?getCert, shared_of attest, fun c p s h => ?attest,
    fun c p auth s hf hw => ?illFormed, fun c p auth s h => ?lifecycle, shared_of secStatus, fun c p s h => ?secStatus,
    shared_of setCounter, fun c p s h => ?setCounter, shared_of control, fun c p s h => ?control, shared_of read, fun c p s h => ?read⟩
  case getCert => exact checked_waitsOn (getCert c p s) h (by decide) (by simp (disch := decide) only [fld_arg]; rfl) (.refl _ _)
  case attest => exact checked_waitsOn (attest c p s) h (by decide) (by simp (disch := decide) only [fld_arg]) (.refl _ _)
  case illFormed =>
    exact thenShared_row (lifecycle c p auth s) rfl hf (by decide) (lifecycle_illFormed s hw) renewChallenge_quiet (fun _ => rfl)
      (renewChallenge_kept1 _)
  case lifecycle =>
    refine ⟨fun st hf => ?refused, fun hl hd => ?denied, fun hl hd => ?moved⟩
    case refused =>
      obtain ⟨t, ht, hc, hk, hF⟩ := then_row (L := [.sec]) (rl := 0) (r := 0) (st := st) (s' := seen 0x0D08 c s) true (lifecycle c p auth s) rfl h
        (.inl ⟨rfl, by simp (disch := decide) only [fld_arg]; exact chk_fail hf, rfl, rfl, rfl⟩) renewChallenge_quiet (fun _ => rfl)
        (renewChallenge_kept1 _) (.refl _ _) (by decide)
      exact ⟨t, ht, hc, hF, hk.kept⟩
    case denied =>
      have hfault : Kept faultParts (seen 0x0D08 c s) (raiseFault (seen 0x0D08 c s) 0x2B01 {}) := raiseQuiet_kept _ _ _ (by unfold quietSource; decide)
      obtain ⟨t, ht, hc, hk, hF⟩ := then_row (L := faultParts) (rl := 0) (r := 0) (st := stDenied) false (lifecycle c p auth s) rfl h
        (.inr (.inr ⟨rfl, by simp (disch := decide) only [fld_arg]; exact (chk_none hl).trans (if_pos hd)⟩)) renewChallenge_quiet (fun _ => rfl)
        (renewChallenge_keeps (by decide) hfault) hfault (by decide)
      exact ⟨t, ht, hc, hF, hk.kept⟩
    case moved =>
      obtain ⟨t, ht, hc, hk, hF⟩ := then_row (L := [.sec, .cal, .host]) (rl := 0) (r := 0) (st := 0) false (lifecycle c p auth s) rfl h
        (.inr (.inl ⟨rfl, by simp (disch := decide) only [fld_arg]; exact (chk_none hl).trans (if_neg (ne_true_of_eq_false hd)), rfl⟩))
        renewChallenge_quiet (fun _ => rfl) (renewChallenge_keeps (by decide) (lifecycle_kept _ _ _)) (lifecycle_kept _ _ _) (by decide)
      exact ⟨t, ht, hc, hF, hk.kept⟩
  case secStatus => exact answers (secStatus c p s) h (by decide) rfl (.refl _ _)
  case setCounter =>
    exact checked_answers (setCounter c p s) h (by decide) (by simp (disch := decide) only [fld_arg, bit_argBit]) (State.modPerfC_kept _ _ _)
  case control =>
    refine ⟨checks_refuse (control c p s) h (by simp (disch := decide) only [fld_arg]; rfl),
      fun hl hc => answers (control c p s) h (by decide) ?now (perfGo_kept _ _ _), fun hl hc => waits (control c p s) h (by decide) ?later (.refl _ _)⟩
    all_goals simp (disch := decide) only [fld_arg]
    case now => exact (chk_none hl).trans (if_pos hc)
    case later => exact (chk_none hl).trans (if_neg hc)
  case read => exact checked_waitsOn (read c p s) h (by decide) (by simp (disch := decide) only [fld_arg]; rfl) (.refl _ _)

end Sys2Proof.Machine
end

section
/-! PROOF. The Grove instructions (R319 to R332, R335, R337, R340 to R343, R357): each from what the instruction does where it is issued. -/

namespace Sys2Proof.Machine

section
variable {i : Instr} {op t n : Nat} {used : List (Nat × Nat)} {w : BitVec 26} {s : State} {eff : State → GCore → Nat → GEff}

/-- Instruction `i` is carried out by `o`, which issues it with the effect `eff`. -/
structure Issues (i : Instr) (o : Host.Outcome State Fault Refusal) (op : Nat) (used : List (Nat × Nat)) (t n : Nat) (w : BitVec 26) (s : State)
    (eff : State → GCore → Nat → GEff) : Prop where
  dispatch : exec i s = o
  issue : o = issue op used t n w s eff

theorem Issues.eq {o : Host.Outcome State Fault Refusal} (r : Issues i o op used t n w s eff) : exec i s = Machine.issue op used t n w s eff :=
  r.dispatch.trans r.issue

/-- An instruction that goes on, and of the rest of the engine changes nothing that a frame names. -/
theorem goesOn {s1 : State} {y : GCore} (he : exec i s = issue op used t n w s eff) (h : grvReady op used t n w s = true)
    (hb : eff (advance s t) (grvCore n s) w.toNat = .ok s1 y) (hk : Kept [.grove, .mem] (advance s t) s1) :
    ∃ u, exec i s = .next u ∧ Follows (issued s1 n op w.toNat (grvCore n s) y) u ∧ Kept [.grove, .mem] s u :=
  issue_ok _ he h hb ⟨by decide, by decide⟩ hk

/-- An instruction that changes its own core alone. -/
theorem goesOn_core {y : GCore} (he : exec i s = issue op used t n w s eff) (h : grvReady op used t n w s = true)
    (hb : eff (advance s t) (grvCore n s) w.toNat = .ok (advance s t) y) :
    ∃ u, exec i s = .next u ∧ Follows (issued (advance s t) n op w.toNat (grvCore n s) y) u ∧ Kept [.grove, .mem] s u :=
  goesOn he h hb (.refl _ _)

/-- An instruction that, wherever it is issued, changes its own core alone. -/
theorem stops_or_goesOn {y : GCore} (he : exec i s = issue op used t n w s eff) (hup : s.pwr.down = false)
    (hb : eff (advance s t) (grvCore n s) w.toNat = .ok (advance s t) y) :
    GroveStops op used i t n w s ∧ (grvReady op used t n w s = true →
      ∃ u, exec i s = .next u ∧ Follows (issued (advance s t) n op w.toNat (grvCore n s) y) u ∧ Kept [.grove, .mem] s u) :=
  ⟨issue_stops he hup, fun h => goesOn_core he h hb⟩

end

/-- Settles O35: every integer instruction writes one general register of its own core; SHI of kind 3 is ILLEGAL. -/
theorem groveIntegerOps : Obligations.GroveIntegerOps := by
  unfold Obligations.GroveIntegerOps
  have add : ∀ t n w s, Issues (.gAdd t n w) (aluR 0x01 1 t n w s (· + ·)) _ _ t n w s _ := fun _ _ _ _ => ⟨rfl, rfl⟩
  have sub : ∀ t n w s, Issues (.gSub t n w) (aluR 0x02 1 t n w s (· - ·)) _ _ t n w s _ := fun _ _ _ _ => ⟨rfl, rfl⟩
  have and : ∀ t n w s, Issues (.gAnd t n w) (aluR 0x03 1 t n w s (· &&& ·)) _ _ t n w s _ := fun _ _ _ _ => ⟨rfl, rfl⟩
  have or : ∀ t n w s, Issues (.gOr t n w) (aluR 0x04 1 t n w s (· ||| ·)) _ _ t n w s _ := fun _ _ _ _ => ⟨rfl, rfl⟩
  have xor : ∀ t n w s, Issues (.gXor t n w) (aluR 0x05 1 t n w s (· ^^^ ·)) _ _ t n w s _ := fun _ _ _ _ => ⟨rfl, rfl⟩
  have shl : ∀ t n w s, Issues (.gShl t n w) (aluR 0x06 1 t n w s (fun a b => a <<< shAmt b)) _ _ t n w s _ := fun _ _ _ _ => ⟨rfl, rfl⟩
  have shr : ∀ t n w s, Issues (.gShr t n w) (aluR 0x07 1 t n w s (fun a b => a >>> shAmt b)) _ _ t n w s _ := fun _ _ _ _ => ⟨rfl, rfl⟩
  have sar : ∀ t n w s, Issues (.gSar t n w) (aluR 0x08 1 t n w s (fun a b => a.sshiftRight (shAmt b))) _ _ t n w s _ := fun _ _ _ _ => ⟨rfl, rfl⟩
  have slt : ∀ t n w s, Issues (.gSlt t n w) (aluR 0x09 1 t n w s (fun a b => if a.toInt < b.toInt then 1 else 0)) _ _ t n w s _ :=
    fun _ _ _ _ => ⟨rfl, rfl⟩
  have sltu : ∀ t n w s, Issues (.gSltu t n w) (aluR 0x0A 1 t n w s (fun a b => if a.toNat < b.toNat then 1 else 0)) _ _ t n w s _ :=
    fun _ _ _ _ => ⟨rfl, rfl⟩
  have mul : ∀ t n w s, Issues (.gMul t n w) (aluR 0x0B 2 t n w s (· * ·)) _ _ t n w s _ := fun _ _ _ _ => ⟨rfl, rfl⟩
  have addi : ∀ t n w s, Issues (.gAddi t n w) (aluI 0x0C t n w s (fun a i => a + i.signExtend 32)) _ _ t n w s _ := fun _ _ _ _ => ⟨rfl, rfl⟩
  have andi : ∀ t n w s, Issues (.gAndi t n w) (aluI 0x0D t n w s (fun a i => a &&& i.signExtend 32)) _ _ t n w s _ := fun _ _ _ _ => ⟨rfl, rfl⟩
  have ori : ∀ t n w s, Issues (.gOri t n w) (aluI 0x0E t n w s (fun a i => a ||| i.setWidth 32)) _ _ t n w s _ := fun _ _ _ _ => ⟨rfl, rfl⟩
  have nop : ∀ t n w s, Issues (.gNop t n w) (execGNop t n w s) _ _ t n w s _ := fun _ _ _ _ => ⟨rfl, rfl⟩
  have movi : ∀ t n w s, Issues (.gMovi t n w) (execGMovi t n w s) _ _ t n w s _ := fun _ _ _ _ => ⟨rfl, rfl⟩
  have movhi : ∀ t n w s, Issues (.gMovhi t n w) (execGMovhi t n w s) _ _ t n w s _ := fun _ _ _ _ => ⟨rfl, rfl⟩
  have shi : ∀ t n w s, Issues (.gShi t n w) (execGShi t n w s) _ _ t n w s _ := fun _ _ _ _ => ⟨rfl, rfl⟩
  refine ⟨fun t n w s hup => ?nop, fun t n w s hup => ?add, fun t n w s hup => ?sub, fun t n w s hup => ?and, fun t n w s hup => ?or,
    fun t n w s hup => ?xor, fun t n w s hup => ?shl, fun t n w s hup => ?shr, fun t n w s hup => ?sar, fun t n w s hup => ?slt,
    fun t n w s hup => ?sltu, fun t n w s hup => ?mul, fun t n w s hup => ?addi, fun t n w s hup => ?andi, fun t n w s hup => ?ori,
    fun t n w s hup => ?shi, fun t n w s hup => ?movi, fun t n w s hup => ?movhi⟩
  case add => exact stops_or_goesOn (add t n w s).eq hup rfl
  case sub => exact stops_or_goesOn (sub t n w s).eq hup rfl
  case and => exact stops_or_goesOn (and t n w s).eq hup rfl
  case or => exact stops_or_goesOn (or t n w s).eq hup rfl
  case xor => exact stops_or_goesOn (xor t n w s).eq hup rfl
  case shl => exact stops_or_goesOn (shl t n w s).eq hup rfl
  case shr => exact stops_or_goesOn (shr t n w s).eq hup rfl
  case sar => exact stops_or_goesOn (sar t n w s).eq hup rfl
  case slt => exact stops_or_goesOn (slt t n w s).eq hup rfl
  case sltu => exact stops_or_goesOn (sltu t n w s).eq hup rfl
  case mul => exact stops_or_goesOn (mul t n w s).eq hup rfl
  case addi => exact stops_or_goesOn (addi t n w s).eq hup rfl
  case andi => exact stops_or_goesOn (andi t n w s).eq hup rfl
  case ori => exact stops_or_goesOn (ori t n w s).eq hup rfl
  case nop => exact stops_or_goesOn (nop t n w s).eq hup rfl
  case movi => exact stops_or_goesOn (movi t n w s).eq hup rfl
  case movhi => exact stops_or_goesOn (movhi t n w s).eq hup rfl
  case shi =>
    exact ⟨issue_stops (shi t n w s).eq hup, fun h => ⟨fun hk => issue_fault (shi t n w s).eq h (if_pos hk),
      fun hk => goesOn_core (shi t n w s).eq h (if_neg hk)⟩⟩

/-- MOVSR reads special register `sr` into general register `d` (R325). -/
def movsrEff (n : Nat) (s : State) (x : GCore) (f : Nat) : GEff :=
  let sr := fld f 16 6
  let d := Dest.g x.bank (fld f 22 4)
  if !srOk sr then .fault 1 0
  else if sr = 6 then
    match x.cnth with
    | some v => .ok s ((x.latch none).wr 1 d v.toNat)
    | none => .ok (drawFree 32 s).2 (x.wr 1 d (drawFree 32 s).1)
  else .ok s ((x.latch (if sr = 5 then some (BitVec.ofNat 32 (s.now / 2^32)) else x.cnth)).wr 1 d (srRead s n x sr).toNat)

theorem movsrEff_illegal {n f : Nat} {s : State} {x : GCore} (h : srOk (fld f 16 6) = false) : movsrEff n s x f = .fault 1 0 := by
  simp [movsrEff, h]

theorem movsrEff_cnth {n f : Nat} {s : State} {x : GCore} {v : Word} (h : fld f 16 6 = 6) (hv : x.cnth = some v) :
    movsrEff n s x f = .ok s ((x.latch none).wr 1 (.g x.bank (fld f 22 4)) v.toNat) := by
  simp [movsrEff, h, hv, srOk]

theorem movsrEff_free {n f : Nat} {s : State} {x : GCore} (h : fld f 16 6 = 6) (hv : x.cnth = none) :
    movsrEff n s x f = .ok (drawFree 32 s).2 (x.wr 1 (.g x.bank (fld f 22 4)) (drawFree 32 s).1) := by
  simp [movsrEff, h, hv, srOk]

/-- Settles O36: the complex instructions and moves write registers of their own core; a register that does not exist is ILLEGAL. -/
theorem groveComplexAndRegisterOps : Obligations.GroveComplexAndRegisterOps := by
  unfold Obligations.GroveComplexAndRegisterOps
  have cmul : ∀ t n w s, Issues (.gCmul t n w) (cplxR 0x12 t n w s (fun a b => (convQ (cprod a b false).1 0, convQ (cprod a b false).2 0))) _ _ t n w s _ :=
    fun _ _ _ _ => ⟨rfl, rfl⟩
  have cadds : ∀ t n w s, Issues (.gCadds t n w) (cplxR 0x13 t n w s (fun a b => (qRe a + qRe b, qIm a + qIm b))) _ _ t n w s _ :=
    fun _ _ _ _ => ⟨rfl, rfl⟩
  have csubs : ∀ t n w s, Issues (.gCsubs t n w) (cplxR 0x14 t n w s (fun a b => (qRe a - qRe b, qIm a - qIm b))) _ _ t n w s _ :=
    fun _ _ _ _ => ⟨rfl, rfl⟩
  have movr : ∀ t n w s, Issues (.gMovr t n w) (execGMovr t n w s) _ _ t n w s _ := fun _ _ _ _ => ⟨rfl, rfl⟩
  have smov : ∀ t n w s, Issues (.gSmov t n w) (execGSmov t n w s) _ _ t n w s _ := fun _ _ _ _ => ⟨rfl, rfl⟩
  have movrs : ∀ t n w s, Issues (.gMovrs t n w) (execGMovrs t n w s) _ _ t n w s _ := fun _ _ _ _ => ⟨rfl, rfl⟩
  refine ⟨fun t n w s hup => ?cmul, fun t n w s hup => ?cadds, fun t n w s hup => ?csubs, fun t n w s hup => ?movr, fun t n w s hup => ?smov,
    fun t n w s hup => ?movsr, fun t n w s hup => ?movrs⟩
  case cmul => exact stops_or_goesOn (cmul t n w s).eq hup rfl
  case cadds => exact stops_or_goesOn (cadds t n w s).eq hup rfl
  case csubs => exact stops_or_goesOn (csubs t n w s).eq hup rfl
  case movr =>
    exact ⟨issue_stops (movr t n w s).eq hup, fun h => ⟨fun bad => issue_fault (movr t n w s).eq h (if_pos bad),
      fun ok => goesOn_core (movr t n w s).eq h (if_neg (Bool.eq_false_iff.1 ok))⟩⟩
  case smov =>
    exact ⟨issue_stops (smov t n w s).eq hup, fun h => ⟨fun bad => issue_fault (smov t n w s).eq h (if_pos bad),
      fun ok => goesOn_core (smov t n w s).eq h (if_neg (Bool.eq_false_iff.1 ok))⟩⟩
  case movsr =>
    have he : exec (.gMovsr t n w) s = issue 0x17 [(22, 4), (16, 6)] t n w s (movsrEff n) := rfl
    refine ⟨issue_stops he hup, fun h => ⟨fun bad => issue_fault he h (movsrEff_illegal bad), fun v h6 hv => goesOn_core he h (movsrEff_cnth h6 hv),
      fun h6 hv => goesOn he h (movsrEff_free h6 hv) ((drawFree_kept _ _).mono (by decide)), fun ok h6 => goesOn_core he h ?_⟩⟩
    exact (if_neg (by simp [ok])).trans (if_neg h6)
  case movrs =>
    exact ⟨issue_stops (movrs t n w s).eq hup, fun h => ⟨fun ok => goesOn_core (movrs t n w s).eq h (if_pos ok),
      fun bad => issue_fault (movrs t n w s).eq h (if_neg (Bool.eq_false_iff.1 bad))⟩⟩

section
variable {i : Instr} {op bytes t n : Nat} {w : BitVec 26} {s : State}

/-- A load is ILLEGAL where its post-modify is. -/
theorem loadM_illegal (he : exec i s = loadM op bytes t n w s) (h : grvReady op fmtM t n w s = true)
    (hp : (grvCore n s).post (bit w.toNat 15) (fld w.toNat 19 3) (fld w.toNat 16 3) = none) : StopsCore i t n 1 0 s :=
  issue_fault he h (by simp only [hp])

/-- A load from an address that it may not read stops with ADDR. -/
theorem loadM_bad {y : GCore} (he : exec i s = loadM op bytes t n w s) (h : grvReady op fmtM t n w s = true)
    (hp : (grvCore n s).post (bit w.toNat 15) (fld w.toNat 19 3) (fld w.toNat 16 3) = some y)
    (hr : resolve (advance s t) n ((grvCore n s).rdX (grvCore n s).bank (fld w.toNat 19 3)).toNat bytes true = .bad) :
    StopsCore i t n 2 ((grvCore n s).rdX (grvCore n s).bank (fld w.toNat 19 3)).toNat s :=
  issue_fault he h (by simp only [hp, hr])

/-- A load from the scratchpad. -/
theorem loadM_pad {y : GCore} {off k : Nat} (he : exec i s = loadM op bytes t n w s) (h : grvReady op fmtM t n w s = true)
    (hp : (grvCore n s).post (bit w.toNat 15) (fld w.toNat 19 3) (fld w.toNat 16 3) = some y)
    (hr : resolve (advance s t) n ((grvCore n s).rdX (grvCore n s).bank (fld w.toNat 19 3)).toNat bytes true = .pad off k) :
    ∃ u, exec i s = .next u ∧ Follows (issued (advance s t) n op w.toNat (grvCore n s) (y.wr 3 (.g (grvCore n s).bank (fld w.toNat 22 4))
      (if bytes = 2 then enc 32 (sfld (padRead (advance s t) n (grvCore n s) off bytes) 0 16) else padRead (advance s t) n (grvCore n s) off bytes))) u ∧
      Kept [.grove, .mem] s u :=
  goesOn_core he h (by simp only [hp, hr])

/-- A load from the commons stalls. -/
theorem loadM_com {y : GCore} {off k : Nat} (he : exec i s = loadM op bytes t n w s) (h : grvReady op fmtM t n w s = true)
    (hp : (grvCore n s).post (bit w.toNat 15) (fld w.toNat 19 3) (fld w.toNat 16 3) = some y)
    (hr : resolve (advance s t) n ((grvCore n s).rdX (grvCore n s).bank (fld w.toNat 19 3)).toNat bytes true = .com off k) :
    ∃ u, exec i s = .next u ∧ Follows (issued (advance s t) n op w.toNat (grvCore n s)
      { y with st := 2, stall := 1, ldDest := fld w.toNat 22 4, ldAddr := off, ldHalf := bytes == 2 }) u ∧ Kept [.grove, .mem] s u :=
  goesOn_core he h (by simp only [hp, hr])

/-- A store is ILLEGAL where its post-modify is. -/
theorem storeM_illegal (he : exec i s = storeM op bytes t n w s) (h : grvReady op fmtM t n w s = true)
    (hp : (grvCore n s).post (bit w.toNat 15) (fld w.toNat 19 3) (fld w.toNat 16 3) = none) : StopsCore i t n 1 0 s :=
  issue_fault he h (by simp only [hp])

/-- A store to an address that it may not write stops with ADDR. -/
theorem storeM_bad {y : GCore} (he : exec i s = storeM op bytes t n w s) (h : grvReady op fmtM t n w s = true)
    (hp : (grvCore n s).post (bit w.toNat 15) (fld w.toNat 19 3) (fld w.toNat 16 3) = some y)
    (hr : resolve (advance s t) n ((grvCore n s).rdX (grvCore n s).bank (fld w.toNat 19 3)).toNat bytes true = .bad) :
    StopsCore i t n 2 ((grvCore n s).rdX (grvCore n s).bank (fld w.toNat 19 3)).toNat s :=
  issue_fault he h (by simp only [hp, hr])

/-- A store to an address that it may write. -/
theorem storeM_done {y : GCore} (he : exec i s = storeM op bytes t n w s) (h : grvReady op fmtM t n w s = true)
    (hp : (grvCore n s).post (bit w.toNat 15) (fld w.toNat 19 3) (fld w.toNat 16 3) = some y)
    (hr : resolve (advance s t) n ((grvCore n s).rdX (grvCore n s).bank (fld w.toNat 19 3)).toNat bytes true ≠ .bad) :
    ∃ u, exec i s = .next u ∧ Follows (issued (advance s t) n op w.toNat (grvCore n s)
      (y.store (resolve (advance s t) n ((grvCore n s).rdX (grvCore n s).bank (fld w.toNat 19 3)).toNat bytes true) bytes
        ((grvCore n s).rdG (grvCore n s).bank (fld w.toNat 22 4)).toNat)) u ∧ Kept [.grove, .mem] s u := by
  refine goesOn_core he h ?_
  simp only [hp]

end

/-- The accumulator groups of the parallel instructions start at 0 or 4 (R326). -/
theorem group_ok {g : Nat} (h : g = 0 ∨ g = 4) : ¬((decide (g ≠ 0) && decide (g ≠ 4)) = true) := by
  simp only [ne_eq, Bool.and_eq_true, decide_eq_true_eq]
  omega

/-- Settles O37: loads, stores and accumulator stores by what their post-modify and their address are. -/
theorem groveMemoryOps : Obligations.GroveMemoryOps := by
  unfold Obligations.GroveMemoryOps
  have sta : ∀ t n w s, Issues (.gSta t n w) (execGSta t n w s) _ _ t n w s _ := fun _ _ _ _ => ⟨rfl, rfl⟩
  have vsta : ∀ t n w s, Issues (.gVsta t n w) (execGVsta t n w s) _ _ t n w s _ := fun _ _ _ _ => ⟨rfl, rfl⟩
  have rda : ∀ t n w s, Issues (.gRda t n w) (execGRda t n w s) _ _ t n w s _ := fun _ _ _ _ => ⟨rfl, rfl⟩
  refine ⟨fun t n w s hup => ?ld, fun t n w s hup => ?ldh, fun t n w s hup => ?st, fun t n w s hup => ?sth, fun t n w s hup => ?sta,
    fun t n w s hup => ?vsta, fun t n w s hup => ?rda⟩
  case ld =>
    have he : exec (.gLd t n w) s = loadM 0x19 4 t n w s := rfl
    exact ⟨issue_stops he hup, fun h => ⟨loadM_illegal he h, fun _ => loadM_bad he h, fun _ _ _ => loadM_pad he h, fun _ _ _ => loadM_com he h⟩⟩
  case ldh =>
    have he : exec (.gLdh t n w) s = loadM 0x1A 2 t n w s := rfl
    exact ⟨issue_stops he hup, fun h => ⟨loadM_illegal he h, fun _ => loadM_bad he h, fun _ _ _ => loadM_pad he h, fun _ _ _ => loadM_com he h⟩⟩
  case st =>
    have he : exec (.gSt t n w) s = storeM 0x1B 4 t n w s := rfl
    exact ⟨issue_stops he hup, fun h => ⟨storeM_illegal he h, fun _ => storeM_bad he h, fun _ => storeM_done he h⟩⟩
  case sth =>
    have he : exec (.gSth t n w) s = storeM 0x1C 2 t n w s := rfl
    exact ⟨issue_stops he hup, fun h => ⟨storeM_illegal he h, fun _ => storeM_bad he h, fun _ => storeM_done he h⟩⟩
  case sta =>
    refine ⟨issue_stops (sta t n w s).eq hup, fun h => ⟨fun hp => issue_fault (sta t n w s).eq h (by simp only [hp]),
      fun y hp hr => issue_fault (sta t n w s).eq h (by simp only [hp, hr]),
      fun y hp hr => goesOn_core (sta t n w s).eq h ?_⟩⟩
    simp only [hp]
  case vsta =>
    refine ⟨issue_stops (vsta t n w s).eq hup, fun h => ⟨fun hg => issue_fault (vsta t n w s).eq h (if_pos (by simp [hg])),
      fun hg none => issue_fault (vsta t n w s).eq h ?_,
      fun l y a hg hv hp bad => issue_fault (vsta t n w s).eq h ?_, fun l y hg hv hp ok => goesOn_core (vsta t n w s).eq h ?_⟩⟩
    · refine (if_neg (group_ok hg)).trans ?_
      split
      · next hv hp => simp [hv, hp] at none
      · rfl
    · exact (if_neg (group_ok hg)).trans (by simp only [hv, hp, bad])
    · exact (if_neg (group_ok hg)).trans (by simp only [hv, hp, ok])
  case rda => exact stops_or_goesOn (rda t n w s).eq hup rfl

/-- Settles O38: the multiply-accumulate instructions by what their operands are. -/
theorem groveAccumulatorOps : Obligations.GroveAccumulatorOps := by
  unfold Obligations.GroveAccumulatorOps
  have vmacD : ∀ t n w s, Issues (.gVmacD t n w) (execGVmacD t n w s) _ _ t n w s _ := fun _ _ _ _ => ⟨rfl, rfl⟩
  have vmacP : ∀ t n w s, Issues (.gVmacP t n w) (execGVmacP t n w s) _ _ t n w s _ := fun _ _ _ _ => ⟨rfl, rfl⟩
  have vmagP : ∀ t n w s, Issues (.gVmagP t n w) (execGVmagP t n w s) _ _ t n w s _ := fun _ _ _ _ => ⟨rfl, rfl⟩
  have cmac : ∀ t n w s, Issues (.gCmac t n w) (execGCmac t n w s) _ _ t n w s _ := fun _ _ _ _ => ⟨rfl, rfl⟩
  refine ⟨fun t n w s hup => ?vmacD, fun t n w s hup => ?vmacP, fun t n w s hup => ?vmagP, fun t n w s hup => ?cmac⟩
  case vmacD =>
    exact ⟨issue_stops (vmacD t n w s).eq hup, fun h => ⟨fun e he => issue_fault (vmacD t n w s).eq h (by simp only [he]),
      fun a b y ho => goesOn_core (vmacD t n w s).eq h (by simp only [ho])⟩⟩
  case vmacP =>
    exact ⟨issue_stops (vmacP t n w s).eq hup, fun h => ⟨fun hg => issue_fault (vmacP t n w s).eq h (if_pos (by simp [hg])),
      fun e hg he => issue_fault (vmacP t n w s).eq h ((if_neg (group_ok hg)).trans (by simp only [he])),
      fun a b y hg ho => goesOn_core (vmacP t n w s).eq h ((if_neg (group_ok hg)).trans (by simp only [ho]))⟩⟩
  case vmagP =>
    exact ⟨issue_stops (vmagP t n w s).eq hup, fun h => ⟨fun hg => issue_fault (vmagP t n w s).eq h (if_pos (by simp [hg])),
      fun e hg he => issue_fault (vmagP t n w s).eq h ((if_neg (group_ok hg)).trans (by simp only [he])),
      fun a b y hg ho => goesOn_core (vmagP t n w s).eq h ((if_neg (group_ok hg)).trans (by simp only [ho]))⟩⟩
  case cmac => exact stops_or_goesOn (cmac t n w s).eq hup rfl

/-- Settles O39: branches, repeats and control instructions by their tests. -/
theorem groveControlOps : Obligations.GroveControlOps := by
  unfold Obligations.GroveControlOps
  have br : ∀ t n w s, Issues (.gBr t n w) (execGBr t n w s) _ _ t n w s _ := fun _ _ _ _ => ⟨rfl, rfl⟩
  have call : ∀ t n w s, Issues (.gCall t n w) (execGCall t n w s) _ _ t n w s _ := fun _ _ _ _ => ⟨rfl, rfl⟩
  have repeat_ : ∀ t n w s, Issues (.gRepeat t n w) (execGRepeat t n w s) _ _ t n w s _ := fun _ _ _ _ => ⟨rfl, rfl⟩
  have wait : ∀ t n w s, Issues (.gWait t n w) (execGWait t n w s) _ _ t n w s _ := fun _ _ _ _ => ⟨rfl, rfl⟩
  have jr : ∀ t n w s, Issues (.gJr t n w) (execGJr t n w s) _ _ t n w s _ := fun _ _ _ _ => ⟨rfl, rfl⟩
  have repr : ∀ t n w s, Issues (.gRepr t n w) (execGRepr t n w s) _ _ t n w s _ := fun _ _ _ _ => ⟨rfl, rfl⟩
  have reti : ∀ t n w s, Issues (.gReti t n w) (execGReti t n w s) _ _ t n w s _ := fun _ _ _ _ => ⟨rfl, rfl⟩
  have halt : ∀ t n w s, Issues (.gHalt t n w) (execGHalt t n w s) _ _ t n w s _ := fun _ _ _ _ => ⟨rfl, rfl⟩
  refine ⟨fun t n w s hup => ?br, fun t n w s hup => ?call, fun t n w s hup => ?jr, fun t n w s hup => ?repeat_, fun t n w s hup => ?repr,
    fun t n w s hup => ?reti, fun t n w s hup => ?wait, fun t n w s hup => ?halt⟩
  case br =>
    exact ⟨issue_stops (br t n w s).eq hup, fun h => ⟨fun bad => issue_fault (br t n w s).eq h (by simp only [bad]),
      fun b hb => goesOn_core (br t n w s).eq h (by simp only [hb])⟩⟩
  case call => exact stops_or_goesOn (call t n w s).eq hup rfl
  case repeat_ => exact stops_or_goesOn (repeat_ t n w s).eq hup rfl
  case wait => exact stops_or_goesOn (wait t n w s).eq hup rfl
  case jr =>
    exact ⟨issue_stops (jr t n w s).eq hup, fun h => ⟨fun bad => issue_fault (jr t n w s).eq h (if_pos bad),
      fun ok => goesOn_core (jr t n w s).eq h (if_neg (not_not.2 ok))⟩⟩
  case repr => exact ⟨issue_stops (repr t n w s).eq hup, fun h => ⟨fun bad => issue_fault (repr t n w s).eq h (if_pos bad),
    fun ok => goesOn_core (repr t n w s).eq h (if_neg ok)⟩⟩
  case reti =>
    exact ⟨issue_stops (reti t n w s).eq hup, fun h => ⟨fun no => issue_fault (reti t n w s).eq h (if_pos (by simp [no])),
      fun yes => goesOn_core (reti t n w s).eq h (if_neg (by simp [yes]))⟩⟩
  case halt => exact ⟨issue_stops (halt t n w s).eq hup, fun h => issue_halt (halt t n w s).eq h rfl⟩

/-- Settles O40: barriers, feed release, SYNC, NOTIFY and POST by their tests; of the rest of the engine they change barriers, feeds, cores and
the posted events. -/
theorem groveSyncOps : Obligations.GroveSyncOps := by
  unfold Obligations.GroveSyncOps
  have bar : ∀ t n w s, Issues (.gBar t n w) (execGBar t n w s) _ _ t n w s _ := fun _ _ _ _ => ⟨rfl, rfl⟩
  have frel : ∀ t n w s, Issues (.gFrel t n w) (execGFrel t n w s) _ _ t n w s _ := fun _ _ _ _ => ⟨rfl, rfl⟩
  have sync : ∀ t n w s, Issues (.gSync t n w) (execGSync t n w s) _ _ t n w s _ := fun _ _ _ _ => ⟨rfl, rfl⟩
  have notify : ∀ t n w s, Issues (.gNotify t n w) (execGNotify t n w s) _ _ t n w s _ := fun _ _ _ _ => ⟨rfl, rfl⟩
  have post : ∀ t n w s, Issues (.gPost t n w) (execGPost t n w s) _ _ t n w s _ := fun _ _ _ _ => ⟨rfl, rfl⟩
  refine ⟨fun t n w s hup => ?bar, fun t n w s hup => ?frel, fun t n w s hup => ?sync, fun t n w s hup => ?notify,
    fun t n w s hup => ?post⟩
  case bar =>
    refine ⟨issue_stops (bar t n w s).eq hup, fun h => ⟨fun bad => issue_fault (bar t n w s).eq h (if_pos bad),
      fun ok br => goesOn_core (bar t n w s).eq h ?_, fun ok br all => goesOn (bar t n w s).eq h ?_ ?_,
      fun ok br all => goesOn (bar t n w s).eq h ?_ ?_⟩⟩
    · exact (if_neg (Bool.eq_false_iff.1 ok)).trans (if_pos br)
    · exact (if_neg (Bool.eq_false_iff.1 ok)).trans ((if_neg (Bool.eq_false_iff.1 br)).trans (if_pos all))
    · exact Kept.foldl' ((Kept.upd_grove (by decide) _).2 (.refl _ _)) fun a m => (barRelease_kept a _ m _).mono (by decide)
    · exact (if_neg (Bool.eq_false_iff.1 ok)).trans ((if_neg (Bool.eq_false_iff.1 br)).trans (if_neg all))
    · exact (Kept.upd_grove (by decide) _).2 (.refl _ _)
  case frel =>
    refine ⟨issue_stops (frel t n w s).eq hup, fun h => ⟨fun no => goesOn_core (frel t n w s).eq h (if_pos no),
      fun yes bad => issue_fault (frel t n w s).eq h ?_, fun yes ok => goesOn (frel t n w s).eq h ?_ ?_⟩⟩
    · exact (if_neg (Bool.eq_false_iff.1 yes)).trans (if_pos bad)
    · exact (if_neg (Bool.eq_false_iff.1 yes)).trans (if_neg (Bool.eq_false_iff.1 ok))
    · exact (Kept.upd_grove (by decide) _).2 (.refl _ _)
  case sync => exact stops_or_goesOn (sync t n w s).eq hup rfl
  case notify =>
    exact ⟨issue_stops (notify t n w s).eq hup, fun h => ⟨fun own => goesOn_core (notify t n w s).eq h (if_pos own),
      fun other => goesOn (notify t n w s).eq h (if_neg other) ((setIpend_kept _ _ _).mono (by decide))⟩⟩
  case post =>
    exact ⟨issue_stops (post t n w s).eq hup, fun h => ⟨fun lost => goesOn_core (post t n w s).eq h (if_pos lost),
      fun new => goesOn (post t n w s).eq h (if_neg new) ((post_kept _ _ _).mono (by decide))⟩⟩

end Sys2Proof.Machine
end

section
/-! PROOF. The harness of the rows that are no command, and the rows of the host port (R412, R447 to R469, R535). -/

namespace Sys2Proof.Machine

section
variable {i : Instr} {o : Host.Outcome State Fault Refusal} {t : Nat} {s x : State} {f : State → State} {L : List Part}

/-- Row `i` is carried out by `o`, which does `f` at the tick of the row. -/
structure RowActs (i : Instr) (o : Host.Outcome State Fault Refusal) (t : Nat) (s : State) (f : State → State) : Prop where
  dispatch : exec i s = o
  acts : o = act t s f

/-- A row that leaves `x`. -/
theorem RowActs.effect (r : RowActs i o t s f) (hup : s.pwr.down = false) (hf : f (advance s t) = x) (hk : Kept L (advance s t) x) :
    ∃ u, exec i s = .next u ∧ Follows x u ∧ Kept L s u := by
  obtain ⟨u, hu, hset⟩ := row_row (r.dispatch.trans r.acts) hup hf hk
  exact ⟨u, hu, hset.follows, hset.kept⟩

/-- A row that has nothing to do. -/
theorem RowActs.idles (r : RowActs i o t s f) (hup : s.pwr.down = false) (hf : f (advance s t) = advance s t) : Idles i t s :=
  r.effect hup hf (.refl _ _)

/-- A row that has nothing to do where a test holds. -/
theorem RowActs.unless {c : Bool} (r : RowActs i o t s f) (hup : s.pwr.down = false) (hf : f (advance s t) = if c = true then advance s t else x)
    (hk : Kept L (advance s t) x) :
    (c = true → Idles i t s) ∧ (c = false → ∃ u, exec i s = .next u ∧ Follows x u ∧ Kept L s u) :=
  ⟨fun h => r.idles hup (hf.trans (if_pos h)), fun h => r.effect hup (hf.trans (if_neg (Bool.eq_false_iff.1 h))) hk⟩

@[inherit_doc RowActs.unless]
theorem RowActs.unlessProp {c : Prop} [Decidable c] (r : RowActs i o t s f) (hup : s.pwr.down = false) (hf : f (advance s t) = if c then advance s t else x)
    (hk : Kept L (advance s t) x) :
    (c → Idles i t s) ∧ (¬c → ∃ u, exec i s = .next u ∧ Follows x u ∧ Kept L s u) :=
  ⟨fun h => r.idles hup (hf.trans (if_pos h)), fun h => r.effect hup (hf.trans (if_neg h)) hk⟩

end

/-- What a register write may change. -/
abbrev registerParts : List Part :=
  [.host, .ses, .fe, .cal, .spec, .acq, .disp, .mon, .tiu, .grove, .mem, .move, .aux, .ctl, .flt, .sec, .pwr]

/-- Settles O42: each row by its test and the frame of what it does. -/
theorem hostRegisters : Obligations.HostRegisters := by
  unfold Obligations.HostRegisters
  have time0 : ∀ t s, RowActs (.time0Read t) (execTime0Read t s) t s _ := fun _ _ => ⟨rfl, rfl⟩
  have serial0 : ∀ t s, RowActs (.serial0Read t) (execSerial0Read t s) t s _ := fun _ _ => ⟨rfl, rfl⟩
  have latched : ∀ t k s, RowActs (.latchedWordRead t k) (execLatchedWordRead t k s) t s _ := fun _ _ _ => ⟨rfl, rfl⟩
  have aux : ∀ t s, RowActs (.auxDataRead t) (execAuxDataRead t s) t s _ := fun _ _ => ⟨rfl, rfl⟩
  have register : ∀ t off v k s, RowActs (.registerWrite t off v k) (execRegisterWrite t off v k s) t s _ := fun _ _ _ _ _ => ⟨rfl, rfl⟩
  have config : ∀ t b d m k s, RowActs (.configWrite t b d m k) (execConfigWrite t b d m k s) t s _ := fun _ _ _ _ _ _ => ⟨rfl, rfl⟩
  have msix : ∀ t v a d m s, RowActs (.msixTableWrite t v a d m) (execMsixTableWrite t v a d m s) t s _ := fun _ _ _ _ _ _ => ⟨rfl, rfl⟩
  have linkUp : ∀ t r w f s, RowActs (.hpLinkUp t r w f) (execHpLinkUp t r w f s) t s _ := fun _ _ _ _ _ => ⟨rfl, rfl⟩
  refine ⟨fun t s hup => (time0 t s).effect hup rfl (readTime0_kept _), fun t s hup => (serial0 t s).effect hup rfl (readSerial0_kept _),
    fun t k s hup => (latched t k s).effect hup rfl (readLatched_kept _ _), fun t s hup => (aux t s).effect hup rfl (readAux_kept _),
    fun t off v k s hup => (register t off v k s).effect hup rfl ?register, fun t b d m k s hup => (config t b d m k s).effect hup rfl ?config,
    fun t v a d m s hup => (msix t v a d m s).unlessProp hup rfl ?msix, fun t r w f s hup => (linkUp t r w f s).unless hup rfl ?linkUp⟩
  case register =>
    have flushed := (flushAll_posts (advance s t)).kept registerParts
    exact .ite (fun _ => flushed) fun _ => .ite (fun _ => .chain (hostWrite_kept _ _ _ (drwWrite_kept _ _ _)) (by decide) flushed) fun _ =>
      .ite (fun _ => .chain (drwRead_kept _ _) (by decide) flushed) fun _ => flushed
  case config =>
    have flushed := (flushAll_posts (advance s t)).kept [.host, .ses, .cmds]
    have set : ∀ h : HostIf, Kept [.host, .ses, .cmds] (advance s t) { flushAll (advance s t) with host := h } :=
      fun h => (Kept.upd_host h ⟨.inl (by decide), .inl (by decide), .inl (by decide)⟩).2 flushed
    exact .ite (fun _ => .chain (hostReset_kept _) (by decide) flushed) fun _ => .chain (msixFlush_kept _) (by decide)
      (.ite (fun _ => .chain (waitFlush_kept _) (by decide) (set _)) fun _ => set _)
  case msix => exact .trans (State.modMsixE_kept _ _ _) (msixFlush_kept _)
  case linkUp => exact kept_host _ rfl rfl rfl rfl

/-- What the end of a release may change. -/
abbrev releaseParts : List Part :=
  [.host, .ses, .cmds, .fe, .cal, .spec, .acq, .disp, .mon, .tiu, .grove, .mem, .move, .aux, .ctl, .flt, .sec, .pwr]

/-- Settles O43: each row by its test and the frame of what it does; HOST_INTERFACE_RESET and HP_PERST_RELEASE also without power. -/
theorem hostCommandFlow : Obligations.HostCommandFlow := by
  unfold Obligations.HostCommandFlow
  have fetch : ∀ c op r s, RowActs (.commandFetch c op r) (execCommandFetch c op r s) c.t s _ := fun _ _ _ _ => ⟨rfl, rfl⟩
  have timeout : ∀ t n i s, RowActs (.commandTimeout t n i) (execCommandTimeout t n i s) t s _ := fun _ _ _ _ => ⟨rfl, rfl⟩
  have holdEnd : ∀ t n s, RowActs (.completionSignalHoldEnd t n) (execCompletionSignalHoldEnd t n s) t s _ := fun _ _ _ => ⟨rfl, rfl⟩
  have delay : ∀ t s, RowActs (.eventDelayExpiry t) (execEventDelayExpiry t s) t s _ := fun _ _ => ⟨rfl, rfl⟩
  have lease : ∀ t n s, RowActs (.sysLease t n) (execSysLease t n s) t s _ := fun _ _ _ => ⟨rfl, rfl⟩
  have expiry : ∀ t n s, RowActs (.leaseExpiry t n) (execLeaseExpiry t n s) t s _ := fun _ _ _ => ⟨rfl, rfl⟩
  have release : ∀ t n s, RowActs (.releaseEnd t n) (execReleaseEnd t n s) t s _ := fun _ _ _ => ⟨rfl, rfl⟩
  have heartbeat : ∀ t s, RowActs (.heartbeatAdvance t) (execHeartbeatAdvance t s) t s _ := fun _ _ => ⟨rfl, rfl⟩
  refine ⟨fun c op r s hup => (fetch c op r s).unless hup rfl ?fetch, fun t n i s hup => (timeout t n i s).effect hup rfl ?timeout,
    fun t n s hup => (holdEnd t n s).unless hup rfl ?holdEnd, fun t s hup => (delay t s).unless hup rfl ?delay,
    fun t n s hup => (lease t n s).unless hup rfl ?lease, fun t n s hup => (expiry t n s).unless hup rfl ((startRelease_kept _ _ _).mono (by decide)),
    fun t n s hup => (release t n s).unless hup rfl ?release, fun t k s => ⟨fun hdown => ?resetDown, fun hup => ?resetUp⟩, fun t s => ?perst,
    fun t s hup => (heartbeat t s).unless hup rfl (kept_host _ rfl rfl rfl rfl)⟩
  case fetch =>
    exact .ite (fun _ => .chain (raiseFault_kept _ _ _) (by decide) (.chain (drwErr_kept _ _) (by decide) ((State.setSes_kept _ _ _).mono (by decide))))
      fun _ => .chain (flushFront_kept _ _) (by decide) ((State.setSes_kept _ _ _).mono (by decide))
  case timeout =>
    split
    · exact .refl _ _
    · exact .ite (fun _ => .refl _ _) fun _ => .chain (flushFront_kept _ _) (by decide)
        (.chain (complete_kept _ _ _) (by decide) ((State.setSes_kept _ _ _).mono (by decide)))
  case holdEnd =>
    have set := (State.setCplR_kept (advance s t) n { (advance s t).cplR n with held := false }).mono (m := [.host]) (by decide)
    exact .ite (fun _ => set) fun _ => .chain (cqSignal_kept _ _) (by decide) set
  case delay =>
    refine .trans ((Kept.upd_host _ ?_).2 (.refl _ _)) (signal_kept _ _)
    exact ⟨.inr rfl, .inr ⟨rfl, rfl⟩, .inr ⟨rfl, rfl⟩⟩
  case lease => exact .chain (post_kept _ _ _) (by decide) (State.setSes_kept _ _ _)
  case release =>
    have moved := (releaseMove_kept (advance s t) n).mono (m := releaseParts) (by decide)
    exact .ite (fun _ => moved) fun _ => .chain (sesPost_kept _ _ _ _) (by decide) (.chain (State.modSes_kept _ _ _) (by decide)
      (.chain (releaseOwners_kept _ _) (by decide) (.chain (releaseMem_kept _ _) (by decide) (.chain (releaseSignal_kept _ _) (by decide)
        (.trans (.ite (fun _ => .chain (unmountNow_kept _) (by decide) moved) fun _ => moved)
          (eachOwned_kept _ _ _ _ fun a u => (releaseGrove_kept a u).mono (by decide)))))))
  case resetDown =>
    by_cases hk : k = 0
    · exact ⟨_, if_pos (by simp [hdown, hk]), by simp [hk], (Kept.upd_pwr (by decide) _).2 (.refl _ _)⟩
    · refine ⟨s, (if_neg (by simp [hk])).trans (if_pos hdown), by simp [hk], .refl _ _⟩
  case resetUp =>
    have he : RowActs (.hostInterfaceReset t k) (execHostInterfaceReset t k s) t s _ := ⟨rfl, if_neg (by simp [hup])⟩
    have done : Kept [.host, .ses, .cmds, .pwr] (advance s t) (hostReset (flushAll (advance s t))) :=
      .chain (hostReset_kept _) (by decide) ((flushAll_posts _).kept _)
    exact he.effect hup rfl (.ite (fun _ => (Kept.upd_pwr (by decide) _).2 done) fun _ => done)
  case perst =>
    by_cases hup : s.pwr.down = true
    · exact ⟨_, if_pos hup, rfl, (Kept.upd_pwr (by decide) _).2 (.refl _ _)⟩
    · have he : exec (.hpPerstRelease t) s = act t s fun s => { s with pwr := { s.pwr with perst := true } } := if_neg hup
      obtain ⟨u, hu, hset⟩ := row_row (L := [.pwr]) he (by simpa using hup) rfl ((Kept.upd_pwr (by decide) _).2 (.refl _ _))
      exact ⟨u, hu, hset.pwr.trans (by rw [advance_pwr]), hset.kept⟩

end Sys2Proof.Machine
end

section
/-! PROOF. The rows of grains, spectra, the governor and the acquisition units (R13, R23, R39, R49, R61, R64, R74, R102 to R104, R145 to R155). -/

namespace Sys2Proof.Machine

/-- The frame of an FE_STREAM whose tick has come (R61). -/
theorem feStreamDue_kept (a : State) (q : InProg) : Kept commandParts a
    (if (q.data.getD 1 0 == 1 && (maskBits 6 q.unit_).any (fun id => !(a.str id).running && !spLocked a (pairOf id))) = true then finish a q stState 0 0
      else finish (feStreamGo a q.unit_ (q.data.getD 1 0 == 1) (q.data.headD 0)) q 0 0 0) :=
  .ite (fun _ => (finish_kept _ _ _ _ _).mono (by decide)) fun _ => .chain (finish_kept _ _ _ _ _) (by decide) (feStreamGo_kept _ _ _ _)

/-- Settles O44: each row by its test and the frame of what it does. -/
theorem grainRows : Obligations.GrainRows := by
  unfold Obligations.GrainRows
  refine ⟨fun t id codes s hup => RowActs.effect (o := execGrainTag t id codes s) ⟨rfl, rfl⟩ hup rfl ?tag,
    fun t id s hup => RowActs.effect (o := execOverloadEnd t id s) ⟨rfl, rfl⟩ hup rfl ?overload,
    fun t id s hup => RowActs.unless (o := execEpochRollover t id s) ⟨rfl, rfl⟩ hup rfl ?rollover,
    fun t k id n tid ok fill s hup => RowActs.unless (o := execGrainDelivery t k id n tid ok fill s) ⟨rfl, rfl⟩ hup rfl ?delivery,
    fun t i s hup => RowActs.unless (o := execProtectTrip t i s) ⟨rfl, rfl⟩ hup rfl ?trip,
    fun t s hup => RowActs.effect (o := execFeStreamAtCt t s) ⟨rfl, rfl⟩ hup rfl (.foldl _ feStreamDue_kept _ _)⟩
  case tag =>
    split
    · exact .refl _ _
    · next h _ =>
      refine .ite (fun _ => .refl _ _) fun _ => .chain (letGo_kept _ _) (by decide) (.chain (closeHeads_kept _ _ _) (by decide)
        (.chain (episode_kept _ _ _ _) (by decide) (.chain (perfAdd_kept _ _ _ _) (by decide) (.ite (fun _ => ?_) fun _ => ?_))))
      · exact (State.setStr_kept _ _ _).mono (by decide)
      · exact .chain (ddcsAbort_kept _ _ _) (by decide) (.chain (calMeasure_kept _ _ _ _ _) (by decide)
          (.chain (calGrainAbort_kept _ _ _ _) (by decide) ((State.setStr_kept _ _ _).mono (by decide))))
  case overload => exact .ite (fun _ => endEpisode_kept _ _) fun _ => .refl _ _
  case rollover => exact .chain (recBegin_kept _ _) (by decide) (.chain (post_kept _ _ _) (by decide) ((State.setEpoch_kept _ _ _).mono (by decide)))
  case delivery =>
    split
    · exact .refl _ _
    · exact .trans (.trans ((stagingFill_kept _ _).mono (by decide)) (withEpoch_kept _ _ _ _ (by decide) fun a =>
        .ite (fun _ => accept_kept _ _ _ _) fun _ => missAt_kept _ _)) (.trans (takenGrain_kept _ _ _ _) (recPull_kept _))
  case trip =>
    have tripped : Kept [.fe, .cal] (advance s t) (((List.range 6).foldl (fun a k => tripStream a k i) (advance s t)).setInp i
        { (advance s t).inp i with tripped := true }) :=
      .chain (State.setInp_kept _ _ _) (by decide) (.foldl _ (fun _ _ => (tripStream_kept _ _ _).mono (by decide)) _ _)
    refine .chain (post_kept _ _ _) (by decide) (.ite (fun _ => .chain (calAbort_kept _ _ _) (by decide) ?_) fun _ => ?_) <;>
    exact .ite (fun _ => .chain (openSettle_kept _ _ _ _) (by decide) (.ite (fun _ => .chain (State.setInp_kept _ _ _) (by decide)
      (.chain (keepFront_kept _ _ _) (by decide) tripped)) fun _ => tripped)) fun _ => .ite (fun _ => .chain (State.setInp_kept _ _ _) (by decide)
      (.chain (keepFront_kept _ _ _) (by decide) tripped)) fun _ => tripped

/-- Settles O45: each row by its test and the frame of what it does. -/
theorem spectrumAndGovernorRows : Obligations.SpectrumAndGovernorRows := by
  unfold Obligations.SpectrumAndGovernorRows
  refine ⟨fun t c m s hup => RowActs.unless (o := execSpectrumCompute t c m s) ⟨rfl, rfl⟩ hup rfl ?compute,
    fun t ms s hup => RowActs.effect (o := execGovRaiseStep t ms s) ⟨rfl, rfl⟩ hup rfl ?raise,
    fun t ms s hup => RowActs.effect (o := execGovLowerStep t ms s) ⟨rfl, rfl⟩ hup rfl ?lower,
    fun t ms s hup => RowActs.effect (o := execGovShed t ms s) ⟨rfl, rfl⟩ hup rfl ?shed,
    fun t ms s hup => RowActs.effect (o := execGovRestore t ms s) ⟨rfl, rfl⟩ hup rfl ?restore,
    fun t s hup => RowActs.unless (o := execCeilingRampEnd t s) ⟨rfl, rfl⟩ hup rfl ?ramp⟩
  case compute => exact .chain (recPull_kept _) (by decide) (.chain (computeSpectrum_kept _ _ _) (by decide) ((measure_kept _ _).mono (by decide)))
  case raise | lower =>
    exact .ite (fun _ => .trans (measure_kept _ _) (.trans (setSupply_kept _ _) (State.setGov_kept _ _))) fun _ => measure_kept _ _
  case shed | restore =>
    exact .ite (fun _ => .chain (State.setGov_kept _ _) (by decide) (.chain (shedStep_kept _ _) (by decide) ((measure_kept _ _).mono (by decide))))
      fun _ => (measure_kept _ _).mono (by decide)
  case ramp => exact .foldl' ((setSupply_kept _ _).mono (by decide)) fun _ _ => (ceilingApply_kept _ _).mono (by decide)

/-- Settles O46: each row by the frame of what it does to each unit, verdict or pin. -/
theorem acquisitionRows : Obligations.AcquisitionRows := by
  unfold Obligations.AcquisitionRows
  refine ⟨fun t s hup => RowActs.effect (o := execAcqArmAtCt t s) ⟨rfl, rfl⟩ hup rfl (.foldl _ armDue_kept _ _),
    fun t a s hup => RowActs.effect (o := execTimeTestVerdict t a s) ⟨rfl, rfl⟩ hup rfl ?verdict,
    fun t s hup => RowActs.effect (o := execEvtOutPulse t s) ⟨rfl, rfl⟩ hup rfl ?pulse,
    fun t s hup => RowActs.effect (o := execEvtOutPulseEnd t s) ⟨rfl, rfl⟩ hup rfl ?pulseEnd⟩
  case verdict => exact .foldl' ((State.modAu_kept _ _ _).mono (by decide)) fun _ _ => timeVerdict_kept _ _ _ _
  case pulse => exact .foldl _ (fun _ _ => .foldl' ((State.modPin_kept _ _ _).mono (by decide)) fun _ _ => leadEdge_kept _ _ _) _ _
  case pulseEnd =>
    exact .foldl _ (fun _ _ => .ite (fun _ => .chain (drivePin_kept _ _) (by decide) ((State.modPin_kept _ _ _).mono (by decide))) fun _ => .refl _ _) _ _

end Sys2Proof.Machine
end

section
/-! PROOF. The rows of density, display, monitors and clocks (R169 to R201, R212 to R223, R235 to R261). -/

namespace Sys2Proof.Machine

/-- Settles O47: each row by its test and the frame of what it does. -/
theorem densityAndDisplayRows : Obligations.DensityAndDisplayRows := by
  unfold Obligations.DensityAndDisplayRows
  refine ⟨fun t s hup => RowActs.unlessProp (o := execDecaySweep t s) ⟨rfl, rfl⟩ hup rfl ((Kept.upd_disp (by decide) _).2 (.refl _ _)),
    fun t i s hup => RowActs.effect (o := execDensReadCopyEnd t i s) ⟨rfl, rfl⟩ hup rfl ?copied,
    fun t i s hup => RowActs.unless (o := execDensClearEnd t i s) ⟨rfl, rfl⟩ hup rfl ?cleared,
    fun t p l u late s hup => RowActs.effect (o := execDispLineStart t p l u late s) ⟨rfl, rfl⟩ hup rfl ?line,
    fun t p s hup => RowActs.effect (o := execFrameDone t p s) ⟨rfl, rfl⟩ hup rfl (.foldl _ frameDone_kept _ _)⟩
  case copied =>
    exact .foldl _ (fun _ _ => .chain (finish_kept _ _ _ _ _) (by decide) (.chain (State.setDmap_kept _ _ _) (by decide)
      ((regWrite_kept _ _ _ _).mono (by decide)))) _ _
  case cleared =>
    have set := (State.modDmap_kept (advance s t) i fun m => { m with clearing := false }).mono (m := [.cmds, .disp]) (by decide)
    exact .ite (fun _ => set) fun _ => .chain (finishAll_kept _ _ _ _ _ _) (by decide) (.chain (finishAll_kept _ _ _ _ _ _) (by decide) set)
  case line =>
    have lines := Kept.foldl (l := commandParts) (fun a q => lineStart a q l u) (fun _ _ => lineStart_kept _ _ _ _)
      ((timed (advance s t) p).filter fun q => ((advance s t).port q).due (advance s t).now) (advance s t)
    exact .ite (fun _ => .chain (panicRaise_kept _ _ _) (by decide) lines) fun _ => lines

/-- Settles O48: each row by its test and the frame of what it does. -/
theorem displayLinkRows : Obligations.DisplayLinkRows := by
  unfold Obligations.DisplayLinkRows
  refine ⟨fun t p s hup => RowActs.unlessProp (o := execHpdLoss t p s) ⟨rfl, rfl⟩ hup rfl ?loss,
    fun t p ok s hup => RowActs.unlessProp (o := execHpdRestore t p ok s) ⟨rfl, rfl⟩ hup rfl ?restore,
    fun t p lost ok psr s hup => ?irq,
    fun t p high lanes rate psr s hup => RowActs.effect (o := execPanelHpdWait t p high lanes rate psr s) ⟨rfl, rfl⟩ hup rfl ?panel,
    fun t p s hup => RowActs.unlessProp (o := execBldelayExpiry t p s) ⟨rfl, rfl⟩ hup rfl ?light,
    fun t p s hup => RowActs.unless (o := execVddenOffDelay t p s) ⟨rfl, rfl⟩ hup rfl ?off,
    fun t p s hup => RowActs.effect (o := execVddenLowTimeExpiry t p s) ⟨rfl, rfl⟩ hup rfl ?low,
    fun t p ok s hup => RowActs.unlessProp (o := execDispLinkTrainingEnd t p ok s) ⟨rfl, rfl⟩ hup rfl ?training,
    fun t p r d s hup => RowActs.unless (o := execDispAuxReply t p r d s) ⟨rfl, rfl⟩ hup rfl ?reply⟩
  case loss =>
    have set := (State.setPort_kept (advance s t) p { (advance s t).port p with hpd := false }).mono (m := commandParts) (by decide)
    refine .ite (fun _ => set) fun _ => ?_
    have raised := fun i id => Kept.chain (raiseFault_kept _ id i) (by decide) (.chain (post_kept _ 0x0606
      (pack [(1, evPort ((advance s t).port p) p), (3, 0), (2, ((advance s t).port p).rate)])) (by decide)
      (.chain (State.modPort_kept _ p fun y => { y with linkOk := false, relink := false }) (by decide) set))
    exact .ite (fun _ => .chain (modPorts_kept _ _ _) (by decide) (.chain (finishAll_kept _ _ _ _ _ _) (by decide) (.chain (post_kept _ _ _) (by decide)
      (.foldl' (raised _ _) fun _ _ => .chain (startTiming_kept _ _) (by decide) ((State.modPort_kept _ _ _).mono (by decide)))))) fun _ => raised _ _
  case restore =>
    have set := (State.setPort_kept (advance s t) p { (advance s t).port p with hpd := true }).mono (m := commandParts) (by decide)
    exact .ite (fun _ => set) fun _ => .ite
      (fun _ => .chain (post_kept _ _ _) (by decide) (.chain (State.modPort_kept _ _ _) (by decide) set))
      fun _ => .chain (raiseFault_kept _ _ _) (by decide) (.chain (post_kept _ _ _) (by decide) set)
  case irq =>
    have acts : RowActs (.hpdIrq t p lost ok psr) (execHpdIrq t p lost ok psr s) t s _ := ⟨rfl, rfl⟩
    refine ⟨fun h => acts.idles hup (if_pos h), fun h => ⟨fun off => acts.idles hup ((if_neg h).trans (if_pos off)),
      fun on => acts.effect hup ((if_neg h).trans (if_neg (Bool.eq_false_iff.1 on))) ?_⟩⟩
    have posted := fun c : Nat => Kept.chain (post_kept _ 0x0606 (pack [(1, evPort ((advance s t).port p) p), (3, c), (2, ((advance s t).port p).rate)])) (by decide)
      (Kept.ite (l := commandParts) (c := lost = true) (fun _ => (State.setPort_kept (advance s t) p { (advance s t).port p with
        linkOk := false, relink := ok && !((advance s t).port p).fallow }).mono (by decide)) fun _ => .refl _ (advance s t))
    have raised := fun c id i => Kept.ite (c := c = 4) (fun _ => .chain (raiseFault_kept _ id i) (by decide) (posted c)) fun _ => posted c
    exact .ite (fun _ => .chain (modPorts_kept _ _ _) (by decide) (raised _ _ _)) fun _ => raised _ _ _
  case panel =>
    exact .ite (fun _ => .refl _ _) fun _ => .ite (fun _ => .ite (fun _ => .refl _ _) fun _ => capsRead_kept _ _ _ _ _) fun _ =>
      .ite (fun _ => .refl _ _) fun _ => .ite (fun _ => .chain (powerFail_kept _ _ _) (by decide) ((State.modPort_kept _ _ _).mono (by decide)))
        fun _ => .chain (capsRead_kept _ _ _ _ _) (by decide) ((State.modPort_kept _ _ _).mono (by decide))
  case light =>
    exact .ite (fun _ => .chain (finishAll_kept _ _ _ _ _ _) (by decide) ((modPorts_kept _ _ _).mono (by decide))) fun _ =>
      .ite (fun _ => (modPorts_kept _ _ _).mono (by decide)) fun _ => .refl _ _
  case off => exact .foldl' ((modPorts_kept _ _ _).mono (by decide)) fun _ _ => (finishAll_kept _ _ _ _ _ _).mono (by decide)
  case low => exact .ite (fun _ => .trans (State.modPort_kept _ _ _) (powerOn_kept _ _)) fun _ => .refl _ _
  case training =>
    refine .ite (fun _ => .ite (fun _ => .refl _ _) fun _ => fallowExit_kept _ _ _) fun _ => .ite (fun _ => .refl _ _) fun _ =>
      .ite (fun _ => ?_) fun _ => ?_
    · have set := (State.setPort_kept (advance s t) p { (advance s t).port p with phase := 10 }).mono (m := commandParts) (by decide)
      exact .ite (fun _ => .trans set (startVideo_kept _ _)) fun _ => set
    · split
      · exact .chain (modPorts_kept _ _ _) (by decide) (raiseFault_kept _ _ _)
      · exact .chain (trainFail_kept _ _) (by decide) (raiseFault_kept _ _ _)
  case reply =>
    have idle := (State.modPort_kept (advance s t) p fun x => { x with auxBusy := false }).mono (m := commandParts) (by decide)
    exact .foldl' (.ite (fun _ => .trans idle (raiseFault_kept _ _ _)) fun _ => idle) fun _ _ => (finish_kept _ _ _ _ _).mono (by decide)

/-- Settles O49: each row by its test and the frame of what it does. -/
theorem monitorRows : Obligations.MonitorRows := by
  unfold Obligations.MonitorRows
  refine ⟨fun t s hup => RowActs.unless (o := execMonitorRound t s) ⟨rfl, rfl⟩ hup rfl ?round,
    fun t s hup => RowActs.unlessProp (o := execMonEvlost t s) ⟨rfl, rfl⟩ hup rfl ?lost,
    fun t s hup => RowActs.unless (o := execMonSnapshotWriteEnd t s) ⟨rfl, rfl⟩ hup rfl ?snapshot⟩
  case round =>
    exact .trans (.trans (.chain (perfAdd_kept _ _ _ _) (by decide) ((Kept.upd_mon (by decide) _).2 (.foldp _ monTurn_kept _ _))) (recPull_kept _))
      (typeProgress_kept _ _ _)
  case lost => exact .chain (post_kept _ _ _) (by decide) ((Kept.upd_mon (by decide) _).2 (.refl _ _))
  case snapshot =>
    exact .foldl' ((Kept.upd_mon (by decide) _).2 ((memWrite_kept _ _ _).mono (by decide))) fun _ _ => (finish_kept _ _ _ _ _).mono (by decide)

/-- What the end of a PLL's search may change. -/
abbrev pllParts : List Part :=
  [.host, .cmds, .fe, .clk, .cal, .spec, .acq, .disp, .mon, .tiu, .grove, .mem, .move, .ctl, .flt, .sec, .pwr]

/-- The frame of what a PLL records at its edge: the hop table that it was building, the entry found and its new settings (R241). -/
theorem pllLocked_kept (s : State) (k n0 : Nat) (found : List Nat) (g : Pll → Pll) : Kept pllParts s
    ((if (if (s.pll k).building then found.drop 101 else found).isEmpty then (if (s.pll k).building then hopBuild s k found else s)
      else hopWrite (if (s.pll k).building then hopBuild s k found else s) k n0 ((if (s.pll k).building then found.drop 101 else found).take 1)).modPll k g) := by
  have built : Kept pllParts s (if (s.pll k).building then hopBuild s k found else s) :=
    .ite (fun _ => (hopBuild_kept _ _ _).mono (by decide)) fun _ => .refl _ _
  exact .chain (State.modPll_kept _ _ _) (by decide) (.ite (fun _ => built) fun _ => .chain (hopWrite_kept _ _ _ _) (by decide) built)

/-- Settles O50: each row by its test and the frame of what it does. -/
theorem clockLossRows : Obligations.ClockLossRows := by
  unfold Obligations.ClockLossRows
  refine ⟨fun t k f s hup => RowActs.effect (o := execPllLockLoss t k f s) ⟨rfl, rfl⟩ hup rfl (lockLoss_kept _ _ _ _),
    fun t k found s hup => RowActs.unlessProp (o := execPllSyncEdge t k found s) ⟨rfl, rfl⟩ hup rfl ?edge,
    fun t k found s hup => RowActs.unlessProp (o := execRelockAttemptFail t k found s) ⟨rfl, rfl⟩ hup rfl ?fail,
    fun t f ppm s hup => RowActs.effect (o := execRefInLoss t f ppm s) ⟨rfl, rfl⟩ hup rfl (refInLoss_kept _ _ _ _),
    fun t s hup => RowActs.effect (o := execRefInReturn t s) ⟨rfl, rfl⟩ hup rfl ?refBack,
    fun t s hup => RowActs.unless (o := execRefLoopLock t s) ⟨rfl, rfl⟩ hup rfl ?refLock,
    fun t s hup => RowActs.effect (o := execNodeLoss t s) ⟨rfl, rfl⟩ hup rfl (nodeLoss_kept _ _),
    fun t s hup => RowActs.unless (o := execNodeActivityReturn t s) ⟨rfl, rfl⟩ hup rfl ((Kept.upd_clk (by decide) _).2 (.refl _ _)),
    fun t s hup => RowActs.unless (o := execNodeRecovery t s) ⟨rfl, rfl⟩ hup rfl ?recovery,
    fun t s hup => RowActs.effect (o := execPpsLoss t s) ⟨rfl, rfl⟩ hup rfl ?pps,
    fun t s hup => RowActs.effect (o := execClkSetTimeTimeout t s) ⟨rfl, rfl⟩ hup rfl (.foldl _ (fun _ _ => finish_kept _ _ _ _ _) _ _)⟩
  case edge =>
    refine .chain (nodeStep_kept _ _) (by decide) (.foldl' (.chain (pllWindowEnd_kept _ _) (by decide) ?_)
      fun _ _ => (pllFinish_kept _ _ _ _ _).mono (by decide))
    refine .ite (fun _ => .foldl' ?_ fun a id => .ite (fun _ => ?_) fun _ => .refl _ _) fun _ => .ite (fun _ => ?_) fun _ => ?_
    · exact .chain (post_kept _ _ _) (by decide) (pllLocked_kept _ _ _ _ _)
    · exact .ite (fun _ => .chain (openSettle_kept _ _ _ _) (by decide) ((strBegin_kept _ _ _ _).mono (by decide)))
        fun _ => (strBegin_kept _ _ _ _).mono (by decide)
    · exact .chain (ctlRelock_kept _) (by decide) (.chain (setCoarse_kept _ _) (by decide) (.chain (post_kept _ _ _) (by decide) (pllLocked_kept _ _ _ _ _)))
    · exact (Kept.upd_mem (by decide) _).2 (.chain (post_kept _ _ _) (by decide) (pllLocked_kept _ _ _ _ _))
  case fail =>
    exact .trans (.ite (fun _ => .chain (State.modPll_kept _ _ _) (by decide) ((hopBuild_kept _ _ _).mono (by decide))) fun _ => .refl _ _)
      (attemptFail_kept _ _)
  case refBack => exact .ite (fun _ => (Kept.upd_clk (by decide) _).2 (.refl _ _)) fun _ => .refl _ _
  case refLock => exact .chain (post_kept _ _ _) (by decide) ((Kept.upd_clk (by decide) _).2 (.refl _ _))
  case recovery =>
    have later : Kept [.clk, .flt] (advance s t) { advance s t with now := ((advance s t).now + 15) / 16 * 16 } := (Kept.upd_now _).2 (.refl _ _)
    exact .chain (nodeNext_kept _) (by decide) ((Kept.upd_clk (by decide) _).2 later)
  case pps =>
    split
    · exact .refl _ _
    · exact .ite (fun _ => .refl _ _) fun _ => .chain (raiseFault_kept _ _ _) (by decide) (.chain (post_kept _ _ _) (by decide)
        ((Kept.upd_clk (by decide) _).2 (.refl _ _)))

end Sys2Proof.Machine
end

section
/-! PROOF. The rows of the time interval unit, the calibration and the Grove (R273 to R293, R302 to R311, R320, R333 to R349). -/

namespace Sys2Proof.Machine

/-- Settles O51: each row by its test and the frame of what it does. -/
theorem timeIntervalRows : Obligations.TimeIntervalRows := by
  unfold Obligations.TimeIntervalRows
  refine ⟨fun t n f c s hup => RowActs.effect (o := execInputEdge t n f c s) ⟨rfl, rfl⟩ hup rfl ?edge,
    fun t u s hup => RowActs.effect (o := execPendingEdgeClose t u s) ⟨rfl, rfl⟩ hup rfl ?close,
    fun t n s hup => RowActs.unlessProp (o := execTiuLost t n s) ⟨rfl, rfl⟩ hup rfl ?lost,
    fun t n k s hup => RowActs.unless (o := execQueueDrain t n k s) ⟨rfl, rfl⟩ hup rfl ?drain,
    fun t n tj s hup => RowActs.effect (o := execTiuTableUncal t n tj s) ⟨rfl, rfl⟩ hup rfl ?uncal,
    fun t n counts s hup => RowActs.unless (o := execTiuCalTestEnd t n counts s) ⟨rfl, rfl⟩ hup rfl (tiuTestDone_kept _ _ _)⟩
  case edge =>
    have level := (State.modTiuIn_kept (advance s t) n fun x => { x with level := !f }).mono (m := pllParts) (by decide)
    exact .ite (fun _ => .chain (edgeLost_kept _ _) (by decide) level) fun _ => .ite (fun _ => level) fun _ =>
      .ite (fun _ => .chain (State.setTiuIn_kept _ _ _) (by decide) level) fun _ =>
        .trans (.chain (State.setTiuIn_kept _ _ _) (by decide) level) (edgeStamp_kept _ _ _ _)
  case close =>
    split
    · exact .refl _ _
    · exact .ite (fun _ => .refl _ _) fun _ => .ite (fun _ => State.setTiuSt_kept _ _ _) fun _ =>
        .chain (post_kept _ _ _) (by decide) (State.setTiuSt_kept _ _ _)
  case lost => exact .chain (post_kept _ _ _) (by decide) (State.setTiuIn_kept _ _ _)
  case drain => exact .trans ((drainTo_kept _ _ _).mono (by decide)) (recPull_kept _)
  case uncal =>
    have warm : Kept [.tiu, .pwr] (advance s t) { advance s t with pwr := { (advance s t).pwr with tj := tj } } :=
      (Kept.upd_pwr (by decide) _).2 (.refl _ _)
    exact .ite (fun _ => .chain (State.modTiuIn_kept _ _ _) (by decide) warm) fun _ => warm

/-- The frame of the blind step that may follow one that has ended (R311). -/
theorem blindNext_kept {s u : State} (tgt : Nat) (c : Prop) [Decidable c] (h : Kept commandParts s u) :
    Kept commandParts s (if c then blindStart u tgt 1 else u) :=
  .ite (fun _ => .chain (blindStart_kept _ _ _) (by decide) h) fun _ => h

/-- Settles O52: each row by its test and the frame of what it does. -/
theorem calibrationRows : Obligations.CalibrationRows := by
  unfold Obligations.CalibrationRows
  refine ⟨fun t tgt m s hup => RowActs.effect (o := execCalStepEnd t tgt m s) ⟨rfl, rfl⟩ hup rfl ?step,
    fun t tgt s hup => RowActs.unless (o := execBlindRun t tgt s) ⟨rfl, rfl⟩ hup rfl ?blind,
    fun t tgt tj s hup => RowActs.unlessProp (o := execCalDrift t tgt tj s) ⟨rfl, rfl⟩ hup rfl ?drift⟩
  case step =>
    split
    · exact .refl _ _
    · next c _ =>
      refine .ite (fun _ => .refl _ _) fun _ => ?_
      have ended := stepEnd_kept (advance s t) tgt c m
      refine .ite (fun _ => ?_) fun _ => ?_
      · cases (stepEnd (advance s t) tgt c m).2 with
        | none => exact blindNext_kept tgt _ ended
        | some rec =>
          exact blindNext_kept tgt _ (.ite (fun _ => .trans (.chain (ringWrite_kept _ _ _) (by decide) ended) (recPull_kept _)) fun _ => ended)
      · split
        · exact .chain (calRecordOut_kept _ _ _ _) (by decide) ended
        · exact ended
  case blind =>
    exact .trans (State.setCalBlind_kept _ _ _) (.ite (fun _ => blindSkipped_kept _) fun _ => blindStart_kept _ _ _)
  case drift => exact .chain (driftUpdate_kept _ _) (by decide) ((Kept.upd_pwr (by decide) _).2 (.refl _ _))

/-- The frame of the second read of a block that wraps around its ring (R343). -/
theorem feedReadRest_kept {s : State} {r : List Byte × State} (c : Prop) [Decidable c] (i n a k d : Nat) (h : Kept commandParts s r.2) :
    Kept commandParts s (if c then ([], r.2) else feedRead r.2 i n a k d).2 :=
  .ite2 (fun _ => h) fun _ => .chain (feedRead_kept _ _ _ _ _ _) (by decide) h

/-- Settles O53: each row by its test and the frame of what it does. -/
theorem groveRows : Obligations.GroveRows := by
  unfold Obligations.GroveRows
  refine ⟨fun t n s hup => RowActs.effect (o := execHandOver t n s) ⟨rfl, rfl⟩ hup rfl ?handOver,
    fun t n s hup => RowActs.unlessProp (o := execHandlerReturn t n s) ⟨rfl, rfl⟩ hup rfl (State.setCore_kept _ _ _),
    fun t n s hup => RowActs.unless (o := execWaitEnd t n s) ⟨rfl, rfl⟩ hup rfl (State.setCore_kept _ _ _),
    fun t n s hup => RowActs.unlessProp (o := execCommonsLoadReturn t n s) ⟨rfl, rfl⟩ hup rfl ?load,
    fun t n s hup => RowActs.unlessProp (o := execSyncComplete t n s) ⟨rfl, rfl⟩ hup rfl (.trans (drainPosted_kept _ _ _) (State.modCore_kept _ _ _)),
    fun t n s hup => RowActs.effect (o := execTimerMatch t n s) ⟨rfl, rfl⟩ hup rfl ?timer,
    fun t i s hup => RowActs.unless (o := execFeedCopyBlock t i s) ⟨rfl, rfl⟩ hup rfl ?copy,
    fun t i s hup => RowActs.unless (o := execFeedWriteOut t i s) ⟨rfl, rfl⟩ hup rfl ?writeOut,
    fun t s hup => RowActs.effect (o := execGroveStartAtCt t s) ⟨rfl, rfl⟩ hup rfl ?start,
    fun t n s hup => RowActs.effect (o := execStagedSignalRaise t n s) ⟨rfl, rfl⟩ hup rfl ?staged⟩
  case handOver => exact .ite (fun _ => (State.setCore_kept _ _ _).mono (by decide)) fun _ => .refl _ _
  case load => exact .trans (.chain (State.setCore_kept _ _ _) (by decide) ((settlePosted_kept _).mono (by decide))) (portOne_kept _ _ _)
  case timer => exact .ite (fun _ => .trans (State.setCore_kept _ _ _) (setIpend_kept _ _ _)) fun _ => .refl _ _
  case copy =>
    exact .chain (feedAdvance_kept _ _) (by decide) (.chain (State.modFeed_kept _ _ _) (by decide)
      (.chain (feedWrite_kept _ _ _ _ _) (by decide) (regRead_kept _ _ _ _ _)))
  case writeOut =>
    refine .ite (fun _ => .chain (finishAll_kept _ _ _ _ _ _) (by decide) (.chain (feedOff_kept _ _) (by decide) ?_)) fun _ => ?_ <;>
    · refine .trans (.chain (feedAdvance_kept _ _) (by decide) (.chain (ringPut_kept _ _ _) (by decide) (feedReadRest_kept _ _ _ _ _ _ ?_))) (recPull_kept _)
      exact .chain (feedRead_kept _ _ _ _ _ _) (by decide) (.ite (fun _ => .refl _ _) fun _ => (settlePosted_kept _).mono (by decide))
  case start =>
    exact .foldl' (.foldl' ((Kept.upd_grove (by decide) _).2 (.refl _ _)) fun _ _ => (startCores_kept _ _ _ _ _).mono (by decide))
      fun _ _ => (finish_kept _ _ _ _ _).mono (by decide)
  case staged => exact .foldl' (State.setCore_kept _ _ _) fun _ _ => setIpend_kept _ _ _

end Sys2Proof.Machine
end

section
/-! PROOF. The rows of the memory and of the DMA channels (R361 to R385, R398 to R412). -/

namespace Sys2Proof.Machine

/-- What a read or an error of the memory may change. -/
abbrev memoryParts : List Part := [.host, .fe, .cal, .spec, .acq, .disp, .mon, .tiu, .grove, .mem, .move, .ctl, .flt, .sec, .pwr]

/-- Settles O54: each row by its test and the frame of what it does. -/
theorem memoryRows : Obligations.MemoryRows := by
  unfold Obligations.MemoryRows
  refine ⟨fun t s hup => RowActs.unless (o := execRefresh t s) ⟨rfl, rfl⟩ hup rfl ?refresh,
    fun t a s hup => RowActs.unless (o := execPatrolScrub t a s) ⟨rfl, rfl⟩ hup rfl (readLine_kept _ _ _),
    fun t a m i s hup => RowActs.unless (o := execCorrectableError t a m i s) ⟨rfl, rfl⟩ hup rfl (ceError_kept _ _ _ _),
    fun t a e m i s hup => RowActs.unless (o := execUncorrectableError t a e m i s) ⟨rfl, rfl⟩ hup rfl (ueError_kept _ _ _ _ _),
    fun t s hup => RowActs.effect (o := execRankSwitchOver t s) ⟨rfl, rfl⟩ hup rfl ?switch,
    fun t s hup => RowActs.effect (o := execRankSwitchOverEnd t s) ⟨rfl, rfl⟩ hup rfl ?switchEnd,
    fun t bad s hup => ?migration,
    fun t s hup => RowActs.effect (o := execMemRingLost t s) ⟨rfl, rfl⟩ hup rfl ?lost,
    fun t n s hup => RowActs.unlessProp (o := execZeroingDone t n s) ⟨rfl, rfl⟩ hup rfl ?zeroing,
    fun t k n a c d s hup => RowActs.effect (o := execOnDieError t k n a c d s) ⟨rfl, rfl⟩ hup rfl ?onDie,
    fun t p i h s hup => RowActs.unless (o := execPanicClear t p i h s) ⟨rfl, rfl⟩ hup rfl ?clear,
    fun t p i s hup => RowActs.effect (o := execPanicLong t p i s) ⟨rfl, rfl⟩ hup rfl ?long⟩
  case refresh => exact .chain (perfAdd_kept _ _ _ _) (by decide) ((Kept.upd_mem (by decide) _).2 (.refl _ _))
  case switch =>
    split
    · exact .chain (openWindow_kept _ _ _ _ _) (by decide) ((Kept.upd_mem (by decide) _).2 ((State.modQuad_kept _ _ _).mono (by decide)))
    · exact .refl _ _
  case switchEnd =>
    split
    · exact .refl _ _
    · exact .chain (finishAll_kept _ _ _ _ _ _) (by decide) (.chain (endWindow_kept _ _) (by decide) (.chain (post_kept _ _ _) (by decide)
        ((State.setQuad_kept _ _ _).mono (by decide))))
  case migration =>
    have acts : RowActs (.migrationRowCopy t bad) (execMigrationRowCopy t bad s) t s _ := ⟨rfl, rfl⟩
    refine ⟨fun none => acts.idles hup (by simp only [none]), fun q some => acts.effect hup (by simp only [some]) ?_⟩
    have line : ∀ a l (c : Prop) [Decidable c], Kept memoryParts a (if c then ueMark (readLine a l { master := 11, inst := q }).2.2 l false
        { master := 11, inst := q, access := 1 } else (readLine a l { master := 11, inst := q }).2.2) :=
      fun a l c _ => .ite (fun _ => .trans (readLine_kept _ _ _) (ueMark_kept _ _ _ _)) fun _ => readLine_kept _ _ _
    refine .ite (fun _ => ?_) fun _ => .chain (post_kept _ _ _) (by decide) (.chain (State.modQuad_kept _ _ _) (by decide) ?_) <;>
    · refine .chain (State.modQuad_kept _ _ _) (by decide) (.ite (fun _ => .refl _ _) fun _ => .foldl _ (fun a k => ?_) _ _)
      exact .ite (fun _ => .chain (State.modQuad_kept _ _ _) (by decide) (line _ _ _)) fun _ => .chain (perfAdd_kept _ _ _ _) (by decide) (line _ _ _)
  case lost => exact .foldl _ (fun _ _ => .chain (post_kept _ _ _) (by decide) (State.modReg_kept _ _ _)) _ _
  case zeroing =>
    exact .foldl' (.foldp' (.foldp' (.refl _ _) fun _ _ => (zeroSome_kept _ _ _ _).mono (by decide)) fun _ _ => (zeroSome_kept _ _ _ _).mono (by decide))
      fun _ _ => allocDone_kept _ _
  case onDie =>
    refine .ite (fun _ => raiseFault_kept _ _ _) fun _ => ?_
    split
    · exact .ite (fun _ => .trans (raiseFault_kept _ _ _) (coreStop_kept _ _ _ _)) fun _ => .chain (State.modCore_kept _ _ _) (by decide) (raiseFault_kept _ _ _)
    · exact .ite (fun _ => .trans (raiseFault_kept _ _ _) (coreStop_kept _ _ _ _)) fun _ => (Kept.upd_grove (by decide) _).2 (raiseFault_kept _ _ _)
    · exact .chain (monSuspect_kept _ _) (by decide) (raiseFault_kept _ _ _)
    · exact .chain (State.modDmap_kept _ _ _) (by decide) (raiseFault_kept _ _ _)
    · exact .chain (State.modMaskS_kept _ _ _) (by decide) (raiseFault_kept _ _ _)
    · exact (Kept.upd_mem (by decide) _).2 (raiseFault_kept _ _ _)
  case clear =>
    split
    · exact .refl _ _
    · exact .ite (fun _ => (Kept.upd_mem (by decide) _).2 (.refl _ _)) fun _ => .chain (post_kept _ _ _) (by decide)
        ((Kept.upd_mem (by decide) _).2 ((Kept.upd_mem (by decide) _).2 (.refl _ _)))
  case long =>
    split
    · exact .ite (fun _ => .trans ((Kept.upd_mem (by decide) _).2 (.refl _ _)) (raiseFault_kept _ _ _)) fun _ => .refl _ _
    · exact .refl _ _

/-- The frame of the read side of a burst: the request is taken, the bytes are read, and what comes over the link is counted (R407, R511). -/
theorem burstRead_kept (s : State) (n : Nat) (d : Desc) (runs : List (Nat × Nat)) (data : List Nat) (m : Nat) (c : Prop) [Decidable c] :
    Kept commandParts s (if c then perfAdd (readSide (if d.reqen = true then s.setDma n { s.dma n with reqPend := false } else s) n d runs data).2.2 0x0E 1 m
      else (readSide (if d.reqen = true then s.setDma n { s.dma n with reqPend := false } else s) n d runs data).2.2) := by
  have read : Kept commandParts s (readSide (if d.reqen = true then s.setDma n { s.dma n with reqPend := false } else s) n d runs data).2.2 :=
    .chain (readSide_kept _ _ _ _ _) (by decide) (.ite (fun _ => (State.setDma_kept _ _ _).mono (by decide)) fun _ => .refl _ _)
  exact .ite (fun _ => .chain (perfAdd_kept _ _ _ _) (by decide) read) fun _ => read

/-- The frame of a record that is read from a ring and acknowledged (R412). -/
theorem ringTaken_kept {s u : State} (h : Kept memoryParts s u) (r pos len rpos : Nat) (rd : Reader) :
    Kept memoryParts s (ringAck (ringRead u r pos len rd).2.2 r rpos) :=
  .chain (ringAck_kept _ _ _) (by decide) (.trans h (ringRead_kept _ _ _ _ _))

/-- A write to the host's memory. -/
theorem Kept.hostMem {l : List Part} {s u : State} {h : HostIf} (hl : Part.host ∈ l) (hh : u.host = h) (m : Mem) (hk : Kept l s u) :
    Kept l s { u with host := { h with hostMem := m } } := by
  subst hh
  refine (Kept.upd_host _ ?_).2 hk
  exact ⟨.inl hl, .inr ⟨rfl, rfl⟩, .inr ⟨rfl, rfl⟩⟩

/-- Settles O55: each row by its test and the frame of what it does. -/
theorem dmaRows : Obligations.DmaRows := by
  unfold Obligations.DmaRows
  refine ⟨fun t n s hup => RowActs.effect (o := execDmaHandover t n s) ⟨rfl, rfl⟩ hup rfl (handFirst_kept _ _),
    fun t n data ok s hup => RowActs.effect (o := execDmaBurst t n data ok s) ⟨rfl, rfl⟩ hup rfl ?burst,
    fun t n s hup => RowActs.effect (o := execDescriptorEnd t n s) ⟨rfl, rfl⟩ hup rfl ?descriptor,
    fun t l s hup => RowActs.effect (o := execTimerLinePulse t l s) ⟨rfl, rfl⟩ hup rfl ?pulse,
    fun t n held s hup => RowActs.effect (o := execStreamRecordCopy t n held s) ⟨rfl, rfl⟩ hup rfl ?stream⟩
  case burst =>
    split
    · exact .refl _ _
    · next d _ =>
      refine .ite (fun _ => .refl _ _) fun _ => ?_
      refine .ite (fun _ => .trans ?_ (descEnd_kept _ _ _ _ _)) fun _ => .ite (fun _ => .trans ?_ (descEnd_kept _ _ _ _ _)) fun _ => ?_
      · exact burstRead_kept _ _ _ _ _ _ _
      · exact burstRead_kept _ _ _ _ _ _ _
      · refine .ite (fun _ => .chain (perfAdd_kept _ _ _ _) (by decide) ?_) fun _ => ?_ <;>
        exact .chain (perfAdd_kept _ _ _ _) (by decide) (.chain (State.modDma_kept _ _ _) (by decide) (.chain (writeSide_kept _ _ _ _) (by decide)
          (burstRead_kept _ _ _ _ _ _ _)))
  case descriptor =>
    split
    · exact .ite (fun _ => descEnd_kept _ _ _ _ _) fun _ => .refl _ _
    · exact .refl _ _
  case pulse => exact .ite (fun _ => .trans (State.setTml_kept _ _ _) (dmaPulse_kept _ _)) fun _ => .refl _ _
  case stream =>
    have held' := Kept.ite (c := held < 524288) (fun _ => (panicRaise_kept (advance s t) 3 0).mono (m := memoryParts) (by decide)) fun _ => .refl _ _
    split
    · exact held'
    · refine .ite (fun _ => held') fun _ => ?_
      refine .ite (fun _ => .chain (State.modDma_kept _ _ _) (by decide) (ringTaken_kept held' _ _ _ _ _)) fun _ => ?_
      refine .ite (fun _ => .chain (signal_kept _ _) (by decide) ?_) fun _ => ?_ <;>
      exact .chain (perfAdd_kept _ _ _ _) (by decide) (.chain (perfAdd_kept _ _ _ _) (by decide)
        (.hostMem (by decide) rfl _ (.chain (State.setDma_kept _ _ _) (by decide) (ringTaken_kept held' _ _ _ _ _))))

end Sys2Proof.Machine
end

section
/-! PROOF. The rows of storage, the auxiliary converter, the control outputs, faults and counters (R416 to R435, R481 to R513, R528, R531). -/

namespace Sys2Proof.Machine

/-- Settles O56: each row by its test and the frame of what it does. -/
theorem storageRows : Obligations.StorageRows := by
  unfold Obligations.StorageRows
  refine ⟨fun t s hup => RowActs.unless (o := execCheckpoint t s) ⟨rfl, rfl⟩ hup rfl ?checkpoint,
    fun t q held s hup => ?stripe,
    fun t rates s hup => RowActs.unlessProp (o := execMountMeasurementEnd t rates s) ⟨rfl, rfl⟩ hup rfl ?measured,
    fun t n c st s hup => RowActs.effect (o := execDriveFail t n c st s) ⟨rfl, rfl⟩ hup rfl (driveFail_kept _ _ _ _),
    fun t n st k f d s hup => RowActs.unless (o := execDriveCommandCompletion t n st k f d s) ⟨rfl, rfl⟩ hup rfl ?completion,
    fun t n r w f ok st l su se v s hup => RowActs.unless (o := execStorageLinkUp t n r w f ok st l su se v s) ⟨rfl, rfl⟩ hup rfl ?linkUp⟩
  case checkpoint =>
    exact .trans (.chain (flushCheck_kept _) (by decide) ((Kept.upd_move (by decide) _).2 (.chain (handFull_kept _ _) (by decide)
      ((Kept.upd_move (by decide) _).2 (.refl _ _))))) (recPull_kept _)
  case stripe =>
    have acts : RowActs (.stripeComplete t q held) (execStripeComplete t q held s) t s _ := ⟨rfl, rfl⟩
    refine ⟨fun none => acts.idles hup (by simp only [none]), fun x some => acts.effect hup (by simp only [some]) ?_⟩
    exact .trans (.chain (endCheck_kept _) (by decide) (.chain (flushCheck_kept _) (by decide) (.chain (perfAdd_kept _ _ _ _) (by decide)
      ((Kept.upd_move (by decide) _).2 (.ite (fun _ => (panicRaise_kept _ _ _).mono (by decide)) fun _ => .refl _ _))))) (recPull_kept _)
  case measured => exact (Kept.upd_move (by decide) _).2 (.foldl _ (fun _ _ => State.modLink_kept _ _ _) _ _)
  case completion =>
    split
    · have written := fun h o b => Kept.ite (c := st = 0) (fun _ => (regWrite_kept (advance s t) h o b).mono (m := commandParts) (by decide))
        fun _ => .refl _ (advance s t)
      exact .ite (fun _ => .chain (finish_kept _ _ _ _ _) (by decide) (written _ _ _))
        fun _ => .trans (.chain (finish_kept _ _ _ _ _) (by decide) (written _ _ _)) (driveFail_kept _ _ _ _)
    · exact .ite (fun _ => driveFail_kept _ _ _ _) fun _ => jobStep_kept _ _ _ _ _
  case linkUp =>
    split
    · exact .ite (fun _ => (linkTrained_kept _ _ _ _).mono (by decide)) fun _ => .refl _ _
    · exact .ite (fun _ => .ite (fun _ => driveFail_kept _ _ _ _) fun _ => (linkDown_kept _ _).mono (by decide))
        fun _ => .chain (linkPost_kept _ _) (by decide) ((State.modLink_kept _ _ _).mono (by decide))

/-- Settles O57: each row by its test and the frame of what it does. -/
theorem auxRows : Obligations.AuxRows := by
  unfold Obligations.AuxRows
  refine ⟨fun t s hup => ?start,
    fun t v vref s hup => RowActs.unless (o := execAuxConversion t v vref s) ⟨rfl, rfl⟩ hup rfl ?conversion,
    fun t s hup => RowActs.effect (o := execAuxLimitPeriodEnd t s) ⟨rfl, rfl⟩ hup rfl ?limits,
    fun t s hup => RowActs.unlessProp (o := execAuxOvr t s) ⟨rfl, rfl⟩ hup rfl ?ovr,
    fun t v s hup => RowActs.effect (o := execAuxRef t v s) ⟨rfl, rfl⟩ hup rfl ?ref⟩
  case start =>
    have acts : RowActs (.auxPassStart t) (execAuxPassStart t s) t s _ := ⟨rfl, rfl⟩
    exact ⟨fun off => acts.idles hup (if_pos off), fun on => acts.unless hup (if_neg (Bool.eq_false_iff.1 on))
      ((Kept.upd_aux (by decide) _).2 (.refl _ _))⟩
  case conversion => exact .chain (auxLimit_kept _ _ _) (by decide) ((Kept.upd_aux (by decide) _).2 (.refl _ _))
  case limits => exact .foldl _ (fun _ _ => .ite (fun _ => .chain (post_kept _ _ _) (by decide) (State.setAuxIn_kept _ _ _)) fun _ => .refl _ _) _ _
  case ovr => exact .chain (post_kept _ _ _) (by decide) ((Kept.upd_aux (by decide) _).2 (.refl _ _))
  case ref =>
    refine .ite (fun _ => .trans ((Kept.upd_aux (by decide) _).2 (.refl _ _)) (auxSetRefok_kept _ _)) fun _ => .ite (fun _ => .refl _ _) fun _ => ?_
    split
    · exact (Kept.upd_aux (by decide) _).2 (.refl _ _)
    · exact .ite (fun _ => .refl _ _) fun _ => auxSetRefok_kept _ _

/-- Settles O58: each row by its test and the frame of what it does. -/
theorem controlRows : Obligations.ControlRows := by
  unfold Obligations.ControlRows
  refine ⟨fun t n s hup => RowActs.unless (o := execCtlStep t n s) ⟨rfl, rfl⟩ hup rfl (State.setCtlO_kept _ _ _),
    fun t n s hup => RowActs.unless (o := execCtlRangePhase t n s) ⟨rfl, rfl⟩ hup rfl (State.setCtlO_kept _ _ _),
    fun t s hup => RowActs.effect (o := execCtlTimedWrite t s) ⟨rfl, rfl⟩ hup rfl ?timed,
    fun t n ov s hup => RowActs.unless (o := execCtlFault t n ov s) ⟨rfl, rfl⟩ hup rfl ?fault,
    fun t n ov s hup => RowActs.effect (o := execCtlFaultClear t n ov s) ⟨rfl, rfl⟩ hup rfl ?clear⟩
  case timed =>
    exact .ite (fun _ => .chain (ctlTimedDone_kept _) (by decide) ((ctlTimedDue_kept _).mono (by decide))) fun _ => .refl _ _
  case fault =>
    exact .chain (raiseFault_kept _ _ _) (by decide) (.chain (post_kept _ _ _) (by decide) (.chain (State.setActive_kept _ _ _) (by decide)
      ((State.setCtlO_kept _ _ _).mono (by decide))))
  case clear => exact .chain (State.setActive_kept _ _ _) (by decide) ((State.setCtlO_kept _ _ _).mono (by decide))

/-- What an access at the test port may change. -/
abbrev portParts : List Part :=
  [.host, .cmds, .fe, .clk, .cal, .spec, .acq, .disp, .mon, .tiu, .grove, .mem, .move, .aux, .ctl, .flt, .sec, .pwr]

/-- Settles O59: each row by its test and the frame of what it does. -/
theorem faultRows : Obligations.FaultRows := by
  unfold Obligations.FaultRows
  refine ⟨fun t items s hup => RowActs.effect (o := execForcedRaise t items s) ⟨rfl, rfl⟩ hup rfl ?forced,
    fun t s hup => RowActs.effect (o := execSuppressionWindowClose t s) ⟨rfl, rfl⟩ hup rfl (.foldl _ winClose_kept _ _),
    fun t id m items s hup => RowActs.unless (o := execFaultDetection t id m items s) ⟨rfl, rfl⟩ hup rfl ?detection,
    fun t k core on s hup => RowActs.unless (o := execRailFault t k core on s) ⟨rfl, rfl⟩ hup rfl ?rail,
    fun t s hup => RowActs.effect (o := execPerfControlAtCt t s) ⟨rfl, rfl⟩ hup rfl ?control,
    fun t k v s hup => RowActs.unless (o := execPerfSat t k v s) ⟨rfl, rfl⟩ hup rfl ?sat,
    fun t i s hup => RowActs.effect (o := execCommandTransferEnd t i s) ⟨rfl, rfl⟩ hup rfl ?transfer,
    fun t k id a b v s hup => RowActs.effect (o := execTestPortAccess t k id a b v s) ⟨rfl, rfl⟩ hup rfl ?port⟩
  case forced => exact .foldl' ((Kept.upd_flt (by decide) _).2 (.refl _ _)) fun _ _ => detect_kept _ _ _
  case detection =>
    exact .ite (fun _ => (detectEnd_kept _ _).mono (by decide)) fun _ => .trans
      (.ite (fun _ => (State.setActive_kept _ _ _).mono (by decide)) fun _ => .refl _ _) (detect_kept _ _ _)
  case rail =>
    exact .ite (fun _ => .trans ((State.setActive_kept _ _ _).mono (by decide)) (raiseFault_kept _ _ _)) fun _ => (State.setActive_kept _ _ _).mono (by decide)
  case control =>
    exact .foldl _ (fun _ _ => .chain (finish_kept _ _ _ _ _) (by decide) ((perfGo_kept _ _ _).mono (by decide))) _ _
  case sat => exact .ite (fun _ => .chain (post_kept _ _ _) (by decide) (State.setPerfC_kept _ _ _)) fun _ => State.setPerfC_kept _ _ _
  case transfer =>
    split
    · exact .ite (fun _ => .refl _ _) fun _ => transferEnd_kept _ _
    · exact .refl _ _
  case port =>
    have refused : ∀ u, Kept portParts u (portRefused u) := fun u => (portRefused_kept u).mono (by decide)
    split
    · exact .ite (fun _ => .refl _ _) fun _ => refused _
    · exact .ite (fun _ => .refl _ _) fun _ => refused _
    · exact .ite (fun _ => .refl _ _) fun _ => refused _
    · exact .ite (fun _ => refused _) fun _ => .ite (fun _ => detect_kept _ _ _) fun _ => .refl _ _
    · exact .ite (fun _ => (lifeMove_kept _ _).mono (by decide)) fun _ => refused _
    · exact .ite (fun _ => (lifeMove_kept _ _).mono (by decide)) fun _ => refused _
    · exact .ite (fun _ => refused _) fun _ => .ite (fun _ => (Kept.upd_sec (by decide) _).2 (.refl _ _)) fun _ => .refl _ _
    · exact .ite (fun _ => refused _) fun _ => (factoryWrite_kept _ _ _).mono (by decide)

end Sys2Proof.Machine
end

section
/-! PROOF. The rows of power, reset, temperature and start-up (R473, R533 to R542). -/

namespace Sys2Proof.Machine

/-- The state as a row that resets the engine finds it: every posted event has entered the ring. -/
def atReset (t : Nat) (s : State) : State := flushAll (advance s t)

theorem flushAll_advance (t : Nat) (s : State) : flushAll (advance s t) = atReset t s := rfl

@[simp] theorem atReset_pending (t : Nat) (s : State) : (atReset t s).pending = s.pending := by simp [atReset]
@[simp] theorem atReset_freeNo (t : Nat) (s : State) : (atReset t s).freeNo = s.freeNo := by simp [atReset]
@[simp] theorem atReset_cal (t : Nat) (s : State) : (atReset t s).cal = s.cal := by simp [atReset]
@[simp] theorem atReset_mem (t : Nat) (s : State) : (atReset t s).mem = s.mem := by simp [atReset]
@[simp] theorem atReset_sec (t : Nat) (s : State) : (atReset t s).sec = s.sec := by simp [atReset]
@[simp] theorem atReset_pwr (t : Nat) (s : State) : (atReset t s).pwr = s.pwr := by simp [atReset]
@[simp] theorem atReset_slot (t : Nat) (s : State) : (atReset t s).host.slot = s.host.slot := (flushAll_slot _).trans (advance_slot _ _)
@[simp] theorem atReset_activating (t : Nat) (s : State) : (atReset t s).host.activating = s.host.activating :=
  (flushAll_activating _).trans (advance_activating _ _)

theorem sensorBad_atReset (t : Nat) (s : State) (k : Nat) : sensorBad (atReset t s) k = sensorBad s k := by
  unfold sensorBad isSticky
  rw [atReset, flushAll_flt, advance_flt]

theorem sensorPart_atReset (t : Nat) (s : State) (rs : List Int) (k : Nat) : sensorPart (atReset t s) rs k = sensorPart s rs k := by
  unfold sensorPart
  rw [sensorBad_atReset]

@[simp] theorem tjOf_atReset (t : Nat) (s : State) (rs : List Int) : tjOf (atReset t s) rs = tjOf s rs := by
  simp only [tjOf, funext (sensorPart_atReset t s rs)]

/-- The row that leaves what a reset of the engine leaves, but for the host interface `h` and the power signals `p`, resets it so (R538). -/
theorem resetAs_of_actReset {t : Nat} {s : State} {f : State → State} {h : HostIf} {p : Pwr}
    (hf : f (atReset t s) = { deviceReset (atReset t s) with host := h, pwr := p }) : ∃ u, actReset t s f = .next u ∧ ResetAs s h p u := by
  refine ⟨_, rfl, ?_⟩
  change ResetAs s h p { f (atReset t s) with pending := s.pending, freeNo := max s.freeNo (f (atReset t s)).freeNo }
  rw [hf]
  simp [ResetAs, deviceReset, State.reset]

/-- What the end of start-up may change. -/
abbrev startupParts : List Part :=
  [.host, .cmds, .fe, .clk, .cal, .spec, .acq, .disp, .mon, .tiu, .grove, .mem, .move, .aux, .ctl, .flt, .sec, .pwr]

/-- Settles O60: each row by its test; those that reset the engine by what a device reset leaves, the others by the frame of what they do. -/
theorem powerRows : Obligations.PowerRows := by
  unfold Obligations.PowerRows
  refine ⟨fun t waited tj s => ?powerOn, fun t held s => ?reset, fun t s => ?powerDown, fun t rs s => ?trip,
    fun t rs s hup => RowActs.effect (o := execThermalStage t rs s) ⟨rfl, rfl⟩ hup rfl ?stage,
    fun t tj s hup => RowActs.effect (o := execThermalStageExit t tj s) ⟨rfl, rfl⟩ hup rfl ((Kept.upd_pwr (by decide) _).2 (.refl _ _)),
    fun t s => ?release, fun t s => ?timeout,
    fun t fails a b f e s hup => RowActs.unless (o := execStartupComplete t fails a b f e s) ⟨rfl, rfl⟩ hup rfl ?startup⟩
  case powerOn =>
    have he : exec (.powerOn t waited tj) s = execPowerOn t waited tj s := rfl
    refine ⟨fun stays => he.trans (if_pos ?_), fun off w cool => ?_⟩
    · rcases stays with h | h | h <;> simp [h]
    · rw [he, execPowerOn, if_neg (by simpa [off, w] using cool)]
      exact resetAs_of_actReset (by simp [flushAll_advance, deviceReset])
  case reset =>
    have he : exec (.deviceReset t held) s = execDeviceReset t held s := rfl
    have due : s.pwr.down = false → held = false → s.host.resetAt.any (fun r => decide (r ≤ max s.now t)) = true →
        exec (.deviceReset t held) s = actReset t s fun s => if s.host.activating then resetOther s 3 false true else deviceReset s :=
      fun up free at_ => by rw [he, execDeviceReset, if_neg (by simp [up]), if_neg (by simp [free]), if_pos at_]
    refine ⟨fun down => he.trans (if_pos down), fun up held => ?_, fun up free early => ?_, fun up free at_ no => ?_, fun up free at_ yes => ?_⟩
    · rw [he, execDeviceReset, if_neg (by simp [up]), if_pos held]
      exact resetAs_of_actReset (by simp [flushAll_advance, deviceReset])
    · refine RowActs.idles (f := fun s => s) ⟨he, ?_⟩ up rfl
      rw [execDeviceReset, if_neg (by simp [up]), if_neg (by simp [free]), if_neg (Bool.eq_false_iff.1 early)]
    · rw [due up free at_]
      exact resetAs_of_actReset (by simp [flushAll_advance, no, deviceReset])
    · rw [due up free at_]
      exact resetAs_of_actReset (by simp [flushAll_advance, yes, deviceReset, resetOther, HostIf.kept])
  case powerDown =>
    have he : exec (.powerDown t) s = execPowerDown t s := rfl
    refine ⟨fun off => he.trans (if_pos (by simp [off])), fun on => ?_⟩
    rw [he, execPowerDown, if_neg (by simp [on])]
    exact resetAs_of_actReset (by simp [flushAll_advance, powerDown, deviceReset])
  case trip =>
    have he : exec (.thermalTrip t rs) s = execThermalTrip t rs s := rfl
    refine ⟨fun stays => he.trans (if_pos ?_), fun on hot => ?_⟩
    · rcases stays with h | h <;> simp [h]
    · rw [he, execThermalTrip, if_neg (by simpa [on] using hot)]
      exact resetAs_of_actReset (by simp [flushAll_advance, powerDown, deviceReset])
  case stage =>
    refine .ite (fun _ => (Kept.upd_pwr (by decide) _).2 (.refl _ _)) fun _ => .chain (shedTo_kept _ _) (by decide) (.foldl' ?_ fun _ _ => raiseFault_kept _ _ _)
    exact (Kept.upd_pwr (by decide) _).2 ((Kept.upd_pwr (by decide) _).2 (.refl _ _))
  case release =>
    have he : exec (.rstNRelease t) s = execRstNRelease t s := rfl
    refine ⟨fun stays => he.trans (if_pos ?_), fun on low => he.trans (if_neg (by simp [on, low]))⟩
    rcases stays with h | h <;> simp [h]
  case timeout =>
    have he : exec (.firmwareStartTimeout t) s = execFirmwareStartTimeout t s := rfl
    refine ⟨fun stays => he.trans (if_pos ?_), fun up act start => ?_⟩
    · rcases stays with h | h | h <;> simp [h]
    · rw [he, execFirmwareStartTimeout, if_neg (by simp [up, act, start])]
      exact resetAs_of_actReset (by simp [flushAll_advance, deviceReset, resetOther, HostIf.kept])
  case startup =>
    refine .ite (fun _ => (Kept.upd_pwr (by decide) _).2 (.refl _ _)) fun _ => ?_
    have slot : Kept startupParts (advance s t) (if a = true then
        if (advance s t).host.activating = true then { advance s t with host := { (advance s t).host with fallback := false } } else advance s t
        else { advance s t with host := { (advance s t).host with slot := 1 - (advance s t).host.slot, fallback := true } }) := by
      refine .ite (fun _ => .ite (fun _ => ?_) fun _ => .refl _ _) fun _ => ?_
      · exact (kept_host { (advance s t).host with fallback := false } rfl rfl rfl rfl).mono (by decide)
      · exact (kept_host { (advance s t).host with slot := 1 - (advance s t).host.slot, fallback := true }
          rfl rfl rfl rfl).mono (by decide)
    refine .ite (fun _ => .chain (enterFatal_kept _ _) (by decide) ?_) fun _ => ?_ <;>
    exact .foldl' (.foldl' (.chain (ready_kept _) (by decide) (.chain (startVersions_kept _ _) (by decide) slot))
      fun _ _ => (startLock_kept _ _ _ _).mono (by decide)) fun _ _ => (startupFail_kept _ _).mono (by decide)

end Sys2Proof.Machine
end

section
/-! PROOF. What the rows of the host port and of losses, transfers and edges do where the rules allow them (R155, R254, R272, R398, R419, R451 to R464). -/

namespace Sys2Proof.Machine

/-- What a row leaves, whatever its frame. -/
theorem RowActs.follows {i : Instr} {o : Host.Outcome State Fault Refusal} {t : Nat} {s x : State} {f : State → State} (r : RowActs i o t s f)
    (hup : s.pwr.down = false) (hf : f (advance s t) = x) : ∃ u, exec i s = .next u ∧ Follows x u :=
  act_follows (r.dispatch.trans r.acts) hup hf

/-! ## Doorbells and registers that the rules allow -/

section
variable {s : State} {n v : Nat}

theorem sqTailWrite_accepted (hst : (s.ses n).st = 1) (hv : v < sqSize (s.ses n))
    (hold : ((s.ses n).sqTail + sqSize (s.ses n) - (s.ses n).sqHead) % sqSize (s.ses n) ≤ (v + sqSize (s.ses n) - (s.ses n).sqHead) % sqSize (s.ses n)) :
    sqTailWrite s n v = leaseStart (s.setSes n { s.ses n with sqTail := v, fetcherr := false }) n :=
  (if_neg (not_not.2 hst)).trans (if_pos ⟨hv, hold⟩)

theorem cqHeadWrite_accepted (hst : (s.ses n).st = 1) (hv : v < cqSize (s.ses n)) (hin : (v + cqSize (s.ses n) - (s.ses n).cqHead) % cqSize (s.ses n) ≤ cqUnread s n)
    (hheld : (s.cplR n).held = false) :
    cqHeadWrite s n v = (leaseStart (s.setSes n { s.ses n with cqHead := v }) n).setCplR n { s.cplR n with held := false, holdUntil := s.now } := by
  unfold cqHeadWrite
  dsimp only
  rw [if_neg (not_not.2 hst), if_pos ⟨hv, hin⟩, if_neg (by simp [hheld])]

theorem evtHeadWrite_accepted (hen : s.host.evtEnable = true) (hv : v < evtSize s)
    (hin : (v + evtSize s - s.host.evtHead) % evtSize s ≤ (s.host.evtTail + evtSize s - s.host.evtHead) % evtSize s) :
    evtHeadWrite s v = { s with host := { s.host with
      evtHead := v, evtUnsig := min s.host.evtUnsig (evtUnread { s with host := { s.host with evtHead := v } }) } } :=
  if_pos ⟨hen, hv, hin⟩

theorem strdbWrite_accepted (hon : (s.dma n).on = true) (hmode : (s.dma n).mode = 2)
    (hd : (v + 2^32 - (s.dma n).hrpos % 2^32) % 2^32 ≤ (s.dma n).hwpos - (s.dma n).hrpos) :
    strdbWrite s n v = s.setDma n { s.dma n with hrpos := (s.dma n).hrpos + (v + 2^32 - (s.dma n).hrpos % 2^32) % 2^32 } :=
  (if_neg (by simp [hon, hmode])).trans (if_pos hd)

theorem qctlOpen_accepted (hst : (s.ses n).st = 0) (hr : (s.ses n).ringsOk = true) : qctlOpen s n = sesOpen s n 0 (s.ses n).cookieReg :=
  if_pos (by simp [hst, hr])

theorem qctlReclaim_accepted (hst : (s.ses n).st = 2) (hc : (s.ses n).cookieReg = (s.ses n).cookie) (hr : (s.ses n).ringsOk = true)
    (hp : inProgOf s n < cqSize (s.ses n)) : qctlReclaim s n = sesOpen s n 3 (s.ses n).cookie :=
  if_pos (by simp [hst, hc, hr, hp])

theorem qctlClose_accepted (h : (s.ses n).st = 1 ∨ ((s.ses n).st = 2 ∧ (s.ses n).cookieReg = (s.ses n).cookie)) :
    qctlClose s n = startRelease (s.modSes n (fun y => { y with cfgerr := false })) n 0 :=
  if_pos (by simpa using h)

theorem leaseWrite_accepted (h : fld v 0 17 ≤ 86400) :
    leaseWrite s n v = leaseStart (s.modSes n (fun x => { x with lease := BitVec.ofNat 32 (v &&& 0x8001FFFF) })) n :=
  if_neg (Nat.not_lt.2 h)

theorem evtCtlWrite_enables (hv : bit v 0 = true) (hoff : s.host.evtEnable = false) (hk : 6 ≤ fld s.host.evtCfg.toNat 0 5)
    (hk' : fld s.host.evtCfg.toNat 0 5 ≤ 16) (hbase : s.host.evtBaseLo.toNat % 4096 = 0) :
    evtCtlWrite s v = { s with host := { s.host with evtEnable := true, evtHead := 0, evtTail := 0, evtPhase := true, evtUnsig := 0, evRing := [] } } := by
  unfold evtCtlWrite
  dsimp only
  rw [if_neg (by simp [hv]), if_neg (by simp [hoff]), if_neg (by simp [hbase]; omega)]

theorem evtCtlWrite_disables (hv : bit v 0 = false) : evtCtlWrite s v = evtDiscard { s with host := { s.host with evtEnable := false } } :=
  if_pos (by simp [hv])

theorem ctlCodeWrite_accepted (hon : (s.ctlO n).on = true) (hd : (s.ctlO n).direct = true) : ctlCodeWrite s n v = ctlDrw s n (fld v 0 12) :=
  if_pos (by simp [hon, hd])

theorem drwWrite_evtMask : drwWrite s 0x110 v = { s with host := { s.host with evtMask := BitVec.ofNat 32 v &&& 0x7FFF } } := rfl

theorem readAux_new (hprev : s.aux.prev = none) (hnew : bit s.aux.data.toNat 30 = true) :
    readAux s = { readOut s s.aux.data with aux := { s.aux with data := s.aux.data &&& 0x3FFFFFFF } } := by
  unfold readAux
  simp only [hprev]
  rw [if_pos hnew]

end

/-- Settles O13: each doorbell or register write by what it does where its conditions hold, and the latched reads. -/
theorem hostWritesComplete : Obligations.HostWritesComplete := by
  unfold Obligations.HostWritesComplete
  refine ⟨fun t n v s hup a b c => RowActs.follows (o := execSqTailWrite t n v s) ⟨rfl, rfl⟩ hup (sqTailWrite_accepted a b c),
    fun t n v s hup a b c d => RowActs.follows (o := execCqHeadWrite t n v s) ⟨rfl, rfl⟩ hup (cqHeadWrite_accepted a b c d),
    fun t v s hup a b c => RowActs.follows (o := execEvtHeadWrite t v s) ⟨rfl, rfl⟩ hup (evtHeadWrite_accepted a b c),
    fun t n v s hup a b c => RowActs.follows (o := execStrdbWrite t n v s) ⟨rfl, rfl⟩ hup (strdbWrite_accepted a b c),
    fun t n s hup e a b => RowActs.follows (o := execQctlOpen t n s) ⟨rfl, rfl⟩ hup ((hostWrite_runs e).trans (qctlOpen_accepted a b)),
    fun t n s hup e a b c d => RowActs.follows (o := execQctlReclaim t n s) ⟨rfl, rfl⟩ hup ((hostWrite_runs e).trans (qctlReclaim_accepted a b c d)),
    fun t n s hup e a => RowActs.follows (o := execQctlClose t n s) ⟨rfl, rfl⟩ hup ((hostWrite_runs e).trans (qctlClose_accepted a)),
    fun t n v s hup e a => RowActs.follows (o := execLeaseWrite t n v s) ⟨rfl, rfl⟩ hup ((hostWrite_runs e).trans (leaseWrite_accepted a)),
    fun t v s hup e a b c => RowActs.follows (o := execEvtCtlWrite t v s) ⟨rfl, rfl⟩ hup
      ((hostWrite_runs e).trans (evtCtlWrite_enables a b c.1 c.2.1 c.2.2)),
    fun t v s hup e a => RowActs.follows (o := execEvtCtlWrite t v s) ⟨rfl, rfl⟩ hup ((hostWrite_runs e).trans (evtCtlWrite_disables a)),
    fun t n v s hup e a b _ => RowActs.follows (o := execCtlCodeWrite t n v s) ⟨rfl, rfl⟩ hup ((hostWrite_runs e).trans (ctlCodeWrite_accepted a b)),
    fun t v s hup e => RowActs.follows (o := execRegisterWrite t 0x110 v 0 s) ⟨rfl, rfl⟩ hup ?mask,
    fun t s hup => RowActs.follows (o := execTime0Read t s) ⟨rfl, rfl⟩ hup rfl,
    fun t s hup => RowActs.follows (o := execSerial0Read t s) ⟨rfl, rfl⟩ hup rfl,
    fun t s hup => RowActs.follows (o := execLatchedWordRead t 0 s) ⟨rfl, rfl⟩ hup rfl,
    fun t s hup => RowActs.follows (o := execLatchedWordRead t 1 s) ⟨rfl, rfl⟩ hup rfl,
    fun t s hup => RowActs.follows (o := execLatchedWordRead t 2 s) ⟨rfl, rfl⟩ hup rfl,
    fun t s hup => RowActs.follows (o := execLatchedWordRead t 3 s) ⟨rfl, rfl⟩ hup rfl,
    fun t s hup => RowActs.follows (o := execLatchedWordRead t 4 s) ⟨rfl, rfl⟩ hup rfl,
    fun t s hup a b => RowActs.follows (o := execAuxDataRead t s) ⟨rfl, rfl⟩ hup (readAux_new a b)⟩
  case mask => exact (if_neg (by decide)).trans ((if_pos rfl).trans ((hostWrite_runs e).trans drwWrite_evtMask))

/-! ## Losses, hand-overs, transfers and edges -/

/-- What every loss of lock does first: its fault, its window, its event and its count (R254). -/
def lossReported (s : State) (k : Nat) (freq : Bool) : State :=
  countLoss (post (pllWindow (raiseFault s ((if freq then 0x0208 else 0x0204) + k) {}) k ((if freq then 0x0208 else 0x0204) + k)) 0x0201
    (pack [(2, k), (1, b2n freq), (13, 0), (16, if freq then 32000 else 160)]))

theorem lockLoss_locked {s : State} {k : Nat} (freq : Bool) (hst : (s.pll k).st = 4) (hatt : (s.pll k).attempt = 0) :
    lockLoss s k freq {} = if (s.pll k).autoRel = true
      then pllRelock ((pllLost (lossReported s k freq) k).modPll k (fun y => { y with st := 6 })) k (pllTarget s k) false true
      else (pllLost (lossReported s k freq) k).modPll k (fun y => { y with st := 6 }) := by
  unfold lockLoss lossReported
  simp only [hst, hatt]
  rfl

theorem driveFail_spare {s : State} {n : Nat} (cause status : Nat) {s3 : State} (hok : (s.link n).ok = true)
    (hspare : (s.move.mounted && (s.link n).member) = false)
    (hs3 : s3 = openWindow (raiseFault (post (if cause = 0 then linkDown (s.modLink n (fun x => { x with ok := false })) n
      else s.modLink n (fun x => { x with ok := false })) 0x0B06 (pack [(2, n), (2, 0), (4, cause), (8, 0), (16, if cause = 2 then status else 0)]))
      (0x2200 + n) { master := 13, inst := n }) (0x2200 + n) [0x21, 0x22] [] true)
    (hnone : s3.host.inProg.filter (fun p => p.opcode == 0x0B0E && p.unit_ == n) = []) (hjob : s3.move.job = 0) :
    driveFail s n cause status = s3 := by
  unfold driveFail
  simp only [hok, hspare, Bool.not_true, Bool.not_false, Bool.false_eq_true, if_false, if_true, ← hs3, hnone, List.foldl_nil, hjob]
  rfl

theorem handFirst_takes {s : State} {n : Nat} {d : Desc} (hr : ((dmaWaits s n).dma n).handReady (dmaWaits s n).now = true)
    (hd : ((dmaWaits s n).dma n).shadow = some d) (hok : descReason (dmaWaits s n) ((dmaWaits s n).dma n) d = 0)
    (hlast : ((dmaWaits s n).dma n).mode ≠ 0 ∨ d.last = true) :
    handFirst s n = (dmaWaits s n).setDma n { (dmaWaits s n).dma n with
      shadow := none, active := some d, moved := 0, crc := if d.crcrst then 0xFFFFFFFF else ((dmaWaits s n).dma n).crc } := by
  have hnext : ¬((decide (((dmaWaits s n).dma n).mode = 0) && !d.last && !nextPast (dmaWaits s n) ((dmaWaits s n).dma n) d) = true) := by
    rcases hlast with h | h <;> simp [h]
  unfold handFirst
  rw [if_pos hr]
  unfold handOver
  simp only [hd, hok, if_true, decide_true, Bool.and_true]
  rw [if_neg hnext]

theorem transferEnd_readOut (s : State) {q : InProg} (hu : q.unit_ = transferWait)
    (hop : q.opcode ≠ 0x0005 ∧ q.opcode ≠ 0x0901 ∧ q.opcode ≠ 0x0907 ∧ q.opcode ≠ 0x0D07) :
    transferEnd s q = finish (regWrite s (q.data.getD 2 0) (q.data.getD 3 0) (bytesOf (q.data.drop 4))) q (q.data.headD 0 / 256) (q.data.headD 0 % 256)
      (q.data.getD 1 0) := by
  obtain ⟨h5, h901, h907, hD07⟩ := hop
  unfold transferEnd
  simp only [if_neg h901, if_neg h907, if_neg hD07, if_neg h5, if_pos hu]

theorem transferEnd_groveLoad (s : State) {q : InProg} (hop : q.opcode = 0x0901) :
    transferEnd s q = finish (feedWrite s 32 q.unit_ (q.data.headD 0) (bytesOf q.data.tail)) q 0 0 0 := if_pos hop

/-- An edge for the time interval unit alone, past the dead time, is stamped and counted, and the statistics take it (R272). -/
theorem edgeStamp_selected {s : State} {n c : Nat} {fall : Bool} (hc : s.clk.coarse = false) (ht : tiuSel s n fall = true) (he : extSel s n fall = false)
    (hp : ppsSel s n fall = false) (hdead : (s.tiuIn n).deadEnd ≤ rawTime2 (s.tiuIn n) s.now c) (hq : (s.tiuIn n).queueOn = false) :
    edgeStamp s n fall c = (List.range 4).foldl (fun a k => statStamp a k n (stampAt s n s.now c) false (s.tiuIn n).uncal)
      (s.setTiuIn n { s.tiuIn n with
        deadEnd := rawTime2 (s.tiuIn n) s.now c + 262144, last := stampAt s n s.now c, seq := ((s.tiuIn n).seq + 1) % 2^32 }) := by
  unfold edgeStamp
  simp only [hc, ht, he, hp, hq, Bool.false_eq_true, if_false, if_true, Bool.and_false]
  rw [if_neg (not_lt.2 hdead)]

theorem armDue_arms {s : State} {a w : Nat} (hat : (s.au a).armAt = some w) (hw : w ≤ s.now) :
    armDue s a = if streamsStopped s a = true then finishAll (s.modAu a (fun u => { u with armAt := none })) 0x0504 a stState 0 0
      else finishAll (armNow s a) 0x0504 a 0 4 (armResult (armNow s a) a) := by
  unfold armDue
  simp only [hat]
  rw [if_neg (Nat.not_lt.2 hw)]

/-- Settles O14: each row by what it does where what it ends, takes or watches is there. -/
theorem lossAndTransferRowsComplete : Obligations.LossAndTransferRowsComplete := by
  unfold Obligations.LossAndTransferRowsComplete
  have transfer : ∀ t i s, RowActs (.commandTransferEnd t i) (execCommandTransferEnd t i s) t s _ := fun _ _ _ => ⟨rfl, rfl⟩
  refine ⟨fun t k f s hup a b c => RowActs.follows (o := execPllLockLoss t k f s) ⟨rfl, rfl⟩ hup ((lockLoss_locked f a b).trans (if_neg (by simp [c]))),
    fun t k f s hup a b c => RowActs.follows (o := execPllLockLoss t k f s) ⟨rfl, rfl⟩ hup ((lockLoss_locked f a b).trans (if_pos c)),
    fun t f ppm s hup w => RowActs.follows (o := execRefInLoss t f ppm s) ⟨rfl, rfl⟩ hup (if_neg (by simp only [w]; decide)),
    fun t s hup ok => RowActs.follows (o := execNodeLoss t s) ⟨rfl, rfl⟩ hup (if_neg (by simp only [ok]; decide)),
    fun t n c st s hup a b d e => RowActs.follows (o := execDriveFail t n c st s) ⟨rfl, rfl⟩ hup (driveFail_spare c st a b rfl d e),
    fun t n d s hup a b c e => RowActs.follows (o := execDmaHandover t n s) ⟨rfl, rfl⟩ hup (handFirst_takes a b c e),
    fun t i q s hup hq hp hu hop => (transfer t i s).follows hup ?readOut, fun t i q s hup hq hop => (transfer t i s).follows hup ?groveLoad,
    fun t n f c s hup => ?edge, fun t s hup => RowActs.follows (o := execAcqArmAtCt t s) ⟨rfl, rfl⟩ hup rfl,
    fun s a w hat hw => ⟨fun run => (armDue_arms hat hw).trans (if_neg (by simp [run])), fun stop => (armDue_arms hat hw).trans (if_pos stop)⟩⟩
  case readOut =>
    simp only [hq]
    exact (if_neg (by simp [hp])).trans (transferEnd_readOut _ hu hop)
  case groveLoad =>
    simp only [hq]
    exact (if_neg (by simp [hop])).trans (transferEnd_groveLoad _ hop)
  case edge =>
    intro s' u x v T testing sel pre coarse sel' ext pps dead queue
    have acts : RowActs (.inputEdge t n f c) (execInputEdge t n f c s) t s _ := ⟨rfl, rfl⟩
    have hx : v.tiuIn n = x := State.tiuIn_setTiuIn_self ..
    have passed : edgeStamp v n f (min c 191) = _ := edgeStamp_selected (s := v) coarse sel' ext pps (by rw [hx]; exact dead) (by rw [hx]; exact queue)
    rw [hx] at passed
    refine acts.follows hup ((if_neg ?testing).trans ((if_neg ?selected).trans ((if_neg ?scaled).trans passed)))
    case testing => exact Bool.eq_false_iff.1 testing
    case selected => rw [sel]; simp
    case scaled => rw [pre]; simp

end Sys2Proof.Machine
end
